-- ==== Sys2Proof/Word.lean ====
section
/-! DEFINITION. The words, identifiers and sparse tables of the module (spec: 00_scope "Numbers, units and bits", "Terms"). -/

namespace Sys2Proof

/-- A byte of any memory, register or structure (R11). -/
abbrev Byte := BitVec 8

/-- A word is 32 bits (00_scope, "Terms"). -/
abbrev Word := BitVec 32

/-- A sparse table keyed by a number: the keys rise strictly, and an absent key stands for the table's default
value, so that equal tables are equal lists. Every array of like things in the state is held this way. -/
abbrev Tab (α : Type) := List (Nat × α)

/-- PF0 is function 0 and VFn is function n (00_scope, "Household names"). -/
abbrev FnId := Fin 17
/-- A physical room, and with it its stack and its attic slice (R2, R19). -/
abbrev RoomId := Fin 16
/-- A partition P0 to P15. -/
abbrev PartId := Fin 16
/-- A Freoft port FP0 to FP29 (R400). -/
abbrev PortId := Fin 30
/-- A mailbox slot of a function (R320). -/
abbrev SlotId := Fin 8
/-- A stream channel of a room (R243). -/
abbrev ChanId := Fin 16
/-- A wait-on-count token or a flag counter (R301, R311). -/
abbrev TokenId := Fin 64
/-- A security channel SC0 to SC31 (R364). -/
abbrev ScId := Fin 32
/-- An interrupt source of Gysis (R342). -/
abbrev SrcId := Fin 256
/-- A Gysis core (R318). -/
abbrev CoreId := Fin 4
/-- A clock domain in the order of R475: ACLK, LCLK, FCLK, CCLK, MCLK, SCLK. -/
abbrev ClkId := Fin 6
/-- A switched power domain (R485). -/
abbrev DomId := Fin 120

end Sys2Proof
end

