-- ==== Sys2Proof/Machine/Types.lean ====
section
/-! DEFINITION. The record types that both the commands and the state use: descriptors, rotation codes, places, labels,
vector instructions and the vocabularies of events. Each follows the table of the spec that its docstring names. -/

namespace Sys2Proof.Machine

/-- Where an object lies: a byte offset that is the same in every room of the partition, in the attic (R88) or in the cellar (R85). -/
structure Place where
  cellar : Bool
  off : Nat
deriving DecidableEq, Repr

/-- The stream descriptor of R247, field by field. -/
structure Desc where
  op : Nat
  flags : BitVec 8
  srcSpace : Nat
  dstSpace : Nat
  srcRoom : Nat
  dstRoom : Nat
  dstModule : Nat
  srcBase : Nat
  dstBase : Nat
  blkLines : Nat
  hostBuf : Nat
  blkRows : Nat
  srcPitch : Nat
  dstPitch : Nat
  idxBase : Nat
  idxSpace : Nat
  idxForm : Nat
  token : Nat
  idxCount : Nat
  rowStride : Nat
  colStride : Nat
  fillWord : Word
deriving DecidableEq, Repr

/-- The label of R63, field by field; `info` holds the sixteen bytes of FORM_INFO and `crcOk` is not stored: a label that is
written always carries its right MAGIC, VERSION and CRC. -/
structure Label where
  form : Nat
  logN : Nat
  check : Bool
  poison : Bool
  repr : Bool
  limbs : Nat
  level : Nat
  polys : Nat
  layout : Nat
  home : Nat
  keyset : Nat
  cause : Nat
  scale : Int
  noise : Nat
  producer : Nat
  info : List Byte
  bodyBytes : Nat
deriving DecidableEq, Repr

/-- The tensors that an instruction works on (R184): where its result's label goes, its operands' labels, and whether it is the last of the series of
instructions that its operation is issued as (R167). -/
structure TensorRef where
  dst : Place
  ins : List Place
  last : Bool
deriving DecidableEq, Repr

/-- A source operand of a vector instruction (R167): a vector register, an attic run of words in the room's own attic, the same as the words of a tensor
that the operation works on (R184), one broadcast constant, or the fast generator (R283). -/
inductive VSrc where
  | none
  | reg (r : Fin 32)
  | attic (off : Nat)
  | tensor (t : TensorRef) (off : Nat)
  | const (w : Word)
  | rng (seed : BitVec 64) (stream : Word) (dist : Fin 5) (param : Nat) (base : Nat)
deriving DecidableEq, Repr

/-- Stage 1 of R164. -/
inductive VConvert where
  | bypass
  /-- Widen or convert from the element code of R68 to fp32 or int32. -/
  | widen (elem : Fin 7) (toFp : Bool)
  /-- Unpack block-scaled int4 with the scale byte run at the attic offset, to fp32 or to the element alone (R175, R178). -/
  | unpack4 (scaleOff : Nat) (toFp : Bool)
  /-- Signed lift of a residue to (-p/2, p/2], as int32 or fp32. -/
  | lift (p : Nat) (toFp : Bool)
  /-- An element of an element code as a residue modulo p. -/
  | residue (elem : Fin 7) (p : Nat)
  /-- Expand under the mask register, with an optional fill source 2 (R171). -/
  | expand (mask : Fin 32) (runLen : Nat)
deriving DecidableEq, Repr

/-- Stage 2 of R164: source a times source b. -/
inductive VMul where
  | bypass
  | fp
  | int
  | modular (desc : BitVec 128)
deriving DecidableEq, Repr

/-- Stage 3 of R164: plus or minus source c. -/
inductive VAdd where
  | bypass
  | fp (sub : Bool)
  | int (sub : Bool)
  | modular (desc : BitVec 128)
deriving DecidableEq, Repr

/-- Stage 4 of R164, against source c when the add stage is bypassed, else source b. The comparison codes are 0 equal, 1 less than,
2 less or equal. -/
inductive VCompare where
  | bypass
  | mask (cmp : Fin 3) (fp : Bool)
  | select (mask : Fin 32)
  | min (fp : Bool)
  | max (fp : Bool)
  | abs (fp : Bool)
deriving DecidableEq, Repr

/-- Stage 5 of R164. -/
inductive VApprox where
  | bypass | exp2 | log2 | recip | rsqrt | tanh | sigmoid
deriving DecidableEq, Repr

/-- Stage 6 of R164. -/
inductive VPack where
  | bypass
  | narrow (elem : Fin 7) (fromFp : Bool) (sat : Bool)
  | block4 (scaleOff : Nat) (fromFp : Bool)
  | compress (mask : Fin 32)
deriving DecidableEq, Repr

/-- A vector instruction (R165): `tensor` names the tensors that it works on, if any; the configuration of the six stages, up to three sources and one destination.
`fromVcount` takes the length from VCOUNT (R172). -/
structure VInstr where
  len : Nat
  fromVcount : Bool
  a : VSrc
  b : VSrc
  c : VSrc
  convert : VConvert
  mul : VMul
  add : VAdd
  compare : VCompare
  approx : VApprox
  pack : VPack
  dst : Fin 32
  dstAttic : Option Nat
  tensor : Option TensorRef
deriving DecidableEq, Repr

/-- The events of the error catalogue (R454) that reach a room sequencer, each with what it is counted against.
`attic` carries layer, bank and row of the room or another room of the partition; `cellar` carries the physical stack and the line. -/
inductive RoomEvent where
  | atticParity (room : RoomId) (layer : Fin 3) (bank : Fin 66) (row : Nat)
  | ibufParity
  | laneParity
  | twiddleParity (keyset prime : Nat)
  | landingParity
  | vectorParity
  | checkMismatch (pau : Fin 4) (coeff : Nat) (limbs : BitVec 61)
  | cellarUncorr (stack : RoomId) (line : Nat)
  | lostList (stack : RoomId)
  | remote
  | watchdog
  | bounds
  | badDesc
  | forcedMove
  | other
deriving DecidableEq, Repr

/-- A request that waits at a stack (R257): of a room's stream unit, a line or a pantry piece; of the host-copy engine, BAR2 or a Freoft link; or the stack's own
background traffic. -/
inductive Traffic where
  | stream (room : RoomId) (write pantry : Bool)
  | hostCopy
  | bar2
  | link
  | background
deriving DecidableEq, Repr

/-- A read of a register (R12, R17): its byte offset in BAR0, and 1, 2, 4 or 8 bytes. -/
structure RegRead where
  off : Nat
  width : Nat
deriving DecidableEq, Repr

/-- A set of twiddle words (R90): its key set, and the index of its prime in it. -/
structure TwiddleSet where
  keyset : Nat
  prime : Nat
deriving DecidableEq, Repr

/-- A teardown (R211, R393): the slot that runs it, and the attic rows, by room, layer, bank and row, that its read-back finds not zero. -/
structure TeardownSlot where
  slot : SlotId
  found : List (Nat × Nat × Nat × Nat) := []
deriving DecidableEq, Repr

/-- The channels of R454 and R456: the smallest unit a fault is confined to. -/
inductive FaultChan where
  | atticRow (room layer bank row : Nat)
  | atticBank (room layer bank : Nat)
  | pauSet (room : Nat)
  | pau (room k : Nat)
  | transform (room : Nat)
  | vector (room : Nat)
  | sequencer (room : Nat)
  | room (room : Nat)
  | cellarRow (stack pc sid bank row : Nat)
  | pseudo (stack pc : Nat)
  | lane (port l : Nat)
  | port (port : Nat)
  | core (c : Nat)
  | security
  | drbg
  | chip
deriving DecidableEq, Repr

/-- Device states (R531). -/
inductive DevState where
  | powerOn | fuses | loading | selfTest | training | ready | recovery | halted | test
deriving DecidableEq, Repr

/-- The codes of DevState (R531). -/
def DevState.code : DevState → Nat
  | .powerOn => 0 | .fuses => 1 | .loading => 2 | .selfTest => 3 | .training => 4
  | .ready => 5 | .recovery => 6 | .halted => 7 | .test => 8

/-- What raises a cold reset (R499). -/
inductive ResetSource where
  | rstN (lowNs : Nat)
  | perstN
  | moduleReset
  | refclk
  | hotReset
deriving DecidableEq, Repr

/-- A coherence request of R359: a read, of an LR with `reserve`; ownership, with the block that the causing store leaves; or an access of an agent that is no
core. -/
inductive CohKind where
  | read (reserve : Bool) | own (store : Option (BitVec 512)) | agentRead | agentWrite (data : BitVec 512)
deriving DecidableEq, Repr

/-- Key-parity outcomes of a cache access (R361). -/
inductive CacheParity where
  | ok | clean | dirty | directory
deriving DecidableEq, Repr

/-- Flit kinds inside a codeword (R408): tag and payload lines. `part` is, at the sending module, the partition whose stream injected the
flit; 16 for every other flit (R389). It is on no wire. -/
structure Flit where
  kind : Fin 4
  vc : Fin 8
  ctx : Fin 64
  line : BitVec 8
  data : List Byte
  part : Nat := 16
deriving DecidableEq, Repr

/-- The codeword header of R407. -/
structure CwHeader where
  seq : BitVec 12
  ack : BitVec 12
  nak : Bool
  valid : BitVec 4
  crVc : Fin 8
  crTotal : BitVec 12
deriving DecidableEq, Repr

/-- The context flit of R409, field by field. -/
structure Ctx where
  dstModule : Nat
  dstPart : Nat
  dstRoom : Nat
  space : Nat
  base : Nat
  pitch : Nat
  blkLines : Nat
  flagged : Bool
  flag : Nat
  masked : Bool
  hops : Nat
  srcModule : Nat
  srcRoom : Nat
  srcChan : Nat
  ackId : Nat
  lines : Nat
  block : Nat
  bootId : Nat
  originTime : Nat
  firstMask : BitVec 128
  lastMask : BitVec 128
deriving DecidableEq, Repr

/-- One entry of an acknowledgement flit (R411). -/
structure AckEntry where
  srcRoom : Nat
  srcChan : Nat
  ackId : Nat
  lines : Nat
deriving DecidableEq, Repr

/-- A digest record (R442). -/
structure DigestRec where
  mblock : Nat
  replay : Bool
  err : Bool
  d1 : BitVec 64
  d2 : BitVec 64
  cause : Nat
deriving DecidableEq, Repr

/-- A link-control flit's content (R406, R418, R428, R430): time stamps, and a lane-map or tap request. -/
structure LinkCtl where
  txTime : Nat
  rxEcho : Nat
  rxAt : Nat
  laneMap : Option (BitVec 8)
  laneConfirm : Bool
  tapRequest : Bool
deriving DecidableEq, Repr

/-- What a port exchanges in training step 6 (R420). -/
structure PortIdentity where
  systemId : BitVec 64
  module : Nat
  numbered : Bool
  port : Nat
  dim : Nat
  freeBufs : List Nat
deriving DecidableEq, Repr

/-- An image region of the flash as the verification of R382 reads it. `sigsOk` is what the two signature checks answer. -/
structure Image where
  present : Bool
  signer : Fin 4
  keysMatch : Bool
  sigsOk : Bool
  svn : Nat
  fuseSvn : Bool
  version : Nat
  digest : List Byte
  /-- The microcode programs that a bundle holds (R383). -/
  programs : List Nat := []
deriving DecidableEq, Repr

/-- The signed configuration (R504, R555): its board parameters, its SHA-384 and its SVN. -/
structure BoardConfig where
  outletLimit : Int
  currentLimit : List Nat
  digest : List Byte := []
  svn : Nat := 0
deriving DecidableEq, Repr

/-- An IEEE 1149.1 instruction of R521. -/
inductive TapInstr where
  | idcode | bypass | samplePreload | extest | intest | clamp | highz
  | userAtticTest (room : RoomId) | userLaneTest (room : RoomId)
deriving DecidableEq, Repr

/-- A PCIe configuration request of R512 and R355: a read, or a write of the bits the module acts on. -/
inductive CfgReq where
  | read
  | msixControl (enable funcMask : Bool)
  | busMaster (on : Bool)
  | vfEnable
deriving DecidableEq, Repr

/-- A command as Gysis reads it from its slot: request bytes beyond REQ_LEN read as zero (R323). -/
structure Req where
  op : Nat
  seq : Nat
  ctrl : Nat
  len : Nat
  vector : Nat
  body : List Byte
deriving DecidableEq, Repr

/-- An INPUT message (R438): a line or part of one written into the partition from outside a block, with the flag that a flagged line advances, or a job
doorbell. -/
inductive InputMsg where
  | line (room : Nat) (cellar : Bool) (off : Nat) (flag : Option (Fin 64)) (data : List Byte)
  | doorbell (tail : BitVec 16)
deriving DecidableEq, Repr

/-- What the peer's side says when a MIRROR_SET is looked at (R433): no command of its own yet; its matching command, with whether its partition holds state
(R434); or one that does not match, or another room count, GENERATION or RINZO_VERSION. -/
inductive PeerAnswer where
  | silent
  | matching (holds : Bool)
  | mismatch
deriving DecidableEq, Repr

/-- What a resync copies (R452), as the source sends it: lines that are not zero, by room index; key sets with their descriptors; keys and look-up keys with
their headers; programs with their containers; pinned keys; the job ring with its indices; flag counters by room index. -/
inductive ResyncRec where
  | line (room : Nat) (cellar : Bool) (off : Nat) (data : List Byte)
  | keyset (id : Nat) (active : Bool) (desc : List Byte)
  | key (home : Nat) (header : List Byte)
  | lut (home : Nat) (header : List Byte)
  | program (handle home : Nat) (container : List Byte)
  | pin (key off epoch : Nat) (lut : Bool)
  | ring (off : Nat) (head tail : BitVec 16)
  | flag (room flag : Nat) (count : BitVec 16)
deriving DecidableEq, Repr

/-- A plaintext matrix-vector product (R177 to R180): `rows` rows of `words` words of x, cut into `segs` segments; int8 with the
signedness of each operand, or bf16; where W, x and the accumulators lie in the room's attic. -/
structure MatOp where
  rows : Nat
  words : Nat
  segs : Nat
  bf16 : Bool
  signedW : Bool
  signedX : Bool
  wOff : Nat
  xOff : Nat
  yOff : Nat
  wide : Bool
  tensor : Option TensorRef
deriving DecidableEq, Repr

/-- The distribution of a flood (R275): bounded uniform, or the Gaussian table at an attic origin. -/
inductive FloodOp where
  | uniform (logB : Nat)
  | gauss (off : Nat)
deriving DecidableEq, Repr

/-- A random operation (R281, R284): seed, stream, distribution, parameter, base, and the form, dimensions and layout of the named
output. -/
structure RandOp where
  seed : BitVec 64
  stream : Word
  dist : Fin 5
  param : Nat
  base : BitVec 64
  form : Fin 4
  rank : Nat
  dims : List Nat
  layout : Nat
  home : Nat
deriving DecidableEq, Repr

/-- A sampling of tokens (R285): TEMP as an fp32 word, SEED and STREAM. -/
structure SampleOp where
  temp : Word
  seed : BitVec 64
  stream : Word
deriving DecidableEq, Repr

end Sys2Proof.Machine
end

