-- ==== Sys2Proof/Syntax.lean ====
section
/-! DEFINITION. The commands of the module: one constructor for each row of spec/opcode_table.json, in the table's order,
those without operands last. The operands are what the row's rule names of the stimulus, and what the rule takes from outside the module: host memory, a
sensor, a pin, a partner or a measurement. -/

namespace Sys2Proof

open Sys2Proof.Machine

/-- The commands of the module. -/
inductive Instr where
  /-- POST (R322). A host write of 1 to a POST bit of MBX_DOORBELL moves a FREE mailbox slot to POSTED and sets its STATUS to IN_PROGRESS. -/
  | post (f : FnId) (bits : BitVec 8)
  /-- RELEASE (R321). A host write of 1 to a RELEASE bit of MBX_RELEASE returns a DONE mailbox slot to FREE. -/
  | release (f : FnId) (bits : BitVec 8)
  /-- SLOT_BYTE_WRITE (R323). A host write to mailbox slot bytes is stored when the slot is FREE, and is otherwise ignored and counted as a rights violation. -/
  | slotByteWrite (f : FnId) (slot : SlotId) (off : Nat) (data : List Byte)
  /-- SLOT_TAKE (R326). Gysis takes a POSTED slot, runs the checks of R328 and moves the slot to RUNNING, or ends it at once with an error status. -/
  | slotTake (f : FnId) (slot : SlotId)
  /-- JOBQ_DOORBELL (R534). A VF write of a new tail index publishes job-ring entries, or is ignored and counted when it is invalid. -/
  | jobqDoorbell (f : FnId) (tail : BitVec 16)
  /-- INT_MASK_WRITE (R353). A write to INT_MASK sets the mask and raises the event vector when a MASK bit is cleared while its cause bit is set. -/
  | intMaskWrite (f : FnId) (v : BitVec 32)
  /-- REGISTER_WRITE (R12). A write to any BAR0 register without a row of its own acts on its fields according to their access codes, reserved bits and rights. -/
  | registerWrite (f : FnId) (off : Nat) (width : Nat) (v : BitVec 64)
  /-- LOW_HALF_READ (R17). A 32-bit read of the low half of a 64-bit register returns it and latches the high half for the next high-half read by the same function. -/
  | lowHalfRead (f : FnId) (off : RegRead)
  /-- BAR2_READ (R541). A VF read through a BAR2 aperture returns cellar lines, or completes poisoned with all-ones data on an uncorrectable burst, a lost line or a 50 µs timeout. -/
  | bar2Read (f : FnId) (addr : Nat) (len : Nat) (timedOut : Bool)
  /-- BAR2_WRITE (R541). A VF write through a BAR2 aperture writes a whole line, or merges a partial line in the controller; it is dropped on an uncorrectable merge read and forwarded as INPUT in a leader twin. -/
  | bar2Write (f : FnId) (addr : Nat) (data : List Byte) (be : List Bool)
  /-- MSIX_TABLE_WRITE (R354). A host write to the MSI-X table or its masks updates a vector entry, and a request waiting for the unmask proceeds. -/
  | msixTableWrite (f : FnId) (off : Nat) (data : List Byte)
  /-- QUERY_INFO (R331). Returns firmware version, Rinzo version, generation, state, flags, function, partition, module number and room mask. -/
  | queryInfo (f : FnId) (slot : SlotId)
  /-- PRIME_TABLE (R37). Returns COUNT modulus descriptors of the boot-ROM prime table from index FIRST. -/
  | primeTable (f : FnId) (slot : SlotId)
  /-- PARTITION_CREATE (R385). Checks the request and creates a partition with its rooms, shares, port mask and cupboard quota. -/
  | partitionCreate (f : FnId) (slot : SlotId)
  /-- PARTITION_DESTROY (R393). Tears a partition down: stops its rooms, halts its channels, clears attic, room state, cellar and cupboard, and returns its rooms to the free pool. -/
  | partitionDestroy (f : FnId) (slot : TeardownSlot)
  /-- PARTITION_QUERY (R331). Returns the shares, mirror state, rooms, ports, quota and object counts of a partition. -/
  | partitionQuery (f : FnId) (slot : SlotId)
  /-- MIRROR_SET (R433). Forms, switches the mode of, or ends a mirrored pair with a peer partition on another module. -/
  | mirrorSet (f : FnId) (slot : SlotId) (peer : PeerAnswer)
  /-- MIRROR_SET_TIMEOUT (R433). When the peer's matching MIRROR_SET has not arrived within 10 s, the first command ends with FAILED. -/
  | mirrorSetTimeout (p : PartId)
  /-- KEYSET_REGISTER (R332). Reads and validates a key-set descriptor from the cellar and registers the key set in the partition. -/
  | keysetRegister (f : FnId) (slot : SlotId)
  /-- KEYSET_ACTIVATE (R91). Computes the key set's twiddle sets and writes them into the twiddle store of every room of the partition, or ends with NO_RESOURCE. -/
  | keysetActivate (f : FnId) (slot : SlotId)
  /-- KEYSET_DEACTIVATE (R91). Requests deactivation of a key set, which takes effect once no room has a block using it in flight. -/
  | keysetDeactivate (f : FnId) (slot : SlotId)
  /-- KEYSET_DEACTIVATION_EFFECT (R91). At the first boundary where no room holds a block using the key set, its twiddle sets are released and the long command completes. -/
  | keysetDeactivationEffect (p : PartId) (keyset : Nat)
  /-- KEYSET_RELEASE (R331). Releases a registered key set that is neither active nor in use by registered keys, or ends with BUSY. -/
  | keysetRelease (f : FnId) (slot : SlotId)
  /-- KEY_REGISTER (R121). Reads and checks every copy of a key header and registers or replaces the key at a key-table index under the epoch rule. -/
  | keyRegister (f : FnId) (slot : SlotId)
  /-- KEY_REMOVE (R122). Frees a key index or LUT index once no room uses the key, keeping its last epoch. -/
  | keyRemove (f : FnId) (slot : SlotId)
  /-- KEY_RELEASE_COMPLETE (R122). When no room any longer uses the previous key of an index, a pending replacement or removal reports OK. -/
  | keyReleaseComplete (p : PartId) (lut : Bool) (index : Nat)
  /-- LUT_KEY_REGISTER (R154). Reads and checks a look-up key header and registers it at its LUT_INDEX under the epoch rule. -/
  | lutKeyRegister (f : FnId) (slot : SlotId)
  /-- KEY_LIST (R331). Lists the partition's registered keys from index FIRST in ascending order. -/
  | keyList (f : FnId) (slot : SlotId)
  /-- PROGRAM_LOAD (R291). Checks a program container, its refresh plans and its resource table, and returns a program handle. -/
  | programLoad (f : FnId) (slot : SlotId)
  /-- PROGRAM_UNLOAD (R291). Unloads a program, or ends with BUSY while a job of it is queued or running. -/
  | programUnload (f : FnId) (slot : SlotId)
  /-- JOB_RING_SET (R304). Sets the cellar offset of the VF's job ring and sets HEAD and TAIL to zero. -/
  | jobRingSet (f : FnId) (slot : SlotId)
  /-- HOSTBUF_REGISTER (R331). Registers a host buffer with its address, size and permissions and returns a handle. -/
  | hostbufRegister (f : FnId) (slot : SlotId)
  /-- HOSTBUF_RELEASE (R331). Releases a host-buffer handle, or ends with BUSY while a copy, stream or command uses it. -/
  | hostbufRelease (f : FnId) (slot : SlotId)
  /-- HOST_COPY (R333). Validates up to 14 segments and moves them between host buffers and the partition's cellar in 4 KiB pieces. -/
  | hostCopy (f : FnId) (slot : SlotId) (hostIn : List Byte)
  /-- TELEMETRY_READ (R335). Returns up to 29 telemetry records sampled within 2 µs of one timestamp. -/
  | telemetryRead (f : FnId) (slot : SlotId)
  /-- LEDGER_DRAIN (R337). Returns up to MAX held ledger entries from FROM, and advances the drained cursor when ACK is set. -/
  | ledgerDrain (f : FnId) (slot : SlotId)
  /-- LEDGER_STATS (R338). Returns the ledger cursors, LOST and the rights-violation counts of every function. -/
  | ledgerStats (f : FnId) (slot : SlotId)
  /-- CELLAR_REPAIR_LIST_RECORD (R235). CELLAR_REPAIR SUB 0 lists the repair record with the state of each repair. -/
  | cellarRepairListRecord (f : FnId) (slot : SlotId)
  /-- CELLAR_REPAIR_LIST_FREE (R235). CELLAR_REPAIR SUB 1 lists the free repair resources of each bank. -/
  | cellarRepairListFree (f : FnId) (slot : SlotId)
  /-- CELLAR_REPAIR_LIST_PENDING (R235). CELLAR_REPAIR SUB 2 lists the rows awaiting hard repair. -/
  | cellarRepairListPending (f : FnId) (slot : SlotId)
  /-- CELLAR_REPAIR_SOFT (R235). CELLAR_REPAIR SUB 3 requests soft repair of a named row in READY. -/
  | cellarRepairSoft (f : FnId) (slot : SlotId)
  /-- CELLAR_REPAIR_HARD (R235). CELLAR_REPAIR SUB 4 requests hard repair of a named row in TEST. -/
  | cellarRepairHard (f : FnId) (slot : SlotId)
  /-- POWER_CAP_SET (R486). Sets the module power cap between 1,000 W and 2,000 W, with 0 selecting the thermal design power. -/
  | powerCapSet (f : FnId) (slot : SlotId)
  /-- ROUTE_LOAD (R422). Reads and checks a routing table, which then takes effect at the next frame boundary of all ports. -/
  | routeLoad (f : FnId) (slot : SlotId) (hostIn : List Byte)
  /-- FIRMWARE_STAGE (R382). Stages a firmware image or microcode bundle, verifies it in full and writes it to flash only when it is accepted. -/
  | firmwareStage (f : FnId) (slot : SlotId) (hostIn : List Byte)
  /-- MODULE_RESET (R341). Answers OK and starts a warm or cold module reset 1 ms later. -/
  | moduleReset (f : FnId) (slot : SlotId)
  /-- ATTEST (R381). Writes an Alias-signed attestation report with the Alias and DeviceID certificates to a host buffer. -/
  | attest (f : FnId) (slot : SlotId)
  /-- BREAK_SET (R316). Sets a break-on-count or break-on-tag on a room in the debug-permitted states. -/
  | breakSet (f : FnId) (slot : SlotId)
  /-- BREAK_CLEAR (R316). Clears the breaks of a room. -/
  | breakClear (f : FnId) (slot : SlotId)
  /-- ROOM_RESUME (R316). Resumes a room that is stopped at a break, or acts as ROOM_ABORT after a forced clock move. -/
  | roomResume (f : FnId) (slot : SlotId)
  /-- ROOM_ABORT (R316). Aborts a room that is stopped at a break by replaying its block from the checkpoint. -/
  | roomAbort (f : FnId) (slot : SlotId)
  /-- DEBUG_READ (R316). Copies a stopped room's queues, tokens and scalars, attic or cellar to a host buffer. -/
  | debugRead (f : FnId) (slot : SlotId)
  /-- BREAK_HIT (R316). A room's block counter or a queue tag reaches a set break, and the room stops dispatch and holds. -/
  | breakHit (r : RoomId)
  /-- SECURITY_RANDOM (R368). SECURITY_OP RANDOM returns LENGTH bytes of DRBG output. -/
  | securityRandom (f : FnId) (slot : SlotId)
  /-- SHA_256 (R368). SECURITY_OP SHA-256 hashes a message in 4 KiB chunks. -/
  | sha256 (f : FnId) (slot : SlotId) (hostIn : List Byte)
  /-- SHA_384 (R368). SECURITY_OP SHA-384 hashes a message in 4 KiB chunks. -/
  | sha384 (f : FnId) (slot : SlotId) (hostIn : List Byte)
  /-- SHA_512 (R368). SECURITY_OP SHA-512 hashes a message in 4 KiB chunks. -/
  | sha512 (f : FnId) (slot : SlotId) (hostIn : List Byte)
  /-- SHA3_256 (R368). SECURITY_OP SHA3-256 hashes a message in 4 KiB chunks. -/
  | sha3x256 (f : FnId) (slot : SlotId) (hostIn : List Byte)
  /-- HMAC_SHA_256 (R368). SECURITY_OP HMAC-SHA-256 computes a tag under a cupboard MAC key. -/
  | hmacSha256 (f : FnId) (slot : SlotId) (hostIn : List Byte)
  /-- HMAC_SHA_384 (R368). SECURITY_OP HMAC-SHA-384 computes a tag under a cupboard MAC key. -/
  | hmacSha384 (f : FnId) (slot : SlotId) (hostIn : List Byte)
  /-- HMAC_SHA_512 (R368). SECURITY_OP HMAC-SHA-512 computes a tag under a cupboard MAC key. -/
  | hmacSha512 (f : FnId) (slot : SlotId) (hostIn : List Byte)
  /-- AES_256_CTR (R368). SECURITY_OP AES-256-CTR encrypts or decrypts data under a cupboard key. -/
  | aes256Ctr (f : FnId) (slot : SlotId) (hostIn : List Byte)
  /-- ECDSA_P256_SIGN (R368). SECURITY_OP signs a digest with a cupboard P-256 key and checks the signature before output. -/
  | ecdsaP256Sign (f : FnId) (slot : SlotId) (hostIn : List Byte)
  /-- ECDSA_P384_SIGN (R368). SECURITY_OP signs a digest with a cupboard P-384 key and checks the signature before output. -/
  | ecdsaP384Sign (f : FnId) (slot : SlotId) (hostIn : List Byte)
  /-- ECDSA_P256_VERIFY (R368). SECURITY_OP verifies an ECDSA P-256 signature and returns RESULT. -/
  | ecdsaP256Verify (f : FnId) (slot : SlotId) (hostIn : List Byte)
  /-- ECDSA_P384_VERIFY (R368). SECURITY_OP verifies an ECDSA P-384 signature and returns RESULT. -/
  | ecdsaP384Verify (f : FnId) (slot : SlotId) (hostIn : List Byte)
  /-- ED25519_SIGN (R368). SECURITY_OP signs a message with a cupboard Ed25519 key. -/
  | ed25519Sign (f : FnId) (slot : SlotId) (hostIn : List Byte)
  /-- ED25519_VERIFY (R368). SECURITY_OP verifies an Ed25519 signature and returns RESULT. -/
  | ed25519Verify (f : FnId) (slot : SlotId) (hostIn : List Byte)
  /-- RSA_3072_PSS_SIGN (R368). SECURITY_OP signs a SHA-384 digest with a cupboard RSA-3072 key. -/
  | rsa3072PssSign (f : FnId) (slot : SlotId) (hostIn : List Byte)
  /-- RSA_4096_PSS_SIGN (R368). SECURITY_OP signs a SHA-384 digest with a cupboard RSA-4096 key. -/
  | rsa4096PssSign (f : FnId) (slot : SlotId) (hostIn : List Byte)
  /-- RSA_3072_PSS_VERIFY (R368). SECURITY_OP verifies an RSA-3072 PSS signature and returns RESULT. -/
  | rsa3072PssVerify (f : FnId) (slot : SlotId) (hostIn : List Byte)
  /-- RSA_4096_PSS_VERIFY (R368). SECURITY_OP verifies an RSA-4096 PSS signature and returns RESULT. -/
  | rsa4096PssVerify (f : FnId) (slot : SlotId) (hostIn : List Byte)
  /-- MLDSA87_SIGN (R368). SECURITY_OP signs a message with a cupboard ML-DSA-87 key, failing after 512 iterations. -/
  | mldsa87Sign (f : FnId) (slot : SlotId) (hostIn : List Byte)
  /-- MLDSA87_VERIFY (R368). SECURITY_OP verifies an ML-DSA-87 signature and returns RESULT. -/
  | mldsa87Verify (f : FnId) (slot : SlotId) (hostIn : List Byte)
  /-- ECDH_P256 (R368). SECURITY_OP agrees a shared secret with a peer P-256 point into cupboard entry DEST. -/
  | ecdhP256 (f : FnId) (slot : SlotId) (hostIn : List Byte)
  /-- ECDH_P384 (R368). SECURITY_OP agrees a shared secret with a peer P-384 point into cupboard entry DEST. -/
  | ecdhP384 (f : FnId) (slot : SlotId) (hostIn : List Byte)
  /-- MLKEM1024_ENCAPS (R368). SECURITY_OP encapsulates to an ek and stores the shared secret at DEST. -/
  | mlkem1024Encaps (f : FnId) (slot : SlotId) (hostIn : List Byte)
  /-- MLKEM1024_DECAPS (R368). SECURITY_OP decapsulates a ciphertext with a cupboard key and stores the shared secret at DEST. -/
  | mlkem1024Decaps (f : FnId) (slot : SlotId) (hostIn : List Byte)
  /-- KEYGEN (R368). SECURITY_OP generates a key of TYPE into cupboard entry DEST and returns its public key. -/
  | keygen (f : FnId) (slot : SlotId)
  /-- PUBKEY (R368). SECURITY_OP returns the public key of an asymmetric cupboard entry. -/
  | pubkey (f : FnId) (slot : SlotId)
  /-- DESTROY (R372). SECURITY_OP overwrites a cupboard entry with zero and reads it back. -/
  | destroy (f : FnId) (slot : SlotId)
  /-- UNWRAP (R368). SECURITY_OP unwraps AES-KWP wrapped material into cupboard entry DEST on a privileged channel. -/
  | unwrap (f : FnId) (slot : SlotId) (hostIn : List Byte)
  /-- MICROCODE_PROGRAM (R383). SECURITY_OP 0x0100–0x010F runs a Sowesta-signed microcode program on a maker channel. -/
  | microcodeProgram (f : FnId) (slot : SlotId) (hostIn : List Byte)
  /-- HASH_CHUNK_GRANT (R379). The HASH or AES unit grants one 4 KiB chunk to a waiting channel, switching contexts in 64 SCLK. -/
  | hashChunkGrant (aes : Bool)
  /-- IMPORT (R31). Converts a limb from standard form to lane form and poisons it NONCANONICAL when a word is not below its prime. -/
  | import_ (p : PartId) (obj : Place)
  /-- EXPORT (R79). Converts limbs from lane form back to standard form, also on poisoned objects, comparing only unpoisoned ones. -/
  | export_ (p : PartId) (obj : Place)
  /-- CHECK (R87). Compares the label copies and check limbs of an object and rewrites its labels as poisoned on a difference. -/
  | check (p : PartId) (obj : Place)
  /-- RELABEL (R69). Lowers NOISE to a proved value and recomputes PRODUCER and CRC. -/
  | relabel (p : PartId) (obj : Place) (noise : Nat)
  /-- ADD (R70). Adds two ciphertexts or a ciphertext and a plaintext polynomial with the implied level drop. -/
  | add (p : PartId) (dst a b : Place)
  /-- SUBTRACT (R70). Subtracts two ciphertexts or a ciphertext and a plaintext polynomial. -/
  | subtract (p : PartId) (dst a b : Place)
  /-- MULTIPLY_BY_INTEGER (R70). Multiplies an object by an integer constant. -/
  | multiplyByInteger (p : PartId) (dst a : Place) (c : Int)
  /-- MULTIPLY_BY_PLAINTEXT (R183). Multiplies each limb word by word with a plaintext polynomial in evaluation representation. -/
  | multiplyByPlaintext (p : PartId) (dst a b : Place)
  /-- TENSOR_PRODUCT (R70). Multiplies two ciphertexts of POLYS 2 into one of POLYS 3. -/
  | tensorProduct (p : PartId) (dst a b : Place)
  /-- RESCALE (R562). Removes the highest chain limb of a form 0 object and divides by its prime. -/
  | rescale (p : PartId) (dst a : Place)
  /-- MODULUS_SWITCH (R562). Removes the highest chain limb of a form 1 object with the rescale arithmetic. -/
  | modulusSwitch (p : PartId) (dst a : Place)
  /-- LEVEL_DROP (R70). Lowers LEVEL by k, in place or by copying the limbs in use. -/
  | levelDrop (p : PartId) (dst a : Place) (k : Nat)
  /-- TRANSFORM (R98). Changes the representation of an object's limbs by the four-step forward or inverse NTT. -/
  | transform (p : PartId) (dst a : Place) (toEval : Bool)
  /-- AUTOMORPHISM (R105). Applies a Galois automorphism to a plaintext polynomial on the landing. -/
  | automorphism (p : PartId) (dst a : Place) (code : Word)
  /-- RELINEARISE (R127). Key-switches c2 of a POLYS 3 ciphertext with the relinearisation key. -/
  | relinearise (p : PartId) (dst a : Place)
  /-- ROTATE (R101). Applies the automorphism of a rotation code and key-switches c1. -/
  | rotate (p : PartId) (dst a : Place) (code : Word)
  /-- CONJUGATE (R101). Applies the conjugation automorphism and key-switches c1. -/
  | conjugate (p : PartId) (dst a : Place)
  /-- KEY_SWITCH (R127). Switches a polynomial to the main secret in the five phases of R127. -/
  | keySwitch (p : PartId) (dst a : Place) (kind : Nat) (rot : Word)
  /-- HOISTED_ROTATE (R137). Rotates one ciphertext by up to 64 codes, sharing phases 1 and 2. -/
  | hoistedRotate (p : PartId) (dsts : List Place) (a : Place) (codes : List Word)
  /-- ROTATE_ACCUMULATE (R138). Sums the rotations of a ciphertext by up to 64 codes with one phase 4. -/
  | rotateAccumulate (p : PartId) (dst a : Place) (codes : List Word)
  /-- PIN (R133). Copies a registered key's positions into a resident attic area in each room. -/
  | pin (p : PartId) (index : Nat) (off : Nat)
  /-- UNPIN (R133). Frees a pinned key area at the next command-block boundary. -/
  | unpin (p : PartId) (index : Nat)
  /-- APPROXIMATE_REFRESH (R144). Restores the level of a form 0 ciphertext by a homomorphic decryption under a refresh plan. -/
  | approximateRefresh (p : PartId) (dst a : Place) (program : Nat) (plan : Nat)
  /-- EXACT_REFRESH (R148). Restores the level of a form 1 ciphertext at level 0 under a refresh plan. -/
  | exactRefresh (p : PartId) (dst a : Place) (program : Nat) (plan : Nat)
  /-- EXTRACT (R152). Key-switches to the extraction secret and writes LWE samples for listed coefficient positions. -/
  | extract (p : PartId) (dst a : Place) (positions : List Nat)
  /-- LOOK_UP (R156). Runs a blind rotation per sample with a look-up key and one to four tables. -/
  | lookUp (p : PartId) (dsts : List Place) (a : Place) (lut : Nat) (tables : List Place)
  /-- PACK (R162). Packs a batch of LWE samples into the slots of a form 0 ciphertext. -/
  | pack (p : PartId) (dst a secret : Place) (program : Nat) (plan : Nat)
  /-- LWE_ADD (R145). Adds two batches of LWE samples. -/
  | lweAdd (p : PartId) (dst a b : Place)
  /-- LWE_SUBTRACT (R145). Subtracts two batches of LWE samples. -/
  | lweSubtract (p : PartId) (dst a b : Place)
  /-- LWE_MULTIPLY_BY_INTEGER (R145). Multiplies a batch of LWE samples by an integer. -/
  | lweMultiplyByInteger (p : PartId) (dst a : Place) (c : Int)
  /-- VECTOR_OPERATION (R165). Runs data once through the six-stage vector-engine chain. -/
  | vectorOperation (r : RoomId) (v : VInstr)
  /-- COMPRESS (R170). Writes the elements selected by a mask densely and sets VCOUNT. -/
  | compress (r : RoomId) (src : VSrc) (mask : Fin 32) (dst : Fin 32) (len : Nat)
  /-- EXPAND (R171). Spreads a dense run back to the positions set in a mask. -/
  | expand (r : RoomId) (src : VSrc) (runLen : Nat) (mask : Fin 32) (fill : VSrc) (dst : Fin 32) (len : Nat)
  /-- ENCODE (R182). Turns a plaintext tensor of coefficients into a plaintext polynomial. -/
  | encode (p : PartId) (dst a : Place) (form1 : Bool) (keyset level : Nat) (scale : Int) (check : Bool)
  /-- PLAINTEXT_MATRIX_PRODUCT (R179). Computes a plaintext matrix-vector product on the PAU lanes in normal or wide-shallow mode. -/
  | plaintextMatrixProduct (r : RoomId) (m : MatOp)
  /-- FLOOD (R275). Adds fresh noise generated under the block key to polynomial 0. -/
  | flood (p : PartId) (obj : Place) (d : FloodOp)
  /-- DRAW_SEED (R279). Writes 64 bits of block-key expander output into a scalar register. -/
  | drawSeed (p : PartId) (reg : TokenId)
  /-- RANDOM (R281). Fills a plaintext tensor with fast-generator values of a distribution. -/
  | random (p : PartId) (dst : Place) (g : RandOp)
  /-- SAMPLE_TOKEN (R285). Returns per row the Gumbel-max token index of a logits tensor. -/
  | sampleToken (p : PartId) (dst a : Place) (g : SampleOp)
  /-- COPY (R248). A stream descriptor that moves one block between spaces. -/
  | copy (r : RoomId) (ch : ChanId) (d : Desc) (hostIn : List Byte)
  /-- GATHER (R248). A stream descriptor that gathers indexed source blocks into consecutive destination blocks. -/
  | gather (r : RoomId) (ch : ChanId) (d : Desc) (hostIn : List Byte)
  /-- SCATTER (R248). A stream descriptor that scatters consecutive source blocks to indexed destination blocks. -/
  | scatter (r : RoomId) (ch : ChanId) (d : Desc) (hostIn : List Byte)
  /-- KEY_STREAM (R248). A KEY descriptor that resolves key index entries and fills the key window under its tile tokens. -/
  | keyStream (r : RoomId) (ch : ChanId) (d : Desc)
  /-- PANTRY_GATHER (R248). Reads indexed pieces of 1–32 bytes through the pantry port into attic slots. -/
  | pantryGather (r : RoomId) (ch : ChanId) (d : Desc)
  /-- PANTRY_SCATTER (R248). Writes attic slots to indexed pieces through the pantry port. -/
  | pantryScatter (r : RoomId) (ch : ChanId) (d : Desc)
  /-- FILL (R248). Writes FILL_WORD to every word of a destination block. -/
  | fill (r : RoomId) (ch : ChanId) (d : Desc)
  /-- RE_PITCH (R268). A layout-change copy that changes the row pitch of a block. -/
  | rePitch (r : RoomId) (ch : ChanId) (d : Desc)
  /-- TRANSPOSE (R268). A layout-change copy that transposes the two innermost dimensions. -/
  | transpose (r : RoomId) (ch : ChanId) (d : Desc)
  /-- RE_DEAL (R268). A layout-change copy between the DEALT, HOMED and INTERLEAVED layouts. -/
  | reDeal (p : PartId) (dst a : Place) (layout : Fin 3) (home : Nat)
  /-- COMPACT (R70). A compacting copy of an object to one with fewer limbs. -/
  | compact (p : PartId) (dst a : Place)
  /-- ALIGN (R268). A layout-change copy that aligns a block. -/
  | align (r : RoomId) (ch : ChanId) (d : Desc)
  /-- DESCRIPTOR_BY_ADDRESS (R247). A program issues a descriptor that it has built in its own attic at run time. -/
  | descriptorByAddress (r : RoomId) (ch : ChanId) (off : Nat) (hostIn : List Byte)
  /-- WAIT (R301). Holds a command until a token count is reached. -/
  | wait (r : RoomId) (q : Fin 4) (tok : TokenId) (count : BitVec 16)
  /-- SIGNAL (R301). Increments a token when its command completes. -/
  | signal (r : RoomId) (q : Fin 4) (tok : TokenId)
  /-- FENCE (R310). Waits for every earlier command of the room in all four queues. -/
  | fence (r : RoomId)
  /-- BARRIER (R310). Waits for every room of the partition after an implied fence in each and ends the block. -/
  | barrier (r : RoomId)
  /-- FLAG_WAIT (R310). Waits on a flag counter before the next block. -/
  | flagWait (r : RoomId) (flag : TokenId) (count : BitVec 16)
  /-- DESCRIPTOR_COMPLETE (R254). When every line of a descriptor has been performed, the stream unit increments its TOKEN. -/
  | descriptorComplete (r : RoomId) (ch : ChanId)
  /-- CHANNEL_HALT (R262). A parity error, bus error or halt cause stops a stream channel, makes its tags stale and reports a bus error to the room sequencer. -/
  | channelHalt (r : RoomId) (ch : ChanId) (cause : Fin 7) (failAt : Nat)
  /-- STALE_TAG_TIMEOUT (R246). A stale tag becomes free 2 ms after it became stale. -/
  | staleTagTimeout (r : RoomId) (tag : Nat)
  /-- STALE_RESPONSE (R246). A response that arrives for a stale tag is discarded and frees the tag. -/
  | staleResponse (r : RoomId) (tag : Nat)
  /-- REMOTE_ACK_TIMEOUT (R263). A remote acknowledgement not received within 2 ms halts the channel with cause REMOTE. -/
  | remoteAckTimeout (r : RoomId) (ch : ChanId)
  /-- KEY_TILE_RETURN (R131). The last lane read of a key-window tile returns its token. -/
  | keyTileReturn (r : RoomId) (tile : Nat)
  /-- REGULATOR_SLOT (R259). Each line slot that a stack offers refills the class buckets and goes to one waiting request in class order. -/
  | regulatorSlot (stack : RoomId) (waiting pantry : List Traffic)
  /-- BLOCK_START (R295). At a command-block start the room takes its checkpoint and applies pending chip-level actions. -/
  | blockStart (r : RoomId) (exchange : Bool) (uses : List Nat)
  /-- BLOCK_COMPLETE (R296). A completed block increments the block counter, writes its completion record and erases its block key. -/
  | blockComplete (r : RoomId)
  /-- EXCHANGE_BLOCK_RELEASE (R563). Once every room of the partition has completed an exchange block, the rooms may start the next block. -/
  | exchangeBlockRelease (p : PartId)
  /-- WATCHDOG_EXPIRY (R297). A block not completed after 2^23 ACLK of execution is treated as a transient upset and replayed. -/
  | watchdogExpiry (r : RoomId)
  /-- ROOM_ERROR (R458). A bus error, unresolved trap, halt or watchdog expiry reaching the room sequencer stops dispatch and leads to classification and replay. -/
  | roomError (r : RoomId) (e : RoomEvent)
  /-- INSTRUCTION_PARITY_TRAP (R303). A parity error on an instruction-buffer fetch or queue entry traps and refetches the line up to twice. -/
  | instructionParityTrap (r : RoomId) (refetchOk : Bool)
  /-- JOB_START (R306). Every room of the partition starts the next job once the previous job has finished and its writes are performed. -/
  | jobStart (p : PartId)
  /-- JOB_COMPLETE (R306). The module writes DONE_BLOCKS, STATUS and CAUSE, advances the ring head and raises VECTOR when IRQ is set. -/
  | jobComplete (p : PartId)
  /-- PAU_RETIRE (R462). A PAU that fails its known-answer test is retired, and the room runs on 1,536 lanes. -/
  | pauRetire (r : RoomId) (k : Fin 4)
  /-- ROOM_RETIRE (R463). A room is retired: the partition stops, and objects and keys are reflowed to the remaining rooms before the replay. -/
  | roomRetire (r : RoomId) (live : List Place)
  /-- CORE_RETIRE (R319). A faulty Gysis core 1–3 is retired and its roles and interrupt targets move. -/
  | coreRetire (c : CoreId)
  /-- ROW_REMAP (R204). At a block boundary the attic copies a failing row to a spare row, holding the bank for 4 ACLK. -/
  | rowRemap (r : RoomId) (layer : Fin 3) (bank : Nat) (row : Nat)
  /-- BANK_COPY (R205). An attic bank copy to a spare bank starts at a block boundary and runs at half rate. -/
  | bankCopy (r : RoomId) (layer : Fin 3) (bank : Nat)
  /-- BANK_COPY_END (R205). The bank copy finishes after 32,768 ACLK, and the spare bank serves every row. -/
  | bankCopyEnd (r : RoomId) (layer : Fin 3)
  /-- ATTIC_SWEEP_READ (R207). A bank takes a sweep read of its next row in a free slot and checks parity. -/
  | atticSweepRead (r : RoomId) (layer : Fin 3) (bank : Nat) (bad : Bool)
  /-- ATTIC_SWEEP_FORCED (R208). A sweep read that has waited 65,536 ACLK takes the bank's next slot. -/
  | atticSweepForced (r : RoomId) (layer : Fin 3) (bank : Nat) (bad : Bool)
  /-- ATTIC_SELF_TEST (R201). Runs the six-step pattern test and the parity-checker test over every physical attic row. -/
  | atticSelfTest (r : RoomId) (failing : List (Nat × Nat × Nat))
  /-- CELLAR_REFRESH (R236). A per-bank refresh is issued to each pseudo-channel every tREFI/48, with postponement. -/
  | cellarRefresh (stack : RoomId) (pc : Nat) (bank : Nat) (busy : Bool)
  /-- REFRESH_FORCED (R236). A bank with 8 postponed refreshes is refreshed at its next free slot ahead of requests. -/
  | refreshForced (stack : RoomId) (pc : Nat) (bank : Nat)
  /-- RFM (R237). A refresh-management command is issued when the stack's activation counts require it. -/
  | rfm (stack : RoomId) (pc : Nat) (bank : Nat)
  /-- STACK_TEMP_READ (R232). Every 128 µs the controller reads its stack temperature and applies the thermal level within 1 µs. -/
  | stackTempRead (stack : RoomId) (temp : Option Int)
  /-- LEVEL4_TIMEOUT (R233). A stack that stays at level 4 for 1 s has its room retired. -/
  | level4Timeout (stack : RoomId)
  /-- CELLAR_SWEEP_READ (R238). A pseudo-channel takes a sweep read and lists lines with uncorrectable bursts as lost. -/
  | cellarSweepRead (stack : RoomId) (pc : Nat) (corr uncorr : BitVec 4)
  /-- CELLAR_SWEEP_FORCED (R238). A cellar sweep read that has waited 65,536 CCLK takes the next slot. -/
  | cellarSweepForced (stack : RoomId) (pc : Nat) (corr uncorr : BitVec 4)
  /-- SWEEP_REWRITE (R238). A line with a corrected burst is rewritten at the next free slot unless a write has been accepted since. -/
  | sweepRewrite (stack : RoomId) (line : Nat)
  /-- CELLAR_CALIBRATION (R239). A channel recalibrates its PHY every 64 ms or after a 5 °C change, deferring up to 4 ms. -/
  | cellarCalibration (stack : RoomId) (ch : Nat) (ok : Bool)
  /-- CALIBRATION_RETRY (R239). A failed calibration is retried 1 ms later. -/
  | calibrationRetry (stack : RoomId) (ch : Nat) (ok : Bool)
  /-- ROW_REPAIR (R234). At a block boundary the controller soft-repairs a faulty cellar row and writes back its lines. -/
  | rowRepair (stack : RoomId) (pc sid bank row : Nat)
  /-- PC_RETIRE (R222). A pseudo-channel retirement starts at a block boundary and copies its lines to the repair reserve by copy pointer. -/
  | pcRetire (stack : RoomId) (pc : Nat)
  /-- PC_COPY_END (R222). The pseudo-channel copy finishes and the reserve serves every relocated line. -/
  | pcCopyEnd (stack : RoomId)
  /-- REQUEST_AGE_LIMIT (R224). A cellar request that has waited 2 µs behind younger ones is served next. -/
  | requestAgeLimit (stack : RoomId)
  /-- MRET (R344). A core leaves its interrupt handler and may take further interrupts. -/
  | mret (c : CoreId)
  /-- HOLDOFF_EXPIRY (R348). A group's hold-off time elapses, and its pending sources become deliverable. -/
  | holdoffExpiry (g : Fin 8)
  /-- VECTOR_REQUEST (R355). Firmware requests an MSI-X vector, which is dropped, held pending, merged or sent as a memory write. -/
  | vectorRequest (f : FnId) (v : Fin 32)
  /-- MSIX_HOLDOFF_EXPIRY (R355). HOLDOFF elapses for a vector, and its merged request is sent. -/
  | msixHoldoffExpiry (f : FnId) (v : Fin 32)
  /-- DIRECTORY_REQUEST (R359). An L2 bank directory serves a coherence request from a core or agent. -/
  | directoryRequest (c : CoreId) (addr : Nat) (kind : CohKind) (parity : CacheParity)
  /-- EVICTION_WRITEBACK (R360). A dirty block's writeback reaches the directory and updates L2, or is discarded after a forward. -/
  | evictionWriteback (c : CoreId) (addr : Nat)
  /-- DRBG_REINSTANTIATE (R272). 10 ms after a failure the DRBG instantiates again, and after three failures a chip-level fault is raised. -/
  | drbgReinstantiate (ok : Bool)
  /-- BLOCK_KEY_REQUEST (R273). A block's first flood or draw-seed request obtains a 256-bit block key, delivered to every room's noise-key register. -/
  | blockKeyRequest (p : PartId)
  /-- CODEWORD_RECEIVE (R404). A link codeword is decoded and checked, and its header ACK, NAK and credits and its sequenced flits are taken. -/
  | codewordReceive (port : PortId) (cw : List (BitVec 10))
  /-- NAK_RETRANSMIT (R416). On seeing NAK, the sender retransmits in order from ACK + 1. -/
  | nakRetransmit (port : PortId)
  /-- ACK_STALL_RETRANSMIT (R416). When ACK has not advanced for 2 µs, the sender retransmits from the oldest unacknowledged flit. -/
  | ackStallRetransmit (port : PortId)
  /-- LINK_CONTROL_FLIT (R406). A link-control flit carries lane-map changes, transmitter-tap requests and time stamps, which update time synchronisation. -/
  | linkControlFlit (port : PortId) (c : LinkCtl)
  /-- LANE_RETIRE (R418). Firmware retires a lane by proposing a new lane map, which the partner confirms. -/
  | laneRetire (port : PortId) (lane : Fin 8)
  /-- LANE_MAP_APPLY (R418). Both sides apply a confirmed lane map at codeword 0 of the second frame after confirmation. -/
  | laneMapApply (port : PortId)
  /-- TAP_CHANGE_APPLY (R430). A requested transmitter-tap change is applied at the next frame boundary. -/
  | tapChangeApply (port : PortId)
  /-- PORT_RETIRE (R419). A port is retired and its queued and unacknowledged flits are re-queued to other ports. -/
  | portRetire (port : PortId)
  /-- TRAINING_ATTEMPT (R420). A port with signal on at least four lanes runs a seven-step training attempt. -/
  | trainingAttempt (port : PortId) (lanes : BitVec 8) (partner : PortIdentity)
  /-- TRAINING_TIMEOUT (R420). A training attempt that does not reach step 7 within 20 ms fails. -/
  | trainingTimeout (port : PortId)
  /-- TRAINING_BACKOFF_EXPIRY (R421). A random back-off after a failed attempt elapses, or a DOWN port's one-second retry falls due. -/
  | trainingBackoffExpiry (port : PortId)
  /-- SIGNAL_DETECT (R510). A DOWN port that detects signal on at least four lanes starts training within 1 ms. -/
  | signalDetect (port : PortId) (lanes : BitVec 8)
  /-- CONTEXT_FLIT (R424). A context flit arrives and is forwarded on a chosen port, dropped on HOPS or time, or tracked for performing. -/
  | contextFlit (port : PortId) (vc : Fin 8) (ctxNo : Fin 64) (c : Ctx)
  /-- DATA_FLIT (R410). A data flit is performed at the receiving room under the remote-write rights, or ignored and counted. -/
  | dataFlit (port : PortId) (vc : Fin 8) (ctxNo : Fin 64) (line : Nat) (data : List Byte)
  /-- ACK_ENTRY_TIMEOUT (R411). An acknowledgement entry is issued 1 µs after the oldest unacknowledged line was performed. -/
  | ackEntryTimeout (port : PortId) (vc : Fin 8) (ctxNo : Fin 64)
  /-- ACK_FLIT_TIMEOUT (R411). An acknowledgement flit is sent 1 µs after its first entry. -/
  | ackFlitTimeout (module : Nat)
  /-- ACK_FLIT (R411). An acknowledgement flit arrives and completes lines at the sender, or its late entries are discarded. -/
  | ackFlit (port : PortId) (vc : Fin 8) (origin : Nat) (dstModule : Nat) (entries : List AckEntry)
  /-- MARGIN_SWEEP (R429). Every 10 s a lane's spare slicer sweeps the eye and reports its height and width. -/
  | marginSweep (port : PortId) (lane : Fin 8) (height : Nat) (width : Nat)
  /-- COMMAND (R438). A mirror COMMAND message is applied by the follower's firmware before the leader's command reports OK. -/
  | command (p : PartId) (opcode : Nat) (payload : List Byte)
  /-- INPUT (R438). A mirror INPUT line is performed in the follower's cellar in arrival order. -/
  | input (p : PartId) (m : InputMsg)
  /-- HOSTREAD (R438). A mirror HOSTREAD line is used by the follower's stream unit in place of its own host read. -/
  | hostread (p : PartId) (room : Nat) (ch : ChanId) (data : List Byte)
  /-- BLOCKKEY (R438). A wrapped block key arrives at the follower and releases its flood and draw-seed operations. -/
  | blockkey (p : PartId) (wrapped : List Byte)
  /-- DIGEST (R443). A twin's digest record arrives and is compared with the room's own, releasing the next block or triggering a replay. -/
  | digest (p : PartId) (room : Nat) (d : DigestRec)
  /-- ECHO (R438). An ECHO completes the follower's matching suppressed descriptor. -/
  | echo (p : PartId) (room : Nat) (ch : ChanId)
  /-- HEARTBEAT (R438). A twin's heartbeat arrives with its timestamp and STATE. -/
  | heartbeat (p : PartId) (state : Nat) (time : Nat)
  /-- HEARTBEAT_SEND (R438). Every 100 µs each twin sends a heartbeat. -/
  | heartbeatSend (p : PartId)
  /-- END (R438). An END message ends the pair, and the receiver becomes SOLO. -/
  | end_ (p : PartId)
  /-- PEER_LOSS (R448). A twin with no mirror message for 10 ms declares its peer lost and becomes SOLO or FROZEN. -/
  | peerLoss (p : PartId)
  /-- RESYNC_COMPLETE (R452). When the last resync line is performed at the follower, the pair enters its mode. -/
  | resyncComplete (p : PartId) (image : List ResyncRec)
  /-- PLL_UNLOCK (R477). On PLL unlock, firmware moves the domains on that PLL to the other PLL or to the bypass. -/
  | pllUnlock (alt : Bool)
  /-- PLL_RETURN (R477). After the root PLL has been READY for 10 ms again, domains return to SOURCE 0. -/
  | pllReturn (alt : Bool)
  /-- CLOCK_SWITCH (R479). An accepted clock switch waits for its switch point and changes gates glitch-free. -/
  | clockSwitch (d : ClkId) (src : Fin 3)
  /-- CLOCK_STOPPED (R480). A stop detector seeing no edge for 160 ns moves the domain without firmware and raises its interrupt. -/
  | clockStopped (d : ClkId)
  /-- FREQ_GATE (R484). Every 100 µs gate the edge counters latch the measured frequencies. -/
  | freqGate (edges : List Nat) (rootLocked altLocked : Bool)
  /-- DOMAIN_WAKE (R485). A power domain finishes waking and becomes ON, and the next waiting wake starts. -/
  | domainWake (d : DomId)
  /-- DOMAIN_OFF (R485). Firmware isolates a domain at its unit boundary and turns it OFF. -/
  | domainOff (d : DomId)
  /-- CAP_LOOP_TICK (R489). Every 250 µs firmware adjusts the base grant and partition steps to keep power within CAP. -/
  | capLoopTick (power : Nat) (rooms : List Nat)
  /-- CURRENT_CLAMP (R490). A core rail above its current limit halves ACLK edges in every room within 1 µs. -/
  | currentClamp (rail : Nat) (milliamps : Nat)
  /-- THERMAL_CLAMP (R490). A room's die sensor reading reaching or leaving the limits applies or releases its clamp. -/
  | thermalClamp (r : RoomId) (temp : Int)
  /-- COOLANT_CLAMP (R490). A coolant outlet reading above OUTLET_LIMIT applies the clamp to every room, released 2 °C below it. -/
  | coolantClamp (temp : Option Int)
  /-- SUPPLY_FAULT (R492). A rail outside ±5% for 20 µs, a current clamp held 100 ms or a thermal trip sends the module to HALTED. -/
  | supplyFault (cause : Fin 3)
  /-- SEQ_FAULT (R550). An out-of-order rail rise latches SEQ_FAULT, asserts PWR_FAULT_N and holds cold reset. -/
  | seqFault (rail : Nat)
  /-- SENSOR_FAIL (R494). A failed sensor keeps its last value with STALE set and writes a ledger entry. -/
  | sensorFail (id : Nat)
  /-- SMBUS_SELECT (R495). An SMBus Block Write to command 0x20 selects a quantity ID. -/
  | smbusSelect (id : BitVec 32)
  /-- COLD_RESET (R499). A cold reset from RST_N, PERST_N, MODULE_RESET or REFCLK loss starts a boot at POWERON. -/
  | coldReset (src : ResetSource) (recovery : Bool) (test : Bool) (addr : BitVec 2)
  /-- WARM_RESET (R499). A warm reset from MODULE_RESET or a PCIe hot reset starts a boot at FUSES. -/
  | warmReset (src : ResetSource) (recovery : Bool) (test : Bool) (addr : BitVec 2)
  /-- FUSE_READ (R501). In FUSES the controller reads every fuse word three times and forms the cold image. -/
  | fuseRead (reads : List (Nat × Word × Word × Word))
  /-- LOADING (R505). Verifies and loads firmware, configuration, microcode and repair record, then starts the firmware. -/
  | loading (katOk : Bool)
  /-- SELFTEST (R508). Runs attic, lane, security, SRAM and heat-soak tests, the hot fuse read and P_idle measurement. -/
  | selftest (hot : List (Nat × Word)) (failed : List FaultChan) (idle : List Nat)
  /-- TRAINING (R509). Trains the cellar stacks, applies hard repairs and retirements, and clears cellar and rooms. -/
  | training (failed : List Nat)
  /-- FUNCTION_LEVEL_RESET (R397). A Function Level Reset of a VF resets its slots, interrupts, jobs and host buffers, keeping its partition. -/
  | functionLevelReset (f : FnId)
  /-- VF_ENABLE_CLEAR (R398). A Function Level Reset of PF0 or clearing VF Enable removes the VFs, treating their slots as for an FLR. -/
  | vfEnableClear (flr : Bool)
  /-- PCIE_CONFIG_REQUEST (R512). A PCIe configuration request receives Request Retry Status until 100 ms after reset release, then a normal completion. -/
  | pcieConfigRequest (f : FnId) (q : CfgReq)
  /-- TAP_INSTRUCTION (R521). An IEEE 1149.1 TAP instruction acts, with the test instructions acting only under the test strap. -/
  | tapInstruction (ir : TapInstr)
  /-- POWER_UP (R550). The rails ramp up; from VDD_AON at 95% the always-on island watches their order, and once every rail has been in regulation for 1 ms it releases its internal reset hold. -/
  | powerUp (rise : List Nat)
  /-- POWER_DOWN (R551). The rails are removed, either in planned order or all at once; the module loses what a cold reset loses, and a latched SEQ_FAULT is released once every rail is below 10%. -/
  | powerDown (planned : Bool)
  /-- LOSS_OF_SIGNAL (R430). A Freoft port's receiver loses signal, for example on a partner reset or retirement, and the port retrains. -/
  | lossOfSignal (port : PortId)
  /-- PCIE_LINK_EVENT (R342). The PCIe link changes state, going up or down, and raises Gysis interrupt source 179. -/
  | pcieLinkEvent (up : Bool)
  /-- TWIDDLE_SET_REWRITE (R93). Gysis firmware finishes rewriting an invalid twiddle set from its SRAM copy, at most 20 µs after the request, and the operations waiting for the set proceed. -/
  | twiddleSetRewrite (r : RoomId) (keyset : TwiddleSet)
  /-- SECURITY_ENGINE_RETIRE (R462). The security engine is retired, and every security request and block-key request then fails. -/
  | securityEngineRetire
  /-- LEDGER_WRITE (R467). Gysis firmware writes a ledger entry within 100 µs of a decision. -/
  | ledgerWrite
  /-- INTERRUPT_DELIVERY (R345). Each MCLK the controller delivers pending enabled sources to qualifying cores with their handler addresses. -/
  | interruptDelivery
  /-- DRBG_RESEED (R271). The DRBG reseeds after 2^20 generate requests or 1 s. -/
  | drbgReseed
  /-- DRBG_HEALTH_FAIL (R272). A health-test failure stops the DRBG and discards its working state. -/
  | drbgHealthFail
  /-- SECURITY_DOMAIN_IDLE_OFF (R485). The security engine's domain goes OFF after 1 s idle. -/
  | securityDomainIdleOff
  /-- ROUTE_TABLE_EFFECT (R423). A loaded routing table takes effect at the next frame boundary, retraining every port if MODULE or SYSTEM_ID changed. -/
  | routeTableEffect
  /-- SUMMARY_SEND (R496). Every 10 ms a linked, locked module sends a summary to its TIME_ROOT module. -/
  | summarySend
  /-- REFCLK_LOSS (R483). A REFCLK loss of 10 µs holds the module in cold reset until REFCLK has been back for 1 ms. -/
  | refclkLoss
  /-- CAP_UNMET_CLEAR (R489). CAP_UNMET clears after 10 ms within CAP. -/
  | capUnmetClear
  /-- CURRENT_CLAMP_RELEASE (R490). The current clamp releases 100 µs after the rail falls below 95% of its limit. -/
  | currentClampRelease
  /-- TELEMETRY_TICK (R336). Every 1 ms core 3 rewrites every function's telemetry mirror, bracketed by TEL_SEQ. -/
  | telemetryTick
  /-- SMBUS_READ (R495). An SMBus Block Read of command 0x21 returns the selected quantity's record. -/
  | smbusRead
  /-- ALERT_RESPONSE (R495). A read of the Alert Response Address clears SMBALERT# until the next new cause. -/
  | alertResponse
  /-- READY_ENTRY (R511). At the end of TRAINING the module locks RWL fields, sets flags and enters READY or TEST. -/
  | readyEntry
  /-- FIRMWARE_WATCHDOG (R518). After 1 s without a refresh, the boot ROM enters RECOVERY, tears down every partition and restarts the firmware. -/
  | firmwareWatchdog
  /-- REFCLK_RETURN (R483). REFCLK becomes present again after a loss, and once it has been present for 1 ms the cold-reset hold ends and the boot restarts at POWERON. -/
  | refclkReturn
deriving DecidableEq, Repr

end Sys2Proof
end

