-- ==== Sys2Proof/Config.lean ====
section
/-! DEFINITION. The free values of the model: constants with no body, one for each kind of value that the spec leaves
open, each applied to a plain counter of the state or to the operands it depends on. Nothing can be proved of their
values. The log entry that declares each is named with it. -/

namespace Sys2Proof.Config

/-- DESIGN CHOICE (log 3). The n-th 256 bits of conditioned entropy that the entropy source delivers (R271). -/
opaque entropy : Nat → BitVec 256
/-- DESIGN CHOICE (log 3). How many bytes of the DRBG an operation of the security engine draws in all, the randomised representations of R373 among them. -/
opaque drbgDrawn : Nat → Nat
/-- DESIGN CHOICE (log 58). A pair key that two security engines agree on (R436). -/
opaque pairKey : Nat → BitVec 256
/-- DESIGN CHOICE (log 71). The words of working memory that an operation of the security engine writes, in order (R377). -/
opaque workWrites : Nat → List (Nat × BitVec 32)
/-- DESIGN CHOICE (log 4). A word of a result whose value the spec does not state, before its reduction below the modulus it belongs to. -/
opaque openWord : Nat → BitVec 32
/-- DESIGN CHOICE (log 4). A byte the spec leaves undefined. -/
opaque openByte : Nat → BitVec 8
/-- DESIGN CHOICE (log 4). A yes-or-no outcome the spec leaves open. -/
opaque openBit : Nat → Bool
/-- DESIGN CHOICE (log 24). The NOISE of a product with the integer 0, which R70 and R145 do not state, from the operand's. -/
opaque zeroNoise : Nat → BitVec 32
/-- DESIGN CHOICE (log 25). A word of a result of keys that do not fit together, which the spec does not state (R127, R138): the words and the keys' indices and
epochs that go into it, and its number, before its reduction. -/
opaque keyWord : List (List Nat) → Nat → BitVec 32
/-- DESIGN CHOICE (log 27). What a stage of a refresh or of a pack makes of its inputs, whose arithmetic the spec does not fix (R144, R148, R162): the kind of
plan and the stage, the words it reads (the last stage's, its constants, its keys), and the number of the result word, before its reduction. -/
opaque stageWord : Nat → List (List Nat) → Nat → BitVec 32
/-- DESIGN CHOICE (log 27). What the constants of a stage, which the compiler lays out at CONST_HOME (R143), fix of it: home, stage, and 0 for the bytes it reads
there, 1 for the index entries it consumes. -/
opaque stageShape : Nat → Nat → Nat → Nat
/-- DESIGN CHOICE (log 27). A gadget digit (R154, R156), whose rounding and sign the spec does not give: digit count, base bits, which digit, the coefficient
of both halves, before its reduction. -/
opaque gadgetDigit : Nat → Nat → Nat → Nat → Nat → Nat
/-- DESIGN CHOICE (log 27). A coefficient of the common test polynomial of several tables, number 0, or of the factor polynomial of the i-th, number i (R159):
the tables' test polynomials, that number, the coefficient. -/
opaque sharedPoly : List (List Nat) → Nat → Nat → BitVec 32
/-- DESIGN CHOICE (log 5). The value of an approximate function within its error bound (R176): function code, argument bits. -/
opaque approxFn : Nat → BitVec 32 → BitVec 32
/-- DESIGN CHOICE (log 5). The fp32 value of a DIST 3 or DIST 4 element (R282): distribution code and its one or two words. -/
opaque distFn : Nat → BitVec 32 → BitVec 32 → Bool → BitVec 32
/-- DESIGN CHOICE (log 6). The SHA-384 of the boot ROM, whose contents the spec does not give (R380, R381). -/
opaque romDigest : BitVec 384
/-- DESIGN CHOICE (log 6). A certificate in DER (R380): 0 the Alias certificate of a boot, 1 the DeviceID certificate; its first 1,024 bytes count. -/
opaque certificate : Nat → Nat → List Byte
/-- DESIGN CHOICE (log 52). A field of a staged image, whose header layout the spec does not give (R382, R504): 0 signer slot, 1 the keys match it, 2 both
signatures verify, 3 SVN, 4 FUSE_SVN, 5 version, 16 + n the bundle holds microcode program n. -/
opaque imageField : Nat → List Byte → Nat
/-- DESIGN CHOICE (log 11). The version that the boot ROM reports, which the spec does not give (R531). -/
opaque romVersion : BitVec 63
/-- DESIGN CHOICE (log 7). The output of a microcode program, which its signed bundle defines (R383): program number, a number for the run, PARAMS, the
material of the entry it names, input. -/
opaque microcode : Nat → Nat → List Byte → List Byte → List Byte → List Byte
/-- DESIGN CHOICE (log 18). What a measured quantity reads (R494): quantity ID, module time of the sample. -/
opaque sensor : Nat → Nat → Nat
/-- DESIGN CHOICE (log 19). Repair resources of a cellar bank (R234, R241), which PPR_FREE shows in 4 bits. -/
opaque repairPerBank : Fin 16

end Sys2Proof.Config
end

