-- ==== Sys2Proof/Machine/StateStack.lean ====
section
/-! DEFINITION. The state of a cellar stack and its controller (09, 10): lost lines, retirement, refresh, calibration,
sweep, throttling, repair, the regulator and the counters. -/

namespace Sys2Proof.Machine

/-- A cellar row that repair names: pseudo-channel, stack ID, bank, row (R235). -/
structure CellRow where
  pc : Nat
  sid : Nat
  bank : Nat
  row : Nat
deriving DecidableEq, Repr

/-- One entry of the repair record for the cellar (R235, R506): 0 soft repair applied, 1 hard repair applied, 2 awaiting hard repair. -/
structure RepairEntry where
  row : CellRow
  state : Nat
deriving DecidableEq, Repr

/-- PHY calibration of one channel (R239). -/
structure Calib where
  last : Nat := 0
  temp : Int := 0
  failed : Nat := 0
  retryAt : Option Nat := none
deriving DecidableEq, Repr

/-- Counters of a stack (R241, R270). -/
structure StackCounters where
  linesRd : BitVec 48 := 0
  linesWr : BitVec 48 := 0
  pantry : BitVec 48 := 0
  refPostponed : BitVec 48 := 0
  throttleCclk : BitVec 48 := 0
  eccCorr : BitVec 32 := 0
  eccUncorr : BitVec 32 := 0
  sweepErr : BitVec 32 := 0
  regWait : Tab (BitVec 48) := []
  regSlack : BitVec 48 := 0
deriving DecidableEq, Repr

/-- The regulator of a stack (R258): units by class READ, WRITE, REMOTE, and the round-robin pointer. -/
structure Regulator where
  units : Tab Nat := []
  next : Fin 3 := 0
  /-- The class whose request took the last offered slot (R259). -/
  granted : Option Nat := none
deriving DecidableEq, Repr

/-- A stack with its controller. -/
structure Stack where
  trained : Bool := false
  temp : Int := 0
  level : Nat := 0
  tempFails : Nat := 0
  /-- Since when the temperature readout has failed without pause, and the time of the last reading (R233, R241). -/
  failSince : Option Nat := none
  tempAt : Nat := 0
  level4Since : Option Nat := none
  lost : List Nat := []
  pcRetired : Option Nat := none
  /-- A copy in progress: pseudo-channel, start time (R222). -/
  pcCopy : Option (Nat × Nat) := none
  /-- Postponed refreshes, by pseudo-channel · 48 + bank (R236). -/
  postponed : Tab Nat := []
  refNext : Tab Nat := []
  /-- Until when a bank is busy with a refresh or RFM, by pseudo-channel · 48 + bank (R226, R237). -/
  busyUntil : Tab Nat := []
  /-- Next line of the sweep, by pseudo-channel; and pending rewrites (R238). -/
  sweepAt : Tab Nat := []
  rewrites : List Nat := []
  calib : Tab Calib := []
  /-- Soft repairs used, by pseudo-channel · 48 + bank (R234, R235). -/
  pprUsed : Tab Nat := []
  /-- Row repairs and pseudo-channel retirements waiting for the room's boundary. -/
  pendingRows : List CellRow := []
  pendingPc : Option Nat := none
  reg : Regulator := {}
  counters : StackCounters := {}
deriving DecidableEq, Repr

end Sys2Proof.Machine
end

