-- ==== Sys2Proof/Machine/StateChip.lean ====
section
/-! DEFINITION. The chip-level state: Gysis with its interrupt controller, caches and ledger (13, 14, 19), the security
engine with the cupboard and the DRBG (11, 15), the links (17), clocks, power and telemetry (20), boot, fuses and board
signals (21, 24). -/

namespace Sys2Proof.Machine

/-- A Gysis core (R318, R344, R346). -/
structure Core where
  retired : Bool := false
  running : Nat := 256
  /-- The source being handled, until MRET (R344). -/
  handling : Option Nat := none
  mie : Bool := false
  mepc : BitVec 64 := 0
  mcause : BitVec 64 := 0
  pc : BitVec 64 := 0
  wfi : Bool := false
  /-- Instruction access fault on handler entry (R346). -/
  accessFault : Bool := false
deriving DecidableEq, Repr

/-- An interrupt source of the controller (R343, R345, R346). -/
structure Source where
  pending : Bool := false
  enabled : Bool := false
  targets : BitVec 4 := 0
  handler : BitVec 64 := 0
deriving DecidableEq, Repr

/-- The interrupt controller (R342 to R350). -/
structure Intc where
  sources : Tab Source := []
  globalEnable : Bool := true
  holdoff : Tab (BitVec 16) := []
  /-- End of the running hold-off of a group. -/
  heldUntil : Tab (Option Nat) := []
deriving DecidableEq, Repr

/-- MESI states of an L1 data block (R357). -/
inductive Mesi where
  | invalid | shared | exclusive | modified
deriving DecidableEq, Repr

/-- One cache block as the directory, the L1s and the eviction buffers hold it (R357 to R361). -/
structure CacheBlock where
  l1 : Tab Mesi := []
  l1Data : Tab (BitVec 512) := []
  l2 : Option (BitVec 512) := none
  l2Dirty : Bool := false
  sram : BitVec 512 := 0
  /-- The core the directory records as owner, and the sharers. -/
  owner : Option Nat := none
  /-- Cores with an LR reservation on the block (R359). -/
  reserved : BitVec 4 := 0
deriving DecidableEq, Repr

/-- A ledger entry (R468). -/
structure LedgerEntry where
  time : Nat
  code : Nat
  cls : BitVec 8
  part : Nat
  room : Nat
  unit : Nat
  count : Nat
  where_ : Nat
  block : Nat
  cause : Nat
deriving DecidableEq, Repr

/-- The ledger and its cursors (R337, R467), the decisions not yet written, and the rights-violation counts (R338). -/
structure Ledger where
  w : Nat := 0
  d : Nat := 0
  lost : BitVec 32 := 0
  entries : Tab (Option LedgerEntry) := []
  todo : List LedgerEntry := []
  viol : Tab (BitVec 32) := []
deriving DecidableEq, Repr

/-- An event in a channel's history (R455, R456): kind 0 correctable or ordinary, 1 recurrence after a full write, 2 other. -/
structure HistEvent where
  chan : FaultChan
  time : Nat
  kind : Nat
deriving DecidableEq, Repr

/-- Gysis (13, 14, 19). -/
structure Gysis where
  cores : Tab Core := []
  intc : Intc := {}
  blocks : Tab CacheBlock := []
  cacheParity : BitVec 32 := 0
  /-- An agent that is no core was returned an error for its request (R361). -/
  agentError : Bool := false
  ledger : Ledger := {}
  hist : List HistEvent := []
  degraded : Bool := false
  replaceRequested : Bool := false
  fwVersion : BitVec 63 := 0
  /-- Doorbell order, order of taking, and the function served last (R324). -/
  nextOrder : Nat := 0
  nextTaken : Nat := 0
  lastFn : Nat := 16
  /-- Commands that run to their end without a slot after a Function Level Reset (R339): function, slot, command. -/
  detached : List (Nat × Nat × Req) := []
deriving DecidableEq, Repr

/-- A cupboard entry (R369, R370). -/
structure CupEntry where
  type_ : Nat
  usage : BitVec 5
  material : List Byte
  broken : Bool := false
  /-- The stored tag agrees with header and material (R372). -/
  tagOk : Bool := true
deriving DecidableEq, Repr

/-- What one channel has waiting at the HASH or AES unit (R378, R379): the command that waits, the unit, its input with the key and the counter block it
works under, and its chunks, all and done. -/
structure HashCtx where
  fn : Nat
  slot : Nat
  aes : Bool
  op : Nat
  data : List Byte
  key : List Byte
  iv : Nat
  chunks : Nat
  done : Nat := 0
  /-- The furthest chunk reported (R330), and the operation was started over after a parity error (R384). -/
  mark : Nat := 0
  reran : Bool := false
deriving DecidableEq, Repr

/-- DRBG states (R271, R272). -/
inductive DrbgState where
  | running | halted | failed
deriving DecidableEq, Repr

/-- The working state of the CTR_DRBG (R271): Key and V of SP 800-90A. -/
structure Drbg where
  key : BitVec 256 := 0
  v : BitVec 128 := 0
deriving DecidableEq, Repr

/-- The security engine's working memory (R363, R377): its words by number, and which of them the operation in progress has written. -/
structure WorkMem where
  words : Tab Word := []
  written : List Nat := []
deriving DecidableEq, Repr

/-- The security engine (R363, R271). -/
structure Security where
  retired : Bool := false
  entries : Tab (Option CupEntry) := []
  drbg : DrbgState := .running
  /-- Partitions whose requests for a block key wait, in the order of their arrival (R287). -/
  keyQueue : List Nat := []
  drbgRequests : Nat := 0
  drbgSeeded : Nat := 0
  drbgFailedAt : Nat := 0
  drbgFails : Nat := 0
  /-- Index of the next block of conditioned entropy, and the DRBG's working state: none until it is instantiated, and once it is discarded (R272). -/
  drbgNext : Nat := 0
  drbgWork : Option Drbg := none
  work : WorkMem := {}
  /-- Parity errors that the working memory and the context store hold and that the next operation meets (R363, R384). -/
  upsets : Nat := 0
  /-- Contexts by channel; for the HASH and the AES unit the channel served last and the SCLK its grants have taken (R375, R379). -/
  hash : Tab (Option HashCtx) := []
  hashLast : Option Nat := none
  hashSclk : Nat := 0
  aesLast : Option Nat := none
  aesSclk : Nat := 0
  /-- Loaded microcode programs: OP index of each (R383), with the bundle's digest. -/
  microcode : List Nat := []
  microDigest : List Byte := []
  /-- DICE (R380): UDS key path closed; CDI_0 derived; Alias present. -/
  keyPathClosed : Bool := false
  cdi0 : Bool := false
  alias_ : Bool := false
  idleSince : Nat := 0
  busy : Nat := 0
  errors : BitVec 32 := 0
  signerSuspect : BitVec 4 := 0
deriving DecidableEq, Repr

/-- Port states (R431). -/
inductive PortState where
  | down | training | held | active | retired
deriving DecidableEq, Repr

/-- One direction pair of a Freoft port (R405 to R421). -/
structure Port where
  state : PortState := .down
  laneMap : BitVec 8 := 0xFF
  laneRetired : BitVec 8 := 0
  newMap : Option (BitVec 8) := none
  newMapConfirmed : Bool := false
  /-- A transmitter-tap change that the partner requested (R430). -/
  tapPending : Bool := false
  /-- Training attempts failed in a row, step reached, time the attempt began, back-off end (R420, R421). -/
  attempt : Nat := 0
  trainStep : Nat := 0
  trainStart : Nat := 0
  backoffUntil : Nat := 0
  partner : Option PortIdentity := none
  /-- When the port was last ACTIVE (R448). -/
  activeUntil : Nat := 0
  /-- Receiver: last accepted sequence number; NAK set (R415, R416). -/
  rxAck : BitVec 12 := 0xFFF
  rxNak : Bool := false
  /-- Sender: next sequence number, unacknowledged flits oldest first with their VC, time ACK last advanced. -/
  txSeq : BitVec 12 := 0
  unacked : List (BitVec 12 × Nat × Flit) := []
  ackAt : Nat := 0
  nakIgnoredUntil : Nat := 0
  /-- The last header received asked for a retransmission; the port has just trained and has taken no header yet (R416, R417). -/
  nakSeen : Bool := false
  resumed : Bool := false
  retries : Nat := 0
  credits : Tab Nat := []
  lastCr : Tab (BitVec 12) := []
  /-- Receive buffers occupied, and the count freed since training, by VC. -/
  occupied : Tab Nat := []
  freed : Tab (BitVec 12) := []
  queued : List Flit := []
  /-- The VC granted last (R412). -/
  lastVc : Nat := 7
  /-- Per VC the partition granted last (R389). -/
  lastPart : Tab Nat := []
  /-- The next context number of this direction (R408). -/
  nextCtx : Nat := 0
  /-- The context flit last sent under each context number (R408, R419). -/
  ctxs : Tab (List Byte) := []
  /-- Link delay and offset to the partner in ns (R428). -/
  delay : Int := 0
  offset : Int := 0
  /-- The running 1 s window of R456: its start, the codewords taken, the symbols corrected per lane; per lane the windows in a row above the ratio, and the
  last ratio in units of 10^−9. -/
  winStart : Nat := 0
  winWords : Nat := 0
  winErr : Tab Nat := []
  winBad : Tab Nat := []
  winRatio : Tab Nat := []
  downSince : Nat := 0
  eyeHeight : Tab Nat := []
  eyeWidth : Tab Nat := []
  lowEye : Tab Nat := []
  flitsTx : BitVec 48 := 0
  flitsRx : BitVec 48 := 0
  cwCorr : BitVec 48 := 0
  symCorr : Tab (BitVec 48) := []
  creditWait : Tab (BitVec 48) := []
  cwUncorr : BitVec 32 := 0
  replays : BitVec 32 := 0
  exhausted : BitVec 32 := 0
  dropped : BitVec 32 := 0
deriving DecidableEq, Repr

/-- One entry of a routing table (R422). -/
structure Route where
  primary : BitVec 30
  alternate : BitVec 30
deriving DecidableEq, Repr

/-- A routing table (R422). -/
structure RouteTable where
  module : Nat
  modules : Nat
  timeRoot : Nat
  dateline : BitVec 30
  portDim : BitVec 64
  systemId : BitVec 64
  routes : Tab (Option Route)
deriving DecidableEq, Repr

/-- A context being received (R410): lines performed, lines not yet acknowledged, the time of the oldest of those (R411); or, in transit,
the port, context number and VC it leaves on; `dropped` for one that R424 or R426 drops. -/
structure RxCtx where
  ctx : Ctx
  port : Nat
  ctxNo : Nat
  vc : Nat
  performed : List Nat := []
  unacked : Nat := 0
  oldest : Nat := 0
  fwd : Option (Nat × Nat × Nat) := none
  dropped : Bool := false
deriving DecidableEq, Repr

/-- A context this module has sent and whose lines wait for acknowledgement (R411, R426): room, channel, descriptor number, and whether it is
the flagged line. -/
structure TxCtx where
  room : Nat
  chan : Nat
  no : Nat
  ackId : Nat
  left : Nat
  sentAt : Nat
  dstModule : Nat
  flag : Option Nat
  /-- Where its lines go: the offset of the first (R262). -/
  base : Nat := 0
deriving DecidableEq, Repr

/-- An acknowledgement entry that waits for its flit (R411): the module it goes to, when it was issued, its context's ORIGIN_TIME. -/
structure PendingAck where
  module : Nat
  entry : AckEntry
  since : Nat
  origin : Nat
deriving DecidableEq, Repr

/-- The link subsystem (17). -/
structure Links where
  released : Bool := false
  ports : Tab Port := []
  route : Option RouteTable := none
  nextRoute : Option RouteTable := none
  bootId : Option (BitVec 32) := none
  rx : List RxCtx := []
  tx : List TxCtx := []
  acks : List PendingAck := []
  nextAckId : Nat := 0
  locked : Bool := true
  /-- What the timestamp has been stepped and slewed by; a correction being slewed, and since when (R428). -/
  timeOffset : Int := 0
  slewLeft : Int := 0
  slewFrom : Nat := 0
  /-- The module has followed a parent port; it has been without one since, and its offset has not yet come back within 1 µs (R428). -/
  followed : Bool := false
  holdover : Bool := false
  /-- Time stamps of the last link-control flit per port: partner's TX_TIME and local arrival. -/
  stamps : Tab (Nat × Nat) := []
  /-- Latest summary of each module: fields, arrival time (R496). -/
  summaries : Tab (List Nat × Nat) := []
  lastSummary : Nat := 0
  spread : Bool := false
deriving DecidableEq, Repr

/-- A clock domain (R475 to R482). -/
structure ClkDom where
  source : Fin 3 := 2
  request : Option (Fin 3) := none
  switches : BitVec 32 := 0
  refusals : BitVec 32 := 0
  forced : BitVec 32 := 0
  edges : BitVec 20 := 0
  /-- The divider the domain left when its PLL unlocked (R477). -/
  left : Option (Fin 3) := none
deriving DecidableEq, Repr

/-- A PLL (R475, R476). -/
structure Pll where
  running : Bool := false
  locked : Bool := false
  lockedAt : Nat := 0
  beatOk : Bool := false
  stopped : Bool := false
  readySince : Nat := 0
  edges : BitVec 20 := 0
deriving DecidableEq, Repr

/-- Clock unit (20). -/
structure Clocks where
  doms : Tab ClkDom := []
  root : Pll := {}
  alt : Pll := {}
  refPresent : Bool := true
  refSince : Nat := 0
  /-- Cold reset held by a REFCLK loss (R483). -/
  refHold : Bool := false
deriving DecidableEq, Repr

/-- States of a switched power domain (R485). -/
inductive DomState where
  | off | waking | on | heldOff
deriving DecidableEq, Repr

/-- Power, capping, clamps and supplies (20, 24). -/
structure Power where
  domains : Tab DomState := []
  /-- Domains whose wake waits (R485). -/
  wakeQueue : List Nat := []
  cap : Nat := 2000
  baseGrant : Nat := 0
  capUnmet : Bool := false
  /-- Since when the module has been within CAP while CAP_UNMET is set (R489). -/
  withinSince : Option Nat := none
  currentClamp : Bool := false
  currentSince : Nat := 0
  /-- Since when every such rail has been below 95% of its limit (R490). -/
  currentBelow : Option Nat := none
  /-- The core rails that exceeded their limit and have not yet fallen below 95% of it. -/
  currentRails : List Nat := []
  coolantClamp : Bool := true
  clampCounts : Tab (BitVec 32) := []
  measured : Nat := 0
  idlePower : Tab Nat := []
  roomPower : Tab Nat := []
  coolIn : Int := 0
  coolOut : Int := 0
  coolOutValid : Bool := false
  /-- Failed sensors by quantity ID, with the time each failed (R494). -/
  stale : Tab (Option Nat) := []
  /-- Rails: 0 below 10%, 1 above 10%, 2 at 95% or more, 3 in regulation (R549, R550). -/
  rails : Tab Nat := []
  regulatedSince : Option Nat := none
  seqFault : Bool := false
  pwrFaultN : Bool := true
  roundRobin : Nat := 0
deriving DecidableEq, Repr

/-- Fuse words found weak or unstable, and the outcome of a boot (R501 to R516). -/
structure Boot where
  state : DevState := .powerOn
  /-- Time of the reset release (R498, R516). -/
  releasedAt : Nat := 0
  /-- RWL fields locked (R14). -/
  locked : Bool := false
  bar2Mode : BitVec 2 := 0
  recoveryStrap : Bool := false
  testStrap : Bool := false
  addrStrap : BitVec 2 := 0
  firmwareRunning : Bool := false
  stopState : Nat := 0
  cause : Nat := 0
  slotB : Bool := false
  identityLost : Bool := false
  repairLost : Bool := false
  signerSuspect : Bool := false
  weak : List Nat := []
  unstable : List Nat := []
  hardRepairs : Nat := 0
  bootMs : Nat := 0
  /-- The actions of the stage that STATE shows are done (R498). -/
  stageDone : Bool := false
  /-- The last expiry of the always-on watchdog (R518). -/
  lastExpiry : Option Nat := none
  /-- A MODULE_RESET that begins at a time (R341): KIND, time. -/
  resetAt : Option (Nat × Nat) := none
  /-- The island holds reset until every rail has been in regulation for 1 ms (R550). -/
  resetHold : Bool := false
deriving DecidableEq, Repr

/-- The fuse array and flash (R500, R504). -/
structure Nvm where
  fuses : Tab Word := []
  /-- Silicon stepping (R531), counted from 1. -/
  stepping : BitVec 8 := 1
  /-- Cold image of the fuse array (R501). -/
  image : Tab Word := []
  fwA : Image
  fwB : Image
  microA : Image
  microB : Image
  confA : Option BoardConfig
  confB : Option BoardConfig
  config : BoardConfig
  /-- The retirements and remaps that persist (R462, R506). -/
  record : List FaultChan := []
  /-- The cellar row repairs of the record, with the stack of each (R234, R235, R506). -/
  repairs : List (Nat × RepairEntry) := []
  recordOk : Bool := true
  recordSeq : Nat := 0
deriving DecidableEq, Repr

/-- SMBus and TAP (R495, R521). -/
structure Board where
  selected : BitVec 32 := 0
  /-- The causes of SMBALERT# that an Alert Response has cleared (R495): 0 current, 1 coolant, 2 CAP_UNMET, 3 REPLACE_REQUESTED,
  16 + n thermal clamp of room n. -/
  alertAcked : BitVec 32 := 0
  tapIr : TapInstr := .idcode
  pcieUp : Bool := false
  vfEnable : Bool := false
deriving DecidableEq, Repr

end Sys2Proof.Machine
end

