-- ==== Sys2Proof/Machine/StateHost.lean ====
section
/-! DEFINITION. The host side of the state: mailbox slots, BAR0 registers, MSI-X, apertures, job queues and host buffers of
each function (13, 14, 23), and what leaves the module. -/

namespace Sys2Proof.Machine

/-- R321. -/
inductive SlotState where
  | free | posted | running | done
deriving DecidableEq, Repr

/-- A mailbox slot (R320): its state, its 512 bytes, the order in which its doorbell write came and in which it was taken
(R324), and whether its SEQ met that of another POSTED or RUNNING slot when it was posted (R329). `openFrom` and `openBase`
say from which byte on the slot holds no defined value after a response (R322) and where its free values begin;
`defined` lists the bytes written since. -/
structure Slot where
  state : SlotState := .free
  bytes : Tab Byte := []
  order : Nat := 0
  taken : Nat := 0
  seqClash : Bool := false
  openFrom : Nat := 512
  openBase : Nat := 0
  defined : List Nat := []
deriving DecidableEq, Repr

/-- One MSI-X table entry in the PCIe layout (R354). -/
structure MsixEntry where
  addr : BitVec 64 := 0
  data : BitVec 32 := 0
  ctrl : BitVec 32 := 1
deriving DecidableEq, Repr

/-- HIF_BAR2_APa (R539). -/
structure Aperture where
  room : BitVec 4 := 0
  base : BitVec 8 := 0
  enable : Bool := false
deriving DecidableEq, Repr

/-- A registered host buffer (R331, HOSTBUF_REGISTER). -/
structure HostBuf where
  addr : Nat
  bytes : Nat
  canWrite : Bool
  canRead : Bool
deriving DecidableEq, Repr

/-- Everything one function owns on the host side. -/
structure Fn where
  slots : Tab Slot := []
  intStatus : BitVec 3 := 0
  intMask : BitVec 3 := 7
  eventVector : BitVec 5 := 0
  holdoff : BitVec 16 := 0
  msix : Tab MsixEntry := []
  /-- Pending bits: a masked request (step 3 of R355). -/
  pba : BitVec 32 := 0
  /-- Vectors raised by events whose writes are performed, which firmware has not yet requested (step 1 of R355). -/
  raised : List Nat := []
  /-- Vectors with a request waiting for HOLDOFF (step 4 of R355). -/
  waiting : BitVec 32 := 0
  /-- Time of the last message of each vector. -/
  lastSent : Tab (Option Nat) := []
  msixEnable : Bool := false
  funcMask : Bool := false
  busMaster : Bool := false
  /-- Latched high halves, by register offset (R17). -/
  latch : Tab (Option Word) := []
  apertures : Tab Aperture := []
  jobHead : BitVec 16 := 0
  jobTail : BitVec 16 := 0
  ringSet : Bool := false
  ringOff : Nat := 0
  jobRunning : Bool := false
  hostBufs : Tab (Option HostBuf) := []
  telSeq : BitVec 32 := 0
  /-- The telemetry mirror from 0x4050 to 0x43FF, 8 bytes at each offset (R538). -/
  mirror : Tab (BitVec 64) := []
deriving DecidableEq, Repr

/-- What leaves the module (the model's own record of its outputs, newest first). -/
inductive OutEvent where
  /-- An MSI-X memory write (R355 step 5). -/
  | msix (fn vec : Nat) (addr : BitVec 64) (data : BitVec 32)
  /-- A write to host memory at a PCIe bus address. -/
  | hostWrite (fn : Nat) (addr : Nat) (data : List Byte)
  /-- The zero-length read that a stream unit issues once after a descriptor's last host write (R253): function, room, channel. -/
  | hostFence (fn room chan : Nat)
  /-- A zero-length read that follows the host writes of a copy (R334). -/
  | hostFlush (fn : Nat)
  /-- The completion of a BAR0 read. -/
  | readDone (fn : Nat) (off : Nat) (value : BitVec 64)
  /-- The completion of a BAR2 read; `ep` is the poisoned bit (R541). -/
  | bar2Done (fn : Nat) (addr : Nat) (data : List Byte) (ep : Bool)
  /-- A PCIe configuration completion; `retry` is Request Retry Status (R512). A read shows what the function's MSI-X capability reports: its table size and
  BIR (R354). -/
  | cfgDone (fn : Nat) (retry : Bool) (msix : Option (Nat × Nat))
  /-- A flit handed to a port for transmission, with its sequence number. -/
  | flit (port : Nat) (seq : Nat) (kind : Nat) (vc : Nat) (data : List Byte)
  /-- A link-control flit. -/
  | linkCtl (port : Nat) (laneMap : Option (BitVec 8)) (confirm : Bool)
  /-- A mirror message: kind code, peer module, peer partition, payload. -/
  | mirror (kind : Nat) (module part : Nat) (payload : List Byte)
  /-- An SMBus reply: the record of R335 (R495). -/
  | smbus (data : List Byte)
  /-- The TAP has a data register between TDI and TDO (R521): 0 bypass, 1 IDCODE, 2 boundary, 3 a user register. -/
  | tap (reg : Nat)
deriving DecidableEq, Repr

end Sys2Proof.Machine
end

