-- ==== Sys2Proof/Machine/StatePart.lean ====
section
/-! DEFINITION. The state of a partition: key sets, keys, look-up keys, programs, the running job, shares and pairing
(05, 06, 12, 16, 18). -/

namespace Sys2Proof.Machine

/-- A modulus the module has accepted, resolved from its descriptor (R34 to R36, R57): the prime, its ladder digits, its root. -/
structure Modulus where
  p : Nat
  a : Nat
  b : Nat
  c : Nat
  s1 : Int
  s2 : Int
  root : Nat
deriving DecidableEq, Repr

/-- A registered key set (R332). `deactivate` holds the slot of a deactivation that waits (R91); `invalid` lists the
indices of twiddle sets marked invalid (R93), by room. -/
structure KeySet where
  logN : Nat
  coeffPack : Bool
  lweDim : Nat
  t : Nat
  omega : Nat
  chain : List Modulus
  checkP : Option Modulus
  special : List Modulus
  lweP : Option Modulus
  active : Bool := false
  deactivate : Option Nat := none
deriving DecidableEq, Repr

/-- A registered key's header fields (R119), with its home offset (R120). -/
structure KeyHdr where
  kind : Nat
  logN : Nat
  check : Bool
  keyLimbs : Nat
  alpha : Nat
  digits : Nat
  special : Nat
  keyset : Nat
  index : Nat
  rot : Word
  epoch : BitVec 32
  seed : BitVec 256
  bodyBytes : Nat
  home : Nat
deriving DecidableEq, Repr

/-- An entry of the partition key table (R122). `prev` is the key being replaced or removed; `waitRooms` are the rooms in
which the replacement has not yet taken effect; `slot` is the mailbox slot of the command that reports OK afterwards. -/
structure KeySlot where
  cur : Option KeyHdr := none
  prev : Option KeyHdr := none
  waitRooms : List Nat := []
  slot : Option Nat := none
  lastEpoch : Option (BitVec 32) := none
deriving DecidableEq, Repr

/-- A registered look-up key (R154). -/
structure LutHdr where
  index : Nat
  logNbr : Nat
  logEMax : Nat
  dim : Nat
  lg : Nat
  logBg : Nat
  lks : Nat
  logBks : Nat
  keyset : Nat
  epoch : BitVec 32
  outNoise : Nat
  seed : BitVec 256
  bodyBytes : Nat
  home : Nat
deriving DecidableEq, Repr

/-- An entry of the look-up-key table (R154, R122). -/
structure LutSlot where
  cur : Option LutHdr := none
  prev : Option LutHdr := none
  waitRooms : List Nat := []
  slot : Option Nat := none
  lastEpoch : Option (BitVec 32) := none
deriving DecidableEq, Repr

/-- A refresh plan (R141). -/
structure Plan where
  kind : Nat
  logN : Nat
  logSlots : Nat
  top : Nat
  inDepth : Nat
  midDepth : Nat
  outDepth : Nat
  keyset : Nat
  lweDim : Nat
  outScale : Int
  outNoise : Nat
  constHome : Nat
  rotCount : Nat
deriving DecidableEq, Repr

/-- One entry of the resource table (R290): rooms, attic peak, cellar peak. -/
structure Resource where
  rooms : Nat
  attic : Nat
  cellar : Nat
deriving DecidableEq, Repr

/-- A loaded program (R291). `digest` is the SHA-384 of its container, for R381. -/
structure Program where
  home : Nat
  minRooms : Nat
  tokens : Nat
  plans : List Plan
  atticReserve : Nat
  keyWindowBase : Nat
  keyWindowBytes : Nat
  bodyOff : Nat
  bodyBytes : Nat
  blocks : Nat
  res : List Resource
  digest : List Byte
deriving DecidableEq, Repr

/-- A pinned key (R133): its key index and the epoch of the key that was copied, the rooms that copied it, its attic offset, and the rooms that have still to pass a
boundary after an unpin. `lut` says that the index is a look-up key's (R161). -/
structure Pin where
  key : Nat
  epoch : BitVec 32
  off : Nat
  lut : Bool := false
  unpin : Bool
  waitRooms : List Nat := []
  rooms : List Nat := []
deriving DecidableEq, Repr

/-- The running job (R304, R306). -/
structure Job where
  /-- The offset of its entry in every stack. -/
  entryOff : Nat
  /-- A Function Level Reset discarded the ring: the entry is written and no head advances (R397). -/
  orphan : Bool := false
  program : Nat
  jobId : BitVec 32
  argBase : Nat
  ringBase : Nat
  ringLog2 : Nat
  irq : Bool
  stop : Bool
  vector : Nat
  stopBlock : Nat
  /-- Block counters of the partition's rooms when the job started, by physical room. -/
  startBlocks : Tab (BitVec 48)
  /-- The status the job is to end with, once it is decided (R306). -/
  failed : Option Nat
  /-- First poison cause in any room. -/
  cause : Nat
deriving DecidableEq, Repr

/-- Pair states (R435). -/
inductive PairState where
  | none | syncing | dual | standby | frozen | solo
deriving DecidableEq, Repr

/-- Pairing of a partition (18). -/
structure Pairing where
  state : PairState := .none
  leader : Bool := false
  mode : Nat := 0
  peerModule : Nat := 0
  peerPart : Nat := 0
  /-- The MIRROR_SET that waits for its counterpart: slot and time taken (R433). -/
  wait : Option (Nat × Nat) := none
  /-- Time of the last mirror message (R448), of the last heartbeat sent, and of each room's last digest record sent (R443). -/
  lastMsg : Nat := 0
  lastBeat : Nat := 0
  recordAt : Tab Nat := []
  /-- The pair key of R436, a free value agreed with the peer. -/
  key : Option (BitVec 256) := none
  /-- A mode switch that waits for the next job boundary (R435). -/
  switchTo : Option Nat := none
  mblock : Tab Nat := []
  /-- Digest records of the block being compared: own and peer's, newest first, by partition room (R443 to R446). -/
  own : Tab (List DigestRec) := []
  peer : Tab (List DigestRec) := []
  diverged : BitVec 32 := 0
  /-- ECHO messages that came before their descriptor was issued, by room index · 16 + channel (R444, R447). -/
  echoes : Tab Nat := []
  /-- HOSTREAD lines not yet used, by room index · 16 + channel (R438). -/
  hostread : Tab (List Byte) := []
deriving DecidableEq, Repr

/-- Life of a partition number (R385, R393). -/
inductive PartPhase where
  | absent | live | tearing
deriving DecidableEq, Repr

/-- A partition. -/
structure Part where
  phase : PartPhase := .absent
  shareMode : Nat := 0
  /-- READ, WRITE and REMOTE shares in 5% units (R256). -/
  shares : List Nat := []
  /-- The partition's rooms, physical numbers ascending (R85). -/
  rooms : List Nat := []
  portMask : BitVec 30 := 0
  quota : Nat := 0
  keysets : Tab (Option KeySet) := []
  keys : Tab KeySlot := []
  luts : Tab LutSlot := []
  programs : Tab (Option Program) := []
  pins : List Pin := []
  job : Option Job := none
  /-- The block keys given out (R273), each with the number of its block in the job, until every room has completed that block. -/
  blockKeys : List (Nat × BitVec 256) := []
  /-- Last (BOOT_ID, BLOCK) counted for a flagged line, by source module · 16 + source room (R410). -/
  flagSeen : Tab (Option (BitVec 32 × BitVec 48)) := []
  pair : Pairing := {}
  /-- Step 1 to 8 of R487, and a decrease or increase that waits for the rooms' boundaries. -/
  step : Nat := 8
  pendingStep : Option Nat := none
  pendingRooms : List Nat := []
  /-- Grant in milliwatts (R488), and the grant of a step that waits. -/
  grant : Nat := 0
  pendingGrant : Nat := 0
  test : Bool := false
deriving DecidableEq, Repr

end Sys2Proof.Machine
end

