-- ==== Sys2Proof/Machine/StateRoom.lean ====
section
/-! DEFINITION. The state of a room: tokens, flags, scalars, registers, queues, channels, tags, key window, the block in
progress, counters, attic maintenance and breaks (02, 03, 05, 07, 08, 10, 12, 19). -/

namespace Sys2Proof.Machine

/-- One entry of an engine queue that waits to be issued (R299, R300, R301): its tag; the token and count that it waits on; the token that it signals; in the
stream queue the channel and the descriptor that it hands to it, with the host bytes that will answer its reads (R243). -/
structure QEntry where
  tag : BitVec 16
  waitTok : Option (Fin 64 × BitVec 16) := none
  sigTok : Option (Fin 64) := none
  desc : Option (Nat × Desc × List Byte) := none
deriving DecidableEq, Repr

/-- What a channel is doing (R243, R254, R262). -/
inductive ChanState where
  | idle | performing | halted
deriving DecidableEq, Repr

/-- A descriptor that a channel has issued and that is not complete: its number on the channel, the tags it holds (R244), the remote
lines sent and not acknowledged, its flagged or last line, held until every other line is acknowledged (R255) and, in a leader in dual
execution, until the block is agreed (R444), and whether it waits for an ECHO in place of an acknowledgement (R444). -/
structure Issued where
  no : Nat
  desc : Desc
  tags : Nat
  left : Nat := 0
  /-- Of a KEY descriptor whose fetch is not finished: the next index entry to read (R129, R131). -/
  keyAt : Option Nat := none
  /-- The index lines last read, by line (R250). -/
  idx : List (Nat × List Byte) := []
  /-- The contexts of a remote destination that wait for tags (R245). -/
  unsent : List (Ctx × List (List Byte)) := []
  held : Option (Ctx × List Byte) := none
  agreed : Bool := true
  echo : Bool := false
  /-- In a follower, the contexts it computed and did not send (R444, R446). -/
  kept : List (Ctx × List (List Byte)) := []
deriving DecidableEq, Repr

/-- A stream channel: the descriptors issued and not complete, oldest first, the queue of those that wait (R243), each with the host bytes that will answer
its reads, and the halt record (R262). -/
structure Channel where
  state : ChanState := .idle
  issued : List Issued := []
  queue : List (Desc × List Byte) := []
  nextNo : Nat := 0
  cause : Nat := 0
  failAt : Nat := 0
  /-- Halted by a program fault: no replay (R564). -/
  programFault : Bool := false
deriving DecidableEq, Repr

/-- A resolved key-stream entry (R129, R130): the key index and epoch it resolved to, with whether that key was pinned then (R133); the channel that
fetches it; how many tiles it takes; the tiles taken for it so far, in order, each fetched whole. -/
structure KeyEntry where
  rot : Word
  keyset : Nat
  kind : Nat
  level : Nat
  hoist : Bool
  key : Option (Nat × BitVec 32)
  pinned : Bool := false
  chan : Nat := 0
  tiles : Nat := 0
  ids : List Nat := []
deriving DecidableEq, Repr

/-- The key window of a room (R131, R132): its origin and tile count, and its tiles by number: those whose token is free, those in flight, those held, and
of the held ones those whose last lane read is done, whose tokens KEY_TILE_RETURN returns. A tile's lines are all performed as they are issued (log 36),
so that one is in flight from one step to the next only when its fetch has halted. -/
structure KeyWindow where
  base : Nat := 0
  tiles : Nat := 0
  free : List Nat := []
  inFlight : List Nat := []
  held : List Nat := []
  read : List Nat := []
deriving DecidableEq, Repr

/-- An operation that ends a command block with each of its parts and goes on in the room's next one (R143, R160): where its first result goes, the parts
done, the label decided at dispatch, what the last part leaves for the next (words of a stage; the samples a look-up has done), the look-up tables
fetched for the next batch, as their bytes, the look-up key resolved at dispatch (R163), and a cause that a part has met in a third execution. -/
structure Progress where
  dst : Place
  part : Nat
  lab : Label
  words : List Nat := []
  tables : List (List Byte) := []
  lut : Option LutHdr := none
  cause : Option Nat := none
deriving DecidableEq, Repr

/-- The checkpoint of R295. -/
structure Checkpoint where
  tokens : Tab (BitVec 16) := []
  scalars : Tab (BitVec 64) := []
  vcount : Nat := 0
  keyEntries : List KeyEntry := []
  window : KeyWindow := {}
  progress : Option Progress := none
deriving DecidableEq, Repr

/-- Where the first poisoned result of a block lies (R298). -/
structure PoisonRef where
  cause : Nat
  op : Nat
  at_ : Place
deriving DecidableEq, Repr

/-- The command block in progress in a room (R295 to R298, R458, R459). -/
structure Block where
  /-- ACLK cycles of this execution that the watchdog counts (R297). -/
  aclk : Nat := 0
  /-- Executions so far, 1 to 3. -/
  execs : Nat := 1
  op : Nat := 0
  exchange : Bool := false
  /-- Key sets that the block's operations name (R91), and the keys its operations have consumed: index, epoch (R122); an index
  of 65,536 + LUT_INDEX stands for a look-up key. -/
  uses : List Nat := []
  keysUsed : List (Nat × BitVec 32) := []
  checkpoint : Checkpoint
  poison : Option PoisonRef := none
  /-- Watchdog expiries held back (R460): for each, the head wait that was seen. -/
  expiries : List (Option (Nat × Nat)) := []
  /-- An error of this execution waits for a decision. -/
  error : Option RoomEvent := none
  /-- ERR of the digest record (R442). -/
  errSeen : Bool := false
  /-- STATUS 2 decided (R459, R564). -/
  failed : Bool := false
  /-- Lines that a stream wrote from a read in error in the third execution (R459), whether that list of 256 is full, and the lines
  that streams wrote in that execution; a line is numbered room · 2^30 + line, plus 2^36 in the cellar. -/
  tainted : List Nat := []
  taintFull : Bool := false
  streamed : List Nat := []
  mismatches : Nat := 0
  /-- Replays so far, for the completion record; `execs` stops at 3 (log 38). -/
  replays : Nat := 0
  /-- Key index entries taken in this execution, and that number while an operation waits for the next one (R460). -/
  taken : Nat := 0
  keyWait : Option Nat := none
  /-- Entries of the checkpoint that an earlier execution consumed: their tiles may have been taken again, and are fetched anew (R132, log 81). -/
  stale : List KeyEntry := []
  /-- A part of an operation has ended the block (R143, R160): no further operation starts in it. -/
  closed : Bool := false
  /-- The first exchange of digest records of this block found them unequal (R445). -/
  diverged : Bool := false
  /-- Digest records of the counterpart's room already compared with this block. -/
  seen : Nat := 0
  /-- The twins' records of this block agree (R443), or no agreement is asked. -/
  agreed : Bool := false
  /-- The digest sums of this execution (R441). -/
  d1 : BitVec 64 := 0
  d2 : BitVec 64 := 0
deriving DecidableEq, Repr

/-- A break (R316): on a block count, or on a queue's tag. -/
structure Breaks where
  onCount : Option (BitVec 48) := none
  onTag : Option (Fin 4 × BitVec 16) := none
  stopped : Bool := false
  replayDeferred : Bool := false
deriving DecidableEq, Repr

/-- The attic maintenance state of one layer slice (R203 to R210). -/
structure Layer where
  /-- Remapped rows by physical bank (0 to 65). -/
  rowRemaps : Tab (List Nat) := []
  /-- Retired banks, each with the spare bank that serves it. -/
  bankRemaps : List (Nat × Nat) := []
  /-- A bank copy in progress: bank, spare, start time. -/
  copy : Option (Nat × Nat × Nat) := none
  /-- Next row of the sweep, by physical bank. -/
  sweepRow : Tab Nat := []
  /-- Retirements decided outside the histories (self-test, checker, 33rd remap) that wait for a boundary: (bank, some row) or
  (bank, none). -/
  pending : List (Nat × Option Nat) := []
deriving DecidableEq, Repr

/-- What a lane group holds (R45): its modulus descriptor, double-buffered (the active one, and one that takes effect at the next instruction boundary), and the
last word it received on its broadcast port. -/
structure GroupDesc where
  active : Option Modulus := none
  next : Option Modulus := none
  bcast : Word := 0
deriving DecidableEq, Repr

/-- The counters of a room (R48, R78, R169, R198, R270, R303). -/
structure RoomCounters where
  gated : Tab (BitVec 48) := []
  veBusy : BitVec 48 := 0
  pauWaitVe : BitVec 48 := 0
  linesRd : BitVec 48 := 0
  linesWr : BitVec 48 := 0
  conflict : BitVec 48 := 0
  general : BitVec 48 := 0
  sweepForced : BitVec 48 := 0
  parityErr : BitVec 32 := 0
  sweepErr : BitVec 32 := 0
  streamRd : BitVec 48 := 0
  streamWr : BitVec 48 := 0
  tagWait : BitVec 48 := 0
  /-- STREAM_HALTS by cause 1 to 6. -/
  halts : Tab (BitVec 32) := []
  /-- Newly poisoned results by cause (R78). -/
  poison : Tab (BitVec 32) := []
  /-- Instruction-buffer and queue-entry parity errors (R303). -/
  ibuf : BitVec 32 := 0
  aclkEdges : BitVec 48 := 0
deriving DecidableEq, Repr

/-- A room. -/
structure Room where
  retired : Bool := false
  pauRetired : BitVec 4 := 0
  tokens : Tab (BitVec 16) := []
  flags : Tab (BitVec 16) := []
  /-- The 64 program scalar registers are numbered by the program; VCOUNT is apart (R170, R279). -/
  scalars : Tab (BitVec 64) := []
  vcount : Nat := 0
  /-- Vector register file: register · 2,048 + element (R167). -/
  vregs : Tab Word := []
  /-- The lane register files (R40), 16 words in each of 2,048 lanes, the landing buffers (R19) and the instruction buffer of 256 KiB (R19, R299), whose contents
  after an operation or a fetch the spec does not state: 0 when cleared, else one more than the index of the free values they hold (log 21). -/
  laneState : Nat := 0
  landing : Nat := 0
  ibuf : Nat := 0
  /-- The modulus descriptors of the 16 lane groups, four to a PAU (R45). -/
  descs : Tab GroupDesc := []
  /-- PAUs in wide-shallow mode (R45, R180). -/
  wideShallow : BitVec 4 := 0
  /-- The stage configuration of the last vector instruction (R166). -/
  lastCfg : Option VInstr := none
  blockCounter : BitVec 48 := 0
  block : Option Block := none
  /-- Every command of the block has completed, and the block has not ended: it is an exchange block not yet released (R563), or waits for
  agreement (R443). -/
  blockDone : Bool := false
  /-- Waiting on a flag between blocks (R310). -/
  flagWait : Option (Fin 64 × BitVec 16) := none
  atBarrier : Bool := false
  /-- A fence waits for the commands before it (R310). -/
  fenceWait : Bool := false
  queues : Tab (List QEntry) := []
  nextTag : Tab (BitVec 16) := []
  channels : Tab Channel := []
  tagsInFlight : Nat := 0
  /-- The time at which each stale tag became stale (R246). -/
  stale : List Nat := []
  window : KeyWindow := {}
  keyEntries : List KeyEntry := []
  /-- The operation in parts that goes on in the next block (R143, R160). -/
  progress : Option Progress := none
  /-- Noise-key register (R273). -/
  noiseKey : Option (BitVec 256) := none
  /-- A flood or draw-seed operation at the head of the queue waits for the block key (R287). -/
  keyHeld : Bool := false
  /-- Twiddle sets marked invalid (R93): key-set identifier, and the prime, numbered i for chain prime i, 64 + i for special prime i, 128 for the check
  prime. -/
  badTwiddle : List (Nat × Nat) := []
  /-- PAU error record (R55), by PAU: the coefficient, and the limbs compared (bit i chain limb i, bit 60 the check limb). -/
  errRecord : Tab (Option (Nat × BitVec 61)) := []
  brk : Breaks := {}
  layers : Tab Layer := []
  counters : RoomCounters := {}
  /-- The refetches tried of an instruction-buffer line (R303). -/
  refetch : Nat := 0
  thermalClamp : Bool := false
  dieTemp : Int := 0
  /-- Cleared since it last belonged to a partition (R396). -/
  clean : Bool := false
  /-- A known-answer test of its PAUs is due or has run at this point (R461). -/
  kat : Bool := false
deriving DecidableEq, Repr

end Sys2Proof.Machine
end

