-- ==== Sys2Proof/Machine/State.lean ====
section
/-! DEFINITION. The state of the module, the reasons a step can stop, and the state after reset. -/

namespace Sys2Proof.Machine

/-- Contents of the attic and the cellar. Addresses: attic byte `o` of ROOMn is key n · 2^32 + o; cellar byte `o` of STACKn
is key n · 2^36 + o. An unlisted address reads as zero (log 2). -/
structure Mem where
  attic : List Host.Cell := []
  cellar : List Host.Cell := []
  /-- Attic bytes whose stored parity is wrong (R199). -/
  atticBad : Tab Bool := []
  /-- On-die ECC status of a 32-byte burst (R230), by key div 32: 0 none, 1 corrected, 2 uncorrectable. -/
  ecc : Tab Nat := []
  /-- Lines whose stored error has been counted (R456): 0 attic parity, 1 corrected burst, 2 uncorrectable burst; room; line. -/
  counted : List (Nat × Nat × Nat) := []
  /-- Lines counted and then written in full: a new detection is the recurrence of R456. -/
  rewritten : List (Nat × Nat × Nat) := []
deriving DecidableEq, Repr

/-- The whole state of the module. -/
structure State where
  mem : Mem
  rooms : Tab Room
  hbm : Tab Stack
  parts : Tab Part
  fns : Tab Fn
  gysis : Gysis
  sec : Security
  links : Links
  clocks : Clocks
  power : Power
  boot : Boot
  nvm : Nvm
  board : Board
  /-- The module timestamp in ns (R536), and what the model times every bound by (log 8). -/
  now : Nat
  /-- The model's own counter of free values (log 4). -/
  free : Nat
  /-- What has left the module, newest first (log 9). -/
  out : List OutEvent
  /-- The commands that wait, first in first out. -/
  pending : List Instr
deriving DecidableEq, Repr

/-- Why a step can stop with a fault. No command of this block faults: every access outside the spec's address spaces ends in
the outcome the spec gives (R18, R188, R216). The one constructor keeps the type inhabited. -/
inductive Fault where
  /-- Raised by nothing; safe. -/
  | none
deriving DecidableEq, Repr

/-- Why a step can refuse a command. -/
inductive Refusal where
  /-- Raised by an arm of `exec` for a command that has no meaning yet; safe. -/
  | notModelled (mnemonic : String)
deriving DecidableEq, Repr

/-- An empty image region. -/
def Image.absent : Image :=
  { present := false, signer := 0, keysMatch := false, sigsOk := false, svn := 0, fuseSvn := false, version := 0, digest := [] }

/-- DESIGN CHOICE (log 10). The image in a slot of the reset state's flash: valid, SVN 0. -/
def Image.first : Image :=
  { present := true, signer := 0, keysMatch := true, sigsOk := true, svn := 0, fuseSvn := false, version := 1, digest := [] }

/-- The default board parameters of R555 and R547: OUTLET_LIMIT 55 °C, clamp limits of rails 1 to 3 in ampere. -/
def BoardConfig.first : BoardConfig := { outletLimit := 55, currentLimit := [2400, 400, 300] }

/-- Fuse words of the reset state: word 73 enables sixteen rooms on a DRL-W16L with 8.0 Gb/s stacks; every other word is
unblown (log 10). -/
def fusesFirst : Tab Word := [(73, 0x0000FFFF)]

/-- The module right after the release of a cold reset: POWERON, every clock on the bypass (R475, R498), no partition, empty
memories (R499), every register at its reset value. -/
def State.reset : State where
  mem := {}
  rooms := []
  hbm := []
  parts := []
  fns := []
  gysis := {}
  sec := {}
  links := {}
  clocks := {}
  power := { rails := [(1, 3), (2, 3), (3, 3), (4, 3), (5, 3), (6, 3), (7, 3), (8, 3), (9, 3), (10, 3), (11, 3), (12, 3)] }
  boot := {}
  nvm := { fuses := fusesFirst, fwA := Image.first, fwB := Image.absent, microA := Image.absent, microB := Image.absent,
           confA := some BoardConfig.first, confB := none, config := BoardConfig.first }
  board := {}
  now := 0
  free := 0
  out := []
  pending := []

end Sys2Proof.Machine
end

