-- ==== Sys2Proof/Machine/Ops.lean ====
section
/-! DEFINITION. The named operations of the machine: tables, bytes, the parts of the state, identity, memory. -/

namespace Sys2Proof.Machine

/-! ## Tables and bytes -/

/-- The entry of a table at a key, the default where the table lists none. -/
def Tab.get {α : Type} (d : α) : Tab α → Nat → α
  | [], _ => d
  | (j, v) :: t, k => if j = k then v else Tab.get d t k

/-- A table with the entry at a key removed. -/
def Tab.erase {α : Type} (t : Tab α) (k : Nat) : Tab α := t.filter (fun c => c.1 != k)

/-- A table with an entry inserted in key order. -/
def Tab.insert {α : Type} : Tab α → Nat → α → Tab α
  | [], k, x => [(k, x)]
  | (j, v) :: t, k, x =>
    if j = k then (k, x) :: t else if j < k then (j, v) :: Tab.insert t k x else (k, x) :: (j, v) :: t

/-- A table with a new entry; an entry equal to the default is not listed. -/
def Tab.set {α : Type} [DecidableEq α] (d : α) (t : Tab α) (k : Nat) (x : α) : Tab α :=
  if x = d then Tab.erase t k else Tab.insert t k x

/-- A table in canonical form: rising keys, no entry equal to the default. -/
def Tab.wf {α : Type} [DecidableEq α] (d : α) : Tab α → Bool
  | [] => true
  | [(_, v)] => decide (v ≠ d)
  | (j, v) :: (k, w) :: t => decide (v ≠ d) && decide (j < k) && Tab.wf d ((k, w) :: t)

/-- A number as `n` little-endian bytes (R11). -/
def leBytes (n v : Nat) : List Byte :=
  match n with
  | 0 => []
  | m + 1 => BitVec.ofNat 8 v :: leBytes m (v / 256)

/-- The number that little-endian bytes spell (R11). -/
def leNat : List Byte → Nat
  | [] => 0
  | b :: t => b.toNat + 256 * leNat t

/-- The number that big-endian bytes spell. -/
def beNat (l : List Byte) : Nat := leNat l.reverse
/-- A number as `n` big-endian bytes. -/
def beBytes (n v : Nat) : List Byte := (leBytes n v).reverse

/-- Bits `hi` down to `lo` of a number (R11). -/
def bitsOf (v hi lo : Nat) : Nat := (v / 2 ^ lo) % 2 ^ (hi + 1 - lo)
/-- One bit of a number. -/
def bitOf (v i : Nat) : Bool := (v / 2 ^ i) % 2 == 1

/-- `len` bytes of a list from an offset, zero beyond its end. -/
def sliceZ (l : List Byte) (off len : Nat) : List Byte :=
  let t := (l.drop off).take len
  t ++ List.replicate (len - t.length) 0

/-- The little-endian number in `len` bytes of a list from an offset. -/
def fieldOf (l : List Byte) (off len : Nat) : Nat := leNat ((l.drop off).take len)

/-- Bytes as little-endian 32-bit words; a tail shorter than a word is dropped. -/
def wordsOf : List Byte → List Nat
  | a :: b :: c :: d :: t => leNat [a, b, c, d] :: wordsOf t
  | _ => []

/-- Words as little-endian bytes. -/
def bytesOfWords (l : List Nat) : List Byte := l.flatMap (leBytes 4)

/-- A division rounded up. -/
def ceilDiv (a b : Nat) : Nat := (a + (b - 1)) / b

/-- A saturating increment (R18, R271). -/
def satInc {w : Nat} (v : BitVec w) : BitVec w := if v = BitVec.allOnes w then v else v + 1
/-- A saturating sum. -/
def satAdd {w : Nat} (v : BitVec w) (n : Nat) : BitVec w := BitVec.ofNat w (min (2 ^ w - 1) (v.toNat + n))

/-- The numbers below `n` whose bit is set in a mask, ascending. -/
def maskList (n : Nat) (m : Nat) : List Nat := (List.range n).filter (fun i => bitOf m i)
/-- The mask of a list of numbers. -/
def maskOf (l : List Nat) : Nat := l.foldl (fun m i => m ||| 2 ^ i) 0

/-! ## Parts of the state -/

/-- A room of the state. -/
def State.room (s : State) (r : Nat) : Room := Tab.get {} s.rooms r
/-- The state with one room replaced. -/
def State.setRoom (s : State) (r : Nat) (x : Room) : State := { s with rooms := Tab.set {} s.rooms r x }
/-- A stack of the state. -/
def State.stack (s : State) (r : Nat) : Stack := Tab.get {} s.hbm r
/-- The state with one stack replaced. -/
def State.setStack (s : State) (r : Nat) (x : Stack) : State := { s with hbm := Tab.set {} s.hbm r x }
/-- A partition of the state. -/
def State.part (s : State) (p : Nat) : Part := Tab.get {} s.parts p
/-- The state with one partition replaced. -/
def State.setPart (s : State) (p : Nat) (x : Part) : State := { s with parts := Tab.set {} s.parts p x }
/-- A function of the state. -/
def State.fn (s : State) (f : Nat) : Fn := Tab.get {} s.fns f
/-- The state with one function replaced. -/
def State.setFn (s : State) (f : Nat) (x : Fn) : State := { s with fns := Tab.set {} s.fns f x }
/-- A port of the state. -/
def State.port (s : State) (n : Nat) : Port := Tab.get {} s.links.ports n
/-- The state with one port replaced. -/
def State.setPort (s : State) (n : Nat) (x : Port) : State :=
  { s with links := { s.links with ports := Tab.set {} s.links.ports n x } }
/-- A channel of a room. -/
def Room.chan (r : Room) (c : Nat) : Channel := Tab.get {} r.channels c
/-- A room with one channel replaced. -/
def Room.setChan (r : Room) (c : Nat) (x : Channel) : Room := { r with channels := Tab.set {} r.channels c x }
/-- A slot of a function. -/
def Fn.slot (f : Fn) (k : Nat) : Slot := Tab.get {} f.slots k
/-- A function with one slot replaced. -/
def Fn.setSlot (f : Fn) (k : Nat) (x : Slot) : Fn := { f with slots := Tab.set {} f.slots k x }
/-- The state with one slot of a function replaced. -/
def State.setSlot (s : State) (f k : Nat) (x : Slot) : State := s.setFn f ((s.fn f).setSlot k x)
/-- A layer of a room's attic. -/
def Room.layer (r : Room) (l : Nat) : Layer := Tab.get {} r.layers l
/-- A room with one layer replaced. -/
def Room.setLayer (r : Room) (l : Nat) (x : Layer) : Room := { r with layers := Tab.set {} r.layers l x }
/-- Something left the module. -/
def State.emit (s : State) (e : OutEvent) : State := { s with out := e :: s.out }
/-- A clock domain. -/
def State.clk (s : State) (d : Nat) : ClkDom := Tab.get {} s.clocks.doms d
/-- The state with one clock domain replaced. -/
def State.setClk (s : State) (d : Nat) (x : ClkDom) : State :=
  { s with clocks := { s.clocks with doms := Tab.set {} s.clocks.doms d x } }

/-! ## Identity from fuses (R1 to R8, R500) -/

/-- A word of the cold image of the fuse array (R501). -/
def State.fuse (s : State) (n : Nat) : Nat := (Tab.get 0 s.nvm.image n).toNat
/-- The room-enable mask (R3). -/
def State.roomEnable (s : State) : Nat := bitsOf (s.fuse 73) 15 0
/-- The ordering code is DRL-W12L (R500). -/
def State.isW12 (s : State) : Bool := bitOf (s.fuse 73) 17
/-- The number of partitions and of virtual functions (R7). -/
def State.maxParts (s : State) : Nat := if s.isW12 then 12 else 16
/-- A room is enabled by fuse and not retired. -/
def State.roomOk (s : State) (r : Nat) : Bool := bitOf s.roomEnable r && !(s.room r).retired
/-- The enabled rooms not retired, ascending. -/
def State.liveRooms (s : State) : List Nat := (List.range 16).filter s.roomOk

/-- The partition Pk exists (live or being torn down). -/
def Part.present (p : Part) : Bool := p.phase != .absent
/-- The partition Pk exists and is not being torn down (R531 PARTITION_VALID). -/
def Part.isLive (p : Part) : Bool := p.phase == .live
/-- A function that the host sees: PF0, and with VF Enable every VF the ordering code exposes (R8, R398). -/
def State.fnPresent (s : State) (f : Nat) : Bool := f == 0 || (s.board.vfEnable && decide (f ≤ s.maxParts))
/-- The partition that owns a room, by number. -/
def State.ownerOf (s : State) (r : Nat) : Option Nat :=
  (List.range 16).find? (fun p => (s.part p).present && (s.part p).rooms.contains r)
/-- The follower of a pair in states 1 to 3 (R437). -/
def Part.isFollower (p : Part) : Bool :=
  !p.pair.leader && (p.pair.state == .syncing || p.pair.state == .dual || p.pair.state == .standby)
/-- The leader of a pair in states 1 to 3. -/
def Part.isLeader (p : Part) : Bool :=
  p.pair.leader && (p.pair.state == .syncing || p.pair.state == .dual || p.pair.state == .standby)

/-! ## Memory -/

/-- A byte of memory: the listed one, or zero (log 2). -/
def Mem.byte (m : List Host.Cell) (a : Nat) : Byte := Tab.get 0 m a

/-- `n` bytes from `base` out of cells that all lie at or above it. -/
def Mem.fillRun (base : Nat) : Nat → List Host.Cell → List Byte
  | 0, _ => []
  | n + 1, [] => 0 :: Mem.fillRun (base + 1) n []
  | n + 1, (k, v) :: t => if k = base then v :: Mem.fillRun (base + 1) n t else 0 :: Mem.fillRun (base + 1) n ((k, v) :: t)

/-- `n` bytes of memory from `base`. -/
def Mem.read (m : List Host.Cell) (base n : Nat) : List Byte :=
  Mem.fillRun base n (m.filter (fun c => base ≤ c.1 && c.1 < base + n))

/-- The cells that a run of bytes lists: those that differ from an unlisted byte. -/
def Mem.cells (base : Nat) : List Byte → List Host.Cell
  | [] => []
  | b :: t => if b = 0 then Mem.cells (base + 1) t else (base, b) :: Mem.cells (base + 1) t

/-- Memory with a run of bytes written at `base`. -/
def Mem.write (m : List Host.Cell) (base : Nat) (data : List Byte) : List Host.Cell :=
  m.filter (fun c => c.1 < base) ++ Mem.cells base data ++ m.filter (fun c => base + data.length ≤ c.1)

/-- Memory with `n` bytes from `base` cleared to zero. -/
def Mem.clear (m : List Host.Cell) (base n : Nat) : List Host.Cell :=
  m.filter (fun c => !(base ≤ c.1 && c.1 < base + n))

/-- Memory in canonical form: rising addresses, no listed zero. -/
def Mem.wf (m : List Host.Cell) : Bool := Tab.wf 0 m

/-- Bytes of an attic slice (R186): 384 MiB. -/
def atticBytes : Nat := 0x18000000
/-- Bytes of a stack available to partitions (R217). -/
def stackBytes : Nat := 0xBD0000000
/-- The key of a byte of a room's attic. -/
def atticKey (r off : Nat) : Nat := r * 2 ^ 32 + off
/-- The key of a byte of a stack. -/
def cellarKey (r off : Nat) : Nat := r * 2 ^ 36 + off

/-- A run of bytes covers a line whole. -/
def fullLine (off n line : Nat) : Bool := decide (off ≤ line * 128) && decide (line * 128 + 128 ≤ off + n)

/-- The records of counted errors after a write (R456): a line counted and then written in full is one whose error would recur. -/
def Mem.rewrote (m : Mem) (hit : Nat × Nat × Nat → Bool) : Mem :=
  { m with counted := m.counted.filter (fun e => !hit e), rewritten := m.counted.filter hit ++ m.rewritten }

/-- Bytes of a room's attic. -/
def State.readAttic (s : State) (r off n : Nat) : List Byte := Mem.read s.mem.attic (atticKey r off) n
/-- The state with bytes of a room's attic written. A full write leaves right parity behind (R199). -/
def State.writeAttic (s : State) (r off : Nat) (data : List Byte) : State :=
  { s with mem := { s.mem.rewrote (fun e => e.1 == 0 && e.2.1 == r && fullLine off data.length e.2.2) with
      attic := Mem.write s.mem.attic (atticKey r off) data
      atticBad := s.mem.atticBad.filter (fun c => !(atticKey r off ≤ c.1 && c.1 < atticKey r off + data.length)) } }
/-- Bytes of a stack. -/
def State.readCellar (s : State) (r off n : Nat) : List Byte := Mem.read s.mem.cellar (cellarKey r off) n
/-- The state with bytes of a stack written, the bursts that the write wholly covers free of error (R230). A pending sweep rewrite of a line that is written
is cancelled (R238). -/
def State.writeCellar (s : State) (r off : Nat) (data : List Byte) : State :=
  let x := Tab.get {} s.hbm r
  let lo := off / 128
  let hi := (off + data.length + 127) / 128
  { s with
    hbm := if x.rewrites.isEmpty then s.hbm else Tab.set {} s.hbm r { x with rewrites := x.rewrites.filter (fun l => l < lo || hi ≤ l) }
    mem := { s.mem.rewrote (fun e => e.1 != 0 && e.2.1 == r && fullLine off data.length e.2.2) with
      cellar := Mem.write s.mem.cellar (cellarKey r off) data
      ecc := s.mem.ecc.filter (fun c =>
        !(cellarKey r off ≤ c.1 * 32 && c.1 * 32 + 32 ≤ cellarKey r off + data.length)) } }

/-- The burst of a stack that holds an offset has an uncorrectable error (R230). -/
def State.burstBad (s : State) (r off : Nat) : Bool := Tab.get 0 s.mem.ecc (cellarKey r off / 32) == 2
/-- The burst of a stack that holds an offset is corrected on reading (R230). -/
def State.burstCorr (s : State) (r off : Nat) : Bool := Tab.get 0 s.mem.ecc (cellarKey r off / 32) == 1
/-- The line of a stack that holds an offset is on the lost-line list (R231). -/
def State.lineLost (s : State) (r off : Nat) : Bool := (s.stack r).lost.contains (off / 128)

/-- The four burst offsets of a line. -/
def burstsOf (line : Nat) : List Nat := [line * 128, line * 128 + 32, line * 128 + 64, line * 128 + 96]
/-- The lines that a run of bytes touches. -/
def linesOf (off n : Nat) : List Nat :=
  if n = 0 then [] else (List.range ((off + n - 1) / 128 + 1 - off / 128)).map (fun i => off / 128 + i)
/-- The bursts of a line that a run of bytes does not wholly cover (R230): those a merge reads. -/
def mergeBursts (off n line : Nat) : List Nat :=
  if off ≤ line * 128 && line * 128 + 128 ≤ off + n then []
  else (burstsOf line).filter (fun b => !(off ≤ b && b + 32 ≤ off + n))

/-- The stack's ECC counters after the bursts of a read (R230, R241). -/
def State.countEcc (s : State) (r : Nat) (bursts : List Nat) : State :=
  let x := s.stack r
  let corr := (bursts.filter (s.burstCorr r)).length
  let bad := (bursts.filter (s.burstBad r)).length
  s.setStack r { x with counters := { x.counters with
    eccCorr := satAdd x.counters.eccCorr corr, eccUncorr := satAdd x.counters.eccUncorr bad } }

/-- A read of whole lines by a requester (R230, R231): the state with its counts, and the bytes, or none on an uncorrectable
burst or a lost line. -/
def State.cellarRead (s : State) (r off n : Nat) : State × Option (List Byte) :=
  let ls := linesOf off n
  let served := ls.filter (fun l => !s.lineLost r (l * 128))
  let bs := served.flatMap burstsOf
  let x := s.stack r
  let s1 := (s.setStack r { x with counters := { x.counters with
    linesRd := x.counters.linesRd + BitVec.ofNat 48 served.length } }).countEcc r bs
  if ls.any (fun l => s.lineLost r (l * 128)) || bs.any (s.burstBad r) then (s1, none) else (s1, some (s.readCellar r off n))

/-- A merge reads some bursts of a line (R230), which counts as a read of the line (R241, R269); with every burst wholly covered it reads nothing. -/
def State.mergeRead (s : State) (r : Nat) (bursts : List Nat) : State :=
  if bursts.isEmpty then s
  else
    let x := s.stack r
    (s.setStack r { x with counters := { x.counters with linesRd := x.counters.linesRd + 1 } }).countEcc r bursts

/-- A merge of some bytes of a line writes the whole line (R230, R241, R269). -/
def State.mergeWrite (s : State) (r line : Nat) (bytes : List Byte) : State :=
  let x := s.stack r
  (s.setStack r { x with counters := { x.counters with linesWr := x.counters.linesWr + 1 } }).writeCellar r (line * 128) bytes

/-- The bytes of a line with a run of them replaced. -/
def spliced (old : List Byte) (at_ : Nat) (part : List Byte) : List Byte := old.take at_ ++ part ++ old.drop (at_ + part.length)

/-- A write by a requester, line by line (R230, R231): lines wholly covered are written and leave the lost-line list; other
lines are merged, and fail on an uncorrectable merge read or when lost. The answer says whether every line was written; a
line that fails writes nothing, and no line after it is written (R262). -/
def State.cellarWrite (s : State) (r off : Nat) (data : List Byte) : State × Bool :=
  (linesOf off data.length).foldl
    (fun (a : State × Bool) l =>
      let lo := max off (l * 128)
      let hi := min (off + data.length) (l * 128 + 128)
      let part := (data.drop (lo - off)).take (hi - lo)
      let x := a.1.stack r
      if !a.2 then a
      else if lo = l * 128 && hi = l * 128 + 128 then
        ((a.1.setStack r { x with
            lost := x.lost.filter (· != l)
            counters := { x.counters with linesWr := x.counters.linesWr + 1 } }).writeCellar r lo part, a.2)
      else if a.1.lineLost r lo then (a.1, false)
      else
        let bs := mergeBursts lo (hi - lo) l
        let s1 := a.1.mergeRead r bs
        if bs.any (a.1.burstBad r) then (s1, false)
        else (s1.mergeWrite r l (spliced (s1.readCellar r (l * 128) 128) (lo - l * 128) part), a.2))
    (s, true)

/-- Some stack of a partition is at thermal level 4, where its requests wait (R232, R233). -/
def State.hotStack (s : State) (p : Nat) : Bool := (s.part p).rooms.any (fun r => decide (4 ≤ (s.stack r).level))

/-! ## Free values and counts of what is retired -/

/-- Free values are drawn: the counter moves past `n` of them (log 4). -/
def State.draw (s : State) (n : Nat) : State := { s with free := s.free + n }

/-- The retirement flag that the third counted event of R465 raises is decided from what is retired. -/
def State.retiredPaus (s : State) : Nat :=
  ((List.range 16).map (fun r => ((List.range 4).filter (fun k => (s.room r).pauRetired.getLsbD k)).length)).sum
/-- Ports retired. -/
def State.retiredPorts (s : State) : Nat := ((List.range 30).filter (fun n => (s.port n).state = .retired)).length

end Sys2Proof.Machine
end

