-- ==== Sys2Proof/Machine/Flags.lean ====
section
/-! DEFINITION. The flags of the module and what sets them: interrupt sources, raised vectors, INT_STATUS causes, the device state, DEGRADED and
REPLACE_REQUESTED, ledger decisions and rights-violation counts. -/

namespace Sys2Proof.Machine

/-! ## Interrupt sources, vectors, decisions -/

/-- The sources that the table of R342 assigns. -/
def sourceAssigned (n : Nat) : Bool :=
  n ≤ 15 || (32 ≤ n && n ≤ 79) || (96 ≤ n && n ≤ 125) || (128 ≤ n && n ≤ 179) || (192 ≤ n && n ≤ 195) ||
    (224 ≤ n && n ≤ 227)

/-- A source of the interrupt controller. -/
def State.source (s : State) (n : Nat) : Source := Tab.get {} s.gysis.intc.sources n
/-- The state with one source replaced. -/
def State.setSource (s : State) (n : Nat) (x : Source) : State :=
  { s with gysis := { s.gysis with intc := { s.gysis.intc with sources := Tab.set {} s.gysis.intc.sources n x } } }
/-- An event sets its source's pending bit (R343); an unassigned source never becomes pending (R342). -/
def State.raise (s : State) (n : Nat) : State :=
  if sourceAssigned n then s.setSource n { s.source n with pending := true } else s

/-- A vector of a function is raised: firmware is to request it (R352). -/
def State.raiseVector (s : State) (f v : Nat) : State :=
  let x := s.fn f
  s.setFn f { x with raised := x.raised ++ [v] }

/-- A cause of INT_STATUS is set: 0 STATE, 1 PARTITION, 2 LEDGER. The event vector is raised when the bit was clear and its
mask bit is 0 (R352, R353). -/
def State.setCause (s : State) (f k : Nat) : State :=
  let x := s.fn f
  if x.intStatus.getLsbD k then s
  else
    let s1 := s.setFn f { x with intStatus := x.intStatus ||| BitVec.ofNat 3 (2 ^ k) }
    if x.intMask.getLsbD k then s1 else s1.raiseVector f x.eventVector.toNat

/-- INT_STATUS.STATE is set for every function (R352, R511). -/
def State.stateChanged (s : State) : State := (List.range 17).foldl (fun t f => t.setCause f 0) s

/-- INT_STATUS.PARTITION is set for PF0 and for the VF of a partition (R352, R387). -/
def State.partChanged (s : State) (p : Nat) : State := (s.setCause 0 1).setCause (p + 1) 1

/-- Every break is cleared (R316). -/
def State.clearBreaks (s : State) : State := (List.range 16).foldl (fun t r => if (t.room r).brk = {} then t else t.setRoom r { t.room r with brk := {} }) s

/-- The device state changes (R531), which sets INT_STATUS.STATE; when it becomes READY, every break is cleared (R316). -/
def State.setDev (s : State) (d : DevState) : State :=
  if s.boot.state = d then s
  else
    let t := { s with boot := { s.boot with state := d } }.stateChanged
    if d = .ready then t.clearBreaks else t

/-- A decision that firmware is to enter in the ledger (R467); LEDGER_WRITE writes it. -/
def State.record (s : State) (e : LedgerEntry) : State :=
  { s with gysis := { s.gysis with ledger := { s.gysis.ledger with todo := s.gysis.ledger.todo ++ [e] } } }

/-- A ledger entry of a code, with the fields that most entries leave at their empty values (R468). -/
def State.entry (s : State) (code : Nat) (cls : BitVec 8) (room unit wher : Nat) : LedgerEntry :=
  { time := s.now, code := code, cls := cls,
    part := if room = 255 then 255 else (s.ownerOf room).getD 255,
    room := room, unit := unit, count := 1, where_ := wher,
    block := if room = 255 then 0 else (s.room room).blockCounter.toNat, cause := 0 }

/-- DEGRADED is set (R465): the first time, INT_STATUS.STATE is set. -/
def State.setDegraded (s : State) : State :=
  if s.gysis.degraded then s else { s with gysis := { s.gysis with degraded := true } }.stateChanged
/-- REPLACE_REQUESTED is set (R465). -/
def State.setReplace (s : State) : State :=
  if s.gysis.replaceRequested then s else { s with gysis := { s.gysis with replaceRequested := true } }.stateChanged

/-- A rights violation of a function is counted (R18, R338). -/
def State.violate (s : State) (f : Nat) : State :=
  { s with gysis := { s.gysis with ledger := { s.gysis.ledger with
      viol := Tab.set 0 s.gysis.ledger.viol f (satInc (Tab.get 0 s.gysis.ledger.viol f)) } } }

/-- The violations of `n` accesses. -/
def State.violateN (s : State) (f : Nat) : Nat → State
  | 0 => s
  | n + 1 => (s.violateN f n).violate f

end Sys2Proof.Machine
end

