-- ==== Sys2Proof/Machine/Operands.lean ====
section
/-! DEFINITION. The operand forms of the host's commands: slots and requests, register values, and the reads of BAR0. -/

namespace Sys2Proof.Machine

/-! ## Slots and requests (R320 to R323) -/

/-- A byte of a slot. A payload byte that holds no defined value since a response ended before it (R322) reads as a free value. -/
def Slot.byte (x : Slot) (i : Nat) : Byte :=
  if 32 ≤ i && x.openFrom ≤ i && !x.defined.contains i then Config.openByte (x.openBase + i) else Tab.get 0 x.bytes i

/-- A byte of a slot is written. -/
def Slot.put (x : Slot) (i : Nat) (b : Byte) : Slot :=
  if x.openFrom ≤ i then { x with bytes := Tab.set 0 x.bytes i b, defined := if x.defined.contains i then x.defined else i :: x.defined }
  else { x with bytes := Tab.set 0 x.bytes i b }

/-- A run of bytes of a slot is written; bytes beyond the slot are dropped. -/
def Slot.putRun (x : Slot) (off : Nat) : List Byte → Slot
  | [] => x
  | b :: t => (if off < 512 then x.put off b else x).putRun (off + 1) t

/-- A little-endian field of a slot. -/
def Slot.field (x : Slot) (off n : Nat) : Nat := leNat ((List.range n).map (fun i => x.byte (off + i)))

/-- The command in a slot. -/
def Slot.req (x : Slot) : Req :=
  let n := x.field 4 2
  { op := x.field 0 2, seq := (x.byte 2).toNat, ctrl := (x.byte 3).toNat, len := n, vector := (x.byte 6).toNat,
    body := (List.range 480).map (fun i => if i < n then x.byte (32 + i) else 0) }

/-- A little-endian field of a request. -/
def Req.field (q : Req) (off n : Nat) : Nat := fieldOf q.body off n

/-- A slot at the end of a command (step 4 of R322): response, RESP_LEN, RSEQ, PROGRESS, PROG_TOTAL and STATUS are written and the
state is DONE. The payload bytes beyond RESP_LEN hold no defined value. -/
def Slot.finish (x : Slot) (base status progress total : Nat) (resp : List Byte) : Slot :=
  let y := { x with openFrom := 512, defined := [] }.putRun 32 resp
  let z := (((y.putRun 18 (leBytes 2 resp.length)).putRun 17 [x.byte 2]).putRun 20 (leBytes 4 progress)).putRun 24
    (leBytes 4 total)
  { z.putRun 16 (leBytes 1 status) with state := .done, openFrom := 32 + resp.length, openBase := base }

/-- PROGRESS of KIND 1: hundredths of a per cent (R330). -/
def progressFraction (n : Nat) : Nat := 2 ^ 30 + n
/-- PROGRESS of KIND 2: units done (R330). -/
def progressPosition (n : Nat) : Nat := 2 ^ 31 + n

/-- The payload of an INPUT message of a line (R438); the layout is the model's (log 41). -/
def inputBytes (room space flag off : Nat) (data : List Byte) : List Byte :=
  leBytes 1 room ++ leBytes 1 space ++ leBytes 1 flag ++ leBytes 8 off ++ data

/-! ## Register values (R528 to R538) -/

/-- How far a correction has been slewed: at most 200 ns each ms (R428). -/
def Links.slewed (x : Links) (now : Nat) : Int :=
  let most : Int := (((now - x.slewFrom) * 200 / 1000000 : Nat) : Int)
  max (-most) (min most x.slewLeft)

/-- The module timestamp in ns (R428, R536). -/
def State.timestamp (s : State) : Nat := ((s.now : Int) + s.links.timeOffset + s.links.slewed s.now).toNat

/-- ROOM_MASK as a function sees it (R186, R218). -/
def State.roomMaskOf (s : State) (f : Nat) : Nat :=
  if f = 0 then maskOf s.liveRooms
  else if (s.part (f - 1)).present then maskOf (s.part (f - 1)).rooms else 0

/-- PAIR_STATE codes (R435). -/
def PairState.code : PairState → Nat
  | .none => 0 | .syncing => 1 | .dual => 2 | .standby => 3 | .frozen => 4 | .solo => 5

/-- Slot state codes (R321). -/
def SlotState.code : SlotState → Nat
  | .free => 0 | .posted => 1 | .running => 2 | .done => 3

/-- HIF_STATE (R531). -/
def State.hifState (s : State) (f : Nat) : Nat :=
  s.boot.state.code + (if s.gysis.degraded then 2 ^ 4 else 0) + (if s.gysis.replaceRequested then 2 ^ 5 else 0) + f * 2 ^ 8 +
    (if f = 0 then 0
     else
      let p := s.part (f - 1)
      (f - 1) * 2 ^ 16 + (if p.isLive then 2 ^ 20 else 0) + p.pair.state.code * 2 ^ 21 + (if p.pair.leader then 2 ^ 24 else 0))

/-- HIF_MODULE (R531). -/
def State.hifModule (s : State) : Nat :=
  (match s.links.route with | some t => t.module + 2 ^ 16 | none => 0) + (if s.links.locked then 2 ^ 17 else 0)

/-- The firmware's version, or the boot ROM's while it serves (R531). -/
def State.romServes (s : State) : Bool := !s.boot.firmwareRunning
/-- HIF_FW_VERSION. The boot ROM's version is a free value of the implementation (log 11). -/
def State.fwVersion (s : State) : Nat :=
  if s.romServes || s.boot.state == .halted then 2 ^ 63 + Config.romVersion.toNat else s.gysis.fwVersion.toNat

/-- HIF_BOOT_STATUS (R516). -/
def State.bootStatus (s : State) : Nat :=
  let b := s.boot
  b.stopState + b.cause * 2 ^ 4 + (if b.slotB then 2 ^ 8 else 0) + (if b.identityLost then 2 ^ 9 else 0) +
    (if b.repairLost then 2 ^ 10 else 0) + (if b.signerSuspect then 2 ^ 11 else 0) + min 4095 b.weak.length * 2 ^ 16 +
    min 4095 b.unstable.length * 2 ^ 28 + min 255 b.hardRepairs * 2 ^ 40 + min 0xFFFF b.bootMs * 2 ^ 48

/-- HIF_BAR2_APa (R539). -/
def Aperture.word (a : Aperture) : Nat := a.room.toNat + a.base.toNat * 2 ^ 8 + (if a.enable then 2 ^ 31 else 0)

/-- A register of the map of R528: offset, bytes, who may access it (0 all, 1 PF0, 2 VF), and its live value. -/
structure RegAt where
  base : Nat
  bytes : Nat
  who : Nat
  value : Nat
deriving DecidableEq, Repr

/-- The register that holds a BAR0 offset outside slots and the MSI-X structures, with the value that function `f` reads. -/
def State.regAt (s : State) (f off : Nat) : Option RegAt :=
  let x := s.fn f
  let one (b n w v : Nat) : Option RegAt := some { base := b, bytes := n, who := w, value := v }
  if off < 0x08 then one 0 8 0 (0x5744524C + 2 ^ 32 + (if s.isW12 then 2 ^ 48 else 0) + s.nvm.stepping.toNat * 2 ^ 52)
  else if off < 0x0C then one 0x08 4 0 (s.hifState f)
  else if off < 0x10 then none
  else if off < 0x14 then one 0x10 4 0 ((if bitOf (s.fuse 73) 16 then 1 else 0) + 2 ^ 4 + s.maxParts * 2 ^ 8 + s.maxParts * 2 ^ 13 +
    0x20 * 2 ^ 18 + 8 * 2 ^ 24)
  else if off < 0x18 then none
  else if off < 0x1C then one 0x18 4 0 (s.roomEnable + (maskList 16 s.roomEnable).length * 2 ^ 16)
  else if off < 0x20 then none
  else if off < 0x28 then one 0x20 8 0 (s.fuse 12 + s.fuse 13 * 2 ^ 32)
  else if off < 0x30 then one 0x28 8 0 (s.fuse 14 + s.fuse 15 * 2 ^ 32)
  else if off < 0x38 then one 0x30 8 0 s.fwVersion
  else if off < 0x3C then one 0x38 4 0 s.hifModule
  else if off < 0x40 then none
  else if off < 0x44 then one 0x40 4 0 0x07154003
  else if off < 0x48 then none
  else if off < 0x50 then one 0x48 8 0 (atticBytes + s.roomMaskOf f * 2 ^ 32)
  else if off < 0x54 then one 0x50 4 0 0x007A3040
  else if off < 0x58 then none
  else if off < 0x60 then one 0x58 8 0 (stackBytes + s.roomMaskOf f * 2 ^ 48)
  else if off < 0x68 then one 0x60 8 1 s.bootStatus
  else if off < 0x6C then one 0x68 4 1 (s.boot.bar2Mode.toNat + (if s.boot.locked then 2 ^ 31 else 0))
  else if off < 0x80 then none
  else if off < 0x90 then one (off / 4 * 4) 4 2 (Tab.get {} x.apertures ((off - 0x80) / 4)).word
  else if off < 0x2000 then none
  else if off < 0x2004 then one 0x2000 4 0 0
  else if off < 0x2008 then one 0x2004 4 0 (((List.range 8).map (fun k => (x.slot k).state.code * 4 ^ k)).sum)
  else if off < 0x200C then one 0x2008 4 0 0
  else if off < 0x2010 then none
  else if off < 0x2014 then one 0x2010 4 2 0
  else if off < 0x2018 then one 0x2014 4 2 (x.jobHead.toNat + x.jobTail.toNat * 2 ^ 16)
  else if off < 0x201C then one 0x2018 4 2 ((x.jobTail - x.jobHead).toNat % 128 + (if x.ringSet then 2 ^ 8 else 0) +
    (if x.jobRunning then 2 ^ 9 else 0))
  else if off < 0x3000 then none
  else if off < 0x3004 then one 0x3000 4 0 (if f = 0 then x.intStatus.toNat else x.intStatus.toNat % 4)
  else if off < 0x3008 then one 0x3004 4 0 x.intMask.toNat
  else if off < 0x300C then one 0x3008 4 0 (x.eventVector.toNat + x.holdoff.toNat * 2 ^ 16)
  else if off < 0x4000 then none
  else if off < 0x4040 then
    let k := x.slot ((off - 0x4000) / 8)
    one (off / 8 * 8) 8 0 (k.field 20 4 + k.field 24 4 * 2 ^ 32)
  else if off < 0x4048 then one 0x4040 8 0 s.timestamp
  else if off < 0x404C then one 0x4048 4 0 x.telSeq.toNat
  else if off < 0x4050 then none
  else if off < 0x4080 then one (off / 8 * 8) 8 0 (Tab.get 0 x.mirror (off / 8 * 8)).toNat
  else if off < 0x4100 then none
  else if off < 0x4140 then one (off / 8 * 8) 8 1 (Tab.get 0 x.mirror (off / 8 * 8)).toNat
  else if off < 0x4160 then one (off / 2 * 2) 2 1 (Tab.get 0 x.mirror (off / 2 * 2)).toNat
  else if off < 0x4200 then none
  else if off < 0x4400 then one (off / 8 * 8) 8 2 (Tab.get 0 x.mirror (off / 8 * 8)).toNat
  else none

/-- A function may access a register (R528, R18). -/
def regRight (f who : Nat) : Bool := who == 0 || (who == 1 && f == 0) || (who == 2 && f != 0)

/-- A 32-bit read of BAR0 (R17, R18, R529): the state with its latch and violation count, and the value. -/
def State.read32 (s : State) (f off : Nat) : State × Nat :=
  let x := s.fn f
  if 0x1000 ≤ off && off < 0x2000 then (s, (x.slot ((off - 0x1000) / 512)).field ((off - 0x1000) % 512) 4)
  else if 0x3800 ≤ off && off < 0x3A00 then
    let e := Tab.get {} x.msix ((off - 0x3800) / 16)
    (s, match (off - 0x3800) % 16 / 4 with
        | 0 => e.addr.toNat % 2 ^ 32
        | 1 => e.addr.toNat / 2 ^ 32
        | 2 => e.data.toNat
        | _ => e.ctrl.toNat)
  else if off = 0x3A00 then (s, x.pba.toNat)
  else
    match s.regAt f off with
    | none => (s, 0)
    | some g =>
      if !regRight f g.who then (s.violate f, 0)
      else if g.bytes = 8 then
        if off = g.base then
          (s.setFn f { x with latch := Tab.set none x.latch g.base (some (BitVec.ofNat 32 (g.value / 2 ^ 32))) }, g.value % 2 ^ 32)
        else
          match Tab.get none x.latch g.base with
          | some h => (s.setFn f { x with latch := Tab.set none x.latch g.base none }, h.toNat)
          | none => (s, g.value / 2 ^ 32)
      else if g.bytes = 2 then
        (s, g.value % 2 ^ 16 + (match s.regAt f (off + 2) with | some h => h.value % 2 ^ 16 * 2 ^ 16 | none => 0))
      else (s, g.value)

/-- An offset of BAR0 holds a register outside a function's rights (R18, R528). -/
def State.noRight (s : State) (f off : Nat) : Bool := match s.regAt f off with | some g => !regRight f g.who | none => false

/-- The byte of BAR0 at an offset among a function's mailbox slots (R320). -/
def Fn.slotByte (x : Fn) (off : Nat) : Byte := (x.slot ((off - 0x1000) / 512 % 8)).byte ((off - 0x1000) % 512)

/-- A read of 32 bits above a lower half that has been read. -/
def highOver (lo : Nat) (hi : State × Nat) : State × Nat := (hi.1, lo + hi.2 * 2 ^ 32)

/-- A read of BAR0 (R17, R529): of slots, 1 to 8 bytes at any alignment; a 64-bit register whole; two 32-bit registers by one access; a register's half, with
the latch of R17; or, narrower, the addressed bytes of a register, which no latch meets. An access counts once outside the function's rights (R18). -/
def State.readBar0 (s : State) (f off width : Nat) : State × Nat :=
  if 0x1000 ≤ off && off < 0x2000 then (s, leNat ((List.range width).map (fun i => (s.fn f).slotByte (off + i))))
  else if off % width ≠ 0 then (s, 0)
  else if width = 4 then s.read32 f off
  else if width = 8 then
    match s.regAt f off with
    | some g =>
      if g.bytes = 8 then (if regRight f g.who then (s, g.value) else (s.violate f, 0))
      else if s.noRight f off && s.noRight f (off + 4) then (s.violate f, 0)
      else
        let lo := s.read32 f off
        highOver lo.2 (lo.1.read32 f (off + 4))
    | none => highOver (s.read32 f off).2 (s.read32 f (off + 4))
  else if 0x3800 ≤ off && off < 0x3A08 then (s, 0)
  else if s.noRight f off then (s.violate f, 0)
  else match s.regAt f off with
    | some g => (s, g.value / 2 ^ (8 * (off - g.base)) % 2 ^ (8 * width))
    | none => (s, 0)

/-! ## Where an attic line lies (R189, R204, R205) -/

/-- Where an attic byte lies: layer, active bank, row (R189). -/
def atticPos (off : Nat) : Nat × Nat × Nat :=
  let bay := off / 128 % 64
  let shelf := off / 8192 / 3
  (off / 8192 % 3, (bay + shelf) % 64, shelf)

/-- The bank that serves another one of a layer after its retirement (R205). -/
def Layer.nextBank (x : Layer) (bank : Nat) : Nat :=
  match x.bankRemaps.find? (fun e => e.1 == bank) with
  | some e => e.2
  | none => bank

/-- The physical bank that serves an active bank of a layer; a spare bank may itself be retired. -/
def Layer.physBank (x : Layer) (bank : Nat) : Nat := x.nextBank (x.nextBank bank)

/-- The physical row that serves a row of a bank: the i-th retired row of the bank is served by its spare row 16,384 + i (R204). -/
def physRow (remaps : List Nat) : Nat → Nat → Nat
  | 0, row => row
  | n + 1, row => if remaps.contains row then physRow remaps n (16384 + remaps.findIdx (· == row)) else row

/-- The physical row that serves a row of a physical bank. -/
def Layer.physRow (x : Layer) (bank row : Nat) : Nat := Machine.physRow (Tab.get [] x.rowRemaps bank) 33 row

/-- The physical bank and row that serve a row of an active bank (R204, R205): of a bank that is being copied, rows below the copy pointer are served from
the spare bank. -/
def Layer.serves (x : Layer) (ptr bank row : Nat) : Nat × Nat :=
  let k := x.physBank bank
  match x.copy with
  | some (old, spare, _) => if old = k && row < ptr then (spare, x.physRow spare row) else (k, x.physRow k row)
  | none => (k, x.physRow k row)

/-- A spare bank of a layer is free (R205): neither in use nor itself retired nor the target of a copy. -/
def Layer.spareFree (x : Layer) (k : Nat) : Bool :=
  !x.bankRemaps.any (fun e => e.1 == k || e.2 == k) && (match x.copy with | some c => c.2.1 != k | none => true)

/-- A clamp applies in a room (R490). -/
def State.clamped (s : State) (r : Nat) : Bool := s.power.currentClamp || s.power.coolantClamp || (s.room r).thermalClamp

/-- Edges that a room's ACLK passes of every 8 on a divider (R487, R490, R526). -/
def State.edgesOf8 (s : State) (room : Nat) : Nat :=
  let st := match s.ownerOf room with | some p => (s.part p).step | none => 8
  if s.clamped room then (st + 1) / 2 else st

/-- 32,768 ACLK of a room in ns at its present rate. -/
def State.bankCopyNs (s : State) (r : Nat) : Nat := if (s.clk 0).source = 2 then 327680 else 20480 * 8 / max 1 (s.edgesOf8 r)

/-- The copy pointer of a layer's bank copy (R205): two ACLK to a row, at the room's present rate. -/
def State.copyPtr (s : State) (r layer : Nat) : Nat :=
  match ((s.room r).layer layer).copy with
  | some (_, _, start) => min 16384 ((s.now - start) * 16384 / max 1 (s.bankCopyNs r))
  | none => 0

/-- A block moves between spaces (R248): COPY, GATHER, SCATTER or FILL. -/
def Desc.isBlock (d : Desc) : Bool := d.op == 0 || d.op == 1 || d.op == 2 || d.op == 6
/-- The destination is at a remote module (R247). -/
def Desc.isRemote (d : Desc) : Bool := d.isBlock && (d.dstSpace == 3 || d.dstSpace == 4)
/-- FINAL of a remote destination; with any other destination it is ignored (R266). -/
def Desc.isFinal (d : Desc) : Bool := d.flags.getLsbD 2 && d.isRemote
/-- A side of a descriptor uses the host buffer that it names (R248, R264). -/
def Desc.usesHost (d : Desc) : Bool := d.isBlock && ((d.srcSpace == 2 && d.op != 6) || d.dstSpace == 2)

/-- PAUs of a room in service. -/
def Room.pausLeft (x : Room) : Nat := ((List.range 4).filter (fun k => !x.pauRetired.getLsbD k)).length

/-- A block stands at the start of a replay, none of whose commands has run: a permanent decision retires its channel before the block is executed again
(step 2 of R458, R461). -/
def Room.atRestart (x : Room) (b : Block) : Bool :=
  decide (1 < b.execs) && b.op == 0 && b.taken == 0 && b.error.isNone && !b.failed && x.queues.all (·.2.isEmpty) &&
    x.channels.all (fun c => c.2.issued.isEmpty && c.2.queue.isEmpty)

/-- A room is between blocks or before a replay, where retirements of its units take effect (R26, R458). -/
def Room.atBoundary (x : Room) : Bool := !x.brk.stopped && (match x.block with | some b => x.atRestart b | none => true)

end Sys2Proof.Machine
end

