-- ==== Sys2Proof/Machine/Arith.lean ====
section
/-! DEFINITION. Ladder primes and lane arithmetic (02): the prime table, modulus descriptors, the reduction of R38, lane-form
words, powers and inverses, the integers Λ of R69, and the cyclic redundancy check of every structure. -/

namespace Sys2Proof.Machine

/-- Entries 0 to 15 of the prime table (R37): PRIME, LADDER, ROOT. -/
def primeTable0 : List (Nat × Nat × Nat) :=
  [(0xD0000001, 0x573DF, 19410),
   (0xC1000001, 0x563DF, 10548),
   (0xC0000001, 0x103DF, 12014),
   (0xA2000001, 0x567BF, 3816),
   (0x9FC00001, 0xD5BBF, 44048),
   (0x94000001, 0x56B9F, 4919),
   (0x90040001, 0x54B9F, 11514),
   (0x88000001, 0x1037F, 945),
   (0x84040001, 0x54B5F, 18081),
   (0x83E00001, 0xD575F, 29637),
   (0x82200001, 0x5573F, 14125),
   (0x81400001, 0x55B1F, 8407),
   (0x807C0001, 0xD4AFF, 28471),
   (0x80700001, 0xD52FF, 49412),
   (0x80400001, 0x102DF, 2537),
   (0x80140001, 0x54A9F, 12804)]

/-- Entries 16 to 31 of the prime table (R37): PRIME, LADDER, ROOT. -/
def primeTable1 : List (Nat × Nat × Nat) :=
  [(0x7FF80001, 0x3027F, 3829),
   (0x7F000001, 0x3031F, 16795),
   (0x7EFC0001, 0xF4B1F, 3476),
   (0x7E100001, 0x7533F, 10113),
   (0x7E040001, 0x74B3F, 18056),
   (0x7E000001, 0x3033F, 7425),
   (0x7C800001, 0x75F5F, 2731),
   (0x78000001, 0x3037F, 84488),
   (0x6C000001, 0xF6B9F, 512),
   (0x49000001, 0x5637E, 7939),
   (0x48400001, 0x55B7E, 1807),
   (0x47E00001, 0xD577E, 771),
   (0x43E00001, 0xD575E, 9981),
   (0x42000001, 0x1033E, 32429),
   (0x41200001, 0x5571E, 17924),
   (0x41080001, 0x54F1E, 15574)]

/-- Entries 32 to 47 of the prime table (R37): PRIME, LADDER, ROOT. -/
def primeTable2 : List (Nat × Nat × Nat) :=
  [(0x40080001, 0x1027E, 103),
   (0x3FFC0001, 0x3025E, 25785),
   (0x3EF80001, 0xF4F1E, 3526),
   (0x3C100001, 0x7535E, 6161),
   (0x3BF80001, 0xF4F5E, 21144),
   (0x3BE00001, 0xF575E, 5208),
   (0x3B800001, 0xF5F5E, 2192),
   (0x38400001, 0x75B7E, 162),
   (0x38100001, 0x7537E, 721),
   (0x37F00001, 0xF537E, 220),
   (0x37C00001, 0xF5B7E, 2408),
   (0x27C00001, 0xD5B7D, 1336),
   (0x24100001, 0x5535D, 13784),
   (0x23800001, 0xD5F5D, 9679),
   (0x22080001, 0x54F3D, 9359),
   (0x21FC0001, 0xD4B3D, 4307)]

/-- Entries 48 to 63 of the prime table (R37): PRIME, LADDER, ROOT. -/
def primeTable3 : List (Nat × Nat × Nat) :=
  [(0x20440001, 0x54ADD, 11994),
   (0x20380001, 0xD4EDD, 3533),
   (0x20040001, 0x1025D, 2870),
   (0x1FFC0001, 0x3025D, 3108),
   (0x1FB00001, 0xF52DD, 8240),
   (0x1C000001, 0x3035D, 5561),
   (0x1BF00001, 0xF535D, 10439),
   (0x14080001, 0x54F5C, 754),
   (0x12040001, 0x54B3C, 768),
   (0x11040001, 0x54B1C, 1522),
   (0x10FC0001, 0xD4B1C, 2225),
   (0x10840001, 0x54AFC, 2438),
   (0x10600001, 0xD56FC, 55),
   (0x10240001, 0x54ABC, 659),
   (0x10200001, 0x102BC, 2680),
   (0x100C0001, 0xD4A9C, 15452)]

/-- The populated entries of the prime table (R37). -/
def primeTable : List (Nat × Nat × Nat) :=
  primeTable0 ++ primeTable1 ++ primeTable2 ++ primeTable3

/-- Bit steps of the CRC-32C register (polynomial 0x82F63B78, reflected). -/
def crcBits : Nat → BitVec 32 → BitVec 32
  | 0, c => c
  | n + 1, c => crcBits n (if c.getLsbD 0 then (c >>> 1) ^^^ 0x82F63B78 else c >>> 1)

/-- CRC-32C over bytes, as labels, headers and ledger structures carry it (R63, R119, R289, R332). -/
def crc32c (l : List Byte) : Nat :=
  (~~~(l.foldl (fun c b => crcBits 8 (c ^^^ (b.setWidth 32))) (BitVec.allOnes 32))).toNat

/-- Bit steps of a CRC-64 register, most significant bit first. -/
def crc64Bits (poly : BitVec 64) : Nat → BitVec 64 → BitVec 64
  | 0, c => c
  | n + 1, c => crc64Bits poly n (if c.getMsbD 0 then BitVec.shiftLeft c 1 ^^^ poly else BitVec.shiftLeft c 1)

/-- A CRC-64 over bytes with a polynomial, an initial value and a final inversion or none (R441). -/
def crc64 (poly init final : BitVec 64) (l : List Byte) : BitVec 64 :=
  l.foldl (fun c b => crc64Bits poly 8 (c ^^^ BitVec.shiftLeft (b.setWidth 64) 56)) init ^^^ final

/-- CRC-64/ECMA-182, the first digest sum's (R441). -/
def crcD1 (l : List Byte) : BitVec 64 := crc64 0x42F0E1EBA9EA3693 0 0 l
/-- The second digest sum's CRC: initial value all ones, result inverted (R441). -/
def crcD2 (l : List Byte) : BitVec 64 := crc64 0xAD93D23594C935A9 (BitVec.allOnes 64) (BitVec.allOnes 64) l

/-- A 128-byte header line carries the CRC-32C of its bytes 0 to 123. -/
def headerCrcOk (l : List Byte) : Bool := decide (fieldOf l 124 4 = crc32c (l.take 124))

/-- Powers by squaring: `fuel` bits of the exponent. -/
def powMod (p : Nat) : Nat → Nat → Nat → Nat
  | 0, _, _ => 1 % p
  | fuel + 1, b, e => if e % 2 = 1 then b * powMod p fuel (b * b % p) (e / 2) % p else powMod p fuel (b * b % p) (e / 2)

/-- b^e mod p for exponents below 2^40. -/
def modPow (b e p : Nat) : Nat := powMod p 40 (b % p) e

/-- The extended Euclidean algorithm on (r0, r1) with the coefficients of the first argument, bounded by `fuel`. -/
def invLoop : Nat → Int → Int → Int → Int → Int
  | 0, _, _, t0, _ => t0
  | fuel + 1, r0, r1, t0, t1 => if r1 = 0 then t0 else invLoop fuel r1 (r0 % r1) t1 (t0 - r0 / r1 * t1)

/-- The inverse of a modulo p where they are coprime (R58). -/
def modInv (a p : Nat) : Nat := ((invLoop (4 * (p.log2 + 2)) p (a % p) 0 1) % (p : Int)).toNat

/-- Λ(q) = round(256·log2 q), ties upward (R69). -/
def lambdaOf (q : Nat) : Nat := ((q ^ 512).log2 + 1) / 2

/-- The number of trailing zero bits that a modulus has above its last digit: e of R33. -/
def Modulus.e (m : Modulus) : Nat := if m.s2 ≠ 0 then m.c else if m.s1 ≠ 0 then m.b else m.a

/-- A product with h = (p − 1)/2^e by shifted additions (R38). -/
def timesH (x : Nat) (m : Modulus) : Nat :=
  if m.s2 ≠ 0 then ((x : Int) * 2 ^ (m.a - m.c) + m.s1 * ((x : Int) * 2 ^ (m.b - m.c)) + m.s2 * x).toNat
  else if m.s1 ≠ 0 then ((x : Int) * 2 ^ (m.a - m.b) + m.s1 * x).toNat
  else x

/-- One Montgomery step of radix 2^e (R38). -/
def ladderStep (m : Modulus) (t : Nat) : Nat :=
  let x := (2 ^ m.e - t % 2 ^ m.e) % 2 ^ m.e
  (t + x) / 2 ^ m.e + timesH x m

/-- The lane reduction of a 64-bit product (R38): t·2^(−2e) mod p, in [0, p). -/
def ladderReduce (m : Modulus) (t : Nat) : Nat :=
  let u := ladderStep m (ladderStep m t)
  if m.p ≤ u then u - m.p else u

/-- The lane product of two words (R38, R41). -/
def laneMul (m : Modulus) (x y : Nat) : Nat := ladderReduce m (x * y)
/-- A lane operand brought into [0, p) before an addition (R42). -/
def laneIn (m : Modulus) (x : Nat) : Nat := x % m.p
/-- The lane sum (R41). -/
def laneAdd (m : Modulus) (x y : Nat) : Nat := (x % m.p + y % m.p) % m.p
/-- The lane difference. -/
def laneSub (m : Modulus) (x y : Nat) : Nat := (x % m.p + (m.p - y % m.p)) % m.p
/-- The lane negation. -/
def laneNeg (m : Modulus) (x : Nat) : Nat := (m.p - x % m.p) % m.p
/-- The zero-detection condition of a multiply-add x·y + z, modular or int8 (R46). -/
def macGated (x y z : Nat) : Bool := z == 0 && (x == 0 || y == 0)
/-- The zero-detection condition of a butterfly (R46). -/
def flyGated (u v : Nat) : Bool := u == 0 && v == 0
/-- The zero-detection condition of a bf16 fused multiply-add (R46). -/
def fmaGated (a b c : Nat) : Bool := a == 0 && b == 0 && c == 0
/-- The lane form x·2^(2e) mod p of a standard residue (R31). -/
def toLane (m : Modulus) (x : Nat) : Nat := x * 2 ^ (2 * m.e) % m.p
/-- The standard residue of a lane word (R31). -/
def fromLane (m : Modulus) (x : Nat) : Nat := ladderReduce m x

/-- The value of a signed digit code (R35); the reserved code has none. -/
def signDigit (c : Nat) : Option Int :=
  match c with
  | 0 => some 0
  | 1 => some 1
  | 3 => some (-1)
  | _ => none

/-- The conditions of R33 on the fields of a ladder code and the modulus it encodes. -/
def ladderModulus (a b c : Nat) (s1 s2 : Int) : Option Nat :=
  let v : Int := 2 ^ a + s1 * 2 ^ b + s2 * 2 ^ c + 1
  let v0 : Int := if s1 = 0 then 2 ^ a + 1 else if s2 = 0 then 2 ^ a + s1 * 2 ^ b + 1 else v
  let okForm : Bool :=
    if s1 = 0 then s2 = 0 && b = 0 && c = 0
    else if s2 = 0 then 18 ≤ b && b < a && c = 0
    else 18 ≤ c && c < b && b < a
  if 28 ≤ a && a ≤ 31 && okForm && decide ((2 : Int) ^ 28 < v0) && decide (v0 < (2 : Int) ^ 32) &&
      v0 % 2 ^ 18 = 1 then some v0.toNat else none

/-- A modulus from PRIME, LADDER and ROOT, by the exact tests of R57. -/
def modulusOf (prime ladder root : Nat) : Option Modulus :=
  if bitOf ladder 15 || decide (ladder / 2 ^ 20 ≠ 0) then none
  else
    match signDigit (bitsOf ladder 17 16), signDigit (bitsOf ladder 19 18) with
    | some s1, some s2 =>
      let a := bitsOf ladder 4 0
      let b := bitsOf ladder 9 5
      let c := bitsOf ladder 14 10
      match ladderModulus a b c s1 s2 with
      | some p =>
        if p = prime && modPow root (2 ^ 17) p = p - 1 then some { p := p, a := a, b := b, c := c, s1 := s1, s2 := s2, root := root }
        else none
      | none => none
    | _, _ => none

/-- A modulus descriptor of 16 bytes, accepted or refused (R34, R36, R57). -/
def acceptDescriptor (l : List Byte) : Option Modulus :=
  let info := fieldOf l 12 4
  let idx := info % 128
  if info / 2 ^ 8 ≠ 0 then none
  else if bitOf info 7 then
    match primeTable[idx]? with
    | some (p, lad, g) => modulusOf p lad g
    | none => none
  else if idx ≠ 0 then none
  else modulusOf (fieldOf l 0 4) (fieldOf l 4 4) (fieldOf l 8 4)

/-- The 16 bytes of an entry of the prime table (R37): zero bytes where the entry is unpopulated. -/
def primeEntry (i : Nat) : List Byte :=
  match primeTable[i]? with
  | some (p, lad, g) => leBytes 4 p ++ leBytes 4 lad ++ leBytes 4 g ++ leBytes 4 (i + 128)
  | none => List.replicate 16 0

/-- ψ_N of R89. -/
def psiOf (m : Modulus) (n : Nat) : Nat := modPow m.root (2 ^ 17 / n) m.p

/-- No two moduli of a list share a factor (R57). -/
def pairwiseCoprime : List Modulus → Bool
  | [] => true
  | m :: t => t.all (fun k => Nat.gcd m.p k.p == 1) && pairwiseCoprime t

/-- The bytes of the twiddle set of one prime at a ring size (R99). -/
def twiddleBytes (logN : Nat) : Nat :=
  match logN with
  | 12 => 1792 | 13 => 3072 | 14 => 3584 | 15 => 6144 | 16 => 7168 | _ => 12288

/-- Λ of a list of moduli. -/
def lambdaSum (l : List Modulus) : Nat := (l.map (fun m => lambdaOf m.p)).sum

end Sys2Proof.Machine
end

