-- ==== Sys2Proof/Machine/Host.lean ====
section
/-! DEFINITION. The host's accesses: doorbells, slots, interrupt registers, the MSI-X table, the register window and BAR2
(13, 14, 23). -/

namespace Sys2Proof.Machine

/-- A slot is posted (step 2 of R322, R323, R329): a FREE slot becomes POSTED with its response fields cleared; a POST bit of a
slot that is not FREE is a rights violation. -/
def State.postSlot (s : State) (f k : Nat) : State :=
  let x := (s.fn f).slot k
  if x.state ≠ .free then s.violate f
  else
    let clash := (List.range 8).any (fun j => j != k &&
      (((s.fn f).slot j).state == .posted || ((s.fn f).slot j).state == .running) && ((s.fn f).slot j).byte 2 == x.byte 2)
    let y := { (x.putRun 17 (List.replicate 11 0)).putRun 16 [7] with
      state := .posted, order := s.gysis.nextOrder, seqClash := clash }
    { s.setSlot f k y with gysis := { s.gysis with nextOrder := s.gysis.nextOrder + 1 } }

/-- The slots of a POST write, ascending (R324). -/
def State.postBits (s : State) (f : Nat) (bits : BitVec 8) : State :=
  (List.range 8).foldl (fun t k => if bits.getLsbD k then t.postSlot f k else t) s

/-- Some POST bit of a write is for a FREE slot; bits for other slots are ignored, without an interrupt (R18, R323). -/
def State.postsSome (s : State) (f : Nat) (bits : BitVec 8) : Bool :=
  (List.range 8).any (fun k => bits.getLsbD k && ((s.fn f).slot k).state == .free)

/-- A write of MBX_DOORBELL: the slots are posted, and a write that posts one raises the function's doorbell source (R342). -/
def State.postWrite (s : State) (f : Nat) (bits : BitVec 8) : State :=
  if s.postsSome f bits then (s.postBits f bits).raise (160 + f) else s.postBits f bits

/-- POST: a write of MBX_DOORBELL by a function that the host sees. -/
def execPost (f : FnId) (bits : BitVec 8) (s : State) : Host.Outcome State Fault Refusal :=
  .next (if s.fnPresent f then s.postWrite f bits else s)

/-- A slot is released (step 5 of R322, R323). -/
def State.releaseSlot (s : State) (f k : Nat) : State :=
  let x := (s.fn f).slot k
  if x.state ≠ .done then s.violate f else s.setSlot f k { x with state := .free }

/-- The slots of a RELEASE write. -/
def State.releaseBits (s : State) (f : Nat) (bits : BitVec 8) : State :=
  (List.range 8).foldl (fun t k => if bits.getLsbD k then t.releaseSlot f k else t) s

/-- RELEASE (R321). -/
def execRelease (f : FnId) (bits : BitVec 8) (s : State) : Host.Outcome State Fault Refusal :=
  .next (if s.fnPresent f then s.releaseBits f bits else s)

/-- What a host write leaves in a byte of a slot: reserved bytes and bits read as zero, and writes to them are ignored (R15, R320); so are writes to bytes 16
to 27, which the module writes (log 88). -/
def slotByteIn (old : Byte) (o : Nat) (b : Byte) : Byte :=
  if 7 ≤ o && o < 16 || 28 ≤ o && o < 32 then 0 else if 16 ≤ o && o < 28 then old else if o = 3 then b &&& 1 else b

/-- The bytes that a host write leaves in a slot from an offset on. -/
def Slot.runIn (x : Slot) (off : Nat) : List Byte → List Byte
  | [] => []
  | b :: t => slotByteIn (x.byte off) off b :: x.runIn (off + 1) t

/-- A write of bytes to one slot (R323). -/
def State.writeSlot (s : State) (f k off : Nat) (data : List Byte) : State :=
  let x := (s.fn f).slot k
  if x.state ≠ .free then s.violate f else s.setSlot f k (x.putRun off (x.runIn off data))

/-- SLOT_BYTE_WRITE (R323). -/
def execSlotByteWrite (f : FnId) (slot : SlotId) (off : Nat) (data : List Byte) (s : State) :
    Host.Outcome State Fault Refusal :=
  .next (if s.fnPresent f then s.writeSlot f slot off data else s)

/-- A tail index within the ring, beyond the present one, is taken (R534). -/
def State.takeTail (s : State) (f : Nat) (tail : BitVec 16) : Option State :=
  let x := s.fn f
  if tail = x.jobTail then some s
  else if 64 < (tail - x.jobHead).toNat || (tail - x.jobHead).toNat < (x.jobTail - x.jobHead).toNat then none
  else some ((s.setFn f { x with jobTail := tail }).raise (160 + f))

/-- A write of a new tail index (R534, R437, R512): PF0's is outside its rights; a VF's is ignored before READY, and ignored and counted when a case of R534 applies;
otherwise the tail moves and the function's source is raised. -/
def State.jobTail (s : State) (f : Nat) (tail : BitVec 16) : State :=
  let x := s.fn f
  let p := s.part (f - 1)
  if f = 0 then s.violate f
  else if s.boot.state ≠ .ready ∧ s.boot.state ≠ .test then s
  else if !p.isLive || p.isFollower || !x.ringSet then s.violate f
  else match s.takeTail f tail with
    | some t => t
    | none => s.violate f

/-- JOBQ_DOORBELL (R534). In a leader twin the doorbell is forwarded as INPUT (R438). -/
def execJobqDoorbell (f : FnId) (tail : BitVec 16) (s : State) : Host.Outcome State Fault Refusal :=
  .next
    (if s.fnPresent f then
      let t := s.jobTail f tail
      let p := s.part (f - 1)
      if f.val ≠ 0 && p.isLeader && decide ((t.fn f).jobTail ≠ (s.fn f).jobTail) then
        t.emit (.mirror 1 p.pair.peerModule p.pair.peerPart (leBytes 2 tail.toNat))
      else t
    else s)

/-- A write of INT_MASK (R352, R353): the event vector is raised when a mask bit is cleared while its cause bit is set. -/
def State.writeMask (s : State) (f : Nat) (v : BitVec 32) : State :=
  let x := s.fn f
  let m := BitVec.ofNat 3 v.toNat
  let t := s.setFn f { x with intMask := m }
  if x.intMask &&& ~~~m &&& x.intStatus = 0 then t else t.raiseVector f x.eventVector.toNat

/-- INT_MASK_WRITE (R353). -/
def execIntMaskWrite (f : FnId) (v : BitVec 32) (s : State) : Host.Outcome State Fault Refusal :=
  .next (if s.fnPresent f then s.writeMask f v else s)

/-! ## MSI-X (R354, R355) -/

/-- MSI-X Enable and Bus Master Enable of a function. -/
def Fn.msixOn (x : Fn) : Bool := x.msixEnable && x.busMaster
/-- The function mask or the vector's own mask is set. -/
def Fn.vecMasked (x : Fn) (v : Nat) : Bool := x.funcMask || (Tab.get {} x.msix v).ctrl.getLsbD 0
/-- A vector was sent within the last HOLDOFF µs (step 4 of R355). -/
def State.heldOff (s : State) (f v : Nat) : Bool :=
  match Tab.get none (s.fn f).lastSent v with
  | some t => decide (s.now < t + (s.fn f).holdoff.toNat * 1000)
  | none => false

/-- Step 5 of R355: the enables and the masks are tested again, and the message is issued with the vector's address and data. -/
def State.sendVector (s : State) (f v : Nat) : State :=
  let x := s.fn f
  let bit := BitVec.ofNat 32 (2 ^ v)
  if !x.msixOn then s.setFn f { x with pba := x.pba &&& ~~~bit, waiting := x.waiting &&& ~~~bit }
  else if x.vecMasked v then s.setFn f { x with pba := x.pba ||| bit, waiting := x.waiting &&& ~~~bit }
  else
    let e := Tab.get {} x.msix v
    (s.setFn f { x with
      pba := x.pba &&& ~~~bit, waiting := x.waiting &&& ~~~bit,
      lastSent := Tab.set none x.lastSent v (some s.now) }).emit (.msix f v e.addr e.data)

/-- Steps 3 and 4 of R355 for a request that step 2 let pass. -/
def State.advanceVector (s : State) (f v : Nat) : State :=
  let x := s.fn f
  let bit := BitVec.ofNat 32 (2 ^ v)
  if x.vecMasked v then s.setFn f { x with pba := x.pba ||| bit }
  else if x.waiting.getLsbD v then s
  else if s.heldOff f v then s.setFn f { x with waiting := x.waiting ||| bit }
  else s.sendVector f v

/-- Steps 1 and 2 of R355: firmware requests a vector; with an enable clear the request is dropped. -/
def State.requestVector (s : State) (f v : Nat) : State :=
  if (s.fn f).msixOn then s.advanceVector f v else s

/-- Requests that wait for an unmask proceed (step 3 of R355). -/
def State.unmasked (s : State) (f : Nat) : State :=
  (List.range 32).foldl
    (fun t v => if (t.fn f).pba.getLsbD v && !(t.fn f).vecMasked v then t.advanceVector f v else t) s

/-- One 32-bit write to the MSI-X table (R354): address bits [1:0] stay zero and vector control holds the mask bit only. -/
def MsixEntry.put (e : MsixEntry) (k : Nat) (v : Nat) : MsixEntry :=
  match k with
  | 0 => { e with addr := BitVec.ofNat 64 (e.addr.toNat / 2 ^ 32 * 2 ^ 32 + v / 4 * 4) }
  | 1 => { e with addr := BitVec.ofNat 64 (e.addr.toNat % 2 ^ 32 + v * 2 ^ 32) }
  | 2 => { e with data := BitVec.ofNat 32 v }
  | _ => { e with ctrl := BitVec.ofNat 32 (v % 2) }

/-- A 32-bit write at an offset of the MSI-X table. -/
def State.writeMsix32 (s : State) (f off v : Nat) : State :=
  let x := s.fn f
  s.setFn f { x with msix := Tab.set {} x.msix (off / 16) ((Tab.get {} x.msix (off / 16)).put (off % 16 / 4) v) }

/-- A write to the MSI-X table (R354, R529): 4 or 8 bytes, aligned; any other access is ignored and not counted. -/
def State.writeMsix (s : State) (f off : Nat) (data : List Byte) : State :=
  if data.length = 4 && off % 4 = 0 then (s.writeMsix32 f off (leNat data)).unmasked f
  else if data.length = 8 && off % 8 = 0 then
    ((s.writeMsix32 f off (leNat (data.take 4))).writeMsix32 f (off + 4) (leNat (data.drop 4))).unmasked f
  else s

/-- MSIX_TABLE_WRITE (R354). -/
def execMsixTableWrite (f : FnId) (off : Nat) (data : List Byte) (s : State) : Host.Outcome State Fault Refusal :=
  .next (if s.fnPresent f && decide (off + data.length ≤ 512) then s.writeMsix f off data else s)

/-- VECTOR_REQUEST (R355): firmware requests a raised vector. A vector that no event has raised is not requested. -/
def execVectorRequest (f : FnId) (v : Fin 32) (s : State) : Host.Outcome State Fault Refusal :=
  let x := s.fn f
  .next
    (if x.raised.contains v.val then
      (s.setFn f { x with raised := x.raised.erase v.val }).requestVector f v
    else s)

/-- MSIX_HOLDOFF_EXPIRY (R355): the merged request of a vector whose HOLDOFF has elapsed is sent. -/
def execMsixHoldoffExpiry (f : FnId) (v : Fin 32) (s : State) : Host.Outcome State Fault Refusal :=
  .next (if (s.fn f).waiting.getLsbD v && !s.heldOff f v then s.sendVector f v else s)

/-! ## The register window (R12 to R18, R528 to R539) -/

/-- A write of HIF_BAR2_APa: a BASE above 188 keeps the old one (R16, R539). -/
def Aperture.write (a : Aperture) (v : Nat) : Aperture :=
  { room := BitVec.ofNat 4 v
    base := if bitsOf v 15 8 ≤ 188 then BitVec.ofNat 8 (bitsOf v 15 8) else a.base
    enable := bitOf v 31 }

/-- A write of HIF_HOST_POLICY: the RWL field takes it until it is locked, and keeps its value at the undefined encoding
(R14, R16, R532). -/
def State.writePolicy (s : State) (v : Nat) : State :=
  if s.boot.locked || v % 4 = 3 then s else { s with boot := { s.boot with bar2Mode := BitVec.ofNat 2 v } }

/-- A 32-bit write of BAR0 by a function. -/
def State.write32 (s : State) (f off v : Nat) : State :=
  let x := s.fn f
  if off = 0x2000 then s.postWrite f (BitVec.ofNat 8 v)
  else if off = 0x2008 then s.releaseBits f (BitVec.ofNat 8 v)
  else if off = 0x2010 then s.jobTail f (BitVec.ofNat 16 v)
  else if off = 0x3000 then s.setFn f { x with intStatus := x.intStatus &&& ~~~(BitVec.ofNat 3 v) }
  else if off = 0x3004 then s.writeMask f (BitVec.ofNat 32 v)
  else if off = 0x3008 then s.setFn f { x with eventVector := BitVec.ofNat 5 v, holdoff := BitVec.ofNat 16 (v / 2 ^ 16) }
  else if 0x3800 ≤ off && off < 0x3A00 then s.writeMsix f (off - 0x3800) (leBytes 4 v)
  else
    match s.regAt f off with
    | none => s
    | some g =>
      if !regRight f g.who then s.violate f
      else if off = 0x68 then s.writePolicy v
      else if 0x80 ≤ off && off < 0x90 then
        let k := (off - 0x80) / 4
        s.setFn f { x with apertures := Tab.set {} x.apertures k ((Tab.get {} x.apertures k).write v) }
      else s

/-- A write of BAR0 (R529): mailbox slots take 1 to 8 bytes at any alignment; a register takes 4 bytes, or 8 as two halves; a
narrower or misaligned write to a register is ignored. An access counts once outside the function's rights (R18), also one that touches two slots
(log 88). -/
def State.writeBar0 (s : State) (f off width v : Nat) : State :=
  if 0x1000 ≤ off && off < 0x2000 then
    let data := leBytes width v
    let n := 512 - off % 512
    let k := (off - 0x1000) / 512
    let t := s.writeSlot f k ((off - 0x1000) % 512) (data.take n)
    if width ≤ n || 0x2000 ≤ off + n then t
    else if ((s.fn f).slot k).state ≠ .free ∧ ((s.fn f).slot (k + 1)).state ≠ .free then t
    else t.writeSlot f (k + 1) 0 (data.drop n)
  else if off % 4 ≠ 0 then s
  else if width = 4 then s.write32 f off (v % 2 ^ 32)
  else if width = 8 then
    (if s.noRight f off && s.noRight f (off + 4) then s.violate f
    else (s.write32 f off (v % 2 ^ 32)).write32 f (off + 4) (v / 2 ^ 32))
  else s

/-- REGISTER_WRITE (R12). -/
def execRegisterWrite (f : FnId) (off : Nat) (width : Nat) (v : BitVec 64) (s : State) : Host.Outcome State Fault Refusal :=
  .next (if s.fnPresent f then s.writeBar0 f off width v.toNat else s)

/-- LOW_HALF_READ (R17, R529): a read of BAR0 answers 1, 2, 4 or 8 bytes. A 32-bit read of the low half of a 64-bit register latches the high half, which
the next high-half read of the same function answers. -/
def execLowHalfRead (f : FnId) (off : RegRead) (s : State) : Host.Outcome State Fault Refusal :=
  .next
    (if s.fnPresent f then
      let a := s.readBar0 f off.off off.width
      a.1.emit (.readDone f off.off (BitVec.ofNat 64 a.2))
    else s)

/-! ## BAR2 (R539 to R541) -/

/-- Where a BAR2 access of a VF reaches: physical room and stack offset; none outside the VF's rights (R540). Of an access that runs on beyond STACK_BYTES
only the bytes below it are within them. -/
def State.bar2Map (s : State) (f addr : Nat) (isWrite : Bool) : Option (Nat × Nat) :=
  let p := s.part (f - 1)
  let a := Tab.get {} (s.fn f).apertures (addr / 2 ^ 32)
  let so := a.base.toNat * 2 ^ 28 + addr % 2 ^ 32
  if f = 0 || !a.enable || !p.isLive || decide (p.rooms.length ≤ a.room.toNat) || decide (stackBytes ≤ so) ||
      s.boot.bar2Mode = 2 || (isWrite && (s.boot.bar2Mode = 1 || p.isFollower)) then none
  else some (p.rooms.getD a.room.toNat 0, so)

/-- BAR2_READ (R541): the bytes, or all ones with the EP bit on an uncorrectable burst, a lost line or a read not served in
50 µs; zero outside the function's rights, counted, and before READY, not counted (R512). At level 4 a read waits (R233). -/
def execBar2Read (f : FnId) (addr : Nat) (len : Nat) (timedOut : Bool) (s : State) : Host.Outcome State Fault Refusal :=
  .next
    (if !s.fnPresent f then s
    else if f.val ≠ 0 ∧ s.boot.state ≠ .ready ∧ s.boot.state ≠ .test then
      s.emit (.bar2Done f addr (List.replicate len 0) false)
    else
      match s.bar2Map f addr false with
      | none => (s.violate f).emit (.bar2Done f addr (List.replicate len 0) false)
      | some (r, so) =>
        if timedOut then s.emit (.bar2Done f addr (List.replicate len 0xFF) true)
        else if 4 ≤ (s.stack r).level then s
        else
          let n := min len (stackBytes - so)
          let t0 := if n < len then s.violate f else s
          match t0.cellarRead r so n with
          | (t, some d) => t.emit (.bar2Done f addr (d ++ List.replicate (len - n) 0) false)
          | (t, none) => t.emit (.bar2Done f addr (List.replicate len 0xFF) true))

/-- A partial write with byte enables, within one line, merged in the controller (R230, R541): dropped on a lost line or when a
burst that the enabled bytes do not wholly cover is uncorrectable. -/
def State.mergeLine (s : State) (r off : Nat) (data : List Byte) (be : List Bool) : State :=
  if s.lineLost r off then s
  else
    let covered (b : Nat) : Bool := (List.range 32).all (fun i => decide (off ≤ b + i) && (be.getD (b + i - off) false))
    let bs := (burstsOf (off / 128)).filter (fun b => !covered b)
    let t := s.mergeRead r bs
    if bs.any (s.burstBad r) then t
    else
      let old := t.readCellar r off data.length
      t.mergeWrite r (off / 128) (spliced (t.readCellar r (off / 128 * 128) 128) (off % 128) ((List.range data.length).map
        (fun i => if be.getD i false then data.getD i 0 else old.getD i 0)))

/-- The pieces of an access by line: offset within the access and length. -/
def linePieces (off n : Nat) : List (Nat × Nat) :=
  (linesOf off n).map (fun l => (max off (l * 128) - off, min (off + n) (l * 128 + 128) - max off (l * 128)))

/-- A BAR2 write line by line: a line whose every byte is enabled is one line write, any other is merged. -/
def State.bar2Store (s : State) (r off : Nat) (data : List Byte) (be : List Bool) : State :=
  (linePieces off data.length).foldl
    (fun t p =>
      let d := (data.drop p.1).take p.2
      let e := (be.drop p.1).take p.2
      if e.all id && e.length = d.length then (t.cellarWrite r (off + p.1) d).1 else t.mergeLine r (off + p.1) d e) s

/-- BAR2_WRITE (R541); in a leader twin it is forwarded as INPUT (R438). At level 4 it waits (R233). -/
def execBar2Write (f : FnId) (addr : Nat) (data : List Byte) (be : List Bool) (s : State) :
    Host.Outcome State Fault Refusal :=
  .next
    (if !s.fnPresent f then s
    else if f.val ≠ 0 ∧ s.boot.state ≠ .ready ∧ s.boot.state ≠ .test then s
    else
      match s.bar2Map f addr true with
      | none => s.violate f
      | some (r, so) =>
        if 4 ≤ (s.stack r).level then s
        else
          let n := min data.length (stackBytes - so)
          let t := (if n < data.length then s.violate f else s).bar2Store r so (data.take n) (be.take n)
          let p := s.part (f - 1)
          if p.isLeader then
            t.emit (.mirror 1 p.pair.peerModule p.pair.peerPart (inputBytes (p.rooms.findIdx (· == r)) 1 0 so (t.readCellar r so n)))
          else t)

end Sys2Proof.Machine
end

