-- ==== Sys2Proof/Machine/Mailbox.lean ====
section
/-! DEFINITION. The mailbox service shared by every command (13): the command set of R331 with its functions, states and request
layouts, the object conflicts of R324, the end of a command, and what a running command is. -/

namespace Sys2Proof.Machine

/-- Status codes (R327). -/
def stOk : Nat := 0
/-- NOT_READY. -/
def stNotReady : Nat := 1
/-- BUSY. -/
def stBusy : Nat := 2
/-- BAD_OPCODE. -/
def stBadOpcode : Nat := 3
/-- BAD_ARGUMENT. -/
def stBadArgument : Nat := 4
/-- NO_RESOURCE. -/
def stNoResource : Nat := 5
/-- FAILED. -/
def stFailed : Nat := 6

/-- Who may issue a command (R331). -/
inductive CmdWho where
  | all | pf0 | vf
deriving DecidableEq, Repr

/-- A row of the command table of R331: who, the device states (empty for "R316", the debug commands), whether it is long, whether
it needs the function's partition (R388), and the request bytes it defines as (offset, length, bits of each byte). -/
structure CmdRow where
  op : Nat
  who : CmdWho
  states : List DevState
  long : Bool
  bound : Bool
  layout : List (Nat × Nat × Nat)
deriving DecidableEq, Repr

/-- Every device state. -/
def everyState : List DevState := [.powerOn, .fuses, .loading, .selfTest, .training, .ready, .recovery, .halted, .test]
/-- The states in which the debug commands act (R316). -/
def debugStates : List DevState := [.fuses, .loading, .selfTest, .training, .recovery, .test]
/-- TRAINING and later (R331). -/
def fromTraining : List DevState := [.training, .ready, .recovery, .halted, .test]

/-- The first half of the command table of R331. -/
def cmdTableA : List CmdRow :=
  [⟨0x0001, .all, everyState, false, false, []⟩,
   ⟨0x0002, .all, [.ready, .test], false, false, [(0, 2, 255)]⟩,
   ⟨0x0101, .pf0, [.ready], false, false, [(0, 5, 255), (6, 8, 255)]⟩,
   ⟨0x0102, .pf0, [.ready], true, false, [(0, 1, 255)]⟩,
   ⟨0x0103, .all, [.ready], false, true, [(0, 1, 255)]⟩,
   ⟨0x0104, .pf0, [.ready], true, false, [(0, 5, 255)]⟩,
   ⟨0x0201, .vf, [.ready], false, true, [(0, 3, 255), (8, 8, 255)]⟩,
   ⟨0x0202, .vf, [.ready], false, true, [(0, 2, 255)]⟩,
   ⟨0x0203, .vf, [.ready], true, true, [(0, 2, 255)]⟩,
   ⟨0x0204, .vf, [.ready], false, true, [(0, 2, 255)]⟩,
   ⟨0x0211, .vf, [.ready], true, true, [(0, 8, 255)]⟩,
   ⟨0x0212, .vf, [.ready], true, true, [(0, 2, 255), (2, 1, 1)]⟩,
   ⟨0x0213, .vf, [.ready], true, true, [(0, 8, 255)]⟩,
   ⟨0x0214, .vf, [.ready], false, true, [(0, 2, 255)]⟩,
   ⟨0x0301, .vf, [.ready], true, true, [(0, 8, 255)]⟩,
   ⟨0x0302, .vf, [.ready], false, true, [(0, 4, 255)]⟩,
   ⟨0x0303, .vf, [.ready], false, true, [(0, 8, 255)]⟩]

/-- The second half of the command table of R331. -/
def cmdTableB : List CmdRow :=
  [⟨0x0401, .all, [.ready], false, true, [(0, 16, 255), (16, 1, 3)]⟩,
   ⟨0x0402, .all, [.ready], false, true, [(0, 2, 255)]⟩,
   ⟨0x0403, .vf, [.ready], true, true, (0, 1, 255) :: (List.range 14).flatMap (fun i => [(8 + 32 * i, 4, 255), (16 + 32 * i, 24, 255)])⟩,
   ⟨0x0501, .all, fromTraining, false, false, [(0, 1, 255), (4, 116, 255)]⟩,
   ⟨0x0510, .pf0, everyState, false, false, [(0, 9, 255), (9, 1, 1)]⟩,
   ⟨0x0511, .pf0, everyState, false, false, []⟩,
   ⟨0x0601, .pf0, [.ready, .test], false, false, [(0, 3, 255), (3, 1, 0xF3), (4, 2, 255)]⟩,
   ⟨0x0602, .pf0, [.ready, .test], false, false, [(0, 4, 255)]⟩,
   ⟨0x0603, .pf0, [.ready, .test], false, false, [(0, 2, 255), (8, 12, 255)]⟩,
   ⟨0x0604, .pf0, [.ready, .recovery, .test], true, false, [(0, 2, 255), (8, 13, 255)]⟩,
   ⟨0x0605, .pf0, everyState, false, false, [(0, 1, 255)]⟩,
   ⟨0x0701, .vf, [.ready], true, true, [(0, 6, 255), (8, 12, 255), (24, 456, 255)]⟩,
   ⟨0x0702, .all, [.ready], false, true, [(0, 34, 255), (40, 8, 255)]⟩,
   ⟨0x0801, .pf0, [], false, false, [(0, 3, 255), (4, 2, 255), (8, 6, 255)]⟩,
   ⟨0x0802, .pf0, [], false, false, [(0, 1, 255)]⟩,
   ⟨0x0803, .pf0, [], false, false, [(0, 1, 255)]⟩,
   ⟨0x0804, .pf0, [], false, false, [(0, 1, 255)]⟩,
   ⟨0x0805, .pf0, [], true, false, [(0, 4, 255), (8, 12, 255), (24, 8, 255)]⟩]

/-- The row of an opcode; a reserved opcode has none (R331). -/
def cmdRow (op : Nat) : Option CmdRow := (cmdTableA ++ cmdTableB).find? (fun r => r.op == op)

/-- A request byte has only bits that the layout defines (step 4 of R328). -/
def layoutBits (l : List (Nat × Nat × Nat)) (i : Nat) : Nat :=
  match l.find? (fun e => decide (e.1 ≤ i) && decide (i < e.1 + e.2.1)) with
  | some e => e.2.2
  | none => 0

/-- Every undefined byte and bit of a request is zero (step 4 of R328). -/
def layoutOk (l : List (Nat × Nat × Nat)) (q : Req) : Bool :=
  (List.range 480).all (fun i => (q.body.getD i 0).toNat &&& (255 - layoutBits l i) == 0)

/-- A command's slot fields are valid: REQ_LEN, SEQ, CTRL and, with NOTIFY, VECTOR (R320, R323, R328, R329). The reserved CTRL bits
and a VECTOR above 31 count as invalid fields (log 12). -/
def slotFieldsOk (x : Slot) (q : Req) : Bool :=
  decide (q.len ≤ 480) && !x.seqClash && decide (q.ctrl ≤ 1) && (q.ctrl == 0 || decide (q.vector ≤ 31))

/-- A command ends (step 4 of R322): the response, the status and DONE are written to the slot, and VECTOR is raised with
NOTIFY. -/
def State.endCmd (s : State) (f k status progress total : Nat) (resp : List Byte) : State :=
  let x := (s.fn f).slot k
  let t := (s.setSlot f k (x.finish s.free status progress total resp)).draw 512
  if (x.byte 3).getLsbD 0 && (x.byte 6).toNat ≤ 31 then t.raiseVector f (x.byte 6).toNat else t

/-- What a command's effect answers: it ends with a status, or stays RUNNING. -/
inductive CmdEnd where
  | ended (s : State) (status : Nat) (resp : List Byte) (progress total : Nat)
  | waits (s : State)

/-- A command ends with a status other than OK and no effect (R325). -/
def CmdEnd.fail (s : State) (status : Nat) : CmdEnd := .ended s status [] 0 0
/-- A short command ends with OK. -/
def CmdEnd.ok (s : State) (resp : List Byte) : CmdEnd := .ended s 0 resp 0 0

/-- The command that an entry of the commands without a slot names. -/
def State.findDetached (s : State) (f k : Nat) (want : Req → Bool) : Option (Nat × Nat × Req) :=
  s.gysis.detached.find? (fun e => e.1 == f && e.2.1 == k && want e.2.2)

/-- The state without one of the commands that have no slot. -/
def State.dropDetached (s : State) (e : Nat × Nat × Req) : State :=
  { s with gysis := { s.gysis with detached := s.gysis.detached.erase e } }

/-- The command in a slot runs: only a RUNNING slot whose request is the row's command runs it (log 13). A command whose slot a
Function Level Reset freed runs to its end, and no response is written (R339). One that fails leaves its progress at the point reached (R330). -/
def State.runCmd (s : State) (f k : Nat) (want : Req → Bool) (body : Req → CmdEnd) : State :=
  let x := (s.fn f).slot k
  if x.state = .running && want x.req then
    match body x.req with
    | .ended t status resp progress total =>
      if status ≠ stOk && progress == 0 && total == 0 then t.endCmd f k status (x.field 20 4) (x.field 24 4) resp
      else t.endCmd f k status progress total resp
    | .waits t => t
  else
    match s.findDetached f k want with
    | some e =>
      match body e.2.2 with
      | .ended t _ _ _ _ => t.dropDetached e
      | .waits t => t
    | none => s

/-- A command that waited ends: with a response if its slot still runs it, else without one (R339). `want` tells its request. -/
def State.endWaiting (s : State) (f k : Nat) (want : Req → Bool) (status progress total : Nat) (resp : List Byte) : State :=
  let x := (s.fn f).slot k
  if x.state = .running && want x.req then s.endCmd f k status progress total resp
  else
    match s.findDetached f k want with
    | some e => s.dropDetached e
    | none => s

/-- The request is the command of an opcode. -/
def isOp (op : Nat) (q : Req) : Bool := q.op == op

/-! ## Object conflicts (R324) -/

/-- The kinds of object of R324. -/
inductive ObjKind where
  | partition | keyset | key | lut | program | hostBuf
deriving DecidableEq, Repr

/-- An object: kind, partition (255 for PF0), identifier. -/
structure Obj where
  kind : ObjKind
  part : Nat
  id : Nat
deriving DecidableEq, Repr

/-- The partition of a function, 255 for PF0. -/
def partOfFn (f : Nat) : Nat := if f = 0 then 255 else f - 1

/-- The handles that a request's segments name (R333). -/
def segHandles (q : Req) : List Nat := (List.range (min 14 (q.field 0 1))).map (fun i => q.field (8 + 32 * i) 2)

/-- The objects on which a command acts alone, and those it shares with commands that only use them. KEY_INDEX and LUT_INDEX of
a registration stand in the header at HOME. -/
def State.cmdObjs (s : State) (f : Nat) (q : Req) : List Obj × List Obj :=
  let p := partOfFn f
  let r0 := (s.part p).rooms.getD 0 0
  match q.op with
  | 0x0101 => ([⟨.partition, q.field 0 1, q.field 0 1⟩], [])
  | 0x0102 => ([⟨.partition, q.field 0 1, q.field 0 1⟩], [])
  | 0x0104 => ([⟨.partition, q.field 0 1, q.field 0 1⟩], [])
  | 0x0201 => ([⟨.keyset, p, q.field 0 2⟩], [])
  | 0x0202 => ([⟨.keyset, p, q.field 0 2⟩], [])
  | 0x0203 => ([⟨.keyset, p, q.field 0 2⟩], [])
  | 0x0204 => ([⟨.keyset, p, q.field 0 2⟩], [])
  | 0x0211 => ([⟨.key, p, leNat (s.readCellar r0 (q.field 0 8 + 14) 2)⟩], [])
  | 0x0212 => ([⟨if bitOf (q.field 2 1) 0 then .lut else .key, p, q.field 0 2⟩], [])
  | 0x0213 => ([⟨.lut, p, leNat (s.readCellar r0 (q.field 0 8 + 5) 1)⟩], [])
  | 0x0302 => ([⟨.program, p, q.field 0 4⟩], [])
  | 0x0402 => ([⟨.hostBuf, f, q.field 0 2⟩], [])
  | 0x0403 => ([], (segHandles q).map (fun h => ⟨.hostBuf, f, h⟩))
  | 0x0603 => ([], [⟨.hostBuf, f, q.field 0 2⟩])
  | 0x0604 => ([], [⟨.hostBuf, f, q.field 0 2⟩])
  | 0x0701 => ([], if q.field 4 2 = 0 then [] else [⟨.hostBuf, f, q.field 4 2⟩])
  | 0x0702 => ([], [⟨.hostBuf, f, q.field 32 2⟩])
  | 0x0805 => ([], [⟨.hostBuf, f, q.field 2 2⟩])
  | _ => ([], [])

/-- A command's object is that of a RUNNING one: while a PARTITION_DESTROY runs, every object of its partition is (R324). It does not itself wait for
its VF's commands, which end as R341 gives (R393, R399). -/
def objClash (destroys : Bool) (mine other : Obj) : Bool :=
  mine == other || (destroys && mine.part == other.part && mine.kind != .hostBuf)

/-- A command conflicts with a RUNNING command on the same object (R324). -/
def State.conflicts (s : State) (f : Nat) (q : Req) : Bool :=
  let mine := s.cmdObjs f q
  let against (g : Nat) (r : Req) : Bool :=
    let other := s.cmdObjs g r
    let clash := objClash (r.op == 0x0102)
    mine.1.any (fun a => (other.1 ++ other.2).any (clash a)) || mine.2.any (fun a => other.1.any (clash a))
  (List.range 17).any (fun g => (List.range 8).any (fun j =>
    ((s.fn g).slot j).state == .running && against g ((s.fn g).slot j).req)) ||
    s.gysis.detached.any (fun e => against e.1 e.2.2)

/-! ## Partition commands' shared checks -/

/-- A command of a VF that changes partition state is sent to the follower by a leader (COMMAND of R438). -/
def State.forward (s : State) (p op : Nat) (body : List Byte) : State :=
  let x := s.part p
  if x.isLeader then s.emit (.mirror 0 x.pair.peerModule x.pair.peerPart (leBytes 2 op ++ body)) else s

end Sys2Proof.Machine
end

