-- ==== Sys2Proof/Machine/Partition.lean ====
section
/-! DEFINITION. Module identity and partitions (13, 16): QUERY_INFO, PRIME_TABLE, PARTITION_CREATE, PARTITION_DESTROY,
PARTITION_QUERY, Function Level Resets, and the teardown and room-state clear they share. -/

namespace Sys2Proof.Machine

/-! ## Identity -/

/-- The response of QUERY_INFO (R331). -/
def State.queryInfo (s : State) (f : Nat) : List Byte :=
  leBytes 8 (s.fwVersion % 2 ^ 63) ++ leBytes 2 1 ++ leBytes 2 1 ++ leBytes 1 s.boot.state.code ++
    leBytes 1 ((if s.gysis.degraded then 1 else 0) + (if s.gysis.replaceRequested then 2 else 0)) ++ leBytes 1 f ++
    leBytes 1 (if f ≠ 0 && (s.part (f - 1)).present then f - 1 else 255) ++
    leBytes 2 (match s.links.route with | some t => t.module | none => 0xFFFF) ++ leBytes 2 (s.roomMaskOf f)

/-- QUERY_INFO (R331). -/
def execQueryInfo (f : FnId) (slot : SlotId) (s : State) : Host.Outcome State Fault Refusal :=
  .next (s.runCmd f slot (isOp 0x0001) (fun _ => .ok s (s.queryInfo f)))

/-- Fields of PRIME_TABLE (R331): FIRST 0–127, COUNT 1–30, FIRST + COUNT ≤ 128. -/
def checkPrimeTable (q : Req) : Nat :=
  let first := q.field 0 1
  let count := q.field 1 1
  if first ≤ 127 && 1 ≤ count && count ≤ 30 && first + count ≤ 128 then stOk else stBadArgument

/-- The descriptors of PRIME_TABLE (R37). -/
def primeTableBytes (first count : Nat) : List Byte := (List.range count).flatMap (fun i => primeEntry (first + i))

/-- PRIME_TABLE (R37). -/
def execPrimeTable (f : FnId) (slot : SlotId) (s : State) : Host.Outcome State Fault Refusal :=
  .next (s.runCmd f slot (isOp 0x0002) (fun q =>
    if checkPrimeTable q ≠ stOk then .fail s (checkPrimeTable q)
    else .ok s (primeTableBytes (q.field 0 1) (q.field 1 1))))

/-! ## Creation -/

/-- The rooms that belong to some partition. -/
def State.takenRooms (s : State) : List Nat := (List.range 16).flatMap (fun p => if (s.part p).present then (s.part p).rooms else [])
/-- The sum of the quotas of all partitions (R369). -/
def State.quotaSum (s : State) : Nat := ((List.range 16).map (fun p => if (s.part p).present then (s.part p).quota else 0)).sum

/-- The checks of PARTITION_CREATE in the order of R385; `busy` is a conflict with a RUNNING command. -/
def checkPartitionCreate (s : State) (busy : Bool) (q : Req) : Nat :=
  let p := q.field 0 1
  let mask := q.field 6 2
  let rooms := maskList 16 mask
  if s.maxParts ≤ p then stBadArgument
  else if 1 < q.field 1 1 || q.field 2 1 == 0 || q.field 3 1 == 0 || q.field 4 1 == 0 ||
      q.field 2 1 + q.field 3 1 + q.field 4 1 != 20 then stBadArgument
  else if mask == 0 || rooms.any (fun r => !s.roomOk r) then stBadArgument
  else if 2 ^ 30 ≤ q.field 8 4 || 4032 < q.field 12 2 then stBadArgument
  else if busy || (s.part p).present then stBusy
  else if rooms.any (fun r => s.takenRooms.contains r || !(s.room r).clean) then stBusy
  else if 4032 < s.quotaSum + q.field 12 2 then stNoResource
  else stOk

/-- The switched domains of a room: its six, and its stack's (R485). -/
def roomDomains (r : Nat) : List Nat := [6 * r, 6 * r + 1, 6 * r + 2, 6 * r + 3, 6 * r + 4, 6 * r + 5, 96 + r]

/-- Domains powered ON by firmware; a HELD_OFF domain stays so (R485). -/
def State.powerOn (s : State) (ds : List Nat) : State :=
  let on (t : Tab DomState) (d : Nat) : Tab DomState := if Tab.get .off t d = .heldOff then t else Tab.set .off t d .on
  { s with power := { s.power with domains := ds.foldl on s.power.domains } }

/-- All four apertures of a VF lose ENABLE (R542). -/
def State.closeApertures (s : State) (f : Nat) : State :=
  let x := s.fn f
  let shut (t : Tab Aperture) (a : Nat) : Tab Aperture := Tab.set {} t a { Tab.get {} t a with enable := false }
  s.setFn f { x with apertures := (List.range 4).foldl shut x.apertures }

/-- The VF's job queue without a ring and without host buffers (R387, R393). -/
def State.clearVfObjects (s : State) (f : Nat) : State :=
  let x := s.fn f
  s.setFn f { x with jobHead := 0, jobTail := 0, ringSet := false, ringOff := 0, jobRunning := false, hostBufs := [] }

/-- The effect of PARTITION_CREATE (R387, R542). The partition starts at step 8 with a grant of its rooms' idle power
(log 14). -/
def State.createPart (s : State) (q : Req) : State :=
  let p := q.field 0 1
  let rooms := maskList 16 (q.field 6 2)
  let part : Part :=
    { phase := .live, shareMode := q.field 1 1, shares := [q.field 2 1, q.field 3 1, q.field 4 1], rooms := rooms,
      portMask := BitVec.ofNat 30 (q.field 8 4), quota := q.field 12 2, test := s.boot.state == .test,
      grant := (rooms.map (fun r => Tab.get 0 s.power.idlePower r)).sum }
  let t := (s.powerOn (rooms.flatMap roomDomains)).setPart p part
  let t1 := rooms.foldl (fun u r => u.setRoom r { u.room r with clean := false, flags := [] }) t
  ((t1.clearVfObjects (p + 1)).closeApertures (p + 1)).partChanged p

/-- PARTITION_CREATE (R385). -/
def execPartitionCreate (f : FnId) (slot : SlotId) (s : State) : Host.Outcome State Fault Refusal :=
  .next (s.runCmd f slot (isOp 0x0101) (fun q =>
    if checkPartitionCreate s false q ≠ stOk then .fail s (checkPartitionCreate s false q) else .ok (s.createPart q) []))

/-! ## Teardown -/

/-- The key of a cupboard entry: a partition's index, or with p = 16 a firmware entry (R369). -/
def cupKey (p i : Nat) : Nat := p * 4096 + i

/-- The command of an opcode is long (R331). -/
def longCmd (op : Nat) : Bool :=
  match cmdRow op with
  | some r => r.long
  | none => false

/-- The command in a slot is long (R331). -/
def Slot.isLong (x : Slot) : Bool := longCmd (x.field 0 2)

/-- What a command that stops before its first piece reports as its completed part (R325): nothing moved. -/
def stoppedPart (op : Nat) : List Byte :=
  match op with
  | 0x0403 => leBytes 8 0 ++ leBytes 8 0
  | 0x0604 => leBytes 4 0
  | 0x0701 => leBytes 4 0
  | 0x0805 => leBytes 4 0
  | _ => []

/-- The hash context of a slot's command is discarded (R384). -/
def State.dropHash (s : State) (f k : Nat) : State :=
  match Tab.get none s.sec.hash (f - 1) with
  | some c => if c.fn = f && c.slot = k then { s with sec := { s.sec with hash := Tab.set none s.sec.hash (f - 1) none } } else s
  | none => s

/-- A short command of a function is RUNNING (R341). -/
def State.shortLeft (s : State) (f : Nat) : Bool :=
  (List.range 8).any (fun k => ((s.fn f).slot k).state == .running && !((s.fn f).slot k).isLong) ||
    s.gysis.detached.any (fun e => e.1 == f && !longCmd e.2.2.op)

/-- A function's commands end as R341 gives when its partition is torn down or the state leaves READY: POSTED ones with
NOT_READY, RUNNING long ones with FAILED; RUNNING short ones run on. `keep` says of which commands nothing changes. A long one
without a slot stops too. -/
def State.endCommands (s : State) (f : Nat) (keep : Req → Bool) (posted : Bool) : State :=
  let stops (e : Nat × Nat × Req) : Bool := e.1 == f && !keep e.2.2 && longCmd e.2.2.op
  (List.range 8).foldl
    (fun t k =>
      let x := (t.fn f).slot k
      if keep x.req then t
      else if posted && x.state == .posted then t.endCmd f k stNotReady 0 0 []
      else if x.state == .running && x.isLong then (t.dropHash f k).endCmd f k stFailed (x.field 20 4) (x.field 24 4) (stoppedPart x.req.op)
      else t) { s with gysis := { s.gysis with detached := s.gysis.detached.filter (fun e => !stops e) } }

/-- Step 1 of R393: the partition is marked, and its VF's commands end. -/
def State.beginTeardown (s : State) (p : Nat) : State :=
  let x := s.part p
  if x.phase = .live then (s.setPart p { x with phase := .tearing }).endCommands (p + 1) (fun _ => false) true else s

/-- The room-state clear of R394 on a room: what it does not name is kept. A clear leaves the room clean (R396). -/
def Room.cleared (x : Room) : Room :=
  { x with
    tokens := [], flags := [], scalars := [], vcount := 0, vregs := [], laneState := 0, landing := 0, ibuf := 0, descs := [], wideShallow := 0,
    lastCfg := none, block := none, blockDone := false, flagWait := none, atBarrier := false, fenceWait := false, queues := [],
    nextTag := [], channels := [], tagsInFlight := 0, stale := [], window := {}, keyEntries := [], progress := none, noiseKey := none, keyHeld := false,
    badTwiddle := [], brk := { x.brk with stopped := false, replayDeferred := false }, refetch := 0, clean := true }

/-- The attic clear of a room (R211) and the cellar clear of its stack, repair reserve included, with its lost-line list emptied
(R242). -/
def State.clearMemory (s : State) (r : Nat) : State :=
  let t := { s with mem := { s.mem.rewrote (fun e => e.2.1 == r) with
    attic := Mem.clear s.mem.attic (atticKey r 0) (2 ^ 32)
    atticBad := s.mem.atticBad.filter (fun c => !(atticKey r 0 ≤ c.1 && c.1 < atticKey r 0 + 2 ^ 32))
    cellar := Mem.clear s.mem.cellar (cellarKey r 0) (2 ^ 36)
    ecc := s.mem.ecc.filter (fun c => !(cellarKey r 0 ≤ c.1 * 32 && c.1 * 32 < cellarKey r 0 + 2 ^ 36)) } }
  let x := t.stack r
  t.setStack r { x with
    lost := [], rewrites := []
    counters := { x.counters with linesWr := x.counters.linesWr + BitVec.ofNat 48 (if x.pcRetired.isSome then 63 * 6291456 else 64 * 6291456) } }

/-- A room cleared under step 4 of R393. -/
def State.clearRoom (s : State) (r : Nat) : State :=
  let t := s.clearMemory r
  t.setRoom r (t.room r).cleared

/-- The cupboard entries of a partition are cleared (R372), and what its channel hashes or ciphers is dropped at the next chunk (R384). -/
def State.clearCupboard (s : State) (p : Nat) : State :=
  { s with sec := { s.sec with hash := Tab.set none s.sec.hash p none, entries := s.sec.entries.filter (fun e => !(cupKey p 0 ≤ e.1 && e.1 < cupKey p 4096)) } }

/-- DONE_BLOCKS, STATUS and CAUSE of an entry (R304), written into every copy; a partial write that fails is dropped in its stack. -/
def State.writeJobEnd (s : State) (p off done status cause : Nat) : State :=
  (s.part p).rooms.foldl (fun t r => (t.cellarWrite r (off + 48) (leBytes 6 done ++ leBytes 1 status ++ leBytes 1 cause)).1) s

/-- Blocks that a room has completed in a job. -/
def Job.doneIn (j : Job) (s : State) (room : Nat) : Nat := ((s.room room).blockCounter - Tab.get 0 j.startBlocks room).toNat

/-- Blocks completed by the slowest room of a partition. -/
def Job.doneBlocks (j : Job) (s : State) (rooms : List Nat) : Nat :=
  match rooms with
  | [] => 0
  | r :: t => t.foldl (fun m k => min m (j.doneIn s k)) (j.doneIn s r)

/-- The running job ends FAILED (step 2 of R393, R317): its entry says so, and its vector is raised when its IRQ is set. -/
def State.failJob (s : State) (p : Nat) : State :=
  match (s.part p).job with
  | some j =>
    let s0 := s.writeJobEnd p j.entryOff (j.doneBlocks s (s.part p).rooms) stFailed j.cause
    let t := s0.setPart p { s0.part p with job := none }
    if j.irq && j.vector ≤ 31 then t.raiseVector (p + 1) j.vector else t
  | none => s

/-- A pair ends for a partition that goes away: the twin is told (R396, R438). -/
def State.endPairOf (s : State) (p : Nat) : State :=
  let x := s.part p
  match x.pair.state with
  | .syncing | .dual | .standby => s.emit (.mirror 7 x.pair.peerModule x.pair.peerPart [])
  | _ => s

/-- The stop of a stream channel: no descriptor remains, its tags become stale, and it holds the halt record of R262; acknowledgements of
its lines are discarded from now on (R246). A channel halts once. -/
def State.stopChannel (s : State) (r c cause at_ : Nat) : State :=
  let x := s.room r
  let h := x.chan c
  let tags := (h.issued.map (·.tags)).sum
  let n := Tab.get 0 x.counters.halts cause
  let t := s.setRoom r { x with
    channels := Tab.set {} x.channels c { h with state := .halted, issued := [], queue := [], cause := cause, failAt := at_, programFault := cause = 3 || cause = 4 }
    tagsInFlight := x.tagsInFlight - tags
    stale := x.stale ++ (List.range tags).map (fun _ => s.now)
    counters := { x.counters with halts := Tab.set 0 x.counters.halts cause (satInc n) } }
  { t with links := { t.links with tx := t.links.tx.filter (fun e => !(e.room == r && e.chan == c)) } }

/-- Every channel of a room that holds a descriptor, in progress or waiting, halts with CANCEL (R264). -/
def State.cancelChannels (s : State) (room : Nat) : State :=
  (List.range 16).foldl (fun t c =>
    let h := (t.room room).chan c
    if h.issued.isEmpty && h.queue.isEmpty then t else t.stopChannel room c 6 0) s

/-- Steps 2 to 6 of R393: the job ends, the channels halt with CANCEL (R264), and the rooms are cleared. -/
def State.finishTeardown (s : State) (p : Nat) : State :=
  let rooms := (s.part p).rooms
  let t := rooms.foldl State.cancelChannels ((s.failJob p).endPairOf p)
  let t1 := rooms.foldl State.clearRoom t
  let t2 := (t1.clearCupboard p).setPart p {}
  ((t2.clearVfObjects (p + 1)).closeApertures (p + 1)).partChanged p

/-- A whole teardown (R393). -/
def State.tearDown (s : State) (p : Nat) : State := (s.beginTeardown p).finishTeardown p

/-- The checks of PARTITION_DESTROY (R393). -/
def checkPartitionDestroy (s : State) (busy : Bool) (q : Req) : Nat :=
  let p := q.field 0 1
  if s.maxParts ≤ p || !(s.part p).present then stBadArgument
  else if busy || (s.part p).phase == .tearing then stBusy
  else stOk

/-- A stack that a room's block may wait for is at level 4 (R232): one of its partition (log 77). -/
def State.hotRoom (s : State) (room : Nat) : Bool :=
  match s.ownerOf room with
  | some p => s.hotStack p
  | none => decide (4 ≤ (s.stack room).level)

/-- The watchdog of a room's block counts: neither while the room stands at a break, waits for a key of a halted DRBG or for a stack at level 4 (R297, R527),
nor once every command of the block is complete (R563). -/
def State.blockCounts (s : State) (room : Nat) : Bool :=
  let x := s.room room
  match x.block with
  | some b => !x.brk.stopped && !x.blockDone && !b.failed && !(x.keyHeld && s.sec.drbg != .running) && !s.hotRoom room
  | none => false

/-- ACLK cycles of a room in one period of REFCLK (R475): 16 at full rate, one on the bypass. -/
def State.aclkPerTick (s : State) (room : Nat) : Nat := if (s.clk 0).source = 2 then 1 else 2 * s.edgesOf8 room

/-- One period of REFCLK passes in a room: its block's watchdog counts (R297). -/
def State.countAclk (s : State) (room : Nat) : State :=
  let x := s.room room
  if s.blockCounts room then s.setRoom room { x with block := x.block.map (fun b => { b with aclk := b.aclk + s.aclkPerTick room }) } else s

/-! ## Query -/

/-- The partition a PARTITION_QUERY names: a VF's own (R331). -/
def queryPart (f : Nat) (q : Req) : Nat := if f = 0 then q.field 0 1 else f - 1

/-- PARTITION_QUERY from PF0 names a partition that exists (log 15). -/
def checkPartitionQuery (s : State) (f : Nat) (q : Req) : Nat :=
  if (s.part (queryPart f q)).present && queryPart f q < s.maxParts then stOk
  else if f = 0 then stBadArgument else stNotReady

/-- The entries of a table that hold something. -/
def countSome {α : Type} (t : Tab (Option α)) : Nat := (t.filter (fun e => e.2.isSome)).length

/-- The response of PARTITION_QUERY (R331, R435). -/
def State.partBytes (s : State) (p : Nat) : List Byte :=
  let x := s.part p
  leBytes 1 p ++ leBytes 1 x.shareMode ++ (List.range 3).flatMap (fun i => leBytes 1 (x.shares.getD i 0)) ++
    leBytes 1 (x.pair.state.code + (if x.pair.leader then 8 else 0)) ++ leBytes 2 (maskOf x.rooms) ++
    leBytes 4 x.portMask.toNat ++ leBytes 2 x.quota ++
    leBytes 2 (countSome (s.sec.entries.filter (fun e => cupKey p 0 ≤ e.1 && e.1 < cupKey p 4096))) ++
    leBytes 2 ((x.keys.filter (fun e => e.2.cur.isSome)).length) ++ leBytes 1 (countSome x.programs) ++
    leBytes 1 (countSome x.keysets)

/-- PARTITION_QUERY (R331). -/
def execPartitionQuery (f : FnId) (slot : SlotId) (s : State) : Host.Outcome State Fault Refusal :=
  .next (s.runCmd f slot (isOp 0x0103) (fun q =>
    if checkPartitionQuery s f q ≠ stOk then .fail s (checkPartitionQuery s f q)
    else .ok s (s.partBytes (queryPart f q))))

/-! ## Function Level Resets (R339, R356, R397, R398) -/

/-- The registers of a function at their reset values (R356, R530), its slots FREE with every byte zero (R339). What a module keeps
of the function is its host-side configuration of MSI-X and bus mastering, which PCIe resets, and its ring offset (R397). -/
def State.resetFn (s : State) (f : Nat) : State :=
  let x := s.fn f
  s.setFn f { ringSet := x.ringSet, ringOff := x.ringOff, telSeq := 0 }

/-- An error of the block's execution waits for the room's decision (step 1 of R458). -/
def Room.fail (x : Room) (e : RoomEvent) : Room :=
  match x.block with
  | some b => { x with block := some { b with error := some (b.error.getD e), errSeen := true } }
  | none => x

/-- The channels of a partition's rooms whose current descriptor uses a host buffer halt with cause CANCEL, and their rooms learn of it (R262 step 4, R264). -/
def State.cancelHostChannels (s : State) (p : Nat) : State :=
  (s.part p).rooms.foldl
    (fun t r => (List.range 16).foldl
      (fun u c =>
        if ((u.room r).chan c).issued.any (fun d => d.desc.usesHost) then
          let v := u.stopChannel r c 6 0
          v.setRoom r ((v.room r).fail .other)
        else u) t) s

/-- The commands that a Function Level Reset stops at their next 4 KiB piece (R339). -/
def stopsAtPiece (op : Nat) : Bool := op == 0x0403 || op == 0x0301 || op == 0x0805 || op == 0x0701

/-- The RUNNING commands of a function that run to their end after its slots are freed (R339). -/
def State.detach (s : State) (f : Nat) : State :=
  let keep := (List.range 8).filterMap (fun k =>
    let x := (s.fn f).slot k
    if x.state == .running && !stopsAtPiece x.req.op then some (f, k, x.req) else none)
  { s with gysis := { s.gysis with detached := s.gysis.detached ++ keep } }

/-- A Function Level Reset of a VF (R397): slots, interrupts, indices and host buffers go; the running job stops at its rooms' next
boundary and queued entries are forgotten; the partition and its contents stay. -/
def State.flrVf (s : State) (f : Nat) : State :=
  let p := f - 1
  let t := (s.detach f).cancelHostChannels p
  let t1 := match (t.part p).job with
    | some j => t.setPart p { t.part p with job := some { j with failed := some stFailed, irq := false, orphan := true } }
    | none => t
  ({ t1 with sec := { t1.sec with hash := Tab.set none t1.sec.hash p none } }.resetFn f).raise 177

/-- A VF disappears with VF Enable (R398): as for its Function Level Reset, but its jobs run on. -/
def State.hideVf (s : State) (f : Nat) : State :=
  let t0 := s.detach f
  let t := { t0 with sec := { t0.sec with hash := Tab.set none t0.sec.hash (f - 1) none } }
  let x := t.fn f
  t.setFn f { ringSet := x.ringSet, ringOff := x.ringOff, jobHead := x.jobHead, jobTail := x.jobTail, jobRunning := x.jobRunning,
              hostBufs := x.hostBufs }

/-- VF Enable is cleared (R398): every VF that the host sees disappears. -/
def State.hideVfs (s : State) : State :=
  let t := (List.range 16).foldl (fun u n => if s.fnPresent (n + 1) then u.hideVf (n + 1) else u) s
  { t with board := { t.board with vfEnable := false } }

/-- A Function Level Reset of PF0 (R398): PF0's registers and slots are reset, and the VFs disappear. -/
def State.flrPf0 (s : State) : State := (((s.detach 0).resetFn 0).hideVfs).raise 177

/-- FUNCTION_LEVEL_RESET (R397; of PF0, R398). -/
def execFunctionLevelReset (f : FnId) (s : State) : Host.Outcome State Fault Refusal :=
  .next (if f.val = 0 then s.flrPf0 else if s.fnPresent f then s.flrVf f else s)

/-- VF_ENABLE_CLEAR (R398); `flr` says that a Function Level Reset of PF0 cleared it. -/
def execVfEnableClear (flr : Bool) (s : State) : Host.Outcome State Fault Refusal :=
  .next (if flr then s.flrPf0 else s.hideVfs)

end Sys2Proof.Machine
end

