-- ==== Sys2Proof/Machine/KeySets.lean ====
section
/-! DEFINITION. Key sets, keys and look-up keys (03, 04, 05, 06): their descriptors and headers, registration, activation,
removal, the epoch rule, and when the previous key of an index is free. -/

namespace Sys2Proof.Machine

/-! ## Reading the cellar for firmware -/

/-- Bytes that firmware reads from a partition room's stack: none where a line is lost or a burst uncorrectable. -/
def State.fwRead (s : State) (p room off n : Nat) : State × Option (List Byte) :=
  s.cellarRead ((s.part p).rooms.getD room 0) off n

/-- A structure of `n` bytes at an offset lies below STACK_BYTES. -/
def inStack (off n : Nat) : Bool := decide (off + n ≤ stackBytes)

/-! ## Key sets (R332, R57, R69) -/

/-- The moduli of consecutive descriptors. -/
def acceptAll (l : List Byte) : Nat → Option (List Modulus)
  | 0 => some []
  | n + 1 =>
    match acceptDescriptor (l.take 16), acceptAll (l.drop 16) n with
    | some m, some t => some (m :: t)
    | _, _ => none

/-- The header fields of a key-set descriptor are in range (R332). -/
def keysetHeaderOk (h : List Byte) : Bool :=
  let flags := fieldOf h 8 1
  let lwe := fieldOf h 10 2
  let t := fieldOf h 12 4
  let omega := fieldOf h 16 4
  let logN := fieldOf h 5 1
  let slotPack := t != 0 && !bitOf flags 1
  fieldOf h 0 4 == 0x6E3B29C4 && fieldOf h 4 1 == 1 && headerCrcOk h && 12 ≤ logN && logN ≤ 17 &&
    1 ≤ fieldOf h 6 1 && fieldOf h 6 1 ≤ 60 && fieldOf h 7 1 ≤ 16 && flags < 4 && fieldOf h 9 1 == 0 &&
    (lwe == 0 || (512 ≤ lwe && lwe ≤ 2048 && lwe % 2 == 0)) && (t == 0 || (2 ≤ t && t ≤ 2 ^ 30)) &&
    (h.drop 20).take 104 == List.replicate 104 0 &&
    (if slotPack then t % 2 ^ (logN + 1) == 1 && modPow omega (2 ^ logN) t == t - 1 else omega == 0)

/-- The number of modulus descriptors that follow the header (R332). -/
def keysetModuli (h : List Byte) : Nat :=
  fieldOf h 6 1 + fieldOf h 8 1 % 2 + fieldOf h 7 1 + (if fieldOf h 10 2 = 0 then 0 else 1)

/-- The key set of a descriptor, or none when R332 or R57 refuses it. -/
def keysetOf (h body : List Byte) : Option KeySet :=
  let chain := fieldOf h 6 1
  let chk := fieldOf h 8 1 % 2
  let spec := fieldOf h 7 1
  if !keysetHeaderOk h then none
  else
    match acceptAll body (keysetModuli h) with
    | none => none
    | some ms =>
      if !pairwiseCoprime (ms.take (chain + chk + spec)) then none
      else some {
        logN := fieldOf h 5 1, coeffPack := bitOf (fieldOf h 8 1) 1, lweDim := fieldOf h 10 2, t := fieldOf h 12 4,
        omega := fieldOf h 16 4, chain := ms.take chain, checkP := if chk = 1 then ms[chain]? else none,
        special := (ms.drop (chain + chk)).take spec,
        lweP := if fieldOf h 10 2 = 0 then none else ms[chain + chk + spec]? }

/-- A registered key set of a partition. -/
def Part.keyset (x : Part) (id : Nat) : Option KeySet := Tab.get none x.keysets id
/-- A partition with one key set replaced. -/
def Part.setKeyset (x : Part) (id : Nat) (k : Option KeySet) : Part := { x with keysets := Tab.set none x.keysets id k }

/-- What KEYSET_REGISTER reads and decides (R332): the state after its reads, a status, and the key set. -/
def readKeyset (s : State) (p : Nat) (busy : Bool) (q : Req) : State × Nat × Option KeySet :=
  let x := s.part p
  let id := q.field 0 2
  let room := q.field 2 1
  let off := q.field 8 8
  if x.rooms.length ≤ room || !inStack off 128 then (s, stBadArgument, none)
  else
    match s.fwRead p room off 128 with
    | (t, none) => (t, stFailed, none)
    | (t, some h) =>
      let n := 16 * keysetModuli h
      if !keysetHeaderOk h || !inStack off (128 + n) then (t, stBadArgument, none)
      else
        match t.fwRead p room (off + 128) n with
        | (u, none) => (u, stFailed, none)
        | (u, some b) =>
          match keysetOf h b with
          | none => (u, stBadArgument, none)
          | some k =>
            if id = 0 || (x.keyset id).isSome then (u, stBadArgument, none)
            else if busy then (u, stBusy, none)
            else if 16 ≤ countSome x.keysets then (u, stNoResource, none)
            else (u, stOk, some k)

/-- KEYSET_REGISTER (R332). -/
def execKeysetRegister (f : FnId) (slot : SlotId) (s : State) : Host.Outcome State Fault Refusal :=
  .next (s.runCmd f slot (isOp 0x0201) (fun q =>
    let p := f.val - 1
    if s.hotStack p then .waits s else
    match readKeyset s p false q with
    | (t, 0, some k) => .ok ((t.setPart p ((t.part p).setKeyset (q.field 0 2) (some k))).forward p 0x0201 q.body) []
    | (t, st, _) => .fail t st))

/-- The twiddle bytes of a key set: one set for each chain prime, special prime and the check prime (R90, R99). -/
def KeySet.twiddles (k : KeySet) : Nat :=
  (k.chain.length + k.special.length + (if k.checkP.isSome then 1 else 0)) * twiddleBytes k.logN

/-- The twiddle bytes of the active key sets of a partition. -/
def Part.activeTwiddles (x : Part) : Nat :=
  (x.keysets.map (fun e => match e.2 with | some k => if k.active then k.twiddles else 0 | none => 0)).sum

/-- The checks of KEYSET_ACTIVATE (R91). -/
def checkActivate (s : State) (p : Nat) (busy : Bool) (q : Req) : Nat :=
  match (s.part p).keyset (q.field 0 2) with
  | none => stBadArgument
  | some k =>
    if busy then stBusy
    else if !k.active && 2 ^ 20 < (s.part p).activeTwiddles + k.twiddles then stNoResource
    else stOk

/-- A key set is active, its twiddle sets valid in every room of the partition (R91). -/
def State.activate (s : State) (p id : Nat) : State :=
  match (s.part p).keyset id with
  | some k =>
    let t := s.setPart p ((s.part p).setKeyset id (some { k with active := true }))
    (s.part p).rooms.foldl
      (fun u r => u.setRoom r { u.room r with badTwiddle := (u.room r).badTwiddle.filter (·.1 != id) }) t
  | none => s

/-- KEYSET_ACTIVATE (R91). -/
def execKeysetActivate (f : FnId) (slot : SlotId) (s : State) : Host.Outcome State Fault Refusal :=
  .next (s.runCmd f slot (isOp 0x0202) (fun q =>
    let p := f.val - 1
    if checkActivate s p false q ≠ stOk then .fail s (checkActivate s p false q)
    else .ok ((s.activate p (q.field 0 2)).forward p 0x0202 q.body) []))

/-- KEYSET_DEACTIVATE names a registered key set. -/
def checkDeactivate (s : State) (p : Nat) (busy : Bool) (q : Req) : Nat :=
  match (s.part p).keyset (q.field 0 2) with
  | none => stBadArgument
  | some _ => if busy then stBusy else stOk

/-- KEYSET_DEACTIVATE (R91): the request; the slot stays RUNNING until the deactivation takes effect. A key set that is not active
is deactivated at once; one whose deactivation is pending goes on waiting. -/
def execKeysetDeactivate (f : FnId) (slot : SlotId) (s : State) : Host.Outcome State Fault Refusal :=
  .next (s.runCmd f slot (isOp 0x0203) (fun q =>
    let p := f.val - 1
    let id := q.field 0 2
    match (s.part p).keyset id with
    | none => .fail s stBadArgument
    | some k =>
      if k.deactivate.isSome then .waits s
      else if !k.active then .ok (s.forward p 0x0203 q.body) []
      else .waits ((s.setPart p ((s.part p).setKeyset id (some { k with deactivate := some slot.val }))).forward p 0x0203 q.body)))

/-- A room has in flight a block whose operations use a key set (R91). -/
def Room.blockUses (x : Room) (id : Nat) : Bool :=
  match x.block with
  | some b => b.uses.contains id
  | none => false

/-- KEYSET_DEACTIVATION_EFFECT (R91): once no room of the partition has a block on the key set in flight, it is inactive and the
command ends with OK. -/
def execKeysetDeactivationEffect (p : PartId) (keyset : Nat) (s : State) : Host.Outcome State Fault Refusal :=
  .next
    (match (s.part p).keyset keyset with
    | some k =>
      match k.deactivate with
      | some slot =>
        if (s.part p).rooms.any (fun r => (s.room r).blockUses keyset) then s
        else (s.setPart p ((s.part p).setKeyset keyset (some { k with active := false, deactivate := none }))).endWaiting
          (p.val + 1) slot (fun q => isOp 0x0203 q && q.field 0 2 == keyset) stOk 0 0 []
      | none => s
    | none => s)

/-- A key or look-up key of a key set is registered (R331). -/
def Part.keysOfSet (x : Part) (id : Nat) : Bool :=
  x.keys.any (fun e => match e.2.cur with | some h => h.keyset == id | none => false) ||
    x.luts.any (fun e => match e.2.cur with | some h => h.keyset == id | none => false)

/-- The checks of KEYSET_RELEASE (R331). -/
def checkRelease (s : State) (p : Nat) (busy : Bool) (q : Req) : Nat :=
  match (s.part p).keyset (q.field 0 2) with
  | none => stBadArgument
  | some k => if busy || k.active || (s.part p).keysOfSet (q.field 0 2) then stBusy else stOk

/-- KEYSET_RELEASE (R331). -/
def execKeysetRelease (f : FnId) (slot : SlotId) (s : State) : Host.Outcome State Fault Refusal :=
  .next (s.runCmd f slot (isOp 0x0204) (fun q =>
    let p := f.val - 1
    if checkRelease s p false q ≠ stOk then .fail s (checkRelease s p false q)
    else .ok ((s.setPart p ((s.part p).setKeyset (q.field 0 2) none)).forward p 0x0204 q.body) []))

/-- The prime of a key set that a twiddle set is for (R90): i chain prime i, 64 + i special prime i, 128 the check prime. -/
def KeySet.setPrime (k : KeySet) (prime : Nat) : Option Modulus :=
  if prime < 64 then k.chain[prime]? else if prime < 128 then k.special[prime - 64]? else if prime = 128 then k.checkP else none

/-- The words of one part of a twiddle set (R90, R94), in lane form: C/2 row twiddles, powers of θ; M column twiddles, powers of φ; C mid starts ψ^c times
`scale`; C mid steps ψ^(2c). DEDUCED (log 83): each in ascending order of its exponent, which R90 does not state. -/
def twiddlePart (m : Modulus) (psi scale c rows : Nat) : List Nat :=
  let pw (b n : Nat) : List Nat := (List.range n).map (fun i => toLane m (modPow b i m.p))
  pw (modPow psi (2 * rows) m.p) (c / 2) ++ pw (modPow psi c m.p) rows ++
    (List.range c).map (fun i => toLane m (scale * modPow psi i m.p % m.p)) ++ pw (modPow psi 2 m.p) c

/-- The twiddle set of a prime at a ring size (R90): the forward part, then the inverse part with N^(−1) folded into its mid starts. -/
def twiddleSet (m : Modulus) (logN : Nat) : List Nat :=
  let n := 2 ^ logN
  let c := 2 ^ ((logN + 1) / 2)
  let psi := psiOf m n
  twiddlePart m psi 1 c (n / c) ++ twiddlePart m (modInv psi m.p) (modInv (n % m.p) m.p) c (n / c)

/-- A set of a room's twiddle store (R90, R91, R93): the words that firmware wrote for a prime of an active key set; none where the set is invalid, or was never
written. The store holds nothing else, and no requester but the transform cluster reaches it (R267). -/
def State.twiddleStore (s : State) (p room id prime : Nat) : Option (List Nat) :=
  match (s.part p).keyset id with
  | some k =>
    if !k.active || (s.room room).badTwiddle.contains (id, prime) then none
    else (k.setPrime prime).map (fun m => twiddleSet m k.logN)
  | none => none

/-- TWIDDLE_SET_REWRITE (R93): firmware has rewritten the invalid set of a prime in a room from its copy. -/
def execTwiddleSetRewrite (r : RoomId) (keyset : TwiddleSet) (s : State) : Host.Outcome State Fault Refusal :=
  let x := s.room r
  let k := (keyset.keyset, keyset.prime)
  .next (if x.badTwiddle.contains k then s.setRoom r { x with badTwiddle := x.badTwiddle.filter (· != k) } else s)

/-! ## Keys (R115 to R122) -/

/-- The header fields of a key (R119). -/
def keyHdrOf (h : List Byte) (home : Nat) : KeyHdr :=
  { kind := fieldOf h 5 1, logN := fieldOf h 6 1, check := bitOf (fieldOf h 7 1) 0, keyLimbs := fieldOf h 8 1,
    alpha := fieldOf h 9 1, digits := fieldOf h 10 1, special := fieldOf h 11 1, keyset := fieldOf h 12 2,
    index := fieldOf h 14 2, rot := BitVec.ofNat 32 (fieldOf h 16 4), epoch := BitVec.ofNat 32 (fieldOf h 20 4),
    seed := BitVec.ofNat 256 (fieldOf h 24 32), bodyBytes := fieldOf h 56 8, home := home }

/-- The positions of a key: chain, check and special limbs (R117, R118). -/
def KeyHdr.positions (k : KeyHdr) : Nat := k.keyLimbs + (if k.check then 1 else 0) + k.special
/-- The positions of a key that a partition room of `n` holds at most (R118). -/
def KeyHdr.roomPositions (k : KeyHdr) (n : Nat) : Nat := ceilDiv k.positions n
/-- The chain primes of a key's digit d (R116). -/
def KeyHdr.digitPrimes (k : KeyHdr) (ks : KeySet) (d : Nat) : List Modulus :=
  ((ks.chain.take k.keyLimbs).drop (d * k.alpha)).take k.alpha

/-- The fields of a key header on their own (R115, R119). -/
def keyFieldsOk (h : List Byte) : Bool :=
  let k := keyHdrOf h 0
  let rot := k.rot.toNat
  fieldOf h 0 4 == 0x6B457C21 && fieldOf h 4 1 == 1 && headerCrcOk h && fieldOf h 7 1 < 2 && k.kind ≤ 2 && 12 ≤ k.logN &&
    k.logN ≤ 17 && 1 ≤ k.keyLimbs && k.keyLimbs ≤ 60 && 1 ≤ k.alpha && k.alpha ≤ 16 && 1 ≤ k.special && k.special ≤ 16 &&
    k.keyset != 0 && k.index ≤ 4095 && (h.drop 64).take 60 == List.replicate 60 0 &&
    (match k.kind with
     | 0 => rot == 0
     | 1 => bitsOf rot 30 17 == 0 && bitsOf rot 16 0 < 2 ^ k.logN / 2
     | _ => rot == 1 && k.keyLimbs == 1)

/-- A key header agrees with its key set and the partition's room count (R121). -/
def keyAgrees (k : KeyHdr) (ks : KeySet) (rooms : Nat) : Bool :=
  k.logN ≤ ks.logN && k.keyLimbs ≤ ks.chain.length && k.check == ks.checkP.isSome &&
    k.digits == ceilDiv k.keyLimbs k.alpha && k.special ≤ ks.special.length &&
    ((List.range k.digits).all (fun d => lambdaSum (k.digitPrimes ks d) + 256 ≤ lambdaSum (ks.special.take k.special))) &&
    k.bodyBytes == k.roomPositions rooms * k.digits * (4 * 2 ^ k.logN)

/-- The entry of the key table at an index. -/
def Part.keyAt (x : Part) (i : Nat) : KeySlot := Tab.get {} x.keys i
/-- Another registered key, at another index, has the same KEYSET, KIND and ROT (R115). -/
def Part.keyTwin (x : Part) (k : KeyHdr) : Bool :=
  x.keys.any (fun e => e.1 != k.index &&
    (match e.2.cur with | some h => h.keyset == k.keyset && h.kind == k.kind && h.rot == k.rot | none => false))

/-- The epoch rule of R122. -/
def epochOk (last : Option (BitVec 32)) (e : BitVec 32) : Bool :=
  match last with
  | none => true
  | some l => decide (l.toNat < e.toNat)

/-- Every copy of a header line in the partition's stacks: none where one cannot be read. -/
def State.headerCopies (s : State) (p home : Nat) : State × Option (List (List Byte)) :=
  (s.part p).rooms.foldl
    (fun (a : State × Option (List (List Byte))) r =>
      match a.2 with
      | none => a
      | some l =>
        match a.1.cellarRead r home 128 with
        | (t, some h) => (t, some (l ++ [h]))
        | (t, none) => (t, none)) (s, some [])

/-- All copies are equal. -/
def sameCopies : List (List Byte) → Bool
  | [] => false
  | h :: t => t.all (· == h)

/-- What KEY_REGISTER reads and decides (R121, R122). -/
def readKey (s : State) (p : Nat) (busy : Bool) (q : Req) : State × Nat × Option KeyHdr :=
  let x := s.part p
  let home := q.field 0 8
  if !inStack home 128 || x.rooms.isEmpty then (s, stBadArgument, none)
  else
    match s.headerCopies p home with
    | (t, none) => (t, stFailed, none)
    | (t, some cs) =>
      let h := cs.headD []
      let k := keyHdrOf h home
      if !sameCopies cs || !keyFieldsOk h then (t, stBadArgument, none)
      else
        match x.keyset k.keyset with
        | none => (t, stBadArgument, none)
        | some ks =>
          if !keyAgrees k ks x.rooms.length || !inStack home (128 + k.bodyBytes) || x.keyTwin k ||
              !epochOk (x.keyAt k.index).lastEpoch k.epoch then (t, stBadArgument, none)
          else if busy then (t, stBusy, none)
          else if (x.keyAt k.index).cur.isNone && 4096 ≤ (x.keys.filter (fun e => e.2.cur.isSome)).length then
            (t, stNoResource, none)
          else (t, stOk, some k)

/-- The rooms of a partition that have a command block in flight. -/
def State.busyRooms (s : State) (p : Nat) : List Nat := (s.part p).rooms.filter (fun r => (s.room r).block.isSome)

/-- A room uses the key of an index and epoch (R122): an entry resolved to it, a block in flight that consumed one, or a look-up dispatched with it (R163). -/
def Room.usesKey (x : Room) (index : Nat) (epoch : BitVec 32) : Bool :=
  x.keyEntries.any (fun e => e.key == some (index, epoch)) ||
    x.progress.any (fun g => g.lut.any (fun h => 65536 + h.index == index && h.epoch == epoch)) ||
    (match x.block with | some b => b.keysUsed.contains (index, epoch) | none => false)

/-- Some room of a partition still uses the previous key of an index: blocks that hold no entry resolved to it do not delay (R122). -/
def State.prevKeyUsed (s : State) (p index : Nat) : Bool :=
  match ((s.part p).keyAt index).prev with
  | some h => (s.part p).rooms.any (fun r => (s.room r).usesKey index h.epoch)
  | none => false

/-- The key of an index in a room: until the room's boundary the previous one (R122). -/
def KeySlot.inRoom (e : KeySlot) (room : Nat) : Option KeyHdr := if e.waitRooms.contains room then e.prev.or e.cur else e.cur

/-- The pins after a key of an index is replaced or removed: it is unpinned, and its area freed at the boundaries of the rooms that wait (R133). -/
def unpinKey (pins : List Pin) (lut : Bool) (i : Nat) (rooms : List Nat) : List Pin :=
  (pins.map (fun q => if q.lut == lut && q.key == i then { q with unpin := true, waitRooms := rooms } else q)).filter
    (fun q => !(q.unpin && q.waitRooms.isEmpty))

/-- A partition with one entry of the key table replaced. A pinned key that is replaced or removed is unpinned first (R133). -/
def Part.setKey (x : Part) (i : Nat) (k : KeySlot) : Part :=
  { x with keys := Tab.set {} x.keys i k
           pins := if (x.keyAt i).cur = k.cur then x.pins else unpinKey x.pins false i k.waitRooms }

/-- The response of KEY_REGISTER and LUT_KEY_REGISTER (R331). -/
def keyResp (index epochN : Nat) : List Byte := leBytes 4 index ++ leBytes 4 epochN

/-- The registration at a HOME already waits for its replaced key to fall out of use. -/
def Part.keyPending (x : Part) (slot home : Nat) : Bool :=
  x.keys.any (fun e => e.2.prev.isSome && e.2.slot == some slot && (match e.2.cur with | some h => h.home == home | none => false))

/-- KEY_REGISTER (R121, R122): a key at a free index reports OK at once; one that replaces a key reports OK when no room uses the
previous key (KEY_RELEASE_COMPLETE). -/
def execKeyRegister (f : FnId) (slot : SlotId) (s : State) : Host.Outcome State Fault Refusal :=
  .next (s.runCmd f slot (isOp 0x0211) (fun q =>
    let p := f.val - 1
    if (s.part p).keyPending slot (q.field 0 8) || s.hotStack p then .waits s else
    match readKey s p false q with
    | (t, 0, some k) =>
      let e := (t.part p).keyAt k.index
      let new : KeySlot := { cur := some k, prev := e.cur, waitRooms := if e.cur.isSome then t.busyRooms p else [],
                             slot := if e.cur.isSome then some slot.val else none, lastEpoch := some k.epoch }
      let u := (t.setPart p ((t.part p).setKey k.index new)).forward p 0x0211 q.body
      if e.cur.isSome then .waits u else .ok u (keyResp k.index k.epoch.toNat)
    | (t, st, _) => .fail t st))

/-! ## Look-up keys (R154) -/

/-- The header fields of a look-up key. -/
def lutHdrOf (h : List Byte) (home : Nat) : LutHdr :=
  { index := fieldOf h 5 1, logNbr := fieldOf h 6 1, logEMax := fieldOf h 7 1, dim := fieldOf h 8 2, lg := fieldOf h 10 1,
    logBg := fieldOf h 11 1, lks := fieldOf h 12 1, logBks := fieldOf h 13 1, keyset := fieldOf h 14 2,
    epoch := BitVec.ofNat 32 (fieldOf h 16 4), outNoise := fieldOf h 20 4, seed := BitVec.ofNat 256 (fieldOf h 24 32),
    bodyBytes := fieldOf h 56 8, home := home }

/-- The fields of a look-up key header (R154). -/
def lutFieldsOk (h : List Byte) : Bool :=
  let k := lutHdrOf h 0
  fieldOf h 0 4 == 0x4C759B03 && fieldOf h 4 1 == 1 && headerCrcOk h && k.index ≤ 15 && 10 ≤ k.logNbr && k.logNbr ≤ 12 &&
    1 ≤ k.logEMax && k.logEMax ≤ k.logNbr && 512 ≤ k.dim && k.dim ≤ 2048 && k.dim % 2 == 0 && 1 ≤ k.lg && k.lg ≤ 3 &&
    1 ≤ k.logBg && k.lg * k.logBg ≤ 32 && 1 ≤ k.lks && k.lks ≤ 4 && 1 ≤ k.logBks && k.lks * k.logBks ≤ 32 &&
    k.keyset != 0 && (h.drop 64).take 60 == List.replicate 60 0 &&
    k.bodyBytes == 12 * k.dim * k.lg * 2 ^ k.logNbr + 4 * k.lks * 2 ^ k.logNbr

/-- The entry of the look-up-key table at an index. -/
def Part.lutAt (x : Part) (i : Nat) : LutSlot := Tab.get {} x.luts i
/-- A partition with one entry of the look-up-key table replaced. -/
def Part.setLut (x : Part) (i : Nat) (k : LutSlot) : Part :=
  { x with luts := Tab.set {} x.luts i k
           pins := if (x.lutAt i).cur = k.cur then x.pins else unpinKey x.pins true i k.waitRooms }

/-- The look-up key of an index in a room: until the room's boundary the previous one (R154, R122). -/
def LutSlot.inRoom (e : LutSlot) (room : Nat) : Option LutHdr := if e.waitRooms.contains room then e.prev.or e.cur else e.cur

/-- What LUT_KEY_REGISTER reads and decides (R154). -/
def readLut (s : State) (p : Nat) (busy : Bool) (q : Req) : State × Nat × Option LutHdr :=
  let x := s.part p
  let home := q.field 0 8
  if !inStack home 128 || x.rooms.isEmpty then (s, stBadArgument, none)
  else
    match s.headerCopies p home with
    | (t, none) => (t, stFailed, none)
    | (t, some cs) =>
      let h := cs.headD []
      let k := lutHdrOf h home
      if !sameCopies cs || !lutFieldsOk h then (t, stBadArgument, none)
      else
        match x.keyset k.keyset with
        | none => (t, stBadArgument, none)
        | some ks =>
          if ks.lweDim ≠ k.dim || !inStack home (128 + k.bodyBytes) || !epochOk (x.lutAt k.index).lastEpoch k.epoch then
            (t, stBadArgument, none)
          else if busy then (t, stBusy, none)
          else (t, stOk, some k)

/-- The look-up key registration at a HOME already waits for its replaced key to fall out of use. -/
def Part.lutPending (x : Part) (slot home : Nat) : Bool :=
  x.luts.any (fun e => e.2.prev.isSome && e.2.slot == some slot && (match e.2.cur with | some h => h.home == home | none => false))

/-- LUT_KEY_REGISTER (R154, R122). -/
def execLutKeyRegister (f : FnId) (slot : SlotId) (s : State) : Host.Outcome State Fault Refusal :=
  .next (s.runCmd f slot (isOp 0x0213) (fun q =>
    let p := f.val - 1
    if (s.part p).lutPending slot (q.field 0 8) || s.hotStack p then .waits s else
    match readLut s p false q with
    | (t, 0, some k) =>
      let e := (t.part p).lutAt k.index
      let new : LutSlot := { cur := some k, prev := e.cur, waitRooms := if e.cur.isSome then t.busyRooms p else [],
                             slot := if e.cur.isSome then some slot.val else none, lastEpoch := some k.epoch }
      let u := (t.setPart p ((t.part p).setLut k.index new)).forward p 0x0213 q.body
      if e.cur.isSome then .waits u else .ok u (keyResp k.index k.epoch.toNat)
    | (t, st, _) => .fail t st))

/-- Some room still uses the previous look-up key of an index. -/
def State.prevLutUsed (s : State) (p index : Nat) : Bool :=
  match ((s.part p).lutAt index).prev with
  | some h => (s.part p).rooms.any (fun r => (s.room r).usesKey (65536 + index) h.epoch)
  | none => false

/-! ## Removal and listing -/

/-- KEY_REMOVE names an index that holds a key; one whose removal is RUNNING still holds it (R324, log 78). -/
def checkKeyRemove (s : State) (p : Nat) (busy : Bool) (q : Req) : Nat :=
  let i := q.field 0 2
  let k := (s.part p).keyAt i
  let l := (s.part p).lutAt i
  let holds := if bitOf (q.field 2 1) 0 then l.cur.isSome || (busy && l.prev.isSome) else k.cur.isSome || (busy && k.prev.isSome)
  if !holds then stBadArgument else if busy then stBusy else stOk

/-- The removal that a request names is under way in this slot. -/
def Part.removing (x : Part) (slot : Nat) (q : Req) : Bool :=
  let k := x.keyAt (q.field 0 2)
  let l := x.lutAt (q.field 0 2)
  if bitOf (q.field 2 1) 0 then l.cur.isNone && l.prev.isSome && l.slot == some slot else k.cur.isNone && k.prev.isSome && k.slot == some slot

/-- KEY_REMOVE (R122): the index is free and keeps its last epoch; the command reports OK once no room uses the key. -/
def execKeyRemove (f : FnId) (slot : SlotId) (s : State) : Host.Outcome State Fault Refusal :=
  .next (s.runCmd f slot (isOp 0x0212) (fun q =>
    let p := f.val - 1
    let i := q.field 0 2
    let x := s.part p
    if x.removing slot q then .waits s
    else if checkKeyRemove s p false q ≠ stOk then .fail s (checkKeyRemove s p false q)
    else if bitOf (q.field 2 1) 0 then
      let e := x.lutAt i
      .waits ((s.setPart p (x.setLut i { e with cur := none, prev := e.cur, waitRooms := s.busyRooms p, slot := some slot.val })).forward
        p 0x0212 q.body)
    else
      let e := x.keyAt i
      .waits ((s.setPart p (x.setKey i { e with cur := none, prev := e.cur, waitRooms := s.busyRooms p, slot := some slot.val })).forward
        p 0x0212 q.body)))

/-- The end of the command that waits on an index: a removal where the index holds no key, else the registration whose HOME it holds. -/
def State.endKeyCmd (s : State) (f : Nat) (slot : Option Nat) (lut : Bool) (index : Nat) (cur : Option (Nat × Nat)) : State :=
  match slot, cur with
  | some k, some (home, epoch) =>
    s.endWaiting f k (fun q => isOp (if lut then 0x0213 else 0x0211) q && q.field 0 8 == home) stOk 0 0 (keyResp index epoch)
  | some k, none => s.endWaiting f k (fun q => isOp 0x0212 q && bitOf (q.field 2 1) 0 == lut && q.field 0 2 == index) stOk 0 0 []
  | none, _ => s

/-- KEY_RELEASE_COMPLETE (R122): no room uses the previous key of an index any longer, and the pending command reports OK. -/
def execKeyReleaseComplete (p : PartId) (lut : Bool) (index : Nat) (s : State) : Host.Outcome State Fault Refusal :=
  let x := s.part p
  .next
    (if lut then
      let e := x.lutAt index
      if e.prev.isSome && !s.prevLutUsed p index then
        (s.setPart p (x.setLut index { e with prev := none, slot := none })).endKeyCmd (p.val + 1) e.slot true index
          (e.cur.map (fun h => (h.home, h.epoch.toNat)))
      else s
    else
      let e := x.keyAt index
      if e.prev.isSome && !s.prevKeyUsed p index then
        (s.setPart p (x.setKey index { e with prev := none, slot := none })).endKeyCmd (p.val + 1) e.slot false index
          (e.cur.map (fun h => (h.home, h.epoch.toNat)))
      else s)

/-- A key's entry of a KEY_LIST response. -/
def keyListKey (pins : List Pin) (i : Nat) (h : KeyHdr) : List Byte :=
  leBytes 2 i ++ leBytes 2 h.keyset ++ leBytes 1 h.kind ++ leBytes 1 (if pins.any (fun n => !n.lut && n.key == i) then 1 else 0) ++
    leBytes 2 0 ++ leBytes 4 h.rot.toNat ++ leBytes 4 h.epoch.toNat

/-- A look-up key's entry of a KEY_LIST response. -/
def keyListLut (pins : List Pin) (i : Nat) (h : LutHdr) : List Byte :=
  leBytes 2 i ++ leBytes 2 h.keyset ++ leBytes 1 0 ++ leBytes 1 (if pins.any (fun n => n.lut && n.key == i) then 3 else 2) ++ leBytes 2 0 ++ leBytes 4 0 ++ leBytes 4 h.epoch.toNat

/-- The registered keys in listing order with their FIRST values: keys by index, then look-up keys at 4,096 + LUT_INDEX
(log 16). -/
def Part.keyList (x : Part) : List (Nat × List Byte) :=
  (x.keys.filterMap (fun e => match e.2.cur with | some h => some (e.1, keyListKey x.pins e.1 h) | none => none)) ++
    (x.luts.filterMap (fun e => match e.2.cur with | some h => some (4096 + e.1, keyListLut x.pins e.1 h) | none => none))

/-- A listing from FIRST of at most `n` entries: the count, the bytes and NEXT (R331). -/
def listFrom (l : List (Nat × List Byte)) (first n : Nat) : Nat × List Byte × Nat :=
  let rest := l.filter (fun e => first ≤ e.1)
  ((rest.take n).length, (rest.take n).flatMap (·.2), match rest[n]? with | some e => e.1 | none => 0xFFFF)

/-- KEY_LIST (R331). -/
def execKeyList (f : FnId) (slot : SlotId) (s : State) : Host.Outcome State Fault Refusal :=
  .next (s.runCmd f slot (isOp 0x0214) (fun q =>
    let a := listFrom (s.part (f.val - 1)).keyList (q.field 0 2) 29
    .ok s (leBytes 2 a.1 ++ leBytes 2 a.2.2 ++ List.replicate 12 0 ++ a.2.1)))

end Sys2Proof.Machine
end

