-- ==== Sys2Proof/Machine/Aes.lean ====
section
/-! DEFINITION. AES-256 (FIPS 197), as the key expander, the block-key generators, AES-256-CTR and AES-KWP use it (R123, R273, R368). -/

namespace Sys2Proof.Machine

/-- Doubling in the AES field. -/
def xtime (b : Byte) : Byte := (b <<< 1) ^^^ (if b.getLsbD 7 then 0x1B else 0)

/-- The product in the AES field. -/
def gmulBits : Nat → Byte → Byte → Byte
  | 0, _, _ => 0
  | n + 1, a, b => (if b.getLsbD 0 then a else 0) ^^^ gmulBits n (xtime a) (b >>> 1)

/-- The product in the AES field. -/
def gmul (a b : Byte) : Byte := gmulBits 8 a b

/-- The S-box of FIPS 197, entries 0x00 to 0x7F. -/
def sboxLo : List Nat :=
  [0x63, 0x7c, 0x77, 0x7b, 0xf2, 0x6b, 0x6f, 0xc5, 0x30, 0x01, 0x67, 0x2b, 0xfe, 0xd7, 0xab, 0x76,
   0xca, 0x82, 0xc9, 0x7d, 0xfa, 0x59, 0x47, 0xf0, 0xad, 0xd4, 0xa2, 0xaf, 0x9c, 0xa4, 0x72, 0xc0,
   0xb7, 0xfd, 0x93, 0x26, 0x36, 0x3f, 0xf7, 0xcc, 0x34, 0xa5, 0xe5, 0xf1, 0x71, 0xd8, 0x31, 0x15,
   0x04, 0xc7, 0x23, 0xc3, 0x18, 0x96, 0x05, 0x9a, 0x07, 0x12, 0x80, 0xe2, 0xeb, 0x27, 0xb2, 0x75,
   0x09, 0x83, 0x2c, 0x1a, 0x1b, 0x6e, 0x5a, 0xa0, 0x52, 0x3b, 0xd6, 0xb3, 0x29, 0xe3, 0x2f, 0x84,
   0x53, 0xd1, 0x00, 0xed, 0x20, 0xfc, 0xb1, 0x5b, 0x6a, 0xcb, 0xbe, 0x39, 0x4a, 0x4c, 0x58, 0xcf,
   0xd0, 0xef, 0xaa, 0xfb, 0x43, 0x4d, 0x33, 0x85, 0x45, 0xf9, 0x02, 0x7f, 0x50, 0x3c, 0x9f, 0xa8,
   0x51, 0xa3, 0x40, 0x8f, 0x92, 0x9d, 0x38, 0xf5, 0xbc, 0xb6, 0xda, 0x21, 0x10, 0xff, 0xf3, 0xd2]

/-- The S-box of FIPS 197, entries 0x80 to 0xFF. -/
def sboxHi : List Nat :=
  [0xcd, 0x0c, 0x13, 0xec, 0x5f, 0x97, 0x44, 0x17, 0xc4, 0xa7, 0x7e, 0x3d, 0x64, 0x5d, 0x19, 0x73,
   0x60, 0x81, 0x4f, 0xdc, 0x22, 0x2a, 0x90, 0x88, 0x46, 0xee, 0xb8, 0x14, 0xde, 0x5e, 0x0b, 0xdb,
   0xe0, 0x32, 0x3a, 0x0a, 0x49, 0x06, 0x24, 0x5c, 0xc2, 0xd3, 0xac, 0x62, 0x91, 0x95, 0xe4, 0x79,
   0xe7, 0xc8, 0x37, 0x6d, 0x8d, 0xd5, 0x4e, 0xa9, 0x6c, 0x56, 0xf4, 0xea, 0x65, 0x7a, 0xae, 0x08,
   0xba, 0x78, 0x25, 0x2e, 0x1c, 0xa6, 0xb4, 0xc6, 0xe8, 0xdd, 0x74, 0x1f, 0x4b, 0xbd, 0x8b, 0x8a,
   0x70, 0x3e, 0xb5, 0x66, 0x48, 0x03, 0xf6, 0x0e, 0x61, 0x35, 0x57, 0xb9, 0x86, 0xc1, 0x1d, 0x9e,
   0xe1, 0xf8, 0x98, 0x11, 0x69, 0xd9, 0x8e, 0x94, 0x9b, 0x1e, 0x87, 0xe9, 0xce, 0x55, 0x28, 0xdf,
   0x8c, 0xa1, 0x89, 0x0d, 0xbf, 0xe6, 0x42, 0x68, 0x41, 0x99, 0x2d, 0x0f, 0xb0, 0x54, 0xbb, 0x16]

/-- The S-box. -/
def sbox (b : Byte) : Byte :=
  BitVec.ofNat 8 (if b.toNat < 128 then sboxLo.getD b.toNat 0 else sboxHi.getD (b.toNat - 128) 0)

/-- The inverse S-box. -/
def invSbox (b : Byte) : Byte := BitVec.ofNat 8 (((sboxLo ++ sboxHi).findIdx? (fun v => v == b.toNat)).getD 0)

/-- Bytes combined by exclusive or. -/
def xorBytes (a b : List Byte) : List Byte := List.zipWith (· ^^^ ·) a b

/-- The next 4-byte word of the AES-256 key schedule, from the words so far, newest first. -/
def nextWord (i : Nat) (ws : List (List Byte)) : List Byte :=
  let t := ws.headD []
  let u :=
    if i % 8 = 0 then
      match (t.drop 1 ++ t.take 1).map sbox with
      | a :: r => (a ^^^ BitVec.ofNat 8 (2 ^ (i / 8 - 1))) :: r
      | [] => []
    else if i % 8 = 4 then t.map sbox else t
  xorBytes (ws.getD 7 []) u

/-- The key schedule words from word 8 on. -/
def expandWords : Nat → Nat → List (List Byte) → List (List Byte)
  | 0, _, ws => ws
  | n + 1, i, ws => expandWords n (i + 1) (nextWord i ws :: ws)

/-- Pieces of a list. -/
def chunks {α : Type} (n : Nat) : Nat → List α → List (List α)
  | 0, _ => []
  | k + 1, l => l.take n :: chunks n k (l.drop n)

/-- The fifteen round keys of a 32-byte key. -/
def roundKeys (key : List Byte) : List (List Byte) :=
  chunks 16 15 ((expandWords 52 8 (chunks 4 8 key).reverse).reverse.flatten)

/-- ShiftRows on the 16 bytes of a block in column order. -/
def shiftRows (s : List Byte) : List Byte := (List.range 16).map (fun i => s.getD ((i + 4 * (i % 4)) % 16) 0)
/-- The inverse of ShiftRows. -/
def invShiftRows (s : List Byte) : List Byte := (List.range 16).map (fun i => s.getD ((i + 12 * (i % 4)) % 16) 0)

/-- A column times the matrix whose first row is given. -/
def mixWith (a b c d : Byte) (s : List Byte) : List Byte :=
  (List.range 16).map (fun i =>
    let col := i / 4 * 4
    let x (k : Nat) : Byte := s.getD (col + (i + k) % 4) 0
    gmul a (x 0) ^^^ gmul b (x 1) ^^^ gmul c (x 2) ^^^ gmul d (x 3))

/-- One round of encryption. -/
def encRound (s rk : List Byte) (last : Bool) : List Byte :=
  let t := shiftRows (s.map sbox)
  xorBytes (if last then t else mixWith 2 3 1 1 t) rk

/-- The rounds after the first key addition. -/
def encRounds (s : List Byte) : List (List Byte) → List Byte
  | [] => s
  | [rk] => encRound s rk true
  | rk :: t => encRounds (encRound s rk false) t

/-- A block encrypted under round keys. -/
def aesWith (rks : List (List Byte)) (block : List Byte) : List Byte :=
  encRounds (xorBytes block (rks.headD [])) rks.tail

/-- A block encrypted under a 32-byte key. -/
def aes256 (key block : List Byte) : List Byte := aesWith (roundKeys key) block

/-- The rounds of decryption, on the round keys in reverse. -/
def decRounds (s : List Byte) : List (List Byte) → List Byte
  | [] => s
  | [rk] => xorBytes ((invShiftRows s).map invSbox) rk
  | rk :: t => decRounds (mixWith 14 11 13 9 (xorBytes ((invShiftRows s).map invSbox) rk)) t

/-- A block decrypted under a 32-byte key. -/
def aes256Inv (key block : List Byte) : List Byte :=
  let rks := (roundKeys key).reverse
  decRounds (xorBytes block (rks.headD [])) rks.tail

/-- AES-256-CTR over bytes: `n` blocks from a 16-byte counter block that counts as one big-endian number (SP 800-38A). -/
def ctrStream (rks : List (List Byte)) (iv : Nat) : Nat → List Byte
  | 0 => []
  | n + 1 => aesWith rks (beBytes 16 iv) ++ ctrStream rks ((iv + 1) % 2 ^ 128) n

/-- AES-256-CTR (R368). -/
def aesCtr (key : List Byte) (iv : Nat) (data : List Byte) : List Byte :=
  xorBytes data (ctrStream (roundKeys key) iv (ceilDiv data.length 16))

/-! ## AES-KWP (SP 800-38F), which R368 and R436 name -/

/-- One step of the wrapping function: the integrity half, the other halves in order, and the step's number. -/
def kwStep (rks : List (List Byte)) (a : List Byte) (r : List (List Byte)) (t : Nat) : List Byte × List (List Byte) :=
  match r with
  | [] => (a, [])
  | x :: rest =>
    let b := aesWith rks (a ++ x)
    (xorBytes (b.take 8) (beBytes 8 t), rest ++ [b.drop 8])

/-- The steps of the wrapping function. -/
def kwSteps (rks : List (List Byte)) : Nat → Nat → List Byte × List (List Byte) → List Byte × List (List Byte)
  | 0, _, x => x
  | n + 1, t, x => kwSteps rks n (t + 1) (kwStep rks x.1 x.2 t)

/-- A block decrypted under round keys in reverse order. -/
def aesInvWith (rks : List (List Byte)) (block : List Byte) : List Byte := decRounds (xorBytes block (rks.headD [])) rks.tail

/-- The steps undone, from the last to the first. -/
def kwUnsteps (rrks : List (List Byte)) : Nat → List Byte × List (List Byte) → List Byte × List (List Byte)
  | 0, x => x
  | n + 1, x =>
    let last := x.2.getLastD []
    let b := aesInvWith rrks (xorBytes x.1 (beBytes 8 (n + 1)) ++ last)
    kwUnsteps rrks n (b.take 8, b.drop 8 :: x.2.dropLast)

/-- The padded wrapping of some bytes under a 32-byte key. -/
def kwpWrap (key data : List Byte) : List Byte :=
  let n := ceilDiv data.length 8
  let p := sliceZ data 0 (8 * n)
  let aiv : List Byte := [0xA6, 0x59, 0x59, 0xA6] ++ beBytes 4 data.length
  let rks := roundKeys key
  if n ≤ 1 then aesWith rks (aiv ++ p)
  else
    let r := kwSteps rks (6 * n) 1 (aiv, chunks 8 n p)
    r.1 ++ r.2.flatten

/-- The bytes that a padded wrapping holds, or none when its integrity value, length or padding is wrong. -/
def kwpUnwrap (key data : List Byte) : Option (List Byte) :=
  let n := data.length / 8 - 1
  if data.length % 8 ≠ 0 || data.length < 16 then none
  else
    let rrks := (roundKeys key).reverse
    let r : List Byte × List Byte :=
      if n = 1 then
        let b := aesInvWith rrks data
        (b.take 8, b.drop 8)
      else
        let q := kwUnsteps rrks (6 * n) (data.take 8, chunks 8 n (data.drop 8))
        (q.1, q.2.flatten)
    let len := beNat (r.1.drop 4)
    if r.1.take 4 == [0xA6, 0x59, 0x59, 0xA6] && decide (8 * (n - 1) < len) && decide (len ≤ 8 * n) &&
        r.2.drop len == List.replicate (8 * n - len) 0 then some (r.2.take len)
    else none

end Sys2Proof.Machine
end

