-- ==== Sys2Proof/Machine/Sha.lean ====
section
/-! DEFINITION. The hashes of the HASH unit (15): SHA-256, SHA-384 and SHA-512 (FIPS 180-4), SHA3-256 and the extendable functions that LATTICE uses
(FIPS 202), and HMAC (FIPS 198-1), which R363 and R368 name. -/

namespace Sys2Proof.Machine

/-! ## SHA-2 -/

/-- The floor of the `e`-th root of `x`, by bisection from the bit `2 ^ n` down: the greatest `r` below `2 ^ (n + 1)` with `r ^ e` at most `x`. -/
def rootBits (e x : Nat) : Nat → Nat → Nat
  | 0, r => if (r + 1) ^ e ≤ x then r + 1 else r
  | n + 1, r => rootBits e x n (if (r + 2 ^ (n + 1)) ^ e ≤ x then r + 2 ^ (n + 1) else r)

/-- The first `w` bits of the fraction of the `e`-th root of `p`: how FIPS 180-4 derives every constant of SHA-2 (square roots for the initial values,
cube roots for the round constants). -/
def rootFraction (e w p : Nat) : Nat := rootBits e (p <<< (e * w)) (w + 4) 0 % 2 ^ w

/-- The primes below 410, the 80 that SHA-2 takes its roots of. -/
def shaPrimes : List Nat := (List.range 410).filter (fun n => 2 ≤ n && (List.range 20).all (fun d => d < 2 || n ≤ d || n % d != 0))

/-- The round constants: cube roots of the first 64 primes for words of 32 bits, of 80 for words of 64. -/
def shaRoundWords (w : Nat) : List Nat := (shaPrimes.take (if w = 32 then 64 else 80)).map (rootFraction 3 w)

/-- An initial value: square roots of eight primes, from the given one on (SHA-384 takes the ninth to the sixteenth). -/
def shaStart (w skip : Nat) : List Nat := ((shaPrimes.drop skip).take 8).map (rootFraction 2 w)

/-- The padding of a message of SHA-2: a one bit, zeros, and the length in bits in `len` bytes, to a whole number of blocks. -/
def shaPad (block len : Nat) (msg : List Byte) : List Byte :=
  let n := msg.length
  let z := (2 * block - (n + 1 + len) % block) % block
  msg ++ [0x80] ++ List.replicate z 0 ++ beBytes len (8 * n)

/-- The message schedule, newest word first: the small sigma functions' rotations and shift are parameters of the family. -/
def shaSchedule {w : Nat} (s0 s1 : Nat × Nat × Nat) : Nat → List (BitVec w) → List (BitVec w)
  | 0, ws => ws
  | n + 1, ws =>
    let sig (r : Nat × Nat × Nat) (x : BitVec w) : BitVec w := x.rotateRight r.1 ^^^ x.rotateRight r.2.1 ^^^ x.ushiftRight r.2.2
    shaSchedule s0 s1 n ((sig s1 (ws.getD 1 0) + ws.getD 6 0 + sig s0 (ws.getD 14 0) + ws.getD 15 0) :: ws)

/-- One round on the eight working variables. -/
def shaRound {w : Nat} (e0 e1 : Nat × Nat × Nat) (v : List (BitVec w)) (k m : BitVec w) : List (BitVec w) :=
  match v with
  | [a, b, c, d, e, f, g, h] =>
    let sig (r : Nat × Nat × Nat) (x : BitVec w) : BitVec w := x.rotateRight r.1 ^^^ x.rotateRight r.2.1 ^^^ x.rotateRight r.2.2
    let t1 := h + sig e1 e + ((e &&& f) ^^^ (~~~e &&& g)) + k + m
    let t2 := sig e0 a + ((a &&& b) ^^^ (a &&& c) ^^^ (b &&& c))
    [t1 + t2, a, b, c, d + t1, e, f, g]
  | l => l

/-- One block of the compression. -/
def shaBlock {w : Nat} (rounds : Nat) (ks : List Nat) (s0 s1 e0 e1 : Nat × Nat × Nat) (h : List (BitVec w)) (block : List Byte) : List (BitVec w) :=
  let m := (chunks (w / 8) 16 block).map (fun c => BitVec.ofNat w (beNat c))
  let ws := (shaSchedule s0 s1 (rounds - 16) m.reverse).reverse
  List.zipWith (· + ·) h ((List.zip ks ws).foldl (fun v e => shaRound e0 e1 v (BitVec.ofNat w e.1) e.2) h)

/-- SHA-256. -/
def sha256 (msg : List Byte) : List Byte :=
  let p := shaPad 64 8 msg
  let h := (chunks 64 (p.length / 64) p).foldl
    (shaBlock 64 (shaRoundWords 32) (7, 18, 3) (17, 19, 10) (2, 13, 22) (6, 11, 25)) ((shaStart 32 0).map (BitVec.ofNat 32))
  h.flatMap (fun x => beBytes 4 x.toNat)

/-- SHA-384 or SHA-512 by their initial value, whole. -/
def sha512With (iv : List Nat) (msg : List Byte) : List Byte :=
  let p := shaPad 128 16 msg
  let h := (chunks 128 (p.length / 128) p).foldl
    (shaBlock 80 (shaRoundWords 64) (1, 8, 7) (19, 61, 6) (28, 34, 39) (14, 18, 41)) (iv.map (BitVec.ofNat 64))
  h.flatMap (fun x => beBytes 8 x.toNat)

/-- SHA-512. -/
def sha512 (msg : List Byte) : List Byte := sha512With (shaStart 64 0) msg
/-- SHA-384. -/
def sha384 (msg : List Byte) : List Byte := (sha512With (shaStart 64 8) msg).take 48

/-! ## Keccak -/

/-- The round constants of Keccak-f[1600]. -/
def keccakRc : List Nat :=
  [0x0000000000000001, 0x0000000000008082, 0x800000000000808a, 0x8000000080008000,
   0x000000000000808b, 0x0000000080000001, 0x8000000080008081, 0x8000000000008009,
   0x000000000000008a, 0x0000000000000088, 0x0000000080008009, 0x000000008000000a,
   0x000000008000808b, 0x800000000000008b, 0x8000000000008089, 0x8000000000008003,
   0x8000000000008002, 0x8000000000000080, 0x000000000000800a, 0x800000008000000a,
   0x8000000080008081, 0x8000000000008080, 0x0000000080000001, 0x8000000080008008]

/-- The rotation of each lane x + 5y. -/
def keccakRot : List Nat := [0, 1, 62, 28, 27, 36, 44, 6, 55, 20, 3, 10, 43, 25, 39, 41, 45, 15, 21, 8, 18, 2, 61, 56, 14]

/-- One round of Keccak-f on 25 lanes, lane (x, y) at 5y + x. -/
def keccakRound (a : Array (BitVec 64)) (rc : Nat) : Array (BitVec 64) :=
  let at_ (v : Array (BitVec 64)) (i : Nat) : BitVec 64 := v.getD i 0
  let c := ((List.range 5).map (fun x => at_ a x ^^^ at_ a (x + 5) ^^^ at_ a (x + 10) ^^^ at_ a (x + 15) ^^^ at_ a (x + 20))).toArray
  let d := ((List.range 5).map (fun x => at_ c ((x + 4) % 5) ^^^ (at_ c ((x + 1) % 5)).rotateLeft 1)).toArray
  let b := ((List.range 25).map (fun i =>
    let x := i % 5
    let y := i / 5
    let sx := (x + 3 * y) % 5
    let src := sx + 5 * x
    (at_ a src ^^^ at_ d sx).rotateLeft (keccakRot.getD src 0))).toArray
  ((List.range 25).map (fun i =>
    let x := i % 5
    let y := i / 5
    let v := at_ b i ^^^ (~~~(at_ b ((x + 1) % 5 + 5 * y)) &&& at_ b ((x + 2) % 5 + 5 * y))
    if i = 0 then v ^^^ BitVec.ofNat 64 rc else v)).toArray

/-- Keccak-f[1600]. -/
def keccakF (a : Array (BitVec 64)) : Array (BitVec 64) := keccakRc.foldl keccakRound a

/-- A padded block is absorbed. -/
def keccakAbsorb (rate : Nat) (a : Array (BitVec 64)) (block : List Byte) : Array (BitVec 64) :=
  let m := (chunks 8 (rate / 8) block).map (fun c => BitVec.ofNat 64 (leNat c))
  keccakF ((List.zipWith (· ^^^ ·) a.toList (m ++ List.replicate 25 0)).toArray)

/-- Output of the sponge: `n` more blocks of the rate. -/
def keccakSqueeze (rate : Nat) : Nat → Array (BitVec 64) → List Byte
  | 0, _ => []
  | n + 1, a => (a.toList.flatMap (fun x => leBytes 8 x.toNat)).take rate ++ keccakSqueeze rate n (keccakF a)

/-- The sponge with a rate in bytes and a domain suffix. -/
def keccakSponge (rate suffix : Nat) (msg : List Byte) (out : Nat) : List Byte :=
  let z := rate - (msg.length + 1) % rate
  let p := if z = rate then msg ++ [BitVec.ofNat 8 (suffix + 128)] else msg ++ [BitVec.ofNat 8 suffix] ++ List.replicate (z - 1) 0 ++ [0x80]
  let a := (chunks rate (p.length / rate) p).foldl (keccakAbsorb rate) (List.replicate 25 0).toArray
  (keccakSqueeze rate (ceilDiv out rate) a).take out

/-- SHA3-256. -/
def sha3x256 (msg : List Byte) : List Byte := keccakSponge 136 6 msg 32
/-- SHA3-512. -/
def sha3x512 (msg : List Byte) : List Byte := keccakSponge 72 6 msg 64
/-- SHAKE128. -/
def shake128 (msg : List Byte) (n : Nat) : List Byte := keccakSponge 168 31 msg n
/-- SHAKE256. -/
def shake256 (msg : List Byte) (n : Nat) : List Byte := keccakSponge 136 31 msg n

/-! ## HMAC -/

/-- HMAC over a hash with its block length. -/
def hmacWith (hash : List Byte → List Byte) (block : Nat) (key msg : List Byte) : List Byte :=
  let k := sliceZ (if block < key.length then hash key else key) 0 block
  hash (k.map (· ^^^ 0x5C) ++ hash (k.map (· ^^^ 0x36) ++ msg))

/-- HMAC-SHA-256. -/
def hmac256 (key msg : List Byte) : List Byte := hmacWith sha256 64 key msg
/-- HMAC-SHA-384. -/
def hmac384 (key msg : List Byte) : List Byte := hmacWith sha384 128 key msg
/-- HMAC-SHA-512. -/
def hmac512 (key msg : List Byte) : List Byte := hmacWith sha512 128 key msg

end Sys2Proof.Machine
end

