-- ==== Sys2Proof/Machine/Commands.lean ====
section
/-! DEFINITION. Programs, the job ring, host buffers, the host copy and the ledger commands (06, 12, 13): PROGRAM_LOAD to
LEDGER_STATS. -/

namespace Sys2Proof.Machine

/-! ## Program containers (R289 to R291, R141, R142) -/

/-- The fields of a refresh plan (R141). -/
def planOf (h : List Byte) : Plan :=
  { kind := fieldOf h 5 1, logN := fieldOf h 6 1, logSlots := fieldOf h 7 1, top := fieldOf h 8 1, inDepth := fieldOf h 9 1,
    midDepth := fieldOf h 10 1, outDepth := fieldOf h 11 1, keyset := fieldOf h 12 2, lweDim := fieldOf h 14 2,
    outScale := (BitVec.ofNat 32 (fieldOf h 16 4)).toInt, outNoise := fieldOf h 20 4, constHome := fieldOf h 24 8,
    rotCount := fieldOf h 32 4 }

/-- The fields of a plan on their own are in range (R141, R142). -/
def planFieldsOk (h : List Byte) : Bool :=
  let k := planOf h
  fieldOf h 0 4 == 0x7E1F5C3A && fieldOf h 4 1 == 1 && headerCrcOk h && k.kind ≤ 2 && 12 ≤ k.logN && k.logN ≤ 17 &&
    (if k.kind = 1 then k.logSlots == 0 else k.logSlots ≤ k.logN - 1) && k.top ≤ 59 && 1 ≤ k.inDepth && k.inDepth ≤ 8 &&
    1 ≤ k.midDepth && k.midDepth ≤ 16 && k.outDepth ≤ 8 && (k.kind != 2 || k.outDepth == 0) && k.keyset != 0 &&
    (k.kind == 2 || k.lweDim == 0) && inStack k.constHome 0 && (h.drop 36).take 88 == List.replicate 88 0 &&
    k.inDepth + k.midDepth + k.outDepth ≤ k.top && (k.kind == 1 || decide ((k.outNoise : Int) < k.outScale))

/-- A plan agrees with its key set (R142); a plan whose key set is not registered is refused. -/
def planAgrees (x : Part) (k : Plan) : Bool :=
  match x.keyset k.keyset with
  | none => false
  | some ks =>
    k.top + 1 ≤ ks.chain.length && (k.kind != 1 || (!ks.coeffPack && ks.t != 0 && ks.t ≤ 2 ^ 20)) &&
      (k.kind != 2 || (k.lweDim == ks.lweDim && ks.lweDim != 0))

/-- The header fields of a program container are in range (R289, R291). -/
def containerFieldsOk (h : List Byte) : Bool :=
  fieldOf h 0 4 == 0x52A70C5E && fieldOf h 4 1 == 1 && headerCrcOk h && fieldOf h 5 1 == 1 && fieldOf h 6 2 == 1 &&
    1 ≤ fieldOf h 8 1 && fieldOf h 8 1 ≤ 16 && 1 ≤ fieldOf h 9 1 && fieldOf h 9 1 ≤ 64 && fieldOf h 10 2 ≤ 4096 &&
    fieldOf h 12 4 % 0x10000 == 0 && fieldOf h 16 4 % 0x10000 == 0 && fieldOf h 20 4 % 0x10000 == 0 &&
    0x80000 ≤ fieldOf h 20 4 && fieldOf h 20 4 ≤ 0x4000000 && fieldOf h 16 4 + fieldOf h 20 4 ≤ fieldOf h 12 4 &&
    fieldOf h 24 8 % 128 == 0 && fieldOf h 40 8 % 128 == 0 && fieldOf h 48 8 % 128 == 0 &&
    (h.drop 60).take 64 == List.replicate 64 0

/-- Bytes of a container's resource table for MIN_ROOMS to 16 (R290). -/
def resourceOf (b : List Byte) (i : Nat) : Resource :=
  { rooms := fieldOf b (16 * i) 1, attic := fieldOf b (16 * i + 4) 4, cellar := fieldOf b (16 * i + 8) 8 }

/-- Every resource-table entry stands at its position with reserved bytes and bits zero (R290, R291). -/
def resourcesOk (b : List Byte) (minRooms : Nat) : Bool :=
  (List.range (17 - minRooms)).all (fun i =>
    fieldOf b (16 * i) 1 == minRooms + i && fieldOf b (16 * i + 1) 3 == 0 && fieldOf b (16 * i + 8) 8 < 2 ^ 36)

/-- Pieces of 128 bytes. -/
def lines128 : Nat → List Byte → List (List Byte)
  | 0, _ => []
  | n + 1, l => l.take 128 :: lines128 n (l.drop 128)

/-- The bytes of a container from its header to the last byte that its header names, which its digest covers (R381, log 53). -/
def containerBytes (h : List Byte) : Nat :=
  max (max 128 (fieldOf h 40 8 + 128 * fieldOf h 10 2)) (max (fieldOf h 48 8 + 16 * (17 - fieldOf h 8 1)) (fieldOf h 24 8 + fieldOf h 32 8))

/-- The program that a container's bytes hold (R289, R290). -/
def programOf (c : List Byte) (home : Nat) : Program :=
  { home := home, minRooms := fieldOf c 8 1, tokens := fieldOf c 9 1
    plans := (lines128 (fieldOf c 10 2) (sliceZ c (fieldOf c 40 8) (128 * fieldOf c 10 2))).map planOf, atticReserve := fieldOf c 12 4
    keyWindowBase := fieldOf c 16 4, keyWindowBytes := fieldOf c 20 4, bodyOff := fieldOf c 24 8, bodyBytes := fieldOf c 32 8, blocks := fieldOf c 56 4
    res := (List.range (17 - fieldOf c 8 1)).map (resourceOf (sliceZ c (fieldOf c 48 8) (16 * (17 - fieldOf c 8 1)))), digest := sha384 (sliceZ c 0 (containerBytes c)) }

/-- What PROGRAM_LOAD reads and decides (R291); the body is read whole for its integrity, and not interpreted. -/
def readProgram (s : State) (p : Nat) (q : Req) : State × Nat × Option Program :=
  let x := s.part p
  let home := q.field 0 8
  if !inStack home 128 then (s, stBadArgument, none)
  else
    match s.fwRead p 0 home 128 with
    | (t, none) => (t, stFailed, none)
    | (t, some h) =>
      let minRooms := fieldOf h 8 1
      let plans := fieldOf h 10 2
      let n := 17 - minRooms
      if !containerFieldsOk h || !inStack (home + fieldOf h 40 8) (128 * plans) || !inStack (home + fieldOf h 48 8) (16 * n) ||
          !inStack (home + fieldOf h 24 8) (fieldOf h 32 8) then (t, stBadArgument, none)
      else
        match t.fwRead p 0 (home + fieldOf h 40 8) (128 * plans), t.fwRead p 0 (home + fieldOf h 48 8) (16 * n) with
        | (_, some pb), (_, some rb) =>
          let ls := lines128 plans pb
          if ls.any (fun l => !planFieldsOk l || !planAgrees x (planOf l)) || !resourcesOk rb minRooms then (t, stBadArgument, none)
          else
            let res := (List.range n).map (resourceOf rb)
            let now := res.getD (x.rooms.length - minRooms) { rooms := 0, attic := 0, cellar := 0 }
            if x.rooms.length < minRooms || atticBytes < fieldOf h 12 4 || atticBytes < now.attic || stackBytes < now.cellar ||
                64 ≤ countSome x.programs then (t, stNoResource, none)
            else
              match t.fwRead p 0 home (containerBytes h) with
              | (u, some c) => (u, stOk, some (programOf c home))
              | (u, none) => (u, stFailed, none)
        | _, _ => (t, stFailed, none)

/-- The lowest number from `a`, among `n`, that a table does not hold. -/
def lowestFree {α : Type} (t : Tab (Option α)) (a n : Nat) : Nat :=
  ((List.range n).find? (fun i => (Tab.get none t (a + i)).isNone)).getD 0 + a

/-- PROGRAM_LOAD (R291): the handle is the lowest free one from 1 (log 17). -/
def execProgramLoad (f : FnId) (slot : SlotId) (s : State) : Host.Outcome State Fault Refusal :=
  .next (s.runCmd f slot (isOp 0x0301) (fun q =>
    let p := f.val - 1
    if s.hotStack p then .waits s else
    match readProgram s p q with
    | (t, 0, some g) =>
      let x := t.part p
      let h := lowestFree x.programs 1 64
      let total := ceilDiv g.bodyBytes 1024
      .ended ((t.setPart p { x with programs := Tab.set none x.programs h (some g) }).forward p 0x0301 q.body) stOk (leBytes 4 h)
        (progressPosition total) total
    | (t, st, _) => .fail t st))

/-! ## Jobs' ring and program release -/

/-- The offset of a ring entry (R304, R533). -/
def Fn.ringEntry (x : Fn) (i : Nat) : Nat := x.ringOff + 64 * (i % 64)

/-- The handles of the entries that the ring holds, oldest first (R305). -/
def State.queuedHandles (s : State) (p : Nat) : List Nat :=
  let x := s.fn (p + 1)
  (List.range (x.jobTail - x.jobHead).toNat).map (fun i =>
    leNat (s.readCellar ((s.part p).rooms.getD 0 0) (x.ringEntry (x.jobHead.toNat + i)) 4))

/-- The checks of PROGRAM_UNLOAD (R291). -/
def checkUnload (s : State) (p : Nat) (busy : Bool) (q : Req) : Nat :=
  let h := q.field 0 4
  if (Tab.get none (s.part p).programs h).isNone then stBadArgument
  else if busy || (s.queuedHandles p).contains h || (match (s.part p).job with | some j => j.program == h | none => false) then stBusy
  else stOk

/-- PROGRAM_UNLOAD (R291). -/
def execProgramUnload (f : FnId) (slot : SlotId) (s : State) : Host.Outcome State Fault Refusal :=
  .next (s.runCmd f slot (isOp 0x0302) (fun q =>
    let p := f.val - 1
    if checkUnload s p false q ≠ stOk then .fail s (checkUnload s p false q)
    else
      let x := s.part p
      .ok ((s.setPart p { x with programs := Tab.set none x.programs (q.field 0 4) none }).forward p 0x0302 q.body) []))

/-- The checks of JOB_RING_SET (R304, R331). -/
def checkRingSet (s : State) (f : Nat) (busy : Bool) (q : Req) : Nat :=
  let x := s.fn f
  if !inStack (q.field 0 8) 4096 then stBadArgument
  else if busy || x.jobHead ≠ x.jobTail || x.jobRunning then stBusy
  else stOk

/-- JOB_RING_SET (R304, R533). -/
def execJobRingSet (f : FnId) (slot : SlotId) (s : State) : Host.Outcome State Fault Refusal :=
  .next (s.runCmd f slot (isOp 0x0303) (fun q =>
    if checkRingSet s f false q ≠ stOk then .fail s (checkRingSet s f false q)
    else
      let x := s.fn f
      .ok ((s.setFn f { x with ringSet := true, ringOff := q.field 0 8, jobHead := 0, jobTail := 0 }).forward (f.val - 1) 0x0303
        q.body) []))

/-! ## Host buffers -/

/-- A registered host buffer of a function. -/
def State.hostBuf (s : State) (f h : Nat) : Option HostBuf := Tab.get none (s.fn f).hostBufs h

/-- The checks of HOSTBUF_REGISTER (R331). -/
def checkHostBuf (s : State) (f : Nat) (q : Req) : Nat :=
  let addr := q.field 0 8
  let n := q.field 8 8
  if addr % 4096 ≠ 0 || n % 4096 ≠ 0 || 2 ^ 40 < n || 2 ^ 64 < addr + n then stBadArgument
  else if 256 ≤ countSome (s.fn f).hostBufs then stNoResource
  else stOk

/-- HOSTBUF_REGISTER (R331): the handle is the lowest free one from 1 (log 17). -/
def execHostbufRegister (f : FnId) (slot : SlotId) (s : State) : Host.Outcome State Fault Refusal :=
  .next (s.runCmd f slot (isOp 0x0401) (fun q =>
    if checkHostBuf s f q ≠ stOk then .fail s (checkHostBuf s f q)
    else
      let x := s.fn f
      let h := lowestFree x.hostBufs 1 256
      let b : HostBuf := { addr := q.field 0 8, bytes := q.field 8 8, canWrite := bitOf (q.field 16 1) 0, canRead := bitOf (q.field 16 1) 1 }
      .ok (s.setFn f { x with hostBufs := Tab.set none x.hostBufs h (some b) }) (leBytes 2 h)))

/-- A stream of the partition uses a host buffer: a descriptor not yet complete, or one that waits, names it. -/
def State.bufStreaming (s : State) (p h : Nat) : Bool :=
  (s.part p).rooms.any (fun r => (s.room r).channels.any (fun c =>
    c.2.issued.any (fun d => d.desc.usesHost && d.desc.hostBuf == h) || c.2.queue.any (fun d => d.1.usesHost && d.1.hostBuf == h)))

/-- The checks of HOSTBUF_RELEASE (R331). -/
def checkBufRelease (s : State) (f : Nat) (busy : Bool) (q : Req) : Nat :=
  if (s.hostBuf f (q.field 0 2)).isNone then stBadArgument
  else if busy || (f ≠ 0 && s.bufStreaming (f - 1) (q.field 0 2)) then stBusy
  else stOk

/-- HOSTBUF_RELEASE (R331). -/
def execHostbufRelease (f : FnId) (slot : SlotId) (s : State) : Host.Outcome State Fault Refusal :=
  .next (s.runCmd f slot (isOp 0x0402) (fun q =>
    if checkBufRelease s f false q ≠ stOk then .fail s (checkBufRelease s f false q)
    else
      let x := s.fn f
      .ok (s.setFn f { x with hostBufs := Tab.set none x.hostBufs (q.field 0 2) none }) []))

/-- The bus address of a range of a host buffer that the module may read (`write` false) or write, or none when the range falls
outside the buffer or the permission is missing. -/
def State.hostRange (s : State) (f h off n : Nat) (isWrite : Bool) : Option Nat :=
  match s.hostBuf f h with
  | some b => if off + n ≤ b.bytes && (if isWrite then b.canWrite else b.canRead) then some (b.addr + off) else none
  | none => none

/-! ## Host copy (R333, R334) -/

/-- A segment of a host copy. -/
structure Segment where
  handle : Nat
  room : Nat
  dir : Nat
  hostOff : Nat
  cellarOff : Nat
  bytes : Nat
deriving DecidableEq, Repr

/-- The segments of a request (R333). -/
def segments (q : Req) : List Segment :=
  (List.range (min 14 (q.field 0 1))).map (fun i =>
    let o := 8 + 32 * i
    { handle := q.field o 2, room := q.field (o + 2) 1, dir := q.field (o + 3) 1, hostOff := q.field (o + 8) 8,
      cellarOff := q.field (o + 16) 8, bytes := q.field (o + 24) 8 })

/-- A segment passes the tests of R333. -/
def State.segOk (s : State) (f : Nat) (g : Segment) : Bool :=
  g.dir ≤ 1 && decide (g.room < (s.part (f - 1)).rooms.length) && inStack g.cellarOff g.bytes &&
    (s.hostRange f g.handle g.hostOff g.bytes (g.dir == 1)).isSome

/-- The checks of HOST_COPY: every segment is validated before any byte moves (R333). -/
def checkHostCopy (s : State) (f : Nat) (busy : Bool) (q : Req) : Nat :=
  let n := q.field 0 1
  if n = 0 || 14 < n || (segments q).any (fun g => !s.segOk f g) || (List.range 14).any (fun i => n ≤ i && q.field (8 + 32 * i) 32 != 0)
  then stBadArgument
  else if busy then stBusy
  else stOk

/-- A host copy in progress: the state, the host bytes still to come, segments and bytes done, and whether an error stopped it. -/
structure CopyRun where
  st : State
  rest : List Byte
  segs : Nat
  bytes : Nat
  failed : Bool

/-- One line piece of a segment moves (R230, R333): offset within the segment and length. -/
def copyPiece (f p r : Nat) (g : Segment) (addr : Nat) (a : CopyRun) (pc : Nat × Nat) : CopyRun :=
  if a.failed then a
  else if g.dir = 0 then
    let d := sliceZ a.rest 0 pc.2
    let w := a.st.cellarWrite r (g.cellarOff + pc.1) d
    if w.2 then
      let x := w.1.part p
      let t := if x.isLeader then
          w.1.emit (.mirror 1 x.pair.peerModule x.pair.peerPart (inputBytes g.room 1 0 (g.cellarOff + pc.1) d))
        else w.1
      { a with st := t, rest := a.rest.drop pc.2, bytes := a.bytes + pc.2 }
    else { a with st := w.1, failed := true }
  else
    match a.st.cellarRead r (g.cellarOff + pc.1) pc.2 with
    | (t, some d) => { a with st := t.emit (.hostWrite f (addr + pc.1) d), bytes := a.bytes + pc.2 }
    | (t, none) => { a with st := t, failed := true }

/-- One segment moves (R333). -/
def copySegment (f p : Nat) (a : CopyRun) (g : Segment) : CopyRun :=
  if a.failed then a
  else
    let r := (a.st.part p).rooms.getD g.room 0
    let addr := (a.st.hostRange f g.handle g.hostOff g.bytes (g.dir == 1)).getD 0
    let b := (linePieces g.cellarOff g.bytes).foldl (copyPiece f p r g addr) a
    if b.failed then b else { b with segs := b.segs + 1 }

/-- A copy waits for an earlier one of its function, in doorbell order (R333). -/
def State.copyBehind (s : State) (f k : Nat) : Bool :=
  (List.range 8).any (fun j =>
    let x := (s.fn f).slot j
    j != k && x.state == .running && x.req.op == 0x0403 && decide (x.order < ((s.fn f).slot k).order))

/-- HOST_COPY (R333, R334): `hostIn` holds what the module reads from the host's buffers, segment after segment. The partition's copy
ends with FAILED at the first line that a read or a merge cannot serve; what was moved stands (R325). The functions' copies share the engine
in time alone (log 88). -/
def execHostCopy (f : FnId) (slot : SlotId) (hostIn : List Byte) (s : State) : Host.Outcome State Fault Refusal :=
  .next (s.runCmd f slot (isOp 0x0403) (fun q =>
    let p := f.val - 1
    if checkHostCopy s f false q ≠ stOk then .fail s (checkHostCopy s f false q)
    else if s.copyBehind f slot || s.hotStack p then .waits s
    else
      let a := (segments q).foldl (copySegment f p) { st := s, rest := hostIn, segs := 0, bytes := 0, failed := false }
      let total := ceilDiv (((segments q).map (·.bytes)).sum) 4096
      let t := if (segments q).any (fun g => g.dir == 1) then a.st.emit (.hostFlush f) else a.st
      .ended (t.raise 178) (if a.failed then stFailed else stOk) (leBytes 8 a.segs ++ leBytes 8 a.bytes)
        (progressPosition (if a.failed then a.bytes / 4096 else total)) total))

/-! ## The ledger (R337, R338, R467 to R470) -/

/-- A ledger entry as 32 bytes (R468). -/
def LedgerEntry.bytes (e : LedgerEntry) : List Byte :=
  leBytes 8 e.time ++ leBytes 2 e.code ++ [e.cls] ++ leBytes 1 e.part ++ leBytes 1 e.room ++ leBytes 1 e.unit ++
    leBytes 2 (min 0xFFFF e.count) ++ leBytes 8 e.where_ ++ leBytes 6 e.block ++ leBytes 1 e.cause ++ leBytes 1 0

/-- The entries that a drain returns: from max(FROM, W − 16,384), at most MAX (R337). -/
def Ledger.drainFrom (l : Ledger) (from_ : Nat) : Nat := max from_ (l.w - 16384)
/-- How many entries a drain returns. -/
def Ledger.drainCount (l : Ledger) (from_ max_ : Nat) : Nat := min max_ (l.w - l.drainFrom from_)

/-- The response of LEDGER_DRAIN (R337). -/
def Ledger.drainBytes (l : Ledger) (from_ max_ : Nat) : List Byte :=
  let first := l.drainFrom from_
  let n := l.drainCount from_ max_
  leBytes 8 first ++ leBytes 4 n ++ leBytes 4 l.lost.toNat ++ leBytes 8 (first + n) ++
    (List.range n).flatMap (fun i =>
      match Tab.get none l.entries ((first + i) % 16384) with
      | some e => e.bytes
      | none => List.replicate 32 0)

/-- ACK moves the drained cursor forward only, and never past W (R337). -/
def Ledger.ack (l : Ledger) (from_ : Nat) : Ledger := { l with d := max l.d (min from_ l.w) }

/-- MAX of a drain (R337). -/
def checkDrain (q : Req) : Nat := if 1 ≤ q.field 8 1 && q.field 8 1 ≤ 14 then stOk else stBadArgument

/-- LEDGER_DRAIN (R337). -/
def execLedgerDrain (f : FnId) (slot : SlotId) (s : State) : Host.Outcome State Fault Refusal :=
  .next (s.runCmd f slot (isOp 0x0510) (fun q =>
    if checkDrain q ≠ stOk then .fail s (checkDrain q)
    else
      let l := s.gysis.ledger
      let t := if bitOf (q.field 9 1) 0 then { s with gysis := { s.gysis with ledger := l.ack (q.field 0 8) } } else s
      .ok t (l.drainBytes (q.field 0 8) (q.field 8 1))))

/-- The response of LEDGER_STATS (R338). -/
def Ledger.statsBytes (l : Ledger) : List Byte :=
  let c := (List.range 17).map (fun f => (Tab.get 0 l.viol f).toNat)
  leBytes 8 l.w ++ leBytes 8 l.d ++ leBytes 4 l.lost.toNat ++ leBytes 4 (min (2 ^ 32 - 1) c.sum) ++ c.flatMap (leBytes 4)

/-- LEDGER_STATS (R338). -/
def execLedgerStats (f : FnId) (slot : SlotId) (s : State) : Host.Outcome State Fault Refusal :=
  .next (s.runCmd f slot (isOp 0x0511) (fun _ => .ok s s.gysis.ledger.statsBytes))

/-- One entry is written at W (R337, R470): an overwritten entry at or beyond D counts in LOST, and source 195 is raised each
time W − D reaches 12,288. An entry with the IRQ bit sets INT_STATUS.LEDGER of PF0 (R352). -/
def State.writeEntry (s : State) (e : LedgerEntry) : State :=
  let l := s.gysis.ledger
  let lost := if 16384 ≤ l.w && l.d ≤ l.w - 16384 then satInc l.lost else l.lost
  let t := { s with gysis := { s.gysis with ledger :=
    { l with w := l.w + 1, lost := lost, entries := Tab.set none l.entries (l.w % 16384) (some e) } } }
  let u := if l.w + 1 - l.d = 12288 then t.raise 195 else t
  if e.cls.getLsbD 4 then u.setCause 0 2 else u

/-- LEDGER_WRITE (R467): the oldest decision not yet entered is written. -/
def execLedgerWrite (s : State) : Host.Outcome State Fault Refusal :=
  .next
    (match s.gysis.ledger.todo with
    | [] => s
    | e :: rest => { s with gysis := { s.gysis with ledger := { s.gysis.ledger with todo := rest } } }.writeEntry e)

end Sys2Proof.Machine
end

