-- ==== Sys2Proof/Machine/Label.lean ====
section
/-! DEFINITION. Labels (03): their 64 bytes, the two stages of validation, the fields a result takes from its inputs, the label
arithmetic of R70 and R145, and the budget tests. -/

namespace Sys2Proof.Machine

/-! ## Poison causes (R75) -/

/-- NONCANONICAL. -/
def cNoncanonical : Nat := 0x01
/-- CHECK_MISMATCH. -/
def cCheck : Nat := 0x02
/-- MEMORY. -/
def cMemory : Nat := 0x03
/-- BAD_LABEL. -/
def cBadLabel : Nat := 0x04
/-- FORM_MISMATCH. -/
def cForm : Nat := 0x05
/-- RING_MISMATCH. -/
def cRing : Nat := 0x06
/-- KEYSET_MISMATCH. -/
def cKeyset : Nat := 0x07
/-- LEVEL_MISMATCH. -/
def cLevel : Nat := 0x08
/-- SCALE_MISMATCH. -/
def cScale : Nat := 0x09
/-- REPRESENTATION. -/
def cRepr : Nat := 0x0A
/-- LEVEL_EXHAUSTED. -/
def cExhausted : Nat := 0x0B
/-- SCALE_OVERFLOW. -/
def cOverflow : Nat := 0x0C
/-- NOISE_EXHAUSTED. -/
def cNoise : Nat := 0x0D
/-- MISSING_KEY. -/
def cMissing : Nat := 0x0E
/-- LUT_RANGE. -/
def cLut : Nat := 0x0F

/-! ## The bytes of a label (R63) -/

/-- A label with every field zero. -/
def Label.zero : Label :=
  { form := 0, logN := 0, check := false, poison := false, repr := false, limbs := 0, level := 0, polys := 0, layout := 0, home := 0,
    keyset := 0, cause := 0, scale := 0, noise := 0, producer := 0, info := List.replicate 16 0, bodyBytes := 0 }

/-- The first 60 bytes of a label. -/
def Label.head (l : Label) : List Byte :=
  leBytes 4 0x3D94A1E6 ++ leBytes 1 1 ++ leBytes 1 l.form ++ leBytes 1 l.logN ++
    leBytes 1 ((if l.check then 1 else 0) + (if l.poison then 2 else 0) + (if l.repr then 4 else 0)) ++ leBytes 1 l.limbs ++
    leBytes 1 l.level ++ leBytes 1 l.polys ++ leBytes 1 (l.layout % 16 + l.home % 16 * 16) ++ leBytes 2 l.keyset ++
    leBytes 1 l.cause ++ leBytes 1 0 ++ leBytes 4 (BitVec.ofInt 32 l.scale).toNat ++ leBytes 4 l.noise ++ leBytes 8 l.producer ++
    sliceZ l.info 0 16 ++ leBytes 8 l.bodyBytes ++ leBytes 4 0

/-- The 64 bytes of a label with its CRC. -/
def Label.bytes (l : Label) : List Byte := l.head ++ leBytes 4 (crc32c l.head)

/-- The fields of 64 label bytes. -/
def labelOf (b : List Byte) : Label :=
  { form := fieldOf b 5 1, logN := fieldOf b 6 1, check := bitOf (fieldOf b 7 1) 0, poison := bitOf (fieldOf b 7 1) 1,
    repr := bitOf (fieldOf b 7 1) 2, limbs := fieldOf b 8 1, level := fieldOf b 9 1, polys := fieldOf b 10 1,
    layout := fieldOf b 11 1 % 16, home := fieldOf b 11 1 / 16, keyset := fieldOf b 12 2, cause := fieldOf b 14 1,
    scale := (BitVec.ofNat 32 (fieldOf b 16 4)).toInt, noise := fieldOf b 20 4, producer := fieldOf b 24 8,
    info := sliceZ b 32 16, bodyBytes := fieldOf b 48 8 }

/-- LOG_SLOTS of a form 0 label (R68). -/
def Label.logSlots (l : Label) : Nat := fieldOf l.info 0 1
/-- T of a form 1 label. -/
def Label.t (l : Label) : Nat := fieldOf l.info 0 4
/-- DIM of a form 2 label. -/
def Label.dim (l : Label) : Nat := fieldOf l.info 0 2
/-- COUNT of a form 2 label. -/
def Label.count (l : Label) : Nat := fieldOf l.info 4 4
/-- ELEM of a form 3 label. -/
def Label.elem (l : Label) : Nat := fieldOf l.info 0 1
/-- RANK of a form 3 label. -/
def Label.rank (l : Label) : Nat := fieldOf l.info 1 1
/-- DIMi of a form 3 label. -/
def Label.tdim (l : Label) (i : Nat) : Nat := fieldOf l.info (4 + 3 * i) 3
/-- The number of elements of a form 3 label. -/
def Label.elements (l : Label) : Nat := l.tdim 0 * l.tdim 1 * l.tdim 2 * l.tdim 3
/-- The number of coefficients. -/
def Label.n (l : Label) : Nat := 2 ^ l.logN
/-- G = 128·log2 N (R70). -/
def Label.g (l : Label) : Nat := 128 * l.logN

/-! ## Validation (R65) -/

/-- The first stage of R65: MAGIC, VERSION and CRC. -/
def stageOne (b : List Byte) : Bool :=
  fieldOf b 0 4 == 0x3D94A1E6 && fieldOf b 4 1 == 1 && fieldOf b 60 4 == crc32c (b.take 60)

/-- The FORM_INFO of a form is in range and its unlisted bytes are zero (R68). DESIGN CHOICE (log 79): a DIM of a tensor is at least 1; R68 gives it
24 bits and states no range. -/
def infoOk (b : List Byte) (l : Label) : Bool :=
  let zero (off n : Nat) : Bool := (b.drop off).take n == List.replicate n 0
  match l.form with
  | 0 => l.logSlots + 1 ≤ l.logN && zero 33 15
  | 1 => 2 ≤ l.t && l.t ≤ 2 ^ 30 && fieldOf l.info 4 1 ≤ 1 && zero 37 11
  | 2 => 512 ≤ l.dim && l.dim ≤ 2048 && zero 34 2 && 1 ≤ l.count && l.count ≤ 2 ^ 24 && zero 40 8
  | _ => l.elem ≤ 6 && 1 ≤ l.rank && l.rank ≤ 4 && zero 34 2 &&
      (List.range 4).all (fun i => 1 ≤ l.tdim i && (i < l.rank || l.tdim i == 1))

/-- The second stage of R65 on a label whose POISON is clear, in a partition of `rooms` rooms (with R64, R70, R80, R150). -/
def stageTwo (b : List Byte) (rooms : Nat) : Bool :=
  let l := labelOf b
  fieldOf b 7 1 < 8 && fieldOf b 15 1 == 0 && fieldOf b 56 4 == 0 && l.cause == 0 && l.form ≤ 3 && l.home < rooms && infoOk b l &&
    (if l.form ≤ 1 then
      12 ≤ l.logN && l.logN ≤ 17 && 1 ≤ l.limbs && l.limbs ≤ 60 && l.level + 1 ≤ l.limbs && 1 ≤ l.polys && l.polys ≤ 3 &&
        l.layout ≤ 1 && l.keyset != 0 && (l.form == 0 || l.scale == 0)
    else if l.form = 2 then
      l.logN == 0 && l.limbs == 1 && l.level == 0 && l.polys == 1 && l.layout ≤ 1 && l.keyset != 0 && !l.check && !l.repr
    else
      l.logN == 0 && l.limbs == 0 && l.level == 0 && l.polys == 0 && (l.layout == 1 || l.layout == 2) && l.keyset == 0 &&
        !l.check && !l.repr && l.scale == 0 && l.noise == 0)

/-- An input label as the sequencer takes it: its fields, whether it passed the first stage, and whether it is valid. -/
structure LabelIn where
  lab : Label
  one : Bool
  ok : Bool
deriving DecidableEq, Repr

/-- An input label of 64 bytes in a partition of `rooms` rooms. -/
def labelIn (b : List Byte) (rooms : Nat) : LabelIn :=
  { lab := labelOf b, one := stageOne b, ok := stageOne b && ((labelOf b).poison || stageTwo b rooms) }

/-- The input is poisoned (R65). -/
def LabelIn.poisoned (x : LabelIn) : Bool := x.one && x.lab.poison
/-- The fields that a result may take from an input (R76): none of one that failed the first stage. -/
def LabelIn.source (x : LabelIn) : Label := if x.one then x.lab else Label.zero

/-- The cause that the inputs give (R77), with whether the result is newly poisoned (R78): none when every input is sound. -/
def inputCause : List LabelIn → Option (Nat × Bool)
  | [] => none
  | x :: t => if !x.ok then some (cBadLabel, true) else if x.poisoned then some (x.lab.cause, false) else inputCause t

/-- The lead input of R561. -/
def leadOf : List LabelIn → Label
  | [] => Label.zero
  | x :: t => (t.foldl (fun (a : LabelIn) y => if a.lab.polys < y.lab.polys then y else a) x).source

/-! ## Placement (R85, R86) -/

/-- The limb pairs of an object of form 0 or 1. -/
def Label.pairs (l : Label) : Nat := l.limbs + (if l.check then 1 else 0)
/-- The room index that holds limb pair j. -/
def Label.pairRoom (l : Label) (rooms j : Nat) : Nat := if l.layout = 1 then l.home else j % rooms
/-- The position of pair j among the pairs of its room. -/
def Label.pairRank (l : Label) (rooms j : Nat) : Nat := if l.layout = 1 then j else j / rooms
/-- Offset of the limb of pair j and polynomial q from the label line. -/
def Label.limbOff (l : Label) (rooms j q : Nat) : Nat := 128 + (l.pairRank rooms j * l.polys + q) * (4 * l.n)
/-- The body bytes of R85 for a label of form 0 or 1. -/
def Label.body (l : Label) (rooms : Nat) : Nat :=
  (if l.layout = 1 then l.pairs else ceilDiv l.pairs rooms) * l.polys * (4 * l.n)
/-- The limb pairs in use: 0 to LEVEL and the check limb. -/
def Label.inUse (l : Label) : List Nat := List.range (l.level + 1) ++ (if l.check then [l.limbs] else [])
/-- Bytes of one LWE sample (R83). -/
def sampleBytes (dim : Nat) : Nat := 128 * ceilDiv (4 * (dim + 1)) 128
/-- The room index that holds sample i of a form 2 object. -/
def Label.sampleRoom (l : Label) (rooms i : Nat) : Nat := if l.layout = 1 then l.home else i % rooms
/-- Offset of sample i from the label line. -/
def Label.sampleOff (l : Label) (rooms i : Nat) : Nat :=
  128 + (if l.layout = 1 then i else i / rooms) * sampleBytes l.dim
/-- The body bytes of R85 for a form 2 label. -/
def Label.bodyLwe (l : Label) (rooms : Nat) : Nat :=
  (if l.layout = 1 then l.count else ceilDiv l.count rooms) * sampleBytes l.dim

/-! ## Label arithmetic (R69, R70, R73) -/

/-- 256·log2 c rounded up. -/
def ceil256 (c : Nat) : Nat := if c ≤ 1 then 0 else (c ^ 256 - 1).log2 + 1
/-- Λ(Q_ℓ) of a key set (R69). -/
def KeySet.lamQ (k : KeySet) (level : Nat) : Nat := lambdaSum (k.chain.take (level + 1))
/-- Λ(q_ℓ) of a key set. -/
def KeySet.lam1 (k : KeySet) (level : Nat) : Nat := lambdaSum ((k.chain.drop level).take 1)
/-- τ = 256·log2 t rounded up (R70). -/
def KeySet.tau (k : KeySet) : Nat := ceil256 k.t

/-- A NOISE value: unsigned, saturating at 32 bits. -/
def satNoise (v : Int) : Nat := min (2 ^ 32 - 1) v.toNat

/-- The key set of an object is registered and covers it: its ring, its level, its LWE prime (log 20). -/
def KeySet.covers (k : KeySet) (l : Label) : Bool :=
  if l.form ≤ 1 then decide (l.logN ≤ k.logN) && decide (l.level < k.chain.length) else k.lweP.isSome

/-- T of a form 1 object differs from the plaintext modulus of its registered key set (R68). -/
def Part.wrongT (x : Part) (l : Label) : Bool := l.form == 1 && (x.keyset l.keyset).any (fun k => l.t != k.t)

/-- An operation that works on check limbs, since every one of its inputs carries one (R74), meets a registered key set that names no check prime (log 20). A key
switch does not: it leaves the check limb out (R74). -/
def checkCause (k : Option KeySet) (labs : List Label) : Option Nat :=
  if !labs.isEmpty && labs.all (·.check) && k.any (fun y => y.checkP.isNone) then some cKeyset else none

/-- A result of form 0 or 1 fails a budget test of R73, or of form 2 that of R150. -/
def budgetCause (k : KeySet) (l : Label) : Option Nat :=
  if l.form = 0 then
    if (k.lamQ l.level : Int) ≤ l.scale + 256 then some cOverflow
    else if l.scale ≤ (l.noise : Int) then some cNoise
    else none
  else if l.form = 1 then
    if (k.lamQ l.level : Int) - k.tau - 256 ≤ l.noise then some cNoise else none
  else if l.form = 2 then
    if l.scale ≤ (l.noise : Int) + 256 then some cNoise else none
  else none

/-- What the sequencer decides at dispatch for one room: the label it will write, whether the operation ends there with that label
alone (R76), and whether the result is newly poisoned. -/
structure Decision where
  lab : Label
  ends : Bool
  fresh : Bool
deriving DecidableEq, Repr

/-- The label of an operation that ends at dispatch (R76): the result's fields with LEVEL, SCALE and NOISE zero and every flag but
POISON clear. -/
def Label.ended (l : Label) (cause : Nat) : Label :=
  { l with poison := true, cause := cause, level := 0, scale := 0, noise := 0, check := false, repr := false }

/-- The operation ends at dispatch. -/
def Decision.stop (l : Label) (cause : Nat) (fresh : Bool) : Decision := { lab := l.ended cause, ends := true, fresh := fresh }
/-- The operation runs and writes a label. -/
def Decision.go (l : Label) : Decision := { lab := l, ends := false, fresh := false }

/-- The operation runs unless its result label fails a budget test (R73). -/
def Decision.budget (k : KeySet) (l : Label) : Decision :=
  match budgetCause k l with
  | some c => .stop l c true
  | none => .go l

/-- A result's BODY_BYTES (R561). -/
def Label.sized (l : Label) (rooms : Nat) : Label :=
  if l.form ≤ 1 then { l with bodyBytes := l.body rooms } else l

/-- The result's fields that R561 and R74 give, before R70: `polys` overrides POLYS. -/
def baseLabel (ins : List LabelIn) (polys : Option Nat) (rooms : Nat) : Label :=
  let l := leadOf ins
  ({ l with polys := polys.getD l.polys, check := ins.all (fun x => x.source.check), poison := false, cause := 0 } : Label).sized rooms

/-- Conditions 1 and 2 of R71 for two inputs of an operation: `product` 0 add or subtract, 1 multiply by plaintext, 2 tensor product. T of
a form 1 input must equal the t of its registered key set, which is part of condition 1 (R68). -/
def pairShape (k : Option KeySet) (product : Nat) (a b : Label) : Option Nat :=
  let wrongT (l : Label) : Bool := l.keyset == a.keyset && k.any (fun y => l.t != y.t)
  if a.form ≠ b.form || 1 < a.form || (a.form = 1 && (wrongT a || wrongT b)) ||
      (product = 2 && (a.polys ≠ 2 || b.polys ≠ 2)) || (product = 1 && (b.polys ≠ 1 || a.polys < 2)) then some cForm
  else if a.logN ≠ b.logN then some cRing
  else none

/-- The six conditions of R71 in their order, under the key set of the first input. -/
def pairCause (k : KeySet) (product : Nat) (a b : Label) : Option Nat :=
  match pairShape (some k) product a b with
  | some c => some c
  | none =>
    if a.keyset ≠ b.keyset || (a.form = 1 && a.t ≠ b.t) then some cKeyset
    else if a.form = 1 && a.level ≠ b.level then some cLevel
    else if product = 0 && a.form = 0 && a.scale ≠ b.scale then some cScale
    else if a.repr ≠ b.repr || (product ≠ 0 && !a.repr) then some cRepr
    else none

/-- A single input has a form and a number of polynomials that the operation takes, and T agrees in form 1 (R68, R98, R105, R145). -/
def formOk (k : KeySet) (forms polys : List Nat) (l : Label) : Bool :=
  forms.contains l.form && polys.contains l.polys && (l.form != 1 || l.t == k.t)

/-- The key set that an input label names. -/
def Part.ksOf (x : Part) (l : Label) : Option KeySet :=
  match x.keyset l.keyset with
  | some k => if k.covers l then some k else none
  | none => none

/-- A result label whose CHECK follows from its key set as well (R74, R146): a key set without a check prime leaves it clear, and BODY_BYTES follows. -/
def Part.checked (x : Part) (l : Label) : Label :=
  ({ l with check := l.check && (x.keyset l.keyset).any (fun k => k.checkP.isSome) } : Label).sized x.rooms.length

/-- A decision over inputs: the inputs' own cause first (R77), then FORM, then what `early` finds before the key set is looked at (conditions 1 and 2
of R71, R150), then the operation's rule on the labels under the key set of the first input. An input that no registered key set covers ends the
operation with KEYSET_MISMATCH (log 20). -/
def dispatchOn (x : Part) (ins : List LabelIn) (base : Label) (forms : List Nat) (rule : KeySet → List Label → Decision)
    (early : Option KeySet → List Label → Option Nat := fun _ _ => none) : Decision :=
  match inputCause ins with
  | some (c, fresh) => .stop base c fresh
  | none =>
    let labs := ins.map (·.lab)
    if labs.any (fun l => !forms.contains l.form) then .stop base cForm true
    else
      match early (x.keyset (labs.headD Label.zero).keyset) labs, x.ksOf (labs.headD Label.zero) with
      | some c, _ => .stop base c true
      | none, some k => rule k labs
      | none, none => .stop base cKeyset true

end Sys2Proof.Machine
end

