-- ==== Sys2Proof/Machine/Objects.lean ====
section
/-! DEFINITION. Objects in the attic and the cellar (03, 08, 09): the spans of bytes an operation reads, the errors those reads
meet, and how a Rinzo operation runs in the rooms of a partition (R65, R76, R78, R87, R459). -/

namespace Sys2Proof.Machine

/-- A run of bytes of one room's attic or of its stack. -/
structure Span where
  room : Nat
  cellar : Bool
  off : Nat
  len : Nat
deriving DecidableEq, Repr

/-- A span reaches beyond its space (R188, R216). -/
def Span.outside (x : Span) : Bool := decide ((if x.cellar then stackBytes else atticBytes) < x.off + x.len)

/-- A byte of a span has a parity error, or a burst of it is uncorrectable, or a line of it is lost (R199, R230, R231). -/
def State.spanBad (s : State) (x : Span) : Bool :=
  if x.cellar then
    (linesOf x.off x.len).any (fun l => s.lineLost x.room (l * 128) || (burstsOf l).any (s.burstBad x.room))
  else s.mem.atticBad.any (fun c => c.2 && decide (atticKey x.room x.off ≤ c.1) && decide (c.1 < atticKey x.room x.off + x.len))

/-- The pieces of 32 bytes of a span that comes through the pantry port, without those of a listed line, for which no command is issued (R160, R228, R231). -/
def State.pieces (s : State) (x : Span) : List Nat :=
  ((List.range (ceilDiv (x.off % 32 + x.len) 32)).map (fun i => x.off / 32 * 32 + 32 * i)).filter (fun o => !s.lineLost x.room o)

/-- A piece of a span is uncorrectable or lies in a lost line (R228, R231): each piece is checked for itself. -/
def State.pieceBad (s : State) (x : Span) : Bool :=
  (linesOf x.off x.len).any (fun l => s.lineLost x.room (l * 128)) || (s.pieces x).any (s.burstBad x.room)

/-- A span that an operation reads meets an error; those of `port` come in pieces. -/
def State.readBad (s : State) (port : List Span) (x : Span) : Bool := if port.contains x then s.pieceBad x else s.spanBad x

/-- The bytes of a span as a read returns them: zero for a lost line (R459). -/
def State.spanBytes (s : State) (x : Span) : List Byte :=
  if !x.cellar then s.readAttic x.room x.off x.len
  else if (s.stack x.room).lost.isEmpty then s.readCellar x.room x.off x.len
  else (linesOf x.off x.len).flatMap (fun l =>
    let lo := max x.off (l * 128)
    let n := min (x.off + x.len) (l * 128 + 128) - lo
    if s.lineLost x.room lo then List.replicate n 0 else s.readCellar x.room lo n)

/-- The bytes of a span that lie in a line. -/
def Span.within (x : Span) (line : Nat) : Span :=
  let lo := max x.off (line * 128)
  { x with off := lo, len := min (x.off + x.len) (line * 128 + 128) - lo }

/-- The counters of the rooms and stacks that serve a read: attic lines, and parity errors of the bytes returned, by line (R198, R199); lines and bursts of the cellar (R241). A lost line
issues no command and counts nothing (R231). -/
def State.countRead (s : State) (x : Span) : State :=
  if x.cellar then
    let y := s.stack x.room
    let ls := (linesOf x.off x.len).filter (fun l => !s.lineLost x.room (l * 128))
    (s.setStack x.room { y with counters := { y.counters with linesRd := y.counters.linesRd + BitVec.ofNat 48 ls.length } }).countEcc x.room
        (ls.flatMap burstsOf)
  else
    let ls := linesOf x.off x.len
    let bad := ls.filter (fun l => s.spanBad (x.within l))
    let y := s.room x.room
    s.setRoom x.room { y with counters := { y.counters with
      linesRd := y.counters.linesRd + BitVec.ofNat 48 ls.length, parityErr := satAdd y.counters.parityErr bad.length } }

/-- Bytes of a stack that reach the room through its pantry port, in pieces of 32 bytes (R160, R241). -/
def State.countPieces (s : State) (x : Span) : State :=
  let y := s.stack x.room
  (s.setStack x.room { y with counters := { y.counters with pantry := y.counters.pantry + BitVec.ofNat 48 (s.pieces x).length } }).countEcc x.room (s.pieces x)

/-- Lines of an attic that a foreground write touches (R198). -/
def State.countAtticWr (s : State) (room off n : Nat) : State :=
  let x := s.room room
  s.setRoom room { x with counters := { x.counters with linesWr := x.counters.linesWr + BitVec.ofNat 48 (linesOf off n).length } }

/-- A write of a span (R190, R230): in the cellar a line that a merge cannot serve is not written. -/
def State.writeSpan (s : State) (room : Nat) (cellar : Bool) (off : Nat) (data : List Byte) : State :=
  if cellar then (s.cellarWrite room off data).1 else s.writeAttic room off data

/-! ## The digest (R439 to R441) -/

/-- The partition is a twin whose blocks are compared (R439, R443, R447). -/
def Part.paired (x : Part) : Bool := x.pair.state == .syncing || x.pair.state == .dual || x.pair.state == .standby

/-- One term of the digest (R439): space code, room index, offset of the line, byte mask, and the line with the bytes that the mask does not
enable set to zero. The widths of the first two, one byte each, are the model's (log 34). -/
def digestTerm (space rel line : Nat) (lo : Nat) (data : List Byte) : List Byte :=
  leBytes 1 space ++ leBytes 1 rel ++ leBytes 8 (line * 128) ++ leBytes 16 ((2 ^ data.length - 1) * 2 ^ lo) ++
    List.replicate lo 0 ++ data ++ List.replicate (128 - lo - data.length) 0

/-- A block's digest sums after one more term. -/
def Block.term (b : Block) (t : List Byte) : Block := { b with d1 := b.d1 + crcD1 t, d2 := b.d2 + crcD2 t }

/-- A run of bytes enters the digest of the block that a room of a twin runs, line by line. -/
def State.digest (s : State) (p room space rel off : Nat) (data : List Byte) : State :=
  match (s.room room).block with
  | some b =>
    if (s.part p).paired then
      s.setRoom room { s.room room with block := some ((linePieces off data.length).foldl
        (fun c q => c.term (digestTerm space rel ((off + q.1) / 128) ((off + q.1) % 128) ((data.drop q.1).take q.2))) b) }
    else s
  | none => s

/-- The index of a physical room in its partition. -/
def Part.relOf (x : Part) (room : Nat) : Nat := x.rooms.findIdx (· == room)

/-- A room writes a run of its own attic or stack, which enters its digest. -/
def State.putRun (s : State) (p room : Nat) (cellar : Bool) (off : Nat) (data : List Byte) : State :=
  let t := s.writeSpan room cellar off data
  (if cellar then t else t.countAtticWr room off data.length).digest p room (if cellar then 1 else 0) ((s.part p).relOf room) off data

/-- A room writes a run of its own attic. -/
def State.putAttic (s : State) (room off : Nat) (data : List Byte) : State :=
  match s.ownerOf room with
  | some p => s.putRun p room false off data
  | none => (s.writeAttic room off data).countAtticWr room off data.length

/-- A room writes a label line: its digest takes PRODUCER as zero (R440), and with it the CRC of such a label (log 34). -/
def State.putLabel (s : State) (p room : Nat) (pl : Place) (lab : Label) : State :=
  let rest := s.spanBytes { room := room, cellar := pl.cellar, off := pl.off + 64, len := 64 }
  let t := s.writeSpan room pl.cellar pl.off (lab.bytes ++ rest)
  (if pl.cellar then t else t.countAtticWr room pl.off 128).digest p room (if pl.cellar then 1 else 0) ((s.part p).relOf room) pl.off
    ({ lab with producer := 0 }.bytes ++ rest)

/-! ## Objects -/

/-- The physical room of a partition's room index. -/
def Part.roomAt (x : Part) (i : Nat) : Nat := x.rooms.getD i 0

/-- The span of the label line's label in a room. -/
def Place.labelSpan (pl : Place) (room : Nat) : Span := { room := room, cellar := pl.cellar, off := pl.off, len := 64 }

/-- The label of a place as a room of the partition reads its own copy. -/
def State.labelAt (s : State) (x : Part) (room : Nat) (pl : Place) : LabelIn :=
  labelIn (s.spanBytes (pl.labelSpan room)) x.rooms.length

/-- The span of limb (j, q) of an object. -/
def limbSpan (x : Part) (l : Label) (pl : Place) (j q : Nat) : Span :=
  { room := x.roomAt (l.pairRoom x.rooms.length j), cellar := pl.cellar, off := pl.off + l.limbOff x.rooms.length j q, len := 4 * l.n }

/-- The words of limb (j, q) of an object. -/
def State.limb (s : State) (x : Part) (l : Label) (pl : Place) (j q : Nat) : List Nat := wordsOf (s.spanBytes (limbSpan x l pl j q))

/-- The spans of the limbs in use of an object. -/
def objSpans (x : Part) (l : Label) (pl : Place) : List Span :=
  l.inUse.flatMap (fun j => (List.range l.polys).map (limbSpan x l pl j))

/-- The span of sample i of a form 2 object. -/
def sampleSpan (x : Part) (l : Label) (pl : Place) (i : Nat) : Span :=
  { room := x.roomAt (l.sampleRoom x.rooms.length i), cellar := pl.cellar, off := pl.off + l.sampleOff x.rooms.length i, len := 4 * (l.dim + 1) }

/-- The words of sample i. -/
def State.sample (s : State) (x : Part) (l : Label) (pl : Place) (i : Nat) : List Nat := wordsOf (s.spanBytes (sampleSpan x l pl i))

/-! ## How an operation runs in a room -/

/-- Entries of an engine queue (R299). -/
def queueSize (q : Nat) : Nat := if q = 1 then 64 else 128

/-- A queue is full and dispatch has met it (R299): its next entry, the last of the list, stands at dispatch, which follows body order and is stalled for every
queue. -/
def Room.stalled (x : Room) : Bool := x.queues.any (fun e => decide (queueSize e.1 < e.2.length))

/-- A FINAL descriptor has been issued: it is the last command of its block (R312). -/
def Room.finalOut (x : Room) : Bool := x.channels.any (fun c => c.2.issued.any (fun i => i.desc.isFinal))

/-- A room dispatches: no error of its block waits for a replay, no part of an operation has ended the block (R143, R160), no FINAL descriptor closes it (R312), no full
queue stalls it (R299), no operation at the head of its queue waits for a block key (R287), and no break holds it (R316, R458). -/
def Room.dispatching (x : Room) : Bool :=
  !x.brk.stopped && !x.blockDone && !x.atBarrier && !x.fenceWait && !x.stalled && !x.finalOut && !x.keyHeld && (match x.block with | some b => b.error.isNone && !b.failed && !b.closed | none => true)

/-- The room is in the third execution of its block, or runs no block: memory errors are taken as data (R459). -/
def Room.takesErrors (x : Room) : Bool := match x.block with | some b => decide (3 ≤ b.execs) | none => true

/-- A partition runs programs: it exists, it is not FROZEN (R435), and the module is not HALTED (R466). -/
def State.partRuns (s : State) (p : Nat) : Bool :=
  (s.part p).phase != .absent && (s.part p).pair.state != .frozen && s.boot.state != .halted

/-- A room of a partition dispatches: in one that is torn down, only up to its block boundary (step 2 of R393). -/
def State.mayDispatch (s : State) (p r : Nat) : Bool :=
  (s.room r).dispatching && ((s.part p).phase == .live || (s.room r).block.isSome)

/-- A room dispatches commands of its partition's program. -/
def State.roomRuns (s : State) (r : Nat) : Bool :=
  match s.ownerOf r with | some p => s.partRuns p && s.mayDispatch p r | none => false

/-- No entry of an engine queue waits (R299, R301): 0 PAU, 1 transform, 2 vector, 3 stream. Behind one that does, the queue issues nothing. -/
def Room.queueClear (x : Room) (q : Nat) : Bool := (Tab.get [] x.queues q).isEmpty

/-- The rooms of a partition that dispatch its operations of an engine queue. -/
def State.opRooms (s : State) (p : Nat) (q : Nat := 0) : List Nat :=
  if s.partRuns p then (s.part p).rooms.filter (fun r => s.mayDispatch p r && (s.room r).queueClear q) else []

/-- PRODUCER of a label that a room writes (R67). -/
def State.producer (s : State) (p room : Nat) : Nat := (s.room room).blockCounter.toNat + room * 2 ^ 48 + p * 2 ^ 52

/-- A room's record of one result (R78, R298): a poisoned one counts when it is newly poisoned and is remembered, with the index of its
operation, when it is the block's first. -/
def Room.noteOp (x : Room) (poisoned : Option Nat) (fresh : Bool) (pl : Place) : Room :=
  let y := match poisoned with
    | some c => if fresh then
        { x with counters := { x.counters with poison := Tab.set 0 x.counters.poison c (satInc (Tab.get 0 x.counters.poison c)) } }
      else x
    | none => x
  match y.block with
  | some b => { y with block := some { b with
      poison := match b.poison, poisoned with
        | none, some c => some { cause := c, op := b.op, at_ := pl }
        | q, _ => q } }
  | none => y

/-- An operation of the block is done (R298, R288): the next one has the next index. One that met an error keeps its index, which the
ledger entry of a failed block carries (R469, log 75). -/
def Room.countOp (x : Room) : Room :=
  match x.block with
  | some b => if b.error.isSome || b.failed then x else { x with block := some { b with op := b.op + 1 } }
  | none => x

/-- The tag of a queue's next entry (R300). -/
def Room.tagOf (x : Room) (q : Nat) : BitVec 16 := Tab.get 0 x.nextTag q
/-- An entry of a queue takes the next tag. -/
def Room.takeTag (x : Room) (q : Nat) : Room := { x with nextTag := Tab.set 0 x.nextTag q (x.tagOf q + 1) }

/-- A command that a room dispatched through an engine queue is done: an operation of the block, and the next tag of its queue (R298, R300). -/
def State.countOp (s : State) (room : Nat) (q : Nat := 0) : State := s.setRoom room ((s.room room).countOp.takeTag q)

/-- A program fault of a room: its block is to complete with STATUS 2 (R564). -/
def Room.programFault (x : Room) : Room :=
  match x.block with
  | some b => { x with block := some { b with failed := true, error := none, errSeen := true } }
  | none => x

/-- The first line of a span that has an error. -/
def State.firstBad (s : State) (x : Span) : Nat :=
  ((linesOf x.off x.len).find? (fun l => s.spanBad (x.within l))).getD (x.off / 128)

/-- The event of an error in a line of a room's attic or of a stack (R454): the physical row of the attic, or the line of the cellar. -/
def State.lineEvent (s : State) (room : Nat) (cellar : Bool) (line : Nat) : RoomEvent :=
  if cellar then .cellarUncorr (BitVec.ofNat 4 room).toFin line
  else
    let a := atticPos (line * 128)
    let c := ((s.room room).layer a.1).serves (s.copyPtr room a.1) a.2.1 a.2.2
    .atticParity (BitVec.ofNat 4 room).toFin (if a.1 = 0 then 0 else if a.1 = 1 then 1 else 2) (if h : c.1 < 66 then ⟨c.1, h⟩ else 0) c.2

/-- The event of a read that met an error. -/
def State.spanEvent (s : State) (x : Span) : RoomEvent := s.lineEvent x.room x.cellar (s.firstBad x)

/-- The event of a read of an operation that met an error: of what comes in pieces the line of the first piece in error. -/
def State.readEvent (s : State) (port : List Span) (x : Span) : RoomEvent :=
  if port.contains x then
    s.lineEvent x.room true
      (((linesOf x.off x.len).find? (fun l => s.lineLost x.room (l * 128) || ((s.pieces x).filter (fun o => o / 128 == l)).any (s.burstBad x.room))).getD (x.off / 128))
  else s.spanEvent x

/-- An error of a line that is reported from outside is one that the line keeps until it is written again (R200, R230), and counts (R199, R230): in the attic
one byte of it, in the cellar one burst; which, the report does not say: a free value (log 82). A line known to be in error stays as it is. -/
def State.meetError (s : State) (x : Span) : State :=
  let w := (Config.openWord s.free).toNat
  let t :=
    if s.spanBad x then s
    else if x.cellar then { s with mem := { s.mem with ecc := Tab.set 0 s.mem.ecc (cellarKey x.room x.off / 32 + w % 4) 2 } }.draw 1
    else { s with mem := { s.mem with atticBad := Tab.set false s.mem.atticBad (atticKey x.room x.off + w % 128) true } }.draw 1
  if x.cellar then
    let y := t.stack x.room
    t.setStack x.room { y with counters := { y.counters with eccUncorr := satInc y.counters.eccUncorr } }
  else
    let y := t.room x.room
    t.setRoom x.room { y with counters := { y.counters with parityErr := satInc y.counters.parityErr } }

/-- What an operation leaves in one room: the label it writes there, the runs it writes in the room's share (offset from the label
line, words), whether the result is newly poisoned, the spans it reads, a failed comparison: its first coefficient, and whether this
room's lanes formed it (R461), with the limbs compared (R55: bit i chain limb i, bit 60 the check limb), and whether it has no output object, so that no
label is written unless an error is found (R87), or is a part of an operation that another part follows, `inner`, which writes no label. `work` gives the attic lines read and written besides `reads`, the runs and the label line, none where
the spec does not say how often an operation's passes move its words; `gate` how many of its lane operations are gated (R46), none where that depends on
words inside its passes; `tensor` that it works on a tensor, whose column groups may take the general path (R193); `conv` the targets of its base conversions, one after another, `wide` the mode of the PAUs
in the lane work that follows them, `after` the targets of a conversion that comes last, and `moduli` those that the descriptors of the lane groups then name (R45, R111); `sets` the twiddle sets that it needs in
this room: key set and prime (R93); `vec` the cycles in which the vector engine produces its results (R169); `stream` that the room's stream unit moves the lines (R268); `pieces` those of `reads` that come through
the pantry port (R160); `cross` that the operation is one of those that exchange data among the rooms (R563). -/
structure RoomResult where
  lab : Label
  runs : List (Nat × List Nat)
  fresh : Bool
  reads : List Span
  mism : Option (Nat × Bool)
  limbs : BitVec 61 := 0
  silent : Bool := false
  inner : Bool := false
  work : Option (Nat × Nat) := none
  gate : Option Nat := none
  tensor : Bool := false
  conv : List (List Modulus) := []
  after : List Modulus := []
  wide : Option Bool := none
  moduli : List Modulus := []
  sets : List (Nat × Nat) := []
  vec : Nat := 0
  stream : Bool := false
  pieces : List Span := []
  cross : Bool := false

/-- A room counts what it reads of its own attic and stack. -/
def State.countReads (s : State) (room : Nat) (r : RoomResult) : State :=
  r.pieces.foldl State.countPieces ((r.reads.filter (fun x => x.room == room && !r.pieces.contains x)).foldl State.countRead s)

/-- A result that ends at dispatch writes the label line alone. -/
def RoomResult.ofStop (d : Decision) (reads : List Span) : RoomResult :=
  { lab := d.lab, runs := [], fresh := d.fresh, reads := reads, mism := none, work := some (0, 0), gate := some 0 }

/-- The limbs of a comparison of the chain limbs up to a level with the check limb. -/
def limbMask (level : Nat) : BitVec 61 := BitVec.ofNat 61 (2 ^ (min level 59 + 1) - 1 + 2 ^ 60)

/-- The label with a compute-kind cause, unless an earlier cause stands (R76, R77). -/
def Label.poisonWith (l : Label) (c : Nat) : Label := if l.poison then l else { l with poison := true, cause := c }

/-- No stream of the room is in progress, and a list of spans of its attic begins on lines: the operation's groups meet no other requester and are free of
bank conflicts (R192, R193). -/
def Room.conflictFree (x : Room) (spans : List Span) : Bool :=
  x.channels.all (fun c => c.2.issued.isEmpty) && spans.all (fun r => r.cellar || r.off % 128 == 0)

/-- A word of a lane's register file (R40): lane 0 to 2,047 of the room, register 0 to 15. Zero when cleared; what an operation leaves there the spec does
not state: free values (log 21). -/
def Room.laneWord (x : Room) (lane reg : Nat) : Word := if x.laneState = 0 then 0 else Config.openWord (x.laneState - 1 + 16 * lane + reg)

/-- A byte of the landing buffers (R19, R394), as a lane's registers. -/
def Room.landingByte (x : Room) (i : Nat) : Byte := if x.landing = 0 then 0 else Config.openByte (x.landing - 1 + i)

/-- A descriptor is loaded into the shadow of a lane group. -/
def GroupDesc.load (g : GroupDesc) (m : Modulus) : GroupDesc := { g with next := some m }

/-- An instruction boundary of a lane group: a loaded descriptor takes effect (R45). -/
def GroupDesc.boundary (g : GroupDesc) : GroupDesc := { g with active := g.next.or g.active, next := none }

/-- The lane groups of a room's PAUs in service, ascending. -/
def Room.liveGroups (x : Room) : List Nat := (List.range 16).filter (fun g => !x.pauRetired.getLsbD (g / 4))

/-- The lane groups after the base conversions of an operation (R111): every PAU in wide-shallow mode, and the targets taken in ascending order, one to a group, as
many at a time as there are groups; a group that the last pass leaves over keeps its descriptor. -/
def Room.convDescs (x : Room) (ms : List Modulus) (word : Nat → Word) : Room :=
  if ms.isEmpty then x
  else { x with wideShallow := 15, descs := ms.zipIdx.foldl (fun t e =>
    match x.liveGroups[e.2 % max 1 x.liveGroups.length]? with
    | some g => Tab.set {} t g { (((Tab.get {} t g).load e.1).boundary) with bcast := word g }
    | none => t) x.descs }

/-- The lane groups after an operation over some moduli (R45): each descriptor is loaded into a group's shadow and takes effect at the group's next instruction
boundary; in normal mode the four groups of a PAU hold the same descriptor and receive the same broadcast word. `wide` is the mode that the operation runs in, if it
uses the lanes at all. Which group takes which limb, and which word is broadcast last, the spec does not say: `pick` and `word` are free (log 21). -/
def Room.loadDescs (x : Room) (wide : Option Bool) (ms : List Modulus) (pick : Nat → Nat) (word : Nat → Word) : Room :=
  match wide with
  | none => x
  | some w =>
    { x with wideShallow := if w then 15 else 0, descs := x.liveGroups.foldl (fun t g =>
        let k := if w then g else 4 * (g / 4)
        let d := Tab.get {} t g
        let e := match ms[pick k % max 1 ms.length]? with | some m => d.load m | none => d
        Tab.set {} t g { e.boundary with bcast := word k }) x.descs }

/-- What an operation adds to its room's counters besides the lines of its operands and results (R48, R95, R96, R104, R198). Free values stand for what the
spec gives no number for (log 21): lines that inner passes move, conflicts with other requesters, general-path groups of a tensor, with which the conflicts rise, and the cycles in
which all 512 lanes of a PAU are gated, of which there are at most one for each 512 gated lane operations (R46); so for the contents of the lanes'
registers (R40). -/
def State.laneTraffic (s : State) (room : Nat) (r : RoomResult) (quiet : Bool) : State :=
  let word (i : Nat) : Word := Config.openWord (s.free + 24 + i)
  let pick (i : Nat) : Nat := (Config.openWord (s.free + 8 + i)).toNat
  let x := ((r.conv.foldl (fun y ms => y.convDescs ms word) (s.room room)).loadDescs r.wide r.moduli pick word).convDescs r.after word
  let w (i : Nat) : BitVec 48 := (Config.openWord (s.free + i)).setWidth 48
  let most (i : Nat) : BitVec 48 := match r.gate with
    | some n => BitVec.ofNat 48 ((Config.openWord (s.free + i)).toNat % (n / 512 + 1))
    | none => w i
  let general : BitVec 48 := if r.tensor then w 3 else 0
  let passes (i : Nat) (f : Nat × Nat → Nat) : BitVec 48 := match r.work with | some m => BitVec.ofNat 48 (f m) | none => w i
  (s.setRoom room { x with laneState := s.free + 1, landing := s.free + 1, counters := { x.counters with
    veBusy := x.counters.veBusy + BitVec.ofNat 48 r.vec
    linesRd := x.counters.linesRd + passes 0 (·.1), linesWr := x.counters.linesWr + passes 1 (·.2)
    conflict := x.counters.conflict + (if quiet then 0 else w 2) + general
    general := x.counters.general + general
    gated := (List.range 4).foldl (fun t k => Tab.set 0 t k (Tab.get 0 t k + (if x.pauRetired.getLsbD k then 0 else most (4 + k)))) x.counters.gated } }).draw 40

/-- A room whose comparison fails: the slab room of the coefficient's column (R109, R461). -/
def slabRoom (rooms logN coeff : Nat) : Nat :=
  let c := 2 ^ ((logN + 1) / 2)
  let col := coeff % c
  let big := c % rooms
  let w := c / rooms
  if col < big * (w + 1) then col / (w + 1) else big + (col - big * (w + 1)) / (max w 1)

/-- The room whose lanes form a comparison made of an object as it lies, by the first failing coefficient (R461): the home room of a HOMED one, else the slab room. -/
def compareRoom (x : Part) (l : Label) (coeff : Nat) : Nat :=
  x.roomAt (if l.layout = 1 then l.home else slabRoom x.rooms.length l.logN coeff)

/-- The numbers of the lines of a span, as a block's taint list holds them (R459). -/
def Span.lineKeys (x : Span) : List Nat :=
  (linesOf x.off x.len).map (fun l => x.room * 2 ^ 30 + l + (if x.cellar then 2 ^ 36 else 0))

/-- A read meets a tainted line, or, once the taint list is full, a line that a stream wrote in this execution (R459). -/
def Room.readsTaint (x : Room) (reads : List Span) : Bool :=
  match x.block with
  | some b =>
    !(b.tainted.isEmpty) && reads.any (fun r => r.lineKeys.any (fun k => b.tainted.contains k || (b.taintFull && b.streamed.contains k)))
  | none => false

/-- The execution met an error that it took as data (R442, R459). -/
def Room.errTaken (x : Room) : Room :=
  match x.block with
  | some b => { x with block := some { b with errSeen := true } }
  | none => x

/-- One of a room's PAUs that are not retired, by a number; PAU 0 of a room that has none left. -/
def Room.anyPau (x : Room) (n : Nat) : Nat :=
  let ks := (List.range 4).filter (fun k => !x.pauRetired.getLsbD k)
  ks.getD (n % max 1 ks.length) 0

/-- The error record of a PAU (R55): the first failing coefficient and the limbs compared. -/
def Room.recordCheck (x : Room) (pau coeff : Nat) (limbs : BitVec 61) : Room := { x with errRecord := Tab.set none x.errRecord pau (some (coeff, limbs)) }

/-- The first line of a write to a stack whose merge would fail (R230, R231): the line is written in part, and is lost or has an uncorrectable burst that the
merge reads. -/
def State.mergeFails (s : State) (x : Span) : Option Nat :=
  if x.cellar then
    (linesOf x.off x.len).find? (fun l =>
      let w := x.within l
      decide (w.len < 128) && (s.lineLost x.room (l * 128) || (mergeBursts w.off w.len l).any (s.burstBad x.room)))
  else none

/-- The read of a merge that failed at a line of a write to a stack is counted (R230, R241); a listed line is not read. -/
def State.failedMerge (s : State) (x : Span) (line : Nat) : State :=
  if s.lineLost x.room (line * 128) then s else s.mergeRead x.room (mergeBursts (x.within line).off (x.within line).len line)

/-- An operation on some objects waits while one of them lies in the stacks and a stack is at level 4 (R233). -/
def State.opHot (s : State) (p : Nat) (pls : List Place) : Bool := s.hotStack p && pls.any (·.cellar)

/-- A span lies in a stack at level 4. -/
def State.spanHot (s : State) (x : Span) : Bool := x.cellar && decide (4 ≤ (s.stack x.room).level)

/-- The spans that a result writes in its room: the label line, unless a further part follows, and the runs. -/
def RoomResult.writes (r : RoomResult) (room : Nat) (dst : Place) : List Span :=
  (if r.inner then [] else [{ dst.labelSpan room with len := 128 }]) ++ r.runs.map (fun w =>
    { room := room, cellar := dst.cellar, off := dst.off + w.1, len := 4 * w.2.length })

/-- An operation that moves data between the rooms of a partition makes the block of a room an exchange block (R563): a key switch, refresh, pack or comparison
of more than one room, or any that reads what lies in another room. -/
def State.exchanges (s : State) (p room : Nat) (r : RoomResult) : State :=
  let x := s.room room
  if (r.cross && decide (1 < (s.part p).rooms.length)) || r.reads.any (fun e => e.room != room) then
    s.setRoom room { x with block := x.block.map (fun b => { b with exchange := true }) }
  else s

/-- A read of a room's key window that met a parity error halts its KEY streams in progress with cause PARITY (R23, R139, R263). -/
def State.haltWindow (s : State) (room : Nat) (x : Span) : State :=
  let w := (s.room room).window
  if x.room ≠ room || x.cellar || x.off < w.base || w.base + 65536 * w.tiles ≤ x.off then s
  else (List.range 16).foldl (fun t c => if ((t.room room).chan c).issued.any (fun i => i.desc.op == 3) then t.stopChannel room c 1 (128 * s.firstBad x) else t) s

/-- The lines that a stream unit has read and written for a result (R270). -/
def State.countStream (s : State) (room : Nat) (r : RoomResult) (dst : Place) : State :=
  if !r.stream then s
  else
    let x := s.room room
    let lines (l : List Span) : BitVec 48 := BitVec.ofNat 48 ((l.map (fun e => (linesOf e.off e.len).length)).sum)
    s.setRoom room { x with counters := { x.counters with streamRd := x.counters.streamRd + lines r.reads, streamWr := x.counters.streamWr + lines (r.writes room dst) } }

/-- One room performs an operation whose result goes to `dst` (R76, R188, R459): out of its space it is a program fault; a memory
error before the third execution waits for the replay and writes nothing, as in every execution a merge into the stack that fails does (R230); otherwise the runs are written, then the label line. A
comparison that failed is recorded, in every execution, in a PAU of the room that formed it (R55); which one is a free value (log 22). A room counts the
lines of its own attic and stack; those of other rooms reach it through the fabric, and each room counts its own. -/
def State.performRoom (s : State) (p room : Nat) (dst : Place) (r : RoomResult) : State :=
  let bad := r.reads.filter (s.readBad r.pieces)
  let writes := r.writes room dst
  if (r.reads ++ writes).any Span.outside then s.setRoom room (s.room room).programFault
  else
    let s1 := (((s.exchanges p room r).countReads room r).countStream room r dst).laneTraffic room r ((s.room room).conflictFree (r.reads ++ writes))
    let third := (s.room room).takesErrors
    let x := s1.room room
    match bad, r.mism, third, writes.findSome? (fun w => (s.mergeFails w).map (fun l => (w, l))) with
    | b :: _, _, false, _ => (s1.haltWindow room b).setRoom room (((s1.haltWindow room b).room room).fail (s.readEvent r.pieces b))
    | _, _, _, some (w, l) => (s1.failedMerge w l).setRoom room (((s1.failedMerge w l).room room).fail (.cellarUncorr (BitVec.ofNat 4 room).toFin l))
    | [], some (k, here), false, none =>
      let pau := x.anyPau (Config.openWord s1.free).toNat
      if here then (s1.setRoom room ((x.fail (.checkMismatch (BitVec.ofNat 2 pau).toFin k r.limbs)).recordCheck pau k r.limbs)).draw 1 else s1
    | _, _, _, none =>
      let hit := !bad.isEmpty || x.readsTaint r.reads
      let l1 := if hit then r.lab.poisonWith cMemory else r.lab
      let l2 := match r.mism with | some _ => l1.poisonWith cCheck | none => l1
      let lab := { l2 with producer := s.producer p room }
      let s10 := match r.mism with
        | some (k, true) => (s1.setRoom room (x.recordCheck (x.anyPau (Config.openWord s1.free).toNat) k r.limbs)).draw 1
        | _ => s1
      let s2 := r.runs.foldl (fun t w => t.putRun p room dst.cellar (dst.off + w.1) (bytesOfWords w.2)) s10
      if r.inner then s2.setRoom room (if hit || r.mism.isSome then (s2.room room).errTaken else s2.room room)
      else if r.silent && !hit && r.mism.isNone then s2
      else
        let s3 := s2.putLabel p room dst lab
        let fresh := r.fresh || (lab.poison && !r.lab.poison)
        let y := s3.room room
        let z := if hit || r.mism.isSome then y.errTaken else y
        s3.setRoom room (z.noteOp (if lab.poison then some lab.cause else none) fresh dst)

/-- No twiddle set that an operation needs in a room awaits its rewrite there (R93). -/
def Room.setsValid (x : Room) (sets : List (Nat × Nat)) : Bool := sets.all (fun e => !x.badTwiddle.contains e)

/-- No room that would dispatch an operation awaits the rewrite of a twiddle set that the operation needs in it (R93). -/
def State.setsValid (s : State) (p : Nat) (need : Nat → List (Nat × Nat)) (q : Nat := 0) : Bool :=
  (s.opRooms p q).all (fun room => (s.room room).badTwiddle.isEmpty || (s.room room).setsValid (need room))

/-- An operation runs in every room of the partition that dispatches, each on its own copies of the labels and on the memory as it
stood before the operation (R87). One that reads or writes a stack at level 4 waits (R233), as does one that needs an invalid twiddle set (R93), and does not occur
yet (log 13). -/
def State.runOp (s : State) (p : Nat) (dst : Place) (f : Nat → RoomResult) (q : Nat := 0) : State :=
  if s.hotStack p && (s.opRooms p q).any (fun room => ((f room).reads ++ (f room).writes room dst).any s.spanHot) then s
  else if !s.setsValid p (fun room => (f room).sets) q then s
  else
    let cross := (s.opRooms p q).any (fun room => (f room).reads.any (fun e => e.room != room))
    (s.opRooms p q).foldl (fun t room => (t.performRoom p room dst { f room with cross := cross || (f room).cross }).countOp room q) s

/-- An operation that writes no object is done in every room that dispatches. -/
def State.countOps (s : State) (p : Nat) : State := (s.opRooms p).foldl (fun t room => t.countOp room) s

/-- The runs of one room out of the limbs (j, q, words) of a result. -/
def ownRuns (x : Part) (l : Label) (room : Nat) (limbs : List (Nat × Nat × List Nat)) : List (Nat × List Nat) :=
  (limbs.filter (fun e => x.roomAt (l.pairRoom x.rooms.length e.1) == room)).map
    (fun e => (l.limbOff x.rooms.length e.1 e.2.1, e.2.2))

/-- A limb pair of a result belongs to a room. -/
def ownsPair (x : Part) (l : Label) (room j : Nat) : Bool := x.roomAt (l.pairRoom x.rooms.length j) == room

/-- The modulus of limb j of a label under its key set: a chain prime, or the check prime at j = LIMBS. -/
def KeySet.modAt (k : KeySet) (l : Label) (j : Nat) : Modulus :=
  let none_ : Modulus := { p := 1, a := 0, b := 0, c := 0, s1 := 0, s2 := 0, root := 0 }
  if l.check && j = l.limbs then k.checkP.getD none_ else k.chain.getD j none_

end Sys2Proof.Machine
end

