-- ==== Sys2Proof/Machine/Remote.lean ====
section
/-! DEFINITION. Contexts and flits (16, 17): routing, the sending of contexts and acknowledgements, and the performing of remote lines. -/

namespace Sys2Proof.Machine

/-! ## Layouts (R409, R411) -/

/-- This module's number, once a routing table is in force (R423). -/
def State.ownModule (s : State) : Option Nat := s.links.route.map (·.module)

/-- The 128 bytes of a context flit (R409). -/
def Ctx.bytes (c : Ctx) : List Byte :=
  leBytes 2 c.dstModule ++ leBytes 1 (c.dstPart % 16 + c.dstRoom % 16 * 16) ++ leBytes 1 c.space ++ leBytes 8 c.base ++ leBytes 4 c.pitch ++
    leBytes 2 c.blkLines ++ leBytes 2 ((if c.flagged then 1 else 0) + c.flag % 64 * 2 + (if c.masked then 128 else 0) + c.hops % 32 * 256) ++
    leBytes 2 c.srcModule ++ leBytes 1 (c.srcRoom % 16 + c.srcChan % 16 * 16) ++ leBytes 1 0 ++ leBytes 2 c.ackId ++ leBytes 2 c.lines ++
    leBytes 6 c.block ++ leBytes 4 c.bootId ++ leBytes 2 0 ++ leBytes 8 c.originTime ++ leBytes 16 c.firstMask.toNat ++
    leBytes 16 c.lastMask.toNat ++ List.replicate 48 0

/-- The 8 bytes of an acknowledgement entry (R411). -/
def AckEntry.bytes (e : AckEntry) : List Byte :=
  leBytes 8 (e.srcRoom % 16 + e.srcChan % 16 * 16 + e.ackId % 65536 * 256 + e.lines % 512 * 2 ^ 24)

/-- The 128 bytes of an acknowledgement flit (R411). -/
def ackFlitBytes (module origin : Nat) (es : List AckEntry) : List Byte :=
  leBytes 2 module ++ leBytes 1 es.length ++ List.replicate 5 0 ++ leBytes 8 origin ++ sliceZ (es.flatMap AckEntry.bytes) 0 112

/-- The offset of line `l` of a context (R409). -/
def Ctx.lineAt (c : Ctx) (l : Nat) : Nat := c.base + l / max c.blkLines 1 * c.pitch + l % max c.blkLines 1 * 128

/-- The byte mask of line `l` of a context (R409). -/
def Ctx.mask (c : Ctx) (l : Nat) : BitVec 128 :=
  (if c.masked && l = 0 then c.firstMask else BitVec.allOnes 128) &&&
    (if c.masked && l + 1 = c.lines then c.lastMask else BitVec.allOnes 128)

/-! ## Ports and flits (R408, R412 to R415, R424, R425) -/

/-- The credits that a flit needs are there and the replay buffer has room (R413, R415). -/
def Port.maySend (x : Port) (vc : Nat) : Bool := decide (0 < Tab.get 0 x.credits vc) && decide (x.unacked.length < 2048)

/-- A flit is transmitted for the first time: it takes the next sequence number and one credit. -/
def Port.sendOne (x : Port) (now : Nat) (f : Flit) : Port :=
  { x with
    txSeq := x.txSeq + 1, unacked := x.unacked ++ [(x.txSeq, f.vc.val, f)]
    ackAt := if x.unacked.isEmpty then now else x.ackAt
    credits := Tab.set 0 x.credits f.vc.val (Tab.get 0 x.credits f.vc.val - 1), flitsTx := x.flitsTx + 1
    lastVc := f.vc.val, lastPart := Tab.set 16 x.lastPart f.vc.val f.part }

/-- How many grants are due before a flit's: first round the VCs from the one after the last granted (R412, R24), then, within a VC, round the
partitions, what no partition injects counting as one more (R389). -/
def Port.turn (x : Port) (f : Flit) : Nat :=
  (f.vc.val + 7 - x.lastVc) % 8 * 17 + (f.part + 16 - Tab.get 16 x.lastPart f.vc.val) % 17

/-- The queued flit that is granted next: among those with a credit the one whose turn comes first, the oldest of that VC and partition. -/
def Port.granted (x : Port) (q : List Flit) : Option Flit :=
  match q.filter (fun f => x.maySend f.vc.val) with
  | [] => none
  | f :: t => some (t.foldl (fun best g => if x.turn g < x.turn best then g else best) f)

/-- The queued flits that may go, at most `n`: the port, the flits sent with their numbers, and those that stay. -/
def Port.pumpQueue (x : Port) (now : Nat) : Nat → List Flit → Port × List (BitVec 12 × Flit) × List Flit
  | 0, q => (x, [], q)
  | n + 1, q =>
    match x.granted q with
    | none => (x, [], q)
    | some f =>
      let r := (x.sendOne now f).pumpQueue now n (q.erase f)
      (r.1, (x.txSeq, f) :: r.2.1, r.2.2)

/-- Flits leave a port on the wire. -/
def State.emitFlits (s : State) (n : Nat) (l : List (BitVec 12 × Flit)) : State :=
  l.foldl (fun t e => t.emit (.flit n e.1.toNat e.2.kind.val e.2.vc.val e.2.data)) s

/-- A port that is ACTIVE sends what it may (R412, R413). -/
def State.pump (s : State) (n : Nat) : State :=
  let x := s.port n
  if x.state = .active then
    let r := x.pumpQueue s.now x.queued.length x.queued
    (s.setPort n { r.1 with queued := r.2.2 }).emitFlits n r.2.1
  else s

/-- The context flits among some flits are kept by their context numbers. -/
def keepCtxs (t : Tab (List Byte)) (fs : List Flit) : Tab (List Byte) :=
  fs.foldl (fun u f => if f.kind = 2 then Tab.set [] u f.ctx.val f.data else u) t

/-- Flits join a port's output queue. -/
def State.enqueue (s : State) (n : Nat) (fs : List Flit) : State :=
  let x := s.port n
  (s.setPort n { x with queued := x.queued ++ fs, ctxs := keepCtxs x.ctxs fs }).pump n

/-- The port with the fewest flits queued on a VC, the lower number on ties (R424). -/
def State.pickPort (s : State) (vc : Nat) : List Nat → Option Nat
  | [] => none
  | n :: t =>
    let depth (k : Nat) : Nat := ((s.port k).queued.filter (fun f => f.vc.val == vc)).length
    some (t.foldl (fun best k => if depth k < depth best then k else best) n)

/-- The routing entry of a destination module. -/
def State.routeOf (s : State) (module : Nat) : Option Route :=
  match s.links.route with
  | some t => Tab.get none t.routes module
  | none => none

/-- The port chosen for a destination (R424); `mask` is the sending partition's PORT_MASK, none in transit and for what no mask restricts. -/
def State.choosePort (s : State) (module vc : Nat) (mask : Option (BitVec 30)) : Option Nat :=
  let ok (n : Nat) : Bool := (s.port n).state == .active && (match mask with | some m => m.getLsbD n | none => true)
  match s.routeOf module with
  | some e =>
    match (maskList 30 e.primary.toNat).filter ok with
    | [] => s.pickPort vc ((maskList 30 e.alternate.toNat).filter ok)
    | l => s.pickPort vc l
  | none => none

/-- The parent port (R428): the lowest ACTIVE one in PRIMARY of the entry for TIME_ROOT, else in ALTERNATE; TIME_ROOT itself has none. -/
def State.parentPort (s : State) : Option Nat :=
  match s.links.route with
  | some t =>
    let up (n : Nat) : Bool := (s.port n).state == .active
    if t.timeRoot = t.module then none
    else match Tab.get none t.routes t.timeRoot with
      | some e =>
        match (maskList 30 e.primary.toNat).find? up with
        | some n => some n
        | none => (maskList 30 e.alternate.toNat).find? up
      | none => none
  | none => none

/-- A module that has followed a parent and has none now holds over on REFCLK (R428). -/
def State.noteParent (s : State) : State :=
  if s.links.followed && s.parentPort.isNone then { s with links := { s.links with holdover := true } } else s

/-- A port is replaced; a change of its state raises its interrupt source (R421). -/
def State.portTo (s : State) (n : Nat) (x : Port) : State :=
  let y := if (s.port n).state = .active && x.state != .active then { x with activeUntil := s.now } else x
  let t := (s.setPort n y).noteParent
  if (s.port n).state = x.state then t else t.raise (96 + n)

/-- The lane on which a flit leaves (R425): `arrival` is the port it arrived on, none for one injected here. -/
def State.laneOut (s : State) (vc : Nat) (arrival : Option Nat) (port : Nat) : Nat :=
  match s.links.route with
  | some t =>
    let dim (n : Nat) : Nat := bitsOf t.portDim.toNat (2 * n + 1) (2 * n)
    if t.dateline.getLsbD port then vc / 2 * 2 + 1
    else match arrival with
      | some a => if dim a ≠ dim port then vc / 2 * 2 else vc
      | none => vc
  | none => vc

/-- A context or entry is dropped and counted (R424, R426); what no port carries is counted on the lowest PRIMARY port of its entry, else on
port 0 (log 35). -/
def State.countDrop (s : State) (n : Nat) : State :=
  let x := s.port n
  s.setPort n { x with dropped := satInc x.dropped }

/-- The port on which a drop without a port counts. -/
def State.dropPort (s : State) (module : Nat) : Nat :=
  match s.routeOf module with
  | some e => (maskList 30 e.primary.toNat).headD 0
  | none => 0

/-- A flit of a kind on a VC. -/
def flitOf (kind : Fin 4) (vc ctx line : Nat) (data : List Byte) : Flit :=
  { kind := kind, vc := (BitVec.ofNat 3 vc).toFin, ctx := (BitVec.ofNat 6 ctx).toFin, line := BitVec.ofNat 8 line, data := data }

/-- A context flit and its data flits leave on a port and VC for a partition, 16 for none: the context takes the next context number of the
port. -/
def State.sendOn (s : State) (port vc part : Nat) (c : Ctx) (lines : List (List Byte)) : State :=
  let n := (s.port port).nextCtx % 64
  let t := s.setPort port { s.port port with nextCtx := (s.port port).nextCtx + 1 }
  t.enqueue port ((flitOf 2 vc n 0 c.bytes :: lines.zipIdx.map (fun e => flitOf 1 vc n e.2 e.1)).map (fun f => { f with part := part }))

/-! ## Performing remote lines (R390, R409 to R411) -/

/-- A remote write may be performed in its partition (R390). -/
def State.remoteOk (s : State) (arrival : Option Nat) (c : Ctx) (off : Nat) : Bool :=
  let p := s.part c.dstPart
  p.isLive && (match arrival with | some n => p.portMask.getLsbD n | none => false) && decide (c.dstRoom < p.rooms.length) &&
    decide (off + 128 ≤ if c.space = 3 then stackBytes else atticBytes) && !p.isFollower

/-- A line of an attic is written under a byte mask (R190, R198): the enabled bytes with their parity, no other, in one access. -/
def State.maskAttic (s : State) (room off : Nat) (mask : BitVec 128) (data : List Byte) : State :=
  ((List.range 128).foldl (fun t i => if mask.getLsbD i then t.writeAttic room (off + i) [data.getD i 0] else t) s).countAtticWr room off 128

/-- A line is written under a byte mask (R190, R269). -/
def State.maskWrite (s : State) (room : Nat) (cellar : Bool) (off : Nat) (mask : BitVec 128) (data : List Byte) : State :=
  if cellar then
    (if mask = BitVec.allOnes 128 then s.writeSpan room true off data else s.mergeLine room off data ((List.range 128).map (fun i => mask.getLsbD i)))
  else if mask = BitVec.allOnes 128 then (s.writeAttic room off data).countAtticWr room off 128
  else s.maskAttic room off mask data

/-- A flagged line advances its flag counter unless its BOOT_ID and BLOCK were the last counted from its source (R410, R311). -/
def State.countFlag (s : State) (c : Ctx) : State :=
  let p := s.part c.dstPart
  let key := c.srcModule * 16 + c.srcRoom
  let id : BitVec 32 × BitVec 48 := (BitVec.ofNat 32 c.bootId, BitVec.ofNat 48 c.block)
  if Tab.get none p.flagSeen key = some id then s
  else
    let room := p.rooms.getD c.dstRoom 0
    let t := s.setPart c.dstPart { p with flagSeen := Tab.set none p.flagSeen key (some id) }
    let x := t.room room
    t.setRoom room { x with flags := Tab.set 0 x.flags (c.flag % 64) (Tab.get 0 x.flags (c.flag % 64) + 1) }

/-- The line of a context that arrived is performed, or ignored and counted (R390). A leader sends it on to its follower as INPUT (R438). -/
def State.remoteLine (s : State) (arrival : Option Nat) (c : Ctx) (line : Nat) (data : List Byte) : State :=
  let off := c.lineAt line
  if !s.remoteOk arrival c off then s.violate (if (s.part c.dstPart).present then c.dstPart + 1 else 0)
  else
    let p := s.part c.dstPart
    let t := s.maskWrite (p.rooms.getD c.dstRoom 0) (c.space = 3) off (c.mask line) (sliceZ data 0 128)
    let u := if c.flagged then t.countFlag c else t
    let room := p.rooms.getD c.dstRoom 0
    let whole := if c.space = 3 then t.readCellar room off 128 else t.readAttic room off 128
    if p.isLeader then
      u.emit (.mirror 1 p.pair.peerModule p.pair.peerPart
        (inputBytes c.dstRoom (if c.space = 3 then 1 else 0) (if c.flagged then 1 + c.flag else 0) off whole))
    else u

/-! ## Acknowledgements -/

/-- The pending entries of a module leave in one flit (R411): at most 14, with the earliest ORIGIN_TIME among them. -/
def State.sendAcks (s : State) (module : Nat) : State :=
  let mine := (s.links.acks.filter (fun a => a.module == module)).take 14
  if mine.isEmpty then s
  else
    let t := { s with links := { s.links with acks := mine.foldl (fun l a => l.erase a) s.links.acks } }
    let origin := mine.foldl (fun o a => min o a.origin) ((mine.head?.map (·.origin)).getD 0)
    match t.choosePort module 2 none with
    | some n => t.enqueue n [flitOf 3 (t.laneOut 2 none n) 0 0 (ackFlitBytes module origin (mine.map (·.entry)))]
    | none => mine.foldl (fun u _ => u.countDrop (t.dropPort module)) t

/-- An entry is issued for a module; a flit that is full is sent (R411). -/
def State.pushAck (s : State) (a : PendingAck) : State :=
  let t := { s with links := { s.links with acks := s.links.acks ++ [a] } }
  if 14 ≤ (t.links.acks.filter (fun b => b.module == a.module)).length then t.sendAcks a.module else t

/-! ## Sending from a stream (R255, R409, R410, R424) -/

/-- Lines acknowledged on a channel's descriptor: they are performed, and their tags are free (R244). -/
def Channel.acked (h : Channel) (no n : Nat) : Channel :=
  { h with issued := h.issued.map (fun i => if i.no = no then { i with left := i.left - n, tags := i.tags - min n i.left } else i) }

/-- The tags that the descriptors of a channel hold. -/
def Channel.tags (h : Channel) : Nat := (h.issued.map (·.tags)).sum

/-- Lines acknowledged on a channel's descriptor, in its room. -/
def Room.acked (x : Room) (chan no n : Nat) : Room :=
  let h := x.chan chan
  { x.setChan chan (h.acked no n) with tagsInFlight := x.tagsInFlight - (h.tags - (h.acked no n).tags) }

/-- The module may originate context flits: its time is locked and it has its boot identifier (R410, R428). -/
def State.maySendCtx (s : State) : Bool := s.links.locked && s.links.bootId.isSome

/-- A context of a room's stream is sent. To this module's own number it crosses no port and arrives on the lowest port of the sender's mask
(R308, R390); its lines are performed and acknowledged at once. Otherwise its lines wait for acknowledgement, whether a port takes it or it
is dropped. The answer is how many lines wait. -/
def State.sendContext (s : State) (p room chan no : Nat) (c : Ctx) (lines : List (List Byte)) : State × Nat :=
  let mask := (s.part p).portMask
  if s.ownModule = some c.dstModule then
    (lines.zipIdx.foldl (fun t e => t.remoteLine ((List.range 30).find? (fun n => mask.getLsbD n)) c e.2 e.1) s, 0)
  else
    let id := s.links.nextAckId % 65536
    let c1 := { c with ackId := id }
    let t := { s with links := { s.links with
      nextAckId := s.links.nextAckId + 1
      tx := s.links.tx ++ [(⟨room, chan, no, id, lines.length, s.now, c.dstModule, if c.flagged then some c.flag else none, c.base⟩ : TxCtx)] } }
    match t.choosePort c.dstModule 0 (some mask) with
    | some n => (t.sendOn n (t.laneOut 0 none n) p c1 lines, lines.length)
    | none => (t.countDrop (t.dropPort c.dstModule), lines.length)

/-- The fields that every context of a descriptor carries. -/
def State.ctxBase (s : State) (room chan : Nat) (d : Desc) (dstRoom : Nat) : Ctx :=
  { dstModule := d.dstModule % 512, dstPart := d.dstBase / 2 ^ 60, dstRoom := dstRoom, space := d.dstSpace, base := 0, pitch := d.dstPitch,
    blkLines := 1, flagged := false, flag := 0, masked := false, hops := 31, srcModule := s.ownModule.getD 0, srcRoom := room, srcChan := chan,
    ackId := 0, lines := 1, block := (s.room room).blockCounter.toNat, bootId := (s.links.bootId.getD 0).toNat,
    originTime := s.timestamp, firstMask := BitVec.allOnes 128, lastMask := BitVec.allOnes 128 }

end Sys2Proof.Machine
end

