-- ==== Sys2Proof/Machine/Telemetry.lean ====
section
/-! DEFINITION. Telemetry (13, 20, 23): the quantities of R493, TELEMETRY_READ, the mirror, SMBus and the alert. -/

namespace Sys2Proof.Machine

/-- A signed quantity as an 8-byte VALUE. -/
def signed64 (v : Int) : Nat := (BitVec.ofInt 64 v).toNat
/-- A quantity ID (R335). -/
def quantityId (cls inst item : Nat) : Nat := cls * 2 ^ 24 + inst * 2 ^ 16 + item

/-- A sensor's reading: the present one, or that of the moment it failed (R494). -/
def State.sensor (s : State) (id : Nat) : Nat :=
  match Tab.get none s.power.stale id with
  | some t => Config.sensor id t % 2 ^ 64
  | none => Config.sensor id s.now % 2 ^ 64

/-- The free pool in mW (R488). -/
def State.freePool (s : State) : Nat :=
  s.power.cap * 1000 - (s.power.baseGrant + ((List.range 16).map (fun p => if (s.part p).present then (s.part p).grant else 0)).sum)

/-- The step of a room, with bit 8 set while a clamp applies (class 0x10 item 0x0001); zero for a room outside any partition
(R538). -/
def State.roomStep (s : State) (r : Nat) : Nat :=
  match s.ownerOf r with
  | some p => (s.part p).step + (if s.clamped r then 256 else 0)
  | none => 0

/-- SPARE_ROWS_FREE (R198): the fewest free spare rows in any active bank, the bank that serves one of the 64 of a layer. -/
def Room.spareRowsFree (x : Room) : Nat :=
  (List.range 3).foldl (fun m l => (List.range 64).foldl (fun k b =>
    min k (32 - (Tab.get [] (x.layer l).rowRemaps ((x.layer l).physBank b)).length)) m) 32

/-- SPARE_BANKS_FREE (R198). -/
def Room.spareBanksFree (x : Room) : Nat :=
  ((List.range 3).map (fun l => ([64, 65].filter (x.layer l).spareFree).length * 4 ^ l)).sum

/-- PPR_FREE (R241): the fewest free repair resources in any bank. -/
def Stack.pprFree (x : Stack) : Nat := x.pprUsed.foldl (fun k e => min k (Config.repairPerBank.val - e.2)) Config.repairPerBank.val

/-- A queue's head wait (R302): token and count, zero where the head waits on none. -/
def headWait (q : List QEntry) : Nat × Nat :=
  match q with
  | e :: _ => match e.waitTok with | some (t, c) => (t.val, c.toNat) | none => (0, 0)
  | [] => (0, 0)

/-- Free tags of a room (R246). -/
def Room.tagsFree (x : Room) : Nat := 8192 - x.tagsInFlight - x.stale.length

/-- The items of class 0x10 of a room (R493). -/
def State.roomItem (s : State) (r item : Nat) : Option Nat :=
  let x := s.room r
  let c := x.counters
  if item = 0 then some x.blockCounter.toNat
  else if item = 1 then some (s.roomStep r)
  else if item = 2 then some (signed64 x.dieTemp)
  else if item = 3 then some c.aclkEdges.toNat
  else if 0x10 ≤ item && item ≤ 0x13 then some (Tab.get 0 c.gated (item - 0x10)).toNat
  else if item = 0x20 then some c.veBusy.toNat
  else if item = 0x21 then some c.pauWaitVe.toNat
  else if item = 0x30 then some c.linesRd.toNat
  else if item = 0x31 then some c.linesWr.toNat
  else if item = 0x32 then some c.conflict.toNat
  else if item = 0x33 then some c.general.toNat
  else if item = 0x34 then some c.sweepForced.toNat
  else if item = 0x35 then some c.parityErr.toNat
  else if item = 0x36 then some c.sweepErr.toNat
  else if item = 0x37 then some x.spareRowsFree
  else if item = 0x38 then some x.spareBanksFree
  else if item = 0x40 then some c.streamRd.toNat
  else if item = 0x41 then some c.streamWr.toNat
  else if item = 0x42 then some c.tagWait.toNat
  else if 0x43 ≤ item && item ≤ 0x48 then some (Tab.get 0 c.halts (item - 0x42)).toNat
  else if item = 0x49 then some x.tagsFree
  else if item = 0x4A then some x.stale.length
  else if 0x50 ≤ item && item ≤ 0x5F then
    let q := Tab.get [] x.queues ((item - 0x50) / 4)
    match item % 4 with
    | 0 => some q.length
    | 1 => some (match q with | e :: _ => e.tag.toNat | [] => 0)
    | 2 => some (headWait q).1
    | _ => some (headWait q).2
  else if 0x60 ≤ item && item ≤ 0x70 then some (Tab.get 0 c.poison (item - 0x60)).toNat
  else none

/-- The items of class 0x11 of a stack. -/
def Stack.item (x : Stack) (item : Nat) : Option Nat :=
  let c := x.counters
  match item with
  | 0 => some c.linesRd.toNat
  | 1 => some c.linesWr.toNat
  | 2 => some c.pantry.toNat
  | 3 => some c.refPostponed.toNat
  | 4 => some c.throttleCclk.toNat
  | 5 => some c.eccCorr.toNat
  | 6 => some c.eccUncorr.toNat
  | 7 => some c.sweepErr.toNat
  | 8 => some (x.temp.toNat % 256)
  | 9 => some x.level
  | 10 => some x.lost.length
  | 11 => some x.pprFree
  | 12 => some (match x.pcRetired with | some k => 2 ^ k | none => 0)
  | 0x10 => some (Tab.get 0 c.regWait 0).toNat
  | 0x11 => some (Tab.get 0 c.regWait 1).toNat
  | 0x12 => some (Tab.get 0 c.regWait 2).toNat
  | 0x13 => some c.regSlack.toNat
  | _ => none

/-- PORT_STATE codes (R431). -/
def PortState.code : PortState → Nat
  | .down => 0 | .training => 1 | .held => 2 | .active => 3 | .retired => 4

/-- The items of class 0x12 of a port. -/
def Port.item (x : Port) (item : Nat) : Option Nat :=
  if item = 0 then some x.flitsTx.toNat
  else if item = 1 then some x.flitsRx.toNat
  else if item = 2 then some x.cwCorr.toNat
  else if 0x10 ≤ item && item ≤ 0x17 then some (Tab.get 0 x.symCorr (item - 0x10)).toNat
  else if 0x20 ≤ item && item ≤ 0x27 then some (Tab.get 0 x.creditWait (item - 0x20)).toNat
  else if item = 0x30 then some x.cwUncorr.toNat
  else if item = 0x31 then some x.replays.toNat
  else if item = 0x32 then some x.exhausted.toNat
  else if item = 0x33 then some x.dropped.toNat
  else if item = 0x34 then some x.state.code
  else if item = 0x35 then some x.laneMap.toNat
  else if 0x40 ≤ item && item ≤ 0x47 then some (Tab.get 0 x.eyeHeight (item - 0x40))
  else if 0x48 ≤ item && item ≤ 0x4F then some (Tab.get 0 x.eyeWidth (item - 0x48))
  else none

/-- DomState codes (R485). -/
def DomState.code : DomState → Nat
  | .off => 0 | .waking => 1 | .on => 2 | .heldOff => 3

/-- A source of a clock domain is READY (R476). -/
def State.sourceReady (s : State) (src : Nat) : Bool :=
  let ok (p : Pll) : Bool := p.running && p.locked && decide (p.lockedAt + 50000 ≤ s.now) && p.beatOk && !p.stopped
  match src with
  | 0 => ok s.clocks.root
  | 1 => ok s.clocks.alt
  | _ => s.clocks.refPresent

/-- The items of class 0x05: domains 0 to 5, the root PLL and the alternate PLL. A count over 100 µs is in units of 10 kHz. -/
def State.clockItem (s : State) (inst item : Nat) : Option Nat :=
  let d := s.clk inst
  if inst ≤ 5 then
    match item with
    | 0 => some (d.edges.toNat * 10)
    | 1 => some d.source.val
    | 2 => some d.switches.toNat
    | 3 => some d.refusals.toNat
    | 4 => some d.forced.toNat
    | 5 => some (if s.sourceReady d.source.val then 1 else 0)
    | _ => none
  else if inst ≤ 7 then
    let p := if inst = 6 then s.clocks.root else s.clocks.alt
    match item with
    | 0 => some (p.edges.toNat * 10)
    | 5 => some (if s.sourceReady (inst - 6) then 1 else 0)
    | _ => none
  else none

/-- The value of a quantity (R493), or none for an ID outside the table. -/
def State.quantity (s : State) (id : Nat) : Option Nat :=
  let cls := id / 2 ^ 24
  let inst := id / 2 ^ 16 % 256
  let item := id % 2 ^ 16
  if cls = 1 && inst = 0 then
    match item with
    | 0 => some s.timestamp
    | 1 => some (s.boot.state.code + (if s.gysis.degraded then 256 else 0) + (if s.gysis.replaceRequested then 512 else 0))
    | 2 => some s.power.cap
    | 3 => some (signed64 s.power.coolIn)
    | 4 => some (signed64 s.power.coolOut)
    | 5 => some (if s.links.locked then 1 else 0)
    | _ => none
  else if cls = 2 && inst = 0 then
    match item with
    | 0 => some s.power.measured
    | 1 => some (s.sensor id)
    | 2 => some s.freePool
    | 3 => some s.power.baseGrant
    | 4 => some (if s.power.capUnmet then 1 else 0)
    | 5 => some (Tab.get 0 s.power.clampCounts 0).toNat
    | 6 => some (Tab.get 0 s.power.clampCounts 1).toNat
    | 7 => some (Tab.get 0 s.power.clampCounts 2).toNat
    | _ => none
  else if cls = 2 && 1 ≤ inst && inst ≤ 12 && 0x10 ≤ item && item ≤ 0x12 then some (s.sensor id)
  else if cls = 3 && inst ≤ 119 then
    match item with
    | 0 => some (Tab.get DomState.off s.power.domains inst).code
    | 1 => some (s.sensor id)
    | 2 => some (s.sensor id % 2 ^ 48)
    | _ => none
  else if cls = 4 && inst ≤ 22 && item ≤ 1 then
    if inst ≤ 15 && item = 0 then some (signed64 (s.room inst).dieTemp) else some (s.sensor id)
  else if cls = 5 then s.clockItem inst item
  else if cls = 0x10 && inst ≤ 15 then s.roomItem inst item
  else if cls = 0x11 && inst ≤ 15 then (s.stack inst).item item
  else if cls = 0x12 && inst ≤ 29 then (s.port inst).item item
  else if cls = 0x20 && inst ≤ 7 && item ≤ 511 then
    match Tab.get none (s.links.summaries.map (fun e => (e.1, some e.2))) item with
    | some r => some (r.1.getD inst 0)
    | none => none
  else none

/-- A quantity is the last value of a failed sensor, or a summary older than 30 ms (R494, R496). -/
def State.isStale (s : State) (id : Nat) : Bool :=
  (Tab.get none s.power.stale id).isSome ||
    (id / 2 ^ 24 == 0x20 &&
      (match Tab.get none (s.links.summaries.map (fun e => (e.1, some e.2))) (id % 2 ^ 16) with
       | some r => decide (r.2 + 30000000 < s.now)
       | none => false))

/-- A function may read a quantity: PF0 every one; a VF the shared class and the instances of its own partition (R335, R493). -/
def State.mayRead (s : State) (f id : Nat) : Bool :=
  let cls := id / 2 ^ 24
  f == 0 || cls == 1 || ((cls == 0x10 || cls == 0x11) && (s.part (f - 1)).rooms.contains (id / 2 ^ 16 % 256))

/-- The 16-byte record of a quantity (R335). -/
def State.record16 (s : State) (f id : Nat) : List Byte :=
  match (if s.mayRead f id then s.quantity id else none) with
  | some v => leBytes 4 id ++ leBytes 4 (1 + (if s.isStale id then 2 else 0)) ++ leBytes 8 v
  | none => leBytes 4 id ++ leBytes 12 0

/-- An ID that returns VALID 0 to a VF counts as a rights violation (R335, R493). -/
def State.badIds (s : State) (f : Nat) (ids : List Nat) : Nat :=
  if f = 0 then 0 else (ids.filter (fun id => !s.mayRead f id || (s.quantity id).isNone)).length

/-- COUNT of a TELEMETRY_READ, and nothing beyond its IDs (R331). -/
def checkTelemetry (q : Req) : Nat :=
  let n := q.field 0 1
  if 1 ≤ n && n ≤ 29 && (List.range 29).all (fun i => i < n || q.field (4 + 4 * i) 4 == 0) then stOk else stBadArgument

/-- TELEMETRY_READ (R335). -/
def execTelemetryRead (f : FnId) (slot : SlotId) (s : State) : Host.Outcome State Fault Refusal :=
  .next (s.runCmd f slot (isOp 0x0501) (fun q =>
    if checkTelemetry q ≠ stOk then .fail s (checkTelemetry q)
    else
      let ids := (List.range (q.field 0 1)).map (fun i => q.field (4 + 4 * i) 4)
      .ok (s.violateN f (s.badIds f ids)) (leBytes 8 s.timestamp ++ leBytes 8 ids.length ++ ids.flatMap (s.record16 f))))

/-! ## The mirror (R336 to R538) -/

/-- The mirror of a function as one rewrite leaves it (R538). -/
def State.mirrorOf (s : State) (f : Nat) : Tab (BitVec 64) :=
  let put (t : Tab (BitVec 64)) (e : Nat × Nat) : Tab (BitVec 64) := Tab.set 0 t e.1 (BitVec.ofNat 64 e.2)
  let val (id : Nat) : Nat := (s.quantity id).getD 0
  let shared := (0x4050, s.timestamp) :: (List.range 5).map (fun i => (0x4058 + 8 * i, val (quantityId 1 0 (i + 1))))
  let own :=
    if f = 0 then
      (List.range 8).map (fun i => (0x4100 + 8 * i, val (quantityId 2 0 i))) ++
        (List.range 16).map (fun n => (0x4140 + 2 * n, s.roomStep n % 512))
    else
      (List.range 16).flatMap (fun n => (List.range 4).map (fun i =>
        (0x4200 + 32 * n + 8 * i, if (s.part (f - 1)).rooms.contains n then val (quantityId 0x10 n i) else 0)))
  (shared ++ own).foldl put []

/-- TELEMETRY_TICK (R336, R537): core 3 rewrites the mirror of every function, bracketed by TEL_SEQ, once per millisecond. In HALTED
the mirror stops updating (R543); before the firmware runs nothing rewrites it. -/
def execTelemetryTick (s : State) : Host.Outcome State Fault Refusal :=
  .next
    (if s.boot.state = .halted || s.romServes then s
    else
      ((List.range 17).foldl
        (fun t f => t.setFn f { t.fn f with telSeq := (t.fn f).telSeq + 2, mirror := s.mirrorOf f }) s).raise 192)

/-- The ledger entry of a chip clock, supply or thermal event (R469). -/
def State.chipEvent (s : State) (cls : BitVec 8) (wher : Nat) : State := s.record (s.entry 0x0060 cls 255 255 wher)

/-- SENSOR_FAIL (R494): the sensor keeps its last valid value with STALE set, and a ledger entry is written. -/
def execSensorFail (id : Nat) (s : State) : Host.Outcome State Fault Refusal :=
  .next
    (if (Tab.get none s.power.stale id).isSome then s
    else { s with power := { s.power with stale := Tab.set none s.power.stale id (some s.now) } }.chipEvent 0x13 id)

/-! ## SMBus (R495) -/

/-- The always-on island serves SMBus from FUSES onward (R495, R512). -/
def State.smbusServed (s : State) : Bool := s.boot.state != .powerOn

/-- The causes of SMBALERT# that hold. -/
def State.alertCauses (s : State) : BitVec 32 :=
  BitVec.ofNat 32 (maskOf ((if s.power.currentClamp then [0] else []) ++ (if s.power.coolantClamp then [1] else []) ++
    (if s.power.capUnmet then [2] else []) ++ (if s.gysis.replaceRequested then [3] else []) ++
    ((List.range 16).filter (fun r => (s.room r).thermalClamp)).map (16 + ·)))

/-- SMBALERT# is asserted: some cause holds that no Alert Response has cleared. -/
def State.smbAlert (s : State) : Bool := s.alertCauses &&& ~~~s.board.alertAcked ≠ 0

/-- A cause that no longer holds counts as new when it comes again. -/
def State.forgetAcked (s : State) : State :=
  { s with board := { s.board with alertAcked := s.board.alertAcked &&& s.alertCauses } }

/-- SMBUS_SELECT (R495): a Block Write of one ID to command 0x20. -/
def execSmbusSelect (id : BitVec 32) (s : State) : Host.Outcome State Fault Refusal :=
  .next (if s.smbusServed then { s with board := { s.board with selected := id } } else s)

/-- SMBUS_READ (R495): the record of the selected quantity; only classes 0x01 to 0x05 are served. -/
def execSmbusRead (s : State) : Host.Outcome State Fault Refusal :=
  let id := s.board.selected.toNat
  .next
    (if s.smbusServed then
      s.emit (.smbus (if 1 ≤ id / 2 ^ 24 && id / 2 ^ 24 ≤ 5 then s.record16 0 id else leBytes 4 id ++ leBytes 12 0))
    else s)

/-- ALERT_RESPONSE (R495): a read of the Alert Response Address clears SMBALERT# until the next new cause; the module answers with
its address. -/
def execAlertResponse (s : State) : Host.Outcome State Fault Refusal :=
  .next
    (if s.smbusServed && s.smbAlert then
      { s with board := { s.board with alertAcked := s.alertCauses } }.emit (.smbus (leBytes 1 (0x58 + s.boot.addrStrap.toNat)))
    else s)

end Sys2Proof.Machine
end

