-- ==== Sys2Proof/Machine/Faults.lean ====
section
/-! DEFINITION. Faults (08, 09, 19): where an error lies, the histories and thresholds of R456, the ledger's decisions, replays, and the
rows of the error catalogue that reach a room; the retirement of a PAU, the security engine and a Gysis core. -/

namespace Sys2Proof.Machine

/-! ## Where an error lies -/

/-- The row of a bank that a physical row serves, or none for a spare row in no use (R204). -/
def logicalRow (remaps : List Nat) : Nat → Nat → Option Nat
  | 0, _ => none
  | n + 1, row =>
    if row < 16384 then some row
    else match remaps[row - 16384]? with
      | some r => logicalRow remaps n r
      | none => none

/-- The line of a room's attic that a physical row of a physical bank holds (R189, R204, R205), with a copy as far as `ptr`. -/
def Layer.lineOf (x : Layer) (ptr layer bank row : Nat) : Option Nat :=
  match logicalRow (Tab.get [] x.rowRemaps bank) 34 row with
  | some r => ((List.range 64).find? (fun b => x.serves ptr b r == (bank, row))).map (fun b => (3 * r + layer) * 64 + (b + 64 - r % 64) % 64)
  | none => none

/-- The number under which the record of counted lines holds a physical attic row: its line, or for a row in no use a number that no line has. -/
def Layer.lineKey (x : Layer) (ptr layer bank row : Nat) : Nat :=
  (x.lineOf ptr layer bank row).getD (2 ^ 32 + (layer * 66 + bank) * 32768 + row)

/-- The line that a physical row of a room's attic holds at this moment. -/
def State.lineOf (s : State) (r layer bank row : Nat) : Option Nat := ((s.room r).layer layer).lineOf (s.copyPtr r layer) layer bank row
/-- The number of a physical row in the record of counted lines. -/
def State.lineKey (s : State) (r layer bank row : Nat) : Nat := ((s.room r).layer layer).lineKey (s.copyPtr r layer) layer bank row

/-- The decomposition of a stack's line (R219): pseudo-channel, stack ID, bank, row. -/
def cellarPos (line : Nat) : CellRow :=
  let w := line % 2 ^ 27
  let row := w / 2 ^ 13
  { pc := line % 64, sid := line / 2 ^ 27, bank := w / 2 ^ 9 % 16 ^^^ row % 16, row := row }

/-- The copy of a pseudo-channel takes 49.5 ms, at 6.4 Gb/s 61.9 ms (R222). -/
def State.pcCopyNs (s : State) : Nat := if bitOf (s.fuse 73) 16 then 61900000 else 49500000

/-- How many lines a copy that began at a time has copied at another (R222): the copy pointer. -/
def State.pcPtr (s : State) (start now : Nat) : Nat := min 6193152 ((now - start) * 6193152 / s.pcCopyNs)

/-- The pseudo-channel whose lines the reserve serves, and how many of them, in ascending order (R221, R222): all once it is retired, and during its copy those
below the copy pointer. -/
def State.relocated (s : State) (r : Nat) : Option (Nat × Nat) :=
  match (s.stack r).pcRetired, (s.stack r).pcCopy with
  | some k, _ => some (k, 6193152)
  | none, some (k, start) => some (k, s.pcPtr start s.now)
  | none, none => none

/-- The line of the array that serves a line of a stack (R221): with pseudo-channel k relocated, the m-th line of the repair reserve that is not on k. -/
def State.physLine (s : State) (r line : Nat) : Nat :=
  match s.relocated r with
  | some (k, ptr) =>
    let m := line / 64
    if line % 64 = k && line < stackBytes / 128 && m < ptr then stackBytes / 128 + 64 * (m / 63) + m % 63 + (if k ≤ m % 63 then 1 else 0)
    else line
  | none => line

/-- The line that a line of a stack's array serves (R221, R222): lines of the repair reserve serve those of a relocated pseudo-channel. -/
def State.logicalLine (s : State) (r line : Nat) : Nat :=
  match s.relocated r with
  | some (k, ptr) =>
    let pc := line % 64
    let m := 63 * ((line - stackBytes / 128) / 64) + (if k < pc then pc - 1 else pc)
    if stackBytes / 128 ≤ line && pc ≠ k && m < ptr then 64 * m + k else line
  | none => line

/-- The channel of a stack's line (R454). -/
def State.cellarChan (s : State) (stack line : Nat) : FaultChan :=
  let c := cellarPos (s.physLine stack line)
  .cellarRow stack c.pc c.sid c.bank c.row

/-! ## Histories and thresholds (R455, R456) -/

/-- One hour, one day and one second in ns. -/
def hourNs : Nat := 3600000000000
/-- One day. -/
def dayNs : Nat := 24 * hourNs
/-- One second. -/
def secondNs : Nat := 1000000000

/-- n of the events fall within a window of length w that ends at one of them (R456). -/
def nIn (n w : Nat) (ts : List Nat) : Bool := ts.any (fun t => decide (n ≤ (ts.filter (fun u => decide (u ≤ t) && decide (t ≤ u + w))).length))

/-- n distinct things among dated events fall within a window of length w. -/
def distinctIn (n w : Nat) (es : List (Nat × Nat)) : Bool :=
  es.any (fun e => decide (n ≤ ((es.filter (fun u => decide (u.1 ≤ e.1) && decide (e.1 ≤ u.1 + w))).map (·.2)).eraseDups.length))

/-- The times of a channel's events of some kinds. -/
def State.events (s : State) (c : FaultChan) (kinds : List Nat) : List Nat :=
  (s.gysis.hist.filter (fun h => h.chan == c && kinds.contains h.kind)).map (·.time)

/-- The events on a bank's rows, with the rows. -/
def State.bankRows (s : State) (room layer bank : Nat) : List (Nat × Nat) :=
  s.gysis.hist.filterMap (fun h => match h.chan with
    | .atticRow r l b row => if r = room && l = layer && b = bank then some (h.time, row) else none
    | _ => none)

/-- The uncorrectable bursts on a pseudo-channel, each with a number for its row. -/
def State.pcRows (s : State) (stack pc : Nat) : List (Nat × Nat) :=
  s.gysis.hist.filterMap (fun h => match h.chan with
    | .cellarRow r p sid bank row => if r = stack && p = pc && h.kind ≠ 0 then some (h.time, (sid * 16 + bank) * 16384 + row) else none
    | _ => none)

/-- A channel's fault is permanent (R456). Kinds of event: 0 the ordinary one of the table; attic row 1 and cellar row 1 a recurrence after a full
write; cellar row 2 an uncorrectable burst; attic bank 2 a checker fault or a 33rd remap; PAU 3 a failed known-answer test; pseudo-channel 3 a
third calibration failure in a row and 4 a repair with no resource or a full lost-line list; room 2 one second at level 4 and 3 an escalation of
R457; port 1 ten minutes DOWN; lane 0 a lane beyond its thresholds; security engine 0x32 and 0x33 the events of those ledger codes. -/
def State.permanent (s : State) (c : FaultChan) : Bool :=
  let any (ks : List Nat) : Bool := !(s.events c ks).isEmpty
  match c with
  | .atticRow .. => nIn 2 dayNs (s.events c [0, 1]) || any [1]
  | .atticBank r l b => any [2] || distinctIn 4 secondNs (s.bankRows r l b)
  | .pauSet _ => false
  | .pau .. => any [3]
  | .transform _ => nIn 4 hourNs (s.events c [0])
  | .vector _ => nIn 4 hourNs (s.events c [0])
  | .sequencer _ => nIn 3 hourNs (s.events c [0])
  | .room r => nIn 3 hourNs (s.events c [0]) || any [2, 3] || nIn 4 hourNs (s.events (.transform r) [0]) ||
      nIn 4 hourNs (s.events (.vector r) [0]) || nIn 3 hourNs (s.events (.sequencer r) [0])
  | .cellarRow .. => nIn 16 dayNs (s.events c [0]) || any [1]
  | .pseudo r p => any [3, 4] || distinctIn 4 hourNs (s.pcRows r p)
  | .lane .. => any [0]
  | .port _ => nIn 3 hourNs (s.events c [0]) || any [1]
  | .core _ => nIn 3 dayNs (s.events c [0])
  | .security => nIn 3 dayNs (s.events c [0, 0x32, 0x33])
  | .drbg => false
  | .chip => false

/-- An event enters a channel's history; one that a room passes upward raises the room's escalation source (R25, R342). -/
def State.note (s : State) (c : FaultChan) (kind : Nat) : State :=
  let t := { s with gysis := { s.gysis with hist := { chan := c, time := s.now, kind := kind } :: s.gysis.hist } }
  match c with
  | .room r => t.raise (32 + r)
  | _ => t

/-- A stored error is detected (R456): it enters the history once; after a write of the whole line it enters as the recurrence. -/
def State.detect (s : State) (key : Nat × Nat × Nat) (c : FaultChan) (kind : Nat) : State :=
  if s.mem.counted.contains key then s
  else
    let again := s.mem.rewritten.contains key
    { s with mem := { s.mem with counted := key :: s.mem.counted, rewritten := s.mem.rewritten.erase key } }.note c
      (if again && kind ≠ 0 || again && key.1 == 0 then 1 else kind)

/-! ## Decisions (R462, R465, R467 to R469) -/

/-- CLASS of a ledger entry (R468): level, kind, IRQ, set DEGRADED, set REPLACE_REQUESTED. -/
def ledgerClass (level kind : Nat) (irq deg rep : Bool) : BitVec 8 :=
  BitVec.ofNat 8 (level + kind * 4 + (if irq then 16 else 0) + (if deg then 32 else 0) + (if rep then 64 else 0))

/-- A decision: the flags it sets (R465) and its ledger entry (R467). -/
def State.decided (s : State) (code level kind : Nat) (irq deg rep : Bool) (room unit wher count : Nat) : State :=
  let t := if deg then s.setDegraded else s
  let u := if rep then t.setReplace else t
  u.record { s.entry code (ledgerClass level kind irq deg rep) room unit wher with count := min 65535 count }

/-- A unit is recorded as retired in the repair record (R462, R506). -/
def State.persist (s : State) (c : FaultChan) : State :=
  { s with nvm := { s.nvm with record := if s.nvm.record.contains c then s.nvm.record else s.nvm.record ++ [c] } }

/-! ## The cellar's lost-line list (R231, R457) -/

/-- The pseudo-channel that holds the most listed lines, the lowest on ties. -/
def Stack.mostLost (x : Stack) : Nat :=
  let n (k : Nat) : Nat := (x.lost.filter (fun l => l % 64 == k)).length
  (List.range 64).foldl (fun best k => if n best < n k then k else best) 0

/-- What cannot be absorbed is passed upward once (R25). -/
def State.noteOnce (s : State) (c : FaultChan) (kind : Nat) : State := if (s.events c [kind]).isEmpty then s.note c kind else s

/-- A full list is passed to the room (R231), once (R25): it retires the pseudo-channel with the most listed lines when that can be absorbed, else the room is
to be retired (R223, R457). -/
def State.lostFull (s : State) (stack : Nat) : State :=
  let x := s.stack stack
  let c : FaultChan × Nat := if x.pcRetired.isNone && x.pcCopy.isNone then (.pseudo stack x.mostLost, 4) else (.room stack, 3)
  if (s.events c.1 [c.2]).isEmpty then (s.raise (64 + stack)).note c.1 c.2 else s

/-- A line enters the lost-line list (R231), with its ledger entry. -/
def State.loseLine (s : State) (stack line : Nat) : State :=
  let x := s.stack stack
  if x.lost.contains line then s
  else if x.lost.length < 4096 then
    (s.setStack stack { x with lost := x.lost ++ [line] }).decided 0x0005 1 0 false false false stack 255 (line * 128) 1
  else s.lostFull stack

/-! ## Classification of a room's events (R454, R455) -/

/-- An event of the catalogue is counted against its channel. A room's missed acknowledgements, program faults and forced moves count against none, and
a watchdog expiry is held back (R460). -/
def State.classify (s : State) (room : Nat) (e : RoomEvent) : State :=
  match e with
  | .atticParity r layer bank row =>
    s.detect (0, r.val, s.lineKey r layer bank row) (.atticRow r layer bank row) 0
  | .ibufParity => s.note (.sequencer room) 0
  | .laneParity => s.note (.pauSet room) 1
  | .twiddleParity ks prime =>
    let x := s.room room
    (s.setRoom room { x with badTwiddle := if x.badTwiddle.contains (ks, prime) then x.badTwiddle else x.badTwiddle ++ [(ks, prime)] }).note (.transform room) 0
  | .landingParity => s.note (.transform room) 0
  | .vectorParity => s.note (.vector room) 0
  | .checkMismatch pau k limbs =>
    let x := s.room room
    let y := match x.block with
      | some b => { x with block := some { b with mismatches := b.mismatches + 1 } }
      | none => x
    (s.setRoom room { y with errRecord := Tab.set none y.errRecord pau (some (k, limbs)), kat := y.kat || (match y.block with | some b => decide (2 ≤ b.mismatches) | none => false) }).note
      (.pauSet room) 0
  | .cellarUncorr stack line => s.detect (2, stack.val, line) (s.cellarChan stack line) 2
  | .lostList stack => s.lostFull stack
  | .remote => s
  | .watchdog => s
  | .bounds => s
  | .badDesc => s
  | .forcedMove => s
  | .other => s

/-! ## Replay (R458, R459, R563) -/

/-- Reset channels (R262 step 5). -/
def Room.freshChannels (x : Room) : Room :=
  { x with channels := x.channels.map (fun c => (c.1, { c.2 with state := .idle, programFault := false })) }

/-- A block at the start of another execution; `keepErr` keeps ERR of its digest record (log 38). -/
def Block.again (b : Block) (keepErr : Bool) : Block :=
  { b with
    aclk := 0, execs := min 3 (b.execs + 1), replays := b.replays + 1, op := 0, poison := none, error := none,
    closed := false, errSeen := keepErr && b.errSeen, tainted := [], taintFull := false, streamed := [], taken := 0, keyWait := none, agreed := false, d1 := 0, d2 := 0 }

/-- A room restores its checkpoint and starts its block again (steps 3 and 4 of R458). The block key is kept. -/
def Room.restart (x : Room) (keepErr : Bool) : Room :=
  match x.block with
  | some b =>
    { x.freshChannels with
      block := some { b.again keepErr with stale := b.stale ++ b.checkpoint.keyEntries.filter (fun e => !x.keyEntries.contains e) }, tokens := b.checkpoint.tokens, scalars := b.checkpoint.scalars, vcount := b.checkpoint.vcount,
      keyEntries := b.checkpoint.keyEntries, window := b.checkpoint.window, progress := b.checkpoint.progress, blockDone := false, atBarrier := false, fenceWait := false, queues := [], refetch := 0, keyHeld := false,
      brk := { x.brk with stopped := false, replayDeferred := false } }
  | none => x

/-- What holds a room before a replay can start (R526): the module is HALTED, or its partition FROZEN. -/
def State.replayHeld (s : State) (room : Nat) : Bool :=
  s.boot.state == .halted || (match s.ownerOf room with | some p => (s.part p).pair.state == .frozen && (s.part p).phase == .live | none => false)

/-- The room's partition is being torn down. -/
def State.torn (s : State) (room : Nat) : Bool := match s.ownerOf room with | some p => (s.part p).phase == .tearing | none => false

/-- A block is abandoned, not replayed (step 2 of R393, R526): its room holds none, and its channels have halted. -/
def State.abandon (s : State) (room : Nat) : State :=
  let t := s.cancelChannels room
  t.setRoom room { t.room room with block := none, blockDone := false, atBarrier := false, fenceWait := false, queues := [], keyHeld := false }

/-- One room replays its block. A room that is stopped at a break replays when the host acts (R316). -/
def State.replayOne (s : State) (keepErr : Bool) (room : Nat) : State :=
  let x := s.room room
  match x.block with
  | some b =>
    if b.failed || s.replayHeld room then s
    else if s.torn room then s.abandon room
    else if x.brk.stopped then s.setRoom room { x with brk := { x.brk with replayDeferred := true } }
    else
      let t := s.cancelChannels room
      t.setRoom room ((t.room room).restart keepErr)
  | none => s

/-- A room replays its block; of an exchange block, every room of the partition replays it (R458, R563). -/
def State.replay (s : State) (room : Nat) (keepErr : Bool) : State :=
  match s.ownerOf room with
  | some p =>
    let ex := match (s.room room).block with | some b => b.exchange | none => false
    if ex then
      ((s.part p).rooms.filter (fun r => match (s.room r).block with | some b => b.exchange | none => false)).foldl (fun t r => t.replayOne keepErr r) s
    else s.replayOne keepErr room
  | none => s

/-- The expiries held back enter the room's history (R460). -/
def State.flushExpiries (s : State) (room : Nat) : State :=
  let x := s.room room
  match x.block with
  | some b => b.expiries.foldl (fun t _ => t.note (.room room) 0) (s.setRoom room { x with block := some { b with expiries := [] } })
  | none => s

/-- A block is to complete with STATUS 2 (R459, R564); its channels hold no descriptor any more. -/
def State.failBlock (s : State) (room : Nat) : State :=
  let t := s.cancelChannels room
  t.setRoom room (t.room room).programFault

/-- An operand memory error or a check-limb mismatch (R459). -/
def RoomEvent.isData : RoomEvent → Bool
  | .atticParity .. => true
  | .cellarUncorr .. => true
  | .checkMismatch .. => true
  | _ => false

/-- A program fault of R564. -/
def RoomEvent.isProgram : RoomEvent → Bool
  | .bounds => true
  | .badDesc => true
  | _ => false

/-- A memory error that the room's units report is stored and counted where its line lies (R199, R200, R230), and a replay meets it again; an attic row that
holds no line is counted alone. -/
def State.meetEvent (s : State) (e : RoomEvent) : State :=
  match e with
  | .atticParity r layer bank row =>
    match s.lineOf r layer bank row with
    | some l => s.meetError { room := r, cellar := false, off := l * 128, len := 128 }
    | none =>
      let x := s.room r
      s.setRoom r { x with counters := { x.counters with parityErr := satInc x.counters.parityErr } }
  | .cellarUncorr stack line =>
    let sp : Span := { room := stack, cellar := true, off := line * 128, len := 128 }
    if sp.outside then s else s.meetError sp
  | _ => s

/-- An error reaches a room's sequencer (R458, R459, R564): it is counted, and the block replays, or in its third execution ends. An error that an
operation or a stream of the block met is taken first. In the third execution a memory error or a mismatch that no halt goes with is data. -/
def State.roomError (s0 : State) (room : Nat) (e0 : RoomEvent) : State :=
  let seen := match (s0.room room).block with | some b => b.error.isSome || b.failed | none => false
  let s := if seen then s0 else s0.meetEvent e0
  match (s.room room).block with
  | none => s.classify room e0
  | some b =>
    let e := b.error.getD e0
    if b.failed then s
    else if e.isProgram then s.failBlock room
    else
      let s1 := (s.flushExpiries room).classify room e
      let x := s1.room room
      if e = .forcedMove then s1.replay room true
      else if b.execs < 3 then (s1.setRoom room x.errTaken).replay room true
      else if e.isData && b.error.isNone then s1.setRoom room x.errTaken
      else (s1.note (.room room) 0).failBlock room

/-! ## The watchdog (R297, R460) -/

/-- The wait that a room's queue heads or key index stands at (R302, R460): a token and count, or a key entry numbered from 2^16. -/
def Room.headWaits (x : Room) (b : Block) : Option (Nat × Nat) :=
  match x.queues.findSome? (fun q => match q.2 with | e :: _ => e.waitTok | [] => none) with
  | some w => some (w.1.val, w.2.toNat)
  | none => b.keyWait.map (fun k => (65536 + k, 0))

/-- The watchdog of a room's block has expired: 2^23 ACLK of execution (R297). -/
def State.watchdogDue (s : State) (room : Nat) : Bool :=
  match (s.room room).block with
  | some b => s.blockCounts room && decide (2 ^ 23 ≤ b.aclk)
  | none => false

/-- A watchdog expiry (R297, R460): it is held back; the third that finds the same wait is a program fault, and one that finds another ends the wait of
the earlier ones, which enter the history with it. In a partition that is torn down the block is abandoned (step 2 of R393). -/
def State.watchdog (s : State) (room : Nat) : State :=
  let x := s.room room
  match x.block with
  | some b =>
    if s.torn room then s.abandon room else
    let w := x.headWaits b
    let es := b.expiries ++ [w]
    let same := w.isSome && es.all (fun e => e == w)
    let held := s.setRoom room { x with block := some { b with expiries := es, errSeen := true } }
    if b.execs < 3 then (if same then held else held.flushExpiries room).replay room true
    else if same && es.length == 3 then
      (s.setRoom room { x with block := some { b with expiries := [], errSeen := true } }).failBlock room
    else (held.flushExpiries room).failBlock room
  | none => s

/-- WATCHDOG_EXPIRY (R297). -/
def execWatchdogExpiry (r : RoomId) (s : State) : Host.Outcome State Fault Refusal := .next (if s.watchdogDue r then s.watchdog r else s)

/-- ROOM_ERROR (R458). A watchdog expiry is one only when the watchdog has expired. -/
def execRoomError (r : RoomId) (e : RoomEvent) (s : State) : Host.Outcome State Fault Refusal :=
  .next (if e = .watchdog then (if s.watchdogDue r then s.watchdog r else s) else s.roomError r e)

/-- INSTRUCTION_PARITY_TRAP (R303): a counted trap and one retry; the second retry that fails makes it an error of the block. -/
def execInstructionParityTrap (r : RoomId) (refetchOk : Bool) (s : State) : Host.Outcome State Fault Refusal :=
  let x := s.room r
  let y := { x with counters := { x.counters with ibuf := satInc x.counters.ibuf } }
  .next
    (if refetchOk then s.setRoom r { y with refetch := 0 }
    else if y.refetch = 0 then s.setRoom r { y with refetch := 1 }
    else (s.setRoom r { y with refetch := 0 }).roomError r .ibufParity)

/-! ## Retirement of a PAU, the security engine and a Gysis core (R319, R462) -/

/-- PAU_RETIRE (R461, R462): in a room whose known-answer test has run, a PAU failed it and is retired at the room's next boundary (R26). Fewer than three PAUs
left make the room itself permanent (R457). -/
def execPauRetire (r : RoomId) (k : Fin 4) (s : State) : Host.Outcome State Fault Refusal :=
  let x := s.room r
  .next
    (if !x.kat || x.pauRetired.getLsbD k || !s.roomOk r || !x.atBoundary then s
    else
      let t := (s.setRoom r { x with pauRetired := x.pauRetired ||| BitVec.ofNat 4 (2 ^ k.val) }).note (.pau r k) 3
      let u := (t.persist (.pau r k)).decided 0x0010 1 2 true true (decide (2 ≤ t.retiredPaus)) r k k 1
      if (u.room r).pausLeft < 3 then u.note (.room r) 3 else u)

/-- A twin whose module can no longer serve its pair is frozen and ends it (R453). -/
def State.freezeTwin (s : State) (p : Nat) : State :=
  let x := s.part p
  if x.paired then
    ((s.emit (.mirror 7 x.pair.peerModule x.pair.peerPart [])).setPart p { x with pair := { x.pair with state := .frozen, key := none } }).partChanged p
  else s

/-- The security engine is retired: WHERE of its entry is the ledger code of its last event, zero for a parity error (R469). -/
def State.retireEngine (s : State) : State :=
  let last := (((s.gysis.hist.filter (fun h => h.chan == .security)).head?).map (·.kind)).getD 0
  let t := { s with sec := { s.sec with retired := true } }
  let u := (t.persist .security).decided 0x0031 3 2 true true true 255 255 last (s.events .security [0, 0x32, 0x33]).length
  (List.range 16).foldl State.freezeTwin u

/-- SECURITY_ENGINE_RETIRE (R456, R462): after three events in 24 h. Its twins are frozen (R453). -/
def execSecurityEngineRetire (s : State) : Host.Outcome State Fault Refusal :=
  .next (if s.sec.retired || !s.permanent .security then s else s.retireEngine)

end Sys2Proof.Machine
end

