-- ==== Sys2Proof/Machine/Clocks.lean ====
section
/-! DEFINITION. Clocks (20): requested switches, forced moves, PLLs and the frequency gate. -/

namespace Sys2Proof.Machine

/-- Some room has a command block in flight, so ACLK, FCLK and CCLK are not at their switch point (R475). -/
def State.blocksInFlight (s : State) : Bool := (List.range 16).any (fun r => (s.room r).block.isSome)

/-- A port goes DOWN: what it has queued and unacknowledged stays for its next training (R414, R432). -/
def State.portDown (s : State) (n : Nat) : State :=
  let x := s.port n
  if x.state = .retired || x.state = .down then s
  else s.portTo n { x with state := .down, downSince := s.now, rxNak := false, trainStep := 0, attempt := 0, backoffUntil := s.now + secondNs }

/-- Every port goes DOWN. -/
def State.portsDown (s : State) : State := (List.range 30).foldl State.portDown s

/-- A domain's source changes (step 5 of R479). An LCLK switch to or from the bypass takes every port DOWN. -/
def State.setSourceOf (s : State) (d src : Nat) : State :=
  let x := s.clk d
  let t := s.setClk d { x with source := Fin.ofNat 3 src, request := none }
  if d = 1 && (src = 2 || x.source = 2) then t.portsDown else t

/-- A requested switch is made at its switch point, with READY checked again (steps 2 to 5 of R479). -/
def State.makeSwitch (s : State) (d src : Nat) : State :=
  let x := s.clk d
  if s.sourceReady src then s.setSourceOf d src |>.setClk d { (s.setSourceOf d src).clk d with switches := satInc x.switches }
  else s.setClk d { x with request := none, refusals := satInc x.refusals }

/-- The switches that wait for the rooms' boundaries are made once no room has a block in flight. -/
def State.settleClocks (s : State) : State :=
  if s.blocksInFlight then s
  else [0, 2, 3].foldl (fun t d => match (t.clk d).request with | some src => t.makeSwitch d src | none => t) s

/-- A switch request waits for every room's boundary. -/
def State.switchPending (s : State) : Bool := [0, 2, 3].any (fun d => (s.clk d).request.isSome)

/-- Every room replays the block in progress, counted against no channel (R481). -/
def State.replayAll (s : State) : State := (List.range 16).foldl (fun t r => (t.flushExpiries r).replayOne true r) s

/-- The source a domain takes when its own has stopped (step 2 of R480). -/
def State.otherSource (s : State) (src : Nat) : Nat :=
  if src ≠ 1 && s.sourceReady 1 then 1 else if src ≠ 0 && s.sourceReady 0 then 0 else 2

/-- A forced move (R480, R481): the domain takes another source without a switch point, its interrupt is raised and entered in the ledger, and a move of
ACLK, FCLK or CCLK replays every room's block. -/
def State.forceMove (s : State) (d : Nat) : State :=
  let x := s.clk d
  let t := s.setSourceOf d (s.otherSource x.source)
  let u := ((t.setClk d { t.clk d with forced := satInc x.forced }).raise d).decided 0x0060 3 0 true false false 255 255 d 1
  if d = 0 || d = 2 || d = 3 then u.replayAll else u

/-- A PLL by its source number. -/
def State.pll (s : State) (src : Nat) : Pll := if src = 0 then s.clocks.root else s.clocks.alt
/-- The state with one PLL replaced. -/
def State.setPll (s : State) (src : Nat) (x : Pll) : State :=
  { s with clocks := if src = 0 then { s.clocks with root := x } else { s.clocks with alt := x } }

/-- A source has been declared stopped. -/
def State.sourceStopped (s : State) (src : Nat) : Bool := if src ≤ 1 then (s.pll src).stopped else false

/-- A switch request of firmware (R478, R479): to the source in use it does nothing; from a stopped source it is a forced move; to a source that is not
READY it is refused; LCLK, MCLK and SCLK switch at once, the others at every room's boundary. -/
def State.requestSwitch (s : State) (d src : Nat) : State :=
  let x := s.clk d
  if x.source.val = src then s
  else if s.sourceStopped x.source then s.forceMove d
  else if !s.sourceReady src then s.setClk d { x with refusals := satInc x.refusals }
  else if d = 1 || d = 4 || d = 5 || !s.blocksInFlight then s.makeSwitch d src
  else s.setClk d { x with request := some (Fin.ofNat 3 src) }

/-- CLOCK_SWITCH (R477 to R479): only firmware requests a switch. -/
def execClockSwitch (d : ClkId) (src : Fin 3) (s : State) : Host.Outcome State Fault Refusal :=
  .next (if s.romServes then s else s.requestSwitch d src)

/-- CLOCK_STOPPED (R480): the raw output of the domain's source shows no edge for 160 ns. The detector is clocked by REFCLK, so the bypass is never the one
that it declares. -/
def execClockStopped (d : ClkId) (s : State) : Host.Outcome State Fault Refusal :=
  let src := (s.clk d).source.val
  .next (if src = 2 then s else (s.setPll src { s.pll src with stopped := true }).forceMove d)

/-- The domains on a PLL's dividers move to the other PLL, or to the bypass when that is not READY, and remember the divider they left (R477). -/
def State.leavePll (s : State) (src : Nat) : State :=
  let tgt := if s.sourceReady (1 - src) then 1 - src else 2
  (List.range 6).foldl (fun t d =>
    if (t.clk d).source.val = src then
      let u := t.requestSwitch d tgt
      u.setClk d { u.clk d with left := some (Fin.ofNat 3 src) }
    else t) s

/-- PLL_UNLOCK (R477): source 6, or 7 for the alternate PLL, is raised and entered in the ledger, and firmware moves the domains. -/
def execPllUnlock (alt : Bool) (s : State) : Host.Outcome State Fault Refusal :=
  let src := if alt then 1 else 0
  .next
    (if !(s.pll src).locked then s
    else
      let t := ((s.setPll src { s.pll src with locked := false, beatOk := false }).raise (6 + src)).decided 0x0060 3 0 true false false 255 255 (6 + src) 1
      if s.romServes then t else t.leavePll src)

/-- Since when a PLL has been READY (R476). -/
def Pll.readyAt (p : Pll) : Nat := max (p.lockedAt + 50000) p.readySince

/-- PLL_RETURN (R477): READY for 10 ms again, the domains that left it come back. -/
def execPllReturn (alt : Bool) (s : State) : Host.Outcome State Fault Refusal :=
  let src := if alt then 1 else 0
  .next
    (if s.romServes || !s.sourceReady src || s.now < (s.pll src).readyAt + 10000000 then s
    else (List.range 6).foldl (fun t d =>
      if (t.clk d).left = some (Fin.ofNat 3 src) then (t.setClk d { t.clk d with left := none }).requestSwitch d src else t) s)

/-- A PLL after one gate: its lock detector and its beat, which is good within ±0.1% of 20,000 counts (R476, R484). A new lock clears "stopped". -/
def Pll.gate (p : Pll) (now beat : Nat) (lock : Bool) : Pll :=
  let ok := p.running && decide (19980 ≤ beat) && decide (beat ≤ 20020)
  { p with
    edges := BitVec.ofNat 20 beat, beatOk := ok, readySince := if ok && !p.beatOk then now else p.readySince
    locked := p.running && lock, lockedAt := if p.running && lock && !p.locked then now else p.lockedAt
    stopped := if p.running && lock && !p.locked then false else p.stopped }

/-- FREQ_GATE (R484): the six domain counts and the two beat counts of a gate, and what the lock detectors show. -/
def execFreqGate (edges : List Nat) (rootLocked altLocked : Bool) (s : State) : Host.Outcome State Fault Refusal :=
  let t := (List.range 6).foldl (fun u d => u.setClk d { u.clk d with edges := BitVec.ofNat 20 (edges.getD d 0) }) s
  .next { t with clocks := { t.clocks with
    root := t.clocks.root.gate s.now (edges.getD 6 0) rootLocked, alt := t.clocks.alt.gate s.now (edges.getD 7 0) altLocked } }

end Sys2Proof.Machine
end

