-- ==== Sys2Proof/Machine/Attic.lean ====
section
/-! DEFINITION. Attic maintenance (08): row remaps, bank copies, the sweep and the self-test. -/

namespace Sys2Proof.Machine

/-- WHERE of an attic ledger entry (R469): layer, bank, and a row or a spare bank. -/
def atticWhere (layer bank spare row : Nat) : Nat := layer + bank * 4 + spare * 512 + row * 65536

/-- The spare bank of a layer that a retirement takes (R205). -/
def Layer.freeSpare (x : Layer) : Option Nat := [64, 65].find? x.spareFree

/-- The attic periphery of a room is ON: no access is possible without it (R186). -/
def State.atticOn (s : State) (r : Nat) : Bool := Tab.get DomState.off s.power.domains (6 * r + 5) == .on

/-- A layer has no free spare bank (R465). -/
def Layer.noSpare (x : Layer) : Bool := x.freeSpare.isNone

/-- A bank of a layer has been retired. -/
def Layer.bankRetired (x : Layer) (bank : Nat) : Bool := x.bankRemaps.any (fun e => e.1 == bank)

/-- A spare bank serves a retired one; the old bank's row remaps are not carried over (R205). -/
def Layer.useSpare (x : Layer) (bank spare : Nat) : Layer :=
  { x with
    bankRemaps := x.bankRemaps ++ [(bank, spare)], rowRemaps := Tab.erase x.rowRemaps bank, copy := none
    pending := x.pending.filter (fun e => e.1 != bank) }

/-- The decision to retire a bank (R205, R465, R469). -/
def State.bankDecision (s : State) (r layer bank spare : Nat) (last : Bool) : State :=
  (s.persist (.atticBank r layer bank)).decided 0x0002 0 2 last false last r layer (atticWhere layer bank spare 0) (s.bankRows r layer bank).length

/-- A bank is to be retired: the room itself is when the layer has no free spare bank (R206). -/
def State.failBank (s : State) (r layer bank : Nat) : State := s.noteOnce (.atticBank r layer bank) 2

/-- A parity error found as a remap or a bank copy reads a row is copied as read (R204), and counted against the old row (R212). -/
def State.copiedRow (s : State) (r layer bank row : Nat) : State :=
  match s.lineOf r layer bank row with
  | some l =>
    if s.spanBad { room := r, cellar := false, off := l * 128, len := 128 } then
      s.detect (0, r, s.lineKey r layer bank row) (.atticRow r layer bank row) 0
    else s
  | none => s

/-- The lines with a parity error that a bank of a room's attic holds. -/
def State.badLinesIn (s : State) (r layer bank : Nat) : List Nat :=
  let y := (s.room r).layer layer
  (((s.mem.atticBad.filter (fun c => c.2 && decide (atticKey r 0 ≤ c.1) && decide (c.1 < atticKey r 0 + atticBytes))).map (fun c =>
    (c.1 - atticKey r 0) / 128)).eraseDups).filter (fun l => (atticPos (l * 128)).1 == layer && y.physBank (atticPos (l * 128)).2.1 == bank)

/-- A row is remapped to the next free spare row of its bank (R204); a 33rd remap retires the bank (R205). -/
def State.remapRow (s : State) (r layer bank row : Nat) : State :=
  let x := s.room r
  let y := x.layer layer
  let used := Tab.get [] y.rowRemaps bank
  if used.contains row then s
  else if used.length < 32 then
    let s1 := s.copiedRow r layer bank row
    let t := s1.setRoom r ((s1.room r).setLayer layer { y with
      rowRemaps := Tab.set [] y.rowRemaps bank (used ++ [row]), pending := y.pending.filter (fun e => e != (bank, some row)) })
    (t.persist (.atticRow r layer bank row)).decided 0x0001 0 2 false false false r layer (atticWhere layer bank 0 row)
      (s.events (.atticRow r layer bank row) [0, 1]).length
  else s.failBank r layer bank

/-- The physical rows of a bank are 16,384 and 32 spare ones (R201). -/
def atticRows : Nat := 16416

/-- A row's remap waits for its room's boundary: the bank is in use, and the 33rd remap has not been passed on. -/
def State.rowWaits (s : State) (r layer bank row : Nat) : Bool :=
  let y := (s.room r).layer layer
  s.roomOk r && s.atticOn r && !y.bankRetired bank && !(Tab.get [] y.rowRemaps bank).contains row &&
    (decide ((Tab.get [] y.rowRemaps bank).length < 32) || (s.events (.atticBank r layer bank) [2]).isEmpty)

/-- A bank's copy waits for its room's boundary, or its room is to be retired for want of a spare bank. -/
def State.bankWaits (s : State) (r layer bank : Nat) : Bool :=
  let y := (s.room r).layer layer
  s.roomOk r && s.atticOn r && !y.bankRetired bank && y.copy.isNone && (!y.noSpare || (s.events (.room r) [3]).isEmpty)

/-- ROW_REMAP (R204): at a boundary of its room, a row judged permanently faulty, or that failed a self-test, is remapped. -/
def execRowRemap (r : RoomId) (layer : Fin 3) (bank row : Nat) (s : State) : Host.Outcome State Fault Refusal :=
  let x := s.room r
  let y := x.layer layer
  .next
    (if !s.roomOk r || !s.atticOn r || !x.atBoundary || 66 ≤ bank || atticRows ≤ row || y.bankRetired bank ||
        !(s.permanent (.atticRow r layer bank row) || y.pending.contains (bank, some row)) then s
    else s.remapRow r layer bank row)

/-- BANK_COPY (R205, R206): at a boundary of its room, the copy of a bank to a free spare bank starts; with none free the room itself is to be retired. -/
def execBankCopy (r : RoomId) (layer : Fin 3) (bank : Nat) (s : State) : Host.Outcome State Fault Refusal :=
  let x := s.room r
  let y := x.layer layer
  .next
    (if !s.roomOk r || !s.atticOn r || !x.atBoundary || 66 ≤ bank || y.bankRetired bank || y.copy.isSome ||
        !(s.permanent (.atticBank r layer bank) || y.pending.contains (bank, none)) then s
    else
      match y.freeSpare with
      | some k =>
        let z := { y with copy := some (bank, k, s.now) }
        (s.setRoom r (x.setLayer layer z)).bankDecision r layer bank k z.noSpare
      | none => s.noteOnce (.room r) 3)

/-- BANK_COPY_END (R205): after 32,768 ACLK the spare bank serves every row. -/
def execBankCopyEnd (r : RoomId) (layer : Fin 3) (s : State) : Host.Outcome State Fault Refusal :=
  let x := s.room r
  let y := x.layer layer
  .next
    (match y.copy with
    | some (bank, spare, start) =>
      if s.now < start + s.bankCopyNs r || !s.atticOn r then s
      else
        let t := (s.badLinesIn r layer bank).foldl (fun u l => u.detect
            (0, r, l) (.atticRow r layer bank (y.physRow bank (atticPos (l * 128)).2.2)) 0) s
        t.setRoom r ((t.room r).setLayer layer (y.useSpare bank spare))
    | none => s)

/-! ## The sweep (R207 to R210) -/

/-- The next physical row of a bank that the sweep reads: retired rows are left out (R207). -/
def nextSweepRow (remaps : List Nat) : Nat → Nat → Nat
  | 0, row => row % atticRows
  | n + 1, row => if remaps.contains (row % atticRows) then nextSweepRow remaps n (row + 1) else row % atticRows

/-- The sweep of a bank runs: the room is enabled, its attic periphery is ON, no self-test runs, and the bank is neither retired nor being copied
(R207, R210). -/
def State.sweepRuns (s : State) (r layer bank : Nat) : Bool :=
  let y := (s.room r).layer layer
  s.roomOk r && decide (bank < 66) && !y.bankRetired bank && s.boot.state != .selfTest &&
    s.atticOn r && (match y.copy with | some c => c.1 != bank | none => true)

/-- A parity error is found in a row: a stored error of its line, at a byte that nothing names (a free value, log 4). -/
def State.markParity (s : State) (r line : Nat) : State :=
  let key := atticKey r (line * 128 + (Config.openWord s.free).toNat % 128)
  { s with mem := { s.mem with atticBad := Tab.set false s.mem.atticBad key true } }.draw 1

/-- One sweep read (R207, R209): the bank's next row is read and its parity checked; an error is counted and reported, no data changes. `bad` is what the
array returns; a stored error is found again. -/
def State.atticSweep (s : State) (r layer bank : Nat) (bad : Bool) : State :=
  let x := s.room r
  let y := x.layer layer
  let remaps := Tab.get [] y.rowRemaps bank
  let row := nextSweepRow remaps 33 (Tab.get 0 y.sweepRow bank)
  let line := s.lineOf r layer bank row
  let stored := match line with | some l => s.spanBad { room := r, cellar := false, off := l * 128, len := 128 } | none => false
  let t := s.setRoom r (x.setLayer layer { y with sweepRow := Tab.set 0 y.sweepRow bank ((row + 1) % atticRows) })
  if bad || stored then
    let u := match line with | some l => if stored then t else t.markParity r l | none => t
    let z := u.room r
    (u.setRoom r { z with counters := { z.counters with sweepErr := satInc z.counters.sweepErr } }).detect (0, r, s.lineKey r layer bank row)
      (.atticRow r layer bank row) 0
  else t

/-- ATTIC_SWEEP_READ (R207). -/
def execAtticSweepRead (r : RoomId) (layer : Fin 3) (bank : Nat) (bad : Bool) (s : State) : Host.Outcome State Fault Refusal :=
  .next (if s.sweepRuns r layer bank then s.atticSweep r layer bank bad else s)

/-- ATTIC_SWEEP_FORCED (R208): a sweep read that has waited 65,536 ACLK takes the bank's next slot, and is counted. -/
def execAtticSweepForced (r : RoomId) (layer : Fin 3) (bank : Nat) (bad : Bool) (s : State) : Host.Outcome State Fault Refusal :=
  .next
    (if s.sweepRuns r layer bank then
      let t := s.atticSweep r layer bank bad
      let x := t.room r
      t.setRoom r { x with counters := { x.counters with sweepForced := x.counters.sweepForced + 1 } }
    else s)

/-! ## Self-test (R201 to R203) -/

/-- A bank that failed self-test is replaced at once: its rows hold nothing. -/
def State.replaceBank (s : State) (r layer bank : Nat) : State :=
  let x := s.room r
  let y := x.layer layer
  if y.bankRetired bank then s
  else
    match y.freeSpare with
    | some k =>
      let z := y.useSpare bank k
      (s.setRoom r (x.setLayer layer z)).bankDecision r layer bank k z.noSpare
    | none => s.noteOnce (.room r) 3

/-- One finding of the self-test: a failing row is remapped, a 33rd one or a failed parity checker (a row number beyond the physical rows) replaces
the bank (R202, R203). -/
def State.selfTestFinding (s : State) (r : Nat) (e : Nat × Nat × Nat) : State :=
  if 3 ≤ e.1 || 66 ≤ e.2.1 || ((s.room r).layer e.1).bankRetired e.2.1 then s
  else if atticRows ≤ e.2.2 || 32 ≤ (Tab.get [] ((s.room r).layer e.1).rowRemaps e.2.1).length then s.replaceBank r e.1 e.2.1
  else s.remapRow r e.1 e.2.1 e.2.2

/-- A room's attic after the self-test: every row holds 0x00 with right parity (R202). -/
def State.zeroAttic (s : State) (r : Nat) : State :=
  { s with mem := { s.mem.rewrote (fun e => e.1 == 0 && e.2.1 == r) with
    attic := Mem.clear s.mem.attic (atticKey r 0) (2 ^ 32)
    atticBad := s.mem.atticBad.filter (fun c => !(atticKey r 0 ≤ c.1 && c.1 < atticKey r 0 + 2 ^ 32)) } }

/-- The self-test of a room's attic, with the rows and banks that failed. -/
def State.atticTest (s : State) (r : Nat) (failing : List (Nat × Nat × Nat)) : State :=
  failing.foldl (fun t e => t.selfTestFinding r e) (s.zeroAttic r)

/-- ATTIC_SELF_TEST (R201): in SELFTEST, and on demand in TEST; `failing` names layer, bank and row of what failed. -/
def execAtticSelfTest (r : RoomId) (failing : List (Nat × Nat × Nat)) (s : State) : Host.Outcome State Fault Refusal :=
  .next
    (if s.roomOk r && (s.boot.state == .selfTest || s.boot.state == .test) then s.atticTest r failing else s)

/-! ## The dust-sheet clear's findings (R211) -/

/-- PARTITION_DESTROY (R393): it waits for the VF's short commands to end (R341), for the block boundary of every room, which the watchdog bounds (step 2; log 77), and its clear for a stack at level 4 (R233); PROGRESS ends at 10,000 hundredths
of a per cent. `found` names the rows, by room, layer, bank and row, that the clear reads back other than zero: each is remapped and rewritten, and a room
that cannot absorb that is to be retired (R206, R211). -/
def execPartitionDestroy (f : FnId) (slot : TeardownSlot) (s : State) : Host.Outcome State Fault Refusal :=
  .next (s.runCmd f slot.slot (isOp 0x0102) (fun q =>
    let p := q.field 0 1
    let rooms := (s.part p).rooms
    if s.maxParts ≤ p || !(s.part p).present then .fail s stBadArgument
    else if rooms.any s.blockCounts || s.hotStack p || s.shortLeft (p + 1) then .waits s
    else
      .ended ((slot.found.filter (fun e => rooms.contains e.1)).foldl (fun t e => t.selfTestFinding e.1 e.2) (s.tearDown p)) stOk []
        (progressFraction 10000) 0))

end Sys2Proof.Machine
end

