-- ==== Sys2Proof/Machine/Ntt.lean ====
section
/-! DEFINITION. Transforms, automorphisms and base conversion on the words of limbs (04), and the comparison of a check limb
(02). Words are lane-form residues below their modulus. -/

namespace Sys2Proof.Machine

/-- The forward transform of R94 to R97 as its values: a polynomial modulo X^(2^fuel) − ψ^e is split at X^(2^(fuel−1)) = ±ψ^(e/2), so that
position i of the result holds the value at ψ^(2·brv(i)+1) when e = N, which is the transform output order. -/
def nttSplit (p psi n : Nat) : Nat → Nat → List Nat → List Nat
  | 0, _, xs => xs.map (· % p)
  | fuel + 1, e, xs =>
    let lo := xs.take (2 ^ fuel)
    let hi := xs.drop (2 ^ fuel)
    let w := modPow psi (e / 2) p
    let t := hi.map (fun h => h * w % p)
    nttSplit p psi n fuel (e / 2) (List.zipWith (fun a b => (a + b) % p) lo t) ++
      nttSplit p psi n fuel (e / 2 + n) (List.zipWith (fun a b => (a % p + p - b) % p) lo t)

/-- The inverse of `nttSplit`: the two halves are joined by inverse butterflies. -/
def nttJoin (p psi n : Nat) : Nat → Nat → List Nat → List Nat
  | 0, _, xs => xs.map (· % p)
  | fuel + 1, e, xs =>
    let a := nttJoin p psi n fuel (e / 2) (xs.take (2 ^ fuel))
    let b := nttJoin p psi n fuel (e / 2 + n) (xs.drop (2 ^ fuel))
    let half := (p + 1) / 2
    let wi := half * modPow psi (4 * n - e / 2) p % p
    List.zipWith (fun x y => (x + y) * half % p) a b ++ List.zipWith (fun x y => (x + p - y) * wi % p) a b

/-- The forward transform of a limb of 2^logN words (R94, R97). -/
def nttForward (m : Modulus) (logN : Nat) (xs : List Nat) : List Nat := nttSplit m.p (psiOf m (2 ^ logN)) (2 ^ logN) logN (2 ^ logN) xs
/-- The inverse transform of a limb (R94). -/
def nttInverse (m : Modulus) (logN : Nat) (xs : List Nat) : List Nat := nttJoin m.p (psiOf m (2 ^ logN)) (2 ^ logN) logN (2 ^ logN) xs

/-- A limb in coefficient representation. -/
def toCoeff (m : Modulus) (logN : Nat) (repr : Bool) (xs : List Nat) : List Nat :=
  if repr then nttInverse m logN xs else xs.map (· % m.p)
/-- A limb in evaluation representation. -/
def toEval (m : Modulus) (logN : Nat) (repr : Bool) (xs : List Nat) : List Nat :=
  if repr then xs.map (· % m.p) else nttForward m logN xs

/-! ## Gated lane operations (R46) -/

/-- The butterflies gated between two runs of operands. -/
def flyCount (us vs : List Nat) : Nat := ((us.zip vs).filter (fun e => flyGated e.1 e.2)).length

/-- The gated ones among products with a constant, or with mid factors, which are not zero: those of words that are. -/
def zeroCount (xs : List Nat) : Nat := (xs.filter (fun x => x == 0)).length

/-- The gated operations of a forward transform: its butterflies, and the mid multiply between its passes (R94, R95), where rows of 2^`mid` words are left. -/
def splitGates (p psi n mid : Nat) : Nat → Nat → List Nat → Nat
  | 0, _, _ => 0
  | fuel + 1, e, xs =>
    let lo := xs.take (2 ^ fuel)
    let hi := xs.drop (2 ^ fuel)
    let w := modPow psi (e / 2) p
    let t := hi.map (fun h => h * w % p)
    flyCount lo hi + (if fuel + 1 = mid then zeroCount xs else 0) +
      splitGates p psi n mid fuel (e / 2) (List.zipWith (fun a b => (a + b) % p) lo t) +
      splitGates p psi n mid fuel (e / 2 + n) (List.zipWith (fun a b => (a % p + p - b) % p) lo t)

/-- The gated operations of an inverse transform. -/
def joinGates (p psi n mid : Nat) : Nat → Nat → List Nat → Nat
  | 0, _, _ => 0
  | fuel + 1, e, xs =>
    let l := xs.take (2 ^ fuel)
    let r := xs.drop (2 ^ fuel)
    joinGates p psi n mid fuel (e / 2) l + joinGates p psi n mid fuel (e / 2 + n) r +
      (if fuel = 0 then flyCount l r else flyCount (nttJoin p psi n fuel (e / 2) l) (nttJoin p psi n fuel (e / 2 + n) r)) +
      (if fuel + 1 = mid then zeroCount (nttJoin p psi n (fuel + 1) e xs) else 0)

/-- The gated operations of the forward transform of a limb. -/
def forwardGates (m : Modulus) (logN : Nat) (xs : List Nat) : Nat :=
  splitGates m.p (psiOf m (2 ^ logN)) (2 ^ logN) ((logN + 1) / 2) logN (2 ^ logN) xs
/-- The gated operations of the inverse transform of a limb. -/
def inverseGates (m : Modulus) (logN : Nat) (xs : List Nat) : Nat :=
  joinGates m.p (psiOf m (2 ^ logN)) (2 ^ logN) ((logN + 1) / 2) logN (2 ^ logN) xs

/-! ## Automorphisms (R101 to R103) -/

/-- brv: the low bits of a number reversed (R97). -/
def brv : Nat → Nat → Nat
  | 0, _ => 0
  | b + 1, x => x % 2 * 2 ^ b + brv b (x / 2)

/-- The Galois element of a rotation code at ring degree 2^logN (R101). -/
def galois (logN code : Nat) : Nat :=
  let g := modPow 5 (code % 2 ^ 17 % 2 ^ (logN - 1)) (2 ^ (logN + 1))
  if bitOf code 31 then 2 ^ (logN + 1) - g else g

/-- A rotation code with its reserved bits zero and K below N/2 (R115). -/
def canonCode (logN code : Nat) : Nat := code % 2 ^ 17 % 2 ^ (logN - 1) + (if bitOf code 31 then 2 ^ 31 else 0)

/-- The automorphism with element g in coefficient representation (R102). -/
def autoCoeff (p logN g : Nat) (xs : List Nat) : List Nat :=
  let n := 2 ^ logN
  let a := xs.toArray
  let gi := modInv g (2 * n)
  (List.range n).map (fun t =>
    let i := t * gi % (2 * n)
    if i < n then a.getD i 0 % p else (p - a.getD (i - n) 0 % p) % p)

/-- The automorphism in evaluation representation (R103). -/
def autoEval (p logN g : Nat) (xs : List Nat) : List Nat :=
  let n := 2 ^ logN
  let a := xs.toArray
  (List.range n).map (fun i =>
    let k := brv logN i
    let k2 := ((2 * k + 1) * g % (2 * n) - 1) / 2
    a.getD (brv logN k2) 0 % p)

/-- The automorphism in the representation of the limb. -/
def autoLimb (p logN g : Nat) (repr : Bool) (xs : List Nat) : List Nat :=
  if repr then autoEval p logN g xs else autoCoeff p logN g xs

/-! ## Base conversion (R106) -/

/-- The product of a list of moduli. -/
def prodOf (ms : List Modulus) : Nat := ms.foldl (fun a m => a * m.p) 1

/-- The integers y_i = [x_i·(Q_s/q_i)^(−1)] mod q_i of R106 and R51, from lane-form coefficients. -/
def convSource (src : List (Modulus × List Nat)) : List (Modulus × List Nat) :=
  let q := prodOf (src.map (·.1))
  src.map (fun e =>
    let c := modInv (q / e.1.p % e.1.p) e.1.p
    (e.1, e.2.map (fun x => fromLane e.1 x * c % e.1.p)))

/-- Σ y_i·(Q_s/q_i) modulo p, coefficient by coefficient. -/
def convSum (ys : List (Modulus × List Nat)) (n p : Nat) : List Nat :=
  let q := prodOf (ys.map (·.1))
  ys.foldl (fun acc e => let k := q / e.1.p % p; List.zipWith (fun a y => (a + y * k) % p) acc e.2) (List.replicate n 0)

/-- The converted limb modulo a target, in lane form (R106). -/
def convTo (ys : List (Modulus × List Nat)) (n : Nat) (m : Modulus) : List Nat := (convSum ys n m.p).map (toLane m)

/-- The gated operations of the sums modulo one target: the accumulator and the word y_i are both zero. -/
def sumGates (ys : List (Modulus × List Nat)) (n p : Nat) : Nat :=
  let q := prodOf (ys.map (·.1))
  (ys.foldl (fun (a : List Nat × Nat) e =>
    let k := q / e.1.p % p
    (List.zipWith (fun z y => (z + y * k) % p) a.1 e.2, a.2 + flyCount a.1 e.2)) (List.replicate n 0, 0)).2

/-- The lane operations that a slab room's conversion gates (R46, R111): of the coefficients of its slab, which `keep` names, and of the lane groups that the last
pass over the targets leaves over, of `groups` in service. -/
def convGates (groups : Nat) (keep : Nat → Bool) (src : List (Modulus × List Nat)) (targets : List Modulus) : Nat :=
  let slab := src.map (fun e => (e.1, (e.2.zipIdx.filter (fun w => keep w.2)).map (·.1)))
  let n := match slab with | e :: _ => e.2.length | [] => 0
  let ys := convSource slab
  let spare := if targets.length % max 1 groups = 0 then 0 else groups - targets.length % max 1 groups
  (slab.map (fun e => zeroCount e.2)).sum + (targets.map (fun m => sumGates ys n m.p)).sum + spare * 128 * src.length * ceilDiv n 128

/-! ## Comparison (R51) -/

/-- The first coefficient at which the comparison of chain limbs with the check limb fails. All limbs are lane-form coefficients. -/
def compareFail (chain : List (Modulus × List Nat)) (chk : Modulus) (words : List Nat) : Option Nat :=
  let q := prodOf (chain.map (·.1))
  let inv := modInv (q % chk.p) chk.p
  let sums := convSum (convSource chain) words.length chk.p
  let ok (sx : Nat × Nat) : Bool := decide ((sx.1 + (chk.p - fromLane chk sx.2)) * inv % chk.p < chain.length)
  (List.zip sums words).findIdx? (fun sx => !ok sx)

/-- The gated operations of a comparison in a slab room: those of a conversion to the check prime, and of the last step on each coefficient, which finds α. -/
def compareGates (groups : Nat) (keep : Nat → Bool) (chain : List (Modulus × List Nat)) (chk : Modulus) (words : List Nat) : Nat :=
  convGates groups keep chain [chk] +
    flyCount (((convSum (convSource chain) words.length chk.p).zipIdx.filter (fun w => keep w.2)).map (·.1))
      ((words.zipIdx.filter (fun w => keep w.2)).map (·.1))

/-- The first failing coefficient over the polynomials of an object whose limbs are given as coefficients: none without a check
limb. `limbs` answers limb (j, q). -/
def compareObject (k : KeySet) (l : Label) (limbs : Nat → Nat → List Nat) : Option Nat :=
  match l.check, k.checkP with
  | true, some c =>
    (List.range l.polys).findSome? (fun q =>
      compareFail ((List.range (l.level + 1)).map (fun j => (k.modAt l j, limbs j q))) c (limbs l.limbs q))
  | _, _ => none

end Sys2Proof.Machine
end

