-- ==== Sys2Proof/Machine/Ring.lean ====
section
/-! DEFINITION. The ring operations of Rinzo (02, 03, 04, 07): import, export, check, relabel, addition, products, rescale, modulus switch,
level drop, transform and automorphism. -/

namespace Sys2Proof.Machine

/-- The pair number of an input that corresponds to pair j of a result: the check limb sits at each object's own LIMBS (R85). -/
def srcPair (src res : Label) (j : Nat) : Nat := if res.check && j = res.limbs then src.limbs else j

/-- The key set of the first label, when it covers it. -/
def Part.ksFor (x : Part) (labs : List Label) : Option KeySet := x.ksOf (labs.headD Label.zero)

/-- An operation whose result limbs each come from the same limb of its inputs: `rule` decides the label from the base label, and `make`
computes limb (j, q) from the inputs' limbs, an absent polynomial counting as zero (R561); `extra` names what else is read, and `shape` is what is
tested before the key set (R71). `gated` counts the lane operations of limb (j, q) that zero detection gates (R46), and `more` those of a room besides; `passes`
gives the lines that the operation moves besides one read of its operands and one write of its result, of the lines of its result, `sets` the limbs whose twiddle
sets it needs in a room that holds some (R93), `lanes` says that it works on the lanes, and `q` is its engine queue. -/
def State.localOp (s : State) (p : Nat) (dst : Place) (places : List Place) (polys : Option Nat) (forms : List Nat)
    (rule : KeySet → Label → List Label → Decision)
    (make : KeySet → List Label → Label → (Nat → Nat → List Nat) → Nat → Nat → List Nat)
    (extra : List Label → List Span := fun _ => []) (shape : Option KeySet → List Label → Option Nat := fun _ _ => none)
    (gated : KeySet → List Label → Label → (Nat → Nat → List Nat) → Nat → Nat → Nat := fun _ _ _ _ _ _ => 0)
    (more : KeySet → List Label → Nat → Nat := fun _ _ _ => 0)
    (passes : Nat → Option (Nat × Nat) := fun _ => some (0, 0))
    (sets : List Label → Nat → List Nat → List Nat := fun _ _ _ => []) (lanes : Bool := true) (q : Nat := 0) : State :=
  let x := s.part p
  let n := x.rooms.length
  s.runOp p dst (q := q) (fun room =>
    let ins := places.map (s.labelAt x room)
    let base := baseLabel ins polys n
    let d := dispatchOn x ins base forms (fun k labs => rule k base labs) (fun k labs => (shape k labs).orElse (fun _ => checkCause k labs))
    let labelReads := places.map (·.labelSpan room)
    match d.ends, x.ksFor (ins.map (·.lab)) with
    | false, some k =>
      let labs := ins.map (·.lab)
      let res := d.lab
      let mine := res.inUse.filter (ownsPair x res room)
      let src (j i q : Nat) : List Nat :=
        let l := labs.getD i Label.zero
        if q < l.polys then s.limb x l (places.getD i dst) (srcPair l res j) q else List.replicate l.n 0
      let reads := mine.flatMap (fun j => (List.zip labs places).flatMap (fun e =>
        (List.range e.1.polys).map (fun q => limbSpan x e.1 e.2 (srcPair e.1 res j) q)))
      let limbs := mine.flatMap (fun j => (List.range res.polys).map (fun q => (j, q, make k labs res (src j) j q)))
      { lab := res, runs := ownRuns x res room limbs, fresh := false, reads := labelReads ++ reads ++ extra labs, mism := none
        work := passes (limbs.length * (res.n / 32)), wide := if lanes then some false else none, moduli := mine.map (k.modAt res)
        sets := (sets labs room mine).map (fun j => (res.keyset, if res.check && j = res.limbs then 128 else j))
        gate := some ((limbs.map (fun e => gated k labs res (src e.1) e.1 e.2.1)).sum + more k labs room) }
    | _, _ => RoomResult.ofStop d labelReads)

/-- An operation that runs a transform, automorphism or base conversion needs an active key set (R92). -/
def Decision.active (k : KeySet) (base : Label) (d : Decision) : Decision :=
  if d.ends || k.active then d else .stop base cKeyset true

/-! ## Import, export, check, relabel -/

/-- The moduli and words of every word that import or export converts: limbs in use of forms 0 and 1, samples of form 2. -/
def objPieces (s : State) (x : Part) (k : KeySet) (l : Label) (pl : Place) : List (Modulus × Span) :=
  if l.form ≤ 1 then l.inUse.flatMap (fun j => (List.range l.polys).map (fun q => (k.modAt l j, limbSpan x l pl j q)))
  else if l.form = 2 then
    match k.lweP with
    | some m => (List.range l.count).map (fun i => (m, sampleSpan x l pl i))
    | none => []
  else []

/-- A conversion in place of the words of an object (R31): `f` on each word, in the rooms that hold them. -/
def convertRuns (s : State) (room : Nat) (pl : Place) (pieces : List (Modulus × Span)) (f : Modulus → Nat → Nat) :
    List (Nat × List Nat) :=
  (pieces.filter (fun e => e.2.room == room)).map (fun e => (e.2.off - pl.off, (wordsOf (s.spanBytes e.2)).map (f e.1)))

/-- The decision of import and export on one input: its fields stay (R70) but for BODY_BYTES (R561), in coefficient representation (R80). -/
def convertRule (k : KeySet) (base : Label) (l : Label) : Decision :=
  if l.form = 1 && l.t ≠ k.t then .stop base cForm true
  else if l.repr then .stop base cRepr true
  else .budget k base

/-- The decision for a room of import: a plaintext tensor has no words in lane form and only its label is written. -/
def importDecision (x : Part) (a : LabelIn) : Decision :=
  if a.ok && !a.poisoned && a.lab.form = 3 then .go a.lab
  else
    let base := a.source.sized x.rooms.length
    dispatchOn x [a] base [0, 1, 2] (fun k labs => convertRule k base (labs.headD Label.zero)) checkCause

/-- The lane work of a conversion in place of the words of an object in a room: a product with a constant for each word. -/
def State.convertWork (s : State) (room : Nat) (pieces : List (Modulus × Span)) : Nat × List Modulus :=
  let own := pieces.filter (fun e => e.2.room == room)
  ((own.map (fun e => zeroCount (wordsOf (s.spanBytes e.2)))).sum, own.map (·.1))

/-- The gated lane operations of the comparison of an object in a room (R46, R51). -/
def State.compareWork (s : State) (x : Part) (room : Nat) (k : KeySet) (l : Label) (limbs : Nat → Nat → List Nat) : Nat :=
  match l.check, k.checkP with
  | true, some c => ((List.range l.polys).map (fun q =>
      compareGates (4 * (s.room room).pausLeft) (fun t => compareRoom x l t == room)
        ((List.range (l.level + 1)).map (fun j => (k.modAt l j, limbs j q))) c (limbs l.limbs q))).sum
  | _, _ => 0

/-- IMPORT (R31, R32): words become lane-form; a word at or above its prime poisons the object with NONCANONICAL, and every word is
converted. -/
def State.importOp (s : State) (p : Nat) (obj : Place) : State :=
  let x := s.part p
  s.runOp p obj (fun room =>
    let a := s.labelAt x room obj
    let d := importDecision x a
    match d.ends, x.ksOf a.lab with
    | false, some k =>
      let ps := objPieces s x k a.lab obj
      let tooBig := ps.any (fun e => (wordsOf (s.spanBytes e.2)).any (fun w => decide (e.1.p ≤ w)))
      { lab := if tooBig then d.lab.poisonWith cNoncanonical else d.lab, runs := convertRuns s room obj ps toLane, fresh := tooBig,
        reads := obj.labelSpan room :: (ps.map (·.2)).filter (fun sp => sp.room == room), mism := none
        wide := some false, moduli := (s.convertWork room ps).2, gate := some (s.convertWork room ps).1 }
    | _, _ => RoomResult.ofStop d [obj.labelSpan room])

/-- IMPORT (R31). -/
def execImport (p : PartId) (obj : Place) (s : State) : Host.Outcome State Fault Refusal := .next (s.importOp p obj)

/-- The label of a poisoned object whose other fields would pass R65: its limbs can be converted (R79). -/
def exportable (x : Part) (l : Label) : Bool :=
  stageTwo { l with poison := false, cause := 0 : Label }.bytes x.rooms.length

/-- EXPORT (R31, R79, R53): words return to standard form. An object that is not poisoned is compared first; a poisoned object runs too,
keeps POISON and CAUSE and is not compared. When a poisoned object's other fields describe no object, its label alone is
written (log 23). -/
def State.exportOp (s : State) (p : Nat) (obj : Place) : State :=
  let x := s.part p
  let n := x.rooms.length
  s.runOp p obj (fun room =>
    let a := s.labelAt x room obj
    let d := if a.poisoned then
        let go := exportable x a.lab
        { lab := if go then a.lab.sized n else a.lab, ends := !go, fresh := false : Decision }
      else importDecision x a
    match d.ends, x.ksOf a.lab with
    | false, some k =>
      let ps := objPieces s x k a.lab obj
      let compared := !a.lab.poison && decide (a.lab.form ≤ 1)
      let mism := if compared then compareObject k a.lab (s.limb x a.lab obj) else none
      { lab := d.lab, runs := convertRuns s room obj ps fromLane, fresh := false,
        reads := obj.labelSpan room :: (ps.map (·.2)).filter (fun sp => sp.room == room),
        mism := mism.map (fun c => (c, compareRoom x a.lab c == room)), limbs := limbMask a.lab.level, cross := a.lab.check
        conv := if compared && a.lab.check then [k.checkP.toList] else [], wide := some false, moduli := (s.convertWork room ps).2
        gate := some ((s.convertWork room ps).1 + (if compared then s.compareWork x room k a.lab (s.limb x a.lab obj) else 0)) }
    | _, _ => RoomResult.ofStop d [obj.labelSpan room])

/-- EXPORT (R79). -/
def execExport (p : PartId) (obj : Place) (s : State) : Host.Outcome State Fault Refusal := .next (s.exportOp p obj)

/-- The bytes of a label copy that the check operation compares (R87). -/
def checkedBytes (b : List Byte) : List Byte := b.take 24 ++ (b.drop 32).take 28

/-- The label copies of an object agree: each passes the first stage, and all compared bytes are equal. -/
def copiesAgree (copies : List (List Byte)) : Bool :=
  copies.all stageOne && (match copies with | [] => true | c :: t => t.all (fun d => checkedBytes d == checkedBytes c))

/-- CHECK (R87, R53): copies that differ poison every copy with BAD_LABEL, the fields taken from the first sound copy; an object whose label
is not valid, whose T is not its key set's t in form 1 (R68), or that is not in coefficient representation (R80), ends at dispatch (R76); otherwise the
check limbs are compared. The operation has no output: a poisoned object and one whose check passes stay as they are (log 75). DESIGN CHOICE (log 79):
copies that differ count as newly poisoned BAD_LABEL also where the copy that gives the fields was poisoned already (R78 does not say). -/
def State.checkOp (s : State) (p : Nat) (obj : Place) : State :=
  let x := s.part p
  let n := x.rooms.length
  let copies := x.rooms.map (fun r => s.spanBytes (obj.labelSpan r))
  let base := match copies.find? stageOne with | some b => labelOf b | none => Label.zero
  let l := labelOf (copies.headD [])
  let reads := x.rooms.map obj.labelSpan
  let spoil (c : Nat) : RoomResult :=
    { lab := { base with poison := true, cause := c }, runs := [], fresh := true, reads := reads, mism := none, gate := some 0 }
  let keep : RoomResult := { lab := l, runs := [], fresh := false, reads := reads, mism := none, silent := true, gate := some 0 }
  let stop (c : Nat) : RoomResult := .ofStop (.stop ((labelIn (copies.headD []) n).source.sized n) c true) reads
  s.runOp p obj (fun room =>
    if !copiesAgree copies then spoil cBadLabel
    else if l.poison then keep
    else if !(labelIn (copies.headD []) n).ok then stop cBadLabel
    else if x.wrongT l then stop cForm
    else if (checkCause (x.keyset l.keyset) [l]).isSome then stop cKeyset
    else if l.form ≠ 3 && (x.ksOf l).isNone then stop cKeyset
    else if l.repr then stop cRepr
    else
      match x.ksOf l with
      | some k =>
        let mism := compareObject k l (s.limb x l obj)
        { keep with
          reads := reads ++ (if l.check then objSpans x l obj else []),
          mism := mism.map (fun c => (c, compareRoom x l c == room)), limbs := limbMask l.level, cross := l.check
          conv := if l.check then [k.checkP.toList] else [], gate := some (s.compareWork x room k l (s.limb x l obj)) }
      | none => keep)

/-- CHECK (R87). -/
def execCheck (p : PartId) (obj : Place) (s : State) : Host.Outcome State Fault Refusal := .next (s.checkOp p obj)

/-- RELABEL (R69): NOISE is lowered; a value that is not lower is no relabel (log 13). A form 1 object of another plaintext modulus fails (R68). -/
def State.relabelOp (s : State) (p : Nat) (obj : Place) (noise : Nat) : State :=
  let x := s.part p
  s.runOp p obj (fun room =>
    let a := s.labelAt x room obj
    let d : Decision := match inputCause [a] with
      | some (c, fresh) => .stop a.source c fresh
      | none => if x.wrongT a.lab then .stop a.source cForm true else .go { a.lab with noise := min noise a.lab.noise }
    RoomResult.ofStop d [obj.labelSpan room])

/-- RELABEL (R69). -/
def execRelabel (p : PartId) (obj : Place) (noise : Nat) (s : State) : Host.Outcome State Fault Refusal :=
  .next (s.relabelOp p obj noise)

/-! ## Addition and products -/

/-- The label of an addition or subtraction (R70). -/
def addRule (k : KeySet) (base : Label) (labs : List Label) : Decision :=
  match labs with
  | [a, b] =>
    match pairCause k 0 a b with
    | some c => .stop base c true
    | none =>
      if !k.covers b then .stop base cKeyset true
      else .budget k { base with level := min a.level b.level, scale := a.scale, noise := satNoise (max a.noise b.noise + 256), repr := a.repr }
  | _ => .stop base cForm true

/-- Conditions 1 and 2 of R71 on the inputs of an operation with two. -/
def shapeOf (product : Nat) (k : Option KeySet) (labs : List Label) : Option Nat :=
  match labs with
  | [a, b] => pairShape k product a b
  | _ => none

/-- The gated operations among multiply-adds of words (R46). -/
def gatedIn (xs ys zs : List Nat) : Nat := ((xs.zip (ys.zip zs)).filter (fun e => macGated e.1 e.2.1 e.2.2)).length

/-- A sum of two words as a multiply-add by 1 is gated when both are zero. -/
def addGated (_ : KeySet) (_ : List Label) (res : Label) (src : Nat → Nat → List Nat) (_ q : Nat) : Nat :=
  gatedIn (src 0 q) (List.replicate res.n 1) (src 1 q)

/-- Words of a two-input lane operation. -/
def zipLane (f : Modulus → Nat → Nat → Nat) (m : Modulus) (a b : List Nat) : List Nat := List.zipWith (f m) a b

/-- ADD (R70). -/
def execAdd (p : PartId) (dst a b : Place) (s : State) : Host.Outcome State Fault Refusal :=
  .next (s.localOp p dst [a, b] none [0, 1] addRule (fun k _ res src j q => zipLane laneAdd (k.modAt res j) (src 0 q) (src 1 q))
    (shape := shapeOf 0) (gated := addGated))

/-- SUBTRACT (R70). -/
def execSubtract (p : PartId) (dst a b : Place) (s : State) : Host.Outcome State Fault Refusal :=
  .next (s.localOp p dst [a, b] none [0, 1] addRule (fun k _ res src j q => zipLane laneSub (k.modAt res j) (src 0 q) (src 1 q))
    (shape := shapeOf 0) (gated := addGated))

/-- The label of a multiplication by an integer (R70). The NOISE of a product with 0, for which R70 states none, is a free value
of the operand's (log 24). -/
def mulIntRule (c : Int) (k : KeySet) (base : Label) (labs : List Label) : Decision :=
  match labs with
  | [a] =>
    if !formOk k [0, 1] [1, 2, 3] a then .stop base cForm true
    else
      let noise := if c = 0 then (Config.zeroNoise a.noise).toNat else satNoise (a.noise + ceil256 c.natAbs)
      .budget k { base with level := a.level, scale := a.scale, noise := noise, repr := a.repr }
  | _ => .stop base cForm true

/-- A constant as a broadcast word in lane form. -/
def laneConst (m : Modulus) (c : Int) : Nat := toLane m (c % (m.p : Int)).toNat

/-- MULTIPLY_BY_INTEGER (R70). -/
def execMultiplyByInteger (p : PartId) (dst a : Place) (c : Int) (s : State) : Host.Outcome State Fault Refusal :=
  .next (s.localOp p dst [a] none [0, 1] (mulIntRule c)
    (fun k _ res src j q => let m := k.modAt res j; (src 0 q).map (laneMul m (laneConst m c)))
    (gated := fun k _ res src j q => gatedIn (src 0 q) (List.replicate res.n (laneConst (k.modAt res j) c)) (List.replicate res.n 0)))

/-- The label of a product with a plaintext polynomial (R70). -/
def mulPlainRule (k : KeySet) (base : Label) (labs : List Label) : Decision :=
  match labs with
  | [a, b] =>
    match pairCause k 1 a b with
    | some c => .stop base c true
    | none =>
      if !k.covers b then .stop base cKeyset true
      else if a.form = 0 then
        .budget k { base with level := min a.level b.level, scale := a.scale + b.scale, noise := satNoise (a.noise + b.scale + a.g), repr := true }
      else .budget k { base with level := a.level, scale := 0, noise := satNoise (a.noise + k.tau + a.g), repr := true }
  | _ => .stop base cForm true

/-- MULTIPLY_BY_PLAINTEXT (R70, R183). -/
def execMultiplyByPlaintext (p : PartId) (dst a b : Place) (s : State) : Host.Outcome State Fault Refusal :=
  .next (s.localOp p dst [a, b] none [0, 1] mulPlainRule
    (fun k _ res src j q => zipLane laneMul (k.modAt res j) (src 0 q) (src 1 0)) (shape := shapeOf 1)
    (gated := fun _ _ res src _ q => gatedIn (src 0 q) (src 1 0) (List.replicate res.n 0)))

/-- The label of a tensor product (R70). -/
def tensorRule (k : KeySet) (base : Label) (labs : List Label) : Decision :=
  match labs with
  | [a, b] =>
    match pairCause k 2 a b with
    | some c => .stop base c true
    | none =>
      if !k.covers b then .stop base cKeyset true
      else if a.form = 0 then
        .budget k { base with level := min a.level b.level, scale := a.scale + b.scale,
                              noise := satNoise (max (a.noise + b.scale) (b.noise + a.scale) + a.g + 256), repr := true }
      else .budget k { base with level := a.level, scale := 0, noise := satNoise (max a.noise b.noise + k.tau + a.g + 256), repr := true }
  | _ => .stop base cForm true

/-- TENSOR_PRODUCT (R70): the three polynomials of a product of two pairs. -/
def execTensorProduct (p : PartId) (dst a b : Place) (s : State) : Host.Outcome State Fault Refusal :=
  .next (s.localOp p dst [a, b] (some 3) [0, 1] tensorRule (fun k _ res src j q =>
    let m := k.modAt res j
    let mul := zipLane laneMul m
    if q = 0 then mul (src 0 0) (src 1 0)
    else if q = 1 then zipLane laneAdd m (mul (src 0 0) (src 1 1)) (mul (src 0 1) (src 1 0))
    else mul (src 0 1) (src 1 1)) (shape := shapeOf 2)
    (gated := fun k _ res src j q =>
      let zero := List.replicate res.n 0
      if q = 0 then gatedIn (src 0 0) (src 1 0) zero
      else if q = 1 then gatedIn (src 0 0) (src 1 1) zero + gatedIn (src 0 1) (src 1 0) (zipLane laneMul (k.modAt res j) (src 0 0) (src 1 1))
      else gatedIn (src 0 1) (src 1 1) zero))

/-! ## Rescale, modulus switch, level drop -/

/-- The label of a rescale (form 0) or modulus switch (form 1) (R70, R72, R92). -/
def rescaleRule (form : Nat) (k : KeySet) (base : Label) (labs : List Label) : Decision :=
  match labs with
  | [a] =>
    if !formOk k [form] [1, 2, 3] a then .stop base cForm true
    else if a.level = 0 then .stop base cExhausted true
    else
      let lq : Int := k.lam1 a.level
      let d := Decision.budget k { base with
        level := a.level - 1, scale := if form = 0 then a.scale - lq else 0, noise := satNoise (max (a.noise - lq) (a.g + 256) + 256), repr := a.repr }
      if a.repr then d.active k base else d
  | _ => .stop base cForm true

/-- The centred representative of a residue (R562). -/
def centred (p x : Nat) : Int := if p < 2 * x then (x : Int) - p else x

/-- The centred removed limb λ of a rescale (R562), as a limb modulo q_i in coefficient representation. -/
def rescaleLam (mi ml : Modulus) (logN : Nat) (repr : Bool) (cl : List Nat) : List Nat :=
  (toCoeff ml logN repr cl).map (fun x => laneConst mi (centred ml.p (fromLane ml x)))

/-- One limb of a rescale (R562): (c_i − λ)·q_ℓ^(−1) mod q_i, with λ the centred removed limb. -/
def rescaleLimb (mi ml : Modulus) (logN : Nat) (repr : Bool) (ci cl : List Nat) : List Nat :=
  let lam := rescaleLam mi ml logN repr cl
  let lam2 := if repr then nttForward mi logN lam else lam
  let inv := toLane mi (modInv (ml.p % mi.p) mi.p)
  List.zipWith (fun c l => laneMul mi (laneSub mi c l) inv) ci lam2

/-- The gated operations of one limb of a rescale: those of λ's transform, and one multiply-add for each word. -/
def rescaleGates (mi ml : Modulus) (logN : Nat) (repr : Bool) (ci cl : List Nat) : Nat :=
  let lam := rescaleLam mi ml logN repr cl
  if repr then forwardGates mi logN lam + flyCount ci (nttForward mi logN lam) else flyCount ci lam

/-- The words of a rescale or modulus switch. The removed limb is read, and transformed, in the room that holds it; in coefficient representation no transform
runs, and no twiddle set is needed (R92, R93). -/
def State.rescaleOp (s : State) (p : Nat) (dst a : Place) (form : Nat) : State :=
  let x := s.part p
  s.localOp p dst [a] none [form] (rescaleRule form) (fun k labs res src j q =>
    let l := labs.headD Label.zero
    rescaleLimb (k.modAt res j) (k.modAt l l.level) l.logN l.repr (src 0 q) (s.limb x l a l.level q))
    (fun labs => let l := labs.headD Label.zero; (List.range l.polys).map (limbSpan x l a l.level))
    (gated := fun k labs res src j q =>
      let l := labs.headD Label.zero
      rescaleGates (k.modAt res j) (k.modAt l l.level) l.logN l.repr (src 0 q) (s.limb x l a l.level q))
    (more := fun k labs room =>
      let l := labs.headD Label.zero
      if l.repr && ownsPair x l room l.level then
        ((List.range l.polys).map (fun q => inverseGates (k.modAt l l.level) l.logN (s.limb x l a l.level q))).sum
      else 0)
    (passes := fun _ => none)
    (sets := fun labs room mine =>
      let l := labs.headD Label.zero
      if l.repr then mine ++ (if ownsPair x l room l.level then [l.level] else []) else [])

/-- RESCALE (R562). -/
def execRescale (p : PartId) (dst a : Place) (s : State) : Host.Outcome State Fault Refusal :=
  .next (s.rescaleOp p dst a 0)

/-- MODULUS_SWITCH (R562). -/
def execModulusSwitch (p : PartId) (dst a : Place) (s : State) : Host.Outcome State Fault Refusal :=
  .next (s.rescaleOp p dst a 1)

/-- The label of a level drop (R70, R72). -/
def levelDropRule (drop : Nat) (k : KeySet) (base : Label) (labs : List Label) : Decision :=
  match labs with
  | [a] =>
    if !formOk k [0] [1, 2, 3] a then .stop base cForm true
    else if a.level < drop then .stop base cExhausted true
    else .budget k { base with level := a.level - drop, scale := a.scale, noise := a.noise, repr := a.repr }
  | _ => .stop base cForm true

/-- A level drop in place rewrites the label only (R70): no limb is read or written. -/
def State.dropInPlace (s : State) (p : Nat) (a : Place) (drop : Nat) : State :=
  let x := s.part p
  s.runOp p a (fun room =>
    let ins := [s.labelAt x room a]
    let base := baseLabel ins none x.rooms.length
    RoomResult.ofStop (dispatchOn x ins base [0] (fun k labs => levelDropRule drop k base labs) checkCause) [a.labelSpan room])

/-- LEVEL_DROP (R70): in place, or a copy of the limbs in use to another place. -/
def execLevelDrop (p : PartId) (dst a : Place) (k : Nat) (s : State) : Host.Outcome State Fault Refusal :=
  .next
    (if dst = a then s.dropInPlace p a k
    else s.localOp p dst [a] none [0] (levelDropRule k) (fun _ _ _ src _ q => src 0 q) (lanes := false))

/-! ## Transform and automorphism -/

/-- The label of a transform toward a representation (R98). -/
def transformRule (toEv : Bool) (k : KeySet) (base : Label) (labs : List Label) : Decision :=
  match labs with
  | [a] =>
    if !formOk k [0, 1] [1, 2, 3] a then .stop base cForm true
    else if a.repr = toEv then .stop base cRepr true
    else (Decision.budget k { base with level := a.level, scale := a.scale, noise := a.noise, repr := toEv }).active k base
  | _ => .stop base cForm true

/-- TRANSFORM (R98): each of its two passes reads and writes every word once (R95); a room needs the twiddle sets of the limbs it holds (R93). -/
def execTransform (p : PartId) (dst a : Place) (toEval : Bool) (s : State) : Host.Outcome State Fault Refusal :=
  .next (s.localOp p dst [a] none [0, 1] (transformRule toEval) (fun k _ res src j q =>
      let m := k.modAt res j
      if toEval then nttForward m res.logN (src 0 q) else nttInverse m res.logN (src 0 q))
    (gated := fun k _ res src j q =>
      let m := k.modAt res j
      if toEval then forwardGates m res.logN (src 0 q) else inverseGates m res.logN (src 0 q))
    (passes := fun n => some (n, n)) (sets := fun _ _ mine => mine) (q := 1))

/-- The label of an automorphism of a plaintext polynomial (R105). -/
def autoRule (k : KeySet) (base : Label) (labs : List Label) : Decision :=
  match labs with
  | [a] =>
    if !formOk k [0, 1] [1] a then .stop base cForm true
    else (Decision.budget k { base with level := a.level, scale := a.scale, noise := a.noise, repr := a.repr }).active k base
  | _ => .stop base cForm true

/-- The blocks of a source and a destination share bytes of a room (R114). -/
def placesOverlap (dst a : Place) (len : Nat) : Bool :=
  dst.cellar == a.cellar && decide (dst.off < a.off + len) && decide (a.off < dst.off + len)

/-- AUTOMORPHISM (R105): the landing alone, with no lane operation and no twiddle (R100). Where source and destination overlap, the destination's words are free values (R114, log 4). -/
def execAutomorphism (p : PartId) (dst a : Place) (code : Word) (s : State) : Host.Outcome State Fault Refusal :=
  .next
    ((s.localOp p dst [a] none [0, 1] autoRule (fun k labs res src j q =>
        let l := labs.headD Label.zero
        if placesOverlap dst a (128 + l.bodyBytes) then
          (List.range res.n).map (fun i => (Config.openWord (s.free + (j * 4 + q) * 2 ^ 17 + i)).toNat)
        else autoLimb (k.modAt res j).p res.logN (galois res.logN code.toNat) res.repr (src 0 q))
        (lanes := false) (q := 1)).draw (2 ^ 25))

end Sys2Proof.Machine
end

