-- ==== Sys2Proof/Machine/KeySwitch.lean ====
section
/-! DEFINITION. Key switching (05): the expander, the phases of R127, relinearise, rotate, conjugate, key switch, hoisted rotate,
rotate-accumulate, pin and unpin. -/

namespace Sys2Proof.Machine

/-! ## Keys in use -/

/-- A key that an operation uses: its header, whether its pinned copies serve it (R133), and the index entry by which each room of the partition streams
it, by physical room. -/
structure KeyUse where
  hdr : KeyHdr
  pinned : Bool
  ents : List (Nat × KeyEntry) := []

/-- The registered key of an index and epoch: the current one, or the previous one of a replacement (R122). -/
def Part.keyByEpoch (x : Part) (index : Nat) (epoch : BitVec 32) : Option KeyHdr :=
  let e := x.keyAt index
  match e.cur, e.prev with
  | some h, some g => if h.epoch = epoch then some h else if g.epoch = epoch then some g else none
  | some h, none => if h.epoch = epoch then some h else none
  | none, some g => if g.epoch = epoch then some g else none
  | none, none => none

/-- The attic offset of the pinned copy of a key in a room: that of its own epoch (R122, R133). -/
def Part.pinOf (x : Part) (lut : Bool) (index : Nat) (epoch : BitVec 32) (room : Nat) : Option Nat :=
  (x.pins.find? (fun q => q.lut == lut && q.key == index && q.epoch == epoch && q.rooms.contains room)).map (·.off)

/-- The key that a resolved index entry names. -/
def Part.keyUse (x : Part) (e : KeyEntry) : Option KeyUse :=
  match e.key with
  | some (i, ep) =>
    match x.keyByEpoch i ep with
    | some h => some { hdr := h, pinned := e.pinned }
    | none => none
  | none => none

/-- The attic offset of the pinned copy by which a room serves its positions of a key: that of a room whose own entry resolved to a pinned key (R133). -/
def KeyUse.pinIn (u : KeyUse) (x : Part) (room : Nat) : Option Nat :=
  if (match u.ents.find? (fun e => e.1 == room) with | some e => e.2.pinned | none => u.pinned) then
    x.pinOf false u.hdr.index u.hdr.epoch room
  else none

/-- The span of the stored limb of a key's position j and digit d (R118, R120, R133). -/
def keySpan (x : Part) (u : KeyUse) (j d : Nat) : Span :=
  let n := max x.rooms.length 1
  let rel := (j / n * u.hdr.digits + d) * (4 * 2 ^ u.hdr.logN)
  let pin := u.pinIn x (x.roomAt (j % n))
  { room := x.roomAt (j % n), cellar := pin.isNone, off := (match pin with | some o => o | none => u.hdr.home + 128) + rel,
    len := 4 * 2 ^ u.hdr.logN }

/-! ## The key window (R130, R131) -/

/-- The positions and digits that a room fetches for an entry of a level, in the order of the key's body (R120, R130): for every digit below β(LEVEL), its
positions j ≤ LEVEL and j ≥ KEY_LIMBS. -/
def entryLimbs (x : Part) (h : KeyHdr) (level room : Nat) : List (Nat × Nat) :=
  ((List.range h.positions).filter
      (fun j => (decide (j ≤ level) || decide (h.keyLimbs ≤ j)) && x.roomAt (j % max x.rooms.length 1) == room)).flatMap
    (fun j => (List.range (min (ceilDiv (level + 1) (max h.alpha 1)) h.digits)).map (fun d => (j, d)))

/-- The pieces of 16 KiB, a quarter of a tile, of a span: the smallest limb is one piece (R60). -/
def Span.quarters (x : Span) : List Span := (List.range (x.len / 16384)).map (fun i => { x with off := x.off + 16384 * i, len := 16384 })

/-- What a room fetches from its stack for an entry, in quarters of tiles. -/
def entryQuarters (x : Part) (h : KeyHdr) (level room : Nat) : List Span :=
  (entryLimbs x h level room).flatMap (fun e => (keySpan x { hdr := h, pinned := false } e.1 e.2).quarters)

/-- The tiles of 64 KiB that a room needs for an entry (R131). -/
def entryTiles (x : Part) (h : KeyHdr) (level room : Nat) : Nat := ceilDiv (entryQuarters x h level room).length 4

/-- An entry's ROT names a key: the same word, or in KIND 1 the same rotation code, whose K counts modulo N/2 and whose reserved bits are
ignored (R101, R115). -/
def KeyHdr.namedBy (h : KeyHdr) (rot : Word) : Bool :=
  if h.kind = 1 then canonCode h.logN h.rot.toNat == canonCode h.logN rot.toNat else h.rot == rot

/-- The registered key that an index entry resolves to in a room (R130, R122). -/
def Part.resolveKey (x : Part) (room : Nat) (rot : Word) (keyset kind : Nat) : Option KeyHdr :=
  x.keys.findSome? (fun e =>
    match e.2.inRoom room with
    | some h => if h.keyset == keyset && h.kind == kind && h.namedBy rot then some h else none
    | none => none)

/-- An entry of a key index stream as a channel of a room resolves it (R129, R130). A key pinned in the room fetches nothing (R133). -/
def Part.entryOf (x : Part) (room chan word : Nat) : KeyEntry :=
  let rot := BitVec.ofNat 32 word
  let level := bitsOf word 55 50
  let hdr := x.resolveKey room rot (bitsOf word 47 32) (bitsOf word 49 48)
  let pin := (hdr.bind (fun h => x.pinOf false h.index h.epoch room)).isSome
  { rot := rot, keyset := bitsOf word 47 32, kind := bitsOf word 49 48, level := level, hoist := bitOf word 56,
    key := hdr.map (fun h => (h.index, h.epoch)), pinned := pin, chan := chan
    tiles := if pin then 0 else match hdr with | some h => entryTiles x h level room | none => 0 }

/-- The lines of an index stream that are read for entry `k` (R250): those in which it is the first to have a byte. -/
def Desc.indexLines (d : Desc) (k : Nat) : List Nat :=
  let off := d.idxBase + 8 * k
  let before := if k = 0 then off / 128 else (off - 1) / 128
  (if k = 0 then [off / 128] else []) ++ (if (off + 7) / 128 ≠ before then [(off + 7) / 128] else [])

/-- The span of index entry `k` in its channel's own room (R249). -/
def Desc.entrySpan (d : Desc) (room k : Nat) : Span := { room := room, cellar := d.idxSpace = 1, off := d.idxBase + 8 * k, len := 8 }

/-- The KEY stream in progress in a room, with the index entry that it reads next (R131). -/
def Room.keyStream (x : Room) : Option (Nat × Issued × Nat) :=
  (List.range 16).findSome? (fun c =>
    if (Tab.get {} x.channels c).state == .halted then none
    else (Tab.get {} x.channels c).issued.findSome? (fun i => (i.keyAt.filter (fun k => decide (k < i.desc.idxCount))).map (fun k => (c, i, k))))

/-- The KEY stream in progress in a room reads its next entry for an operation that takes several: as the operation goes on, the tiles of its earlier entries return
(R131). An entry that cannot be read is left to the channel. -/
def State.pullEntry (s : State) (p room : Nat) : Option State :=
  match (s.room room).keyStream with
  | some (c, i, k) =>
    let lines := (i.desc.indexLines k).map (fun l => ({ room := room, cellar := i.desc.idxSpace = 1, off := 128 * l, len := 128 } : Span))
    if lines.any (fun l => l.outside || (s.spanBad l && !(s.room room).takesErrors)) then none
    else
      let t := lines.foldl State.countRead s
      let x := t.room room
      let h := Tab.get {} x.channels c
      some (t.setRoom room { x with
        keyEntries := x.keyEntries ++ [(s.part p).entryOf room c (leNat (s.spanBytes (i.desc.entrySpan room k)))]
        channels := Tab.set {} x.channels c { h with issued := h.issued.map (fun q => if q.no = i.no then { q with keyAt := some (k + 1) } else q) }
        counters := { x.counters with streamRd := x.counters.streamRd + BitVec.ofNat 48 lines.length } })
  | none => none

/-- A room's KEY stream in progress reads up to `n` further entries. -/
def State.pull (s : State) (p room : Nat) : Nat → State
  | 0 => s
  | n + 1 => match s.pullEntry p room with | some t => t.pull p room n | none => s

/-- The state in which an operation of `n room` entries runs: once its first entry has been read, the KEY streams in progress read the others as it takes them. -/
def State.pulled (s : State) (p : Nat) (n : Nat → Nat) (q : Nat := 0) : State :=
  (s.opRooms p q).foldl (fun t room =>
    let have_ := (s.room room).keyEntries.length
    if have_ = 0 then t else t.pull p room (n room - have_)) s

/-- The span of quarter `t` of an entry in the window of its room, when its tile has been fetched. -/
def KeyEntry.quarterAt (e : KeyEntry) (w : KeyWindow) (room t : Nat) : Option Span :=
  (e.ids[t / 4]?).map (fun id => { room := room, cellar := false, off := w.base + 65536 * id + 16384 * (t % 4), len := 16384 })

/-- The tiles of an entry whose contents are there to be read. -/
def Room.fetched (x : Room) (e : KeyEntry) : Nat := if x.block.any (fun b => b.stale.contains e) then 0 else e.ids.length

/-- Where the stored limb of position j and digit d is read for a key product (R131, R133, R139): in the pinned copy; else in the window of the position's
room, quarter by quarter, a quarter not yet fetched in the stack. A room that streams another key for the operation shows its stack. -/
def State.limbSource (s : State) (x : Part) (u : KeyUse) (j d : Nat) : List Span :=
  let sp := keySpan x u j d
  if !sp.cellar then [sp]
  else
    match u.ents.find? (fun e => e.1 == sp.room && e.2.key == some (u.hdr.index, u.hdr.epoch)) with
    | some e =>
      let ls := entryLimbs x u.hdr e.2.level sp.room
      let k := ls.findIdx (· == (j, d)) * (sp.len / 16384)
      let y := s.room sp.room
      sp.quarters.zipIdx.map (fun q => if (k + q.2) / 4 < y.fetched e.2 then (e.2.quarterAt y.window sp.room (k + q.2)).getD q.1 else q.1)
    | none => [sp]

/-- The counter block of the expander (R123). -/
def keyCounter (h : KeyHdr) (pair j d : Nat) : List Byte :=
  leBytes 4 pair ++ leBytes 1 j ++ leBytes 1 d ++ leBytes 2 h.index ++ leBytes 4 h.epoch.toNat ++ leBytes 2 h.keyset ++
    leBytes 1 h.logN ++ leBytes 1 0xA5

/-- The two words of one expander output modulo a prime (R124). -/
def expandPair (m : Modulus) (o : List Byte) : List Nat := [ladderReduce m (fieldOf o 0 8), ladderReduce m (fieldOf o 8 8)]

/-- The expanded limb a_d of a key at position j (R123, R124). -/
def expandLimb (h : KeyHdr) (rks : List (List Byte)) (j d : Nat) (m : Modulus) : List Nat :=
  (List.range (2 ^ h.logN / 2)).flatMap (fun i => expandPair m (aesWith rks (keyCounter h i j d)))

/-! ## The phases of R127 -/

/-- A limb at a position of the key: position index, modulus, words. -/
abbrev PosLimb := Nat × Modulus × List Nat

/-- The positions in use at a level (R118, R127). -/
def positionsOf (k : KeySet) (h : KeyHdr) (level : Nat) (chk : Bool) : List (Nat × Modulus) :=
  (List.range (level + 1)).flatMap (fun i => ((k.chain[i]?).toList.map (fun m => (i, m)))) ++
    (if chk then k.checkP.toList.map (fun m => (h.keyLimbs, m)) else []) ++
    (List.range h.special).flatMap (fun i => (k.special[i]?).toList.map (fun m => (h.keyLimbs + (if h.check then 1 else 0) + i, m)))

/-- The chain limbs of a digit at a level: the first, and the one after the last. -/
def digitLimbs (h : KeyHdr) (level dig : Nat) : Nat × Nat := (dig * h.alpha, min (dig * h.alpha + h.alpha) (level + 1))

/-- The source limbs of a digit's conversion. -/
def digitSource (k : KeySet) (h : KeyHdr) (level dig : Nat) (d : Nat → List Nat) : List (Modulus × List Nat) :=
  let e := digitLimbs h level dig
  (List.range (e.2 - e.1)).flatMap (fun i => (k.chain[e.1 + i]?).toList.map (fun m => (m, d (e.1 + i))))

/-- The digits of a polynomial given by its coefficient limbs, raised to every position, in coefficient representation. -/
def raiseCoeffs (k : KeySet) (h : KeyHdr) (logN level : Nat) (chk : Bool) (d : Nat → List Nat) : List (List PosLimb) :=
  (List.range (ceilDiv (level + 1) h.alpha)).map (fun dig =>
    let b := digitLimbs h level dig
    let ys := convSource (digitSource k h level dig d)
    (positionsOf k h level chk).map (fun e =>
      (e.1, e.2, if b.1 ≤ e.1 && e.1 < b.2 then d e.1 else convTo ys (2 ^ logN) e.2)))

/-- Phase 2: the digits of a polynomial given by its coefficient limbs, raised to every position, in evaluation representation. -/
def raiseDigits (k : KeySet) (h : KeyHdr) (logN level : Nat) (chk : Bool) (d : Nat → List Nat) : List (List PosLimb) :=
  (raiseCoeffs k h logN level chk d).map (fun l => l.map (fun e => (e.1, e.2.1, nttForward e.2.1 logN e.2.2)))

/-- The automorphism applied to raised digits (R137). -/
def autoDigits (logN g : Nat) (ds : List (List PosLimb)) : List (List PosLimb) :=
  ds.map (fun l => l.map (fun e => (e.1, e.2.1, autoEval e.2.1.p logN g e.2.2)))

/-- Lane-form limbs added position by position. -/
def addLimbs (a b : List PosLimb) : List PosLimb :=
  List.zipWith (fun x y => (x.1, x.2.1, List.zipWith (laneAdd x.2.1) x.2.2 y.2.2)) a b

/-- Phase 3 for one digit and one half of the key. -/
def digitProduct (l : List PosLimb) (key : Nat → Modulus → List Nat) : List PosLimb :=
  l.map (fun e => (e.1, e.2.1, List.zipWith (laneMul e.2.1) e.2.2 (key e.1 e.2.1)))

/-- A sum of limb lists. -/
def sumLimbs : List (List PosLimb) → List PosLimb
  | [] => []
  | [a] => a
  | a :: t => addLimbs a (sumLimbs t)

/-- Phase 3: both accumulators. Bytes of the key's stored half are read where it lies. -/
def State.keyProduct (s : State) (x : Part) (u : KeyUse) (ds : List (List PosLimb)) : List PosLimb × List PosLimb :=
  let rks := roundKeys (leBytes 32 u.hdr.seed.toNat)
  let ix := ds.zipIdx
  (sumLimbs (ix.map (fun e => digitProduct e.1 (fun j _ => (s.limbSource x u j e.2).flatMap (fun sp => wordsOf (s.spanBytes sp))))),
   sumLimbs (ix.map (fun e => digitProduct e.1 (fun j m => expandLimb u.hdr rks j e.2 m))))

/-- The special limbs of an accumulator in coefficient representation, behind its `nT` chain and check limbs. -/
def specialSource (logN nT : Nat) (acc : List PosLimb) : List (Modulus × List Nat) := (acc.drop nT).map (fun e => (e.2.1, nttInverse e.2.1 logN e.2.2))

/-- Phases 4 and 5: the special limbs are converted back, and every chain and check limb becomes P^(−1)·(acc − conv). -/
def modDown (h : KeyHdr) (logN level : Nat) (chk : Bool) (acc : List PosLimb) : List (List Nat) :=
  let nT := level + 1 + (if chk then 1 else 0)
  let sp := specialSource logN nT acc
  let ys := convSource sp
  let pp := prodOf (sp.map (·.1))
  (acc.take nT).map (fun e =>
    let m := e.2.1
    let conv := nttForward m logN (convTo ys (2 ^ logN) m)
    let inv := toLane m (modInv (pp % m.p) m.p)
    List.zipWith (fun a c => laneMul m (laneSub m a c) inv) e.2.2 conv)

/-! ## Gated lane operations of a key switch (R46) -/

/-- A room's part in the lane work of an operation over the partition: its lane groups in service, the coefficients of its slab (R109), and the positions whose limbs
it holds (R118). -/
structure LaneView where
  groups : Nat
  keep : Nat → Bool
  own : Nat → Bool

/-- A room's part in an operation at a ring size. -/
def State.laneView (s : State) (x : Part) (room logN : Nat) : LaneView :=
  { groups := 4 * (s.room room).pausLeft, keep := fun t => x.roomAt (slabRoom x.rooms.length logN t) == room
    own := fun j => x.roomAt (j % max x.rooms.length 1) == room }

/-- A count over the limbs at a room's positions. -/
def LaneView.count (v : LaneView) (f : Modulus → List Nat → Nat) (l : List PosLimb) : Nat :=
  ((l.filter (fun e => v.own e.1)).map (fun e => f e.2.1 e.2.2)).sum

/-- Those of phase 2: the conversion of each digit to the other positions, and the forward transforms; a digit's own limbs need one only when the polynomial came in
coefficient representation. -/
def LaneView.raise (v : LaneView) (k : KeySet) (h : KeyHdr) (logN level : Nat) (chk repr : Bool) (d : Nat → List Nat) : Nat :=
  ((raiseCoeffs k h logN level chk d).zipIdx.map (fun e =>
    let b := digitLimbs h level e.2
    let other := e.1.filter (fun q => !(b.1 ≤ q.1 && q.1 < b.2))
    convGates v.groups v.keep (digitSource k h level e.2 d) (other.map (·.2.1)) +
      v.count (fun m => forwardGates m logN) (if repr then other else e.1))).sum

/-- Those of phase 3 for one half of the key. -/
def LaneView.products (v : LaneView) (ds : List (List PosLimb)) (key : Nat → Nat → Modulus → List Nat) : Nat :=
  (ds.zipIdx.foldl (fun (a : List PosLimb × Nat) e =>
    let z := if a.1.isEmpty then e.1.map (fun q => (q.1, q.2.1, List.replicate q.2.2.length 0)) else a.1
    (addLimbs z (digitProduct e.1 (key e.2)),
     a.2 + (((z.zip e.1).filter (fun q => v.own q.2.1)).map (fun q => gatedIn q.2.2.2 (key e.2 q.2.1 q.2.2.1) q.1.2.2)).sum)) ([], 0)).2

/-- Those of phases 4 and 5 for one accumulator. -/
def LaneView.down (v : LaneView) (h : KeyHdr) (logN level : Nat) (chk : Bool) (acc : List PosLimb) : Nat :=
  let nT := level + 1 + (if chk then 1 else 0)
  let sp := specialSource logN nT acc
  let ys := convSource sp
  v.count (fun m => inverseGates m logN) (acc.drop nT) + convGates v.groups v.keep sp ((acc.take nT).map (·.2.1)) +
    v.count (fun m ws => let c := convTo ys (2 ^ logN) m; forwardGates m logN c + flyCount ws (nttForward m logN c)) (acc.take nT)

/-- The words of a key product's stored half and of its expanded half, by digit, position and modulus. -/
def State.keyHalves (s : State) (x : Part) (u : KeyUse) : (Nat → Nat → Modulus → List Nat) × (Nat → Nat → Modulus → List Nat) :=
  let rks := roundKeys (leBytes 32 u.hdr.seed.toNat)
  (fun d j _ => (s.limbSource x u j d).flatMap (fun sp => wordsOf (s.spanBytes sp)), fun d j m => expandLimb u.hdr rks j d m)

/-- Those of the comparisons of both polynomials of a result, and of the inverse transforms of their copies (R128). -/
def State.endGates (s : State) (v : LaneView) (x : Part) (room : Nat) (k : KeySet) (res : Label) (out : List (Nat × Nat × List Nat)) : Nat :=
  let limb (j q : Nat) : List Nat := ((out.find? (fun e => e.1 == j && e.2.1 == q)).map (·.2.2)).getD []
  if res.check then
    ((out.filter (fun e => ownsPair x res room e.1)).map (fun e => inverseGates (k.modAt res e.1) res.logN e.2.2)).sum +
      ((List.range 2).map (fun q => match k.checkP with
        | some c => compareGates v.groups v.keep
            ((List.range (res.level + 1)).map (fun j => (k.modAt res j, nttInverse (k.modAt res j) res.logN (limb j q)))) c
            (nttInverse c res.logN (limb res.limbs q))
        | none => 0)).sum
  else 0

/-- The base conversions of a key switch in their order, by their targets (R111, R127): each digit's, and the accumulators'. -/
def switchConvs (k : KeySet) (h : KeyHdr) (level : Nat) (chk : Bool) : List (List Modulus) :=
  let ps := positionsOf k h level chk
  let nT := level + 1 + (if chk then 1 else 0)
  let back := (ps.take nT).map (·.2)
  (List.range (ceilDiv (level + 1) h.alpha)).map (fun dig =>
    let b := digitLimbs h level dig
    (ps.filter (fun e => !(b.1 ≤ e.1 && e.1 < b.2))).map (·.2)) ++ [back, back]

/-- The twiddle sets that a key switch needs, which runs transforms of every prime at its positions in every room (R90, R93, R110). -/
def switchSets (keyset level special : Nat) (chk : Bool) : List (Nat × Nat) :=
  (List.range (level + 1) ++ (List.range special).map (64 + ·) ++ (if chk then [128] else [])).map (fun i => (keyset, i))

/-- The spans of the key limbs that a room's lanes read for a key switch (R130, R133, R139). -/
def State.keySpans (s : State) (x : Part) (u : KeyUse) (k : KeySet) (level : Nat) (chk : Bool) (room : Nat) : List Span :=
  (positionsOf k u.hdr level chk).flatMap (fun e =>
    if x.roomAt (e.1 % max x.rooms.length 1) = room then
      (List.range (ceilDiv (level + 1) u.hdr.alpha)).flatMap (s.limbSource x u e.1)
    else [])

/-! ## Dispatch -/

/-- The conditions of R130 on an index entry for a key switch of an object of a label. -/
def entryMatches (e : KeyEntry) (u : KeyUse) (l : Label) (kind code : Nat) : Bool :=
  decide (l.level < u.hdr.keyLimbs) && e.keyset == l.keyset && e.kind == kind && decide (l.level ≤ e.level) &&
    canonCode l.logN e.rot.toNat == canonCode l.logN code

/-- The ring size by which a rotation code is judged before the label is known to be sound: that of a label which names one, else the
largest. -/
def LabelIn.ring (a : LabelIn) : Nat := if a.one && 12 ≤ a.lab.logN && a.lab.logN ≤ 17 then a.lab.logN else 17

/-- A key switch of the kind and code consumes an index entry (R101, R130): every one but a rotation by g = 1. -/
def consumes (kind logN code : Nat) : Bool := kind != 1 || galois logN code != 1

/-- The label of relinearise, rotate, conjugate and key switch (R70, R74, R80, R92), on a base whose CHECK is the result's. -/
def switchRule (kind : Nat) (k : KeySet) (base : Label) (labs : List Label) : Decision :=
  match labs with
  | [a] =>
    if !formOk k [0, 1] [if kind = 0 then 3 else 2] a then .stop base cForm true
    else
      (Decision.budget k { base with
        level := a.level, scale := a.scale, noise := satNoise (max a.noise (a.g + 512) + 256), repr := true }).active k base
  | _ => .stop base cForm true

/-- The label of a rotation by g = 1: that of the input (R101). -/
def copyRule (k : KeySet) (base : Label) (labs : List Label) : Decision :=
  match labs with
  | [a] => if !formOk k [0, 1] [2] a then .stop base cForm true else .go a
  | _ => .stop base cForm true

/-- What one room decides for a key switch: the decision, and the key when it runs. DESIGN CHOICE (log 20): a cause of R71, R92 or R73 comes before
MISSING_KEY; R130 gives no order. -/
def State.switchPlan (s : State) (p room : Nat) (a : Place) (kind code : Nat) (entry : Option KeyEntry) (ents : List (Nat × KeyEntry)) :
    Decision × Option KeyUse :=
  let x := s.part p
  let l := s.labelAt x room a
  let base := baseLabel [l] (some 2) x.rooms.length
  if !consumes kind l.ring code then (dispatchOn x [l] base [0, 1] (fun k labs => copyRule k base labs), none)
  else
    let keyed := x.checked base
    let d := dispatchOn x [l] keyed [0, 1] (fun k labs => switchRule kind k keyed labs)
    if d.ends then (d, none)
    else
      match entry with
      | some e =>
        match x.keyUse e with
        | some u => if entryMatches e u l.lab kind code then (d, some { u with ents := ents }) else (.stop keyed cMissing true, none)
        | none => (.stop keyed cMissing true, none)
      | none => (.stop keyed cMissing true, none)

/-- The twiddle sets that a planned key switch of an object needs: none when it ends at dispatch or is a copy (R93, R101). -/
def switchNeed (l : Label) (pl : Decision × Option KeyUse) : List (Nat × Nat) :=
  match pl.1.ends, pl.2 with
  | false, some u => switchSets l.keyset l.level u.hdr.special pl.1.lab.check
  | _, _ => []

/-- The coefficient limbs of polynomial q of an object, by pair. -/
def State.coeffLimb (s : State) (x : Part) (k : KeySet) (l : Label) (a : Place) (q j : Nat) : List Nat :=
  toCoeff (k.modAt l j) l.logN l.repr (s.limb x l a j q)

/-- The polynomial to be switched, in coefficient representation: c2 of a relinearisation, c1 after the automorphism otherwise. -/
def State.switchInput (s : State) (x : Part) (k : KeySet) (l : Label) (a : Place) (kind g j : Nat) : List Nat :=
  if kind = 0 then s.coeffLimb x k l a 2 j
  else if kind = 1 then autoCoeff (k.modAt l j).p l.logN g (s.coeffLimb x k l a 1 j)
  else s.coeffLimb x k l a 1 j

/-- The comparison of one polynomial's chain limbs with its check limb (R51, R128). -/
def compareOne (k : KeySet) (l : Label) (limb : Nat → List Nat) : Option Nat :=
  match l.check, k.checkP with
  | true, some c => compareFail ((List.range (l.level + 1)).map (fun j => (k.modAt l j, limb j))) c (limb l.limbs)
  | _, _ => none

/-- The pair of switched polynomials of a key switch, pair by pair of the result (R127), with the first failing coefficient of the
comparisons of R128. `extra0` and `extra1` are what phase 5 adds. A key of another ring size than the object's gives words that
the spec does not state: free values of the digits and the key (log 25). -/
def State.switchPolys (s : State) (x : Part) (k : KeySet) (u : KeyUse) (res : Label) (digits : List (List PosLimb))
    (extra0 extra1 : Nat → List Nat) : List (Nat × Nat × List Nat) × Option Nat :=
  let acc := s.keyProduct x u digits
  let out0 := modDown u.hdr res.logN res.level res.check acc.1
  let out1 := modDown u.hdr res.logN res.level res.check acc.2
  let js := res.inUse
  let given := [u.hdr.index, u.hdr.epoch.toNat] :: digits.flatMap (fun l => l.map (·.2.2))
  let free (i q : Nat) : List Nat := (List.range res.n).map (fun t => (Config.keyWord given ((2 * i + q) * 2 ^ 17 + t)).toNat)
  let word (out : List (List Nat)) (q i j : Nat) (extra : Nat → List Nat) : List Nat :=
    let m := k.modAt res j
    if u.hdr.logN ≠ res.logN then (free i q).map (· % m.p)
    else List.zipWith (laneAdd m) (out.getD i []) (extra j)
  let l0 := js.zipIdx.map (fun e => (e.1, word out0 0 e.2 e.1 extra0))
  let l1 := js.zipIdx.map (fun e => (e.1, word out1 1 e.2 e.1 extra1))
  let cmp (ls : List (Nat × List Nat)) : Option Nat :=
    if u.hdr.logN ≠ res.logN then none
    else compareOne k res (fun j => nttInverse (k.modAt res j) res.logN (((ls.find? (fun e => e.1 == j)).map (·.2)).getD []))
  (l0.map (fun e => (e.1, 0, e.2)) ++ l1.map (fun e => (e.1, 1, e.2)), (cmp l0).orElse (fun _ => cmp l1))

/-- Words of zeros modulo a limb. -/
def zeroLimb (l : Label) (_j : Nat) : List Nat := List.replicate l.n 0

/-- What phase 5 adds to polynomial 0: c0, after the automorphism for a rotation, in evaluation representation. -/
def State.addend0 (s : State) (x : Part) (k : KeySet) (l : Label) (a : Place) (kind g j : Nat) : List Nat :=
  let m := k.modAt l j
  let c0 := toEval m l.logN l.repr (s.limb x l a j 0)
  if kind = 1 then autoEval m.p l.logN g c0 else c0

/-- What phase 5 adds to polynomial 1: c1 for a relinearisation. -/
def State.addend1 (s : State) (x : Part) (k : KeySet) (l : Label) (a : Place) (kind j : Nat) : List Nat :=
  if kind = 0 then toEval (k.modAt l j) l.logN l.repr (s.limb x l a j 1) else zeroLimb l j

/-- The gated operations of phase 1 and of the comparison at the start of a key switch (R127, R128): `q` is the polynomial that is switched. -/
def State.inputGates (s : State) (v : LaneView) (x : Part) (room : Nat) (k : KeySet) (l : Label) (a : Place) (q : Nat) (input : Nat → List Nat) : Nat :=
  (if l.repr then ((l.inUse.filter (ownsPair x l room)).map (fun j => inverseGates (k.modAt l j) l.logN (s.limb x l a j q))).sum else 0) +
    (match l.check, k.checkP with
    | true, some c => compareGates v.groups v.keep ((List.range (l.level + 1)).map (fun j => (k.modAt l j, input j))) c (input l.limbs)
    | _, _ => 0)

/-- Those of phases 3 to 5 for one key. -/
def State.productGates (s : State) (v : LaneView) (x : Part) (u : KeyUse) (logN level : Nat) (chk : Bool) (digits : List (List PosLimb)) : Nat :=
  let acc := s.keyProduct x u digits
  let halves := s.keyHalves x u
  v.products digits halves.1 + v.products digits halves.2 + v.down u.hdr logN level chk acc.1 + v.down u.hdr logN level chk acc.2

/-- Those of what phase 5 adds: the forward transforms of limbs in coefficient representation, and sums whose words are both zero; in lane form a result word less
its addend is the other one. -/
def State.addGates (s : State) (x : Part) (room : Nat) (k : KeySet) (l res : Label) (a : Place) (kind g : Nat) (out : List (Nat × Nat × List Nat)) : Nat :=
  if 1 < kind then 0
  else
    ((out.filter (fun e => ownsPair x res room e.1 && (e.2.1 == 0 || kind == 0))).map (fun e =>
      let m := k.modAt l e.1
      let add := if e.2.1 = 0 then s.addend0 x k l a kind g e.1 else s.addend1 x k l a kind e.1
      (if l.repr then 0 else forwardGates m l.logN (s.limb x l a e.1 e.2.1)) + flyCount (List.zipWith (laneSub m) e.2.2 add) add)).sum

/-- One room's result of a key switch that runs. `hoisted` raises the digits before the automorphism (R137). DESIGN CHOICE (log 80): the digits are those of
the code's own key, so that keys of one group with different ALPHA each raise their own; R137 runs phase 2 once and does not say for which. -/
def State.switchRoom (s : State) (p room : Nat) (a : Place) (kind code : Nat) (hoisted : Bool) (d : Decision) (u : KeyUse) (k : KeySet) :
    RoomResult :=
  let x := s.part p
  let l := (s.labelAt x room a).lab
  let res := d.lab
  let g := galois l.logN code
  let digits :=
    if hoisted then autoDigits l.logN g (raiseDigits k u.hdr l.logN l.level res.check (s.coeffLimb x k l a 1))
    else raiseDigits k u.hdr l.logN l.level res.check (s.switchInput x k l a kind g)
  let out := s.switchPolys x k u res digits (s.addend0 x k l a kind g) (s.addend1 x k l a kind)
  let input := s.switchInput x k l a kind (if hoisted then 1 else g)
  let mism := (compareOne k l input).orElse (fun _ => out.2)
  let v := s.laneView x room l.logN
  { lab := res, runs := ownRuns x res room out.1, fresh := false,
    reads := a.labelSpan room :: objSpans x l a ++ s.keySpans x u k l.level res.check room,
    mism := mism.map (fun c => (c, x.roomAt (slabRoom x.rooms.length l.logN c) == room)), limbs := limbMask l.level, cross := true
    conv := switchConvs k u.hdr l.level res.check, wide := some false
    moduli := (res.inUse.filter (ownsPair x res room)).map (k.modAt res), after := if res.check then k.checkP.toList else []
    gate := some (s.inputGates v x room k l a (if kind = 0 then 2 else 1) input +
      v.raise k u.hdr l.logN l.level res.check l.repr input +
      s.productGates v x u l.logN l.level res.check digits + s.addGates x room k l res a kind g out.1 + s.endGates v x room k res out.1) }

/-- One room's copy for a rotation by g = 1 (R101). -/
def State.copyRoom (s : State) (p room : Nat) (a : Place) (d : Decision) : RoomResult :=
  let x := s.part p
  let l := d.lab
  let mine := l.inUse.filter (ownsPair x l room)
  let limbs := mine.flatMap (fun j => (List.range l.polys).map (fun q => (j, q, s.limb x l a j q)))
  { lab := l, runs := ownRuns x l room limbs, fresh := false,
    reads := a.labelSpan room :: mine.flatMap (fun j => (List.range l.polys).map (limbSpan x l a j)), mism := none, gate := some 0 }

/-! ## Index entries (R130) -/

/-- A room takes an index entry: it leaves the list; a key that runs is noted as used by the block (R122) and its tiles' lane reads are done, and an entry
that ends unread returns its tiles (R139). -/
def Room.takeEntry (x : Room) (e : KeyEntry) (rest : List KeyEntry) (runs : Bool) : Room :=
  let y := match x.block with
    | some b => { x with keyEntries := rest, block := some { b with taken := b.taken + 1, keyWait := none } }
    | none => { x with keyEntries := rest }
  if runs then
    let z := { y with window := { y.window with read := y.window.read ++ e.ids } }
    match z.block, e.key with
    | some b, some i => { z with block := some { b with keysUsed := b.keysUsed ++ [i] } }
    | _, _ => z
  else { y with window := { y.window with free := y.window.free ++ e.ids, held := y.window.held.filter (fun i => !e.ids.contains i) } }

/-- The quarters of a streamed entry that have still to be fetched when its operation runs, numbered: those beyond the tiles taken for it, which come
through those tiles as their tokens return (R131). -/
def lateQuarters (x : Part) (e : KeyEntry) (room have_ : Nat) : List (Span × Nat) :=
  match e.key.bind (fun i => x.keyByEpoch i.1 i.2) with
  | some h => if e.pinned then [] else (entryQuarters x h e.level room).zipIdx.drop (4 * have_)
  | none => []

/-- A key product waits for the first tile of its entry (R139). -/
def KeyEntry.starved (e : KeyEntry) : Bool := decide (0 < e.tiles) && e.ids.isEmpty

/-- An operation of `n room` entries waits in a room for the first tile of the first of them; the tiles of the others come as it goes on (R131). -/
def State.starvedAt (s : State) (p : Nat) (n : Nat → Nat) : Bool :=
  (s.opRooms p).any (fun room => decide (0 < n room) && (s.room room).keyEntries.head?.any KeyEntry.starved)

/-- The late quarters of an entry pass through its tiles, or, when it holds none, through those that return from the entries before it: lines read from the stack and
written into the window, counted as the stream's (R131, R270). Errors of those reads are the operation's. -/
def State.fetchLate (s : State) (x : Part) (e : KeyEntry) (room : Nat) : State :=
  let through : KeyEntry := if e.ids.isEmpty then { e with ids := (s.room room).window.read } else e
  (lateQuarters x e room ((s.room room).fetched e)).foldl (fun t q =>
    match through.quarterAt (t.room room).window room (q.2 % (4 * max 1 through.ids.length)) with
    | some d =>
      let u := t.writeAttic room d.off (t.spanBytes q.1)
      let y := u.room room
      u.setRoom room { y with counters := { y.counters with
        streamRd := y.counters.streamRd + 128, streamWr := y.counters.streamWr + 128, linesWr := y.counters.linesWr + 128 } }
    | none => t) s

/-- A room takes an entry whose key product runs or not: what is late is fetched first. -/
def State.consume (s : State) (p room : Nat) (e : KeyEntry) (rest : List KeyEntry) (runs : Bool) : State :=
  let t := if runs then s.fetchLate (s.part p) e room else s
  t.setRoom room ((t.room room).takeEntry e rest runs)

/-- The next index entry of every dispatching room is there for an operation that consumes `n i` of them in the i-th room (R130). -/
def State.entriesThere (s : State) (p : Nat) (n : Nat → Nat) : Bool :=
  (s.opRooms p).all (fun room => decide (n room ≤ (s.room room).keyEntries.length))

/-- The rooms whose next entries are missing wait at that entry (R460). -/
def State.awaitEntries (s : State) (p : Nat) (n : Nat → Nat) : State :=
  (s.opRooms p).foldl (fun t room =>
    let x := t.room room
    match x.block with
    | some b => if n room ≤ x.keyEntries.length then t else t.setRoom room { x with block := some { b with keyWait := some b.taken } }
    | none => t) s

/-- The entry at a place of each dispatching room's list. -/
def State.entriesAt (s : State) (p : Nat) (at_ : Nat → Option Nat) : List (Nat × KeyEntry) :=
  (s.opRooms p).filterMap (fun r => (at_ r).bind (fun i => ((s.room r).keyEntries[i]?).map (fun e => (r, e))))

/-- One key switch in every room of the partition that dispatches. An operation whose entry has not been read waits (log 13), and so does a key product
whose entry holds no tile yet (R139). -/
def State.switchOp (s : State) (p : Nat) (dst a : Place) (kind code : Nat) : State :=
  let x := s.part p
  let takes (room : Nat) : Bool := consumes kind (s.labelAt x room a).ring code
  let ents := s.entriesAt p (fun r => if takes r then some 0 else none)
  let entry (room : Nat) : Option KeyEntry := if takes room then (s.room room).keyEntries.head? else none
  let plan (room : Nat) : Decision × Option KeyUse := s.switchPlan p room a kind code (entry room) ents
  let n (room : Nat) : Nat := if takes room then 1 else 0
  if s.opHot p [dst, a] then s
  else if !s.entriesThere p n then s.awaitEntries p n
  else if s.starvedAt p (fun room => if (plan room).2.isSome then n room else 0) || !s.setsValid p (fun room => switchNeed (s.labelAt x room a).lab (plan room)) then s
  else
    (s.opRooms p).foldl (fun t room =>
      let pl := plan room
      let r := match pl.1.ends, pl.2, x.ksOf (s.labelAt x room a).lab with
        | true, _, _ => RoomResult.ofStop pl.1 [a.labelSpan room]
        | false, some u, some k => s.switchRoom p room a kind code false pl.1 u k
        | false, _, _ => s.copyRoom p room a pl.1
      let t1 := match entry room with
        | some e => t.consume p room e (s.room room).keyEntries.tail pl.2.isSome
        | none => t
      ((t1.performRoom p room dst r).countOp room).draw (2 ^ 25)) s

/-- RELINEARISE (R127). -/
def execRelinearise (p : PartId) (dst a : Place) (s : State) : Host.Outcome State Fault Refusal := .next (s.switchOp p dst a 0 0)

/-- ROTATE (R101). -/
def execRotate (p : PartId) (dst a : Place) (code : Word) (s : State) : Host.Outcome State Fault Refusal :=
  .next (s.switchOp p dst a 1 code.toNat)

/-- CONJUGATE (R101): the code with K 0 and CONJ 1. -/
def execConjugate (p : PartId) (dst a : Place) (s : State) : Host.Outcome State Fault Refusal := .next (s.switchOp p dst a 1 (2 ^ 31))

/-- KEY_SWITCH (R127): kind 0 switches c2, kind 1 switches c1 after the automorphism of the code, kind 2 switches c1 as it is
(log 26). -/
def execKeySwitch (p : PartId) (dst a : Place) (kind : Nat) (rot : Word) (s : State) : Host.Outcome State Fault Refusal :=
  .next (s.switchOp p dst a kind rot.toNat)

/-! ## Hoisted rotations (R137, R138) -/

/-- The plans of the codes of a group in one room: each code with its entry and the place of that entry in the room's list, in order. -/
def groupPlans (logN : Nat) : Nat → List Word → List KeyEntry → List (Word × Option KeyEntry × Nat)
  | _, [], _ => []
  | i, c :: t, es =>
    if consumes 1 logN c.toNat then (c, es.head?, i) :: groupPlans logN (i + 1) t es.tail else (c, none, i) :: groupPlans logN i t es

/-- The codes of a group in a room, each with its entry. -/
def State.groupCodes (s : State) (p room : Nat) (a : Place) (codes : List Word) : List (Word × Option KeyEntry × Nat) :=
  groupPlans (s.labelAt (s.part p) room a).ring 0 codes (s.room room).keyEntries

/-- What one room decides for one code of a hoisted group. -/
def State.hoistedPlan (s : State) (p room : Nat) (a : Place) (c : Word × Option KeyEntry × Nat) : Decision × Option KeyUse :=
  s.switchPlan p room a 1 c.1.toNat c.2.1 (s.entriesAt p (fun _ => if c.2.1.isSome then some c.2.2 else none))

/-- One result of a hoisted group in one room. -/
def State.hoistedStep (s : State) (p room : Nat) (a : Place) (t : State) (dc : Place × Word × Option KeyEntry × Nat) : State :=
  let x := s.part p
  let pl := s.hoistedPlan p room a dc.2
  let r := match pl.1.ends, pl.2, x.ksOf (s.labelAt x room a).lab with
    | true, _, _ => RoomResult.ofStop pl.1 [a.labelSpan room]
    | false, some u, some k => s.switchRoom p room a 1 dc.2.1.toNat true pl.1 u k
    | false, _, _ => s.copyRoom p room a pl.1
  let t1 := match dc.2.2.1 with
    | some e => t.consume p room e ((s.room room).keyEntries.drop (dc.2.2.2 + 1)) pl.2.isSome
    | none => t
  (t1.performRoom p room dc.1 r).draw (2 ^ 25)

/-- The entries that a group of rotation codes consumes in a room. DESIGN CHOICE (log 80): one for each code whose g is not 1, in a hoisted group as in a
rotate-accumulate. R137 says one per code and R101 that g = 1 consumes none, where R130 says one per hoisted group; R138 names no number. -/
def State.groupEntries (s : State) (p : Nat) (a : Place) (codes : List Word) (room : Nat) : Nat :=
  (codes.filter (fun c => consumes 1 (s.labelAt (s.part p) room a).ring c.toNat)).length

/-- The twiddle sets that a hoisted group needs in a room. -/
def State.hoistedNeed (s : State) (p : Nat) (a : Place) (codes : List Word) (room : Nat) : List (Nat × Nat) :=
  (s.groupCodes p room a codes).flatMap (fun c => switchNeed (s.labelAt (s.part p) room a).lab (s.hoistedPlan p room a c))

/-- A hoisted group whose entries are there runs: one result for each code. -/
def State.hoistedOp (s : State) (p : Nat) (dsts : List Place) (a : Place) (codes : List Word) : State :=
  if s.starvedAt p (s.groupEntries p a codes) || !s.setsValid p (s.hoistedNeed p a codes) then s
  else
    (s.opRooms p).foldl (fun t room =>
      ((List.zip dsts (s.groupCodes p room a codes)).foldl (s.hoistedStep p room a) t).countOp room) s

/-- HOISTED_ROTATE (R137): one result for each of 1 to 64 codes; the digits are raised once, before the automorphisms. -/
def execHoistedRotate (p : PartId) (dsts : List Place) (a : Place) (codes : List Word) (s : State) : Host.Outcome State Fault Refusal :=
  let n := s.groupEntries p a codes
  let u := s.pulled p n
  .next
    (if codes.length = 0 || 64 < codes.length || dsts.length ≠ codes.length || s.opHot p (a :: dsts) then s
    else if !u.entriesThere p n then s.awaitEntries p n
    else u.hoistedOp p dsts a codes)

/-- ⌈log2 r⌉. -/
def clog2 (r : Nat) : Nat := if r ≤ 1 then 0 else (r - 1).log2 + 1

/-- One room's result of a rotate-accumulate that runs (R138): the products are summed in the extended basis, phase 4 runs once, and a
code with g = 1 adds the input itself. Keys of different SPECIAL have no common extended basis, and R138 states no result: free words
(DESIGN CHOICE, log 25). -/
def State.accumulateRoom (s : State) (p room : Nat) (a : Place) (plans : List (Word × Option KeyUse)) (res : Label) (k : KeySet) :
    RoomResult :=
  let x := s.part p
  let l := (s.labelAt x room a).lab
  let n := l.logN
  let uses := plans.filterMap (fun e => e.2.map (fun u => (galois n e.1.toNat, u)))
  let raised (u : KeyUse) : List (List PosLimb) := raiseDigits k u.hdr n l.level res.check (s.coeffLimb x k l a 1)
  let prods := uses.map (fun e => s.keyProduct x e.2 (autoDigits n e.1 (raised e.2)))
  let h := (uses.headD (1, { hdr := { keyHdrOf [] 0 with special := 0 }, pinned := false })).2.hdr
  let out0 := modDown h n l.level res.check (sumLimbs (prods.map (·.1)))
  let out1 := modDown h n l.level res.check (sumLimbs (prods.map (·.2)))
  let c (q j : Nat) : List Nat := toEval (k.modAt l j) n l.repr (s.limb x l a j q)
  let zero (m : Modulus) (i : Nat) (o : List (List Nat)) : List Nat := (o.getD i (List.replicate l.n 0)).map (· % m.p)
  let sum0 (i j : Nat) : List Nat :=
    let m := k.modAt l j
    plans.foldl (fun acc e => List.zipWith (laneAdd m) acc (autoEval m.p n (galois n e.1.toNat) (c 0 j))) (zero m i out0)
  let sum1 (i j : Nat) : List Nat :=
    let m := k.modAt l j
    plans.foldl (fun acc e => if e.2.isNone then List.zipWith (laneAdd m) acc (c 1 j) else acc) (zero m i out1)
  let odd := uses.any (fun e => e.2.hdr.logN != n || e.2.hdr.special != h.special)
  let given := uses.map (fun e => [e.2.hdr.index, e.2.hdr.epoch.toNat]) ++ (List.range (l.level + 1)).map (s.coeffLimb x k l a 1)
  let free (i q : Nat) (m : Modulus) : List Nat :=
    (List.range l.n).map (fun t => (Config.keyWord given ((2 * i + q) * 2 ^ 17 + t)).toNat % m.p)
  let limbs := res.inUse.zipIdx.flatMap (fun e =>
    let m := k.modAt res e.1
    [(e.1, 0, if odd then free e.2 0 m else sum0 e.2 e.1), (e.1, 1, if odd then free e.2 1 m else sum1 e.2 e.1)])
  let v := s.laneView x room n
  let poly (q j : Nat) : List Nat :=
    nttInverse (k.modAt res j) n (((limbs.find? (fun e => e.1 == j && e.2.1 == q)).map (·.2.2)).getD [])
  let mism :=
    if odd then none
    else (compareOne k l (s.coeffLimb x k l a 1)).orElse (fun _ => (compareOne k res (poly 0)).orElse (fun _ => compareOne k res (poly 1)))
  { lab := res, runs := ownRuns x res room limbs, fresh := false,
    reads := a.labelSpan room :: objSpans x l a ++ uses.flatMap (fun e => s.keySpans x e.2 k l.level res.check room),
    mism := mism.map (fun q => (q, x.roomAt (slabRoom x.rooms.length n q) == room)), limbs := limbMask l.level, cross := true
    conv := uses.flatMap (fun e => switchConvs k e.2.hdr l.level res.check), wide := some false
    moduli := (res.inUse.filter (ownsPair x res room)).map (k.modAt res), after := if res.check then k.checkP.toList else []
    gate := some (s.inputGates v x room k l a 1 (s.coeffLimb x k l a 1) + s.endGates v x room k res limbs + (uses.map (fun e =>
      let halves := s.keyHalves x e.2
      let ds := autoDigits n e.1 (raised e.2)
      v.raise k e.2.hdr n l.level res.check l.repr (s.coeffLimb x k l a 1) + v.products ds halves.1 + v.products ds halves.2)).sum +
      v.down h n l.level res.check (sumLimbs (prods.map (·.1))) + v.down h n l.level res.check (sumLimbs (prods.map (·.2)))) }

/-- What one room decides for a rotate-accumulate: the decision, and each code with its key. -/
def State.accumulatePlan (s : State) (p room : Nat) (a : Place) (codes : List Word) : Decision × List (Word × Option KeyUse) :=
  let x := s.part p
  let l := s.labelAt x room a
  let base := x.checked (baseLabel [l] (some 2) x.rooms.length)
  let plans := s.groupCodes p room a codes
  let d0 := dispatchOn x [l] base [0, 1] (fun k labs => switchRule 1 k base labs)
  let uses := plans.map (fun e => (e.1, (e.2.1.bind x.keyUse).map (fun u => { u with ents := s.entriesAt p (fun _ => some e.2.2) })))
  let bad := (List.zip plans uses).any (fun e =>
    match e.1.2.1, e.2.2 with
    | none, _ => false
    | some en, some u => !entryMatches en u l.lab 1 e.1.1.toNat
    | some _, none => true)
  if d0.ends then (d0, uses)
  else if bad then (.stop base cMissing true, uses)
  else
    match x.ksOf l.lab with
    | some k => (.budget k { d0.lab with noise := satNoise (d0.lab.noise + 256 * clog2 codes.length) }, uses)
    | none => (.stop base cKeyset true, uses)

/-- The twiddle sets that a rotate-accumulate needs in a room. -/
def State.accumulateNeed (s : State) (p : Nat) (a : Place) (codes : List Word) (room : Nat) : List (Nat × Nat) :=
  let pl := s.accumulatePlan p room a codes
  pl.2.flatMap (fun e => switchNeed (s.labelAt (s.part p) room a).lab (pl.1, e.2))

/-- A rotate-accumulate whose entries are there runs. -/
def State.accumulateOp (s : State) (p : Nat) (dst a : Place) (codes : List Word) : State :=
  if s.starvedAt p (s.groupEntries p a codes) || !s.setsValid p (s.accumulateNeed p a codes) then s
  else
    let x := s.part p
    (s.opRooms p).foldl (fun t room =>
      let pl := s.accumulatePlan p room a codes
      let n := s.groupEntries p a codes room
      let r := match pl.1.ends, x.ksOf (s.labelAt x room a).lab with
        | false, some k => s.accumulateRoom p room a pl.2 pl.1.lab k
        | _, _ => RoomResult.ofStop pl.1 [a.labelSpan room]
      let es := (s.room room).keyEntries
      let t1 := (es.take n).foldl (fun v e => v.consume p room e (es.drop n) (!pl.1.ends)) t
      ((t1.performRoom p room dst r).countOp room).draw (2 ^ 25)) s

/-- ROTATE_ACCUMULATE (R138). -/
def execRotateAccumulate (p : PartId) (dst a : Place) (codes : List Word) (s : State) : Host.Outcome State Fault Refusal :=
  let n := s.groupEntries p a codes
  let u := s.pulled p n
  .next
    (if codes.length = 0 || 64 < codes.length || s.opHot p [dst, a] then s
    else if !u.entriesThere p n then s.awaitEntries p n
    else u.accumulateOp p dst a codes)

/-! ## Pinning (R133) -/

/-- The bytes of a key's positions that a partition room of an index holds. -/
def KeyHdr.shareBytes (h : KeyHdr) (rooms i : Nat) : Nat :=
  ((List.range h.positions).filter (fun j => j % rooms == i)).length * h.digits * (4 * 2 ^ h.logN)

/-- What a PIN copies in a room: for an index below 4,096 the key registered there, from 4,096 on the look-up key of LUT_INDEX index − 4,096 (R161), numbered as
KEY_LIST numbers them (log 16); before the room's boundary that is the key being replaced (R122). The answer: epoch, home, and the bytes that a room of an index
holds after the header line. -/
def Part.pinned (x : Part) (room index : Nat) : Option (BitVec 32 × Nat × (Nat → Nat)) :=
  if index < 4096 then ((x.keyAt index).inRoom room).map (fun h => (h.epoch, h.home, h.shareBytes (max x.rooms.length 1)))
  else ((x.lutAt (index - 4096)).inRoom room).map (fun h => (h.epoch, h.home, fun _ => h.bodyBytes))

/-- A pin of the index of a PIN or UNPIN. -/
def Pin.isOf (q : Pin) (index : Nat) : Bool := if index < 4096 then !q.lut && q.key == index else q.lut && q.key == index - 4096

/-- The bytes of a room's stack that a PIN copies there. -/
def Part.pinSpan (x : Part) (room home : Nat) (share : Nat → Nat) : Span :=
  { room := room, cellar := true, off := home + 128, len := share ((x.rooms.findIdx? (· == room)).getD 0) }

/-- One room copies a key to an attic offset. A copy that meets a memory error, or leaves the attic, is an error of the room. -/
def State.pinRoom (s : State) (x : Part) (room home off : Nat) (share : Nat → Nat) : State :=
  let src := x.pinSpan room home share
  if src.outside || ({ src with cellar := false, off := off } : Span).outside then s.setRoom room (s.room room).programFault
  else
    let t := s.countRead src
    if s.spanBad src && !(s.room room).takesErrors then t.setRoom room ((t.room room).fail (s.spanEvent src))
    else
      let u := t.putAttic room off (s.spanBytes src)
      u.setRoom room (if s.spanBad src then (u.room room).errTaken else u.room room)

/-- Pins of an index, less some rooms. -/
def dropPins (pins : List Pin) (index : Nat) (rooms : List Nat) : List Pin :=
  (pins.map (fun q => if q.isOf index then { q with rooms := q.rooms.filter (fun r => !rooms.contains r) } else q)).filter
    (fun q => !(q.isOf index && q.rooms.isEmpty))

/-- The pins that a PIN makes: one for each epoch among the rooms that copy. -/
def newPins (index off : Nat) (copies : List (Nat × BitVec 32)) : List Pin :=
  ((copies.map (·.2)).eraseDups).map (fun ep =>
    { key := if index < 4096 then index else index - 4096, epoch := ep, off := off, lut := decide (4096 ≤ index), unpin := false
      rooms := (copies.filter (fun e => e.2 == ep)).map (·.1) })

/-- PIN (R133, R161): the key's positions are copied from each room's stack to the attic offset. An index that holds no key
changes nothing (log 13), and a pin made again copies again. -/
def execPin (p : PartId) (index : Nat) (off : Nat) (s : State) : Host.Outcome State Fault Refusal :=
  let x := s.part p
  let rooms := (s.opRooms p).filterMap (fun r => (x.pinned r index).map (fun k => (r, k)))
  .next
    (if rooms.isEmpty || s.hotStack p then s
    else
      let t := (s.opRooms p).foldl (fun t room =>
        (match x.pinned room index with
        | some (_, home, share) => t.pinRoom x room home off share
        | none => t).countOp room) s
      let copies := rooms.map (fun e => (e.1, e.2.1))
      t.setPart p { t.part p with pins := dropPins (t.part p).pins index (copies.map (·.1)) ++ newPins index off copies })

/-- UNPIN (R133): the area is freed at the next command-block boundary. -/
def execUnpin (p : PartId) (index : Nat) (s : State) : Host.Outcome State Fault Refusal :=
  let x := s.part p
  .next
    (if (s.opRooms p).isEmpty then s
    else if (s.busyRooms p).isEmpty then (s.countOps p).setPart p { x with pins := x.pins.filter (fun q => !q.isOf index) }
    else (s.countOps p).setPart p { x with pins := x.pins.map (fun q => if q.isOf index then { q with unpin := true, waitRooms := s.busyRooms p } else q) })

end Sys2Proof.Machine
end

