-- ==== Sys2Proof/Machine/Streams.lean ====
section
/-! DEFINITION. Streams (10): descriptors, what a stream unit moves and when it halts, key streams, layout changes, tags and the regulator.
A descriptor's lines are all performed when it is issued, in issue order (log 36); its tags, its acknowledgements and its TOKEN follow at
its completion. -/

namespace Sys2Proof.Machine

/-! ## The descriptor (R247, R266) -/

/-- The descriptor of 128 bytes (R247). -/
def streamDescOf (b : List Byte) : Desc :=
  { op := fieldOf b 0 1, flags := BitVec.ofNat 8 (fieldOf b 1 1), srcSpace := fieldOf b 2 1, dstSpace := fieldOf b 3 1,
    srcRoom := fieldOf b 4 1, dstRoom := fieldOf b 5 1, dstModule := fieldOf b 6 2, srcBase := fieldOf b 8 8, dstBase := fieldOf b 16 8,
    blkLines := fieldOf b 24 2, hostBuf := fieldOf b 26 2, blkRows := fieldOf b 28 4, srcPitch := fieldOf b 32 4,
    dstPitch := fieldOf b 36 4, idxBase := fieldOf b 40 8, idxSpace := fieldOf b 48 1, idxForm := fieldOf b 49 1,
    token := fieldOf b 50 2, idxCount := fieldOf b 52 4, rowStride := fieldOf b 56 8, colStride := fieldOf b 64 4,
    fillWord := BitVec.ofNat 32 (fieldOf b 68 4) }

/-- The 128 bytes of a descriptor. -/
def Desc.bytes (d : Desc) : List Byte :=
  leBytes 1 d.op ++ leBytes 1 d.flags.toNat ++ leBytes 1 d.srcSpace ++ leBytes 1 d.dstSpace ++ leBytes 1 d.srcRoom ++ leBytes 1 d.dstRoom ++
    leBytes 2 d.dstModule ++ leBytes 8 d.srcBase ++ leBytes 8 d.dstBase ++ leBytes 2 d.blkLines ++ leBytes 2 d.hostBuf ++
    leBytes 4 d.blkRows ++ leBytes 4 d.srcPitch ++ leBytes 4 d.dstPitch ++ leBytes 8 d.idxBase ++ leBytes 1 d.idxSpace ++
    leBytes 1 d.idxForm ++ leBytes 2 d.token ++ leBytes 4 d.idxCount ++ leBytes 8 d.rowStride ++ leBytes 4 d.colStride ++
    leBytes 4 d.fillWord.toNat ++ List.replicate 56 0

/-- A field fits the bits that R247 gives it. -/
def Desc.fits (d : Desc) : Bool := streamDescOf d.bytes == d

/-- The OP reads an index stream (R248). -/
def Desc.indexed (d : Desc) : Bool := 1 ≤ d.op && d.op ≤ 5
/-- A block's source is read transposed, in the attic (R194, R266). -/
def Desc.srcTransposed (d : Desc) : Bool := d.flags.getLsbD 0 && d.srcSpace == 0 && d.op != 6 && d.isBlock
/-- A block's destination is written transposed, in the attic. -/
def Desc.dstTransposed (d : Desc) : Bool := d.flags.getLsbD 1 && d.dstSpace == 0 && d.isBlock
/-- The lines of a block go through the transposition in flight (R194, R266): an odd number of its attic sides ask for it. A FILL writes its word to every
word of the destination either way (R248). -/
def Desc.transposed (d : Desc) : Bool := d.op != 6 && d.srcTransposed != d.dstTransposed
/-- The descriptor halts with cause BAD_DESC before any request (R266). -/
def Desc.bad (d : Desc) : Bool :=
  decide (6 < d.op) || (64 ≤ d.token && d.token ≤ 0xFFFE) ||
    (match d.op with
     | 3 => false
     | 6 => decide (4 < d.dstSpace)
     | 4 => d.srcSpace != 1 || d.dstSpace != 0
     | 5 => d.srcSpace != 0 || d.dstSpace != 1
     | _ => decide (2 < d.srcSpace) || decide (4 < d.dstSpace)) ||
    (d.indexed && (d.idxForm != (match d.op with | 3 => 1 | 4 => 2 | 5 => 2 | _ => 0) || decide (1 < d.idxSpace)))

/-- The descriptor completes at once and moves nothing (R266); a KEY descriptor ignores all fields but OP, TOKEN and the index fields (R248). -/
def Desc.empty (d : Desc) : Bool :=
  (d.op != 3 && (d.blkLines == 0 || d.blkRows == 0)) || (d.indexed && d.idxCount == 0)

/-! ## The run of a descriptor -/

/-- Where a run halts: cause (R263), first failing address, and the event that the room takes, none for a program fault. -/
structure StreamStop where
  cause : Nat
  at_ : Nat
  event : Option RoomEvent

/-- One line for a remote module: block, row, receiving room, offset of its row's start, data. -/
structure RemoteLine where
  block : Nat
  row : Nat
  room : Nat
  rowOff : Nat
  data : List Byte

/-- A descriptor's run so far: the state, the host bytes still to come, the halt, the remote lines (newest first), the line keys written,
whether a read took an error as data (R459), whether it touched another room (R563), and lines read and written (R270), of the latter those in host
memory. `idx` holds the last two index lines read (R250). -/
structure StreamRun where
  st : State
  host : List Byte
  stop : Option StreamStop := none
  remote : List RemoteLine := []
  wrote : List Nat := []
  idx : List (Nat × List Byte) := []
  taint : Bool := false
  cross : Bool := false
  rd : Nat := 0
  wr : Nat := 0
  hostWr : Nat := 0

/-- What a run keeps fixed: the state its sources are read from (at the start of a block, so that a block's own overlap has one meaning; R252 gives blocks
and pieces their order), partition, room, channel, descriptor, and whether it runs in a third execution. `srcs` holds room index and origin of every
source block, when sources and destinations share a space. -/
structure StreamCtx where
  s0 : State
  p : Nat
  room : Nat
  chan : Nat
  d : Desc
  third : Bool
  srcs : List (Nat × Nat) := []

/-- The partition of a run. -/
def StreamCtx.part (c : StreamCtx) : Part := c.s0.part c.p

/-- A run halts. -/
def StreamRun.halt (a : StreamRun) (cause at_ : Nat) (e : Option RoomEvent) : StreamRun := { a with stop := some ⟨cause, at_, e⟩ }

/-- A read of a stream from an attic or a stack (R262, R266, R459): bytes, or a halt. -/
def StreamCtx.readAt (c : StreamCtx) (a : StreamRun) (cellar : Bool) (rel off n : Nat) : StreamRun × List Byte :=
  let sp : Span := { room := c.part.roomAt rel, cellar := cellar, off := off, len := n }
  if a.stop.isSome then (a, [])
  else if c.part.rooms.length ≤ rel || sp.outside then (a.halt 3 off none, [])
  else
    let b := { a with st := a.st.countRead sp, rd := a.rd + ceilDiv n 128, cross := a.cross || sp.room != c.room }
    if c.s0.spanBad sp && !c.third then (b.halt (if cellar then 2 else 1) (max off (c.s0.firstBad sp * 128)) (some (c.s0.spanEvent sp)), [])
    else ({ b with taint := b.taint || c.s0.spanBad sp }, c.s0.spanBytes sp)

/-- A read from a host buffer (R263): the follower takes the lines its leader sent (R438), and the leader sends them on. -/
def StreamCtx.readHost (c : StreamCtx) (a : StreamRun) (off n : Nat) : StreamRun × List Byte :=
  if a.stop.isSome then (a, [])
  else
    let x := c.part
    let rel := x.relOf c.room
    if x.isFollower then
      let k := rel * 16 + c.chan
      let q := Tab.get [] (a.st.part c.p).pair.hostread k
      let y := a.st.part c.p
      ({ a with st := a.st.setPart c.p { y with pair := { y.pair with hostread := Tab.set [] y.pair.hostread k (q.drop n) } }, rd := a.rd + 1 },
       sliceZ q 0 n)
    else
      match c.s0.hostRange (c.p + 1) c.d.hostBuf off n false with
      | none => (a.halt 3 off none, [])
      | some _ =>
        let d := sliceZ a.host 0 n
        let t := if x.isLeader then a.st.emit (.mirror 2 x.pair.peerModule x.pair.peerPart (leBytes 1 rel ++ leBytes 1 c.chan ++ d)) else a.st
        ({ a with st := t, host := a.host.drop n, rd := a.rd + 1 }, d)

/-- A source line or piece. -/
def StreamCtx.get (c : StreamCtx) (a : StreamRun) (space rel off n : Nat) : StreamRun × List Byte :=
  if space = 2 then c.readHost a off n else c.readAt a (space = 1) rel off n

/-- The bytes that a write puts down: where the destination overlaps the descriptor's own source, undefined (R266), a free value. -/
def overlaid (free : Nat) (src : List (Nat × Nat)) (off : Nat) (data : List Byte) : List Byte :=
  if src.all (fun r => decide (r.1 + r.2 ≤ off) || decide (off + data.length ≤ r.1)) then data
  else (List.range data.length).map (fun i =>
    if src.any (fun r => decide (r.1 ≤ off + i) && decide (off + i < r.1 + r.2)) then Config.openByte (free + i) else data.getD i 0)

/-- A destination line or piece in an attic, a stack or a host buffer (R253, R263, R266, R269); a partial cellar line whose merge fails is a
bus error. A follower computes host writes and sends nothing (R444). -/
def StreamCtx.put (c : StreamCtx) (a : StreamRun) (src : List (Nat × Nat)) (space rel off : Nat) (data0 : List Byte) : StreamRun :=
  let x := c.part
  if a.stop.isSome then a
  else if space = 2 then
    match c.s0.hostRange (c.p + 1) c.d.hostBuf off data0.length true with
    | none => if x.isFollower then { a with st := a.st.digest c.p c.room 2 0 off data0, wr := a.wr + 1 } else a.halt 3 off none
    | some addr =>
      let t := if x.isFollower then a.st else a.st.emit (.hostWrite (c.p + 1) addr data0)
      { a with st := t.digest c.p c.room 2 0 off data0, wr := a.wr + 1, hostWr := a.hostWr + 1 }
  else
    let sp : Span := { room := x.roomAt rel, cellar := space = 1, off := off, len := data0.length }
    if x.rooms.length ≤ rel || sp.outside then a.halt 3 off none
    else
      let data := overlaid a.st.free src off data0
      let s1 := if src.isEmpty then a.st else a.st.draw data.length
      let fin (t : State) : StreamRun :=
        { a with st := t.digest c.p c.room space rel off data, wr := a.wr + ceilDiv data.length 128, wrote := sp.lineKeys ++ a.wrote, cross := a.cross || sp.room != c.room }
      if space = 0 then fin ((s1.writeAttic sp.room off data).countAtticWr sp.room off data.length)
      else
        match s1.cellarWrite sp.room off data with
        | (t, true) => fin t
        | (t, false) =>
          let l := (s1.mergeFails sp).getD (off / 128)
          { a with st := t }.halt 2 (max off (l * 128)) (some (.cellarUncorr (BitVec.ofNat 4 sp.room).toFin l))

/-! ## Blocks (R248, R252) -/

/-- A block to move: its number in the descriptor, source room and origin, destination room and origin. -/
structure BlockAt where
  no : Nat
  srcRel : Nat
  src : Nat
  dstRel : Nat
  dst : Nat

/-- The runs of the descriptor's source blocks that lie in the destination block's space and room and within its reach: of its own source block, and of the
blocks of other index entries (R266). -/
def StreamCtx.overlaps (c : StreamCtx) (b : BlockAt) : List (Nat × Nat) :=
  let d := c.d
  let lastD := b.dst + (d.blkRows - 1) * d.dstPitch + d.blkLines * 128
  c.srcs.flatMap (fun e =>
    let last := e.2 + (d.blkRows - 1) * d.srcPitch + d.blkLines * 128
    if e.1 ≠ b.dstRel || last ≤ b.dst || lastD ≤ e.2 then [] else (List.range d.blkRows).map (fun i => (e.2 + i * d.srcPitch, d.blkLines * 128)))

/-- The destination line of row `i`, line `k` takes its data. -/
def StreamCtx.putLine (c : StreamCtx) (b : BlockAt) (src : List (Nat × Nat)) (a : StreamRun) (i k : Nat) (data : List Byte) : StreamRun :=
  let off := b.dst + i * c.d.dstPitch + k * 128
  if a.stop.isSome then a
  else if c.d.dstSpace ≥ 3 then
    { a with
      remote := ⟨b.no, i, b.dstRel, (b.dst + i * c.d.dstPitch) % 2 ^ 60, data⟩ :: a.remote, wr := a.wr + 1
      st := a.st.digest c.p c.room c.d.dstSpace b.dstRel (off % 2 ^ 60) data }
  else c.put a src c.d.dstSpace b.dstRel off data

/-- The source line of row `i`, line `k`; a FILL reads nothing. -/
def StreamCtx.getLine (c : StreamCtx) (b : BlockAt) (a : StreamRun) (i k : Nat) : StreamRun × List Byte :=
  if c.d.op = 6 then (a, (List.range 32).flatMap (fun _ => leBytes 4 c.d.fillWord.toNat))
  else c.get a c.d.srcSpace b.srcRel (b.src + i * c.d.srcPitch + k * 128) 128

/-- One line moves. -/
def StreamCtx.moveLine (c : StreamCtx) (b : BlockAt) (src : List (Nat × Nat)) (i : Nat) (a : StreamRun) (k : Nat) : StreamRun :=
  let r := c.getLine b a i k
  c.putLine b src r.1 i k r.2

/-- A pitch whose column groups take the general path (R193): not a power of two of lines from 1 to 64. -/
def generalPitch (pitch : Nat) : Bool := pitch % 128 != 0 || !((List.range 7).any (fun i => pitch / 128 == 2 ^ i))

/-- The column groups of a tile that the general path serves count in ATTIC_GENERAL of the room that holds them (R193, R198); how many cycles
lines waited, which other requesters of a bank decide too, is a free value (log 21). -/
def StreamRun.countGeneral (a : StreamRun) (d : Desc) (room pitch : Nat) (yes : Bool) : StreamRun :=
  if yes && generalPitch pitch && a.stop.isNone then
    let x := a.st.room room
    { a with st := (a.st.setRoom room { x with counters := { x.counters with
        general := x.counters.general + BitVec.ofNat 48 d.blkLines
        conflict := x.counters.conflict + (Config.openWord a.st.free).setWidth 48 } }).draw 1 }
  else a

/-- A tile of up to 32 rows moves transposed (R194), read and written by row, then by line (R252), its column groups counted as they are served: output line j holds word j of each of the tile's lines,
and a short tile is completed with zero words (R266). -/
def StreamCtx.moveTile (c : StreamCtx) (b : BlockAt) (src : List (Nat × Nat)) (a : StreamRun) (t : Nat) : StreamRun :=
  let n := min 32 (c.d.blkRows - 32 * t)
  let r := (List.range n).foldl (fun (q : StreamRun × List (List (List Byte))) m =>
    let g := (List.range c.d.blkLines).foldl (fun (w : StreamRun × List (List Byte)) k =>
      let e := c.getLine b w.1 (32 * t + m) k
      (e.1, w.2 ++ [e.2])) (q.1, [])
    (g.1, q.2 ++ [g.2])) (a, [])
  let a1 := r.1.countGeneral c.d (c.part.roomAt b.srcRel) c.d.srcPitch (c.d.srcTransposed && decide (b.srcRel < c.part.rooms.length))
  let a2 := (List.range n).foldl (fun q j => (List.range c.d.blkLines).foldl (fun w k =>
    c.putLine b src w (32 * t + j) k (sliceZ (r.2.flatMap (fun row => sliceZ (row.getD k []) (4 * j) 4)) 0 128)) q) a1
  a2.countGeneral c.d (c.part.roomAt b.dstRel) c.d.dstPitch (c.d.dstTransposed && decide (b.dstRel < c.part.rooms.length))

/-- One block moves, row by row, line by line (R252). -/
def StreamCtx.moveBlock (c0 : StreamCtx) (a0 : StreamRun) (b : BlockAt) : StreamRun :=
  let c := { c0 with s0 := a0.st }
  let src := c.overlaps b
  if c.d.transposed then (List.range (ceilDiv c.d.blkRows 32)).foldl (c.moveTile b src) a0
  else (List.range c.d.blkRows).foldl (fun q i => (List.range c.d.blkLines).foldl (c.moveLine b src i) q) a0

/-! ## Index streams (R249 to R251) -/

/-- The bytes of index entry `k` as they stood when the descriptor was issued. -/
def StreamCtx.entryWord (c : StreamCtx) (k : Nat) : Nat :=
  leNat (c.s0.spanBytes { room := c.room, cellar := c.d.idxSpace = 1, off := c.d.idxBase + 8 * k, len := 8 })

/-- An index line is read as it stands at that moment (R197, R250, R252). -/
def StreamCtx.indexLine (c : StreamCtx) (a : StreamRun) (l : Nat) : StreamRun :=
  let r := ({ c with s0 := a.st } : StreamCtx).readAt a (c.d.idxSpace = 1) (c.part.relOf c.room) (128 * l) 128
  { r.1 with idx := (l, r.2) :: r.1.idx.take 1 }

/-- The index entry at an offset, out of the lines that have been read; a line no longer kept is seen as it stands. -/
def StreamCtx.indexWord (c : StreamCtx) (a : StreamRun) (off : Nat) : Nat :=
  let bytes (l : Nat) : List Byte :=
    ((a.idx.find? (fun e => e.1 == l)).map (·.2)).getD (a.st.spanBytes { room := c.room, cellar := c.d.idxSpace = 1, off := 128 * l, len := 128 })
  leNat (((bytes (off / 128) ++ bytes (off / 128 + 1)).drop (off % 128)).take 8)

/-- The index entry `k`, read by lines from the channel's own room (R250): a line is read before the first entry that has a byte in it (log 36). -/
def StreamCtx.entry (c : StreamCtx) (a : StreamRun) (k : Nat) : StreamRun × Nat :=
  let off := c.d.idxBase + 8 * k
  let first := if k = 0 then c.indexLine a (off / 128) else a
  let last := if (off + 7) / 128 ≠ (if k = 0 then off / 128 else (off - 1) / 128) then c.indexLine first ((off + 7) / 128) else first
  (last, c.indexWord last off)

/-- The block of index entry `k` of a GATHER or SCATTER (R248). -/
def StreamCtx.indexedBlock (c : StreamCtx) (k e : Nat) : BlockAt :=
  let d := c.d
  let at_ := bitsOf e 23 0 * d.rowStride + bitsOf e 47 24 * d.colStride
  let room := bitsOf e 51 48
  if d.op = 1 then ⟨k, room, d.srcBase + at_, d.dstRoom, d.dstBase + k * d.blkRows * d.dstPitch⟩
  else ⟨k, d.srcRoom, d.srcBase + k * d.blkRows * d.srcPitch, room, d.dstBase + at_⟩

/-- A pantry read of a piece (R228, R230): its own burst alone is checked; a listed line gives a bus error and no command is issued for it (R231). -/
def StreamCtx.pantryRead (c : StreamCtx) (a : StreamRun) (rel off n : Nat) : StreamRun × List Byte :=
  let room := c.part.roomAt rel
  if a.stop.isSome then (a, [])
  else if c.part.rooms.length ≤ rel || stackBytes < off + n then (a.halt 3 off none, [])
  else
    let lost := c.s0.lineLost room off
    let bad := c.s0.burstBad room off || lost
    let t := a.st.countEcc room [off]
    let y := t.stack room
    let b := { a with st := if lost then a.st else t.setStack room { y with counters := { y.counters with pantry := y.counters.pantry + 1 } },
                      rd := a.rd + 1, cross := a.cross || room != c.room }
    if bad && !c.third then (b.halt 2 off (some (.cellarUncorr (BitVec.ofNat 4 room).toFin (off / 128))), [])
    else ({ b with taint := b.taint || bad }, if c.s0.lineLost room off then List.replicate n 0 else c.s0.readCellar room off n)

/-- A pantry access is counted (R241), with the burst that a write of a part of it reads (R230). -/
def State.countPantry (s : State) (room off : Nat) (part : Bool) : State :=
  let t := if part then s.countEcc room [off] else s
  let y := t.stack room
  t.setStack room { y with counters := { y.counters with pantry := y.counters.pantry + 1 } }

/-- A pantry access writes its burst, which is then free of error (R230). -/
def State.storePantry (s : State) (room off : Nat) (data : List Byte) : State :=
  let t := s.writeCellar room off data
  { t with mem := { t.mem with ecc := Tab.set 0 t.mem.ecc (cellarKey room off / 32) 0 } }

/-- A pantry write of bytes within a piece (R228, R231): of fewer than 32 bytes a read-modify-write that fails on an uncorrectable burst; any
pantry write to a listed line is a bus error. -/
def StreamCtx.pantryWrite (c : StreamCtx) (a : StreamRun) (rel off : Nat) (data : List Byte) : StreamRun :=
  let room := c.part.roomAt rel
  if a.stop.isSome then a
  else if c.part.rooms.length ≤ rel || stackBytes < off + data.length then a.halt 3 off none
  else
    let part := decide (data.length < 32)
    let b := { a with st := if a.st.lineLost room off then a.st else a.st.countPantry room off part, cross := a.cross || room != c.room }
    if a.st.lineLost room off || (part && a.st.burstBad room off) then
      b.halt 2 off (some (.cellarUncorr (BitVec.ofNat 4 room).toFin (off / 128)))
    else
      let sp : Span := { room := room, cellar := true, off := off, len := data.length }
      { b with st := (b.st.storePantry room off data).digest c.p c.room 1 rel off data, wr := b.wr + 1, wrote := sp.lineKeys ++ b.wrote }

/-- One entry of a PANTRY_GATHER or PANTRY_SCATTER (R248, R251): a piece is cut at its 32-byte boundary. Pieces follow one another in issue order (R252). -/
def StreamCtx.pantryStep (c : StreamCtx) (a : StreamRun) (k : Nat) : StreamRun :=
  let e := c.entry a k
  let c1 := { c with s0 := e.1.st }
  let off := bitsOf e.2 35 0
  let n := min (bitsOf e.2 40 36 + 1) (32 - off % 32)
  let rel := bitsOf e.2 44 41
  if c.d.op = 4 then
    let r := c1.pantryRead e.1 rel off n
    c1.put r.1 [] 0 c.d.dstRoom (c.d.dstBase + 32 * k) (sliceZ r.2 0 32)
  else
    let r := c1.readAt e.1 false c.d.srcRoom (c.d.srcBase + 32 * k) n
    c1.pantryWrite r.1 rel off r.2

/-- One entry of a KEY stream is read and resolved (R129, R130), and joins the room's list. A pinned key fetches nothing (R133). -/
def StreamCtx.keyEntry (c : StreamCtx) (a : StreamRun) (k : Nat) : StreamRun :=
  let e := c.entry a k
  if e.1.stop.isSome then e.1
  else
    let en := c.part.entryOf c.room c.chan e.2
    let y := e.1.st.room c.room
    { e.1 with st := e.1.st.setRoom c.room { y with keyEntries := y.keyEntries ++ [en] } }

/-- One tile of an entry is fetched (R131): a token is taken before its first line is issued, and its lines go from the stack into the tile. -/
def StreamCtx.keyTile (c : StreamCtx) (a : StreamRun) (i : Nat) : StreamRun :=
  let y := a.st.room c.room
  match y.window.free, y.keyEntries[i]? with
  | id :: rest, some en =>
    let qs := match en.key.bind (fun q => c.part.keyByEpoch q.1 q.2) with
      | some h => ((entryQuarters c.part h en.level c.room).drop (4 * en.ids.length)).take 4
      | none => []
    let a1 := { a with st := a.st.setRoom c.room { y with window := { y.window with free := rest, inFlight := y.window.inFlight ++ [id] } } }
    let rel := c.part.relOf c.room
    let a2 := qs.zipIdx.foldl (fun q e =>
      let r := c.readAt q true rel e.1.off 16384
      c.put r.1 [] 0 rel (y.window.base + 65536 * id + 16384 * e.2) r.2) a1
    if a2.stop.isSome then a2
    else
      let z := a2.st.room c.room
      { a2 with st := a2.st.setRoom c.room { z with
          window := { z.window with inFlight := z.window.inFlight.erase id, held := z.window.held ++ [id] }
          keyEntries := z.keyEntries.set i { en with ids := en.ids ++ [id] } } }
  | _, _ => a

/-- The entry of a channel whose tiles are not all fetched. -/
def Room.keyOpen (x : Room) (chan : Nat) : Option Nat := x.keyEntries.findIdx? (fun e => e.chan == chan && decide (e.ids.length < e.tiles))

/-- A KEY stream runs from its entry `k` until it has no entry left or no token (R131): the answer names the entry it goes on with. -/
def StreamCtx.keyRun (c : StreamCtx) : Nat → StreamRun → Nat → StreamRun × Option Nat
  | 0, a, k => (a, some k)
  | n + 1, a, k =>
    let y := a.st.room c.room
    if a.stop.isSome then (a, none)
    else
      match y.keyOpen c.chan with
      | some i => if y.window.free.isEmpty then (a, some k) else c.keyRun n (c.keyTile a i) k
      | none => if k < c.d.idxCount then c.keyRun n (c.keyEntry a k) (k + 1) else (a, none)

/-- Steps that a KEY stream can take before its next token: one for each entry and for each token. -/
def StreamCtx.keyFuel (c : StreamCtx) (a : StreamRun) (k : Nat) : Nat := c.d.idxCount - k + (a.st.room c.room).window.free.length + 1

/-- Room index and origin of every source block, when a destination can overlap one (R266). -/
def StreamCtx.sources (c : StreamCtx) : List (Nat × Nat) :=
  let d := c.d
  if d.op = 6 || !d.isBlock || d.srcSpace ≠ d.dstSpace || d.srcSpace ≥ 2 then []
  else if d.op = 0 then [(d.srcRoom, d.srcBase)]
  else (List.range d.idxCount).map (fun k => let b := c.indexedBlock k (c.entryWord k); (b.srcRel, b.src))

/-- The whole run of a descriptor that is not bad and not empty (R248), with the index entry at which a KEY stream waits for a token. -/
def StreamCtx.run (c0 : StreamCtx) (a : StreamRun) : StreamRun × Option Nat :=
  let c := { c0 with srcs := c0.sources }
  let d := c.d
  let ks := List.range d.idxCount
  match d.op with
  | 1 => (ks.foldl (fun q k => let e := c.entry q k; c.moveBlock e.1 (c.indexedBlock k e.2)) a, none)
  | 2 => (ks.foldl (fun q k => let e := c.entry q k; c.moveBlock e.1 (c.indexedBlock k e.2)) a, none)
  | 3 => c.keyRun (c.keyFuel a 0) a 0
  | 4 => (ks.foldl c.pantryStep a, none)
  | 5 => (ks.foldl c.pantryStep a, none)
  | _ => (c.moveBlock a ⟨0, d.srcRoom, d.srcBase, d.dstRoom, d.dstBase⟩, none)

/-! ## Remote lines into contexts (R255, R409) -/

/-- Consecutive remote lines of one row of one block, together. -/
def groupRows : List RemoteLine → List (RemoteLine × List (List Byte))
  | [] => []
  | l :: t =>
    match groupRows t with
    | [] => [(l, [l.data])]
    | g :: rest => if g.1.block = l.block && g.1.row = l.row then (l, l.data :: g.2) :: rest else (l, [l.data]) :: g :: rest

/-- Lists cut into pieces of `n`, `fuel` of them at most. -/
def pieces {α : Type} (n : Nat) : Nat → List α → List (List α)
  | 0, _ => []
  | fuel + 1, l => if l.isEmpty then [] else l.take n :: pieces n fuel (l.drop n)

/-- The contexts of a row whose start is not a multiple of 128 bytes: the lines it spans, the first and the last under masks. -/
def maskedRow (c0 : Ctx) (g : RemoteLine × List (List Byte)) : List (Ctx × List (List Byte)) :=
  let a := g.1.rowOff % 128
  let all := chunks 128 (g.2.length + 1) (List.replicate a 0 ++ g.2.flatten ++ List.replicate (128 - a) 0)
  let ps := pieces 256 (all.length + 1) all
  ps.zipIdx.map (fun e =>
    ({ c0 with
        dstRoom := g.1.room, base := g.1.rowOff - a + e.2 * 32768, blkLines := e.1.length, lines := e.1.length, masked := true
        firstMask := if e.2 = 0 then BitVec.ofNat 128 (2 ^ 128 - 2 ^ a) else BitVec.allOnes 128
        lastMask := if e.2 + 1 = ps.length then BitVec.ofNat 128 (2 ^ a - 1) else BitVec.allOnes 128 }, e.1))

/-- The contexts of rows that start on lines: whole rows up to 256 lines together, a longer row in pieces. -/
def alignedRows (c0 : Ctx) (gs : List (RemoteLine × List (List Byte))) (width : Nat) : List (Ctx × List (List Byte)) :=
  if 256 < width then
    gs.flatMap (fun g => (pieces 256 (g.2.length + 1) g.2).zipIdx.map (fun e =>
      ({ c0 with dstRoom := g.1.room, base := g.1.rowOff + e.2 * 32768, blkLines := e.1.length, lines := e.1.length }, e.1)))
  else
    (pieces (256 / max width 1) (gs.length + 1) gs).filterMap (fun p =>
      p.head?.map (fun g =>
        ({ c0 with dstRoom := g.1.room, base := g.1.rowOff, blkLines := max width 1, lines := (p.map (·.2.length)).sum }, p.flatMap (·.2))))

/-- Rows of one block after another. -/
def groupBlocks : List (RemoteLine × List (List Byte)) → List (List (RemoteLine × List (List Byte)))
  | [] => []
  | g :: t =>
    match groupBlocks t with
    | [] => [[g]]
    | b :: rest => if (b.head?.map (·.1.block)) = some g.1.block then (g :: b) :: rest else [g] :: b :: rest

/-- The contexts of a descriptor's remote lines, in issue order (R409). -/
def contextsOf (c0 : Ctx) (d : Desc) (ls : List RemoteLine) : List (Ctx × List (List Byte)) :=
  (groupBlocks (groupRows ls)).flatMap (fun b =>
    if d.dstBase % 128 = 0 && d.dstPitch % 128 = 0 then alignedRows c0 b d.blkLines
    else b.flatMap (fun g => if g.1.rowOff % 128 = 0 then alignedRows c0 [g] d.blkLines else maskedRow c0 g))

/-- The context of a FINAL descriptor's last line, which carries the flag when TOKEN names one (R255, R311). -/
def finalContext (c0 : Ctx) (d : Desc) (l : RemoteLine) (k : Nat) : Ctx :=
  { c0 with dstRoom := l.room, base := l.rowOff + 128 * k, blkLines := 1, lines := 1, flagged := decide (d.token ≤ 63), flag := d.token % 64 }

/-! ## Issue, completion, halts -/

/-- A channel takes another descriptor (R243): it has not halted, and its queue holds fewer than 4. -/
def Channel.hasRoom (h : Channel) : Bool := h.state != .halted && decide (h.queue.length < 4)

/-- Tags that a channel may take (R245): what is free, less what other channels with a descriptor in progress keep reserved. -/
def Room.tagsFor (x : Room) (chan : Nat) : Nat :=
  let kept := (x.channels.map (fun c => if c.1 = chan || c.2.issued.isEmpty then 0 else 256 - min 256 ((c.2.issued.map (·.tags)).sum))).sum
  x.tagsFree - kept

/-- A token counts one more (R301). -/
def Room.signal (x : Room) (tok : Nat) : Room :=
  if tok ≤ 63 then { x with tokens := Tab.set 0 x.tokens tok (Tab.get 0 x.tokens tok + 1) } else x

/-- The room indices of the sides that a descriptor has in the cellar: for an indexed one those that its entries name, as the index stream stands
(R248, R249). -/
def StreamCtx.cellarRooms (c : StreamCtx) : List Nat :=
  let d := c.d
  let entries (f : Nat → Nat) : List Nat := (List.range d.idxCount).map (fun k => f (c.entryWord k))
  match d.op with
  | 0 => (if d.srcSpace = 1 then [d.srcRoom] else []) ++ (if d.dstSpace = 1 then [d.dstRoom] else [])
  | 1 => (if d.srcSpace = 1 then entries (fun e => bitsOf e 51 48) else []) ++ (if d.dstSpace = 1 then [d.dstRoom] else [])
  | 2 => (if d.srcSpace = 1 then [d.srcRoom] else []) ++ (if d.dstSpace = 1 then entries (fun e => bitsOf e 51 48) else [])
  | 3 => [c.part.relOf c.room]
  | 4 => entries (fun e => bitsOf e 44 41)
  | 5 => entries (fun e => bitsOf e 44 41)
  | 6 => if d.dstSpace = 1 then [d.dstRoom] else []
  | _ => []

/-- A stack that the descriptor reads or writes is at thermal level 4, and its requests wait (R232, R265). -/
def State.stackWaits (s : State) (p room : Nat) (d : Desc) : Bool :=
  let c : StreamCtx := { s0 := s, p := p, room := room, chan := 0, d := d, third := false }
  let hot (r : Nat) : Bool := decide (4 ≤ (s.stack r).level)
  (d.indexed && d.idxSpace == 1 && hot room) || c.cellarRooms.any (fun r => hot ((s.part p).roomAt r))

/-- Every channel of a room has completed its descriptors, and none waits in a queue. -/
def Room.streamsDone (x : Room) : Bool := x.channels.all (fun c => c.2.issued.isEmpty && c.2.queue.isEmpty)

/-- What keeps the next descriptor of a channel from starting (R243, R245, R261, R265, R312, R410): the one before it has requests left to issue, no tag is
to be had, a stack is at level 4, a FINAL one waits for the room's other streams and for what its other engine queues hold, a remote one for the module's time and identifier, a follower's read
for its leader's lines. -/
def State.streamHeld (s : State) (p room chan : Nat) (d : Desc) : Bool :=
  let x := s.room room
  let pt := s.part p
  !s.partRuns p || (match x.block with | some b => b.failed | none => false) || (x.chan chan).issued.any (fun i => i.keyAt.isSome || !i.unsent.isEmpty) ||
    x.tagsFor chan == 0 || s.stackWaits p room d ||
    (!d.bad && !d.empty &&
      ((d.isFinal && (x.channels.any (fun c => !c.2.issued.isEmpty || (c.1 != chan && !c.2.queue.isEmpty)) || x.queues.any (fun e => e.1 != 3 && !e.2.isEmpty))) ||
        (d.isRemote && !pt.isFollower && !s.maySendCtx) ||
        (d.isBlock && d.op != 6 && d.srcSpace == 2 && pt.isFollower &&
          decide ((Tab.get [] pt.pair.hostread (pt.relOf room * 16 + chan)).length < 128 * d.blkRows * d.blkLines * (if d.op = 0 then 1 else d.idxCount)))))

/-- A descriptor that a room dispatches does not run at once: the room does not dispatch, or the channel has halted, or holds others in its queue, or must
wait. -/
def State.streamWaits (s : State) (p room chan : Nat) (d : Desc) : Bool :=
  let h := (s.room room).chan chan
  !s.mayDispatch p room || h.state == .halted || !h.queue.isEmpty || s.streamHeld p room chan d

/-- A channel halts and its room learns of it (R262 to R264): a program fault ends the block, any other cause is an error of the block. -/
def State.haltChannel (s : State) (room chan : Nat) (st : StreamStop) : State :=
  let t := s.stopChannel room chan st.cause st.at_
  let x := t.room room
  if st.cause = 3 || st.cause = 4 then t.setRoom room x.programFault
  else t.setRoom room (x.fail (st.event.getD .other))

/-- The lines that a stream of a third execution wrote are remembered; those of a read in error are tainted, up to 256 (R459). -/
def Room.noteStream (x : Room) (third taint cross : Bool) (keys : List Nat) : Room :=
  match x.block with
  | some b =>
    let all := b.tainted ++ (if taint then keys.filter (fun k => !b.tainted.contains k) else [])
    { x with block := some { b with
        exchange := b.exchange || cross
        errSeen := b.errSeen || taint
        streamed := if third then keys ++ b.streamed else b.streamed
        tainted := all.take 256, taintFull := b.taintFull || decide (256 < all.length) } }
  | none => x

/-- Contexts leave one after another while the channel has a tag for each of their lines (R244, R245): the lines that then wait for an acknowledgement, and the
contexts that wait for tags. -/
def State.sendWithin (p room chan no : Nat) : List (Ctx × List (List Byte)) → Nat → State → State × Nat × List (Ctx × List (List Byte))
  | [], _, s => (s, 0, [])
  | c :: t, avail, s =>
    if avail < c.2.length then (s, 0, c :: t)
    else
      let q := s.sendContext p room chan no c.1 c.2
      let r := State.sendWithin p room chan no t (avail - q.2) q.1
      (r.1, q.2 + r.2.1, r.2.2)

/-- The remote lines of a run leave as contexts, as far as tags go, but for a FINAL descriptor's last line, which is held (R245, R255, R444). A follower sends none
and waits for an ECHO. The answer: lines that wait for an acknowledgement, the line held, and the contexts that wait for tags. -/
def State.sendRemote (s : State) (p room chan no : Nat) (d : Desc) (ls : List RemoteLine) : State × Nat × Option (Ctx × List Byte) × List (Ctx × List (List Byte)) :=
  let c0 := s.ctxBase room chan d 0
  let body := if d.isFinal then ls.dropLast else ls
  let held := if d.isFinal then ls.getLast?.map (fun l =>
      (finalContext c0 d l ((ls.filter (fun q => q.block == l.block && q.row == l.row)).length - 1), l.data)) else none
  if (s.part p).isFollower then (s, 0, held, [])
  else
    let r := State.sendWithin p room chan no (contextsOf c0 d body) ((s.room room).tagsFor chan) s
    (r.1, r.2.1, held, r.2.2)

/-- Tags have come back to a channel: contexts that wait for them leave, in order (R245). -/
def State.sendUnsent (s : State) (p room chan : Nat) : State :=
  match ((s.room room).chan chan).issued.find? (fun i => !i.unsent.isEmpty) with
  | none => s
  | some i =>
    let r := State.sendWithin p room chan i.no i.unsent ((s.room room).tagsFor chan) s
    let x := r.1.room room
    let h := x.chan chan
    r.1.setRoom room { x.setChan chan { h with issued := h.issued.map (fun q =>
        if q.no = i.no then { q with unsent := r.2.2, left := q.left + r.2.1, tags := q.tags + r.2.1 } else q) } with tagsInFlight := x.tagsInFlight + r.2.1 }

/-- A held line goes once every other line is acknowledged and, in a leader in dual execution, its block is agreed (R255, R444). -/
def State.releaseHeld (s : State) (p room chan : Nat) : State :=
  let h := (s.room room).chan chan
  h.issued.foldl (fun t i =>
    match i.held with
    | some (c, data) =>
      if i.left = 0 && i.unsent.isEmpty && i.agreed && !i.echo then
        let clear (q : Issued) (n : Nat) : Issued := if q.no = i.no then { q with held := none, left := q.left + n } else q
        let r := t.sendContext p room chan i.no { c with originTime := t.timestamp } [data]
        let x := r.1.room room
        let hh := x.chan chan
        r.1.setRoom room (x.setChan chan { hh with issued := hh.issued.map (fun q => clear q r.2) })
      else t
    | none => t) s

/-- What a run leaves in its room besides the lines it moved: the counters of R270, and what a third execution remembers. -/
def State.afterRun (s : State) (room : Nat) (third : Bool) (a : StreamRun) : State :=
  let x := (s.room room).noteStream third a.taint a.cross a.wrote
  s.setRoom room { x with counters := { x.counters with
    streamRd := x.counters.streamRd + BitVec.ofNat 48 a.rd, streamWr := x.counters.streamWr + BitVec.ofNat 48 a.wr } }

/-- The tags of a descriptor (R244): one for each line not yet performed at its destination, as many as the channel may take (R245). What goes to an attic or a
stack is performed at issue (log 36), and index lines have then arrived; lines in host memory wait for the zero-length read of R253. -/
def Issued.tagsNeeded (i : Issued) (hostLines : Nat) : Nat := i.left + (if i.held.isSome then 1 else 0) + hostLines

/-- A channel works on one more descriptor. -/
def Room.addIssued (x : Room) (chan : Nat) (i : Issued) : Room :=
  let h := x.chan chan
  { x.setChan chan { h with state := .performing, issued := h.issued ++ [i], nextNo := h.nextNo + 1 } with tagsInFlight := x.tagsInFlight + i.tags }

/-- A descriptor starts on a channel and its lines are performed; `first` says that the room has just dispatched it. Lines in host memory are followed by one
zero-length read (R253), whose completion DESCRIPTOR_COMPLETE waits for. Of a descriptor that halts, the remote lines before the halt have left, and
their tags become stale with the others' (R262, R266). -/
def State.runDesc (s : State) (p room chan : Nat) (d : Desc) (hostIn : List Byte) (first : Bool) : State :=
  if d.bad then s.haltChannel room chan ⟨4, 0, none⟩
  else
    let done (x : Room) : Room := if first then x.countOp.takeTag 3 else x
    if d.empty then s.setRoom room ((done (s.room room)).signal d.token)
    else
      let third := (s.room room).takesErrors
      let s0 := if d.isFinal then s.digest p room 7 0 0 d.bytes else s
      let c : StreamCtx := { s0 := s0, p := p, room := room, chan := chan, d := d, third := third }
      let r := c.run { st := s0, host := hostIn }
      let a := r.1
      let t := a.st.afterRun room third a
      let no := ((t.room room).chan chan).nextNo
      let free := (s.room room).tagsFor chan
      let ls := a.remote.reverse
      match a.stop with
      | some st =>
        let q := t.sendRemote p room chan no { d with flags := d.flags &&& 0xFB } ls
        let i : Issued := { no := no, desc := d, tags := min (q.2.1 + a.hostWr) free, left := q.2.1 }
        (q.1.setRoom room ((q.1.room room).addIssued chan i)).haltChannel room chan st
      | none =>
        let q := t.sendRemote p room chan no d ls
        let pt := s.part p
        let ek := pt.relOf room * 16 + chan
        let echoes := pt.isFollower && (d.isRemote || (d.isBlock && d.dstSpace == 2))
        let early := echoes && 0 < Tab.get 0 pt.pair.echoes ek
        let i0 : Issued := { no := no, desc := d, tags := 0, left := q.2.1, held := q.2.2.1, unsent := q.2.2.2, keyAt := r.2, idx := a.idx
                             agreed := !(d.isFinal && pt.isLeader && pt.pair.state == .dual)
                             echo := echoes && !early
                             kept := if pt.isFollower && !early then contextsOf (s.ctxBase room chan d 0) d (if d.isFinal then ls.dropLast else ls) else [] }
        let i := { i0 with tags := min (i0.tagsNeeded a.hostWr) free }
        let u0 := q.1.setRoom room ((done (q.1.room room)).addIssued chan i)
        let u := if 0 < a.hostWr && !pt.isFollower then u0.emit (.hostFence (p + 1) room chan) else u0
        let v := if early then
            let w := u.part p
            u.setPart p { w with pair := { w.pair with echoes := Tab.set 0 w.pair.echoes ek (Tab.get 0 w.pair.echoes ek - 1) } }
          else u
        v.releaseHeld p room chan

/-- The KEY stream of a channel goes on when a token has come back (R131). -/
def State.resumeKey (s : State) (p room chan : Nat) : State :=
  match ((s.room room).chan chan).issued.find? (fun i => i.keyAt.isSome) with
  | none => s
  | some i =>
    if s.stackWaits p room i.desc then s
    else
      let third := (s.room room).takesErrors
      let c : StreamCtx := { s0 := s, p := p, room := room, chan := chan, d := i.desc, third := third }
      let k := i.keyAt.getD 0
      let a0 : StreamRun := { st := s, host := [], idx := i.idx }
      let r := c.keyRun (c.keyFuel a0 k) a0 k
      let t := r.1.st.afterRun room third r.1
      match r.1.stop with
      | some st => t.haltChannel room chan st
      | none =>
        let x := t.room room
        let h := x.chan chan
        t.setRoom room (x.setChan chan { h with issued := h.issued.map (fun q => if q.no = i.no then { q with keyAt := r.2, idx := r.1.idx } else q) })

/-- The descriptors that wait on a channel start in their order as far as nothing holds them (R243). -/
def State.startQueued (p room chan : Nat) : Nat → State → State
  | 0, s => s
  | n + 1, s =>
    let h := (s.room room).chan chan
    match h.queue with
    | [] => s
    | (d, hostIn) :: rest =>
      if h.state == .halted || s.streamHeld p room chan d then s
      else State.startQueued p room chan n ((s.setRoom room ((s.room room).setChan chan { h with queue := rest })).runDesc p room chan d hostIn false)

/-- A count has been reached, modulo 2^16 (R301, R311). -/
def reached (count c : BitVec 16) : Bool := !(count - c).getLsbD 15

/-- Every earlier command of a room has completed: no queue holds a waiting entry and no channel a descriptor (R310). -/
def Room.allDone (x : Room) : Bool := x.streamsDone && x.queues.all (fun e => e.2.isEmpty)

/-- An entry joins an engine queue with the queue's next tag (R299, R300). -/
def Room.enqueue (x : Room) (q : Nat) (e : QEntry) : Room := { x.takeTag q with queues := Tab.set [] x.queues q (Tab.get [] x.queues q ++ [e]) }

/-- A room issues what its queues hold: no error of its block waits for a decision, and no break holds it (R316). -/
def Room.issues (x : Room) : Bool := !x.brk.stopped && (match x.block with | some b => b.error.isNone && !b.failed | none => true)

/-- The entry at the head of an engine queue is issued, if nothing holds it (R243, R299, R301): a wait whose count is reached, a signal, or a descriptor that its
channel takes. -/
def State.issueHead (s : State) (p room q : Nat) : Option State :=
  let x := s.room room
  match Tab.get [] x.queues q with
  | [] => none
  | e :: rest =>
    let y := { x with queues := Tab.set [] x.queues q rest }
    match e.waitTok, e.desc, e.sigTok with
    | some w, _, _ => if reached (Tab.get 0 x.tokens w.1) w.2 then some (s.setRoom room y) else none
    | none, some d, _ =>
      let h := x.chan d.1
      if h.state == .halted then none
      else if !h.queue.isEmpty || s.streamHeld p room d.1 d.2.1 then
        if h.hasRoom then some (s.setRoom room (y.setChan d.1 { h with queue := h.queue ++ [d.2] })) else none
      else some ((s.setRoom room y).runDesc p room d.1 d.2.1 d.2.2 false)
    | none, none, some t => some (s.setRoom room (y.signal t))
    | none, none, none => some (s.setRoom room y)

/-- Entries are issued from the heads of a room's queues, each queue in its order, until each head waits (R299). -/
def State.issueAll (p room : Nat) : Nat → State → State
  | 0, s => s
  | n + 1, s =>
    match (List.range 4).findSome? (fun q => if (s.room room).issues then s.issueHead p room q else none) with
    | some t => State.issueAll p room n t
    | none => s

/-- What waits in a room's engine queues is issued as far as it can be, and a fence before which nothing is left ends (R310). -/
def State.issueQueues (s : State) (room : Nat) : State :=
  match s.ownerOf room with
  | some p =>
    let t := State.issueAll p room (((s.room room).queues.map (fun e => e.2.length)).sum) s
    let x := t.room room
    if x.fenceWait && x.allDone then t.setRoom room { x with fenceWait := false } else t
  | none => s

/-- A room's channels go on: contexts with the tags that have come back, KEY streams with the tokens there are, what waits in the channel queues, then what waits in the
engine queues. -/
def State.goOn (s : State) (room : Nat) : State :=
  match s.ownerOf room with
  | some p => ((List.range 16).foldl (fun t c => State.startQueued p room c 4 ((t.sendUnsent p room c).resumeKey p room c)) s).issueQueues room
  | none => s

/-- A room dispatches a descriptor to a channel (R243, R299): it starts, or waits in the channel's queue; behind entries of the stream queue that wait, and with the channel's
queue full, it waits in the stream queue. What it signals at once may let entries of the queues go. -/
def State.issue (s : State) (room chan : Nat) (d : Desc) (hostIn : List Byte) : State :=
  match s.ownerOf room with
  | none => s
  | some p =>
    let x := s.room room
    let h := x.chan chan
    if !d.fits || !s.mayDispatch p room || !s.partRuns p || h.state == .halted then s
    else if !x.queueClear 3 || (s.streamWaits p room chan d && !h.hasRoom) then
      s.setRoom room (x.countOp.enqueue 3 { tag := x.tagOf 3, desc := some (chan, d, hostIn) })
    else if s.streamWaits p room chan d then s.setRoom room ((x.countOp.takeTag 3).setChan chan { h with queue := h.queue ++ [(d, hostIn)] })
    else if d.empty && !d.bad then (s.runDesc p room chan d hostIn true).issueQueues room
    else s.runDesc p room chan d hostIn true

/-- The row's OP, else the event does not occur (log 13). -/
def State.issueOp (s : State) (r : RoomId) (ch : ChanId) (d : Desc) (hostIn : List Byte) (ok : Bool) : State :=
  if ok then s.issue r ch d hostIn else s

/-- COPY (R248); a reserved OP is issued as this row's and halts (R266). -/
def execCopy (r : RoomId) (ch : ChanId) (d : Desc) (hostIn : List Byte) (s : State) : Host.Outcome State Fault Refusal :=
  .next (s.issueOp r ch d hostIn (d.op == 0 || 6 < d.op))

/-- GATHER (R248). -/
def execGather (r : RoomId) (ch : ChanId) (d : Desc) (hostIn : List Byte) (s : State) : Host.Outcome State Fault Refusal :=
  .next (s.issueOp r ch d hostIn (d.op == 1))

/-- SCATTER (R248). -/
def execScatter (r : RoomId) (ch : ChanId) (d : Desc) (hostIn : List Byte) (s : State) : Host.Outcome State Fault Refusal :=
  .next (s.issueOp r ch d hostIn (d.op == 2))

/-- KEY_STREAM (R248, R130). -/
def execKeyStream (r : RoomId) (ch : ChanId) (d : Desc) (s : State) : Host.Outcome State Fault Refusal :=
  .next (s.issueOp r ch d [] (d.op == 3))

/-- PANTRY_GATHER (R248). -/
def execPantryGather (r : RoomId) (ch : ChanId) (d : Desc) (s : State) : Host.Outcome State Fault Refusal :=
  .next (s.issueOp r ch d [] (d.op == 4))

/-- PANTRY_SCATTER (R248). -/
def execPantryScatter (r : RoomId) (ch : ChanId) (d : Desc) (s : State) : Host.Outcome State Fault Refusal :=
  .next (s.issueOp r ch d [] (d.op == 5))

/-- FILL (R248). -/
def execFill (r : RoomId) (ch : ChanId) (d : Desc) (s : State) : Host.Outcome State Fault Refusal :=
  .next (s.issueOp r ch d [] (d.op == 6))

/-- A layout-change copy stays inside the module. -/
def Desc.layoutCopy (d : Desc) : Bool := d.op == 0 && d.srcSpace ≤ 1 && d.dstSpace ≤ 1

/-- RE_PITCH (R268): a copy with another pitch. -/
def execRePitch (r : RoomId) (ch : ChanId) (d : Desc) (s : State) : Host.Outcome State Fault Refusal :=
  .next (s.issueOp r ch d [] (d.layoutCopy && !d.transposed))

/-- TRANSPOSE (R268, R194). -/
def execTranspose (r : RoomId) (ch : ChanId) (d : Desc) (s : State) : Host.Outcome State Fault Refusal :=
  .next (s.issueOp r ch d [] (d.layoutCopy && d.transposed))

/-- ALIGN (R268): a copy to an aligned destination. -/
def execAlign (r : RoomId) (ch : ChanId) (d : Desc) (s : State) : Host.Outcome State Fault Refusal :=
  .next (s.issueOp r ch d [] (d.layoutCopy && !d.transposed && d.dstBase % 128 == 0))

/-- DESCRIPTOR_BY_ADDRESS (R247, R265): the line at an attic offset of the channel's own room as read at dispatch. Its address outside the
attic is a program fault (R188), a parity error an error of the block, in the third execution taken as data (R459). -/
def execDescriptorByAddress (r : RoomId) (ch : ChanId) (off : Nat) (hostIn : List Byte) (s : State) : Host.Outcome State Fault Refusal :=
  let sp : Span := { room := r, cellar := false, off := off, len := 128 }
  .next
    (if !s.roomRuns r || ((s.room r).chan ch).state == .halted || (s.ownerOf r).isNone then s
    else if sp.outside then s.setRoom r (s.room r).programFault
    else
      let t := s.countRead sp
      if s.spanBad sp && !(s.room r).takesErrors then t.setRoom r ((t.room r).fail (s.spanEvent sp))
      else
        let u := if s.spanBad sp then t.setRoom r (t.room r).errTaken else t
        u.issue r ch (streamDescOf (s.spanBytes sp)) hostIn)

/-- A descriptor with no line still to be performed (R253, R254). -/
def Issued.performed (i : Issued) : Bool := i.left == 0 && i.unsent.isEmpty && i.held.isNone && !i.echo && i.keyAt.isNone

/-- DESCRIPTOR_COMPLETE (R254): the oldest descriptor of a channel whose every line has been performed completes; its tags are free and its
TOKEN counts. Each completed host write and acknowledgement of a leader is echoed to the follower (R444). -/
def execDescriptorComplete (r : RoomId) (ch : ChanId) (s : State) : Host.Outcome State Fault Refusal :=
  let x := s.room r
  let h := x.chan ch
  .next
    (match h.issued.find? Issued.performed with
    | some i =>
      let rest := h.issued.filter (fun q => q.no != i.no)
      let y := { (x.setChan ch { h with issued := rest, state := if rest.isEmpty then .idle else .performing }) with tagsInFlight := x.tagsInFlight - i.tags }
      let t := s.setRoom r (y.signal i.desc.token)
      let u := match s.ownerOf r with
        | some p =>
          let q := s.part p
          if q.isLeader && (i.desc.isRemote || (i.desc.isBlock && i.desc.dstSpace == 2)) then
            t.emit (.mirror 5 q.pair.peerModule q.pair.peerPart (leBytes 1 (q.relOf r) ++ leBytes 1 ch))
          else t
        | none => t
      u.goOn r
    | none => s)

/-- The room index of the first index entry whose block, or piece, of the indexed side holds a line. -/
def StreamCtx.roomOfLine (c : StreamCtx) (failAt : Nat) : Option Nat :=
  let d := c.d
  (List.range d.idxCount).findSome? (fun k =>
    let e := c.entryWord k
    if d.op = 4 || d.op = 5 then if bitsOf e 35 0 / 128 = failAt / 128 then some (bitsOf e 44 41) else none
    else
      let b := c.indexedBlock k e
      let o := if d.op = 1 then b.src else b.dst
      let pitch := if d.op = 1 then d.srcPitch else d.dstPitch
      if (List.range d.blkRows).any (fun i => decide ((o + i * pitch) / 128 ≤ failAt / 128) && decide (failAt < o + i * pitch + d.blkLines * 128))
      then some (if d.op = 1 then b.srcRel else b.dstRel) else none)

/-- Where the line lies that a reported halt of a descriptor failed at (R262): for an index line in the channel's own room; else in the attic or the stack of the room that the
descriptor reads, which for an indexed side its entries name; a merge's burst lies at its destination. -/
def State.haltSpan (s : State) (room : Nat) (d : Desc) (cellar : Bool) (failAt : Nat) : Span :=
  let p := (s.ownerOf room).getD 0
  let x := match s.ownerOf room with | some q => s.part q | none => {}
  let c : StreamCtx := { s0 := s, p := p, room := room, chan := 0, d := d, third := false }
  let space := if cellar then 1 else 0
  let index := d.indexed && d.idxSpace == space && decide (d.idxBase / 128 ≤ failAt / 128) && decide (failAt < d.idxBase + 8 * d.idxCount)
  let at_ (rel : Option Nat) : Option Nat := rel.bind (fun i => x.rooms[i]?)
  let reads : Option Nat := if d.srcSpace ≠ space then none else if d.op = 0 || d.op = 2 || d.op = 5 then some d.srcRoom else if d.op = 1 || d.op = 4 then c.roomOfLine failAt else none
  let writes : Option Nat := if d.dstSpace ≠ space then none else if d.op = 0 || d.op = 1 || d.op = 4 || d.op = 6 then some d.dstRoom else if d.op = 2 || d.op = 5 then c.roomOfLine failAt else none
  { room := if index || d.op = 3 then room else ((at_ reads).or (at_ writes)).getD room, cellar := cellar, off := failAt / 128 * 128, len := 128 }

/-- CHANNEL_HALT (R262): a channel with a descriptor in progress halts with a cause of R263. A parity error or an uncorrectable burst that it reports is
stored and counted where the line lies (R199, R200, R230). -/
def execChannelHalt (r : RoomId) (ch : ChanId) (cause : Fin 7) (failAt : Nat) (s : State) : Host.Outcome State Fault Refusal :=
  .next
    (match ((s.room r).chan ch).issued with
    | [] => s
    | i :: _ =>
      if cause.val = 0 then s
      else
        let sp := s.haltSpan r i.desc (cause.val == 2) failAt
        if (cause.val = 1 || cause.val = 2) && !sp.outside && s.roomOk sp.room then
          (s.meetError sp).haltChannel r ch ⟨cause, failAt, some (s.lineEvent sp.room sp.cellar (sp.off / 128))⟩
        else s.haltChannel r ch ⟨cause, failAt, some (if cause.val = 5 then .remote else .other)⟩)

/-- Stale tags without one of them. -/
def Room.dropStale (x : Room) (k : Nat) : Room := { x with stale := x.stale.eraseIdx k }

/-- STALE_TAG_TIMEOUT (R246): a tag stale for 2 ms is free. -/
def execStaleTagTimeout (r : RoomId) (tag : Nat) (s : State) : Host.Outcome State Fault Refusal :=
  .next
    (match (s.room r).stale[tag]? with
    | some t => if t + 2000000 ≤ s.now then (s.setRoom r ((s.room r).dropStale tag)).goOn r else s
    | none => s)

/-- STALE_RESPONSE (R246): the response is discarded and the tag is free. -/
def execStaleResponse (r : RoomId) (tag : Nat) (s : State) : Host.Outcome State Fault Refusal :=
  .next (if tag < (s.room r).stale.length then (s.setRoom r ((s.room r).dropStale tag)).goOn r else s)

/-- REMOTE_ACK_TIMEOUT (R263): a context of the channel has waited 2 ms for its acknowledgement; the failing address is where its lines go. -/
def execRemoteAckTimeout (r : RoomId) (ch : ChanId) (s : State) : Host.Outcome State Fault Refusal :=
  .next
    (match s.links.tx.find? (fun e => e.room == r.val && e.chan == ch.val && decide (e.sentAt + 2000000 ≤ s.now)) with
    | some e => s.haltChannel r ch ⟨5, e.base, some .remote⟩
    | none => s)

/-- The token of a tile whose last lane read is done is free again. -/
def KeyWindow.tileBack (w : KeyWindow) (tile : Nat) : KeyWindow :=
  { w with free := w.free ++ [tile], held := w.held.erase tile, read := w.read.erase tile }

/-- KEY_TILE_RETURN (R131): the last lane read of a held tile is done and its token is free, and a KEY stream that waits for one goes on. -/
def execKeyTileReturn (r : RoomId) (tile : Nat) (s : State) : Host.Outcome State Fault Refusal :=
  let x := s.room r
  .next (if x.window.read.contains tile then (s.setRoom r { x with window := x.window.tileBack tile }).goOn r else s)

/-! ## The regulator (R256 to R260) -/

/-- Units after one offered slot: 12 units per 5% of share, at most 3,840 (R258). -/
def refill (shares : List Nat) (u : Tab Nat) : Tab Nat :=
  (List.range 3).foldl (fun t k => Tab.set 0 t k (min 3840 (Tab.get 0 t k + 12 * shares.getD k 0))) u

/-- The first class in round-robin order from a pointer that satisfies a test. -/
def roundRobin (from_ : Nat) (ok : Nat → Bool) : Option Nat :=
  ((List.range 3).map (fun i => (from_ + i) % 3)).find? ok

/-- The class of a request at a stack (R257): READ 0, WRITE 1, REMOTE 2; the stack's own background traffic has none. -/
def Traffic.cls (stack : RoomId) : Traffic → Option (Fin 3)
  | .stream r write _ => some (if r ≠ stack then 2 else if write then 1 else 0)
  | .hostCopy => some 2
  | .bar2 => some 2
  | .link => some 2
  | .background => none

/-- The cost of a request: a line, or a quarter of one for a pantry piece (R228, R258). -/
def Traffic.cost : Traffic → Nat
  | .stream _ _ true => 60
  | _ => 240

/-- The head request of a class. -/
def headOf (stack : RoomId) (waiting : List Traffic) (k : Nat) : Option Traffic := waiting.find? (fun w => (w.cls stack).any (fun c => c.val == k))

/-- REGULATOR_SLOT (R257, R259): the stack offers a line slot; `waiting` holds the requests that wait for it, oldest first, and `pantry`
those of the pantry queues (R228) that stand behind them. A stack outside every partition regulates nothing. -/
def execRegulatorSlot (stack : RoomId) (waiting pantry : List Traffic) (s : State) : Host.Outcome State Fault Refusal :=
  let y := s.stack stack
  .next
    (match s.ownerOf stack with
    | none => s
    | some p =>
      let x := s.part p
      if 4 ≤ y.level then s
      else
        let u := refill x.shares y.reg.units
        let cost (k : Nat) : Nat := ((headOf stack (waiting ++ pantry) k).map Traffic.cost).getD 240
        let waits (k : Nat) : Bool := (headOf stack (waiting ++ pantry) k).isSome
        match roundRobin y.reg.next (fun k => waits k && decide (cost k ≤ Tab.get 0 u k)) with
        | some k =>
          s.setStack stack { y with reg := { units := Tab.set 0 u k (Tab.get 0 u k - cost k), next := Fin.ofNat 3 (k + 1), granted := some k } }
        | none =>
          match (if x.shareMode = 0 then roundRobin y.reg.next waits else none) with
          | some k =>
            s.setStack stack { y with
              reg := { units := u, next := Fin.ofNat 3 (k + 1), granted := some k }
              counters := { y.counters with regSlack := y.counters.regSlack + 1 } }
          | none => s.setStack stack { y with reg := { y.reg with units := u, granted := none } })

end Sys2Proof.Machine
end

