-- ==== Sys2Proof/Machine/Cellar.lean ====
section
/-! DEFINITION. Cellar maintenance (09): refresh, temperature, sweep, calibration, repair, pseudo-channel retirement, and the cellar-repair commands. -/

namespace Sys2Proof.Machine

/-- A stack works: its room is enabled and not retired, and TRAINING has initialised it (R213, R509). -/
def State.stackOk (s : State) (r : Nat) : Bool := s.roomOk r && (s.stack r).trained

/-- On the CCLK bypass and at level 4 only refresh, RFM and temperature reads are issued (R232, R482). -/
def State.stackBackground (s : State) (r : Nat) : Bool := s.stackOk r && decide ((s.stack r).level < 4) && (s.clk 2).source != 2 && (s.clk 3).source != 2

/-! ## Refresh (R236, R237) -/

/-- The index of a bank of a pseudo-channel: 48 banks each. -/
def bankIndex (pc bank : Nat) : Nat := pc * 48 + bank

/-- A bank is refreshed or receives RFM: it is busy for tRFCpb, 160 ns (R226). -/
def Stack.refresh (x : Stack) (pc bank now : Nat) : Stack := { x with busyUntil := Tab.set 0 x.busyUntil (bankIndex pc bank) (now + 160) }

/-- A bank of a working stack that is not busy. -/
def State.bankFree (s : State) (r pc bank : Nat) : Bool :=
  s.stackOk r && decide (pc < 64) && decide (bank < 48) && decide (Tab.get 0 (s.stack r).busyUntil (bankIndex pc bank) ≤ s.now)

/-- CELLAR_REFRESH (R236): the REFpb that falls due on a pseudo-channel, in turn over its 48 banks; while requests wait for the bank it is postponed, up to
eight times. With none waiting, the bank receives what was postponed too, one refresh after another. -/
def execCellarRefresh (stack : RoomId) (pc bank : Nat) (busy : Bool) (s : State) : Host.Outcome State Fault Refusal :=
  let x := s.stack stack
  let n := Tab.get 0 x.postponed (bankIndex pc bank)
  let y := { x with refNext := Tab.set 0 x.refNext pc ((bank + 1) % 48) }
  .next
    (if !s.bankFree stack pc bank || Tab.get 0 x.refNext pc != bank then s
    else if busy && n < 8 then
      s.setStack stack { y with
        postponed := Tab.set 0 y.postponed (bankIndex pc bank) (n + 1)
        counters := { y.counters with refPostponed := y.counters.refPostponed + 1 } }
    else s.setStack stack { y.refresh pc bank (s.now + 160 * n) with postponed := Tab.set 0 y.postponed (bankIndex pc bank) 0 })

/-- REFRESH_FORCED (R236): a bank with eight postponed refreshes is refreshed at its next free slot ahead of all requests. -/
def execRefreshForced (stack : RoomId) (pc bank : Nat) (s : State) : Host.Outcome State Fault Refusal :=
  let x := s.stack stack
  let n := Tab.get 0 x.postponed (bankIndex pc bank)
  .next
    (if !s.bankFree stack pc bank || n < 8 then s
    else s.setStack stack { x.refresh pc bank s.now with postponed := Tab.set 0 x.postponed (bankIndex pc bank) (n - 1) })

/-- RFM (R237): the bank is busy for tRFCpb. -/
def execRfm (stack : RoomId) (pc bank : Nat) (s : State) : Host.Outcome State Fault Refusal :=
  .next (if s.bankFree stack pc bank then s.setStack stack ((s.stack stack).refresh pc bank s.now) else s)

/-! ## Temperature (R232, R233) -/

/-- The highest level whose threshold a temperature reaches. -/
def levelAt (t t1 t2 t3 t4 : Int) : Nat := if t4 ≤ t then 4 else if t3 ≤ t then 3 else if t2 ≤ t then 2 else if t1 ≤ t then 1 else 0

/-- The level after a reading: levels are entered at 85, 95, 100 and 105 °C and left below 82, 92, 97 and 102 (R232). -/
def nextLevel (cur : Nat) (t : Int) : Nat := max (levelAt t 85 95 100 105) (min cur (levelAt t 82 92 97 102))

/-- CCLK cycles in a time (R475). -/
def State.cclkIn (s : State) (ns : Nat) : Nat := if (s.clk 3).source = 2 then ns / 10 else ns * 6 / 5

/-- A stack's level is set (R232): a change raises its source; reaching level 4 is entered in the ledger (R233). -/
def State.setLevel (s : State) (stack lvl : Nat) : State :=
  let x := s.stack stack
  if lvl = x.level then s
  else
    let t := (s.setStack stack { x with level := lvl, level4Since := if lvl = 4 then some s.now else none }).raise (64 + stack)
    if lvl = 4 then t.decided 0x0013 1 0 true false false stack 255 x.temp.toNat 1 else t

/-- The streams of a stack's partition go on once it has left level 4 (R233, R265). -/
def State.coolStreams (s : State) (stack was : Nat) : State :=
  if 4 ≤ was && (s.stack stack).level < 4 then
    match s.ownerOf stack with
    | some p => (s.part p).rooms.foldl State.goOn s
    | none => s
  else s

/-- STACK_TEMP_READ (R232, R233): a valid temperature, or a failed readout, which counts as a reading at level 2; three failures in a row are a chip-level
event. -/
def execStackTempRead (stack : RoomId) (temp : Option Int) (s : State) : Host.Outcome State Fault Refusal :=
  let x := s.stack stack
  let cyc := if 1 ≤ x.level then s.cclkIn (s.now - x.tempAt) else 0
  let y := { x with tempAt := s.now, counters := { x.counters with throttleCclk := x.counters.throttleCclk + BitVec.ofNat 48 cyc } }
  .next
    (if !s.stackOk stack then s
    else
      match temp with
      | some t => ((s.setStack stack { y with temp := t, tempFails := 0, failSince := none }).setLevel stack (nextLevel x.level t)).coolStreams stack x.level
      | none =>
        let u := ((s.setStack stack { y with tempFails := x.tempFails + 1, failSince := x.failSince.orElse (fun _ => some s.now) }).setLevel stack
          (nextLevel x.level 95)).coolStreams stack x.level
        if x.tempFails + 1 = 3 then u.decided 0x0014 3 3 true false false stack 255 3 3 else u)

/-- LEVEL4_TIMEOUT (R233, R456): a stack at level 4, or whose readout fails, without pause for 1 s makes its room permanent. -/
def execLevel4Timeout (stack : RoomId) (s : State) : Host.Outcome State Fault Refusal :=
  let x := s.stack stack
  let due (o : Option Nat) : Bool := match o with | some t => decide (t + secondNs ≤ s.now) | none => false
  .next (if s.stackOk stack && (due x.level4Since || due x.failSince) && (s.events (.room stack) [2]).isEmpty then s.note (.room stack) 2 else s)

/-! ## The sweep (R238) -/

/-- The status of each burst of a line: what is stored, or what the array now returns (R230). -/
def State.burstsFound (s : State) (r line : Nat) (corr uncorr : BitVec 4) : List (Nat × Nat) :=
  (List.range 4).map (fun i =>
    let off := line * 128 + 32 * i
    (off, if uncorr.getLsbD i || s.burstBad r off then 2 else if corr.getLsbD i || s.burstCorr r off then 1 else 0))

/-- The stored error status of bursts. -/
def State.markBursts (s : State) (r : Nat) (bs : List (Nat × Nat)) : State :=
  { s with mem := { s.mem with ecc := bs.foldl (fun t b => Tab.set 0 t (cellarKey r b.1 / 32) b.2) s.mem.ecc } }

/-- One sweep read of a pseudo-channel (R238): a corrected burst leads to a rewrite, an uncorrectable one puts the line on the lost-line list; each is
counted and classified. A listed line is passed over. -/
def State.cellarSweep (s : State) (r pc : Nat) (corr uncorr : BitVec 4) : State :=
  let x := s.stack r
  let n := Tab.get 0 x.sweepAt pc
  let line := s.logicalLine r (64 * n + pc)
  let t := s.setStack r { x with sweepAt := Tab.set 0 x.sweepAt pc ((n + 1) % 6291456) }
  if x.lost.contains line then t
  else
    let bs := t.burstsFound r line corr uncorr
    let u := t.markBursts r bs
    let nc := (bs.filter (fun b => b.2 == 1)).length
    let nu := (bs.filter (fun b => b.2 == 2)).length
    let y := u.stack r
    let v := u.setStack r { y with
      rewrites := if 0 < nc && !y.rewrites.contains line then y.rewrites ++ [line] else y.rewrites
      counters := { y.counters with eccCorr := satAdd y.counters.eccCorr nc, sweepErr := satAdd y.counters.sweepErr nu } }
    let w := if 0 < nc then v.detect (1, r, line) (v.cellarChan r line) 0 else v
    if 0 < nu then (w.detect (2, r, line) (w.cellarChan r line) 2).loseLine r line else w

/-- The sweep of a pseudo-channel runs: it is neither retired nor being copied (R240). -/
def State.cellarSweepRuns (s : State) (r pc : Nat) : Bool :=
  let x := s.stack r
  s.stackBackground r && decide (pc < 64) && x.pcRetired != some pc && (match x.pcCopy with | some c => c.1 != pc | none => true)

/-- CELLAR_SWEEP_READ (R238): `corr` and `uncorr` are what the array returns for the four bursts. -/
def execCellarSweepRead (stack : RoomId) (pc : Nat) (corr uncorr : BitVec 4) (s : State) : Host.Outcome State Fault Refusal :=
  .next (if s.cellarSweepRuns stack pc then s.cellarSweep stack pc corr uncorr else s)

/-- CELLAR_SWEEP_FORCED (R238): a sweep read that has waited 65,536 CCLK takes the next slot. -/
def execCellarSweepForced (stack : RoomId) (pc : Nat) (corr uncorr : BitVec 4) (s : State) : Host.Outcome State Fault Refusal :=
  .next (if s.cellarSweepRuns stack pc then s.cellarSweep stack pc corr uncorr else s)

/-- The corrected bursts of a line hold right data again, and the record of counted errors knows of the write (R456). -/
def State.rewriteLine (s : State) (r line : Nat) : State :=
  { s with mem := { s.mem.rewrote (fun e => e.1 != 0 && e.2.1 == r && e.2.2 == line) with
    ecc := s.mem.ecc.filter (fun c => !((burstsOf line).any (fun b => c.1 == cellarKey r b / 32) && c.2 == 1)) } }

/-- Lines that a controller reads and writes on its own, besides the sweep's reads, count too (R241). -/
def State.countLines (s : State) (r rd wr : Nat) : State :=
  let x := s.stack r
  s.setStack r { x with counters := { x.counters with
    linesRd := x.counters.linesRd + BitVec.ofNat 48 rd, linesWr := x.counters.linesWr + BitVec.ofNat 48 wr } }

/-- SWEEP_REWRITE (R238): a line with a corrected burst is rewritten, unless a write to it has been accepted since its sweep read. -/
def execSweepRewrite (stack : RoomId) (line : Nat) (s : State) : Host.Outcome State Fault Refusal :=
  let x := s.stack stack
  .next
    (if s.stackBackground stack && x.rewrites.contains line then
      ((s.setStack stack { x with rewrites := x.rewrites.filter (· != line) }).countLines stack 0 1).rewriteLine stack line
    else s)

/-! ## Calibration (R239) -/

/-- A calibration of a channel: a success notes its time and temperature; a failure keeps the settings, is retried after 1 ms, and the third in a row makes
both pseudo-channels of the channel permanent (R456). -/
def State.calibrate (s : State) (r ch : Nat) (ok : Bool) : State :=
  let x := s.stack r
  let c : Calib := Tab.get {} x.calib ch
  if ok then s.setStack r { x with calib := Tab.set {} x.calib ch { last := s.now, temp := x.temp, failed := 0, retryAt := none } }
  else
    let t := s.setStack r { x with calib := Tab.set {} x.calib ch { c with failed := c.failed + 1, retryAt := some (s.now + 1000000) } }
    if c.failed + 1 = 3 then (t.note (.pseudo r (2 * ch)) 3).note (.pseudo r (2 * ch + 1)) 3 else t

/-- CELLAR_CALIBRATION (R239): due after 64 ms, or sooner when the temperature has moved by 5 °C; deferred at level 4 (R240). -/
def execCellarCalibration (stack : RoomId) (ch : Nat) (ok : Bool) (s : State) : Host.Outcome State Fault Refusal :=
  let x := s.stack stack
  let c : Calib := Tab.get {} x.calib ch
  .next
    (if !s.stackOk stack || 32 ≤ ch || 4 ≤ x.level || c.retryAt.isSome ||
        !(decide (c.last + 64000000 ≤ s.now) || decide (5 ≤ (x.temp - c.temp).natAbs)) then s
    else s.calibrate stack ch ok)

/-- CALIBRATION_RETRY (R239). -/
def execCalibrationRetry (stack : RoomId) (ch : Nat) (ok : Bool) (s : State) : Host.Outcome State Fault Refusal :=
  let x := s.stack stack
  .next
    (match (Tab.get {} x.calib ch : Calib).retryAt with
    | some t => if s.stackOk stack && x.level < 4 && t ≤ s.now then s.calibrate stack ch ok else s
    | none => s)

/-! ## Row repair (R234) -/

/-- The lines of a row (R219). -/
def rowLines (c : CellRow) : List Nat :=
  (List.range 8).map (fun i => c.sid * 2 ^ 27 + c.row * 2 ^ 13 + (c.bank ^^^ c.row % 16) * 2 ^ 9 + i * 64 + c.pc)

/-- A repair resource of a bank is free (R234). -/
def Stack.canRepair (x : Stack) (c : CellRow) : Bool :=
  decide (Tab.get 0 x.pprUsed (bankIndex c.pc (c.sid * 16 + c.bank)) < Config.repairPerBank.val)

/-- A stack with one more repair resource of a row's bank in use. -/
def Stack.useRepair (x : Stack) (c : CellRow) : Stack :=
  let i := bankIndex c.pc (c.sid * 16 + c.bank)
  { x with pprUsed := Tab.set 0 x.pprUsed i (Tab.get 0 x.pprUsed i + 1), pendingRows := x.pendingRows.filter (· != c) }

/-- REPLACE_REQUESTED is due for a stack with a retired pseudo-channel and no free repair resource in some bank (R465). -/
def State.stackSpent (s : State) (r : Nat) : Bool :=
  let x := s.stack r
  (x.pcRetired.isSome || x.pcCopy.isSome) && x.pprFree == 0

/-- A line that a repair or a copy has read is written back: its stored errors are gone, its corrected bursts counted (R230), its data is what the stack
returned, the lost-line list keeps its entries, and a rewrite of it is cancelled (R231, R234, R238). -/
def State.writeBack (s : State) (r line : Nat) : State :=
  let bad := (burstsOf line).any (fun b => s.burstBad r b)
  let x := s.stack r
  let s1 := s.setStack r { x with
    rewrites := x.rewrites.filter (· != line), counters := { x.counters with eccCorr := satAdd x.counters.eccCorr ((burstsOf line).filter (s.burstCorr r)).length } }
  let t := if bad then s1.loseLine r line else s1
  { t with mem := { t.mem.rewrote (fun e => e.1 != 0 && e.2.1 == r && e.2.2 == line) with
    ecc := t.mem.ecc.filter (fun c => !((burstsOf line).any (fun b => c.1 == cellarKey r b / 32))) } }

/-- The channel's history is forgotten: what served it has been replaced. -/
def State.forget (s : State) (c : FaultChan) : State := { s with gysis := { s.gysis with hist := s.gysis.hist.filter (fun h => h.chan != c) } }

/-- An entry of the repair record for a row. -/
def State.recordRepair (s : State) (r : Nat) (c : CellRow) (state : Nat) : State :=
  { s with nvm := { s.nvm with repairs := s.nvm.repairs.filter (fun e => !(e.1 == r && e.2.row == c)) ++ [(r, { row := c, state := state })] } }

/-- WHERE of a repaired row (R469). -/
def CellRow.where_ (c : CellRow) : Nat := c.sid + c.pc * 4 + c.bank * 256 + c.row * 65536

/-- The soft repair of a row (R234). -/
def State.repairRow (s : State) (r : Nat) (c : CellRow) : State :=
  let t := s.setStack r ((s.stack r).useRepair c)
  let u := ((rowLines c).foldl (fun v l => v.writeBack r (s.logicalLine r l)) t).countLines r 8 8
  let ch : FaultChan := .cellarRow r c.pc c.sid c.bank c.row
  let n := (u.events ch [0, 1, 2]).length
  ((u.forget ch).recordRepair r c 0).decided 0x0003 1 2 (u.stackSpent r) false (u.stackSpent r) r 255 c.where_ n

/-- A row of the geometry of R217. -/
def CellRow.ok (c : CellRow) : Bool := decide (c.pc < 64) && decide (c.sid < 3) && decide (c.bank < 16) && decide (c.row < 16384)

/-- A row's repair waits for its room's boundary: its pseudo-channel is in use, and the want of a repair resource has not been passed on. -/
def State.repairWaits (s : State) (r : Nat) (c : CellRow) : Bool :=
  let x := s.stack r
  s.stackBackground r && x.pcRetired != some c.pc && (match x.pcCopy with | some e => e.1 != c.pc | none => true) &&
    (x.canRepair c || (s.events (.pseudo r c.pc) [4]).isEmpty)

/-- A pseudo-channel's copy waits for its room's boundary, or a second one has not been passed on. -/
def State.pcWaits (s : State) (r pc : Nat) : Bool :=
  let x := s.stack r
  s.stackBackground r && x.pcRetired != some pc && (match x.pcCopy with | some e => e.1 != pc | none => true) &&
    ((x.pcRetired.isNone && x.pcCopy.isNone) || (s.events (.room r) [3]).isEmpty)

/-- ROW_REPAIR (R234): at a boundary of the room, a row judged permanently faulty or named by the owner is repaired; with no repair resource left its
pseudo-channel is to be retired. A repair on a pseudo-channel that is retired is cancelled (R240). -/
def execRowRepair (stack : RoomId) (pc sid bank row : Nat) (s : State) : Host.Outcome State Fault Refusal :=
  let c : CellRow := { pc := pc, sid := sid, bank := bank, row := row }
  let x := s.stack stack
  .next
    (if !s.stackBackground stack || !(s.room stack).atBoundary || !c.ok || !(s.permanent (.cellarRow stack pc sid bank row) || x.pendingRows.contains c) then s
    else if x.pcRetired = some pc || (match x.pcCopy with | some e => e.1 == pc | none => false) then
      s.setStack stack { x with pendingRows := x.pendingRows.filter (· != c) }
    else if x.canRepair c then s.repairRow stack c
    else (s.setStack stack { x with pendingRows := x.pendingRows.filter (· != c) }).noteOnce (.pseudo stack pc) 4)

/-! ## Pseudo-channel retirement (R221 to R223) -/

/-- The lines of a pseudo-channel, from the `lo`-th to before the `hi`-th in ascending order, with a stored burst in error. -/
def State.badLinesOf (s : State) (r pc lo hi : Nat) : List Nat :=
  ((s.mem.ecc.filter (fun c => c.2 != 0 && c.1 / 2 ^ 31 == r && c.1 % 2 ^ 31 / 4 % 64 == pc && decide (lo ≤ c.1 % 2 ^ 31 / 256) && decide (c.1 % 2 ^ 31 / 256 < hi))).map
    (fun c => c.1 % 2 ^ 31 / 4)).eraseDups

/-- A copy of a stack moves on by one period of REFCLK (R222): each line that the pointer passes is read from its pseudo-channel and written to the reserve, where
its errors of the old place are gone, and one that reads as uncorrectable is lost. At level 4 and without a clock the copy stands still (R232). -/
def State.copyLines (s : State) (r : Nat) : State :=
  let x := s.stack r
  match x.pcCopy with
  | none => s
  | some (pc, start) =>
    if !s.stackBackground r then s.setStack r { x with pcCopy := some (pc, start + 10) }
    else
      let lo := s.pcPtr start s.now
      let hi := s.pcPtr start (s.now + 10)
      ((s.badLinesOf r pc lo hi).foldl (fun u l => u.writeBack r l) s).countLines r (hi - lo) (hi - lo)

/-- One period of REFCLK passes in the module: time, and with it the copies in the stacks and the watchdogs of the rooms (DESIGN CHOICE, log 8). -/
def State.passTick (s : State) : State :=
  let t := (List.range 16).foldl (fun u r => (u.copyLines r).countAclk r) s
  { t with now := t.now + 10 }

/-- PC_RETIRE (R222, R223): at a boundary of the room, the copy of a permanently faulty pseudo-channel to the repair reserve starts; a second one in the stack
cannot be absorbed and makes the room permanent. -/
def execPcRetire (stack : RoomId) (pc : Nat) (s : State) : Host.Outcome State Fault Refusal :=
  let x := s.stack stack
  .next
    (if !s.stackBackground stack || 64 ≤ pc || !(s.room stack).atBoundary || x.pcRetired = some pc || (match x.pcCopy with | some e => e.1 == pc | none => false) ||
        !(s.permanent (.pseudo stack pc)) then s
    else if x.pcRetired.isSome || x.pcCopy.isSome then s.noteOnce (.room stack) 3
    else
      let t := s.setStack stack { x with pcCopy := some (pc, s.now), pendingRows := x.pendingRows.filter (fun c => c.pc != pc) }
      (t.persist (.pseudo stack pc)).decided 0x0004 1 2 (t.stackSpent stack) false (t.stackSpent stack) stack 255 pc
        (s.events (.pseudo stack pc) [3, 4]).length)

/-- PC_COPY_END (R222): the pointer has passed every line, and the reserve serves them all. At level 4 the copy makes no access, and does not end (R232). -/
def execPcCopyEnd (stack : RoomId) (s : State) : Host.Outcome State Fault Refusal :=
  let x := s.stack stack
  .next
    (match x.pcCopy with
    | some (pc, start) =>
      if s.now < start + s.pcCopyNs || !s.stackBackground stack then s
      else
        (s.setStack stack { x with pcRetired := some pc, pcCopy := none }).raise (64 + stack)
    | none => s)

/-- REQUEST_AGE_LIMIT (R224): a request that has waited 2 µs is served next. Every request of the model is served as it is made, so none waits behind another
and the state does not change (log 43). -/
def execRequestAgeLimit (_stack : RoomId) (s : State) : Host.Outcome State Fault Refusal := .next s

/-! ## The cellar-repair commands (R235, R331) -/

/-- SUB of a CELLAR_REPAIR. -/
def isRepair (sub : Nat) (q : Req) : Bool := q.op == 0x0601 && q.field 0 1 == sub

/-- The row that a CELLAR_REPAIR names. -/
def Req.cellRow (q : Req) : CellRow :=
  { pc := q.field 2 1, sid := bitsOf (q.field 3 1) 1 0, bank := bitsOf (q.field 3 1) 7 4, row := q.field 4 2 }

/-- An entry of 8 bytes of a cellar-repair listing. -/
def repairLine (room : Nat) (c : CellRow) (v : Nat) : List Byte :=
  leBytes 1 room ++ leBytes 1 c.pc ++ leBytes 1 (c.sid + c.bank * 16) ++ leBytes 1 v ++ leBytes 2 c.row ++ leBytes 2 0

/-- The response of a listing: up to 59 entries from FIRST, and the FIRST that continues it or 0xFFFF. -/
def repairPage (first total : Nat) (entry : Nat → List Byte) : List Byte :=
  let n := min 59 (total - first)
  leBytes 2 n ++ leBytes 2 (if first + n < total then first + n else 0xFFFF) ++ leBytes 4 0 ++ (List.range n).flatMap (fun i => entry (first + i))

/-- The entries of the repair record in ascending order of room, pseudo-channel, stack ID, bank and row. -/
def State.repairList (s : State) (keep : RepairEntry → Bool) : List (Nat × RepairEntry) :=
  let key (e : Nat × RepairEntry) : Nat := ((((e.1 * 64 + e.2.row.pc) * 4 + e.2.row.sid) * 16 + e.2.row.bank) * 65536) + e.2.row.row
  (s.nvm.repairs.filter (fun e => keep e.2)).mergeSort (fun a b => decide (key a ≤ key b))

/-- A page of the repair record. -/
def recordPage (l : List (Nat × RepairEntry)) (first : Nat) : List Byte :=
  repairPage first l.length (fun i => match l[i]? with | some e => repairLine e.1 e.2.row e.2.state | none => [])

/-- CELLAR_REPAIR SUB 0 (R235): the repair record. -/
def execCellarRepairListRecord (f : FnId) (slot : SlotId) (s : State) : Host.Outcome State Fault Refusal :=
  .next (s.runCmd f slot (isRepair 0) (fun q => .ok s (recordPage (s.repairList (fun _ => true)) (q.field 4 2))))

/-- The i-th bank of the working stacks: room, and bank as a row of it. -/
def State.bankAt (s : State) (i : Nat) : Nat × CellRow :=
  (s.liveRooms.getD (i / 3072) 0, { pc := i % 3072 / 48, sid := i % 48 / 16, bank := i % 16, row := 0 })

/-- Free repair resources of a bank. -/
def Stack.freeIn (x : Stack) (c : CellRow) : Nat := Config.repairPerBank.val - Tab.get 0 x.pprUsed (bankIndex c.pc (c.sid * 16 + c.bank))

/-- CELLAR_REPAIR SUB 1 (R235): the free repair resources of each bank of the working stacks. -/
def execCellarRepairListFree (f : FnId) (slot : SlotId) (s : State) : Host.Outcome State Fault Refusal :=
  .next (s.runCmd f slot (isRepair 1) (fun q =>
    .ok s (repairPage (q.field 4 2) (3072 * s.liveRooms.length) (fun i =>
      let b := s.bankAt i
      repairLine b.1 b.2 ((s.stack b.1).freeIn b.2)))))

/-- CELLAR_REPAIR SUB 2 (R235): the rows awaiting hard repair: those under a soft repair, which the next power-up makes hard, and those that no soft repair
holds any more (log 44). -/
def execCellarRepairListPending (f : FnId) (slot : SlotId) (s : State) : Host.Outcome State Fault Refusal :=
  .next (s.runCmd f slot (isRepair 2) (fun q => .ok s (recordPage (s.repairList (fun e => e.state != 1)) (q.field 4 2))))

/-- The checks of a repair request: the device state (SUB 3 READY, SUB 4 TEST), the row, and a free resource. -/
def checkRepair (s : State) (want : DevState) (q : Req) : Nat :=
  let r := q.field 1 1
  if s.boot.state != want then stNotReady
  else if 16 ≤ r || !s.roomOk r || !q.cellRow.ok then stBadArgument
  else if !(s.stack r).canRepair q.cellRow then stNoResource
  else stOk

/-- CELLAR_REPAIR SUB 3 (R234, R235): the soft repair of a named row is requested; it is made at the room's next boundary (ROW_REPAIR). -/
def execCellarRepairSoft (f : FnId) (slot : SlotId) (s : State) : Host.Outcome State Fault Refusal :=
  .next (s.runCmd f slot (isRepair 3) (fun q =>
    if checkRepair s .ready q ≠ stOk then .fail s (checkRepair s .ready q)
    else
      let x := s.stack (q.field 1 1)
      .ok (s.setStack (q.field 1 1) { x with pendingRows := if x.pendingRows.contains q.cellRow then x.pendingRows else x.pendingRows ++ [q.cellRow] }) []))

/-- A hard repair of a row outside TRAINING: a spare row takes its place, whose contents the spec does not state (free bytes, log 4). -/
def State.hardRepair (s : State) (r : Nat) (c : CellRow) : State :=
  let t := (s.setStack r ((s.stack r).useRepair c)).recordRepair r c 1
  ((rowLines c).zipIdx.foldl (fun u e =>
    u.writeCellar r (s.logicalLine r e.1 * 128) ((List.range 128).map (fun i => Config.openByte (s.free + 128 * e.2 + i)))) t).draw 1024

/-- CELLAR_REPAIR SUB 4 (R235): hard repair of a named row in TEST. -/
def execCellarRepairHard (f : FnId) (slot : SlotId) (s : State) : Host.Outcome State Fault Refusal :=
  .next (s.runCmd f slot (isRepair 4) (fun q =>
    if checkRepair s .test q ≠ stOk then .fail s (checkRepair s .test q)
    else if 4 ≤ (s.stack (q.field 1 1)).level then .waits s
    else .ok (s.hardRepair (q.field 1 1) q.cellRow) []))

/-- The SUBs above 4 give BAD_ARGUMENT; the others answer through their rows (R331). -/
def checkCellarRepair (s : State) (q : Req) : Nat :=
  match q.field 0 1 with
  | 0 => stOk
  | 1 => stOk
  | 2 => stOk
  | 3 => checkRepair s .ready q
  | 4 => checkRepair s .test q
  | _ => stBadArgument

end Sys2Proof.Machine
end

