-- ==== Sys2Proof/Machine/Blocks.lean ====
section
/-! DEFINITION. Command blocks, jobs and synchronisation (12), with the digests and agreement of twins that a block's end waits for (18), and the
breaks and debug reads of R316. -/

namespace Sys2Proof.Machine

/-! ## Boundaries (R26) -/

/-- A room without one number in a list of rooms that wait for a boundary. -/
def passRoom (room : Nat) (l : List Nat) : List Nat := l.filter (· != room)

/-- A partition after one of its rooms has passed a boundary: replaced keys, unpinned areas and a change of step (R122, R133, R473, R487). -/
def Part.passed (x : Part) (room : Nat) : Part :=
  let pend := passRoom room x.pendingRooms
  let y : Part := { x with
    keys := x.keys.map (fun e => (e.1, { e.2 with waitRooms := passRoom room e.2.waitRooms }))
    luts := x.luts.map (fun e => (e.1, { e.2 with waitRooms := passRoom room e.2.waitRooms }))
    pins := (x.pins.map (fun q => { q with waitRooms := passRoom room q.waitRooms })).filter (fun q => !(q.unpin && q.waitRooms.isEmpty))
    pendingRooms := pend }
  match x.pendingStep with
  | some k => if pend.isEmpty then { y with step := k, grant := x.pendingGrant, pendingStep := none } else y
  | none => y

/-- A room passes a block boundary: what waited for it takes effect. -/
def State.boundary (s : State) (p room : Nat) : State := (s.setPart p ((s.part p).passed room)).settleClocks

/-! ## Digest records (R439, R442) -/

/-- The checkpoint state of a room as digest terms of space code 7 (R439): tokens, scalars, VCOUNT, index positions and key-window tokens. Its layout is
the model's (log 34). -/
def Room.checkBytes (x : Room) : List Byte :=
  (List.range 64).flatMap (fun i => leBytes 2 (Tab.get 0 x.tokens i).toNat) ++
    (List.range 64).flatMap (fun i => leBytes 8 (Tab.get 0 x.scalars i).toNat) ++
    leBytes 8 x.vcount ++ leBytes 8 x.keyEntries.length ++ leBytes 8 x.window.base ++ leBytes 8 x.window.tiles ++ leBytes 8 x.window.free.length ++
    leBytes 8 x.window.held.length ++ List.replicate 80 0

/-- The 32 bytes of a digest record (R442). -/
def DigestRec.bytes (d : DigestRec) (room : Nat) : List Byte :=
  leBytes 6 d.mblock ++ leBytes 1 room ++ leBytes 1 ((if d.replay then 1 else 0) + (if d.err then 2 else 0)) ++ leBytes 8 d.d1.toNat ++
    leBytes 8 d.d2.toNat ++ leBytes 1 d.cause ++ List.replicate 7 0

/-- Two records agree: everything but their FLAGS (R443, R527). -/
def DigestRec.agrees (a b : DigestRec) : Bool := a.mblock == b.mblock && a.d1 == b.d1 && a.d2 == b.d2 && a.cause == b.cause

/-- The records of a block in one list. -/
def recordsOf (t : Tab (List DigestRec)) (i mblock : Nat) : List DigestRec := (Tab.get [] t i).filter (fun d => d.mblock == mblock)

/-- Blocks that a room has completed since the pair formed. -/
def Pairing.at_ (x : Pairing) (i : Nat) : Nat := Tab.get 0 x.mblock i

/-- The record of a room's block. -/
def Block.digestRec (b : Block) (mblock : Nat) : DigestRec :=
  { mblock := mblock, replay := decide (0 < b.replays), err := b.errSeen, d1 := b.d1, d2 := b.d2,
    cause := match b.poison with | some q => q.cause | none => 0 }

/-- A room's end of block waits for its counterpart's record: in dual execution both twins, in standby the follower (R443, R447). -/
def Part.comparesAt (x : Part) : Bool := x.pair.state == .dual || (x.pair.state == .standby && !x.pair.leader)

/-! ## The end of a block (R296, R298, R563) -/

/-- The completion record of a block (R298). -/
def completionRecord (counter : BitVec 48) (room status : Nat) (b : Block) (jobId : BitVec 32) : List Byte :=
  let op := match b.poison with | some q => q.op | none => 0
  let at_ := match b.poison with | some q => q.at_.off + (if q.at_.cellar then 2 ^ 36 else 0) | none => 0
  leBytes 6 counter.toNat ++ leBytes 1 room ++ leBytes 1 status ++ leBytes 1 (min 255 b.replays) ++
    leBytes 1 (match b.poison with | some q => q.cause | none => 0) ++ leBytes 2 0 ++ leBytes 4 op ++ leBytes 8 at_ ++ leBytes 4 jobId.toNat ++
    leBytes 4 0

/-- STATUS of a completion record (R298, R459). -/
def Block.status (b : Block) : Nat := if b.failed then 2 else if 0 < b.replays then 1 else 0

/-- How many completed blocks a block adds to the counters at its end (R296): a failed one has not completed (log 75). -/
def Block.counted (b : Block) : Nat := if b.failed then 0 else 1

/-- The offset of a room's record: the ring holds 2^RING_LOG2 records, the oldest overwritten (R298). -/
def Job.recordAt (j : Job) (room : Nat) (counter : BitVec 48) : Nat :=
  j.ringBase + 32 * ((counter - Tab.get 0 j.startBlocks room).toNat % 2 ^ j.ringLog2)

/-- A job after a block of it: a failed block fails it, and the first poison cause is kept (R306). -/
def Job.after (j : Job) (b : Block) : Job :=
  { j with
    failed := if b.failed && j.failed.isNone then some stFailed else j.failed
    cause := if j.cause = 0 then (match b.poison with | some q => q.cause | none => 0) else j.cause }

/-- The known-answer test that falls due at a boundary: the room's PAU set has counted 3 mismatches within 1 h that replays cleared (R461). -/
def State.katDue (s : State) (room : Nat) (b : Block) : Bool := decide (0 < b.mismatches) && nIn 3 hourNs (s.events (.pauSet room) [0])

/-- The cause of the halt that a room's block failed with (R263), if one did: not CANCEL, which follows from the failure. -/
def Room.haltCause (x : Room) : Nat :=
  match x.channels.find? (fun c => c.2.state == .halted && c.2.cause != 6) with
  | some c => c.2.cause
  | none => 0

/-- CAUSE of the ledger entry of a failed block (R468): the halt cause, else the first poison cause, else 0 (log 76). -/
def Room.failCause (x : Room) (b : Block) : Nat :=
  if x.haltCause ≠ 0 then x.haltCause else match b.poison with | some q => q.cause | none => 0

/-- The ledger entry of a failed block (R467, R468, R469). -/
def State.failedEntry (s : State) (room : Nat) (b : Block) : LedgerEntry :=
  { s.entry 0x0012 (ledgerClass 2 0 true false false) room 255 b.op with cause := (s.room room).failCause b }

/-- The number in its job of the block that a room is in, or starts next. -/
def State.blockNo (s : State) (p room : Nat) : Nat :=
  match (s.part p).job with
  | some j => j.doneIn s room
  | none => (s.room room).blockCounter.toNat

/-- A block ends (R296, R298): its record is written, the counter advances unless the block failed, the block key is erased, and the room is at a boundary. A record whose partial
write fails is lost. -/
def State.finishBlock (s : State) (p room : Nat) : State :=
  match (s.room room).block with
  | none => s
  | some b =>
    let s0 := s.flushExpiries room
    let x := s0.room room
    let q := s0.part p
    let s1 := match q.job with
      | some j => (s0.cellarWrite room (j.recordAt room x.blockCounter) (completionRecord x.blockCounter room b.status b j.jobId)).1.setPart p
          { q with job := some (j.after b) }
      | none => s0
    let s2 := if b.failed then s1.record (s1.failedEntry room b) else s1
    let i := q.relOf room
    let q2 := s2.part p
    let n := s2.blockNo p room
    let s3 := s2.setPart p { q2 with
      blockKeys := q2.blockKeys.filter (fun e => if e.1 = n then !b.failed && q2.rooms.any (fun r => r != room && decide (s2.blockNo p r ≤ n)) else true)
      pair := if q.paired then { q2.pair with mblock := Tab.set 0 q2.pair.mblock i (q2.pair.at_ i + b.counted) } else q2.pair }
    let y := s3.room room
    let s4 := s3.setRoom room { y.freshChannels with
      block := none, blockDone := false, atBarrier := false, fenceWait := false, queues := [], noiseKey := none, keyHeld := false, refetch := 0,
      blockCounter := y.blockCounter + BitVec.ofNat 48 b.counted, kat := y.kat || s.katDue room b }
    (s4.raise (48 + room)).boundary p room

/-- A block may end: its commands are complete, its twins agree, and none of its descriptors is left. -/
def Room.mayEnd (x : Room) : Bool :=
  x.blockDone && x.streamsDone && (match x.block with | some b => b.agreed | none => false)

/-- The block in progress is an exchange block (R563). -/
def Room.inExchange (x : Room) : Bool := match x.block with | some b => b.exchange | none => false

/-- The completion record of a room's block waits for its stack, which is at level 4 (R233). -/
def State.recordWaits (s : State) (p room : Nat) : Bool := (s.part p).job.isSome && decide (4 ≤ (s.stack room).level)

/-- A room ends its block as soon as it may; an exchange block waits for EXCHANGE_BLOCK_RELEASE. -/
def State.tryFinish (s : State) (p room : Nat) : State :=
  let x := s.room room
  if x.mayEnd && !x.inExchange && !s.recordWaits p room then s.finishBlock p room else s

/-- The twins agree on a room's block (R443, R444): what waited for agreement goes. -/
def State.agree (s : State) (p room : Nat) : State :=
  let x := s.room room
  let free (h : Channel) : Channel := { h with issued := h.issued.map (fun i => { i with agreed := true }) }
  let y := match x.block with
    | some b => { x with block := some { b with agreed := true }, channels := x.channels.map (fun c => (c.1, free c.2)) }
    | none => x
  let t := s.setRoom room y
  let u := if (s.part p).isFollower then t else (List.range 16).foldl (fun v c => v.releaseHeld p room c) t
  u.tryFinish p room

/-! ## The fault decision (R446, R449) -/

/-- The pair state of a partition changes (R435); the pair key is erased when the pair ends (R436). -/
def State.setPair (s : State) (p : Nat) (st : PairState) (leader : Bool) : State :=
  let x := s.part p
  let key := match st with | .syncing => x.pair.key | .dual => x.pair.key | .standby => x.pair.key | _ => none
  (s.setPart p { x with pair := { x.pair with state := st, leader := leader, key := key } }).partChanged p

/-- A follower that takes over sends what it had suppressed for the blocks in progress, and waits for its acknowledgements (R446). -/
def State.sendKept (s : State) (p room : Nat) : State :=
  (List.range 16).foldl (fun t c =>
    ((t.room room).chan c).issued.foldl (fun u i =>
      if i.echo then
        let r := i.kept.foldl (fun (a : State × Nat) k =>
          let q := a.1.sendContext p room c i.no k.1 k.2
          (q.1, a.2 + q.2)) (u, 0)
        let y := r.1.room room
        let h := y.chan c
        r.1.setRoom room (y.setChan c { h with issued := h.issued.map (fun e => if e.no = i.no then { e with echo := false, kept := [], left := r.2 } else e) })
      else u) t) s

/-- A twin is faulty or lost: the other goes on alone. A former follower has full rights and sends what it suppressed. -/
def State.goSolo (s : State) (p : Nat) : State :=
  let x := s.part p
  let t := s.setPair p .solo true
  let u := if x.pair.leader then t else x.rooms.foldl (fun v r => v.sendKept p r) t
  x.rooms.foldl (fun v r => if (match (v.room r).block with | some b => !b.agreed && (v.room r).blockDone | none => false) then v.agree p r else v) u

/-- The two twins' records of a block decide which is faulty (R446): the own twin, the peer, or none. A known-answer test's outcome is a free value. -/
def decideFault (own peer : List DigestRec) (ownFails peerFails : Bool) : Option Bool × Nat :=
  let err (l : List DigestRec) : Bool := l.any (·.err)
  let differ (l : List DigestRec) : Bool := match l with | a :: b :: _ => !a.agrees b | _ => false
  if err own != err peer then (some (err own), 1)
  else if differ own != differ peer then (some (differ own), 2)
  else if differ own && differ peer then (none, 4)
  else if ownFails != peerFails then (some ownFails, 3)
  else (none, 4)

/-- The fault decision of a room's block (R446). WHERE of its entry is the step reached, with the faulty side in bit 8: 1 own. -/
def State.faultDecision (s : State) (p room : Nat) : State :=
  let x := s.part p
  let i := x.relOf room
  let m := x.pair.at_ i
  let r := decideFault ((recordsOf x.pair.own i m).take 2) ((recordsOf x.pair.peer i m).take 2) (Config.openBit s.free) (Config.openBit (s.free + 1))
  let side := match r.1 with | some true => 256 | _ => 0
  let t := (s.draw 2).decided 0x0041 2 3 true false false room 255 (r.2 + side) 2
  match r.1 with
  | none =>
    let u := t.setRoom room (t.room room).programFault
    let y := u.part p
    (u.setPart p { y with job := y.job.map (fun j => { j with failed := some stFailed }) }).agree p room
  | some true => (t.note (.room room) 0).setPair p .frozen x.pair.leader
  | some false => t.goSolo p

/-- The records of a room's block are compared once both have come (R443, R445, R447). -/
def State.compareRecords (s : State) (p i : Nat) : State :=
  let x := s.part p
  let room := x.roomAt i
  let y := s.room room
  match y.block with
  | none => s
  | some b =>
    let m := x.pair.at_ i
    let own := recordsOf x.pair.own i m
    let peer := recordsOf x.pair.peer i m
    let standby := x.pair.state == .standby
    let theirs := if standby then peer.getLast? else if b.seen < peer.length then peer.head? else none
    if !y.blockDone || b.agreed || !x.comparesAt then s
    else
      match own.head?, theirs with
      | some a, some c =>
        if a.agrees c then s.agree p room
        else
          let t := s.setPart p { x with pair := { x.pair with diverged := satInc x.pair.diverged } }
          if !b.diverged then
            (t.setRoom room { y with block := some { b with diverged := true, seen := peer.length } }).replay room false
          else if standby then
            ((t.decided 0x0040 2 0 true false false room 255 m 2).setPair p .syncing false)
          else t.faultDecision p room
      | _, _ => s

/-- A room's record goes to its counterpart (R443), and is kept while its block is compared; a leader in standby keeps the last 256 (R447). -/
def State.sendRecord (s : State) (p room : Nat) : State :=
  let x := s.part p
  match (s.room room).block with
  | some b =>
    if x.paired then
      let i := x.relOf room
      let d := b.digestRec (x.pair.at_ i)
      let t := s.setPart p { x with pair := { x.pair with own := Tab.set [] x.pair.own i ((d :: Tab.get [] x.pair.own i).take 300), recordAt := Tab.set 0 x.pair.recordAt i s.now } }
      t.emit (.mirror 4 x.pair.peerModule x.pair.peerPart (d.bytes i))
    else s
  | none => s

/-- Every descriptor of a room is complete, but for FINAL ones that wait for agreement or, in a follower, for the ECHO of their held line (R444). -/
def Room.waitsOnlyFinal (x : Room) (dual : Bool) : Bool :=
  x.channels.all (fun c => c.2.queue.isEmpty && c.2.issued.all (fun i => dual && i.held.isSome && i.left == 0))

/-- BLOCK_COMPLETE (R296): every command of a room's block has completed, or the block has failed and issues no more (R459, R564). A twin's record is sent and compared; the block ends when nothing is left to
wait for, an exchange block with EXCHANGE_BLOCK_RELEASE. -/
def execBlockComplete (r : RoomId) (s : State) : Host.Outcome State Fault Refusal :=
  let x := s.room r
  .next
    (match x.block, s.ownerOf r with
    | some b, some p =>
      let q := s.part p
      if x.blockDone then s.tryFinish p r
      else if x.brk.stopped || !x.waitsOnlyFinal (q.pair.state == .dual) then s
      else if !b.failed && (x.keyHeld || b.error.isSome || x.fenceWait || x.queues.any (fun e => !e.2.isEmpty)) then s
      else
        let s1 := s.digest p r 7 (q.relOf r) 0 x.checkBytes
        let y := s1.room r
        let s2 := s1.setRoom r { y with
          blockDone := true, block := y.block.map (fun c => { c with agreed := !q.comparesAt }) }
        let s3 := s2.sendRecord p r
        if q.comparesAt then s3.compareRecords p (q.relOf r) else s3.tryFinish p r
    | _, _ => s)

/-- The job goes on past a room's next boundary: no block of it failed, and STOP_BLOCK is not reached (R306, R315). -/
def Job.goesOn (j : Job) (room : Nat) (counter : BitVec 48) : Bool :=
  j.failed.isNone && (!j.stop || decide ((counter - Tab.get 0 j.startBlocks room).toNat < j.stopBlock))

/-- A room of a partition starts no further block of its job: it stands between blocks, and a block has failed or STOP_BLOCK is reached (R306, R315, R564). -/
def State.standsStill (s : State) (p room : Nat) : Bool :=
  (s.room room).block.isNone && (match (s.part p).job with | some j => !j.goesOn room (s.room room).blockCounter | none => false)

/-- EXCHANGE_BLOCK_RELEASE (R563): once every room of the partition has completed the exchange block, each ends it. A room whose job has stopped before the block
holds no other back (R564). -/
def execExchangeBlockRelease (p : PartId) (s : State) : Host.Outcome State Fault Refusal :=
  let x := s.part p
  .next
    (if x.rooms.any (fun r => (s.room r).mayEnd) && x.rooms.all (fun r => ((s.room r).mayEnd && !s.recordWaits p r) || s.standsStill p r) then
      x.rooms.foldl (fun t r => t.finishBlock p r) s
    else s)

/-! ## The start of a block (R292, R295) -/

/-- The flag wait of a room, if any, is over. -/
def Room.flagOver (x : Room) : Bool :=
  match x.flagWait with
  | some (f, c) => reached (Tab.get 0 x.flags f) c
  | none => true

/-- The lag of a standby follower behind its leader's room (R447): what the follower's records show it has completed. -/
def Pairing.lag (x : Pairing) (i : Nat) : Nat :=
  x.at_ i - (match (Tab.get [] x.peer i).head? with | some d => d.mblock + 1 | none => 0)

/-- A retirement or repair decided for one of a room's units, or for a room of its partition, waits for the boundary and can be made there (R26, R462): the
command that makes it comes before the next block starts. -/
def State.waitsFor (s : State) (p room : Nat) (c : FaultChan) : Bool :=
  s.permanent c &&
    (match c with
    | .atticRow r l b row => r == room && s.rowWaits r l b row
    | .atticBank r l b => r == room && s.bankWaits r l b
    | .cellarRow r pc sid bank row => r == room && s.repairWaits r { pc := pc, sid := sid, bank := bank, row := row }
    | .pseudo r pc => r == room && s.pcWaits r pc
    | .room r => s.roomOk r && (s.part p).rooms.contains r
    | _ => false)

/-- The wider channel that a channel's events can make permanent (R456). -/
def FaultChan.wider : FaultChan → FaultChan
  | .atticRow r l b _ => .atticBank r l b
  | .cellarRow r pc _ _ _ => .pseudo r pc
  | .transform r => .room r
  | .vector r => .room r
  | .sequencer r => .room r
  | c => c

/-- Something waits for a room's boundary: a channel of the histories, or the wider one that its events reach. -/
def State.retireWaits (s : State) (p room : Nat) : Bool :=
  s.gysis.hist.any (fun h => s.waitsFor p room h.chan || s.waitsFor p room h.chan.wider) || (s.stackBackground room && !(s.stack room).pendingRows.isEmpty)

/-- Programs run in READY, and in TEST in test partitions (R316, R520). -/
def State.programsRun (s : State) : Bool := s.boot.state == .ready || s.boot.state == .test

/-- A room may start its next block. -/
def State.mayStart (s : State) (p room : Nat) : Bool :=
  let q := s.part p
  let x := s.room room
  s.programsRun && q.phase == .live && q.pair.state != .frozen && q.pair.state != .syncing && x.block.isNone && !x.brk.stopped && x.flagOver &&
    x.brk.onCount != some x.blockCounter && !s.switchPending && !s.retireWaits p room &&
    (match q.job with | some j => j.goesOn room x.blockCounter | none => false) &&
    !(q.pair.state == .standby && q.pair.leader && decide (256 ≤ q.pair.lag (q.relOf room)))

/-- A room's checkpoint (R295). -/
def Room.checkpointNow (x : Room) : Checkpoint :=
  { tokens := x.tokens, scalars := x.scalars, vcount := x.vcount, keyEntries := x.keyEntries, window := x.window, progress := x.progress }

/-- BLOCK_START (R295): the room takes its checkpoint and what waited for its boundary takes effect; its instruction buffer holds the block's instructions, which
are the sequencer's own (free values, log 21). `exchange` says that the block moves data between rooms
(R563) and `uses` names the key sets of its operations (R91). -/
def execBlockStart (r : RoomId) (exchange : Bool) (uses : List Nat) (s : State) : Host.Outcome State Fault Refusal :=
  .next
    (match s.ownerOf r with
    | some p =>
      if s.mayStart p r then
        let t := s.boundary p r
        let x := t.room r
        (t.setRoom r { x with
          block := some { exchange := exchange, uses := uses, checkpoint := x.checkpointNow }
          flagWait := none, clean := false, kat := false, ibuf := s.free + 1 }).draw 1
      else s
    | none => s)

/-! ## Synchronising operations (R301, R310, R311) -/

/-- WAIT (R301): a command of a queue is issued once its token's count is reached and every entry before it is issued; until then it stands in its queue. -/
def execWait (r : RoomId) (q : Fin 4) (tok : TokenId) (count : BitVec 16) (s : State) : Host.Outcome State Fault Refusal :=
  let x := s.room r
  .next
    (if !s.roomRuns r || x.block.isNone then s
    else if x.queueClear q && reached (Tab.get 0 x.tokens tok) count then s.setRoom r (x.takeTag q)
    else s.setRoom r (x.enqueue q { tag := x.tagOf q, waitTok := some (tok, count) }))

/-- SIGNAL (R301): a command of a queue completes and its token counts one more, which may let entries of the queues go. Behind entries that wait it waits in its queue. -/
def execSignal (r : RoomId) (q : Fin 4) (tok : TokenId) (s : State) : Host.Outcome State Fault Refusal :=
  let x := s.room r
  .next
    (if !s.roomRuns r || x.block.isNone then s
    else if x.queueClear q then (s.setRoom r ((x.takeTag q).signal tok)).issueQueues r
    else s.setRoom r (x.enqueue q { tag := x.tagOf q, sigTok := some tok }))

/-- FENCE (R310): the room dispatches nothing until every earlier command has completed. -/
def execFence (r : RoomId) (s : State) : Host.Outcome State Fault Refusal :=
  let x := s.room r
  .next
    (if x.block.isNone || x.brk.stopped then s
    else s.setRoom r { x.countOp with fenceWait := !x.allDone })

/-- BARRIER (R310): after an implied fence the room stands at the barrier, which ends its block for every room of the partition together (R563). -/
def execBarrier (r : RoomId) (s : State) : Host.Outcome State Fault Refusal :=
  let x := s.room r
  .next
    (match x.block with
    | some b =>
      if x.brk.stopped || b.error.isSome || !x.allDone then s
      else s.setRoom r { x with atBarrier := true, fenceWait := false, block := some { b with exchange := true, op := b.op + 1 } }
    | none => s)

/-- FLAG_WAIT (R310): between blocks, the room waits until the flag counter reaches the count. -/
def execFlagWait (r : RoomId) (flag : TokenId) (count : BitVec 16) (s : State) : Host.Outcome State Fault Refusal :=
  let x := s.room r
  .next
    (if x.block.isSome || (s.ownerOf r).isNone then s
    else s.setRoom r { x with flagWait := if reached (Tab.get 0 x.flags flag) count then none else some (flag, count) })

/-! ## Jobs (R304 to R306) -/

/-- A mode switch of a pair takes effect at a job boundary (R435). -/
def State.jobBoundary (s : State) (p : Nat) : State :=
  let x := s.part p
  match x.pair.switchTo, x.pair.state == .dual || x.pair.state == .standby with
  | some m, true =>
    (s.setPart p { x with pair := { x.pair with switchTo := none, mode := m, state := if m = 1 then .dual else .standby } }).partChanged p
  | _, _ => s

/-- A job ends (R306): its entry is written, the head advances, and its vector is raised. -/
def State.endJob (s : State) (p off done status cause : Nat) (irq : Option Nat) (advance : Bool) : State :=
  let t := s.writeJobEnd p off done status cause
  let x := t.fn (p + 1)
  let u := (t.setFn (p + 1) { x with jobHead := if advance then x.jobHead + 1 else x.jobHead, jobRunning := false }).setPart p
    { t.part p with job := none }
  let v := match irq with | some k => if k ≤ 31 then u.raiseVector (p + 1) k else u | none => u
  (v.raise (48 + (v.part p).roomAt 0)).jobBoundary p

/-- What is wrong with a job entry (R306): the status it gets at once. -/
def State.entryStatus (s : State) (p : Nat) (e : List Byte) : Nat :=
  let x := s.part p
  let log := fieldOf e 24 1
  if 4 ≤ fieldOf e 25 1 || (e.drop 34).take 14 != List.replicate 14 0 || (e.drop 56) != List.replicate 8 0 || log < 6 || 16 < log || 31 < fieldOf e 26 2 ||
      stackBytes ≤ fieldOf e 8 8 || stackBytes < fieldOf e 16 8 + 32 * 2 ^ log then stBadArgument
  else
    match Tab.get none x.programs (fieldOf e 0 4) with
    | none => stBadArgument
    | some g => if x.rooms.length < g.minRooms then stNoResource else stOk

/-- A room at the start of a job: tokens at zero (R301), and the program's key window with every tile free (R131). -/
def Room.startJob (x : Room) (g : Program) : Room :=
  let n := g.keyWindowBytes / 65536
  { x.freshChannels with tokens := [], window := { base := g.keyWindowBase, tiles := n, free := List.range n }, keyEntries := [], progress := none, nextTag := [], queues := [] }

/-- A job starts (R306). -/
def State.startJob (s : State) (p off : Nat) (e : List Byte) (g : Program) : State :=
  let x := s.part p
  let flags := fieldOf e 25 1
  let j : Job :=
    { entryOff := off, program := fieldOf e 0 4, jobId := BitVec.ofNat 32 (fieldOf e 4 4), argBase := fieldOf e 8 8, ringBase := fieldOf e 16 8,
      ringLog2 := fieldOf e 24 1, irq := bitOf flags 0, stop := bitOf flags 1, vector := fieldOf e 26 2, stopBlock := fieldOf e 28 6,
      startBlocks := x.rooms.foldl (fun t r => Tab.set 0 t r (s.room r).blockCounter) [], failed := none, cause := 0 }
  let t := x.rooms.foldl (fun u r => u.setRoom r ((u.room r).startJob g)) s
  (t.setPart p { x with job := some j }).setFn (p + 1) { t.fn (p + 1) with jobRunning := true }

/-- JOB_START (R306): with no job running and every room between blocks with its writes performed, the entry at the ring head is read from the stack of
partition room 0. A partition with no room left has no copy of it, and fewer rooms than any program's MIN_ROOMS: the job ends NO_RESOURCE (R306; log 88). -/
def execJobStart (p : PartId) (s : State) : Host.Outcome State Fault Refusal :=
  let s0 := if (s.part p).job.isNone then s.jobBoundary p else s
  let x := s0.part p
  let f := s0.fn (p.val + 1)
  let off := f.ringOff + 64 * (f.jobHead.toNat % 64)
  .next
    (if !s.programsRun || x.phase != .live || x.job.isSome || !f.ringSet || f.jobHead == f.jobTail || x.pair.state == .frozen ||
        x.pair.state == .syncing || s.hotStack p || x.rooms.any (fun r => (s.room r).block.isSome || !(s.room r).streamsDone) then s0
    else if x.rooms.isEmpty then s0.endJob p off 0 stNoResource 0 none true
    else
      match s0.cellarRead (x.roomAt 0) off 64 with
      | (t, none) => t.endJob p off 0 stFailed 0 none true
      | (t, some e) =>
        let irq := if bitOf (fieldOf e 25 1) 0 then some (fieldOf e 26 2) else none
        match s0.entryStatus p e, Tab.get none x.programs (fieldOf e 0 4) with
        | 0, some g => t.startJob p off e g
        | st, _ => t.endJob p off 0 st 0 irq true)

/-- JOB_COMPLETE (R306): every room of the partition is between blocks, and the job has failed, has reached STOP_BLOCK or has come to its body's end; a room
that waits on a flag has not. -/
def execJobComplete (p : PartId) (s : State) : Host.Outcome State Fault Refusal :=
  let x := s.part p
  .next
    (match x.job with
    | some j =>
      let waiting := j.failed.isNone && (!j.stop || decide (j.doneBlocks s x.rooms < j.stopBlock)) && x.rooms.any (fun r => !(s.room r).flagOver)
      if waiting || x.phase == .tearing || s.hotStack p || x.rooms.any (fun r => (s.room r).block.isSome || !(s.room r).streamsDone) then s
      else
        let t := x.rooms.foldl (fun u r => u.setRoom r { u.room r with flagWait := none }) s
        t.endJob p j.entryOff (j.doneBlocks s x.rooms) (j.failed.getD stOk) j.cause (if j.irq then some j.vector else none) !j.orphan
    | none => s)

end Sys2Proof.Machine
end

