-- ==== Sys2Proof/Machine/Interrupts.lean ====
section
/-! DEFINITION. Leaving service for HALTED (13, 19); the interrupt controller, the cores' caches and the retirement of a core (14). -/

namespace Sys2Proof.Machine

/-! ## HALTED (R341, R466, R492) -/

/-- A command may go on in a device state (R331, R520). -/
def allowedIn (d : DevState) (q : Req) : Bool :=
  match cmdRow q.op with
  | some r => r.states.contains d || (r.states.isEmpty && debugStates.contains d)
  | none => false

/-- The state leaves READY or TEST: the commands that the new state does not allow end (R341). -/
def State.leaveReady (s : State) (d : DevState) : State :=
  (List.range 17).foldl (fun t f => t.endCommands f (allowedIn d) true) s

/-- Every switched domain is OFF, but those HELD_OFF (R485, R492). -/
def State.domainsOff (s : State) : State :=
  { s with power := { s.power with domains := s.power.domains.filter (fun e => e.2 == .heldOff), wakeQueue := [] } }

/-- Every port sends electrical idle (R466). -/
def State.portsIdle (s : State) : State :=
  (List.range 30).foldl (fun t n =>
    let x := t.port n
    if x.state = .retired then t else t.portTo n { x with state := .down, downSince := t.now, trainStep := 0 }) s

/-- The module enters HALTED (R466); `cause` is for HIF_BOOT_STATUS when READY was not reached (R516). -/
def State.halt (s : State) (cause : Nat) : State :=
  if s.boot.state = .halted then s
  else
    let t := ((s.leaveReady .halted).portsIdle).domainsOff
    let u := if s.boot.stopState = 5 then t
      else { t with boot := { t.boot with stopState := s.boot.state.code, cause := cause } }
    u.setDev .halted

/-! ## Delivery of interrupts (R343 to R350) -/

/-- A core. -/
def State.core (s : State) (c : Nat) : Core := Tab.get {} s.gysis.cores c
/-- The state with one core replaced. -/
def State.setCore (s : State) (c : Nat) (x : Core) : State :=
  { s with gysis := { s.gysis with cores := Tab.set {} s.gysis.cores c x } }

/-- The state with the interrupt controller replaced. -/
def State.setIntc (s : State) (x : Intc) : State := { s with gysis := { s.gysis with intc := x } }

/-- A group holds its sources back: its hold-off time has not elapsed (R348). -/
def State.heldBack (s : State) (g : Nat) : Bool :=
  match Tab.get none s.gysis.intc.heldUntil g with
  | some t => decide (s.now < t)
  | none => false

/-- The cores that may take a source (R345): in its mask, not handling, MIE set, and of a running priority greater than its number. -/
def State.takers (s : State) (n : Nat) : List Nat :=
  (List.range 4).filter (fun c =>
    let k := s.core c
    (s.source n).targets.getLsbD c && !k.retired && k.handling.isNone && k.mie && decide (n < k.running))

/-- The one that takes it: the greatest running priority, the lower number on ties. -/
def State.taker (s : State) (n : Nat) : Option Nat :=
  match s.takers n with
  | [] => none
  | c :: t => some (t.foldl (fun best k => if (s.core best).running < (s.core k).running then k else best) c)

/-- A core enters a handler (R346): MEPC and MCAUSE are written and the first instruction is fetched from the handler address. The boot ROM's place in the
address map is not stated, so whether an address beyond the SRAM faults is a free value (log 4). -/
def Core.enter (k : Core) (n : Nat) (handler : BitVec 64) (rom : Bool) : Core :=
  let a := handler &&& ~~~3
  { k with
    handling := some n, mepc := k.pc, mcause := BitVec.ofNat 64 (2 ^ 63 + 16 + n), pc := a, wfi := false
    accessFault := decide (0x400000 ≤ a.toNat) && !rom }

/-- A source is delivered to a core (R346 to R348): its pending bit is cleared and its group's hold-off begins. -/
def State.deliver (s : State) (n c : Nat) : State :=
  let x := s.source n
  let t := (s.setCore c ((s.core c).enter n x.handler (Config.openBit s.free))).setSource n { x with pending := false }
  let g := n / 32
  let h := (Tab.get 0 t.gysis.intc.holdoff g).toNat
  let u := if g = 0 || h = 0 then t
    else t.setIntc { t.gysis.intc with heldUntil := Tab.set none t.gysis.intc.heldUntil g (some (t.now + h * 1000)) }
  u.draw 1

/-- INTERRUPT_DELIVERY (R345): in one MCLK every pending, enabled source is offered in ascending order. A core that took one is handling and takes no
other. -/
def execInterruptDelivery (s : State) : Host.Outcome State Fault Refusal :=
  .next
    (if !s.gysis.intc.globalEnable then s
    else
      (s.gysis.intc.sources.map (·.1)).foldl (fun t n =>
        let x := t.source n
        if x.pending && x.enabled && !t.heldBack (n / 32) then
          match t.taker n with
          | some c => t.deliver n c
          | none => t
        else t) s)

/-- MRET (R344): the core leaves its handler. -/
def execMret (c : CoreId) (s : State) : Host.Outcome State Fault Refusal :=
  let k := s.core c
  .next (if k.handling.isSome then s.setCore c { k with handling := none, pc := k.mepc, accessFault := false } else s)

/-- HOLDOFF_EXPIRY (R348). -/
def execHoldoffExpiry (g : Fin 8) (s : State) : Host.Outcome State Fault Refusal :=
  let i := s.gysis.intc
  .next
    (match Tab.get none i.heldUntil g with
    | some t => if t ≤ s.now then s.setIntc { i with heldUntil := Tab.set none i.heldUntil g none } else s
    | none => s)

/-! ## Caches and the directory (R357 to R361) -/

/-- A cache block by its number: address div 64. -/
def State.cache (s : State) (b : Nat) : CacheBlock := Tab.get {} s.gysis.blocks b
/-- The state with one cache block replaced. -/
def State.setCache (s : State) (b : Nat) (x : CacheBlock) : State :=
  { s with gysis := { s.gysis with blocks := Tab.set {} s.gysis.blocks b x } }

/-- The MESI state of a core's copy. -/
def CacheBlock.mesi (x : CacheBlock) (c : Nat) : Mesi := Tab.get .invalid x.l1 c

/-- What L2 or, on a miss, SRAM holds. -/
def CacheBlock.below (x : CacheBlock) : BitVec 512 := x.l2.getD x.sram

/-- The block's present value: the copy of a core that owns it in M, else what lies below. -/
def CacheBlock.value (x : CacheBlock) : BitVec 512 :=
  match x.owner with
  | some o => if x.mesi o = .modified then Tab.get 0 x.l1Data o else x.below
  | none => x.below

/-- The owner answers a forward and keeps a shared copy; L2 holds the value (R357: it includes every L1 copy). -/
def CacheBlock.share (x : CacheBlock) : CacheBlock :=
  match x.owner with
  | some o =>
    { x with
      l2 := some x.value, l2Dirty := x.l2Dirty || x.mesi o == .modified, owner := none
      l1 := Tab.set .invalid x.l1 o .shared, l1Data := Tab.set 0 x.l1Data o x.value }
  | none => { x with l2 := some x.below }

/-- Every copy is invalidated, and with it the reservations on the block (R359). L2 holds the value. -/
def CacheBlock.invalidate (x : CacheBlock) : CacheBlock :=
  { x with
    l2 := some x.value, l2Dirty := x.l2Dirty || (match x.owner with | some o => x.mesi o == .modified | none => false)
    owner := none, l1 := [], l1Data := [], reserved := 0 }

/-- A core has a copy in a state. -/
def CacheBlock.give (x : CacheBlock) (c : Nat) (m : Mesi) : CacheBlock :=
  { x with
    l1 := Tab.set .invalid x.l1 c m, l1Data := Tab.set 0 x.l1Data c x.value
    owner := if m = .exclusive || m = .modified then some c else x.owner }

/-- The memory operation that caused a core's request is performed before a forward is answered (R359): a store leaves the block with `v`. -/
def CacheBlock.perform (x : CacheBlock) (c : Nat) : Option (BitVec 512) → CacheBlock
  | some v => { x with l1Data := Tab.set 0 x.l1Data c v }
  | none => x

/-- An LR of a core reserves the block (R359). -/
def CacheBlock.reserve (x : CacheBlock) (c : Nat) (on : Bool) : CacheBlock := if on then { x with reserved := x.reserved ||| BitVec.ofNat 4 (2 ^ c) } else x

/-- A core's read is served: it gets the block, alone or shared. -/
def CacheBlock.fetch (x : CacheBlock) (c : Nat) : CacheBlock :=
  if x.mesi c != .invalid then x
  else if x.owner.isNone && x.l1.all (fun e => e.2 == .invalid) then { x with l2 := some x.below }.give c .exclusive
  else x.share.give c .shared

/-- A request that meets no parity error is served (R359). -/
def CacheBlock.serve (x : CacheBlock) (c : Nat) (k : CohKind) : CacheBlock :=
  match k with
  | .read lr => (x.fetch c).reserve c lr
  | .own store => (if x.owner = some c then x.give c .modified else x.invalidate.give c .modified).perform c store
  | .agentRead => x.share
  | .agentWrite data => { x.invalidate with l2 := some data, l2Dirty := true }

/-- A clean copy with a parity error is dropped and refetched (R361). -/
def CacheBlock.dropClean (x : CacheBlock) (c : Nat) : CacheBlock :=
  let y := if x.mesi c = .shared || x.mesi c = .exclusive then
      { x with l1 := Tab.set .invalid x.l1 c .invalid, owner := if x.owner = some c then none else x.owner } else x
  if y.l2Dirty then y else { y with l2 := none }

/-- The core that a dirty or directory parity error counts against: the owner of the block, else the requester. -/
def CacheBlock.faulty (x : CacheBlock) (c : Nat) : Nat := x.owner.getD c

/-- DIRECTORY_REQUEST (R359, R361): the directory serves one request; a parity error on a clean block is invisible, one on a dirty block or a directory
entry gives the requester a bus error. Both are counted. -/
def execDirectoryRequest (c : CoreId) (addr : Nat) (kind : CohKind) (parity : CacheParity) (s : State) : Host.Outcome State Fault Refusal :=
  let b := addr / 64
  let x := s.cache b
  let counted := { s with gysis := { s.gysis with cacheParity := satInc s.gysis.cacheParity } }
  let bad := counted.note (.core (x.faulty c)) 0
  let core := bad.core c
  let denied := match kind with
    | .read _ => bad.setCore c { core with accessFault := true }
    | .own _ => bad.setCore c { core with accessFault := true }
    | .agentRead => { bad with gysis := { bad.gysis with agentError := true } }
    | .agentWrite _ => { bad with gysis := { bad.gysis with agentError := true } }
  .next
    (match parity with
    | .ok => s.setCache b (x.serve c kind)
    | .clean => counted.setCache b ((x.dropClean c).serve c kind)
    | .dirty => denied.raise (10 + x.faulty c)
    | .directory => denied.raise (10 + x.faulty c))

/-- A core's dirty block is written back: L2 takes its data (R360). -/
def CacheBlock.writeBack (x : CacheBlock) (c : Nat) : CacheBlock :=
  { x with
    l2 := some (Tab.get 0 x.l1Data c), l2Dirty := true, owner := none, l1 := Tab.set .invalid x.l1 c .invalid, l1Data := Tab.set 0 x.l1Data c 0
    reserved := x.reserved &&& ~~~BitVec.ofNat 4 (2 ^ c) }

/-- EVICTION_WRITEBACK (R360): a writeback of the owner updates L2; when the directory has forwarded a request to the core meanwhile, it records another
owner or none, and the writeback is discarded. -/
def execEvictionWriteback (c : CoreId) (addr : Nat) (s : State) : Host.Outcome State Fault Refusal :=
  let x := s.cache (addr / 64)
  .next (if x.owner = some c.val && x.mesi c = .modified then s.setCache (addr / 64) (x.writeBack c) else s)

/-! ## Retirement of a core (R319, R351, R362) -/

/-- A retired core's copies: dirty ones are written back, the others dropped. -/
def CacheBlock.leave (x : CacheBlock) (c : Nat) : CacheBlock :=
  if x.owner = some c && x.mesi c = .modified then x.writeBack c
  else { x with l1 := Tab.set .invalid x.l1 c .invalid, l1Data := Tab.set 0 x.l1Data c 0, owner := if x.owner = some c then none else x.owner }

/-- A source's mask without a core; an empty mask becomes core 0's (R351). -/
def Source.without (x : Source) (c : Nat) : Source :=
  let m := x.targets &&& ~~~BitVec.ofNat 4 (2 ^ c)
  { x with targets := if m = 0 then 1 else m }

/-- The role that serves a command, by the core that has it at first (R318): 0 boot, clocks, power, resets and firmware; 1 mailbox service and the host-copy
engine; 2 partitions, key sets, keys, programs and jobs; 3 faults, the ledger, telemetry, links and mirroring. DEDUCED (log 86). -/
def cmdRole (op : Nat) : Nat :=
  if [0x0104, 0x0501, 0x0510, 0x0511, 0x0601, 0x0603].contains op then 3
  else if 0x0101 ≤ op && op < 0x0400 then 2
  else if [0x0602, 0x0604, 0x0605].contains op then 0
  else 1

/-- The core that has a role: its own, or the lowest-numbered remaining core other than core 0, or core 0 (R319). -/
def State.roleCore (s : State) (r : Nat) : Nat :=
  if (s.core r).retired then ([1, 2, 3].find? (fun c => !(s.core c).retired)).getD 0 else r

/-- A key table entry whose command waits for the rooms, with that command undone. -/
def KeySlot.undone (e : KeySlot) (k : Nat) : KeySlot :=
  if e.slot = some k then { cur := e.prev, lastEpoch := (e.prev.map (·.epoch)).or e.lastEpoch } else e
/-- A look-up key's entry so. -/
def LutSlot.undone (e : LutSlot) (k : Nat) : LutSlot :=
  if e.slot = some k then { cur := e.prev, lastEpoch := (e.prev.map (·.epoch)).or e.lastEpoch } else e

/-- What a command of a partition's VF that waits has changed is undone (R325): a replacement or removal of a key, a deactivation. -/
def Part.undone (x : Part) (k : Nat) : Part :=
  { x with
    keys := x.keys.map (fun e => (e.1, e.2.undone k)), luts := x.luts.map (fun e => (e.1, e.2.undone k))
    keysets := x.keysets.map (fun e => (e.1, e.2.map (fun g => if g.deactivate = some k then { g with deactivate := none } else g))) }

/-- What a command that waits has changed is undone (R325); a MIRROR_SET's pair is not formed. A teardown that has begun is completed by the core that takes the
role over (log 86). -/
def State.undoCommand (s : State) (f k : Nat) (q : Req) : State :=
  let p := if f = 0 then q.field 0 1 else f - 1
  let x := s.part p
  if f ≠ 0 then (if x.present then s.setPart p (x.undone k) else s)
  else if q.op = 0x0104 && (match x.pair.wait with | some (j, _) => j == k | none => false) then
    s.setPart p { x with pair := { diverged := x.pair.diverged } }
  else s

/-- The RUNNING commands of the roles of a core end with FAILED and have no effect as it is retired (R341, R325); one without a slot just ends. -/
def State.loseCommands (s : State) (c : Nat) : State :=
  let lost (q : Req) : Bool := s.roleCore (cmdRole q.op) == c
  let t := ((List.range 17).flatMap (fun f => (List.range 8).map (fun k => (f, k)))).foldl (fun t e =>
    let x := (s.fn e.1).slot e.2
    if x.state == .running && lost x.req then
      ((t.undoCommand e.1 e.2 x.req).dropHash e.1 e.2).endCmd e.1 e.2 stFailed (x.field 20 4) (x.field 24 4) (stoppedPart x.req.op)
    else t) s
  (s.gysis.detached.filter (fun e => lost e.2.2)).foldl (fun t e => (t.undoCommand e.1 e.2.1 e.2.2).dropDetached e) t

/-- The retirement of core 1, 2 or 3: its interrupt is pending again, its commands end (R341), its sources and blocks move (R319, R351, R362). -/
def State.retireCore (s : State) (c : Nat) : State :=
  let k := s.core c
  let s0 := s.loseCommands c
  let t := match k.handling with
    | some n => s0.setSource n { s0.source n with pending := true }
    | none => s0
  let i := t.gysis.intc
  let u := t.setIntc { i with sources := i.sources.map (fun e => (e.1, if e.2.targets.getLsbD c then e.2.without c else e.2)) }
  let v := u.gysis.blocks.foldl (fun (w : State) (e : Nat × CacheBlock) => w.setCache e.1 (e.2.leave c)) u
  ((v.setCore c { retired := true }).persist (.core c)).decided 0x0030 3 2 true true true 255 c c (s.events (.core c) [0]).length

/-- CORE_RETIRE (R319, R456, R466): after three events in 24 h core 1, 2 or 3 is retired; a permanent fault of core 0 takes the module to HALTED. -/
def execCoreRetire (c : CoreId) (s : State) : Host.Outcome State Fault Refusal :=
  .next
    (if (s.core c).retired || !s.permanent (.core c) || s.boot.state = .halted then s
    else if c.val = 0 then (s.decided 0x0030 3 3 true false false 255 0 0 (s.events (.core 0) [0]).length).halt 0
    else s.retireCore c)

end Sys2Proof.Machine
end

