-- ==== Sys2Proof/Machine/Power.lean ====
section
/-! DEFINITION. Power domains, the power cap and its loop, the clamps and the supply faults (20, 24). -/

namespace Sys2Proof.Machine

/-! ## Domains (R485) -/

/-- The state of a switched domain. -/
def State.domain (s : State) (d : Nat) : DomState := Tab.get .off s.power.domains d
/-- The state with one domain replaced. -/
def State.setDomain (s : State) (d : Nat) (x : DomState) : State :=
  { s with power := { s.power with domains := Tab.set .off s.power.domains d x } }

/-- A number inserted in a rising list, once. -/
def insertOnce (d : Nat) : List Nat → List Nat
  | [] => [d]
  | e :: t => if d = e then e :: t else if d < e then d :: e :: t else e :: insertOnce d t

/-- The domains that wake. -/
def State.wakingCount (s : State) : Nat := (s.power.domains.filter (fun e => e.2 == .waking)).length

/-- Firmware wakes a domain: at most four wake at once, and further wakes wait in domain order. -/
def State.wakeDomain (s : State) (d : Nat) : State :=
  if s.domain d ≠ .off then s
  else if s.wakingCount < 4 then s.setDomain d .waking
  else { s with power := { s.power with wakeQueue := insertOnce d s.power.wakeQueue } }

/-- DOMAIN_WAKE: a waking domain becomes ON, and the next one that waits begins to wake. -/
def execDomainWake (d : DomId) (s : State) : Host.Outcome State Fault Refusal :=
  .next
    (if s.domain d ≠ .waking then s
    else
      let t := s.setDomain d .on
      match t.power.wakeQueue with
      | e :: rest => { t with power := { t.power with wakeQueue := rest } }.wakeDomain e
      | [] => t)

/-- Every unit that a domain serves is retired, or its room is disabled by fuse (R4, R485). -/
def State.domainRetired (s : State) (d : Nat) : Bool :=
  if d < 96 then
    let pr := (s.room (d / 6)).pauRetired
    !s.roomOk (d / 6) || (d % 6 == 0 && pr.getLsbD 0 && pr.getLsbD 1) || (d % 6 == 1 && pr.getLsbD 2 && pr.getLsbD 3)
  else if d < 112 then !s.roomOk (d - 96)
  else if d < 118 then (List.range 5).all (fun i => (s.port (5 * (d - 112) + i)).state == .retired)
  else if d = 118 then s.sec.retired
  else false

/-- The security engine has work: a channel holds a context, or a command on one runs (R485). -/
def State.securityBusy (s : State) : Bool :=
  s.sec.hash.any (fun e => e.2.isSome) || (List.range 17).any (fun f => (List.range 8).any (fun k =>
    let x := (s.fn f).slot k
    x.state == .running && (x.field 0 2 == 0x0701 || x.field 0 2 == 0x0702)))

/-- A domain is to be ON (the table of R485). -/
def State.domainNeeded (s : State) (d : Nat) : Bool :=
  let b := s.boot.state
  if d < 96 then s.roomOk (d / 6) && ((s.ownerOf (d / 6)).isSome || b == .selfTest || b == .test || (s.room (d / 6)).block.isSome)
  else if d < 112 then s.roomOk (d - 96) && (b == .training || b == .ready || b == .test)
  else if d < 118 then s.links.released && b != .recovery && b != .halted && !s.domainRetired d
  else if d = 118 then s.securityBusy || decide (s.now < s.sec.idleSince + secondNs)
  else b == .fuses || b == .loading || b == .selfTest || b == .training || b == .recovery || b == .test

/-- What a room loses with one of its six domains; the attic arrays keep their contents (R186). To which domain each register belongs is the model's reading
(log 50). -/
def Room.domainLost (x : Room) (k : Nat) : Room :=
  match k with
  | 2 => { x with badTwiddle := [], landing := 0 }
  | 3 => { x with vregs := [], vcount := 0, lastCfg := none }
  | 4 => { x with channels := [], tagsInFlight := 0, stale := [], window := {}, keyEntries := [], progress := none }
  | 5 => x
  | _ => { x with laneState := 0, descs := [], wideShallow := 0, errRecord := [] }

/-- Every state in a domain is discarded as it goes OFF (R485): the retention area of the security engine stays. -/
def State.domainDiscard (s : State) (d : Nat) : State :=
  if d < 96 then s.setRoom (d / 6) ((s.room (d / 6)).domainLost (d % 6))
  else if d < 112 then s.setStack (d - 96) { s.stack (d - 96) with trained := false }
  else if d < 118 then s
  else if d = 118 then { s with sec := { s.sec with hash := [] } }
  else (List.range 16).foldl (fun t r => t.setRoom r { t.room r with brk := {} }) s

/-- A bundle's ports hold queued or unacknowledged flits, so firmware defers its domain's going off (R432). -/
def State.bundleBusy (s : State) (d : Nat) : Bool :=
  decide (112 ≤ d) && decide (d < 118) &&
    (List.range 5).any (fun i => !(s.port (5 * (d - 112) + i)).queued.isEmpty || !(s.port (5 * (d - 112) + i)).unacked.isEmpty)

/-- DOMAIN_OFF: a domain that is not needed goes OFF, or HELD_OFF when its units are retired. Only firmware changes a state. -/
def execDomainOff (d : DomId) (s : State) : Host.Outcome State Fault Refusal :=
  .next
    (if s.domain d = .heldOff || s.domainNeeded d || s.bundleBusy d then s
    else if s.domainRetired d then (s.domainDiscard d).setDomain d .heldOff
    else if s.domain d = .on then (s.domainDiscard d).setDomain d .off
    else s)

/-- SECURITY_DOMAIN_IDLE_OFF: after 1 s without work. -/
def execSecurityDomainIdleOff (s : State) : Host.Outcome State Fault Refusal :=
  .next (if s.domain 118 = .on && !s.domainNeeded 118 then (s.domainDiscard 118).setDomain 118 .off else s)

/-! ## The cap (R486) -/

/-- The field of POWER_CAP_SET: 0, or 1,000 to 2,000 W. -/
def checkPowerCap (q : Req) : Nat :=
  let c := q.field 0 4
  if c = 0 || (1000 ≤ c && c ≤ 2000) then stOk else stBadArgument

/-- POWER_CAP_SET (R486). -/
def execPowerCapSet (f : FnId) (slot : SlotId) (s : State) : Host.Outcome State Fault Refusal :=
  .next (s.runCmd f slot (isOp 0x0602) (fun q =>
    if checkPowerCap q ≠ stOk then .fail s (checkPowerCap q)
    else .ok { s with power := { s.power with cap := if q.field 0 4 = 0 then 2000 else q.field 0 4 } } []))

/-! ## The loop (R487 to R489) -/

/-- The predicted power of a room at a step in mW (R488), rounded up (log 48). -/
def State.predict (s : State) (r step : Nat) : Nat :=
  let idle := Tab.get 0 s.power.idlePower r
  let now := Tab.get 0 s.power.roomPower r
  let at_ := match s.ownerOf r with | some p => max 1 (s.part p).step | none => 8
  (((idle : Int) * at_ + ((now : Int) - idle) * step + (at_ - 1)) / at_).toNat

/-- The predicted power of a partition at a step. -/
def State.predictPart (s : State) (p step : Nat) : Nat := ((s.part p).rooms.map (fun r => s.predict r step)).sum

/-- The step that a partition is going to. -/
def Part.target (x : Part) : Nat := x.pendingStep.getD x.step

/-- The partitions that hold rooms. -/
def State.poweredParts (s : State) : List Nat := (List.range 16).filter (fun p => (s.part p).present && !(s.part p).rooms.isEmpty)

/-- Partitions in round-robin order, the one after the last served first. -/
def State.robinOrder (s : State) : List Nat :=
  let l := s.poweredParts
  l.filter (fun p => decide (s.power.roundRobin < p)) ++ l.filter (fun p => decide (p ≤ s.power.roundRobin))

/-- The first partition of a list with the greatest value. -/
def firstMax (v : Nat → Nat) : List Nat → Option Nat
  | [] => none
  | p :: t => some (t.foldl (fun best k => if v best < v k then k else best) p)

/-- The first partition of a list with the least value. -/
def firstMin (v : Nat → Nat) : List Nat → Option Nat
  | [] => none
  | p :: t => some (t.foldl (fun best k => if v k < v best then k else best) p)

/-- Step 2 of R489: steps are lowered one at a time, the highest first and round-robin at equal steps, until the predicted total fits or every partition is at
step 1. -/
def State.planSteps (s : State) (base limit : Nat) : Nat → List Nat → Tab Nat → Tab Nat
  | 0, _, steps => steps
  | n + 1, order, steps =>
    let total := base + (order.map (fun p => s.predictPart p (Tab.get 8 steps p))).sum
    if total ≤ limit then steps
    else
      match firstMax (fun p => Tab.get 8 steps p) order with
      | some p =>
        if Tab.get 8 steps p ≤ 1 then steps
        else s.planSteps base limit n (order.filter (· != p) ++ [p]) (Tab.set 8 steps p (Tab.get 8 steps p - 1))
      | none => steps

/-- A partition is to run at a step: it takes effect when every room has passed a block boundary (R473, R487). A decrease keeps its grant until then; an
increase holds its grant at once. -/
def State.requestStep (s : State) (p step : Nat) : State :=
  let x := s.part p
  let busy := s.busyRooms p
  let g := s.predictPart p step
  if busy.isEmpty then s.setPart p { x with step := step, grant := g, pendingStep := none, pendingGrant := 0, pendingRooms := [] }
  else s.setPart p { x with
    pendingStep := some step, pendingGrant := g, pendingRooms := busy, grant := if x.step < step then g else x.grant }

/-- A decrease of some partition is pending. -/
def State.decreasePending (s : State) : Bool := s.poweredParts.any (fun p => match (s.part p).pendingStep with | some k => decide (k < (s.part p).step) | none => false)

/-- Step 1 of R489: the base grant follows the measured non-room power plus 5%, an increase as far as the free pool goes. -/
def State.setBase (s : State) (need : Nat) : State :=
  { s with power := { s.power with baseGrant := if need ≤ s.power.baseGrant then need else min need (s.power.baseGrant + s.freePool) } }

/-- Step 2 of R489. -/
def State.lowerSteps (s : State) (need : Nat) : State :=
  let order := s.robinOrder
  let now : Tab Nat := order.foldl (fun t p => Tab.set 8 t p (s.part p).target) []
  let plan := s.planSteps need (s.power.cap * 1000) 128 order now
  let t := order.foldl (fun u p => if Tab.get 8 plan p < Tab.get 8 now p then u.requestStep p (Tab.get 8 plan p) else u) s
  match (order.filter (fun p => decide (Tab.get 8 plan p < Tab.get 8 now p))).getLast? with
  | some p => { t with power := { t.power with roundRobin := p } }
  | none => t

/-- Step 3 of R489. -/
def State.raiseStep (s : State) : State :=
  let cost (p : Nat) : Nat := s.predictPart p ((s.part p).step + 1) - (s.part p).grant
  let able := s.robinOrder.filter (fun p => decide ((s.part p).step < 8) && (s.part p).pendingStep.isNone && decide (cost p ≤ s.freePool))
  match firstMin (fun p => (s.part p).step) able with
  | some p =>
    let t := s.requestStep p ((s.part p).step + 1)
    { t with power := { t.power with roundRobin := p } }
  | none => s

/-- Step 4 of R489, and the time that the module has been within CAP. -/
def State.capTest (s : State) (above : Bool) : State :=
  let w := s.power
  let lowest := s.poweredParts.all (fun p => decide ((s.part p).step ≤ 1))
  let t := { s with power := { w with withinSince := if above then none else (if w.withinSince.isNone then some s.now else w.withinSince) } }
  if above && (lowest || (s.clk 0).source = 2) && !w.capUnmet then
    ({ t.forgetAcked with power := { t.power with capUnmet := true } }).decided 0x0060 3 0 true false false 255 255 194 1
  else t

/-- CAP_LOOP_TICK (R489): `power` is the module input power averaged over the last 250 µs and `rooms` each room's, in mW. The tick raises source 194;
firmware runs the loop. On the ACLK bypass it keeps every grant (R482). -/
def execCapLoopTick (power : Nat) (rooms : List Nat) (s : State) : Host.Outcome State Fault Refusal :=
  let s0 := { s with power := { s.power with
    measured := power, roomPower := (List.range 16).foldl (fun t r => Tab.set 0 t r (rooms.getD r 0)) [] } }.raise 194
  let need := ((power - rooms.sum) * 105 + 99) / 100
  let above := decide (s.power.cap * 1000 < power)
  .next
    (if s.romServes || s.boot.state = .halted then s0
    else
      let s1 := s0.setBase need
      let s2 :=
        if (s.clk 0).source = 2 then s1
        else if above || s1.power.baseGrant < need then s1.lowerSteps need
        else if power < s.power.cap * 1000 && !s1.decreasePending then s1.raiseStep
        else s1
      s2.capTest above)

/-- CAP_UNMET_CLEAR (R489). -/
def execCapUnmetClear (s : State) : Host.Outcome State Fault Refusal :=
  .next
    (match s.power.withinSince with
    | some t =>
      if s.power.capUnmet && decide (t + 10000000 ≤ s.now) then { s with power := { s.power with capUnmet := false, withinSince := none } }.forgetAcked
      else s
    | none => s)

/-! ## Clamps (R490) -/

/-- A clamp's activation is counted (R493): 0 current, 1 thermal, 2 coolant. -/
def State.countClamp (s : State) (k : Nat) : State :=
  let t := s.forgetAcked
  { t with power := { t.power with clampCounts := Tab.set 0 t.power.clampCounts k (satInc (Tab.get 0 t.power.clampCounts k)) } }

/-- The current limit of a core rail in mA (R555). -/
def State.railLimit (s : State) (rail : Nat) : Nat := s.nvm.config.currentLimit.getD (rail - 1) 0 * 1000

/-- CURRENT_CLAMP (R490): a reading of the current of a core rail. -/
def execCurrentClamp (rail : Nat) (milliamps : Nat) (s : State) : Host.Outcome State Fault Refusal :=
  let w := s.power
  let lim := s.railLimit rail
  .next
    (if rail < 1 || 3 < rail then s
    else if lim < milliamps then
      let t := { s with power := { w with
        currentClamp := true, currentSince := if w.currentClamp then w.currentSince else s.now, currentBelow := none, currentRails := insertOnce rail w.currentRails } }
      if w.currentClamp then t else t.countClamp 0
    else if milliamps * 100 < lim * 95 then
      let left := w.currentRails.filter (· != rail)
      { s with power := { w with
        currentRails := left
        currentBelow := if w.currentClamp && left.isEmpty && w.currentBelow.isNone then some s.now else w.currentBelow } }
    else if w.currentClamp then { s with power := { w with currentRails := insertOnce rail w.currentRails, currentBelow := none } }
    else s)

/-- CURRENT_CLAMP_RELEASE (R490): 100 µs after the rails fell below 95% of their limits. -/
def execCurrentClampRelease (s : State) : Host.Outcome State Fault Refusal :=
  let w := s.power
  .next
    (match w.currentBelow with
    | some t => if w.currentClamp && decide (t + 100000 ≤ s.now) then { s with power := { w with currentClamp := false, currentBelow := none } }.forgetAcked else s
    | none => s)

/-- THERMAL_CLAMP (R490): a valid reading of a room's die sensor in m°C. -/
def execThermalClamp (r : RoomId) (temp : Int) (s : State) : Host.Outcome State Fault Refusal :=
  let x := s.room r
  let t := { s with power := { s.power with stale := Tab.set none s.power.stale (quantityId 4 r 0) none } }
  .next
    (if 100000 ≤ temp then
      let u := t.setRoom r { x with dieTemp := temp, thermalClamp := true }
      if x.thermalClamp then u else u.countClamp 1
    else if temp < 95000 then (t.setRoom r { x with dieTemp := temp, thermalClamp := false }).forgetAcked
    else t.setRoom r { x with dieTemp := temp })

/-- COOLANT_CLAMP (R490, R557): a reading of the coolant outlet in m°C, or none from a sensor that gives no valid one. The clamp holds until a first valid
reading, and on a stale value until a valid one releases it. -/
def execCoolantClamp (temp : Option Int) (s : State) : Host.Outcome State Fault Refusal :=
  let w := s.power
  .next
    (match temp with
    | none => s
    | some c =>
      let lim := s.nvm.config.outletLimit * 1000
      let y := { w with coolOut := c, coolOutValid := true, stale := Tab.set none w.stale (quantityId 1 0 4) none }
      if lim < c then
        let t := { s with power := { y with coolantClamp := true } }
        if w.coolantClamp then t else t.countClamp 2
      else if c ≤ lim - 2000 || !w.coolOutValid then { s with power := { y with coolantClamp := false } }.forgetAcked
      else { s with power := y })

/-! ## Supply faults (R492) -/

/-- SUPPLY_FAULT (R492): 0 a rail outside ±5% for 20 µs, 1 the current clamp held for 100 ms, 2 a die sensor at 115 °C or more for 100 µs. The module enters
HALTED, with CAUSE 8 before READY; PWR_FAULT_N goes low on the first and the third (R553). What the ledger's WHERE shows is the model's (log 39). -/
def execSupplyFault (cause : Fin 3) (s : State) : Host.Outcome State Fault Refusal :=
  .next
    (if s.boot.state = .halted then s
    else if cause.val = 1 && !(s.power.currentClamp && decide (s.power.currentSince + 100000000 ≤ s.now)) then s
    else if cause.val = 1 then (s.decided 0x0060 3 3 true false false 255 255 16 1).halt 8
    else
      let src := if cause.val = 0 then 8 else 9
      let t := ((s.raise src).decided 0x0060 3 3 true false false 255 255 src 1).halt 8
      { t with power := { t.power with pwrFaultN := false } })

end Sys2Proof.Machine
end

