-- ==== Sys2Proof/Machine/Entropy.lean ====
section
/-! DEFINITION. The DRBG's life and the block keys (11): reseeding, health failures, and the delivery of R273. -/

namespace Sys2Proof.Machine

/-! ## CTR_DRBG (SP 800-90A, which R271 names, with AES-256 and the derivation function; log 3) -/

/-- Block_Cipher_df: 48 bytes from an input. -/
def drbgDf (input : List Byte) : List Byte :=
  let m := beBytes 4 input.length ++ beBytes 4 48 ++ input ++ [0x80]
  let padded := m ++ List.replicate ((16 - m.length % 16) % 16) 0
  let fixed := roundKeys ((List.range 32).map (BitVec.ofNat 8))
  let bcc (i : Nat) : List Byte :=
    (chunks 16 (1 + padded.length / 16) (beBytes 4 i ++ List.replicate 12 0 ++ padded)).foldl (fun c b => aesWith fixed (xorBytes c b)) (List.replicate 16 0)
  let t := (List.range 3).flatMap bcc
  let key := roundKeys (t.take 32)
  let x := aesWith key (t.drop 32)
  let y := aesWith key x
  x ++ y ++ aesWith key y

/-- `n` blocks of output from a working state. -/
def Drbg.blocks (g : Drbg) (n : Nat) : List Byte := ctrStream (roundKeys (beBytes 32 g.key.toNat)) (g.v + 1).toNat n

/-- CTR_DRBG_Update with 48 bytes. -/
def Drbg.update (g : Drbg) (data : List Byte) : Drbg :=
  let t := xorBytes (g.blocks 3) data
  { key := BitVec.ofNat 256 (beNat (t.take 32)), v := BitVec.ofNat 128 (beNat (t.drop 32)) }

/-- The 512 bits of conditioned entropy that a seeding draws. -/
def entropyAt (n : Nat) : List Byte := beBytes 32 (Config.entropy n).toNat ++ beBytes 32 (Config.entropy (n + 1)).toNat

/-- The output of one generate request. -/
def Drbg.bytes (g : Drbg) (n : Nat) : List Byte := (g.blocks (ceilDiv n 16)).take n

/-- The working state after one generate request. -/
def Drbg.next (g : Drbg) (n : Nat) : Drbg := ({ g with v := g.v + BitVec.ofNat 128 (ceilDiv n 16) } : Drbg).update (List.replicate 48 0)

/-- A working state reseeded from 512 bits of conditioned entropy (R271). -/
def Drbg.reseeded (g : Drbg) (n : Nat) : Drbg := g.update (drbgDf (entropyAt n))

/-- A DRBG in use: its working state, the requests left before the next reseed, and the number of the next entropy to draw (R271). -/
structure DrbgRun where
  work : Drbg
  left : Nat
  seed : Nat
deriving DecidableEq, Repr

/-- A DRBG before its next request: reseeded where 2^20 requests have passed (R271). -/
def DrbgRun.ready (g : DrbgRun) : DrbgRun := if g.left = 0 then { work := g.work.reseeded g.seed, left := 2 ^ 20, seed := g.seed + 2 } else g

/-- `n` bytes as requests of up to 4,096 bytes each, `k` of them. -/
def DrbgRun.run : Nat → DrbgRun → Nat → List Byte × DrbgRun
  | 0, g, _ => ([], g)
  | k + 1, g0, n =>
    let g := g0.ready
    let r := DrbgRun.run k { g with work := g.work.next (min n 4096), left := g.left - 1 } (n - 4096)
    (g.work.bytes (min n 4096) ++ r.1, r.2)

/-- Requests that `n` bytes take. -/
def drbgRequestsOf (n : Nat) : Nat := max 1 (ceilDiv n 4096)

/-- `n` bytes of output of a DRBG from here on. -/
def drbgBytes (g : DrbgRun) (n : Nat) : List Byte := (g.run (drbgRequestsOf n) n).1

/-- The DRBG once `n` bytes have been drawn. -/
def DrbgRun.after (g : DrbgRun) (n : Nat) : DrbgRun := (g.run (drbgRequestsOf n) n).2

/-- The DRBG is to be reseeded: after 2^20 generate requests or after 1 s (R271). -/
def State.reseedDue (s : State) : Bool := decide (2 ^ 20 ≤ s.sec.drbgRequests) || decide (s.sec.drbgSeeded + secondNs ≤ s.now)

/-- A reseed, or the instantiation of a DRBG that has no working state, from 512 bits of conditioned entropy (R271). -/
def State.reseed (s : State) : State :=
  let g : Drbg := s.sec.drbgWork.getD {}
  { s with sec := { s.sec with
    drbgWork := some (g.reseeded s.sec.drbgNext), drbgRequests := 0, drbgSeeded := s.now, drbgNext := s.sec.drbgNext + 2 } }

/-- A running DRBG before it answers a request: instantiated, and reseeded where that is due. -/
def State.drbgReady (s : State) : State := if s.sec.drbgWork.isNone || s.reseedDue then s.reseed else s

/-- The DRBG from which the next request is answered. -/
def State.rnd (s : State) : DrbgRun :=
  let x := s.drbgReady.sec
  { work := x.drbgWork.getD {}, left := 2 ^ 20 - x.drbgRequests, seed := x.drbgNext }

/-- The DRBG gives out `n` bytes. -/
def State.generate (s : State) (n : Nat) : State :=
  let t := s.drbgReady
  let g := s.rnd.after n
  { t with sec := { t.sec with
    drbgWork := some g.work, drbgRequests := 2 ^ 20 - g.left, drbgNext := g.seed, drbgSeeded := if g.seed = t.sec.drbgNext then t.sec.drbgSeeded else s.now } }

/-- The next 256 bits of output, as a key (R273). -/
def State.nextKey (s : State) : BitVec 256 := BitVec.ofNat 256 (fieldOf (drbgBytes s.rnd 32) 0 32)

/-- DRBG_RESEED (R271): after 2^20 generate requests or 1 s; it draws 512 bits of conditioned entropy. -/
def execDrbgReseed (s : State) : Host.Outcome State Fault Refusal :=
  .next (if s.sec.drbg = .running && s.reseedDue then s.reseed else s)

/-- DRBG_HEALTH_FAIL (R272): the DRBG stops and discards its working state, and source 14 is raised. The tests of R271 on the raw samples are the source's; the
command is their outcome (log 3). -/
def execDrbgHealthFail (s : State) : Host.Outcome State Fault Refusal :=
  let x := s.sec
  .next
    (if x.drbg = .running then
      { s with sec := { x with drbg := .halted, drbgFailedAt := s.now, drbgRequests := 0, drbgFails := 0, drbgWork := none } }.raise 14
    else s)

/-- The module draws its boot identifier (R410), a value other than 0, in READY or TEST, as soon as the DRBG can supply it. -/
def State.drawBootId (s : State) : State :=
  if s.links.bootId.isSome || s.sec.drbg ≠ .running || !s.programsRun then s
  else
    { s.generate 4 with links := { s.links with bootId := some (BitVec.ofNat 32 (fieldOf (drbgBytes s.rnd 4) 0 4 % (2 ^ 32 - 1) + 1)) } }

/-- Rooms of a partition whose block has dispatched a flood or draw-seed operation, or dispatches one now, and holds no key. -/
def State.keyAsks (s : State) (p : Nat) : List Nat :=
  (s.part p).rooms.filter (fun r => (s.room r).block.isSome && (s.room r).noiseKey.isNone && ((s.room r).keyHeld || (s.opRooms p).contains r))

/-- The number of the block that a key which comes from the twin is for: the first that asks, else the one that the first room is in. -/
def State.keyBlock (s : State) (p : Nat) : Nat := s.blockNo p ((s.keyAsks p).headD ((s.part p).roomAt 0))

/-- The key of a block is delivered to the noise-key registers of a partition's rooms that are in it and hold none (R273); a room that comes to the block later
gets the same one. -/
def State.deliverKey (s : State) (p n : Nat) (key : BitVec 256) : State :=
  let x := s.part p
  (x.rooms.foldl (fun t r =>
      if (t.room r).noiseKey.isNone && s.blockNo p r == n then t.setRoom r { t.room r with noiseKey := some key, keyHeld := false } else t) s).setPart p
    { x with blockKeys := if x.blockKeys.any (fun e => e.1 == n) then x.blockKeys else x.blockKeys ++ [(n, key)] }

/-- The key that the block which a room is in already has (R273): one for each block. -/
def State.keyDonor (s : State) (p r : Nat) : Option (BitVec 256) := ((s.part p).blockKeys.find? (fun e => e.1 == s.blockNo p r)).map (·.2)

/-- The blocks that ask for a key that never comes end as R462 gives: the engine is retired. -/
def State.keyNever (s : State) (p r : Nat) : State :=
  (s.keyAsks p).foldl (fun t k => if s.blockNo p k = s.blockNo p r then t.failBlock k else t) s

/-- The request waits, and with it what follows in the queues of the rooms that ask (R287). -/
def State.holdKeys (s : State) (p : Nat) : State :=
  { (s.keyAsks p).foldl (fun t r => t.setRoom r { t.room r with keyHeld := true }) s with
    sec := { s.sec with keyQueue := if s.sec.keyQueue.contains p then s.sec.keyQueue else s.sec.keyQueue ++ [p] } }

/-- The block that a room is in gets a new key (R273), which a leader sends to its twin wrapped under the pair key (R436). -/
def State.giveKey (s : State) (p r : Nat) : State :=
  let x := s.part p
  let k := s.nextKey
  let t := (s.generate 32).deliverKey p (s.blockNo p r) k
  let u := { t with sec := { t.sec with idleSince := s.now } }
  match x.isLeader, x.pair.key with
  | true, some pk => u.emit (.mirror 3 x.pair.peerModule x.pair.peerPart (kwpWrap (leBytes 32 pk.toNat) (leBytes 32 k.toNat)))
  | _, _ => u

/-- A room that waits for the key of its block gets it. -/
def State.serveKey (p : Nat) (s : State) (r : Nat) : State :=
  if !(s.keyAsks p).contains r || (s.part p).isFollower then s
  else match s.keyDonor p r with
    | some k => s.deliverKey p (s.blockNo p r) k
    | none => s.giveKey p r

/-- The requests that wait are served in the order of their arrival (R287), while the engine's domain is on. -/
def State.serveKeys (s : State) : State :=
  if s.domain 118 ≠ .on then s
  else
    let t := s.sec.keyQueue.foldl (fun u p => (s.part p).rooms.foldl (State.serveKey p) u) s
    { t with sec := { t.sec with keyQueue := [] } }

/-- DRBG_REINSTANTIATE (R272): 10 ms later; requests that waited are then served (R287). The third failure in a row is a chip-level fault. -/
def execDrbgReinstantiate (ok : Bool) (s : State) : Host.Outcome State Fault Refusal :=
  let x := s.sec
  .next
    (if x.drbg ≠ .halted || s.now < x.drbgFailedAt + 10000000 then s
    else if ok then ({ s with sec := { x with drbg := .running, drbgFails := 0 } }.reseed.drawBootId).serveKeys
    else if x.drbgFails + 1 < 3 then { s with sec := { x with drbgFails := x.drbgFails + 1, drbgFailedAt := s.now } }
    else ({ s with sec := { x with drbg := .failed, drbgFails := 3 } }.note .drbg 0).decided 0x0034 3 3 true true true 255 255 3 3)

/-- BLOCK_KEY_REQUEST (R273, R286, R287, R462): a block of the partition dispatches its first flood or draw-seed operation. With the engine's domain off the
request wakes it and waits (R497); while the DRBG is halted it waits; in a follower it waits for BLOCKKEY (R438). -/
def execBlockKeyRequest (p : PartId) (s : State) : Host.Outcome State Fault Refusal :=
  .next
    (match s.keyAsks p with
    | [] => s
    | r :: _ =>
      if s.sec.retired then s.keyNever p r
      else
        match s.keyDonor p r with
        | some k => s.deliverKey p (s.blockNo p r) k
        | none =>
          if s.domain 118 ≠ .on then (s.holdKeys p).wakeDomain 118
          else if s.sec.drbg ≠ .running || (s.part p).isFollower then s.holdKeys p
          else s.giveKey p r)

end Sys2Proof.Machine
end

