-- ==== Sys2Proof/Machine/Ecc.lean ====
section
/-! DEFINITION. The arithmetic of PKA (15): ECDSA and ECDH on P-256 and P-384 (FIPS 186-5, SP 800-56A), Ed25519 (RFC 8032) and RSA with PSS (RFC 8017),
which R363, R367 and R368 name. -/

namespace Sys2Proof.Machine

/-- The bits of a number, the lowest first. -/
def bitsLow : Nat → Nat → List Bool
  | 0, _ => []
  | n + 1, v => (v % 2 == 1) :: bitsLow n (v / 2)

/-- b^e mod m by squaring. -/
def powBig (b e m : Nat) : Nat :=
  ((bitsLow (e.log2 + 1) e).foldl (fun (a : Nat × Nat) bit => (if bit then a.1 * a.2 % m else a.1, a.2 * a.2 % m)) (1 % m, b % m)).1

/-! ## Short Weierstrass curves -/

/-- A curve y² = x³ − 3x + b over a prime field with a base point of prime order, and the bytes of a field element. -/
structure Curve where
  p : Nat
  b : Nat
  n : Nat
  gx : Nat
  gy : Nat
  bytes : Nat
deriving DecidableEq, Repr

/-- P-256 (SP 800-186). -/
def curveP256 : Curve :=
  { p := 0xffffffff00000001000000000000000000000000ffffffffffffffffffffffff
    b := 0x5ac635d8aa3a93e7b3ebbd55769886bc651d06b0cc53b0f63bce3c3e27d2604b
    n := 0xffffffff00000000ffffffffffffffffbce6faada7179e84f3b9cac2fc632551
    gx := 0x6b17d1f2e12c4247f8bce6e563a440f277037d812deb33a0f4a13945d898c296
    gy := 0x4fe342e2fe1a7f9b8ee7eb4a7c0f9e162bce33576b315ececbb6406837bf51f5
    bytes := 32 }

/-- P-384 (SP 800-186). -/
def curveP384 : Curve :=
  { p := 0xfffffffffffffffffffffffffffffffffffffffffffffffffffffffffffffffeffffffff0000000000000000ffffffff
    b := 0xb3312fa7e23ee7e4988e056be3f82d19181d9c6efe8141120314088f5013875ac656398d8a2ed19d2a85c8edd3ec2aef
    n := 0xffffffffffffffffffffffffffffffffffffffffffffffffc7634d81f4372ddf581a0db248b0a77aecec196accc52973
    gx := 0xaa87ca22be8b05378eb1c71ef320ad746e1d3b628ba79b9859f741e082542a385502f25dbf55296c3a545e3872760ab7
    gy := 0x3617de4a96262c6f5d9e98bf9292dc29f8f41dbd289a147ce9da3113b5f0b8c00a60b1ce1d7e819d7a431d7c90ea0e5f
    bytes := 48 }

/-- A point of a curve, or none for the point at infinity. -/
abbrev EcPoint := Option (Nat × Nat)

/-- The sum of two points. -/
def Curve.add (c : Curve) : EcPoint → EcPoint → EcPoint
  | none, q => q
  | p, none => p
  | some (x1, y1), some (x2, y2) =>
    let m := c.p
    if x1 = x2 && (y1 + y2) % m = 0 then none
    else
      let l :=
        if x1 = x2 then (3 * x1 * x1 + (m - 3)) % m * modInv (2 * y1) m % m
        else (y2 + m - y1) % m * modInv (x2 + m - x1) m % m
      let x3 := (l * l + (m - x1) + (m - x2)) % m
      some (x3, (l * (x1 + m - x3) + (m - y1)) % m)

/-- A multiple of a point. -/
def Curve.mul (c : Curve) (k : Nat) (p : EcPoint) : EcPoint :=
  ((bitsLow (k.log2 + 1) k).foldl (fun (a : EcPoint × EcPoint) bit => (if bit then c.add a.1 a.2 else a.1, c.add a.2 a.2)) (none, p)).1

/-- The base point. -/
def Curve.g (c : Curve) : EcPoint := some (c.gx, c.gy)

/-- A pair of coordinates lies on the curve. -/
def Curve.on (c : Curve) (x y : Nat) : Bool :=
  decide (x < c.p) && decide (y < c.p) && (y * y % c.p == (x * x % c.p * x + (c.p - 3) * x + c.b) % c.p)

/-- The SEC 1 uncompressed encoding. -/
def Curve.encode (c : Curve) : EcPoint → List Byte
  | some (x, y) => [0x04] ++ beBytes c.bytes x ++ beBytes c.bytes y
  | none => [0x00]

/-- A point on the curve from its SEC 1 uncompressed encoding. -/
def Curve.decode (c : Curve) (l : List Byte) : EcPoint :=
  let x := beNat ((l.drop 1).take c.bytes)
  let y := beNat (l.drop (1 + c.bytes))
  if l.length = 1 + 2 * c.bytes && l.headD 0 = 0x04 && c.on x y then some (x, y) else none

/-- A scalar from 1 to n − 1 out of random bytes with 64 more bits than n (FIPS 186-5 A.2.1, A.3.1). -/
def Curve.scalar (c : Curve) (rand : List Byte) : Nat := beNat rand % (c.n - 1) + 1

/-- An ECDSA signature r ‖ s of a digest by a secret key with a nonce. -/
def Curve.sign (c : Curve) (d k : Nat) (digest : List Byte) : List Byte :=
  match c.mul k c.g with
  | some (x, _) =>
    let r := x % c.n
    let s := modInv k c.n * (beNat digest + r * d) % c.n
    beBytes c.bytes r ++ beBytes c.bytes s
  | none => List.replicate (2 * c.bytes) 0

/-- An ECDSA signature is valid. -/
def Curve.verify (c : Curve) (q : EcPoint) (digest sig : List Byte) : Bool :=
  let r := beNat (sig.take c.bytes)
  let s := beNat (sig.drop c.bytes)
  if q.isNone || sig.length ≠ 2 * c.bytes || r = 0 || s = 0 || c.n ≤ r || c.n ≤ s then false
  else
    let w := modInv s c.n
    match c.add (c.mul (beNat digest * w % c.n) c.g) (c.mul (r * w % c.n) q) with
    | some (x, _) => x % c.n == r
    | none => false

/-! ## Ed25519 -/

/-- The field prime of Ed25519. -/
def edP : Nat := 2 ^ 255 - 19
/-- The order of its base point. -/
def edL : Nat := 2 ^ 252 + 27742317777372353535851937790883648493
/-- The curve constant d. -/
def edD : Nat := 37095705934669439343138083508754565189542113879843219016388785533085940283555
/-- A square root of −1. -/
def edI : Nat := powBig 2 ((edP - 1) / 4) edP

/-- The sum of two points of the twisted Edwards curve. -/
def edAdd (a b : Nat × Nat) : Nat × Nat :=
  let m := edD * (a.1 * b.1 % edP) % edP * (a.2 * b.2 % edP) % edP
  ((a.1 * b.2 + b.1 * a.2) % edP * modInv (1 + m) edP % edP, (a.2 * b.2 + a.1 * b.1) % edP * modInv (edP + 1 - m) edP % edP)

/-- A multiple of a point. -/
def edMul (k : Nat) (p : Nat × Nat) : Nat × Nat :=
  ((bitsLow (k.log2 + 1) k).foldl (fun (a : (Nat × Nat) × (Nat × Nat)) bit => (if bit then edAdd a.1 a.2 else a.1, edAdd a.2 a.2)) ((0, 1), p)).1

/-- The x coordinate of a y coordinate with a sign bit (RFC 8032, 5.1.3). -/
def edRecover (y : Nat) (sign : Bool) : Option Nat :=
  let u := (y * y + edP - 1) % edP
  let v := (edD * (y * y % edP) + 1) % edP
  let x0 := u * powBig v 3 edP % edP * powBig (u * powBig v 7 edP % edP) ((edP - 5) / 8) edP % edP
  let vx := v * (x0 * x0 % edP) % edP
  let x := if vx = u then some x0 else if vx = (edP - u) % edP then some (x0 * edI % edP) else none
  match x with
  | some w => if w = 0 && sign then none else some (if (w % 2 == 1) == sign then w else edP - w)
  | none => none

/-- The encoding of a point. -/
def edEncode (p : Nat × Nat) : List Byte := leBytes 32 (p.2 + p.1 % 2 * 2 ^ 255)

/-- A point from its encoding. -/
def edDecode (l : List Byte) : Option (Nat × Nat) :=
  let v := leNat l
  let y := v % 2 ^ 255
  if l.length ≠ 32 || edP ≤ y then none else (edRecover y (2 ^ 255 ≤ v)).map (fun x => (x, y))

/-- The base point. -/
def edG : Nat × Nat := ((edRecover (4 * modInv 5 edP % edP) false).getD 0, 4 * modInv 5 edP % edP)

/-- The scalar and the prefix of a seed (RFC 8032, 5.1.5). -/
def edExpand (seed : List Byte) : Nat × List Byte :=
  let h := sha512 seed
  let a := leNat (h.take 32)
  (a % 2 ^ 254 / 8 * 8 + 2 ^ 254, h.drop 32)

/-- The public key of a seed. -/
def edPublic (seed : List Byte) : List Byte := edEncode (edMul (edExpand seed).1 edG)

/-- An Ed25519 signature (RFC 8032, 5.1.6). -/
def edSign (seed msg : List Byte) : List Byte :=
  let e := edExpand seed
  let a := edPublic seed
  let r := leNat (sha512 (e.2 ++ msg)) % edL
  let rb := edEncode (edMul r edG)
  let k := leNat (sha512 (rb ++ a ++ msg)) % edL
  rb ++ leBytes 32 ((r + k * e.1) % edL)

/-- An Ed25519 signature is valid (RFC 8032, 5.1.7): the cofactorless equation, which the standard allows. -/
def edVerify (pub sig msg : List Byte) : Bool :=
  let s := leNat (sig.drop 32)
  match edDecode pub, edDecode (sig.take 32) with
  | some a, some r => decide (sig.length = 64) && decide (s < edL) &&
      edMul s edG == edAdd r (edMul (leNat (sha512 (sig.take 32 ++ pub ++ msg)) % edL) a)
  | _, _ => false

/-! ## RSA with PSS -/

/-- MGF1 with SHA-384. -/
def mgf384 (seed : List Byte) (n : Nat) : List Byte :=
  ((List.range (ceilDiv n 48)).flatMap (fun i => sha384 (seed ++ beBytes 4 i))).take n

/-- The encoded message of a digest and salt for a modulus of some bits (RFC 8017, 9.1.1). -/
def pssEncode (bits : Nat) (digest salt : List Byte) : List Byte :=
  let len := ceilDiv (bits - 1) 8
  let h := sha384 (List.replicate 8 0 ++ digest ++ salt)
  let db := List.replicate (len - 48 - 48 - 2) 0 ++ [0x01] ++ salt
  let masked := xorBytes db (mgf384 h (len - 49))
  let top := BitVec.ofNat 8 (2 ^ (8 - (8 * len - (bits - 1))) - 1)
  ((masked.headD 0 &&& top) :: masked.tail) ++ h ++ [0xBC]

/-- An encoded message agrees with a digest, with a salt of 48 bytes (RFC 8017, 9.1.2). -/
def pssOk (bits : Nat) (digest em : List Byte) : Bool :=
  let len := ceilDiv (bits - 1) 8
  let masked := em.take (len - 49)
  let h := (em.drop (len - 49)).take 48
  let top := BitVec.ofNat 8 (2 ^ (8 - (8 * len - (bits - 1))) - 1)
  let db0 := xorBytes masked (mgf384 h (len - 49))
  let db := (db0.headD 0 &&& top) :: db0.tail
  let pad := len - 98
  decide (em.length = len) && em.getLastD 0 == 0xBC && (masked.headD 0 &&& ~~~top) == 0 && db.take pad == List.replicate pad 0 &&
    db.getD pad 0 == 0x01 && h == sha384 (List.replicate 8 0 ++ digest ++ db.drop (pad + 1))

/-- An RSA secret key as a cupboard entry stores it (R370), with its bytes per prime. -/
structure RsaKey where
  p : Nat
  q : Nat
  dp : Nat
  dq : Nat
  qinv : Nat
  e : Nat
deriving DecidableEq, Repr

/-- The key in stored material with primes of `n` bytes. -/
def rsaKeyOf (n : Nat) (m : List Byte) : RsaKey :=
  let f (i : Nat) : Nat := beNat ((m.drop (n * i)).take n)
  { p := f 0, q := f 1, dp := f 2, dq := f 3, qinv := f 4, e := beNat (m.drop (5 * n)) }

/-- The secret operation through the Chinese remainder theorem. -/
def RsaKey.root (k : RsaKey) (m : Nat) : Nat :=
  let m1 := powBig m k.dp k.p
  let m2 := powBig m k.dq k.q
  m2 + k.q * ((m1 + k.p - m2 % k.p) * k.qinv % k.p)

/-- An RSA-PSS signature of a digest; `bytes` is the length of the modulus. -/
def RsaKey.sign (k : RsaKey) (bytes : Nat) (digest salt : List Byte) : List Byte :=
  let n := k.p * k.q
  let em := pssEncode (n.log2 + 1) digest salt
  beBytes bytes (k.root (beNat em))

/-- An RSA-PSS signature is valid (RFC 8017, 8.1.2). -/
def rsaVerify (n e : Nat) (bytes : Nat) (digest sig : List Byte) : Bool :=
  let s := beNat sig
  let bits := n.log2 + 1
  if sig.length ≠ bytes || n ≤ s || bits < 1024 then false
  else
    let len := ceilDiv (bits - 1) 8
    let m := powBig s e n
    decide (m < 256 ^ len) && pssOk bits digest (beBytes len m)

end Sys2Proof.Machine
end

