-- ==== Sys2Proof/Machine/Lattice.lean ====
section
/-! DEFINITION. The LATTICE unit (15): ML-KEM-1024 (FIPS 203) and ML-DSA-87 (FIPS 204), which R363 and R368 name. Polynomials have 256 coefficients, each held
below the scheme's prime. -/

namespace Sys2Proof.Machine

/-! ## Transforms and packing -/

/-- The transform of a polynomial modulo X^(2n) − z^e into its remainders modulo X^n − z^(e/2) and X^n + z^(e/2), `depth` levels down; z^half = −1. -/
def splitNtt (q z half : Nat) : Nat → Nat → List Nat → List Nat
  | 0, _, f => f
  | d + 1, e, f =>
    let n := f.length / 2
    let r := powBig z (e / 2) q
    let lo := f.take n
    let hi := f.drop n
    splitNtt q z half d (e / 2) (List.zipWith (fun a b => (a + r * b) % q) lo hi) ++
      splitNtt q z half d (e / 2 + half) (List.zipWith (fun a b => (a + (q - r) * b) % q) lo hi)

/-- The inverse of the transform. -/
def joinNtt (q z half : Nat) : Nat → Nat → List Nat → List Nat
  | 0, _, f => f
  | d + 1, e, f =>
    let n := f.length / 2
    let a := joinNtt q z half d (e / 2) (f.take n)
    let b := joinNtt q z half d (e / 2 + half) (f.drop n)
    let i2 := (q + 1) / 2
    let ir := i2 * modInv (powBig z (e / 2) q) q % q
    List.zipWith (fun x y => (x + y) * i2 % q) a b ++ List.zipWith (fun x y => (x + q - y) * ir % q) a b

/-- The sum of two polynomials. -/
def polyAdd (q : Nat) (a b : List Nat) : List Nat := List.zipWith (fun x y => (x + y) % q) a b
/-- The difference of two polynomials. -/
def polySub (q : Nat) (a b : List Nat) : List Nat := List.zipWith (fun x y => (x + q - y) % q) a b
/-- The polynomial with every coefficient zero. -/
def polyZero : List Nat := List.replicate 256 0
/-- A residue from an integer. -/
def residue (q : Nat) (v : Int) : Nat := (v % (q : Int)).toNat
/-- The residue nearest to zero. -/
def dsaCentred (q v : Nat) : Int := if q / 2 < v then (v : Int) - q else v

/-- Bits of bytes, the lowest first. -/
def bytesBits (l : List Byte) : List Bool := l.flatMap (fun b => bitsLow 8 b.toNat)
/-- The number that bits spell, the lowest first. -/
def bitsNat : List Bool → Nat
  | [] => 0
  | b :: t => (if b then 1 else 0) + 2 * bitsNat t

/-- Numbers of `d` bits each packed into bytes. -/
def packBits (d : Nat) (l : List Nat) : List Byte :=
  let bits := l.flatMap (bitsLow d)
  (chunks 8 (bits.length / 8) bits).map (fun c => BitVec.ofNat 8 (bitsNat c))

/-- The numbers of `d` bits that bytes pack. -/
def unpackBits (d : Nat) (l : List Byte) : List Nat :=
  let bits := bytesBits l
  (chunks d (bits.length / d) bits).map bitsNat

/-- The first 256 candidates that pass, zero where the stream ends first. -/
def take256 (l : List Nat) : List Nat :=
  let t := l.take 256
  t ++ List.replicate (256 - t.length) 0

/-! ## ML-KEM-1024 -/

/-- The prime of ML-KEM. -/
def kemQ : Nat := 3329
/-- Its transform, which ends at remainders of degree 1. -/
def kemNtt (f : List Nat) : List Nat := splitNtt kemQ 17 128 7 128 f
/-- The inverse of its transform. -/
def kemInv (f : List Nat) : List Nat := joinNtt kemQ 17 128 7 128 f

/-- The exponents of the 128 quadratic factors in the transform's order. -/
def kemGammas : Nat → Nat → List Nat
  | 0, e => [e]
  | d + 1, e => kemGammas d (e / 2) ++ kemGammas d (e / 2 + 128)

/-- The product of two transforms. -/
def kemMul (a b : List Nat) : List Nat :=
  (List.zip (kemGammas 7 128) (List.zip (chunks 2 128 a) (chunks 2 128 b))).flatMap (fun e =>
    match e.2.1, e.2.2 with
    | [a0, a1], [b0, b1] => [(a0 * b0 + a1 * b1 % kemQ * powBig 17 e.1 kemQ) % kemQ, (a0 * b1 + a1 * b0) % kemQ]
    | _, _ => [0, 0])

/-- A uniform transform from a seed (SampleNTT). -/
def kemUniform (seed : List Byte) : List Nat :=
  take256 (((chunks 3 448 (shake128 seed 1344)).flatMap (fun c => [fieldOf c 0 3 % 4096, fieldOf c 0 3 / 4096])).filter (fun v => decide (v < kemQ)))

/-- A small polynomial from a seed and a number (SamplePolyCBD with η = 2). -/
def kemSmall (seed : List Byte) (n : Nat) : List Nat :=
  (unpackBits 4 (shake256 (seed ++ leBytes 1 n) 128)).map (fun v =>
    residue kemQ (((v % 2 + v / 2 % 2 : Nat) : Int) - ((v / 4 % 2 + v / 8 : Nat) : Int)))

/-- Row i of the matrix times a vector, in the transform; `tr` takes the transpose. -/
def kemRow (rho : List Byte) (tr : Bool) (v : List (List Nat)) (i : Nat) : List Nat :=
  v.zipIdx.foldl (fun acc e =>
    let seed := if tr then rho ++ leBytes 1 i ++ leBytes 1 e.2 else rho ++ leBytes 1 e.2 ++ leBytes 1 i
    polyAdd kemQ acc (kemMul (kemUniform seed) e.1)) polyZero

/-- Compression to d bits. -/
def kemCompress (d x : Nat) : Nat := (2 ^ (d + 1) * x + kemQ) / (2 * kemQ) % 2 ^ d
/-- Decompression from d bits. -/
def kemDecompress (d y : Nat) : Nat := (2 * kemQ * y + 2 ^ d) / 2 ^ (d + 1)

/-- The encapsulation key and the secret vector of the seed d (K-PKE.KeyGen). -/
def kemPair (d : List Byte) : List Byte × List (List Nat) :=
  let g := sha3x512 (d ++ [4])
  let rho := g.take 32
  let s := (List.range 4).map (fun i => kemNtt (kemSmall (g.drop 32) i))
  let t := (List.range 4).map (fun i => polyAdd kemQ (kemRow rho false s i) (kemNtt (kemSmall (g.drop 32) (4 + i))))
  (t.flatMap (packBits 12) ++ rho, s)

/-- K-PKE.Encrypt. -/
def kemEncrypt (ek m r : List Byte) : List Byte :=
  let t := chunks 256 4 ((unpackBits 12 (ek.take 1536)).map (· % kemQ))
  let rho := ek.drop 1536
  let y := (List.range 4).map (fun i => kemNtt (kemSmall r i))
  let u := (List.range 4).map (fun i => polyAdd kemQ (kemInv (kemRow rho true y i)) (kemSmall r (4 + i)))
  let ty := (List.zip t y).foldl (fun acc e => polyAdd kemQ acc (kemMul e.1 e.2)) polyZero
  let mu := (bytesBits m).map (fun b => if b then kemDecompress 1 1 else 0)
  let v := polyAdd kemQ (polyAdd kemQ (kemInv ty) (kemSmall r 8)) mu
  u.flatMap (fun f => packBits 11 (f.map (kemCompress 11))) ++ packBits 5 (v.map (kemCompress 5))

/-- K-PKE.Decrypt. -/
def kemDecrypt (s : List (List Nat)) (c : List Byte) : List Byte :=
  let u := chunks 256 4 ((unpackBits 11 (c.take 1408)).map (kemDecompress 11))
  let v := (unpackBits 5 (c.drop 1408)).map (kemDecompress 5)
  let su := (List.zip s u).foldl (fun acc e => polyAdd kemQ acc (kemMul e.1 (kemNtt e.2))) polyZero
  packBits 1 ((polySub kemQ v (kemInv su)).map (kemCompress 1))

/-- The encapsulation key of a stored seed d ‖ z. -/
def kemPublic (seed : List Byte) : List Byte := (kemPair (seed.take 32)).1

/-- The modulus check of FIPS 203 on an encapsulation key. -/
def kemKeyOk (ek : List Byte) : Bool := decide (ek.length = 1568) && (unpackBits 12 (ek.take 1536)).all (fun v => decide (v < kemQ))

/-- ML-KEM-1024 encapsulation with the random message m: the ciphertext and the shared secret. -/
def kemEncaps (ek m : List Byte) : List Byte × List Byte :=
  let g := sha3x512 (m ++ sha3x256 ek)
  (kemEncrypt ek m (g.drop 32), g.take 32)

/-- ML-KEM-1024 decapsulation with the stored seed d ‖ z: with the re-encryption check, a ciphertext that fails it gives the implicit secret. -/
def kemDecaps (seed c : List Byte) : List Byte :=
  let k := kemPair (seed.take 32)
  let m := kemDecrypt k.2 c
  let g := sha3x512 (m ++ sha3x256 k.1)
  if kemEncrypt k.1 m (g.drop 32) == c then g.take 32 else shake256 (seed.drop 32 ++ c) 32

/-! ## ML-DSA-87 -/

/-- The prime of ML-DSA. -/
def dsaQ : Nat := 8380417
/-- γ1. -/
def dsaG1 : Nat := 524288
/-- γ2. -/
def dsaG2 : Nat := 261888
/-- β = τ·η. -/
def dsaBeta : Nat := 120
/-- Its transform. -/
def dsaNtt (f : List Nat) : List Nat := splitNtt dsaQ 1753 256 8 256 f
/-- The inverse of its transform. -/
def dsaInv (f : List Nat) : List Nat := joinNtt dsaQ 1753 256 8 256 f
/-- The product of two transforms. -/
def dsaMul (a b : List Nat) : List Nat := List.zipWith (fun x y => x * y % dsaQ) a b

/-- A uniform transform from a seed (RejNTTPoly). -/
def dsaUniform (seed : List Byte) : List Nat :=
  take256 (((chunks 3 448 (shake128 seed 1344)).map (fun c => fieldOf c 0 3 % 2 ^ 23)).filter (fun v => decide (v < dsaQ)))

/-- A polynomial with coefficients of at most 2 in size (RejBoundedPoly with η = 2). -/
def dsaBounded (seed : List Byte) : List Nat :=
  take256 (((unpackBits 4 (shake256 seed 408)).filter (fun v => decide (v < 15))).map (fun v => residue dsaQ (2 - ((v % 5 : Nat) : Int))))

/-- The matrix of a seed times a vector, in the transform: eight rows of seven. -/
def dsaMatrix (rho : List Byte) (v : List (List Nat)) : List (List Nat) :=
  (List.range 8).map (fun r => v.zipIdx.foldl (fun acc e => polyAdd dsaQ acc (dsaMul (dsaUniform (rho ++ leBytes 1 e.2 ++ leBytes 1 r)) e.1)) polyZero)

/-- The remainder in (−a/2, a/2]. -/
def dsaMod (v a : Nat) : Int := if a / 2 < v % a then ((v % a : Nat) : Int) - a else ((v % a : Nat) : Int)

/-- Decompose: the high and the low part. -/
def dsaDecompose (r : Nat) : Nat × Int :=
  let r0 := dsaMod r (2 * dsaG2)
  if (r : Int) - r0 = dsaQ - 1 then (0, r0 - 1) else ((((r : Int) - r0) / (2 * dsaG2)).toNat, r0)

/-- Power2Round: the high part, and the low part as a residue. -/
def dsaRound (r : Nat) : Nat × Nat :=
  let r0 := dsaMod r 8192
  ((((r : Int) - r0) / 8192).toNat, residue dsaQ r0)

/-- A polynomial has a coefficient of at least a bound in size. -/
def dsaExceeds (f : List Nat) (bound : Nat) : Bool := f.any (fun v => decide (bound ≤ (dsaCentred dsaQ v).natAbs))

/-- The challenge polynomial of a hash (SampleInBall with τ = 60). -/
def dsaBall (c : List Byte) : List Nat :=
  let s := shake256 c 1096
  let signs := bytesBits (s.take 8)
  ((List.range 60).foldl (fun (a : List Nat × List Byte) k =>
    let i := 196 + k
    let rest := a.2.dropWhile (fun b => decide (i < b.toNat))
    let j := (rest.headD 0).toNat
    ((a.1.set i (a.1.getD j 0)).set j (if signs.getD k false then dsaQ - 1 else 1), rest.tail)) (polyZero, s.drop 8)).1

/-- The parts of a key pair that the seed ξ gives (ML-DSA.KeyGen_internal). -/
structure DsaKey where
  rho : List Byte
  k : List Byte
  s1 : List (List Nat)
  s2 : List (List Nat)
  t1 : List (List Nat)
  t0 : List (List Nat)

/-- The key pair of a seed. -/
def dsaKey (xi : List Byte) : DsaKey :=
  let h := shake256 (xi ++ [8, 7]) 128
  let rho := h.take 32
  let rp := (h.drop 32).take 64
  let s1 := (List.range 7).map (fun r => dsaBounded (rp ++ leBytes 2 r))
  let s2 := (List.range 8).map (fun r => dsaBounded (rp ++ leBytes 2 (r + 7)))
  let t := List.zipWith (fun a b => polyAdd dsaQ (dsaInv a) b) (dsaMatrix rho (s1.map dsaNtt)) s2
  { rho := rho, k := h.drop 96, s1 := s1, s2 := s2, t1 := t.map (fun f => f.map (fun v => (dsaRound v).1)), t0 := t.map (fun f => f.map (fun v => (dsaRound v).2)) }

/-- The encoding of the public key. -/
def DsaKey.pk (x : DsaKey) : List Byte := x.rho ++ x.t1.flatMap (packBits 10)

/-- The public key of a seed. -/
def dsaPublic (xi : List Byte) : List Byte := (dsaKey xi).pk

/-- The hints, packed in 75 + 8 bytes. -/
def hintPack (h : List (List Bool)) : List Byte :=
  let pos := h.map (fun f => (f.zipIdx.filter (·.1)).map (fun e => BitVec.ofNat 8 e.2))
  let ends := (List.range 8).map (fun i => BitVec.ofNat 8 ((pos.take (i + 1)).map List.length).sum)
  sliceZ pos.flatten 0 75 ++ ends

/-- Numbers rise strictly. -/
def risingNat : List Nat → Bool
  | a :: b :: t => decide (a < b) && risingNat (b :: t)
  | _ => true

/-- The hints of packed bytes, or none where the packing is not the canonical one. -/
def hintUnpack (y : List Byte) : Option (List (List Bool)) :=
  let ends := 0 :: (y.drop 75).map BitVec.toNat
  let ok := (List.range 8).all (fun i => decide (ends.getD i 0 ≤ ends.getD (i + 1) 0) && decide (ends.getD (i + 1) 0 ≤ 75))
  let run (i : Nat) : List Nat := (((y.take 75).drop (ends.getD i 0)).take (ends.getD (i + 1) 0 - ends.getD i 0)).map BitVec.toNat
  if y.length = 83 && ok && (List.range 8).all (fun i => risingNat (run i)) && ((y.take 75).drop (ends.getD 8 0)).all (· == 0) then
    some ((List.range 8).map (fun i => (List.range 256).map (fun j => (run i).contains j)))
  else none

/-- The bits of the high parts, for the challenge hash. -/
def dsaHigh (w : List (List Nat)) : List Byte := w.flatMap (packBits 4)

/-- One attempt at a signature with the counter κ, or none where it is rejected. -/
def dsaAttempt (x : DsaKey) (mu rpp : List Byte) (kappa : Nat) : Option (List Byte) :=
  let y := (List.range 7).map (fun r => (unpackBits 20 (shake256 (rpp ++ leBytes 2 (kappa + r)) 640)).map (fun (v : Nat) => residue dsaQ ((dsaG1 : Int) - v)))
  let w := (dsaMatrix x.rho (y.map dsaNtt)).map dsaInv
  let ct := shake256 (mu ++ dsaHigh (w.map (fun f => f.map (fun v => (dsaDecompose v).1)))) 64
  let c := dsaNtt (dsaBall ct)
  let times (f : List Nat) : List Nat := dsaInv (dsaMul c (dsaNtt f))
  let z := List.zipWith (fun a b => polyAdd dsaQ a (times b)) y x.s1
  let wc := List.zipWith (fun a b => polySub dsaQ a (times b)) w x.s2
  if z.any (fun f => dsaExceeds f (dsaG1 - dsaBeta)) || wc.any (fun f => f.any (fun v => decide (dsaG2 - dsaBeta ≤ (dsaDecompose v).2.natAbs))) then none
  else
    let ct0 := x.t0.map times
    let h := List.zipWith (fun a b => List.zipWith (fun u v => (dsaDecompose ((u + v) % dsaQ)).1 != (dsaDecompose u).1) a b) wc ct0
    if ct0.any (fun f => dsaExceeds f dsaG2) || decide (75 < (h.map (fun f => f.countP id)).sum) then none
    else some (ct ++ z.flatMap (fun f => packBits 20 (f.map (fun v => ((dsaG1 : Int) - dsaCentred dsaQ v).toNat))) ++ hintPack h)

/-- Attempts from a counter on. -/
def dsaLoop (x : DsaKey) (mu rpp : List Byte) : Nat → Nat → Option (List Byte)
  | 0, _ => none
  | n + 1, kappa => match dsaAttempt x mu rpp kappa with | some s => some s | none => dsaLoop x mu rpp n (kappa + 7)

/-- The message representative with its context (FIPS 204, 5.2). -/
def dsaMessage (ctx msg : List Byte) : List Byte := [0] ++ leBytes 1 ctx.length ++ ctx ++ msg

/-- An ML-DSA-87 signature of a message under a context, hedged with 32 random bytes; none after 512 iterations (R375). -/
def dsaSign (xi ctx msg rnd : List Byte) : Option (List Byte) :=
  let x := dsaKey xi
  let mu := shake256 (shake256 x.pk 64 ++ dsaMessage ctx msg) 64
  dsaLoop x mu (shake256 (x.k ++ rnd ++ mu) 64) 512 0

/-- UseHint. -/
def dsaUseHint (h : Bool) (r : Nat) : Nat :=
  let d := dsaDecompose r
  if !h then d.1 else if 0 < d.2 then (d.1 + 1) % 16 else (d.1 + 15) % 16

/-- An ML-DSA-87 signature is valid (FIPS 204, Algorithm 8). -/
def dsaVerify (pk ctx msg sig : List Byte) : Bool :=
  let rho := pk.take 32
  let t1 := chunks 256 8 (unpackBits 10 (pk.drop 32))
  let ct := sig.take 64
  let z := chunks 256 7 ((unpackBits 20 ((sig.drop 64).take 4480)).map (fun (v : Nat) => residue dsaQ ((dsaG1 : Int) - v)))
  match hintUnpack (sig.drop 4544) with
  | none => false
  | some h =>
    if pk.length ≠ 2592 || sig.length ≠ 4627 || z.any (fun f => dsaExceeds f (dsaG1 - dsaBeta)) then false
    else
      let mu := shake256 (shake256 pk 64 ++ dsaMessage ctx msg) 64
      let c := dsaNtt (dsaBall ct)
      let az := dsaMatrix rho (z.map dsaNtt)
      let w := List.zipWith (fun a t => dsaInv (polySub dsaQ a (dsaMul c (dsaNtt (t.map (fun v => v * 8192 % dsaQ)))))) az t1
      let w1 := List.zipWith (fun hs f => List.zipWith dsaUseHint hs f) h w
      shake256 (mu ++ dsaHigh w1) 64 == ct

end Sys2Proof.Machine
end

