-- ==== Sys2Proof/Machine/Security.lean ====
section
/-! DEFINITION. SECURITY_OP (15): the cupboard, its checks, and one meaning for each operation of the table of R368. -/

namespace Sys2Proof.Machine

/-! ## The request (R366, R368) -/

/-- OP of a SECURITY_OP request. -/
def Req.secOp (q : Req) : Nat := q.field 0 2
/-- CUPBOARD_ENTRY. -/
def Req.entryIx (q : Req) : Nat := q.field 2 2
/-- HANDLE, 0 for inline. -/
def Req.handle (q : Req) : Nat := q.field 4 2
/-- IN_OFFSET. -/
def Req.inOff (q : Req) : Nat := q.field 8 8
/-- IN_BYTES. -/
def Req.inBytes (q : Req) : Nat := q.field 16 4
/-- OUT_OFFSET. -/
def Req.outOff (q : Req) : Nat := q.field 24 8
/-- A field of PARAMS. -/
def Req.param (q : Req) (off n : Nat) : Nat := q.field (32 + off) n

/-- The request is the security operation of an OP. -/
def isSec (op : Nat) (q : Req) : Bool := q.op == 0x0701 && q.secOp == op

/-- What an operation of the table asks for: which entry types with which usage bit, DEST, and randomness (R368, R384). -/
structure SecRow where
  op : Nat
  /-- Entry types, none where no entry is needed. -/
  types : List Nat
  usage : Nat := 0
  dest : Bool := false
  drbg : Bool := false
  /-- It runs on its partition channel; otherwise on a privileged or a maker one (R365). -/
  own : Bool := true
deriving DecidableEq, Repr

/-- The asymmetric entry types of R370. -/
def asymTypes : List Nat := [0x10, 0x11, 0x12, 0x20, 0x21, 0x30, 0x31]
/-- Every entry type of R370. -/
def entryTypes : List Nat := [0x01, 0x02, 0x03] ++ asymTypes

/-- The table of R368. -/
def secTable : List SecRow :=
  [{ op := 0x0001, types := [], drbg := true }, { op := 0x0010, types := [] }, { op := 0x0011, types := [] }, { op := 0x0012, types := [] },
   { op := 0x0013, types := [] }, { op := 0x0018, types := [0x02, 0x03], usage := 16 }, { op := 0x0019, types := [0x02, 0x03], usage := 16 },
   { op := 0x001A, types := [0x02, 0x03], usage := 16 }, { op := 0x0020, types := [0x01, 0x03], usage := 4 },
   { op := 0x0030, types := [0x10], usage := 1, drbg := true }, { op := 0x0031, types := [0x11], usage := 1, drbg := true },
   { op := 0x0032, types := [] }, { op := 0x0033, types := [] }, { op := 0x0034, types := [0x12], usage := 1, drbg := true }] ++
  [{ op := 0x0035, types := [] }, { op := 0x0036, types := [0x20], usage := 1, drbg := true },
   { op := 0x0037, types := [0x21], usage := 1, drbg := true }, { op := 0x0038, types := [] }, { op := 0x0039, types := [] },
   { op := 0x0040, types := [0x31], usage := 1, drbg := true }, { op := 0x0041, types := [] },
   { op := 0x0050, types := [0x10], usage := 2, dest := true, drbg := true }, { op := 0x0051, types := [0x11], usage := 2, dest := true, drbg := true },
   { op := 0x0052, types := [], dest := true, drbg := true }, { op := 0x0053, types := [0x30], usage := 2, dest := true, drbg := true },
   { op := 0x0060, types := [], dest := true, drbg := true }, { op := 0x0061, types := asymTypes }, { op := 0x0062, types := entryTypes },
   { op := 0x0063, types := [0x01, 0x03], usage := 8, dest := true, own := false }]

/-- The row of an OP; a microcode program's is its own (R383). -/
def secRow (op : Nat) : Option SecRow :=
  if 0x0100 ≤ op && op ≤ 0x010F then some { op := op, types := [], own := false } else secTable.find? (fun r => r.op == op)

/-! ## The cupboard (R369, R370) -/

/-- An entry of a partition by its local index. -/
def State.entryAt (s : State) (p i : Nat) : Option CupEntry := Tab.get none s.sec.entries (cupKey p i)
/-- The state with an entry replaced or cleared. -/
def State.setEntry (s : State) (p i : Nat) (e : Option CupEntry) : State :=
  { s with sec := { s.sec with entries := Tab.set none s.sec.entries (cupKey p i) e } }

/-- The stored bytes that a type allows (R370). -/
def storedOk (type n : Nat) : Bool :=
  match type with
  | 0x01 => n == 32 | 0x02 => decide (32 ≤ n) && decide (n ≤ 128) | 0x03 => n == 32 || n == 48 | 0x10 => n == 32 | 0x11 => n == 48
  | 0x12 => n == 32 | 0x20 => n == 964 | 0x21 => n == 1284 | 0x30 => n == 64 | 0x31 => n == 32 | _ => false

/-- The usage bits that a type allows, by its stored bytes (R370). -/
def usageAllowed (type n : Nat) : Nat :=
  match type with
  | 0x01 => 12 | 0x02 => 16 | 0x03 => if n = 32 then 28 else 16 | 0x10 => 3 | 0x11 => 3 | 0x12 => 1 | 0x20 => 1 | 0x21 => 1
  | 0x30 => 2 | 0x31 => 1 | _ => 0

/-- A USAGE has only bits that the type allows. -/
def usageOk (type n usage : Nat) : Bool := usage &&& (255 - usageAllowed type n) == 0

/-- An entry may serve an operation: its type and usage; AES-256-CTR and UNWRAP take a SHARED secret of 32 bytes only. A broken entry accepts only DESTROY
(R372). -/
def SecRow.entryOk (r : SecRow) (e : CupEntry) : Bool :=
  r.types.contains e.type_ && (r.usage == 0 || e.usage.toNat &&& r.usage != 0) && (r.op == 0x0062 || !e.broken) &&
    (e.type_ != 0x03 || (r.usage != 4 && r.usage != 8) || e.material.length == 32)

/-- The type that DEST gets, and the bytes that USAGE is judged by: those of the type, and for an HMAC key LENGTH. -/
def Req.destType (q : Req) : Nat × Nat :=
  match q.secOp with
  | 0x0050 => (0x03, 32) | 0x0051 => (0x03, 48) | 0x0052 => (0x03, 32) | 0x0053 => (0x03, 32)
  | 0x0060 =>
    (q.param 2 1, match q.param 2 1 with | 0x02 => q.param 4 1 | 0x11 => 48 | 0x30 => 64 | _ => 32)
  | _ => (q.param 2 1, match q.param 2 1 with | 0x11 => 48 | 0x20 => 964 | 0x21 => 1284 | 0x30 => 64 | _ => 32)

/-- An operation may create an entry of a type (R370). -/
def mayCreate (op type : Nat) : Bool :=
  match op with
  | 0x0060 => [0x01, 0x02, 0x10, 0x11, 0x12, 0x30, 0x31].contains type
  | 0x0063 => ([0x01, 0x02] ++ asymTypes).contains type
  | _ => type == 0x03

/-- The lengths of input that an operation takes (R368). -/
def inputOk (op n : Nat) : Bool :=
  match op with
  | 0x0030 => n == 32 | 0x0031 => n == 48 | 0x0032 => n == 65 + 32 + 64 | 0x0033 => n == 97 + 48 + 96 | 0x0035 => decide (96 ≤ n)
  | 0x0036 => n == 48 | 0x0037 => n == 48 | 0x0038 => n == 384 + 4 + 48 + 384 | 0x0039 => n == 512 + 4 + 48 + 512
  | 0x0041 => decide (2592 + 4627 ≤ n) | 0x0050 => n == 65 | 0x0051 => n == 97 | 0x0052 => n == 1568 | 0x0053 => n == 1568 | _ => true

/-- The bytes of output of an operation (R368): what has to fit before any unit runs. -/
def outputLen (op inBytes length keyType : Nat) : Nat :=
  match op with
  | 0x0001 => length | 0x0010 => 32 | 0x0011 => 48 | 0x0012 => 64 | 0x0013 => 32 | 0x0018 => 32 | 0x0019 => 48 | 0x001A => 64
  | 0x0020 => inBytes | 0x0030 => 64 | 0x0031 => 96 | 0x0032 => 1 | 0x0033 => 1 | 0x0034 => 64 | 0x0035 => 1 | 0x0036 => 384 | 0x0037 => 512
  | 0x0038 => 1 | 0x0039 => 1 | 0x0040 => 4627 | 0x0041 => 1 | 0x0052 => 1568
  | 0x0060 => (match keyType with | 0x10 => 65 | 0x11 => 97 | 0x12 => 32 | 0x30 => 1568 | 0x31 => 2592 | _ => 0)
  | 0x0061 => (match keyType with | 0x10 => 65 | 0x11 => 97 | 0x12 => 32 | 0x20 => 388 | 0x21 => 516 | 0x30 => 1568 | 0x31 => 2592 | _ => 0)
  | _ => 0

/-- PARAMS fields of an operation are in range (R368). -/
def paramsOk (q : Req) : Bool :=
  match q.secOp with
  | 0x0001 => 1 ≤ q.param 0 4 && q.param 0 4 ≤ 2 ^ 20
  | 0x0040 => q.param 0 1 ≤ 31
  | 0x0041 => q.param 0 1 ≤ 31
  | _ => true

/-- The type that decides an operation's output length. -/
def State.keyTypeOf (s : State) (p : Nat) (q : Req) : Nat :=
  if q.secOp = 0x0060 then q.param 2 1 else match s.entryAt p q.entryIx with | some e => e.type_ | none => 0

/-- The host side of a request fits: inline input at most 416 bytes and output at most 448, or ranges of the buffer with their permissions (R366). -/
def State.buffersOk (s : State) (f : Nat) (q : Req) (out : Nat) : Bool :=
  if q.handle = 0 then decide (q.inBytes ≤ 416) && decide (out ≤ 448)
  else (s.hostRange f q.handle q.inOff q.inBytes false).isSome && (out == 0 || (s.hostRange f q.handle q.outOff out true).isSome)

/-- A DEST entry is free and may be created (R369, R370). -/
def State.destOk (s : State) (p : Nat) (q : Req) : Bool :=
  let d := q.param 0 2
  decide (d < (s.part p).quota) && (s.entryAt p d).isNone && mayCreate q.secOp q.destType.1 && storedOk q.destType.1 q.destType.2 &&
    usageOk q.destType.1 q.destType.2 (q.param 3 1)

/-- Another command uses an entry: a context works under it, or a command of the function that runs or waits names it (R384). -/
def State.entryInUse (s : State) (f i k : Nat) : Bool :=
  (List.range 8).any (fun j =>
    let x := (s.fn f).slot j
    let q := x.req
    j != k && x.state == .running && q.op == 0x0701 && q.entryIx == i &&
      (match secRow q.secOp with | some r => !r.types.isEmpty | none => false))

/-- A microcode request keeps to its partition's entries (R365) and, where it names a host buffer, to one that the module may write (R366): entry 0 stands for
none in use. -/
def State.microFits (s : State) (f p : Nat) (q : Req) : Bool :=
  (q.entryIx == 0 || decide (q.entryIx < (s.part p).quota)) &&
    (q.handle == 0 || (match s.hostBuf f q.handle with | some b => b.canWrite && decide (q.outOff ≤ b.bytes) | none => false))

/-- The checks of a SECURITY_OP in slot k of function f (R364 to R370, R384). -/
def checkSecurity (s : State) (f k : Nat) (q : Req) : Nat :=
  let p := f - 1
  match secRow q.secOp with
  | none => stBadArgument
  | some r =>
    let micro := decide (0x0100 ≤ q.secOp)
    let entryBad := !r.types.isEmpty && (decide ((s.part p).quota ≤ q.entryIx) ||
      (match s.entryAt p q.entryIx with | some e => !r.entryOk e | none => true))
    if (micro && (!s.sec.microcode.contains (q.secOp - 0x0100) || !s.microFits f p q)) || entryBad || !inputOk q.secOp q.inBytes || !paramsOk q || (r.dest && !s.destOk p q) ||
        !s.buffersOk f q (outputLen q.secOp q.inBytes (q.param 0 4) (s.keyTypeOf p q)) then stBadArgument
    else if q.secOp = 0x0062 && s.entryInUse f q.entryIx k then stBusy
    else stOk

/-! ## How an operation runs -/

/-- What an operation gives: output bytes, an entry for DEST, whether the entry it names is cleared, and a status other than OK with the code of a security
event, if any. -/
structure SecOut where
  out : List Byte := []
  dest : Option CupEntry := none
  clears : Bool := false
  status : Nat := 0
  event : Nat := 0
  wher : Nat := 0

/-- The input of a request: inline, or what the module reads from the host buffer. -/
def Req.input (q : Req) (hostIn : List Byte) : List Byte := if q.handle = 0 then sliceZ (q.body.drop 64) 0 q.inBytes else sliceZ hostIn 0 q.inBytes

/-- The response of R366: OUT_BYTES, and inline output from byte 32. -/
def secResponse (q : Req) (out : List Byte) : List Byte :=
  leBytes 4 out.length ++ (if q.handle = 0 && !out.isEmpty then List.replicate 28 0 ++ out else [])

/-- A security operation ends: its output goes to the response or the host buffer, and its channel's completion source is raised (R342). -/
def State.secDone (s : State) (f : Nat) (q : Req) (sc : Nat) (out : List Byte) : State :=
  let t := { s with sec := { s.sec with idleSince := s.now } }.raise (128 + sc)
  if q.handle = 0 || out.isEmpty then t
  else match s.hostRange f q.handle q.outOff out.length true with
    | some a => t.emit (.hostWrite f a out)
    | none => t

/-- An event of the engine is counted and entered in the ledger (R372, R376). -/
def State.secEvent (s : State) (code p sc wher : Nat) : State :=
  let t := { s with sec := { s.sec with errors := satInc s.sec.errors } }.note .security code
  t.record { t.entry code (ledgerClass 1 0 false false false) 255 sc wher with part := p }

/-- PROG_TOTAL (R366). -/
def Req.progTotal (q : Req) : Nat := ceilDiv q.inBytes 4096

/-- A command on the partition channel waits behind an earlier one (R365). -/
def State.secBehind (s : State) (f k : Nat) : Bool :=
  (List.range 8).any (fun j =>
    let x := (s.fn f).slot j
    let q := x.req
    j != k && x.state == .running && q.op == 0x0701 && decide (x.order < ((s.fn f).slot k).order) &&
      (match secRow q.secOp with | some r => r.own | none => false))

/-- The entry that an operation uses, its tag checked (R372): a mismatch marks it broken. -/
def State.secEntry (s : State) (p : Nat) (r : SecRow) (q : Req) : Option CupEntry := if r.types.isEmpty then none else s.entryAt p q.entryIx

/-- An operation whose entry's tag mismatches (R372). -/
def State.tagMismatch (s : State) (p sc i : Nat) (e : CupEntry) : State := (s.setEntry p i (some { e with broken := true })).secEvent 0x0032 p sc i

/-- The channel of an operation of a function (R365): its partition channel, or the first privileged or maker channel, which is free since operations there
run whole. -/
def secChannel (f : Nat) (op : Nat) : Nat := if op = 0x0063 then 24 else if 0x0100 ≤ op then 28 else f - 1

/-! ## Working memory (R363, R377) -/

/-- An operation or a microcode program starts: every written bit is cleared. -/
def WorkMem.begin (x : WorkMem) : WorkMem := { x with written := [] }

/-- A word is written: its written bit is set. Working memory holds 65,536 words of 32 bits (DESIGN CHOICE, log 71). -/
def WorkMem.write (x : WorkMem) (w : Nat) (v : Word) : WorkMem :=
  { words := Tab.set 0 x.words (w % 65536) v, written := if x.written.contains (w % 65536) then x.written else (w % 65536) :: x.written }

/-- A word that the operation has not written reads as zero. -/
def WorkMem.read (x : WorkMem) (w : Nat) : Word := if x.written.contains (w % 65536) then Tab.get 0 x.words (w % 65536) else 0

/-- An operation starts and leaves in working memory what it wrote, which the spec does not state (free values, log 71). -/
def State.useWork (s : State) : State :=
  { s with sec := { s.sec with work := (Config.workWrites s.free).foldl (fun x e => x.write e.1 e.2) s.sec.work.begin } }

/-- The bytes that an operation draws from the DRBG: RANDOM its LENGTH, any other a number that R373 leaves open (log 3). -/
def secDrawn (op : Nat) (q : Req) (s : State) : Nat := if op = 0x0001 then q.param 0 4 else Config.drbgDrawn s.free

/-- An operation meets the parity errors held (R384): each is counted; with one the engine runs the operation again from its start, and a second one, which
fails it, enters the engine's history (R456). -/
def State.meetUpsets (s : State) : State :=
  let hits := min 2 s.sec.upsets
  let t := { s with sec := { s.sec with upsets := s.sec.upsets - hits, errors := (List.range hits).foldl (fun n _ => satInc n) s.sec.errors } }
  if hits = 2 then t.note .security 0 else t

/-- The shared course of a security operation in a slot (R364 to R372, R384, R462): a retired engine fails it; behind another command of its channel, with
the engine's domain off, or without the randomness it needs it waits; otherwise `body` computes it from the entry and the input, and `fresh` random blocks. -/
def State.secRun (s : State) (f : FnId) (slot : SlotId) (op : Nat) (hostIn : List Byte)
    (body : State → Req → Option CupEntry → List Byte → DrbgRun → SecOut) : State :=
  s.runCmd f slot (isSec op) (fun q =>
    let p := f.val - 1
    let r := (secRow op).getD { op := op, types := [] }
    let sc := secChannel f op
    if f.val = 0 then .fail s stBadOpcode
    else if s.sec.retired then .fail s stFailed
    else if r.own && s.secBehind f slot then .waits s
    else if s.domain 118 ≠ .on then .waits (s.wakeDomain 118)
    else if checkSecurity s f slot q ≠ stOk then .fail s (checkSecurity s f slot q)
    else if r.drbg && s.sec.drbg ≠ .running then .waits s
    else
      let e := s.secEntry p r q
      let t := (if r.drbg then s.useWork.generate (secDrawn op q s) else s.useWork).draw 1
      let stop (u : State) (status : Nat) : CmdEnd :=
        .ended (u.secDone f q sc []) status (secResponse q []) (progressPosition q.progTotal) q.progTotal
      match e, (match e with | some x => !x.tagOk && op != 0x0062 | none => false) with
      | some x, true => .ended ((s.tagMismatch p sc q.entryIx x).secDone f q sc []) stFailed (secResponse q []) (progressPosition 0) q.progTotal
      | _, _ =>
        let o := body s q e (q.input hostIn) s.rnd
        let m := t.meetUpsets
        if 2 ≤ s.sec.upsets then stop m stFailed
        else if o.status ≠ stOk then stop (if o.event ≠ 0 then m.secEvent o.event p sc o.wher else m) o.status
        else
          let t1 := if o.clears then m.setEntry p q.entryIx none else m
          let u := match o.dest with | some d => t1.setEntry p (q.param 0 2) (some d) | none => t1
          .ended (u.secDone f q sc o.out) stOk (secResponse q o.out) (progressPosition q.progTotal) q.progTotal)

/-- A result whose check before release fails (R376). -/
def SecOut.check (op : Nat) (ok : Bool) (o : SecOut) : SecOut := if ok then o else { status := stFailed, event := 0x0033, wher := op }

/-- The RESULT byte of a verify. -/
def SecOut.result (ok : Bool) : SecOut := { out := [if ok then 1 else 0] }

/-- The stored material of an entry. -/
def materialOf (e : Option CupEntry) : List Byte := match e with | some x => x.material | none => []

/-! ## RANDOM, hashes, HMAC and AES-256-CTR (R368, R378, R379) -/

/-- SECURITY_RANDOM (R368). -/
def execSecurityRandom (f : FnId) (slot : SlotId) (s : State) : Host.Outcome State Fault Refusal :=
  .next (s.secRun f slot 0x0001 [] (fun _ q _ _ g => { out := drbgBytes g (q.param 0 4) }))

/-- The block of a hash in bytes, and its least padding. -/
def hashBlock (op : Nat) : Nat × Nat :=
  match op with
  | 0x0010 => (64, 9) | 0x0018 => (64, 9) | 0x0013 => (136, 1) | _ => (128, 17)

/-- Chunks of a message (R379): a message of whole blocks ends with a padding-only chunk. -/
def hashChunks (op n : Nat) : Nat := if n % (hashBlock op).1 = 0 then ceilDiv n 4096 + 1 else ceilDiv n 4096

/-- SCLK per block of a hash (R375). -/
def hashCost (op : Nat) : Nat :=
  match op with
  | 0x0010 => 68 | 0x0018 => 68 | 0x0013 => 28 | _ => 88

/-- Blocks of a hash complete after some bytes of its message. -/
def HashCtx.blocksAt (x : HashCtx) (chunk : Nat) : Nat :=
  let b := hashBlock x.op
  if x.chunks ≤ chunk then ceilDiv (x.data.length + b.2) b.1 else min x.data.length (4096 * chunk) / b.1

/-- SCLK of the next chunk (R375): a hash by its blocks, HMAC with three more at its end, AES-256-CTR 512 per 4 KiB. -/
def HashCtx.sclk (x : HashCtx) : Nat :=
  if x.aes then ceilDiv (min 4096 (x.data.length - 4096 * x.done)) 8
  else hashCost x.op * (x.blocksAt (x.done + 1) - x.blocksAt x.done + (if 0x0018 ≤ x.op && x.done + 1 = x.chunks then 3 else 0))

/-- The output of a context. -/
def HashCtx.output (x : HashCtx) : List Byte :=
  match x.op with
  | 0x0010 => sha256 x.data | 0x0011 => sha384 x.data | 0x0012 => sha512 x.data | 0x0013 => sha3x256 x.data
  | 0x0018 => hmac256 x.key x.data | 0x0019 => hmac384 x.key x.data | 0x001A => hmac512 x.key x.data
  | _ => aesCtr x.key x.iv x.data

/-- A hash, HMAC or AES-256-CTR operation joins its unit's waiting channels with its whole input; HASH_CHUNK_GRANT takes it through its chunks and ends it. -/
def State.chunkedRun (s : State) (f : FnId) (slot : SlotId) (op : Nat) (hostIn : List Byte) : State :=
  s.runCmd f slot (isSec op) (fun q =>
    let p := f.val - 1
    let r := (secRow op).getD { op := op, types := [] }
    if f.val = 0 then .fail s stBadOpcode
    else if s.sec.retired then .fail s stFailed
    else if (Tab.get none s.sec.hash p).isSome || s.secBehind f slot then .waits s
    else if s.domain 118 ≠ .on then .waits (s.wakeDomain 118)
    else if checkSecurity s f slot q ≠ stOk then .fail s (checkSecurity s f slot q)
    else
      let e := s.secEntry p r q
      match e, (match e with | some x => !x.tagOk | none => false) with
      | some x, true => .ended ((s.tagMismatch p p q.entryIx x).secDone f q p []) stFailed (secResponse q []) (progressPosition 0) q.progTotal
      | _, _ =>
        let aes := op == 0x0020
        let c : HashCtx := {
          fn := f.val, slot := slot.val, aes := aes, op := op, data := q.input hostIn, key := materialOf e, iv := beNat ((q.body.drop 32).take 16)
          chunks := if aes then max 1 (ceilDiv q.inBytes 4096) else hashChunks op q.inBytes }
        let t := s.useWork.draw 1
        .waits { t with sec := { t.sec with hash := Tab.set none t.sec.hash p (some c) } })

/-- SHA_256 (R368). -/
def execSha256 (f : FnId) (slot : SlotId) (hostIn : List Byte) (s : State) : Host.Outcome State Fault Refusal := .next (s.chunkedRun f slot 0x0010 hostIn)
/-- SHA_384 (R368). -/
def execSha384 (f : FnId) (slot : SlotId) (hostIn : List Byte) (s : State) : Host.Outcome State Fault Refusal := .next (s.chunkedRun f slot 0x0011 hostIn)
/-- SHA_512 (R368). -/
def execSha512 (f : FnId) (slot : SlotId) (hostIn : List Byte) (s : State) : Host.Outcome State Fault Refusal := .next (s.chunkedRun f slot 0x0012 hostIn)
/-- SHA3_256 (R368). -/
def execSha3x256 (f : FnId) (slot : SlotId) (hostIn : List Byte) (s : State) : Host.Outcome State Fault Refusal := .next (s.chunkedRun f slot 0x0013 hostIn)
/-- HMAC_SHA_256 (R368). -/
def execHmacSha256 (f : FnId) (slot : SlotId) (hostIn : List Byte) (s : State) : Host.Outcome State Fault Refusal := .next (s.chunkedRun f slot 0x0018 hostIn)
/-- HMAC_SHA_384 (R368). -/
def execHmacSha384 (f : FnId) (slot : SlotId) (hostIn : List Byte) (s : State) : Host.Outcome State Fault Refusal := .next (s.chunkedRun f slot 0x0019 hostIn)
/-- HMAC_SHA_512 (R368). -/
def execHmacSha512 (f : FnId) (slot : SlotId) (hostIn : List Byte) (s : State) : Host.Outcome State Fault Refusal := .next (s.chunkedRun f slot 0x001A hostIn)
/-- AES_256_CTR (R368). -/
def execAes256Ctr (f : FnId) (slot : SlotId) (hostIn : List Byte) (s : State) : Host.Outcome State Fault Refusal := .next (s.chunkedRun f slot 0x0020 hostIn)

/-- The channel that a unit serves next: round-robin from the one after the last (R24, R378). -/
def Security.nextChannel (x : Security) (aes : Bool) : Option Nat :=
  let l := (x.hash.filter (fun e => match e.2 with | some c => c.aes == aes | none => false)).map (·.1)
  match if aes then x.aesLast else x.hashLast with
  | some k => match l.find? (fun c => decide (k < c)) with | some c => some c | none => l.head?
  | none => l.head?

/-- A unit's clock after a grant: 64 SCLK for a switch of channel (R379). -/
def Security.charge (x : Security) (aes : Bool) (sc sclk : Nat) : Security :=
  let switch (last : Option Nat) : Nat := match last with | some k => if k = sc then 0 else 64 | none => 0
  if aes then { x with aesSclk := x.aesSclk + sclk + switch x.aesLast, aesLast := some sc }
  else { x with hashSclk := x.hashSclk + sclk + switch x.hashLast, hashLast := some sc }

/-- HASH_CHUNK_GRANT (R378, R379): the HASH unit, or with `aes` the AES unit, runs one chunk of the next channel that waits for it. The last chunk gives the
output and ends the command. A parity error starts the operation over, and a second one fails it (R384). -/
def execHashChunkGrant (aes : Bool) (s : State) : Host.Outcome State Fault Refusal :=
  .next
    (match s.sec.nextChannel aes with
    | none => s
    | some sc =>
      match Tab.get none s.sec.hash sc with
      | none => s
      | some c =>
        let x := s.sec.charge aes sc c.sclk
        let q := ((s.fn c.fn).slot c.slot).req
        let mark := max c.mark (c.done + 1)
        let at_ := progressPosition (min mark q.progTotal)
        if x.upsets ≠ 0 then
          let y := { x with upsets := x.upsets - 1, errors := satInc x.errors, idleSince := s.now }
          if c.reran then
            ((({ s with sec := { y with hash := Tab.set none x.hash sc none } }).note .security 0).secDone c.fn q sc []).endWaiting c.fn c.slot (isOp 0x0701)
              stFailed at_ q.progTotal (secResponse q [])
          else { s with sec := { y with hash := Tab.set none x.hash sc (some { c with done := 0, mark := mark, reran := true }) } }
        else if c.done + 1 < c.chunks then
          let t := { s with sec := { x with hash := Tab.set none x.hash sc (some { c with done := c.done + 1, mark := mark }), idleSince := s.now } }
          let y := (t.fn c.fn).slot c.slot
          if y.state = .running && isOp 0x0701 y.req then t.setSlot c.fn c.slot ((y.putRun 20 (leBytes 4 at_)).putRun 24 (leBytes 4 q.progTotal)) else t
        else
          let t := { s with sec := { x with hash := Tab.set none x.hash sc none, idleSince := s.now } }
          (t.secDone c.fn q sc c.output).endWaiting c.fn c.slot (isOp 0x0701) stOk (progressPosition q.progTotal) q.progTotal (secResponse q c.output))

/-! ## Signatures (R368, R376) -/

/-- An ECDSA signature with a fresh nonce, checked before release. -/
def ecdsaSign (c : Curve) (op : Nat) (e : Option CupEntry) (digest : List Byte) (g : DrbgRun) : SecOut :=
  let d := beNat (materialOf e)
  let sig := c.sign d (c.scalar (drbgBytes g (c.bytes + 8))) digest
  ({ out := sig } : SecOut).check op (c.verify (c.mul d c.g) digest sig)

/-- ECDSA_P256_SIGN (R368). -/
def execEcdsaP256Sign (f : FnId) (slot : SlotId) (hostIn : List Byte) (s : State) : Host.Outcome State Fault Refusal :=
  .next (s.secRun f slot 0x0030 hostIn (fun _ _ e x g => ecdsaSign curveP256 0x0030 e x g))

/-- ECDSA_P384_SIGN (R368). -/
def execEcdsaP384Sign (f : FnId) (slot : SlotId) (hostIn : List Byte) (s : State) : Host.Outcome State Fault Refusal :=
  .next (s.secRun f slot 0x0031 hostIn (fun _ _ e x g => ecdsaSign curveP384 0x0031 e x g))

/-- The verdict on Q ‖ digest ‖ r ‖ s. -/
def ecdsaVerdict (c : Curve) (x : List Byte) : SecOut :=
  .result (c.verify (c.decode (x.take (1 + 2 * c.bytes))) ((x.drop (1 + 2 * c.bytes)).take c.bytes) (x.drop (1 + 3 * c.bytes)))

/-- ECDSA_P256_VERIFY (R368). -/
def execEcdsaP256Verify (f : FnId) (slot : SlotId) (hostIn : List Byte) (s : State) : Host.Outcome State Fault Refusal :=
  .next (s.secRun f slot 0x0032 hostIn (fun _ _ _ x _ => ecdsaVerdict curveP256 x))

/-- ECDSA_P384_VERIFY (R368). -/
def execEcdsaP384Verify (f : FnId) (slot : SlotId) (hostIn : List Byte) (s : State) : Host.Outcome State Fault Refusal :=
  .next (s.secRun f slot 0x0033 hostIn (fun _ _ _ x _ => ecdsaVerdict curveP384 x))

/-- ED25519_SIGN (R368). -/
def execEd25519Sign (f : FnId) (slot : SlotId) (hostIn : List Byte) (s : State) : Host.Outcome State Fault Refusal :=
  .next (s.secRun f slot 0x0034 hostIn (fun _ _ e x _ =>
    let sig := edSign (materialOf e) x
    ({ out := sig } : SecOut).check 0x0034 (edVerify (edPublic (materialOf e)) sig x)))

/-- ED25519_VERIFY (R368). -/
def execEd25519Verify (f : FnId) (slot : SlotId) (hostIn : List Byte) (s : State) : Host.Outcome State Fault Refusal :=
  .next (s.secRun f slot 0x0035 hostIn (fun _ _ _ x _ => .result (edVerify (x.take 32) ((x.drop 32).take 64) (x.drop 96))))

/-- An RSA-PSS signature with a fresh salt of 48 bytes, checked before release; `half` is the length of a prime. -/
def rsaSign (half op : Nat) (e : Option CupEntry) (digest : List Byte) (g : DrbgRun) : SecOut :=
  let k := rsaKeyOf half (materialOf e)
  let sig := k.sign (2 * half) digest (drbgBytes g 48)
  ({ out := sig } : SecOut).check op (rsaVerify (k.p * k.q) k.e (2 * half) digest sig)

/-- RSA_3072_PSS_SIGN (R368). -/
def execRsa3072PssSign (f : FnId) (slot : SlotId) (hostIn : List Byte) (s : State) : Host.Outcome State Fault Refusal :=
  .next (s.secRun f slot 0x0036 hostIn (fun _ _ e x g => rsaSign 192 0x0036 e x g))

/-- RSA_4096_PSS_SIGN (R368). -/
def execRsa4096PssSign (f : FnId) (slot : SlotId) (hostIn : List Byte) (s : State) : Host.Outcome State Fault Refusal :=
  .next (s.secRun f slot 0x0037 hostIn (fun _ _ e x g => rsaSign 256 0x0037 e x g))

/-- The verdict on modulus ‖ e ‖ digest ‖ signature; an e that is even or below 3 is no argument of the operation (R368). -/
def rsaVerdict (bytes : Nat) (x : List Byte) : SecOut :=
  let e := beNat ((x.drop bytes).take 4)
  if e % 2 = 0 || e < 3 then { status := stBadArgument }
  else .result (rsaVerify (beNat (x.take bytes)) e bytes ((x.drop (bytes + 4)).take 48) (x.drop (bytes + 52)))

/-- RSA_3072_PSS_VERIFY (R368). -/
def execRsa3072PssVerify (f : FnId) (slot : SlotId) (hostIn : List Byte) (s : State) : Host.Outcome State Fault Refusal :=
  .next (s.secRun f slot 0x0038 hostIn (fun _ _ _ x _ => rsaVerdict 384 x))

/-- RSA_4096_PSS_VERIFY (R368). -/
def execRsa4096PssVerify (f : FnId) (slot : SlotId) (hostIn : List Byte) (s : State) : Host.Outcome State Fault Refusal :=
  .next (s.secRun f slot 0x0039 hostIn (fun _ _ _ x _ => rsaVerdict 512 x))

/-- The context of an ML-DSA request. -/
def Req.dsaCtx (q : Req) : List Byte := (q.body.drop 33).take (q.param 0 1)

/-- MLDSA87_SIGN (R368, R375): hedged; it ends with FAILED when 512 iterations give no signature. -/
def execMldsa87Sign (f : FnId) (slot : SlotId) (hostIn : List Byte) (s : State) : Host.Outcome State Fault Refusal :=
  .next (s.secRun f slot 0x0040 hostIn (fun _ q e x g =>
    match dsaSign (materialOf e) q.dsaCtx x (drbgBytes g 32) with
    | some sig => ({ out := sig } : SecOut).check 0x0040 (dsaVerify (dsaPublic (materialOf e)) q.dsaCtx x sig)
    | none => { status := stFailed }))

/-- MLDSA87_VERIFY (R368). -/
def execMldsa87Verify (f : FnId) (slot : SlotId) (hostIn : List Byte) (s : State) : Host.Outcome State Fault Refusal :=
  .next (s.secRun f slot 0x0041 hostIn (fun _ q _ x _ => .result (dsaVerify (x.take 2592) q.dsaCtx (x.drop (2592 + 4627)) ((x.drop 2592).take 4627))))

/-! ## Key agreement (R368, R376) -/

/-- A SHARED secret for DEST. -/
def sharedEntry (q : Req) (m : List Byte) : CupEntry := { type_ := 0x03, usage := BitVec.ofNat 5 (q.param 3 1), material := m }

/-- ECDH: a peer point off the curve is no argument; a result at infinity fails its check. -/
def ecdhShare (c : Curve) (q : Req) (op : Nat) (e : Option CupEntry) (x : List Byte) : SecOut :=
  match c.decode x with
  | none => { status := stBadArgument }
  | some pt =>
    match c.mul (beNat (materialOf e)) (some pt) with
    | some (a, b) => ({ dest := some (sharedEntry q (beBytes c.bytes a)) } : SecOut).check op (c.on a b)
    | none => ({} : SecOut).check op false

/-- ECDH_P256 (R368). -/
def execEcdhP256 (f : FnId) (slot : SlotId) (hostIn : List Byte) (s : State) : Host.Outcome State Fault Refusal :=
  .next (s.secRun f slot 0x0050 hostIn (fun _ q e x _ => ecdhShare curveP256 q 0x0050 e x))

/-- ECDH_P384 (R368). -/
def execEcdhP384 (f : FnId) (slot : SlotId) (hostIn : List Byte) (s : State) : Host.Outcome State Fault Refusal :=
  .next (s.secRun f slot 0x0051 hostIn (fun _ q e x _ => ecdhShare curveP384 q 0x0051 e x))

/-- MLKEM1024_ENCAPS (R368): an ek that fails the modulus check is no argument. -/
def execMlkem1024Encaps (f : FnId) (slot : SlotId) (hostIn : List Byte) (s : State) : Host.Outcome State Fault Refusal :=
  .next (s.secRun f slot 0x0052 hostIn (fun _ q _ x g =>
    if !kemKeyOk x then { status := stBadArgument }
    else
      let r := kemEncaps x (drbgBytes g 32)
      { out := r.1, dest := some (sharedEntry q r.2) }))

/-- MLKEM1024_DECAPS (R368). -/
def execMlkem1024Decaps (f : FnId) (slot : SlotId) (hostIn : List Byte) (s : State) : Host.Outcome State Fault Refusal :=
  .next (s.secRun f slot 0x0053 hostIn (fun _ q e x _ => { dest := some (sharedEntry q (kemDecaps (materialOf e) x)) }))

/-! ## Keys (R368, R370, R376) -/

/-- The public key of stored material (R368). -/
def publicOf (type : Nat) (m : List Byte) : List Byte :=
  match type with
  | 0x10 => curveP256.encode (curveP256.mul (beNat m) curveP256.g)
  | 0x11 => curveP384.encode (curveP384.mul (beNat m) curveP384.g)
  | 0x12 => edPublic m
  | 0x20 => beBytes 384 ((rsaKeyOf 192 m).p * (rsaKeyOf 192 m).q) ++ beBytes 4 (rsaKeyOf 192 m).e
  | 0x21 => beBytes 512 ((rsaKeyOf 256 m).p * (rsaKeyOf 256 m).q) ++ beBytes 4 (rsaKeyOf 256 m).e
  | 0x30 => kemPublic m
  | 0x31 => dsaPublic m
  | _ => []

/-- An RSA key signs and verifies. -/
def rsaPair (half : Nat) (m : List Byte) (g : DrbgRun) : Bool :=
  let k := rsaKeyOf half m
  rsaVerify (k.p * k.q) k.e (2 * half) (List.replicate 48 0) (k.sign (2 * half) (List.replicate 48 0) (drbgBytes g 48))

/-- The test of new material (R376): one sign-and-verify, or one encapsulation and decapsulation. -/
def pairOk (type : Nat) (m : List Byte) (g : DrbgRun) : Bool :=
  let ec (c : Curve) : Bool :=
    let d := beNat m
    decide (0 < d) && decide (d < c.n) &&
      c.verify (c.mul d c.g) (List.replicate c.bytes 0) (c.sign d (c.scalar (drbgBytes g (c.bytes + 8))) (List.replicate c.bytes 0))
  match type with
  | 0x10 => ec curveP256
  | 0x11 => ec curveP384
  | 0x12 => edVerify (edPublic m) (edSign m []) []
  | 0x20 => rsaPair 192 m g
  | 0x21 => rsaPair 256 m g
  | 0x30 =>
    let r := kemEncaps (kemPublic m) (drbgBytes g 32)
    kemDecaps m r.1 == r.2
  | 0x31 => (match dsaSign m [] [] (drbgBytes g 32) with | some sig => dsaVerify (dsaPublic m) [] [] sig | none => false)
  | _ => true

/-- Random bytes that fresh material of a type takes. -/
def freshBytes (type n : Nat) : Nat := match type with | 0x10 => 40 | 0x11 => 56 | _ => n

/-- Fresh material of a type from random bytes. -/
def freshMaterial (type n : Nat) (g : DrbgRun) : List Byte :=
  match type with
  | 0x10 => beBytes 32 (curveP256.scalar (drbgBytes g 40))
  | 0x11 => beBytes 48 (curveP384.scalar (drbgBytes g 56))
  | _ => drbgBytes g n

/-- KEYGEN (R368). -/
def execKeygen (f : FnId) (slot : SlotId) (s : State) : Host.Outcome State Fault Refusal :=
  .next (s.secRun f slot 0x0060 [] (fun _ q _ _ g =>
    let ty := q.destType
    let m := freshMaterial ty.1 ty.2 g
    ({ out := publicOf ty.1 m, dest := some { type_ := ty.1, usage := BitVec.ofNat 5 (q.param 3 1), material := m } } : SecOut).check 0x0060
      (pairOk ty.1 m (g.after (freshBytes ty.1 ty.2)))))

/-- PUBKEY (R368). -/
def execPubkey (f : FnId) (slot : SlotId) (s : State) : Host.Outcome State Fault Refusal :=
  .next (s.secRun f slot 0x0061 [] (fun _ _ e _ _ => match e with | some x => { out := publicOf x.type_ x.material } | none => {}))

/-- DESTROY (R372): the slot is overwritten with zero and read back. -/
def execDestroy (f : FnId) (slot : SlotId) (s : State) : Host.Outcome State Fault Refusal :=
  .next (s.secRun f slot 0x0062 [] (fun _ _ _ _ _ => { clears := true }))

/-- UNWRAP (R368, R376), on a privileged channel: a wrapping whose integrity fails, or material of another length than TYPE stores, ends with FAILED
(log 51). -/
def execUnwrap (f : FnId) (slot : SlotId) (hostIn : List Byte) (s : State) : Host.Outcome State Fault Refusal :=
  .next (s.secRun f slot 0x0063 hostIn (fun _ q e x g =>
    let ty := q.param 2 1
    match kwpUnwrap (materialOf e) x with
    | none => { status := stFailed }
    | some m =>
      if !storedOk ty m.length then { status := stFailed }
      else
        ({ dest := some { type_ := ty, usage := BitVec.ofNat 5 (q.param 3 1), material := m } } : SecOut).check 0x0063 (pairOk ty m g)))

/-! ## Microcode (R383, R386) -/

/-- The OP of a running microcode request, 0x0100 where the slot runs none. -/
def State.microOp (s : State) (f k : Nat) : Nat :=
  let op := ((s.fn f).slot k).req.secOp
  if 0x0100 ≤ op && op ≤ 0x010F then op else 0x0100

/-- MICROCODE_PROGRAM (R383): what a program computes its signed bundle defines, so its output is a free value (log 7), as much of it as fits (R366). -/
def execMicrocodeProgram (f : FnId) (slot : SlotId) (hostIn : List Byte) (s : State) : Host.Outcome State Fault Refusal :=
  let op := s.microOp f slot
  let t := s.secRun f slot op hostIn (fun u q _ x _ =>
    let e := if q.entryIx < (u.part (f.val - 1)).quota then u.entryAt (f.val - 1) q.entryIx else none
    let o := Config.microcode (op - 0x0100) u.free ((q.body.drop 32).take 32) (materialOf e) x
    let room := if q.handle = 0 then 448 else match u.hostBuf f q.handle with | some b => if b.canWrite then b.bytes - q.outOff else 0 | none => 0
    { out := o.take room })
  .next (if ((s.fn f).slot slot).state == .running then t.draw 1 else t)

end Sys2Proof.Machine
end

