-- ==== Sys2Proof/Machine/Attest.lean ====
section
/-! DEFINITION. Device identity, attestation, and the staging of firmware and microcode (15). -/

namespace Sys2Proof.Machine

/-! ## Identity (R380) -/

/-- The firmware entries of the cupboard stand behind those of the partitions (R369): entry n of firmware. -/
def State.fwEntry (s : State) (n : Nat) : Option CupEntry := s.entryAt 16 n
/-- A firmware entry is written. -/
def State.setFwEntry (s : State) (n : Nat) (m : List Byte) : State :=
  s.setEntry 16 n (some { type_ := if n = 1 || n = 3 then 0x11 else 0x02, usage := if n = 1 || n = 3 then 1 else 16, material := m })

/-- The boot ROM's digest (log 6). -/
def romDigestBytes : List Byte := beBytes 48 Config.romDigest.toNat

/-- The unique device secret: fuse words 0 to 11 (R500), each with its low byte first (log 54). -/
def State.deviceSecret (s : State) : List Byte := (List.range 12).flatMap (fun i => leBytes 4 (s.fuse i))

/-- A key on P-384 derived from a secret with a label (R380). -/
def deriveKey (secret : List Byte) (label : List Byte) : List Byte :=
  beBytes 48 (beNat (hmac384 secret label) % (curveP384.n - 1) + 1)

/-- The bytes of "DEVID". -/
def labelDevid : List Byte := [0x44, 0x45, 0x56, 0x49, 0x44]
/-- The bytes of "ALIAS". -/
def labelAlias : List Byte := [0x41, 0x4C, 0x49, 0x41, 0x53]

/-- The running firmware's image. -/
def State.runningImage (s : State) : Image := if s.boot.slotB then s.nvm.fwB else s.nvm.fwA

/-- CDI_0 and the DeviceID key, entries 0 and 1, with the fuse key path closed behind them. -/
def State.deriveDevice (s : State) : State :=
  let cdi := hmac384 s.deviceSecret romDigestBytes
  let t := (s.setFwEntry 0 cdi).setFwEntry 1 (deriveKey cdi labelDevid)
  { t with sec := { t.sec with cdi0 := true, keyPathClosed := true } }

/-- CDI_1 and the Alias key, entries 2 and 3; FW_SVN enters as four bytes, the low one first (log 54). -/
def State.deriveAlias (s : State) : State :=
  let i := s.runningImage
  let cdi := hmac384 (materialOf (s.fwEntry 0)) (sliceZ i.digest 0 48 ++ sliceZ s.sec.microDigest 0 48 ++ sliceZ s.nvm.config.digest 0 48 ++ leBytes 4 i.svn)
  let t := (s.setFwEntry 2 cdi).setFwEntry 3 (deriveKey cdi labelAlias)
  { t with sec := { t.sec with alias_ := true } }

/-! ## Attestation (R381) -/

/-- The first 384 bytes of a report. -/
def State.reportBody (s : State) (f : Nat) (nonce : List Byte) : List Byte :=
  let x := s.part (f - 1)
  let vf := f != 0
  leBytes 4 0x9A4E6C17 ++ leBytes 1 1 ++ leBytes 1 f ++ leBytes 1 (if vf then f - 1 else 255) ++ leBytes 1 s.boot.state.code ++ leBytes 8 s.timestamp ++
    sliceZ nonce 0 32 ++ (List.range 4).flatMap (fun i => leBytes 4 (s.fuse (12 + i))) ++ romDigestBytes ++ sliceZ s.runningImage.digest 0 48 ++
    sliceZ s.sec.microDigest 0 48 ++ sliceZ s.nvm.config.digest 0 48 ++
    (if vf then sha384 ((s.partBytes (f - 1)).take 16) else List.replicate 48 0) ++
    (if vf then sha384 (x.programs.flatMap (fun e => match e.2 with | some g => g.digest | none => [])) else List.replicate 48 0) ++
    leBytes 4 s.runningImage.svn ++
    leBytes 1 ((if s.gysis.degraded then 1 else 0) + (if s.gysis.replaceRequested then 2 else 0) + (if vf && x.paired then 4 else 0)) ++
    List.replicate 27 0

/-- A nonce of the privileged channels, whose source the spec does not give while the DRBG is halted (R384): a free value (log 4). -/
def freeNonce (base : Nat) : List Byte := (List.range 56).map (fun i => Config.openByte (base + i))

/-- The whole report with its two certificates. -/
def State.report (s : State) (f : Nat) (nonce : List Byte) : List Byte :=
  let b := s.reportBody f nonce
  b ++ curveP384.sign (beNat (materialOf (s.fwEntry 3))) (curveP384.scalar (freeNonce s.free)) (sha384 b) ++
    (Config.certificate 0 s.boot.releasedAt).take 1024 ++ (Config.certificate 1 0).take 1024

/-- The buffer of ATTEST: a registered one that the module may write, with room for the report (R381). -/
def checkAttest (s : State) (f : Nat) (q : Req) : Nat :=
  if q.field 32 2 = 0 then stBadArgument
  else if (s.hostRange f (q.field 32 2) (q.field 40 8) (s.report f (q.body.take 32)).length true).isNone then stBadArgument
  else stOk

/-- ATTEST (R381, R462, R503): a module without its identity or its engine answers FAILED. -/
def execAttest (f : FnId) (slot : SlotId) (s : State) : Host.Outcome State Fault Refusal :=
  .next (s.runCmd f slot (isOp 0x0702) (fun q =>
    if s.sec.retired || s.boot.identityLost || (s.fwEntry 3).isNone then .fail s stFailed
    else if s.domain 118 ≠ .on then .waits (s.wakeDomain 118)
    else if checkAttest s f q ≠ stOk then .fail s (checkAttest s f q)
    else
      let r := s.report f (q.body.take 32)
      let t := ({ s with sec := { s.sec with idleSince := s.now } }.raise (128 + 24)).draw 56
      match s.hostRange f (q.field 32 2) (q.field 40 8) r.length true with
      | some a => .ok (t.emit (.hostWrite f a r)) (leBytes 4 r.length)
      | none => .fail t stBadArgument))

/-! ## Staging (R382, R383, R504, R507) -/

/-- The fused minimum SVN: the bits of the thermometer (R500). -/
def State.minSvn (s : State) : Nat := ((List.range 8).map (fun i => (maskList 32 (s.fuse (65 + i))).length)).sum
/-- A signer slot is revoked by fuse, or counts as revoked (R503). -/
def State.signerRevoked (s : State) (n : Nat) : Bool := bitOf (s.fuse 64) n || s.sec.signerSuspect.getLsbD n

/-- An image is accepted (R382). -/
def State.imageOk (s : State) (i : Image) : Bool := i.present && !s.signerRevoked i.signer && i.keysMatch && i.sigsOk && decide (s.minSvn ≤ i.svn)

/-- The image that staged bytes hold; where its header keeps each field the spec does not give (log 52). -/
def imageOf (b : List Byte) : Image :=
  { present := true, signer := Fin.ofNat 4 (Config.imageField 0 b), keysMatch := Config.imageField 1 b == 1, sigsOk := Config.imageField 2 b == 1
    svn := Config.imageField 3 b, fuseSvn := Config.imageField 4 b == 1, version := Config.imageField 5 b, digest := sha384 b }

/-- The programs that a bundle holds. -/
def bundlePrograms (b : List Byte) : List Nat := (List.range 16).filter (fun n => Config.imageField (16 + n) b == 1)

/-- The fields of FIRMWARE_STAGE: a readable range, at most 3 MiB or 64 KiB (R331, R504). -/
def checkStage (s : State) (f : Nat) (q : Req) : Nat :=
  let n := q.field 16 4
  if 1 < q.field 20 1 || n = 0 || (if q.field 20 1 = 0 then 0x300000 else 0x10000) < n || (s.hostRange f (q.field 0 2) (q.field 8 8) n false).isNone then
    stBadArgument
  else stOk

/-- The slot that a staged image is written to: the one not in use, for microcode the one of the lower SVN, A on a tie's loser (log 52). -/
def State.stageFirmware (s : State) (i : Image) : State :=
  { s with nvm := if s.boot.slotB then { s.nvm with fwA := i } else { s.nvm with fwB := i } }

/-- An accepted bundle is written to flash and replaces the loaded one (R383). -/
def State.stageMicrocode (s : State) (i : Image) : State :=
  let useA := !s.nvm.microA.present || (s.nvm.microB.present && decide (s.nvm.microA.svn < s.nvm.microB.svn))
  { s with
    nvm := if useA then { s.nvm with microA := i } else { s.nvm with microB := i }
    sec := { s.sec with microcode := i.programs, microDigest := i.digest } }

/-- FIRMWARE_STAGE (R382, R383): `hostIn` holds what the module reads from the host buffer. The whole image is verified before a byte is written. -/
def execFirmwareStage (f : FnId) (slot : SlotId) (hostIn : List Byte) (s : State) : Host.Outcome State Fault Refusal :=
  .next (s.runCmd f slot (isOp 0x0604) (fun q =>
    let n := q.field 16 4
    let b := sliceZ hostIn 0 n
    let i := { imageOf b with programs := if q.field 20 1 = 1 then bundlePrograms b else [] }
    let total := ceilDiv n 4096
    if s.sec.retired then .ended s stFailed (leBytes 4 0) (progressPosition 0) total
    else if s.domain 118 ≠ .on then .waits (s.wakeDomain 118)
    else if checkStage s f q ≠ stOk then .fail s (checkStage s f q)
    else
      let s1 := { s with sec := { s.sec with idleSince := s.now } }
      if !s.imageOk i then .ended s1 stFailed (leBytes 4 0) (progressPosition 0) total
      else
        let t := if q.field 20 1 = 0 then s1.stageFirmware i else s1.stageMicrocode i
        .ended t stOk (leBytes 4 n) (progressPosition total) total))

end Sys2Proof.Machine
end

