-- ==== Sys2Proof/Machine/Board.lean ====
section
/-! DEFINITION. The outside parties of the board (14, 21): PCIe configuration requests, the PCIe link and the IEEE 1149.1 TAP. -/

namespace Sys2Proof.Machine

/-! ## PCIe (R342, R355, R512) -/

/-- A vector's requests that wait at step 3 or 4 of R355 are dropped when an enable of the function is cleared. -/
def State.dropRequests (s : State) (f : Nat) : State :=
  if (s.fn f).msixOn then s else s.setFn f { s.fn f with pba := 0, waiting := 0 }

/-- A completed configuration write of the bits that the module acts on: MSI-X Enable with the function mask, Bus Master Enable, VF Enable of PF0. -/
def State.configWrite (s : State) (f : Nat) (q : CfgReq) : State :=
  match q with
  | .read => s
  | .msixControl enable mask => ((s.setFn f { s.fn f with msixEnable := enable, funcMask := mask }).dropRequests f).unmasked f
  | .busMaster on => (s.setFn f { s.fn f with busMaster := on }).dropRequests f
  | .vfEnable => if f = 0 then { s with board := { s.board with vfEnable := true } } else s

/-- Configuration requests complete from 100 ms after the reset release on (R512). -/
def State.configReady (s : State) : Bool := !s.boot.resetHold && !s.clocks.refHold && decide (s.boot.releasedAt + 100000000 ≤ s.now)

/-- PCIE_CONFIG_REQUEST (R512): Request Retry Status until 100 ms after the reset release, then a normal completion. A function that does not exist for the host
answers nothing. -/
def execPcieConfigRequest (f : FnId) (q : CfgReq) (s : State) : Host.Outcome State Fault Refusal :=
  .next
    (if !s.fnPresent f then s
    else if s.configReady then (s.configWrite f q).emit (.cfgDone f false (if q == .read then some (32, 0) else none))
    else s.emit (.cfgDone f true none))

/-- PCIE_LINK_EVENT (R342): the link goes up or down, and source 179 becomes pending. -/
def execPcieLinkEvent (up : Bool) (s : State) : Host.Outcome State Fault Refusal :=
  .next ({ s with board := { s.board with pcieUp := up } }.raise 179)

/-! ## The TAP (R519, R521) -/

/-- Only these three instructions act without the test strap (R521). -/
def TapInstr.always : TapInstr → Bool
  | .idcode => true
  | .bypass => true
  | .samplePreload => true
  | _ => false

/-- The instruction that acts: any other instruction behaves as BYPASS without the test strap (R521). -/
def TapInstr.acting (i : TapInstr) (strap : Bool) : TapInstr := if i.always || strap then i else .bypass

/-- The data register that an instruction puts between TDI and TDO: 0 bypass, 1 IDCODE, 2 boundary, 3 a user register. CLAMP and HIGHZ leave the bypass
register there, as IEEE 1149.1 defines them. -/
def TapInstr.register : TapInstr → Nat
  | .idcode => 1
  | .samplePreload => 2
  | .extest => 2
  | .intest => 2
  | .userAtticTest _ => 3
  | .userLaneTest _ => 3
  | _ => 0

/-- What a user instruction starts in TEST (R519): the attic test of a room, which leaves zero lines (R201), or the known-answer test of its lanes (R446). Findings
come with ATTIC_SELF_TEST and PAU_RETIRE. -/
def State.tapTest (s : State) (i : TapInstr) : State :=
  match i with
  | .userAtticTest r => if s.boot.state == .test && s.roomOk r then s.zeroAttic r else s
  | .userLaneTest r => if s.boot.state == .test && s.roomOk r then s.setRoom r { s.room r with kat := true } else s
  | _ => s

/-- TAP_INSTRUCTION (R521). -/
def execTapInstruction (i : TapInstr) (s : State) : Host.Outcome State Fault Refusal :=
  let j := i.acting s.boot.testStrap
  .next (({ s with board := { s.board with tapIr := j } }.tapTest j).emit (.tap j.register))

end Sys2Proof.Machine
end

