-- ==== Sys2Proof/Machine/Fec.lean ====
section
/-! DEFINITION. Codewords (17): the RS(448,426) code of R404 over GF(2^10), the CRC-20, and the header and slots of a codeword. -/

namespace Sys2Proof.Machine

/-! ## GF(2^10) (R404) -/

/-- A field element times α, under x^10 + x^3 + 1. -/
def gfTwice (a : Nat) : Nat := if a < 512 then 2 * a else (2 * a) ^^^ 0x409

/-- A product in GF(2^10). -/
def gfMul (a b : Nat) : Nat :=
  ((List.range 10).foldl (fun (r : Nat × Nat) i => (if bitOf b i then r.1 ^^^ r.2 else r.1, gfTwice r.2)) (0, a)).1

/-- α to the n-th power. -/
def gfExp : Nat → Nat
  | 0 => 1
  | n + 1 => gfTwice (gfExp n)

/-- Square and multiply over the bits of an exponent below 2^k. -/
def gfPow (a : Nat) : Nat → Nat → Nat
  | 0, _ => 1
  | k + 1, e => gfMul (if e % 2 = 1 then a else 1) (gfPow (gfMul a a) k (e / 2))

/-- The inverse of an element other than 0: its 1,022nd power. -/
def gfInv (a : Nat) : Nat := gfPow a 10 1022

/-- A polynomial, lowest coefficient first, at a point. -/
def gfEval (p : List Nat) (x : Nat) : Nat := p.foldr (fun c r => gfMul r x ^^^ c) 0

/-- The sum of a polynomial and `k` times another. -/
def gfAddMul (k : Nat) : List Nat → List Nat → List Nat
  | [], b => b.map (gfMul k)
  | a, [] => a
  | x :: a, y :: b => (x ^^^ gfMul k y) :: gfAddMul k a b

/-! ## The decoder -/

/-- The syndromes of a codeword whose first symbol is the coefficient of x^447 (log 55): its values at α^0 to α^21. -/
def syndromes (cw : List Nat) : List Nat := (List.range 22).map (fun j => cw.foldl (fun r c => gfMul r (gfExp j) ^^^ c) 0)

/-- The state of the Berlekamp-Massey recurrence: the locator, the one before its last growth, its length, steps since, the old discrepancy. -/
structure Locator where
  c : List Nat
  b : List Nat
  len : Nat
  gap : Nat
  old : Nat

/-- One step with syndrome n. -/
def Locator.next (s : List Nat) (l : Locator) (n : Nat) : Locator :=
  let d := (List.range (l.len + 1)).foldl (fun r i => if i ≤ n then r ^^^ gfMul (l.c.getD i 0) (s.getD (n - i) 0) else r) 0
  if d = 0 then { l with gap := l.gap + 1 }
  else
    let c := gfAddMul (gfMul d (gfInv l.old)) l.c (List.replicate l.gap 0 ++ l.b)
    if 2 * l.len ≤ n then { c := c, b := l.c, len := n + 1 - l.len, gap := 1, old := d } else { l with c := c, gap := l.gap + 1 }

/-- The error locator of 22 syndromes and its length. -/
def locate (s : List Nat) : Locator := (List.range 22).foldl (Locator.next s) { c := [1], b := [1], len := 0, gap := 1, old := 1 }

/-- The evaluator: the first 22 coefficients of syndromes times locator. -/
def evaluator (s c : List Nat) : List Nat :=
  (List.range 22).map (fun n => (List.range (n + 1)).foldl (fun r i => r ^^^ gfMul (c.getD i 0) (s.getD (n - i) 0)) 0)

/-- The formal derivative. -/
def derivative (c : List Nat) : List Nat := (List.range (c.length - 1)).map (fun i => if i % 2 = 0 then c.getD (i + 1) 0 else 0)

/-- The error value at the position whose locator is X (Forney). -/
def errorAt (s c : List Nat) (x : Nat) : Nat :=
  let y := gfInv x
  gfMul x (gfMul (gfEval (evaluator s c) y) (gfInv (gfEval (derivative c) y)))

/-- The decoder (R404): the symbols after correction and the positions corrected, or none for a codeword with more than 11 symbol errors. -/
def rsDecode (cw : List Nat) : Option (List Nat × List Nat) :=
  let s := syndromes cw
  if s.all (· == 0) then some (cw, [])
  else
    let l := locate s
    let bad := (List.range 448).filter (fun i => gfEval l.c (gfInv (gfPow 2 10 (447 - i))) == 0)
    if 11 < l.len || bad.length ≠ l.len then none
    else
      let fixed := cw.zipIdx.map (fun e => if bad.contains e.2 then e.1 ^^^ errorAt s l.c (gfPow 2 10 (447 - e.2)) else e.1)
      if (syndromes fixed).all (· == 0) then some (fixed, bad) else none

/-! ## CRC-20, header and slots (R404, R407, R408) -/

/-- Symbols as one number, the first lowest. -/
def symbolsNat (l : List Nat) : Nat := l.foldr (fun c r => r * 1024 + c) 0

/-- One bit enters the CRC-20 register. -/
def crc20Step (c : Nat) (b : Bool) : Nat :=
  let d := c * 2 % 2 ^ 20
  if (decide (2 ^ 19 ≤ c)) != b then d ^^^ 0x9 else d

/-- CRC-20 of the low `n` bits of a number, lowest first: all ones at the start, the result inverted (R404). -/
def crc20 (n v : Nat) : Nat := (2 ^ 20 - 1) ^^^ (List.range n).foldl (fun c i => crc20Step c (v.testBit i)) (2 ^ 20 - 1)

/-- The codeword header (R407). -/
def headerOf (v : Nat) : CwHeader :=
  { seq := BitVec.ofNat 12 v, ack := BitVec.ofNat 12 (bitsOf v 23 12), nak := bitOf v 24, valid := BitVec.ofNat 4 (bitsOf v 28 25)
    crVc := (BitVec.ofNat 3 (bitsOf v 31 29)).toFin, crTotal := BitVec.ofNat 12 (bitsOf v 43 32) }

/-- A flit slot: its tag and its flit (R408). -/
def slotOf (v : Nat) : Flit :=
  { kind := (BitVec.ofNat 2 v).toFin, vc := (BitVec.ofNat 3 (bitsOf v 4 2)).toFin, ctx := (BitVec.ofNat 6 (bitsOf v 10 5)).toFin
    line := BitVec.ofNat 8 (bitsOf v 18 11), data := leBytes 128 (v / 2 ^ 24) }

/-- What a codeword carries, with the positions of its corrected symbols; none for an uncorrectable one (R404). -/
def codewordOf (cw : List (BitVec 10)) : Option (CwHeader × List Flit × List Nat) :=
  match rsDecode (cw.map (·.toNat)) with
  | some (fixed, bad) =>
    let v := symbolsNat (fixed.take 426)
    if v / 2 ^ 4240 = crc20 4240 v then
      some (headerOf v, (List.range 4).map (fun s => slotOf (v / 2 ^ (48 + 1048 * s) % 2 ^ 1048)), bad)
    else none
  | none => none

end Sys2Proof.Machine
end

