-- ==== Sys2Proof/Machine/Ports.lean ====
section
/-! DEFINITION. Freoft ports (17): training, codewords and replay, lanes and ports out of service, time synchronisation, margin. -/

namespace Sys2Proof.Machine

/-! ## Training (R420, R421) -/

/-- The link subsystem runs: firmware has released it, LCLK is on a divider, and the state is not one whose ports send electrical idle (R420, R432, R466, R512). -/
def State.linksRun (s : State) : Bool :=
  s.links.released && (s.clk 1).source != 2 && s.boot.state != .halted && s.boot.state != .recovery

/-- Lanes of a mask. -/
def lanesIn (m : BitVec 8) : List Nat := maskList 8 m.toNat

/-- A port begins a training attempt: steps 2 to 6 run, and `first` says that earlier failures no longer count. Its queue and its replay buffer stay (R414). -/
def State.beginAttempt (s : State) (n : Nat) (first : Bool) : State :=
  let x := s.port n
  s.portTo n { x with
    state := .training, trainStep := 2, trainStart := s.now, attempt := if first then 0 else x.attempt, rxNak := false, nakSeen := false
    retries := 0, newMap := none, newMapConfirmed := false, tapPending := false }

/-- A port retrains, unless it is retired or the link subsystem is stopped. -/
def State.retrain (s : State) (n : Nat) : State :=
  if (s.port n).state = .retired then s
  else if s.linksRun then s.beginAttempt n true
  else s.portTo n { s.port n with state := .down, trainStep := 0, attempt := 0, downSince := s.now }

/-- An attempt fails (R421): the port waits a random time below 2^min(a, 6) ms, a free value (log 56), or after 12 failures is DOWN and tries every second. -/
def State.failAttempt (s : State) (n : Nat) : State :=
  let x := s.port n
  let a := x.attempt + 1
  let t := s.note (.port n) 2
  if 12 ≤ a then
    t.portTo n { x with
      state := .down, trainStep := 0, attempt := a, backoffUntil := s.now + secondNs, downSince := if a = 12 then s.now else x.downSince }
  else
    (t.portTo n { x with trainStep := 0, attempt := a, backoffUntil := s.now + (Config.openWord s.free).toNat % (2 ^ min a 6 * 1000000) }).draw 1

/-- The best of some lanes by eye height, the lower number on ties. -/
def bestLane (h : Nat → Nat) : List Nat → Option Nat
  | [] => none
  | l :: t => match bestLane h t with
    | some b => if h l < h b then some b else some l
    | none => some l

/-- The `k` best lanes. -/
def bestLanes : Nat → (Nat → Nat) → List Nat → List Nat
  | 0, _, _ => []
  | k + 1, h, l => match bestLane h l with
    | some b => b :: bestLanes k h (l.erase b)
    | none => []

/-- The lane map that R418 chooses from usable lanes: width 8, 7 or 4, the last on the lanes with the best margin; none below four lanes. -/
def Port.chooseMap (x : Port) (usable : BitVec 8) : Option (BitVec 8) :=
  let l := lanesIn usable
  if 7 ≤ l.length then some usable
  else if 4 ≤ l.length then some (BitVec.ofNat 8 (maskOf (bestLanes 4 (Tab.get 0 x.eyeHeight) l)))
  else none

/-- The credits of a port are set from the free buffers that its partner reports, and both books of freed buffers start again (R413, R414). -/
def Port.setCredits (x : Port) (bufs : List Nat) : Port :=
  { x with credits := (List.range 8).foldl (fun t v => Tab.set 0 t v (bufs.getD v 0)) [], lastCr := [], freed := [] }

/-- A port's unacknowledged flits leave again, in order and with the numbers they have. -/
def State.resend (s : State) (n : Nat) : State := s.emitFlits n ((s.port n).unacked.map (fun e => (e.1, e.2.2)))

/-- Step 7: ACTIVE when both ends are numbered, else ready for link-control flits only. Sequence numbers go on from where they stood (log 57). -/
def State.trained (s : State) (n : Nat) (map : BitVec 8) (q : PortIdentity) : State :=
  let x := (s.port n).setCredits q.freeBufs
  let numbered := q.numbered && s.links.route.isSome
  let y := { x with
    state := if numbered then .active else .training, trainStep := 7, attempt := 0, laneMap := map, partner := some q, ackAt := s.now, resumed := true
    winStart := s.now, winWords := 0, winErr := [] }
  let t := s.portTo n y
  if numbered then (t.resend n).pump n else t

/-- TRAINING_ATTEMPT (R420): the steps of an attempt in progress, with the lanes found good and what the partner says of itself. Fewer than four good
lanes fail it; another SYSTEM_ID puts the port in HELD. -/
def execTrainingAttempt (port : PortId) (lanes : BitVec 8) (partner : PortIdentity) (s : State) : Host.Outcome State Fault Refusal :=
  let n := port.val
  let x := s.port n
  .next
    (if x.state ≠ .training || x.trainStep ≠ 2 || !s.linksRun || x.trainStart + 20000000 ≤ s.now then s
    else match x.chooseMap (lanes &&& ~~~x.laneRetired) with
      | none => s.failAttempt n
      | some map =>
        let other := match s.links.route with | some t => partner.numbered && t.systemId != partner.systemId | none => false
        if other then
          (s.portTo n { x with state := .held, trainStep := 6, attempt := 0, laneMap := map, partner := some partner }).decided 0x0022 1 0 true false false
            255 n partner.systemId.toNat 1
        else s.trained n map partner)

/-- TRAINING_TIMEOUT (R420, R421): an attempt has not reached step 7 within 20 ms. -/
def execTrainingTimeout (port : PortId) (s : State) : Host.Outcome State Fault Refusal :=
  let x := s.port port
  .next (if x.state = .training && x.trainStep = 2 && x.trainStart + 20000000 ≤ s.now then s.failAttempt port else s)

/-- TRAINING_BACKOFF_EXPIRY (R421). -/
def execTrainingBackoffExpiry (port : PortId) (s : State) : Host.Outcome State Fault Refusal :=
  let x := s.port port
  .next
    (if (x.state = .training || x.state = .down) && x.trainStep = 0 && x.backoffUntil ≤ s.now && s.linksRun then s.beginAttempt port false else s)

/-- SIGNAL_DETECT (R510): a DOWN port with signal on at least four lanes does not wait for its next try. -/
def execSignalDetect (port : PortId) (lanes : BitVec 8) (s : State) : Host.Outcome State Fault Refusal :=
  .next (if (s.port port).state = .down && 4 ≤ (lanesIn lanes).length && s.linksRun then s.beginAttempt port false else s)

/-- A port carries link-control flits: it is ACTIVE, or trained and not numbered (R420). -/
def Port.linked (x : Port) : Bool := x.state == .active || (x.state == .training && x.trainStep == 7)

/-- LOSS_OF_SIGNAL (R418, R430): the port retrains. -/
def execLossOfSignal (port : PortId) (s : State) : Host.Outcome State Fault Refusal :=
  .next (if (s.port port).linked || (s.port port).state = .held then s.retrain port else s)

/-! ## Replay (R415 to R417) -/

/-- A retransmission starts from the oldest unacknowledged flit, which is ACK + 1; the eighth in a row without ACK advancing is replay exhaustion, which
makes the port retrain with its replay buffer kept. -/
def State.retransmit (s : State) (n : Nat) : State :=
  let x := s.port n
  let y := { x with replays := satInc x.replays, retries := x.retries + 1, ackAt := s.now, nakSeen := false, nakIgnoredUntil := s.now + 1000 }
  let t := (s.setPort n y).resend n
  if 8 ≤ y.retries then ((t.setPort n { y with exhausted := satInc y.exhausted }).note (.port n) 0).retrain n else t

/-- NAK_RETRANSMIT (R416). -/
def execNakRetransmit (port : PortId) (s : State) : Host.Outcome State Fault Refusal :=
  let x := s.port port
  .next (if x.state = .active && x.nakSeen && x.nakIgnoredUntil ≤ s.now && !x.unacked.isEmpty then s.retransmit port else s)

/-- ACK_STALL_RETRANSMIT (R416): ACK has not advanced for 2 µs. -/
def execAckStallRetransmit (port : PortId) (s : State) : Host.Outcome State Fault Refusal :=
  let x := s.port port
  .next (if x.state = .active && !x.unacked.isEmpty && x.ackAt + 2000 ≤ s.now then s.retransmit port else s)

/-! ## Codewords (R404, R407, R413, R415, R416, R456) -/

/-- The corrected symbols of a codeword are counted on their lanes (R405, R431). -/
def Port.countSymbols (x : Port) (bad : List Nat) : Port :=
  let lanes := lanesIn x.laneMap
  let on (i : Nat) : Nat := lanes.getD (i % max 1 lanes.length) 0
  let y := if bad.isEmpty then x else { x with cwCorr := x.cwCorr + 1 }
  bad.foldl (fun y i => { y with
    symCorr := Tab.set 0 y.symCorr (on i) (Tab.get 0 y.symCorr (on i) + 1), winErr := Tab.set 0 y.winErr (on i) (Tab.get 0 y.winErr (on i) + 1) }) y

/-- The ratio of a lane's corrected symbols in the running window, in units of 10^−9. -/
def Port.laneRatio (x : Port) (l : Nat) : Nat :=
  Tab.get 0 x.winErr l * 1000000000 / max 1 (x.winWords * (448 / max 1 (lanesIn x.laneMap).length))

/-- The 1 s window that has elapsed is judged (R456): a lane above 10^−4 in three windows in a row. A second with no codeword breaks a row. -/
def State.closeWindow (s : State) (n : Nat) : State :=
  let x := s.port n
  if s.now < x.winStart + secondNs then s
  else
    let gap := x.winStart + 2 * secondNs ≤ s.now
    let high (l : Nat) : Bool := decide (100000 < x.laneRatio l)
    let row (l : Nat) : Nat := if high l then Tab.get 0 x.winBad l + 1 else 0
    let y := { x with
      winStart := s.now - (s.now - x.winStart) % secondNs, winWords := 0, winErr := []
      winBad := if gap then [] else (lanesIn x.laneMap).foldl (fun t l => Tab.set 0 t l (row l)) []
      winRatio := (lanesIn x.laneMap).foldl (fun t l => Tab.set 0 t l (x.laneRatio l)) [] }
    (lanesIn x.laneMap).foldl (fun t l => if 3 ≤ row l then t.note (.lane n l) 0 else t) (s.setPort n y)

/-- The unacknowledged flits take numbers anew from the one that the partner waits for (log 57). -/
def renumber (next : BitVec 12) : List (BitVec 12 × Nat × Flit) → List (BitVec 12 × Nat × Flit)
  | [] => []
  | e :: t => (next, e.2) :: renumber (next + 1) t

/-- ACK of a header (R415, R416): the flits it covers leave the replay buffer. The first header after a training whose ACK covers none and is not the one
before the oldest comes from a partner that has been reset. -/
def State.takeAck (s : State) (n : Nat) (ack : BitVec 12) : State :=
  let x := s.port n
  match x.unacked.findIdx? (fun e => e.1 == ack) with
  | some i => s.setPort n { x with unacked := x.unacked.drop (i + 1), ackAt := s.now, retries := 0, resumed := false }
  | none =>
    let oldest := match x.unacked with | e :: _ => e.1 | [] => x.txSeq
    if x.resumed && ack + 1 ≠ oldest then
      (s.setPort n { x with
        unacked := renumber (ack + 1) x.unacked, txSeq := ack + 1 + BitVec.ofNat 12 x.unacked.length, ackAt := s.now, resumed := false }).resend n
    else s.setPort n { x with resumed := false }

/-- NAK and the credits of a header (R413, R416). -/
def Port.takeHeader (x : Port) (now : Nat) (h : CwHeader) : Port :=
  let vc := h.crVc.val
  { x with
    nakSeen := h.nak && decide (x.nakIgnoredUntil ≤ now)
    credits := Tab.set 0 x.credits vc (Tab.get 0 x.credits vc + (h.crTotal - Tab.get 0 x.lastCr vc).toNat), lastCr := Tab.set 0 x.lastCr vc h.crTotal }

/-- A sequenced flit (R415, R416): the one after ACK is accepted into a buffer; one further on is a gap. -/
def Port.takeFlit (x : Port) (seq : BitVec 12) (vc : Nat) : Port :=
  if seq = x.rxAck + 1 then
    { x with rxAck := seq, rxNak := false, flitsRx := x.flitsRx + 1, occupied := Tab.set 0 x.occupied vc (Tab.get 0 x.occupied vc + 1) }
  else if (seq - x.rxAck).toNat < 2048 && seq ≠ x.rxAck then { x with rxNak := true }
  else x

/-- The sequenced flits of a codeword, in slot order. -/
def Port.takeSlots (x : Port) (h : CwHeader) (fs : List Flit) : Port :=
  ((fs.zipIdx.filter (fun e => h.valid.getLsbD e.2)).zipIdx.foldl (fun y e => y.takeFlit (h.seq + BitVec.ofNat 12 e.2) e.1.1.vc.val) x)

/-- A port counts an uncorrectable codeword and is to ask for a retransmission (R404, R416). -/
def Port.badCodeword (x : Port) : Port := { x with winWords := x.winWords + 1, cwUncorr := satInc x.cwUncorr, rxNak := true }

/-- A port takes a codeword: its corrected symbols, its header and its sequenced flits (R407, R413, R415). -/
def Port.goodCodeword (x : Port) (now : Nat) (h : CwHeader) (fs : List Flit) (bad : List Nat) : Port :=
  ((({ x with winWords := x.winWords + 1 }.countSymbols bad).takeHeader now h).takeSlots h fs)

/-- A codeword reached a port: what its decoding answers (R404, R407, R413, R415, R416). -/
def State.takeCodeword (s : State) (n : Nat) (d : Option (CwHeader × List Flit × List Nat)) : State :=
  let t := s.closeWindow n
  match d with
  | none => (t.setPort n (t.port n).badCodeword).note (.port n) 3
  | some (h, fs, bad) => ((t.setPort n ((t.port n).goodCodeword t.now h fs bad)).takeAck n h.ack).pump n

/-- CODEWORD_RECEIVE (R404): an uncorrectable codeword is counted and asks for a retransmission; of any other the header and the sequenced flits are
taken. What its context, data and acknowledgement flits do are commands of their own. -/
def execCodewordReceive (port : PortId) (cw : List (BitVec 10)) (s : State) : Host.Outcome State Fault Refusal :=
  .next (if (s.port port).state ≠ .active || cw.length ≠ 448 then s else s.takeCodeword port (codewordOf cw))

/-- A flit has been forwarded, performed or handed to its sink: its buffer is free (R413). -/
def State.freeBuffer (s : State) (n vc : Nat) : State :=
  let x := s.port n
  if Tab.get 0 x.occupied vc = 0 then s
  else s.setPort n { x with occupied := Tab.set 0 x.occupied vc (Tab.get 0 x.occupied vc - 1), freed := Tab.set 0 x.freed vc (Tab.get 0 x.freed vc + 1) }

/-! ## Lanes out of service (R418) -/

/-- LANE_RETIRE (R418, R456): the lane is beyond its thresholds. The new lane map is proposed; fewer than four usable lanes leave the port to PORT_RETIRE. -/
def execLaneRetire (port : PortId) (lane : Fin 8) (s : State) : Host.Outcome State Fault Refusal :=
  let n := port.val
  let x := s.port n
  .next
    (if x.state ≠ .active || x.laneRetired.getLsbD lane || !s.permanent (.lane n lane) then s
    else
      let gone := x.laneRetired ||| BitVec.ofNat 8 (2 ^ lane.val)
      let map := x.chooseMap (~~~gone)
      let t := (s.setPort n { x with laneRetired := gone, newMap := map, newMapConfirmed := false }).decided 0x0020 0 2 true false false 255 n
        (lane.val + Tab.get 0 x.winRatio lane * 256) (s.events (.lane n lane) [0]).length
      match map with
      | some m => t.emit (.linkCtl n (some m) false)
      | none => t)

/-- LANE_MAP_APPLY (R418, R432): the confirmed map is applied at its frame; a replay goes on at the new width. -/
def execLaneMapApply (port : PortId) (s : State) : Host.Outcome State Fault Refusal :=
  let x := s.port port
  .next
    (match x.newMap with
    | some m => if x.newMapConfirmed && x.state == .active then
        (s.closeWindow port).setPort port { (s.closeWindow port).port port with laneMap := m, newMap := none, newMapConfirmed := false } else s
    | none => s)

/-- TAP_CHANGE_APPLY (R430): the transmitter taps change at a frame boundary; they have no register. -/
def execTapChangeApply (port : PortId) (s : State) : Host.Outcome State Fault Refusal :=
  let x := s.port port
  .next (if x.tapPending && x.linked then s.setPort port { x with tapPending := false } else s)

/-- MARGIN_SWEEP (R429, R456): the eye of a lane in µV and mUI. An eye below 12 mV on two sweeps in a row is beyond the threshold. -/
def execMarginSweep (port : PortId) (lane : Fin 8) (height : Nat) (width : Nat) (s : State) : Host.Outcome State Fault Refusal :=
  let n := port.val
  let x := s.port n
  .next
    (if x.state ≠ .active || !x.laneMap.getLsbD lane then s
    else
      let low := if height < 12000 then Tab.get 0 x.lowEye lane + 1 else 0
      let t := s.setPort n { x with
        eyeHeight := Tab.set 0 x.eyeHeight lane height, eyeWidth := Tab.set 0 x.eyeWidth lane width, lowEye := Tab.set 0 x.lowEye lane low }
      if 2 ≤ low then t.note (.lane n lane) 0 else t)

/-! ## Time (R428) -/

/-- The lock state of the module's time; a change raises source 193. -/
def State.setLock (s : State) (on : Bool) : State :=
  if s.links.locked = on then s else { s with links := { s.links with locked := on } }.raise 193

/-- The timestamp steps by an offset. -/
def State.stepTime (s : State) (off : Int) : State :=
  { s with links := { s.links with timeOffset := s.links.timeOffset + s.links.slewed s.now + off, slewLeft := 0, slewFrom := s.now } }

/-- The timestamp begins to slew by an offset. -/
def State.slewTime (s : State) (off : Int) : State :=
  { s with links := { s.links with timeOffset := s.links.timeOffset + s.links.slewed s.now, slewLeft := off, slewFrom := s.now } }

/-- The offset to the parent is known. UNLOCKED, the module steps while it exceeds 1 µs and is LOCKED once it does not; LOCKED, it slews, and becomes
UNLOCKED beyond 1 µs, or beyond 100 µs while it comes back from a time without a parent. -/
def State.follow (s : State) (off : Int) : State :=
  let l := s.links
  let size := off.natAbs
  let t := { s with links := { l with followed := true, holdover := l.holdover && decide (1000 < size) } }
  if l.locked then
    if (if l.holdover then 100000 else 1000) < size then
      ({ t with links := { t.links with holdover := false } }.setLock false).stepTime off
    else t.slewTime off
  else if 1000 < size then t.stepTime off
  else (t.setLock true).slewTime off

/-- A link-control flit's time stamps: the link delay and the offset to the partner (R428). An RX_ECHO of 0 says that the partner has received none yet. -/
def State.takeStamps (s : State) (n : Nat) (c : LinkCtl) : State :=
  let t4 : Int := s.timestamp
  let d1 : Int := (c.rxAt : Int) - c.rxEcho
  let d2 : Int := (c.txTime : Int) - t4
  let t := { s with links := { s.links with stamps := Tab.set (0, 0) s.links.stamps n (c.txTime, s.timestamp) } }
  if c.rxEcho = 0 then t
  else
    let x := t.port n
    let off := (d1 + d2) / 2
    let u := t.setPort n { x with delay := (d1 - d2) / 2, offset := off }
    if u.parentPort = some n then u.follow off else u

/-- A lane-map proposal of the partner is confirmed; a confirmation of this side's proposal is noted (R418). -/
def State.takeLaneMap (s : State) (n : Nat) (c : LinkCtl) : State :=
  let x := s.port n
  match c.laneMap with
  | some m =>
    if c.laneConfirm then (if x.newMap = some m then s.setPort n { x with newMapConfirmed := true } else s)
    else if (lanesIn m).length = 8 || (lanesIn m).length = 7 || (lanesIn m).length = 4 then
      (s.setPort n { x with newMap := some m, newMapConfirmed := true }).emit (.linkCtl n (some m) true)
    else s
  | none => s

/-- LINK_CONTROL_FLIT (R406, R418, R428, R430). -/
def execLinkControlFlit (port : PortId) (c : LinkCtl) (s : State) : Host.Outcome State Fault Refusal :=
  let n := port.val
  .next
    (if !(s.port n).linked then s
    else
      let t := (s.takeStamps n c).takeLaneMap n c
      if c.tapRequest then t.setPort n { t.port n with tapPending := true } else t)

/-! ## Ports out of service (R419, R456, R462) -/

/-- A context flit's fields from its bytes (R409). -/
def Ctx.ofBytes (b : List Byte) : Ctx :=
  let f (o n : Nat) : Nat := fieldOf b o n
  { dstModule := f 0 2 % 512, dstPart := f 2 1 % 16, dstRoom := f 2 1 / 16, space := f 3 1, base := f 4 8, pitch := f 12 4, blkLines := f 16 2
    flagged := bitOf (f 18 2) 0, flag := f 18 2 / 2 % 64, masked := bitOf (f 18 2) 7, hops := f 18 2 / 256 % 32, srcModule := f 20 2 % 512
    srcRoom := f 22 1 % 16, srcChan := f 22 1 / 16, ackId := f 24 2, lines := f 26 2, block := f 28 6, bootId := f 34 4, originTime := f 40 8
    firstMask := BitVec.ofNat 128 (f 48 16), lastMask := BitVec.ofNat 128 (f 64 16) }

/-- The port mask that restricts a context: its sending partition's when this module sends it in space 3 or 4, else none (R389, R424). -/
def State.maskFor (s : State) (c : Ctx) : Option (BitVec 30) :=
  if s.ownModule = some c.srcModule && (c.space = 3 || c.space = 4) then
    match s.ownerOf c.srcRoom with | some p => some (s.part p).portMask | none => none
  else none

/-- A context whose flits move to another port is sent there anew, its context flit first; one that no port takes is dropped and counted. What arrives for
it from now on follows it. -/
def State.moveCtx (s : State) (old : Port) (n : Nat) (fs : List Flit) (no : Nat) : State :=
  let mine := fs.filter (fun f => (f.kind == 1 || f.kind == 2) && f.ctx.val == no)
  let vc := (mine.head?.map (·.vc.val)).getD 0
  let part := (mine.head?.map (·.part)).getD 16
  let data := Tab.get [] old.ctxs no
  let c := Ctx.ofBytes data
  match s.choosePort c.dstModule vc (s.maskFor c) with
  | some m =>
    let v := s.laneOut vc none m
    let k := (s.port m).nextCtx % 64
    let t := s.setPort m { s.port m with nextCtx := (s.port m).nextCtx + 1 }
    let moved := (mine.filter (fun f => f.kind == 1)).map (fun f => flitOf 1 v k f.line.toNat f.data)
    let go (e : RxCtx) : RxCtx := match e.fwd with | some (a, b, _) => if a = n && b = no then { e with fwd := some (m, k, v) } else e | none => e
    { t with links := { t.links with rx := t.links.rx.map go } }.enqueue m ((flitOf 2 v k 0 data :: moved).map (fun (f : Flit) => { f with part := part }))
  | none => s.countDrop (s.dropPort c.dstModule)

/-- An acknowledgement flit moves to another port. -/
def State.moveAck (s : State) (f : Flit) : State :=
  let dst := fieldOf f.data 0 2 % 512
  match s.choosePort dst f.vc.val none with
  | some m => s.enqueue m [{ f with vc := (BitVec.ofNat 3 (s.laneOut f.vc.val none m)).toFin }]
  | none => s.countDrop (s.dropPort dst)

/-- What a retired port held is queued again on other ports. -/
def State.requeue (s : State) (old : Port) (n : Nat) (fs : List Flit) : State :=
  let nos := ((fs.filter (fun f => f.kind == 1 || f.kind == 2)).map (·.ctx.val)).eraseDups
  (fs.filter (fun f => f.kind == 3)).foldl State.moveAck (nos.foldl (fun t k => t.moveCtx old n fs k) s)

/-- Why a port is to be retired (R456, R469): 0 fewer than four usable lanes, 1 three replay exhaustions in 1 h, 2 ten minutes DOWN. -/
def State.retireCause (s : State) (n : Nat) : Option Nat :=
  let x := s.port n
  if (lanesIn (~~~x.laneRetired)).length < 4 then some 0
  else if nIn 3 hourNs (s.events (.port n) [0]) then some 1
  else if (x.state = .down || 12 ≤ x.attempt) && x.downSince + 600 * secondNs ≤ s.now && s.linksRun then some 2
  else none

/-- PORT_RETIRE (R419, R462, R465). -/
def execPortRetire (port : PortId) (s : State) : Host.Outcome State Fault Refusal :=
  let n := port.val
  let x := s.port n
  .next
    (match (if x.state = .retired then none else s.retireCause n) with
    | none => s
    | some cause =>
      let s1 := if cause = 2 then s.note (.port n) 1 else s
      let t := s1.portTo n { x with
        state := .retired, trainStep := 0, unacked := [], queued := [], credits := [], lastCr := [], occupied := [], freed := [], newMap := none
        newMapConfirmed := false, tapPending := false, rxNak := false, nakSeen := false }
      (t.requeue x n (x.unacked.map (·.2.2) ++ x.queued)).decided 0x0021 1 2 true true (decide (3 ≤ t.retiredPorts)) 255 n cause
        (match cause with | 1 => (s.events (.port n) [0]).length | _ => 1))

end Sys2Proof.Machine
end

