-- ==== Sys2Proof/Machine/Transit.lean ====
section
/-! DEFINITION. Routing tables, contexts and acknowledgements that arrive, and summaries (17, 20). -/

namespace Sys2Proof.Machine

/-! ## Routing tables (R422, R423) -/

/-- The table in the bytes of R422. -/
def routeTableOf (b : List Byte) : RouteTable :=
  { module := fieldOf b 6 2 % 512, modules := fieldOf b 8 2, timeRoot := fieldOf b 10 2 % 512, dateline := BitVec.ofNat 30 (fieldOf b 12 4)
    portDim := BitVec.ofNat 64 (fieldOf b 16 8), systemId := BitVec.ofNat 64 (fieldOf b 24 8)
    routes := (List.range 512).foldl (fun t d =>
      let e := fieldOf b (128 + 8 * d) 8
      if bitOf e 31 then Tab.set none t d (some { primary := BitVec.ofNat 30 e, alternate := BitVec.ofNat 30 (bitsOf e 61 32) }) else t) [] }

/-- The header of a table is one that R422 admits. -/
def routeHeaderOk (b : List Byte) : Bool :=
  fieldOf b 0 4 == 0x4F72D316 && fieldOf b 4 1 == 1 && headerCrcOk b && fieldOf b 5 1 == 0 && fieldOf b 6 2 < 512 && fieldOf b 10 2 < 512 &&
    1 ≤ fieldOf b 8 2 && fieldOf b 8 2 ≤ 512 && fieldOf b 6 2 < fieldOf b 8 2 && fieldOf b 10 2 < fieldOf b 8 2 && fieldOf b 12 4 < 2 ^ 30 &&
    fieldOf b 16 8 < 2 ^ 60 && (b.drop 32).take 92 == List.replicate 92 0

/-- Entry `d` is one that R422 admits. -/
def routeEntryOk (b : List Byte) (d : Nat) : Bool :=
  let e := fieldOf b (128 + 8 * d) 8
  let primary := bitsOf e 29 0
  !bitOf e 30 && e < 2 ^ 62 && primary &&& bitsOf e 61 32 == 0 &&
    (!bitOf e 31 || (decide (d < fieldOf b 8 2) && d != fieldOf b 6 2 && primary != 0))

/-- A table changes MODULE or SYSTEM_ID. -/
def State.renumbers (s : State) (t : RouteTable) : Bool :=
  match s.links.route with
  | some r => r.module != t.module || r.systemId != t.systemId
  | none => true

/-- A partition's pair does not bear the table (R422). -/
def State.pairBars (s : State) (t : RouteTable) : Bool :=
  (List.range 16).any (fun p =>
    let x := s.part p
    (x.isLeader || x.isFollower) && (s.renumbers t || (Tab.get none t.routes x.pair.peerModule).isNone))

/-- The fields of ROUTE_LOAD (R331, R422). -/
def checkRoute (s : State) (f : Nat) (q : Req) : Nat :=
  if q.field 16 4 ≠ 4224 || (s.hostRange f (q.field 0 2) (q.field 8 8) 4224 false).isNone then stBadArgument else stOk

/-- ROUTE_LOAD (R422): `hostIn` holds the table as the module reads it from the host buffer. -/
def execRouteLoad (f : FnId) (slot : SlotId) (hostIn : List Byte) (s : State) : Host.Outcome State Fault Refusal :=
  .next (s.runCmd f slot (isOp 0x0603) (fun q =>
    let b := sliceZ hostIn 0 4224
    let t := routeTableOf b
    if checkRoute s f q ≠ stOk then .fail s (checkRoute s f q)
    else if !routeHeaderOk b || (List.range 512).any (fun d => !routeEntryOk b d) then .fail s stBadArgument
    else if s.pairBars t then .fail s stBusy
    else .ok { s with links := { s.links with nextRoute := some t } } []))

/-- ROUTE_TABLE_EFFECT (R423): the loaded table comes into force at a frame boundary; another MODULE or SYSTEM_ID takes every port through a retrain. The
module that is TIME_ROOT free-runs. -/
def execRouteTableEffect (s : State) : Host.Outcome State Fault Refusal :=
  .next
    (match s.links.nextRoute with
    | none => s
    | some t =>
      let u := { s with links := { s.links with route := some t, nextRoute := none } }
      let v := if s.renumbers t then (List.range 30).foldl State.retrain u else u.noteParent
      if t.timeRoot = t.module then ({ v with links := { v.links with followed := false, holdover := false } }.setLock true).slewTime 0 else v)

/-! ## Contexts that arrive (R424 to R426, R410) -/

/-- Later than ORIGIN_TIME + 1 ms by this module's timestamp (R426). -/
def State.tooLate (s : State) (origin : Nat) : Bool := decide (origin + 1000000 < s.timestamp)

/-- The same context in the receiver's eyes (R410). -/
def RxCtx.same (a b : Ctx) : Bool := a.srcModule == b.srcModule && a.srcRoom == b.srcRoom && a.srcChan == b.srcChan && a.ackId == b.ackId

/-- A context takes its context number on its arrival port, in place of an earlier one. -/
def State.putRx (s : State) (e : RxCtx) : State :=
  { s with links := { s.links with rx := s.links.rx.filter (fun o => !(o.port == e.port && o.ctxNo == e.ctxNo)) ++ [e] } }

/-- A context whose data flits are dropped with it. -/
def State.dropCtx (s : State) (n vc no : Nat) (c : Ctx) : State :=
  s.putRx { ctx := c, port := n, ctxNo := no, vc := vc, dropped := true }

/-- A context for another module: dropped with HOPS at zero, too late, or without a port; else its context flit goes on with HOPS one less. -/
def State.transit (s : State) (n vc no : Nat) (c : Ctx) : State :=
  if c.hops = 0 || s.tooLate c.originTime then (s.dropCtx n vc no c).countDrop n
  else match s.choosePort c.dstModule vc none with
    | none => (s.dropCtx n vc no c).countDrop (s.dropPort c.dstModule)
    | some m =>
      let v := s.laneOut vc (some n) m
      let k := (s.port m).nextCtx % 64
      let d := { c with hops := c.hops - 1 }
      (s.sendOn m v 16 d []).putRx { ctx := d, port := n, ctxNo := no, vc := vc, fwd := some (m, k, v) }

/-- CONTEXT_FLIT (R424, R426, R428): while UNLOCKED the module accepts none. A context for this module keeps the lines already performed of the same
context that came by another port. -/
def execContextFlit (port : PortId) (vc : Fin 8) (ctxNo : Fin 64) (c : Ctx) (s : State) : Host.Outcome State Fault Refusal :=
  let n := port.val
  .next
    (if (s.port n).state ≠ .active then s
    else
      let t := s.freeBuffer n vc
      if !s.links.locked then t.dropCtx n vc ctxNo c
      else if s.ownModule ≠ some c.dstModule then t.transit n vc ctxNo c
      else if s.tooLate c.originTime then (t.dropCtx n vc ctxNo c).countDrop n
      else
        let had := match t.links.rx.find? (fun e => e.fwd.isNone && RxCtx.same e.ctx c) with | some e => e.performed | none => []
        t.putRx { ctx := c, port := n, ctxNo := ctxNo, vc := vc, performed := had })

/-! ## Data flits (R409 to R411) -/

/-- An acknowledgement entry is issued for the lines of a context performed since its last one (R411). -/
def State.issueAck (s : State) (e : RxCtx) : State :=
  let upd (o : RxCtx) : RxCtx := if o.port = e.port && o.ctxNo = e.ctxNo then { o with unacked := 0 } else o
  { s with links := { s.links with rx := s.links.rx.map upd } }.pushAck
    { module := e.ctx.srcModule, entry := ⟨e.ctx.srcRoom, e.ctx.srcChan, e.ctx.ackId, e.unacked⟩, since := s.now, origin := e.ctx.originTime }

/-- The receiver's bitmap of a context after a line (R410), in every context of the same source. -/
def State.markLine (s : State) (e : RxCtx) (line : Nat) : State :=
  let upd (o : RxCtx) : RxCtx :=
    if o.port = e.port && o.ctxNo = e.ctxNo then
      { o with
        performed := if o.performed.contains line then o.performed else line :: o.performed, unacked := o.unacked + (if o.performed.contains line then 0 else 1)
        oldest := if o.unacked = 0 then s.now else o.oldest }
    else if o.fwd.isNone && RxCtx.same o.ctx e.ctx then { o with performed := if o.performed.contains line then o.performed else line :: o.performed }
    else o
  { s with links := { s.links with rx := s.links.rx.map upd } }

/-- The context that a port and context number stand for. -/
def State.rxAt (s : State) (n no : Nat) : Option RxCtx := s.links.rx.find? (fun e => e.port == n && e.ctxNo == no)

/-- A context is at its end: every line has come. -/
def State.closeCtx (s : State) (n no : Nat) : State :=
  match s.rxAt n no with
  | some e => if e.ctx.lines ≤ e.performed.length && e.unacked = 0 then
      { s with links := { s.links with rx := s.links.rx.filter (fun o => !(o.port == n && o.ctxNo == no)) } } else s
  | none => s

/-- The entry that is due after a line (R411): 32 lines, or the last. -/
def State.ackDue (s : State) (n no : Nat) : State :=
  match s.rxAt n no with
  | some e => if 0 < e.unacked && (32 ≤ e.unacked || e.ctx.lines ≤ e.performed.length) then (s.issueAck e).closeCtx n no else s.closeCtx n no
  | none => s

/-- A summary's line (R496): the values of its eight records, kept by TIME_ROOT for each module. -/
def State.takeSummary (s : State) (module : Nat) (data : List Byte) : State :=
  match s.links.route with
  | some t =>
    if t.timeRoot = t.module then
      let vals := (List.range 8).map (fun i => fieldOf data (16 * i + 8) 8)
      { s with links := { s.links with summaries := Tab.set ([], 0) s.links.summaries module (vals, s.now) } }
    else s
  | none => s

/-- A line of a context for this module is performed (R390, R410), handed to the summaries, or, in space 6, part of a mirror message, whose effect is a
command of its own. -/
def State.sinkLine (s : State) (e : RxCtx) (line : Nat) (data : List Byte) : State :=
  if e.ctx.space = 3 || e.ctx.space = 4 then ((s.remoteLine (some e.port) e.ctx line data).markLine e line).ackDue e.port e.ctxNo
  else
    let t := if e.ctx.space = 5 then s.takeSummary e.ctx.srcModule (sliceZ data 0 128) else s
    { t with links := { t.links with rx := t.links.rx.filter (fun o => !(o.port == e.port && o.ctxNo == e.ctxNo)) } }

/-- A line in transit goes on where its context flit went. -/
def State.passLine (s : State) (e : RxCtx) (m k v line : Nat) (data : List Byte) : State :=
  let t := s.enqueue m [flitOf 1 v k line data]
  let upd (o : RxCtx) : RxCtx := if o.port = e.port && o.ctxNo = e.ctxNo then { o with performed := line :: o.performed } else o
  ({ t with links := { t.links with rx := t.links.rx.map upd } }).closeCtx e.port e.ctxNo

/-- A line in transit whose port has been retired meanwhile: the context is sent anew on another, its context flit first (R419). -/
def State.rerouteLine (s : State) (e : RxCtx) (line : Nat) (data : List Byte) : State :=
  match s.choosePort e.ctx.dstModule e.vc none with
  | none => (s.dropCtx e.port e.vc e.ctxNo e.ctx).countDrop (s.dropPort e.ctx.dstModule)
  | some m =>
    let v := s.laneOut e.vc (some e.port) m
    let k := (s.port m).nextCtx % 64
    let e1 := { e with fwd := some (m, k, v) }
    ((s.sendOn m v 16 e.ctx []).putRx e1).passLine e1 m k v line data

/-- A line for this module goes to a stack at level 4, where it waits (R232, R233). -/
def State.lineWaits (s : State) (port ctxNo : Nat) : Bool :=
  match s.rxAt port ctxNo with
  | some e => e.fwd.isNone && !e.dropped && e.ctx.space == 3 && decide (4 ≤ (s.stack ((s.part e.ctx.dstPart).rooms.getD e.ctx.dstRoom 0)).level)
  | none => false

/-- DATA_FLIT (R410, R426): a line follows its context flit on the same port and VC. One for a stack at level 4 waits in its buffer, and does not occur yet
(R233, log 13). -/
def execDataFlit (port : PortId) (vc : Fin 8) (ctxNo : Fin 64) (line : Nat) (data : List Byte) (s : State) : Host.Outcome State Fault Refusal :=
  let n := port.val
  .next
    (if (s.port n).state ≠ .active || s.lineWaits n ctxNo then s
    else
      let t := s.freeBuffer n vc
      match t.rxAt n ctxNo with
      | none => t
      | some e =>
        if e.dropped || e.vc ≠ vc.val || e.ctx.lines ≤ line then t
        else if t.tooLate e.ctx.originTime then (t.dropCtx n vc ctxNo e.ctx).countDrop n
        else match e.fwd with
          | some (m, k, v) =>
            if (t.port m).state = .retired then t.rerouteLine e line (sliceZ data 0 128) else t.passLine e m k v line (sliceZ data 0 128)
          | none => t.sinkLine e line data)

/-! ## Acknowledgements (R411, R426) -/

/-- ACK_ENTRY_TIMEOUT (R411): 1 µs after the oldest line not yet acknowledged was performed. -/
def execAckEntryTimeout (port : PortId) (vc : Fin 8) (ctxNo : Fin 64) (s : State) : Host.Outcome State Fault Refusal :=
  .next
    (match s.rxAt port ctxNo with
    | some e => if e.vc = vc.val && e.fwd.isNone && 0 < e.unacked && e.oldest + 1000 ≤ s.now then s.issueAck e else s
    | none => s)

/-- ACK_FLIT_TIMEOUT (R411): 1 µs after its first entry. -/
def execAckFlitTimeout (module : Nat) (s : State) : Host.Outcome State Fault Refusal :=
  .next (if s.links.acks.any (fun a => a.module == module && decide (a.since + 1000 ≤ s.now)) then s.sendAcks module else s)

/-- An entry reaches the sender of its context (R410, R426): later than 1 ms after the first transmission, on the sender's own count, it is discarded; an entry
for no context that waits is too. The tags of its lines are free, and a flagged line held for it goes (R255). -/
def State.takeEntry (n : Nat) (s : State) (e : AckEntry) : State :=
  match s.links.tx.find? (fun t => t.room == e.srcRoom && t.chan == e.srcChan && t.ackId == e.ackId) with
  | none => s
  | some t =>
    if t.sentAt + 1000000 < s.now then s.countDrop n
    else
      let k := min e.lines t.left
      let upd (o : TxCtx) : TxCtx := if o = t then { o with left := o.left - k } else o
      let u := { s with links := { s.links with tx := (s.links.tx.map upd).filter (fun o => o.left != 0) } }
      let v := u.setRoom t.room ((u.room t.room).acked t.chan t.no k)
      match v.ownerOf t.room with
      | some p => (v.releaseHeld p t.room t.chan).goOn t.room
      | none => v

/-- ACK_FLIT (R411, R424, R426): in transit it goes on by the routing table, its entries dropped and counted when it is late; at its module its entries take
effect. -/
def execAckFlit (port : PortId) (vc : Fin 8) (origin dstModule : Nat) (entries : List AckEntry) (s : State) : Host.Outcome State Fault Refusal :=
  let n := port.val
  let es := entries.take 14
  .next
    (if (s.port n).state ≠ .active || es.isEmpty then s
    else
      let t := s.freeBuffer n vc
      if s.ownModule = some dstModule then es.foldl (State.takeEntry n) t
      else if t.tooLate origin then es.foldl (fun u _ => u.countDrop n) t
      else match t.choosePort dstModule vc none with
        | some m => t.enqueue m [flitOf 3 (t.laneOut vc (some n) m) 0 0 (ackFlitBytes dstModule origin es)]
        | none => es.foldl (fun u _ => u.countDrop (t.dropPort dstModule)) t)

/-! ## Summaries (R496) -/

/-- The values of the eight fields. -/
def State.summaryVals (s : State) : List Nat :=
  let val (cls inst item : Nat) : Nat := (s.quantity (quantityId cls inst item)).getD 0
  let die : Int := (List.range 23).foldl (fun (m : Int) i => max m (BitVec.ofNat 64 (val 4 i 0)).toInt) (BitVec.ofNat 64 (val 4 0 0)).toInt
  let stack : Int := s.liveRooms.foldl (fun (m : Int) r => max m (s.stack r).temp) (match s.liveRooms with | r :: _ => (s.stack r).temp | [] => 0)
  [val 1 0 1, val 2 0 0, val 1 0 2, signed64 die, signed64 stack, ((List.range 30).filter (fun n => (s.port n).state = .active)).length,
    s.gysis.ledger.w, s.timestamp]

/-- The line of a summary: a 16-byte record for each field, as R335 lays records out. -/
def summaryLine (module : Nat) (vals : List Nat) : List Byte :=
  vals.zipIdx.flatMap (fun e => leBytes 4 (quantityId 0x20 e.2 module) ++ leBytes 4 1 ++ leBytes 8 e.1)

/-- SUMMARY_SEND (R496): every 10 ms, with a table in force and the time LOCKED. TIME_ROOT keeps its own. -/
def execSummarySend (s : State) : Host.Outcome State Fault Refusal :=
  .next
    (match s.links.route with
    | none => s
    | some t =>
      if !s.maySendCtx || s.now < s.links.lastSummary + 10000000 then s
      else
        let line := summaryLine t.module s.summaryVals
        let u := { s with links := { s.links with lastSummary := s.now } }
        if t.timeRoot = t.module then u.takeSummary t.module line
        else
          let c : Ctx :=
            { dstModule := t.timeRoot, dstPart := 0, dstRoom := 0, space := 5, base := 0, pitch := 0, blkLines := 1, flagged := false, flag := 0,
              masked := false, hops := 31, srcModule := t.module, srcRoom := 0, srcChan := 0, ackId := 0, lines := 1, block := 0
              bootId := (s.links.bootId.getD 0).toNat, originTime := s.timestamp, firstMask := BitVec.allOnes 128, lastMask := BitVec.allOnes 128 }
          match u.choosePort t.timeRoot 6 none with
          | some n => u.sendOn n (u.laneOut 6 none n) 16 c [line]
          | none => u.countDrop (u.dropPort t.timeRoot))

end Sys2Proof.Machine
end

