-- ==== Sys2Proof/Machine/Mirror.lean ====
section
/-! DEFINITION. Mirrored pairs (18): forming and ending a pair, its messages, the loss of the peer, the resync. -/

namespace Sys2Proof.Machine

/-! ## Forming a pair (R433 to R436) -/

/-- A partition holds state (R434). -/
def Part.holdsState (x : Part) : Bool := x.keysets.any (fun e => e.2.isSome) || x.programs.any (fun e => e.2.isSome)

/-- The checks of MIRROR_SET that this side makes alone (R331, R433, R449, R462, R503). -/
def checkMirror (s : State) (busy : Bool) (q : Req) : Nat :=
  let p := q.field 0 1
  let x := s.part p
  let mode := q.field 1 1
  let peer := q.field 2 2
  if s.maxParts ≤ p || !x.present || 2 < mode then stBadArgument
  else if x.phase == .tearing then stNotReady
  else if s.sec.retired || s.boot.identityLost then stFailed
  else if busy then stBusy
  else if mode = 0 then stOk
  else if 15 < q.field 4 1 || x.pair.state == .frozen || s.ownModule.isNone || s.ownModule == some peer || (s.routeOf peer).isNone then stBadArgument
  else if x.paired && (x.pair.peerModule != peer || x.pair.peerPart != q.field 4 1) then stBadArgument
  else stOk

/-- The pair forms (R434 to R436): the twin that holds state leads, else the one on the lower module number; the pair key is a free value that both
security engines agree on (log 58). The command runs on until the resync is complete. -/
def State.formPair (s : State) (q : Req) (slot : Nat) (peerHolds : Bool) : State :=
  let p := q.field 0 1
  let x := s.part p
  let lead := if x.holdsState || peerHolds then x.holdsState else decide (s.ownModule.getD 0 < q.field 2 2)
  let pair : Pairing :=
    { state := .syncing, leader := lead, mode := q.field 1 1, peerModule := q.field 2 2, peerPart := q.field 4 1, wait := some (slot, s.now)
      lastMsg := s.now, lastBeat := s.now, key := some (Config.pairKey s.free), diverged := x.pair.diverged }
  ((s.setPart p { x with pair := pair }).generate (Config.drbgDrawn s.free)).draw 1 |>.partChanged p

/-- A pair's mode is to change at the next job boundary of both twins (R435): the twin is told. While the resync runs, the pair enters the new mode at its end. -/
def State.switchMode (s : State) (p mode : Nat) : State :=
  let x := s.part p
  if x.pair.state = .syncing then s.setPart p { x with pair := { x.pair with mode := mode } }
  else if mode = x.pair.mode then s.setPart p { x with pair := { x.pair with switchTo := none } }
  else
    let t := s.setPart p { x with pair := { x.pair with switchTo := some mode } }
    if x.job.isNone then t.jobBoundary p else t

/-- A message to the twin. -/
def State.tellTwin (s : State) (p kind : Nat) (payload : List Byte) : State :=
  s.emit (.mirror kind (s.part p).pair.peerModule (s.part p).pair.peerPart payload)

/-- A MIRROR_SET that still runs for a pair that ends fails (R433). -/
def State.dropWait (s : State) (p : Nat) : State :=
  match (s.part p).pair.wait with
  | some (slot, _) =>
    let x := s.part p
    (s.setPart p { x with pair := { x.pair with wait := none } }).endWaiting 0 slot (isOp 0x0104) stFailed (progressFraction 0) 0 []
  | none => s

/-! ## A frozen twin goes on (R449) -/

/-- A descriptor of a follower that waits for the ECHO of its flagged line. -/
def Issued.flagUnsure (i : Issued) : Bool := i.echo && i.desc.isFinal && i.desc.isRemote

/-- The flagged line of a descriptor may have been sent by the old leader: it is not sent, and enters the ledger. -/
def State.unsureFlag (s : State) (room : Nat) (i : Issued) : State :=
  s.decided 0x0042 2 0 true false false room 255
    (i.desc.dstModule % 512 + i.desc.dstBase / 2 ^ 60 % 16 * 2 ^ 12 + i.desc.dstRoom % 16 * 2 ^ 16 + i.desc.token % 64 * 2 ^ 20) 1

/-- A room of a frozen twin goes on (R449): a block that only waits for such an ECHO ends, any other block in progress is executed again. -/
def State.thawRoom (p : Nat) (s : State) (room : Nat) : State :=
  let x := s.room room
  match x.block with
  | none => s
  | some b =>
    let unsure := x.channels.flatMap (fun c => c.2.issued.filter (fun i => i.flagUnsure && (i.agreed || (s.part p).pair.mode == 2)))
    if unsure.isEmpty && !(b.agreed && x.blockDone) then s.replayOne true room
    else
      let t := unsure.foldl (fun u i => u.unsureFlag room i) s
      let u := t.cancelChannels room
      let y := u.room room
      (u.setRoom room { y with blockDone := true, block := y.block.map (fun c => { c with agreed := true }) }).finishBlock p room

/-- PF0 lets a frozen twin go on: SOLO. -/
def State.thaw (s : State) (p : Nat) : State :=
  let b := s.part p
  b.rooms.foldl (State.thawRoom p) (s.setPair p .solo true)

/-- MODE 0 (R435, R449): the pair ends in an orderly way, or a frozen twin becomes SOLO. -/
def State.endPair (s : State) (p : Nat) : State :=
  let x := s.part p
  if x.paired then ((s.tellTwin p 7 []).dropWait p).goSolo p
  else if x.pair.state = .frozen then s.thaw p
  else s

/-- MIRROR_SET (R433): `peer` is what the other side says at this moment. The first of the two commands waits for the second; a formed pair's command waits
for its resync. The pair key asks for fresh randomness, so that a pair forms only while the DRBG runs (R272, R384). -/
def execMirrorSet (f : FnId) (slot : SlotId) (peer : PeerAnswer) (s : State) : Host.Outcome State Fault Refusal :=
  .next (s.runCmd f slot (isOp 0x0104) (fun q =>
    let p := q.field 0 1
    let x := s.part p
    let mode := q.field 1 1
    let mine := match x.pair.wait with | some (k, _) => k == slot.val | none => false
    if mine && x.paired then .waits s
    else if checkMirror s false q ≠ stOk then
      .fail (if mine then s.setPart p { x with pair := { x.pair with wait := none } } else s) (checkMirror s false q)
    else if mode = 0 then .ended (s.endPair p) stOk [] (progressFraction 10000) 0
    else if x.paired then .ended ((s.tellTwin p 0 (leBytes 2 0x0104 ++ leBytes 1 mode)).switchMode p mode) stOk [] (progressFraction 10000) 0
    else
      match peer with
      | .mismatch => .fail (s.setPart p { x with pair := { x.pair with wait := none } }) stBadArgument
      | .silent => .waits (if mine then s else s.setPart p { x with pair := { x.pair with wait := some (slot.val, s.now) } })
      | .matching holds =>
        let late := match x.pair.wait with | some (_, t) => decide (t + 10 * secondNs < s.now) | none => false
        if x.holdsState && holds then .fail (s.setPart p { x with pair := { x.pair with wait := none } }) stBadArgument
        else if late then .ended (s.setPart p { x with pair := { x.pair with wait := none } }) stFailed [] (progressFraction 0) 0
        else if s.sec.drbg ≠ .running then .waits (if mine then s else s.setPart p { x with pair := { x.pair with wait := some (slot.val, s.now) } })
        else .waits (s.formPair q slot holds)))

/-- MIRROR_SET_TIMEOUT (R433): the second command has not come within 10 s. -/
def execMirrorSetTimeout (p : PartId) (s : State) : Host.Outcome State Fault Refusal :=
  let x := s.part p
  .next
    (match x.pair.wait with
    | some (_, t) => if !x.paired && t + 10 * secondNs ≤ s.now then s.dropWait p else s
    | none => s)

/-! ## Messages (R438) -/

/-- A message of the twin has come (R448). -/
def State.heard (s : State) (p : Nat) : State :=
  let x := s.part p
  s.setPart p { x with pair := { x.pair with lastMsg := s.now } }

/-- What a meaning answers, as a state. -/
def nextOf (s : State) (o : Host.Outcome State Fault Refusal) : State :=
  match o with
  | .next t => t
  | _ => s

/-- The leader's command is run by the follower's firmware, without a slot of its own. -/
def State.applyCommand (s : State) (p : PartId) (op : Nat) (body : List Byte) : State :=
  let f : FnId := p.succ
  let q : Req := { op := op, seq := 0, ctrl := 0, len := 480, vector := 0, body := body ++ List.replicate (480 - body.length) 0 }
  let free : SlotId := Fin.ofNat 8 (((List.range 8).find? (fun k => ((s.fn f).slot k).state != .running)).getD 0)
  let t := { s with gysis := { s.gysis with detached := (f.val, free.val, q) :: s.gysis.detached } }
  match op with
  | 0x0201 => nextOf s (execKeysetRegister f free t)
  | 0x0202 => nextOf s (execKeysetActivate f free t)
  | 0x0203 => nextOf s (execKeysetDeactivate f free t)
  | 0x0204 => nextOf s (execKeysetRelease f free t)
  | 0x0211 => nextOf s (execKeyRegister f free t)
  | 0x0212 => nextOf s (execKeyRemove f free t)
  | 0x0213 => nextOf s (execLutKeyRegister f free t)
  | 0x0301 => nextOf s (execProgramLoad f free t)
  | 0x0302 => nextOf s (execProgramUnload f free t)
  | 0x0303 => nextOf s (execJobRingSet f free t)
  | _ => s

/-- COMMAND (R438): a command of the leader's VF is applied by the follower; a mode switch by either twin (log 59). -/
def execCommand (p : PartId) (opcode : Nat) (payload : List Byte) (s : State) : Host.Outcome State Fault Refusal :=
  let x := s.part p
  .next
    (if !x.paired then s
    else if opcode = 0x0104 then
      (if fieldOf payload 0 1 = 1 || fieldOf payload 0 1 = 2 then (s.heard p).switchMode p (fieldOf payload 0 1) else s.heard p)
    else if x.isFollower then (s.heard p).applyCommand p opcode payload
    else s.heard p)

/-- INPUT (R438, R311): a line is performed in the follower, a flagged one advances its flag counter, and a doorbell moves the tail. A line
for a stack at level 4 waits, and does not occur yet (R233, log 13). -/
def execInput (p : PartId) (m : InputMsg) (s : State) : Host.Outcome State Fault Refusal :=
  let x := s.part p
  .next
    (if !x.isFollower then s
    else
      let t := s.heard p
      match m with
      | .line room cellar off flag data =>
        let r := x.roomAt room
        if x.rooms.length ≤ room || (if cellar then stackBytes else atticBytes) < off + data.length then t
        else if cellar && 4 ≤ (s.stack r).level then s
        else
          let u := t.writeSpan r cellar off data
          match flag with
          | some k =>
            let y := u.room r
            u.setRoom r { y with flags := Tab.set 0 y.flags k (Tab.get 0 y.flags k + 1) }
          | none => u
      | .doorbell tail =>
        match t.takeTail (p.val + 1) tail with
        | some u => u
        | none => t)

/-- HOSTREAD (R438): lines that a stream of the leader has read from host space wait for the follower's stream. -/
def execHostread (p : PartId) (room : Nat) (ch : ChanId) (data : List Byte) (s : State) : Host.Outcome State Fault Refusal :=
  let x := s.part p
  .next
    (if !x.isFollower || x.rooms.length ≤ room then s
    else
      let t := s.heard p
      let y := t.part p
      let k := room * 16 + ch.val
      t.setPart p { y with pair := { y.pair with hostread := Tab.set [] y.pair.hostread k (Tab.get [] y.pair.hostread k ++ data) } })

/-- BLOCKKEY (R436, R438): the block key, unwrapped under the pair key, goes to the follower's rooms. One that does not unwrap delivers nothing. -/
def execBlockkey (p : PartId) (wrapped : List Byte) (s : State) : Host.Outcome State Fault Refusal :=
  let x := s.part p
  .next
    (if !x.isFollower then s
    else
      let t := s.heard p
      match x.pair.key with
      | some pk =>
        match kwpUnwrap (leBytes 32 pk.toNat) wrapped with
        | some k => if k.length = 32 then t.deliverKey p (t.keyBlock p) (BitVec.ofNat 256 (leNat k)) else t
        | none => t
      | none => t)

/-- A leader in standby learns that its follower's replay still differs (R447): the event is counted and entered on its side too. -/
def State.standbyDiverged (s : State) (p room : Nat) (d : DigestRec) : State :=
  let x := s.part p
  let own := recordsOf x.pair.own room d.mblock
  let peer := recordsOf x.pair.peer room d.mblock
  match own.head? with
  | some a =>
    if !a.agrees d && 2 ≤ peer.length then
      (s.setPart p { x with pair := { x.pair with diverged := satInc x.pair.diverged } }).decided 0x0040 2 0 true false false (x.roomAt room) 255 d.mblock 2
    else s
  | none => s

/-- DIGEST (R443, R447): a record of the twin's room is kept and compared. -/
def execDigest (p : PartId) (room : Nat) (d : DigestRec) (s : State) : Host.Outcome State Fault Refusal :=
  .next
    (if !(s.part p).paired || (s.part p).rooms.length ≤ room then s
    else
      let t := s.heard p
      let x := t.part p
      let u := t.setPart p { x with pair := { x.pair with peer := Tab.set [] x.pair.peer room ((d :: Tab.get [] x.pair.peer room).take 300) } }
      if x.pair.state == .standby && x.pair.leader then u.standbyDiverged p room d else u.compareRecords p room)

/-- A follower's descriptor whose ECHO has come is performed (R444). -/
def Channel.echoed (h : Channel) : Channel :=
  match h.issued.find? (·.echo) with
  | some i => { h with issued := h.issued.map (fun q => if q.no = i.no then { q with echo := false, kept := [], held := none } else q) }
  | none => h

/-- ECHO (R444): it completes the oldest suppressed descriptor of the channel; one that comes before its descriptor is kept. -/
def execEcho (p : PartId) (room : Nat) (ch : ChanId) (s : State) : Host.Outcome State Fault Refusal :=
  let x := s.part p
  .next
    (if !x.isFollower || x.rooms.length ≤ room then s
    else
      let t := s.heard p
      let r := x.roomAt room
      let y := t.room r
      let h := y.chan ch
      if h.issued.any (·.echo) then t.setRoom r (y.setChan ch h.echoed)
      else
        let z := t.part p
        let k := room * 16 + ch.val
        t.setPart p { z with pair := { z.pair with echoes := Tab.set 0 z.pair.echoes k (Tab.get 0 z.pair.echoes k + 1) } })

/-! ## The peer (R448) -/

/-- The peer is lost: a leader becomes SOLO and goes on, a follower FROZEN. -/
def State.losePeer (s : State) (p : Nat) : State :=
  let x := s.part p
  let t := s.dropWait p
  if x.pair.leader then t.goSolo p else t.setPair p .frozen false

/-- HEARTBEAT (R438, R448): a device state other than READY is the loss of the peer. -/
def execHeartbeat (p : PartId) (state : Nat) (time : Nat) (s : State) : Host.Outcome State Fault Refusal :=
  .next
    (if !(s.part p).paired then s
    else
      let t := s.heard p
      if state ≠ 5 then t.losePeer p else t)

/-- HEARTBEAT_SEND (R438): every 100 µs. -/
def execHeartbeatSend (p : PartId) (s : State) : Host.Outcome State Fault Refusal :=
  let x := s.part p
  .next
    (if x.paired && x.pair.lastBeat + 100000 ≤ s.now then
      (s.setPart p { x with pair := { x.pair with lastBeat := s.now } }).tellTwin p 6 (leBytes 8 s.timestamp ++ leBytes 1 s.boot.state.code)
    else s)

/-- END (R438): an orderly end; the receiver becomes SOLO. -/
def execEnd (p : PartId) (s : State) : Host.Outcome State Fault Refusal :=
  .next (if (s.part p).paired then (s.dropWait p).goSolo p else s)

/-- No ACTIVE port has reached a module for 10 ms. -/
def State.cutOff (s : State) (module : Nat) : Bool :=
  match s.routeOf module with
  | some e =>
    let ports := maskList 30 (e.primary.toNat ||| e.alternate.toNat)
    ports.all (fun n => (s.port n).state != .active && decide ((s.port n).activeUntil + 10000000 ≤ s.now))
  | none => true

/-- A room has waited 10 ms for the counterpart's record of its block (R443). -/
def State.recordLate (s : State) (p i : Nat) : Bool :=
  let x := s.part p
  let y := s.room (x.roomAt i)
  match y.block with
  | some b =>
    x.comparesAt && y.blockDone && !b.agreed && x.pair.state == .dual && (recordsOf x.pair.peer i (x.pair.at_ i)).length ≤ b.seen &&
      decide (Tab.get 0 x.pair.recordAt i + 10000000 ≤ s.now)
  | none => false

/-- PEER_LOSS (R443, R448): no message for 10 ms, no record for a block, or no port to the peer. -/
def execPeerLoss (p : PartId) (s : State) : Host.Outcome State Fault Refusal :=
  let x := s.part p
  .next
    (if x.paired && (decide (x.pair.lastMsg + 10000000 ≤ s.now) || s.cutOff x.pair.peerModule || (List.range x.rooms.length).any (s.recordLate p)) then
      s.losePeer p
    else s)

/-! ## The resync (R452) -/

/-- What a resync overwrites is empty: attic, cellar below STACK_BYTES and what Gysis holds of the partition. -/
def State.resyncBlank (s : State) (p : Nat) : State :=
  let x := s.part p
  let t := { s with mem := x.rooms.foldl (fun m r => { m with
    attic := Mem.clear m.attic (atticKey r 0) atticBytes
    atticBad := m.atticBad.filter (fun c => !(atticKey r 0 ≤ c.1 && c.1 < atticKey r 0 + atticBytes))
    cellar := Mem.clear m.cellar (cellarKey r 0) stackBytes
    ecc := m.ecc.filter (fun c => !(cellarKey r 0 ≤ c.1 * 32 && c.1 * 32 < cellarKey r 0 + stackBytes)) }) s.mem }
  let u := x.rooms.foldl (fun v r => v.setRoom r { v.room r with flags := [], block := none, blockDone := false, queues := [], channels := [], noiseKey := none, keyHeld := false }) t
  (u.setPart p { x with keysets := [], keys := [], luts := [], programs := [], pins := [], job := none, blockKeys := [] }).setFn (p + 1)
    { u.fn (p + 1) with ringSet := false, jobHead := 0, jobTail := 0, jobRunning := false }

/-- One record of a resync. -/
def State.resyncRec (p : Nat) (s : State) (e : ResyncRec) : State :=
  let x := s.part p
  match e with
  | .line room cellar off data =>
    if x.rooms.length ≤ room || (if cellar then stackBytes else atticBytes) < off + data.length then s else s.writeSpan (x.roomAt room) cellar off data
  | .keyset id active desc =>
    match keysetOf (desc.take 128) (desc.drop 128) with
    | some k => s.setPart p (x.setKeyset id (some { k with active := active }))
    | none => s
  | .key home header =>
    let h := keyHdrOf header home
    s.setPart p { x with keys := Tab.set {} x.keys h.index { cur := some h, lastEpoch := some h.epoch } }
  | .lut home header =>
    let h := lutHdrOf header home
    s.setPart p (x.setLut h.index { cur := some h, lastEpoch := some h.epoch })
  | .program handle home container =>
    s.setPart p { x with programs := Tab.set none x.programs handle (some (programOf container home)) }
  | .pin key off epoch lut => s.setPart p { x with pins := x.pins ++ [{ key := key, epoch := BitVec.ofNat 32 epoch, off := off, lut := lut, unpin := false, rooms := x.rooms }] }
  | .ring off head tail => s.setFn (p + 1) { s.fn (p + 1) with ringSet := true, ringOff := off, jobHead := head, jobTail := tail }
  | .flag room flag count =>
    if x.rooms.length ≤ room then s
    else
      let r := x.roomAt room
      s.setRoom r { s.room r with flags := Tab.set 0 (s.room r).flags flag count }

/-- Where a follower's rooms stand after a resync: at the block after the last record of the leader's room. -/
def Pairing.caughtUp (x : Pairing) (rooms : Nat) : Pairing :=
  { x with mblock := (List.range rooms).foldl (fun t i =>
      match (Tab.get [] x.peer i).head? with | some d => Tab.set 0 t i (d.mblock + 1) | none => t) x.mblock }

/-- RESYNC_COMPLETE (R452): the last line has been performed at the follower, and the pair enters its mode. `image` is what the source sent. -/
def execResyncComplete (p : PartId) (image : List ResyncRec) (s : State) : Host.Outcome State Fault Refusal :=
  let x := s.part p
  .next
    (if x.pair.state ≠ .syncing then s
    else
      let t := if x.pair.leader then s else image.foldl (State.resyncRec p) (s.resyncBlank p)
      let y := t.part p
      let pair := if x.pair.leader then y.pair else y.pair.caughtUp y.rooms.length
      let u := (t.setPart p { y with pair := { pair with wait := none } }).setPair p (if x.pair.mode = 2 then .standby else .dual) x.pair.leader
      match x.pair.wait with
      | some (slot, _) => u.endWaiting 0 slot (isOp 0x0104) stOk (progressFraction 10000) 0 []
      | none => u)

end Sys2Proof.Machine
end

