-- ==== Sys2Proof/Machine/Refresh.lean ====
section
/-! DEFINITION. Refresh, look-up refresh, form switching and the arithmetic of LWE samples (06). The spec gives the labels, the tests and the data of
extraction, of the sums and of the raise exactly, and those of a look-up but for its gadget digits; what the stages of refresh and pack make of their
inputs it does not fix to the bit: free functions of those inputs (log 27). -/

namespace Sys2Proof.Machine

/-- The refresh plan of a loaded program. -/
def Part.plan (x : Part) (program plan : Nat) : Option Plan :=
  match Tab.get none x.programs program with
  | some g => g.plans[plan]?
  | none => none

/-- An index entry that a refresh consumes names no usable key (R130, R163): none is registered, it covers too few limbs, or it belongs to
another key set. -/
def entryUnusable (x : Part) (keyset : Nat) (e : KeyEntry) : Bool :=
  match x.keyUse e with
  | some u => decide (u.hdr.keyLimbs ≤ e.level) || e.keyset != keyset
  | none => true

/-- The level at which a plan's result lands (R145). -/
def Plan.landing (g : Plan) : Nat := g.top - g.inDepth - g.midDepth - g.outDepth

/-- What the result of a plan has whatever its outcome (R76, R145, R146, R561): in form 0 the plan's LOG_SLOTS; `chk` asks for a check limb. DESIGN CHOICE (log
29): LIMBS is that of the lead input, or the result's LEVEL + 1 where that is larger, as R65 requires of a label. -/
def Part.planBase (x : Part) (form : Nat) (g : Plan) (chk : Bool) (base : Label) : Label :=
  x.checked { base with
    form := form, info := if form = 0 then leBytes 1 g.logSlots ++ List.replicate 15 0 else base.info, check := chk,
    limbs := if base.limbs = 0 then 0 else max base.limbs (g.landing + 1) }

/-- The label of a plan's result (R145), in evaluation representation. -/
def planLabel (base : Label) (g : Plan) : Label :=
  { base with
    level := g.landing, scale := if base.form = 0 then g.outScale else 0, noise := satNoise (max g.outNoise (128 * g.logN + 512)), repr := true }

/-- The label of a refresh (R145, R146, R148). DESIGN CHOICE (log 29): a plan of another kind gives FORM_MISMATCH, one of another ring RING_MISMATCH, one of
another key set KEYSET_MISMATCH, in that order; the spec names no cause. -/
def refreshRule (form : Nat) (g : Plan) (k : KeySet) (base : Label) (labs : List Label) : Decision :=
  match labs with
  | [a] =>
    if !formOk k [form] [2] a || g.kind ≠ form then .stop base cForm true
    else if a.logN ≠ g.logN then .stop base cRing true
    else if a.keyset ≠ g.keyset then .stop base cKeyset true
    else if form = 1 && a.level ≠ 0 then .stop base cLevel true
    else (Decision.budget k (planLabel base g)).active k base
  | _ => .stop base cForm true

/-- The comparison of a refresh's input before the raise, on limb 0 alone (R147): α = 0 is all that passes. -/
def State.raiseCompare (s : State) (x : Part) (k : KeySet) (l : Label) (a : Place) : Option Nat :=
  match l.check, k.checkP with
  | true, some c =>
    (List.range l.polys).findSome? (fun q =>
      compareFail [(k.modAt l 0, toCoeff (k.modAt l 0) l.logN l.repr (s.limb x l a 0 q))] c
        (toCoeff c l.logN l.repr (s.limb x l a l.limbs q)))
  | _, _ => none

/-! ## The stages of a refresh and of a pack -/

/-- The moduli of a raised ciphertext (step 3 of R144): the chain up to TOP_LEVEL, and the check prime when the result carries a check limb. -/
def raisedModuli (k : KeySet) (top : Nat) (chk : Bool) : List Modulus := k.chain.take (top + 1) ++ (if chk then k.checkP.toList else [])

/-- Steps 1 to 3 of R144: limb 0 of both polynomials in coefficient representation, each coefficient lifted to (−q0/2, q0/2] and reduced modulo every
modulus. -/
def State.raisedWords (s : State) (x : Part) (k : KeySet) (l : Label) (a : Place) (top : Nat) (chk : Bool) : List Nat :=
  let m0 := k.modAt l 0
  (List.range 2).flatMap (fun q =>
    let cs := (toCoeff m0 l.logN l.repr (s.limb x l a 0 q)).map (fun w => centred m0.p (fromLane m0 w))
    (raisedModuli k top chk).flatMap (fun m => cs.map (fun c => toLane m (c % (m.p : Int)).toNat)))

/-- The level of what a stage leaves (R141, R145): 0 the input stage, 1 the reduction stage, 2 the output stage. -/
def Plan.levelAfter (g : Plan) (stage : Nat) : Nat :=
  g.top - g.inDepth - (if 1 ≤ stage then g.midDepth else 0) - (if 2 ≤ stage then g.outDepth else 0)

/-- The ciphertexts that a stage of a plan leaves (step 5 of R144): two halves after the reduction stage of a refresh of full slots, which splits real and imaginary
parts. -/
def Plan.halves (g : Plan) (stage : Nat) : Nat := if g.kind ≠ 2 && stage = 1 && g.logSlots + 1 = g.logN then 2 else 1

/-- What a stage takes of its plan and key set besides its words (R141, R144, R148, R162): ring size, slots, levels, scale, the input's modulus q0 and t. -/
def Plan.given (g : Plan) (k : KeySet) : List Nat :=
  [g.logN, g.logSlots, g.top, g.inDepth, g.midDepth, g.outDepth, (g.outScale % 2 ^ 32).toNat, (k.chain.headD (k.modAt Label.zero 0)).p, k.t]

/-- A check limb that agrees with the chain limbs of its polynomial (R50, R51), in evaluation representation: the value Σ t_i·(Q/q_i) less α·Q, for an α in
the window of the comparison. -/
def checkLimb (c : Modulus) (logN : Nat) (chain : List (Modulus × List Nat)) (alpha : Nat → Nat) : List Nat :=
  let q := prodOf (chain.map (·.1))
  let sums := convSum (convSource (chain.map (fun e => (e.1, nttInverse e.1 logN e.2)))) (2 ^ logN) c.p
  nttForward c logN (sums.zipIdx.map (fun e => toLane c ((e.1 + (c.p - alpha e.2 % chain.length * q % c.p)) % c.p)))

/-- The chain limbs of one polynomial of what a stage leaves, in evaluation representation: `poly` counts the polynomials of its ciphertexts. -/
def stageChain (tag : Nat) (inputs : List (List Nat)) (k : KeySet) (logN level poly : Nat) : List (Modulus × List Nat) :=
  (k.chain.take (level + 1)).zipIdx.map (fun m =>
    (m.1, (List.range (2 ^ logN)).map (fun i => (Config.stageWord tag inputs ((poly * 64 + m.2) * 2 ^ logN + i)).toNat % m.1.p)))

/-- Its check limb, when the result carries one (R146): it agrees with the chain limbs, as the arithmetic of R50 leaves it. -/
def stageCheck (tag : Nat) (inputs : List (List Nat)) (c : Modulus) (logN poly : Nat) (chain : List (Modulus × List Nat)) : List Nat :=
  checkLimb c logN chain (fun t => (Config.stageWord tag inputs ((poly * 64 + 63) * 2 ^ logN + t)).toNat)

/-- The words that a stage leaves: ciphertext by ciphertext, polynomial by polynomial, the chain limbs in ascending order and the check limb. -/
def stageWords (tag : Nat) (inputs : List (List Nat)) (k : KeySet) (chk : Option Modulus) (logN level cts : Nat) : List Nat :=
  (List.range (2 * cts)).flatMap (fun poly =>
    let chain := stageChain tag inputs k logN level poly
    chain.flatMap (·.2) ++ (match chk with | some c => stageCheck tag inputs c logN poly chain | none => []))

/-- The comparisons at the end of a stage (R147), on inverse transforms of copies: the first failing coefficient. -/
def stageCompare (tag : Nat) (inputs : List (List Nat)) (k : KeySet) (c : Modulus) (logN level cts : Nat) : Option Nat :=
  (List.range (2 * cts)).findSome? (fun poly =>
    let chain := stageChain tag inputs k logN level poly
    compareFail (chain.map (fun e => (e.1, nttInverse e.1 logN e.2))) c (nttInverse c logN (stageCheck tag inputs c logN poly chain)))

/-- The limbs (j, q, words) of the result of the last stage. -/
def stageLimbs (tag : Nat) (inputs : List (List Nat)) (k : KeySet) (l : Label) : List (Nat × Nat × List Nat) :=
  (List.range 2).flatMap (fun q =>
    let chain := stageChain tag inputs k l.logN l.level q
    chain.zipIdx.map (fun e => (e.2, q, e.1.2)) ++
      (match l.check, k.checkP with | true, some c => [(l.limbs, q, stageCheck tag inputs c l.logN q chain)] | _, _ => []))

/-- The span of the constants that a stage reads in a room (R143); how many bytes the compiler has laid out there is its own matter: a free length. -/
def Plan.constants (g : Plan) (room stage : Nat) : Span :=
  { room := room, cellar := true, off := g.constHome, len := Config.stageShape g.constHome stage 0 % (stackBytes - g.constHome + 1) }

/-- The index entries that a stage of a plan consumes, of those that are left; the last stage takes them all (R143). -/
def Plan.stageEntries (g : Plan) (stage last left : Nat) : Nat := if stage = last then left else Config.stageShape g.constHome stage 1 % (left + 1)

/-- The words that the key switches of a stage read for the entries they consume. -/
def State.stageKeys (s : State) (x : Part) (k : KeySet) (chk : Bool) (ents : List KeyEntry) (room : Nat) : List Span :=
  ents.flatMap (fun e => match x.keyUse e with
    | some u => s.keySpans x { u with ents := [(room, e)] } k e.level chk room
    | none => [])

/-- One room's operation in parts: where it stands, when the room goes on with the one whose first result goes to `dst`. -/
def Room.goesOn (x : Room) (dst : Place) : Option Progress := x.progress.filter (fun g => g.dst == dst)

/-- A part of an operation ends its block (R143, R160), and what it leaves is there for the room's next one, when the part met no error that the block is
replayed for. -/
def Room.endPart (x : Room) (next : Option Progress) : Room :=
  if x.block.any (fun b => b.error.isSome || b.failed) then x
  else { x with progress := next, block := x.block.map (fun b => { b with closed := true }) }

/-- The entries of an operation's part are taken in a room (R143, R163). -/
def State.takeEntries (s : State) (p room n : Nat) (runs : Bool) : State :=
  ((s.room room).keyEntries.take n).foldl (fun t e => t.consume p room e (t.room room).keyEntries.tail runs) s

/-- The cause that a part has met in a third execution (R77, R459). -/
def State.partCause (s : State) (room : Nat) (r : RoomResult) : Option Nat :=
  if !(s.room room).takesErrors then none
  else if r.reads.any (s.readBad r.pieces) || (s.room room).readsTaint r.reads then some cMemory
  else if r.mism.isSome then some cCheck else none

/-- What a part of a refresh or pack reads in a room, as the inputs of its stage: what the plan gives, the words (the first part's, or what the last part left), the
constants and the keys. -/
def State.stageInputs (s : State) (room : Nat) (pl : Plan) (k : KeySet) (g : Progress) (first : List Nat) (keys : List Span) : List (List Nat) :=
  [pl.given k, if g.part = 0 then first else g.words.tail, (s.spanBytes (pl.constants room g.part)).map (·.toNat),
    keys.flatMap (fun sp => wordsOf (s.spanBytes sp))]

/-- The index entries that a part of a refresh or pack consumes in a room. -/
def Plan.partEntries (pl : Plan) (g : Progress) (last : Nat) : Nat := pl.stageEntries g.part last (pl.rotCount - g.words.headD 0)

/-- One part of a refresh or pack of a plan in a room: part `g.part` of `last` + 1. `first` gives the words that the first part reads besides constants and keys,
and the spans of them; `start` its comparison before the raise, which takes limb 0 alone (R55, R147). When the result carries a check limb, both polynomials of each
ciphertext are compared at the end of each stage; the key switches inside a stage compare words that the spec does not fix, and find no mismatch, as R51 has it of
an uncorrupted coefficient. A part that meets an entry without a usable key makes the result MISSING_KEY (R130, R163), which then has its label alone (R76). The
last part writes the result. -/
def State.stageRoom (s : State) (p room : Nat) (pl : Plan) (k : KeySet) (last : Nat) (g : Progress) (first : List Nat)
    (reads : List Span) (start : Option Nat) : RoomResult × Option Progress :=
  let x := s.part p
  let l := g.lab
  let n := pl.partEntries g last
  let ents := (s.room room).keyEntries.take n
  let keys := s.stageKeys x k l.check ents room
  let tag := 4 * pl.kind + g.part
  let inputs := s.stageInputs room pl k g first keys
  let chk := if l.check then k.checkP else none
  let level := pl.levelAfter g.part
  let raise := if g.part = 0 then start else none
  let mism := raise.orElse (fun _ => chk.bind (fun c => stageCompare tag inputs k c pl.logN level (pl.halves g.part)))
  let cause := g.cause.orElse (fun _ => if ents.any (entryUnusable x pl.keyset) then some cMissing else none)
  let spans := (if g.part = 0 then reads else []) ++ pl.constants room g.part :: keys
  let uses := ents.filterMap (fun e => (x.keyUse e).map (fun u => (u.hdr, e.level)))
  let r : RoomResult :=
    { lab := match cause with | some c => l.poisonWith c | none => l
      runs := if g.part = last then ownRuns x l room (stageLimbs tag inputs k l) else []
      fresh := cause.isSome, inner := decide (g.part ≠ last), reads := spans
      mism := mism.map (fun c => (c, x.roomAt (slabRoom x.rooms.length pl.logN c) == room))
      limbs := limbMask (if raise.isSome then 0 else level), cross := true
      conv := uses.flatMap (fun e => switchConvs k e.1 e.2 l.check), wide := some false
      moduli := (l.inUse.filter (ownsPair x l room)).map (k.modAt l), after := chk.toList }
  let stopped : RoomResult :=
    { RoomResult.ofStop (.stop l cMissing true) spans with inner := decide (g.part ≠ last), cross := true }
  (if cause = some cMissing then stopped else r,
   if g.part = last then none
   else some { g with
    part := g.part + 1, words := (g.words.headD 0 + n) :: stageWords tag inputs k chk pl.logN level (pl.halves g.part)
    cause := cause.orElse (fun _ => s.partCause room r) })

/-- The twiddle sets that a part of a refresh or pack needs (R93): those of the chain from the level it starts at, of its keys' special primes and, with a check limb,
of the check prime. -/
def State.stageNeed (s : State) (p room : Nat) (pl : Plan) (last : Nat) (g : Progress) : List (Nat × Nat) :=
  let ents := (s.room room).keyEntries.take (pl.partEntries g last)
  let special := ents.foldl (fun n e => match (s.part p).keyUse e with | some u => max n u.hdr.special | none => n) 0
  switchSets pl.keyset (if g.part = 0 then pl.top else pl.levelAfter (g.part - 1)) special g.lab.check

/-- A refresh or pack whose entries are there takes its next part in every dispatching room. -/
def State.planRun (s : State) (p : Nat) (dst : Place) (pl : Plan) (last : Nat) (ends : Nat → Bool) (at_ : Nat → Progress) (takes : Nat → Nat)
    (decide_ : Nat → Decision) (ks : Nat → Option KeySet) (labels : Nat → List Span) (first : Nat → List Nat) (reads : Nat → List Span)
    (start : Nat → Option Nat) : State :=
  if s.starvedAt p (fun room => if ends room then 0 else takes room) ||
      !s.setsValid p (fun room => if ends room then [] else s.stageNeed p room pl last (at_ room)) then s
  else
    ((s.opRooms p).foldl (fun t room =>
      if ends room then
        ((t.takeEntries p room (takes room) false).performRoom p room dst (RoomResult.ofStop (decide_ room) (labels room))).countOp room
      else
        match ks room with
        | some k =>
          let r := s.stageRoom p room pl k last (at_ room) (first room) (labels room ++ reads room) (start room)
          let u := ((t.takeEntries p room (takes room) true).performRoom p room dst r.1).countOp room
          u.setRoom room ((u.room room).endPart r.2)
        | none => t) s).draw (2 ^ 25)

/-- A refresh or pack of a plan (R143, R144, R148, R162) in every dispatching room: dispatched once, then part by part, each of which ends the room's
block; a part that waits for an index entry waits (R130). Its entries are consumed unread when it ends at dispatch (R163). The sequencer gives the
operation again for each part (log 27). -/
def State.planOp (s : State) (p : Nat) (dst : Place) (pl : Plan) (last : Nat) (decide_ : Nat → Decision) (ks : Nat → Option KeySet)
    (labels : Nat → List Span) (first : Nat → List Nat) (reads : Nat → List Span) (start : Nat → Option Nat) : State :=
  let at_ (room : Nat) : Progress := ((s.room room).goesOn dst).getD { dst := dst, part := 0, lab := (decide_ room).lab }
  let ends (room : Nat) : Bool := ((s.room room).goesOn dst).isNone && ((decide_ room).ends || (ks room).isNone)
  let takes (room : Nat) : Nat := if ends room then pl.rotCount else pl.partEntries (at_ room) last
  let u := s.pulled p takes
  if s.hotStack p then s
  else if !u.entriesThere p takes then s.awaitEntries p takes
  else u.planRun p dst pl last ends at_ takes decide_ ks labels first reads start

/-- A refresh (R144, R148): its input, reduction and output stages. -/
def State.refreshOp (s : State) (p : Nat) (dst a : Place) (program plan form : Nat) : State :=
  let x := s.part p
  match x.plan program plan with
  | none => s
  | some g =>
    let lab (room : Nat) : Label := (s.labelAt x room a).lab
    let decide_ (room : Nat) : Decision :=
      let l := s.labelAt x room a
      let base := x.planBase form g l.source.check (baseLabel [l] (some 2) x.rooms.length)
      dispatchOn x [l] base [form] (fun k labs => refreshRule form g k base labs)
    let ks (room : Nat) : Option KeySet := x.ksOf (lab room)
    s.planOp p dst g 2 decide_ ks (fun room => [a.labelSpan room])
      (fun room => match ks room with | some k => s.raisedWords x k (lab room) a g.top (decide_ room).lab.check | none => [])
      (fun room => objSpans x { lab room with level := 0 } a)
      (fun room => match ks room with | some k => if (decide_ room).lab.check then s.raiseCompare x k (lab room) a else none | none => none)

/-- APPROXIMATE_REFRESH (R144). A plan that the program does not carry is no operation (log 13). -/
def execApproximateRefresh (p : PartId) (dst a : Place) (program : Nat) (plan : Nat) (s : State) : Host.Outcome State Fault Refusal :=
  .next (s.refreshOp p dst a program plan 0)

/-- EXACT_REFRESH (R148). -/
def execExactRefresh (p : PartId) (dst a : Place) (program : Nat) (plan : Nat) (s : State) : Host.Outcome State Fault Refusal :=
  .next (s.refreshOp p dst a program plan 1)

/-! ## Extraction (R152) -/

/-- The label of an extraction (R145). DESIGN CHOICE (log 79): a key set without an LWE prime, under which no sample can be written, gives
KEYSET_MISMATCH; the spec names no cause. -/
def extractRule (k : KeySet) (base : Label) (labs : List Label) : Decision :=
  match labs, k.lweP with
  | [a], some q =>
    if !formOk k [0, 1] [2] a then .stop base cForm true
    else if a.form = 1 && a.level ≠ 0 then .stop base cLevel true
    else if a.repr then .stop base cRepr true
    else
      let lq : Int := lambdaOf q.p
      let l0 : Int := k.lam1 0
      let scale := if a.form = 0 then a.scale + lq - l0 else lq - k.tau
      (Decision.budget k { base with
        level := 0, scale := scale, noise := satNoise (max (a.noise + lq - l0) (a.g + 512) + 256) }).active k base
  | _, _ => .stop base cKeyset true

/-- The fields of an extraction's result besides R145's: a DEALT batch of COUNT samples of the key set's dimension (R152). -/
def extractBase (ins : List LabelIn) (dim count rooms : Nat) : Label :=
  let l := leadOf ins
  let b : Label := { l with
    form := 2, logN := 0, limbs := 1, polys := 1, layout := 0, home := 0, check := false, repr := false, poison := false, cause := 0,
    level := 0, info := leBytes 2 dim ++ leBytes 2 0 ++ leBytes 4 count ++ List.replicate 8 0 }
  { b with bodyBytes := b.bodyLwe (max rooms 1) }

/-- x ↦ round(x·b/a), to nearest; the tie, which the spec leaves open and an odd a never meets, goes up. -/
def roundScale (x a b : Nat) : Nat := (2 * x * b + a) / (2 * a)

/-- The words of one sample: coefficient i of a pair (c0, c1) given as standard residues modulo q_L (step 3 of R152). -/
def sampleOf (m : Modulus) (n dim i : Nat) (c0 c1 : Array Nat) : List Nat :=
  (List.range dim).map (fun j =>
    toLane m (if j ≤ i then c1.getD (i - j) 0 % m.p else (m.p - c1.getD (n + i - j) 0 % m.p) % m.p)) ++
    [toLane m (c0.getD i 0 % m.p)]

/-- One room's result of an extraction that runs (R152): the level-0 key switch with the comparisons of R53 and R128 on limb 0 and the check limb, the switch to
q_L, and its own samples. The check limb of the switched pair ends with those comparisons (R146). -/
def State.extractRoom (s : State) (p room : Nat) (a : Place) (positions : List Nat) (d : Decision) (u : KeyUse) (k : KeySet) (m : Modulus) :
    RoomResult :=
  let x := s.part p
  let l := { (s.labelAt x room a).lab with level := 0 }
  let m0 := k.modAt l 0
  let sw0 : Label := { l with polys := 2, check := l.check && k.checkP.isSome }
  let input := s.coeffLimb x k l a 1
  let v := s.laneView x room l.logN
  let digits := raiseDigits k u.hdr l.logN 0 sw0.check input
  let sw := s.switchPolys x k u sw0 digits (s.addend0 x k l a 2 1) (s.addend1 x k l a 2)
  let poly (q : Nat) : Array Nat :=
    ((nttInverse m0 l.logN (((sw.1.find? (fun e => e.1 == 0 && e.2.1 == q)).map (·.2.2)).getD [])).map
      (fun w => roundScale (fromLane m0 w) m0.p m.p)).toArray
  let c0 := poly 0
  let c1 := poly 1
  let n := x.rooms.length
  let res := d.lab
  let runs := (positions.zipIdx.filter (fun e => x.roomAt (res.sampleRoom n e.2) == room)).map
    (fun e => (res.sampleOff n e.2, sampleOf m l.n res.dim (e.1 % l.n) c0 c1))
  let mism := (compareOne k sw0 input).orElse (fun _ => sw.2)
  { lab := res, runs := runs, fresh := false, reads := a.labelSpan room :: objSpans x l a ++ s.keySpans x u k 0 sw0.check room,
    mism := mism.map (fun c => (c, x.roomAt (slabRoom n l.logN c) == room)), limbs := limbMask 0, cross := true
    conv := switchConvs k u.hdr 0 sw0.check ++ (if sw0.check then [k.checkP.toList] else []), wide := some false, moduli := [m]
    gate := some (s.inputGates v x room k sw0 a 1 input + v.raise k u.hdr l.logN 0 sw0.check false input +
      s.productGates v x u l.logN 0 sw0.check digits + s.endGates v x room k sw0 sw.1 +
      (if x.roomAt (l.pairRoom n 0) == room then ((sw.1.filter (fun e => e.1 == 0)).map (fun e => inverseGates m0 l.logN e.2.2)).sum else 0)) }

/-- What one room decides for an extraction: the decision, and the key when it runs. -/
def State.extractPlan (s : State) (p room : Nat) (a : Place) (positions : List Nat) (ents : List (Nat × KeyEntry)) : Decision × Option KeyUse :=
  let x := s.part p
  let l := s.labelAt x room a
  let dim := match x.keyset l.source.keyset with | some k => k.lweDim | none => 0
  let base := extractBase [l] dim positions.length x.rooms.length
  let d := dispatchOn x [l] base [0, 1] (fun k labs => extractRule k base labs)
  if d.ends then (d, none)
  else
    match (s.room room).keyEntries.head? with
    | some e =>
      match x.keyUse e with
      | some u => if entryMatches e u { l.lab with level := 0 } 2 1 then (d, some { u with ents := ents }) else (.stop base cMissing true, none)
      | none => (.stop base cMissing true, none)
    | none => (.stop base cMissing true, none)

/-- The twiddle sets that a planned extraction needs: those of its key switch at level 0 (R93). -/
def extractNeed (x : Part) (l : Label) (pl : Decision × Option KeyUse) : List (Nat × Nat) :=
  match pl.2 with
  | some u => switchSets l.keyset 0 u.hdr.special (l.check && (x.ksOf l).any (fun k => k.checkP.isSome))
  | none => []

/-- EXTRACT (R152): one index entry of KIND 2, ROT 1. -/
def execExtract (p : PartId) (dst a : Place) (positions : List Nat) (s : State) : Host.Outcome State Fault Refusal :=
  let x := s.part p
  let plan (room : Nat) : Decision × Option KeyUse := s.extractPlan p room a positions (s.entriesAt p (fun _ => some 0))
  .next
    (if s.opHot p [dst, a] || positions.isEmpty then s
    else if !s.entriesThere p (fun _ => 1) then s.awaitEntries p (fun _ => 1)
    else if s.starvedAt p (fun room => if (plan room).2.isSome then 1 else 0) || !s.setsValid p (fun room => extractNeed x (s.labelAt x room a).lab (plan room)) then s
    else
      ((s.opRooms p).foldl (fun t room =>
        let pl := plan room
        let k := x.ksOf (s.labelAt x room a).lab
        let r := match pl.2, k, k.bind (·.lweP) with
          | some u, some k, some m => s.extractRoom p room a positions pl.1 u k m
          | _, _, _ => RoomResult.ofStop pl.1 [a.labelSpan room]
        ((t.takeEntries p room 1 pl.2.isSome).performRoom p room dst r).countOp room) s).draw (2 ^ 25))

/-! ## LWE samples (R145, R150) -/

/-- What the result of an operation on samples has whatever its outcome (R76, R145, R561). -/
def sampleBase (ins : List LabelIn) : Label := { leadOf ins with form := 2, polys := 1, poison := false, cause := 0 }

/-- An operation on batches of samples in place of limbs: `make` gives the words of sample i, and `gated` counts its gated lane operations (R46). -/
def State.lweOp (s : State) (p : Nat) (dst : Place) (places : List Place) (early : Option KeySet → List Label → Option Nat)
    (rule : KeySet → Label → List Label → Decision) (make : Modulus → List (List Nat) → List Nat)
    (gated : Modulus → List (List Nat) → Nat) : State :=
  let x := s.part p
  let n := x.rooms.length
  s.runOp p dst (fun room =>
    let ins := places.map (s.labelAt x room)
    let labs := ins.map (·.lab)
    let base : Label := sampleBase ins
    let d := dispatchOn x ins base [2] (fun k ls => rule k base ls) early
    match d.ends, (x.ksFor labs).bind (·.lweP) with
    | false, some m =>
      let res := d.lab
      let mine := (List.range res.count).filter (fun i => x.roomAt (res.sampleRoom n i) == room)
      let words (i : Nat) : List (List Nat) := (List.zip labs places).map (fun e => s.sample x e.1 e.2 i)
      { lab := res, fresh := false, mism := none, wide := some false, moduli := [m], gate := some ((mine.map (fun i => gated m (words i))).sum)
        runs := mine.map (fun i => (res.sampleOff n i, make m (words i)))
        reads := places.map (·.labelSpan room) ++ mine.flatMap (fun i => (List.zip labs places).map (fun e => sampleSpan x e.1 e.2 i)) }
    | _, _ => RoomResult.ofStop d (places.map (·.labelSpan room)))

/-- What two batches fail before their key set is looked at (conditions 1 and 2 of R71, R150). Batches of different COUNT are of different form (log 28). -/
def lwePair (_ : Option KeySet) (labs : List Label) : Option Nat :=
  match labs with
  | [a, b] => if a.count ≠ b.count then some cForm else if a.dim ≠ b.dim then some cRing else none
  | _ => none

/-- The label of a sum of two batches (R71, R145). -/
def lweAddRule (k : KeySet) (base : Label) (labs : List Label) : Decision :=
  match labs with
  | [a, b] =>
    if a.keyset ≠ b.keyset then .stop base cKeyset true
    else if a.scale ≠ b.scale then .stop base cScale true
    else .budget k { base with noise := satNoise (max a.noise b.noise + 256) }
  | _ => .stop base cForm true

/-- LWE_ADD (R145). -/
def execLweAdd (p : PartId) (dst a b : Place) (s : State) : Host.Outcome State Fault Refusal :=
  .next (s.lweOp p dst [a, b] lwePair lweAddRule (fun m ws => List.zipWith (laneAdd m) (ws.getD 0 []) (ws.getD 1 []))
    (fun _ ws => flyCount (ws.getD 0 []) (ws.getD 1 [])))

/-- LWE_SUBTRACT (R145). -/
def execLweSubtract (p : PartId) (dst a b : Place) (s : State) : Host.Outcome State Fault Refusal :=
  .next (s.lweOp p dst [a, b] lwePair lweAddRule (fun m ws => List.zipWith (laneSub m) (ws.getD 0 []) (ws.getD 1 []))
    (fun _ ws => flyCount (ws.getD 0 []) (ws.getD 1 [])))

/-- The label of a product of a batch with an integer (R145); the NOISE of a product with 0 is a free value of the operand's (log 24). -/
def lweMulRule (c : Int) (k : KeySet) (base : Label) (labs : List Label) : Decision :=
  match labs with
  | [a] =>
    .budget k { base with noise := if c = 0 then (Config.zeroNoise a.noise).toNat else satNoise (a.noise + ceil256 c.natAbs) }
  | _ => .stop base cForm true

/-- LWE_MULTIPLY_BY_INTEGER (R145). -/
def execLweMultiplyByInteger (p : PartId) (dst a : Place) (c : Int) (s : State) : Host.Outcome State Fault Refusal :=
  .next (s.lweOp p dst [a] (fun _ _ => none) (lweMulRule c) (fun m ws => (ws.getD 0 []).map (laneMul m (laneConst m c)))
    (fun m ws => ((ws.getD 0 []).filter (fun w => macGated (laneConst m c) w 0)).length))

/-! ## Look-up refresh (R153 to R161) -/

/-- A table as a look-up reads it (R153): a well-formed header, LOG_E, OUT_SCALE, KEYSET, and its entries. -/
structure LutTable where
  ok : Bool
  logE : Nat
  outScale : Int
  keyset : Nat
  entries : List Nat
deriving DecidableEq, Repr

/-- MAGIC, VERSION, CRC and reserved fields of a table header are right (R153, R158). -/
def tableHeaderOk (h : List Byte) : Bool :=
  fieldOf h 0 4 == 0x7A8B1D44 && fieldOf h 4 1 == 1 && headerCrcOk h && fieldOf h 6 2 == 0 && (h.drop 14).take 110 == List.replicate 110 0

/-- The table of fetched bytes. A LOG_E out of R153's range is no BAD_LABEL (R158): above 12 it is above every key's LOG_E_MAX. -/
def lutTableOf (b : List Byte) : LutTable :=
  { ok := tableHeaderOk (b.take 128), logE := fieldOf b 5 1, outScale := (BitVec.ofNat 32 (fieldOf b 8 4)).toInt, keyset := fieldOf b 12 2,
    entries := wordsOf (b.drop 128) }

/-- The header line of a look-up table. -/
def State.tableSpan (_s : State) (room : Nat) (pl : Place) : Span := { room := room, cellar := pl.cellar, off := pl.off, len := 128 }

/-- The entries of a look-up table, by its header; a header that is none names none. -/
def State.tableBody (s : State) (room : Nat) (pl : Place) : Option Span :=
  let h := s.spanBytes (s.tableSpan room pl)
  if tableHeaderOk h then some { room := room, cellar := pl.cellar, off := pl.off + 128, len := 4 * 2 ^ min (fieldOf h 5 1) 12 } else none

/-- A look-up table as it is fetched. -/
def State.tableBytes (s : State) (room : Nat) (pl : Place) : List Byte :=
  s.spanBytes (s.tableSpan room pl) ++ (match s.tableBody room pl with | some b => s.spanBytes b | none => [])

/-- The precision P of samples of a SCALE (R149). -/
def lwePrecision (q : Modulus) (scale : Int) : Int := -(-((lambdaOf q.p : Int) - scale) / 256) - 1

/-- What a look-up fails before its key set is looked at: a table header (R158), a key that is not there, and a DIM that is not the key's (R150). -/
def lookUpShape (lut : Option LutHdr) (tables : List LutTable) (labs : List Label) : Option Nat :=
  if tables.any (fun e => !e.ok) then some cBadLabel
  else
    match lut with
    | none => some cMissing
    | some h => if labs.any (fun a => a.dim ≠ h.dim) then some cRing else none

/-- The decision for one output of a look-up (R92, R145, R150, R158). -/
def lookUpRule (lut : Option LutHdr) (tables : List LutTable) (t : LutTable) (k : KeySet) (base : Label) (labs : List Label) : Decision :=
  match labs, lut with
  | [a], some h =>
    if a.keyset ≠ h.keyset || tables.any (fun e => e.keyset ≠ a.keyset) then .stop base cKeyset true
    else
      let more := if tables.length = 1 then 0 else 256 * t.logE
      (Decision.budget k { base with scale := t.outScale, noise := satNoise (h.outNoise + more) }).active k base
  | _, _ => .stop base cMissing true

/-- The compute-kind cause of one output of a look-up (R157, R158). -/
def lookUpCause (q : Modulus) (h : LutHdr) (a : Label) (t : LutTable) : Option Nat :=
  if h.logEMax < t.logE || decide ((t.logE : Int) < lwePrecision q a.scale) then some cLut
  else if t.entries.any (fun w => decide (q.p ≤ w)) then some cNoncanonical
  else none

/-- The test polynomial TV of a table (R157). An entry beyond those that are fetched, which only a table above every LOG_E_MAX has, is a free value (log 27). -/
def testPoly (q : Modulus) (nbr : Nat) (prec : Int) (t : LutTable) : List Nat :=
  (List.range nbr).map (fun k =>
    let i := min ((k * 2 ^ prec.toNat + nbr / 2) / nbr) (2 ^ t.logE - 1)
    toLane q (t.entries.getD (if prec < 0 then 0 else i) (Config.openWord i).toNat % q.p))

/-- X^e·f modulo X^n + 1, coefficient by coefficient in lane form. -/
def mulMono (q : Modulus) (n e : Nat) (f : List Nat) : List Nat :=
  let a := f.toArray
  (List.range n).map (fun i =>
    let j := (i + 2 * n - e % (2 * n)) % (2 * n)
    if j < n then a.getD j 0 % q.p else laneNeg q (a.getD (j - n) 0))

/-- The product of two polynomials modulo X^n + 1, the second in evaluation representation. -/
def mulPoly (q : Modulus) (logN : Nat) (f evals : List Nat) : List Nat :=
  nttInverse q logN (List.zipWith (laneMul q) (nttForward q logN f) evals)

/-- Two polynomials added. -/
def addPoly (q : Modulus) (f g : List Nat) : List Nat := List.zipWith (laneAdd q) f g

/-- The counter block of a look-up key's a halves (R155). -/
def lutCounter (h : LutHdr) (pair entry term row : Nat) : List Byte :=
  leBytes 4 pair ++ leBytes 2 entry ++ leBytes 1 term ++ leBytes 1 row ++ leBytes 4 h.epoch.toNat ++ leBytes 2 h.keyset ++
    leBytes 1 h.index ++ leBytes 1 0x5A

/-- The expanded words of a row of a look-up key (R124, R155). -/
def lutExpand (h : LutHdr) (rks : List (List Byte)) (q : Modulus) (entry term row n : Nat) : List Nat :=
  (List.range (n / 2)).flatMap (fun i => expandPair q (aesWith rks (lutCounter h i entry term row)))

/-- The digits of an accumulator's pair of polynomials for a row of an RGSW term (R154, R156). -/
def gadgetPoly (q : Modulus) (h : LutHdr) (r : Nat) (acc : List Nat × List Nat) : List Nat :=
  List.zipWith (fun a b => toLane q (Config.gadgetDigit h.lg h.logBg r a b % q.p)) acc.1 acc.2

/-- The external product of an accumulator with term `u` of pair `i` (R155, R156): the sum over the term's rows of the digits with both halves of the row. -/
def externalProduct (q : Modulus) (h : LutHdr) (rks : List (List Byte)) (body : Nat → Nat → List Nat) (i u : Nat) (acc : List Nat × List Nat) :
    List Nat × List Nat :=
  let n := 2 ^ h.logNbr
  (List.range (2 * h.lg)).foldl (fun t r =>
    let g := gadgetPoly q h r acc
    (addPoly q t.1 (mulPoly q h.logNbr g (lutExpand h rks q i u r n)),
     addPoly q t.2 (mulPoly q h.logNbr g (body (((3 * i + u) * (2 * h.lg) + r) * n) n))))
    (List.replicate n 0, List.replicate n 0)

/-- Steps 1 to 3 of R156 for one sample: the accumulator (a, b) after every pair. -/
def blindRotate (q : Modulus) (h : LutHdr) (rks : List (List Byte)) (body : Nat → Nat → List Nat) (tv smp : List Nat) : List Nat × List Nat :=
  let n := 2 ^ h.logNbr
  let sw (j : Nat) : Nat := roundScale (fromLane q (smp.getD j 0)) q.p (2 * n) % (2 * n)
  let turn (e : Nat) (c : List Nat × List Nat) : List Nat × List Nat :=
    (List.zipWith (laneSub q) (mulMono q n e c.1) c.1, List.zipWith (laneSub q) (mulMono q n e c.2) c.2)
  (List.range (h.dim / 2)).foldl (fun acc i =>
    [(sw (2 * i), 0), (sw (2 * i + 1), 1), (sw (2 * i) + sw (2 * i + 1), 2)].foldl (fun t e =>
      let c := turn e.1 (externalProduct q h rks body i e.2 acc)
      (addPoly q t.1 c.1, addPoly q t.2 c.2)) acc)
    (List.replicate n 0, mulMono q n (2 * n - sw h.dim) tv)

/-- Step 5 of R156: a sample of dimension N_br switched to the key's dimension. -/
def lweSwitch (q : Modulus) (h : LutHdr) (rks : List (List Byte)) (body : Nat → Nat → List Nat) (smp : List Nat) : List Nat :=
  let n := 2 ^ h.logNbr
  (List.range n).foldl (fun acc k => (List.range h.lks).foldl (fun t d =>
    let g := toLane q (Config.gadgetDigit h.lks h.logBks d (smp.getD k 0) 0 % q.p)
    let row := lutExpand h rks q k 3 d h.dim ++ body (3 * h.dim * h.lg * n + k * h.lks + d) 1
    List.zipWith (fun x y => laneAdd q x (laneMul q g y)) t row) acc) (List.replicate h.dim 0 ++ [smp.getD n 0])

/-- The samples that a look-up makes of one sample, one for each table (R156, R159): with one table its test polynomial is rotated; with more, a common one,
and each table's output is a product with its factor polynomial. -/
def lookUpSamples (q : Modulus) (h : LutHdr) (rks : List (List Byte)) (body : Nat → Nat → List Nat) (tvs : List (List Nat)) (smp : List Nat) :
    List (List Nat) :=
  let n := 2 ^ h.logNbr
  let common := match tvs with | [tv] => tv | _ => (List.range n).map (fun i => (Config.sharedPoly tvs 0 i).toNat % q.p)
  let acc := blindRotate q h rks body common smp
  tvs.zipIdx.map (fun e =>
    let f := nttForward q h.logNbr ((List.range n).map (fun i => (Config.sharedPoly tvs (e.2 + 1) i).toNat % q.p))
    let out := if tvs.length = 1 then acc else (mulPoly q h.logNbr acc.1 f, mulPoly q h.logNbr acc.2 f)
    lweSwitch q h rks body (sampleOf q n n 0 (out.2.map (fromLane q)).toArray (out.1.map (fromLane q)).toArray))

/-- The span of a look-up key's body in a room (R155, R161): its pinned copy, or the one in the stack. -/
def lutSpan (x : Part) (room : Nat) (h : LutHdr) : Span :=
  match x.pinOf true h.index h.epoch room with
  | some o => { room := room, cellar := false, off := o, len := h.bodyBytes }
  | none => { room := room, cellar := true, off := h.home + 128, len := h.bodyBytes }

/-- Where a look-up stands in a room: at its start it resolves its key (R163) and fetches its tables (R160). -/
def State.lookUpAt (s : State) (p room : Nat) (dsts : List Place) (a : Place) (lut : Nat) (tables : List Place) : Progress :=
  let dst := dsts.headD a
  ((s.room room).goesOn dst).getD
    { dst := dst, part := 0, lab := (s.labelAt (s.part p) room a).lab, lut := ((s.part p).lutAt lut).inRoom room,
      tables := tables.map (s.tableBytes room) }

/-- A batch of a look-up (R160): one sample in each lane group of the room's PAUs (R462). -/
def State.lookUpBatch (s : State) (room : Nat) : Nat := 4 * (s.room room).pausLeft

/-- The decisions of a look-up in a room, one for each table. -/
def State.lookUpDecisions (s : State) (p room : Nat) (a : Place) (g : Progress) : List Decision :=
  let x := s.part p
  let l := s.labelAt x room a
  let ts := g.tables.map lutTableOf
  ts.map (fun t => dispatchOn x [l] (sampleBase [l]) [2] (fun k labs => lookUpRule g.lut ts t k (sampleBase [l]) labs) (fun _ labs => lookUpShape g.lut ts labs))

/-- The samples of a room that a look-up has still to do: none when it ends at dispatch (R76). -/
def State.lookUpLeft (s : State) (p room : Nat) (a : Place) (g : Progress) : List Nat :=
  let x := s.part p
  if (s.lookUpDecisions p room a g).all (·.ends) then []
  else (List.range g.lab.count).filter (fun i => x.roomAt (g.lab.sampleRoom x.rooms.length i) == room && !g.words.contains i)

/-- The results of one batch of a look-up in a room, one for each table, in wide-shallow mode under q_L in every lane group (R160), and where the room then stands; `last` says that no batch follows it. Spans are read
by the first result; what the batch met poisons all of them. -/
def State.lookUpRoom (s : State) (p room : Nat) (a : Place) (tables : List Place) (g : Progress) (last : Bool) : List RoomResult × Progress :=
  let x := s.part p
  let l := s.labelAt x room a
  let ts := g.tables.map lutTableOf
  let base := sampleBase [l]
  let ds := s.lookUpDecisions p room a g
  let fetch := tables.map (s.tableSpan room) ++ tables.filterMap (s.tableBody room)
  let batch := (s.lookUpLeft p room a g).take (s.lookUpBatch room)
  let key := match g.lut with | some h => if batch.isEmpty then [] else [lutSpan x room h] | none => []
  let reads := (if g.part = 0 then a.labelSpan room :: fetch else []) ++ (if last then [] else fetch) ++ key ++ batch.map (sampleSpan x l.lab a)
  let port0 := (tables.filterMap (s.tableBody room)).filter (fun b => b.cellar && reads.contains b)
  let cause := g.cause.orElse (fun _ => s.partCause room { RoomResult.ofStop (.go base) reads with pieces := port0 })
  let outs (q : Modulus) (h : LutHdr) (i : Nat) : List (List Nat) :=
    let sp := lutSpan x room h
    lookUpSamples q h (roundKeys (leBytes 32 h.seed.toNat)) (fun o n => wordsOf (s.spanBytes { sp with off := sp.off + 4 * o, len := 4 * n }))
      (ts.map (testPoly q (2 ^ h.logNbr) (lwePrecision q l.lab.scale))) (s.sample x l.lab a i)
  let one (e : (Decision × LutTable) × Nat) : RoomResult :=
    let rd := if e.2 = 0 then reads else []
    let port := if e.2 = 0 then port0 else []
    match e.1.1.ends, (x.ksOf l.lab).bind (·.lweP), g.lut with
    | false, some q, some h =>
      let c := (lookUpCause q h l.lab e.1.2).orElse (fun _ => cause)
      { lab := (match c with | some v => e.1.1.lab.poisonWith v | none => e.1.1.lab), fresh := c.isSome, mism := none, reads := rd, pieces := port, inner := !last
        wide := some true, moduli := [q]
        runs := batch.map (fun i => (e.1.1.lab.sampleOff x.rooms.length i, (outs q h i).getD e.2 [])) }
    | _, _, _ => { RoomResult.ofStop e.1.1 rd with pieces := port, inner := !last }
  ((ds.zip ts).zipIdx.map one,
   { g with part := g.part + 1, words := g.words ++ batch, tables := tables.map (s.tableBytes room), cause := cause })

/-- LOOK_UP (R156): one to four tables, each with its output. Each room runs its own samples, up to 16 in a batch, and each batch ends its block (R160); the
sequencer gives the operation again for each (log 27). The key that serves it is noted as used by the block (R163). -/
def execLookUp (p : PartId) (dsts : List Place) (a : Place) (lut : Nat) (tables : List Place) (s : State) : Host.Outcome State Fault Refusal :=
  .next
    (if tables.length = 0 || 4 < tables.length || dsts.length ≠ tables.length || s.hotStack p then s
    else
      let g (room : Nat) : Progress := s.lookUpAt p room dsts a lut tables
      let last := (s.opRooms p).all (fun room => decide ((s.lookUpLeft p room a (g room)).length ≤ s.lookUpBatch room))
      ((s.opRooms p).foldl (fun t room =>
        let r := s.lookUpRoom p room a tables (g room) last
        let u := ((dsts.zip r.1).foldl (fun v e => v.performRoom p room e.1 e.2) t).countOp room
        let y := u.room room
        let z := match y.block, (g room).lut with
          | some b, some h => { y with block := some { b with keysUsed := b.keysUsed ++ [(65536 + lut, h.epoch)] } }
          | _, _ => y
        u.setRoom room (z.endPart (if last then none else some r.2))) s).draw (2 ^ 20))

/-! ## Packing (R162) -/

/-- The label of a pack (R145, R146, R162). DESIGN CHOICE (log 29): a plan of another kind gives FORM_MISMATCH, a sample DIM other than the plan's LWE_DIM or a
secret operand of another ring RING_MISMATCH, and the causes come in the order of R71; the spec names neither. -/
def packRule (g : Plan) (k : KeySet) (base : Label) (labs : List Label) : Decision :=
  match labs with
  | [a, c] =>
    if a.form ≠ 2 || c.form ≠ 0 || c.polys ≠ 2 || g.kind ≠ 2 || 2 ^ g.logN / 2 < a.count then .stop base cForm true
    else if c.logN ≠ g.logN || a.dim ≠ g.lweDim then .stop base cRing true
    else if c.keyset ≠ a.keyset || g.keyset ≠ a.keyset || !k.covers c then .stop base cKeyset true
    else if c.level < g.top then .stop base cLevel true
    else (Decision.budget k (planLabel base g)).active k base
  | _ => .stop base cForm true

/-- PACK (R162): its fields besides R145's are those of the secret operand, the lead input by POLYS. Its two stages compute the slots from the samples and the
secret operand, and remove the multiples of q_L. -/
def execPack (p : PartId) (dst a secret : Place) (program : Nat) (plan : Nat) (s : State) : Host.Outcome State Fault Refusal :=
  let x := s.part p
  .next
    (match x.plan program plan with
    | none => s
    | some g0 =>
      let g : Plan := { g0 with outDepth := 0 }
      let ins (room : Nat) : List LabelIn := [s.labelAt x room a, s.labelAt x room secret]
      let smp (room : Nat) : Label := (s.labelAt x room a).lab
      let sec (room : Nat) : Label := { (s.labelAt x room secret).lab with level := g.top }
      let decide_ (room : Nat) : Decision :=
        let base := x.planBase 0 g true (baseLabel (ins room) (some 2) x.rooms.length)
        dispatchOn x (ins room) base [0, 2] (fun k labs => packRule g k base labs)
      s.planOp p dst g 1 decide_ (fun room => x.ksOf (s.labelAt x room secret).lab)
        (fun room => [a.labelSpan room, secret.labelSpan room])
        (fun room => (List.range (smp room).count).flatMap (s.sample x (smp room) a) ++
          (sec room).inUse.flatMap (fun j => (List.range 2).flatMap (s.limb x (sec room) secret j)))
        (fun room => (List.range (smp room).count).map (sampleSpan x (smp room) a) ++ objSpans x (sec room) secret)
        (fun _ => none))

end Sys2Proof.Machine
end

