-- ==== Sys2Proof/Machine/Float.lean ====
section
/-! DEFINITION. Floating-point and narrow element arithmetic (02, 07): fp32, bf16, fp8 and block-scaled int4 (R44, R173 to R175). -/

namespace Sys2Proof.Machine

/-- A floating-point value: a finite one is ±m·2^e with m above 0. -/
inductive Flt where
  | nan
  | inf (neg : Bool)
  | zero (neg : Bool)
  | fin (neg : Bool) (m : Nat) (e : Int)
deriving DecidableEq, Repr

/-- A binary format: exponent bits, fraction bits, bias, whether the top exponent holds infinities and NaN, whether subnormals are kept. -/
structure FltFmt where
  eb : Nat
  fb : Nat
  bias : Nat
  ieee : Bool
  subs : Bool
deriving DecidableEq, Repr

/-- fp32. -/
def fmt32 : FltFmt := { eb := 8, fb := 23, bias := 127, ieee := true, subs := false }
/-- bf16. -/
def fmtBf16 : FltFmt := { eb := 8, fb := 7, bias := 127, ieee := true, subs := false }
/-- fp8 E4M3. -/
def fmtE4M3 : FltFmt := { eb := 4, fb := 3, bias := 7, ieee := false, subs := true }
/-- fp8 E5M2. -/
def fmtE5M2 : FltFmt := { eb := 5, fb := 2, bias := 15, ieee := true, subs := true }

/-- The value of a bit pattern; subnormals are flushed to zero where the format does not keep them (R44, R173). -/
def FltFmt.decode (f : FltFmt) (v : Nat) : Flt :=
  let frac := v % 2 ^ f.fb
  let ex := v / 2 ^ f.fb % 2 ^ f.eb
  let neg := bitOf v (f.fb + f.eb)
  if f.ieee && ex = 2 ^ f.eb - 1 then (if frac = 0 then .inf neg else .nan)
  else if !f.ieee && ex = 2 ^ f.eb - 1 && frac = 2 ^ f.fb - 1 then .nan
  else if ex = 0 then
    if frac = 0 || !f.subs then .zero neg else .fin neg frac (1 - (f.bias : Int) - f.fb)
  else .fin neg (frac + 2 ^ f.fb) ((ex : Int) - f.bias - f.fb)

/-- m·2^(−k) rounded to an integer, to nearest with ties to even. -/
def rneShift (m k : Nat) : Nat :=
  let q := m / 2 ^ k
  let r := m % 2 ^ k
  if 2 * r < 2 ^ k then q else if 2 ^ k < 2 * r then q + 1 else q + q % 2

/-- m·2^e rounded to an integer, to nearest with ties to even. -/
def rneInt (m : Nat) (e : Int) : Nat := if 0 ≤ e then m * 2 ^ e.toNat else rneShift m (-e).toNat

/-- The bit pattern of a value in a format, with one rounding to nearest, ties to even; overflow gives the largest finite value with `sat`
and infinity or NaN without (R174); subnormal results are flushed where the format does not keep them (log 30). -/
def FltFmt.encode (f : FltFmt) (sat : Bool) (nanBits : Nat) (x : Flt) : Nat :=
  let sgn (neg : Bool) : Nat := if neg then 2 ^ (f.fb + f.eb) else 0
  let top := if f.ieee then (2 ^ f.eb - 2) * 2 ^ f.fb + (2 ^ f.fb - 1) else (2 ^ f.eb - 1) * 2 ^ f.fb + (2 ^ f.fb - 2)
  let tooBig (neg : Bool) : Nat :=
    if sat then sgn neg + top else if f.ieee then sgn neg + (2 ^ f.eb - 1) * 2 ^ f.fb else nanBits
  match x with
  | .nan => nanBits
  | .zero neg => sgn neg
  | .inf neg => if f.ieee then sgn neg + (2 ^ f.eb - 1) * 2 ^ f.fb else tooBig neg
  | .fin neg m e =>
    let emin : Int := 1 - (f.bias : Int)
    let lead : Int := e + m.log2
    let q : Int := max lead emin - f.fb
    let r := rneInt m (e - q)
    let pat := if r < 2 ^ f.fb then r else ((max lead emin + f.bias - 1).toNat * 2 ^ f.fb + r)
    if top < pat then tooBig neg
    else if pat < 2 ^ f.fb && !f.subs then sgn neg
    else sgn neg + pat

/-- An fp32 word (R44): a NaN is 0x7FC0_0000 and overflow is infinity. -/
def enc32 (x : Flt) : Nat := fmt32.encode false 0x7FC00000 x
/-- The value of an fp32 word. -/
def dec32 (v : Nat) : Flt := fmt32.decode v

/-- The sign of a value. -/
def Flt.neg : Flt → Bool
  | .nan => false
  | .inf n => n
  | .zero n => n
  | .fin n _ _ => n

/-- The exact product. -/
def Flt.mul (x y : Flt) : Flt :=
  match x, y with
  | .nan, _ => .nan
  | _, .nan => .nan
  | .inf _, .zero _ => .nan
  | .zero _, .inf _ => .nan
  | .inf a, b => .inf (a != b.neg)
  | a, .inf b => .inf (a.neg != b)
  | .zero a, b => .zero (a != b.neg)
  | a, .zero b => .zero (a.neg != b)
  | .fin a m e, .fin b n f => .fin (a != b) (m * n) (e + f)

/-- A value with its sign changed. -/
def Flt.negate : Flt → Flt
  | .nan => .nan
  | .inf n => .inf (!n)
  | .zero n => .zero (!n)
  | .fin n m e => .fin (!n) m e

/-- The exact sum; a sum of opposite finite values is +0, as rounding to nearest gives. -/
def Flt.add (x y : Flt) : Flt :=
  match x, y with
  | .nan, _ => .nan
  | _, .nan => .nan
  | .inf a, .inf b => if a = b then .inf a else .nan
  | .inf a, _ => .inf a
  | _, .inf b => .inf b
  | .zero a, .zero b => .zero (a && b)
  | .zero _, b => b
  | a, .zero _ => a
  | .fin a m e, .fin b n f =>
    let q := min e f
    let u : Int := (if a then -1 else 1) * (m * 2 ^ (e - q).toNat : Nat) + (if b then -1 else 1) * (n * 2 ^ (f - q).toNat : Nat)
    if u = 0 then .zero false else .fin (decide (u < 0)) u.natAbs q

/-- A comparison of values that are not NaN: x is below y. -/
def Flt.lt (x y : Flt) : Bool :=
  match x, y with
  | .nan, _ => false
  | _, .nan => false
  | .inf a, .inf b => a && !b
  | .inf a, _ => a
  | _, .inf b => !b
  | a, b =>
    match a.add b.negate with
    | .fin n _ _ => n
    | _ => false

/-- The values are equal. -/
def Flt.eq (x y : Flt) : Bool := !x.lt y && !y.lt x && x != .nan && y != .nan

/-- An integer as a value. -/
def Flt.ofInt (v : Int) : Flt := if v = 0 then .zero false else .fin (decide (v < 0)) v.natAbs 0

/-- The bf16 fused multiply-add of R44: the product is exact and the sum is rounded once. -/
def fmaBf16 (a b c : Nat) : Nat := enc32 (((fmtBf16.decode a).mul (fmtBf16.decode b)).add (dec32 c))

/-- A signed reading of the low `w` bits. -/
def signedOf (w v : Nat) : Int := if bitOf v (w - 1) then (v % 2 ^ w : Nat) - (2 ^ w : Nat) else (v % 2 ^ w : Nat)
/-- An integer as a 32-bit word. -/
def word32 (v : Int) : Nat := (v % (2 ^ 32 : Int)).toNat

/-- Bits of an element of each ELEM code (R173). -/
def elemBits (e : Nat) : Nat := match e with | 0 => 16 | 1 => 8 | 2 => 8 | 3 => 8 | 4 => 4 | _ => 32

/-- The value of an element of a floating or integer ELEM code other than the block-scaled one. -/
def elemFlt (e v : Nat) : Flt :=
  match e with
  | 0 => fmtBf16.decode v
  | 1 => fmtE4M3.decode v
  | 2 => fmtE5M2.decode v
  | 3 => .ofInt (signedOf 8 v)
  | 4 => .ofInt (signedOf 4 v)
  | 5 => dec32 v
  | _ => .ofInt (signedOf 32 v)

/-- A value rounded to an integer, to nearest with ties to even. -/
def Flt.toInt (x : Flt) : Option Int :=
  match x with
  | .nan => none
  | .inf _ => none
  | .zero _ => some 0
  | .fin n m e => some (if n then -(rneInt m e : Int) else rneInt m e)

/-- An integer narrowed to `w` bits: clamped with `sat`, else its low bits (R174). -/
def narrowInt (w : Nat) (sat : Bool) (v : Int) : Nat :=
  let lo : Int := -(2 ^ (w - 1) : Nat)
  let hi : Int := (2 ^ (w - 1) : Nat) - 1
  let u := if sat then max lo (min hi v) else v
  (u % ((2 ^ w : Nat) : Int)).toNat

/-- A value narrowed to an ELEM code other than the block-scaled one (R174). An infinite value in an integer format clamps with `sat`; what
else an infinity or NaN gives there is not stated: none. -/
def narrowFlt (e : Nat) (sat : Bool) (x : Flt) : Option Nat :=
  let int (w : Nat) : Option Nat :=
    match x with
    | .inf n => if sat then some (narrowInt w true (if n then -(2 ^ w : Nat) else (2 ^ w : Nat))) else none
    | y => y.toInt.map (narrowInt w sat)
  match e with
  | 0 => some (fmtBf16.encode sat 0x7FC0 x)
  | 1 => some (fmtE4M3.encode sat 0x7F x)
  | 2 => some (fmtE5M2.encode sat 0x7E x)
  | 3 => int 8
  | 4 => int 4
  | 5 => some (fmt32.encode sat 0x7FC00000 x)
  | _ => int 32

/-- The value of a block-scaled element (R175): element · 2^(s − 127), and NaN for a scale of 0xFF. -/
def blockFlt (s v : Nat) : Flt :=
  if s = 255 then .nan else (Flt.ofInt (signedOf 4 v)).mul (.fin false 1 ((s : Int) - 127))

/-- ⌈log2(m/7)⌉ of a positive finite value: the least k with m ≤ 7·2^k. -/
def scaleExp (m : Nat) (e : Int) : Int :=
  let k : Int := e + m.log2 - 3
  let fits (k : Int) : Bool := !(Flt.lt (.fin false 7 k) (.fin false m e))
  if fits k then k else if fits (k + 1) then k + 1 else k + 2

/-- The larger of two magnitudes. -/
def absMax (a b : Flt) : Flt :=
  let mag (x : Flt) : Flt := if x.neg then x.negate else x
  if (mag a).lt (mag b) then mag b else mag a

/-- The scale byte of a block of values (R175). A block with an infinity takes the largest scale. -/
def blockScale (xs : List Flt) : Nat :=
  if xs.contains .nan then 255
  else
    match xs.foldl absMax (.zero false) with
    | .fin _ m e => (max 0 (min 254 (127 + scaleExp m e))).toNat
    | .inf _ => 254
    | _ => 0

/-- The element of a value under a scale byte (R175). -/
def blockElem (s : Nat) (x : Flt) : Nat :=
  match x with
  | .inf n => if n then 8 else 7
  | y => narrowInt 4 true (((y.mul (.fin false 1 (127 - (s : Int)))).toInt).getD 0)

end Sys2Proof.Machine
end

