-- ==== Sys2Proof/Machine/Approx.lean ====
section
/-! DEFINITION. The approximate functions of the vector engine (R176): what each gives for the table's special inputs, and for any other input a free value
that is held to the table's error bound, measured against the function itself computed in fixed point (log 5). -/

namespace Sys2Proof.Machine

/-- 2^(f/2^64) in units of 2^(−96): the bits of f, most significant first, each with its root 2^(2^(−i)). -/
def exp2Frac : Nat → Nat → Nat → Nat → Nat
  | 0, _, _, acc => acc
  | n + 1, r, f, acc =>
    let root := Nat.sqrt (r * 2 ^ 96)
    if f / 2 ^ 63 % 2 = 1 then exp2Frac n root (2 * f % 2 ^ 64) (acc * root / 2 ^ 96) else exp2Frac n root (2 * f % 2 ^ 64) acc

/-- 2^(v/2^64). -/
def exp2Fix (v : Int) : Flt :=
  .fin false (exp2Frac 64 (2 ^ 97) (v % (2 ^ 64 : Int)).toNat (2 ^ 96)) (v / (2 ^ 64 : Int) - 96)

/-- A finite value in units of 2^(−64), its magnitude rounded down. -/
def Flt.fix64 : Flt → Int
  | .fin n m e => (if n then -1 else 1) * ((if 0 ≤ e + 64 then m * 2 ^ (e + 64).toNat else m / 2 ^ (-(e + 64)).toNat : Nat) : Int)
  | _ => 0

/-- A number in units of 2^(−64) as a value. -/
def fltOfFix (v : Int) : Flt := if v = 0 then .zero false else .fin (decide (v < 0)) v.natAbs (-64)

/-- The fraction bits of log2 of y/2^96 for y from 2^96 to 2^97, by repeated squaring. -/
def log2Frac : Nat → Nat → Nat → Nat
  | 0, _, acc => acc
  | n + 1, y, acc =>
    let z := y * y / 2 ^ 96
    if 2 ^ 97 ≤ z then log2Frac n (z / 2) (2 * acc + 1) else log2Frac n z (2 * acc)

/-- log2 of m·2^e, in units of 2^(−64). -/
def log2Fix (m : Nat) (e : Int) : Int :=
  (e + m.log2) * (2 ^ 64 : Int) + (log2Frac 64 (m * 2 ^ 96 / 2 ^ m.log2) 0 : Nat)

/-- e^t of a magnitude t of at most 40 in units of 2^(−64), itself in those units; log2 of Euler's number is 26613026195688644983·2^(−64). -/
def expFix (t : Nat) : Nat :=
  match exp2Fix ((min t (40 * 2 ^ 64) * 26613026195688644983 / 2 ^ 64 : Nat) : Int) with
  | .fin _ m e => if 0 ≤ e + 64 then m * 2 ^ (e + 64).toNat else m / 2 ^ (-(e + 64)).toNat
  | _ => 0

/-- A function of R176 at a value that its table does not list as special, far more closely than its error bound. -/
def approxRef (code : Nat) (x : Flt) : Flt :=
  let one := 2 ^ 64
  match x with
  | .fin n m e =>
    match code with
    | 0 => exp2Fix x.fix64
    | 1 => fltOfFix (log2Fix m e)
    | 2 => .fin n (2 ^ (96 + m.log2) / m) (-(96 + m.log2 : Nat) - e)
    | 3 => if e % 2 = 0 then .fin false (Nat.sqrt (2 ^ 192 / m)) (-96 - e / 2) else .fin false (Nat.sqrt (2 ^ 192 / (2 * m))) (-96 - (e - 1) / 2)
    | 4 =>
      let ex := expFix (2 * x.fix64.natAbs)
      let v := (ex - one) * one / (ex + one)
      fltOfFix (if n then -(v : Int) else v)
    | _ =>
      let ex := expFix x.fix64.natAbs
      fltOfFix ((if n then one * one / (ex + one) else ex * one / (ex + one) : Nat) : Int)
  | .zero _ => if code = 0 then .fin false 1 0 else if code = 5 then .fin false 1 (-1) else .zero false
  | _ => if code = 1 then x else .zero false

/-- The magnitude of a value. -/
def Flt.mag (x : Flt) : Flt := if x.neg then x.negate else x

/-- The error that R176 allows at a value whose function is `ref`: relative to it, or absolute; less a part in 2^34 for how closely `approxRef` is computed, so that
no value beyond the table's bound passes. -/
def approxBound (code : Nat) (x ref : Flt) : Flt :=
  let part (k : Int) (y : Flt) : Flt := y.mag.mul (.fin false (2 ^ 34 - 1) (-34 - k))
  let one : Flt := .fin false 1 0
  match code with
  | 0 => part 21 ref
  | 1 => if !x.lt (.fin false 1 (-1)) && !(Flt.fin false 1 1).lt x then part 21 one else part 21 ref
  | 2 => part 22 ref
  | 3 => part 22 ref
  | _ => part 21 one

/-- A function of R176 at a value that its table does not list: the free value of log 5 where it lies within the bound, else the function rounded to fp32. -/
def approxAt (code a : Nat) : Nat :=
  let x := dec32 a
  let ref := approxRef code x
  let y := Config.approxFn code (BitVec.ofNat 32 a)
  let d := ((dec32 y.toNat).add ref.negate).mag
  if d == .nan || x == .inf false || x == .inf true || (approxBound code x ref).lt d then enc32 ref else enc32 (dec32 y.toNat)

/-! ## The normal and Gumbel distributions (R281, R282) -/

/-- ln of m·2^e in units of 2^(−64); ln 2 is 12786308645202655659·2^(−64). -/
def lnFix (m : Nat) (e : Int) : Int := log2Fix m e * 12786308645202655659 / (2 ^ 64 : Int)

/-- The Taylor series of the cosine, term by term, in units of 2^(−96): fuel, terms so far, the current term, x squared, the sum. -/
def cosSum : Nat → Nat → Int → Int → Int → Int
  | 0, _, _, _, acc => acc
  | n + 1, k, t, xx, acc => cosSum n (k + 1) (-(t * xx / (2 ^ 96 : Int)) / ((2 * k + 1) * (2 * k + 2) : Nat)) xx (acc + t)

/-- cos(2π·f/2^24) in units of 2^(−64); 2π is 497805226624462170461043889244·2^(−96). -/
def cosTurn (f : Nat) : Int :=
  let x : Int := (f % 2 ^ 24 * 497805226624462170461043889244 / 2 ^ 24 : Nat)
  cosSum 40 0 (2 ^ 96) (x * x / (2 ^ 96 : Int)) 0 / (2 ^ 32 : Int)

/-- The value that R281 gives an element of DIST 3, from its two words, or DIST 4, from one, in units of 2^(−64). The sine is the cosine a quarter turn
back. -/
def distRef (dist w0 w1 : Nat) (odd : Bool) : Int :=
  if dist = 3 then
    let r := Nat.sqrt ((-2 * lnFix (w0 / 2 ^ 8 + 1) (-24)).toNat * 2 ^ 64)
    r * cosTurn (w1 / 2 ^ 8 + (if odd then 3 * 2 ^ 22 else 0)) / (2 ^ 64 : Int)
  else -lnFix (-lnFix (2 * (w0 / 2 ^ 8) + 1) (-25)).toNat (-64)

/-- The fp32 value of an element of DIST 3 or 4: the free value of log 5 where R282's bound allows it; in DIST 3 beyond 4 in magnitude, where no bound is
stated, where it has the sign of the value of R281 and a magnitude above 4 that the tail's cut allows (R286: √(48 ln 2), rounded upward); else that value rounded. -/
def distAt (dist w0 w1 : Nat) (odd : Bool) : Nat :=
  let ref := fltOfFix (distRef dist w0 w1 odd)
  let y := enc32 (dec32 (Config.distFn dist (BitVec.ofNat 32 w0) (BitVec.ofNat 32 w1) odd).toNat)
  let d := ((dec32 y).add ref.negate).mag
  let tail := dist = 3 && (Flt.fin false 1 2).lt ref.mag && (dec32 y).neg == ref.neg && (Flt.fin false 1 2).lt (dec32 y).mag &&
    !(Flt.fin false 6048260 (-20)).lt (dec32 y).mag
  if tail || d.lt (.fin false 1 (-20)) then y else enc32 ref

end Sys2Proof.Machine
end

