-- ==== Sys2Proof/Machine/Vector.lean ====
section
/-! DEFINITION. The vector engine and the fast generator (07, 11): the six stages of R164, compress, expand, Philox, and the plaintext
products of the PAU lanes. -/

namespace Sys2Proof.Machine

/-! ## The fast generator (R280 to R282) -/

/-- One round of Philox4x32. -/
def philoxRound (c : Nat × Nat × Nat × Nat) (k : Nat × Nat) : Nat × Nat × Nat × Nat :=
  let a := 0xD2511F53 * c.1
  let b := 0xCD9E8D57 * c.2.2.1
  ((b / 2 ^ 32 ^^^ c.2.1) ^^^ k.1, b % 2 ^ 32, (a / 2 ^ 32 ^^^ c.2.2.2) ^^^ k.2, a % 2 ^ 32)

/-- Rounds with the key schedule of R280. -/
def philoxRounds : Nat → Nat × Nat × Nat × Nat → Nat × Nat → Nat × Nat × Nat × Nat
  | 0, c, _ => c
  | n + 1, c, k => philoxRounds n (philoxRound c k) ((k.1 + 0x9E3779B9) % 2 ^ 32, (k.2 + 0xBB67AE85) % 2 ^ 32)

/-- The four words of a block (R280). -/
def philox (seed : BitVec 64) (block stream dist : Nat) : List Nat :=
  let o := philoxRounds 10 (block % 2 ^ 32, block / 2 ^ 32 % 2 ^ 32, stream, dist) (seed.toNat % 2 ^ 32, seed.toNat / 2 ^ 32)
  [o.1, o.2.1, o.2.2.1, o.2.2.2]

/-- The word of element i of the distributions that use one word (R281). -/
def fastWord (seed : BitVec 64) (stream : Word) (dist i : Nat) : Nat := (philox seed (i / 4) stream.toNat dist).getD (i % 4) 0

/-- The value of element k of a random operation (R281, R282). -/
def fastValue (seed : BitVec 64) (stream : Word) (dist param base k : Nat) : Nat :=
  let i := (base + k) % 2 ^ 64
  match dist with
  | 0 => fastWord seed stream 0 i
  | 1 => let w := fastWord seed stream 1 i / 2 ^ 8
         enc32 (if w = 0 then .zero false else .fin false w (-24))
  | 2 => if fastWord seed stream 2 i / 2 ^ 16 < param then 1 else 0
  | 3 => let b := philox seed (i / 2) stream.toNat 3
         distAt 3 (b.getD 0 0) (b.getD 1 0) (i % 2 == 1)
  | _ => distAt 4 (fastWord seed stream 4 i) 0 false

/-! ## Sources -/

/-- A word of a vector register; past the register's 2,048 words the value is free (log 4). -/
def Room.vword (x : Room) (free r i : Nat) : Nat :=
  if i < 2048 then (Tab.get 0 x.vregs (r * 2048 + i)).toNat else (Config.openWord (free + i)).toNat

/-- A bit of a mask register (R170). -/
def Room.maskBit (x : Room) (r i : Nat) : Bool := i < 2048 && (Tab.get 0 x.vregs (r * 2048 + i / 32)).getLsbD (i % 32)

/-- Word i of a source of the fast generator (R283): the value of element i, or in DIST 2 mask word i, in the format of R170 (R282). -/
def rngWord (seed : BitVec 64) (stream : Word) (dist param base i : Nat) : Nat :=
  if dist = 2 then maskOf ((List.range 32).filter (fun b => fastValue seed stream 2 param base (32 * i + b) == 1))
  else fastValue seed stream dist param base i

/-- Word i of a source (R167, R283). -/
def State.srcWord (s : State) (room : Nat) (v : VSrc) (i : Nat) : Nat :=
  match v with
  | .none => 0
  | .reg r => (s.room room).vword s.free r i
  | .attic off => leNat (s.readAttic room (off + 4 * i) 4)
  | .tensor _ off => leNat (s.readAttic room (off + 4 * i) 4)
  | .const w => w.toNat
  | .rng seed stream dist param base => rngWord seed stream dist param base i

/-- Element i of a source packed in an ELEM code: the lower-indexed element in the lower bits (R84). -/
def State.srcElem (s : State) (room : Nat) (v : VSrc) (elem i : Nat) : Nat :=
  let b := elemBits elem
  match v with
  | .const w => w.toNat % 2 ^ b
  | _ => s.srcWord room v (i * b / 32) / 2 ^ (i * b % 32) % 2 ^ b

/-- The attic bytes that a source reads for a number of words. -/
def VSrc.spans (v : VSrc) (room words : Nat) : List Span :=
  match v with
  | .attic off => [{ room := room, cellar := false, off := off, len := 4 * words }]
  | .tensor _ off => [{ room := room, cellar := false, off := off, len := 4 * words }]
  | _ => []

/-! ## The six stages (R164) -/

/-- The modulus of a named descriptor of 16 bytes (R34, R45). One that R57 refuses names none: no program that names it is loaded. -/
def descOf (d : BitVec 128) : Option Modulus := acceptDescriptor (leBytes 16 d.toNat)

/-- The number of mask bits set below i. -/
def Room.maskRank (x : Room) (r i : Nat) : Nat := ((List.range i).filter (x.maskBit r)).length

/-- Expand (R171): element i of the result. -/
def State.expandWord (s : State) (room : Nat) (run : VSrc) (mask : Nat) (runLen : Nat) (fill : VSrc) (i : Nat) : Nat :=
  let x := s.room room
  if x.maskBit mask i then
    let r := x.maskRank mask i
    if r < runLen then s.srcWord room run r else 0
  else s.srcWord room fill i

/-- A value as int32: what one that rounds to no int32 number gives, the spec does not state (log 4). -/
def intWord (free : Nat) (x : Flt) : Nat :=
  match x.toInt with
  | some n => if -(2 ^ 31 : Int) ≤ n && n < 2 ^ 31 then word32 n else (Config.openWord free).toNat
  | none => (Config.openWord free).toNat

/-- Stage 1 on element i of source a; the fill of an expand is source b. -/
def State.convertStage (s : State) (room : Nat) (v : VInstr) (i : Nat) : Nat :=
  match v.convert with
  | .bypass => s.srcWord room v.a i
  | .widen e toFp =>
    let x := elemFlt e (s.srcElem room v.a e i)
    if toFp then enc32 x else intWord (s.free + i) x
  | .unpack4 scaleOff toFp =>
    let sc := fieldOf (s.readAttic room (scaleOff + i / 32) 1) 0 1
    let e := s.srcElem room v.a 4 i
    if toFp then enc32 (blockFlt sc e) else if sc = 255 then 0 else word32 (signedOf 4 e)
  | .lift p toFp =>
    let r := s.srcWord room v.a i % max p 1
    let n : Int := if p < 2 * r then (r : Int) - p else r
    if toFp then enc32 (Flt.ofInt n) else word32 n
  | .residue e p =>
    (match (elemFlt e (s.srcElem room v.a e i)).toInt with
    | some n => (n % (max p 1 : Nat)).toNat
    | none => (Config.openWord (s.free + i)).toNat % max p 1)
  | .expand mask runLen => s.expandWord room v.a mask runLen v.b i

/-- Stage 2. A descriptor that names no modulus gives free words (log 4). -/
def mulStage (op : VMul) (free : Nat) (a b : Nat) : Nat :=
  match op with
  | .bypass => a
  | .fp => enc32 ((dec32 a).mul (dec32 b))
  | .int => a * b % 2 ^ 32
  | .modular d => match descOf d with | some m => laneMul m a b | none => (Config.openWord free).toNat

/-- Stage 3. -/
def addStage (op : VAdd) (free : Nat) (a b : Nat) : Nat :=
  match op with
  | .bypass => a
  | .fp sub => enc32 ((dec32 a).add (if sub then (dec32 b).negate else dec32 b))
  | .int sub => if sub then (a + 2 ^ 32 - b % 2 ^ 32) % 2 ^ 32 else (a + b) % 2 ^ 32
  | .modular d => match descOf d with | some m => laneAdd m a b | none => (Config.openWord free).toNat

/-- A comparison of stage 4: 0 equal, 1 less than, 2 less or equal. -/
def cmpWords (cmp : Fin 3) (fp : Bool) (a b : Nat) : Bool :=
  if fp then
    match cmp with
    | 0 => (dec32 a).eq (dec32 b)
    | 1 => (dec32 a).lt (dec32 b)
    | 2 => (dec32 a).lt (dec32 b) || (dec32 a).eq (dec32 b)
  else
    match cmp with
    | 0 => a == b
    | 1 => decide (signedOf 32 a < signedOf 32 b)
    | 2 => decide (signedOf 32 a ≤ signedOf 32 b)

/-- A floating-point word as an arithmetic stage takes it: a subnormal as zero, a NaN as the canonical one (R44, R173). -/
def flushed (a : Nat) : Nat := enc32 (dec32 a)

/-- Stage 4 except the mask. A minimum or maximum with a NaN gives that NaN, canonical, or the other operand: which of them is not stated, and neither is the
absolute value of the most negative integer: free values (log 4). -/
def compareStage (x : Room) (op : VCompare) (free i : Nat) (a b : Nat) : Nat :=
  let pick (fp less : Bool) : Nat :=
    if fp then
      if dec32 a == .nan && dec32 b == .nan then 0x7FC00000
      else if dec32 a == .nan then (if Config.openBit free then 0x7FC00000 else flushed b)
      else if dec32 b == .nan then (if Config.openBit free then 0x7FC00000 else flushed a)
      else flushed (if cmpWords 1 fp a b == less then a else b)
    else if cmpWords 1 fp a b == less then a else b
  match op with
  | .bypass => a
  | .mask _ _ => a
  | .select m => if x.maskBit m i then a else b
  | .min fp => pick fp true
  | .max fp => pick fp false
  | .abs fp =>
    if fp then flushed (if dec32 a == .nan then a else a % 2 ^ 31)
    else if a = 2 ^ 31 then (Config.openWord free).toNat else (signedOf 32 a).natAbs

/-- Stage 5: the special inputs of R176 by its table, any other within the function's error bound (log 5). -/
def approxStage (op : VApprox) (a : Nat) : Nat :=
  let x := dec32 a
  let pInf := enc32 (.inf false)
  let nInf := enc32 (.inf true)
  if op = .bypass then a
  else if x == .nan then 0x7FC00000
  else
    match op, x with
    | .exp2, .inf n => if n then 0 else pInf
    | .exp2, .fin n m e =>
      if !n && !(Flt.fin n m e).lt (.fin false 1 7) then pInf
      else if (Flt.fin n m e).lt (.fin true 126 0) then 0 else approxAt 0 a
    | .log2, .zero _ => nInf
    | .log2, y => if y.neg then 0x7FC00000 else approxAt 1 a
    | .recip, .zero n => if n then nInf else pInf
    | .recip, .inf n => enc32 (.zero n)
    | .rsqrt, .zero n => if n then nInf else pInf
    | .rsqrt, y => if y.neg then 0x7FC00000 else approxAt 3 a
    | .tanh, .inf n => enc32 (.fin n 1 0)
    | .sigmoid, .inf n => if n then 0 else enc32 (.fin false 1 0)
    | .exp2, _ => approxAt 0 a
    | .recip, _ => approxAt 2 a
    | .tanh, _ => approxAt 4 a
    | .sigmoid, _ => approxAt 5 a
    | .bypass, _ => a

/-- The operand of stage 4: source c when the add stage is bypassed, else source b. -/
def VInstr.cmpSrc (v : VInstr) : VSrc := if v.add = .bypass then v.c else v.b

/-- Element i after stages 1 to 5. -/
def State.vecElem (s : State) (room : Nat) (v : VInstr) (i : Nat) : Nat :=
  let a1 := s.convertStage room v i
  let a2 := mulStage v.mul (s.free + 2 ^ 16 + i) a1 (s.srcWord room v.b i)
  let a3 := addStage v.add (s.free + 2 * 2 ^ 16 + i) a2 (s.srcWord room v.c i)
  let a4 := compareStage (s.room room) v.compare (s.free + 3 * 2 ^ 16 + i) i a3 (s.srcWord room v.cmpSrc i)
  approxStage v.approx a4

/-- The elements in one result word of the destination (R166). -/
def VInstr.perWord (v : VInstr) : Nat :=
  match v.pack with
  | .narrow e _ _ => 32 / elemBits e
  | .block4 _ _ => 8
  | _ => 1

/-- Elements packed into words, the lower-indexed in the lower bits. -/
def packWords (bits per : Nat) : Nat → List Nat → List Nat
  | 0, _ => []
  | n + 1, l => ((l.take per).reverse.foldl (fun a e => a * 2 ^ bits + e) 0) % 2 ^ 32 :: packWords bits per n (l.drop per)

/-- An element narrowed by the pack stage (R174); a value that R174 does not state is free (log 4). -/
def packElem (e : Nat) (fromFp sat : Bool) (free : Nat) (w : Nat) : Nat :=
  if fromFp then (narrowFlt e sat (dec32 w)).getD ((Config.openWord free).toNat % 2 ^ elemBits e)
  else if e = 3 || e = 4 || e = 6 then narrowInt (elemBits e) sat (signedOf 32 w)
  else (narrowFlt e sat (Flt.ofInt (signedOf 32 w))).getD 0

/-- The result words of an instruction of `n` results, the scale bytes that block packing forms, and the number of elements a compress
kept. -/
def State.vecResult (s : State) (room : Nat) (v : VInstr) (n : Nat) : List Nat × List Nat × Option Nat :=
  let x := s.room room
  let xs := (List.range (n * v.perWord)).map (s.vecElem room v)
  match v.pack with
  | .bypass => (xs, [], none)
  | .narrow e fromFp sat =>
    (packWords (elemBits e) v.perWord n (xs.zipIdx.map (fun y => packElem e fromFp sat (s.free + 4 * 2 ^ 16 + y.2) y.1)), [], none)
  | .block4 _ fromFp =>
    let blocks := chunks 32 (ceilDiv xs.length 32) (xs.map (fun w => if fromFp then dec32 w else Flt.ofInt (signedOf 32 w)))
    let scales := blocks.map blockScale
    (packWords 4 8 n ((List.zip blocks scales).flatMap (fun b => b.1.map (blockElem b.2))), scales, none)
  | .compress m =>
    let kept := (xs.zipIdx.filter (fun y => x.maskBit m y.2)).map (·.1)
    (kept ++ List.replicate (n - kept.length) 0, [], some kept.length)

/-- A register written from word 0. -/
def Room.putReg (x : Room) (r : Nat) (ws : List Nat) : Room :=
  { x with vregs := (ws.zipIdx).foldl (fun t e => if e.2 < 2048 then Tab.set 0 t (r * 2048 + e.2) (BitVec.ofNat 32 e.1) else t) x.vregs }

/-- The mask bits of elements 0 to n − 1 written into a register; its other bits stay. -/
def Room.putMask (x : Room) (r n : Nat) (bits : Nat → Bool) : Room :=
  let word (j : Nat) : Nat :=
    let old := (Tab.get 0 x.vregs (r * 2048 + j)).toNat
    maskOf ((List.range 32).filter (fun b => if 32 * j + b < n then bits (32 * j + b) else bitOf old b))
  { x with vregs := (List.range (ceilDiv n 32)).foldl (fun t j => Tab.set 0 t (r * 2048 + j) (BitVec.ofNat 32 (word j))) x.vregs }

/-- A source of normal numbers, which come at half rate (R283). -/
def VSrc.slow (v : VSrc) : Bool := match v with | .rng _ _ d _ _ => d == 3 | _ => false

/-- The tensors that a source's words belong to. -/
def VSrc.tensors (v : VSrc) : Option TensorRef := match v with | .tensor t _ => Option.some t | _ => Option.none

/-- ACLK cycles in which the engine produces the results of an instruction (R166, R169, R283). -/
def VInstr.cycles (v : VInstr) (n : Nat) : Nat :=
  if v.a.slow || v.b.slow || v.c.slow then ceilDiv n 128 else ceilDiv n 256

/-- The spans that an instruction reads. -/
def VInstr.reads (v : VInstr) (room n : Nat) : List Span :=
  let e := n * v.perWord
  let aw := match v.convert with
    | .widen el _ => ceilDiv (e * elemBits el) 32
    | .residue el _ => ceilDiv (e * elemBits el) 32
    | .unpack4 _ _ => ceilDiv (e * 4) 32
    | .expand _ runLen => runLen
    | _ => e
  let sc := match v.convert with
    | .unpack4 off _ => [{ room := room, cellar := false, off := off, len := ceilDiv e 32 : Span }]
    | _ => []
  v.a.spans room aw ++ v.b.spans room e ++ v.c.spans room e ++ sc

/-- The error of a vector access, and what it leaves (R188, R199, R459): a program fault outside the attic; an error that waits for the
replay before the third execution; otherwise the effect. -/
def State.vecGuard (s : State) (room : Nat) (reads writes : List Span) (effect : State → State) : State :=
  if (reads ++ writes).any Span.outside then s.setRoom room (s.room room).programFault
  else
    let t := reads.foldl State.countRead s
    match reads.find? s.spanBad with
    | some b =>
      if (s.room room).takesErrors then let u := effect t; u.setRoom room (u.room room).errTaken
      else t.setRoom room ((t.room room).fail (s.spanEvent b))
    | none => effect t

/-- The vector engine produces results for some ACLK cycles (R169). -/
def Room.vecBusy (x : Room) (cycles : Nat) : Room :=
  { x with counters := { x.counters with veBusy := x.counters.veBusy + BitVec.ofNat 48 cycles } }

/-- The length of an instruction in results (R167, R172). -/
def State.vecLen (s : State) (room : Nat) (v : VInstr) : Nat := if v.fromVcount then min 2048 (s.room room).vcount else v.len

/-- A room's vector queue issues: the room dispatches, and no entry at the queue's head waits (R168, R299). -/
def State.vecRuns (s : State) (room : Nat) : Bool := s.roomRuns room && (s.room room).queueClear 2

/-- The register that an instruction writes: mask bits, or result words; a compress fills the rest of its register with zeros and leaves its count in VCOUNT
(R167, R170). -/
def State.vecWrite (s : State) (room : Nat) (v : VInstr) (n : Nat) (x : Room) : Room :=
  let out := s.vecResult room v n
  match v.compare, out.2.2 with
  | .mask cmp fp, _ =>
    x.putMask v.dst n (fun i => cmpWords cmp fp (s.vecElem room { v with compare := .bypass, approx := .bypass } i) (s.srcWord room v.cmpSrc i))
  | _, some k => { x.putReg v.dst (out.1 ++ List.replicate (2048 - out.1.length) 0) with vcount := k }
  | _, none => x.putReg v.dst out.1

/-- The words that an attic destination receives (R167): those of the register that the instruction writes, for a mask its words of 32 bits. -/
def State.vecStored (s : State) (room : Nat) (v : VInstr) (n : Nat) : List Nat :=
  match v.compare with
  | .mask _ _ => (List.range (ceilDiv n 32)).map (fun j => (Tab.get 0 (s.vecWrite room v n (s.room room)).vregs (v.dst * 2048 + j)).toNat)
  | _ => (s.vecResult room v n).1

/-- An instruction of a series on tensors is done: the operation, which counts as one of its block (R274), is done with the last (R167). -/
def State.seriesOp (s : State) (room : Nat) (t : Option TensorRef) : State :=
  match t with
  | some t => if t.last then s.countOp room 2 else s.setRoom room ((s.room room).takeTag 2)
  | none => s.countOp room 2

/-- One instruction runs in a room whose vector queue issues (R165 to R172). -/
def State.vecRun (s : State) (room : Nat) (v : VInstr) : State :=
  let n := s.vecLen room v
  if !s.vecRuns room || 2048 < n then s
  else
    let attic := match v.dstAttic with | some o => [(o, bytesOfWords (s.vecStored room v n))] | none => []
    let scales := match v.pack with | .block4 off _ => [(off, (s.vecResult room v n).2.1.flatMap (leBytes 1))] | _ => []
    let writes := (attic ++ scales).map (fun w => { room := room, cellar := false, off := w.1, len := w.2.length : Span })
    (s.vecGuard room (v.reads room n) writes (fun t =>
      let y := (t.room room).vecBusy (if n = 0 then 0 else max 1 (v.cycles n))
      let x := { y with lastCfg := some v }
      if n = 0 then t.setRoom room x
      else ((attic ++ scales).foldl (fun u w => u.putAttic room w.1 w.2) (t.setRoom room (s.vecWrite room v n x))).draw (2 ^ 20))).seriesOp room v.tensor

/-! ## Tensors as operands (R84, R85, R184) -/

/-- The shapes of the operands of an element-wise operation agree (R184): one RANK, and in each dimension one DIM, except for a DIM of 1, which is
broadcast. -/
def shapesAgree (labs : List Label) : Bool :=
  labs.all (fun a => labs.all (fun b =>
    a.rank == b.rank && (List.range 4).all (fun i => a.tdim i == b.tdim i || a.tdim i == 1 || b.tdim i == 1)))

/-- The decision of an instruction that works on tensors (R76, R77, R184): operands of another form, or element-wise ones of unlike shapes, end it with
FORM_MISMATCH. Its label's other fields are those of the lead input (R561). -/
def tensorDecision (ins : List LabelIn) (elementwise : Bool) : Decision :=
  let base : Label := { leadOf ins with form := 3, poison := false, cause := 0 }
  match inputCause ins with
  | some (c, fresh) => .stop base c fresh
  | none =>
    let labs := ins.map (·.lab)
    if labs.any (fun l => l.form ≠ 3) || (elementwise && !shapesAgree labs) then .stop base cForm true else .go base

/-- An instruction of a room on tensors: dispatched by their labels, run, and, when it is the last of its series, followed by the label of the result, which a
memory error of the third execution poisons (R167, R459). -/
def State.tensorRun (s : State) (room : Nat) (t : TensorRef) (elementwise : Bool) (reads : List Span) (run : State → State) : State :=
  match s.ownerOf room with
  | none => s
  | some p =>
    let d := tensorDecision (t.ins.map (s.labelAt (s.part p) room)) elementwise
    let labels := t.ins.map (·.labelSpan room)
    if s.opHot p (t.dst :: t.ins) then s
    else if d.ends then (s.performRoom p room t.dst (RoomResult.ofStop d labels)).countOp room 2
    else if !(s.room room).takesErrors && labels.any s.spanBad then
      (s.performRoom p room t.dst { RoomResult.ofStop d labels with inner := true }).countOp room 2
    else
      let u := run (labels.foldl State.countRead s)
      let hit := (labels ++ reads).any s.spanBad || (s.room room).readsTaint (labels ++ reads)
      if !t.last || (u.room room).block.any (fun b => b.error.isSome || b.failed) then u
      else
        let lab := { (if hit then d.lab.poisonWith cMemory else d.lab) with producer := s.producer p room }
        let w := u.putLabel p room t.dst lab
        w.setRoom room ((w.room room).noteOp (if hit then some cMemory else none) hit t.dst)

/-- An instruction with every stage bypassed. -/
def plainVec (len : Nat) (a : VSrc) (dst : Fin 32) : VInstr :=
  { len := len, fromVcount := false, a := a, b := .none, c := .none, convert := .bypass, mul := .bypass, add := .bypass,
    compare := .bypass, approx := .bypass, pack := .bypass, dst := dst, dstAttic := none, tensor := none }

/-- A source `k` registers further on: piece k of a run longer than one register. -/
def VSrc.piece (v : VSrc) (k : Nat) : VSrc :=
  match v with
  | .reg r => .reg (r + Fin.ofNat 32 k)
  | .attic off => .attic (off + 8192 * k)
  | .tensor t off => .tensor t (off + 8192 * k)
  | .rng seed stream dist param base => .rng seed stream dist param (base + (if dist = 2 then 65536 else 2048) * k)
  | v => v

/-- The elements that a compress of any length keeps, in order. -/
def State.keptWords (s : State) (room : Nat) (src : VSrc) (mask : Fin 32) (len : Nat) : List Nat :=
  (List.range (ceilDiv len 2048)).flatMap (fun k =>
    ((List.range (min 2048 (len - 2048 * k))).filter ((s.room room).maskBit (mask + Fin.ofNat 32 k))).map (s.srcWord room (src.piece k)))

/-- A compress over more than one register (R172): the dense runs are concatenated, and VCOUNT holds the total. DESIGN CHOICE (log 84): the registers of the
source and of the mask, and those of the result, follow one another, the last one's rest filled with zeros. -/
def State.compressLong (s : State) (room : Nat) (src : VSrc) (mask dst : Fin 32) (len : Nat) : State :=
  let kept := s.keptWords room src mask len
  let pieces := max 1 (ceilDiv kept.length 2048)
  let words := kept ++ List.replicate (2048 * pieces - kept.length) 0
  let reads := (List.range (ceilDiv len 2048)).flatMap (fun k => (src.piece k).spans room (min 2048 (len - 2048 * k)))
  if !s.vecRuns room then s
  else
    (s.vecGuard room reads [] (fun t =>
      let x := (t.room room).vecBusy (ceilDiv len (if src.slow then 128 else 256))
      t.setRoom room { (List.range pieces).foldl (fun y k => y.putReg (dst + Fin.ofNat 32 k : Fin 32) ((words.drop (2048 * k)).take 2048)) x with
        vcount := kept.length })).seriesOp room src.tensors

/-- A vector operation of a room that may work on tensors (R184). -/
def State.onTensors (s : State) (r : Nat) (t : Option TensorRef) (elementwise : Bool) (reads : List Span) (run : State → State) : State :=
  match t with
  | some t => if s.vecRuns r then s.tensorRun r t elementwise reads run else s
  | none => run s

/-- VECTOR_OPERATION (R165, R184). -/
def execVectorOperation (r : RoomId) (v : VInstr) (s : State) : Host.Outcome State Fault Refusal :=
  .next (s.onTensors r v.tensor true (v.reads r (s.vecLen r v)) (fun u => u.vecRun r v))

/-- COMPRESS (R170, R172); of a tensor that its source names, with that tensor's label (R184). -/
def execCompress (r : RoomId) (src : VSrc) (mask : Fin 32) (dst : Fin 32) (len : Nat) (s : State) : Host.Outcome State Fault Refusal :=
  .next (s.onTensors r src.tensors false (src.spans r len) (fun u =>
    if len ≤ 2048 then u.vecRun r { plainVec len src dst with pack := .compress mask, tensor := src.tensors } else u.compressLong r src mask dst len))

/-- EXPAND (R171): a dense run of `runLen` elements; of a tensor that its source names, with that tensor's label (R184). -/
def execExpand (r : RoomId) (src : VSrc) (runLen : Nat) (mask : Fin 32) (fill : VSrc) (dst : Fin 32) (len : Nat) (s : State) :
    Host.Outcome State Fault Refusal :=
  .next (s.onTensors r src.tensors false (src.spans r runLen ++ fill.spans r len) (fun u =>
    u.vecRun r { plainVec len src dst with b := fill, convert := .expand mask runLen, tensor := src.tensors }))

/-! ## Products on the lanes (R43, R44, R177 to R180) -/

/-- One int8 multiply-accumulate (R43): the accumulator wraps. -/
def mac8 (signedW signedX : Bool) (acc w x : Nat) : Nat :=
  let byte (sg : Bool) (v k : Nat) : Int := let b := v / 2 ^ (8 * k) % 256; if sg then signedOf 8 b else b
  word32 ((acc : Int) + ((List.range 4).map (fun k => byte signedW w k * byte signedX x k)).sum)

/-- The accumulator of one row over one segment: `n` words of int8, or `n` elements of bf16. -/
def State.rowDot (s : State) (room : Nat) (m : MatOp) (row seg : Nat) : Nat :=
  let n := m.words / max m.segs 1
  let at_ (base i : Nat) : Nat := if m.bf16 then fieldOf (s.readAttic room (base + 2 * i) 2) 0 2 else fieldOf (s.readAttic room (base + 4 * i) 4) 0 4
  let w := if m.bf16 then 2 else 4
  (List.range n).foldl (fun acc i =>
    let k := seg * n + i
    let a := at_ (m.wOff + row * m.words * w) k
    let b := at_ m.xOff k
    if m.bf16 then fmaBf16 a b acc else mac8 m.signedW m.signedX acc a b) 0

/-- The lane operations of a row and segment that zero detection gates (R46). -/
def State.rowGated (s : State) (room : Nat) (m : MatOp) (row seg : Nat) : Nat :=
  let n := m.words / max m.segs 1
  let w := if m.bf16 then 2 else 4
  let word (base k : Nat) : Nat := fieldOf (s.readAttic room (base + w * k) w) 0 w
  ((List.range n).foldl (fun (a : Nat × Nat) i =>
    let x := word (m.wOff + row * m.words * w) (seg * n + i)
    let y := word m.xOff (seg * n + i)
    if m.bf16 then (fmaBf16 x y a.1, a.2 + (if fmaGated x y a.1 then 1 else 0))
    else (mac8 m.signedW m.signedX a.1 x y, a.2 + (if macGated x y a.1 then 1 else 0))) (0, 0)).2

/-- The gated lane operations of a matrix product: those of its rows and segments, and those of the lanes without a row (R46, R179). In normal mode a lane keeps
one row through all its segments; in wide-shallow mode each group of 128 lanes takes a row block and a segment. -/
def State.matGated (s : State) (room : Nat) (m : MatOp) : Nat :=
  let groups := max 1 (4 * (s.room room).pausLeft)
  let idle :=
    if m.wide then (128 * groups * ceilDiv (ceilDiv m.rows 128 * m.segs) groups - m.rows * m.segs) * (m.words / max m.segs 1)
    else (128 * groups * ceilDiv m.rows (128 * groups) - m.rows) * m.words
  ((List.range m.segs).flatMap (fun g => (List.range m.rows).map (fun row => s.rowGated room m row g))).sum + idle

/-- A matrix product runs in a room whose PAU queue issues: one accumulator per row and segment is written; in wide-shallow mode every PAU of the room is in
that mode (R178, R179, R180). -/
def State.matRun (s : State) (room : Nat) (m : MatOp) : State :=
  let w := if m.bf16 then 2 else 4
  let sp (off len : Nat) : Span := { room := room, cellar := false, off := off, len := len }
  (s.vecGuard room [sp m.wOff (m.rows * m.words * w), sp m.xOff (m.words * w)] [sp m.yOff (4 * m.rows * m.segs)] (fun t =>
    let out := (List.range m.segs).flatMap (fun g => (List.range m.rows).map (fun row => s.rowDot room m row g))
    (t.putAttic room m.yOff (bytesOfWords out)).laneTraffic room
      { RoomResult.ofStop (.go Label.zero) [] with gate := some (s.matGated room m), tensor := true, wide := some m.wide }
      ((s.room room).conflictFree [sp m.wOff 128]))).seriesOp room m.tensor

/-- PLAINTEXT_MATRIX_PRODUCT (R179, R184). In normal mode too a row may keep a partial sum for each segment, as a product with block-scaled weights does
(R178). -/
def execPlaintextMatrixProduct (r : RoomId) (m : MatOp) (s : State) : Host.Outcome State Fault Refusal :=
  let w := if m.bf16 then 2 else 4
  let sp (off len : Nat) : Span := { room := r, cellar := false, off := off, len := len }
  .next
    (if !s.roomRuns r || !(s.room r).queueClear 0 || m.segs = 0 || m.words % m.segs ≠ 0 then s
    else
      match m.tensor with
      | some t => s.tensorRun r t false [sp m.wOff (m.rows * m.words * w), sp m.xOff (m.words * w)] (fun u => u.matRun r m)
      | none => s.matRun r m)

end Sys2Proof.Machine
end

