-- ==== Sys2Proof/Machine/Random.lean ====
section
/-! DEFINITION. Plaintext tensors and random numbers (07, 11): encode, flood, draw-seed, random and sample-token. -/

namespace Sys2Proof.Machine

/-! ## Plaintext tensors (R84, R85) -/

/-- Bytes of one innermost row of a tensor. -/
def Label.rowPitch (l : Label) : Nat := 128 * ceilDiv (ceilDiv (l.tdim 0 * elemBits l.elem) 8) 128
/-- Innermost rows of a tensor. -/
def Label.rows (l : Label) : Nat := l.tdim 1 * l.tdim 2 * l.tdim 3
/-- Bytes of one row of the scale array of a block-scaled tensor. -/
def Label.scalePitch (l : Label) : Nat := 128 * ceilDiv (ceilDiv (l.tdim 0) 32) 128
/-- Bytes of a tensor's body over all rooms. -/
def Label.tensorBytes (l : Label) : Nat := l.rows * l.rowPitch + (if l.elem = 4 then l.rows * l.scalePitch else 0)
/-- The body bytes of R85 for a tensor: the whole of it, or, interleaved, the largest share of a room, whose last run may be a partial one. -/
def Label.tensorShare (l : Label) (rooms : Nat) : Nat :=
  let last := ceilDiv l.tensorBytes 4096 - 1
  if l.layout = 1 || l.tensorBytes = 0 then l.tensorBytes
  else if last % rooms = 0 then last / rooms * 4096 + (l.tensorBytes - 4096 * last)
  else (last / rooms + 1) * 4096

/-- The span of run r (4 KiB) of a tensor's body. -/
def tensorSpan (x : Part) (l : Label) (pl : Place) (r : Nat) : Span :=
  let n := max x.rooms.length 1
  { room := x.roomAt (if l.layout = 1 then l.home else r % n), cellar := pl.cellar
    off := pl.off + 128 + (if l.layout = 1 then r else r / n) * 4096, len := min 4096 (l.tensorBytes - r * 4096) }

/-- The spans of a tensor's body. -/
def tensorSpans (x : Part) (l : Label) (pl : Place) : List Span := (List.range (ceilDiv l.tensorBytes 4096)).map (tensorSpan x l pl)

/-- The value of each element of a tensor, in row-major order. -/
def State.tensor (s : State) (x : Part) (l : Label) (pl : Place) : List Flt :=
  let body := ((tensorSpans x l pl).flatMap s.spanBytes).toArray
  let bits := elemBits l.elem
  (List.range l.rows).flatMap (fun row => (List.range (l.tdim 0)).map (fun i =>
    let at_ := row * l.rowPitch + i * bits / 8
    let raw := leNat ((List.range (ceilDiv bits 8)).map (fun k => body.getD (at_ + k) 0)) / 2 ^ (i * bits % 8) % 2 ^ bits
    if l.elem = 4 then blockFlt (body.getD (l.rows * l.rowPitch + row * l.scalePitch + i / 32) 0).toNat raw else elemFlt l.elem raw))

/-- The label of a plaintext tensor that an operation writes, in a partition of `rooms` rooms. -/
def tensorLabel (elem rank : Nat) (dims : List Nat) (layout home rooms : Nat) : Label :=
  let l : Label := { Label.zero with
    form := 3, layout := layout, home := home,
    info := leBytes 1 elem ++ leBytes 1 rank ++ leBytes 2 0 ++ (List.range 4).flatMap (fun i => leBytes 3 (if i < rank then dims.getD i 1 else 1)) }
  { l with bodyBytes := l.tensorShare (max rooms 1) }

/-- The runs of one room of a tensor whose rows are given as 32-bit words, padded with zeros (R84). -/
def tensorRuns (x : Part) (l : Label) (room : Nat) (rows : List (List Nat)) : List (Nat × List Nat) :=
  let body := rows.flatMap (fun r => r ++ List.replicate (l.rowPitch / 4 - r.length) 0)
  let runs := chunks 1024 (ceilDiv l.tensorBytes 4096) body
  (runs.zipIdx.filter (fun e => (tensorSpan x l { cellar := false, off := 0 } e.2).room == room)).map
    (fun e => ((tensorSpan x l { cellar := false, off := 0 } e.2).off, e.1))

/-! ## Encode (R182) -/

/-- A finite magnitude m·2^e times 2^(scale/256) is at least k − 1/2, exactly. -/
def scaledAtLeast (m : Nat) (e scale : Int) (k : Nat) : Bool :=
  let ex : Int := 256 * e + scale + 256
  let l := (2 * k - 1) ^ 256
  let r := m ^ 256
  if 0 ≤ ex then decide (l ≤ r * 2 ^ ex.toNat) else decide (l * 2 ^ (-ex).toNat ≤ r)

/-- The magnitude lies exactly at k − 1/2. -/
def scaledTie (m : Nat) (e scale : Int) (k : Nat) : Bool :=
  let ex : Int := 256 * e + scale + 256
  let l := (2 * k - 1) ^ 256
  let r := m ^ 256
  if 0 ≤ ex then l == r * 2 ^ ex.toNat else l * 2 ^ (-ex).toNat == r

/-- The largest number below 2^bits · 2 that passes a test which holds from 0 up to it, by bisection. -/
def bisect (ok : Nat → Bool) : Nat → Nat → Nat
  | 0, lo => lo
  | b + 1, lo => bisect ok b (if ok (lo + 2 ^ b) then lo + 2 ^ b else lo)

/-- round(m·2^e·2^(scale/256)), ties to even (R81, R182); none at a magnitude of 2^31 or more. -/
def scaledRound (m : Nat) (e scale : Int) : Option Nat :=
  if scaledAtLeast m e scale (2 ^ 31) then none
  else
    let k := bisect (fun j => j = 0 || scaledAtLeast m e scale j) 31 0
    if k ≠ 0 && scaledTie m e scale k && k % 2 = 1 then some (k - 1) else some k

/-- The int32 of one coefficient in form 0: none for an overflow. What a NaN gives is not stated: a free value (log 4). -/
def encodeCoeff0 (free : Nat) (scale : Int) (x : Flt) : Option Int :=
  match x with
  | .nan => some (signedOf 32 (Config.openWord free).toNat)
  | .zero _ => some 0
  | .inf _ => none
  | .fin n m e => (scaledRound m e scale).map (fun k => if n then -(k : Int) else k)

/-- The signed value modulo t of one coefficient in form 1; for a value that is no integer, free (log 4). -/
def encodeCoeff1 (free t : Nat) (x : Flt) : Int :=
  let open_ : Int := centred t ((Config.openWord free).toNat % max t 1)
  match x with
  | .fin n m e =>
    if 0 ≤ e || m % 2 ^ (-e).toNat = 0 then
      let v : Int := if n then -(rneInt m e : Int) else rneInt m e
      centred t (v % (max t 1 : Nat)).toNat
    else open_
  | .zero _ => 0
  | _ => open_

/-- The fields of an encoded plaintext polynomial (R182): dealt, LIMBS one above its level (log 32). LOG_SLOTS, which R182 does not give, is a
free value. -/
def encodeLabel (k : KeySet) (form1 : Bool) (keyset level : Nat) (scale : Int) (chk : Bool) (free rooms : Nat) : Label :=
  ({ Label.zero with
    form := if form1 then 1 else 0, logN := k.logN, check := chk && k.checkP.isSome, repr := true, limbs := level + 1, level := level, polys := 1,
    keyset := keyset, scale := if form1 then 0 else scale,
    info := if form1 then leBytes 4 k.t ++ leBytes 1 (if k.coeffPack then 1 else 0) ++ List.replicate 11 0
            else leBytes 1 ((Config.openWord free).toNat % max k.logN 1) ++ List.replicate 15 0 } : Label).sized (max rooms 1)

/-- One room's result of an encode (R182): the vector engines of the partition's rooms share the pass over the coefficients (R183), and each room's lanes
transform its own limbs. -/
def State.encodeRoom (s : State) (p room : Nat) (a : Place) (form1 : Bool) (keyset level : Nat) (scale : Int) (chk : Bool) : RoomResult :=
  let x := s.part p
  let n := x.rooms.length
  let l := s.labelAt x room a
  let reads := [a.labelSpan room]
  match x.keyset keyset with
  | none =>
    let c := (inputCause [l]).getD (cKeyset, true)
    RoomResult.ofStop (.stop { Label.zero with form := if form1 then 1 else 0, keyset := keyset, limbs := level + 1, polys := 1 } c.1 c.2) reads
  | some k =>
    let base := encodeLabel k form1 keyset level scale chk s.free n
    match inputCause [l] with
    | some (c, fresh) => RoomResult.ofStop (.stop base c fresh) reads
    | none =>
      if l.lab.form ≠ 3 || l.lab.elements ≠ 2 ^ k.logN then RoomResult.ofStop (.stop base cForm true) reads
      else if !k.covers base then RoomResult.ofStop (.stop base cKeyset true) reads
      else
        let d := (Decision.budget k base).active k base
        let xs := s.tensor x l.lab a
        let vals : List (Option Int) := xs.zipIdx.map (fun e =>
          if form1 then some (encodeCoeff1 (s.free + 1 + e.2) k.t e.1) else encodeCoeff0 (s.free + 1 + e.2) scale e.1)
        let body := tensorSpans x l.lab a
        if d.ends then RoomResult.ofStop d reads
        else if vals.any (·.isNone) then RoomResult.ofStop (.stop base cOverflow true) (reads ++ body)
        else
          let mine := d.lab.inUse.filter (ownsPair x d.lab room)
          let coeffs (j : Nat) : List Nat := vals.map (fun v => laneConst (k.modAt d.lab j) (v.getD 0))
          let limbs := mine.map (fun j => (j, 0, nttForward (k.modAt d.lab j) k.logN (coeffs j)))
          { lab := d.lab, runs := ownRuns x d.lab room limbs, fresh := false, reads := reads ++ body, mism := none, tensor := true
            wide := some false, moduli := mine.map (k.modAt d.lab), vec := ceilDiv (2 ^ k.logN) (256 * max 1 n)
            sets := mine.map (fun j => (keyset, if d.lab.check && j = d.lab.limbs then 128 else j))
            gate := some ((mine.map (fun j => forwardGates (k.modAt d.lab j) k.logN (coeffs j))).sum) }

/-- ENCODE (R182). -/
def execEncode (p : PartId) (dst a : Place) (form1 : Bool) (keyset level : Nat) (scale : Int) (check : Bool) (s : State) :
    Host.Outcome State Fault Refusal :=
  .next ((s.runOp p dst (fun room => s.encodeRoom p room a form1 keyset level scale check) 2).draw (2 ^ 18))

/-! ## Flood and draw-seed (R274 to R279) -/

/-- The 128-bit noise block of a coefficient (R274), read little-endian. -/
def noiseBlock (rks : List (List Byte)) (coeff op : Nat) : Nat :=
  leNat (aesWith rks (leBytes 4 coeff ++ leBytes 2 op ++ List.replicate 9 0 ++ leBytes 1 0xC3))

/-- The coefficient of e of the bounded uniform distribution (R275). -/
def uniformCoeff (logB w : Nat) : Int := ((w * (2 * 2 ^ logB + 1) / 2 ^ 128 : Nat) : Int) - (2 ^ logB : Nat)
/-- The coefficient of e of a Gaussian table (R275). -/
def gaussCoeff (t : List Nat) (w : Nat) : Int :=
  let w0 := w % 2 ^ 64
  let mag := (t.filter (fun k => decide (k ≤ w0 / 2))).length
  if bitOf w0 0 then -(mag : Int) else mag

/-- A Gaussian table at an attic origin (R276): none where its header is wrong. DESIGN CHOICE (log 79): ENTRIES out of its range 1 to 256 counts as wrong
too. -/
def State.gaussTable (s : State) (room off : Nat) : Option (List Nat) :=
  let h := s.readAttic room off 128
  let n := fieldOf h 6 2
  if fieldOf h 0 4 == 0x5D3C8E19 && fieldOf h 4 1 == 1 && fieldOf h 5 1 == 0 && 1 ≤ n && n ≤ 256 && (h.drop 8).take 116 == List.replicate 116 0 &&
      headerCrcOk h then
    some ((List.range n).map (fun k => fieldOf (s.readAttic room (off + 128 + 8 * k) 8) 0 8))
  else none

/-- The operation index within the block that a room dispatches next (R274). -/
def Room.opIndex (x : Room) : Nat := match x.block with | some b => b.op | none => 0

/-- The label of a flood (R277): b is the distribution's width in NOISE units. -/
def floodRule (b : Nat) (k : KeySet) (base : Label) (labs : List Label) : Decision :=
  match labs with
  | [a] =>
    if !formOk k [0, 1] [2] a then .stop base cForm true
    else if a.repr then .stop base cRepr true
    else .budget k { a with noise := satNoise (max a.noise (if a.form = 0 then b else b + k.tau) + 256) }
  | _ => .stop base cForm true

/-- One room's result of a flood under its noise key. -/
def State.floodRoom (s : State) (p room : Nat) (obj : Place) (d : FloodOp) (key : BitVec 256) : RoomResult :=
  let x := s.part p
  let l := s.labelAt x room obj
  let base : Label := { l.source with poison := false, cause := 0 }
  let hdr : List Span := match d with | .gauss off => [{ room := room, cellar := false, off := off, len := 128 }] | .uniform _ => []
  let reads := obj.labelSpan room :: hdr
  let table := match d with | .gauss off => s.gaussTable room off | .uniform _ => some []
  let b := match d with | .uniform lb => 256 * lb | .gauss _ => ceil256 (table.getD []).length
  let dec := dispatchOn x [l] base [0, 1] (fun k labs => floodRule b k base labs) checkCause
  let dec2 := if (inputCause [l]).isNone && table.isNone then Decision.stop base cBadLabel true else dec
  match dec2.ends, x.ksOf l.lab with
  | false, some k =>
    let rks := roundKeys (leBytes 32 key.toNat)
    let op := (s.room room).opIndex
    let e : List Int := (List.range l.lab.n).map (fun i =>
      let w := noiseBlock rks i op
      let v := match d with | .uniform lb => uniformCoeff lb w | .gauss _ => gaussCoeff (table.getD []) w
      if l.lab.form = 1 then v * k.t else v)
    let mine := l.lab.inUse.filter (ownsPair x l.lab room)
    let limbs := mine.map (fun j =>
      let m := k.modAt l.lab j
      (j, 0, List.zipWith (fun w v => laneAdd m w (laneConst m v)) (s.limb x l.lab obj j 0) e))
    let more : List Span := match d with
      | .gauss off => [{ room := room, cellar := false, off := off + 128, len := 8 * (table.getD []).length }]
      | .uniform _ => []
    { lab := dec2.lab, runs := ownRuns x l.lab room limbs, fresh := false
      reads := reads ++ more ++ mine.map (fun j => limbSpan x l.lab obj j 0), mism := none
      wide := some false, moduli := mine.map (k.modAt l.lab)
      gate := some ((mine.map (fun j =>
        zeroCount (e.map (fun v : Int => (v % ((k.modAt l.lab j).p : Int)).toNat)) +
          flyCount (s.limb x l.lab obj j 0) (e.map (fun v => laneConst (k.modAt l.lab j) v)))).sum) }
  | _, _ => RoomResult.ofStop dec2 reads

/-- The bounded uniform width lies in its range (R275). -/
def FloodOp.okOp : FloodOp → Bool
  | .uniform b => 1 ≤ b && b ≤ 62
  | .gauss _ => true

/-- FLOOD (R275): a room without its block key waits (R272, R287, log 13). -/
def execFlood (p : PartId) (obj : Place) (d : FloodOp) (s : State) : Host.Outcome State Fault Refusal :=
  .next
    (if !d.okOp || (s.opRooms p).any (fun room => (s.room room).noiseKey.isNone) then s
    else s.runOp p obj (fun room => s.floodRoom p room obj d ((s.room room).noiseKey.getD 0)))

/-- The 64 bits of draw-seed: the low half of the block for COEFF 0xFFFF_FFFF (R279, log 31). -/
def seedBits (key : BitVec 256) (op : Nat) : BitVec 64 :=
  BitVec.ofNat 64 (noiseBlock (roundKeys (leBytes 32 key.toNat)) 0xFFFFFFFF op)

/-- DRAW_SEED (R279). -/
def execDrawSeed (p : PartId) (reg : TokenId) (s : State) : Host.Outcome State Fault Refusal :=
  .next
    (if (s.opRooms p).any (fun room => (s.room room).noiseKey.isNone) then s
    else
      (s.opRooms p).foldl (fun t room =>
        let y := t.room room
        let z := { y with scalars := Tab.set 0 y.scalars reg (seedBits (y.noiseKey.getD 0) y.opIndex) }
        t.setRoom room z.countOp) s)

/-! ## Random and sample-token (R281 to R285) -/

/-- The words of a mask in the format of R170. -/
def maskWords (bits : List Bool) : List Nat :=
  (chunks 32 (ceilDiv bits.length 32) bits).map (fun c => c.zipIdx.foldl (fun a e => a + (if e.1 then 2 ^ e.2 else 0)) 0)

/-- The ELEM of a distribution's tensor: int32 for words and mask words, fp32 otherwise (R281, log 33). -/
def distElem (dist : Nat) : Nat := if dist = 0 || dist = 2 then 6 else 5

/-- The label of a random operation's output. A mask is a run of 32-bit words, one bit for each element along DIM0 (R282, log 33). -/
def RandOp.label (g : RandOp) (rooms : Nat) : Label :=
  let d0 := g.dims.headD 1
  tensorLabel (distElem g.dist) g.rank (if g.dist.val = 2 then ceilDiv d0 32 :: g.dims.tail else g.dims) g.layout g.home rooms

/-- The rows of a random operation's output. -/
def RandOp.rows (g : RandOp) : List (List Nat) :=
  let d0 := g.dims.headD 1
  let n := ((List.range (g.rank - 1)).map (fun i => g.dims.getD (i + 1) 1)).foldl (· * ·) 1
  (List.range n).map (fun r =>
    let vals := (List.range d0).map (fun i => fastValue g.seed g.stream g.dist g.param g.base.toNat (r * d0 + i))
    if g.dist.val = 2 then maskWords (vals.map (· == 1)) else vals)

/-- The operand fields of a random operation describe a tensor of R64 and R68. -/
def RandOp.okOp (g : RandOp) (rooms : Nat) : Bool :=
  1 ≤ g.rank && g.rank ≤ 4 && (List.range g.rank).all (fun i => 1 ≤ g.dims.getD i 0 && g.dims.getD i 0 < 2 ^ 24) &&
    (g.layout == 1 || g.layout == 2) && decide (g.home < rooms) && (g.dist.val ≠ 2 || g.param ≤ 65536)

/-- RANDOM (R281, R284): an output of another form ends at dispatch with FORM_MISMATCH. Operands that describe no tensor name no operation
(log 13). -/
def execRandom (p : PartId) (dst : Place) (g : RandOp) (s : State) : Host.Outcome State Fault Refusal :=
  let x := s.part p
  .next
    (if g.form.val = 3 && !g.okOp x.rooms.length then s
    else
      s.runOp p dst (fun room =>
        let l := g.label x.rooms.length
        if g.form.val ≠ 3 then
          RoomResult.ofStop (.stop { Label.zero with form := g.form, layout := g.layout, home := if g.layout = 1 then g.home else 0 } cForm true) []
        else
          let runs := tensorRuns x l room g.rows
          let words := (runs.map (fun e => e.2.length)).sum
          { lab := l, runs := runs, fresh := false, reads := [], mism := none, tensor := true, work := some (0, 0), gate := some 0
            vec := ceilDiv words (if g.dist.val = 3 then 128 else 256) }) 2)

/-- The score of one logit as a number to compare (R285): x/TEMP + g times TEMP, exactly; −∞ for a NaN. -/
def tokenScore (temp x g : Flt) : Flt :=
  match x with
  | .nan => .inf true
  | y => match temp with
    | .zero _ => y
    | t => match y with | .inf n => .inf n | z => z.add (g.mul t)

/-- The index of the largest score, the lowest on ties; −1 where every score is −∞ (R285). -/
def bestToken (scores : List Flt) : Int :=
  let best := scores.zipIdx.foldl (fun (a : Int × Flt) e => if a.2.lt e.1 then ((e.2 : Int), e.1) else a) (-1, .inf true)
  best.1

/-- TEMP is not negative, infinite or NaN (R285). -/
def tempOk (t : Flt) : Bool :=
  match t with
  | .zero _ => true
  | .fin n _ _ => !n
  | _ => false

/-- The spans of some bytes of a tensor's body. -/
def tensorPart (x : Part) (l : Label) (pl : Place) (off len : Nat) : List Span :=
  (List.range (ceilDiv (off % 4096 + len) 4096)).map (fun i =>
    let r := off / 4096 + i
    let run := tensorSpan x l pl r
    let lo := max off (4096 * r)
    { run with off := run.off + lo % 4096, len := min (off + len) (4096 * r + 4096) - lo })

/-- One room's result of a sample-token (R285), which reads the rows dealt to it: an int32 tensor of one element for each row, in the input's layout (log 33). -/
def State.sampleRoom (s : State) (p room : Nat) (a : Place) (g : SampleOp) : RoomResult :=
  let x := s.part p
  let l := s.labelAt x room a
  let temp := dec32 g.temp.toNat
  let v := l.source.tdim 0
  let rows := l.source.tdim 1
  let out := tensorLabel 6 1 [rows] l.source.layout l.source.home x.rooms.length
  match inputCause [l] with
  | some (c, fresh) => RoomResult.ofStop (.stop out c fresh) [a.labelSpan room]
  | none =>
    if l.lab.form ≠ 3 || l.lab.rank ≠ 2 || (l.lab.elem ≠ 0 && l.lab.elem ≠ 5) || !tempOk temp then
      RoomResult.ofStop (.stop out cForm true) [a.labelSpan room]
    else
      let xs := (s.tensor x l.lab a).toArray
      let tok (r : Nat) : Nat := word32 (bestToken ((List.range v).map (fun i =>
        tokenScore temp (xs.getD (r * v + i) .nan) (dec32 (fastValue g.seed g.stream 4 0 0 (r * v + i))))))
      let mine := (List.range rows).filter (fun r => x.roomAt (r % max x.rooms.length 1) == room)
      { lab := out, runs := tensorRuns x out room [(List.range rows).map tok], fresh := false
        reads := a.labelSpan room :: mine.flatMap (fun r => tensorPart x l.lab a (r * l.lab.rowPitch) (4 * ceilDiv (v * elemBits l.lab.elem) 32)),
        mism := none, tensor := true, work := some (0, 0), gate := some 0
        vec := mine.length * ceilDiv v 256 }

/-- SAMPLE_TOKEN (R285). -/
def execSampleToken (p : PartId) (dst a : Place) (g : SampleOp) (s : State) : Host.Outcome State Fault Refusal :=
  .next (s.runOp p dst (fun room => s.sampleRoom p room a g) 2)

end Sys2Proof.Machine
end

