-- ==== Sys2Proof/Machine/Layout.lean ====
section
/-! DEFINITION. Layout changes of whole objects (03, 10): re-deal and the compacting copy of R70. -/

namespace Sys2Proof.Machine

/-- A limb of a result comes from the source's own pair: its check limb sits at the source's LIMBS (R85). -/
def sourcePair (src res : Label) (j : Nat) : Nat := if res.check && j = res.limbs then src.limbs else j

/-- The runs that one room holds of an object copied into the layout of a label, with the spans read for them. -/
def State.copyRuns (s : State) (x : Part) (src res : Label) (a : Place) (room : Nat) (pairs : List Nat) :
    List (Nat × List Nat) × List Span :=
  if res.form ≤ 1 then
    let mine := (pairs.filter (ownsPair x res room)).flatMap (fun j => (List.range res.polys).map (fun q => (j, q)))
    (mine.map (fun e => (res.limbOff x.rooms.length e.1 e.2, s.limb x src a (sourcePair src res e.1) e.2)),
     mine.map (fun e => limbSpan x src a (sourcePair src res e.1) e.2))
  else if res.form = 2 then
    let mine := (List.range res.count).filter (fun i => x.roomAt (res.sampleRoom x.rooms.length i) == room)
    (mine.map (fun i => (res.sampleOff x.rooms.length i, s.sample x src a i)), mine.map (sampleSpan x src a))
  else
    let at0 : Place := { cellar := false, off := 0 }
    let mine := (List.range (ceilDiv res.tensorBytes 4096)).filter (fun r => (tensorSpan x res at0 r).room == room)
    (mine.map (fun r => ((tensorSpan x res at0 r).off, wordsOf (s.spanBytes (tensorSpan x src a r)))), mine.map (tensorSpan x src a))

/-- A copy of an object into another arrangement, which streams make (R268), without lanes: a poisoned or invalid input ends it (R76), and so do a form it does not take and a form 1 object of another
plaintext modulus (R68). -/
def State.layoutOp (s : State) (p : Nat) (dst a : Place) (forms : List Nat) (rule : Label → Label) (pairs : Label → List Nat) : State :=
  let x := s.part p
  s.runOp p dst (fun room =>
    let l := s.labelAt x room a
    let res := rule l.source
    match inputCause [l] with
    | some (c, fresh) => RoomResult.ofStop (.stop res c fresh) [a.labelSpan room]
    | none =>
      if !forms.contains l.lab.form || x.wrongT l.lab then RoomResult.ofStop (.stop res cForm true) [a.labelSpan room]
      else
        let r := s.copyRuns x l.lab res a room (pairs l.lab)
        { lab := res, runs := r.1, fresh := false, reads := a.labelSpan room :: r.2, mism := none, work := some (0, 0), gate := some 0
          tensor := decide (l.lab.form = 3), stream := true }) 3

/-- BODY_BYTES of a label of any form (R85). -/
def Label.resized (l : Label) (rooms : Nat) : Label :=
  let n := max rooms 1
  { l with bodyBytes := if l.form ≤ 1 then l.body n else if l.form = 2 then l.bodyLwe n else l.tensorShare n }

/-- COMPACT (R70, R268): LIMBS becomes LEVEL + 1, and only the limbs in use are copied. -/
def execCompact (p : PartId) (dst a : Place) (s : State) : Host.Outcome State Fault Refusal :=
  .next (s.layoutOp p dst a [0, 1]
    (fun l => ({ l with limbs := if l.limbs = 0 then 0 else l.level + 1, poison := false, cause := 0 } : Label).resized (s.part p).rooms.length)
    (fun l => List.range (l.level + 1) ++ (if l.check then [l.level + 1] else [])))

/-- The object's form permits the layout (R64). -/
def layoutFits (form layout : Nat) : Bool := if form ≤ 2 then decide (layout ≤ 1) else layout == 1 || layout == 2

/-- RE_DEAL (R268, R85): to DEALT, HOMED in a room, or INTERLEAVED. A HOME beyond the partition's rooms names no operation (log 13); a layout
that the object's form does not permit (R64) is a form the operation does not take. DESIGN CHOICE (log 79): a layout without a home room gets HOME 0. -/
def execReDeal (p : PartId) (dst a : Place) (layout : Fin 3) (home : Nat) (s : State) : Host.Outcome State Fault Refusal :=
  let n := (s.part p).rooms.length
  .next
    (if n ≤ home then s
    else
      s.layoutOp p dst a ((List.range 4).filter (fun f => layoutFits f layout))
        (fun l => ({ l with layout := layout, home := if layout.val = 1 then home else 0, poison := false, cause := 0 } : Label).resized n)
        (fun l => List.range l.limbs ++ (if l.check then [l.limbs] else [])))

end Sys2Proof.Machine
end

