-- ==== Sys2Proof/Machine/Retire.lean ====
section
/-! DEFINITION. The retirement of a room (19): the reflow of keys, pinned areas and live objects to the remaining rooms (R463), and what the
partition, its twin and the module do then (R399, R453, R465, R466). -/

namespace Sys2Proof.Machine

/-! ## What moves (R463) -/

/-- A run of bytes that a reflow moves. -/
structure Move where
  src : Span
  dst : Span
deriving DecidableEq, Repr

/-- The span of a key's position in a partition of some rooms, its body beginning `skip` bytes after `off` (R118, R120). -/
def KeyHdr.positionSpan (h : KeyHdr) (x : Part) (cellar : Bool) (off skip j : Nat) : Span :=
  let n := max x.rooms.length 1
  let bytes := h.digits * (4 * 2 ^ h.logN)
  { room := x.roomAt (j % n), cellar := cellar, off := off + skip + j / n * bytes, len := bytes }

/-- The moves of a registered key. -/
def KeyHdr.moves (h : KeyHdr) (x y : Part) : List Move :=
  (List.range h.positions).map (fun j => { src := h.positionSpan x true h.home 128 j, dst := h.positionSpan y true h.home 128 j })

/-- The moves of a pinned area (R133). -/
def KeyHdr.pinMoves (h : KeyHdr) (x y : Part) (off : Nat) : List Move :=
  (List.range h.positions).map (fun j => { src := h.positionSpan x false off 0 j, dst := h.positionSpan y false off 0 j })

/-- The room index that an index becomes when index `gone` is retired; the body of an object HOMED there goes to the room that takes the place (log 47). -/
def homeAfter (gone home rooms : Nat) : Nat := if gone < home then home - 1 else min home (rooms - 1)

/-- A live object's label on the remaining rooms. -/
def Label.reflowed (l : Label) (gone rooms : Nat) : Label :=
  ({ l with home := if l.layout = 1 then homeAfter gone l.home rooms else l.home } : Label).resized rooms

/-- The moves of a live object's body. -/
def Label.moves (l m : Label) (x y : Part) (pl : Place) : List Move :=
  if l.form ≤ 1 then
    (List.range l.pairs).flatMap (fun j => (List.range l.polys).map (fun q => { src := limbSpan x l pl j q, dst := limbSpan y m pl j q }))
  else if l.form = 2 then (List.range l.count).map (fun i => { src := sampleSpan x l pl i, dst := sampleSpan y m pl i })
  else (List.range (ceilDiv l.tensorBytes 4096)).map (fun r => { src := tensorSpan x l pl r, dst := tensorSpan y m pl r })

/-- Every move reads the memory as it stood before the reflow of its object; the lines it reads and writes are the room's own (R268). -/
def State.moveAll (s : State) (ms : List Move) : State :=
  ms.foldl (fun t m => if m.dst.outside then t else t.writeSpan m.dst.room m.dst.cellar m.dst.off (s.spanBytes m.src)) s

/-- A share in the retired room can no longer be read: it is in error, or its stack has stayed at level 4, which retires the room (R233, R463; log 88). -/
def State.sharesLost (s : State) (room : Nat) (ms : List Move) : Bool := ms.any (fun m => m.src.room == room && (s.spanBad m.src || s.spanHot m.src))

/-- The entry of a key that is lost in a reflow (R463, R469). -/
def State.keyLost (s : State) (p index : Nat) : State :=
  let x := s.part p
  let k := x.keyAt index
  let e := { s.entry 0x0043 (ledgerClass 2 0 true false false) 255 255 index with part := p }
  (s.setPart p { x.setKey index { k with cur := none, prev := none, waitRooms := [] } with pins := x.pins.filter (fun q => q.lut || q.key != index) }).record e

/-- A key of an index moves to the remaining rooms; `prev` says that it is the one replaced and still in use (R122, R139), which, lost, is dropped.
A lost registered key leaves the key table. -/
def State.reflowHdr (s : State) (p room : Nat) (x y : Part) (index : Nat) (prev : Bool) (h : KeyHdr) : State :=
  if s.sharesLost room (h.moves x y) then
    (if prev then
      let z := s.part p
      s.setPart p (z.setKey index { z.keyAt index with prev := none, waitRooms := [] })
    else s.keyLost p index)
  else s.moveAll (h.moves x y)

/-- Both keys of an index move: the one it replaced first. -/
def State.reflowKey (s : State) (p room : Nat) (x y : Part) (index : Nat) : State :=
  let k := x.keyAt index
  let t := match k.prev with | some h => s.reflowHdr p room x y index true h | none => s
  match k.cur with
  | some h => t.reflowHdr p room x y index false h
  | none => t

/-- The key whose copy a pinned area holds: the registered one or the one it replaced. -/
def Part.pinnedHdr (x : Part) (q : Pin) : Option KeyHdr :=
  let k := x.keyAt q.key
  if q.lut then none else (k.cur.filter (fun h => h.epoch == q.epoch)).or (k.prev.filter (fun h => h.epoch == q.epoch))

/-- A pinned area moves; one whose share is lost is pinned no longer (log 47). That of a look-up key is whole in each room (R155, R161), and stays. -/
def State.reflowPin (s : State) (p room : Nat) (x y : Part) (q : Pin) : State :=
  match x.pinnedHdr q with
  | some h =>
    if s.sharesLost room (h.pinMoves x y q.off) then
      let z := s.part p
      s.setPart p { z with pins := z.pins.filter (fun e => e.lut || e.key != q.key || e.epoch != q.epoch) }
    else s.moveAll (h.pinMoves x y q.off)
  | none => s

/-- The running job ends FAILED or NO_RESOURCE at its rooms' boundaries. -/
def State.jobFails (s : State) (p status : Nat) : State :=
  let x := s.part p
  s.setPart p { x with job := x.job.map (fun j => { j with failed := some (j.failed.getD status) }) }

/-- A live object moves with its label, into which each room writes its own PRODUCER (R67); a place whose label fails the first stage of R65 names no object. A lost share makes the job end FAILED. -/
def State.reflowObject (s : State) (p room : Nat) (x y : Part) (pl : Place) : State :=
  let l := (s.labelAt x (y.roomAt 0) pl).lab
  if !(s.labelAt x (y.roomAt 0) pl).one then s
  else
    let m := l.reflowed (x.relOf room) y.rooms.length
    if s.sharesLost room (l.moves m x y pl) then s.jobFails p stFailed
    else
      y.rooms.foldl (fun t r => t.writeSpan r pl.cellar pl.off { m with producer := s.producer p r }.bytes) (s.moveAll (l.moves m x y pl))

/-- The samples that a look-up has done at the checkpoint of a room's block. -/
def Room.batchesDone (x : Room) : List Nat :=
  let g := match x.block with | some b => b.checkpoint.progress | none => x.progress
  match g with
  | some v => if v.tables.isEmpty then [] else v.words
  | none => []

/-- A look-up in parts whose done samples are some others': batches are dealt anew for the rooms that remain (R163). -/
def Progress.dealt (g : Progress) (done : List Nat) : Progress := if g.tables.isEmpty then g else { g with words := done }

/-- A room's look-up goes on with the samples that no room has done. -/
def Room.dealBatches (x : Room) (done : List Nat) : Room :=
  { x with
    progress := x.progress.map (fun g => g.dealt done)
    block := x.block.map (fun b => { b with checkpoint := { b.checkpoint with progress := b.checkpoint.progress.map (fun g => g.dealt done) } }) }

/-- A prefetched index entry under another deal of the keys (R139, R463): a room's share is at least as large as before. -/
def KeyEntry.redealt (e : KeyEntry) (y : Part) (room : Nat) : KeyEntry :=
  match e.key.bind (fun i => y.keyByEpoch i.1 i.2) with
  | some h => if e.pinned then e else { e with tiles := entryTiles y h e.level room }
  | none => e

/-- The tiles taken for an entry hold the room's share of the new deal. -/
def State.refill (y : Part) (room : Nat) (s : State) (e : KeyEntry) : State :=
  match e.key.bind (fun i => (s.part ((s.ownerOf room).getD 0)).keyByEpoch i.1 i.2) with
  | some h =>
    if e.pinned then s
    else ((entryQuarters y h e.level room).zipIdx.take (4 * e.ids.length)).foldl (fun t q =>
      match e.quarterAt (s.room room).window room q.2 with
      | some d => t.writeAttic room d.off (s.spanBytes q.1)
      | none => t) s
  | none => s

/-- The key window of a room after the reflow of the keys: its entries, those of the checkpoint among them, and the tiles taken for them. -/
def State.redealWindow (y : Part) (s : State) (room : Nat) : State :=
  let x := s.room room
  let kept := match x.block with | some b => b.checkpoint.keyEntries | none => []
  let t := (x.keyEntries ++ kept.filter (fun e => !x.keyEntries.contains e)).foldl (State.refill y room) s
  let deal (l : List KeyEntry) : List KeyEntry := l.map (fun e => e.redealt { t.part ((s.ownerOf room).getD 0) with rooms := y.rooms } room)
  let z := t.room room
  t.setRoom room { z with
    keyEntries := deal z.keyEntries
    block := z.block.map (fun b => { b with stale := deal b.stale, checkpoint := { b.checkpoint with keyEntries := deal b.checkpoint.keyEntries } }) }

/-- Step 3 of R463. -/
def State.reflow (s : State) (p room : Nat) (x y : Part) (live : List Place) : State :=
  let t := (x.keys.map (·.1)).foldl (fun u i => u.reflowKey p room x y i) s
  let u := y.rooms.foldl (State.redealWindow y) (x.pins.foldl (fun v q => v.reflowPin p room x y q) t)
  let w := live.foldl (fun v pl => v.reflowObject p room x y pl) u
  y.rooms.foldl (fun v r => v.setRoom r ((v.room r).dealBatches (x.rooms.flatMap (fun k => (s.room k).batchesDone)))) w

/-! ## The retirement -/

/-- The rooms left cannot run the program of the running job (step 2 of R463). -/
def Part.tooSmall (x : Part) (rooms : Nat) : Bool :=
  match x.job with
  | some j =>
    match Tab.get none x.programs j.program with
    | some g =>
      decide (rooms < g.minRooms) ||
        (match g.res.find? (fun e => e.rooms == rooms) with
        | some e => decide (atticBytes < e.attic) || decide (stackBytes < e.cellar)
        | none => false)
    | none => false
  | none => false

/-- The code of the event that decided a room's retirement (R469); which event that is among several, and that a wait for a boundary does not change it, are
the model's (log 46). -/
def State.decidingCode (s : State) (r : Nat) : Nat :=
  let x := s.room r
  let y := s.stack r
  if !(s.events (.room r) [2]).isEmpty then 0x0013
  else if x.pausLeft < 3 then 0x0010
  else if (s.events (.room r) [3]).isEmpty then 0x0012
  else if 4096 ≤ y.lost.length then 0x0005
  else if y.pcRetired.isSome then 0x0004
  else 0x0002

/-- A room of a partition has stopped for a retirement: between blocks, or with its block complete, failed or in error (step 1 of R463). -/
def Room.stopped (x : Room) : Bool :=
  match x.block with
  | some b => x.blockDone || b.error.isSome || b.failed
  | none => true

/-- What the module loses with a room: it leaves the pool and ROOM_MASK, its block key is erased (R273), and its domains stay off for good (R485). -/
def State.loseRoom (s : State) (r : Nat) : State :=
  let x := s.room r
  let t := s.setRoom r { x with retired := true, noiseKey := none, keyHeld := false, block := none, blockDone := false, queues := [], channels := [], flagWait := none }
  let u := { t with power := { t.power with
    domains := (roomDomains r).foldl (fun d k => Tab.set .off d k .heldOff) t.power.domains, wakeQueue := t.power.wakeQueue.filter (fun k => !(roomDomains r).contains k) } }
  { u with links := { u.links with tx := u.links.tx.filter (fun e => e.room != r) } }

/-- The decision's ledger entry, with its flags (R465) and its persistence (R462). -/
def State.decideRoom (s : State) (r : Nat) : State :=
  (s.persist (.room r)).decided 0x0011 2 2 true true true r 255 (s.decidingCode r) (s.events (.room r) [0, 2, 3]).length

/-- The partition without a room: its later rooms take lower indices, and its apertures close (R463, R539). -/
def State.shrink (s : State) (p r : Nat) : State :=
  let x := s.part p
  (((s.setPart p { x with rooms := x.rooms.filter (· != r), pendingRooms := passRoom r x.pendingRooms }).closeApertures (p + 1)).freezeTwin p).partChanged p

/-- Step 4 of R463: the block in progress replays on the rooms left; without a replay it ends failed. -/
def State.resumeRooms (s : State) (p : Nat) (small : Bool) : State :=
  (s.part p).rooms.foldl (fun t r => if (t.room r).block.isSome then (if small then t.failBlock r else (t.flushExpiries r).replayOne true r) else t) s

/-- A descriptor moves data to or from a room of an index of its partition. -/
def StreamCtx.touches (c : StreamCtx) (idx : Nat) : Bool :=
  let d := c.d
  let entry (k : Nat) : Nat := let e := c.entryWord k; if d.op = 1 || d.op = 2 then bitsOf e 51 48 else bitsOf e 44 41
  d.op != 3 &&
    ((decide (d.srcSpace ≤ 1) && d.op != 1 && d.op != 4 && d.op != 6 && d.srcRoom == idx) || (decide (d.dstSpace ≤ 1) && d.op != 2 && d.op != 5 && d.dstRoom == idx) ||
      (d.indexed && (List.range d.idxCount).any (fun k => entry k == idx)))

/-- The streams of the other rooms that a retired room served halt with cause BUS (R263). -/
def State.busStreams (s : State) (p r : Nat) : State :=
  let x := s.part p
  (x.rooms.filter (· != r)).foldl (fun t room => (List.range 16).foldl (fun u c =>
    if ((u.room room).chan c).issued.any (fun i => ({ s0 := s, p := p, room := room, chan := c, d := i.desc, third := false } : StreamCtx).touches (x.relOf r))
    then u.stopChannel room c 2 0 else u) t) s

/-- A room of a partition is retired (R399, R463). -/
def State.retireFrom (s : State) (p r : Nat) (live : List Place) : State :=
  let x := s.part p
  let rest := x.rooms.filter (· != r)
  let y : Part := { x with rooms := rest }
  let small := rest.isEmpty || x.tooSmall rest.length
  let t := (s.decideRoom r).busStreams p r
  let u := if small then t.jobFails p stNoResource else t.reflow p r x y live
  ((u.loseRoom r).shrink p r).resumeRooms p small

/-- ROOM_RETIRE (R456, R463): a permanent fault of a room, taken at the partition's boundaries; `live` names the objects that the body lists as live at the
failing block's start. Its reflow waits while a stack of the remaining rooms is at level 4 (R233). The last enabled room takes the module to HALTED (R466). -/
def execRoomRetire (r : RoomId) (live : List Place) (s : State) : Host.Outcome State Fault Refusal :=
  .next
    (if !s.roomOk r || !s.permanent (.room r) then s
    else
      let ready := match s.ownerOf r with
        | some p => (s.part p).rooms.all (fun k => (s.room k).stopped && (k == r.val || decide ((s.stack k).level < 4)))
        | none => true
      if !ready then s
      else
        let t := match s.ownerOf r with
          | some p => s.retireFrom p r live
          | none => (s.decideRoom r).loseRoom r
        if t.liveRooms.isEmpty then t.halt 0 else t)

end Sys2Proof.Machine
end

