-- ==== Sys2Proof/Machine/Boot.lean ====
section
/-! DEFINITION. Resets and the boot (21): the fuse read, loading, self-test, training, the entry to READY, and RECOVERY. -/

namespace Sys2Proof.Machine

/-! ## Resets (R499, R341, R483, R550, R553, R554) -/

/-- Non-volatile contents after a reset: the cold image of the fuses is read anew (R501). -/
def Nvm.afterReset (x : Nvm) : Nvm := { x with image := [] }

/-- What a cold reset leaves (R499): POWERON, with everything lost that is neither fuse, flash nor supply; `free` and the DRBG's index go on, since no free
value comes twice. -/
def State.coldState (s : State) : State :=
  { State.reset with
    sec := { drbgNext := s.sec.drbgNext }
    clocks := { refPresent := s.clocks.refPresent, refSince := s.clocks.refSince, refHold := s.clocks.refHold }
    power := { rails := s.power.rails, regulatedSince := s.power.regulatedSince, seqFault := s.power.seqFault, pwrFaultN := !s.power.seqFault }
    boot := { releasedAt := s.now, resetHold := s.boot.resetHold }
    nvm := s.nvm.afterReset, now := s.now, free := s.free, out := s.out, pending := s.pending }

/-- The straps as sampled at the release of a reset (R554). -/
def State.strapped (s : State) (recovery test : Bool) (addr : BitVec 2) : State :=
  { s with boot := { s.boot with recoveryStrap := recovery, testStrap := test, addrStrap := addr } }

/-- The module is held in reset: by the supply sequence, by rails not in regulation, or by the loss of REFCLK. -/
def State.held (s : State) : Bool := s.power.seqFault || s.boot.resetHold

/-- A reset that MODULE_RESET asked for is due (R341). -/
def State.resetDue (s : State) (kind : Nat) : Bool :=
  match s.boot.resetAt with
  | some (k, t) => k == kind && decide (t ≤ s.now)
  | none => false

/-- REFCLK has been present for 1 ms without a break. -/
def State.refStable (s : State) : Bool := s.clocks.refPresent && decide (s.clocks.refSince + 1000000 ≤ s.now)

/-- The source of a cold reset makes one (R499, R553): a low pulse of RST_N of 10 µs or more, none below 1 µs; what one in between does is a free value. -/
def State.coldSource (s : State) (src : ResetSource) : Bool :=
  match src with
  | .rstN low => decide (10000 ≤ low) || (decide (1000 ≤ low) && Config.openBit s.free)
  | .perstN => true
  | .moduleReset => s.resetDue 1
  | .refclk => s.clocks.refHold && s.refStable
  | .hotReset => false

/-- COLD_RESET (R499): the reset and its release, with the straps then sampled. While a hold applies, the module stays in POWERON. -/
def execColdReset (src : ResetSource) (recovery test : Bool) (addr : BitVec 2) (s : State) : Host.Outcome State Fault Refusal :=
  .next
    (if !s.coldSource src then s.draw 1
    else
      let t := (s.coldState.strapped recovery test addr).draw 1
      if src = .refclk then { t with clocks := { t.clocks with refHold := false } } else t)

/-- PF0's configuration space, which a warm reset keeps (R499). -/
def Fn.configSpace (x : Fn) : Fn := { msixEnable := x.msixEnable, funcMask := x.funcMask, busMaster := x.busMaster }

/-- WARM_RESET (R499): the boot begins at FUSES; the always-on island, the ledger, the rights-violation counts, the cap, the PCIe link and PF0's configuration
space stay. -/
def execWarmReset (src : ResetSource) (recovery test : Bool) (addr : BitVec 2) (s : State) : Host.Outcome State Fault Refusal :=
  let due := match src with | .moduleReset => s.resetDue 0 | .hotReset => true | _ => false
  .next
    (if !due || s.held || s.clocks.refHold then s
    else
      let c := s.coldState.strapped recovery test s.boot.addrStrap
      let l := s.gysis.ledger
      { c with
        gysis := { c.gysis with ledger := l }
        fns := Tab.set {} [] 0 (s.fn 0).configSpace
        power := { c.power with cap := s.power.cap }
        boot := { c.boot with state := .fuses, lastExpiry := s.boot.lastExpiry }
        board := s.board })

/-- MODULE_RESET's field (R331). -/
def checkModuleReset (q : Req) : Nat := if q.field 0 1 ≤ 1 then stOk else stBadArgument

/-- MODULE_RESET (R341): the reset begins 1 ms later. -/
def execModuleReset (f : FnId) (slot : SlotId) (s : State) : Host.Outcome State Fault Refusal :=
  .next (s.runCmd f slot (isOp 0x0605) (fun q =>
    if checkModuleReset q ≠ stOk then .fail s (checkModuleReset q)
    else .ok { s with boot := { s.boot with resetAt := some (q.field 0 1, s.now + 1000000) } } []))

/-- REFCLK_LOSS (R483): the module is held in cold reset. -/
def execRefclkLoss (s : State) : Host.Outcome State Fault Refusal :=
  let c := s.coldState
  .next { c with clocks := { c.clocks with refPresent := false, refHold := true } }

/-- REFCLK_RETURN (R483): REFCLK is present again; 1 ms later the hold ends, and the boot goes on from POWERON. -/
def execRefclkReturn (s : State) : Host.Outcome State Fault Refusal :=
  .next (if s.clocks.refPresent then s else { s with clocks := { s.clocks with refPresent := true, refSince := s.now } })

/-! ## Supplies (R547 to R551) -/

/-- The group of a rail in the order of R549. -/
def railGroup (rail : Nat) : Nat :=
  if rail = 4 || rail = 11 || rail = 12 then 1 else if rail = 7 || rail = 3 then 2 else if rail = 2 || rail = 5 || rail = 10 || rail = 8 || rail = 9 then 3 else 4

/-- The rails. -/
def allRails : List Nat := (List.range 12).map (· + 1)

/-- The level of a rail: 0 below 10%, 1 above, 2 at 95%, 3 in regulation. -/
def State.rail (s : State) (r : Nat) : Nat := Tab.get 0 s.power.rails r

/-- A rail of groups 2 to 4 that rises now is out of order (R550): the island watches, and a rail of the group before has not reached 95%. -/
def State.railEarly (s : State) (r : Nat) : Bool :=
  decide (2 ≤ s.rail 4) && decide (2 ≤ railGroup r) && allRails.any (fun k => railGroup k + 1 == railGroup r && decide (s.rail k < 2))

/-- SEQ_FAULT is latched (R550): PWR_FAULT_N goes low and the module is held in cold reset. -/
def State.latchSeq (s : State) : State :=
  let c := s.coldState
  { c with power := { c.power with seqFault := true, pwrFaultN := false }, boot := { c.boot with resetHold := true } }

/-- A rail rises into regulation. VDD_AON at 95% finds a rail of groups 2 to 4 already above 10% out of order. -/
def State.riseRail (s : State) (r : Nat) : State :=
  let early := s.railEarly r || (r == 4 && allRails.any (fun k => decide (2 ≤ railGroup k) && decide (1 ≤ s.rail k)))
  let t := { s with power := { s.power with rails := Tab.set 0 s.power.rails r 3 } }
  if early && !s.power.seqFault then t.latchSeq else t

/-- Every rail is in regulation. -/
def State.railsUp (s : State) : Bool := allRails.all (fun k => s.rail k == 3)

/-- POWER_UP (R549, R550): the rails named rise in that order; once every rail has been in regulation for 1 ms the island releases its hold, and BOOT_MS
counts from there. -/
def execPowerUp (rise : List Nat) (s : State) : Host.Outcome State Fault Refusal :=
  let t := (rise.filter (fun r => allRails.contains r && s.rail r == 0)).foldl State.riseRail s
  let u := if t.railsUp && t.power.regulatedSince.isNone then { t with power := { t.power with regulatedSince := some t.now } } else t
  .next
    (match u.power.regulatedSince with
    | some at_ => if u.boot.resetHold && !u.power.seqFault && decide (at_ + 1000000 ≤ u.now) then
        { u with boot := { u.boot with resetHold := false, releasedAt := u.now } } else u
    | none => u)

/-- SEQ_FAULT (R550): a rail rises above 10% out of order. -/
def execSeqFault (rail : Nat) (s : State) : Host.Outcome State Fault Refusal :=
  .next
    (if !allRails.contains rail || s.rail rail ≠ 0 || !s.railEarly rail || s.power.seqFault then s
    else { s with power := { s.power with rails := Tab.set 0 s.power.rails rail 1 } }.latchSeq)

/-- POWER_DOWN (R550, R551): every rail falls below 10%, which releases SEQ_FAULT; what a cold reset loses is lost. -/
def execPowerDown (planned : Bool) (s : State) : Host.Outcome State Fault Refusal :=
  let c := s.coldState
  .next { c with
    power := { c.power with rails := [], regulatedSince := none, seqFault := false, pwrFaultN := true }
    boot := { c.boot with resetHold := true } }

/-! ## Retirements found or applied at boot -/

/-- A factory or field remap of a row takes the next spare row (R204, R500); one that finds none takes the next spare bank (R205). -/
def State.bootRow (s : State) (r layer bank row : Nat) : State :=
  let x := s.room r
  let y := x.layer layer
  let used := Tab.get [] y.rowRemaps bank
  if used.contains row || y.bankRetired bank then s
  else if used.length < 32 then s.setRoom r (x.setLayer layer { y with rowRemaps := Tab.set [] y.rowRemaps bank (used ++ [row]) })
  else match y.freeSpare with
    | some k => s.setRoom r (x.setLayer layer (y.useSpare bank k))
    | none => s

/-- A factory or field remap of a bank takes the next spare bank. -/
def State.bootBank (s : State) (r layer bank : Nat) : State :=
  let x := s.room r
  let y := x.layer layer
  if y.bankRetired bank then s
  else match y.freeSpare with
    | some k => s.setRoom r (x.setLayer layer (y.useSpare bank k))
    | none => s

/-- A factory remap word (R500). -/
def State.remapWord (s : State) (w : Nat) : State :=
  let r := bitsOf w 29 26
  let layer := bitsOf w 25 24
  let bank := bitsOf w 23 17
  if !bitOf w 31 || 3 ≤ layer || 66 ≤ bank then s
  else if bitOf w 30 then s.bootBank r layer bank
  else s.bootRow r layer bank (bitsOf w 13 0)

/-- A room is retired at boot, with its decision; WHERE is the code of the event. -/
def State.bootRetire (s : State) (r code : Nat) : State :=
  if (s.room r).retired then s
  else (((s.persist (.room r)).decided 0x0011 2 2 true true true r 255 code 1).loseRoom r)

/-! ## FUSES (R501, R503, R515) -/

/-- The bitwise majority of three reads. -/
def majority (a b c : Word) : Word := (a &&& b) ||| (a &&& c) ||| (b &&& c)

/-- The word of the cold image that three reads give (R501, R503): policy words are the OR of the reads; in word 73 a differing bin or ordering bit takes the
slower or smaller value. -/
def coldWord (n : Nat) (a b c : Word) : Word :=
  if 64 ≤ n && n ≤ 72 then a ||| b ||| c
  else if n = 73 then majority a b c ||| ((a ||| b ||| c) &&& 0x30000)
  else majority a b c

/-- The reads of a word that are not all the same as the fuses hold. -/
def readsOf (reads : List (Nat × Word × Word × Word)) (w : Word) (n : Nat) : Word × Word × Word :=
  match reads.find? (fun e => e.1 == n) with
  | some e => e.2
  | none => (w, w, w)

/-- The weak words of a read. -/
def weakWords (reads : List (Nat × Word × Word × Word)) : List Nat :=
  (reads.filter (fun e => decide (e.1 < 2048) && !(e.2.1 == e.2.2.1 && e.2.2.1 == e.2.2.2))).map (·.1)

/-- The cold image: every word of the array, with the reads given for some of them. -/
def coldImage (fuses : Tab Word) (reads : List (Nat × Word × Word × Word)) : Tab Word :=
  reads.foldl (fun t e => if e.1 < 2048 then Tab.set 0 t e.1 (coldWord e.1 e.2.1 e.2.2.1 e.2.2.2) else t) fuses

/-- Signer slots that a list of words makes suspect (R503). -/
def suspectSlots (ws : List Nat) : BitVec 4 := BitVec.ofNat 4 (maskOf (((ws.filter (fun w => 16 ≤ w && w < 64)).map (fun w => (w - 16) / 12)).eraseDups))

/-- Weak or unstable words of the identity class. -/
def identityWords (ws : List Nat) : Bool := ws.any (· < 16)

/-- The factory remaps of every read (R500, R503), in the order of the words. -/
def State.factoryRemaps (s : State) (reads : List (Nat × Word × Word × Word)) : State :=
  let words := (((s.nvm.fuses.map (·.1)) ++ reads.map (·.1)).filter (fun n => 128 ≤ n && n < 2048)).mergeSort (fun a b => decide (a ≤ b))
  words.eraseDups.foldl (fun t n =>
    let v := readsOf reads (Tab.get 0 s.nvm.fuses n) n
    ((t.remapWord v.1.toNat).remapWord v.2.1.toNat).remapWord v.2.2.toNat) s

/-- Rooms whose enable bit differs between the reads of word 73 are retired. -/
def State.enableDiffers (s : State) (a b c : Word) : State :=
  (maskList 16 (((a ^^^ b) ||| (b ^^^ c)).toNat)).foldl (fun t r => t.bootRetire r 0) s

/-- The seven domains of a room disabled by fuse are held off (R4, R7, R485). -/
def State.holdOffFused (s : State) : State :=
  { s with power := { s.power with
    domains := ((List.range 16).filter (fun r => !bitOf s.roomEnable r)).foldl
      (fun t r => (roomDomains r).foldl (fun d k => Tab.set .off d k .heldOff) t) s.power.domains } }

/-- The stage FUSES. -/
def State.readFuses (s : State) (reads : List (Nat × Word × Word × Word)) : State :=
  let weak := weakWords reads
  let t := s.setDev .fuses
  let u := { t with
    nvm := { t.nvm with image := coldImage t.nvm.fuses reads }
    boot := { t.boot with
      stageDone := true, weak := weak, identityLost := identityWords weak, signerSuspect := suspectSlots weak != 0 }
    sec := { t.sec with signerSuspect := suspectSlots weak, keyPathClosed := true } }
  let v := u.factoryRemaps reads
  let e := readsOf reads (Tab.get 0 s.nvm.fuses 73) 73
  let w := (v.enableDiffers e.1 e.2.1 e.2.2).holdOffFused
  if identityWords weak then w else w.deriveDevice

/-- FUSE_READ (R501): after REFCLK has been present for 1 ms, or at the start of a warm boot; `reads` gives reads A, B and C of the words that do not read as
they are blown. -/
def execFuseRead (reads : List (Nat × Word × Word × Word)) (s : State) : Host.Outcome State Fault Refusal :=
  let b := s.boot
  .next
    (if s.held || !s.refStable then s
    else
      let t := if s.clocks.refHold then
          { s with clocks := { s.clocks with refHold := false }, boot := { b with releasedAt := s.clocks.refSince + 1000000 } } else s
      if b.state = .powerOn || (b.state = .fuses && !b.stageDone) then t.readFuses reads else s)

/-! ## LOADING (R505, R506, R515) -/

/-- The valid one of two images with the higher SVN, A on a tie: `some false` for A. -/
def State.pickImage (s : State) (a b : Image) : Option Bool :=
  match s.imageOk a, s.imageOk b with
  | true, true => some (decide (a.svn < b.svn))
  | true, false => some false
  | false, true => some true
  | false, false => none

/-- A configuration is valid (R505, R555): its parameters in range, its SVN not below the fused minimum. -/
def State.configOk (s : State) (c : BoardConfig) : Bool :=
  decide (45 ≤ c.outletLimit) && decide (c.outletLimit ≤ 55) && decide (c.currentLimit.getD 0 0 ≤ 2400) && decide (c.currentLimit.getD 1 0 ≤ 400) &&
    decide (c.currentLimit.getD 2 0 ≤ 300) && decide (s.minSvn ≤ c.svn)

/-- The configuration that LOADING chooses. -/
def State.pickConfig (s : State) : Option BoardConfig :=
  let ok (c : Option BoardConfig) : Option BoardConfig := match c with | some x => if s.configOk x then some x else none | none => none
  match ok s.nvm.confA, ok s.nvm.confB with
  | some a, some b => some (if a.svn < b.svn then b else a)
  | some a, none => some a
  | none, o => o

/-- RECOVERY (R516, R517): ports idle, and the room, cellar and bundle domains OFF. -/
def State.recover (s : State) (cause : Nat) : State :=
  let t := s.portsIdle
  let u := { t with
    power := { t.power with domains := t.power.domains.filter (fun (e : Nat × DomState) => e.2 == DomState.heldOff || decide (118 ≤ e.1)), wakeQueue := [] }
    boot := { t.boot with stopState := if t.boot.stopState = 5 then 5 else s.boot.state.code, cause := cause, firmwareRunning := false, stageDone := false } }
  u.setDev .recovery

/-- An entry of the repair record is applied (R506); those of the cellar are held for TRAINING. -/
def State.applyRecord (s : State) (c : FaultChan) : State :=
  match c with
  | .atticRow r l b row => s.bootRow r l b row
  | .atticBank r l b => s.bootBank r l b
  | .pau r k => s.setRoom r { s.room r with pauRetired := (s.room r).pauRetired ||| BitVec.ofNat 4 (2 ^ k) }
  | .room r => s.loseRoom r
  | .core c => s.setCore c { retired := true }
  | .security => { s with sec := { s.sec with retired := true } }
  | _ => s

/-- The firmware starts: it enables the assigned sources with handlers of its own (log 45), and every domain moves to SOURCE 0 (R477). -/
def State.startFirmware (s : State) : State :=
  let src (t : Tab Source) (n : Nat) : Tab Source :=
    if sourceAssigned n then
      Tab.set {} t n { pending := (s.source n).pending, enabled := true, targets := 15, handler := (Config.openWord (s.free + n)).setWidth 64 <<< 2 }
    else t
  let core (t : State) (c : Nat) : State := if (t.core c).retired then t else t.setCore c { mie := true }
  let t := (List.range 4).foldl core { s with gysis := { s.gysis with intc := { s.gysis.intc with sources := (List.range 256).foldl src [] } } }
  let u := { t with boot := { t.boot with firmwareRunning := true } }.draw 256
  (List.range 6).foldl (fun v d => if (v.clk d).source = 2 then v.makeSwitch d 0 else v) u

/-- Both PLLs run and have locked during the stage (R475, R476). -/
def State.startPlls (s : State) : State :=
  let p : Pll := { running := true, locked := true, lockedAt := s.now - 50000, beatOk := true, readySince := s.now, edges := 20000 }
  { s with clocks := { s.clocks with root := p, alt := p } }

/-- Steps 3 to 5 of R505, with what R515 leaves out when the security engine's retirement is recorded. -/
def State.load (s : State) (slotB : Bool) (conf : BoardConfig) : State :=
  let micro := s.pickImage s.nvm.microA s.nvm.microB
  let m := match micro with | some b => some (if b then s.nvm.microB else s.nvm.microA) | none => none
  let t := { s with
    nvm := { s.nvm with config := conf }
    boot := { s.boot with slotB := slotB, repairLost := !s.nvm.recordOk, stageDone := true }
    gysis := { s.gysis with fwVersion := BitVec.ofNat 63 (if slotB then s.nvm.fwB.version else s.nvm.fwA.version) }
    sec := { s.sec with
      microcode := match m with | some i => i.programs | none => []
      microDigest := match m with | some i => i.digest | none => [] } }
  let gone := s.nvm.recordOk && s.nvm.record.contains .security
  let u := if gone || s.boot.identityLost then t else t.deriveAlias
  let v := if s.nvm.recordOk then s.nvm.record.foldl State.applyRecord u else u
  v.startPlls.startFirmware

/-- LOADING (R505, R513, R515, R517): `katOk` says that the known-answer tests of HASH, PKA and LATTICE passed. The recovery strap takes the module to RECOVERY
(log 60). -/
def execLoading (katOk : Bool) (s : State) : Host.Outcome State Fault Refusal :=
  .next
    (if s.boot.state ≠ .fuses || !s.boot.stageDone then s
    else
      let t := s.setDev .loading
      if !katOk then t.halt 5
      else if t.boot.recoveryStrap then t.recover 3
      else match t.pickImage t.nvm.fwA t.nvm.fwB, t.pickConfig with
        | none, _ => t.recover 1
        | some _, none => t.recover 2
        | some b, some c => t.load b c)

/-! ## SELFTEST (R502, R503, R508, R514) -/

/-- The hot read of a word that is not weak differs from the cold image (R502, R503). A repair word of a room that fuses disable repairs nothing (R6). -/
def State.unstable (s : State) (n : Nat) (hot : Word) : State :=
  let cold := Tab.get 0 s.nvm.image n
  let t := { s with boot := { s.boot with unstable := s.boot.unstable ++ [n] } }
  if n < 16 then
    { t with
      sec := { t.sec with entries := t.sec.entries.filter (fun e => !(cupKey 16 0 ≤ e.1 && e.1 < cupKey 16 4)), cdi0 := false, alias_ := false }
      boot := { t.boot with identityLost := true } }
  else if n < 64 then
    { t with sec := { t.sec with signerSuspect := t.sec.signerSuspect ||| suspectSlots [n] }, boot := { t.boot with signerSuspect := true } }
  else if n ≤ 72 then { t with nvm := { t.nvm with image := Tab.set 0 t.nvm.image n (cold ||| hot) } }
  else if n = 73 then (maskList 16 (cold ^^^ hot).toNat).foldl (fun u r => u.bootRetire r 0) t
  else if n < 128 then t
  else
    let w := hot.toNat
    let r := bitsOf w 29 26
    let layer := bitsOf w 25 24
    let bank := bitsOf w 23 17
    if !t.roomOk r || !bitOf w 31 || 3 ≤ layer || 66 ≤ bank then t
    else if bitOf w 30 then (if ((t.room r).layer layer).bankRetired bank then t else t.replaceBank r layer bank)
    else t.selfTestFinding r (layer, bank, bitsOf w 13 0)

/-- The hot fuse read. -/
def State.hotRead (s : State) (hot : List (Nat × Word)) : State :=
  (hot.filter (fun e => decide (e.1 < 2048) && !s.boot.weak.contains e.1 && Tab.get 0 s.nvm.image e.1 != e.2)).foldl (fun t e => t.unstable e.1 e.2) s

/-- A unit that failed in SELFTEST (R508, R514): a PAU, a core or the security engine beyond its minimum units is retired, a room's other unit retires the
room, and a part of the minimum service set ends in HALTED (the channel of the chip, or of core 0). -/
def State.selfTestFailure (s : State) (c : FaultChan) : State :=
  match c with
  | .pau r k =>
    if 4 ≤ k || (s.room r).pauRetired.getLsbD k || !s.roomOk r then s
    else
      let x := s.room r
      let t := s.setRoom r { x with pauRetired := x.pauRetired ||| BitVec.ofNat 4 (2 ^ k) }
      let u := (t.persist (.pau r k)).decided 0x0010 1 2 true true (decide (2 ≤ t.retiredPaus)) r k k 1
      if (u.room r).pausLeft < 3 then u.bootRetire r 0x0010 else u
  | .transform r => if s.roomOk r then s.bootRetire r 0 else s
  | .vector r => if s.roomOk r then s.bootRetire r 0 else s
  | .sequencer r => if s.roomOk r then s.bootRetire r 0 else s
  | .room r => if s.roomOk r then s.bootRetire r 0 else s
  | .core k => if k = 0 then s.halt 5 else if k < 4 && !(s.core k).retired then s.retireCore k else s
  | .security => if s.sec.retired then s else s.retireEngine
  | .chip => s.halt 5
  | _ => s

/-- The minimum compute set (R514). -/
def State.canCompute (s : State) : Bool := s.liveRooms.any (fun r => decide (3 ≤ (s.room r).pausLeft))

/-- SELFTEST (R508): `hot` gives hot reads that differ from the blown words, `failed` the units that fail, `idle` each room's P_idle in mW. The attic patterns
and their findings are ATTIC_SELF_TEST. -/
def execSelftest (hot : List (Nat × Word)) (failed : List FaultChan) (idle : List Nat) (s : State) : Host.Outcome State Fault Refusal :=
  .next
    (if s.boot.state ≠ .loading || !s.boot.stageDone then s
    else
      let t := (s.setDev .selfTest).powerOn ((maskList 16 s.roomEnable).flatMap roomDomains)
      let u := (failed.foldl State.selfTestFailure t).hotRead hot
      let v := { u with
        power := { u.power with idlePower := u.liveRooms.foldl (fun (m : Tab Nat) r => Tab.set 0 m r (idle.getD r 0)) [] }
        sec := { u.sec with drbgSeeded := u.now } }
      if v.boot.state = .halted then v else if v.canCompute then v else v.halt 6)

/-! ## TRAINING (R509, R514) -/

/-- The rows of the repair record are hard-repaired, those that were already so included in the resources used (R234, R506, R509). -/
def State.hardRepairs (s : State) : State :=
  let todo := (s.nvm.repairs.filter (fun e => e.2.state != 1 && s.roomOk e.1)).length
  let t := s.nvm.repairs.foldl (fun (u : State) (e : Nat × RepairEntry) => u.setStack e.1 ((u.stack e.1).useRepair e.2.row)) s
  { t with
    nvm := { t.nvm with repairs := t.nvm.repairs.map (fun e => if s.roomOk e.1 then (e.1, { e.2 with state := 1 }) else e) }
    boot := { t.boot with hardRepairs := t.boot.hardRepairs + todo } }

/-- The pseudo-channel retirements of the record, without a copy (R509). -/
def State.recordedPcs (s : State) : State :=
  s.nvm.record.foldl (fun (t : State) (c : FaultChan) => match c with
    | .pseudo r k => t.setStack r { t.stack r with pcRetired := some k }
    | _ => t) s

/-- The links are released (R420, R509): every port begins to train. -/
def State.releaseLinks (s : State) : State :=
  (List.range 30).foldl State.retrain { s with links := { s.links with released := true } }

/-- TRAINING (R509): `failed` names the stacks that failed to train three times, whose rooms are retired. -/
def execTraining (failed : List Nat) (s : State) : Host.Outcome State Fault Refusal :=
  .next
    (if s.boot.state ≠ .selfTest || !s.boot.stageDone then s
    else
      let t := ((s.setDev .training).powerOn (s.liveRooms.map (96 + ·) ++ (List.range 6).map (112 + ·))).releaseLinks
      let u := (failed.filter (fun r => t.roomOk r)).foldl (fun v r => v.bootRetire r 0) t
      let w := if u.nvm.recordOk then u.hardRepairs.recordedPcs else u
      let z := w.liveRooms.foldl (fun v r => (v.setStack r { v.stack r with trained := true }).clearRoom r) w
      if z.canCompute then z else z.halt 6)

/-! ## READY (R511, R465, R507, R519) -/

/-- DEGRADED and REPLACE_REQUESTED from the retirements that persist (R465). -/
def State.persistentFlags (s : State) : State :=
  let rooms := (List.range 16).filter (fun r => (s.room r).retired)
  let cores := (List.range 4).any (fun c => (s.core c).retired)
  let paus := s.retiredPaus
  let deg := !rooms.isEmpty || cores || s.sec.retired || decide (0 < paus)
  let rep := !rooms.isEmpty || cores || s.sec.retired || decide (2 ≤ paus) ||
    s.liveRooms.any (fun r => (List.range 3).any (fun l => ((s.room r).layer l).noSpare)) ||
    s.liveRooms.any (fun r => (s.stack r).pcRetired.isSome && (s.stack r).pprFree == 0)
  let t := if deg then s.setDegraded else s
  if rep then t.setReplace else t

/-- The fused minimum SVN is raised (R507), when the running image asks for it and the other slot holds a valid image of at least its SVN. -/
def State.blowSvn (s : State) : State :=
  let i := s.runningImage
  let o := if s.boot.slotB then s.nvm.fwA else s.nvm.fwB
  if i.fuseSvn && s.imageOk o && i.svn ≤ o.svn && s.minSvn < i.svn then
    let word (n : Nat) : Word := BitVec.ofNat 32 (2 ^ min 32 (i.svn - 32 * n) - 1)
    let put (t : Tab Word) : Tab Word := (List.range 8).foldl (fun u n => Tab.set 0 u (65 + n) (Tab.get 0 u (65 + n) ||| word n)) t
    { s with nvm := { s.nvm with fuses := put s.nvm.fuses, image := put s.nvm.image } }
  else s

/-- READY_ENTRY (R511, R516, R519): READY, or TEST under the test strap, where RWL fields stay writable. -/
def execReadyEntry (s : State) : Host.Outcome State Fault Refusal :=
  .next
    (if s.boot.state ≠ .training || !s.boot.stageDone then s
    else
      let test := s.boot.testStrap
      let ms := min 0xFFFF ((s.now - s.boot.releasedAt) / 1000000)
      let t := { s with boot := { s.boot with
        stopState := if test then 4 else 5, cause := if test then 7 else 0, locked := !test, bootMs := ms } }
      let u := t.liveRooms.foldl (fun v r => v.setRoom r { v.room r with clean := true }) t
      let w := u.persistentFlags.setDev (if test then .test else .ready)
      (if test then w else w.blowSvn).drawBootId)

/-! ## The firmware watchdog (R518) -/

/-- A function's slots are FREE: their commands get no response (log 61). -/
def State.dropSlots (s : State) (f : Nat) : State :=
  s.setFn f { s.fn f with slots := [] }

/-- A partition is torn down without a completion of its job or a word to its twin: its channels halt with CANCEL, and PF0 and its VF learn of it (R352). What
the read-back pass of R211 finds in this teardown is no operand of the row (log 71). -/
def State.silentTeardown (s : State) (p : Nat) : State :=
  if (s.part p).present then
    let rooms := (s.part p).rooms
    let t := (rooms.foldl State.clearRoom (rooms.foldl State.cancelChannels s)).clearCupboard p
    (((t.setPart p {}).clearVfObjects (p + 1)).closeApertures (p + 1)).partChanged p
  else s

/-- FIRMWARE_WATCHDOG (R518): the boot ROM takes over, tears every partition down, and restarts the firmware; a second expiry within 1 h, or a running slot
that no longer verifies, leaves the module in RECOVERY. -/
def execFirmwareWatchdog (s : State) : Host.Outcome State Fault Refusal :=
  let b := s.boot.state
  .next
    (if !s.boot.firmwareRunning || b = .halted || b = .recovery then s
    else
      let again := match s.boot.lastExpiry with | some t => decide (s.now ≤ t + hourNs) | none => false
      let t := (List.range 17).foldl State.dropSlots ((List.range 16).foldl State.silentTeardown s)
      let u := { t with boot := { t.boot with lastExpiry := some s.now }, gysis := { t.gysis with detached := [] } }
      if again || (b ≠ .ready && b ≠ .test) then u.recover 4
      else if !u.imageOk u.runningImage then u.recover 1
      else ((({ u with boot := { u.boot with firmwareRunning := false } }.setDev .recovery).startFirmware).setDev b).setCause 0 1)

end Sys2Proof.Machine
end

