-- ==== Sys2Proof/Machine/Debug.lean ====
section
/-! DEFINITION. Breaks and debug reads (12, R316). -/

namespace Sys2Proof.Machine

/-- A room that a debug command may name: enabled by fuse and not retired (R316). -/
def State.debugRoom (s : State) (r : Nat) : Bool := decide (r < 16) && s.roomOk r

/-- Fields of BREAK_SET (R331, R316). -/
def checkBreakSet (s : State) (q : Req) : Nat :=
  if s.debugRoom (q.field 0 1) && q.field 1 1 ≤ 1 && q.field 2 1 ≤ 3 then stOk else stBadArgument

/-- The breaks of a room after a BREAK_SET: on a count, or on a queue's tag. -/
def Breaks.with_ (b : Breaks) (q : Req) : Breaks :=
  if q.field 1 1 = 0 then { b with onCount := some (BitVec.ofNat 48 (q.field 8 6)) }
  else { b with onTag := some (Fin.ofNat 4 (q.field 2 1), BitVec.ofNat 16 (q.field 4 2)) }

/-- BREAK_SET (R316). -/
def execBreakSet (f : FnId) (slot : SlotId) (s : State) : Host.Outcome State Fault Refusal :=
  .next (s.runCmd f slot (isOp 0x0801) (fun q =>
    if checkBreakSet s q ≠ stOk then .fail s (checkBreakSet s q)
    else
      let r := q.field 0 1
      let x := s.room r
      .ok (s.setRoom r { x with brk := x.brk.with_ q }) []))

/-- A command that names a room alone. -/
def checkBreakRoom (s : State) (q : Req) : Nat := if s.debugRoom (q.field 0 1) then stOk else stBadArgument

/-- A command that names a room stopped at a break; a room that is not stopped gives BAD_ARGUMENT (log 42). -/
def checkStopped (s : State) (q : Req) : Nat :=
  if s.debugRoom (q.field 0 1) && (s.room (q.field 0 1)).brk.stopped then stOk else stBadArgument

/-- BREAK_CLEAR (R316). -/
def execBreakClear (f : FnId) (slot : SlotId) (s : State) : Host.Outcome State Fault Refusal :=
  .next (s.runCmd f slot (isOp 0x0802) (fun q =>
    if checkBreakRoom s q ≠ stOk then .fail s (checkBreakRoom s q)
    else
      let r := q.field 0 1
      let x := s.room r
      .ok (s.setRoom r { x with brk := { x.brk with onCount := none, onTag := none } }) []))

/-- A stopped room goes on: its watchdog resumes its count (R527). -/
def Room.resumed (x : Room) : Room := { x with brk := { x.brk with stopped := false, replayDeferred := false } }

/-- A stopped room replays its block from the checkpoint (R316). -/
def State.abortRoom (s : State) (r : Nat) : State :=
  let x := s.room r
  (s.setRoom r { x with brk := { x.brk with stopped := false, replayDeferred := false } }).replay r true

/-- ROOM_RESUME (R316): after a forced clock move it acts as ROOM_ABORT. -/
def execRoomResume (f : FnId) (slot : SlotId) (s : State) : Host.Outcome State Fault Refusal :=
  .next (s.runCmd f slot (isOp 0x0803) (fun q =>
    if checkStopped s q ≠ stOk then .fail s (checkStopped s q)
    else
      let r := q.field 0 1
      let x := s.room r
      .ok (if x.brk.replayDeferred then s.abortRoom r else (s.setRoom r x.resumed).goOn r) []))

/-- ROOM_ABORT (R316). -/
def execRoomAbort (f : FnId) (slot : SlotId) (s : State) : Host.Outcome State Fault Refusal :=
  .next (s.runCmd f slot (isOp 0x0804) (fun q =>
    if checkStopped s q ≠ stOk then .fail s (checkStopped s q) else .ok (s.abortRoom (q.field 0 1)) []))

/-- The entries of a room's queues as DEBUG_READ shows them: 8 bytes each, 128 in each queue. The layout is the model's (log 42). -/
def Room.queueBytes (x : Room) : List Byte :=
  (List.range 4).flatMap (fun q =>
    let es := Tab.get [] x.queues q
    (List.range 128).flatMap (fun i =>
      match es[i]? with
      | some e => leBytes 2 e.tag.toNat ++ (match e.waitTok with | some (t, c) => leBytes 1 (1 + t) ++ leBytes 2 c.toNat | none => leBytes 3 0) ++
          leBytes 1 (match e.sigTok with | some t => 1 + t.val | none => 0) ++ leBytes 2 0
      | none => leBytes 8 0))

/-- A room's tokens and scalar registers as DEBUG_READ shows them; the layout is the model's (log 42). -/
def Room.scalarBytes (x : Room) : List Byte :=
  (List.range 64).flatMap (fun i => leBytes 2 (Tab.get 0 x.tokens i).toNat) ++
    (List.range 64).flatMap (fun i => leBytes 8 (Tab.get 0 x.scalars i).toNat) ++ leBytes 8 x.vcount

/-- Bytes of a space of DEBUG_READ. -/
def debugSize (space : Nat) : Nat :=
  match space with
  | 0 => 4096
  | 1 => 648
  | 2 => atticBytes
  | _ => stackBytes

/-- The checks of DEBUG_READ. -/
def checkDebugRead (s : State) (f : Nat) (busy : Bool) (q : Req) : Nat :=
  if checkStopped s q ≠ stOk || 3 < q.field 1 1 || debugSize (q.field 1 1) < q.field 8 8 + q.field 16 4 ||
      (s.hostRange f (q.field 2 2) (q.field 24 8) (q.field 16 4) true).isNone then stBadArgument
  else if busy then stBusy
  else stOk

/-- A run of a stopped room's space, or as much of it as could be read, in pieces of a line: the state after the reads and the bytes, and whether all came. -/
def State.debugBytes (s : State) (r space off n : Nat) : State × List Byte × Bool :=
  let x := s.room r
  if space = 0 then (s, sliceZ x.queueBytes off n, true)
  else if space = 1 then (s, sliceZ x.scalarBytes off n, true)
  else
    (linePieces off n).foldl (fun (a : State × List Byte × Bool) pc =>
      let sp : Span := { room := r, cellar := space = 3, off := off + pc.1, len := pc.2 }
      if !a.2.2 then a
      else if a.1.spanBad sp then (a.1.countRead sp, a.2.1, false)
      else (a.1.countRead sp, a.2.1 ++ a.1.spanBytes sp, true)) (s, [], true)

/-- DEBUG_READ (R316, R331): a run of a stopped room's state goes to a host buffer. Its reads of a stack at level 4 wait (R233). -/
def execDebugRead (f : FnId) (slot : SlotId) (s : State) : Host.Outcome State Fault Refusal :=
  .next (s.runCmd f slot (isOp 0x0805) (fun q =>
    if checkDebugRead s f false q ≠ stOk then .fail s (checkDebugRead s f false q)
    else if q.field 1 1 = 3 && 4 ≤ (s.stack (q.field 0 1)).level then .waits s
    else
      let r := q.field 0 1
      let d := s.debugBytes r (q.field 1 1) (q.field 8 8) (q.field 16 4)
      let addr := (s.hostRange f (q.field 2 2) (q.field 24 8) (q.field 16 4) true).getD 0
      let total := ceilDiv (q.field 16 4) 4096
      .ended (d.1.emit (.hostWrite f addr d.2.1)) (if d.2.2 then stOk else stFailed) (leBytes 4 d.2.1.length)
        (progressPosition (if d.2.2 then total else d.2.1.length / 4096)) total))

/-- BREAK_HIT (R316): a room of a test partition whose counter or whose next tag reaches a break stops dispatching and holds everything. A break acts once:
dispatch stops at the first such entry. -/
def execBreakHit (r : RoomId) (s : State) : Host.Outcome State Fault Refusal :=
  let x := s.room r
  let count := x.brk.onCount == some x.blockCounter
  let tag := match x.brk.onTag with | some (q, t) => x.tagOf q == t && x.block.isSome | none => false
  .next
    (if s.boot.state ≠ .test || (s.ownerOf r).isNone || x.brk.stopped || !(count || tag) then s
    else s.setRoom r { x with brk := { x.brk with
      stopped := true, onCount := if count then none else x.brk.onCount, onTag := if tag && !count then none else x.brk.onTag } })

end Sys2Proof.Machine
end

