-- ==== Sys2Proof/Machine/SlotTake.lean ====
section
/-! DEFINITION. Gysis takes a POSTED slot (13): the order of taking, and the checks of R328 with what each command's own rule adds. -/

namespace Sys2Proof.Machine

/-- The POSTED slot of a function that came first (R324). -/
def State.oldestPosted (s : State) (f : Nat) : Option Nat :=
  let posted := (List.range 8).filter (fun k => ((s.fn f).slot k).state == .posted)
  posted.find? (fun k => posted.all (fun j => decide (((s.fn f).slot k).order ≤ ((s.fn f).slot j).order)))

/-- The function that is served next: round-robin from the one after the function served last (R324). -/
def State.nextFn (s : State) : Option Nat :=
  ((List.range 17).map (fun i => (s.gysis.lastFn + 1 + i) % 17)).find? (fun f => (s.oldestPosted f).isSome)

/-- A function may issue a command (step 1 of R328). -/
def CmdWho.allows (w : CmdWho) (f : Nat) : Bool :=
  match w with
  | .all => true
  | .pf0 => f == 0
  | .vf => f != 0

/-- The commands that the boot ROM answers in a state (R340). -/
def romAnswers (d : DevState) (op : Nat) : Bool :=
  [0x0001, 0x0511, 0x0605].contains op || (d == .recovery && [0x0604, 0x0510, 0x0801, 0x0802, 0x0803, 0x0804, 0x0805].contains op) ||
    ((d == .fuses || d == .loading) && [0x0801, 0x0802].contains op)

/-- The device state is in a command's States column, as TEST extends it (R331, R520). -/
def CmdRow.admits (r : CmdRow) (d : DevState) : Bool :=
  r.states.contains d || (d == .test && r.states.contains .ready && r.op != 0x0104)

/-- The commands that a follower's VF answers as usual (R437). -/
def followerAnswers (op : Nat) : Bool := [0x0001, 0x0002, 0x0103, 0x0214, 0x0501, 0x0702].contains op

/-- Who serves the mailbox refuses a command outright (R340, R466, R512). -/
def State.unserved (s : State) (f op : Nat) : Bool :=
  if s.boot.state == .halted then f != 0 || !([0x0001, 0x0605].contains op)
  else if !s.boot.firmwareRunning then f != 0 || !romAnswers s.boot.state op
  else f != 0 && s.boot.state != .ready && s.boot.state != .test

/-- A status with an object conflict put in its place: after the arguments, before the resources (R328). -/
def orBusy (busy : Bool) (st : Nat) : Nat := if busy && (st == stOk || st == stNoResource || st == stFailed) then stBusy else st

/-- Steps 4 to 6 of R328 as each command's rule gives them. -/
def State.ownStatus (s : State) (f k : Nat) (busy : Bool) (q : Req) : Nat :=
  let p := f - 1
  match q.op with
  | 0x0002 => checkPrimeTable q
  | 0x0101 => checkPartitionCreate s busy q
  | 0x0102 => checkPartitionDestroy s busy q
  | 0x0103 => checkPartitionQuery s f q
  | 0x0104 => checkMirror s busy q
  | 0x0201 => (readKeyset s p busy q).2.1
  | 0x0202 => checkActivate s p busy q
  | 0x0203 => checkDeactivate s p busy q
  | 0x0204 => checkRelease s p busy q
  | 0x0211 => (readKey s p busy q).2.1
  | 0x0212 => checkKeyRemove s p busy q
  | 0x0213 => (readLut s p busy q).2.1
  | 0x0301 => (readProgram s p q).2.1
  | 0x0302 => checkUnload s p busy q
  | 0x0303 => checkRingSet s f busy q
  | 0x0401 => orBusy busy (checkHostBuf s f q)
  | 0x0402 => checkBufRelease s f busy q
  | 0x0403 => checkHostCopy s f busy q
  | 0x0501 => checkTelemetry q
  | 0x0510 => checkDrain q
  | 0x0601 => checkCellarRepair s q
  | 0x0602 => checkPowerCap q
  | 0x0603 => orBusy busy (checkRoute s f q)
  | 0x0604 => orBusy busy (checkStage s f q)
  | 0x0605 => checkModuleReset q
  | 0x0701 => orBusy busy (checkSecurity s f k q)
  | 0x0702 => orBusy busy (checkAttest s f q)
  | 0x0801 => checkBreakSet s q
  | 0x0802 => checkBreakRoom s q
  | 0x0803 => checkStopped s q
  | 0x0804 => checkStopped s q
  | 0x0805 => checkDebugRead s f busy q
  | _ => stOk

/-- The checks of R328 in their order: the first that fails decides the status. -/
def State.takeStatus (s : State) (f k : Nat) : Nat :=
  let x := (s.fn f).slot k
  let q := x.req
  if s.unserved f q.op then stNotReady
  else
    match cmdRow q.op with
    | none => stBadOpcode
    | some r =>
      if !r.who.allows f then stBadOpcode
      else if r.states.isEmpty && !debugStates.contains s.boot.state then stBadOpcode
      else if !r.states.isEmpty && !r.admits s.boot.state then stNotReady
      else if r.bound && f != 0 && !(s.part (f - 1)).isLive then stNotReady
      else if f != 0 && (s.part (f - 1)).isFollower && !followerAnswers q.op then stNotReady
      else if !slotFieldsOk x q || !layoutOk r.layout q then stBadArgument
      else s.ownStatus f k (s.conflicts f q) q

/-- PROGRESS and PROG_TOTAL of a command that has been taken and has done nothing yet, for a command that has a progress unit (R330, R331, R333): fraction 0,
or position 0 with the total. DEDUCED (log 86): R333 says it of the host copy. -/
def State.progressAtStart (s : State) (f : Nat) (q : Req) : Option (Nat × Nat) :=
  let at0 (n : Nat) : Option (Nat × Nat) := some (progressPosition 0, n)
  match q.op with
  | 0x0102 => some (progressFraction 0, 0)
  | 0x0104 => some (progressFraction 0, 0)
  | 0x0301 => at0 (ceilDiv (leNat (s.readCellar ((s.part (f - 1)).rooms.getD 0 0) (q.field 0 8 + 32) 8)) 1024)
  | 0x0403 => at0 (ceilDiv (((segments q).map (·.bytes)).sum) 4096)
  | 0x0604 => at0 (ceilDiv (q.field 16 4) 4096)
  | 0x0701 => at0 q.progTotal
  | 0x0805 => at0 (ceilDiv (q.field 16 4) 4096)
  | _ => none

/-- A slot with its progress fields written. -/
def Slot.withProgress (x : Slot) : Option (Nat × Nat) → Slot
  | some e => (x.putRun 20 (leBytes 4 e.1)).putRun 24 (leBytes 4 e.2)
  | none => x

/-- A command is taken: its slot is RUNNING. A PARTITION_DESTROY begins its teardown (R393), and one for the security engine wakes its
domain (R485). -/
def State.takeSlot (s : State) (f k : Nat) : State :=
  let x := (s.fn f).slot k
  let q := x.req
  let t := { s.setSlot f k { x.withProgress (s.progressAtStart f q) with state := .running, taken := s.gysis.nextTaken } with
             gysis := { s.gysis with nextTaken := s.gysis.nextTaken + 1 } }
  if q.op = 0x0102 then t.beginTeardown (q.field 0 1)
  else if q.op = 0x0701 || q.op = 0x0702 || q.op = 0x0604 then t.wakeDomain 118
  else t

/-- The checks of a command read what it names in a stack of its partition that is at level 4 (R233). -/
def State.takeWaits (s : State) (f k : Nat) : Bool :=
  s.hotStack (f - 1) && f != 0 && [0x0201, 0x0211, 0x0213, 0x0301].contains ((s.fn f).slot k).req.op

/-- SLOT_TAKE (R322, R324, R326, R328): Gysis takes the oldest POSTED slot of the function that is served next. Where its checks must read a stack at level 4,
they wait, and the taking does not occur yet (R233, log 13). -/
def execSlotTake (f : FnId) (slot : SlotId) (s : State) : Host.Outcome State Fault Refusal :=
  let t := { s with gysis := { s.gysis with lastFn := f.val } }
  .next
    (if s.nextFn = some f.val && s.oldestPosted f = some slot.val && !s.takeWaits f slot then
      if s.takeStatus f slot = stOk then t.takeSlot f slot
      else t.endCmd f slot (s.takeStatus f slot) 0 0 []
    else s)

end Sys2Proof.Machine
end

