-- ==== Sys2Proof/Machine/Dispatch.lean ====
section
/-! DEFINITION. The dispatch of a command to its meaning: one arm for each row of the opcode table. -/

namespace Sys2Proof.Machine

/-- The effect of a command on everything but the queue of waiting commands. -/
def exec (i : Instr) (s : State) : Host.Outcome State Fault Refusal :=
  match i with
  | .post f bits => Sys2Proof.Machine.execPost f bits s
  | .release f bits => Sys2Proof.Machine.execRelease f bits s
  | .slotByteWrite f slot off data => Sys2Proof.Machine.execSlotByteWrite f slot off data s
  | .slotTake f slot => Sys2Proof.Machine.execSlotTake f slot s
  | .jobqDoorbell f tail => Sys2Proof.Machine.execJobqDoorbell f tail s
  | .intMaskWrite f v => Sys2Proof.Machine.execIntMaskWrite f v s
  | .registerWrite f off width v => Sys2Proof.Machine.execRegisterWrite f off width v s
  | .lowHalfRead f off => Sys2Proof.Machine.execLowHalfRead f off s
  | .bar2Read f addr len timedOut => Sys2Proof.Machine.execBar2Read f addr len timedOut s
  | .bar2Write f addr data be => Sys2Proof.Machine.execBar2Write f addr data be s
  | .msixTableWrite f off data => Sys2Proof.Machine.execMsixTableWrite f off data s
  | .queryInfo f slot => Sys2Proof.Machine.execQueryInfo f slot s
  | .primeTable f slot => Sys2Proof.Machine.execPrimeTable f slot s
  | .partitionCreate f slot => Sys2Proof.Machine.execPartitionCreate f slot s
  | .partitionDestroy f slot => Sys2Proof.Machine.execPartitionDestroy f slot s
  | .partitionQuery f slot => Sys2Proof.Machine.execPartitionQuery f slot s
  | .mirrorSet f slot peer => Sys2Proof.Machine.execMirrorSet f slot peer s
  | .mirrorSetTimeout p => Sys2Proof.Machine.execMirrorSetTimeout p s
  | .keysetRegister f slot => Sys2Proof.Machine.execKeysetRegister f slot s
  | .keysetActivate f slot => Sys2Proof.Machine.execKeysetActivate f slot s
  | .keysetDeactivate f slot => Sys2Proof.Machine.execKeysetDeactivate f slot s
  | .keysetDeactivationEffect p keyset => Sys2Proof.Machine.execKeysetDeactivationEffect p keyset s
  | .keysetRelease f slot => Sys2Proof.Machine.execKeysetRelease f slot s
  | .keyRegister f slot => Sys2Proof.Machine.execKeyRegister f slot s
  | .keyRemove f slot => Sys2Proof.Machine.execKeyRemove f slot s
  | .keyReleaseComplete p lut index => Sys2Proof.Machine.execKeyReleaseComplete p lut index s
  | .lutKeyRegister f slot => Sys2Proof.Machine.execLutKeyRegister f slot s
  | .keyList f slot => Sys2Proof.Machine.execKeyList f slot s
  | .programLoad f slot => Sys2Proof.Machine.execProgramLoad f slot s
  | .programUnload f slot => Sys2Proof.Machine.execProgramUnload f slot s
  | .jobRingSet f slot => Sys2Proof.Machine.execJobRingSet f slot s
  | .hostbufRegister f slot => Sys2Proof.Machine.execHostbufRegister f slot s
  | .hostbufRelease f slot => Sys2Proof.Machine.execHostbufRelease f slot s
  | .hostCopy f slot hostIn => Sys2Proof.Machine.execHostCopy f slot hostIn s
  | .telemetryRead f slot => Sys2Proof.Machine.execTelemetryRead f slot s
  | .ledgerDrain f slot => Sys2Proof.Machine.execLedgerDrain f slot s
  | .ledgerStats f slot => Sys2Proof.Machine.execLedgerStats f slot s
  | .cellarRepairListRecord f slot => Sys2Proof.Machine.execCellarRepairListRecord f slot s
  | .cellarRepairListFree f slot => Sys2Proof.Machine.execCellarRepairListFree f slot s
  | .cellarRepairListPending f slot => Sys2Proof.Machine.execCellarRepairListPending f slot s
  | .cellarRepairSoft f slot => Sys2Proof.Machine.execCellarRepairSoft f slot s
  | .cellarRepairHard f slot => Sys2Proof.Machine.execCellarRepairHard f slot s
  | .powerCapSet f slot => Sys2Proof.Machine.execPowerCapSet f slot s
  | .routeLoad f slot hostIn => Sys2Proof.Machine.execRouteLoad f slot hostIn s
  | .firmwareStage f slot hostIn => Sys2Proof.Machine.execFirmwareStage f slot hostIn s
  | .moduleReset f slot => Sys2Proof.Machine.execModuleReset f slot s
  | .attest f slot => Sys2Proof.Machine.execAttest f slot s
  | .breakSet f slot => Sys2Proof.Machine.execBreakSet f slot s
  | .breakClear f slot => Sys2Proof.Machine.execBreakClear f slot s
  | .roomResume f slot => Sys2Proof.Machine.execRoomResume f slot s
  | .roomAbort f slot => Sys2Proof.Machine.execRoomAbort f slot s
  | .debugRead f slot => Sys2Proof.Machine.execDebugRead f slot s
  | .breakHit r => Sys2Proof.Machine.execBreakHit r s
  | .securityRandom f slot => Sys2Proof.Machine.execSecurityRandom f slot s
  | .sha256 f slot hostIn => Sys2Proof.Machine.execSha256 f slot hostIn s
  | .sha384 f slot hostIn => Sys2Proof.Machine.execSha384 f slot hostIn s
  | .sha512 f slot hostIn => Sys2Proof.Machine.execSha512 f slot hostIn s
  | .sha3x256 f slot hostIn => Sys2Proof.Machine.execSha3x256 f slot hostIn s
  | .hmacSha256 f slot hostIn => Sys2Proof.Machine.execHmacSha256 f slot hostIn s
  | .hmacSha384 f slot hostIn => Sys2Proof.Machine.execHmacSha384 f slot hostIn s
  | .hmacSha512 f slot hostIn => Sys2Proof.Machine.execHmacSha512 f slot hostIn s
  | .aes256Ctr f slot hostIn => Sys2Proof.Machine.execAes256Ctr f slot hostIn s
  | .ecdsaP256Sign f slot hostIn => Sys2Proof.Machine.execEcdsaP256Sign f slot hostIn s
  | .ecdsaP384Sign f slot hostIn => Sys2Proof.Machine.execEcdsaP384Sign f slot hostIn s
  | .ecdsaP256Verify f slot hostIn => Sys2Proof.Machine.execEcdsaP256Verify f slot hostIn s
  | .ecdsaP384Verify f slot hostIn => Sys2Proof.Machine.execEcdsaP384Verify f slot hostIn s
  | .ed25519Sign f slot hostIn => Sys2Proof.Machine.execEd25519Sign f slot hostIn s
  | .ed25519Verify f slot hostIn => Sys2Proof.Machine.execEd25519Verify f slot hostIn s
  | .rsa3072PssSign f slot hostIn => Sys2Proof.Machine.execRsa3072PssSign f slot hostIn s
  | .rsa4096PssSign f slot hostIn => Sys2Proof.Machine.execRsa4096PssSign f slot hostIn s
  | .rsa3072PssVerify f slot hostIn => Sys2Proof.Machine.execRsa3072PssVerify f slot hostIn s
  | .rsa4096PssVerify f slot hostIn => Sys2Proof.Machine.execRsa4096PssVerify f slot hostIn s
  | .mldsa87Sign f slot hostIn => Sys2Proof.Machine.execMldsa87Sign f slot hostIn s
  | .mldsa87Verify f slot hostIn => Sys2Proof.Machine.execMldsa87Verify f slot hostIn s
  | .ecdhP256 f slot hostIn => Sys2Proof.Machine.execEcdhP256 f slot hostIn s
  | .ecdhP384 f slot hostIn => Sys2Proof.Machine.execEcdhP384 f slot hostIn s
  | .mlkem1024Encaps f slot hostIn => Sys2Proof.Machine.execMlkem1024Encaps f slot hostIn s
  | .mlkem1024Decaps f slot hostIn => Sys2Proof.Machine.execMlkem1024Decaps f slot hostIn s
  | .keygen f slot => Sys2Proof.Machine.execKeygen f slot s
  | .pubkey f slot => Sys2Proof.Machine.execPubkey f slot s
  | .destroy f slot => Sys2Proof.Machine.execDestroy f slot s
  | .unwrap f slot hostIn => Sys2Proof.Machine.execUnwrap f slot hostIn s
  | .microcodeProgram f slot hostIn => Sys2Proof.Machine.execMicrocodeProgram f slot hostIn s
  | .hashChunkGrant aes => Sys2Proof.Machine.execHashChunkGrant aes s
  | .import_ p obj => Sys2Proof.Machine.execImport p obj s
  | .export_ p obj => Sys2Proof.Machine.execExport p obj s
  | .check p obj => Sys2Proof.Machine.execCheck p obj s
  | .relabel p obj noise => Sys2Proof.Machine.execRelabel p obj noise s
  | .add p dst a b => Sys2Proof.Machine.execAdd p dst a b s
  | .subtract p dst a b => Sys2Proof.Machine.execSubtract p dst a b s
  | .multiplyByInteger p dst a c => Sys2Proof.Machine.execMultiplyByInteger p dst a c s
  | .multiplyByPlaintext p dst a b => Sys2Proof.Machine.execMultiplyByPlaintext p dst a b s
  | .tensorProduct p dst a b => Sys2Proof.Machine.execTensorProduct p dst a b s
  | .rescale p dst a => Sys2Proof.Machine.execRescale p dst a s
  | .modulusSwitch p dst a => Sys2Proof.Machine.execModulusSwitch p dst a s
  | .levelDrop p dst a k => Sys2Proof.Machine.execLevelDrop p dst a k s
  | .transform p dst a toEval => Sys2Proof.Machine.execTransform p dst a toEval s
  | .automorphism p dst a code => Sys2Proof.Machine.execAutomorphism p dst a code s
  | .relinearise p dst a => Sys2Proof.Machine.execRelinearise p dst a s
  | .rotate p dst a code => Sys2Proof.Machine.execRotate p dst a code s
  | .conjugate p dst a => Sys2Proof.Machine.execConjugate p dst a s
  | .keySwitch p dst a kind rot => Sys2Proof.Machine.execKeySwitch p dst a kind rot s
  | .hoistedRotate p dsts a codes => Sys2Proof.Machine.execHoistedRotate p dsts a codes s
  | .rotateAccumulate p dst a codes => Sys2Proof.Machine.execRotateAccumulate p dst a codes s
  | .pin p index off => Sys2Proof.Machine.execPin p index off s
  | .unpin p index => Sys2Proof.Machine.execUnpin p index s
  | .approximateRefresh p dst a program plan => Sys2Proof.Machine.execApproximateRefresh p dst a program plan s
  | .exactRefresh p dst a program plan => Sys2Proof.Machine.execExactRefresh p dst a program plan s
  | .extract p dst a positions => Sys2Proof.Machine.execExtract p dst a positions s
  | .lookUp p dsts a lut tables => Sys2Proof.Machine.execLookUp p dsts a lut tables s
  | .pack p dst a secret program plan => Sys2Proof.Machine.execPack p dst a secret program plan s
  | .lweAdd p dst a b => Sys2Proof.Machine.execLweAdd p dst a b s
  | .lweSubtract p dst a b => Sys2Proof.Machine.execLweSubtract p dst a b s
  | .lweMultiplyByInteger p dst a c => Sys2Proof.Machine.execLweMultiplyByInteger p dst a c s
  | .vectorOperation r v => Sys2Proof.Machine.execVectorOperation r v s
  | .compress r src mask dst len => Sys2Proof.Machine.execCompress r src mask dst len s
  | .expand r src runLen mask fill dst len => Sys2Proof.Machine.execExpand r src runLen mask fill dst len s
  | .encode p dst a form1 keyset level scale check => Sys2Proof.Machine.execEncode p dst a form1 keyset level scale check s
  | .plaintextMatrixProduct r m => Sys2Proof.Machine.execPlaintextMatrixProduct r m s
  | .flood p obj d => Sys2Proof.Machine.execFlood p obj d s
  | .drawSeed p reg => Sys2Proof.Machine.execDrawSeed p reg s
  | .random p dst g => Sys2Proof.Machine.execRandom p dst g s
  | .sampleToken p dst a g => Sys2Proof.Machine.execSampleToken p dst a g s
  | .copy r ch d hostIn => Sys2Proof.Machine.execCopy r ch d hostIn s
  | .gather r ch d hostIn => Sys2Proof.Machine.execGather r ch d hostIn s
  | .scatter r ch d hostIn => Sys2Proof.Machine.execScatter r ch d hostIn s
  | .keyStream r ch d => Sys2Proof.Machine.execKeyStream r ch d s
  | .pantryGather r ch d => Sys2Proof.Machine.execPantryGather r ch d s
  | .pantryScatter r ch d => Sys2Proof.Machine.execPantryScatter r ch d s
  | .fill r ch d => Sys2Proof.Machine.execFill r ch d s
  | .rePitch r ch d => Sys2Proof.Machine.execRePitch r ch d s
  | .transpose r ch d => Sys2Proof.Machine.execTranspose r ch d s
  | .reDeal p dst a layout home => Sys2Proof.Machine.execReDeal p dst a layout home s
  | .compact p dst a => Sys2Proof.Machine.execCompact p dst a s
  | .align r ch d => Sys2Proof.Machine.execAlign r ch d s
  | .descriptorByAddress r ch off hostIn => Sys2Proof.Machine.execDescriptorByAddress r ch off hostIn s
  | .wait r q tok count => Sys2Proof.Machine.execWait r q tok count s
  | .signal r q tok => Sys2Proof.Machine.execSignal r q tok s
  | .fence r => Sys2Proof.Machine.execFence r s
  | .barrier r => Sys2Proof.Machine.execBarrier r s
  | .flagWait r flag count => Sys2Proof.Machine.execFlagWait r flag count s
  | .descriptorComplete r ch => Sys2Proof.Machine.execDescriptorComplete r ch s
  | .channelHalt r ch cause failAt => Sys2Proof.Machine.execChannelHalt r ch cause failAt s
  | .staleTagTimeout r tag => Sys2Proof.Machine.execStaleTagTimeout r tag s
  | .staleResponse r tag => Sys2Proof.Machine.execStaleResponse r tag s
  | .remoteAckTimeout r ch => Sys2Proof.Machine.execRemoteAckTimeout r ch s
  | .keyTileReturn r tile => Sys2Proof.Machine.execKeyTileReturn r tile s
  | .regulatorSlot stack waiting pantry => Sys2Proof.Machine.execRegulatorSlot stack waiting pantry s
  | .blockStart r exchange uses => Sys2Proof.Machine.execBlockStart r exchange uses s
  | .blockComplete r => Sys2Proof.Machine.execBlockComplete r s
  | .exchangeBlockRelease p => Sys2Proof.Machine.execExchangeBlockRelease p s
  | .watchdogExpiry r => Sys2Proof.Machine.execWatchdogExpiry r s
  | .roomError r e => Sys2Proof.Machine.execRoomError r e s
  | .instructionParityTrap r refetchOk => Sys2Proof.Machine.execInstructionParityTrap r refetchOk s
  | .jobStart p => Sys2Proof.Machine.execJobStart p s
  | .jobComplete p => Sys2Proof.Machine.execJobComplete p s
  | .pauRetire r k => Sys2Proof.Machine.execPauRetire r k s
  | .roomRetire r live => Sys2Proof.Machine.execRoomRetire r live s
  | .securityEngineRetire => Sys2Proof.Machine.execSecurityEngineRetire s
  | .coreRetire c => Sys2Proof.Machine.execCoreRetire c s
  | .ledgerWrite => Sys2Proof.Machine.execLedgerWrite s
  | .rowRemap r layer bank row => Sys2Proof.Machine.execRowRemap r layer bank row s
  | .bankCopy r layer bank => Sys2Proof.Machine.execBankCopy r layer bank s
  | .bankCopyEnd r layer => Sys2Proof.Machine.execBankCopyEnd r layer s
  | .atticSweepRead r layer bank bad => Sys2Proof.Machine.execAtticSweepRead r layer bank bad s
  | .atticSweepForced r layer bank bad => Sys2Proof.Machine.execAtticSweepForced r layer bank bad s
  | .atticSelfTest r failing => Sys2Proof.Machine.execAtticSelfTest r failing s
  | .cellarRefresh stack pc bank busy => Sys2Proof.Machine.execCellarRefresh stack pc bank busy s
  | .refreshForced stack pc bank => Sys2Proof.Machine.execRefreshForced stack pc bank s
  | .rfm stack pc bank => Sys2Proof.Machine.execRfm stack pc bank s
  | .stackTempRead stack temp => Sys2Proof.Machine.execStackTempRead stack temp s
  | .level4Timeout stack => Sys2Proof.Machine.execLevel4Timeout stack s
  | .cellarSweepRead stack pc corr uncorr => Sys2Proof.Machine.execCellarSweepRead stack pc corr uncorr s
  | .cellarSweepForced stack pc corr uncorr => Sys2Proof.Machine.execCellarSweepForced stack pc corr uncorr s
  | .sweepRewrite stack line => Sys2Proof.Machine.execSweepRewrite stack line s
  | .cellarCalibration stack ch ok => Sys2Proof.Machine.execCellarCalibration stack ch ok s
  | .calibrationRetry stack ch ok => Sys2Proof.Machine.execCalibrationRetry stack ch ok s
  | .rowRepair stack pc sid bank row => Sys2Proof.Machine.execRowRepair stack pc sid bank row s
  | .pcRetire stack pc => Sys2Proof.Machine.execPcRetire stack pc s
  | .pcCopyEnd stack => Sys2Proof.Machine.execPcCopyEnd stack s
  | .requestAgeLimit stack => Sys2Proof.Machine.execRequestAgeLimit stack s
  | .interruptDelivery => Sys2Proof.Machine.execInterruptDelivery s
  | .mret c => Sys2Proof.Machine.execMret c s
  | .holdoffExpiry g => Sys2Proof.Machine.execHoldoffExpiry g s
  | .vectorRequest f v => Sys2Proof.Machine.execVectorRequest f v s
  | .msixHoldoffExpiry f v => Sys2Proof.Machine.execMsixHoldoffExpiry f v s
  | .directoryRequest c addr kind parity => Sys2Proof.Machine.execDirectoryRequest c addr kind parity s
  | .evictionWriteback c addr => Sys2Proof.Machine.execEvictionWriteback c addr s
  | .drbgReseed => Sys2Proof.Machine.execDrbgReseed s
  | .drbgHealthFail => Sys2Proof.Machine.execDrbgHealthFail s
  | .drbgReinstantiate ok => Sys2Proof.Machine.execDrbgReinstantiate ok s
  | .blockKeyRequest p => Sys2Proof.Machine.execBlockKeyRequest p s
  | .securityDomainIdleOff => Sys2Proof.Machine.execSecurityDomainIdleOff s
  | .codewordReceive port cw => Sys2Proof.Machine.execCodewordReceive port cw s
  | .nakRetransmit port => Sys2Proof.Machine.execNakRetransmit port s
  | .ackStallRetransmit port => Sys2Proof.Machine.execAckStallRetransmit port s
  | .linkControlFlit port c => Sys2Proof.Machine.execLinkControlFlit port c s
  | .laneRetire port lane => Sys2Proof.Machine.execLaneRetire port lane s
  | .laneMapApply port => Sys2Proof.Machine.execLaneMapApply port s
  | .tapChangeApply port => Sys2Proof.Machine.execTapChangeApply port s
  | .portRetire port => Sys2Proof.Machine.execPortRetire port s
  | .trainingAttempt port lanes partner => Sys2Proof.Machine.execTrainingAttempt port lanes partner s
  | .trainingTimeout port => Sys2Proof.Machine.execTrainingTimeout port s
  | .trainingBackoffExpiry port => Sys2Proof.Machine.execTrainingBackoffExpiry port s
  | .signalDetect port lanes => Sys2Proof.Machine.execSignalDetect port lanes s
  | .routeTableEffect => Sys2Proof.Machine.execRouteTableEffect s
  | .contextFlit port vc ctxNo c => Sys2Proof.Machine.execContextFlit port vc ctxNo c s
  | .dataFlit port vc ctxNo line data => Sys2Proof.Machine.execDataFlit port vc ctxNo line data s
  | .ackEntryTimeout port vc ctxNo => Sys2Proof.Machine.execAckEntryTimeout port vc ctxNo s
  | .ackFlitTimeout module => Sys2Proof.Machine.execAckFlitTimeout module s
  | .ackFlit port vc origin dstModule entries => Sys2Proof.Machine.execAckFlit port vc origin dstModule entries s
  | .marginSweep port lane height width => Sys2Proof.Machine.execMarginSweep port lane height width s
  | .summarySend => Sys2Proof.Machine.execSummarySend s
  | .command p opcode payload => Sys2Proof.Machine.execCommand p opcode payload s
  | .input p m => Sys2Proof.Machine.execInput p m s
  | .hostread p room ch data => Sys2Proof.Machine.execHostread p room ch data s
  | .blockkey p wrapped => Sys2Proof.Machine.execBlockkey p wrapped s
  | .digest p room d => Sys2Proof.Machine.execDigest p room d s
  | .echo p room ch => Sys2Proof.Machine.execEcho p room ch s
  | .heartbeat p state time => Sys2Proof.Machine.execHeartbeat p state time s
  | .heartbeatSend p => Sys2Proof.Machine.execHeartbeatSend p s
  | .end_ p => Sys2Proof.Machine.execEnd p s
  | .peerLoss p => Sys2Proof.Machine.execPeerLoss p s
  | .resyncComplete p image => Sys2Proof.Machine.execResyncComplete p image s
  | .pllUnlock alt => Sys2Proof.Machine.execPllUnlock alt s
  | .pllReturn alt => Sys2Proof.Machine.execPllReturn alt s
  | .clockSwitch d src => Sys2Proof.Machine.execClockSwitch d src s
  | .clockStopped d => Sys2Proof.Machine.execClockStopped d s
  | .freqGate edges rootLocked altLocked => Sys2Proof.Machine.execFreqGate edges rootLocked altLocked s
  | .refclkLoss => Sys2Proof.Machine.execRefclkLoss s
  | .domainWake d => Sys2Proof.Machine.execDomainWake d s
  | .domainOff d => Sys2Proof.Machine.execDomainOff d s
  | .capLoopTick power rooms => Sys2Proof.Machine.execCapLoopTick power rooms s
  | .capUnmetClear => Sys2Proof.Machine.execCapUnmetClear s
  | .currentClamp rail milliamps => Sys2Proof.Machine.execCurrentClamp rail milliamps s
  | .currentClampRelease => Sys2Proof.Machine.execCurrentClampRelease s
  | .thermalClamp r temp => Sys2Proof.Machine.execThermalClamp r temp s
  | .coolantClamp temp => Sys2Proof.Machine.execCoolantClamp temp s
  | .supplyFault cause => Sys2Proof.Machine.execSupplyFault cause s
  | .seqFault rail => Sys2Proof.Machine.execSeqFault rail s
  | .telemetryTick => Sys2Proof.Machine.execTelemetryTick s
  | .sensorFail id => Sys2Proof.Machine.execSensorFail id s
  | .smbusSelect id => Sys2Proof.Machine.execSmbusSelect id s
  | .smbusRead => Sys2Proof.Machine.execSmbusRead s
  | .alertResponse => Sys2Proof.Machine.execAlertResponse s
  | .coldReset src recovery test addr => Sys2Proof.Machine.execColdReset src recovery test addr s
  | .warmReset src recovery test addr => Sys2Proof.Machine.execWarmReset src recovery test addr s
  | .fuseRead reads => Sys2Proof.Machine.execFuseRead reads s
  | .loading katOk => Sys2Proof.Machine.execLoading katOk s
  | .selftest hot failed idle => Sys2Proof.Machine.execSelftest hot failed idle s
  | .training failed => Sys2Proof.Machine.execTraining failed s
  | .readyEntry => Sys2Proof.Machine.execReadyEntry s
  | .firmwareWatchdog => Sys2Proof.Machine.execFirmwareWatchdog s
  | .functionLevelReset f => Sys2Proof.Machine.execFunctionLevelReset f s
  | .vfEnableClear flr => Sys2Proof.Machine.execVfEnableClear flr s
  | .pcieConfigRequest f q => Sys2Proof.Machine.execPcieConfigRequest f q s
  | .tapInstruction ir => Sys2Proof.Machine.execTapInstruction ir s
  | .powerUp rise => Sys2Proof.Machine.execPowerUp rise s
  | .powerDown planned => Sys2Proof.Machine.execPowerDown planned s
  | .refclkReturn => Sys2Proof.Machine.execRefclkReturn s
  | .lossOfSignal port => Sys2Proof.Machine.execLossOfSignal port s
  | .pcieLinkEvent up => Sys2Proof.Machine.execPcieLinkEvent up s
  | .twiddleSetRewrite r keyset => Sys2Proof.Machine.execTwiddleSetRewrite r keyset s

end Sys2Proof.Machine
end

