-- ==== Sys2Proof/Machine/Step.lean ====
section
/-! DEFINITION. The step of the machine: the command at the front of the queue runs, and an empty queue is a tick of
REFCLK. -/

namespace Sys2Proof.Machine

/-- One period of REFCLK, 10 ns (R552): what passes when no command waits (DESIGN CHOICE, log 8). -/
def State.tick (s : State) : State := s.passTick

/-- The command at the front of the queue is taken and run with the queue's rest; on an empty queue the module idles for one
period of REFCLK (log 8). -/
def step (s : State) : Host.Outcome State Fault Refusal :=
  match s.pending with
  | [] => .next s.tick
  | c :: rest => exec c { s with pending := rest }

/-- The command that a word spells is put at the front of the queue. The opcode table gives no command bits, so no word spells one and the state is
unchanged (log 1). -/
def State.withFetchWord (s : State) (nbits w : Nat) : State :=
  match Sys2Proof.decodeTableWord nbits w with
  | some c => { s with pending := c :: s.pending }
  | none => s

end Sys2Proof.Machine
end

