-- ==== Sys2Proof/Safety.lean ====
section
/-! DEFINITION. What the claims speak of: memory in canonical form, commands that complete, mailbox slots that run a command and that have ended one. -/

namespace Sys2Proof.Machine

/-- The attic and the cellar are in canonical form: rising addresses, no listed zero. -/
def State.memOk (s : State) : Bool := Mem.wf s.mem.attic && Mem.wf s.mem.cellar

/-- A command or a step answers a next state. -/
def Completes (o : Host.Outcome State Fault Refusal) : Prop := ∃ t, o = .next t

/-- Slot `k` of function `f` runs a command of opcode `op` (R321, R331). -/
def State.runs (s : State) (f k op : Nat) : Prop := ((s.fn f).slot k).state = .running ∧ ((s.fn f).slot k).req.op = op

/-- The command in slot `k` of function `f`. -/
def State.cmd (s : State) (f k : Nat) : Req := ((s.fn f).slot k).req

/-- `t` is `s` with function `f` now `x`: no other function and nothing else of the module differs. -/
structure State.OnlyFn (s t : State) (f : Nat) (x : Fn) : Prop where
  rest : t = { s with fns := t.fns }
  at_ : t.fn f = x
  others : ∀ g, g ≠ f → t.fn g = s.fn g

/-- `t` is `s` with room `r` now `x`: no other room and nothing else of the module differs. -/
structure State.OnlyRoom (s t : State) (r : Nat) (x : Room) : Prop where
  rest : t = { s with rooms := t.rooms }
  at_ : t.room r = x
  others : ∀ q, q ≠ r → t.room q = s.room q

/-- `t` is `s` with stack `r` now `x`: no other stack and nothing else of the module differs. -/
structure State.OnlyStack (s t : State) (r : Nat) (x : Stack) : Prop where
  rest : t = { s with hbm := t.hbm }
  at_ : t.stack r = x
  others : ∀ q, q ≠ r → t.stack q = s.stack q

/-- `t` is `s` with port `n` now `x`: no other port and nothing else of the module differs. -/
structure State.OnlyPort (s t : State) (n : Nat) (x : Port) : Prop where
  rest : t = { s with links := { s.links with ports := t.links.ports } }
  at_ : t.port n = x
  others : ∀ m, m ≠ n → t.port m = s.port m

/-- What host software sees of an ended command (step 4 of R322): DONE, STATUS, RSEQ, RESP_LEN and the response from byte 32. -/
structure Ended (x y : Slot) (status : Nat) (resp : List Byte) : Prop where
  done : y.state = .done
  status : y.byte 16 = BitVec.ofNat 8 status
  rseq : y.byte 17 = x.byte 2
  respLen : y.field 18 2 = resp.length
  payload : ∀ i b, resp[i]? = some b → y.byte (32 + i) = b

/-- A SECURITY_OP runs now: slot `k` runs the operation of the table's row `r`, no check refuses it, nothing that it needs is missing, the tag of the entry
that it uses is right, and it meets at most one parity error, after which the engine runs it again (R364 to R372, R384, R462). -/
structure State.SecReady (s : State) (f : FnId) (k : SlotId) (op : Nat) (r : SecRow) : Prop where
  vf : f.val ≠ 0
  row : secRow op = some r
  running : ((s.fn f).slot k).state = .running
  request : isSec op (s.cmd f k) = true
  engine : s.sec.retired = false
  first : r.own = true → s.secBehind f k = false
  domain : s.domain 118 = .on
  checks : checkSecurity s f k (s.cmd f k) = 0
  random : r.drbg = true → s.sec.drbg = .running
  tag : ∀ e, s.secEntry (f.val - 1) r (s.cmd f k) = some e → e.tagOk = true ∨ op = 0x0062
  parity : s.sec.upsets < 2

/-- The key material that a security operation works under. -/
def State.secKey (s : State) (f : FnId) (k : SlotId) (r : SecRow) : List Byte := materialOf (s.secEntry (f.val - 1) r (s.cmd f k))

/-- A security operation has ended with the result `r`: with OK its output goes to the response, or to the host buffer that it names, and its entry to DEST;
with another status the response gives 0 bytes of output, nothing goes out and no entry changes. Memory, rooms, partitions, functions and every other entry are as in `s`; working memory began with every written bit clear (R366, R370, R372, R377). -/
def State.SecAnswers (s : State) (f : FnId) (k : SlotId) (o : Host.Outcome State Fault Refusal) (r : SecOut) : Prop :=
  ∃ u : State,
    o = .next (if r.status = 0 then
        u.endCmd f k 0 (progressPosition (s.cmd f k).progTotal) (s.cmd f k).progTotal (secResponse (s.cmd f k) r.out)
      else u.endCmd f k r.status (progressPosition (s.cmd f k).progTotal) (s.cmd f k).progTotal (secResponse (s.cmd f k) [])) ∧
    u.mem = s.mem ∧ u.rooms = s.rooms ∧ u.parts = s.parts ∧ u.fns = s.fns ∧
    ((s.cmd f k).handle = 0 ∨ r.out = [] ∨ r.status ≠ 0 → u.out = s.out) ∧
    (∀ a, (s.cmd f k).handle ≠ 0 → r.out ≠ [] → r.status = 0 →
      s.hostRange f (s.cmd f k).handle (s.cmd f k).outOff r.out.length true = some a → u.out = .hostWrite f a r.out :: s.out) ∧
    u.sec.work = s.useWork.sec.work ∧
    (∀ i, Tab.get none u.sec.entries i =
      if r.status = 0 ∧ r.dest.isSome = true ∧ i = cupKey (f.val - 1) ((s.cmd f k).param 0 2) then r.dest
      else if r.status = 0 ∧ r.clears = true ∧ i = cupKey (f.val - 1) (s.cmd f k).entryIx then none
      else Tab.get none s.sec.entries i)

/-- A room's result is a label and the words `limb j q` of the pairs in use that the room holds (R85, R86). -/
structure RoomResult.Is (r : RoomResult) (x : Part) (room : Nat) (lab : Label) (limb : Nat → Nat → List Nat) : Prop where
  label : r.lab = lab
  loud : r.silent = false
  runs : ∀ e, e ∈ r.runs ↔ ∃ j q, j ∈ lab.inUse ∧ q < lab.polys ∧ ownsPair x lab room j = true ∧ e = (lab.limbOff x.rooms.length j q, limb j q)

/-- The operands `places` are sound in a room: their labels are `labs`, none poisoned, of a form up to 3, and key set `k` covers the first (R65, R71). -/
structure State.Sound (s : State) (p room : Nat) (places : List Place) (labs : List Label) (k : KeySet) : Prop where
  labels : places.map (s.labelAt (s.part p) room) = labs.map (fun l => { lab := l, one := true, ok := true })
  clean : ∀ l, l ∈ labs → l.poison = false ∧ l.form ≤ 3
  keyset : (s.part p).ksOf (labs.headD Label.zero) = some k

/-- Command `c` runs in the rooms of partition `p` as an operation on limbs of engine queue `q`: in every room whose operands are sound, whose check limbs have a
check prime and whose result `good` admits with label `lab`, the result is that label and the words `words`, nothing newly poisoned and no comparison failed;
the memory is written by State.runOp, each room's share into `dst`, which waits while a twiddle set that a room needs, of the limbs `sets`, is invalid (R93). -/
def State.LimbRule (s : State) (c : Instr) (p : Nat) (dst : Place) (places : List Place) (good : KeySet → List Label → Label → Prop)
    (words : KeySet → List Label → Label → Nat → Nat → List Nat) (sets : List Label → Label → Nat → List Nat := fun _ _ _ => []) (q : Nat := 0) : Prop :=
  ∃ f : Nat → RoomResult, (∃ n, exec c s = .next ((s.runOp p dst f q).draw n)) ∧
    ∀ room labs k lab, s.Sound p room places labs k → checkCause (some k) labs = none → good k labs lab →
      (f room).Is (s.part p) room lab (words k labs lab) ∧ (f room).fresh = false ∧ (f room).mism = none ∧
      (f room).sets = (sets labs lab room).map (fun j => (lab.keyset, if lab.check && j = lab.limbs then 128 else j))

/-- The first label of a room's operands with the fields that R561 and R74 give a result. -/
def resultBase (labs : List Label) (polys : Option Nat) (rooms : Nat) : Label :=
  baseLabel (labs.map (fun l => { lab := l, one := true, ok := true })) polys rooms

/-- An operation that consumes index entries runs in the dispatching rooms in turn: in each, `g` takes its entries, State.performRoom writes its result `f`
and the operation index counts one; then the free values are drawn (R130). -/
def State.runTaking (s : State) (p : Nat) (dst : Place) (f : Nat → RoomResult) (g : Nat → State → State) (n m : Nat) : State :=
  ((s.opRooms p).foldl (fun t room => (((g room t).performRoom p room dst (f room)).countOp room).draw n) s).draw m

/-- An operation of several parts (R143): each dispatching room takes its entries, performs its part, and where `next` tells how the room goes on, the part ends
the room's block; then the free values are drawn. -/
def State.runParts (s : State) (p : Nat) (dst : Place) (f : Nat → RoomResult) (n : Nat → Nat) (next : Nat → Option (Option Progress)) : State :=
  ((s.opRooms p).foldl (fun t room =>
    let u := ((t.takeEntries p room (n room) (next room).isSome).performRoom p room dst (f room)).countOp room
    match next room with | some g => u.setRoom room ((u.room room).endPart g) | none => u) s).draw (2 ^ 25)

/-- No entry of a dispatching room waits for its first tile (R139). -/
def State.tilesThere (s : State) (p : Nat) : Prop := ∀ room, room ∈ s.opRooms p → (s.room room).keyEntries.any KeyEntry.starved = false

/-- The entry of each dispatching room at a place of its list, where `takes` says that the room takes one there. -/
def State.groupAt (s : State) (p : Nat) (a : Place) (kind code at_ : Nat) : List (Nat × KeyEntry) :=
  s.entriesAt p (fun r => if consumes kind (s.labelAt (s.part p) r a).ring code then some at_ else none)

/-- The key that an index entry names serves a key switch of the object `l` (R130). -/
structure State.Served (s : State) (p : Nat) (l : Label) (kind code : Nat) (e : KeyEntry) (u : KeyUse) : Prop where
  key : (s.part p).keyUse e = some u
  ring : u.hdr.logN = l.logN
  matched : entryMatches e u l kind code = true

/-- The label of a key switch's result (R70, R74, R80): evaluation representation, two polynomials, the input's level and scale. -/
def switchLabel (l : Label) (k : KeySet) (rooms : Nat) : Label :=
  { ({ resultBase [l] (some 2) rooms with check := l.check && k.checkP.isSome } : Label).sized rooms with
    level := l.level, scale := l.scale, noise := satNoise (max l.noise (l.g + 512) + 256), repr := true }

/-- The number of pair `j` among the pairs in use of a label. -/
def Label.useIndex (l : Label) (j : Nat) : Nat := if j ≤ l.level then j else l.level + 1

/-- A descriptor of partition `p` is issued now on a channel of `room`: nothing keeps it waiting, no entry of the stream queue stands before it, it is no bad
descriptor, and it has something to move (R243, R245, R265, R266, R299). -/
structure State.MayIssue (s : State) (p room ch : Nat) (d : Desc) : Prop where
  owner : s.ownerOf room = some p
  fits : d.fits = true
  ready : s.streamWaits p room ch d = false
  clear : (s.room room).queueClear 3 = true
  good : d.bad = false
  moves : d.empty = false

/-- The run of a descriptor that a channel of `room` issues (R248): sources as they stood at issue, the bytes that a host buffer gives. -/
def State.runOf (s : State) (p room ch : Nat) (d : Desc) (hostIn : List Byte) : StreamRun :=
  let s0 := if d.isFinal then s.digest p room 7 0 0 d.bytes else s
  (StreamCtx.run { s0 := s0, p := p, room := room, chan := ch, d := d, third := (s.room room).takesErrors } { st := s0, host := hostIn }).1

/-- Command `c` issues descriptor `d` on channel `ch` of room `r`, with `h` from the host's buffer, in the state `u`: `s` itself, or for a descriptor by address `s`
with its line read. -/
inductive Issues (s : State) (r : RoomId) (ch : ChanId) (d : Desc) (h : List Byte) : State → Instr → Prop where
  | copy : d.op = 0 ∨ 6 < d.op → Issues s r ch d h s (.copy r ch d h)
  | gather : d.op = 1 → Issues s r ch d h s (.gather r ch d h)
  | scatter : d.op = 2 → Issues s r ch d h s (.scatter r ch d h)
  | keyStream : d.op = 3 → h = [] → Issues s r ch d h s (.keyStream r ch d)
  | pantryGather : d.op = 4 → h = [] → Issues s r ch d h s (.pantryGather r ch d)
  | pantryScatter : d.op = 5 → h = [] → Issues s r ch d h s (.pantryScatter r ch d)
  | fill : d.op = 6 → h = [] → Issues s r ch d h s (.fill r ch d)
  | rePitch : d.layoutCopy = true → d.transposed = false → h = [] → Issues s r ch d h s (.rePitch r ch d)
  | transpose : d.layoutCopy = true → d.transposed = true → h = [] → Issues s r ch d h s (.transpose r ch d)
  | align : d.layoutCopy = true → d.transposed = false → d.dstBase % 128 = 0 → h = [] → Issues s r ch d h s (.align r ch d)
  | byAddress (off : Nat) : s.roomRuns r = true → ((s.room r).chan ch).state ≠ .halted →
      ({ room := r, cellar := false, off := off, len := 128 } : Span).outside = false →
      s.spanBad { room := r, cellar := false, off := off, len := 128 } = false →
      streamDescOf (s.spanBytes { room := r, cellar := false, off := off, len := 128 }) = d →
      Issues s r ch d h (s.countRead { room := r, cellar := false, off := off, len := 128 }) (.descriptorByAddress r ch off h)

/-- Room `r` has started its block `b` again from its checkpoint (R458): it remembers an error, and memory, partitions, functions and other rooms are as in `s`. -/
structure State.Replayed (s t : State) (r : Nat) (b : Block) : Prop where
  block : ∃ c, (t.room r).block = some c ∧ c.execs = min 3 (b.execs + 1) ∧ c.replays = b.replays + 1 ∧ c.errSeen = true ∧ c.checkpoint = b.checkpoint ∧
    c.failed = false ∧ c.poison = none ∧ c.op = 0 ∧ c.aclk = 0 ∧ c.d1 = 0 ∧ c.d2 = 0
  tokens : (t.room r).tokens = b.checkpoint.tokens
  queues : (t.room r).queues = []
  scalars : (t.room r).scalars = b.checkpoint.scalars
  vcount : (t.room r).vcount = b.checkpoint.vcount
  entries : (t.room r).keyEntries = b.checkpoint.keyEntries
  window : (t.room r).window = b.checkpoint.window
  channels : ∀ c, c < 16 → ((t.room r).chan c).issued = []
  counter : (t.room r).blockCounter = (s.room r).blockCounter
  others : ∀ q, q ≠ r → t.room q = s.room q
  attic : t.mem.attic = s.mem.attic
  cellar : t.mem.cellar = s.mem.cellar
  parts : t.parts = s.parts
  fns : t.fns = s.fns

/-- The block `b` of room `r` is to complete with STATUS 2 (R459, R564): its channels hold no descriptor, and memory, partitions, functions and other rooms are
as in `s`. -/
structure State.BlockFails (s t : State) (r : Nat) (b : Block) : Prop where
  block : ∃ c, (t.room r).block = some c ∧ c.failed = true ∧ c.errSeen = true ∧ c.execs = b.execs ∧ c.replays = b.replays ∧ c.checkpoint = b.checkpoint
  channels : ∀ c, c < 16 → ((t.room r).chan c).issued = []
  others : ∀ q, q ≠ r → t.room q = s.room q
  attic : t.mem.attic = s.mem.attic
  cellar : t.mem.cellar = s.mem.cellar
  parts : t.parts = s.parts
  fns : t.fns = s.fns

/-- Channel `ch` of stack `k`, whose calibration stood at `x`, has been calibrated with the outcome `ok` (R239): no other stack, no room and no memory changes. -/
structure State.Calibrated (s t : State) (k ch : Nat) (ok : Bool) (x : Calib) : Prop where
  mem : t.mem = s.mem
  rooms : t.rooms = s.rooms
  stack : t.stack k = { s.stack k with
    calib := Tab.set {} (s.stack k).calib ch (if ok then { last := s.now, temp := (s.stack k).temp, failed := 0, retryAt := none }
      else { x with failed := x.failed + 1, retryAt := some (s.now + 1000000) }) }
  others : ∀ q, q ≠ k → t.stack q = s.stack q
  third : ok = false → x.failed = 2 → t.permanent (.pseudo k (2 * ch)) = true ∧ t.permanent (.pseudo k (2 * ch + 1)) = true

/-- Nothing but port `n`, the module's link tables and what it reports differs: other ports, memory, rooms, stacks and partitions are as in `s`. -/
structure State.LinkFrame (s t : State) (n : Nat) : Prop where
  others : ∀ m, m ≠ n → t.port m = s.port m
  mem : t.mem = s.mem
  rooms : t.rooms = s.rooms
  hbm : t.hbm = s.hbm
  parts : t.parts = s.parts

/-- Port `n` has sent its unacknowledged flits again, oldest first, with the numbers they have (R416); the eighth time in a row it has left ACTIVE with its
replay buffer kept (R417). -/
structure State.Resent (s t : State) (n : Nat) : Prop where
  out : t.out = ((s.port n).unacked.map (fun e => OutEvent.flit n e.1.toNat e.2.2.kind.val e.2.2.vc.val e.2.2.data)).reverse ++ s.out
  replays : (t.port n).replays = satInc (s.port n).replays
  kept : (t.port n).unacked = (s.port n).unacked ∧ (t.port n).queued = (s.port n).queued
  again : (s.port n).retries < 7 → (t.port n).state = .active ∧ (t.port n).retries = (s.port n).retries + 1 ∧ (t.port n).ackAt = s.now ∧
    (t.port n).nakSeen = false ∧ (t.port n).nakIgnoredUntil = s.now + 1000
  eighth : 7 ≤ (s.port n).retries → (t.port n).exhausted = satInc (s.port n).exhausted ∧ (t.port n).state ≠ .active
  frame : s.LinkFrame t n

/-- A training attempt of port `n` has failed (R421): the back-off is a free value below its bound, and after the twelfth failure the port is DOWN for a second. -/
structure State.AttemptFailed (s t : State) (n : Nat) : Prop where
  attempt : (t.port n).attempt = (s.port n).attempt + 1 ∧ (t.port n).trainStep = 0
  early : (s.port n).attempt < 11 → (t.port n).state = (s.port n).state ∧ s.now ≤ (t.port n).backoffUntil ∧
    (t.port n).backoffUntil < s.now + 2 ^ min ((s.port n).attempt + 1) 6 * 1000000
  late : 11 ≤ (s.port n).attempt → (t.port n).state = .down ∧ (t.port n).backoffUntil = s.now + 1000000000
  kept : (t.port n).unacked = (s.port n).unacked ∧ (t.port n).queued = (s.port n).queued
  frame : s.LinkFrame t n

/-- Port `n` has begun a training attempt (R420); `first` says that earlier failures no longer count. Its queue and its replay buffer stay (R414). -/
structure State.Attempting (s t : State) (n : Nat) (first : Bool) : Prop where
  state : (t.port n).state = .training ∧ (t.port n).trainStep = 2 ∧ (t.port n).trainStart = s.now
  attempt : (t.port n).attempt = if first then 0 else (s.port n).attempt
  kept : (t.port n).unacked = (s.port n).unacked ∧ (t.port n).queued = (s.port n).queued
  source : (s.port n).state ≠ .training → (t.source (96 + n)).pending = true
  frame : s.LinkFrame t n

/-- The slot number under which the follower's firmware runs a command of its leader: the first of function `f` that runs none. -/
def State.idleSlot (s : State) (f : Nat) : SlotId := Fin.ofNat 8 (((List.range 8).find? (fun k => ((s.fn f).slot k).state != .running)).getD 0)

/-- The state in which the follower of a pair runs a command that its leader sent (R438): the command stands beside the slots of its function. -/
def State.relayed (s : State) (p : PartId) (op : Nat) (body : List Byte) : State :=
  let q : Req := { op := op, seq := 0, ctrl := 0, len := 480, vector := 0, body := body ++ List.replicate (480 - body.length) 0 }
  { s.heard p with gysis := { s.gysis with detached := (p.val + 1, (s.idleSlot (p.val + 1)).val, q) :: s.gysis.detached } }

/-- The pair of partition `p` has lost its peer (R448): a leader goes on alone, a follower is frozen, and the pair key is erased (R436). -/
structure State.PeerLost (s t : State) (p : Nat) : Prop where
  leader : (s.part p).pair.leader = true → (t.part p).pair.state = .solo ∧ (t.part p).pair.leader = true
  follower : (s.part p).pair.leader = false → (t.part p).pair.state = .frozen ∧ t.mem = s.mem ∧ t.rooms = s.rooms
  key : (t.part p).pair.key = none
  wait : (t.part p).pair.wait = none
  rooms : (t.part p).rooms = (s.part p).rooms

end Sys2Proof.Machine
end

