-- ==== Sys2Proof/WellFormed.lean ====
section
/-! DEFINITION. Which commands are well formed: every operand fits the field, the table or the list that the spec gives it. The meanings are total and
answer for every command; a command that is not well formed stands for nothing the module can be sent. -/

namespace Sys2Proof

open Sys2Proof.Machine

/-- An offset fits the 36 bits in which the module writes offsets (R298). -/
def Machine.Place.wf (x : Place) : Bool := decide (x.off < 2 ^ 36)

/-- Every field of a descriptor fits the bytes that R247 gives it. -/
def Machine.Desc.wf (d : Desc) : Bool :=
  decide (d.op < 2 ^ 8) && decide (d.srcSpace < 2 ^ 8) && decide (d.dstSpace < 2 ^ 8) && decide (d.srcRoom < 2 ^ 8) && decide (d.dstRoom < 2 ^ 8) &&
    decide (d.dstModule < 2 ^ 16) && decide (d.srcBase < 2 ^ 64) && decide (d.dstBase < 2 ^ 64) && decide (d.blkLines < 2 ^ 16) &&
    decide (d.hostBuf < 2 ^ 16) && decide (d.blkRows < 2 ^ 32) && decide (d.srcPitch < 2 ^ 32) && decide (d.dstPitch < 2 ^ 32) &&
    decide (d.idxBase < 2 ^ 64) && decide (d.idxSpace < 2 ^ 8) && decide (d.idxForm < 2 ^ 8) && decide (d.token < 2 ^ 16) &&
    decide (d.idxCount < 2 ^ 32) && decide (d.rowStride < 2 ^ 64) && decide (d.colStride < 2 ^ 32)

/-- Every field of a context flit fits the bits that R409 gives it. -/
def Machine.Ctx.wf (c : Ctx) : Bool :=
  decide (c.dstModule < 2 ^ 9) && decide (c.dstPart < 2 ^ 4) && decide (c.dstRoom < 2 ^ 4) && decide (c.space < 2 ^ 8) && decide (c.base < 2 ^ 64) &&
    decide (c.pitch < 2 ^ 32) && decide (c.blkLines < 2 ^ 16) && decide (c.flag < 2 ^ 6) && decide (c.hops < 2 ^ 5) && decide (c.srcModule < 2 ^ 9) &&
    decide (c.srcRoom < 2 ^ 4) && decide (c.srcChan < 2 ^ 4) && decide (c.ackId < 2 ^ 16) && decide (c.lines < 2 ^ 16) && decide (c.block < 2 ^ 48) &&
    decide (c.bootId < 2 ^ 32) && decide (c.originTime < 2 ^ 64)

/-- Every field of an acknowledgement entry fits the bits that R411 gives it. -/
def Machine.AckEntry.wf (e : AckEntry) : Bool :=
  decide (e.srcRoom < 2 ^ 4) && decide (e.srcChan < 2 ^ 4) && decide (e.ackId < 2 ^ 16) && decide (e.lines < 2 ^ 9)

/-- The three time stamps of a link-control flit are 64-bit timestamps (R428, R536). -/
def Machine.LinkCtl.wf (c : LinkCtl) : Bool := decide (c.txTime < 2 ^ 64) && decide (c.rxEcho < 2 ^ 64) && decide (c.rxAt < 2 ^ 64)

/-- What a port says of itself in training: a module, a port, one of the six torus dimensions or none, and the buffers of eight channels (R420). -/
def Machine.PortIdentity.wf (x : PortIdentity) : Bool := decide (x.module < 2 ^ 9) && decide (x.port < 30) && decide (x.freeBufs.length ≤ 8)

/-- An access to BAR0 lies among the mailbox slots, where any alignment will do (R529). -/
def slotSpan (off width : Nat) : Bool := decide (0x1000 ≤ off) && decide (off + width ≤ 0x2000)

/-- A command's operands are in range. -/
def Instr.wf (i : Instr) : Bool :=
  match i with
  | .post _ _ => true
  | .release _ _ => true
  | .slotByteWrite _ _ off data => decide (off + data.length ≤ 512)
  | .slotTake _ _ => true
  | .jobqDoorbell _ _ => true
  | .intMaskWrite _ _ => true
  | .registerWrite _ off width _ => [1, 2, 4, 8].contains width && (off % width == 0 || slotSpan off width) && decide (off + width ≤ 0x10000)
  | .lowHalfRead _ off => [1, 2, 4, 8].contains off.width && (off.off % off.width == 0 || slotSpan off.off off.width) && decide (off.off + off.width ≤ 0x10000)
  | .bar2Read _ addr len _ => decide (addr + len ≤ 2 ^ 34)
  | .bar2Write _ addr data be => decide (addr + data.length ≤ 2 ^ 34) && be.length == data.length
  | .msixTableWrite _ off data => decide (off + data.length ≤ 512)
  | .queryInfo _ _ => true
  | .primeTable _ _ => true
  | .partitionCreate _ _ => true
  | .partitionDestroy _ slot => slot.found.all (fun e => decide (e.1 < 16) && decide (e.2.1 < 3) && decide (e.2.2.1 < 66) && decide (e.2.2.2 < 16417))
  | .partitionQuery _ _ => true
  | .mirrorSet _ _ _ => true
  | .mirrorSetTimeout _ => true
  | .keysetRegister _ _ => true
  | .keysetActivate _ _ => true
  | .keysetDeactivate _ _ => true
  | .keysetDeactivationEffect _ keyset => decide (keyset < 2 ^ 16)
  | .keysetRelease _ _ => true
  | .keyRegister _ _ => true
  | .keyRemove _ _ => true
  | .keyReleaseComplete _ lut index => decide (index < if lut then 16 else 4096)
  | .lutKeyRegister _ _ => true
  | .keyList _ _ => true
  | .programLoad _ _ => true
  | .programUnload _ _ => true
  | .jobRingSet _ _ => true
  | .hostbufRegister _ _ => true
  | .hostbufRelease _ _ => true
  | .hostCopy _ _ _ => true
  | .telemetryRead _ _ => true
  | .ledgerDrain _ _ => true
  | .ledgerStats _ _ => true
  | .cellarRepairListRecord _ _ => true
  | .cellarRepairListFree _ _ => true
  | .cellarRepairListPending _ _ => true
  | .cellarRepairSoft _ _ => true
  | .cellarRepairHard _ _ => true
  | .powerCapSet _ _ => true
  | .routeLoad _ _ _ => true
  | .firmwareStage _ _ _ => true
  | .moduleReset _ _ => true
  | .attest _ _ => true
  | .breakSet _ _ => true
  | .breakClear _ _ => true
  | .roomResume _ _ => true
  | .roomAbort _ _ => true
  | .debugRead _ _ => true
  | .breakHit _ => true
  | .securityRandom _ _ => true
  | .sha256 _ _ _ => true
  | .sha384 _ _ _ => true
  | .sha512 _ _ _ => true
  | .sha3x256 _ _ _ => true
  | .hmacSha256 _ _ _ => true
  | .hmacSha384 _ _ _ => true
  | .hmacSha512 _ _ _ => true
  | .aes256Ctr _ _ _ => true
  | .ecdsaP256Sign _ _ _ => true
  | .ecdsaP384Sign _ _ _ => true
  | .ecdsaP256Verify _ _ _ => true
  | .ecdsaP384Verify _ _ _ => true
  | .ed25519Sign _ _ _ => true
  | .ed25519Verify _ _ _ => true
  | .rsa3072PssSign _ _ _ => true
  | .rsa4096PssSign _ _ _ => true
  | .rsa3072PssVerify _ _ _ => true
  | .rsa4096PssVerify _ _ _ => true
  | .mldsa87Sign _ _ _ => true
  | .mldsa87Verify _ _ _ => true
  | .ecdhP256 _ _ _ => true
  | .ecdhP384 _ _ _ => true
  | .mlkem1024Encaps _ _ _ => true
  | .mlkem1024Decaps _ _ _ => true
  | .keygen _ _ => true
  | .pubkey _ _ => true
  | .destroy _ _ => true
  | .unwrap _ _ _ => true
  | .microcodeProgram _ _ _ => true
  | .hashChunkGrant _ => true
  | .import_ _ obj => obj.wf
  | .export_ _ obj => obj.wf
  | .check _ obj => obj.wf
  | .relabel _ obj noise => obj.wf && decide (noise < 2 ^ 32)
  | .add _ dst a b => dst.wf && a.wf && b.wf
  | .subtract _ dst a b => dst.wf && a.wf && b.wf
  | .multiplyByInteger _ dst a _ => dst.wf && a.wf
  | .multiplyByPlaintext _ dst a b => dst.wf && a.wf && b.wf
  | .tensorProduct _ dst a b => dst.wf && a.wf && b.wf
  | .rescale _ dst a => dst.wf && a.wf
  | .modulusSwitch _ dst a => dst.wf && a.wf
  | .levelDrop _ dst a k => dst.wf && a.wf && decide (k ≤ 59)
  | .transform _ dst a _ => dst.wf && a.wf
  | .automorphism _ dst a _ => dst.wf && a.wf
  | .relinearise _ dst a => dst.wf && a.wf
  | .rotate _ dst a _ => dst.wf && a.wf
  | .conjugate _ dst a => dst.wf && a.wf
  | .keySwitch _ dst a kind _ => dst.wf && a.wf && decide (kind ≤ 2)
  | .hoistedRotate _ dsts a codes => dsts.all Place.wf && a.wf && dsts.length == codes.length
  | .rotateAccumulate _ dst a _ => dst.wf && a.wf
  | .pin _ index off => decide (index < 4112) && decide (off < 2 ^ 32)
  | .unpin _ index => decide (index < 4112)
  | .approximateRefresh _ dst a _ _ => dst.wf && a.wf
  | .exactRefresh _ dst a _ _ => dst.wf && a.wf
  | .extract _ dst a positions => dst.wf && a.wf && positions.all (fun i => decide (i < 2 ^ 17))
  | .lookUp _ dsts a lut tables => dsts.all Place.wf && a.wf && decide (lut < 16) && tables.all Place.wf && dsts.length == tables.length
  | .pack _ dst a secret _ _ => dst.wf && a.wf && secret.wf
  | .lweAdd _ dst a b => dst.wf && a.wf && b.wf
  | .lweSubtract _ dst a b => dst.wf && a.wf && b.wf
  | .lweMultiplyByInteger _ dst a _ => dst.wf && a.wf
  | .vectorOperation _ v => decide (v.len < 2 ^ 32)
  | .compress _ _ _ _ len => decide (len < 2 ^ 32)
  | .expand _ _ runLen _ _ _ len => decide (runLen < 2 ^ 32) && decide (len < 2 ^ 32)
  | .encode _ dst a _ keyset level _ _ => dst.wf && a.wf && decide (keyset < 2 ^ 16) && decide (level ≤ 59)
  | .plaintextMatrixProduct _ _ => true
  | .flood _ obj _ => obj.wf
  | .drawSeed _ _ => true
  | .random _ dst g => dst.wf && decide (g.rank ≤ 4) && decide (g.home < 16)
  | .sampleToken _ dst a _ => dst.wf && a.wf
  | .copy _ _ d _ => d.wf && d.op == 0
  | .gather _ _ d _ => d.wf && d.op == 1
  | .scatter _ _ d _ => d.wf && d.op == 2
  | .keyStream _ _ d => d.wf && d.op == 3
  | .pantryGather _ _ d => d.wf && d.op == 4
  | .pantryScatter _ _ d => d.wf && d.op == 5
  | .fill _ _ d => d.wf && d.op == 6
  | .rePitch _ _ d => d.wf
  | .transpose _ _ d => d.wf
  | .reDeal _ dst a _ home => dst.wf && a.wf && decide (home < 16)
  | .compact _ dst a => dst.wf && a.wf
  | .align _ _ d => d.wf
  | .descriptorByAddress _ _ off _ => decide (off < 2 ^ 32)
  | .wait _ _ _ _ => true
  | .signal _ _ _ => true
  | .fence _ => true
  | .barrier _ => true
  | .flagWait _ _ _ => true
  | .descriptorComplete _ _ => true
  | .channelHalt _ _ _ _ => true
  | .staleTagTimeout _ tag => decide (tag < 8192)
  | .staleResponse _ tag => decide (tag < 8192)
  | .remoteAckTimeout _ _ => true
  | .keyTileReturn _ _ => true
  | .regulatorSlot _ _ _ => true
  | .blockStart _ _ uses => uses.all (fun i => decide (i < 2 ^ 16))
  | .blockComplete _ => true
  | .exchangeBlockRelease _ => true
  | .watchdogExpiry _ => true
  | .roomError _ _ => true
  | .instructionParityTrap _ _ => true
  | .jobStart _ => true
  | .jobComplete _ => true
  | .pauRetire _ _ => true
  | .roomRetire _ live => live.all Place.wf
  | .securityEngineRetire => true
  | .coreRetire _ => true
  | .ledgerWrite => true
  | .rowRemap _ _ bank row => decide (bank < 66) && decide (row < 16416)
  | .bankCopy _ _ bank => decide (bank < 66)
  | .bankCopyEnd _ _ => true
  | .atticSweepRead _ _ bank _ => decide (bank < 66)
  | .atticSweepForced _ _ bank _ => decide (bank < 66)
  | .atticSelfTest _ failing => failing.all (fun e => decide (e.1 < 3) && decide (e.2.1 < 66))
  | .cellarRefresh _ pc bank _ => decide (pc < 64) && decide (bank < 48)
  | .refreshForced _ pc bank => decide (pc < 64) && decide (bank < 48)
  | .rfm _ pc bank => decide (pc < 64) && decide (bank < 48)
  | .stackTempRead _ _ => true
  | .level4Timeout _ => true
  | .cellarSweepRead _ pc _ _ => decide (pc < 64)
  | .cellarSweepForced _ pc _ _ => decide (pc < 64)
  | .sweepRewrite _ line => decide (line < 2 ^ 29)
  | .cellarCalibration _ ch _ => decide (ch < 32)
  | .calibrationRetry _ ch _ => decide (ch < 32)
  | .rowRepair _ pc sid bank row => decide (pc < 64) && decide (sid < 3) && decide (bank < 16) && decide (row < 16384)
  | .pcRetire _ pc => decide (pc < 64)
  | .pcCopyEnd _ => true
  | .requestAgeLimit _ => true
  | .interruptDelivery => true
  | .mret _ => true
  | .holdoffExpiry _ => true
  | .vectorRequest _ _ => true
  | .msixHoldoffExpiry _ _ => true
  | .directoryRequest _ _ _ _ => true
  | .evictionWriteback _ _ => true
  | .drbgReseed => true
  | .drbgHealthFail => true
  | .drbgReinstantiate _ => true
  | .blockKeyRequest _ => true
  | .securityDomainIdleOff => true
  | .codewordReceive _ cw => cw.length == 448
  | .nakRetransmit _ => true
  | .ackStallRetransmit _ => true
  | .linkControlFlit _ c => c.wf
  | .laneRetire _ _ => true
  | .laneMapApply _ => true
  | .tapChangeApply _ => true
  | .portRetire _ => true
  | .trainingAttempt _ _ partner => partner.wf
  | .trainingTimeout _ => true
  | .trainingBackoffExpiry _ => true
  | .signalDetect _ _ => true
  | .routeTableEffect => true
  | .contextFlit _ _ _ c => c.wf
  | .dataFlit _ _ _ line data => decide (line < 256) && data.length == 128
  | .ackEntryTimeout _ _ _ => true
  | .ackFlitTimeout module => decide (module < 512)
  | .ackFlit _ _ origin dstModule entries => decide (origin < 2 ^ 64) && decide (dstModule < 512) && decide (1 ≤ entries.length) && decide (entries.length ≤ 14) && entries.all AckEntry.wf
  | .marginSweep _ _ _ _ => true
  | .summarySend => true
  | .command _ opcode _ => decide (opcode < 2 ^ 16)
  | .input _ _ => true
  | .hostread _ room _ _ => decide (room < 16)
  | .blockkey _ _ => true
  | .digest _ room d => decide (room < 16) && decide (d.mblock < 2 ^ 48) && decide (d.cause < 256)
  | .echo _ room _ => decide (room < 16)
  | .heartbeat _ state time => decide (state ≤ 8) && decide (time < 2 ^ 64)
  | .heartbeatSend _ => true
  | .end_ _ => true
  | .peerLoss _ => true
  | .resyncComplete _ _ => true
  | .pllUnlock _ => true
  | .pllReturn _ => true
  | .clockSwitch _ _ => true
  | .clockStopped _ => true
  | .freqGate _ _ _ => true
  | .refclkLoss => true
  | .domainWake _ => true
  | .domainOff _ => true
  | .capLoopTick _ _ => true
  | .capUnmetClear => true
  | .currentClamp rail _ => decide (1 ≤ rail) && decide (rail ≤ 12)
  | .currentClampRelease => true
  | .thermalClamp _ _ => true
  | .coolantClamp _ => true
  | .supplyFault _ => true
  | .seqFault rail => decide (1 ≤ rail) && decide (rail ≤ 12)
  | .telemetryTick => true
  | .sensorFail id => decide (id < 2 ^ 32)
  | .smbusSelect _ => true
  | .smbusRead => true
  | .alertResponse => true
  | .coldReset _ _ _ _ => true
  | .warmReset _ _ _ _ => true
  | .fuseRead reads => reads.all (fun e => decide (e.1 < 2048))
  | .loading _ => true
  | .selftest _ _ _ => true
  | .training failed => failed.all (fun r => decide (r < 16))
  | .readyEntry => true
  | .firmwareWatchdog => true
  | .functionLevelReset _ => true
  | .vfEnableClear _ => true
  | .pcieConfigRequest _ _ => true
  | .tapInstruction _ => true
  | .powerUp rise => rise.all (fun r => decide (1 ≤ r) && decide (r ≤ 12))
  | .powerDown _ => true
  | .refclkReturn => true
  | .lossOfSignal _ => true
  | .pcieLinkEvent _ => true
  | .twiddleSetRewrite _ keyset => decide (keyset.keyset < 2 ^ 16) && decide (keyset.prime ≤ 128)

end Sys2Proof
end

