-- ==== Sys2Proof/Certificates/Slice0/Obligations.lean ====
section
/-! DEFINITION. The statements for the provers. Each docstring says in words what the statement says. -/

open Sys2Proof Sys2Proof.Machine

/-- For every state whose queue is not empty, one step is the front command's meaning on the same state with the rest of the queue. The queue is the model's own (log 1). On an empty queue a step answers a next state in which the module time is 10 ns later (log 8; REFCLK is 100 MHz, R552): the watchdog of each room whose block counts has advanced, every other room, the partitions and the attic are as before, and with no watchdog counting and no stack copying every other field is as before. (95_what_each_step_holds, R324, R552, R475.) -/
def Obligations.StepRunsFrontCommand : Prop :=
  (∀ (c : Instr) (rest : List Instr) (s : State), s.pending = c :: rest → step s = exec c { s with pending := rest }) ∧
  (∀ s : State, s.pending = [] → (∀ r, r < 16 → s.blockCounts r = false ∧ (s.stack r).pcCopy = none) → step s = .next { s with now := s.now + 10 }) ∧
  (∀ s : State, s.pending = [] → ∃ t : State, step s = .next t ∧ t.now = s.now + 10 ∧ t.pending = [] ∧ t.parts = s.parts ∧ t.mem.attic = s.mem.attic ∧
    (∀ r, r < 16 → s.blockCounts r = false → t.room r = s.room r) ∧
    (∀ r b, r < 16 → s.blockCounts r = true → (s.room r).block = some b →
      (t.room r).block = some { b with aclk := b.aclk + s.aclkPerTick r } ∧ (t.room r).tokens = (s.room r).tokens))

/-- From every state whose memory is in canonical form (addresses rising, no listed zero) every step that answers a next state gives one whose memory is in canonical form; the queue loses its first command and nothing else, and an empty queue stays empty. The form is the model's own representation of the address spaces (log 2). (R188, R217, R499.) -/
def Obligations.MemoryStaysCanonical : Prop :=
  ∀ (s t : State), s.memOk = true → step s = .next t → t.memOk = true ∧ t.pending = s.pending.tail

/-- State.reset meets the premise of MemoryStaysCanonical; every attic and cellar byte reads as zero there (log 2), and no command waits. (R499, R188, R217.) -/
def Obligations.ResetMemoryIsCanonical : Prop :=
  State.reset.memOk = true ∧ State.reset.pending = [] ∧ (∀ r off : Nat, State.reset.readAttic r off 1 = [0] ∧ State.reset.readCellar r off 1 = [0])

/-- The state after reset: the device state is POWERON, no partition exists, every slot of every function is FREE with zero request bytes, INT_STATUS is 0 and INT_MASK is 7, every MSI-X entry is masked, no vector is pending, every BAR2 aperture is disabled, every clock domain runs from the bypass, and the degraded and replace flags are clear. (R475, R498, R499, R530, R346, R393.) -/
def Obligations.ResetLeavesSpecValues : Prop :=
  State.reset.boot.state = .powerOn ∧ State.reset.gysis.degraded = false ∧ State.reset.gysis.replaceRequested = false ∧
  (∀ p, (State.reset.part p).present = false) ∧
  (∀ f k, ((State.reset.fn f).slot k).state = .free ∧ ∀ i, i < 512 → ((State.reset.fn f).slot k).byte i = 0) ∧
  (∀ f, (State.reset.fn f).intStatus = 0 ∧ (State.reset.fn f).intMask = 7 ∧ (State.reset.fn f).pba = 0 ∧
    (∀ v, (Tab.get {} (State.reset.fn f).msix v).ctrl = 1) ∧ (∀ a, (Tab.get {} (State.reset.fn f).apertures a).enable = false)) ∧
  (∀ d, (State.reset.clk d).source = 2)

/-- For a function that the host sees and every mask of POST bits: each FREE slot whose bit is 1 becomes POSTED with STATUS IN_PROGRESS and RSEQ, RESP_LEN, PROGRESS and PROG_TOTAL zero, its other bytes as before; every other slot is as before; the function's doorbell source becomes pending when a slot was posted and that source is assigned; memory, rooms, partitions and every other function are as before. (R322, R323, R342.) -/
def Obligations.PostPostsFreeSlots : Prop :=
  ∀ (s : State) (f : FnId) (bits : BitVec 8), s.fnPresent f = true → ∃ t : State, exec (.post f bits) s = .next t ∧
    (∀ k, k < 8 → bits.getLsbD k = true → ((s.fn f).slot k).state = .free →
      ((t.fn f).slot k).state = .posted ∧ ((t.fn f).slot k).byte 16 = 7 ∧ (∀ i, 17 ≤ i → i < 28 → ((t.fn f).slot k).byte i = 0) ∧
      (∀ i, i < 16 ∨ 28 ≤ i → ((t.fn f).slot k).byte i = ((s.fn f).slot k).byte i)) ∧
    (∀ k, k < 8 → bits.getLsbD k = false ∨ ((s.fn f).slot k).state ≠ .free → (t.fn f).slot k = (s.fn f).slot k) ∧
    (t.source (160 + f)).pending = (s.postsSome f bits && sourceAssigned (160 + f) || (s.source (160 + f)).pending) ∧
    t.mem = s.mem ∧ t.rooms = s.rooms ∧ t.parts = s.parts ∧ (∀ g, g ≠ f.val → t.fn g = s.fn g)

/-- For a function that the host sees and every mask: each DONE slot whose bit is 1 becomes FREE with every byte as before; every other slot is as before; memory, rooms, partitions and every other function are as before. (R321, R322, R323.) -/
def Obligations.ReleaseFreesDoneSlots : Prop :=
  ∀ (s : State) (f : FnId) (bits : BitVec 8), s.fnPresent f = true → ∃ t : State, exec (.release f bits) s = .next t ∧
    (∀ k, k < 8 → bits.getLsbD k = true → ((s.fn f).slot k).state = .done →
      (t.fn f).slot k = { (s.fn f).slot k with state := .free }) ∧
    (∀ k, k < 8 → bits.getLsbD k = false ∨ ((s.fn f).slot k).state ≠ .done → (t.fn f).slot k = (s.fn f).slot k) ∧
    t.mem = s.mem ∧ t.rooms = s.rooms ∧ t.parts = s.parts ∧ (∀ g, g ≠ f.val → t.fn g = s.fn g)

/-- For a function that the host sees: a write to a FREE slot stores each byte at its offset, reserved bytes and bits as zero, leaves bytes 16 to 27, which the module writes (log 88), and leaves every other byte and the rest of the module as before. A write to a slot that is not FREE, a RELEASE bit for a slot that is not DONE and a POST bit for a slot that is not FREE change nothing but the function's count of rights violations. (R15, R320, R322, R323, R18.) -/
def Obligations.SlotWriteStoresBytes : Prop :=
  (∀ (s : State) (f : FnId) (k : SlotId) (off : Nat) (data : List Byte), s.fnPresent f = true → ((s.fn f).slot k).state = .free →
    off + data.length ≤ 512 → ∃ y, exec (.slotByteWrite f k off data) s = .next (s.setSlot f k y) ∧ y.state = .free ∧
      (∀ i, y.byte i = if off ≤ i ∧ i < off + data.length then
          (if (7 ≤ i ∧ i < 16) ∨ (28 ≤ i ∧ i < 32) then 0 else if 16 ≤ i ∧ i < 28 then ((s.fn f).slot k).byte i else if i = 3 then data.getD (i - off) 0 &&& 1 else data.getD (i - off) 0)
        else ((s.fn f).slot k).byte i)) ∧
  (∀ (s : State) (f : FnId) (k : SlotId) (off : Nat) (data : List Byte), s.fnPresent f = true → ((s.fn f).slot k).state ≠ .free →
    exec (.slotByteWrite f k off data) s = .next (s.violate f) ∧
    exec (.post f (BitVec.ofNat 8 (2 ^ k.val))) s = .next (s.violate f)) ∧
  (∀ (s : State) (f : FnId) (k : SlotId), s.fnPresent f = true → ((s.fn f).slot k).state ≠ .done →
    exec (.release f (BitVec.ofNat 8 (2 ^ k.val))) s = .next (s.violate f)) ∧
  (∀ (s : State) (f : Nat), Tab.get 0 (s.violate f).gysis.ledger.viol f = satInc (Tab.get 0 s.gysis.ledger.viol f))

/-- For the function served next and its oldest POSTED slot: when the checks of R328 all pass, the slot is RUNNING with its bytes as before, but for a command with a progress unit, which shows that nothing is done yet and its total (the model's reading of R333, log 86); the order of service advances, and memory and rooms are as before; the partitions are as before but for a PARTITION_DESTROY, which marks its live partition as being torn down. When a check fails, the slot is DONE with that status, no response bytes and no other effect. A command whose checks must read a stack at level 4 waits (R233). (R322, R324, R325, R328.) -/
def Obligations.SlotTakeRunsOrEnds : Prop :=
  (∀ (s : State) (f : FnId) (k : SlotId), s.nextFn = some f.val → s.oldestPosted f = some k.val → s.takeWaits f k = false → s.takeStatus f k = stOk →
    ∃ t : State, exec (.slotTake f k) s = .next t ∧ ((t.fn f).slot k).state = .running ∧
      (∀ i, i < 20 ∨ 28 ≤ i → ((t.fn f).slot k).byte i = ((s.fn f).slot k).byte i) ∧
      (∀ a b, s.progressAtStart f (s.cmd f k) = some (a, b) → ((t.fn f).slot k).field 20 4 = a % 2 ^ 32 ∧ ((t.fn f).slot k).field 24 4 = b % 2 ^ 32) ∧
      (s.progressAtStart f (s.cmd f k) = none → ∀ i, ((t.fn f).slot k).byte i = ((s.fn f).slot k).byte i) ∧ t.gysis.lastFn = f.val ∧ t.gysis.nextTaken = s.gysis.nextTaken + 1 ∧
      t.mem = s.mem ∧ t.rooms = s.rooms ∧ ((s.cmd f k).op ≠ 0x0102 → t.parts = s.parts) ∧
      ((s.cmd f k).op = 0x0102 → (s.part ((s.cmd f k).field 0 1)).phase = .live → (t.part ((s.cmd f k).field 0 1)).phase = .tearing)) ∧
  (∀ (s : State) (f : FnId) (k : SlotId), s.nextFn = some f.val → s.oldestPosted f = some k.val → s.takeWaits f k = false → s.takeStatus f k ≠ stOk →
    exec (.slotTake f k) s =
      .next (State.endCmd { s with gysis := { s.gysis with lastFn := f.val } } f k (s.takeStatus f k) 0 0 [])) ∧
  (∀ (s : State) (f : FnId) (k : SlotId), s.takeWaits f k = true → exec (.slotTake f k) s = .next s)

/-- For every slot, status, progress and response of at most 480 bytes: the slot is DONE with the status in byte 16, the request's SEQ in RSEQ, the response's length and bytes in their places, and bytes 0 to 15 as before; every other slot and function is as before; with NOTIFY and a VECTOR of at most 31 that vector of the function is raised once, else no vector is. (R322, R325, R330, R320.) -/
def Obligations.EndOfCommandWritesTheSlot : Prop :=
  ∀ (s : State) (f k status progress total : Nat) (resp : List Byte), resp.length ≤ 480 →
    Ended ((s.fn f).slot k) (((s.endCmd f k status progress total resp).fn f).slot k) status resp ∧
    (((s.endCmd f k status progress total resp).fn f).slot k).field 20 4 = progress % 2 ^ 32 ∧
    (((s.endCmd f k status progress total resp).fn f).slot k).field 24 4 = total % 2 ^ 32 ∧
    (∀ i, i < 16 → (((s.endCmd f k status progress total resp).fn f).slot k).byte i = ((s.fn f).slot k).byte i) ∧
    (∀ j, j ≠ k → ((s.endCmd f k status progress total resp).fn f).slot j = (s.fn f).slot j) ∧
    (∀ g, g ≠ f → (s.endCmd f k status progress total resp).fn g = s.fn g) ∧
    ((s.endCmd f k status progress total resp).fn f).raised = (s.fn f).raised ++
      (if (((s.fn f).slot k).byte 3).getLsbD 0 && decide ((((s.fn f).slot k).byte 6).toNat ≤ 31) then [(((s.fn f).slot k).byte 6).toNat] else []) ∧
    (s.endCmd f k status progress total resp).mem = s.mem ∧ (s.endCmd f k status progress total resp).rooms = s.rooms ∧
    (s.endCmd f k status progress total resp).parts = s.parts

/-- Setting a cause bit that is clear while its mask bit is 0 sets it and raises the event vector once; while its mask bit is 1 it sets it and raises nothing; setting a bit that is already set changes nothing. A write of INT_MASK sets the mask and raises the event vector once exactly when a mask bit goes from 1 to 0 while its cause bit is set; nothing else of the module changes. (R353.) -/
def Obligations.EventVectorIsRaisedOnNewCauses : Prop :=
  (∀ (s : State) (f k : Nat), k < 3 → (s.fn f).intStatus.getLsbD k = true → s.setCause f k = s) ∧
  (∀ (s : State) (f k : Nat), k < 3 → (s.fn f).intStatus.getLsbD k = false →
    s.OnlyFn (s.setCause f k) f { s.fn f with
      intStatus := (s.fn f).intStatus ||| BitVec.ofNat 3 (2 ^ k)
      raised := (s.fn f).raised ++ (if (s.fn f).intMask.getLsbD k then [] else [(s.fn f).eventVector.toNat]) } ∧
    ((s.setCause f k).fn f).intStatus.getLsbD k = true) ∧
  (∀ (s : State) (f : FnId) (v : BitVec 32), s.fnPresent f = true →
    ∃ t : State, exec (.intMaskWrite f v) s = .next t ∧
      ((∃ k, k < 3 ∧ (s.fn f).intMask.getLsbD k = true ∧ v.getLsbD k = false ∧ (s.fn f).intStatus.getLsbD k = true) →
        s.OnlyFn t f { s.fn f with intMask := BitVec.ofNat 3 v.toNat, raised := (s.fn f).raised ++ [(s.fn f).eventVector.toNat] }) ∧
      ((∀ k, k < 3 → (s.fn f).intMask.getLsbD k = true → v.getLsbD k = false → (s.fn f).intStatus.getLsbD k = false) →
        s.OnlyFn t f { s.fn f with intMask := BitVec.ofNat 3 v.toNat }))

/-- The two writable fields that have undefined encodings: BASE of an aperture above 188 keeps its value while ROOM and ENABLE of the same write take theirs; encoding 3 of the BAR2 mode of HIF_HOST_POLICY keeps the mode. Nothing else of the module changes, so no error, violation or interrupt is reported. (R16.) -/
def Obligations.UndefinedEncodingsKeepTheField : Prop :=
  (∀ (s : State) (f : FnId) (a : Fin 4) (v : BitVec 64), f ≠ 0 → s.fnPresent f = true → 188 < bitsOf v.toNat 15 8 → v.toNat < 2 ^ 32 →
    exec (.registerWrite f (0x80 + 4 * a.val) 4 v) s = .next (s.setFn f { s.fn f with
      apertures := Tab.set {} (s.fn f).apertures a { room := BitVec.ofNat 4 v.toNat, base := (Tab.get {} (s.fn f).apertures a).base
                                                     enable := bitOf v.toNat 31 } })) ∧
  (∀ (s : State) (v : BitVec 64), v.toNat < 2 ^ 32 → v.toNat % 4 = 3 → exec (.registerWrite 0 0x68 4 v) s = .next s)

/-- INT_STATUS is write-one-to-clear. INT_CTRL takes the event vector and HOLDOFF. An aperture takes ROOM, a BASE of at most 188 and ENABLE. HIF_HOST_POLICY takes a defined mode from PF0 while it is not locked and nothing once it is locked. A write by a VF to HIF_HOST_POLICY and a write by PF0 to an aperture are ignored and counted. Nothing else changes. (R12, R13, R14, R18, R352, R530, R532, R539.) -/
def Obligations.RegisterWritesTakeEffect : Prop :=
  (∀ (s : State) (f : FnId) (v : BitVec 64), s.fnPresent f = true → v.toNat < 2 ^ 32 →
    exec (.registerWrite f 0x3000 4 v) s =
      .next (s.setFn f { s.fn f with intStatus := (s.fn f).intStatus &&& ~~~(BitVec.ofNat 3 v.toNat) }) ∧
    exec (.registerWrite f 0x3008 4 v) s =
      .next (s.setFn f { s.fn f with eventVector := BitVec.ofNat 5 v.toNat, holdoff := BitVec.ofNat 16 (v.toNat / 2 ^ 16) })) ∧
  (∀ (s : State) (f : FnId) (a : Fin 4) (v : BitVec 64), f ≠ 0 → s.fnPresent f = true → bitsOf v.toNat 15 8 ≤ 188 → v.toNat < 2 ^ 32 →
    exec (.registerWrite f (0x80 + 4 * a.val) 4 v) s = .next (s.setFn f { s.fn f with
      apertures := Tab.set {} (s.fn f).apertures a
        { room := BitVec.ofNat 4 v.toNat, base := BitVec.ofNat 8 (bitsOf v.toNat 15 8), enable := bitOf v.toNat 31 } })) ∧
  (∀ (s : State) (v : BitVec 64), v.toNat < 2 ^ 32 → v.toNat % 4 ≠ 3 → s.boot.locked = false →
    exec (.registerWrite 0 0x68 4 v) s = .next { s with boot := { s.boot with bar2Mode := BitVec.ofNat 2 v.toNat } }) ∧
  (∀ (s : State) (v : BitVec 64), v.toNat < 2 ^ 32 → s.boot.locked = true → exec (.registerWrite 0 0x68 4 v) s = .next s) ∧
  (∀ (s : State) (f : FnId) (v : BitVec 64), f ≠ 0 → s.fnPresent f = true → exec (.registerWrite f 0x68 4 v) s = .next (s.violate f)) ∧
  (∀ (s : State) (a : Fin 4) (v : BitVec 64), exec (.registerWrite 0 (0x80 + 4 * a.val) 4 v) s = .next (s.violate 0))

/-- For each 64-bit register that the function may read: reading its low half answers the low word and latches the high word; a read of the high half answers the latched word and ends the latch, or answers the live high word when nothing is latched. A 64-bit read answers the whole register and leaves the latches. Reading a register outside the function's rights answers zero and is counted once. (R17, R18, R528.) -/
def Obligations.LowHalfReadLatchesTheHighHalf : Prop :=
  (∀ (s : State) (f : FnId) (off : Nat) (g : RegAt), s.fnPresent f = true → off % 4 = 0 → (off < 0x1000 ∨ 0x2000 ≤ off) → (off < 0x3800 ∨ 0x3A04 ≤ off) →
    s.regAt f off = some g → regRight f g.who = true → g.bytes = 8 →
    (off = g.base → exec (.lowHalfRead f ⟨off, 4⟩) s =
      .next ((s.setFn f { s.fn f with latch := Tab.set none (s.fn f).latch g.base (some (BitVec.ofNat 32 (g.value / 2 ^ 32))) }).emit
        (.readDone f off (BitVec.ofNat 64 (g.value % 2 ^ 32))))) ∧
    (∀ h, off ≠ g.base → Tab.get none (s.fn f).latch g.base = some h → exec (.lowHalfRead f ⟨off, 4⟩) s =
      .next ((s.setFn f { s.fn f with latch := Tab.set none (s.fn f).latch g.base none }).emit (.readDone f off (BitVec.ofNat 64 h.toNat)))) ∧
    (off ≠ g.base → Tab.get none (s.fn f).latch g.base = none →
      exec (.lowHalfRead f ⟨off, 4⟩) s = .next (s.emit (.readDone f off (BitVec.ofNat 64 (g.value / 2 ^ 32)))))) ∧
  (∀ (s : State) (f : FnId) (off : Nat) (g : RegAt), s.fnPresent f = true → off % 4 = 0 → (off < 0x1000 ∨ 0x2000 ≤ off) → (off < 0x3800 ∨ 0x3A04 ≤ off) →
    s.regAt f off = some g → regRight f g.who = false → exec (.lowHalfRead f ⟨off, 4⟩) s = .next ((s.violate f).emit (.readDone f off 0))) ∧
  (∀ (s : State) (f : FnId) (off : Nat) (g : RegAt), s.fnPresent f = true → off % 8 = 0 → (off < 0x1000 ∨ 0x2000 ≤ off) → s.regAt f off = some g →
    g.bytes = 8 →
    (regRight f g.who = true → exec (.lowHalfRead f ⟨off, 8⟩) s = .next (s.emit (.readDone f off (BitVec.ofNat 64 g.value)))) ∧
    (regRight f g.who = false → exec (.lowHalfRead f ⟨off, 8⟩) s = .next ((s.violate f).emit (.readDone f off 0))))

/-- For a raised vector v that firmware requests: with MSI-X or bus mastering off it is dropped; masked, its pending bit is set; within HOLDOFF of its last message it waits; else one message with the entry's address and data leaves and its time is noted. When the HOLDOFF of a waiting vector has elapsed and it is enabled and unmasked, the message leaves. In every case only this function's interrupt state changes. (R355, R354.) -/
def Obligations.VectorRequestsFollowTheDeliverySteps : Prop :=
  (∀ (s : State) (f : FnId) (v : Fin 32), v.val ∈ (s.fn f).raised → ∃ t : State, exec (.vectorRequest f v) s = .next t ∧
    ((s.fn f).msixOn = false → s.OnlyFn t f { s.fn f with raised := (s.fn f).raised.erase v.val }) ∧
    ((s.fn f).msixOn = true → (s.fn f).vecMasked v = true →
      s.OnlyFn t f { s.fn f with raised := (s.fn f).raised.erase v.val, pba := (s.fn f).pba ||| BitVec.ofNat 32 (2 ^ v.val) }) ∧
    ((s.fn f).msixOn = true → (s.fn f).vecMasked v = false → (s.fn f).waiting.getLsbD v = false → s.heldOff f v = true →
      s.OnlyFn t f { s.fn f with raised := (s.fn f).raised.erase v.val, waiting := (s.fn f).waiting ||| BitVec.ofNat 32 (2 ^ v.val) }) ∧
    ((s.fn f).msixOn = true → (s.fn f).vecMasked v = false → (s.fn f).waiting.getLsbD v = false → s.heldOff f v = false →
      (s.emit (.msix f v (Tab.get {} (s.fn f).msix v).addr (Tab.get {} (s.fn f).msix v).data)).OnlyFn t f { s.fn f with
        raised := (s.fn f).raised.erase v.val, pba := (s.fn f).pba &&& ~~~(BitVec.ofNat 32 (2 ^ v.val))
        waiting := (s.fn f).waiting &&& ~~~(BitVec.ofNat 32 (2 ^ v.val)), lastSent := Tab.set none (s.fn f).lastSent v (some s.now) })) ∧
  (∀ (s : State) (f : FnId) (v : Fin 32), (s.fn f).waiting.getLsbD v = true → s.heldOff f v = false → (s.fn f).msixOn = true →
    (s.fn f).vecMasked v = false →
    exec (.msixHoldoffExpiry f v) s = .next ((s.setFn f { s.fn f with
      pba := (s.fn f).pba &&& ~~~(BitVec.ofNat 32 (2 ^ v.val)), waiting := (s.fn f).waiting &&& ~~~(BitVec.ofNat 32 (2 ^ v.val))
      lastSent := Tab.set none (s.fn f).lastSent v (some s.now) }).emit
        (.msix f v (Tab.get {} (s.fn f).msix v).addr (Tab.get {} (s.fn f).msix v).data)))

/-- An aligned 32-bit write changes exactly one part of one entry: the address keeps bits [1:0] zero, vector control keeps only its mask bit; every other entry is as before. When no vector is pending nothing else of the module changes. Clearing the mask of the only pending vector, with MSI-X on, no function mask and no hold-off, sends it with the entry's address and data and clears its pending bit. An access of another size or alignment changes nothing. (R354, R355, R529.) -/
def Obligations.MsixTableWritesStoreEntries : Prop :=
  (∀ (s : State) (f : FnId) (v : Fin 32) (w : BitVec 32), s.fnPresent f = true → (s.fn f).pba = 0 →
    ∃ t1 t2 t3 t4, exec (.msixTableWrite f (16 * v.val) (leBytes 4 w.toNat)) s = .next t1 ∧
      exec (.msixTableWrite f (16 * v.val + 4) (leBytes 4 w.toNat)) s = .next t2 ∧
      exec (.msixTableWrite f (16 * v.val + 8) (leBytes 4 w.toNat)) s = .next t3 ∧
      exec (.msixTableWrite f (16 * v.val + 12) (leBytes 4 w.toNat)) s = .next t4 ∧
      (∀ t, t = t1 ∨ t = t2 ∨ t = t3 ∨ t = t4 → s.OnlyFn t f { s.fn f with msix := (t.fn f).msix } ∧
        ∀ u, u ≠ v.val → Tab.get {} (t.fn f).msix u = Tab.get {} (s.fn f).msix u) ∧
      Tab.get {} (t1.fn f).msix v = { Tab.get {} (s.fn f).msix v with
        addr := BitVec.ofNat 64 ((Tab.get {} (s.fn f).msix v).addr.toNat / 2 ^ 32 * 2 ^ 32 + w.toNat / 4 * 4) } ∧
      Tab.get {} (t2.fn f).msix v = { Tab.get {} (s.fn f).msix v with
        addr := BitVec.ofNat 64 ((Tab.get {} (s.fn f).msix v).addr.toNat % 2 ^ 32 + w.toNat * 2 ^ 32) } ∧
      Tab.get {} (t3.fn f).msix v = { Tab.get {} (s.fn f).msix v with data := w } ∧
      Tab.get {} (t4.fn f).msix v = { Tab.get {} (s.fn f).msix v with ctrl := BitVec.ofNat 32 (w.toNat % 2) }) ∧
  (∀ (s : State) (f : FnId) (v : Fin 32), s.fnPresent f = true → (s.fn f).pba = BitVec.ofNat 32 (2 ^ v.val) → (s.fn f).funcMask = false →
    (s.fn f).msixOn = true → (s.fn f).waiting.getLsbD v = false → s.heldOff f v = false →
    ∃ t : State, exec (.msixTableWrite f (16 * v.val + 12) [0, 0, 0, 0]) s = .next t ∧ (t.fn f).pba = 0 ∧
      t.out = .msix f v (Tab.get {} (s.fn f).msix v).addr (Tab.get {} (s.fn f).msix v).data :: s.out) ∧
  (∀ (s : State) (f : FnId) (off : Nat) (data : List Byte),
    ¬(data.length = 4 ∧ off % 4 = 0) → ¬(data.length = 8 ∧ off % 8 = 0) → exec (.msixTableWrite f off data) s = .next s)

/-- A read through an enabled aperture answers the bytes of the mapped stack when no line is lost and no burst uncorrectable, and all ones with the poisoned bit when they are or when it is not served in time; bytes beyond STACK_BYTES read zero; a read outside the rights answers zeros and is counted. A write of one whole line stores its bytes; whatever a write does, no attic byte and no cellar byte outside the addressed run or beyond STACK_BYTES changes; a write outside the rights is only counted. While the stack is at level 4 both wait. (R539, R540, R541, R18, R230, R233, R438.) -/
def Obligations.Bar2AccessesReachTheOwnStack : Prop :=
  (∀ (s : State) (f : FnId) (addr len r so : Nat), s.fnPresent f = true → f ≠ 0 → s.boot.state = .ready → s.bar2Map f addr false = some (r, so) →
    exec (.bar2Read f addr len true) s = .next (s.emit (.bar2Done f addr (List.replicate len 0xFF) true)) ∧
    (4 ≤ (s.stack r).level → exec (.bar2Read f addr len false) s = .next s) ∧
    ((s.stack r).level < 4 → ∃ t : State, exec (.bar2Read f addr len false) s = .next t ∧ t.mem = s.mem ∧ t.fns = s.fns ∧
      ((linesOf so (min len (stackBytes - so))).all (fun l => !s.lineLost r (l * 128) && (burstsOf l).all (fun b => !s.burstBad r b)) = true →
        t.out = .bar2Done f addr (s.readCellar r so (min len (stackBytes - so)) ++ List.replicate (len - min len (stackBytes - so)) 0) false :: s.out) ∧
      ((linesOf so (min len (stackBytes - so))).all (fun l => !s.lineLost r (l * 128) && (burstsOf l).all (fun b => !s.burstBad r b)) = false →
        t.out = .bar2Done f addr (List.replicate len 0xFF) true :: s.out))) ∧
  (∀ (s : State) (f : FnId) (addr len : Nat) (late : Bool) (data : List Byte) (be : List Bool), s.fnPresent f = true → f ≠ 0 →
    s.boot.state = .ready →
    (s.bar2Map f addr false = none →
      exec (.bar2Read f addr len late) s = .next ((s.violate f).emit (.bar2Done f addr (List.replicate len 0) false))) ∧
    (s.bar2Map f addr true = none → exec (.bar2Write f addr data be) s = .next (s.violate f))) ∧
  (∀ (s : State) (f : FnId) (addr r so : Nat) (data : List Byte) (be : List Bool), s.fnPresent f = true → f ≠ 0 → s.boot.state = .ready →
    s.bar2Map f addr true = some (r, so) → be.length = data.length →
    (4 ≤ (s.stack r).level → exec (.bar2Write f addr data be) s = .next s) ∧
    ((s.stack r).level < 4 →
    ∃ t : State, exec (.bar2Write f addr data be) s = .next t ∧ t.mem.attic = s.mem.attic ∧ t.rooms = s.rooms ∧ t.fns = s.fns ∧ t.parts = s.parts ∧
      (∀ a, a < cellarKey r so ∨ cellarKey r so + min data.length (stackBytes - so) ≤ a → Mem.byte t.mem.cellar a = Mem.byte s.mem.cellar a) ∧
      (so % 128 = 0 → data.length = 128 → be.all id = true → t.readCellar r so 128 = data)))

/-- For a VF in READY whose partition is live, not a follower and not a leader of a pair, with a ring set: a new tail within 64 entries of the head and not behind the present tail becomes the tail and the function's source is raised; any other tail is ignored and counted. From PF0 the write is ignored and counted in every device state. (R534, R512, R18, R342.) -/
def Obligations.JobDoorbellMovesTheTail : Prop :=
  (∀ (s : State) (f : FnId) (tail : BitVec 16), s.fnPresent f = true → s.boot.state = .ready → f ≠ 0 → (s.part (f - 1)).isLive = true →
    (s.part (f - 1)).isFollower = false → (s.part (f - 1)).isLeader = false → (s.fn f).ringSet = true → tail ≠ (s.fn f).jobTail →
    ((tail - (s.fn f).jobHead).toNat ≤ 64 → ((s.fn f).jobTail - (s.fn f).jobHead).toNat ≤ (tail - (s.fn f).jobHead).toNat →
      exec (.jobqDoorbell f tail) s = .next ((s.setFn f { s.fn f with jobTail := tail }).raise (160 + f))) ∧
    (64 < (tail - (s.fn f).jobHead).toNat ∨ (tail - (s.fn f).jobHead).toNat < ((s.fn f).jobTail - (s.fn f).jobHead).toNat →
      exec (.jobqDoorbell f tail) s = .next (s.violate f))) ∧
  (∀ (s : State) (tail : BitVec 16), exec (.jobqDoorbell 0 tail) s = .next (s.violate 0))

/-- A Function Level Reset of a VF leaves each of its slots FREE with zero bytes, INT_STATUS, INT_MASK, the MSI-X table, pending bits, merged requests, apertures, indices and host buffers at their reset values, every other function as before, attic and cellar contents as before, the partition present, and source 177 pending. VF_ENABLE_CLEAR hides the VFs and keeps memory and partitions; by a Function Level Reset of PF0 it resets PF0 also. (R356, R397, R398, R339, R530, R392.) -/
def Obligations.FunctionResetsClearTheFunction : Prop :=
  (∀ (s : State) (f : FnId), f ≠ 0 → s.fnPresent f = true → ∃ t : State, exec (.functionLevelReset f) s = .next t ∧
    (∀ k, (t.fn f).slot k = {}) ∧ (t.fn f).intStatus = 0 ∧ (t.fn f).intMask = 7 ∧ (t.fn f).msix = [] ∧ (t.fn f).pba = 0 ∧
    (t.fn f).waiting = 0 ∧ (t.fn f).raised = [] ∧ (t.fn f).apertures = [] ∧ (t.fn f).hostBufs = [] ∧ (t.fn f).jobHead = 0 ∧
    (t.fn f).jobTail = 0 ∧ (∀ g, g ≠ f.val → t.fn g = s.fn g) ∧ t.mem = s.mem ∧
    (∀ p, (t.part p).present = (s.part p).present ∧ (t.part p).rooms = (s.part p).rooms) ∧ (t.source 177).pending = true) ∧
  (∀ (s : State) (flr : Bool), ∃ t : State, exec (.vfEnableClear flr) s = .next t ∧ t.board.vfEnable = false ∧ t.mem = s.mem ∧ t.parts = s.parts ∧
    t.rooms = s.rooms ∧ (∀ n, 1 ≤ n → n ≤ 16 → s.fnPresent n = true → (t.fn n).slots = [] ∧ (t.fn n).msix = []) ∧
    (flr = true → (t.fn 0).slots = [] ∧ (t.fn 0).intMask = 7))

/-- For a PARTITION_CREATE whose checks pass: the command ends OK with no response; the partition is live with the requested rooms, share mode, shares, ports and quota and no key set, key, program or job; its rooms are no longer clean and their flags are zero; its VF has no ring, no host buffer and no enabled aperture; INT_STATUS.PARTITION is set for PF0 and the VF; every other partition, every other room and all memory are as before. (R385, R387, R542, R352, R396.) -/
def Obligations.PartitionCreateMakesTheTenant : Prop :=
  ∀ (s : State) (k : SlotId), s.runs 0 k 0x0101 → checkPartitionCreate s false (s.cmd 0 k) = 0 →
    ∃ u : State, exec (.partitionCreate 0 k) s = .next (u.endCmd 0 k 0 0 0 []) ∧
      (u.part ((s.cmd 0 k).field 0 1)).phase = .live ∧ (u.part ((s.cmd 0 k).field 0 1)).rooms = maskList 16 ((s.cmd 0 k).field 6 2) ∧
      (u.part ((s.cmd 0 k).field 0 1)).shareMode = (s.cmd 0 k).field 1 1 ∧
      (u.part ((s.cmd 0 k).field 0 1)).shares = [(s.cmd 0 k).field 2 1, (s.cmd 0 k).field 3 1, (s.cmd 0 k).field 4 1] ∧
      (u.part ((s.cmd 0 k).field 0 1)).portMask = BitVec.ofNat 30 ((s.cmd 0 k).field 8 4) ∧
      (u.part ((s.cmd 0 k).field 0 1)).quota = (s.cmd 0 k).field 12 2 ∧ (u.part ((s.cmd 0 k).field 0 1)).keysets = [] ∧
      (u.part ((s.cmd 0 k).field 0 1)).keys = [] ∧ (u.part ((s.cmd 0 k).field 0 1)).programs = [] ∧
      (u.part ((s.cmd 0 k).field 0 1)).job = none ∧ (∀ p, p ≠ (s.cmd 0 k).field 0 1 → u.part p = s.part p) ∧
      (∀ r, r ∈ maskList 16 ((s.cmd 0 k).field 6 2) → u.room r = { s.room r with clean := false, flags := [] }) ∧
      (∀ r, r ∉ maskList 16 ((s.cmd 0 k).field 6 2) → u.room r = s.room r) ∧ u.mem = s.mem ∧
      (u.fn 0).intStatus.getLsbD 1 = true ∧ (u.fn ((s.cmd 0 k).field 0 1 + 1)).intStatus.getLsbD 1 = true ∧
      (u.fn ((s.cmd 0 k).field 0 1 + 1)).ringSet = false ∧ (u.fn ((s.cmd 0 k).field 0 1 + 1)).hostBufs = [] ∧
      (∀ a, a < 4 → (Tab.get {} (u.fn ((s.cmd 0 k).field 0 1 + 1)).apertures a).enable = false)

/-- For a PARTITION_DESTROY that names a partition that exists: while the watchdog of a room's block counts (log 77), a stack of the partition is at level 4 or a short command of its VF is RUNNING, nothing changes; otherwise the command ends OK at 10,000 hundredths of a per cent; the partition is absent; every attic byte and every cellar byte of its rooms reads zero, its rooms are clean with tokens, flags, scalars, vector registers, queues and block gone and their lost-line lists empty; its cupboard entries are gone and its VF has no enabled aperture, whatever rows the clear found at fault; every byte of any other room's attic and stack, every other room and every other partition is as before. (R393, R394, R211, R242, R372, R396, R542.) -/
def Obligations.PartitionDestroyLeavesNothing : Prop :=
  ∀ (s : State) (k : SlotId) (found : List (Nat × Nat × Nat × Nat)), s.runs 0 k 0x0102 → (s.cmd 0 k).field 0 1 < s.maxParts →
    (s.part ((s.cmd 0 k).field 0 1)).present = true →
    ((s.part ((s.cmd 0 k).field 0 1)).rooms.any s.blockCounts = true ∨ s.hotStack ((s.cmd 0 k).field 0 1) = true ∨
      s.shortLeft ((s.cmd 0 k).field 0 1 + 1) = true → exec (.partitionDestroy 0 ⟨k, found⟩) s = .next s) ∧
    ((s.part ((s.cmd 0 k).field 0 1)).rooms.any s.blockCounts = false → s.hotStack ((s.cmd 0 k).field 0 1) = false →
      s.shortLeft ((s.cmd 0 k).field 0 1 + 1) = false →
    ∃ u : State, exec (.partitionDestroy 0 ⟨k, found⟩) s = .next (u.endCmd 0 k 0 (2 ^ 30 + 10000) 0 []) ∧
      (u.part ((s.cmd 0 k).field 0 1)).present = false ∧ (∀ p, p ≠ (s.cmd 0 k).field 0 1 → u.part p = s.part p) ∧
      (∀ r o, r ∈ (s.part ((s.cmd 0 k).field 0 1)).rooms → o < 2 ^ 32 → Mem.byte u.mem.attic (atticKey r o) = 0) ∧
      (∀ r o, r ∈ (s.part ((s.cmd 0 k).field 0 1)).rooms → o < 2 ^ 36 → Mem.byte u.mem.cellar (cellarKey r o) = 0) ∧
      (∀ r o, r ∉ (s.part ((s.cmd 0 k).field 0 1)).rooms → o < 2 ^ 32 →
        Mem.byte u.mem.attic (atticKey r o) = Mem.byte s.mem.attic (atticKey r o)) ∧
      (∀ r o, r ∉ (s.part ((s.cmd 0 k).field 0 1)).rooms → o < 2 ^ 36 →
        Mem.byte u.mem.cellar (cellarKey r o) = Mem.byte s.mem.cellar (cellarKey r o)) ∧
      (∀ r, r ∈ (s.part ((s.cmd 0 k).field 0 1)).rooms → (u.room r).clean = true ∧ (u.room r).tokens = [] ∧ (u.room r).flags = [] ∧
        (u.room r).scalars = [] ∧ (u.room r).vregs = [] ∧ (u.room r).queues = [] ∧ (u.room r).channels = [] ∧ (u.room r).block = none ∧
        (u.stack r).lost = []) ∧
      (∀ r, r ∉ (s.part ((s.cmd 0 k).field 0 1)).rooms → u.room r = s.room r) ∧
      (∀ e, e ∈ u.sec.entries → ¬(cupKey ((s.cmd 0 k).field 0 1) 0 ≤ e.1 ∧ e.1 < cupKey ((s.cmd 0 k).field 0 1) 4096)) ∧
      (∀ a, a < 4 → (Tab.get {} (u.fn ((s.cmd 0 k).field 0 1 + 1)).apertures a).enable = false))

/-- KEYSET_REGISTER with a readable, acceptable descriptor and a free identifier, no stack of the partition at level 4, registers the key set that the descriptor names, and ends OK. KEYSET_ACTIVATE within the twiddle space makes it active and its twiddle sets valid in every room of the partition. KEYSET_RELEASE of an inactive key set without keys removes it. In each case every other key set, key, program, room and byte of memory is as before. (R332, R57, R331, R91, R438.) -/
def Obligations.KeySetsAreRegisteredAndReleased : Prop :=
  (∀ (s t : State) (f : FnId) (k : SlotId) (ks : KeySet), s.runs f k 0x0201 → s.hotStack (f.val - 1) = false → readKeyset s (f.val - 1) false (s.cmd f k) = (t, 0, some ks) →
    ∃ u : State, exec (.keysetRegister f k) s = .next (u.endCmd f k 0 0 0 []) ∧ u.mem = s.mem ∧ u.rooms = s.rooms ∧ u.fns = s.fns ∧
      u.part (f.val - 1) = (s.part (f.val - 1)).setKeyset ((s.cmd f k).field 0 2) (some ks) ∧
      (∀ p, p ≠ f.val - 1 → u.part p = s.part p)) ∧
  (∀ (s : State) (f : FnId) (k : SlotId) (ks : KeySet), s.runs f k 0x0202 →
    (s.part (f.val - 1)).keyset ((s.cmd f k).field 0 2) = some ks →
    (ks.active = true ∨ (s.part (f.val - 1)).activeTwiddles + ks.twiddles ≤ 2 ^ 20) →
    ∃ u : State, exec (.keysetActivate f k) s = .next (u.endCmd f k 0 0 0 []) ∧ u.mem = s.mem ∧ u.fns = s.fns ∧
      u.part (f.val - 1) = (s.part (f.val - 1)).setKeyset ((s.cmd f k).field 0 2) (some { ks with active := true }) ∧
      (∀ p, p ≠ f.val - 1 → u.part p = s.part p) ∧
      (∀ r, r ∈ (s.part (f.val - 1)).rooms →
        u.room r = { s.room r with badTwiddle := (s.room r).badTwiddle.filter (·.1 != (s.cmd f k).field 0 2) }) ∧
      (∀ r, r ∉ (s.part (f.val - 1)).rooms → u.room r = s.room r)) ∧
  (∀ (s : State) (f : FnId) (k : SlotId) (ks : KeySet), s.runs f k 0x0204 →
    (s.part (f.val - 1)).keyset ((s.cmd f k).field 0 2) = some ks → ks.active = false →
    (s.part (f.val - 1)).keysOfSet ((s.cmd f k).field 0 2) = false →
    exec (.keysetRelease f k) s = .next (((s.setPart (f.val - 1) ((s.part (f.val - 1)).setKeyset ((s.cmd f k).field 0 2) none)).forward
      (f.val - 1) 0x0204 (s.cmd f k).body).endCmd f k 0 0 0 []))

/-- KEYSET_DEACTIVATE of an active key set leaves its slot RUNNING and the set active, marked as waiting; of an inactive one it ends OK at once; one that waits already changes nothing. KEYSET_DEACTIVATION_EFFECT does nothing while a room has a block on the set in flight; afterwards the set is inactive and the waiting command ends OK. TWIDDLE_SET_REWRITE makes the invalid set of a prime valid in its room, so that the room's twiddle store holds the prime's words again, and changes nothing else. (R90, R91, R93, R438.) -/
def Obligations.DeactivationWaitsForBlocks : Prop :=
  (∀ (s : State) (f : FnId) (k : SlotId) (ks : KeySet), s.runs f k 0x0203 → (s.part (f.val - 1)).keyset ((s.cmd f k).field 0 2) = some ks →
    (ks.active = true → ks.deactivate = none → exec (.keysetDeactivate f k) s = .next ((s.setPart (f.val - 1) ((s.part (f.val - 1)).setKeyset ((s.cmd f k).field 0 2)
      (some { ks with deactivate := some k.val }))).forward (f.val - 1) 0x0203 (s.cmd f k).body)) ∧
    (ks.active = false → ks.deactivate = none → exec (.keysetDeactivate f k) s =
      .next ((s.forward (f.val - 1) 0x0203 (s.cmd f k).body).endCmd f k 0 0 0 [])) ∧
    (ks.deactivate.isSome = true → exec (.keysetDeactivate f k) s = .next s)) ∧
  (∀ (s : State) (p : PartId) (id : Nat) (k : SlotId) (ks : KeySet), (s.part p).keyset id = some ks → ks.deactivate = some k.val →
    ((s.part p).rooms.any (fun r => (s.room r).blockUses id) = true → exec (.keysetDeactivationEffect p id) s = .next s) ∧
    ((s.part p).rooms.any (fun r => (s.room r).blockUses id) = false → s.runs (p.val + 1) k 0x0203 → (s.cmd (p.val + 1) k).field 0 2 = id →
      exec (.keysetDeactivationEffect p id) s = .next ((s.setPart p ((s.part p).setKeyset id
        (some { ks with active := false, deactivate := none }))).endCmd (p.val + 1) k 0 0 0 []))) ∧
  (∀ (s : State) (r : RoomId) (id prime : Nat), (id, prime) ∈ (s.room r).badTwiddle →
    ∃ t : State, exec (.twiddleSetRewrite r ⟨id, prime⟩) s = .next t ∧
      t = s.setRoom r { s.room r with badTwiddle := (s.room r).badTwiddle.filter (· != (id, prime)) } ∧
      (∀ (p : Nat) (ks : KeySet) (m : Modulus), (s.part p).keyset id = some ks → ks.active = true → ks.setPrime prime = some m →
        s.twiddleStore p r id prime = none ∧ t.twiddleStore p r id prime = some (twiddleSet m ks.logN)))

/-- KEY_REGISTER and LUT_KEY_REGISTER accept a header only with an epoch above the last one of its index. With no stack of the partition at level 4: at a free index the key is current and the command ends OK with index and epoch; at an index in use the new key is current, the old one is kept as the previous key and the slot stays RUNNING. Every other index of both tables and all memory is as before. (R115, R121, R122, R154, R133.) -/
def Obligations.KeysFollowTheEpochRule : Prop :=
  (∀ (s t : State) (p : Nat) (busy : Bool) (q : Req) (h : KeyHdr) (l : BitVec 32), readKey s p busy q = (t, 0, some h) →
    ((s.part p).keyAt h.index).lastEpoch = some l → l.toNat < h.epoch.toNat) ∧
  (∀ (s t : State) (p : Nat) (busy : Bool) (q : Req) (h : LutHdr) (l : BitVec 32), readLut s p busy q = (t, 0, some h) →
    ((s.part p).lutAt h.index).lastEpoch = some l → l.toNat < h.epoch.toNat) ∧
  (∀ (s t : State) (f : FnId) (k : SlotId) (h : KeyHdr), s.runs f k 0x0211 → (s.part (f.val - 1)).keyPending k ((s.cmd f k).field 0 8) = false →
    s.hotStack (f.val - 1) = false → readKey s (f.val - 1) false (s.cmd f k) = (t, 0, some h) →
    ∃ u : State, u.mem = s.mem ∧ u.rooms = s.rooms ∧ u.fns = s.fns ∧ ((u.part (f.val - 1)).keyAt h.index).cur = some h ∧
      ((u.part (f.val - 1)).keyAt h.index).lastEpoch = some h.epoch ∧ (u.part (f.val - 1)).luts = (s.part (f.val - 1)).luts ∧
      (∀ i, i ≠ h.index → (u.part (f.val - 1)).keyAt i = (s.part (f.val - 1)).keyAt i) ∧
      (((s.part (f.val - 1)).keyAt h.index).cur = none →
        exec (.keyRegister f k) s = .next (u.endCmd f k 0 0 0 (leBytes 4 h.index ++ leBytes 4 h.epoch.toNat))) ∧
      (∀ old, ((s.part (f.val - 1)).keyAt h.index).cur = some old → exec (.keyRegister f k) s = .next u ∧
        ((u.part (f.val - 1)).keyAt h.index).prev = some old ∧ ((u.part (f.val - 1)).keyAt h.index).slot = some k.val)) ∧
  (∀ (s t : State) (f : FnId) (k : SlotId) (h : LutHdr), s.runs f k 0x0213 → (s.part (f.val - 1)).lutPending k ((s.cmd f k).field 0 8) = false →
    s.hotStack (f.val - 1) = false → readLut s (f.val - 1) false (s.cmd f k) = (t, 0, some h) →
    ∃ u : State, u.mem = s.mem ∧ u.rooms = s.rooms ∧ u.fns = s.fns ∧ ((u.part (f.val - 1)).lutAt h.index).cur = some h ∧
      ((u.part (f.val - 1)).lutAt h.index).lastEpoch = some h.epoch ∧ (u.part (f.val - 1)).keys = (s.part (f.val - 1)).keys ∧
      (∀ i, i ≠ h.index → (u.part (f.val - 1)).lutAt i = (s.part (f.val - 1)).lutAt i) ∧
      (((s.part (f.val - 1)).lutAt h.index).cur = none →
        exec (.lutKeyRegister f k) s = .next (u.endCmd f k 0 0 0 (leBytes 4 h.index ++ leBytes 4 h.epoch.toNat))) ∧
      (∀ old, ((s.part (f.val - 1)).lutAt h.index).cur = some old → exec (.lutKeyRegister f k) s = .next u ∧
        ((u.part (f.val - 1)).lutAt h.index).prev = some old ∧ ((u.part (f.val - 1)).lutAt h.index).slot = some k.val))

/-- KEY_REMOVE of a registered key leaves its index without a current key, keeps the key as the previous one with its last epoch, unpins it at the rooms' boundaries, and leaves the slot RUNNING. KEY_RELEASE_COMPLETE does nothing while a room uses the previous key or has a boundary to pass; afterwards the previous key is gone and the removal or registration that waits ends OK, a registration with its response. (R122, R133, R331, R438.) -/
def Obligations.KeyRemovalCompletesWhenUnused : Prop :=
  (∀ (s : State) (f : FnId) (k : SlotId) (h : KeyHdr), s.runs f k 0x0212 → bitOf ((s.cmd f k).field 2 1) 0 = false →
    ((s.part (f.val - 1)).keyAt ((s.cmd f k).field 0 2)).cur = some h →
    exec (.keyRemove f k) s = .next ((s.setPart (f.val - 1) ((s.part (f.val - 1)).setKey ((s.cmd f k).field 0 2)
      { (s.part (f.val - 1)).keyAt ((s.cmd f k).field 0 2) with
        cur := none, prev := some h, waitRooms := s.busyRooms (f.val - 1), slot := some k.val })).forward (f.val - 1) 0x0212 (s.cmd f k).body)) ∧
  (∀ (s : State) (f : FnId) (k : SlotId) (h : LutHdr), s.runs f k 0x0212 → bitOf ((s.cmd f k).field 2 1) 0 = true →
    ((s.part (f.val - 1)).lutAt ((s.cmd f k).field 0 2)).cur = some h →
    exec (.keyRemove f k) s = .next ((s.setPart (f.val - 1) ((s.part (f.val - 1)).setLut ((s.cmd f k).field 0 2)
      { (s.part (f.val - 1)).lutAt ((s.cmd f k).field 0 2) with
        cur := none, prev := some h, waitRooms := s.busyRooms (f.val - 1), slot := some k.val })).forward (f.val - 1) 0x0212 (s.cmd f k).body)) ∧
  (∀ (s : State) (p : PartId) (i : Nat) (k : SlotId) (old : KeyHdr), ((s.part p).keyAt i).prev = some old → ((s.part p).keyAt i).slot = some k.val →
    (s.prevKeyUsed p i = true → exec (.keyReleaseComplete p false i) s = .next s) ∧
    (s.prevKeyUsed p i = false → s.runs (p.val + 1) k 0x0212 → ((s.part p).keyAt i).cur = none → (s.cmd (p.val + 1) k).field 0 2 = i →
      bitOf ((s.cmd (p.val + 1) k).field 2 1) 0 = false → exec (.keyReleaseComplete p false i) s =
      .next ((s.setPart p ((s.part p).setKey i { (s.part p).keyAt i with prev := none, slot := none })).endCmd (p.val + 1) k 0 0 0 [])) ∧
    (∀ new, s.prevKeyUsed p i = false → s.runs (p.val + 1) k 0x0211 → ((s.part p).keyAt i).cur = some new → new.home = (s.cmd (p.val + 1) k).field 0 8 →
      exec (.keyReleaseComplete p false i) s =
        .next ((s.setPart p ((s.part p).setKey i { (s.part p).keyAt i with prev := none, slot := none })).endCmd (p.val + 1) k 0 0 0
          (leBytes 4 i ++ leBytes 4 new.epoch.toNat)))) ∧
  (∀ (s : State) (p : PartId) (i : Nat) (k : SlotId) (old : LutHdr), ((s.part p).lutAt i).prev = some old → ((s.part p).lutAt i).slot = some k.val →
    s.prevLutUsed p i = false → s.runs (p.val + 1) k 0x0212 → ((s.part p).lutAt i).cur = none → (s.cmd (p.val + 1) k).field 0 2 = i →
    bitOf ((s.cmd (p.val + 1) k).field 2 1) 0 = true → exec (.keyReleaseComplete p true i) s =
      .next ((s.setPart p ((s.part p).setLut i { (s.part p).lutAt i with prev := none, slot := none })).endCmd (p.val + 1) k 0 0 0 []))

/-- PROGRAM_LOAD with an acceptable container, no stack of the partition at level 4, stores the program under the lowest free handle from 1 (model's choice, log 17), answers it and changes no byte of memory; PROGRAM_UNLOAD of a program that no job runs or waits for removes it. HOSTBUF_REGISTER stores the buffer with its two permissions and answers the handle; HOSTBUF_RELEASE of a buffer not in use removes it. JOB_RING_SET on an idle queue sets the ring with both indices 0. (R291, R304, R331, R533, R438.) -/
def Obligations.ProgramsAndBuffersAreKeptByHandle : Prop :=
  (∀ (s t : State) (f : FnId) (k : SlotId) (g : Program), s.runs f k 0x0301 → s.hotStack (f.val - 1) = false → readProgram s (f.val - 1) (s.cmd f k) = (t, 0, some g) →
    ∃ u : State, exec (.programLoad f k) s = .next (u.endCmd f k 0 (2 ^ 31 + ceilDiv g.bodyBytes 1024) (ceilDiv g.bodyBytes 1024)
        (leBytes 4 (lowestFree (s.part (f.val - 1)).programs 1 64))) ∧
      Tab.get none (u.part (f.val - 1)).programs (lowestFree (s.part (f.val - 1)).programs 1 64) = some g ∧
      (∀ h, h ≠ lowestFree (s.part (f.val - 1)).programs 1 64 →
        Tab.get none (u.part (f.val - 1)).programs h = Tab.get none (s.part (f.val - 1)).programs h) ∧
      u.mem = s.mem ∧ u.rooms = s.rooms ∧ u.fns = s.fns) ∧
  (∀ (s : State) (f : FnId) (k : SlotId), s.runs f k 0x0302 → checkUnload s (f.val - 1) false (s.cmd f k) = 0 →
    exec (.programUnload f k) s = .next (((s.setPart (f.val - 1) { s.part (f.val - 1) with
      programs := Tab.set none (s.part (f.val - 1)).programs ((s.cmd f k).field 0 4) none }).forward (f.val - 1) 0x0302 (s.cmd f k).body).endCmd
        f k 0 0 0 [])) ∧
  (∀ (s : State) (f : FnId) (k : SlotId), s.runs f k 0x0401 → checkHostBuf s f (s.cmd f k) = 0 →
    exec (.hostbufRegister f k) s = .next ((s.setFn f { s.fn f with
      hostBufs := Tab.set none (s.fn f).hostBufs (lowestFree (s.fn f).hostBufs 1 256) (some
        { addr := (s.cmd f k).field 0 8, bytes := (s.cmd f k).field 8 8, canWrite := bitOf ((s.cmd f k).field 16 1) 0
          canRead := bitOf ((s.cmd f k).field 16 1) 1 }) }).endCmd f k 0 0 0 (leBytes 2 (lowestFree (s.fn f).hostBufs 1 256)))) ∧
  (∀ (s : State) (f : FnId) (k : SlotId), s.runs f k 0x0402 → checkBufRelease s f false (s.cmd f k) = 0 →
    exec (.hostbufRelease f k) s = .next ((s.setFn f { s.fn f with
      hostBufs := Tab.set none (s.fn f).hostBufs ((s.cmd f k).field 0 2) none }).endCmd f k 0 0 0 [])) ∧
  (∀ (s : State) (f : FnId) (k : SlotId), s.runs f k 0x0303 → (s.cmd f k).field 0 8 + 4096 ≤ stackBytes → (s.fn f).jobHead = (s.fn f).jobTail →
    (s.fn f).jobRunning = false →
    exec (.jobRingSet f k) s = .next (((s.setFn f { s.fn f with
      ringSet := true, ringOff := (s.cmd f k).field 0 8, jobHead := 0, jobTail := 0 }).forward (f.val - 1) 0x0303 (s.cmd f k).body).endCmd
        f k 0 0 0 []))

/-- LEDGER_WRITE writes the oldest waiting decision at W modulo 16,384, advances W by one, and counts in LOST when it overwrites an entry at or beyond D; nothing of memory, rooms or partitions changes. LEDGER_DRAIN with a MAX of 1 to 14 answers the entries from max(FROM, W − 16,384) and moves D to FROM, forward only and never past W, when ACK is set, and not at all when it is clear. LEDGER_STATS answers W, D, LOST and the counts and changes nothing. (R337, R338, R352, R467, R470.) -/
def Obligations.LedgerKeepsOrderAndLoss : Prop :=
  (∀ (s : State) (e : LedgerEntry) (rest : List LedgerEntry), s.gysis.ledger.todo = e :: rest →
    ∃ t : State, exec .ledgerWrite s = .next t ∧ t.gysis.ledger.todo = rest ∧ t.gysis.ledger.w = s.gysis.ledger.w + 1 ∧
      Tab.get none t.gysis.ledger.entries (s.gysis.ledger.w % 16384) = some e ∧
      (∀ i, i ≠ s.gysis.ledger.w % 16384 → Tab.get none t.gysis.ledger.entries i = Tab.get none s.gysis.ledger.entries i) ∧
      t.gysis.ledger.d = s.gysis.ledger.d ∧
      t.gysis.ledger.lost = (if 16384 ≤ s.gysis.ledger.w ∧ s.gysis.ledger.d ≤ s.gysis.ledger.w - 16384 then satInc s.gysis.ledger.lost
        else s.gysis.ledger.lost) ∧
      t.mem = s.mem ∧ t.rooms = s.rooms ∧ t.parts = s.parts) ∧
  (∀ (s : State) (k : SlotId), s.runs 0 k 0x0510 → 1 ≤ (s.cmd 0 k).field 8 1 → (s.cmd 0 k).field 8 1 ≤ 14 →
    (bitOf ((s.cmd 0 k).field 9 1) 0 = false → exec (.ledgerDrain 0 k) s = .next (s.endCmd 0 k 0 0 0
      (s.gysis.ledger.drainBytes ((s.cmd 0 k).field 0 8) ((s.cmd 0 k).field 8 1)))) ∧
    (bitOf ((s.cmd 0 k).field 9 1) 0 = true → exec (.ledgerDrain 0 k) s = .next (State.endCmd { s with gysis := { s.gysis with
      ledger := { s.gysis.ledger with d := max s.gysis.ledger.d (min ((s.cmd 0 k).field 0 8) s.gysis.ledger.w) } } } 0 k 0 0 0
      (s.gysis.ledger.drainBytes ((s.cmd 0 k).field 0 8) ((s.cmd 0 k).field 8 1))))) ∧
  (∀ (s : State) (k : SlotId), s.runs 0 k 0x0511 → exec (.ledgerStats 0 k) s = .next (s.endCmd 0 k 0 0 0
    (leBytes 8 s.gysis.ledger.w ++ leBytes 8 s.gysis.ledger.d ++ leBytes 4 s.gysis.ledger.lost.toNat ++
      leBytes 4 (min (2 ^ 32 - 1) (((List.range 17).map (fun f => (Tab.get 0 s.gysis.ledger.viol f).toNat)).sum)) ++
      ((List.range 17).map (fun f => (Tab.get 0 s.gysis.ledger.viol f).toNat)).flatMap (leBytes 4))))

/-- BREAK_SET arms a count or a tag break of one room and BREAK_CLEAR disarms both. BREAK_HIT in TEST stops a room of a partition whose counter meets its count break, which is disarmed. ROOM_RESUME of a stopped room lets its entries go on; ROOM_ABORT replays the block from its checkpoint. Only that room changes, apart from what a replay does. (R316, R527, R331.) -/
def Obligations.BreaksStopAndReleaseRooms : Prop :=
  (∀ (s : State) (k : SlotId), s.runs 0 k 0x0801 → checkBreakSet s (s.cmd 0 k) = 0 →
    ((s.cmd 0 k).field 1 1 = 0 → exec (.breakSet 0 k) s = .next ((s.setRoom ((s.cmd 0 k).field 0 1) { s.room ((s.cmd 0 k).field 0 1) with
      brk := { (s.room ((s.cmd 0 k).field 0 1)).brk with onCount := some (BitVec.ofNat 48 ((s.cmd 0 k).field 8 6)) } }).endCmd 0 k 0 0 0 [])) ∧
    ((s.cmd 0 k).field 1 1 = 1 → exec (.breakSet 0 k) s = .next ((s.setRoom ((s.cmd 0 k).field 0 1) { s.room ((s.cmd 0 k).field 0 1) with
      brk := { (s.room ((s.cmd 0 k).field 0 1)).brk with
        onTag := some (Fin.ofNat 4 ((s.cmd 0 k).field 2 1), BitVec.ofNat 16 ((s.cmd 0 k).field 4 2)) } }).endCmd 0 k 0 0 0 []))) ∧
  (∀ (s : State) (k : SlotId), s.runs 0 k 0x0802 → s.debugRoom ((s.cmd 0 k).field 0 1) = true →
    exec (.breakClear 0 k) s = .next ((s.setRoom ((s.cmd 0 k).field 0 1) { s.room ((s.cmd 0 k).field 0 1) with
      brk := { (s.room ((s.cmd 0 k).field 0 1)).brk with onCount := none, onTag := none } }).endCmd 0 k 0 0 0 [])) ∧
  (∀ (s : State) (r : RoomId), s.boot.state = .test → (s.ownerOf r).isSome = true → (s.room r).brk.stopped = false →
    (s.room r).brk.onCount = some (s.room r).blockCounter →
    exec (.breakHit r) s = .next (s.setRoom r { s.room r with brk := { (s.room r).brk with
      stopped := true, onCount := none } })) ∧
  (∀ (s : State) (k : SlotId), s.runs 0 k 0x0803 → s.debugRoom ((s.cmd 0 k).field 0 1) = true →
    (s.room ((s.cmd 0 k).field 0 1)).brk.stopped = true → (s.room ((s.cmd 0 k).field 0 1)).brk.replayDeferred = false →
    exec (.roomResume 0 k) s = .next (((s.setRoom ((s.cmd 0 k).field 0 1) { s.room ((s.cmd 0 k).field 0 1) with
      brk := { (s.room ((s.cmd 0 k).field 0 1)).brk with stopped := false, replayDeferred := false } }).goOn ((s.cmd 0 k).field 0 1)).endCmd
        0 k 0 0 0 [])) ∧
  (∀ (s : State) (k : SlotId), s.runs 0 k 0x0804 → s.debugRoom ((s.cmd 0 k).field 0 1) = true →
    (s.room ((s.cmd 0 k).field 0 1)).brk.stopped = true →
    exec (.roomAbort 0 k) s = .next (((s.setRoom ((s.cmd 0 k).field 0 1) { s.room ((s.cmd 0 k).field 0 1) with
      brk := { (s.room ((s.cmd 0 k).field 0 1)).brk with stopped := false, replayDeferred := false } }).replay ((s.cmd 0 k).field 0 1) true).endCmd
        0 k 0 0 0 []))

/-- QUERY_INFO, PRIME_TABLE (with FIRST and COUNT in range), PARTITION_QUERY of a partition that exists, KEY_LIST and the three listings of CELLAR_REPAIR end OK with their response and change nothing else. TELEMETRY_READ of 1 to 29 IDs answers the timestamp, the count and one record for each ID; it only counts a VF's refused IDs. A record that may not be read has VALID 0 and value 0. The listing values of KEY_LIST are the model's (log 16). POWER_CAP_SET of 1,000 to 2,000 W sets the cap, 0 sets 2,000 W. MODULE_RESET answers OK and the reset is due 1 ms later. ROUTE_LOAD of a table that R422 admits keeps it for the frame boundary; the table in force does not change until ROUTE_TABLE_EFFECT, which puts it in force. Each changes nothing else (a table that renumbers the module takes its ports through a retrain). (R331, R37, R235, R335, R435, R486, R341, R499, R422, R423.) -/
def Obligations.ShortMailboxCommands : Prop :=
  (∀ (s : State) (f : FnId) (k : SlotId), s.runs f k 0x0001 → exec (.queryInfo f k) s = .next (s.endCmd f k 0 0 0 (s.queryInfo f))) ∧
  (∀ (s : State) (f : FnId) (k : SlotId), s.runs f k 0x0002 → 1 ≤ (s.cmd f k).field 1 1 → (s.cmd f k).field 1 1 ≤ 30 →
    (s.cmd f k).field 0 1 + (s.cmd f k).field 1 1 ≤ 128 →
    exec (.primeTable f k) s = .next (s.endCmd f k 0 0 0 ((List.range ((s.cmd f k).field 1 1)).flatMap
      (fun i => primeEntry ((s.cmd f k).field 0 1 + i))))) ∧
  (∀ (s : State) (k : SlotId), s.runs 0 k 0x0103 → (s.part ((s.cmd 0 k).field 0 1)).present = true → (s.cmd 0 k).field 0 1 < s.maxParts →
    exec (.partitionQuery 0 k) s = .next (s.endCmd 0 k 0 0 0 (s.partBytes ((s.cmd 0 k).field 0 1)))) ∧
  (∀ (s : State) (f : FnId) (k : SlotId), f.val ≠ 0 → s.runs f k 0x0103 → (s.part (f.val - 1)).present = true → f.val - 1 < s.maxParts →
    exec (.partitionQuery f k) s = .next (s.endCmd f k 0 0 0 (s.partBytes (f.val - 1)))) ∧
  (∀ (s : State) (f : FnId) (k : SlotId), s.runs f k 0x0214 → exec (.keyList f k) s = .next (s.endCmd f k 0 0 0
    (leBytes 2 (listFrom (s.part (f.val - 1)).keyList ((s.cmd f k).field 0 2) 29).1 ++
      leBytes 2 (listFrom (s.part (f.val - 1)).keyList ((s.cmd f k).field 0 2) 29).2.2 ++ List.replicate 12 0 ++
      (listFrom (s.part (f.val - 1)).keyList ((s.cmd f k).field 0 2) 29).2.1))) ∧
  (∀ (s : State) (k : SlotId), s.runs 0 k 0x0601 →
    ((s.cmd 0 k).field 0 1 = 0 → exec (.cellarRepairListRecord 0 k) s =
      .next (s.endCmd 0 k 0 0 0 (recordPage (s.repairList (fun _ => true)) ((s.cmd 0 k).field 4 2)))) ∧
    ((s.cmd 0 k).field 0 1 = 1 → exec (.cellarRepairListFree 0 k) s =
      .next (s.endCmd 0 k 0 0 0 (repairPage ((s.cmd 0 k).field 4 2) (3072 * s.liveRooms.length)
        (fun i => repairLine (s.bankAt i).1 (s.bankAt i).2 ((s.stack (s.bankAt i).1).freeIn (s.bankAt i).2))))) ∧
    ((s.cmd 0 k).field 0 1 = 2 → exec (.cellarRepairListPending 0 k) s =
      .next (s.endCmd 0 k 0 0 0 (recordPage (s.repairList (fun e => e.state != 1)) ((s.cmd 0 k).field 4 2))))) ∧
  (∀ (s : State) (f : FnId) (k : SlotId) (ids : List Nat), s.runs f k 0x0501 → checkTelemetry (s.cmd f k) = 0 →
    ids = (List.range ((s.cmd f k).field 0 1)).map (fun i => (s.cmd f k).field (4 + 4 * i) 4) →
    exec (.telemetryRead f k) s = .next ((s.violateN f (s.badIds f ids)).endCmd f k 0 0 0
      (leBytes 8 s.timestamp ++ leBytes 8 ids.length ++ ids.flatMap (s.record16 f)))) ∧
  (∀ (s : State) (f id : Nat), s.mayRead f id = false → s.record16 f id = leBytes 4 id ++ leBytes 12 0) ∧
  (∀ (s : State) (k : SlotId), s.runs 0 k 0x0602 →
    ((s.cmd 0 k).field 0 4 = 0 → exec (.powerCapSet 0 k) s = .next (State.endCmd { s with power := { s.power with cap := 2000 } } 0 k 0 0 0 [])) ∧
    (1000 ≤ (s.cmd 0 k).field 0 4 → (s.cmd 0 k).field 0 4 ≤ 2000 → exec (.powerCapSet 0 k) s =
      .next (State.endCmd { s with power := { s.power with cap := (s.cmd 0 k).field 0 4 } } 0 k 0 0 0 []))) ∧
  (∀ (s : State) (k : SlotId), s.runs 0 k 0x0605 → (s.cmd 0 k).field 0 1 ≤ 1 → exec (.moduleReset 0 k) s =
    .next (State.endCmd { s with boot := { s.boot with resetAt := some ((s.cmd 0 k).field 0 1, s.now + 1000000) } } 0 k 0 0 0 [])) ∧
  (∀ (s : State) (k : SlotId) (hostIn : List Byte), s.runs 0 k 0x0603 → hostIn.length = 4224 → checkRoute s 0 (s.cmd 0 k) = 0 →
    routeHeaderOk hostIn = true → (∀ d, d < 512 → routeEntryOk hostIn d = true) → s.pairBars (routeTableOf hostIn) = false →
    exec (.routeLoad 0 k hostIn) s =
      .next (State.endCmd { s with links := { s.links with nextRoute := some (routeTableOf hostIn) } } 0 k 0 0 0 [])) ∧
  (∀ (s : State) (t : RouteTable), s.links.nextRoute = some t → ∃ u : State, exec .routeTableEffect s = .next u ∧ u.links.route = some t ∧
    u.links.nextRoute = none ∧ u.mem = s.mem ∧ u.rooms = s.rooms ∧ u.parts = s.parts ∧ u.fns = s.fns ∧
    (s.renumbers t = false → u.links.ports = s.links.ports) ∧ (s.renumbers t = true → ∀ n, n < 30 → u.port n = (s.retrain n).port n))

/-- Every accepted HOST_COPY ends, with FAILED only when a line that it touches is lost or has an uncorrectable burst, and no attic byte changes; with no such line it ends OK with all segments and bytes done. While a stack of the partition is at level 4, or behind an earlier copy of its function, it waits. With one segment from host to cellar whose lines hold no error, every byte of the range holds the host's byte and every other cellar byte of the module is as before; with one segment from cellar to host, the host is sent the range line by line in ascending order and then a zero-length read, and no cellar byte changes. Both end OK with SEGMENTS_DONE 1 and BYTES_DONE the length. (R333, R230, R231, R233, R325, R438.) -/
def Obligations.HostCopyMovesTheSegment : Prop :=
  (∀ (s : State) (f : FnId) (k : SlotId) (hostIn : List Byte), s.runs f k 0x0403 → checkHostCopy s f false (s.cmd f k) = 0 →
    (s.hotStack (f.val - 1) = true ∨ s.copyBehind f k = true → exec (.hostCopy f k hostIn) s = .next s) ∧
    (s.hotStack (f.val - 1) = false → s.copyBehind f k = false → ∃ (u : State) (done bytes : Nat) (ok : Bool), exec (.hostCopy f k hostIn) s =
        .next (u.endCmd f k (if ok then 0 else 6)
          (progressPosition (if ok then ceilDiv (((segments (s.cmd f k)).map (·.bytes)).sum) 4096 else bytes / 4096))
          (ceilDiv (((segments (s.cmd f k)).map (·.bytes)).sum) 4096) (leBytes 8 done ++ leBytes 8 bytes)) ∧
      u.mem.attic = s.mem.attic ∧ u.rooms = s.rooms ∧ u.parts = s.parts ∧ u.fns = s.fns ∧
      ((∀ g, g ∈ segments (s.cmd f k) → ∀ l, l ∈ linesOf g.cellarOff g.bytes →
          s.lineLost ((s.part (f.val - 1)).rooms.getD g.room 0) (l * 128) = false ∧
          ∀ b, b ∈ burstsOf l → s.burstBad ((s.part (f.val - 1)).rooms.getD g.room 0) b = false) →
        ok = true ∧ done = (segments (s.cmd f k)).length ∧ bytes = ((segments (s.cmd f k)).map (·.bytes)).sum))) ∧
  (∀ (s : State) (f : FnId) (k : SlotId) (hostIn : List Byte) (g : Segment), s.runs f k 0x0403 → checkHostCopy s f false (s.cmd f k) = 0 →
    s.hotStack (f.val - 1) = false → s.copyBehind f k = false → segments (s.cmd f k) = [g] → g.dir = 0 →
    (∀ l, l ∈ linesOf g.cellarOff g.bytes → s.lineLost ((s.part (f.val - 1)).rooms.getD g.room 0) (l * 128) = false ∧
      ∀ b, b ∈ burstsOf l → s.burstBad ((s.part (f.val - 1)).rooms.getD g.room 0) b = false) →
    ∃ u : State, exec (.hostCopy f k hostIn) s = .next (u.endCmd f k 0 (progressPosition (ceilDiv g.bytes 4096)) (ceilDiv g.bytes 4096)
        (leBytes 8 1 ++ leBytes 8 g.bytes)) ∧
      (∀ i, i < g.bytes → Mem.byte u.mem.cellar (cellarKey ((s.part (f.val - 1)).rooms.getD g.room 0) (g.cellarOff + i)) = hostIn.getD i 0) ∧
      (∀ a, (∀ i, i < g.bytes → a ≠ cellarKey ((s.part (f.val - 1)).rooms.getD g.room 0) (g.cellarOff + i)) →
        Mem.byte u.mem.cellar a = Mem.byte s.mem.cellar a) ∧
      u.mem.attic = s.mem.attic ∧ u.rooms = s.rooms ∧ u.parts = s.parts ∧ u.fns = s.fns) ∧
  (∀ (s : State) (f : FnId) (k : SlotId) (hostIn : List Byte) (g : Segment) (addr : Nat), s.runs f k 0x0403 →
    checkHostCopy s f false (s.cmd f k) = 0 → s.hotStack (f.val - 1) = false → s.copyBehind f k = false → segments (s.cmd f k) = [g] → g.dir = 1 →
    s.hostRange f g.handle g.hostOff g.bytes true = some addr →
    (∀ l, l ∈ linesOf g.cellarOff g.bytes → s.lineLost ((s.part (f.val - 1)).rooms.getD g.room 0) (l * 128) = false ∧
      ∀ b, b ∈ burstsOf l → s.burstBad ((s.part (f.val - 1)).rooms.getD g.room 0) b = false) →
    ∃ u : State, exec (.hostCopy f k hostIn) s = .next (u.endCmd f k 0 (progressPosition (ceilDiv g.bytes 4096)) (ceilDiv g.bytes 4096)
        (leBytes 8 1 ++ leBytes 8 g.bytes)) ∧
      u.out = .hostFlush f :: ((linePieces g.cellarOff g.bytes).map (fun pc => OutEvent.hostWrite f (addr + pc.1)
        (s.readCellar ((s.part (f.val - 1)).rooms.getD g.room 0) (g.cellarOff + pc.1) pc.2))).reverse ++ s.out ∧
      u.mem = s.mem ∧ u.rooms = s.rooms ∧ u.parts = s.parts ∧ u.fns = s.fns)

/-- With the Alias key and the engine: ATTEST with a writable buffer sends report, signature and certificates to it and answers their length; with another buffer it ends BAD_ARGUMENT, and without its identity or its engine FAILED, its progress as it stood. FIRMWARE_STAGE of an image that the signatures, the SVN and the signer's slot admit writes it to the firmware slot not in use, for microcode to its slot and as the running bundle; of one that they do not admit it ends FAILED with no byte written. Where an image header keeps its fields is open (log 52). (R381, R382, R383, R462, R503, R504, R507, R485.) -/
def Obligations.AttestationAndStaging : Prop :=
  (∀ (s : State) (f : FnId) (k : SlotId) (a : Nat) (e : CupEntry), s.runs f k 0x0702 → s.sec.retired = false → s.boot.identityLost = false →
    s.fwEntry 3 = some e → s.domain 118 = .on → (s.cmd f k).field 32 2 ≠ 0 →
    s.hostRange f ((s.cmd f k).field 32 2) ((s.cmd f k).field 40 8) (s.report f ((s.cmd f k).body.take 32)).length true = some a →
    ∃ u : State, exec (.attest f k) s = .next (u.endCmd f k 0 0 0 (leBytes 4 (s.report f ((s.cmd f k).body.take 32)).length)) ∧
      u.out = OutEvent.hostWrite f a (s.report f ((s.cmd f k).body.take 32)) :: s.out ∧ u.sec = { s.sec with idleSince := s.now } ∧
      u.mem = s.mem ∧ u.rooms = s.rooms ∧ u.parts = s.parts ∧ u.fns = s.fns ∧ u.nvm = s.nvm) ∧
  (∀ (s : State) (f : FnId) (k : SlotId), s.runs f k 0x0702 →
    (s.sec.retired = true ∨ s.boot.identityLost = true ∨ s.fwEntry 3 = none → exec (.attest f k) s = .next (s.endCmd f k 6 (((s.fn f).slot k).field 20 4) (((s.fn f).slot k).field 24 4) [])) ∧
    (∀ e, s.sec.retired = false → s.boot.identityLost = false → s.fwEntry 3 = some e → s.domain 118 = .on →
      s.hostRange f ((s.cmd f k).field 32 2) ((s.cmd f k).field 40 8) (s.report f ((s.cmd f k).body.take 32)).length true = none →
      exec (.attest f k) s = .next (s.endCmd f k 4 (((s.fn f).slot k).field 20 4) (((s.fn f).slot k).field 24 4) []))) ∧
  (∀ (s : State) (k : SlotId) (hostIn : List Byte), s.runs 0 k 0x0604 → s.sec.retired = true → exec (.firmwareStage 0 k hostIn) s =
    .next (s.endCmd 0 k 6 (progressPosition 0) (ceilDiv ((s.cmd 0 k).field 16 4) 4096) (leBytes 4 0))) ∧
  (∀ (s : State) (k : SlotId) (hostIn : List Byte), s.runs 0 k 0x0604 → s.sec.retired = false → s.domain 118 = .on →
    checkStage s 0 (s.cmd 0 k) = 0 → hostIn.length = (s.cmd 0 k).field 16 4 →
    (s.imageOk (imageOf hostIn) = false → exec (.firmwareStage 0 k hostIn) s =
      .next (State.endCmd { s with sec := { s.sec with idleSince := s.now } } 0 k 6 (progressPosition 0) (ceilDiv hostIn.length 4096) (leBytes 4 0))) ∧
    (s.imageOk (imageOf hostIn) = true → (s.cmd 0 k).field 20 1 = 0 → exec (.firmwareStage 0 k hostIn) s =
      .next (State.endCmd { s with
        sec := { s.sec with idleSince := s.now }
        nvm := if s.boot.slotB then { s.nvm with fwA := imageOf hostIn } else { s.nvm with fwB := imageOf hostIn } } 0 k 0
          (progressPosition (ceilDiv hostIn.length 4096)) (ceilDiv hostIn.length 4096) (leBytes 4 hostIn.length))) ∧
    (s.imageOk (imageOf hostIn) = true → (s.cmd 0 k).field 20 1 = 1 → ∃ u : State, exec (.firmwareStage 0 k hostIn) s =
      .next (u.endCmd 0 k 0 (progressPosition (ceilDiv hostIn.length 4096)) (ceilDiv hostIn.length 4096) (leBytes 4 hostIn.length)) ∧
      u.sec.microDigest = (imageOf hostIn).digest ∧ u.sec.microcode = bundlePrograms hostIn ∧ u.nvm.fwA = s.nvm.fwA ∧ u.nvm.fwB = s.nvm.fwB ∧
      u.mem = s.mem ∧ u.rooms = s.rooms ∧ u.parts = s.parts ∧ u.fns = s.fns))

/-- For every SECURITY_OP that is ready to run: the sign operations compute the signature under the entry's key, with nonce or salt from the DRBG's next output (R271; its entropy is free, log 3); when it verifies under the entry's public key it is the output, else the command ends FAILED with no output. The verify operations answer one byte, 1 exactly when the signature verifies. Output goes to the response or the named host buffer; no cupboard entry, memory byte, room, partition or function changes. RSA verify refuses an even or too small exponent. ML-DSA signing that finds no signature ends FAILED. (R366, R368, R369, R372, R376, R384.) -/
def Obligations.SignaturesAreCheckedBeforeRelease : Prop :=
  (∀ (s : State) (f : FnId) (k : SlotId) (h : List Byte) (r : SecRow), s.SecReady f k 0x30 r →
    s.SecAnswers f k (exec (.ecdsaP256Sign f k h) s)
      (let g := curveP256.sign (beNat (s.secKey f k r)) (curveP256.scalar (drbgBytes s.rnd 40)) ((s.cmd f k).input h)
       if curveP256.verify (curveP256.mul (beNat (s.secKey f k r)) curveP256.g) ((s.cmd f k).input h) g then { out := g }
       else { status := 6, event := 0x33, wher := 0x30 })) ∧
  (∀ (s : State) (f : FnId) (k : SlotId) (h : List Byte) (r : SecRow), s.SecReady f k 0x31 r →
    s.SecAnswers f k (exec (.ecdsaP384Sign f k h) s)
      (let g := curveP384.sign (beNat (s.secKey f k r)) (curveP384.scalar (drbgBytes s.rnd 56)) ((s.cmd f k).input h)
       if curveP384.verify (curveP384.mul (beNat (s.secKey f k r)) curveP384.g) ((s.cmd f k).input h) g then { out := g }
       else { status := 6, event := 0x33, wher := 0x31 })) ∧
  (∀ (s : State) (f : FnId) (k : SlotId) (h : List Byte) (r : SecRow), s.SecReady f k 0x32 r →
    s.SecAnswers f k (exec (.ecdsaP256Verify f k h) s) { out := [if curveP256.verify (curveP256.decode (((s.cmd f k).input h).take 65))
      ((((s.cmd f k).input h).drop 65).take 32) (((s.cmd f k).input h).drop 97) then 1 else 0] }) ∧
  (∀ (s : State) (f : FnId) (k : SlotId) (h : List Byte) (r : SecRow), s.SecReady f k 0x33 r →
    s.SecAnswers f k (exec (.ecdsaP384Verify f k h) s) { out := [if curveP384.verify (curveP384.decode (((s.cmd f k).input h).take 97))
      ((((s.cmd f k).input h).drop 97).take 48) (((s.cmd f k).input h).drop 145) then 1 else 0] }) ∧
  (∀ (s : State) (f : FnId) (k : SlotId) (h : List Byte) (r : SecRow), s.SecReady f k 0x34 r →
    s.SecAnswers f k (exec (.ed25519Sign f k h) s)
      (if edVerify (edPublic (s.secKey f k r)) (edSign (s.secKey f k r) ((s.cmd f k).input h)) ((s.cmd f k).input h) then
        { out := edSign (s.secKey f k r) ((s.cmd f k).input h) } else { status := 6, event := 0x33, wher := 0x34 })) ∧
  (∀ (s : State) (f : FnId) (k : SlotId) (h : List Byte) (r : SecRow), s.SecReady f k 0x35 r →
    s.SecAnswers f k (exec (.ed25519Verify f k h) s) { out := [if edVerify (((s.cmd f k).input h).take 32)
      ((((s.cmd f k).input h).drop 32).take 64) (((s.cmd f k).input h).drop 96) then 1 else 0] }) ∧
  (∀ (s : State) (f : FnId) (k : SlotId) (h : List Byte) (r : SecRow), s.SecReady f k 0x36 r →
    s.SecAnswers f k (exec (.rsa3072PssSign f k h) s)
      (let y := rsaKeyOf 192 (s.secKey f k r)
       let g := y.sign 384 ((s.cmd f k).input h) (drbgBytes s.rnd 48)
       if rsaVerify (y.p * y.q) y.e 384 ((s.cmd f k).input h) g then { out := g } else { status := 6, event := 0x33, wher := 0x36 })) ∧
  (∀ (s : State) (f : FnId) (k : SlotId) (h : List Byte) (r : SecRow), s.SecReady f k 0x37 r →
    s.SecAnswers f k (exec (.rsa4096PssSign f k h) s)
      (let y := rsaKeyOf 256 (s.secKey f k r)
       let g := y.sign 512 ((s.cmd f k).input h) (drbgBytes s.rnd 48)
       if rsaVerify (y.p * y.q) y.e 512 ((s.cmd f k).input h) g then { out := g } else { status := 6, event := 0x33, wher := 0x37 })) ∧
  (∀ (s : State) (f : FnId) (k : SlotId) (h : List Byte) (r : SecRow) (e : Nat), s.SecReady f k 0x38 r →
    e = beNat ((((s.cmd f k).input h).drop 384).take 4) →
    s.SecAnswers f k (exec (.rsa3072PssVerify f k h) s) (if e % 2 = 0 ∨ e < 3 then { status := 4 } else
      { out := [if rsaVerify (beNat (((s.cmd f k).input h).take 384)) e 384 ((((s.cmd f k).input h).drop 388).take 48)
        (((s.cmd f k).input h).drop 436) then 1 else 0] })) ∧
  (∀ (s : State) (f : FnId) (k : SlotId) (h : List Byte) (r : SecRow) (e : Nat), s.SecReady f k 0x39 r →
    e = beNat ((((s.cmd f k).input h).drop 512).take 4) →
    s.SecAnswers f k (exec (.rsa4096PssVerify f k h) s) (if e % 2 = 0 ∨ e < 3 then { status := 4 } else
      { out := [if rsaVerify (beNat (((s.cmd f k).input h).take 512)) e 512 ((((s.cmd f k).input h).drop 516).take 48)
        (((s.cmd f k).input h).drop 564) then 1 else 0] })) ∧
  (∀ (s : State) (f : FnId) (k : SlotId) (h : List Byte) (r : SecRow), s.SecReady f k 0x40 r →
    s.SecAnswers f k (exec (.mldsa87Sign f k h) s)
      (match dsaSign (s.secKey f k r) (s.cmd f k).dsaCtx ((s.cmd f k).input h) (drbgBytes s.rnd 32) with
      | none => { status := 6 }
      | some g => if dsaVerify (dsaPublic (s.secKey f k r)) (s.cmd f k).dsaCtx ((s.cmd f k).input h) g then { out := g }
                  else { status := 6, event := 0x33, wher := 0x40 })) ∧
  (∀ (s : State) (f : FnId) (k : SlotId) (h : List Byte) (r : SecRow), s.SecReady f k 0x41 r →
    s.SecAnswers f k (exec (.mldsa87Verify f k h) s) { out := [if dsaVerify (((s.cmd f k).input h).take 2592) (s.cmd f k).dsaCtx
      (((s.cmd f k).input h).drop 7219) ((((s.cmd f k).input h).drop 2592).take 4627) then 1 else 0] })

/-- For every SECURITY_OP that is ready: ECDH and ML-KEM put the shared secret at DEST and nothing of it goes out; KEYGEN puts fresh material at DEST and answers its public key when the pair test passes; UNWRAP puts the unwrapped material at DEST when its integrity, length and pair test pass, else it ends FAILED; DESTROY clears the named entry; PUBKEY answers the public key of the entry; RANDOM answers LENGTH bytes of the DRBG's output (its entropy is free, log 3), but ends FAILED when it meets two parity errors of working memory, which enter the engine's fault history; a microcode program answers its output (free, log 7). Every other entry, memory, rooms, partitions and functions are as before. A word of working memory that the operation has not written reads as zero, one that it has written as written. (R366, R368, R369, R370, R372, R376, R383, R384.) -/
def Obligations.KeyOperationsFillOnlyDest : Prop :=
  (∀ (x : WorkMem) (w u : Nat) (v : Word), x.begin.read w = 0 ∧ (x.write w v).read w = v ∧ (u % 65536 ≠ w % 65536 → (x.write w v).read u = x.read u)) ∧
  (∀ (s : State) (f : FnId) (k : SlotId) (r : SecRow), s.SecReady f k 0x01 r →
    s.SecAnswers f k (exec (.securityRandom f k) s) { out := drbgBytes s.rnd ((s.cmd f k).param 0 4) }) ∧
  (∀ (s : State) (f : FnId) (k : SlotId) (r : SecRow), State.SecReady { s with sec := { s.sec with upsets := 0 } } f k 0x01 r → 2 ≤ s.sec.upsets →
    s.SecAnswers f k (exec (.securityRandom f k) s) { status := 6 } ∧
    ∃ u : State, exec (.securityRandom f k) s = .next u ∧ { chan := .security, time := s.now, kind := 0 } ∈ u.gysis.hist ∧
      u.sec.upsets = s.sec.upsets - 2) ∧
  (∀ (s : State) (f : FnId) (k : SlotId) (h : List Byte) (r : SecRow), s.SecReady f k 0x50 r →
    (curveP256.decode ((s.cmd f k).input h) = none → s.SecAnswers f k (exec (.ecdhP256 f k h) s) { status := 4 }) ∧
    (∀ pt a b, curveP256.decode ((s.cmd f k).input h) = some pt → curveP256.mul (beNat (s.secKey f k r)) (some pt) = some (a, b) →
      curveP256.on a b = true → s.SecAnswers f k (exec (.ecdhP256 f k h) s)
        { dest := some { type_ := 0x03, usage := BitVec.ofNat 5 ((s.cmd f k).param 3 1), material := beBytes 32 a } })) ∧
  (∀ (s : State) (f : FnId) (k : SlotId) (h : List Byte) (r : SecRow), s.SecReady f k 0x51 r →
    (curveP384.decode ((s.cmd f k).input h) = none → s.SecAnswers f k (exec (.ecdhP384 f k h) s) { status := 4 }) ∧
    (∀ pt a b, curveP384.decode ((s.cmd f k).input h) = some pt → curveP384.mul (beNat (s.secKey f k r)) (some pt) = some (a, b) →
      curveP384.on a b = true → s.SecAnswers f k (exec (.ecdhP384 f k h) s)
        { dest := some { type_ := 0x03, usage := BitVec.ofNat 5 ((s.cmd f k).param 3 1), material := beBytes 48 a } })) ∧
  (∀ (s : State) (f : FnId) (k : SlotId) (h : List Byte) (r : SecRow), s.SecReady f k 0x52 r →
    s.SecAnswers f k (exec (.mlkem1024Encaps f k h) s)
      (if kemKeyOk ((s.cmd f k).input h) then
        { out := (kemEncaps ((s.cmd f k).input h) (drbgBytes s.rnd 32)).1
          dest := some { type_ := 0x03, usage := BitVec.ofNat 5 ((s.cmd f k).param 3 1)
                         material := (kemEncaps ((s.cmd f k).input h) (drbgBytes s.rnd 32)).2 } }
       else { status := 4 })) ∧
  (∀ (s : State) (f : FnId) (k : SlotId) (h : List Byte) (r : SecRow), s.SecReady f k 0x53 r →
    s.SecAnswers f k (exec (.mlkem1024Decaps f k h) s) { dest := some { type_ := 0x03, usage := BitVec.ofNat 5 ((s.cmd f k).param 3 1)
                                                                        material := kemDecaps (s.secKey f k r) ((s.cmd f k).input h) } }) ∧
  (∀ (s : State) (f : FnId) (k : SlotId) (r : SecRow) (m : List Byte), s.SecReady f k 0x60 r →
    m = freshMaterial (s.cmd f k).destType.1 (s.cmd f k).destType.2 s.rnd →
    s.SecAnswers f k (exec (.keygen f k) s) (if pairOk (s.cmd f k).destType.1 m (s.rnd.after (freshBytes (s.cmd f k).destType.1 (s.cmd f k).destType.2)) then
        { out := publicOf (s.cmd f k).destType.1 m
          dest := some { type_ := (s.cmd f k).destType.1, usage := BitVec.ofNat 5 ((s.cmd f k).param 3 1), material := m } }
      else { status := 6, event := 0x33, wher := 0x60 })) ∧
  (∀ (s : State) (f : FnId) (k : SlotId) (r : SecRow) (e : CupEntry), s.SecReady f k 0x61 r →
    s.secEntry (f.val - 1) r (s.cmd f k) = some e → s.SecAnswers f k (exec (.pubkey f k) s) { out := publicOf e.type_ e.material }) ∧
  (∀ (s : State) (f : FnId) (k : SlotId) (r : SecRow), s.SecReady f k 0x62 r → s.SecAnswers f k (exec (.destroy f k) s) { clears := true }) ∧
  (∀ (s : State) (f : FnId) (k : SlotId) (h : List Byte) (r : SecRow), s.SecReady f k 0x63 r →
    s.SecAnswers f k (exec (.unwrap f k h) s) (match kwpUnwrap (s.secKey f k r) ((s.cmd f k).input h) with
      | none => { status := 6 }
      | some m =>
        if storedOk ((s.cmd f k).param 2 1) m.length = false then { status := 6 }
        else if pairOk ((s.cmd f k).param 2 1) m s.rnd then
          { dest := some { type_ := (s.cmd f k).param 2 1, usage := BitVec.ofNat 5 ((s.cmd f k).param 3 1), material := m } }
        else { status := 6, event := 0x33, wher := 0x63 })) ∧
  (∀ (s : State) (f : FnId) (k : SlotId) (h : List Byte) (r : SecRow) (n : Nat), n ≤ 15 → s.SecReady f k (0x0100 + n) r →
    ∃ t : State, exec (.microcodeProgram f k h) s = .next (t.draw 1) ∧ s.SecAnswers f k (.next t)
      { out := (Config.microcode n s.free (((s.cmd f k).body.drop 32).take 32) (materialOf
          (if (s.cmd f k).entryIx < (s.part (f.val - 1)).quota then s.entryAt (f.val - 1) (s.cmd f k).entryIx else none))
          ((s.cmd f k).input h)).take (if (s.cmd f k).handle = 0 then 448 else
            match s.hostBuf f (s.cmd f k).handle with | some b => if b.canWrite then b.bytes - (s.cmd f k).outOff else 0 | none => 0) })

/-- A SHA, HMAC or AES-256-CTR command whose entry and request pass joins its unit with its whole input, key and chunk count, and its slot runs on (what it leaves in working memory is free, log 71). HASH_CHUNK_GRANT serves the next channel round-robin: before the last chunk the channel's chunks done rise by one and only PROGRESS of its slot is rewritten; with the last chunk the command ends OK with the digest, tag or stream of its data, and the channel is free. A parity error starts the operation over, and a second one ends it FAILED. No cupboard entry, memory, room or partition changes. (R366, R368, R375, R378, R379, R24.) -/
def Obligations.HashesRunInChunks : Prop :=
  (∀ (s : State) (f : FnId) (k : SlotId) (h : List Byte) (op : Nat) (r : SecRow) (c : Instr), s.SecReady f k op r →
    Tab.get none s.sec.hash (f.val - 1) = none →
    ((op = 0x10 ∧ c = .sha256 f k h) ∨ (op = 0x11 ∧ c = .sha384 f k h) ∨ (op = 0x12 ∧ c = .sha512 f k h) ∨ (op = 0x13 ∧ c = .sha3x256 f k h) ∨
      (op = 0x18 ∧ c = .hmacSha256 f k h) ∨ (op = 0x19 ∧ c = .hmacSha384 f k h) ∨ (op = 0x1A ∧ c = .hmacSha512 f k h) ∨
      (op = 0x20 ∧ c = .aes256Ctr f k h)) →
    exec c s = .next { s.useWork.draw 1 with sec := { s.useWork.sec with hash := Tab.set none s.sec.hash (f.val - 1) (some {
      fn := f.val, slot := k.val, aes := op == 0x20, op := op, data := (s.cmd f k).input h, key := s.secKey f k r
      iv := beNat (((s.cmd f k).body.drop 32).take 16)
      chunks := if op = 0x20 then max 1 (ceilDiv (s.cmd f k).inBytes 4096) else hashChunks op (s.cmd f k).inBytes }) } }) ∧
  (∀ (s : State) (aes : Bool) (ch : Nat) (c : HashCtx), s.sec.nextChannel aes = some ch → Tab.get none s.sec.hash ch = some c →
    s.sec.upsets = 0 → c.done + 1 < c.chunks → ∃ t : State, exec (.hashChunkGrant aes) s = .next t ∧
      Tab.get none t.sec.hash ch = some { c with done := c.done + 1, mark := max c.mark (c.done + 1) } ∧ (∀ j, j ≠ ch → Tab.get none t.sec.hash j = Tab.get none s.sec.hash j) ∧
      ((t.fn c.fn).slot c.slot).state = ((s.fn c.fn).slot c.slot).state ∧
      (∀ i, i < 20 ∨ 28 ≤ i → ((t.fn c.fn).slot c.slot).byte i = ((s.fn c.fn).slot c.slot).byte i) ∧
      t.sec.entries = s.sec.entries ∧ t.mem = s.mem ∧ t.rooms = s.rooms ∧ t.parts = s.parts) ∧
  (∀ (s : State) (aes : Bool) (ch : Nat) (c : HashCtx) (q : Req), s.sec.nextChannel aes = some ch → Tab.get none s.sec.hash ch = some c →
    s.sec.upsets = 0 → c.chunks ≤ c.done + 1 → q = ((s.fn c.fn).slot c.slot).req → s.runs c.fn c.slot 0x0701 → q.handle = 0 →
    ∃ u : State, exec (.hashChunkGrant aes) s = .next (u.endCmd c.fn c.slot 0 (progressPosition q.progTotal) q.progTotal (secResponse q c.output)) ∧
      Tab.get none u.sec.hash ch = none ∧ (∀ j, j ≠ ch → Tab.get none u.sec.hash j = Tab.get none s.sec.hash j) ∧
      u.sec.entries = s.sec.entries ∧ u.mem = s.mem ∧ u.rooms = s.rooms ∧ u.parts = s.parts ∧ u.fns = s.fns ∧ u.out = s.out) ∧
  (∀ (s : State) (aes : Bool) (ch : Nat) (c : HashCtx), s.sec.nextChannel aes = some ch → Tab.get none s.sec.hash ch = some c → s.sec.upsets ≠ 0 →
    (c.reran = false → ∃ t : State, exec (.hashChunkGrant aes) s = .next t ∧
      Tab.get none t.sec.hash ch = some { c with done := 0, mark := max c.mark (c.done + 1), reran := true } ∧ t.fns = s.fns ∧
      t.sec.upsets = s.sec.upsets - 1 ∧ t.sec.errors = satInc s.sec.errors ∧ t.mem = s.mem ∧ t.rooms = s.rooms ∧ t.parts = s.parts) ∧
    (c.reran = true → s.runs c.fn c.slot 0x0701 → ∃ (u : State) (n : Nat), exec (.hashChunkGrant aes) s =
        .next (u.endCmd c.fn c.slot 6 n ((s.fn c.fn).slot c.slot).req.progTotal (secResponse ((s.fn c.fn).slot c.slot).req [])) ∧
      Tab.get none u.sec.hash ch = none ∧ u.out = s.out ∧ u.mem = s.mem ∧ u.rooms = s.rooms ∧ u.parts = s.parts ∧ u.fns = s.fns))

/-- For a room whose result reads no faulty byte, compares soundly, stays inside the attic and has runs that overlap neither the label line nor each other: afterwards the label line of the destination holds the result's label with PRODUCER of this room and block, each run holds its words, and every other byte of the module's attics is as before; a result that a CHECK leaves as it is writes nothing. The operation then raises the operation index of the room's block by one, unless the block waits with an error or is to fail (log 75), and takes the next tag of its queue. (R67, R76, R78, R85, R188, R298, R459.) -/
def Obligations.RoomOperationsWriteLabelAndRuns : Prop :=
  (∀ (s : State) (p room : Nat) (dst : Place) (r : RoomResult), dst.cellar = false → dst.off + 128 ≤ atticBytes →
    (∀ e, e ∈ r.reads → s.readBad r.pieces e = false ∧ e.outside = false) → r.mism = none → (s.room room).readsTaint r.reads = false →
    r.silent = false → r.inner = false →
    (∀ e, e ∈ r.runs → 128 ≤ e.1 ∧ dst.off + e.1 + 4 * e.2.length ≤ atticBytes) →
    r.runs.Pairwise (fun a b => a.1 + 4 * a.2.length ≤ b.1 ∨ b.1 + 4 * b.2.length ≤ a.1) →
    (∀ i, i < 64 → Mem.byte (s.performRoom p room dst r).mem.attic (atticKey room (dst.off + i)) =
      ({ r.lab with producer := s.producer p room } : Label).bytes.getD i 0) ∧
    (∀ e i, e ∈ r.runs → i < 4 * e.2.length → Mem.byte (s.performRoom p room dst r).mem.attic (atticKey room (dst.off + e.1 + i)) =
      (bytesOfWords e.2).getD i 0) ∧
    (∀ a, (∀ i, i < 64 → a ≠ atticKey room (dst.off + i)) →
      (∀ e i, e ∈ r.runs → i < 4 * e.2.length → a ≠ atticKey room (dst.off + e.1 + i)) →
      Mem.byte (s.performRoom p room dst r).mem.attic a = Mem.byte s.mem.attic a) ∧
    (s.performRoom p room dst r).mem.cellar = s.mem.cellar ∧
    (∀ b, (s.room room).block = some b → ∃ c, ((s.performRoom p room dst r).room room).block = some c ∧ c.op = b.op)) ∧
  (∀ (s : State) (p room : Nat) (dst : Place) (r : RoomResult), (∀ e, e ∈ r.reads → s.readBad r.pieces e = false ∧ e.outside = false) → r.mism = none →
    (s.room room).readsTaint r.reads = false →
    (dst.labelSpan room).outside = false → r.runs = [] → r.silent = true →
    (s.performRoom p room dst r).mem.attic = s.mem.attic ∧ (s.performRoom p room dst r).mem.cellar = s.mem.cellar) ∧
  (∀ (s : State) (room : Nat) (b : Block), (s.room room).block = some b →
    (s.countOp room).room room = { s.room room with
      block := some { b with op := if b.error.isSome || b.failed then b.op else b.op + 1 }
      nextTag := Tab.set 0 (s.room room).nextTag 0 (Tab.get 0 (s.room room).nextTag 0 + 1) } ∧
      (∀ q, q ≠ room → (s.countOp room).room q = s.room q) ∧ (s.countOp room).mem = s.mem ∧ (s.countOp room).parts = s.parts)

/-- For every result of every room: an operation leaves every function, partition, port, the routes, the vault and the ledger as before; every room that does not dispatch is as before, and so are its attic and its cellar. In a room before the third execution whose result reads a faulty byte, memory is as before and the block waits with that error. (R76, R87, R458, R459, R190.) -/
def Obligations.OperationsTouchOnlyDispatchingRooms : Prop :=
  (∀ (s : State) (p q : Nat) (dst : Place) (f : Nat → RoomResult),
    (s.runOp p dst f q).fns = s.fns ∧ (s.runOp p dst f q).parts = s.parts ∧ (s.runOp p dst f q).links.ports = s.links.ports ∧ (s.runOp p dst f q).links.route = s.links.route ∧ (s.runOp p dst f q).sec = s.sec ∧
    (s.runOp p dst f q).gysis = s.gysis ∧
    (∀ r, r ∉ s.opRooms p q → (s.runOp p dst f q).room r = s.room r) ∧
    (∀ r o, r ∉ s.opRooms p q → o < 2 ^ 32 →
      Mem.byte (s.runOp p dst f q).mem.attic (atticKey r o) = Mem.byte s.mem.attic (atticKey r o)) ∧
    (∀ r o, r ∉ s.opRooms p q → o < 2 ^ 36 →
      Mem.byte (s.runOp p dst f q).mem.cellar (cellarKey r o) = Mem.byte s.mem.cellar (cellarKey r o))) ∧
  (∀ (s : State) (p room : Nat) (dst : Place) (r : RoomResult) (b : Block) (e : Span), (s.room room).block = some b → b.execs < 3 →
    e ∈ r.reads → s.readBad r.pieces e = true → (∀ x, x ∈ r.reads → x.outside = false) → (∀ x, x ∈ r.writes room dst → x.outside = false) →
    (s.performRoom p room dst r).mem = s.mem ∧
    ∃ c, ((s.performRoom p room dst r).room room).block = some c ∧ c.error.isSome = true ∧ c.op = b.op)

/-- In each room with sound operands that agree and whose result stays in its budget: ADD and SUBTRACT give level min, NOISE max + 256 and the limb-wise lane sum or difference; MULTIPLY_BY_INTEGER adds 256·log2 |c| rounded up to NOISE (for c = 0 a free value of the operand's, log 24) and multiplies each word; MULTIPLY_BY_PLAINTEXT and TENSOR_PRODUCT add the scales, give the NOISE of R70 in form 0 and form 1, and the products of the limbs, the tensor product with three polynomials. Operands that R71 does not admit end with its cause and one poisoned label. (R70, R71, R72, R73, R183, R561, R85, R31.) -/
def Obligations.ArithmeticGivesLabelAndWords : Prop :=
  (∀ (s : State) (p : PartId) (dst a b : Place), s.LimbRule (.add p dst a b) p dst [a, b]
    (fun k labs lab => ∃ u v, labs = [u, v] ∧ pairCause k 0 u v = none ∧ k.covers v = true ∧ budgetCause k lab = none ∧
      lab = { resultBase labs none (s.part p).rooms.length with
        level := min u.level v.level, scale := u.scale, noise := satNoise (max u.noise v.noise + 256), repr := u.repr })
    (fun k labs lab j q => List.zipWith (laneAdd (k.modAt lab j))
      (if q < (labs.getD 0 Label.zero).polys then s.limb (s.part p) (labs.getD 0 Label.zero) a (srcPair (labs.getD 0 Label.zero) lab j) q else List.replicate (labs.getD 0 Label.zero).n 0)
      (if q < (labs.getD 1 Label.zero).polys then s.limb (s.part p) (labs.getD 1 Label.zero) b (srcPair (labs.getD 1 Label.zero) lab j) q else List.replicate (labs.getD 1 Label.zero).n 0))) ∧
  (∀ (s : State) (p : PartId) (dst a b : Place), s.LimbRule (.subtract p dst a b) p dst [a, b]
    (fun k labs lab => ∃ u v, labs = [u, v] ∧ pairCause k 0 u v = none ∧ k.covers v = true ∧ budgetCause k lab = none ∧
      lab = { resultBase labs none (s.part p).rooms.length with
        level := min u.level v.level, scale := u.scale, noise := satNoise (max u.noise v.noise + 256), repr := u.repr })
    (fun k labs lab j q => List.zipWith (laneSub (k.modAt lab j))
      (if q < (labs.getD 0 Label.zero).polys then s.limb (s.part p) (labs.getD 0 Label.zero) a (srcPair (labs.getD 0 Label.zero) lab j) q else List.replicate (labs.getD 0 Label.zero).n 0)
      (if q < (labs.getD 1 Label.zero).polys then s.limb (s.part p) (labs.getD 1 Label.zero) b (srcPair (labs.getD 1 Label.zero) lab j) q else List.replicate (labs.getD 1 Label.zero).n 0))) ∧
  (∀ (s : State) (p : PartId) (dst a : Place) (c : Int), s.LimbRule (.multiplyByInteger p dst a c) p dst [a]
    (fun k labs lab => ∃ u, labs = [u] ∧ u.form ≤ 1 ∧ 1 ≤ u.polys ∧ u.polys ≤ 3 ∧ (u.form = 1 → u.t = k.t) ∧ budgetCause k lab = none ∧
      lab = { resultBase labs none (s.part p).rooms.length with
        level := u.level, scale := u.scale, repr := u.repr
        noise := if c = 0 then (Config.zeroNoise u.noise).toNat else satNoise (u.noise + ceil256 c.natAbs) })
    (fun k labs lab j q => (s.limb (s.part p) (labs.headD Label.zero) a (srcPair (labs.headD Label.zero) lab j) q).map
      (laneMul (k.modAt lab j) (laneConst (k.modAt lab j) c)))) ∧
  (∀ (s : State) (p : PartId) (dst a b : Place), s.LimbRule (.multiplyByPlaintext p dst a b) p dst [a, b]
    (fun k labs lab => ∃ u v, labs = [u, v] ∧ pairCause k 1 u v = none ∧ k.covers v = true ∧ budgetCause k lab = none ∧
      (u.form = 0 → lab = { resultBase labs none (s.part p).rooms.length with
        level := min u.level v.level, scale := u.scale + v.scale, noise := satNoise (u.noise + v.scale + u.g), repr := true }) ∧
      (u.form = 1 → lab = { resultBase labs none (s.part p).rooms.length with
        level := u.level, scale := 0, noise := satNoise (u.noise + k.tau + u.g), repr := true }))
    (fun k labs lab j q => List.zipWith (laneMul (k.modAt lab j))
      (s.limb (s.part p) (labs.getD 0 Label.zero) a (srcPair (labs.getD 0 Label.zero) lab j) q)
      (s.limb (s.part p) (labs.getD 1 Label.zero) b (srcPair (labs.getD 1 Label.zero) lab j) 0))) ∧
  (∀ (s : State) (p : PartId) (dst a b : Place), s.LimbRule (.tensorProduct p dst a b) p dst [a, b]
    (fun k labs lab => ∃ u v, labs = [u, v] ∧ pairCause k 2 u v = none ∧ k.covers v = true ∧ budgetCause k lab = none ∧
      (u.form = 0 → lab = { resultBase labs (some 3) (s.part p).rooms.length with
        level := min u.level v.level, scale := u.scale + v.scale
        noise := satNoise (max (u.noise + v.scale) (v.noise + u.scale) + u.g + 256), repr := true }) ∧
      (u.form = 1 → lab = { resultBase labs (some 3) (s.part p).rooms.length with
        level := u.level, scale := 0, noise := satNoise (max u.noise v.noise + k.tau + u.g + 256), repr := true }))
    (fun k labs lab j q =>
      let m := k.modAt lab j
      let u (i : Nat) := s.limb (s.part p) (labs.getD 0 Label.zero) a (srcPair (labs.getD 0 Label.zero) lab j) i
      let v (i : Nat) := s.limb (s.part p) (labs.getD 1 Label.zero) b (srcPair (labs.getD 1 Label.zero) lab j) i
      if q = 0 then List.zipWith (laneMul m) (u 0) (v 0)
      else if q = 1 then List.zipWith (laneAdd m) (List.zipWith (laneMul m) (u 0) (v 1)) (List.zipWith (laneMul m) (u 1) (v 0))
      else List.zipWith (laneMul m) (u 1) (v 1))) ∧
  (∀ (s : State) (p : PartId) (dst a b : Place), ∃ f : Nat → RoomResult, exec (.add p dst a b) s = .next (s.runOp p dst f) ∧
    ∀ room u v k c, s.Sound p room [a, b] [u, v] k → checkCause (some k) [u, v] = none → pairCause k 0 u v = some c → (f room).runs = [] ∧ (f room).fresh = true ∧
      (f room).lab = (resultBase [u, v] none (s.part p).rooms.length).ended c)

/-- Once the twiddle sets that it needs are valid (those of the limbs that it transforms in a room), in each room with sound operands and a result in its budget: RESCALE and MODULUS_SWITCH remove the highest limb in use, lower SCALE by Λ of its prime (form 0), and divide each remaining limb by it; LEVEL_DROP keeps the words, and in place rewrites the label alone; TRANSFORM gives the forward or inverse NTT of each limb and the other representation; AUTOMORPHISM permutes each limb by its Galois element where source and destination do not overlap. The last three change no other label field. A level drop or rescale below level 0 ends with LEVEL_EXHAUSTED and one poisoned label. (R70, R72, R73, R92, R93, R98, R105, R114, R562, R561.) -/
def Obligations.LevelAndRepresentationRules : Prop :=
  (∀ (s : State) (p : PartId) (dst a : Place), s.LimbRule (.rescale p dst a) p dst [a]
    (fun k labs lab => ∃ u, labs = [u] ∧ u.form = 0 ∧ 1 ≤ u.polys ∧ u.polys ≤ 3 ∧ 1 ≤ u.level ∧ (u.repr = true → k.active = true) ∧
      budgetCause k lab = none ∧ lab = { resultBase labs none (s.part p).rooms.length with
        level := u.level - 1, scale := u.scale - k.lam1 u.level, repr := u.repr
        noise := satNoise (max ((u.noise : Int) - k.lam1 u.level) (u.g + 256) + 256) })
    (fun k labs lab j q => rescaleLimb (k.modAt lab j) (k.modAt (labs.headD Label.zero) (labs.headD Label.zero).level)
      (labs.headD Label.zero).logN (labs.headD Label.zero).repr
      (s.limb (s.part p) (labs.headD Label.zero) a (srcPair (labs.headD Label.zero) lab j) q)
      (s.limb (s.part p) (labs.headD Label.zero) a (labs.headD Label.zero).level q))
    (sets := fun labs lab room => if (labs.headD Label.zero).repr then lab.inUse.filter (ownsPair (s.part p) lab room) ++
      (if ownsPair (s.part p) (labs.headD Label.zero) room (labs.headD Label.zero).level then [(labs.headD Label.zero).level] else []) else [])) ∧
  (∀ (s : State) (p : PartId) (dst a : Place), s.LimbRule (.modulusSwitch p dst a) p dst [a]
    (fun k labs lab => ∃ u, labs = [u] ∧ u.form = 1 ∧ u.t = k.t ∧ 1 ≤ u.polys ∧ u.polys ≤ 3 ∧ 1 ≤ u.level ∧ (u.repr = true → k.active = true) ∧
      budgetCause k lab = none ∧ lab = { resultBase labs none (s.part p).rooms.length with
        level := u.level - 1, scale := 0, repr := u.repr
        noise := satNoise (max ((u.noise : Int) - k.lam1 u.level) (u.g + 256) + 256) })
    (fun k labs lab j q => rescaleLimb (k.modAt lab j) (k.modAt (labs.headD Label.zero) (labs.headD Label.zero).level)
      (labs.headD Label.zero).logN (labs.headD Label.zero).repr
      (s.limb (s.part p) (labs.headD Label.zero) a (srcPair (labs.headD Label.zero) lab j) q)
      (s.limb (s.part p) (labs.headD Label.zero) a (labs.headD Label.zero).level q))
    (sets := fun labs lab room => if (labs.headD Label.zero).repr then lab.inUse.filter (ownsPair (s.part p) lab room) ++
      (if ownsPair (s.part p) (labs.headD Label.zero) room (labs.headD Label.zero).level then [(labs.headD Label.zero).level] else []) else [])) ∧
  (∀ (s : State) (p : PartId) (a : Place) (n : Nat), ∃ f : Nat → RoomResult, exec (.levelDrop p a a n) s = .next (s.runOp p a f) ∧
    ∀ room u k lab, s.Sound p room [a] [u] k → checkCause (some k) [u] = none → u.form = 0 → 1 ≤ u.polys → u.polys ≤ 3 → n ≤ u.level →
      lab = { resultBase [u] none (s.part p).rooms.length with level := u.level - n, scale := u.scale, noise := u.noise, repr := u.repr } →
      budgetCause k lab = none → (f room).lab = lab ∧ (f room).runs = [] ∧ (f room).fresh = false ∧ (f room).mism = none) ∧
  (∀ (s : State) (p : PartId) (dst a : Place) (n : Nat), dst ≠ a → s.LimbRule (.levelDrop p dst a n) p dst [a]
    (fun k labs lab => ∃ u, labs = [u] ∧ u.form = 0 ∧ 1 ≤ u.polys ∧ u.polys ≤ 3 ∧ n ≤ u.level ∧ budgetCause k lab = none ∧
      lab = { resultBase labs none (s.part p).rooms.length with level := u.level - n, scale := u.scale, noise := u.noise, repr := u.repr })
    (fun _ labs lab j q => s.limb (s.part p) (labs.headD Label.zero) a (srcPair (labs.headD Label.zero) lab j) q)) ∧
  (∀ (s : State) (p : PartId) (dst a : Place) (up : Bool), s.LimbRule (.transform p dst a up) p dst [a]
    (fun k labs lab => ∃ u, labs = [u] ∧ u.form ≤ 1 ∧ (u.form = 1 → u.t = k.t) ∧ 1 ≤ u.polys ∧ u.polys ≤ 3 ∧ u.repr ≠ up ∧ k.active = true ∧
      budgetCause k lab = none ∧
      lab = { resultBase labs none (s.part p).rooms.length with level := u.level, scale := u.scale, noise := u.noise, repr := up })
    (fun k labs lab j q => (if up then nttForward else nttInverse) (k.modAt lab j) lab.logN
      (s.limb (s.part p) (labs.headD Label.zero) a (srcPair (labs.headD Label.zero) lab j) q))
    (sets := fun _ lab room => lab.inUse.filter (ownsPair (s.part p) lab room)) (q := 1)) ∧
  (∀ (s : State) (p : PartId) (dst a : Place) (code : Word), s.LimbRule (.automorphism p dst a code) p dst [a]
    (fun k labs lab => ∃ u, labs = [u] ∧ u.form ≤ 1 ∧ (u.form = 1 → u.t = k.t) ∧ u.polys = 1 ∧ k.active = true ∧
      placesOverlap dst a (128 + u.bodyBytes) = false ∧ budgetCause k lab = none ∧
      lab = { resultBase labs none (s.part p).rooms.length with level := u.level, scale := u.scale, noise := u.noise, repr := u.repr })
    (fun k labs lab j q => autoLimb (k.modAt lab j).p lab.logN (galois lab.logN code.toNat) lab.repr
      (s.limb (s.part p) (labs.headD Label.zero) a (srcPair (labs.headD Label.zero) lab j) q)) (q := 1)) ∧
  (∀ (s : State) (p : PartId) (dst a : Place) (n : Nat), ∃ f : Nat → RoomResult, exec (.levelDrop p dst a n) s = .next (s.runOp p dst f) ∧
    ∀ room u k, s.Sound p room [a] [u] k → checkCause (some k) [u] = none → u.form = 0 → 1 ≤ u.polys → u.polys ≤ 3 → u.level < n →
      (f room).runs = [] ∧ (f room).fresh = true ∧ (f room).lab = (resultBase [u] none (s.part p).rooms.length).ended 0x0B) ∧
  (∀ (s : State) (p : PartId) (dst a : Place), ∃ f : Nat → RoomResult, exec (.rescale p dst a) s = .next (s.runOp p dst f) ∧
    ∀ room u k, s.Sound p room [a] [u] k → checkCause (some k) [u] = none → u.form = 0 → 1 ≤ u.polys → u.polys ≤ 3 → u.level = 0 →
      (f room).runs = [] ∧ (f room).fresh = true ∧ (f room).lab = (resultBase [u] none (s.part p).rooms.length).ended 0x0B)

/-- In each room with a sound operand in coefficient representation within its budget: IMPORT turns each word into lane form and poisons the object NONCANONICAL when a word is not below its prime; EXPORT turns each word back, with the comparison of the check limb. EXPORT of a poisoned object runs too and is not compared; both keep the label but for BODY_BYTES. CHECK of copies that agree and compare soundly leaves the object as it is, of copies that differ poisons it BAD_LABEL, of a form 1 object whose T is not its key set's FORM_MISMATCH. RELABEL writes the lower of the two NOISE values (a higher one is no relabel, log 13). RE_DEAL gives the object the named layout, or FORM_MISMATCH for one that its form does not permit; COMPACT sets LIMBS to LEVEL + 1 and keeps the words of the limbs in use. (R31, R32, R53, R64, R69, R70, R76, R79, R80, R85, R87, R268.) -/
def Obligations.ConversionsAndCopies : Prop :=
  (∀ (s : State) (p : PartId) (o : Place), ∃ f : Nat → RoomResult, exec (.import_ p o) s = .next (s.runOp p o f) ∧
    ∀ room u k, s.Sound p room [o] [u] k → checkCause (some k) [u] = none → u.form ≤ 1 → u.repr = false → (u.form = 1 → u.t = k.t) →
      budgetCause k u = none →
      (f room).runs = convertRuns s room o (objPieces s (s.part p) k u o) toLane ∧ (f room).mism = none ∧
      (f room).lab = (if (objPieces s (s.part p) k u o).any (fun e => (wordsOf (s.spanBytes e.2)).any (fun w => decide (e.1.p ≤ w)))
        then { u.sized (s.part p).rooms.length with poison := true, cause := 0x01 } else u.sized (s.part p).rooms.length)) ∧
  (∀ (s : State) (p : PartId) (o : Place), ∃ f : Nat → RoomResult, exec (.export_ p o) s = .next (s.runOp p o f) ∧
    (∀ room u k, s.Sound p room [o] [u] k → checkCause (some k) [u] = none → u.form ≤ 1 → u.repr = false → (u.form = 1 → u.t = k.t) →
      budgetCause k u = none →
      (f room).runs = convertRuns s room o (objPieces s (s.part p) k u o) fromLane ∧ (f room).lab = u.sized (s.part p).rooms.length ∧ (f room).fresh = false ∧
      (f room).mism.isSome = (compareObject k u (s.limb (s.part p) u o)).isSome) ∧
    (∀ room u k, s.labelAt (s.part p) room o = { lab := u, one := true, ok := true } → u.poison = true → exportable (s.part p) u = true →
      (s.part p).ksOf u = some k → (f room).runs = convertRuns s room o (objPieces s (s.part p) k u o) fromLane ∧
      (f room).lab = u.sized (s.part p).rooms.length ∧ (f room).fresh = false ∧ (f room).mism = none)) ∧
  (∀ (s : State) (p : PartId) (o : Place) (copies : List (List Byte)), copies = (s.part p).rooms.map (fun r => s.spanBytes (o.labelSpan r)) →
    ∃ f : Nat → RoomResult, exec (.check p o) s = .next (s.runOp p o f) ∧
      (∀ room, copiesAgree copies = false → (f room).runs = [] ∧ (f room).fresh = true ∧ (f room).lab.poison = true ∧ (f room).lab.cause = 0x04) ∧
      (∀ room k, copiesAgree copies = true → (labelIn (copies.headD []) (s.part p).rooms.length).ok = true →
        (labelOf (copies.headD [])).poison = false → (labelOf (copies.headD [])).repr = false →
        (s.part p).ksOf (labelOf (copies.headD [])) = some k → checkCause (some k) [labelOf (copies.headD [])] = none →
        ((labelOf (copies.headD [])).form = 1 → (labelOf (copies.headD [])).t = k.t) → (f room).runs = [] ∧ (f room).fresh = false ∧
        (f room).silent = true ∧ (f room).lab = labelOf (copies.headD []) ∧
        (f room).mism.isSome = (compareObject k (labelOf (copies.headD [])) (s.limb (s.part p) (labelOf (copies.headD [])) o)).isSome) ∧
      (∀ room k, copiesAgree copies = true → (labelIn (copies.headD []) (s.part p).rooms.length).ok = true →
        (labelOf (copies.headD [])).poison = false → (s.part p).ksOf (labelOf (copies.headD [])) = some k →
        (labelOf (copies.headD [])).form = 1 → (labelOf (copies.headD [])).t ≠ k.t →
        (f room).runs = [] ∧ (f room).fresh = true ∧ (f room).lab.poison = true ∧ (f room).lab.cause = 0x05)) ∧
  (∀ (s : State) (p : PartId) (o : Place) (noise : Nat), ∃ f : Nat → RoomResult, exec (.relabel p o noise) s = .next (s.runOp p o f) ∧
    ∀ room u, s.labelAt (s.part p) room o = { lab := u, one := true, ok := true } → u.poison = false → (s.part p).wrongT u = false →
      (f room).lab = { u with noise := min noise u.noise } ∧ (f room).runs = [] ∧ (f room).fresh = false ∧ (f room).mism = none) ∧
  (∀ (s : State) (p : PartId) (dst a : Place), ∃ f : Nat → RoomResult, exec (.compact p dst a) s = .next (s.runOp p dst f 3) ∧
    ∀ room u lab, s.labelAt (s.part p) room a = { lab := u, one := true, ok := true } → u.poison = false → u.form ≤ 1 → (s.part p).wrongT u = false →
      lab = ({ u with limbs := u.level + 1, cause := 0 } : Label).resized (s.part p).rooms.length →
      (f room).fresh = false ∧ (f room).mism = none ∧
      (f room).Is (s.part p) room lab (fun j q => s.limb (s.part p) u a (if u.check = true ∧ j = u.level + 1 then u.limbs else j) q)) ∧
  (∀ (s : State) (p : PartId) (dst a : Place) (layout : Fin 3) (home : Nat), home < (s.part p).rooms.length →
    ∃ f : Nat → RoomResult, exec (.reDeal p dst a layout home) s = .next (s.runOp p dst f 3) ∧
    ∀ room u lab, s.labelAt (s.part p) room a = { lab := u, one := true, ok := true } → u.poison = false → u.form ≤ 3 → (s.part p).wrongT u = false →
      lab = ({ u with layout := layout, home := if layout.val = 1 then home else 0, cause := 0 } : Label).resized (s.part p).rooms.length →
      (layoutFits u.form layout = true → (f room).lab = lab ∧ (f room).fresh = false ∧ (f room).mism = none ∧
        (f room).runs = (s.copyRuns (s.part p) u lab a room (List.range u.limbs ++ (if u.check then [u.limbs] else []))).1) ∧
      (layoutFits u.form layout = false → (f room).runs = [] ∧ (f room).fresh = true ∧ (f room).lab = lab.ended 0x05))

/-- With the twiddle sets that it needs valid, the entries and their first tiles there and no stack of a place at level 4, in each room whose operand is sound and whose next entry's key serves it: the result is in evaluation representation with two polynomials and NOISE max(NOISE, G + 512) + 256, CHECK clear under a key set without a check prime; polynomial 0 is the switched part plus c0 (after the automorphism for a rotation), polynomial 1 the switched part (plus c1 for a relinearisation); the entry is taken and the block notes the key. A rotation by g = 1 takes no entry and copies the words with their label. Without its entry it waits. A kind not in R127 names no key switch of its own (log 26). (R127, R128, R101, R130, R70, R74, R80, R92, R93, R122, R139.) -/
def Obligations.KeySwitchesFollowTheFivePhases : Prop :=
  (∀ (s : State) (p : PartId) (dst a : Place) (kind : Nat) (w : Word) (c : Instr),
    ((c = .relinearise p dst a ∧ kind = 0 ∧ w = 0) ∨ (c = .rotate p dst a w ∧ kind = 1) ∨ (c = .conjugate p dst a ∧ kind = 1 ∧ w = 0x80000000) ∨
      (c = .keySwitch p dst a kind w ∧ kind ≤ 2)) →
    s.opHot p [dst, a] = false → s.setsValid p (fun room => switchNeed (s.labelAt (s.part p) room a).lab (s.switchPlan p room a kind w.toNat
      (if consumes kind (s.labelAt (s.part p) room a).ring w.toNat then (s.room room).keyEntries.head? else none) (s.groupAt p a kind w.toNat 0))) = true →
    s.entriesThere p (fun room => if consumes kind (s.labelAt (s.part p) room a).ring w.toNat then 1 else 0) = true → s.tilesThere p →
    ∃ (f : Nat → RoomResult) (g : Nat → State → State), exec c s = .next (s.runTaking p dst f g (2 ^ 25) 0) ∧
      (∀ room l k e rest u, s.Sound p room [a] [l] k → (s.room room).keyEntries = e :: rest → s.Served p l kind w.toNat e u →
        consumes kind (s.labelAt (s.part p) room a).ring w.toNat = true → l.form ≤ 1 → (l.form = 1 → l.t = k.t) →
        l.polys = (if kind = 0 then 3 else 2) → k.active = true → budgetCause k (switchLabel l k (s.part p).rooms.length) = none →
        (∀ t, g room t = t.consume p room e rest true) ∧ (f room).fresh = false ∧
        (f room).Is (s.part p) room (switchLabel l k (s.part p).rooms.length) (fun j q =>
          let res := switchLabel l k (s.part p).rooms.length
          let acc := s.keyProduct (s.part p) { u with ents := s.groupAt p a kind w.toNat 0 }
            (raiseDigits k u.hdr l.logN l.level res.check (s.switchInput (s.part p) k l a kind (galois l.logN w.toNat)))
          List.zipWith (laneAdd (k.modAt res j))
            ((modDown u.hdr res.logN res.level res.check (if q = 0 then acc.1 else acc.2)).getD (res.useIndex j) [])
            (if q = 0 then s.addend0 (s.part p) k l a kind (galois l.logN w.toNat) j else s.addend1 (s.part p) k l a kind j))) ∧
      (∀ room l k, s.Sound p room [a] [l] k → kind = 1 → consumes 1 (s.labelAt (s.part p) room a).ring w.toNat = false → l.form ≤ 1 →
        (l.form = 1 → l.t = k.t) → l.polys = 2 →
        (∀ t, g room t = t) ∧ (f room).fresh = false ∧ (f room).mism = none ∧
        (f room).Is (s.part p) room l (fun j q => s.limb (s.part p) l a j q))) ∧
  (∀ (s : State) (p : PartId) (dst a : Place) (w : Word) (c : Instr), (c = .rotate p dst a w ∨ c = .keySwitch p dst a 1 w) →
    s.entriesThere p (fun room => if consumes 1 (s.labelAt (s.part p) room a).ring w.toNat then 1 else 0) = false →
    ∃ t : State, exec c s = .next t ∧ t.mem = s.mem ∧ (∀ r, (t.room r).keyEntries = (s.room r).keyEntries)) ∧
  (∀ (x : Room) (e : KeyEntry) (rest : List KeyEntry), (x.takeEntry e rest true).keyEntries = rest ∧
    (x.takeEntry e rest true).window = { x.window with read := x.window.read ++ e.ids } ∧
    (∀ b i, x.block = some b → e.key = some i → ∃ c, (x.takeEntry e rest true).block = some c ∧ c.taken = b.taken + 1 ∧ c.keysUsed = b.keysUsed ++ [i]))

/-- Once the KEY streams have read what they can of its entries, HOISTED_ROTATE of 1 to 64 codes gives in each room, code after code, a key switch whose digits were raised before the automorphism; streams that have read the entries already read no more. ROTATE_ACCUMULATE gives one result with NOISE raised by 256·⌈log2 of the number of codes⌉ and takes the entry of every code that needs one. PIN copies each room's share of the evaluation or look-up key in effect there from its stack to its attic at the offset, changes no other byte, and lists the pin with the key's epoch and the rooms; UNPIN removes it at once when no room has a boundary to pass, else marks it. Keys of different ALPHA or SPECIAL in one group are the model's choices (logs 25, 80). (R133, R137, R138, R118, R120, R70, R139, R161, R233, R459.) -/
def Obligations.RotationGroupsAndPins : Prop :=
  (∀ (s u : State) (p : PartId) (dsts : List Place) (a : Place) (codes : List Word), 1 ≤ codes.length → codes.length ≤ 64 → dsts.length = codes.length →
    s.opHot p (a :: dsts) = false → u = s.pulled p (s.groupEntries p a codes) → u.entriesThere p (s.groupEntries p a codes) = true → u.tilesThere p →
    u.setsValid p (u.hoistedNeed p a codes) = true →
    exec (.hoistedRotate p dsts a codes) s = .next ((u.opRooms p).foldl (fun t room =>
      ((List.zip dsts (u.groupCodes p room a codes)).foldl (u.hoistedStep p room a) t).countOp room) u)) ∧
  (∀ (s : State) (p : Nat) (n : Nat → Nat), s.entriesThere p n = true → s.pulled p n = s) ∧
  (∀ (s t : State) (p room i : Nat) (a dst : Place) (w : Word) (e : KeyEntry) (l : Label) (k : KeySet) (u : KeyUse),
    s.Sound p room [a] [l] k → s.Served p l 1 w.toNat e u →
    consumes 1 (s.labelAt (s.part p) room a).ring w.toNat = true → l.form ≤ 1 → (l.form = 1 → l.t = k.t) → l.polys = 2 → k.active = true →
    budgetCause k (switchLabel l k (s.part p).rooms.length) = none →
    ∃ r : RoomResult, s.hoistedStep p room a t (dst, w, some e, i) =
        ((t.consume p room e ((s.room room).keyEntries.drop (i + 1)) true).performRoom p room dst r).draw (2 ^ 25) ∧
      r.fresh = false ∧ r.Is (s.part p) room (switchLabel l k (s.part p).rooms.length) (fun j q =>
        let res := switchLabel l k (s.part p).rooms.length
        let acc := s.keyProduct (s.part p) { u with ents := s.entriesAt p (fun _ => some i) }
          (autoDigits l.logN (galois l.logN w.toNat) (raiseDigits k u.hdr l.logN l.level res.check (s.coeffLimb (s.part p) k l a 1)))
        List.zipWith (laneAdd (k.modAt res j))
          ((modDown u.hdr res.logN res.level res.check (if q = 0 then acc.1 else acc.2)).getD (res.useIndex j) [])
          (if q = 0 then s.addend0 (s.part p) k l a 1 (galois l.logN w.toNat) j else zeroLimb l j))) ∧
  (∀ (s u : State) (p : PartId) (dst a : Place) (codes : List Word), 1 ≤ codes.length → codes.length ≤ 64 → s.opHot p [dst, a] = false →
    u = s.pulled p (s.groupEntries p a codes) → u.entriesThere p (s.groupEntries p a codes) = true → u.tilesThere p →
    u.setsValid p (u.accumulateNeed p a codes) = true →
    ∃ (f : Nat → RoomResult) (g : Nat → State → State), exec (.rotateAccumulate p dst a codes) s = .next (u.runTaking p dst f g (2 ^ 25) 0) ∧
      (∀ room l k, u.Sound p room [a] [l] k → (u.accumulatePlan p room a codes).1.ends = false →
        (f room).lab = { switchLabel l k (u.part p).rooms.length with
          noise := satNoise ((switchLabel l k (u.part p).rooms.length).noise + 256 * clog2 codes.length) } ∧
        (f room).runs = (u.accumulateRoom p room a (u.accumulatePlan p room a codes).2 (f room).lab k).runs) ∧
      (∀ room t, g room t = ((u.room room).keyEntries.take (u.groupEntries p a codes room)).foldl (fun v e => v.consume p room e
        ((u.room room).keyEntries.drop (u.groupEntries p a codes room)) (!(u.accumulatePlan p room a codes).1.ends)) t)) ∧
  (∀ (s : State) (p : PartId) (i off home : Nat) (ep : BitVec 32) (share : Nat → Nat),
    (∀ room, room ∈ s.opRooms p → (s.part p).pinned room i = some (ep, home, share)) → s.opRooms p ≠ [] → (s.opRooms p).Nodup → s.hotStack p = false →
    (∀ room n, room ∈ s.opRooms p → n = share (((s.part p).rooms.findIdx? (· == room)).getD 0) →
      off + n ≤ atticBytes ∧ home + 128 + n ≤ stackBytes ∧ s.spanBad { room := room, cellar := true, off := home + 128, len := n } = false) →
    ∃ t : State, exec (.pin p i off) s = .next t ∧
      (t.part p).pins = dropPins (s.part p).pins i (s.opRooms p) ++
        [{ key := if i < 4096 then i else i - 4096, epoch := ep, off := off, lut := decide (4096 ≤ i), unpin := false, rooms := s.opRooms p }] ∧
      t.mem.cellar = s.mem.cellar ∧ t.fns = s.fns ∧ (∀ q, q ≠ p.val → t.part q = s.part q) ∧
      (∀ room n j, room ∈ s.opRooms p → n = share (((s.part p).rooms.findIdx? (· == room)).getD 0) → j < n →
        Mem.byte t.mem.attic (atticKey room (off + j)) =
          (s.spanBytes { room := room, cellar := true, off := home + 128, len := n }).getD j 0) ∧
      (∀ r o, r ∉ s.opRooms p → o < 2 ^ 32 → Mem.byte t.mem.attic (atticKey r o) = Mem.byte s.mem.attic (atticKey r o))) ∧
  (∀ (s : State) (p : PartId) (room i : Nat) (h : KeyHdr), i < 4096 → ((s.part p).keyAt i).inRoom room = some h →
    (s.part p).pinned room i = some (h.epoch, h.home, h.shareBytes (max (s.part p).rooms.length 1))) ∧
  (∀ (s : State) (p : PartId) (i : Nat), s.opRooms p ≠ [] →
    (s.busyRooms p = [] → exec (.unpin p i) s = .next ((s.countOps p).setPart p { s.part p with pins := (s.part p).pins.filter (fun q => !q.isOf i) })) ∧
    (s.busyRooms p ≠ [] → exec (.unpin p i) s = .next ((s.countOps p).setPart p { s.part p with
      pins := (s.part p).pins.map (fun q => if q.isOf i then { q with unpin := true, waitRooms := s.busyRooms p } else q) })))

/-- With entries, tiles and twiddle sets there and no stack at level 4: the first part of a refresh or pack that its rule admits fixes the result's label, two polynomials in evaluation representation at level TOP less the plan's depths with the plan's scale and NOISE, and ends its block; each later part goes on, and the last one takes the entries that are left and writes the result; an entry without a usable key makes it MISSING_KEY. EXTRACT gives one sample of the key set's dimension for each position at its place; LOOK_UP gives, batch after batch, one result per table with the table's scale and the samples of R156. What the stages make of their inputs, and gadget digits, are free functions (log 27). (R143, R144, R145, R146, R148, R152, R156, R157, R158, R160, R162, R163.) -/
def Obligations.RefreshesGiveThePlansLabel : Prop :=
  (∀ (s : State) (p : PartId) (dst a : Place) (prog plan : Nat) (c : Instr) (form : Nat) (gp : Plan), (s.part p).plan prog plan = some gp →
    ((c = .approximateRefresh p dst a prog plan ∧ form = 0) ∨ (c = .exactRefresh p dst a prog plan ∧ form = 1)) →
    s.hotStack p = false → (∀ special, s.setsValid p (fun _ => switchSets gp.keyset gp.top special true) = true) → s.entriesThere p (fun _ => gp.rotCount) = true → s.tilesThere p →
    (∀ room, room ∈ s.opRooms p → (s.room room).goesOn dst = none) →
    ∃ (f : Nat → RoomResult) (n : Nat → Nat) (next : Nat → Option (Option Progress)), exec c s = .next (s.runParts p dst f n next) ∧
      ∀ room l k lab, room ∈ s.opRooms p → s.Sound p room [a] [l] k → l.form = form → l.polys = 2 → (l.form = 1 → l.t = k.t ∧ l.level = 0) →
        gp.kind = form → l.logN = gp.logN → l.keyset = gp.keyset → k.active = true →
        ((s.room room).keyEntries.take gp.rotCount).any (entryUnusable (s.part p) gp.keyset) = false →
        lab = planLabel ((s.part p).planBase form gp l.check (resultBase [l] (some 2) (s.part p).rooms.length)) gp → budgetCause k lab = none →
        lab.level = gp.landing ∧ lab.repr = true ∧ lab.polys = 2 ∧ lab.noise = satNoise (max gp.outNoise (128 * gp.logN + 512)) ∧
        lab.scale = (if form = 0 then gp.outScale else 0) ∧ (f room).lab = lab ∧ (f room).inner = true ∧ (f room).runs = [] ∧ (f room).fresh = false ∧
        ∃ g, next room = some (some g) ∧ g.dst = dst ∧ g.part = 1 ∧ g.lab = lab) ∧
  (∀ (s : State) (p : PartId) (dst a sec : Place) (prog plan : Nat) (gp : Plan), (s.part p).plan prog plan = some gp →
    s.hotStack p = false → (∀ special, s.setsValid p (fun _ => switchSets gp.keyset gp.top special true) = true) → s.entriesThere p (fun _ => gp.rotCount) = true → s.tilesThere p →
    (∀ room, room ∈ s.opRooms p → (s.room room).goesOn dst = none) →
    ∃ (f : Nat → RoomResult) (n : Nat → Nat) (next : Nat → Option (Option Progress)),
      exec (.pack p dst a sec prog plan) s = .next (s.runParts p dst f n next) ∧
      ∀ room l m k k2 lab, room ∈ s.opRooms p → s.Sound p room [a, sec] [l, m] k → (s.part p).ksOf m = some k2 →
        packRule { gp with outDepth := 0 } k ((s.part p).planBase 0 { gp with outDepth := 0 } true
          (resultBase [l, m] (some 2) (s.part p).rooms.length)) [l, m] = .go lab →
        ((s.room room).keyEntries.take gp.rotCount).any (entryUnusable (s.part p) gp.keyset) = false →
        lab.polys = 2 ∧ lab.repr = true ∧ lab.level = gp.top - gp.inDepth - gp.midDepth ∧ lab.scale = gp.outScale ∧
        (f room).lab = lab ∧ (f room).inner = true ∧ (f room).runs = [] ∧ (f room).fresh = false ∧
        ∃ g, next room = some (some g) ∧ g.dst = dst ∧ g.part = 1 ∧ g.lab = lab) ∧
  (∀ (s : State) (p : PartId) (dst a src : Place) (prog plan last : Nat) (c : Instr) (gp pl : Plan), (s.part p).plan prog plan = some gp →
    (((c = .approximateRefresh p dst a prog plan ∨ c = .exactRefresh p dst a prog plan) ∧ src = a ∧ last = 2 ∧ pl = gp) ∨
      (c = .pack p dst a src prog plan ∧ last = 1 ∧ pl = { gp with outDepth := 0 })) →
    s.hotStack p = false → (∀ special, s.setsValid p (fun _ => switchSets gp.keyset gp.top special true) = true) → s.tilesThere p →
    (∀ room, room ∈ s.opRooms p → ∃ g, (s.room room).goesOn dst = some g ∧ ((s.part p).ksOf (s.labelAt (s.part p) room src).lab).isSome = true ∧
      gp.rotCount - g.words.headD 0 ≤ (s.room room).keyEntries.length) →
    ∃ (f : Nat → RoomResult) (n : Nat → Nat) (next : Nat → Option (Option Progress)), exec c s = .next (s.runParts p dst f n next) ∧
      ∀ room g k, room ∈ s.opRooms p → (s.room room).goesOn dst = some g → (s.part p).ksOf (s.labelAt (s.part p) room src).lab = some k →
        g.cause = none → n room = pl.partEntries g last ∧
        (((s.room room).keyEntries.take (pl.partEntries g last)).any (entryUnusable (s.part p) gp.keyset) = true →
          (f room).runs = [] ∧ (f room).fresh = true ∧ (f room).lab = g.lab.ended 0x0E ∧ (f room).inner = decide (g.part ≠ last)) ∧
        (((s.room room).keyEntries.take (pl.partEntries g last)).any (entryUnusable (s.part p) gp.keyset) = false →
          (f room).lab = g.lab ∧ (f room).fresh = false ∧
          (g.part = last → next room = some none ∧ (f room).inner = false ∧ n room = gp.rotCount - g.words.headD 0 ∧
            (f room).runs = ownRuns (s.part p) g.lab room (stageLimbs (4 * gp.kind + last) (s.stageInputs room pl k g []
              (s.stageKeys (s.part p) k g.lab.check ((s.room room).keyEntries.take (n room)) room)) k g.lab))) ∧
        (g.part < last → (f room).inner = true ∧ (f room).runs = [] ∧
          ∃ h, next room = some (some h) ∧ h.dst = dst ∧ h.part = g.part + 1 ∧ h.lab = g.lab)) ∧
  (∀ (tag : Nat) (inputs : List (List Nat)) (k : KeySet) (l : Label) (e : Nat × Nat × List Nat) (w : Nat), e ∈ stageLimbs tag inputs k l → e.1 ≠ l.limbs → 0 < (k.modAt l e.1).p → w ∈ e.2.2 → w < (k.modAt l e.1).p) ∧
  (∀ (s : State) (p : PartId) (dst a : Place) (positions : List Nat), positions ≠ [] → s.opHot p [dst, a] = false →
    s.setsValid p (fun room => extractNeed (s.part p) (s.labelAt (s.part p) room a).lab
      (s.extractPlan p room a positions (s.entriesAt p (fun _ => some 0)))) = true → s.entriesThere p (fun _ => 1) = true → s.tilesThere p →
    ∃ (f : Nat → RoomResult) (g : Nat → State → State), exec (.extract p dst a positions) s = .next (s.runTaking p dst f g 0 (2 ^ 25)) ∧
      ∀ room l k q e rest u lab, s.Sound p room [a] [l] k → k.lweP = some q → (s.part p).keyset l.keyset = some k →
        (s.room room).keyEntries = e :: rest → s.Served p { l with level := 0 } 2 1 e u → l.form ≤ 1 →
        extractRule k (extractBase [{ lab := l, one := true, ok := true }] k.lweDim positions.length (s.part p).rooms.length) [l] = .go lab →
        (∀ t, g room t = t.takeEntries p room 1 true) ∧ (f room).fresh = false ∧ (f room).lab = lab ∧ lab.form = 2 ∧
          lab.count = positions.length % 2 ^ 32 ∧ lab.dim = k.lweDim % 2 ^ 16 ∧
          (f room).runs.map (·.1) = ((List.range positions.length).filter (fun i => (s.part p).roomAt (lab.sampleRoom (s.part p).rooms.length i) == room)).map
            (lab.sampleOff (s.part p).rooms.length)) ∧
  (∀ (s : State) (p : PartId) (dsts : List Place) (a : Place) (lut : Nat) (tables : List Place), 1 ≤ tables.length → tables.length ≤ 4 →
    dsts.length = tables.length → s.hotStack p = false →
    ∃ (f : Nat → List RoomResult) (g : Nat → State → State), exec (.lookUp p dsts a lut tables) s = .next (((s.opRooms p).foldl (fun t room =>
        g room (((dsts.zip (f room)).foldl (fun v e => v.performRoom p room e.1 e.2) t).countOp room)) s).draw (2 ^ 20)) ∧
      (∀ room t, (g room t).mem = t.mem ∧ (∀ r, r ≠ room → (g room t).room r = t.room r)) ∧
      ∀ room l k h i tb lab q ts, s.Sound p room [a] [l] k → l.form = 2 → k.lweP = some q → (s.room room).goesOn (dsts.headD a) = none →
        (s.room room).takesErrors = false → ((s.part p).lutAt lut).inRoom room = some h → tables[i]? = some tb →
        ts = tables.map (fun e => lutTableOf (s.tableBytes room e)) → lookUpShape (some h) ts [l] = none →
        lookUpRule (some h) ts (lutTableOf (s.tableBytes room tb)) k { l with polys := 1, poison := false, cause := 0 } [l] = .go lab →
        ∃ r, (f room)[i]? = some r ∧
          (lookUpCause q h l (lutTableOf (s.tableBytes room tb)) = none → r.lab = lab ∧ r.fresh = false ∧
            lab.scale = (lutTableOf (s.tableBytes room tb)).outScale) ∧
          (∀ c, lookUpCause q h l (lutTableOf (s.tableBytes room tb)) = some c → r.fresh = true ∧ r.lab = lab.poisonWith c) ∧
          r.runs = ((s.lookUpLeft p room a (s.lookUpAt p room dsts a lut tables)).take (s.lookUpBatch room)).map (fun n =>
            (lab.sampleOff (s.part p).rooms.length n, (lookUpSamples q h (roundKeys (leBytes 32 h.seed.toNat))
              (fun o m => wordsOf (s.spanBytes { lutSpan (s.part p) room h with off := (lutSpan (s.part p) room h).off + 4 * o, len := 4 * m }))
              (ts.map (testPoly q (2 ^ h.logNbr) (lwePrecision q l.scale))) (s.sample (s.part p) l a n)).getD i [])))

/-- In each room with sound batches that agree and a result in its budget: LWE_ADD and LWE_SUBTRACT give each sample the lane sum or difference modulo the key set's LWE prime and NOISE max + 256; LWE_MULTIPLY_BY_INTEGER multiplies each word and adds 256·log2 |c| rounded up to NOISE (c = 0: a free value of the operand's, log 24). Batches of different COUNT end with FORM_MISMATCH (the model's reading, log 28). (R71, R145, R149, R150, R31, R85.) -/
def Obligations.SampleArithmetic : Prop :=
  (∀ (s : State) (p : PartId) (dst a b : Place) (c : Instr) (op : Modulus → Nat → Nat → Nat),
    ((c = .lweAdd p dst a b ∧ op = laneAdd) ∨ (c = .lweSubtract p dst a b ∧ op = laneSub)) →
    ∃ f : Nat → RoomResult, exec c s = .next (s.runOp p dst f) ∧
      (∀ room u v k q lab, s.Sound p room [a, b] [u, v] k → k.lweP = some q → u.form = 2 → v.form = 2 → u.count = v.count → u.dim = v.dim →
        u.keyset = v.keyset → u.scale = v.scale → u.polys = v.polys → lab = { u with polys := 1, poison := false, cause := 0, noise := satNoise (max u.noise v.noise + 256) } →
        budgetCause k lab = none →
        (f room).lab = lab ∧ (f room).fresh = false ∧ (f room).mism = none ∧
        (f room).runs = ((List.range lab.count).filter (fun i => (s.part p).roomAt (lab.sampleRoom (s.part p).rooms.length i) == room)).map
          (fun i => (lab.sampleOff (s.part p).rooms.length i, List.zipWith (op q) (s.sample (s.part p) u a i) (s.sample (s.part p) v b i)))) ∧
      (∀ room u v k, s.Sound p room [a, b] [u, v] k → u.form = 2 → v.form = 2 → u.count ≠ v.count →
        (f room).runs = [] ∧ (f room).fresh = true ∧ (f room).lab.poison = true ∧ (f room).lab.cause = 0x05)) ∧
  (∀ (s : State) (p : PartId) (dst a : Place) (n : Int), ∃ f : Nat → RoomResult, exec (.lweMultiplyByInteger p dst a n) s = .next (s.runOp p dst f) ∧
    ∀ room u k q lab, s.Sound p room [a] [u] k → k.lweP = some q → u.form = 2 →
      lab = { u with polys := 1, poison := false, cause := 0, noise := if n = 0 then (Config.zeroNoise u.noise).toNat else satNoise (u.noise + ceil256 n.natAbs) } →
      budgetCause k lab = none →
      (f room).lab = lab ∧ (f room).fresh = false ∧ (f room).mism = none ∧
      (f room).runs = ((List.range lab.count).filter (fun i => (s.part p).roomAt (lab.sampleRoom (s.part p).rooms.length i) == room)).map
        (fun i => (lab.sampleOff (s.part p).rooms.length i, (s.sample (s.part p) u a i).map (laneMul q (laneConst q n)))))

/-- In a room whose vector queue issues, for 1 to 2,048 results whose spans lie in the attic and hold no error: without compress or mask, each word of the destination register from 0 is the chain's packed result, every other register word and VCOUNT stay, and an attic destination holds the same words; a mask compare writes one mask bit per element, and an attic destination holds its words; COMPRESS writes the selected elements densely, then zeros, and sets VCOUNT to their number, over more than one register too (the registers in turn: log 84); EXPAND puts the run's next element at each set mask bit and the fill elsewhere. No other room and no cellar byte changes. A VCOUNT length of 0 writes nothing. Tensor operands of unlike shapes end with FORM_MISMATCH; the last instruction of a series on tensors is followed by the result's label. (R165, R166, R167, R170, R171, R172, R174, R184, R188, R199.) -/
def Obligations.VectorChainWritesItsDestination : Prop :=
  (∀ (s : State) (r : RoomId) (v : VInstr) (n : Nat), s.vecRuns r = true → v.tensor = none → n = s.vecLen r v → 1 ≤ n → n ≤ 2048 →
    (∀ e, e ∈ v.reads r n → e.outside = false ∧ s.spanBad e = false) → (∀ c f, v.compare ≠ .mask c f) → (∀ m, v.pack ≠ .compress m) →
    (∀ o b, v.pack ≠ .block4 o b) → (∀ o, v.dstAttic = some o → o + 4 * n ≤ atticBytes) →
    ∃ t : State, exec (.vectorOperation r v) s = .next t ∧
      (∀ i, i < n → Tab.get 0 (t.room r).vregs (v.dst * 2048 + i) = BitVec.ofNat 32 ((s.vecResult r v n).1.getD i 0)) ∧
      (∀ j, j < v.dst * 2048 ∨ v.dst * 2048 + n ≤ j → Tab.get 0 (t.room r).vregs j = Tab.get 0 (s.room r).vregs j) ∧
      (t.room r).vcount = (s.room r).vcount ∧ (t.room r).lastCfg = some v ∧
      (∀ o i, v.dstAttic = some o → i < 4 * n → Mem.byte t.mem.attic (atticKey r (o + i)) = (bytesOfWords (s.vecResult r v n).1).getD i 0) ∧
      (v.dstAttic = none → t.mem = s.mem) ∧ t.mem.cellar = s.mem.cellar ∧ (∀ q, q ≠ r.val → t.room q = s.room q) ∧ t.parts = s.parts ∧ t.fns = s.fns) ∧
  (∀ (s : State) (r : RoomId) (v : VInstr) (n o : Nat) (b : Bool), s.vecRuns r = true → v.tensor = none → n = s.vecLen r v → 1 ≤ n → n ≤ 2048 → v.pack = .block4 o b →
    (∀ e, e ∈ v.reads r n → e.outside = false ∧ s.spanBad e = false) → (∀ c f, v.compare ≠ .mask c f) → v.dstAttic = none →
    o + (s.vecResult r v n).2.1.length ≤ atticBytes →
    ∃ t : State, exec (.vectorOperation r v) s = .next t ∧
      (∀ i, i < n → Tab.get 0 (t.room r).vregs (v.dst * 2048 + i) = BitVec.ofNat 32 ((s.vecResult r v n).1.getD i 0)) ∧
      (∀ i, i < (s.vecResult r v n).2.1.length → (Mem.byte t.mem.attic (atticKey r (o + i))).toNat = (s.vecResult r v n).2.1.getD i 0 % 256)) ∧
  (∀ (s : State) (r : RoomId) (v : VInstr) (n : Nat) (cmp : Fin 3) (fp : Bool), s.vecRuns r = true → v.tensor = none → n = s.vecLen r v → 1 ≤ n → n ≤ 2048 →
    v.compare = .mask cmp fp → (∀ e, e ∈ v.reads r n → e.outside = false ∧ s.spanBad e = false) → v.pack = .bypass →
    (∀ o, v.dstAttic = some o → o + 4 * ceilDiv n 32 ≤ atticBytes) →
    ∃ t : State, exec (.vectorOperation r v) s = .next t ∧
      (∀ i, i < n → (t.room r).maskBit v.dst i =
        cmpWords cmp fp (s.vecElem r { v with compare := .bypass, approx := .bypass } i) (s.srcWord r v.cmpSrc i)) ∧
      (∀ i, n ≤ i → i < 2048 → (t.room r).maskBit v.dst i = (s.room r).maskBit v.dst i) ∧
      (t.room r).vcount = (s.room r).vcount ∧ (v.dstAttic = none → t.mem = s.mem) ∧ t.mem.cellar = s.mem.cellar ∧
      (∀ o j i, v.dstAttic = some o → j < ceilDiv n 32 → i < 4 →
        Mem.byte t.mem.attic (atticKey r (o + 4 * j + i)) = (leBytes 4 (Tab.get 0 (t.room r).vregs (v.dst * 2048 + j)).toNat).getD i 0) ∧
      (∀ q, q ≠ r.val → t.room q = s.room q)) ∧
  (∀ (s : State) (r : RoomId) (src : VSrc) (m dst : Fin 32) (n : Nat), s.vecRuns r = true → src.tensors = none → 1 ≤ n → n ≤ 2048 →
    (∀ e, e ∈ src.spans r n → e.outside = false ∧ s.spanBad e = false) →
    ∃ t : State, exec (.compress r src m dst n) s = .next t ∧ (t.room r).vcount = ((List.range n).filter ((s.room r).maskBit m)).length ∧
      (∀ i, i < 2048 → Tab.get 0 (t.room r).vregs (dst * 2048 + i) =
        BitVec.ofNat 32 ((((List.range n).filter ((s.room r).maskBit m)).map (s.srcWord r src)).getD i 0)) ∧
      t.mem = s.mem ∧ (∀ q, q ≠ r.val → t.room q = s.room q)) ∧
  (∀ (s : State) (r : RoomId) (src : VSrc) (m dst : Fin 32) (n : Nat), s.vecRuns r = true → src.tensors = none → 2048 < n → (s.keptWords r src m n).length ≤ 65536 →
    (∀ e, e ∈ (List.range (ceilDiv n 2048)).flatMap (fun k => (src.piece k).spans r (min 2048 (n - 2048 * k))) → e.outside = false ∧ s.spanBad e = false) →
    ∃ t : State, exec (.compress r src m dst n) s = .next t ∧ (t.room r).vcount = (s.keptWords r src m n).length ∧
      (∀ k i, k < max 1 (ceilDiv (s.keptWords r src m n).length 2048) → i < 2048 →
        Tab.get 0 (t.room r).vregs ((dst + Fin.ofNat 32 k : Fin 32).val * 2048 + i) = BitVec.ofNat 32 ((s.keptWords r src m n).getD (2048 * k + i) 0)) ∧
      t.mem = s.mem ∧ (∀ q, q ≠ r.val → t.room q = s.room q)) ∧
  (∀ (s : State) (r : RoomId) (src fill : VSrc) (runLen : Nat) (m dst : Fin 32) (n : Nat), s.vecRuns r = true → src.tensors = none → 1 ≤ n → n ≤ 2048 →
    (∀ e, e ∈ src.spans r runLen ++ fill.spans r n → e.outside = false ∧ s.spanBad e = false) →
    ∃ t : State, exec (.expand r src runLen m fill dst n) s = .next t ∧ (t.room r).vcount = (s.room r).vcount ∧
      (∀ i, i < n → Tab.get 0 (t.room r).vregs (dst * 2048 + i) = BitVec.ofNat 32
        (if (s.room r).maskBit m i then (if (s.room r).maskRank m i < runLen then s.srcWord r src ((s.room r).maskRank m i) else 0)
         else s.srcWord r fill i)) ∧
      t.mem = s.mem ∧ (∀ q, q ≠ r.val → t.room q = s.room q)) ∧
  (∀ (s : State) (r : RoomId) (v : VInstr), s.vecRuns r = true → v.tensor = none → v.fromVcount = true → (s.room r).vcount = 0 →
    (∀ e, e ∈ v.reads r 0 → e.outside = false ∧ s.spanBad e = false) → v.dstAttic = none → v.pack = .bypass →
    ∃ t : State, exec (.vectorOperation r v) s = .next t ∧ t.mem = s.mem ∧ (t.room r).vregs = (s.room r).vregs ∧ (t.room r).vcount = 0) ∧
  (∀ (s : State) (r : RoomId) (t : TensorRef) (p : Nat) (c : Instr) (all : Bool),
    (∃ v, c = .vectorOperation r v ∧ v.tensor = some t ∧ all = true) ∨
      (∃ src m dst n, c = .compress r src m dst n ∧ src.tensors = some t ∧ all = false) ∨
      (∃ src len m fill dst n, c = .expand r src len m fill dst n ∧ src.tensors = some t ∧ all = false) →
    s.vecRuns r = true → s.ownerOf r = some p → s.opHot p (t.dst :: t.ins) = false →
    (tensorDecision (t.ins.map (s.labelAt (s.part p) r)) all).ends = true →
    exec c s = .next ((s.performRoom p r t.dst (RoomResult.ofStop (tensorDecision (t.ins.map (s.labelAt (s.part p) r)) all)
      (t.ins.map (·.labelSpan r)))).countOp r 2)) ∧
  (∀ (s u : State) (r : RoomId) (v : VInstr) (t : TensorRef) (p : Nat) (d : Decision), s.vecRuns r = true → s.ownerOf r = some p → v.tensor = some t →
    s.opHot p (t.dst :: t.ins) = false → d = tensorDecision (t.ins.map (s.labelAt (s.part p) r)) true → d.ends = false → t.last = true →
    (∀ e, e ∈ t.ins.map (·.labelSpan r) ++ v.reads r (s.vecLen r v) → s.spanBad e = false) →
    (s.room r).readsTaint (t.ins.map (·.labelSpan r) ++ v.reads r (s.vecLen r v)) = false →
    u = ((t.ins.map (·.labelSpan r)).foldl State.countRead s).vecRun r v → (u.room r).block.any (fun b => b.error.isSome || b.failed) = false →
    ∃ w : State, w = u.putLabel p r t.dst { d.lab with producer := s.producer p r } ∧
      exec (.vectorOperation r v) s = .next (w.setRoom r ((w.room r).noteOp none false t.dst))) ∧
  (∀ (ins : List LabelIn), inputCause ins = none → (∀ l, l ∈ ins → l.lab.form = 3) → shapesAgree (ins.map (·.lab)) = false →
    (tensorDecision ins true).ends = true ∧ (tensorDecision ins true).fresh = true ∧ (tensorDecision ins true).lab.cause = 0x05)

/-- In a room whose PAU queue issues, with segments that divide the words and spans inside the attic without error: each accumulator of row and segment is the sum of products of that row's words with the vector's, int8 sums wrapping at 32 bits, read before anything is written; every other attic byte, the cellar, the other rooms, partitions and functions are as before; every PAU of the room is in the named mode. An int8 step adds the four products of the words' bytes. (R43, R44, R177, R178, R179, R180, R188.) -/
def Obligations.MatrixProductsAccumulate : Prop :=
  (∀ (s : State) (r : RoomId) (m : MatOp), s.roomRuns r = true → (s.room r).queueClear 0 = true → m.tensor = none → 1 ≤ m.segs → m.words % m.segs = 0 →
    (∀ e, e ∈ [({ room := r, cellar := false, off := m.wOff, len := m.rows * m.words * (if m.bf16 then 2 else 4) } : Span),
        { room := r, cellar := false, off := m.xOff, len := m.words * (if m.bf16 then 2 else 4) }] → e.outside = false ∧ s.spanBad e = false) →
    m.yOff + 4 * m.rows * m.segs ≤ atticBytes →
    ∃ t : State, exec (.plaintextMatrixProduct r m) s = .next t ∧ (t.room r).wideShallow = (if m.wide then 15 else 0) ∧
      (∀ g row i, g < m.segs → row < m.rows → i < 4 →
        Mem.byte t.mem.attic (atticKey r (m.yOff + 4 * (g * m.rows + row) + i)) = (leBytes 4 (s.rowDot r m row g)).getD i 0) ∧
      (∀ a, (∀ i, i < 4 * m.rows * m.segs → a ≠ atticKey r (m.yOff + i)) → Mem.byte t.mem.attic a = Mem.byte s.mem.attic a) ∧
      t.mem.cellar = s.mem.cellar ∧ (∀ q, q ≠ r.val → t.room q = s.room q) ∧ t.parts = s.parts ∧ t.fns = s.fns) ∧
  (∀ (acc w x : Nat), mac8 false false acc w x = (acc + (w % 256) * (x % 256) + (w / 2 ^ 8 % 256) * (x / 2 ^ 8 % 256) +
    (w / 2 ^ 16 % 256) * (x / 2 ^ 16 % 256) + (w / 2 ^ 24 % 256) * (x / 2 ^ 24 % 256)) % 2 ^ 32)

/-- In each room with sound operands that the rule admits: ENCODE gives the plaintext polynomial of the tensor's rounded values, limb by limb in evaluation representation, once the twiddle sets of those limbs are valid; FLOOD adds the noise of the block key to polynomial 0 alone and gives NOISE max(NOISE, width) + 256 (form 1: width + τ); DRAW_SEED writes 64 bits of the expander at COEFF 0xFFFF_FFFF to the register of each dispatching room and changes nothing else; RANDOM fills the tensor of its distribution; SAMPLE_TOKEN gives per row the index of the largest score. A negative TEMP ends with FORM_MISMATCH. Log 31 and 33 name the model's choices. (R182, R274, R275, R277, R279, R281, R282, R284, R285, R92.) -/
def Obligations.EncodeNoiseAndSampling : Prop :=
  (∀ (s : State) (p : PartId) (dst a : Place) (form1 : Bool) (ks level : Nat) (scale : Int) (chk : Bool),
    ∃ f : Nat → RoomResult, exec (.encode p dst a form1 ks level scale chk) s = .next ((s.runOp p dst f 2).draw (2 ^ 18)) ∧
      ∀ room u k lab vals, s.labelAt (s.part p) room a = { lab := u, one := true, ok := true } → u.poison = false → u.form = 3 →
        (s.part p).keyset ks = some k → k.active = true → u.elements = 2 ^ k.logN →
        lab = encodeLabel k form1 ks level scale chk s.free (s.part p).rooms.length → k.covers lab = true → budgetCause k lab = none →
        vals = (s.tensor (s.part p) u a).zipIdx.map (fun e =>
          if form1 then some (encodeCoeff1 (s.free + 1 + e.2) k.t e.1) else encodeCoeff0 (s.free + 1 + e.2) scale e.1) →
        (∀ e, e ∈ vals → e.isSome = true) → (f room).fresh = false ∧ (f room).mism = none ∧
        (f room).sets = (lab.inUse.filter (ownsPair (s.part p) lab room)).map (fun j => (ks, if lab.check && j = lab.limbs then 128 else j)) ∧
        (f room).Is (s.part p) room lab (fun j _ => nttForward (k.modAt lab j) k.logN (vals.map (fun x => laneConst (k.modAt lab j) (x.getD 0))))) ∧
  (∀ (s : State) (p : PartId) (o : Place) (d : FloodOp), d.okOp = true → (∀ room, room ∈ s.opRooms p → (s.room room).noiseKey.isSome = true) →
    ∃ f : Nat → RoomResult, exec (.flood p o d) s = .next (s.runOp p o f) ∧
      ∀ room u k key lab b val, s.Sound p room [o] [u] k → checkCause (some k) [u] = none → (s.room room).noiseKey = some key → u.form ≤ 1 → (u.form = 1 → u.t = k.t) → u.polys = 2 →
        u.repr = false → ((∃ w, d = .uniform w ∧ b = 256 * w ∧ val = uniformCoeff w) ∨
          (∃ off tab, d = .gauss off ∧ s.gaussTable room off = some tab ∧ b = ceil256 tab.length ∧ val = gaussCoeff tab)) →
        lab = { u with noise := satNoise (max u.noise (if u.form = 0 then b else b + k.tau) + 256) } →
        budgetCause k lab = none → (f room).lab = lab ∧ (f room).fresh = false ∧ (f room).mism = none ∧
        (∀ e, e ∈ (f room).runs ↔ ∃ j, j ∈ u.inUse ∧ ownsPair (s.part p) u room j = true ∧ e = (u.limbOff (s.part p).rooms.length j 0,
          List.zipWith (fun w v => laneAdd (k.modAt u j) w (laneConst (k.modAt u j) v)) (s.limb (s.part p) u o j 0)
            ((List.range u.n).map (fun i =>
              let v := val (noiseBlock (roundKeys (leBytes 32 key.toNat)) i (s.room room).opIndex)
              if u.form = 1 then v * k.t else v))))) ∧
  (∀ (s : State) (p : PartId) (reg : TokenId), (s.opRooms p).Nodup → (∀ room, room ∈ s.opRooms p → (s.room room).noiseKey.isSome = true) →
    ∃ t : State, exec (.drawSeed p reg) s = .next t ∧ t.mem = s.mem ∧ t.fns = s.fns ∧ t.parts = s.parts ∧
      (∀ room key, room ∈ s.opRooms p → (s.room room).noiseKey = some key →
        (t.room room).scalars = Tab.set 0 (s.room room).scalars reg (seedBits key (s.room room).opIndex)) ∧
      (∀ room, room ∉ s.opRooms p → t.room room = s.room room)) ∧
  (∀ (s : State) (p : PartId) (dst : Place) (g : RandOp), (g.form.val = 3 → g.okOp (s.part p).rooms.length = true) →
    ∃ f : Nat → RoomResult, exec (.random p dst g) s = .next (s.runOp p dst f 2) ∧ ∀ room,
      (g.form.val = 3 → (f room).lab = g.label (s.part p).rooms.length ∧ (f room).fresh = false ∧ (f room).mism = none ∧
        (f room).runs = tensorRuns (s.part p) (g.label (s.part p).rooms.length) room g.rows) ∧
      (g.form.val ≠ 3 → (f room).runs = [] ∧ (f room).fresh = true ∧ (f room).lab.cause = 0x05)) ∧
  (∀ (g : RandOp) (r c : Nat), g.dist = 0 → c < g.dims.headD 1 →
    r < ((List.range (g.rank - 1)).map (fun i => g.dims.getD (i + 1) 1)).foldl (· * ·) 1 →
    (g.rows.getD r []).getD c 0 = fastWord g.seed g.stream 0 ((g.base.toNat + (r * g.dims.headD 1 + c)) % 2 ^ 64)) ∧
  (∀ (s : State) (p : PartId) (dst a : Place) (g : SampleOp), ∃ f : Nat → RoomResult, exec (.sampleToken p dst a g) s = .next (s.runOp p dst f 2) ∧
    ∀ room u out, s.labelAt (s.part p) room a = { lab := u, one := true, ok := true } → u.poison = false → u.form = 3 → u.rank = 2 →
      (u.elem = 0 ∨ u.elem = 5) → out = tensorLabel 6 1 [u.tdim 1] u.layout u.home (s.part p).rooms.length →
      (tempOk (dec32 g.temp.toNat) = false → (f room).runs = [] ∧ (f room).fresh = true ∧ (f room).lab.cause = 0x05) ∧
      (tempOk (dec32 g.temp.toNat) = true → (f room).lab = out ∧ (f room).fresh = false ∧ (f room).mism = none ∧
        (f room).runs = tensorRuns (s.part p) out room [(List.range (u.tdim 1)).map (fun r => word32 (bestToken ((List.range (u.tdim 0)).map (fun i =>
          tokenScore (dec32 g.temp.toNat) ((s.tensor (s.part p) u a).toArray.getD (r * u.tdim 0 + i) .nan)
            (dec32 (fastValue g.seed g.stream 4 0 0 (r * u.tdim 0 + i)))))))]))

/-- For every descriptor whose fields lie in the widths of R247, the descriptor read from its 128 bytes is the same descriptor, so that no bit of a field is dropped or lands in another field; two descriptors with the same bytes are equal; and the fields of any 128 bytes lie in their widths. (R247, R248.) -/
def Obligations.DescriptorBytesRoundTrip : Prop :=
  (∀ d : Desc, d.op < 2 ^ 8 → d.srcSpace < 2 ^ 8 → d.dstSpace < 2 ^ 8 → d.srcRoom < 2 ^ 8 → d.dstRoom < 2 ^ 8 → d.dstModule < 2 ^ 16 →
    d.srcBase < 2 ^ 64 → d.dstBase < 2 ^ 64 → d.blkLines < 2 ^ 16 → d.hostBuf < 2 ^ 16 → d.blkRows < 2 ^ 32 → d.srcPitch < 2 ^ 32 →
    d.dstPitch < 2 ^ 32 → d.idxBase < 2 ^ 64 → d.idxSpace < 2 ^ 8 → d.idxForm < 2 ^ 8 → d.token < 2 ^ 16 → d.idxCount < 2 ^ 32 →
    d.rowStride < 2 ^ 64 → d.colStride < 2 ^ 32 → d.bytes.length = 128 ∧ streamDescOf d.bytes = d) ∧
  (∀ d e : Desc, d.fits = true → e.fits = true → d.bytes = e.bytes → d = e) ∧
  (∀ b : List Byte, b.length = 128 → (streamDescOf b).fits = true)

/-- For COPY, GATHER, SCATTER, KEY_STREAM, the pantry commands, FILL, RE_PITCH, TRANSPOSE, ALIGN and a descriptor by address, when nothing keeps the descriptor waiting: the memory afterwards is that of the descriptor's run; when the run ends without a halt and with no line for another module the descriptor stands last among the channel's, the channel performs, and its number is the next. A bad descriptor halts the channel with cause BAD_DESC and faults the room's program; an empty one counts its TOKEN at once; one that must wait joins its channel's queue of four; behind a waiting entry of the stream queue, or with that queue full, it joins the stream queue with its tag; a halted channel or a room that does not dispatch takes none. (R243, R245, R247, R248, R254, R262, R263, R265, R266, R268, R299, R301.) -/
def Obligations.DescriptorsAreIssuedAndRun : Prop :=
  (∀ (s u : State) (p : Nat) (r : RoomId) (ch : ChanId) (d : Desc) (h : List Byte) (c : Instr), Issues s r ch d h u c → u.MayIssue p r ch d →
    ∃ t : State, exec c s = .next t ∧ t.mem = (u.runOf p r ch d h).st.mem ∧
      ((u.runOf p r ch d h).stop = none → (u.runOf p r ch d h).remote = [] →
        (∀ q, q ∈ (((u.runOf p r ch d h).st.room r).chan ch).issued → q.held = none) →
        ∃ i, ((t.room r).chan ch).issued = (((u.runOf p r ch d h).st.room r).chan ch).issued ++ [i] ∧ i.desc = d ∧
          i.no = (((u.runOf p r ch d h).st.room r).chan ch).nextNo ∧ i.left = 0 ∧ i.held = none ∧ i.unsent = [] ∧
          ((t.room r).chan ch).nextNo = (((u.runOf p r ch d h).st.room r).chan ch).nextNo + 1 ∧ ((t.room r).chan ch).state = .performing) ∧
      (∀ st, (u.runOf p r ch d h).stop = some st → ((t.room r).chan ch).state = .halted ∧ ((t.room r).chan ch).issued = [] ∧
        ((t.room r).chan ch).cause = st.cause)) ∧
  (∀ (s u : State) (p : Nat) (r : RoomId) (ch : ChanId) (d : Desc) (h : List Byte) (c : Instr), Issues s r ch d h u c → u.ownerOf r = some p → d.fits = true →
    (u.roomRuns r = true → ((u.room r).chan ch).hasRoom = true → u.streamWaits p r ch d = true → (u.room r).queueClear 3 = true →
      exec c s = .next (u.setRoom r (((u.room r).countOp.takeTag 3).setChan ch
        { (u.room r).chan ch with queue := ((u.room r).chan ch).queue ++ [(d, h)] }))) ∧
    (u.roomRuns r = true → ((u.room r).chan ch).state ≠ .halted →
      (u.room r).queueClear 3 = false ∨ (u.streamWaits p r ch d = true ∧ ((u.room r).chan ch).hasRoom = false) →
      exec c s = .next (u.setRoom r ((u.room r).countOp.enqueue 3 { tag := (u.room r).tagOf 3, desc := some (ch, d, h) }))) ∧
    (u.roomRuns r = false ∨ ((u.room r).chan ch).state = .halted → exec c s = .next u) ∧
    (u.streamWaits p r ch d = false → (u.room r).queueClear 3 = true → d.bad = true → exec c s = .next (u.haltChannel r ch ⟨4, 0, none⟩)) ∧
    (u.streamWaits p r ch d = false → (u.room r).queueClear 3 = true → d.bad = false → d.empty = true →
      exec c s = .next ((u.setRoom r (((u.room r).countOp.takeTag 3).signal d.token)).issueQueues r))) ∧
  (∀ (x : Room) (q : Nat) (e : QEntry), Tab.get [] (x.enqueue q e).queues q = Tab.get [] x.queues q ++ [e] ∧
    (x.enqueue q e).tagOf q = x.tagOf q + 1 ∧ ∀ o, o ≠ q → Tab.get [] (x.enqueue q e).queues o = Tab.get [] x.queues o) ∧
  (∀ (x : Room) (tok : Nat), tok ≤ 63 → Tab.get 0 (x.signal tok).tokens tok = Tab.get 0 x.tokens tok + 1 ∧
    ∀ j, j ≠ tok → Tab.get 0 (x.signal tok).tokens j = Tab.get 0 x.tokens j)

/-- For a run that has not halted, with the block inside its spaces, sources without error and rows that do not overlap: a block moved to an attic, and one moved to whole cellar lines, holds at each row and byte the source's byte as it stood when the block began, for a FILL the fill word; every other byte of both memories is as before. Transposed, word m of output line j of a tile is word j of the tile's line m, and zero where the tile is short. A pantry gather puts its piece, cut at its 32-byte boundary and completed with zeros, into the slot; a pantry scatter writes the piece's bytes, each as it stood when its piece was read. (R248, R252, R194, R266, R268, R230, R251, R228.) -/
def Obligations.BlocksMoveLineByLine : Prop :=
  (∀ (c : StreamCtx) (a : StreamRun) (b : BlockAt), a.stop = none → c.d.transposed = false → c.d.dstSpace = 0 → (c.d.op = 6 ∨ c.d.srcSpace ≤ 1) →
    b.dstRel < (a.st.part c.p).rooms.length → b.srcRel < (a.st.part c.p).rooms.length → c.overlaps b = [] → (c.d.blkRows ≤ 1 ∨ 128 * c.d.blkLines ≤ c.d.dstPitch) →
    b.dst + c.d.blkRows * c.d.dstPitch + 128 * c.d.blkLines ≤ atticBytes →
    (c.d.op ≠ 6 → b.src + c.d.blkRows * c.d.srcPitch + 128 * c.d.blkLines ≤ (if c.d.srcSpace = 1 then stackBytes else atticBytes) ∧
      ∀ i k, i < c.d.blkRows → k < c.d.blkLines → a.st.spanBad { room := (a.st.part c.p).roomAt b.srcRel, cellar := c.d.srcSpace = 1, off := b.src + i * c.d.srcPitch + k * 128, len := 128 } = false) →
    (c.moveBlock a b).stop = none ∧ (c.moveBlock a b).st.mem.cellar = a.st.mem.cellar ∧
    (∀ i m, i < c.d.blkRows → m < 128 * c.d.blkLines →
      Mem.byte (c.moveBlock a b).st.mem.attic (atticKey ((a.st.part c.p).roomAt b.dstRel) (b.dst + i * c.d.dstPitch + m)) =
        if c.d.op = 6 then (leBytes 4 c.d.fillWord.toNat).getD (m % 4) 0
        else if c.d.srcSpace = 1 then Mem.byte a.st.mem.cellar (cellarKey ((a.st.part c.p).roomAt b.srcRel) (b.src + i * c.d.srcPitch + m))
        else Mem.byte a.st.mem.attic (atticKey ((a.st.part c.p).roomAt b.srcRel) (b.src + i * c.d.srcPitch + m))) ∧
    (∀ x, (∀ i m, i < c.d.blkRows → m < 128 * c.d.blkLines → x ≠ atticKey ((a.st.part c.p).roomAt b.dstRel) (b.dst + i * c.d.dstPitch + m)) →
      Mem.byte (c.moveBlock a b).st.mem.attic x = Mem.byte a.st.mem.attic x)) ∧
  (∀ (c : StreamCtx) (a : StreamRun) (b : BlockAt), a.stop = none → c.d.transposed = false → c.d.dstSpace = 1 → (c.d.op = 6 ∨ c.d.srcSpace ≤ 1) →
    b.dstRel < (a.st.part c.p).rooms.length → b.srcRel < (a.st.part c.p).rooms.length → c.overlaps b = [] → (c.d.blkRows ≤ 1 ∨ 128 * c.d.blkLines ≤ c.d.dstPitch) →
    b.dst % 128 = 0 → c.d.dstPitch % 128 = 0 → b.dst + c.d.blkRows * c.d.dstPitch + 128 * c.d.blkLines ≤ stackBytes →
    (c.d.op ≠ 6 → b.src + c.d.blkRows * c.d.srcPitch + 128 * c.d.blkLines ≤ (if c.d.srcSpace = 1 then stackBytes else atticBytes) ∧
      ∀ i k, i < c.d.blkRows → k < c.d.blkLines → a.st.spanBad { room := (a.st.part c.p).roomAt b.srcRel, cellar := c.d.srcSpace = 1, off := b.src + i * c.d.srcPitch + k * 128, len := 128 } = false) →
    (c.moveBlock a b).stop = none ∧ (c.moveBlock a b).st.mem.attic = a.st.mem.attic ∧
    (∀ i m, i < c.d.blkRows → m < 128 * c.d.blkLines →
      Mem.byte (c.moveBlock a b).st.mem.cellar (cellarKey ((a.st.part c.p).roomAt b.dstRel) (b.dst + i * c.d.dstPitch + m)) =
        if c.d.op = 6 then (leBytes 4 c.d.fillWord.toNat).getD (m % 4) 0
        else if c.d.srcSpace = 1 then Mem.byte a.st.mem.cellar (cellarKey ((a.st.part c.p).roomAt b.srcRel) (b.src + i * c.d.srcPitch + m))
        else Mem.byte a.st.mem.attic (atticKey ((a.st.part c.p).roomAt b.srcRel) (b.src + i * c.d.srcPitch + m))) ∧
    (∀ x, (∀ i m, i < c.d.blkRows → m < 128 * c.d.blkLines → x ≠ cellarKey ((a.st.part c.p).roomAt b.dstRel) (b.dst + i * c.d.dstPitch + m)) →
      Mem.byte (c.moveBlock a b).st.mem.cellar x = Mem.byte a.st.mem.cellar x)) ∧
  (∀ (c : StreamCtx) (a : StreamRun) (b : BlockAt) (t n : Nat), a.stop = none → c.d.op ≠ 6 → c.d.dstSpace = 0 → c.d.srcSpace = 0 → c.d.blkLines = 1 →
    n = min 32 (c.d.blkRows - 32 * t) → b.dstRel < c.part.rooms.length → b.srcRel < c.part.rooms.length → 128 ≤ c.d.dstPitch →
    b.dst + (32 * t + n) * c.d.dstPitch + 128 ≤ atticBytes → b.src + (32 * t + n) * c.d.srcPitch + 128 ≤ atticBytes →
    (∀ m, m < n → c.s0.spanBad { room := c.part.roomAt b.srcRel, cellar := false, off := b.src + (32 * t + m) * c.d.srcPitch, len := 128 } = false) →
    ∀ j m i, j < n → m < 32 → i < 4 →
      Mem.byte (c.moveTile b [] a t).st.mem.attic (atticKey (c.part.roomAt b.dstRel) (b.dst + (32 * t + j) * c.d.dstPitch + 4 * m + i)) =
        if m < n then Mem.byte c.s0.mem.attic (atticKey (c.part.roomAt b.srcRel) (b.src + (32 * t + m) * c.d.srcPitch + 4 * j + i)) else 0) ∧
  (∀ (c : StreamCtx) (a : StreamRun) (k e n : Nat), c.d.op = 4 → (c.entry a k).1.stop = none → e = (c.entry a k).2 →
    n = min (bitsOf e 40 36 + 1) (32 - bitsOf e 35 0 % 32) → bitsOf e 44 41 < ((c.entry a k).1.st.part c.p).rooms.length → c.d.dstRoom < ((c.entry a k).1.st.part c.p).rooms.length →
    bitsOf e 35 0 + n ≤ stackBytes → (c.entry a k).1.st.burstBad (((c.entry a k).1.st.part c.p).roomAt (bitsOf e 44 41)) (bitsOf e 35 0) = false →
    (c.entry a k).1.st.lineLost (((c.entry a k).1.st.part c.p).roomAt (bitsOf e 44 41)) (bitsOf e 35 0) = false → c.d.dstBase + 32 * k + 32 ≤ atticBytes →
    (c.pantryStep a k).stop = none ∧ ∀ i, i < 32 →
      Mem.byte (c.pantryStep a k).st.mem.attic (atticKey (((c.entry a k).1.st.part c.p).roomAt c.d.dstRoom) (c.d.dstBase + 32 * k + i)) =
        if i < n then Mem.byte (c.entry a k).1.st.mem.cellar (cellarKey (((c.entry a k).1.st.part c.p).roomAt (bitsOf e 44 41)) (bitsOf e 35 0 + i)) else 0) ∧
  (∀ (c : StreamCtx) (a : StreamRun) (k e n : Nat), c.d.op = 5 → (c.entry a k).1.stop = none → e = (c.entry a k).2 →
    n = min (bitsOf e 40 36 + 1) (32 - bitsOf e 35 0 % 32) → bitsOf e 44 41 < ((c.entry a k).1.st.part c.p).rooms.length → c.d.srcRoom < ((c.entry a k).1.st.part c.p).rooms.length →
    bitsOf e 35 0 + n ≤ stackBytes → c.d.srcBase + 32 * k + n ≤ atticBytes →
    (c.entry a k).1.st.spanBad { room := ((c.entry a k).1.st.part c.p).roomAt c.d.srcRoom, cellar := false, off := c.d.srcBase + 32 * k, len := n } = false →
    (c.entry a k).1.st.lineLost (((c.entry a k).1.st.part c.p).roomAt (bitsOf e 44 41)) (bitsOf e 35 0) = false →
    (c.entry a k).1.st.burstBad (((c.entry a k).1.st.part c.p).roomAt (bitsOf e 44 41)) (bitsOf e 35 0) = false →
    (c.pantryStep a k).stop = none ∧ (∀ i, i < n →
      Mem.byte (c.pantryStep a k).st.mem.cellar (cellarKey (((c.entry a k).1.st.part c.p).roomAt (bitsOf e 44 41)) (bitsOf e 35 0 + i)) =
        Mem.byte (c.entry a k).1.st.mem.attic (atticKey (((c.entry a k).1.st.part c.p).roomAt c.d.srcRoom) (c.d.srcBase + 32 * k + i))) ∧
    (∀ x, (∀ i, i < n → x ≠ cellarKey (((c.entry a k).1.st.part c.p).roomAt (bitsOf e 44 41)) (bitsOf e 35 0 + i)) →
      Mem.byte (c.pantryStep a k).st.mem.cellar x = Mem.byte a.st.mem.cellar x))

/-- DESCRIPTOR_COMPLETE takes the channel's oldest performed descriptor off, frees its tags and counts its TOKEN; then what waits in the room's channels goes on. CHANNEL_HALT with a descriptor in progress, and REMOTE_ACK_TIMEOUT after 2 ms, halt the channel with their cause and drop its descriptors; a reported parity error or uncorrectable burst is stored and counted where the line lies. A stale tag leaves the list with its response, or 2 ms after it became stale and not before. KEY_TILE_RETURN frees the token of a tile whose last lane read is done, and no other. REGULATOR_SLOT refills each class's units to at most 3,840 and grants the first class with a waiting request from the pointer whose units suffice, charging 240 or 60 units; in share mode 0 a class without units may take the slack. (R131, R246, R254, R262, R263, R256, R258, R259, R301, R444.) -/
def Obligations.ChannelsCompleteHaltAndFreeTags : Prop :=
  (∀ (s : State) (r : RoomId) (ch : ChanId) (i : Issued), ((s.room r).chan ch).issued.find? Issued.performed = some i →
    ∃ t : State, exec (.descriptorComplete r ch) s = .next (t.goOn r) ∧
      ((t.room r).chan ch).issued = ((s.room r).chan ch).issued.filter (fun q => q.no != i.no) ∧
      (t.room r).tagsInFlight = (s.room r).tagsInFlight - i.tags ∧ (t.room r).tokens = ((s.room r).signal i.desc.token).tokens ∧
      (∀ q, q ≠ r.val → t.room q = s.room q) ∧ t.mem = s.mem ∧ t.parts = s.parts ∧ t.fns = s.fns) ∧
  (∀ (s : State) (r : RoomId), (∀ c, c < 16 → ((s.room r).chan c).queue = [] ∧ ∀ i, i ∈ ((s.room r).chan c).issued → i.keyAt = none ∧ i.unsent = []) →
    (∀ e, e ∈ (s.room r).queues → e.2 = []) → (s.room r).fenceWait = false → s.goOn r = s ∧ s.issueQueues r = s) ∧
  (∀ (s : State) (r : RoomId) (ch : ChanId) (cause : Fin 7) (at_ : Nat), cause ≠ 0 → ((s.room r).chan ch).issued ≠ [] →
    ∃ t : State, exec (.channelHalt r ch cause at_) s = .next t ∧ ((t.room r).chan ch).state = .halted ∧ ((t.room r).chan ch).issued = [] ∧
      ((t.room r).chan ch).cause = cause.val ∧ ((t.room r).chan ch).failAt = at_ ∧ (∀ q, q ≠ ch.val → (t.room r).chan q = (s.room r).chan q) ∧
      t.mem.attic = s.mem.attic ∧ t.mem.cellar = s.mem.cellar ∧ (cause ≠ 1 → cause ≠ 2 → t.mem = s.mem ∧ ∀ q, q ≠ r.val → t.room q = s.room q)) ∧
  (∀ (s : State) (r : RoomId) (ch : ChanId) (at_ : Nat) (i : Issued) (is : List Issued), ((s.room r).chan ch).issued = i :: is →
    ((s.haltSpan r i.desc false at_).outside = false → s.roomOk (s.haltSpan r i.desc false at_).room = true → ∃ t : State, exec (.channelHalt r ch 1 at_) s = .next t ∧
      t.spanBad (s.haltSpan r i.desc false at_) = true ∧
      (t.room (s.haltSpan r i.desc false at_).room).counters.parityErr = satInc (s.room (s.haltSpan r i.desc false at_).room).counters.parityErr) ∧
    ((s.haltSpan r i.desc true at_).outside = false → s.roomOk (s.haltSpan r i.desc true at_).room = true → ∃ t : State, exec (.channelHalt r ch 2 at_) s = .next t ∧
      t.spanBad (s.haltSpan r i.desc true at_) = true ∧
      (t.stack (s.haltSpan r i.desc true at_).room).counters.eccUncorr = satInc (s.stack (s.haltSpan r i.desc true at_).room).counters.eccUncorr)) ∧
  (∀ (s : State) (r : RoomId) (ch : ChanId) (e : TxCtx), e ∈ s.links.tx → e.room = r.val → e.chan = ch.val → e.sentAt + 2000000 ≤ s.now →
    ∃ t : State, exec (.remoteAckTimeout r ch) s = .next t ∧ ((t.room r).chan ch).state = .halted ∧ ((t.room r).chan ch).cause = 5 ∧ t.mem = s.mem) ∧
  (∀ (s : State) (r : RoomId) (k at_ : Nat), (s.room r).stale[k]? = some at_ →
    (at_ + 2000000 ≤ s.now → exec (.staleTagTimeout r k) s = .next ((s.setRoom r { s.room r with stale := (s.room r).stale.eraseIdx k }).goOn r)) ∧
    (s.now < at_ + 2000000 → exec (.staleTagTimeout r k) s = .next s) ∧
    exec (.staleResponse r k) s = .next ((s.setRoom r { s.room r with stale := (s.room r).stale.eraseIdx k }).goOn r)) ∧
  (∀ (s : State) (r : RoomId) (k : Nat),
    (k ∈ (s.room r).window.read → exec (.keyTileReturn r k) s = .next ((s.setRoom r { s.room r with window := { (s.room r).window with
      free := (s.room r).window.free ++ [k], held := (s.room r).window.held.erase k, read := (s.room r).window.read.erase k } }).goOn r)) ∧
    (k ∉ (s.room r).window.read → exec (.keyTileReturn r k) s = .next s)) ∧
  (∀ (k r : RoomId) (b pantry : Bool), (Traffic.stream r b pantry).cls k = some (if r = k then (if b then 1 else 0) else 2) ∧
    Traffic.hostCopy.cls k = some 2 ∧ Traffic.bar2.cls k = some 2 ∧ Traffic.link.cls k = some 2 ∧ Traffic.background.cls k = none ∧
    (Traffic.stream r b pantry).cost = (if pantry then 60 else 240) ∧ Traffic.hostCopy.cost = 240 ∧ Traffic.bar2.cost = 240 ∧ Traffic.link.cost = 240) ∧
  (∀ (s : State) (k : RoomId) (w z : List Traffic) (p : Nat), s.ownerOf k = some p → (s.stack k).level < 4 →
    ∃ (x : Regulator) (n : BitVec 48), exec (.regulatorSlot k w z) s = .next (s.setStack k { s.stack k with
        reg := x, counters := { (s.stack k).counters with regSlack := n } }) ∧
      (∀ j, j < 3 → Tab.get 0 x.units j = (if x.granted = some j ∧ n = (s.stack k).counters.regSlack then
          min 3840 (Tab.get 0 (s.stack k).reg.units j + 12 * (s.part p).shares.getD j 0) - ((headOf k (w ++ z) j).map Traffic.cost).getD 240
        else min 3840 (Tab.get 0 (s.stack k).reg.units j + 12 * (s.part p).shares.getD j 0))) ∧
      (∀ j, x.granted = some j → (headOf k (w ++ z) j).isSome = true ∧ x.next.val = (j + 1) % 3 ∧
        (n = (s.stack k).counters.regSlack → ((headOf k (w ++ z) j).map Traffic.cost).getD 240 ≤
          min 3840 (Tab.get 0 (s.stack k).reg.units j + 12 * (s.part p).shares.getD j 0))) ∧
      ((s.part p).shareMode ≠ 0 → n = (s.stack k).counters.regSlack) ∧ (x.granted = none → x.next = (s.stack k).reg.next))

/-- BLOCK_START takes the checkpoint of a room that may start and changes no other room. BLOCK_COMPLETE, with every command complete or the block failed and no twin to wait for, ends the block: the counter goes up by one unless the block failed (log 75), the block key is erased, the room's source is raised, the completion record stands in the ring, and no other byte of memory changes; while the stack is at level 4 the record, and with it the block's end, waits. EXCHANGE_BLOCK_RELEASE ends the block of every room at once, past rooms whose job has stopped. WAIT is issued when its count is reached modulo 2^16, else it stands in its queue, as a SIGNAL does behind it; SIGNAL adds one to its token, and what the queues then can issue goes; a FENCE ends when nothing is left before it; FENCE, BARRIER and FLAG_WAIT write what holds the room back and nothing else. JOB_START takes the entry at the ring's head, with every tile token free; with no room left it ends the job at once (log 88); JOB_COMPLETE writes its end into every copy and advances the head. Which digest terms a checkpoint gives is the model's (log 34) and is not stated. (R91, R295, R296, R298, R299, R301, R304, R306, R310, R563, R564, 95_what_each_step_holds.) -/
def Obligations.BlocksTokensAndJobs : Prop :=
  (∀ (s : State) (r : RoomId) (ex : Bool) (uses : List Nat) (p : Nat), s.ownerOf r = some p → s.mayStart p r = true →
    ∃ (t : State) (b : Block), exec (.blockStart r ex uses) s = .next t ∧ (t.room r).block = some b ∧ b.aclk = 0 ∧ b.exchange = ex ∧ b.uses = uses ∧
      b.execs = 1 ∧ b.failed = false ∧ b.checkpoint.tokens = (s.room r).tokens ∧ b.checkpoint.scalars = (s.room r).scalars ∧
      b.checkpoint.vcount = (s.room r).vcount ∧ b.checkpoint.keyEntries = (s.room r).keyEntries ∧ b.checkpoint.window = (s.room r).window ∧ b.checkpoint.progress = (s.room r).progress ∧
      (t.room r).tokens = (s.room r).tokens ∧ (t.room r).flagWait = none ∧ (∀ q, q ≠ r.val → t.room q = s.room q) ∧
      (∀ q, q ≠ p → t.part q = s.part q) ∧ t.mem = s.mem ∧ t.fns = s.fns ∧ t.hbm = s.hbm) ∧
  (∀ (s : State) (r : RoomId) (p : Nat) (b : Block), (s.room r).block = some b → s.ownerOf r = some p → (s.part p).comparesAt = false →
    (s.room r).blockDone = false → b.exchange = false → (s.room r).brk.stopped = false → (s.room r).streamsDone = true →
    (b.failed = true ∨ b.error = none ∧ (s.room r).keyHeld = false ∧ (s.room r).fenceWait = false ∧ (s.room r).allDone = true) →
    (s.recordWaits p r = true → ∃ t : State, exec (.blockComplete r) s = .next t ∧ (t.room r).block.isSome = true ∧ (t.room r).blockDone = true ∧ t.mem = s.mem) ∧
    (s.recordWaits p r = false → ∃ t : State, exec (.blockComplete r) s = .next t ∧ (t.room r).block = none ∧
      (t.room r).blockCounter = (s.room r).blockCounter + (if b.failed then 0 else 1) ∧
      (t.room r).noiseKey = none ∧ (t.room r).queues = [] ∧ (t.room r).tokens = (s.room r).tokens ∧ (t.source (48 + r)).pending = true ∧ (∀ q, q ≠ r.val → t.room q = s.room q) ∧
      (∀ q, q ≠ p → t.part q = s.part q) ∧ t.mem.attic = s.mem.attic ∧ ((s.part p).job = none → t.mem = s.mem) ∧
      (∀ j, (s.part p).job = some j →
        (∀ x, (∀ i, i < 32 → x ≠ cellarKey r (j.recordAt r (s.room r).blockCounter + i)) → Mem.byte t.mem.cellar x = Mem.byte s.mem.cellar x) ∧
        ((s.cellarWrite r (j.recordAt r (s.room r).blockCounter) (completionRecord (s.room r).blockCounter r b.status b j.jobId)).2 = true →
          ∀ i, i < 32 → Mem.byte t.mem.cellar (cellarKey r (j.recordAt r (s.room r).blockCounter + i)) =
            (completionRecord (s.room r).blockCounter r b.status b j.jobId).getD i 0) ∧
        (b.failed = true → ∃ k, (t.part p).job = some k ∧ k.failed = some (j.failed.getD 6))))) ∧
  (∀ (s : State) (p : PartId), (s.part p).rooms ≠ [] → (s.part p).rooms.Nodup → (∃ r, r ∈ (s.part p).rooms ∧ (s.room r).mayEnd = true) →
    (∀ r, r ∈ (s.part p).rooms → ((s.room r).mayEnd = true ∧ s.recordWaits p r = false) ∨ s.standsStill p r = true) →
    ∃ t : State, exec (.exchangeBlockRelease p) s = .next t ∧ t.mem.attic = s.mem.attic ∧
      (∀ r b, r ∈ (s.part p).rooms → (s.room r).block = some b → (t.room r).block = none ∧
        (t.room r).blockCounter = (s.room r).blockCounter + (if b.failed then 0 else 1)) ∧
      (∀ r, r ∉ (s.part p).rooms ∨ (s.room r).block = none → t.room r = s.room r)) ∧
  (∀ (s : State) (r : RoomId) (q : Fin 4) (tok : TokenId) (c : BitVec 16), s.roomRuns r = true → (s.room r).block.isSome = true →
    (Tab.get [] (s.room r).queues q = [] →
      ((Tab.get 0 (s.room r).tokens tok - c).toNat < 2 ^ 15 → exec (.wait r q tok c) s = .next (s.setRoom r ((s.room r).takeTag q))) ∧
      (2 ^ 15 ≤ (Tab.get 0 (s.room r).tokens tok - c).toNat →
        exec (.wait r q tok c) s = .next (s.setRoom r ((s.room r).enqueue q { tag := (s.room r).tagOf q, waitTok := some (tok, c) }))) ∧
      exec (.signal r q tok) s = .next ((s.setRoom r (((s.room r).takeTag q).signal tok)).issueQueues r)) ∧
    (Tab.get [] (s.room r).queues q ≠ [] →
      exec (.wait r q tok c) s = .next (s.setRoom r ((s.room r).enqueue q { tag := (s.room r).tagOf q, waitTok := some (tok, c) })) ∧
      exec (.signal r q tok) s = .next (s.setRoom r ((s.room r).enqueue q { tag := (s.room r).tagOf q, sigTok := some tok })))) ∧
  (∀ (s : State) (p : Nat) (r : RoomId) (q : Nat) (e : QEntry) (rest : List QEntry), Tab.get [] (s.room r).queues q = e :: rest →
    (∀ tok c, e.waitTok = some (tok, c) → s.issueHead p r q = if (Tab.get 0 (s.room r).tokens tok - c).toNat < 2 ^ 15 then
      some (s.setRoom r { s.room r with queues := Tab.set [] (s.room r).queues q rest }) else none) ∧
    (∀ tok, e.waitTok = none → e.desc = none → e.sigTok = some tok →
      s.issueHead p r q = some (s.setRoom r (({ s.room r with queues := Tab.set [] (s.room r).queues q rest } : Room).signal tok)))) ∧
  (∀ (s : State) (r : RoomId) (p : Nat), s.ownerOf r = some p → (∀ q, q < 4 → s.issueHead p r q = none) →
    ((s.room r).fenceWait = false ∨ (s.room r).allDone = false → s.issueQueues r = s) ∧
    ((s.room r).fenceWait = true → (s.room r).allDone = true → s.issueQueues r = s.setRoom r { s.room r with fenceWait := false })) ∧
  (∀ (s : State) (r : RoomId) (b : Block), (s.room r).block = some b → (s.room r).brk.stopped = false →
    exec (.fence r) s = .next (s.setRoom r { (s.room r).countOp with fenceWait := !(s.room r).allDone }) ∧
    (b.error = none → (s.room r).allDone = true → exec (.barrier r) s = .next (s.setRoom r { s.room r with
      atBarrier := true, fenceWait := false, block := some { b with exchange := true, op := b.op + 1 } })) ∧
    ((s.room r).allDone = false → exec (.barrier r) s = .next s)) ∧
  (∀ (s : State) (r : RoomId) (p : Nat) (flag : TokenId) (c : BitVec 16), (s.room r).block = none → s.ownerOf r = some p →
    exec (.flagWait r flag c) s = .next (s.setRoom r { s.room r with
      flagWait := if (Tab.get 0 (s.room r).flags flag - c).toNat < 2 ^ 15 then none else some (flag, c) })) ∧
  (∀ (s t : State) (p : PartId) (e : List Byte), s.programsRun = true → (s.part p).phase = .live → (s.part p).job = none → (s.fn (p.val + 1)).ringSet = true →
    (s.fn (p.val + 1)).jobHead ≠ (s.fn (p.val + 1)).jobTail → (s.part p).rooms ≠ [] → (s.part p).pair.state ≠ .frozen → (s.part p).pair.state ≠ .syncing →
    (s.part p).pair.switchTo = none → s.hotStack p = false → (∀ r, r ∈ (s.part p).rooms → (s.room r).block = none ∧ (s.room r).streamsDone = true) →
    s.cellarRead ((s.part p).roomAt 0) ((s.fn (p.val + 1)).ringOff + 64 * ((s.fn (p.val + 1)).jobHead.toNat % 64)) 64 = (t, some e) →
    (∀ g, s.entryStatus p e = 0 → Tab.get none (s.part p).programs (fieldOf e 0 4) = some g →
      ∃ (u : State) (j : Job), exec (.jobStart p) s = .next u ∧ (u.part p).job = some j ∧ j.program = fieldOf e 0 4 ∧ j.jobId.toNat = fieldOf e 4 4 ∧
        j.argBase = fieldOf e 8 8 ∧ j.ringBase = fieldOf e 16 8 ∧ j.ringLog2 = fieldOf e 24 1 ∧ j.irq = bitOf (fieldOf e 25 1) 0 ∧
        j.stop = bitOf (fieldOf e 25 1) 1 ∧ j.vector = fieldOf e 26 2 ∧ j.stopBlock = fieldOf e 28 6 ∧ j.failed = none ∧
        (u.fn (p.val + 1)).jobRunning = true ∧ (u.fn (p.val + 1)).jobHead = (s.fn (p.val + 1)).jobHead ∧
        (∀ r, r ∈ (s.part p).rooms → (u.room r).tokens = [] ∧ Tab.get 0 j.startBlocks r = (s.room r).blockCounter ∧
          (u.room r).window = { base := g.keyWindowBase, tiles := g.keyWindowBytes / 65536, free := List.range (g.keyWindowBytes / 65536) }) ∧
        (∀ r, r ∉ (s.part p).rooms → u.room r = s.room r) ∧ u.mem.attic = s.mem.attic ∧ u.mem.cellar = s.mem.cellar) ∧
    (s.entryStatus p e ≠ 0 → ∃ u : State, exec (.jobStart p) s = .next u ∧ (u.part p).job = none ∧
      (u.fn (p.val + 1)).jobHead = (s.fn (p.val + 1)).jobHead + 1 ∧ u.rooms = s.rooms)) ∧
  (∀ (s : State) (p : PartId), s.programsRun = true → (s.part p).phase = .live → (s.part p).job = none → (s.fn (p.val + 1)).ringSet = true →
    (s.fn (p.val + 1)).jobHead ≠ (s.fn (p.val + 1)).jobTail → (s.part p).rooms = [] → (s.part p).pair.state ≠ .frozen → (s.part p).pair.state ≠ .syncing →
    (s.part p).pair.switchTo = none → ∃ u : State, exec (.jobStart p) s = .next u ∧ (u.part p).job = none ∧
      (u.fn (p.val + 1)).jobHead = (s.fn (p.val + 1)).jobHead + 1 ∧ u.mem = s.mem ∧ u.rooms = s.rooms) ∧
  (∀ (s : State) (p : PartId) (j : Job), (s.part p).job = some j → (s.part p).phase ≠ .tearing → s.hotStack p = false → (∀ r, r ∈ (s.part p).rooms → (s.room r).block = none ∧ (s.room r).streamsDone = true ∧
      (s.room r).flagOver = true) →
    ∃ t : State, exec (.jobComplete p) s = .next t ∧ (t.part p).job = none ∧ (t.fn (p.val + 1)).jobRunning = false ∧
      (t.fn (p.val + 1)).jobHead = (if j.orphan then (s.fn (p.val + 1)).jobHead else (s.fn (p.val + 1)).jobHead + 1) ∧
      ((s.part p).pair.switchTo = none → (t.fn (p.val + 1)).raised = (s.fn (p.val + 1)).raised ++ (if j.irq = true ∧ j.vector ≤ 31 then [j.vector] else [])) ∧
      (∀ r, r ∈ (s.part p).rooms → r < 16 → j.entryOff + 56 ≤ stackBytes →
        (s.cellarWrite r (j.entryOff + 48) (leBytes 6 (j.doneBlocks s (s.part p).rooms) ++ leBytes 1 (j.failed.getD 0) ++ leBytes 1 j.cause)).2 = true →
        ∀ i, i < 8 → Mem.byte t.mem.cellar (cellarKey r (j.entryOff + 48 + i)) =
          (leBytes 6 (j.doneBlocks s (s.part p).rooms) ++ leBytes 1 (j.failed.getD 0) ++ leBytes 1 j.cause).getD i 0) ∧
      t.mem.attic = s.mem.attic ∧ (∀ f, f ≠ p.val + 1 → f ≠ 0 → t.fn f = s.fn f))

/-- WATCHDOG_EXPIRY and ROOM_ERROR start a block of a single room again from its checkpoint while it runs in its first or second execution; in the third the block is to fail, but an operand memory error or a check mismatch lets it go on with the error remembered; a memory error is stored and counted where it lies; a program fault fails it at once. In a partition that is torn down a watchdog expiry abandons the block. INSTRUCTION_PARITY_TRAP counts and retries once. PAU_RETIRE, ROOM_RETIRE, SECURITY_ENGINE_RETIRE and CORE_RETIRE retire their unit when its fault is permanent, a PAU at its room's boundary, and enter it in the repair record (core 0 and the last room halt the module); otherwise they change nothing. (R297, R303, R319, R393, R458, R459, R460, R461, R462, R463, R466, R564.) -/
def Obligations.ErrorsReplayAndRetire : Prop :=
  (∀ (s : State) (r : RoomId) (p : Nat) (b : Block), s.ownerOf r = some p → (s.room r).block = some b → b.exchange = false → s.replayHeld r = false →
    (s.watchdogDue r = true → s.torn r = true → ∃ t : State, exec (.watchdogExpiry r) s = .next t ∧ (t.room r).block = none ∧
      (∀ c, c < 16 → ((t.room r).chan c).issued = []) ∧ (∀ q, q ≠ r.val → t.room q = s.room q) ∧ t.mem = s.mem ∧ t.parts = s.parts ∧ t.fns = s.fns) ∧
    (s.watchdogDue r = false → exec (.watchdogExpiry r) s = .next s) ∧
    (s.watchdogDue r = true → s.torn r = false → b.execs < 3 → ∃ t : State, exec (.watchdogExpiry r) s = .next t ∧ s.Replayed t r b) ∧
    (s.watchdogDue r = true → s.torn r = false → 3 ≤ b.execs → ∃ t : State, exec (.watchdogExpiry r) s = .next t ∧ s.BlockFails t r b)) ∧
  (∀ (s : State) (r : RoomId) (p : Nat) (b : Block) (e : RoomEvent), s.ownerOf r = some p → (s.room r).block = some b → b.exchange = false → b.error = none →
    b.failed = false → (s.room r).brk.stopped = false → s.replayHeld r = false → s.torn r = false → e ≠ .watchdog → e ≠ .forcedMove →
    (e.isProgram = true → ∃ t : State, exec (.roomError r e) s = .next t ∧ (s.meetEvent e).BlockFails t r b) ∧
    (e.isProgram = false → b.execs < 3 → ∃ t : State, exec (.roomError r e) s = .next t ∧ (s.meetEvent e).Replayed t r b) ∧
    (e.isProgram = false → 3 ≤ b.execs → e.isData = false → ∃ t : State, exec (.roomError r e) s = .next t ∧ (s.meetEvent e).BlockFails t r b) ∧
    (3 ≤ b.execs → e.isData = true → ∃ (t : State) (c : Block), exec (.roomError r e) s = .next t ∧ (t.room r).block = some c ∧ c.failed = false ∧
      c.errSeen = true ∧ c.replays = b.replays ∧ (t.room r).channels = (s.room r).channels ∧ t.mem.attic = s.mem.attic ∧ t.mem.cellar = s.mem.cellar)) ∧
  (∀ (s : State) (e : RoomEvent), (s.meetEvent e).mem.attic = s.mem.attic ∧ (s.meetEvent e).mem.cellar = s.mem.cellar ∧
    (s.meetEvent e).parts = s.parts ∧ (s.meetEvent e).fns = s.fns ∧
    (∀ q, (s.meetEvent e).room q = { s.room q with counters := ((s.meetEvent e).room q).counters }) ∧
    (∀ q l b w, e = .atticParity q l b w → ((s.meetEvent e).room q).counters.parityErr = satInc (s.room q).counters.parityErr ∧
      (∀ m, s.lineOf q l b w = some m → m < atticBytes / 128 →
        (s.meetEvent e).spanBad { room := q, cellar := false, off := m * 128, len := 128 } = true)) ∧
    (∀ k m, e = .cellarUncorr k m → 128 * m + 128 ≤ stackBytes →
      ((s.meetEvent e).stack k).counters.eccUncorr = satInc (s.stack k).counters.eccUncorr ∧
      (s.meetEvent e).spanBad { room := k, cellar := true, off := m * 128, len := 128 } = true)) ∧
  (∀ (s : State) (r : RoomId),
    exec (.instructionParityTrap r true) s = .next (s.setRoom r { s.room r with
      refetch := 0, counters := { (s.room r).counters with ibuf := satInc (s.room r).counters.ibuf } }) ∧
    ((s.room r).refetch = 0 → exec (.instructionParityTrap r false) s = .next (s.setRoom r { s.room r with
      refetch := 1, counters := { (s.room r).counters with ibuf := satInc (s.room r).counters.ibuf } })) ∧
    (∀ p b, (s.room r).refetch ≠ 0 → s.ownerOf r = some p → (s.room r).block = some b → b.exchange = false → b.error = none → b.failed = false →
      (s.room r).brk.stopped = false → s.replayHeld r = false → s.torn r = false → b.execs < 3 → ∃ t : State, exec (.instructionParityTrap r false) s = .next t ∧ s.Replayed t r b)) ∧
  (∀ (s : State) (r : RoomId) (k : Fin 4),
    ((s.room r).kat = true → (s.room r).pauRetired.getLsbD k = false → s.roomOk r = true → (s.room r).atBoundary = true →
      ∃ t : State, exec (.pauRetire r k) s = .next t ∧ (t.room r).pauRetired = (s.room r).pauRetired ||| BitVec.ofNat 4 (2 ^ k.val) ∧
        .pau r k ∈ t.nvm.record ∧ t.gysis.degraded = true ∧ (∀ q, q ≠ r.val → t.room q = s.room q) ∧ t.mem = s.mem ∧ t.parts = s.parts) ∧
    ((s.room r).kat = false ∨ (s.room r).atBoundary = false → exec (.pauRetire r k) s = .next s)) ∧
  (∀ (s : State) (r : RoomId) (live : List Place), s.roomOk r = true → s.permanent (.room r) = true →
    (∀ p, s.ownerOf r = some p → ∀ k, k ∈ (s.part p).rooms → (s.room k).stopped = true ∧ (k = r.val ∨ (s.stack k).level < 4)) →
    ∃ t : State, exec (.roomRetire r live) s = .next t ∧ (t.room r).retired = true ∧ (t.room r).block = none ∧ (t.room r).noiseKey = none ∧ (t.room r).queues = [] ∧
      .room r ∈ t.nvm.record ∧ t.gysis.degraded = true ∧ t.gysis.replaceRequested = true ∧
      (∀ p, s.ownerOf r = some p → (t.part p).rooms = (s.part p).rooms.filter (· != r.val)) ∧
      ((∃ q, q < 16 ∧ q ≠ r.val ∧ s.roomOk q = true) → ∀ d, d ∈ roomDomains r → t.domain d = .heldOff) ∧
      ((∀ q, q < 16 → q ≠ r.val → s.roomOk q = false) → t.boot.state = .halted)) ∧
  (∀ (s : State) (r : RoomId) (live : List Place), (s.roomOk r = false ∨ s.permanent (.room r) = false) → exec (.roomRetire r live) s = .next s) ∧
  (∀ s : State, (s.sec.retired = false → s.permanent .security = true → ∃ t : State, exec .securityEngineRetire s = .next t ∧ t.sec.retired = true ∧
      .security ∈ t.nvm.record ∧ t.gysis.degraded = true ∧ t.gysis.replaceRequested = true ∧ t.mem = s.mem ∧ t.rooms = s.rooms ∧
      t.sec.entries = s.sec.entries) ∧
    (s.permanent .security = false → exec .securityEngineRetire s = .next s)) ∧
  (∀ (s : State) (c : CoreId), (s.core c).retired = false → s.permanent (.core c) = true → s.boot.state ≠ .halted →
    (c.val = 0 → ∃ t : State, exec (.coreRetire c) s = .next t ∧ t.boot.state = .halted ∧ t.mem = s.mem) ∧
    (c.val ≠ 0 → ∃ t : State, exec (.coreRetire c) s = .next t ∧ (t.core c).retired = true ∧ .core c ∈ t.nvm.record ∧
      (∀ n, (t.source n).targets.getLsbD c = false) ∧ (∀ n, (s.core c).handling = some n → (t.source n).pending = true) ∧
      (∀ d, d ≠ c.val → t.core d = s.core d) ∧ t.mem = s.mem ∧ t.rooms = s.rooms ∧
      (∀ f k, f < 17 → k < 8 → ((s.fn f).slot k).state = .running → s.roleCore (cmdRole ((s.fn f).slot k).req.op) = c.val →
        ((t.fn f).slot k).state = .done ∧ ((t.fn f).slot k).byte 16 = 6) ∧
      ((∀ f k, f < 17 → k < 8 → ((s.fn f).slot k).state ≠ .running) → s.gysis.detached = [] → t.parts = s.parts ∧ (∀ f k, (t.fn f).slot k = (s.fn f).slot k) ∧
        (s.gysis.degraded = true → s.gysis.replaceRequested = true → t.fns = s.fns)))) ∧
  (∀ (s : State) (c : CoreId), s.permanent (.core c) = false → exec (.coreRetire c) s = .next s)

/-- ROW_REMAP gives a permanently faulty row the next spare row of its bank, the 33rd asks for the bank's retirement; BANK_COPY starts the copy to the free spare bank and BANK_COPY_END, 32,768 ACLK later and not before, puts it in use; a parity error met on the way is reported and stays, and no counter of operand errors moves, and nothing is done while the attic is off. A sweep read takes the bank's next row that is not retired; a clean one changes only that position, a failing one is counted, never corrected; a forced one is counted as such. The self-test leaves every byte of its room's attic 0 without a stored error, and no other byte changed. (R201, R202, R203, R204, R205, R206, R207, R208, R209, R462.) -/
def Obligations.AtticMaintenanceKeepsTheData : Prop :=
  (∀ (s : State) (r : RoomId) (layer : Fin 3) (bank row : Nat), s.roomOk r = true → s.atticOn r = true → (s.room r).atBoundary = true → bank < 66 → row < atticRows →
    ((s.room r).layer layer).bankRetired bank = false →
    (s.permanent (.atticRow r layer bank row) = true ∨ (bank, some row) ∈ ((s.room r).layer layer).pending) →
    row ∉ Tab.get [] ((s.room r).layer layer).rowRemaps bank →
    ((Tab.get [] ((s.room r).layer layer).rowRemaps bank).length < 32 → ∃ t : State, exec (.rowRemap r layer bank row) s = .next t ∧
      t.room r = (s.room r).setLayer layer { (s.room r).layer layer with
        rowRemaps := Tab.set [] ((s.room r).layer layer).rowRemaps bank (Tab.get [] ((s.room r).layer layer).rowRemaps bank ++ [row])
        pending := ((s.room r).layer layer).pending.filter (fun e => e != (bank, some row)) } ∧
      .atticRow r layer bank row ∈ t.nvm.record ∧ (∀ q, q ≠ r.val → t.room q = s.room q) ∧ t.mem.attic = s.mem.attic ∧ t.mem.atticBad = s.mem.atticBad ∧
      ((∀ l, s.lineOf r layer bank row = some l → s.spanBad { room := r, cellar := false, off := l * 128, len := 128 } = false) → t.mem = s.mem) ∧ t.parts = s.parts ∧ t.fns = s.fns) ∧
    (32 ≤ (Tab.get [] ((s.room r).layer layer).rowRemaps bank).length → ∃ t : State, exec (.rowRemap r layer bank row) s = .next t ∧
      t.permanent (.atticBank r layer bank) = true ∧ t.rooms = s.rooms ∧ t.mem = s.mem)) ∧
  (∀ (s : State) (r : RoomId) (layer : Fin 3) (bank : Nat), s.roomOk r = true → s.atticOn r = true → (s.room r).atBoundary = true → bank < 66 →
    ((s.room r).layer layer).bankRetired bank = false → ((s.room r).layer layer).copy = none →
    (s.permanent (.atticBank r layer bank) = true ∨ (bank, none) ∈ ((s.room r).layer layer).pending) →
    (∀ k, ((s.room r).layer layer).freeSpare = some k → ∃ t : State, exec (.bankCopy r layer bank) s = .next t ∧
      t.room r = (s.room r).setLayer layer { (s.room r).layer layer with copy := some (bank, k, s.now) } ∧ .atticBank r layer bank ∈ t.nvm.record ∧
      (∀ q, q ≠ r.val → t.room q = s.room q) ∧ t.mem = s.mem ∧ t.parts = s.parts) ∧
    (((s.room r).layer layer).freeSpare = none → ∃ t : State, exec (.bankCopy r layer bank) s = .next t ∧ t.permanent (.room r) = true ∧
      t.rooms = s.rooms ∧ t.mem = s.mem)) ∧
  (∀ (s : State) (r : RoomId) (layer : Fin 3) (bank spare start : Nat), ((s.room r).layer layer).copy = some (bank, spare, start) →
    (s.now < start + s.bankCopyNs r → exec (.bankCopyEnd r layer) s = .next s) ∧
    (s.atticOn r = false → exec (.bankCopyEnd r layer) s = .next s) ∧
    (start + s.bankCopyNs r ≤ s.now → s.atticOn r = true → ∃ t : State, (s.badLinesIn r layer bank = [] → t = s) ∧ t.mem.attic = s.mem.attic ∧
      t.mem.atticBad = s.mem.atticBad ∧ t.mem.cellar = s.mem.cellar ∧ (∀ q, t.room q = s.room q) ∧ t.parts = s.parts ∧ t.fns = s.fns ∧
      exec (.bankCopyEnd r layer) s = .next (t.setRoom r ((t.room r).setLayer layer { (s.room r).layer layer with
      bankRemaps := ((s.room r).layer layer).bankRemaps ++ [(bank, spare)], rowRemaps := Tab.erase ((s.room r).layer layer).rowRemaps bank
      copy := none, pending := ((s.room r).layer layer).pending.filter (fun e => e.1 != bank) })))) ∧
  (∀ (s : State) (r : RoomId) (layer : Fin 3) (bank row : Nat) (bad : Bool),
    row = nextSweepRow (Tab.get [] ((s.room r).layer layer).rowRemaps bank) 33 (Tab.get 0 ((s.room r).layer layer).sweepRow bank) →
    (s.sweepRuns r layer bank = false → exec (.atticSweepRead r layer bank bad) s = .next s ∧ exec (.atticSweepForced r layer bank bad) s = .next s) ∧
    (s.sweepRuns r layer bank = true → ∃ t : State, exec (.atticSweepRead r layer bank bad) s = .next t ∧
      exec (.atticSweepForced r layer bank bad) s = .next (t.setRoom r { t.room r with counters := { (t.room r).counters with
        sweepForced := (t.room r).counters.sweepForced + 1 } }) ∧
      t.mem.attic = s.mem.attic ∧ t.mem.cellar = s.mem.cellar ∧ (∀ q, q ≠ r.val → t.room q = s.room q) ∧ t.parts = s.parts ∧ t.fns = s.fns ∧
      (t.room r).layers = ((s.room r).setLayer layer { (s.room r).layer layer with
        sweepRow := Tab.set 0 ((s.room r).layer layer).sweepRow bank ((row + 1) % atticRows) }).layers ∧
      (bad = false → (∀ l, s.lineOf r layer bank row = some l →
          s.spanBad { room := r, cellar := false, off := l * 128, len := 128 } = false) →
        (t.room r).counters = (s.room r).counters ∧ t.mem = s.mem) ∧
      (bad = true → (t.room r).counters = { (s.room r).counters with sweepErr := satInc (s.room r).counters.sweepErr } ∧
        (0, r.val, s.lineKey r layer bank row) ∈ t.mem.counted))) ∧
  (∀ (s : State) (r : RoomId) (failing : List (Nat × Nat × Nat)), s.roomOk r = true → (s.boot.state = .selfTest ∨ s.boot.state = .test) →
    ∃ t : State, exec (.atticSelfTest r failing) s = .next t ∧
      (∀ off, off < 2 ^ 32 → Mem.byte t.mem.attic (atticKey r off) = 0 ∧ Tab.get false t.mem.atticBad (atticKey r off) = false) ∧
      (∀ x, (∀ off, off < 2 ^ 32 → x ≠ atticKey r off) → Mem.byte t.mem.attic x = Mem.byte s.mem.attic x) ∧ t.mem.cellar = s.mem.cellar ∧
      (∀ q, q ≠ r.val → t.room q = s.room q) ∧ t.parts = s.parts)

/-- REFpb falls due in turn, is postponed while its bank is busy up to eight times, then forced, and what was postponed is made up once no request waits; RFM makes its bank busy for 160 ns. A temperature read gives the level of R232 with its hysteresis and raises the stack's source on a change; a failed readout counts as level 2, the third in a row is decided; once the level falls below 4 the partition's streams go on; one second at level 4 makes the room permanent. A sweep read marks a corrected burst for rewrite and lists a line with an uncorrectable one; a rewrite clears the corrected bursts. A calibration notes time and temperature or is retried after 1 ms, the third failure makes both pseudo-channels permanent. ROW_REPAIR, CELLAR_REPAIR SUB 3 and SUB 4 use a repair resource of the row's bank while one is left; ROW_REPAIR on a retired pseudo-channel is cancelled. PC_RETIRE starts a copy, each line that its pointer passes is written back, and PC_COPY_END ends it when its time has passed; at level 4 it stands still, and SUB 4 and a DEBUG_READ of the stack wait. Only SUB 4 changes data, in the row that it replaces (free bytes, log 4). REQUEST_AGE_LIMIT changes nothing, as every request is served as it is made (log 43). (R222, R223, R224, R231, R232, R233, R234, R235, R236, R237, R238, R239.) -/
def Obligations.CellarMaintenanceKeepsTheData : Prop :=
  (∀ (s : State) (k : RoomId) (pc bank : Nat), s.bankFree k pc bank = true →
    exec (.rfm k pc bank) s = .next (s.setStack k { s.stack k with busyUntil := Tab.set 0 (s.stack k).busyUntil (pc * 48 + bank) (s.now + 160) }) ∧
    (8 ≤ Tab.get 0 (s.stack k).postponed (pc * 48 + bank) → exec (.refreshForced k pc bank) s = .next (s.setStack k { s.stack k with
      busyUntil := Tab.set 0 (s.stack k).busyUntil (pc * 48 + bank) (s.now + 160)
      postponed := Tab.set 0 (s.stack k).postponed (pc * 48 + bank) (Tab.get 0 (s.stack k).postponed (pc * 48 + bank) - 1) })) ∧
    (∀ busy, Tab.get 0 (s.stack k).refNext pc ≠ bank → exec (.cellarRefresh k pc bank busy) s = .next s) ∧
    (∀ busy, Tab.get 0 (s.stack k).refNext pc = bank → exec (.cellarRefresh k pc bank busy) s = .next (s.setStack k
      (if busy = true ∧ Tab.get 0 (s.stack k).postponed (pc * 48 + bank) < 8 then { s.stack k with
        refNext := Tab.set 0 (s.stack k).refNext pc ((bank + 1) % 48)
        postponed := Tab.set 0 (s.stack k).postponed (pc * 48 + bank) (Tab.get 0 (s.stack k).postponed (pc * 48 + bank) + 1)
        counters := { (s.stack k).counters with refPostponed := (s.stack k).counters.refPostponed + 1 } }
      else { s.stack k with
        refNext := Tab.set 0 (s.stack k).refNext pc ((bank + 1) % 48)
        busyUntil := Tab.set 0 (s.stack k).busyUntil (pc * 48 + bank) (s.now + 160 * Tab.get 0 (s.stack k).postponed (pc * 48 + bank) + 160)
        postponed := Tab.set 0 (s.stack k).postponed (pc * 48 + bank) 0 })))) ∧
  (∀ (s : State) (k : RoomId) (o : Option Int) (c : Int), s.stackOk k = true → c = o.getD 95 →
    ∃ t : State, exec (.stackTempRead k o) s = .next (if o = none ∧ (s.stack k).tempFails = 2 then
          (t.coolStreams k (s.stack k).level).decided 0x14 3 3 true false false k 255 3 3 else t.coolStreams k (s.stack k).level) ∧ (t.stack k).level ≤ 4 ∧
      (∀ l, l < 4 → (l < (t.stack k).level ↔ ([85, 95, 100, 105].getD l 0 ≤ c ∨ l < (s.stack k).level ∧ [82, 92, 97, 102].getD l 0 ≤ c))) ∧
      (∀ v, o = some v → (t.stack k).temp = v ∧ (t.stack k).tempFails = 0 ∧ (t.stack k).failSince = none) ∧
      (o = none → (t.stack k).tempFails = (s.stack k).tempFails + 1 ∧ (t.stack k).temp = (s.stack k).temp) ∧
      ((t.stack k).level ≠ (s.stack k).level → (t.source (64 + k)).pending = true) ∧ (∀ q, q ≠ k.val → t.stack q = s.stack q) ∧ t.mem = s.mem ∧ t.parts = s.parts) ∧
  (∀ (s : State) (k : RoomId) (was : Nat), ((was < 4 ∨ 4 ≤ (s.stack k).level ∨ s.ownerOf k = none) → s.coolStreams k was = s) ∧
    (∀ p, s.ownerOf k = some p → 4 ≤ was → (s.stack k).level < 4 → s.coolStreams k was = (s.part p).rooms.foldl State.goOn s)) ∧
  (∀ (s : State) (k : RoomId) (since : Nat), s.stackOk k = true → (s.stack k).level4Since = some since → since + 1000000000 ≤ s.now →
    ∃ t : State, exec (.level4Timeout k) s = .next t ∧ t.permanent (.room k) = true ∧ t.rooms = s.rooms ∧ t.hbm = s.hbm ∧ t.mem = s.mem) ∧
  (∀ (s : State) (k : RoomId) (pc : Nat) (c u : BitVec 4) (line : Nat), s.cellarSweepRuns k pc = true →
    line = s.logicalLine k (64 * Tab.get 0 (s.stack k).sweepAt pc + pc) →
    ∃ t : State, exec (.cellarSweepRead k pc c u) s = .next t ∧ exec (.cellarSweepForced k pc c u) s = .next t ∧
      t.mem.attic = s.mem.attic ∧ t.mem.cellar = s.mem.cellar ∧ t.rooms = s.rooms ∧ t.parts = s.parts ∧ (∀ q, q ≠ k.val → t.stack q = s.stack q) ∧
      (t.stack k).sweepAt = Tab.set 0 (s.stack k).sweepAt pc ((Tab.get 0 (s.stack k).sweepAt pc + 1) % 6291456) ∧
      (line ∉ (s.stack k).lost → (∀ i, i < 4 → c.getLsbD i = true → u.getLsbD i = false → s.burstBad k (line * 128 + 32 * i) = false →
          line ∈ (t.stack k).rewrites) ∧
        (u ≠ 0 → (s.stack k).lost.length < 4096 → (t.stack k).lost = (s.stack k).lost ++ [line])) ∧
      (c = 0 → u = 0 → (∀ i, i < 4 → s.burstBad k (line * 128 + 32 * i) = false ∧ s.burstCorr k (line * 128 + 32 * i) = false) →
        (t.stack k).lost = (s.stack k).lost ∧ (t.stack k).rewrites = (s.stack k).rewrites ∧ t.gysis = s.gysis)) ∧
  (∀ (s : State) (k : RoomId) (line : Nat), (line ∉ (s.stack k).rewrites → exec (.sweepRewrite k line) s = .next s) ∧
    (s.stackBackground k = true → line ∈ (s.stack k).rewrites → ∃ t : State, exec (.sweepRewrite k line) s = .next t ∧
      t.stack k = { s.stack k with
        rewrites := (s.stack k).rewrites.filter (· != line)
        counters := { (s.stack k).counters with linesWr := (s.stack k).counters.linesWr + 1 } } ∧ t.mem.attic = s.mem.attic ∧ t.mem.cellar = s.mem.cellar ∧
      (∀ b, b ∈ burstsOf line → Tab.get 0 t.mem.ecc (cellarKey k b / 32) ≠ 1) ∧ t.rooms = s.rooms ∧ t.gysis = s.gysis)) ∧
  (∀ (s : State) (k : RoomId) (ch : Nat) (ok : Bool) (x : Calib), s.stackOk k = true → (s.stack k).level < 4 → x = Tab.get {} (s.stack k).calib ch →
    (ch < 32 → x.retryAt = none → (x.last + 64000000 ≤ s.now ∨ 5 ≤ ((s.stack k).temp - x.temp).natAbs) →
      ∃ t : State, exec (.cellarCalibration k ch ok) s = .next t ∧ s.Calibrated t k ch ok x) ∧
    (x.retryAt.isSome = true → exec (.cellarCalibration k ch ok) s = .next s) ∧
    (∀ a, x.retryAt = some a → a ≤ s.now → ∃ t : State, exec (.calibrationRetry k ch ok) s = .next t ∧ s.Calibrated t k ch ok x) ∧
    (∀ a, x.retryAt = some a → s.now < a → exec (.calibrationRetry k ch ok) s = .next s)) ∧
  (∀ (s : State) (k : RoomId) (c : CellRow), s.stackBackground k = true → (s.room k).atBoundary = true → c.ok = true →
    (s.permanent (.cellarRow k c.pc c.sid c.bank c.row) = true ∨ c ∈ (s.stack k).pendingRows) →
    ((s.stack k).pcRetired = some c.pc ∨ (∃ st, (s.stack k).pcCopy = some (c.pc, st)) → exec (.rowRepair k c.pc c.sid c.bank c.row) s = .next
      (s.setStack k { s.stack k with pendingRows := (s.stack k).pendingRows.filter (· != c) })) ∧
    ((s.stack k).pcRetired ≠ some c.pc → (∀ st, (s.stack k).pcCopy ≠ some (c.pc, st)) → ∃ t : State, exec (.rowRepair k c.pc c.sid c.bank c.row) s = .next t ∧ c ∉ (t.stack k).pendingRows ∧ t.mem.attic = s.mem.attic ∧
      t.mem.cellar = s.mem.cellar ∧ t.rooms = s.rooms ∧ (∀ q, q ≠ k.val → t.stack q = s.stack q) ∧
      ((s.stack k).canRepair c = true → (k.val, { row := c, state := 0 }) ∈ t.nvm.repairs ∧
        Tab.get 0 (t.stack k).pprUsed (bankIndex c.pc (c.sid * 16 + c.bank)) = Tab.get 0 (s.stack k).pprUsed (bankIndex c.pc (c.sid * 16 + c.bank)) + 1 ∧
        ∀ l, l ∈ rowLines c → ∀ b, b ∈ burstsOf (s.logicalLine k l) → t.burstBad k b = false) ∧
      ((s.stack k).canRepair c = false → t.permanent (.pseudo k c.pc) = true))) ∧
  (∀ (s : State) (k : RoomId) (pc : Nat), s.stackBackground k = true → pc < 64 → (s.room k).atBoundary = true → s.permanent (.pseudo k pc) = true →
    ((s.stack k).pcRetired = none → (s.stack k).pcCopy = none → ∃ t : State, exec (.pcRetire k pc) s = .next t ∧ (t.stack k).pcCopy = some (pc, s.now) ∧ .pseudo k pc ∈ t.nvm.record ∧
      t.mem = s.mem ∧ t.rooms = s.rooms) ∧
    (∀ q, q ≠ pc → ((s.stack k).pcRetired = some q ∨ ∃ st, (s.stack k).pcCopy = some (q, st)) → (s.stack k).pcRetired ≠ some pc →
      (∀ st, (s.stack k).pcCopy ≠ some (pc, st)) → ∃ t : State, exec (.pcRetire k pc) s = .next t ∧ t.permanent (.room k) = true ∧ t.hbm = s.hbm ∧ t.mem = s.mem)) ∧
  (∀ (s : State) (k : RoomId) (pc start : Nat), (s.stack k).pcCopy = some (pc, start) →
    ((s.now < start + s.pcCopyNs ∨ s.stackBackground k = false) → exec (.pcCopyEnd k) s = .next s) ∧
    (start + s.pcCopyNs ≤ s.now → s.stackBackground k = true → ∃ t : State, exec (.pcCopyEnd k) s = .next t ∧ (t.stack k).pcRetired = some pc ∧ (t.stack k).pcCopy = none ∧
      (t.source (64 + k)).pending = true ∧ t.mem = s.mem ∧ t.rooms = s.rooms)) ∧
  (∀ (s : State) (k : RoomId) (pc start : Nat), (s.stack k).pcCopy = some (pc, start) →
    (s.stackBackground k = false → s.copyLines k = s.setStack k { s.stack k with pcCopy := some (pc, start + 10) }) ∧
    (s.stackBackground k = true → (s.copyLines k).mem.attic = s.mem.attic ∧ (s.copyLines k).mem.cellar = s.mem.cellar ∧ (s.copyLines k).rooms = s.rooms ∧
      ((s.copyLines k).stack k).pcCopy = (s.stack k).pcCopy ∧
      ∀ l b, l ∈ s.badLinesOf k pc (s.pcPtr start s.now) (s.pcPtr start (s.now + 10)) → b ∈ burstsOf l → (s.copyLines k).burstBad k b = false)) ∧
  (∀ (s : State) (k : RoomId), exec (.requestAgeLimit k) s = .next s) ∧
  (∀ (s : State) (k : SlotId) (r : Nat) (c : CellRow), s.runs 0 k 0x0601 → r = (s.cmd 0 k).field 1 1 → c = (s.cmd 0 k).cellRow → r < 16 → s.roomOk r = true →
    c.ok = true →
    ((s.cmd 0 k).field 0 1 = 3 → s.boot.state = .ready → exec (.cellarRepairSoft 0 k) s = .next (if (s.stack r).canRepair c then
      (s.setStack r { s.stack r with pendingRows := if c ∈ (s.stack r).pendingRows then (s.stack r).pendingRows else (s.stack r).pendingRows ++ [c] }).endCmd 0 k 0 0 0 []
      else s.endCmd 0 k stNoResource (((s.fn 0).slot k).field 20 4) (((s.fn 0).slot k).field 24 4) [])) ∧
    ((s.cmd 0 k).field 0 1 = 4 → s.boot.state = .test →
      ((s.stack r).canRepair c = false → exec (.cellarRepairHard 0 k) s =
        .next (s.endCmd 0 k stNoResource (((s.fn 0).slot k).field 20 4) (((s.fn 0).slot k).field 24 4) [])) ∧
      ((s.stack r).canRepair c = true → 4 ≤ (s.stack r).level → exec (.cellarRepairHard 0 k) s = .next s) ∧
      ∃ u : State, ((s.stack r).canRepair c = true → (s.stack r).level < 4 → exec (.cellarRepairHard 0 k) s = .next (u.endCmd 0 k 0 0 0 [])) ∧ (r, { row := c, state := 1 }) ∈ u.nvm.repairs ∧
        u.mem.attic = s.mem.attic ∧ u.rooms = s.rooms ∧
        ∀ x, (∀ l i, l ∈ rowLines c → i < 128 → x ≠ cellarKey r (s.logicalLine r l * 128 + i)) → Mem.byte u.mem.cellar x = Mem.byte s.mem.cellar x)) ∧
  (∀ (s : State) (f : FnId) (k : SlotId) (r off n a : Nat), s.runs f k 0x0805 → checkDebugRead s f false (s.cmd f k) = 0 → r = (s.cmd f k).field 0 1 →
    off = (s.cmd f k).field 8 8 → n = (s.cmd f k).field 16 4 → s.hostRange f ((s.cmd f k).field 2 2) ((s.cmd f k).field 24 8) n true = some a →
    ((s.cmd f k).field 1 1 = 1 → exec (.debugRead f k) s = .next ((s.emit (.hostWrite f a (sliceZ (s.room r).scalarBytes off n))).endCmd f k 0
      (progressPosition (ceilDiv n 4096)) (ceilDiv n 4096) (leBytes 4 (sliceZ (s.room r).scalarBytes off n).length))) ∧
    ((s.cmd f k).field 1 1 = 3 → 4 ≤ (s.stack r).level → exec (.debugRead f k) s = .next s) ∧
    ((s.cmd f k).field 1 1 = 3 → (s.stack r).level < 4 → (∀ i, i < n → s.spanBad { room := r, cellar := true, off := off + i, len := 1 } = false) →
      ∃ u : State, exec (.debugRead f k) s = .next (u.endCmd f k 0 (progressPosition (ceilDiv n 4096)) (ceilDiv n 4096) (leBytes 4 n)) ∧
        u.out = .hostWrite f a ((List.range n).map (fun i => Mem.byte s.mem.cellar (cellarKey r (off + i)))) :: s.out ∧
        u.mem.attic = s.mem.attic ∧ u.mem.cellar = s.mem.cellar ∧ u.rooms = s.rooms ∧ u.parts = s.parts))

/-- A pending, enabled source that nothing holds back is taken by the core of its mask with the greatest running priority above it, the lower on ties: MEPC, MCAUSE, the handler address and the pending bit as R346 and R348 say; a handling core takes none, and nothing becomes pending. MRET returns to MEPC. A directory request keeps the block's value but for a store, reserves for an LR, leaves one owner after a write, and counts a parity error as R361 says. The owner's writeback updates L2, any other is discarded. The DRBG reseeds after 2^20 requests or 1 s, stops on a health failure and comes back 10 ms later; requests that waited are then served; a block key goes to every room of the partition that is in the block and holds none, and a room that comes to the block later gets the same one. The entropy is free (log 3); what the DRBG answers follows from it. (R271, R272, R273, R287, R343, R344, R346, R348, R359, R360, R361, R485.) -/
def Obligations.InterruptsCachesAndEntropy : Prop :=
  (∀ (s : State) (n c : Nat), s.gysis.intc.globalEnable = true → (s.source n).pending = true → (s.source n).enabled = true →
    (∀ m, m ≠ n → (s.source m).pending = false) → s.heldBack (n / 32) = false → c < 4 →
    (s.source n).targets.getLsbD c = true → (s.core c).retired = false → (s.core c).handling = none → (s.core c).mie = true → n < (s.core c).running →
    (∀ d, d < 4 → (s.source n).targets.getLsbD d = true → (s.core d).retired = false → (s.core d).handling = none → (s.core d).mie = true → n < (s.core d).running →
      (s.core d).running < (s.core c).running ∨ (s.core d).running = (s.core c).running ∧ c ≤ d) →
    ∃ t : State, exec .interruptDelivery s = .next t ∧ (t.core c).handling = some n ∧ (t.core c).mepc = (s.core c).pc ∧
      (t.core c).mcause = BitVec.ofNat 64 (2 ^ 63 + 16 + n) ∧ (t.core c).pc = (s.source n).handler &&& ~~~3 ∧ (t.source n).pending = false ∧
      (t.source n).enabled = true ∧ (n / 32 ≠ 0 → Tab.get 0 s.gysis.intc.holdoff (n / 32) ≠ 0 →
        Tab.get none t.gysis.intc.heldUntil (n / 32) = some (s.now + (Tab.get 0 s.gysis.intc.holdoff (n / 32)).toNat * 1000)) ∧
      (∀ d, d ≠ c → t.core d = s.core d) ∧ t.mem = s.mem ∧ t.rooms = s.rooms ∧ t.fns = s.fns) ∧
  (∀ s : State, ∃ t : State, exec .interruptDelivery s = .next t ∧ (∀ c, (s.core c).handling.isSome = true → t.core c = s.core c) ∧
    (∀ n, (t.source n).pending = true → (s.source n).pending = true) ∧ t.mem = s.mem ∧ t.rooms = s.rooms ∧ t.parts = s.parts ∧ t.fns = s.fns) ∧
  (∀ (s : State) (c : CoreId), ((s.core c).handling.isSome = true →
      exec (.mret c) s = .next (s.setCore c { s.core c with handling := none, pc := (s.core c).mepc, accessFault := false })) ∧
    ((s.core c).handling = none → exec (.mret c) s = .next s)) ∧
  (∀ (s : State) (g : Fin 8) (a : Nat), Tab.get none s.gysis.intc.heldUntil g = some a → exec (.holdoffExpiry g) s = .next (if a ≤ s.now then
    s.setIntc { s.gysis.intc with heldUntil := Tab.set none s.gysis.intc.heldUntil g none } else s)) ∧
  (∀ (s : State) (c : CoreId) (addr : Nat) (x : CacheBlock), x = s.cache (addr / 64) → (∀ o, x.owner = some o → ∀ d, d ≠ o → x.mesi d = .invalid) →
    (∀ lr, ∃ t : State, exec (.directoryRequest c addr (.read lr) .ok) s = .next t ∧ (t.cache (addr / 64)).value = x.value ∧ (t.cache (addr / 64)).mesi c ≠ .invalid ∧
      (lr = true → (t.cache (addr / 64)).reserved.getLsbD c = true) ∧ (∀ b, b ≠ addr / 64 → t.cache b = s.cache b) ∧ t.mem = s.mem) ∧
    (∀ w, ∃ t : State, exec (.directoryRequest c addr (.own w) .ok) s = .next t ∧ (t.cache (addr / 64)).value = w.getD x.value ∧ (t.cache (addr / 64)).owner = some c.val ∧
      (t.cache (addr / 64)).mesi c = .modified ∧ (∀ d, d ≠ c.val → (t.cache (addr / 64)).mesi d = .invalid) ∧ (∀ b, b ≠ addr / 64 → t.cache b = s.cache b)) ∧
    (∃ t : State, exec (.directoryRequest c addr .agentRead .ok) s = .next t ∧ (t.cache (addr / 64)).value = x.value ∧
      (∀ b, b ≠ addr / 64 → t.cache b = s.cache b)) ∧
    (∀ v, ∃ t : State, exec (.directoryRequest c addr (.agentWrite v) .ok) s = .next t ∧ (t.cache (addr / 64)).value = v ∧
      (∀ d, (t.cache (addr / 64)).mesi d = .invalid) ∧ (t.cache (addr / 64)).reserved = 0 ∧ (∀ b, b ≠ addr / 64 → t.cache b = s.cache b)) ∧
    (∀ k p, p = .dirty ∨ p = .directory → ∃ t : State, exec (.directoryRequest c addr k p) s = .next t ∧ t.gysis.blocks = s.gysis.blocks ∧
      t.gysis.cacheParity = satInc s.gysis.cacheParity ∧ (sourceAssigned (10 + x.owner.getD c) = true → (t.source (10 + x.owner.getD c)).pending = true) ∧
      ((∃ lr, k = .read lr) ∨ (∃ w, k = .own w) → (t.core c).accessFault = true) ∧ (k = .agentRead ∨ (∃ v, k = .agentWrite v) → t.gysis.agentError = true) ∧ t.mem = s.mem) ∧
    (∀ k, ∃ t : State, exec (.directoryRequest c addr k .clean) s = .next t ∧ t.gysis.cacheParity = satInc s.gysis.cacheParity ∧
      t.gysis.hist = s.gysis.hist ∧ (∀ b, b ≠ addr / 64 → t.cache b = s.cache b))) ∧
  (∀ (s : State) (c : CoreId) (addr : Nat) (x : CacheBlock), x = s.cache (addr / 64) →
    (x.owner = some c.val → x.mesi c = .modified → ∃ t : State, exec (.evictionWriteback c addr) s = .next t ∧ (t.cache (addr / 64)).l2 = some (Tab.get 0 x.l1Data c) ∧
      (t.cache (addr / 64)).l2Dirty = true ∧ (t.cache (addr / 64)).owner = none ∧ (t.cache (addr / 64)).mesi c = .invalid ∧
      (t.cache (addr / 64)).value = x.value ∧ (∀ b, b ≠ addr / 64 → t.cache b = s.cache b)) ∧
    (x.owner ≠ some c.val → exec (.evictionWriteback c addr) s = .next s)) ∧
  (∀ s : State, s.sec.drbg = .running →
    exec .drbgReseed s = .next (if 2 ^ 20 ≤ s.sec.drbgRequests ∨ s.sec.drbgSeeded + 1000000000 ≤ s.now then
      { s with sec := { s.sec with
        drbgWork := some ((s.sec.drbgWork.getD {}).update (drbgDf (beBytes 32 (Config.entropy s.sec.drbgNext).toNat ++
          beBytes 32 (Config.entropy (s.sec.drbgNext + 1)).toNat)))
        drbgRequests := 0, drbgSeeded := s.now, drbgNext := s.sec.drbgNext + 2 } } else s) ∧
    ∃ t : State, exec .drbgHealthFail s = .next t ∧
      t.sec = { s.sec with drbg := .halted, drbgFailedAt := s.now, drbgRequests := 0, drbgFails := 0, drbgWork := none } ∧ (t.source 14).pending = true ∧ t.mem = s.mem ∧ t.rooms = s.rooms ∧ t.parts = s.parts ∧ t.fns = s.fns) ∧
  (∀ (s : State) (ok : Bool), s.sec.drbg = .halted →
    (s.now < s.sec.drbgFailedAt + 10000000 → exec (.drbgReinstantiate ok) s = .next s) ∧
    (s.sec.drbgFailedAt + 10000000 ≤ s.now → ∃ t : State, exec (.drbgReinstantiate ok) s = .next t ∧ t.mem = s.mem ∧ (ok = false ∨ s.sec.keyQueue = [] → t.rooms = s.rooms) ∧
      (ok = true → s.domain 118 = .on → t.sec.keyQueue = []) ∧
      (ok = true → t.sec.drbg = .running ∧ t.sec.drbgFails = 0 ∧ t.sec.drbgSeeded = s.now ∧ (s.programsRun = true → t.links.bootId.isSome = true)) ∧
      (ok = false → s.sec.drbgFails < 2 → t = { s with sec := { s.sec with drbgFails := s.sec.drbgFails + 1, drbgFailedAt := s.now } }) ∧
      (ok = false → 2 ≤ s.sec.drbgFails → t.sec.drbg = .failed ∧ t.gysis.degraded = true ∧ t.gysis.replaceRequested = true ∧
        ∃ e, e ∈ t.gysis.ledger.todo ∧ e.code = 0x34))) ∧
  (∀ (s : State) (p : PartId) (r : Nat) (rest : List Nat), s.keyAsks p = r :: rest → s.sec.retired = false →
    (∀ k, s.keyDonor p r = some k → exec (.blockKeyRequest p) s = .next (s.deliverKey p (s.blockNo p r) k)) ∧
    (s.keyDonor p r = none → s.domain 118 = .on → s.sec.drbg ≠ .running ∨ (s.part p).isFollower = true → exec (.blockKeyRequest p) s = .next (s.holdKeys p)) ∧
    (s.keyDonor p r = none → s.domain 118 = .on → s.sec.drbg = .running → (s.part p).isFollower = false →
      ∃ t : State, exec (.blockKeyRequest p) s = .next t ∧ t.sec.drbgNext = (s.generate 32).sec.drbgNext ∧
        t.sec.drbgWork = (s.generate 32).sec.drbgWork ∧ t.sec.drbgRequests = (s.generate 32).sec.drbgRequests ∧
        t.rooms = (s.deliverKey p (s.blockNo p r) s.nextKey).rooms ∧ t.parts = (s.deliverKey p (s.blockNo p r) s.nextKey).parts ∧ t.mem = s.mem ∧ t.fns = s.fns)) ∧
  (∀ (s : State) (p : PartId) (n : Nat) (k : BitVec 256), ∃ t : State, t = s.deliverKey p n k ∧
    (∀ q, q ∈ (s.part p).rooms → (s.room q).noiseKey = none → s.blockNo p q = n → t.room q = { s.room q with noiseKey := some k, keyHeld := false }) ∧
    (∀ q, q ∉ (s.part p).rooms ∨ (s.room q).noiseKey.isSome = true ∨ s.blockNo p q ≠ n → t.room q = s.room q) ∧
    ((∀ e, e ∈ (s.part p).blockKeys → e.1 ≠ n) → (t.part p).blockKeys = (s.part p).blockKeys ++ [(n, k)])) ∧
  (∀ (s : State) (p : PartId), ∃ t : State, t = s.holdKeys p ∧ p.val ∈ t.sec.keyQueue ∧ (∀ q, q ∈ s.keyAsks p → t.room q = { s.room q with keyHeld := true }) ∧
    (∀ q, q ∉ s.keyAsks p → t.room q = s.room q) ∧ t.mem = s.mem ∧ t.parts = s.parts) ∧
  (∀ (s : State) (g : Drbg), s.sec.drbgWork = some g → s.reseedDue = false → s.nextKey = BitVec.ofNat 256 (fieldOf (g.bytes 32) 0 32) ∧
    s.generate 32 = { s with sec := { s.sec with drbgWork := some (g.next 32), drbgRequests := s.sec.drbgRequests + 1 } }) ∧
  (∀ s : State, s.reseedDue = true → s.generate 32 = s.reseed.generate 32 ∧ s.nextKey = s.reseed.nextKey) ∧
  (∀ s : State, s.domain 118 = .on → s.domainNeeded 118 = false → ∃ t : State, exec .securityDomainIdleOff s = .next t ∧ t.domain 118 = .off ∧
    (∀ d, d ≠ 118 → t.domain d = s.domain d) ∧ t.mem = s.mem ∧ t.rooms = s.rooms ∧ t.parts = s.parts)

/-- An uncorrectable codeword is counted and asks for a retransmission; of any other, each sequenced flit advances ACK only when it is the next one, and the ACK of its header empties the replay buffer up to it. A NAK or a stall of 2 µs resends every unacknowledged flit in order. An attempt with four good lanes ends in step 7, ACTIVE when both ends are numbered, HELD for another SYSTEM_ID; a failed one backs off below min(2^a, 64) ms (a free value, log 56). Back-off expiry, signal and loss of signal begin an attempt. A retired lane leaves the map of R418, a confirmed map is applied; a retired port keeps no flit. A link-control flit gives delay and offset. No command touches another port, except that a retired port's flits queue elsewhere. (R404, R413, R415, R416, R417, R418, R419, R420, R421, R428, R430, R510.) -/
def Obligations.PortsTrainReplayAndRetire : Prop :=
  (∀ (s : State) (n : PortId) (cw : List (BitVec 10)), (s.port n).state = .active → cw.length = 448 →
    (codewordOf cw = none → ∃ t : State, exec (.codewordReceive n cw) s = .next t ∧ (t.port n).rxNak = true ∧ (t.port n).rxAck = (s.port n).rxAck ∧
      (t.port n).cwUncorr = satInc (s.port n).cwUncorr ∧ (t.port n).unacked = (s.port n).unacked ∧ s.LinkFrame t n) ∧
    (∀ h fs bad, codewordOf cw = some (h, fs, bad) → ∃ t : State, exec (.codewordReceive n cw) s = .next t ∧
      (t.port n).rxAck = ((s.port n).takeSlots h fs).rxAck ∧ (t.port n).rxNak = ((s.port n).takeSlots h fs).rxNak ∧
      (t.port n).flitsRx = ((s.port n).takeSlots h fs).flitsRx ∧
      (∀ i, (s.port n).unacked.findIdx? (fun e => e.1 == h.ack) = some i →
        (∃ l, (t.port n).unacked = (s.port n).unacked.drop (i + 1) ++ l) ∧ (t.port n).retries = 0) ∧ s.LinkFrame t n)) ∧
  (∀ (x : Port) (seq : BitVec 12) (vc : Nat),
    (seq = x.rxAck + 1 → (x.takeFlit seq vc).rxAck = seq ∧ (x.takeFlit seq vc).rxNak = false ∧ (x.takeFlit seq vc).flitsRx = x.flitsRx + 1 ∧
      Tab.get 0 (x.takeFlit seq vc).occupied vc = Tab.get 0 x.occupied vc + 1) ∧
    (seq ≠ x.rxAck + 1 → seq ≠ x.rxAck → (seq - x.rxAck).toNat < 2048 → x.takeFlit seq vc = { x with rxNak := true }) ∧
    (seq = x.rxAck ∨ 2048 ≤ (seq - x.rxAck).toNat → x.takeFlit seq vc = x)) ∧
  (∀ (s : State) (n : PortId), (s.port n).state = .active → (s.port n).unacked ≠ [] →
    ((s.port n).nakSeen = true → (s.port n).nakIgnoredUntil ≤ s.now → ∃ t : State, exec (.nakRetransmit n) s = .next t ∧ s.Resent t n) ∧
    ((s.port n).ackAt + 2000 ≤ s.now → ∃ t : State, exec (.ackStallRetransmit n) s = .next t ∧ s.Resent t n) ∧
    (s.now < (s.port n).ackAt + 2000 → exec (.ackStallRetransmit n) s = .next s)) ∧
  (∀ (s : State) (n : PortId) (lanes : BitVec 8) (q : PortIdentity), (s.port n).state = .training → (s.port n).trainStep = 2 → s.linksRun = true →
    s.now < (s.port n).trainStart + 20000000 →
    ((s.port n).chooseMap (lanes &&& ~~~(s.port n).laneRetired) = none →
      ∃ t : State, exec (.trainingAttempt n lanes q) s = .next t ∧ s.AttemptFailed t n) ∧
    (∀ map, (s.port n).chooseMap (lanes &&& ~~~(s.port n).laneRetired) = some map → ∃ t : State, exec (.trainingAttempt n lanes q) s = .next t ∧
      (t.port n).laneMap = map ∧ (t.port n).partner = some q ∧ (t.port n).attempt = 0 ∧ s.LinkFrame t n ∧
      (∀ r, s.links.route = some r → q.numbered = true → r.systemId ≠ q.systemId → (t.port n).state = .held) ∧
      (∀ r, s.links.route = some r → q.numbered = true → r.systemId = q.systemId → (t.port n).state = .active ∧ (t.port n).trainStep = 7 ∧
        (t.source (96 + n)).pending = true) ∧
      ((s.links.route = none ∨ q.numbered = false) → (t.port n).state = .training ∧ (t.port n).trainStep = 7 ∧
        ∀ v, v < 8 → Tab.get 0 (t.port n).credits v = q.freeBufs.getD v 0))) ∧
  (∀ (x : Port) (m : BitVec 8), ((lanesIn m).length < 4 → x.chooseMap m = none) ∧ (7 ≤ (lanesIn m).length → x.chooseMap m = some m) ∧
    (4 ≤ (lanesIn m).length → (lanesIn m).length < 7 → ∃ k, x.chooseMap m = some k ∧ (lanesIn k).length = 4 ∧ k &&& m = k)) ∧
  (∀ (s : State) (n : PortId), (s.port n).state = .training → (s.port n).trainStep = 2 →
    ((s.port n).trainStart + 20000000 ≤ s.now → ∃ t : State, exec (.trainingTimeout n) s = .next t ∧ s.AttemptFailed t n) ∧
    (s.now < (s.port n).trainStart + 20000000 → exec (.trainingTimeout n) s = .next s)) ∧
  (∀ (s : State) (n : PortId), s.linksRun = true →
    (((s.port n).state = .training ∨ (s.port n).state = .down) → (s.port n).trainStep = 0 → (s.port n).backoffUntil ≤ s.now →
      ∃ t : State, exec (.trainingBackoffExpiry n) s = .next t ∧ s.Attempting t n false) ∧
    (∀ lanes, (s.port n).state = .down → 4 ≤ (lanesIn lanes).length → ∃ t : State, exec (.signalDetect n lanes) s = .next t ∧ s.Attempting t n false) ∧
    ((s.port n).linked = true ∨ (s.port n).state = .held → ∃ t : State, exec (.lossOfSignal n) s = .next t ∧ s.Attempting t n true)) ∧
  (∀ (s : State) (n : PortId) (l : Fin 8), (s.port n).state = .active → (s.port n).laneRetired.getLsbD l = false → s.permanent (.lane n l) = true →
    ∃ t : State, exec (.laneRetire n l) s = .next t ∧ (t.port n).laneRetired = (s.port n).laneRetired ||| BitVec.ofNat 8 (2 ^ l.val) ∧
      (t.port n).newMap = (s.port n).chooseMap (~~~((s.port n).laneRetired ||| BitVec.ofNat 8 (2 ^ l.val))) ∧ (t.port n).newMapConfirmed = false ∧
      (t.port n).laneMap = (s.port n).laneMap ∧ (t.port n).unacked = (s.port n).unacked ∧ s.LinkFrame t n) ∧
  (∀ (s : State) (n : PortId) (m : BitVec 8), (s.port n).newMap = some m → (s.port n).state = .active →
    ((s.port n).newMapConfirmed = false → exec (.laneMapApply n) s = .next s) ∧
    ((s.port n).newMapConfirmed = true → ∃ t : State, exec (.laneMapApply n) s = .next t ∧ (t.port n).laneMap = m ∧ (t.port n).newMap = none ∧
      (t.port n).unacked = (s.port n).unacked ∧ s.LinkFrame t n)) ∧
  (∀ (s : State) (n : PortId), ((s.port n).tapPending = true → (s.port n).linked = true →
      exec (.tapChangeApply n) s = .next (s.setPort n { s.port n with tapPending := false })) ∧
    ((s.port n).tapPending = false → exec (.tapChangeApply n) s = .next s)) ∧
  (∀ (s : State) (n : PortId), ((s.port n).state ≠ .retired → s.retireCause n = none → exec (.portRetire n) s = .next s) ∧
    (∀ c, (s.port n).state ≠ .retired → s.retireCause n = some c → ∃ t : State, exec (.portRetire n) s = .next t ∧ (t.port n).state = .retired ∧
      (t.port n).unacked = [] ∧ (t.port n).queued = [] ∧ t.gysis.degraded = true ∧ (t.source (96 + n)).pending = true ∧
      (∀ m, m ≠ n.val → (t.port m).state = (s.port m).state) ∧ t.mem = s.mem ∧ t.rooms = s.rooms ∧ t.parts = s.parts)) ∧
  (∀ (s : State) (n : PortId) (c : LinkCtl), (s.port n).linked = true → ∃ t : State, exec (.linkControlFlit n c) s = .next t ∧ s.LinkFrame t n ∧
    Tab.get (0, 0) t.links.stamps n = (c.txTime, s.timestamp) ∧
    (c.rxEcho ≠ 0 → (t.port n).delay = (((c.rxAt : Int) - c.rxEcho) - ((c.txTime : Int) - s.timestamp)) / 2 ∧
      (t.port n).offset = (((c.rxAt : Int) - c.rxEcho) + ((c.txTime : Int) - s.timestamp)) / 2) ∧
    (c.rxEcho = 0 → (t.port n).delay = (s.port n).delay ∧ (t.port n).offset = (s.port n).offset) ∧
    (c.tapRequest = true → (t.port n).tapPending = true) ∧
    (∀ m, c.laneMap = some m → c.laneConfirm = true → (s.port n).newMap = some m → (t.port n).newMapConfirmed = true) ∧
    (∀ m, c.laneMap = some m → c.laneConfirm = false → (lanesIn m).length = 8 ∨ (lanesIn m).length = 7 ∨ (lanesIn m).length = 4 →
      (t.port n).newMap = some m ∧ (t.port n).newMapConfirmed = true))

/-- A context for this module waits for its lines; while UNLOCKED, 1 ms too late, or out of hops it is dropped, and the last two are counted; in transit it leaves on the port of R424 with HOPS one less. A line of a context for this module is performed once its partition admits it: its enabled bytes stand in the room, no other byte of memory changes, and the attic counts the write; one for a stack at level 4 waits; a line in transit follows its context; a line of no context changes nothing. An acknowledgement entry is due 1 µs after the oldest line, its flit 1 µs after its first entry. An entry in time takes its lines off what the context and its descriptor wait for and frees their tags, and the room's streams go on; a late one is counted. Each flit taken frees its buffer. MARGIN_SWEEP records an eye; SUMMARY_SEND keeps or sends the eight values every 10 ms. (R390, R408, R409, R410, R411, R413, R424, R426, R428, R429, R496.) -/
def Obligations.FlitsAreRoutedPerformedAndAcknowledged : Prop :=
  (∀ (s : State) (n : PortId) (vc : Fin 8) (k : Fin 64) (c : Ctx), (s.port n).state = .active →
    (s.links.locked = false → exec (.contextFlit n vc k c) s = .next ((s.freeBuffer n vc).putRx { ctx := c, port := n, ctxNo := k, vc := vc, dropped := true })) ∧
    (s.links.locked = true → s.ownModule = some c.dstModule → c.originTime + 1000000 < s.timestamp →
      exec (.contextFlit n vc k c) s = .next (((s.freeBuffer n vc).putRx { ctx := c, port := n, ctxNo := k, vc := vc, dropped := true }).countDrop n)) ∧
    (s.links.locked = true → s.ownModule ≠ some c.dstModule → c.hops = 0 ∨ c.originTime + 1000000 < s.timestamp →
      exec (.contextFlit n vc k c) s = .next (((s.freeBuffer n vc).putRx { ctx := c, port := n, ctxNo := k, vc := vc, dropped := true }).countDrop n)) ∧
    (s.links.locked = true → s.ownModule = some c.dstModule → s.timestamp ≤ c.originTime + 1000000 → ∃ (t : State) (e : RxCtx),
      exec (.contextFlit n vc k c) s = .next t ∧ e ∈ t.links.rx ∧ t.rxAt n k = some e ∧ e.ctx = c ∧ e.vc = vc ∧ e.dropped = false ∧ e.fwd = none ∧ e.unacked = 0 ∧
      t.mem = s.mem ∧ t.rooms = s.rooms ∧ t.parts = s.parts ∧
      ((∀ o, o ∈ s.links.rx → o.fwd = none → RxCtx.same o.ctx c = false) → e.performed = [])) ∧
    (∀ m, s.links.locked = true → s.ownModule ≠ some c.dstModule → c.hops ≠ 0 → s.timestamp ≤ c.originTime + 1000000 →
      (s.freeBuffer n vc).choosePort c.dstModule vc none = some m → ∃ (t : State) (e : RxCtx), exec (.contextFlit n vc k c) s = .next t ∧ t.rxAt n k = some e ∧
        e.ctx = { c with hops := c.hops - 1 } ∧ e.fwd = some (m, (s.port m).nextCtx % 64, s.laneOut vc (some n.val) m) ∧ e.dropped = false ∧
        (t.port m).nextCtx = (s.port m).nextCtx + 1 ∧ Tab.get [] (t.port m).ctxs ((s.port m).nextCtx % 64) = ({ c with hops := c.hops - 1 } : Ctx).bytes ∧
        t.mem = s.mem ∧ t.rooms = s.rooms ∧ t.parts = s.parts)) ∧
  (∀ (s : State) (n : PortId) (vc : Nat), (0 < Tab.get 0 (s.port n).occupied vc → s.freeBuffer n vc = s.setPort n { s.port n with
      occupied := Tab.set 0 (s.port n).occupied vc (Tab.get 0 (s.port n).occupied vc - 1), freed := Tab.set 0 (s.port n).freed vc (Tab.get 0 (s.port n).freed vc + 1) }) ∧
    (Tab.get 0 (s.port n).occupied vc = 0 → s.freeBuffer n vc = s)) ∧
  (∀ (s : State) (n : PortId) (vc : Fin 8) (k : Fin 64) (line : Nat) (data : List Byte), (s.port n).state = .active →
    (s.lineWaits n k = true → exec (.dataFlit n vc k line data) s = .next s) ∧
    (s.rxAt n k = none → exec (.dataFlit n vc k line data) s = .next (s.freeBuffer n vc)) ∧
    (∀ e, s.rxAt n k = some e → e.dropped = true ∨ e.vc ≠ vc.val ∨ e.ctx.lines ≤ line → s.lineWaits n k = false → exec (.dataFlit n vc k line data) s = .next (s.freeBuffer n vc)) ∧
    (∀ e room, s.rxAt n k = some e → e.dropped = false → e.vc = vc.val → line < e.ctx.lines → s.timestamp ≤ e.ctx.originTime + 1000000 → e.fwd = none →
      e.ctx.space = 4 → s.remoteOk (some n.val) e.ctx (e.ctx.lineAt line) = true → data.length = 128 → room = (s.part e.ctx.dstPart).rooms.getD e.ctx.dstRoom 0 →
      ∃ t : State, exec (.dataFlit n vc k line data) s = .next t ∧ t.mem.cellar = s.mem.cellar ∧
        (∀ i, i < 128 → Mem.byte t.mem.attic (atticKey room (e.ctx.lineAt line + i)) =
          if (e.ctx.mask line).getLsbD i then data.getD i 0 else Mem.byte s.mem.attic (atticKey room (e.ctx.lineAt line + i))) ∧
        (∀ x, (∀ i, i < 128 → x ≠ atticKey room (e.ctx.lineAt line + i)) → Mem.byte t.mem.attic x = Mem.byte s.mem.attic x) ∧
        (e.ctx.flagged = false → t.parts = s.parts ∧ (∀ q, q ≠ room → t.room q = s.room q) ∧ t.room room = { s.room room with counters :=
          { (s.room room).counters with linesWr := (s.room room).counters.linesWr + BitVec.ofNat 48 (linesOf (e.ctx.lineAt line) 128).length } })) ∧
    (∀ e, s.rxAt n k = some e → e.dropped = false → e.vc = vc.val → line < e.ctx.lines → s.timestamp ≤ e.ctx.originTime + 1000000 → e.fwd = none →
      e.ctx.space = 3 ∨ e.ctx.space = 4 → s.lineWaits n k = false → s.remoteOk (some n.val) e.ctx (e.ctx.lineAt line) = false →
      ∃ t : State, exec (.dataFlit n vc k line data) s = .next t ∧ t.mem = s.mem ∧ t.rooms = s.rooms ∧ t.parts = s.parts ∧
        Tab.get 0 t.gysis.ledger.viol (if (s.part e.ctx.dstPart).present then e.ctx.dstPart + 1 else 0) =
          satInc (Tab.get 0 s.gysis.ledger.viol (if (s.part e.ctx.dstPart).present then e.ctx.dstPart + 1 else 0))) ∧
    (∀ e m q v, s.rxAt n k = some e → e.dropped = false → e.vc = vc.val → line < e.ctx.lines → s.timestamp ≤ e.ctx.originTime + 1000000 → e.fwd = some (m, q, v) →
      m ≠ n.val → (s.port m).state ≠ .retired → (s.port m).state ≠ .active → ∃ t : State, exec (.dataFlit n vc k line data) s = .next t ∧
        t.port m = { s.port m with queued := (s.port m).queued ++ [flitOf 1 v q line (sliceZ data 0 128)] } ∧ t.mem = s.mem ∧ t.rooms = s.rooms ∧ t.parts = s.parts)) ∧
  (∀ (s : State) (n : PortId) (vc : Fin 8) (k : Fin 64) (e : RxCtx), s.rxAt n k = some e → e.vc = vc.val → e.fwd = none → 0 < e.unacked →
    (s.now < e.oldest + 1000 → exec (.ackEntryTimeout n vc k) s = .next s) ∧
    (e.oldest + 1000 ≤ s.now → ∃ t : State, exec (.ackEntryTimeout n vc k) s = .next t ∧ t.rxAt n k = some { e with unacked := 0 } ∧
      t.mem = s.mem ∧ t.rooms = s.rooms ∧ t.parts = s.parts ∧
      ((s.links.acks.filter (fun a => a.module == e.ctx.srcModule)).length < 13 → t.links.acks = s.links.acks ++
        [⟨e.ctx.srcModule, ⟨e.ctx.srcRoom, e.ctx.srcChan, e.ctx.ackId, e.unacked⟩, s.now, e.ctx.originTime⟩]))) ∧
  (∀ (s : State) (m : Nat), ((∀ a, a ∈ s.links.acks → a.module = m → s.now < a.since + 1000) → exec (.ackFlitTimeout m) s = .next s) ∧
    (∀ a, a ∈ s.links.acks → a.module = m → a.since + 1000 ≤ s.now → ∃ t : State, exec (.ackFlitTimeout m) s = .next t ∧
      (t.links.acks.filter (fun b => b.module == m)).length = (s.links.acks.filter (fun b => b.module == m)).length - 14 ∧
      t.links.acks.filter (fun b => b.module != m) = s.links.acks.filter (fun b => b.module != m) ∧ t.mem = s.mem ∧ t.rooms = s.rooms ∧ t.parts = s.parts)) ∧
  (∀ (s : State) (n : PortId) (vc : Fin 8) (origin m : Nat) (e : AckEntry), (s.port n).state = .active → s.ownModule = some m →
    (s.links.tx.find? (fun x => x.room == e.srcRoom && x.chan == e.srcChan && x.ackId == e.ackId) = none →
      exec (.ackFlit n vc origin m [e]) s = .next (s.freeBuffer n vc)) ∧
    (∀ x, s.links.tx.find? (fun x => x.room == e.srcRoom && x.chan == e.srcChan && x.ackId == e.ackId) = some x →
      (x.sentAt + 1000000 < s.now → exec (.ackFlit n vc origin m [e]) s = .next ((s.freeBuffer n vc).countDrop n)) ∧
      (s.now ≤ x.sentAt + 1000000 → ∃ t : State, exec (.ackFlit n vc origin m [e]) s = .next (match s.ownerOf x.room with
          | some p => (t.releaseHeld p x.room x.chan).goOn x.room
          | none => t) ∧ t.mem = s.mem ∧ t.parts = s.parts ∧ t.fns = s.fns ∧
        t.links.tx = (s.links.tx.map (fun o => if o = x then { o with left := o.left - min e.lines x.left } else o)).filter (fun o => o.left != 0) ∧
        (∀ q, q ≠ x.room → t.room q = s.room q) ∧
        (∀ c, c ≠ x.chan → (t.room x.room).chan c = (s.room x.room).chan c) ∧
        ((t.room x.room).chan x.chan).issued = ((s.room x.room).chan x.chan).issued.map (fun i =>
          if i.no = x.no then { i with left := i.left - min e.lines x.left, tags := i.tags - min (min e.lines x.left) i.left } else i)))) ∧
  (∀ (s : State) (n : PortId) (l : Fin 8) (h w : Nat), (s.port n).state = .active → (s.port n).laneMap.getLsbD l = true →
    ∃ t : State, exec (.marginSweep n l h w) s = .next t ∧ t.port n = { s.port n with
        eyeHeight := Tab.set 0 (s.port n).eyeHeight l h
        eyeWidth := Tab.set 0 (s.port n).eyeWidth l w
        lowEye := Tab.set 0 (s.port n).lowEye l (if h < 12000 then Tab.get 0 (s.port n).lowEye l + 1 else 0) } ∧
      (h < 12000 → 1 ≤ Tab.get 0 (s.port n).lowEye l → t.permanent (.lane n l) = true) ∧ s.LinkFrame t n) ∧
  (∀ (s : State) (r : RouteTable), s.links.route = some r →
    (s.now < s.links.lastSummary + 10000000 → exec .summarySend s = .next s) ∧
    (s.maySendCtx = true → s.links.lastSummary + 10000000 ≤ s.now → ∃ t : State, exec .summarySend s = .next t ∧ t.links.lastSummary = s.now ∧
      (r.timeRoot = r.module → Tab.get ([], 0) t.links.summaries r.module =
        ((List.range 8).map (fun i => fieldOf (summaryLine r.module s.summaryVals) (16 * i + 8) 8), s.now)) ∧
      (∀ n, r.timeRoot ≠ r.module → s.choosePort r.timeRoot 6 none = some n → (t.port n).nextCtx = (s.port n).nextCtx + 1) ∧
      t.mem = s.mem ∧ t.rooms = s.rooms ∧ t.parts = s.parts))

/-- MIRROR_SET waits for its counterpart, forms the pair when both match and the DRBG runs, with the twin that holds state as leader, else the one on the lower module number, and ends the pair with MODE 0; without a counterpart it fails after 10 s, when it is late, or when the two do not match. COMMAND runs the leader's command in the follower; INPUT writes the leader's line and counts its flag, and waits for a stack at level 4; HOSTREAD and ECHO keep or complete what the stream waits for; BLOCKKEY delivers the unwrapped key to the block that asks for it. A DIGEST is kept, and with an agreeing own record the block ends. HEARTBEAT, END and PEER_LOSS part the pair as R448 says; RESYNC_COMPLETE takes it to its mode. The pair key and the agreement on it are free values (log 58), how a mode switch is told is the model's (log 59). (R433, R434, R435, R436, R438, R443, R444, R447, R448, R449, R452.) -/
def Obligations.PairsFormCompareAndPart : Prop :=
  (∀ (s : State) (f : FnId) (k : SlotId) (a : PeerAnswer) (p m : Nat), s.runs f k 0x0104 → p = (s.cmd f k).field 0 1 → m = (s.cmd f k).field 1 1 →
    checkMirror s false (s.cmd f k) = 0 → (s.part p).pair.wait = none →
    (m = 0 → (s.part p).paired = false → (s.part p).pair.state ≠ .frozen →
      exec (.mirrorSet f k a) s = .next (s.endCmd f k 0 (progressFraction 10000) 0 [])) ∧
    (m = 0 → (s.part p).paired = true → ∃ u : State, exec (.mirrorSet f k a) s = .next (u.endCmd f k 0 (progressFraction 10000) 0 []) ∧
      (u.part p).pair.state = .solo ∧ (u.part p).pair.leader = true ∧ (u.part p).pair.key = none ∧ (u.part p).rooms = (s.part p).rooms) ∧
    (m ≠ 0 → (s.part p).paired = false → a = .silent → exec (.mirrorSet f k a) s =
      .next (s.setPart p { s.part p with pair := { (s.part p).pair with wait := some (k.val, s.now) } })) ∧
    (m ≠ 0 → (s.part p).paired = false → (a = .mismatch ∨ a = .matching true ∧ (s.part p).holdsState = true) →
      exec (.mirrorSet f k a) s = .next ((s.setPart p (s.part p)).endCmd f k 4 (((s.fn f).slot k).field 20 4) (((s.fn f).slot k).field 24 4) [])) ∧
    (∀ h, m ≠ 0 → (s.part p).paired = false → a = .matching h → ((s.part p).holdsState && h) = false → s.sec.drbg ≠ .running → exec (.mirrorSet f k a) s =
      .next (s.setPart p { s.part p with pair := { (s.part p).pair with wait := some (k.val, s.now) } })) ∧
    (∀ h, m ≠ 0 → (s.part p).paired = false → a = .matching h → ((s.part p).holdsState && h) = false → s.sec.drbg = .running → ∃ t : State, exec (.mirrorSet f k a) s = .next t ∧
      (t.part p).pair.state = .syncing ∧ (t.part p).pair.mode = m ∧ (t.part p).pair.peerModule = (s.cmd f k).field 2 2 ∧
      (t.part p).pair.peerPart = (s.cmd f k).field 4 1 ∧ (t.part p).pair.wait = some (k.val, s.now) ∧ (t.part p).pair.key.isSome = true ∧
      ((t.part p).pair.leader = true ↔ (s.part p).holdsState = true ∨ h = false ∧ s.ownModule.getD 0 < (s.cmd f k).field 2 2) ∧
      ((t.fn f).slot k) = ((s.fn f).slot k) ∧ t.mem = s.mem ∧ t.rooms = s.rooms ∧ (∀ q, q ≠ p → t.part q = s.part q))) ∧
  (∀ (s : State) (p : PartId) (k at_ : Nat), (s.part p).pair.wait = some (k, at_) → (s.part p).paired = false →
    (s.now < at_ + 10000000000 → exec (.mirrorSetTimeout p) s = .next s) ∧
    (at_ + 10000000000 ≤ s.now → exec (.mirrorSetTimeout p) s = .next ((s.setPart p { s.part p with pair := { (s.part p).pair with wait := none } }).endWaiting 0 k (isOp 0x0104)
      6 (progressFraction 0) 0 []))) ∧
  (∀ (s : State) (p : PartId), (s.part p).paired = false → exec (.end_ p) s = .next s ∧ (∀ op b, exec (.command p op b) s = .next s) ∧
    (∀ st a, exec (.heartbeat p st a) s = .next s) ∧ exec (.peerLoss p) s = .next s) ∧
  (∀ (s : State) (p : PartId) (b : List Byte) (k : SlotId), (s.part p).isFollower = true → k = s.idleSlot (p.val + 1) →
    exec (.command p 0x0201 b) s = exec (.keysetRegister p.succ k) (s.relayed p 0x0201 b) ∧
    exec (.command p 0x0202 b) s = exec (.keysetActivate p.succ k) (s.relayed p 0x0202 b) ∧
    exec (.command p 0x0203 b) s = exec (.keysetDeactivate p.succ k) (s.relayed p 0x0203 b) ∧
    exec (.command p 0x0204 b) s = exec (.keysetRelease p.succ k) (s.relayed p 0x0204 b) ∧
    exec (.command p 0x0211 b) s = exec (.keyRegister p.succ k) (s.relayed p 0x0211 b) ∧
    exec (.command p 0x0212 b) s = exec (.keyRemove p.succ k) (s.relayed p 0x0212 b) ∧
    exec (.command p 0x0213 b) s = exec (.lutKeyRegister p.succ k) (s.relayed p 0x0213 b) ∧
    exec (.command p 0x0301 b) s = exec (.programLoad p.succ k) (s.relayed p 0x0301 b) ∧
    exec (.command p 0x0302 b) s = exec (.programUnload p.succ k) (s.relayed p 0x0302 b) ∧
    exec (.command p 0x0303 b) s = exec (.jobRingSet p.succ k) (s.relayed p 0x0303 b)) ∧
  (∀ (s : State) (p : PartId) (b : List Byte) (m : Nat), (s.part p).paired = true → m = fieldOf b 0 1 → m = 1 ∨ m = 2 → (s.part p).pair.state ≠ .syncing →
    ∃ t : State, exec (.command p 0x0104 b) s = .next t ∧ t.mem = s.mem ∧ t.rooms = s.rooms ∧ (t.part p).pair.lastMsg = s.now ∧
      (m ≠ (s.part p).pair.mode → (s.part p).job.isSome = true → (t.part p).pair.switchTo = some m ∧ (t.part p).pair.mode = (s.part p).pair.mode) ∧
      (m ≠ (s.part p).pair.mode → (s.part p).job = none → (t.part p).pair.switchTo = none ∧ (t.part p).pair.mode = m ∧
        (t.part p).pair.state = if m = 1 then .dual else .standby)) ∧
  (∀ (s : State) (p : PartId) (room off : Nat) (fl : Option (Fin 64)) (data : List Byte), (s.part p).isFollower = true → room < (s.part p).rooms.length →
    off + data.length ≤ atticBytes → ∃ t : State, exec (.input p (.line room false off fl data)) s = .next t ∧ t.mem.cellar = s.mem.cellar ∧
      (∀ i, i < data.length → Mem.byte t.mem.attic (atticKey ((s.part p).roomAt room) (off + i)) = data.getD i 0) ∧
      (∀ x, (∀ i, i < data.length → x ≠ atticKey ((s.part p).roomAt room) (off + i)) → Mem.byte t.mem.attic x = Mem.byte s.mem.attic x) ∧
      (∀ q, q ≠ (s.part p).roomAt room → t.room q = s.room q) ∧
      (t.room ((s.part p).roomAt room)).flags = (match fl with
        | some j => Tab.set 0 (s.room ((s.part p).roomAt room)).flags j (Tab.get 0 (s.room ((s.part p).roomAt room)).flags j + 1)
        | none => (s.room ((s.part p).roomAt room)).flags)) ∧
  (∀ (s : State) (p : PartId) (room off : Nat) (fl : Option (Fin 64)) (data : List Byte), (s.part p).isFollower = true → room < (s.part p).rooms.length →
    off + data.length ≤ stackBytes → 4 ≤ (s.stack ((s.part p).roomAt room)).level → exec (.input p (.line room true off fl data)) s = .next s) ∧
  (∀ (s : State) (p : PartId) (tail : BitVec 16), (s.part p).isFollower = true →
    exec (.input p (.doorbell tail)) s = .next (((s.heard p).takeTail (p.val + 1) tail).getD (s.heard p))) ∧
  (∀ (s : State) (p : PartId) (room : Nat) (ch : ChanId) (data : List Byte), (s.part p).isFollower = true → room < (s.part p).rooms.length →
    (∃ t : State, exec (.hostread p room ch data) s = .next t ∧ Tab.get [] (t.part p).pair.hostread (room * 16 + ch) =
      Tab.get [] (s.part p).pair.hostread (room * 16 + ch) ++ data ∧ (t.part p).pair.lastMsg = s.now ∧ t.mem = s.mem ∧ t.rooms = s.rooms) ∧
    (((s.room ((s.part p).roomAt room)).chan ch).issued.any (·.echo) = false → ∃ t : State, exec (.echo p room ch) s = .next t ∧
      Tab.get 0 (t.part p).pair.echoes (room * 16 + ch) = Tab.get 0 (s.part p).pair.echoes (room * 16 + ch) + 1 ∧ t.mem = s.mem ∧ t.rooms = s.rooms) ∧
    (∀ i, ((s.room ((s.part p).roomAt room)).chan ch).issued.find? (·.echo) = some i → ∃ t : State, exec (.echo p room ch) s = .next t ∧
      ((t.room ((s.part p).roomAt room)).chan ch).issued = ((s.room ((s.part p).roomAt room)).chan ch).issued.map
        (fun q => if q.no = i.no then { q with echo := false, kept := [], held := none } else q) ∧ t.mem = s.mem)) ∧
  (∀ (s : State) (p : PartId) (w : List Byte) (pk : BitVec 256), (s.part p).isFollower = true → (s.part p).pair.key = some pk →
    ∃ t : State, exec (.blockkey p w) s = .next t ∧ t.mem = s.mem ∧ (kwpUnwrap (leBytes 32 pk.toNat) w = none → t = s.heard p) ∧
      (∀ b, kwpUnwrap (leBytes 32 pk.toNat) w = some b → b.length = 32 →
        t = (s.heard p).deliverKey p ((s.heard p).keyBlock p) (BitVec.ofNat 256 (leNat b)))) ∧
  (∀ (s : State) (p : PartId) (room : Nat) (d : DigestRec), (s.part p).paired = true → room < (s.part p).rooms.length →
    ((s.room ((s.part p).roomAt room)).blockDone = false → ¬((s.part p).pair.state = .standby ∧ (s.part p).pair.leader = true) →
      ∃ t : State, exec (.digest p room d) s = .next t ∧ t.part p = { s.part p with pair := { (s.part p).pair with
        lastMsg := s.now, peer := Tab.set [] (s.part p).pair.peer room ((d :: Tab.get [] (s.part p).pair.peer room).take 300) } } ∧
        (∀ q, q ≠ p.val → t.part q = s.part q) ∧ t.mem = s.mem ∧ t.rooms = s.rooms ∧ t.fns = s.fns) ∧
    (∀ b c, (s.part p).pair.state = .dual → (s.room ((s.part p).roomAt room)).block = some b → (s.room ((s.part p).roomAt room)).blockDone = true →
      (s.room ((s.part p).roomAt room)).streamsDone = true → b.agreed = false → b.exchange = false → b.seen = 0 →
      s.recordWaits p ((s.part p).roomAt room) = false →
      recordsOf (s.part p).pair.own room ((s.part p).pair.at_ room) = [c] → d.mblock = (s.part p).pair.at_ room →
      c.mblock = d.mblock → c.d1 = d.d1 → c.d2 = d.d2 → c.cause = d.cause → ∃ t : State, exec (.digest p room d) s = .next t ∧
        (t.room ((s.part p).roomAt room)).block = none ∧
        (t.room ((s.part p).roomAt room)).blockCounter = (s.room ((s.part p).roomAt room)).blockCounter + (if b.failed then 0 else 1) ∧ t.mem.attic = s.mem.attic)) ∧
  (∀ (s : State) (p : PartId) (a : Nat), (s.part p).paired = true → exec (.heartbeat p 5 a) s = .next (s.heard p) ∧
    (∀ st, st ≠ 5 → ∃ t : State, exec (.heartbeat p st a) s = .next t ∧ s.PeerLost t p) ∧
    (∃ t : State, exec (.end_ p) s = .next t ∧ (t.part p).pair.state = .solo ∧ (t.part p).pair.key = none) ∧
    ((s.part p).pair.lastMsg + 10000000 ≤ s.now → ∃ t : State, exec (.peerLoss p) s = .next t ∧ s.PeerLost t p) ∧
    ((s.part p).pair.lastBeat + 100000 ≤ s.now → exec (.heartbeatSend p) s =
      .next ((s.setPart p { s.part p with pair := { (s.part p).pair with lastBeat := s.now } }).emit
        (.mirror 6 (s.part p).pair.peerModule (s.part p).pair.peerPart (leBytes 8 s.timestamp ++ leBytes 1 s.boot.state.code)))) ∧
    (s.now < (s.part p).pair.lastBeat + 100000 → exec (.heartbeatSend p) s = .next s)) ∧
  (∀ (s : State) (p : PartId) (image : List ResyncRec), (s.part p).pair.state = .syncing → (s.part p).pair.mode = 1 ∨ (s.part p).pair.mode = 2 →
    ∃ t : State, exec (.resyncComplete p image) s = .next t ∧ (t.part p).pair.state = (if (s.part p).pair.mode = 2 then .standby else .dual) ∧
      (t.part p).pair.leader = (s.part p).pair.leader ∧ (t.part p).pair.key = (s.part p).pair.key ∧ (t.part p).pair.wait = none ∧
      ((s.part p).pair.leader = true → t.mem = s.mem ∧ t.rooms = s.rooms) ∧
      ((s.part p).pair.leader = false → image = [] → ∀ r, r ∈ (s.part p).rooms → ∀ i, i < atticBytes → Mem.byte t.mem.attic (atticKey r i) = 0))

/-- A request to the source in use does nothing; to a source that is not READY it is refused and counted, and nothing else changes; otherwise it is made at once for LCLK, MCLK and SCLK, or when no room has a block in flight, and else waits. A stopped source forces the domain to the READY divider that is left, else to the bypass, whatever is requested; the move is counted and raises the domain's source. After a PLL unlocks no domain stays on it without a request to leave; once it is READY for 10 ms those that left return. FREQ_GATE records eight counts and judges the beats within 0.1%. The loss of REFCLK leaves what a cold reset leaves; its return is noted. (R475, R476, R477, R478, R479, R480, R481, R483, R484.) -/
def Obligations.ClocksSwitchAndReturn : Prop :=
  (∀ (s : State) (d : ClkId) (src : Fin 3), s.romServes = false →
    ((s.clk d).source = src → exec (.clockSwitch d src) s = .next s) ∧
    ((s.clk d).source ≠ src → s.sourceStopped (s.clk d).source = false → s.sourceReady src = false →
      exec (.clockSwitch d src) s = .next (s.setClk d { s.clk d with refusals := satInc (s.clk d).refusals })) ∧
    ((s.clk d).source ≠ src → s.sourceStopped (s.clk d).source = false → s.sourceReady src = true → d.val ≠ 1 → d.val ≠ 4 → d.val ≠ 5 → s.blocksInFlight = true →
      exec (.clockSwitch d src) s = .next (s.setClk d { s.clk d with request := some src })) ∧
    ((s.clk d).source ≠ src → s.sourceStopped (s.clk d).source = false → s.sourceReady src = true →
      (d.val = 1 ∨ d.val = 4 ∨ d.val = 5 ∨ s.blocksInFlight = false) → ∃ t : State, exec (.clockSwitch d src) s = .next t ∧
        t.clk d = { s.clk d with source := src, request := none, switches := satInc (s.clk d).switches } ∧ (∀ e, e ≠ d.val → t.clk e = s.clk e) ∧
        t.mem = s.mem ∧ t.rooms = s.rooms ∧ t.parts = s.parts ∧ (d.val ≠ 1 → t.links = s.links) ∧
        (d.val = 1 → src = 2 ∨ (s.clk d).source = 2 → ∀ n, n < 30 → (t.port n).state = .down ∨ (t.port n).state = .retired))) ∧
  (∀ (s : State) (d : ClkId) (i : Instr), (s.clk d).source ≠ 2 → (i = .clockStopped d ∨ s.romServes = false ∧ s.sourceStopped (s.clk d).source = true ∧
      ∃ src, src ≠ (s.clk d).source ∧ i = .clockSwitch d src) →
    ∃ t : State, exec i s = .next t ∧ (t.clk d).source.val = (if s.sourceReady (1 - (s.clk d).source.val) then 1 - (s.clk d).source.val else 2) ∧
      (t.clk d).request = none ∧ (t.clk d).forced = satInc (s.clk d).forced ∧ (t.clk d).refusals = (s.clk d).refusals ∧ (t.source d).pending = true ∧
      (t.pll (s.clk d).source).stopped = true ∧ (∃ e, e ∈ t.gysis.ledger.todo ∧ e.code = 0x60 ∧ e.where_ = d.val) ∧ (∀ e, e ≠ d.val → t.clk e = s.clk e) ∧
      t.mem.attic = s.mem.attic ∧ t.mem.cellar = s.mem.cellar ∧ t.parts = s.parts ∧ (d.val = 1 ∨ d.val = 4 ∨ d.val = 5 → t.rooms = s.rooms)) ∧
  (∀ (s : State) (d : ClkId), (s.clk d).source = 2 → exec (.clockStopped d) s = .next s) ∧
  (∀ (s : State) (alt : Bool) (src : Nat), src = (if alt then 1 else 0) →
    ((s.pll src).locked = false → exec (.pllUnlock alt) s = .next s) ∧
    ((s.pll src).locked = true → s.romServes = false → s.clocks.refPresent = true → ∃ t : State, exec (.pllUnlock alt) s = .next t ∧
      (t.pll src).locked = false ∧ (t.source (6 + src)).pending = true ∧
      (∀ d, d < 6 → (s.clk d).source.val = src → (t.clk d).left = some (Fin.ofNat 3 src) ∧ ((t.clk d).source.val ≠ src ∨ (t.clk d).request.isSome = true)) ∧
      (∀ d, d < 6 → (s.clk d).source.val ≠ src → t.clk d = s.clk d) ∧ t.mem.attic = s.mem.attic ∧ t.mem.cellar = s.mem.cellar ∧ t.parts = s.parts) ∧
    (s.romServes = false → s.sourceReady src = true → (s.pll src).readyAt + 10000000 ≤ s.now → ∃ t : State, exec (.pllReturn alt) s = .next t ∧
      (∀ d, d < 6 → (s.clk d).left = some (Fin.ofNat 3 src) → (t.clk d).left = none ∧
        ((t.clk d).source.val = src ∨ (t.clk d).request = some (Fin.ofNat 3 src))) ∧
      (∀ d, d < 6 → (s.clk d).left ≠ some (Fin.ofNat 3 src) → t.clk d = s.clk d) ∧ t.mem.attic = s.mem.attic ∧ t.mem.cellar = s.mem.cellar ∧ t.parts = s.parts) ∧
    (s.now < (s.pll src).readyAt + 10000000 → exec (.pllReturn alt) s = .next s)) ∧
  (∀ (s : State) (l : List Nat) (a b : Bool), ∃ t : State, exec (.freqGate l a b) s = .next t ∧
    (∀ d, d < 6 → t.clk d = { s.clk d with edges := BitVec.ofNat 20 (l.getD d 0) }) ∧
    (t.clocks.root.beatOk = true ↔ s.clocks.root.running = true ∧ 19980 ≤ l.getD 6 0 ∧ l.getD 6 0 ≤ 20020) ∧
    (t.clocks.alt.beatOk = true ↔ s.clocks.alt.running = true ∧ 19980 ≤ l.getD 7 0 ∧ l.getD 7 0 ≤ 20020) ∧
    (t.clocks.root.locked = (s.clocks.root.running && a)) ∧ (t.clocks.alt.locked = (s.clocks.alt.running && b)) ∧
    (s.clocks.root.locked = true → t.clocks.root.stopped = s.clocks.root.stopped) ∧ t.mem = s.mem ∧ t.rooms = s.rooms ∧ t.parts = s.parts ∧ t.gysis = s.gysis) ∧
  (∀ s : State, (∃ t : State, exec .refclkLoss s = .next t ∧ t.clocks.refPresent = false ∧ t.clocks.refHold = true ∧ t.boot.state = .powerOn ∧ t.mem = {} ∧
      t.rooms = [] ∧ t.parts = [] ∧ t.fns = [] ∧ t.nvm.fuses = s.nvm.fuses ∧ t.nvm.record = s.nvm.record) ∧
    exec .refclkReturn s = .next (if s.clocks.refPresent then s else { s with clocks := { s.clocks with refPresent := true, refSince := s.now } }))

/-- DOMAIN_WAKE puts a waking domain ON and wakes the first that waits; DOMAIN_OFF takes off only what nothing needs, and keeps memory. A CAP_LOOP_TICK records what was measured, follows the base need as far as the free pool goes, changes no grant on the bypass, and sets CAP_UNMET only above the cap. Current, thermal and coolant clamps hold above their limit, are counted when they begin, keep between the limits, and release below with their delay. A supply fault takes the module to HALTED. TELEMETRY_TICK rewrites every mirror; a failed sensor is stale and entered in the ledger; SMBus serves the record selected and the alert. What a sensor reads is free (log 18). (R485, R486, R488, R489, R490, R492, R336, R494, R495, R493, R537, R553.) -/
def Obligations.PowerClampsAndReadings : Prop :=
  (∀ (s : State) (d : DomId), (s.domain d ≠ .waking → exec (.domainWake d) s = .next s) ∧
    (s.domain d = .waking → s.power.wakeQueue = [] → exec (.domainWake d) s = .next (s.setDomain d .on)) ∧
    (∀ e l, s.domain d = .waking → s.power.wakeQueue = e :: l → e ≠ d.val → s.domain e = .off → (s.setDomain d .on).wakingCount < 4 →
      ∃ t : State, exec (.domainWake d) s = .next t ∧ t.domain d = .on ∧ t.domain e = .waking ∧ t.power.wakeQueue = l ∧
        (∀ q, q ≠ d.val → q ≠ e → t.domain q = s.domain q) ∧ t.mem = s.mem ∧ t.rooms = s.rooms)) ∧
  (∀ (s : State) (d : DomId), (s.domainNeeded d = true → exec (.domainOff d) s = .next s) ∧
    (s.domain d ≠ .heldOff → s.domainNeeded d = false → s.bundleBusy d = false → ∃ t : State, exec (.domainOff d) s = .next t ∧ t.mem = s.mem ∧
      (s.domainRetired d = true → t.domain d = .heldOff) ∧ (s.domainRetired d = false → s.domain d = .on → t.domain d = .off) ∧
      (s.domainRetired d = false → s.domain d ≠ .on → t = s) ∧ (∀ q, q ≠ d.val → t.domain q = s.domain q) ∧ t.parts = s.parts ∧ t.fns = s.fns)) ∧
  (∀ (s : State) (w need : Nat) (l : List Nat), need = ((w - l.sum) * 105 + 99) / 100 → s.romServes = false → s.boot.state ≠ .halted →
    ∃ t : State, exec (.capLoopTick w l) s = .next t ∧ t.power.measured = w ∧ (∀ r, r < 16 → Tab.get 0 t.power.roomPower r = l.getD r 0) ∧
      (t.source 194).pending = true ∧ t.power.cap = s.power.cap ∧
      t.power.baseGrant = (if need ≤ s.power.baseGrant then need else min need (s.power.baseGrant + s.freePool)) ∧
      (w ≤ s.power.cap * 1000 → t.power.withinSince.isSome = true ∧ t.power.capUnmet = s.power.capUnmet) ∧
      (s.power.cap * 1000 < w → t.power.withinSince = none) ∧
      ((s.clk 0).source = 2 → t.parts = s.parts ∧ (s.power.cap * 1000 < w → t.power.capUnmet = true)) ∧
      t.mem = s.mem ∧ t.rooms = s.rooms ∧ t.fns = s.fns) ∧
  (∀ (s : State) (a : Nat), s.power.withinSince = some a → s.power.capUnmet = true → exec .capUnmetClear s = .next (if a + 10000000 ≤ s.now then
    State.forgetAcked { s with power := { s.power with capUnmet := false, withinSince := none } } else s)) ∧
  (∀ (s : State) (k m lim : Nat), 1 ≤ k → k ≤ 3 → lim = s.nvm.config.currentLimit.getD (k - 1) 0 * 1000 → ∃ t : State, exec (.currentClamp k m) s = .next t ∧
    (lim < m → t.power.currentClamp = true ∧ t.power.currentBelow = none ∧ k ∈ t.power.currentRails ∧
      (s.power.currentClamp = false → t.power.currentSince = s.now ∧
        Tab.get 0 t.power.clampCounts 0 = satInc (Tab.get 0 s.power.clampCounts 0)) ∧
      (s.power.currentClamp = true → t.power.currentSince = s.power.currentSince ∧ t.power.clampCounts = s.power.clampCounts)) ∧
    (m ≤ lim → t.power.currentClamp = s.power.currentClamp ∧ t.power.clampCounts = s.power.clampCounts) ∧
    (m ≤ lim → m * 100 < lim * 95 → t.power.currentRails = s.power.currentRails.filter (· != k) ∧
      (s.power.currentClamp = true → s.power.currentRails.filter (· != k) = [] → t.power.currentBelow = some (s.power.currentBelow.getD s.now))) ∧
    (m ≤ lim → lim * 95 ≤ m * 100 → s.power.currentClamp = true → t.power.currentBelow = none) ∧ t.mem = s.mem ∧ t.rooms = s.rooms ∧ t.parts = s.parts) ∧
  (∀ (s : State) (a : Nat), s.power.currentBelow = some a → s.power.currentClamp = true → exec .currentClampRelease s = .next (if a + 100000 ≤ s.now then
    State.forgetAcked { s with power := { s.power with currentClamp := false, currentBelow := none } } else s)) ∧
  (∀ (s : State) (r : RoomId) (c : Int), ∃ t : State, exec (.thermalClamp r c) s = .next t ∧
    t.room r = { s.room r with dieTemp := c, thermalClamp := decide (100000 ≤ c) || decide (95000 ≤ c) && (s.room r).thermalClamp } ∧
    Tab.get 0 t.power.clampCounts 1 = (if 100000 ≤ c ∧ (s.room r).thermalClamp = false then satInc (Tab.get 0 s.power.clampCounts 1) else Tab.get 0 s.power.clampCounts 1) ∧
    (∀ q, q ≠ r.val → t.room q = s.room q) ∧ t.mem = s.mem ∧ t.parts = s.parts) ∧
  (∀ (s : State) (lim : Int), lim = s.nvm.config.outletLimit * 1000 → exec (.coolantClamp none) s = .next s ∧
    ∀ c, ∃ t : State, exec (.coolantClamp (some c)) s = .next t ∧ t.power.coolOut = c ∧ t.power.coolOutValid = true ∧
      t.power.coolantClamp = (decide (lim < c) || (!decide (c ≤ lim - 2000) && s.power.coolOutValid && s.power.coolantClamp)) ∧
      Tab.get 0 t.power.clampCounts 2 = (if lim < c ∧ s.power.coolantClamp = false then satInc (Tab.get 0 s.power.clampCounts 2) else Tab.get 0 s.power.clampCounts 2) ∧
      t.mem = s.mem ∧ t.rooms = s.rooms ∧ t.parts = s.parts) ∧
  (∀ (s : State) (c : Fin 3), s.boot.state ≠ .halted →
    (c.val ≠ 1 ∨ s.power.currentClamp = true ∧ s.power.currentSince + 100000000 ≤ s.now → ∃ t : State, exec (.supplyFault c) s = .next t ∧ t.boot.state = .halted ∧
      (s.boot.stopState ≠ 5 → t.boot.cause = 8) ∧ (c.val ≠ 1 → t.power.pwrFaultN = false) ∧ (c.val = 1 → t.power.pwrFaultN = s.power.pwrFaultN) ∧ t.mem = s.mem) ∧
    (c.val = 1 → s.power.currentClamp = false → exec (.supplyFault c) s = .next s)) ∧
  (∀ s : State, s.boot.state ≠ .halted → s.romServes = false → ∃ t : State, exec .telemetryTick s = .next t ∧
    (∀ f, f < 17 → t.fn f = { s.fn f with telSeq := (s.fn f).telSeq + 2, mirror := s.mirrorOf f }) ∧ (t.source 192).pending = true ∧
    t.mem = s.mem ∧ t.rooms = s.rooms ∧ t.parts = s.parts) ∧
  (∀ (s : State) (id : Nat), (∀ a, Tab.get none s.power.stale id = some a → exec (.sensorFail id) s = .next s) ∧
    (Tab.get none s.power.stale id = none → ∃ t : State, exec (.sensorFail id) s = .next t ∧ Tab.get none t.power.stale id = some s.now ∧
      (∃ e, e ∈ t.gysis.ledger.todo ∧ e.code = 0x60 ∧ e.where_ = id) ∧ t.mem = s.mem ∧ t.rooms = s.rooms)) ∧
  (∀ (s : State) (id : BitVec 32), s.boot.state ≠ .powerOn → exec (.smbusSelect id) s = .next { s with board := { s.board with selected := id } } ∧
    (1 ≤ s.board.selected.toNat / 2 ^ 24 → s.board.selected.toNat / 2 ^ 24 ≤ 5 →
      exec .smbusRead s = .next (s.emit (.smbus (s.record16 0 s.board.selected.toNat)))) ∧
    (s.board.selected.toNat / 2 ^ 24 = 0 ∨ 6 ≤ s.board.selected.toNat / 2 ^ 24 →
      exec .smbusRead s = .next (s.emit (.smbus (leBytes 4 s.board.selected.toNat ++ leBytes 12 0)))) ∧
    (s.smbAlert = true → ∃ t : State, exec .alertResponse s = .next t ∧ t.smbAlert = false ∧ t.out = .smbus (leBytes 1 (0x58 + s.boot.addrStrap.toNat)) :: s.out ∧
      t.mem = s.mem ∧ t.rooms = s.rooms ∧ t.power = s.power) ∧
    (s.smbAlert = false → exec .alertResponse s = .next s))

/-- A cold reset leaves POWERON with empty memories and keeps fuses, flash and repair record; a warm reset begins at FUSES and keeps ledger, cap and board besides. FUSE_READ forms the cold image, word by word, and holds off the domains of a room disabled by fuse; LOADING ends in the firmware, in RECOVERY or HALTED with its cause; SELFTEST and TRAINING end HALTED exactly when no room with three PAUs is left; READY_ENTRY enters READY, or TEST under the strap. The firmware watchdog tears down every partition and slot, and recovers on a second expiry within 1 h. Rails out of order latch SEQ_FAULT. Without the test strap a TAP instruction other than the three of R521 acts as BYPASS. Configuration requests get Retry Status until 100 ms after the release. (R499, R501, R505, R508, R509, R511, R512, R514, R517, R518, R521, R550.) -/
def Obligations.ResetsAndTheBoot : Prop :=
  (∀ (s : State) (src : ResetSource) (rec tst : Bool) (a : BitVec 2),
    (s.coldSource src = false → exec (.coldReset src rec tst a) s = .next (s.draw 1)) ∧
    (s.coldSource src = true → ∃ t : State, exec (.coldReset src rec tst a) s = .next t ∧ t.boot.state = .powerOn ∧ t.mem = {} ∧ t.rooms = [] ∧ t.hbm = [] ∧
      t.parts = [] ∧ t.fns = [] ∧ t.gysis = {} ∧ t.power.cap = 2000 ∧ t.boot.recoveryStrap = rec ∧ t.boot.testStrap = tst ∧ t.boot.addrStrap = a ∧
      t.nvm.fuses = s.nvm.fuses ∧ t.nvm.record = s.nvm.record ∧ t.nvm.repairs = s.nvm.repairs ∧ t.now = s.now)) ∧
  (∀ (s : State) (n : Nat), (s.coldSource (.rstN n) = true → 1000 ≤ n) ∧ (10000 ≤ n → s.coldSource (.rstN n) = true) ∧ s.coldSource .perstN = true) ∧
  (∀ (s : State) (src : ResetSource) (rec tst : Bool) (a : BitVec 2), s.held = false → s.clocks.refHold = false →
    (src = .hotReset ∨ src = .moduleReset ∧ s.resetDue 0 = true) → ∃ t : State, exec (.warmReset src rec tst a) s = .next t ∧ t.boot.state = .fuses ∧
      t.mem = {} ∧ t.rooms = [] ∧ t.parts = [] ∧ t.gysis.ledger = s.gysis.ledger ∧ t.power.cap = s.power.cap ∧ t.board = s.board ∧
      t.boot.addrStrap = s.boot.addrStrap ∧ (∀ f, f ≠ 0 → t.fn f = {}) ∧ (t.fn 0).busMaster = (s.fn 0).busMaster ∧ t.nvm.fuses = s.nvm.fuses) ∧
  (∀ (s : State) (reads : List (Nat × Word × Word × Word)), s.held = false → s.refStable = true →
    (s.boot.state = .powerOn ∨ s.boot.state = .fuses ∧ s.boot.stageDone = false) → ∃ t : State, exec (.fuseRead reads) s = .next t ∧ t.boot.state = .fuses ∧
      t.boot.stageDone = true ∧ t.nvm.image = coldImage s.nvm.fuses reads ∧ t.nvm.fuses = s.nvm.fuses ∧ t.boot.weak = weakWords reads ∧ t.mem = s.mem ∧
      ∀ r d, r < 16 → bitOf t.roomEnable r = false → d ∈ roomDomains r → t.domain d = .heldOff) ∧
  (∀ (fuses : Tab Word) (n : Nat) (a b c : Word), n < 2048 →
    Tab.get 0 (coldImage fuses [(n, a, b, c)]) n = (if 64 ≤ n ∧ n ≤ 72 then a ||| b ||| c else if n = 73 then majority a b c ||| ((a ||| b ||| c) &&& 0x30000) else majority a b c) ∧
    (∀ k, k ≠ n → Tab.get 0 (coldImage fuses [(n, a, b, c)]) k = Tab.get 0 fuses k) ∧
    (∀ i, (majority a b c).getLsbD i = decide (2 ≤ ([a, b, c].filter (fun w => w.getLsbD i)).length))) ∧
  (∀ (s : State) (ok : Bool), s.boot.state = .fuses → s.boot.stageDone = true →
    (ok = false → ∃ t : State, exec (.loading ok) s = .next t ∧ t.boot.state = .halted) ∧
    (ok = true → s.boot.recoveryStrap = true → ∃ t : State, exec (.loading ok) s = .next t ∧ t.boot.state = .recovery ∧ t.boot.cause = 3) ∧
    (ok = true → s.boot.recoveryStrap = false → s.pickImage s.nvm.fwA s.nvm.fwB = none →
      ∃ t : State, exec (.loading ok) s = .next t ∧ t.boot.state = .recovery ∧ t.boot.cause = 1) ∧
    (∀ b, ok = true → s.boot.recoveryStrap = false → s.pickImage s.nvm.fwA s.nvm.fwB = some b →
      (s.pickConfig = none → ∃ t : State, exec (.loading ok) s = .next t ∧ t.boot.state = .recovery ∧ t.boot.cause = 2) ∧
      (∀ c, s.pickConfig = some c → ∃ t : State, exec (.loading ok) s = .next t ∧ t.boot.state = .loading ∧ t.boot.firmwareRunning = true ∧
        t.boot.slotB = b ∧ t.nvm.config = c ∧ t.mem = s.mem ∧ t.nvm.fuses = s.nvm.fuses))) ∧
  (∀ (s : State) (hot : List (Nat × Word)) (failed : List FaultChan) (idle : List Nat), s.boot.state = .loading → s.boot.stageDone = true →
    ∃ t : State, exec (.selftest hot failed idle) s = .next t ∧ (t.boot.state = .selfTest ∧ t.canCompute = true ∨ t.boot.state = .halted) ∧
      t.mem.attic = s.mem.attic ∧ t.mem.cellar = s.mem.cellar ∧
      (failed = [] → hot = [] → (t.boot.state = .selfTest ↔ s.canCompute = true) ∧ t.rooms = s.rooms ∧ t.parts = s.parts ∧
        ∀ r, r ∈ s.liveRooms → Tab.get 0 t.power.idlePower r = idle.getD r 0)) ∧
  (∀ (s : State) (failed : List Nat), s.boot.state = .selfTest → s.boot.stageDone = true → ∃ t : State, exec (.training failed) s = .next t ∧
    t.links.released = true ∧ (t.boot.state = .training ∧ t.canCompute = true ∨ t.boot.state = .halted) ∧
    (∀ r, r ∈ t.liveRooms → (t.stack r).trained = true ∧ r ∉ failed ∧ ∀ i, i < atticBytes → Mem.byte t.mem.attic (atticKey r i) = 0) ∧
    (failed = [] → (t.boot.state = .training ↔ s.canCompute = true))) ∧
  (∀ s : State, s.boot.state = .training → s.boot.stageDone = true → ∃ t : State, exec .readyEntry s = .next t ∧
    t.boot.state = (if s.boot.testStrap then .test else .ready) ∧ t.boot.locked = !s.boot.testStrap ∧
    t.boot.bootMs = min 65535 ((s.now - s.boot.releasedAt) / 1000000) ∧ (∀ r, r ∈ s.liveRooms → (t.room r).clean = true) ∧
    (s.sec.drbg = .running → t.links.bootId.isSome = true) ∧ t.mem = s.mem ∧ t.parts = s.parts) ∧
  (∀ s : State, s.boot.firmwareRunning = true → s.boot.state = .ready ∨ s.boot.state = .test → ∃ t : State, exec .firmwareWatchdog s = .next t ∧
    (∀ p, p < 16 → (t.part p).present = false ∨ t.part p = s.part p ∧ (s.part p).present = false) ∧ (∀ f, f < 17 → (t.fn f).slots = []) ∧
    t.boot.lastExpiry = some s.now ∧
    (∀ a, s.boot.lastExpiry = some a → s.now ≤ a + 3600000000000 → t.boot.state = .recovery ∧ t.boot.cause = 4) ∧
    (s.boot.lastExpiry = none → t.boot.state = s.boot.state ∨ t.boot.state = .recovery ∧ t.boot.cause = 1)) ∧
  (∀ (s : State) (k : Nat), k ∈ allRails → s.rail k = 0 → k ≠ 4 → s.power.seqFault = false →
    (s.railEarly k = false → ∃ t : State, exec (.powerUp [k]) s = .next t ∧ t.rail k = 3 ∧ t.power.seqFault = false ∧ t.mem = s.mem ∧
      (∀ j, j ≠ k → t.rail j = s.rail j) ∧ exec (.seqFault k) s = .next s) ∧
    (s.railEarly k = true → ∃ t u : State, exec (.powerUp [k]) s = .next t ∧ exec (.seqFault k) s = .next u ∧ t.power.seqFault = true ∧ u.power.seqFault = true ∧
      t.power.pwrFaultN = false ∧ u.power.pwrFaultN = false ∧ t.held = true ∧ u.held = true ∧ t.boot.state = .powerOn ∧ u.boot.state = .powerOn ∧ u.mem = {})) ∧
  (∀ (s : State) (a : Nat), s.power.regulatedSince = some a → s.boot.resetHold = true → s.power.seqFault = false → a + 1000000 ≤ s.now →
    exec (.powerUp []) s = .next { s with boot := { s.boot with resetHold := false, releasedAt := s.now } }) ∧
  (∀ (s : State) (b : Bool), ∃ t : State, exec (.powerDown b) s = .next t ∧ t.power.rails = [] ∧ t.power.seqFault = false ∧ t.held = true ∧ t.boot.state = .powerOn ∧
    t.mem = {} ∧ t.rooms = [] ∧ t.gysis = {} ∧ t.nvm.fuses = s.nvm.fuses ∧ t.nvm.record = s.nvm.record) ∧
  (∀ (s : State) (f : FnId) (q : CfgReq), s.fnPresent f = true →
    (s.configReady = false → exec (.pcieConfigRequest f q) s = .next (s.emit (.cfgDone f true none))) ∧
    (s.configReady = true → ∃ t : State, exec (.pcieConfigRequest f q) s = .next t ∧ t.out.head? = some (.cfgDone f false (if q = .read then some (32, 0) else none)) ∧ t.mem = s.mem ∧ t.rooms = s.rooms ∧
      (q = .read → t = s.emit (.cfgDone f false (some (32, 0)))) ∧ (∀ on, q = .busMaster on → (t.fn f).busMaster = on) ∧
      (∀ e m, q = .msixControl e m → (t.fn f).msixEnable = e ∧ (t.fn f).funcMask = m))) ∧
  (∀ (s : State) (i : TapInstr), (s.boot.testStrap = false → i.always = false →
      exec (.tapInstruction i) s = .next (State.emit { s with board := { s.board with tapIr := .bypass } } (.tap 0))) ∧
    (i = .idcode → exec (.tapInstruction i) s = .next (State.emit { s with board := { s.board with tapIr := .idcode } } (.tap 1))) ∧
    (i = .samplePreload → exec (.tapInstruction i) s = .next (State.emit { s with board := { s.board with tapIr := .samplePreload } } (.tap 2))) ∧
    (∀ r, s.boot.testStrap = true → i = .userAtticTest r → s.boot.state = .test → s.roomOk r = true →
      ∃ t : State, exec (.tapInstruction i) s = .next t ∧ t.out = .tap 3 :: s.out ∧ ∀ off, off < 2 ^ 32 → Mem.byte t.mem.attic (atticKey r off) = 0)) ∧
  (∀ (s : State) (up : Bool), ∃ t : State, exec (.pcieLinkEvent up) s = .next t ∧ t.board = { s.board with pcieUp := up } ∧ (t.source 179).pending = true ∧
    t.mem = s.mem ∧ t.rooms = s.rooms ∧ t.parts = s.parts ∧ t.fns = s.fns)
end

