-- ==== Sys2Proof/Laws/Tables.lean ====
section
/-! SUPPORT. What reading, writing and clearing do to sparse tables and to memory: what is read after a write, and that the canonical form is kept. -/

namespace Sys2Proof.Machine

/-! ## Tables -/

theorem Tab.get_insert {α : Type} (d : α) (t : Tab α) (k j : Nat) (x : α) :
    Tab.get d (Tab.insert t k x) j = if j = k then x else Tab.get d t j := by
  induction t with
  | nil => simp [Tab.insert, Tab.get, eq_comm]
  | cons c t ih =>
    obtain ⟨i, v⟩ := c
    simp only [Tab.insert]
    by_cases h1 : i = k
    · subst h1
      rcases eq_or_ne i j with h2 | h2
      · simp [Tab.get, h2]
      · simp [Tab.get, h2, h2.symm]
    · by_cases h3 : i < k
      · simp only [h1, h3, if_true, if_false, Tab.get, ih]
        by_cases h2 : i = j
        · subst h2; simp [h1]
        · simp [h2]
      · simp only [h1, h3, if_false, Tab.get]
        by_cases h2 : k = j
        · simp [h2]
        · have h2' : ¬ j = k := fun e => h2 e.symm
          simp [h2, h2']

theorem Tab.get_erase {α : Type} (d : α) (t : Tab α) (k j : Nat) :
    Tab.get d (Tab.erase t k) j = if j = k then d else Tab.get d t j := by
  induction t with
  | nil => simp [Tab.erase, Tab.get]
  | cons c t ih =>
    obtain ⟨i, v⟩ := c
    simp only [Tab.erase] at ih
    simp only [Tab.erase, List.filter_cons]
    by_cases h1 : i = k
    · subst h1
      simp only [bne_self_eq_false, Bool.false_eq_true, if_false, ih, Tab.get]
      by_cases h2 : i = j
      · simp [h2]
      · simp [h2]
    · have h1' : (i != k) = true := by simpa using h1
      simp only [h1', if_true, Tab.get, ih]
      by_cases h2 : i = j
      · subst h2; simp [h1]
      · simp [h2]

/-- What a table holds after an entry is set. -/
theorem Tab.get_set {α : Type} [DecidableEq α] (d : α) (t : Tab α) (k j : Nat) (x : α) :
    Tab.get d (Tab.set d t k x) j = if j = k then x else Tab.get d t j := by
  unfold Tab.set
  by_cases h : x = d
  · simp [h, Tab.get_erase]
  · simp [h, Tab.get_insert]

@[simp] theorem Tab.get_set_same {α : Type} [DecidableEq α] (d : α) (t : Tab α) (k : Nat) (x : α) :
    Tab.get d (Tab.set d t k x) k = x := by simp [Tab.get_set]

theorem Tab.get_set_other {α : Type} [DecidableEq α] (d : α) (t : Tab α) {k j : Nat} (x : α) (h : j ≠ k) :
    Tab.get d (Tab.set d t k x) j = Tab.get d t j := by simp [Tab.get_set, h]

/-- The canonical form said with library predicates. -/
theorem Tab.wf_iff {α : Type} [DecidableEq α] (d : α) (t : Tab α) :
    Tab.wf d t = true ↔ t.Pairwise (fun a b => a.1 < b.1) ∧ ∀ c ∈ t, c.2 ≠ d := by
  induction t with
  | nil => simp [Tab.wf]
  | cons c t ih =>
    obtain ⟨i, v⟩ := c
    cases t with
    | nil => simp [Tab.wf]
    | cons e t =>
      obtain ⟨j, w⟩ := e
      simp only [Tab.wf, Bool.and_eq_true, decide_eq_true_eq, ih, List.pairwise_cons, List.mem_cons, forall_eq_or_imp]
      constructor
      · rintro ⟨⟨h1, h2⟩, ⟨h3, h4⟩, h5, h6⟩
        exact ⟨⟨⟨h2, fun a ha => lt_trans h2 (h3 a ha)⟩, h3, h4⟩, h1, h5, h6⟩
      · rintro ⟨⟨⟨h2, -⟩, h3, h4⟩, h1, h5, h6⟩
        exact ⟨⟨h1, h2⟩, ⟨h3, h4⟩, h5, h6⟩

/-! ## Memory -/

theorem Mem.wf_filter {m : List Host.Cell} (h : Mem.wf m = true) (q : Host.Cell → Bool) : Mem.wf (m.filter q) = true := by
  unfold Mem.wf at *
  rw [Tab.wf_iff] at *
  exact ⟨h.1.filter q, fun c hc => h.2 c (List.mem_of_mem_filter hc)⟩

/-- Clearing a run keeps the canonical form. -/
theorem Mem.wf_clear {m : List Host.Cell} (h : Mem.wf m = true) (b n : Nat) : Mem.wf (Mem.clear m b n) = true := Mem.wf_filter h _

theorem Mem.cells_spec (b : Nat) (l : List Byte) :
    (Mem.cells b l).Pairwise (fun x y => x.1 < y.1) ∧ ∀ c ∈ Mem.cells b l, c.2 ≠ 0 ∧ b ≤ c.1 ∧ c.1 < b + l.length := by
  induction l generalizing b with
  | nil => simp [Mem.cells]
  | cons x t ih =>
    obtain ⟨h1, h2⟩ := ih (b + 1)
    simp only [Mem.cells]
    by_cases hx : x = 0
    · simp only [hx, if_true, List.length_cons]
      refine ⟨h1, fun c hc => ?_⟩
      have := h2 c hc
      exact ⟨this.1, by omega, by omega⟩
    · simp only [hx, if_false, List.length_cons, List.pairwise_cons, List.mem_cons, forall_eq_or_imp]
      refine ⟨⟨fun c hc => ?_, h1⟩, ⟨hx, by omega, by omega⟩, fun c hc => ?_⟩
      · have := h2 c hc
        omega
      · have := h2 c hc
        exact ⟨this.1, by omega, by omega⟩

/-- Writing a run keeps the canonical form. -/
theorem Mem.wf_write {m : List Host.Cell} (h : Mem.wf m = true) (b : Nat) (l : List Byte) : Mem.wf (Mem.write m b l) = true := by
  unfold Mem.wf at *
  rw [Tab.wf_iff] at *
  obtain ⟨c1, c2⟩ := Mem.cells_spec b l
  unfold Mem.write
  refine ⟨?_, ?_⟩
  · rw [List.pairwise_append, List.pairwise_append]
    refine ⟨⟨h.1.filter _, c1, ?_⟩, h.1.filter _, ?_⟩
    · intro x hx y hy
      have := c2 y hy
      have := (List.mem_filter.mp hx).2
      simp at this
      omega
    · intro x hx y hy
      have hy' := (List.mem_filter.mp hy).2
      simp at hy'
      rcases List.mem_append.mp hx with hx | hx
      · have := (List.mem_filter.mp hx).2
        simp at this
        omega
      · have := c2 x hx
        omega
  · intro c hc
    rcases List.mem_append.mp hc with hc | hc
    · rcases List.mem_append.mp hc with hc | hc
      · exact h.2 c (List.mem_of_mem_filter hc)
      · exact (c2 c hc).1
    · exact h.2 c (List.mem_of_mem_filter hc)

@[simp] theorem Mem.wf_nil : Mem.wf [] = true := rfl

theorem Tab.get_append {α : Type} (d : α) (x y : Tab α) (a : Nat) :
    Tab.get d (x ++ y) a = if x.any (fun c => c.1 == a) then Tab.get d x a else Tab.get d y a := by
  induction x with
  | nil => simp
  | cons c t ih =>
    obtain ⟨j, v⟩ := c
    simp only [List.cons_append, Tab.get, List.any_cons, ih]
    by_cases hj : j = a
    · simp [hj]
    · have : (j == a) = false := by simpa using hj
      simp only [this, if_neg hj, Bool.false_or]

theorem Mem.byte_append (x y : List Host.Cell) (a : Nat) :
    Mem.byte (x ++ y) a = if x.any (fun c => c.1 == a) then Mem.byte x a else Mem.byte y a := Tab.get_append 0 x y a

theorem Tab.get_filter {α : Type} (d : α) (m : Tab α) (q : Nat → Bool) (a : Nat) :
    Tab.get d (m.filter (fun c => q c.1)) a = if q a then Tab.get d m a else d := by
  induction m with
  | nil => simp [Tab.get]
  | cons c t ih =>
    obtain ⟨j, v⟩ := c
    simp only [List.filter_cons]
    by_cases hq : q j = true
    · rw [if_pos hq]
      simp only [Tab.get, ih]
      by_cases hj : j = a
      · subst hj; simp [hq]
      · simp [hj]
    · rw [if_neg hq, ih]
      by_cases hj : j = a
      · subst hj; simp [hq]
      · simp [Tab.get, hj]

theorem Mem.byte_filter (m : List Host.Cell) (q : Nat → Bool) (a : Nat) :
    Mem.byte (m.filter (fun c => q c.1)) a = if q a then Mem.byte m a else 0 := Tab.get_filter 0 m q a

theorem Mem.byte_cells (l : List Byte) (b a : Nat) :
    Mem.byte (Mem.cells b l) a = if b ≤ a then l.getD (a - b) 0 else 0 := by
  induction l generalizing b with
  | nil => simp [Mem.cells, Mem.byte, Tab.get]
  | cons x t ih =>
    have step : Mem.byte (Mem.cells b (x :: t)) a = if b = a then x else Mem.byte (Mem.cells (b + 1) t) a := by
      simp only [Mem.cells]
      by_cases hx : x = 0
      · simp only [hx, if_true]
        by_cases hb : b = a
        · subst hb; rw [ih]; simp
        · simp [hb]
      · simp only [hx, if_false, Mem.byte, Tab.get]
    rw [step, ih]
    by_cases hb : b = a
    · subst hb; simp
    · by_cases h2 : b + 1 ≤ a
      · have h3 : b ≤ a := by omega
        have h4 : a - b = (a - (b + 1)) + 1 := by omega
        simp [hb, h2, h3, h4]
      · have h3 : ¬ b ≤ a := by omega
        simp [hb, h2, h3]

/-- A byte read after a run is cleared. -/
theorem Mem.byte_clear (m : List Host.Cell) (b n a : Nat) :
    Mem.byte (Mem.clear m b n) a = if b ≤ a ∧ a < b + n then 0 else Mem.byte m a := by
  unfold Mem.clear
  rw [Mem.byte_filter m (fun k => !(decide (b ≤ k) && decide (k < b + n)))]
  by_cases h : b ≤ a ∧ a < b + n
  · simp [h]
  · rw [if_neg h, if_pos]
    simp only [Bool.not_eq_true', Bool.and_eq_false_iff, decide_eq_false_iff_not]
    omega

theorem Mem.any_key_eq (m : List Host.Cell) (a : Nat) (h : m.any (fun c => c.1 == a) = false) : Mem.byte m a = 0 := by
  induction m with
  | nil => rfl
  | cons c t ih =>
    obtain ⟨j, v⟩ := c
    simp only [List.any_cons, Bool.or_eq_false_iff] at h
    have hj : ¬ j = a := by simpa using h.1
    simp only [Mem.byte, Tab.get, hj, if_false]
    exact ih h.2

/-- A byte read after a run is written. -/
theorem Mem.byte_write (m : List Host.Cell) (b : Nat) (l : List Byte) (a : Nat) :
    Mem.byte (Mem.write m b l) a = if b ≤ a ∧ a < b + l.length then l.getD (a - b) 0 else Mem.byte m a := by
  have key : ∀ (q : Nat → Bool), q a = false → (m.filter (fun c => q c.1)).any (fun c => c.1 == a) = false := by
    intro q hq
    rw [List.any_eq_false]
    intro c hc
    have hc2 := (List.mem_filter.mp hc).2
    simp only [beq_iff_eq]
    rintro rfl
    rw [hq] at hc2
    exact absurd hc2 (by simp)
  unfold Mem.write
  rw [List.append_assoc, Mem.byte_append]
  by_cases h1 : a < b
  · have hn : ¬ (b ≤ a ∧ a < b + l.length) := by omega
    rw [if_neg hn]
    by_cases hany : (m.filter (fun c => decide (c.1 < b))).any (fun c => c.1 == a) = true
    · rw [if_pos hany, Mem.byte_filter m (fun k => decide (k < b)), if_pos (by simpa using h1)]
    · rw [if_neg hany]
      have hz : Mem.byte m a = 0 := by
        have := Mem.any_key_eq _ a (Bool.eq_false_iff.mpr hany)
        rw [Mem.byte_filter m (fun k => decide (k < b)), if_pos (by simpa using h1)] at this
        exact this
      rw [Mem.byte_append, hz]
      have hc : Mem.byte (Mem.cells b l) a = 0 := by rw [Mem.byte_cells, if_neg (by omega)]
      have hf : Mem.byte (m.filter (fun c => decide (b + l.length ≤ c.1))) a = 0 := by
        rw [Mem.byte_filter m (fun k => decide (b + l.length ≤ k)), if_neg (by simp; omega)]
      rw [hc, hf]; simp
  · have hlow : ¬ (m.filter (fun c => decide (c.1 < b))).any (fun c => c.1 == a) = true := by
      rw [key (fun k => decide (k < b)) (by simpa using h1)]; simp
    rw [if_neg hlow, Mem.byte_append]
    by_cases h2 : a < b + l.length
    · rw [if_pos (⟨by omega, h2⟩ : b ≤ a ∧ a < b + l.length)]
      by_cases hany : (Mem.cells b l).any (fun c => c.1 == a) = true
      · rw [if_pos hany, Mem.byte_cells, if_pos (by omega)]
      · rw [if_neg hany, Mem.byte_filter m (fun k => decide (b + l.length ≤ k)), if_neg (by simp; omega)]
        have := Mem.any_key_eq _ a (Bool.eq_false_iff.mpr hany)
        rw [Mem.byte_cells, if_pos (by omega)] at this
        exact this.symm
    · rw [if_neg (by omega : ¬ (b ≤ a ∧ a < b + l.length))]
      have hany : ¬ (Mem.cells b l).any (fun c => c.1 == a) = true := by
        rw [List.any_eq_true]
        rintro ⟨c, hc, he⟩
        have := (Mem.cells_spec b l).2 c hc
        have he' : c.1 = a := by simpa using he
        omega
      rw [if_neg hany, Mem.byte_filter m (fun k => decide (b + l.length ≤ k)), if_pos (by simp; omega)]

end Sys2Proof.Machine
end

