-- ==== Sys2Proof/Laws/State.lean ====
section
/-! SUPPORT. One lemma per field of the state for each named update, and what each accessor reads after it. -/

namespace Sys2Proof.Machine

/-! ## setRoom -/

@[simp] theorem State.setRoom_mem (s : State) (r : Nat) (x : Room) : (s.setRoom r x).mem = s.mem := rfl
@[simp] theorem State.setRoom_hbm (s : State) (r : Nat) (x : Room) : (s.setRoom r x).hbm = s.hbm := rfl
@[simp] theorem State.setRoom_parts (s : State) (r : Nat) (x : Room) : (s.setRoom r x).parts = s.parts := rfl
@[simp] theorem State.setRoom_fns (s : State) (r : Nat) (x : Room) : (s.setRoom r x).fns = s.fns := rfl
@[simp] theorem State.setRoom_gysis (s : State) (r : Nat) (x : Room) : (s.setRoom r x).gysis = s.gysis := rfl
@[simp] theorem State.setRoom_sec (s : State) (r : Nat) (x : Room) : (s.setRoom r x).sec = s.sec := rfl
@[simp] theorem State.setRoom_links (s : State) (r : Nat) (x : Room) : (s.setRoom r x).links = s.links := rfl
@[simp] theorem State.setRoom_clocks (s : State) (r : Nat) (x : Room) : (s.setRoom r x).clocks = s.clocks := rfl
@[simp] theorem State.setRoom_power (s : State) (r : Nat) (x : Room) : (s.setRoom r x).power = s.power := rfl
@[simp] theorem State.setRoom_boot (s : State) (r : Nat) (x : Room) : (s.setRoom r x).boot = s.boot := rfl
@[simp] theorem State.setRoom_nvm (s : State) (r : Nat) (x : Room) : (s.setRoom r x).nvm = s.nvm := rfl
@[simp] theorem State.setRoom_board (s : State) (r : Nat) (x : Room) : (s.setRoom r x).board = s.board := rfl
@[simp] theorem State.setRoom_now (s : State) (r : Nat) (x : Room) : (s.setRoom r x).now = s.now := rfl
@[simp] theorem State.setRoom_free (s : State) (r : Nat) (x : Room) : (s.setRoom r x).free = s.free := rfl
@[simp] theorem State.setRoom_out (s : State) (r : Nat) (x : Room) : (s.setRoom r x).out = s.out := rfl
@[simp] theorem State.setRoom_pending (s : State) (r : Nat) (x : Room) : (s.setRoom r x).pending = s.pending := rfl

/-! ## setStack -/

@[simp] theorem State.setStack_mem (s : State) (r : Nat) (x : Stack) : (s.setStack r x).mem = s.mem := rfl
@[simp] theorem State.setStack_rooms (s : State) (r : Nat) (x : Stack) : (s.setStack r x).rooms = s.rooms := rfl
@[simp] theorem State.setStack_parts (s : State) (r : Nat) (x : Stack) : (s.setStack r x).parts = s.parts := rfl
@[simp] theorem State.setStack_fns (s : State) (r : Nat) (x : Stack) : (s.setStack r x).fns = s.fns := rfl
@[simp] theorem State.setStack_gysis (s : State) (r : Nat) (x : Stack) : (s.setStack r x).gysis = s.gysis := rfl
@[simp] theorem State.setStack_sec (s : State) (r : Nat) (x : Stack) : (s.setStack r x).sec = s.sec := rfl
@[simp] theorem State.setStack_links (s : State) (r : Nat) (x : Stack) : (s.setStack r x).links = s.links := rfl
@[simp] theorem State.setStack_clocks (s : State) (r : Nat) (x : Stack) : (s.setStack r x).clocks = s.clocks := rfl
@[simp] theorem State.setStack_power (s : State) (r : Nat) (x : Stack) : (s.setStack r x).power = s.power := rfl
@[simp] theorem State.setStack_boot (s : State) (r : Nat) (x : Stack) : (s.setStack r x).boot = s.boot := rfl
@[simp] theorem State.setStack_nvm (s : State) (r : Nat) (x : Stack) : (s.setStack r x).nvm = s.nvm := rfl
@[simp] theorem State.setStack_board (s : State) (r : Nat) (x : Stack) : (s.setStack r x).board = s.board := rfl
@[simp] theorem State.setStack_now (s : State) (r : Nat) (x : Stack) : (s.setStack r x).now = s.now := rfl
@[simp] theorem State.setStack_free (s : State) (r : Nat) (x : Stack) : (s.setStack r x).free = s.free := rfl
@[simp] theorem State.setStack_out (s : State) (r : Nat) (x : Stack) : (s.setStack r x).out = s.out := rfl
@[simp] theorem State.setStack_pending (s : State) (r : Nat) (x : Stack) : (s.setStack r x).pending = s.pending := rfl

/-! ## setPart -/

@[simp] theorem State.setPart_mem (s : State) (p : Nat) (x : Part) : (s.setPart p x).mem = s.mem := rfl
@[simp] theorem State.setPart_rooms (s : State) (p : Nat) (x : Part) : (s.setPart p x).rooms = s.rooms := rfl
@[simp] theorem State.setPart_hbm (s : State) (p : Nat) (x : Part) : (s.setPart p x).hbm = s.hbm := rfl
@[simp] theorem State.setPart_fns (s : State) (p : Nat) (x : Part) : (s.setPart p x).fns = s.fns := rfl
@[simp] theorem State.setPart_gysis (s : State) (p : Nat) (x : Part) : (s.setPart p x).gysis = s.gysis := rfl
@[simp] theorem State.setPart_sec (s : State) (p : Nat) (x : Part) : (s.setPart p x).sec = s.sec := rfl
@[simp] theorem State.setPart_links (s : State) (p : Nat) (x : Part) : (s.setPart p x).links = s.links := rfl
@[simp] theorem State.setPart_clocks (s : State) (p : Nat) (x : Part) : (s.setPart p x).clocks = s.clocks := rfl
@[simp] theorem State.setPart_power (s : State) (p : Nat) (x : Part) : (s.setPart p x).power = s.power := rfl
@[simp] theorem State.setPart_boot (s : State) (p : Nat) (x : Part) : (s.setPart p x).boot = s.boot := rfl
@[simp] theorem State.setPart_nvm (s : State) (p : Nat) (x : Part) : (s.setPart p x).nvm = s.nvm := rfl
@[simp] theorem State.setPart_board (s : State) (p : Nat) (x : Part) : (s.setPart p x).board = s.board := rfl
@[simp] theorem State.setPart_now (s : State) (p : Nat) (x : Part) : (s.setPart p x).now = s.now := rfl
@[simp] theorem State.setPart_free (s : State) (p : Nat) (x : Part) : (s.setPart p x).free = s.free := rfl
@[simp] theorem State.setPart_out (s : State) (p : Nat) (x : Part) : (s.setPart p x).out = s.out := rfl
@[simp] theorem State.setPart_pending (s : State) (p : Nat) (x : Part) : (s.setPart p x).pending = s.pending := rfl

/-! ## setFn -/

@[simp] theorem State.setFn_mem (s : State) (f : Nat) (x : Fn) : (s.setFn f x).mem = s.mem := rfl
@[simp] theorem State.setFn_rooms (s : State) (f : Nat) (x : Fn) : (s.setFn f x).rooms = s.rooms := rfl
@[simp] theorem State.setFn_hbm (s : State) (f : Nat) (x : Fn) : (s.setFn f x).hbm = s.hbm := rfl
@[simp] theorem State.setFn_parts (s : State) (f : Nat) (x : Fn) : (s.setFn f x).parts = s.parts := rfl
@[simp] theorem State.setFn_gysis (s : State) (f : Nat) (x : Fn) : (s.setFn f x).gysis = s.gysis := rfl
@[simp] theorem State.setFn_sec (s : State) (f : Nat) (x : Fn) : (s.setFn f x).sec = s.sec := rfl
@[simp] theorem State.setFn_links (s : State) (f : Nat) (x : Fn) : (s.setFn f x).links = s.links := rfl
@[simp] theorem State.setFn_clocks (s : State) (f : Nat) (x : Fn) : (s.setFn f x).clocks = s.clocks := rfl
@[simp] theorem State.setFn_power (s : State) (f : Nat) (x : Fn) : (s.setFn f x).power = s.power := rfl
@[simp] theorem State.setFn_boot (s : State) (f : Nat) (x : Fn) : (s.setFn f x).boot = s.boot := rfl
@[simp] theorem State.setFn_nvm (s : State) (f : Nat) (x : Fn) : (s.setFn f x).nvm = s.nvm := rfl
@[simp] theorem State.setFn_board (s : State) (f : Nat) (x : Fn) : (s.setFn f x).board = s.board := rfl
@[simp] theorem State.setFn_now (s : State) (f : Nat) (x : Fn) : (s.setFn f x).now = s.now := rfl
@[simp] theorem State.setFn_free (s : State) (f : Nat) (x : Fn) : (s.setFn f x).free = s.free := rfl
@[simp] theorem State.setFn_out (s : State) (f : Nat) (x : Fn) : (s.setFn f x).out = s.out := rfl
@[simp] theorem State.setFn_pending (s : State) (f : Nat) (x : Fn) : (s.setFn f x).pending = s.pending := rfl

/-! ## setSlot -/

@[simp] theorem State.setSlot_mem (s : State) (f k : Nat) (x : Slot) : (s.setSlot f k x).mem = s.mem := rfl
@[simp] theorem State.setSlot_rooms (s : State) (f k : Nat) (x : Slot) : (s.setSlot f k x).rooms = s.rooms := rfl
@[simp] theorem State.setSlot_hbm (s : State) (f k : Nat) (x : Slot) : (s.setSlot f k x).hbm = s.hbm := rfl
@[simp] theorem State.setSlot_parts (s : State) (f k : Nat) (x : Slot) : (s.setSlot f k x).parts = s.parts := rfl
@[simp] theorem State.setSlot_gysis (s : State) (f k : Nat) (x : Slot) : (s.setSlot f k x).gysis = s.gysis := rfl
@[simp] theorem State.setSlot_sec (s : State) (f k : Nat) (x : Slot) : (s.setSlot f k x).sec = s.sec := rfl
@[simp] theorem State.setSlot_links (s : State) (f k : Nat) (x : Slot) : (s.setSlot f k x).links = s.links := rfl
@[simp] theorem State.setSlot_clocks (s : State) (f k : Nat) (x : Slot) : (s.setSlot f k x).clocks = s.clocks := rfl
@[simp] theorem State.setSlot_power (s : State) (f k : Nat) (x : Slot) : (s.setSlot f k x).power = s.power := rfl
@[simp] theorem State.setSlot_boot (s : State) (f k : Nat) (x : Slot) : (s.setSlot f k x).boot = s.boot := rfl
@[simp] theorem State.setSlot_nvm (s : State) (f k : Nat) (x : Slot) : (s.setSlot f k x).nvm = s.nvm := rfl
@[simp] theorem State.setSlot_board (s : State) (f k : Nat) (x : Slot) : (s.setSlot f k x).board = s.board := rfl
@[simp] theorem State.setSlot_now (s : State) (f k : Nat) (x : Slot) : (s.setSlot f k x).now = s.now := rfl
@[simp] theorem State.setSlot_free (s : State) (f k : Nat) (x : Slot) : (s.setSlot f k x).free = s.free := rfl
@[simp] theorem State.setSlot_out (s : State) (f k : Nat) (x : Slot) : (s.setSlot f k x).out = s.out := rfl
@[simp] theorem State.setSlot_pending (s : State) (f k : Nat) (x : Slot) : (s.setSlot f k x).pending = s.pending := rfl

/-! ## setPort -/

@[simp] theorem State.setPort_mem (s : State) (n : Nat) (x : Port) : (s.setPort n x).mem = s.mem := rfl
@[simp] theorem State.setPort_rooms (s : State) (n : Nat) (x : Port) : (s.setPort n x).rooms = s.rooms := rfl
@[simp] theorem State.setPort_hbm (s : State) (n : Nat) (x : Port) : (s.setPort n x).hbm = s.hbm := rfl
@[simp] theorem State.setPort_parts (s : State) (n : Nat) (x : Port) : (s.setPort n x).parts = s.parts := rfl
@[simp] theorem State.setPort_fns (s : State) (n : Nat) (x : Port) : (s.setPort n x).fns = s.fns := rfl
@[simp] theorem State.setPort_gysis (s : State) (n : Nat) (x : Port) : (s.setPort n x).gysis = s.gysis := rfl
@[simp] theorem State.setPort_sec (s : State) (n : Nat) (x : Port) : (s.setPort n x).sec = s.sec := rfl
@[simp] theorem State.setPort_clocks (s : State) (n : Nat) (x : Port) : (s.setPort n x).clocks = s.clocks := rfl
@[simp] theorem State.setPort_power (s : State) (n : Nat) (x : Port) : (s.setPort n x).power = s.power := rfl
@[simp] theorem State.setPort_boot (s : State) (n : Nat) (x : Port) : (s.setPort n x).boot = s.boot := rfl
@[simp] theorem State.setPort_nvm (s : State) (n : Nat) (x : Port) : (s.setPort n x).nvm = s.nvm := rfl
@[simp] theorem State.setPort_board (s : State) (n : Nat) (x : Port) : (s.setPort n x).board = s.board := rfl
@[simp] theorem State.setPort_now (s : State) (n : Nat) (x : Port) : (s.setPort n x).now = s.now := rfl
@[simp] theorem State.setPort_free (s : State) (n : Nat) (x : Port) : (s.setPort n x).free = s.free := rfl
@[simp] theorem State.setPort_out (s : State) (n : Nat) (x : Port) : (s.setPort n x).out = s.out := rfl
@[simp] theorem State.setPort_pending (s : State) (n : Nat) (x : Port) : (s.setPort n x).pending = s.pending := rfl

/-! ## setClk -/

@[simp] theorem State.setClk_mem (s : State) (d : Nat) (x : ClkDom) : (s.setClk d x).mem = s.mem := rfl
@[simp] theorem State.setClk_rooms (s : State) (d : Nat) (x : ClkDom) : (s.setClk d x).rooms = s.rooms := rfl
@[simp] theorem State.setClk_hbm (s : State) (d : Nat) (x : ClkDom) : (s.setClk d x).hbm = s.hbm := rfl
@[simp] theorem State.setClk_parts (s : State) (d : Nat) (x : ClkDom) : (s.setClk d x).parts = s.parts := rfl
@[simp] theorem State.setClk_fns (s : State) (d : Nat) (x : ClkDom) : (s.setClk d x).fns = s.fns := rfl
@[simp] theorem State.setClk_gysis (s : State) (d : Nat) (x : ClkDom) : (s.setClk d x).gysis = s.gysis := rfl
@[simp] theorem State.setClk_sec (s : State) (d : Nat) (x : ClkDom) : (s.setClk d x).sec = s.sec := rfl
@[simp] theorem State.setClk_links (s : State) (d : Nat) (x : ClkDom) : (s.setClk d x).links = s.links := rfl
@[simp] theorem State.setClk_power (s : State) (d : Nat) (x : ClkDom) : (s.setClk d x).power = s.power := rfl
@[simp] theorem State.setClk_boot (s : State) (d : Nat) (x : ClkDom) : (s.setClk d x).boot = s.boot := rfl
@[simp] theorem State.setClk_nvm (s : State) (d : Nat) (x : ClkDom) : (s.setClk d x).nvm = s.nvm := rfl
@[simp] theorem State.setClk_board (s : State) (d : Nat) (x : ClkDom) : (s.setClk d x).board = s.board := rfl
@[simp] theorem State.setClk_now (s : State) (d : Nat) (x : ClkDom) : (s.setClk d x).now = s.now := rfl
@[simp] theorem State.setClk_free (s : State) (d : Nat) (x : ClkDom) : (s.setClk d x).free = s.free := rfl
@[simp] theorem State.setClk_out (s : State) (d : Nat) (x : ClkDom) : (s.setClk d x).out = s.out := rfl
@[simp] theorem State.setClk_pending (s : State) (d : Nat) (x : ClkDom) : (s.setClk d x).pending = s.pending := rfl

/-! ## setSource -/

@[simp] theorem State.setSource_mem (s : State) (n : Nat) (x : Source) : (s.setSource n x).mem = s.mem := rfl
@[simp] theorem State.setSource_rooms (s : State) (n : Nat) (x : Source) : (s.setSource n x).rooms = s.rooms := rfl
@[simp] theorem State.setSource_hbm (s : State) (n : Nat) (x : Source) : (s.setSource n x).hbm = s.hbm := rfl
@[simp] theorem State.setSource_parts (s : State) (n : Nat) (x : Source) : (s.setSource n x).parts = s.parts := rfl
@[simp] theorem State.setSource_fns (s : State) (n : Nat) (x : Source) : (s.setSource n x).fns = s.fns := rfl
@[simp] theorem State.setSource_sec (s : State) (n : Nat) (x : Source) : (s.setSource n x).sec = s.sec := rfl
@[simp] theorem State.setSource_links (s : State) (n : Nat) (x : Source) : (s.setSource n x).links = s.links := rfl
@[simp] theorem State.setSource_clocks (s : State) (n : Nat) (x : Source) : (s.setSource n x).clocks = s.clocks := rfl
@[simp] theorem State.setSource_power (s : State) (n : Nat) (x : Source) : (s.setSource n x).power = s.power := rfl
@[simp] theorem State.setSource_boot (s : State) (n : Nat) (x : Source) : (s.setSource n x).boot = s.boot := rfl
@[simp] theorem State.setSource_nvm (s : State) (n : Nat) (x : Source) : (s.setSource n x).nvm = s.nvm := rfl
@[simp] theorem State.setSource_board (s : State) (n : Nat) (x : Source) : (s.setSource n x).board = s.board := rfl
@[simp] theorem State.setSource_now (s : State) (n : Nat) (x : Source) : (s.setSource n x).now = s.now := rfl
@[simp] theorem State.setSource_free (s : State) (n : Nat) (x : Source) : (s.setSource n x).free = s.free := rfl
@[simp] theorem State.setSource_out (s : State) (n : Nat) (x : Source) : (s.setSource n x).out = s.out := rfl
@[simp] theorem State.setSource_pending (s : State) (n : Nat) (x : Source) : (s.setSource n x).pending = s.pending := rfl

/-! ## emit -/

@[simp] theorem State.emit_mem (s : State) (e : OutEvent) : (s.emit e).mem = s.mem := rfl
@[simp] theorem State.emit_rooms (s : State) (e : OutEvent) : (s.emit e).rooms = s.rooms := rfl
@[simp] theorem State.emit_hbm (s : State) (e : OutEvent) : (s.emit e).hbm = s.hbm := rfl
@[simp] theorem State.emit_parts (s : State) (e : OutEvent) : (s.emit e).parts = s.parts := rfl
@[simp] theorem State.emit_fns (s : State) (e : OutEvent) : (s.emit e).fns = s.fns := rfl
@[simp] theorem State.emit_gysis (s : State) (e : OutEvent) : (s.emit e).gysis = s.gysis := rfl
@[simp] theorem State.emit_sec (s : State) (e : OutEvent) : (s.emit e).sec = s.sec := rfl
@[simp] theorem State.emit_links (s : State) (e : OutEvent) : (s.emit e).links = s.links := rfl
@[simp] theorem State.emit_clocks (s : State) (e : OutEvent) : (s.emit e).clocks = s.clocks := rfl
@[simp] theorem State.emit_power (s : State) (e : OutEvent) : (s.emit e).power = s.power := rfl
@[simp] theorem State.emit_boot (s : State) (e : OutEvent) : (s.emit e).boot = s.boot := rfl
@[simp] theorem State.emit_nvm (s : State) (e : OutEvent) : (s.emit e).nvm = s.nvm := rfl
@[simp] theorem State.emit_board (s : State) (e : OutEvent) : (s.emit e).board = s.board := rfl
@[simp] theorem State.emit_now (s : State) (e : OutEvent) : (s.emit e).now = s.now := rfl
@[simp] theorem State.emit_free (s : State) (e : OutEvent) : (s.emit e).free = s.free := rfl
@[simp] theorem State.emit_pending (s : State) (e : OutEvent) : (s.emit e).pending = s.pending := rfl

/-! ## draw -/

@[simp] theorem State.draw_mem (s : State) (n : Nat) : (s.draw n).mem = s.mem := rfl
@[simp] theorem State.draw_rooms (s : State) (n : Nat) : (s.draw n).rooms = s.rooms := rfl
@[simp] theorem State.draw_hbm (s : State) (n : Nat) : (s.draw n).hbm = s.hbm := rfl
@[simp] theorem State.draw_parts (s : State) (n : Nat) : (s.draw n).parts = s.parts := rfl
@[simp] theorem State.draw_fns (s : State) (n : Nat) : (s.draw n).fns = s.fns := rfl
@[simp] theorem State.draw_gysis (s : State) (n : Nat) : (s.draw n).gysis = s.gysis := rfl
@[simp] theorem State.draw_sec (s : State) (n : Nat) : (s.draw n).sec = s.sec := rfl
@[simp] theorem State.draw_links (s : State) (n : Nat) : (s.draw n).links = s.links := rfl
@[simp] theorem State.draw_clocks (s : State) (n : Nat) : (s.draw n).clocks = s.clocks := rfl
@[simp] theorem State.draw_power (s : State) (n : Nat) : (s.draw n).power = s.power := rfl
@[simp] theorem State.draw_boot (s : State) (n : Nat) : (s.draw n).boot = s.boot := rfl
@[simp] theorem State.draw_nvm (s : State) (n : Nat) : (s.draw n).nvm = s.nvm := rfl
@[simp] theorem State.draw_board (s : State) (n : Nat) : (s.draw n).board = s.board := rfl
@[simp] theorem State.draw_now (s : State) (n : Nat) : (s.draw n).now = s.now := rfl
@[simp] theorem State.draw_out (s : State) (n : Nat) : (s.draw n).out = s.out := rfl
@[simp] theorem State.draw_pending (s : State) (n : Nat) : (s.draw n).pending = s.pending := rfl

/-! ## record -/

@[simp] theorem State.record_mem (s : State) (e : LedgerEntry) : (s.record e).mem = s.mem := rfl
@[simp] theorem State.record_rooms (s : State) (e : LedgerEntry) : (s.record e).rooms = s.rooms := rfl
@[simp] theorem State.record_hbm (s : State) (e : LedgerEntry) : (s.record e).hbm = s.hbm := rfl
@[simp] theorem State.record_parts (s : State) (e : LedgerEntry) : (s.record e).parts = s.parts := rfl
@[simp] theorem State.record_fns (s : State) (e : LedgerEntry) : (s.record e).fns = s.fns := rfl
@[simp] theorem State.record_sec (s : State) (e : LedgerEntry) : (s.record e).sec = s.sec := rfl
@[simp] theorem State.record_links (s : State) (e : LedgerEntry) : (s.record e).links = s.links := rfl
@[simp] theorem State.record_clocks (s : State) (e : LedgerEntry) : (s.record e).clocks = s.clocks := rfl
@[simp] theorem State.record_power (s : State) (e : LedgerEntry) : (s.record e).power = s.power := rfl
@[simp] theorem State.record_boot (s : State) (e : LedgerEntry) : (s.record e).boot = s.boot := rfl
@[simp] theorem State.record_nvm (s : State) (e : LedgerEntry) : (s.record e).nvm = s.nvm := rfl
@[simp] theorem State.record_board (s : State) (e : LedgerEntry) : (s.record e).board = s.board := rfl
@[simp] theorem State.record_now (s : State) (e : LedgerEntry) : (s.record e).now = s.now := rfl
@[simp] theorem State.record_free (s : State) (e : LedgerEntry) : (s.record e).free = s.free := rfl
@[simp] theorem State.record_out (s : State) (e : LedgerEntry) : (s.record e).out = s.out := rfl
@[simp] theorem State.record_pending (s : State) (e : LedgerEntry) : (s.record e).pending = s.pending := rfl

/-! ## Accessors after an update -/

theorem State.room_setRoom (s : State) (r q : Nat) (x : Room) : (s.setRoom r x).room q = if q = r then x else s.room q := Tab.get_set _ _ _ _ _
theorem State.stack_setStack (s : State) (r q : Nat) (x : Stack) : (s.setStack r x).stack q = if q = r then x else s.stack q := Tab.get_set _ _ _ _ _
theorem State.part_setPart (s : State) (p q : Nat) (x : Part) : (s.setPart p x).part q = if q = p then x else s.part q := Tab.get_set _ _ _ _ _
theorem State.fn_setFn (s : State) (f g : Nat) (x : Fn) : (s.setFn f x).fn g = if g = f then x else s.fn g := Tab.get_set _ _ _ _ _
theorem State.port_setPort (s : State) (n m : Nat) (x : Port) : (s.setPort n x).port m = if m = n then x else s.port m := Tab.get_set _ _ _ _ _
theorem State.clk_setClk (s : State) (d e : Nat) (x : ClkDom) : (s.setClk d x).clk e = if e = d then x else s.clk e := Tab.get_set _ _ _ _ _
theorem State.source_setSource (s : State) (n m : Nat) (x : Source) : (s.setSource n x).source m = if m = n then x else s.source m := Tab.get_set _ _ _ _ _
theorem Fn.slot_setSlot (y : Fn) (k j : Nat) (x : Slot) : (y.setSlot k x).slot j = if j = k then x else y.slot j := Tab.get_set _ _ _ _ _
theorem Room.chan_setChan (y : Room) (c d : Nat) (x : Channel) : (y.setChan c x).chan d = if d = c then x else y.chan d := Tab.get_set _ _ _ _ _
theorem Room.layer_setLayer (y : Room) (l m : Nat) (x : Layer) : (y.setLayer l x).layer m = if m = l then x else y.layer m := Tab.get_set _ _ _ _ _

@[simp] theorem State.room_setRoom_same (s : State) (r : Nat) (x : Room) : (s.setRoom r x).room r = x := by simp [State.room_setRoom]
@[simp] theorem State.stack_setStack_same (s : State) (r : Nat) (x : Stack) : (s.setStack r x).stack r = x := by simp [State.stack_setStack]
@[simp] theorem State.part_setPart_same (s : State) (p : Nat) (x : Part) : (s.setPart p x).part p = x := by simp [State.part_setPart]
@[simp] theorem State.fn_setFn_same (s : State) (f : Nat) (x : Fn) : (s.setFn f x).fn f = x := by simp [State.fn_setFn]
@[simp] theorem State.port_setPort_same (s : State) (n : Nat) (x : Port) : (s.setPort n x).port n = x := by simp [State.port_setPort]
@[simp] theorem State.clk_setClk_same (s : State) (d : Nat) (x : ClkDom) : (s.setClk d x).clk d = x := by simp [State.clk_setClk]
@[simp] theorem State.source_setSource_same (s : State) (n : Nat) (x : Source) : (s.setSource n x).source n = x := by simp [State.source_setSource]
@[simp] theorem Fn.slot_setSlot_same (y : Fn) (k : Nat) (x : Slot) : (y.setSlot k x).slot k = x := by simp [Fn.slot_setSlot]
@[simp] theorem Room.chan_setChan_same (y : Room) (c : Nat) (x : Channel) : (y.setChan c x).chan c = x := by simp [Room.chan_setChan]
@[simp] theorem Room.layer_setLayer_same (y : Room) (l : Nat) (x : Layer) : (y.setLayer l x).layer l = x := by simp [Room.layer_setLayer]

@[simp] theorem State.room_setStack (s : State) (r : Nat) (x : Stack) (q : Nat) : (s.setStack r x).room q = s.room q := rfl
@[simp] theorem State.room_setPart (s : State) (p : Nat) (x : Part) (q : Nat) : (s.setPart p x).room q = s.room q := rfl
@[simp] theorem State.room_setFn (s : State) (f : Nat) (x : Fn) (q : Nat) : (s.setFn f x).room q = s.room q := rfl
@[simp] theorem State.room_setSlot (s : State) (f k : Nat) (x : Slot) (q : Nat) : (s.setSlot f k x).room q = s.room q := rfl
@[simp] theorem State.room_setPort (s : State) (n : Nat) (x : Port) (q : Nat) : (s.setPort n x).room q = s.room q := rfl
@[simp] theorem State.room_setClk (s : State) (d : Nat) (x : ClkDom) (q : Nat) : (s.setClk d x).room q = s.room q := rfl
@[simp] theorem State.room_setSource (s : State) (n : Nat) (x : Source) (q : Nat) : (s.setSource n x).room q = s.room q := rfl
@[simp] theorem State.room_emit (s : State) (e : OutEvent) (q : Nat) : (s.emit e).room q = s.room q := rfl
@[simp] theorem State.room_draw (s : State) (n : Nat) (q : Nat) : (s.draw n).room q = s.room q := rfl
@[simp] theorem State.room_record (s : State) (e : LedgerEntry) (q : Nat) : (s.record e).room q = s.room q := rfl

@[simp] theorem State.stack_setRoom (s : State) (r : Nat) (x : Room) (q : Nat) : (s.setRoom r x).stack q = s.stack q := rfl
@[simp] theorem State.stack_setPart (s : State) (p : Nat) (x : Part) (q : Nat) : (s.setPart p x).stack q = s.stack q := rfl
@[simp] theorem State.stack_setFn (s : State) (f : Nat) (x : Fn) (q : Nat) : (s.setFn f x).stack q = s.stack q := rfl
@[simp] theorem State.stack_setSlot (s : State) (f k : Nat) (x : Slot) (q : Nat) : (s.setSlot f k x).stack q = s.stack q := rfl
@[simp] theorem State.stack_setPort (s : State) (n : Nat) (x : Port) (q : Nat) : (s.setPort n x).stack q = s.stack q := rfl
@[simp] theorem State.stack_setClk (s : State) (d : Nat) (x : ClkDom) (q : Nat) : (s.setClk d x).stack q = s.stack q := rfl
@[simp] theorem State.stack_setSource (s : State) (n : Nat) (x : Source) (q : Nat) : (s.setSource n x).stack q = s.stack q := rfl
@[simp] theorem State.stack_emit (s : State) (e : OutEvent) (q : Nat) : (s.emit e).stack q = s.stack q := rfl
@[simp] theorem State.stack_draw (s : State) (n : Nat) (q : Nat) : (s.draw n).stack q = s.stack q := rfl
@[simp] theorem State.stack_record (s : State) (e : LedgerEntry) (q : Nat) : (s.record e).stack q = s.stack q := rfl

@[simp] theorem State.part_setRoom (s : State) (r : Nat) (x : Room) (q : Nat) : (s.setRoom r x).part q = s.part q := rfl
@[simp] theorem State.part_setStack (s : State) (r : Nat) (x : Stack) (q : Nat) : (s.setStack r x).part q = s.part q := rfl
@[simp] theorem State.part_setFn (s : State) (f : Nat) (x : Fn) (q : Nat) : (s.setFn f x).part q = s.part q := rfl
@[simp] theorem State.part_setSlot (s : State) (f k : Nat) (x : Slot) (q : Nat) : (s.setSlot f k x).part q = s.part q := rfl
@[simp] theorem State.part_setPort (s : State) (n : Nat) (x : Port) (q : Nat) : (s.setPort n x).part q = s.part q := rfl
@[simp] theorem State.part_setClk (s : State) (d : Nat) (x : ClkDom) (q : Nat) : (s.setClk d x).part q = s.part q := rfl
@[simp] theorem State.part_setSource (s : State) (n : Nat) (x : Source) (q : Nat) : (s.setSource n x).part q = s.part q := rfl
@[simp] theorem State.part_emit (s : State) (e : OutEvent) (q : Nat) : (s.emit e).part q = s.part q := rfl
@[simp] theorem State.part_draw (s : State) (n : Nat) (q : Nat) : (s.draw n).part q = s.part q := rfl
@[simp] theorem State.part_record (s : State) (e : LedgerEntry) (q : Nat) : (s.record e).part q = s.part q := rfl

@[simp] theorem State.fn_setRoom (s : State) (r : Nat) (x : Room) (q : Nat) : (s.setRoom r x).fn q = s.fn q := rfl
@[simp] theorem State.fn_setStack (s : State) (r : Nat) (x : Stack) (q : Nat) : (s.setStack r x).fn q = s.fn q := rfl
@[simp] theorem State.fn_setPart (s : State) (p : Nat) (x : Part) (q : Nat) : (s.setPart p x).fn q = s.fn q := rfl
@[simp] theorem State.fn_setPort (s : State) (n : Nat) (x : Port) (q : Nat) : (s.setPort n x).fn q = s.fn q := rfl
@[simp] theorem State.fn_setClk (s : State) (d : Nat) (x : ClkDom) (q : Nat) : (s.setClk d x).fn q = s.fn q := rfl
@[simp] theorem State.fn_setSource (s : State) (n : Nat) (x : Source) (q : Nat) : (s.setSource n x).fn q = s.fn q := rfl
@[simp] theorem State.fn_emit (s : State) (e : OutEvent) (q : Nat) : (s.emit e).fn q = s.fn q := rfl
@[simp] theorem State.fn_draw (s : State) (n : Nat) (q : Nat) : (s.draw n).fn q = s.fn q := rfl
@[simp] theorem State.fn_record (s : State) (e : LedgerEntry) (q : Nat) : (s.record e).fn q = s.fn q := rfl

@[simp] theorem State.port_setRoom (s : State) (r : Nat) (x : Room) (q : Nat) : (s.setRoom r x).port q = s.port q := rfl
@[simp] theorem State.port_setStack (s : State) (r : Nat) (x : Stack) (q : Nat) : (s.setStack r x).port q = s.port q := rfl
@[simp] theorem State.port_setPart (s : State) (p : Nat) (x : Part) (q : Nat) : (s.setPart p x).port q = s.port q := rfl
@[simp] theorem State.port_setFn (s : State) (f : Nat) (x : Fn) (q : Nat) : (s.setFn f x).port q = s.port q := rfl
@[simp] theorem State.port_setSlot (s : State) (f k : Nat) (x : Slot) (q : Nat) : (s.setSlot f k x).port q = s.port q := rfl
@[simp] theorem State.port_setClk (s : State) (d : Nat) (x : ClkDom) (q : Nat) : (s.setClk d x).port q = s.port q := rfl
@[simp] theorem State.port_setSource (s : State) (n : Nat) (x : Source) (q : Nat) : (s.setSource n x).port q = s.port q := rfl
@[simp] theorem State.port_emit (s : State) (e : OutEvent) (q : Nat) : (s.emit e).port q = s.port q := rfl
@[simp] theorem State.port_draw (s : State) (n : Nat) (q : Nat) : (s.draw n).port q = s.port q := rfl
@[simp] theorem State.port_record (s : State) (e : LedgerEntry) (q : Nat) : (s.record e).port q = s.port q := rfl

@[simp] theorem State.clk_setRoom (s : State) (r : Nat) (x : Room) (q : Nat) : (s.setRoom r x).clk q = s.clk q := rfl
@[simp] theorem State.clk_setStack (s : State) (r : Nat) (x : Stack) (q : Nat) : (s.setStack r x).clk q = s.clk q := rfl
@[simp] theorem State.clk_setPart (s : State) (p : Nat) (x : Part) (q : Nat) : (s.setPart p x).clk q = s.clk q := rfl
@[simp] theorem State.clk_setFn (s : State) (f : Nat) (x : Fn) (q : Nat) : (s.setFn f x).clk q = s.clk q := rfl
@[simp] theorem State.clk_setSlot (s : State) (f k : Nat) (x : Slot) (q : Nat) : (s.setSlot f k x).clk q = s.clk q := rfl
@[simp] theorem State.clk_setPort (s : State) (n : Nat) (x : Port) (q : Nat) : (s.setPort n x).clk q = s.clk q := rfl
@[simp] theorem State.clk_setSource (s : State) (n : Nat) (x : Source) (q : Nat) : (s.setSource n x).clk q = s.clk q := rfl
@[simp] theorem State.clk_emit (s : State) (e : OutEvent) (q : Nat) : (s.emit e).clk q = s.clk q := rfl
@[simp] theorem State.clk_draw (s : State) (n : Nat) (q : Nat) : (s.draw n).clk q = s.clk q := rfl
@[simp] theorem State.clk_record (s : State) (e : LedgerEntry) (q : Nat) : (s.record e).clk q = s.clk q := rfl

@[simp] theorem State.source_setRoom (s : State) (r : Nat) (x : Room) (q : Nat) : (s.setRoom r x).source q = s.source q := rfl
@[simp] theorem State.source_setStack (s : State) (r : Nat) (x : Stack) (q : Nat) : (s.setStack r x).source q = s.source q := rfl
@[simp] theorem State.source_setPart (s : State) (p : Nat) (x : Part) (q : Nat) : (s.setPart p x).source q = s.source q := rfl
@[simp] theorem State.source_setFn (s : State) (f : Nat) (x : Fn) (q : Nat) : (s.setFn f x).source q = s.source q := rfl
@[simp] theorem State.source_setSlot (s : State) (f k : Nat) (x : Slot) (q : Nat) : (s.setSlot f k x).source q = s.source q := rfl
@[simp] theorem State.source_setPort (s : State) (n : Nat) (x : Port) (q : Nat) : (s.setPort n x).source q = s.source q := rfl
@[simp] theorem State.source_setClk (s : State) (d : Nat) (x : ClkDom) (q : Nat) : (s.setClk d x).source q = s.source q := rfl
@[simp] theorem State.source_emit (s : State) (e : OutEvent) (q : Nat) : (s.emit e).source q = s.source q := rfl
@[simp] theorem State.source_draw (s : State) (n : Nat) (q : Nat) : (s.draw n).source q = s.source q := rfl
@[simp] theorem State.source_record (s : State) (e : LedgerEntry) (q : Nat) : (s.record e).source q = s.source q := rfl

end Sys2Proof.Machine
end

