-- ==== Sys2Proof/Laws/Keeps.lean ====
section
/-! SUPPORT. What every operation of the machine leaves alone: the queue of commands, and the canonical form of memory. -/

namespace Sys2Proof.Machine

/-- A memory in canonical form beside a queue `q`. -/
def Kept (q : List Instr) (m : Mem) (p : List Instr) : Prop := p = q ∧ Mem.wf m.attic = true ∧ Mem.wf m.cellar = true

/-- The state holds the queue `q`, and its memory is in canonical form. -/
def State.Keeps (q : List Instr) (s : State) : Prop := Kept q s.mem s.pending

@[simp] theorem keeps_mk {q : List Instr} {m : Mem} {a b c d e f g h i j k l n o r p} :
    State.Keeps q ⟨m, a, b, c, d, e, f, g, h, i, j, k, l, n, o, r, p⟩ = Kept q m p := propext Iff.rfl

@[simp] theorem kept_fold {q : List Instr} {s : State} : Kept q s.mem s.pending = State.Keeps q s := propext Iff.rfl

@[simp] theorem keeps_ite {q : List Instr} {c : Prop} [Decidable c] {s t : State} :
    State.Keeps q (if c then s else t) = (if c then State.Keeps q s else State.Keeps q t) := by split <;> rfl

theorem keeps_if {q : List Instr} {c : Prop} [Decidable c] {s t : State} (hs : State.Keeps q s) (ht : State.Keeps q t) :
    State.Keeps q (if c then s else t) := by split <;> assumption

@[simp] theorem fst_ite {α β : Type} {c : Prop} [Decidable c] {s t : α × β} :
    (if c then s else t).1 = (if c then s.1 else t.1) := by split <;> rfl

/-- What a fold keeps is what each of its steps keeps. -/
theorem foldl_inv {α β : Type} (P : β → Prop) {f : β → α → β} (hf : ∀ a x, P a → P (f a x)) : ∀ (l : List α) (b : β), P b → P (l.foldl f b)
  | [], _, h => h
  | x :: l, b, h => foldl_inv P hf l (f b x) (hf b x h)

theorem foldl_keeps {q : List Instr} {α : Type} {f : State → α → State} (hf : ∀ a x, State.Keeps q a → State.Keeps q (f a x)) :
    ∀ (l : List α) (s : State), State.Keeps q s → State.Keeps q (l.foldl f s)
  | [], _, h => h
  | x :: l, s, h => foldl_keeps hf l (f s x) (hf s x h)

theorem foldl_keeps_fst {q : List Instr} {α β : Type} {f : State × β → α → State × β}
    (hf : ∀ a x, State.Keeps q a.1 → State.Keeps q (f a x).1) :
    ∀ (l : List α) (s : State × β), State.Keeps q s.1 → State.Keeps q (l.foldl f s).1
  | [], _, h => h
  | x :: l, s, h => foldl_keeps_fst hf l (f s x) (hf s x h)

theorem keeps_of_eq {q : List Instr} {β : Type} {x : State × β} {t : State} {y : β} (e : x = (t, y)) (h : State.Keeps q x.1) : State.Keeps q t := by
  subst e; exact h

@[simp] theorem State.setRoom_keeps {q : List Instr} {s : State} {r : Nat} {x : Room} : State.Keeps q (s.setRoom r x) = State.Keeps q s := propext Iff.rfl
@[simp] theorem State.setStack_keeps {q : List Instr} {s : State} {r : Nat} {x : Stack} : State.Keeps q (s.setStack r x) = State.Keeps q s := propext Iff.rfl
@[simp] theorem State.setPart_keeps {q : List Instr} {s : State} {r : Nat} {x : Part} : State.Keeps q (s.setPart r x) = State.Keeps q s := propext Iff.rfl
@[simp] theorem State.setFn_keeps {q : List Instr} {s : State} {r : Nat} {x : Fn} : State.Keeps q (s.setFn r x) = State.Keeps q s := propext Iff.rfl
@[simp] theorem State.setSlot_keeps {q : List Instr} {s : State} {f k : Nat} {x : Slot} : State.Keeps q (s.setSlot f k x) = State.Keeps q s := propext Iff.rfl
@[simp] theorem State.setPort_keeps {q : List Instr} {s : State} {r : Nat} {x : Port} : State.Keeps q (s.setPort r x) = State.Keeps q s := propext Iff.rfl
@[simp] theorem State.setClk_keeps {q : List Instr} {s : State} {r : Nat} {x : ClkDom} : State.Keeps q (s.setClk r x) = State.Keeps q s := propext Iff.rfl
@[simp] theorem State.setSource_keeps {q : List Instr} {s : State} {r : Nat} {x : Source} : State.Keeps q (s.setSource r x) = State.Keeps q s := propext Iff.rfl
@[simp] theorem State.emit_keeps {q : List Instr} {s : State} {e : OutEvent} : State.Keeps q (s.emit e) = State.Keeps q s := propext Iff.rfl
@[simp] theorem State.draw_keeps {q : List Instr} {s : State} {n : Nat} : State.Keeps q (s.draw n) = State.Keeps q s := propext Iff.rfl
@[simp] theorem State.record_keeps {q : List Instr} {s : State} {e : LedgerEntry} : State.Keeps q (s.record e) = State.Keeps q s := propext Iff.rfl

/-- A command's effect keeps the queue and the canonical form, whether it ends or waits. -/
def CmdEnd.Keeps (q : List Instr) : CmdEnd → Prop
  | .ended t _ _ _ _ => State.Keeps q t
  | .waits t => State.Keeps q t

@[simp] theorem CmdEnd.keeps_ended {q : List Instr} {t a b c d} : CmdEnd.Keeps q (.ended t a b c d) = State.Keeps q t := propext Iff.rfl
@[simp] theorem CmdEnd.keeps_waits {q : List Instr} {t} : CmdEnd.Keeps q (.waits t) = State.Keeps q t := propext Iff.rfl
@[simp] theorem CmdEnd.keeps_ite {q : List Instr} {c : Prop} [Decidable c] {s t : CmdEnd} :
    CmdEnd.Keeps q (if c then s else t) = (if c then CmdEnd.Keeps q s else CmdEnd.Keeps q t) := by split <;> rfl

theorem CmdEnd.keeps_if {q : List Instr} {c : Prop} [Decidable c] {s t : CmdEnd} (hs : CmdEnd.Keeps q s) (ht : CmdEnd.Keeps q t) :
    CmdEnd.Keeps q (if c then s else t) := by split <;> assumption

/-- An outcome that is a next state keeps the queue and the canonical form. -/
def OutKeeps (q : List Instr) : Host.Outcome State Fault Refusal → Prop
  | .next t => State.Keeps q t
  | .fault _ => True
  | .refused _ => True

@[simp] theorem outKeeps_next {q : List Instr} {t} : OutKeeps q (.next t) = State.Keeps q t := propext Iff.rfl
@[simp] theorem outKeeps_ite {q : List Instr} {c : Prop} [Decidable c] {s t} :
    OutKeeps q (if c then s else t) = (if c then OutKeeps q s else OutKeeps q t) := by split <;> rfl

end Sys2Proof.Machine
end

