-- ==== Sys2Proof/Laws/KeepsOps.lean ====
section
/-! SUPPORT. What the operations of Ops leave alone: the queue of commands and the canonical form of memory. -/

namespace Sys2Proof.Machine

@[simp] theorem State.writeAttic_keeps {qq : List Instr} {s : State} (r off : Nat) (data : List Byte) (h : State.Keeps qq s) :
    State.Keeps qq (State.writeAttic s r off data) := ⟨h.1, Mem.wf_write h.2.1 _ _, h.2.2⟩

@[simp] theorem State.writeCellar_keeps {qq : List Instr} {s : State} (r off : Nat) (data : List Byte) (h : State.Keeps qq s) :
    State.Keeps qq (State.writeCellar s r off data) := ⟨h.1, h.2.1, Mem.wf_write h.2.2 _ _⟩

@[simp] theorem State.countEcc_keeps {qq : List Instr} {s : State} (r : Nat) (bursts : List Nat) (h : State.Keeps qq s) :
    State.Keeps qq (State.countEcc s r bursts) := by
  unfold State.countEcc
  try dsimp only
  (repeat' split) <;> try simp_all (maxDischargeDepth := 12) +contextual [foldl_keeps, foldl_keeps_fst]
  all_goals (repeat' split) <;> try simp_all (maxDischargeDepth := 12) +contextual [foldl_keeps, foldl_keeps_fst]
  all_goals (have he := (by assumption : (_ : State × _) = (_, _)); have hk : State.Keeps qq _ := keeps_of_eq he (by simp (maxDischargeDepth := 12) [h]); simp_all (maxDischargeDepth := 12) +contextual [foldl_keeps, foldl_keeps_fst])

@[simp] theorem State.cellarRead_keeps {qq : List Instr} {s : State} (r off n : Nat) (h : State.Keeps qq s) :
    State.Keeps qq (State.cellarRead s r off n).1 := by
  unfold State.cellarRead
  try dsimp only
  (repeat' split) <;> try simp_all (maxDischargeDepth := 12) +contextual [foldl_keeps, foldl_keeps_fst]
  all_goals (repeat' split) <;> try simp_all (maxDischargeDepth := 12) +contextual [foldl_keeps, foldl_keeps_fst]
  all_goals (have he := (by assumption : (_ : State × _) = (_, _)); have hk : State.Keeps qq _ := keeps_of_eq he (by simp (maxDischargeDepth := 12) [h]); simp_all (maxDischargeDepth := 12) +contextual [foldl_keeps, foldl_keeps_fst])

@[simp] theorem State.mergeRead_keeps {qq : List Instr} {s : State} (r : Nat) (bursts : List Nat) (h : State.Keeps qq s) :
    State.Keeps qq (State.mergeRead s r bursts) := by
  unfold State.mergeRead
  try dsimp only
  (repeat' split) <;> try simp_all (maxDischargeDepth := 12) +contextual [foldl_keeps, foldl_keeps_fst]
  all_goals (repeat' split) <;> try simp_all (maxDischargeDepth := 12) +contextual [foldl_keeps, foldl_keeps_fst]
  all_goals (have he := (by assumption : (_ : State × _) = (_, _)); have hk : State.Keeps qq _ := keeps_of_eq he (by simp (maxDischargeDepth := 12) [h]); simp_all (maxDischargeDepth := 12) +contextual [foldl_keeps, foldl_keeps_fst])

@[simp] theorem State.mergeWrite_keeps {qq : List Instr} {s : State} (r line : Nat) (bytes : List Byte) (h : State.Keeps qq s) :
    State.Keeps qq (State.mergeWrite s r line bytes) := by
  unfold State.mergeWrite
  try dsimp only
  (repeat' split) <;> try simp_all (maxDischargeDepth := 12) +contextual [foldl_keeps, foldl_keeps_fst]
  all_goals (repeat' split) <;> try simp_all (maxDischargeDepth := 12) +contextual [foldl_keeps, foldl_keeps_fst]
  all_goals (have he := (by assumption : (_ : State × _) = (_, _)); have hk : State.Keeps qq _ := keeps_of_eq he (by simp (maxDischargeDepth := 12) [h]); simp_all (maxDischargeDepth := 12) +contextual [foldl_keeps, foldl_keeps_fst])

@[simp] theorem State.cellarWrite_keeps {qq : List Instr} {s : State} (r off : Nat) (data : List Byte) (h : State.Keeps qq s) :
    State.Keeps qq (State.cellarWrite s r off data).1 := by
  unfold State.cellarWrite
  refine foldl_keeps_fst (fun a x ha => ?_) _ _ h
  dsimp only
  repeat' split
  all_goals simp (maxDischargeDepth := 12) [ha]

end Sys2Proof.Machine
end

