-- ==== Sys2Proof/Laws/KeepsFlags.lean ====
section
/-! SUPPORT. What the operations of Flags leave alone: the queue of commands and the canonical form of memory. -/

namespace Sys2Proof.Machine

@[simp] theorem State.raise_keeps {qq : List Instr} {s : State} (n : Nat) (h : State.Keeps qq s) :
    State.Keeps qq (State.raise s n) := by
  unfold State.raise
  try dsimp only
  (repeat' split) <;> try simp_all (maxDischargeDepth := 12) +contextual [foldl_keeps, foldl_keeps_fst]
  all_goals (repeat' split) <;> try simp_all (maxDischargeDepth := 12) +contextual [foldl_keeps, foldl_keeps_fst]
  all_goals (have he := (by assumption : (_ : State × _) = (_, _)); have hk : State.Keeps qq _ := keeps_of_eq he (by simp (maxDischargeDepth := 12) [h]); simp_all (maxDischargeDepth := 12) +contextual [foldl_keeps, foldl_keeps_fst])

@[simp] theorem State.raiseVector_keeps {qq : List Instr} {s : State} (f v : Nat) (h : State.Keeps qq s) :
    State.Keeps qq (State.raiseVector s f v) := by
  unfold State.raiseVector
  try dsimp only
  (repeat' split) <;> try simp_all (maxDischargeDepth := 12) +contextual [foldl_keeps, foldl_keeps_fst]
  all_goals (repeat' split) <;> try simp_all (maxDischargeDepth := 12) +contextual [foldl_keeps, foldl_keeps_fst]
  all_goals (have he := (by assumption : (_ : State × _) = (_, _)); have hk : State.Keeps qq _ := keeps_of_eq he (by simp (maxDischargeDepth := 12) [h]); simp_all (maxDischargeDepth := 12) +contextual [foldl_keeps, foldl_keeps_fst])

@[simp] theorem State.setCause_keeps {qq : List Instr} {s : State} (f k : Nat) (h : State.Keeps qq s) :
    State.Keeps qq (State.setCause s f k) := by
  unfold State.setCause
  try dsimp only
  (repeat' split) <;> try simp_all (maxDischargeDepth := 12) +contextual [foldl_keeps, foldl_keeps_fst]
  all_goals (repeat' split) <;> try simp_all (maxDischargeDepth := 12) +contextual [foldl_keeps, foldl_keeps_fst]
  all_goals (have he := (by assumption : (_ : State × _) = (_, _)); have hk : State.Keeps qq _ := keeps_of_eq he (by simp (maxDischargeDepth := 12) [h]); simp_all (maxDischargeDepth := 12) +contextual [foldl_keeps, foldl_keeps_fst])

@[simp] theorem State.stateChanged_keeps {qq : List Instr} {s : State} (h : State.Keeps qq s) :
    State.Keeps qq (State.stateChanged s) := by
  unfold State.stateChanged
  try dsimp only
  (repeat' split) <;> try simp_all (maxDischargeDepth := 12) +contextual [foldl_keeps, foldl_keeps_fst]
  all_goals (repeat' split) <;> try simp_all (maxDischargeDepth := 12) +contextual [foldl_keeps, foldl_keeps_fst]
  all_goals (have he := (by assumption : (_ : State × _) = (_, _)); have hk : State.Keeps qq _ := keeps_of_eq he (by simp (maxDischargeDepth := 12) [h]); simp_all (maxDischargeDepth := 12) +contextual [foldl_keeps, foldl_keeps_fst])

@[simp] theorem State.partChanged_keeps {qq : List Instr} {s : State} (p : Nat) (h : State.Keeps qq s) :
    State.Keeps qq (State.partChanged s p) := by
  unfold State.partChanged
  try dsimp only
  (repeat' split) <;> try simp_all (maxDischargeDepth := 12) +contextual [foldl_keeps, foldl_keeps_fst]
  all_goals (repeat' split) <;> try simp_all (maxDischargeDepth := 12) +contextual [foldl_keeps, foldl_keeps_fst]
  all_goals (have he := (by assumption : (_ : State × _) = (_, _)); have hk : State.Keeps qq _ := keeps_of_eq he (by simp (maxDischargeDepth := 12) [h]); simp_all (maxDischargeDepth := 12) +contextual [foldl_keeps, foldl_keeps_fst])

@[simp] theorem State.clearBreaks_keeps {qq : List Instr} {s : State} (h : State.Keeps qq s) :
    State.Keeps qq (State.clearBreaks s) := by
  unfold State.clearBreaks
  try dsimp only
  (repeat' split) <;> try simp_all (maxDischargeDepth := 12) +contextual [foldl_keeps, foldl_keeps_fst]
  all_goals (repeat' split) <;> try simp_all (maxDischargeDepth := 12) +contextual [foldl_keeps, foldl_keeps_fst]
  all_goals (have he := (by assumption : (_ : State × _) = (_, _)); have hk : State.Keeps qq _ := keeps_of_eq he (by simp (maxDischargeDepth := 12) [h]); simp_all (maxDischargeDepth := 12) +contextual [foldl_keeps, foldl_keeps_fst])

@[simp] theorem State.setDev_keeps {qq : List Instr} {s : State} (d : DevState) (h : State.Keeps qq s) :
    State.Keeps qq (State.setDev s d) := by
  unfold State.setDev
  try dsimp only
  (repeat' split) <;> try simp_all (maxDischargeDepth := 12) +contextual [foldl_keeps, foldl_keeps_fst]
  all_goals (repeat' split) <;> try simp_all (maxDischargeDepth := 12) +contextual [foldl_keeps, foldl_keeps_fst]
  all_goals (have he := (by assumption : (_ : State × _) = (_, _)); have hk : State.Keeps qq _ := keeps_of_eq he (by simp (maxDischargeDepth := 12) [h]); simp_all (maxDischargeDepth := 12) +contextual [foldl_keeps, foldl_keeps_fst])

@[simp] theorem State.setDegraded_keeps {qq : List Instr} {s : State} (h : State.Keeps qq s) :
    State.Keeps qq (State.setDegraded s) := by
  unfold State.setDegraded
  try dsimp only
  (repeat' split) <;> try simp_all (maxDischargeDepth := 12) +contextual [foldl_keeps, foldl_keeps_fst]
  all_goals (repeat' split) <;> try simp_all (maxDischargeDepth := 12) +contextual [foldl_keeps, foldl_keeps_fst]
  all_goals (have he := (by assumption : (_ : State × _) = (_, _)); have hk : State.Keeps qq _ := keeps_of_eq he (by simp (maxDischargeDepth := 12) [h]); simp_all (maxDischargeDepth := 12) +contextual [foldl_keeps, foldl_keeps_fst])

@[simp] theorem State.setReplace_keeps {qq : List Instr} {s : State} (h : State.Keeps qq s) :
    State.Keeps qq (State.setReplace s) := by
  unfold State.setReplace
  try dsimp only
  (repeat' split) <;> try simp_all (maxDischargeDepth := 12) +contextual [foldl_keeps, foldl_keeps_fst]
  all_goals (repeat' split) <;> try simp_all (maxDischargeDepth := 12) +contextual [foldl_keeps, foldl_keeps_fst]
  all_goals (have he := (by assumption : (_ : State × _) = (_, _)); have hk : State.Keeps qq _ := keeps_of_eq he (by simp (maxDischargeDepth := 12) [h]); simp_all (maxDischargeDepth := 12) +contextual [foldl_keeps, foldl_keeps_fst])

@[simp] theorem State.violate_keeps {qq : List Instr} {s : State} (f : Nat) (h : State.Keeps qq s) :
    State.Keeps qq (State.violate s f) := by
  unfold State.violate
  try dsimp only
  (repeat' split) <;> try simp_all (maxDischargeDepth := 12) +contextual [foldl_keeps, foldl_keeps_fst]
  all_goals (repeat' split) <;> try simp_all (maxDischargeDepth := 12) +contextual [foldl_keeps, foldl_keeps_fst]
  all_goals (have he := (by assumption : (_ : State × _) = (_, _)); have hk : State.Keeps qq _ := keeps_of_eq he (by simp (maxDischargeDepth := 12) [h]); simp_all (maxDischargeDepth := 12) +contextual [foldl_keeps, foldl_keeps_fst])

@[simp] theorem State.violateN_keeps {qq : List Instr} {s : State} (f n : Nat) (h : State.Keeps qq s) : State.Keeps qq (s.violateN f n) := by
  induction n with
  | zero => exact h
  | succ n ih => exact State.violate_keeps f ih

end Sys2Proof.Machine
end

