-- ==== Sys2Proof/Laws/KeepsOperands.lean ====
section
/-! SUPPORT. What the operations of Operands leave alone: the queue of commands and the canonical form of memory. -/

namespace Sys2Proof.Machine

@[simp] theorem State.read32_keeps {qq : List Instr} {s : State} (f off : Nat) (h : State.Keeps qq s) :
    State.Keeps qq (State.read32 s f off).1 := by
  unfold State.read32
  try dsimp only
  (repeat' split) <;> try simp_all (maxDischargeDepth := 12) +contextual [foldl_keeps, foldl_keeps_fst]
  all_goals (repeat' split) <;> try simp_all (maxDischargeDepth := 12) +contextual [foldl_keeps, foldl_keeps_fst]
  all_goals (have he := (by assumption : (_ : State × _) = (_, _)); have hk : State.Keeps qq _ := keeps_of_eq he (by simp (maxDischargeDepth := 12) [h]); simp_all (maxDischargeDepth := 12) +contextual [foldl_keeps, foldl_keeps_fst])

@[simp] theorem highOver_keeps {qq : List Instr} (lo : Nat) (hi : State × Nat) : State.Keeps qq (highOver lo hi).1 = State.Keeps qq hi.1 := by
  cases hi; rfl

@[simp] theorem State.readBar0_keeps {qq : List Instr} {s : State} (f off width : Nat) (h : State.Keeps qq s) :
    State.Keeps qq (State.readBar0 s f off width).1 := by
  unfold State.readBar0
  have h4 := fun t (ht : State.Keeps qq t) => State.read32_keeps (s := t) f (off + 4) ht
  have hv : State.Keeps qq (s.violate f) := State.violate_keeps _ h
  have h0 := State.read32_keeps (s := s) f off h
  dsimp only
  (repeat' split) <;> simp [h, hv, h0, h4]

end Sys2Proof.Machine
end

