-- ==== Sys2Proof/Laws/KeepsHost.lean ====
section
/-! SUPPORT. What the operations of Host leave alone: the queue of commands and the canonical form of memory. -/

namespace Sys2Proof.Machine

@[simp] theorem State.postSlot_keeps {qq : List Instr} {s : State} (f k : Nat) (h : State.Keeps qq s) :
    State.Keeps qq (State.postSlot s f k) := by
  unfold State.postSlot
  try dsimp only
  (repeat' split) <;> try simp_all (maxDischargeDepth := 12) +contextual [foldl_keeps, foldl_keeps_fst]
  all_goals (repeat' split) <;> try simp_all (maxDischargeDepth := 12) +contextual [foldl_keeps, foldl_keeps_fst]
  all_goals (have he := (by assumption : (_ : State × _) = (_, _)); have hk : State.Keeps qq _ := keeps_of_eq he (by simp (maxDischargeDepth := 12) [h]); simp_all (maxDischargeDepth := 12) +contextual [foldl_keeps, foldl_keeps_fst])

@[simp] theorem State.postBits_keeps {qq : List Instr} {s : State} (f : Nat) (bits : BitVec 8) (h : State.Keeps qq s) :
    State.Keeps qq (State.postBits s f bits) := by
  unfold State.postBits
  try dsimp only
  (repeat' split) <;> try simp_all (maxDischargeDepth := 12) +contextual [foldl_keeps, foldl_keeps_fst]
  all_goals (repeat' split) <;> try simp_all (maxDischargeDepth := 12) +contextual [foldl_keeps, foldl_keeps_fst]
  all_goals (have he := (by assumption : (_ : State × _) = (_, _)); have hk : State.Keeps qq _ := keeps_of_eq he (by simp (maxDischargeDepth := 12) [h]); simp_all (maxDischargeDepth := 12) +contextual [foldl_keeps, foldl_keeps_fst])

@[simp] theorem State.postWrite_keeps {qq : List Instr} {s : State} (f : Nat) (bits : BitVec 8) (h : State.Keeps qq s) :
    State.Keeps qq (State.postWrite s f bits) := by
  unfold State.postWrite
  try dsimp only
  (repeat' split) <;> try simp_all (maxDischargeDepth := 12) +contextual [foldl_keeps, foldl_keeps_fst]
  all_goals (repeat' split) <;> try simp_all (maxDischargeDepth := 12) +contextual [foldl_keeps, foldl_keeps_fst]
  all_goals (have he := (by assumption : (_ : State × _) = (_, _)); have hk : State.Keeps qq _ := keeps_of_eq he (by simp (maxDischargeDepth := 12) [h]); simp_all (maxDischargeDepth := 12) +contextual [foldl_keeps, foldl_keeps_fst])

@[simp] theorem execPost_keeps {qq : List Instr} {s : State} (f : FnId) (bits : BitVec 8) (h : State.Keeps qq s) :
    OutKeeps qq (execPost f bits s) := by
  unfold execPost
  try dsimp only
  (repeat' split) <;> try simp_all (maxDischargeDepth := 12) +contextual [foldl_keeps, foldl_keeps_fst]
  all_goals (repeat' split) <;> try simp_all (maxDischargeDepth := 12) +contextual [foldl_keeps, foldl_keeps_fst]
  all_goals (have he := (by assumption : (_ : State × _) = (_, _)); have hk : State.Keeps qq _ := keeps_of_eq he (by simp (maxDischargeDepth := 12) [h]); simp_all (maxDischargeDepth := 12) +contextual [foldl_keeps, foldl_keeps_fst])

@[simp] theorem State.releaseSlot_keeps {qq : List Instr} {s : State} (f k : Nat) (h : State.Keeps qq s) :
    State.Keeps qq (State.releaseSlot s f k) := by
  unfold State.releaseSlot
  try dsimp only
  (repeat' split) <;> try simp_all (maxDischargeDepth := 12) +contextual [foldl_keeps, foldl_keeps_fst]
  all_goals (repeat' split) <;> try simp_all (maxDischargeDepth := 12) +contextual [foldl_keeps, foldl_keeps_fst]
  all_goals (have he := (by assumption : (_ : State × _) = (_, _)); have hk : State.Keeps qq _ := keeps_of_eq he (by simp (maxDischargeDepth := 12) [h]); simp_all (maxDischargeDepth := 12) +contextual [foldl_keeps, foldl_keeps_fst])

@[simp] theorem State.releaseBits_keeps {qq : List Instr} {s : State} (f : Nat) (bits : BitVec 8) (h : State.Keeps qq s) :
    State.Keeps qq (State.releaseBits s f bits) := by
  unfold State.releaseBits
  try dsimp only
  (repeat' split) <;> try simp_all (maxDischargeDepth := 12) +contextual [foldl_keeps, foldl_keeps_fst]
  all_goals (repeat' split) <;> try simp_all (maxDischargeDepth := 12) +contextual [foldl_keeps, foldl_keeps_fst]
  all_goals (have he := (by assumption : (_ : State × _) = (_, _)); have hk : State.Keeps qq _ := keeps_of_eq he (by simp (maxDischargeDepth := 12) [h]); simp_all (maxDischargeDepth := 12) +contextual [foldl_keeps, foldl_keeps_fst])

@[simp] theorem execRelease_keeps {qq : List Instr} {s : State} (f : FnId) (bits : BitVec 8) (h : State.Keeps qq s) :
    OutKeeps qq (execRelease f bits s) := by
  unfold execRelease
  try dsimp only
  (repeat' split) <;> try simp_all (maxDischargeDepth := 12) +contextual [foldl_keeps, foldl_keeps_fst]
  all_goals (repeat' split) <;> try simp_all (maxDischargeDepth := 12) +contextual [foldl_keeps, foldl_keeps_fst]
  all_goals (have he := (by assumption : (_ : State × _) = (_, _)); have hk : State.Keeps qq _ := keeps_of_eq he (by simp (maxDischargeDepth := 12) [h]); simp_all (maxDischargeDepth := 12) +contextual [foldl_keeps, foldl_keeps_fst])

@[simp] theorem State.writeSlot_keeps {qq : List Instr} {s : State} (f k off : Nat) (data : List Byte) (h : State.Keeps qq s) :
    State.Keeps qq (State.writeSlot s f k off data) := by
  unfold State.writeSlot
  try dsimp only
  (repeat' split) <;> try simp_all (maxDischargeDepth := 12) +contextual [foldl_keeps, foldl_keeps_fst]
  all_goals (repeat' split) <;> try simp_all (maxDischargeDepth := 12) +contextual [foldl_keeps, foldl_keeps_fst]
  all_goals (have he := (by assumption : (_ : State × _) = (_, _)); have hk : State.Keeps qq _ := keeps_of_eq he (by simp (maxDischargeDepth := 12) [h]); simp_all (maxDischargeDepth := 12) +contextual [foldl_keeps, foldl_keeps_fst])

@[simp] theorem execSlotByteWrite_keeps {qq : List Instr} {s : State} (f : FnId) (slot : SlotId) (off : Nat) (data : List Byte) (h : State.Keeps qq s) :
    OutKeeps qq (execSlotByteWrite f slot off data s) := by
  unfold execSlotByteWrite
  try dsimp only
  (repeat' split) <;> try simp_all (maxDischargeDepth := 12) +contextual [foldl_keeps, foldl_keeps_fst]
  all_goals (repeat' split) <;> try simp_all (maxDischargeDepth := 12) +contextual [foldl_keeps, foldl_keeps_fst]
  all_goals (have he := (by assumption : (_ : State × _) = (_, _)); have hk : State.Keeps qq _ := keeps_of_eq he (by simp (maxDischargeDepth := 12) [h]); simp_all (maxDischargeDepth := 12) +contextual [foldl_keeps, foldl_keeps_fst])

theorem State.takeTail_keeps {qq : List Instr} {s t : State} (f : Nat) (tail : BitVec 16) (h : State.Keeps qq s)
    (e : s.takeTail f tail = some t) : State.Keeps qq t := by
  unfold State.takeTail at e
  dsimp only at e
  split at e
  · simp at e; subst e; exact h
  split at e
  · simp at e
  · simp only [Option.some.injEq] at e; subst e; simp [h]

@[simp] theorem State.jobTail_keeps {qq : List Instr} {s : State} (f : Nat) (tail : BitVec 16) (h : State.Keeps qq s) :
    State.Keeps qq (State.jobTail s f tail) := by
  unfold State.jobTail
  dsimp only
  (repeat' split) <;> try simp_all (maxDischargeDepth := 12)
  rename_i t e
  exact State.takeTail_keeps f tail h e

@[simp] theorem execJobqDoorbell_keeps {qq : List Instr} {s : State} (f : FnId) (tail : BitVec 16) (h : State.Keeps qq s) :
    OutKeeps qq (execJobqDoorbell f tail s) := by
  unfold execJobqDoorbell
  try dsimp only
  (repeat' split) <;> try simp_all (maxDischargeDepth := 12) +contextual [foldl_keeps, foldl_keeps_fst]
  all_goals (repeat' split) <;> try simp_all (maxDischargeDepth := 12) +contextual [foldl_keeps, foldl_keeps_fst]
  all_goals (have he := (by assumption : (_ : State × _) = (_, _)); have hk : State.Keeps qq _ := keeps_of_eq he (by simp (maxDischargeDepth := 12) [h]); simp_all (maxDischargeDepth := 12) +contextual [foldl_keeps, foldl_keeps_fst])

@[simp] theorem State.writeMask_keeps {qq : List Instr} {s : State} (f : Nat) (v : BitVec 32) (h : State.Keeps qq s) :
    State.Keeps qq (State.writeMask s f v) := by
  unfold State.writeMask
  try dsimp only
  (repeat' split) <;> try simp_all (maxDischargeDepth := 12) +contextual [foldl_keeps, foldl_keeps_fst]
  all_goals (repeat' split) <;> try simp_all (maxDischargeDepth := 12) +contextual [foldl_keeps, foldl_keeps_fst]
  all_goals (have he := (by assumption : (_ : State × _) = (_, _)); have hk : State.Keeps qq _ := keeps_of_eq he (by simp (maxDischargeDepth := 12) [h]); simp_all (maxDischargeDepth := 12) +contextual [foldl_keeps, foldl_keeps_fst])

@[simp] theorem execIntMaskWrite_keeps {qq : List Instr} {s : State} (f : FnId) (v : BitVec 32) (h : State.Keeps qq s) :
    OutKeeps qq (execIntMaskWrite f v s) := by
  unfold execIntMaskWrite
  try dsimp only
  (repeat' split) <;> try simp_all (maxDischargeDepth := 12) +contextual [foldl_keeps, foldl_keeps_fst]
  all_goals (repeat' split) <;> try simp_all (maxDischargeDepth := 12) +contextual [foldl_keeps, foldl_keeps_fst]
  all_goals (have he := (by assumption : (_ : State × _) = (_, _)); have hk : State.Keeps qq _ := keeps_of_eq he (by simp (maxDischargeDepth := 12) [h]); simp_all (maxDischargeDepth := 12) +contextual [foldl_keeps, foldl_keeps_fst])

@[simp] theorem State.sendVector_keeps {qq : List Instr} {s : State} (f v : Nat) (h : State.Keeps qq s) :
    State.Keeps qq (State.sendVector s f v) := by
  unfold State.sendVector
  try dsimp only
  (repeat' split) <;> try simp_all (maxDischargeDepth := 12) +contextual [foldl_keeps, foldl_keeps_fst]
  all_goals (repeat' split) <;> try simp_all (maxDischargeDepth := 12) +contextual [foldl_keeps, foldl_keeps_fst]
  all_goals (have he := (by assumption : (_ : State × _) = (_, _)); have hk : State.Keeps qq _ := keeps_of_eq he (by simp (maxDischargeDepth := 12) [h]); simp_all (maxDischargeDepth := 12) +contextual [foldl_keeps, foldl_keeps_fst])

@[simp] theorem State.advanceVector_keeps {qq : List Instr} {s : State} (f v : Nat) (h : State.Keeps qq s) :
    State.Keeps qq (State.advanceVector s f v) := by
  unfold State.advanceVector
  try dsimp only
  (repeat' split) <;> try simp_all (maxDischargeDepth := 12) +contextual [foldl_keeps, foldl_keeps_fst]
  all_goals (repeat' split) <;> try simp_all (maxDischargeDepth := 12) +contextual [foldl_keeps, foldl_keeps_fst]
  all_goals (have he := (by assumption : (_ : State × _) = (_, _)); have hk : State.Keeps qq _ := keeps_of_eq he (by simp (maxDischargeDepth := 12) [h]); simp_all (maxDischargeDepth := 12) +contextual [foldl_keeps, foldl_keeps_fst])

@[simp] theorem State.requestVector_keeps {qq : List Instr} {s : State} (f v : Nat) (h : State.Keeps qq s) :
    State.Keeps qq (State.requestVector s f v) := by
  unfold State.requestVector
  try dsimp only
  (repeat' split) <;> try simp_all (maxDischargeDepth := 12) +contextual [foldl_keeps, foldl_keeps_fst]
  all_goals (repeat' split) <;> try simp_all (maxDischargeDepth := 12) +contextual [foldl_keeps, foldl_keeps_fst]
  all_goals (have he := (by assumption : (_ : State × _) = (_, _)); have hk : State.Keeps qq _ := keeps_of_eq he (by simp (maxDischargeDepth := 12) [h]); simp_all (maxDischargeDepth := 12) +contextual [foldl_keeps, foldl_keeps_fst])

@[simp] theorem State.unmasked_keeps {qq : List Instr} {s : State} (f : Nat) (h : State.Keeps qq s) :
    State.Keeps qq (State.unmasked s f) := by
  unfold State.unmasked
  try dsimp only
  (repeat' split) <;> try simp_all (maxDischargeDepth := 12) +contextual [foldl_keeps, foldl_keeps_fst]
  all_goals (repeat' split) <;> try simp_all (maxDischargeDepth := 12) +contextual [foldl_keeps, foldl_keeps_fst]
  all_goals (have he := (by assumption : (_ : State × _) = (_, _)); have hk : State.Keeps qq _ := keeps_of_eq he (by simp (maxDischargeDepth := 12) [h]); simp_all (maxDischargeDepth := 12) +contextual [foldl_keeps, foldl_keeps_fst])

@[simp] theorem State.writeMsix32_keeps {qq : List Instr} {s : State} (f off v : Nat) (h : State.Keeps qq s) :
    State.Keeps qq (State.writeMsix32 s f off v) := by
  unfold State.writeMsix32
  try dsimp only
  (repeat' split) <;> try simp_all (maxDischargeDepth := 12) +contextual [foldl_keeps, foldl_keeps_fst]
  all_goals (repeat' split) <;> try simp_all (maxDischargeDepth := 12) +contextual [foldl_keeps, foldl_keeps_fst]
  all_goals (have he := (by assumption : (_ : State × _) = (_, _)); have hk : State.Keeps qq _ := keeps_of_eq he (by simp (maxDischargeDepth := 12) [h]); simp_all (maxDischargeDepth := 12) +contextual [foldl_keeps, foldl_keeps_fst])

@[simp] theorem State.writeMsix_keeps {qq : List Instr} {s : State} (f off : Nat) (data : List Byte) (h : State.Keeps qq s) :
    State.Keeps qq (State.writeMsix s f off data) := by
  unfold State.writeMsix
  try dsimp only
  (repeat' split) <;> try simp_all (maxDischargeDepth := 12) +contextual [foldl_keeps, foldl_keeps_fst]
  all_goals (repeat' split) <;> try simp_all (maxDischargeDepth := 12) +contextual [foldl_keeps, foldl_keeps_fst]
  all_goals (have he := (by assumption : (_ : State × _) = (_, _)); have hk : State.Keeps qq _ := keeps_of_eq he (by simp (maxDischargeDepth := 12) [h]); simp_all (maxDischargeDepth := 12) +contextual [foldl_keeps, foldl_keeps_fst])

@[simp] theorem execMsixTableWrite_keeps {qq : List Instr} {s : State} (f : FnId) (off : Nat) (data : List Byte) (h : State.Keeps qq s) :
    OutKeeps qq (execMsixTableWrite f off data s) := by
  unfold execMsixTableWrite
  try dsimp only
  (repeat' split) <;> try simp_all (maxDischargeDepth := 12) +contextual [foldl_keeps, foldl_keeps_fst]
  all_goals (repeat' split) <;> try simp_all (maxDischargeDepth := 12) +contextual [foldl_keeps, foldl_keeps_fst]
  all_goals (have he := (by assumption : (_ : State × _) = (_, _)); have hk : State.Keeps qq _ := keeps_of_eq he (by simp (maxDischargeDepth := 12) [h]); simp_all (maxDischargeDepth := 12) +contextual [foldl_keeps, foldl_keeps_fst])

@[simp] theorem execVectorRequest_keeps {qq : List Instr} {s : State} (f : FnId) (v : Fin 32) (h : State.Keeps qq s) :
    OutKeeps qq (execVectorRequest f v s) := by
  unfold execVectorRequest
  try dsimp only
  (repeat' split) <;> try simp_all (maxDischargeDepth := 12) +contextual [foldl_keeps, foldl_keeps_fst]
  all_goals (repeat' split) <;> try simp_all (maxDischargeDepth := 12) +contextual [foldl_keeps, foldl_keeps_fst]
  all_goals (have he := (by assumption : (_ : State × _) = (_, _)); have hk : State.Keeps qq _ := keeps_of_eq he (by simp (maxDischargeDepth := 12) [h]); simp_all (maxDischargeDepth := 12) +contextual [foldl_keeps, foldl_keeps_fst])

@[simp] theorem execMsixHoldoffExpiry_keeps {qq : List Instr} {s : State} (f : FnId) (v : Fin 32) (h : State.Keeps qq s) :
    OutKeeps qq (execMsixHoldoffExpiry f v s) := by
  unfold execMsixHoldoffExpiry
  try dsimp only
  (repeat' split) <;> try simp_all (maxDischargeDepth := 12) +contextual [foldl_keeps, foldl_keeps_fst]
  all_goals (repeat' split) <;> try simp_all (maxDischargeDepth := 12) +contextual [foldl_keeps, foldl_keeps_fst]
  all_goals (have he := (by assumption : (_ : State × _) = (_, _)); have hk : State.Keeps qq _ := keeps_of_eq he (by simp (maxDischargeDepth := 12) [h]); simp_all (maxDischargeDepth := 12) +contextual [foldl_keeps, foldl_keeps_fst])

@[simp] theorem State.writePolicy_keeps {qq : List Instr} {s : State} (v : Nat) (h : State.Keeps qq s) :
    State.Keeps qq (State.writePolicy s v) := by
  unfold State.writePolicy
  try dsimp only
  (repeat' split) <;> try simp_all (maxDischargeDepth := 12) +contextual [foldl_keeps, foldl_keeps_fst]
  all_goals (repeat' split) <;> try simp_all (maxDischargeDepth := 12) +contextual [foldl_keeps, foldl_keeps_fst]
  all_goals (have he := (by assumption : (_ : State × _) = (_, _)); have hk : State.Keeps qq _ := keeps_of_eq he (by simp (maxDischargeDepth := 12) [h]); simp_all (maxDischargeDepth := 12) +contextual [foldl_keeps, foldl_keeps_fst])

@[simp] theorem State.write32_keeps {qq : List Instr} {s : State} (f off v : Nat) (h : State.Keeps qq s) :
    State.Keeps qq (State.write32 s f off v) := by
  unfold State.write32
  dsimp only
  refine keeps_if (State.postWrite_keeps _ _ h) (keeps_if (State.releaseBits_keeps _ _ h) ?_)
  refine keeps_if (State.jobTail_keeps _ _ h) (keeps_if h (keeps_if (State.writeMask_keeps _ _ h) (keeps_if h ?_)))
  refine keeps_if (State.writeMsix_keeps _ _ _ h) ?_
  cases s.regAt f off with
  | none => exact h
  | some g => exact keeps_if (State.violate_keeps _ h) (keeps_if (State.writePolicy_keeps _ h) (keeps_if h h))

@[simp] theorem State.writeBar0_keeps {qq : List Instr} {s : State} (f off width v : Nat) (h : State.Keeps qq s) :
    State.Keeps qq (State.writeBar0 s f off width v) := by
  unfold State.writeBar0
  try dsimp only
  (repeat' split) <;> try simp_all (maxDischargeDepth := 12) +contextual [foldl_keeps, foldl_keeps_fst]
  all_goals (repeat' split) <;> try simp_all (maxDischargeDepth := 12) +contextual [foldl_keeps, foldl_keeps_fst]
  all_goals (have he := (by assumption : (_ : State × _) = (_, _)); have hk : State.Keeps qq _ := keeps_of_eq he (by simp (maxDischargeDepth := 12) [h]); simp_all (maxDischargeDepth := 12) +contextual [foldl_keeps, foldl_keeps_fst])

@[simp] theorem execRegisterWrite_keeps {qq : List Instr} {s : State} (f : FnId) (off : Nat) (width : Nat) (v : BitVec 64) (h : State.Keeps qq s) :
    OutKeeps qq (execRegisterWrite f off width v s) := by
  unfold execRegisterWrite
  try dsimp only
  (repeat' split) <;> try simp_all (maxDischargeDepth := 12) +contextual [foldl_keeps, foldl_keeps_fst]
  all_goals (repeat' split) <;> try simp_all (maxDischargeDepth := 12) +contextual [foldl_keeps, foldl_keeps_fst]
  all_goals (have he := (by assumption : (_ : State × _) = (_, _)); have hk : State.Keeps qq _ := keeps_of_eq he (by simp (maxDischargeDepth := 12) [h]); simp_all (maxDischargeDepth := 12) +contextual [foldl_keeps, foldl_keeps_fst])

@[simp] theorem execLowHalfRead_keeps {qq : List Instr} {s : State} (f : FnId) (off : RegRead) (h : State.Keeps qq s) :
    OutKeeps qq (execLowHalfRead f off s) := by
  unfold execLowHalfRead
  try dsimp only
  (repeat' split) <;> try simp_all (maxDischargeDepth := 12) +contextual [foldl_keeps, foldl_keeps_fst]
  all_goals (repeat' split) <;> try simp_all (maxDischargeDepth := 12) +contextual [foldl_keeps, foldl_keeps_fst]
  all_goals (have he := (by assumption : (_ : State × _) = (_, _)); have hk : State.Keeps qq _ := keeps_of_eq he (by simp (maxDischargeDepth := 12) [h]); simp_all (maxDischargeDepth := 12) +contextual [foldl_keeps, foldl_keeps_fst])

@[simp] theorem execBar2Read_keeps {qq : List Instr} {s : State} (f : FnId) (addr : Nat) (len : Nat) (timedOut : Bool) (h : State.Keeps qq s) :
    OutKeeps qq (execBar2Read f addr len timedOut s) := by
  unfold execBar2Read
  rw [outKeeps_next]
  refine keeps_if h (keeps_if h ?_)
  cases s.bar2Map f addr false with
  | none =>
    dsimp only
    rw [State.emit_keeps]
    exact State.violate_keeps _ h
  | some m =>
    obtain ⟨r, so⟩ := m
    dsimp only
    refine keeps_if h (keeps_if h ?_)
    have h0 : State.Keeps qq (if min len (stackBytes - so) < len then s.violate f else s) := keeps_if (State.violate_keeps _ h) h
    have hk := State.cellarRead_keeps r so (min len (stackBytes - so)) h0
    revert hk
    generalize State.cellarRead _ r so (min len (stackBytes - so)) = x
    intro hk
    obtain ⟨t, d⟩ := x
    cases d <;> exact hk

@[simp] theorem State.mergeLine_keeps {qq : List Instr} {s : State} (r off : Nat) (data : List Byte) (be : List Bool) (h : State.Keeps qq s) :
    State.Keeps qq (State.mergeLine s r off data be) := by
  unfold State.mergeLine
  try dsimp only
  (repeat' split) <;> try simp_all (maxDischargeDepth := 12) +contextual [foldl_keeps, foldl_keeps_fst]
  all_goals (repeat' split) <;> try simp_all (maxDischargeDepth := 12) +contextual [foldl_keeps, foldl_keeps_fst]
  all_goals (have he := (by assumption : (_ : State × _) = (_, _)); have hk : State.Keeps qq _ := keeps_of_eq he (by simp (maxDischargeDepth := 12) [h]); simp_all (maxDischargeDepth := 12) +contextual [foldl_keeps, foldl_keeps_fst])

@[simp] theorem State.bar2Store_keeps {qq : List Instr} {s : State} (r off : Nat) (data : List Byte) (be : List Bool) (h : State.Keeps qq s) :
    State.Keeps qq (State.bar2Store s r off data be) := by
  unfold State.bar2Store
  try dsimp only
  (repeat' split) <;> try simp_all (maxDischargeDepth := 12) +contextual [foldl_keeps, foldl_keeps_fst]
  all_goals (repeat' split) <;> try simp_all (maxDischargeDepth := 12) +contextual [foldl_keeps, foldl_keeps_fst]
  all_goals (have he := (by assumption : (_ : State × _) = (_, _)); have hk : State.Keeps qq _ := keeps_of_eq he (by simp (maxDischargeDepth := 12) [h]); simp_all (maxDischargeDepth := 12) +contextual [foldl_keeps, foldl_keeps_fst])

@[simp] theorem execBar2Write_keeps {qq : List Instr} {s : State} (f : FnId) (addr : Nat) (data : List Byte) (be : List Bool) (h : State.Keeps qq s) :
    OutKeeps qq (execBar2Write f addr data be s) := by
  unfold execBar2Write
  try dsimp only
  (repeat' split) <;> try simp_all (maxDischargeDepth := 12) +contextual [foldl_keeps, foldl_keeps_fst]
  all_goals (repeat' split) <;> try simp_all (maxDischargeDepth := 12) +contextual [foldl_keeps, foldl_keeps_fst]
  all_goals (have he := (by assumption : (_ : State × _) = (_, _)); have hk : State.Keeps qq _ := keeps_of_eq he (by simp (maxDischargeDepth := 12) [h]); simp_all (maxDischargeDepth := 12) +contextual [foldl_keeps, foldl_keeps_fst])

end Sys2Proof.Machine
end

