-- ==== Sys2Proof/Laws/KeepsMailbox.lean ====
section
/-! SUPPORT. What the operations of Mailbox leave alone: the queue of commands and the canonical form of memory. -/

namespace Sys2Proof.Machine

@[simp] theorem State.endCmd_keeps {qq : List Instr} {s : State} (f k status progress total : Nat) (resp : List Byte) (h : State.Keeps qq s) :
    State.Keeps qq (State.endCmd s f k status progress total resp) := by
  unfold State.endCmd
  try dsimp only
  (repeat' split) <;> try simp_all (maxDischargeDepth := 12) +contextual [foldl_keeps, foldl_keeps_fst]
  all_goals (repeat' split) <;> try simp_all (maxDischargeDepth := 12) +contextual [foldl_keeps, foldl_keeps_fst]
  all_goals (have he := (by assumption : (_ : State × _) = (_, _)); have hk : State.Keeps qq _ := keeps_of_eq he (by simp (maxDischargeDepth := 12) [h]); simp_all (maxDischargeDepth := 12) +contextual [foldl_keeps, foldl_keeps_fst])

@[simp] theorem CmdEnd.fail_keeps {qq : List Instr} {s : State} (status : Nat) (h : State.Keeps qq s) :
    CmdEnd.Keeps qq (CmdEnd.fail s status) := by
  unfold CmdEnd.fail
  try dsimp only
  (repeat' split) <;> try simp_all (maxDischargeDepth := 12) +contextual [foldl_keeps, foldl_keeps_fst]
  all_goals (repeat' split) <;> try simp_all (maxDischargeDepth := 12) +contextual [foldl_keeps, foldl_keeps_fst]
  all_goals (have he := (by assumption : (_ : State × _) = (_, _)); have hk : State.Keeps qq _ := keeps_of_eq he (by simp (maxDischargeDepth := 12) [h]); simp_all (maxDischargeDepth := 12) +contextual [foldl_keeps, foldl_keeps_fst])

@[simp] theorem CmdEnd.ok_keeps {qq : List Instr} {s : State} (resp : List Byte) (h : State.Keeps qq s) :
    CmdEnd.Keeps qq (CmdEnd.ok s resp) := by
  unfold CmdEnd.ok
  try dsimp only
  (repeat' split) <;> try simp_all (maxDischargeDepth := 12) +contextual [foldl_keeps, foldl_keeps_fst]
  all_goals (repeat' split) <;> try simp_all (maxDischargeDepth := 12) +contextual [foldl_keeps, foldl_keeps_fst]
  all_goals (have he := (by assumption : (_ : State × _) = (_, _)); have hk : State.Keeps qq _ := keeps_of_eq he (by simp (maxDischargeDepth := 12) [h]); simp_all (maxDischargeDepth := 12) +contextual [foldl_keeps, foldl_keeps_fst])

@[simp] theorem State.dropDetached_keeps {qq : List Instr} {s : State} (e : Nat × Nat × Req) (h : State.Keeps qq s) :
    State.Keeps qq (State.dropDetached s e) := by
  unfold State.dropDetached
  try dsimp only
  (repeat' split) <;> try simp_all (maxDischargeDepth := 12) +contextual [foldl_keeps, foldl_keeps_fst]
  all_goals (repeat' split) <;> try simp_all (maxDischargeDepth := 12) +contextual [foldl_keeps, foldl_keeps_fst]
  all_goals (have he := (by assumption : (_ : State × _) = (_, _)); have hk : State.Keeps qq _ := keeps_of_eq he (by simp (maxDischargeDepth := 12) [h]); simp_all (maxDischargeDepth := 12) +contextual [foldl_keeps, foldl_keeps_fst])

theorem State.runCmd_keeps {qq : List Instr} {s : State} (f k : Nat) (want : Req → Bool) (body : Req → CmdEnd)
    (hb : ∀ r, CmdEnd.Keeps qq (body r)) (h : State.Keeps qq s) : State.Keeps qq (s.runCmd f k want body) := by
  unfold State.runCmd
  dsimp only
  split
  · have := hb ((s.fn f).slot k).req
    revert this
    cases body ((s.fn f).slot k).req <;> simp +contextual
  · split
    · rename_i e _
      have := hb e.2.2
      revert this
      cases body e.2.2 <;> simp +contextual
    · exact h

@[simp] theorem State.endWaiting_keeps {qq : List Instr} {s : State} (f k : Nat) (want : Req → Bool) (status progress total : Nat) (resp : List Byte) (h : State.Keeps qq s) :
    State.Keeps qq (State.endWaiting s f k want status progress total resp) := by
  unfold State.endWaiting
  try dsimp only
  (repeat' split) <;> try simp_all (maxDischargeDepth := 12) +contextual [foldl_keeps, foldl_keeps_fst]
  all_goals (repeat' split) <;> try simp_all (maxDischargeDepth := 12) +contextual [foldl_keeps, foldl_keeps_fst]
  all_goals (have he := (by assumption : (_ : State × _) = (_, _)); have hk : State.Keeps qq _ := keeps_of_eq he (by simp (maxDischargeDepth := 12) [h]); simp_all (maxDischargeDepth := 12) +contextual [foldl_keeps, foldl_keeps_fst])

@[simp] theorem State.forward_keeps {qq : List Instr} {s : State} (p op : Nat) (body : List Byte) (h : State.Keeps qq s) :
    State.Keeps qq (State.forward s p op body) := by
  unfold State.forward
  try dsimp only
  (repeat' split) <;> try simp_all (maxDischargeDepth := 12) +contextual [foldl_keeps, foldl_keeps_fst]
  all_goals (repeat' split) <;> try simp_all (maxDischargeDepth := 12) +contextual [foldl_keeps, foldl_keeps_fst]
  all_goals (have he := (by assumption : (_ : State × _) = (_, _)); have hk : State.Keeps qq _ := keeps_of_eq he (by simp (maxDischargeDepth := 12) [h]); simp_all (maxDischargeDepth := 12) +contextual [foldl_keeps, foldl_keeps_fst])

end Sys2Proof.Machine
end

