-- ==== Sys2Proof/Laws/KeepsKeySets.lean ====
section
/-! SUPPORT. What the operations of KeySets leave alone: the queue of commands and the canonical form of memory. -/

namespace Sys2Proof.Machine

@[simp] theorem State.fwRead_keeps {qq : List Instr} {s : State} (p room off n : Nat) (h : State.Keeps qq s) :
    State.Keeps qq (State.fwRead s p room off n).1 := by
  unfold State.fwRead
  try dsimp only
  (repeat' split) <;> try simp_all (maxDischargeDepth := 12) +contextual [foldl_keeps, foldl_keeps_fst]
  all_goals (repeat' split) <;> try simp_all (maxDischargeDepth := 12) +contextual [foldl_keeps, foldl_keeps_fst]
  all_goals (have he := (by assumption : (_ : State × _) = (_, _)); have hk : State.Keeps qq _ := keeps_of_eq he (by simp (maxDischargeDepth := 12) [h]); simp_all (maxDischargeDepth := 12) +contextual [foldl_keeps, foldl_keeps_fst])

@[simp] theorem readKeyset_keeps {qq : List Instr} {s : State} (p : Nat) (busy : Bool) (q : Req) (h : State.Keeps qq s) :
    State.Keeps qq (readKeyset s p busy q).1 := by
  unfold readKeyset
  dsimp only
  split
  · exact h
  split
  · rename_i t e
    exact keeps_of_eq e (State.fwRead_keeps _ _ _ _ h)
  · rename_i t hd e
    have ht : State.Keeps qq t := keeps_of_eq e (State.fwRead_keeps _ _ _ _ h)
    split
    · exact ht
    split
    · rename_i u e2
      exact keeps_of_eq e2 (State.fwRead_keeps _ _ _ _ ht)
    · rename_i u b e2
      have hu : State.Keeps qq u := keeps_of_eq e2 (State.fwRead_keeps _ _ _ _ ht)
      (repeat' split) <;> exact hu

@[simp] theorem execKeysetRegister_keeps {qq : List Instr} {s : State} (f : FnId) (slot : SlotId) (h : State.Keeps qq s) :
    OutKeeps qq (execKeysetRegister f slot s) := by
  refine State.runCmd_keeps _ _ _ _ (fun q => ?_) h
  dsimp only [CmdEnd.ok, CmdEnd.fail]
  (repeat' split) <;> try simp_all (maxDischargeDepth := 12) +contextual [foldl_keeps, foldl_keeps_fst]
  all_goals (repeat' split) <;> try simp_all (maxDischargeDepth := 12) +contextual [foldl_keeps, foldl_keeps_fst]
  all_goals (have he := (by assumption : (_ : State × _) = (_, _)); have hk : State.Keeps qq _ := keeps_of_eq he (by simp (maxDischargeDepth := 12) [h]); simp_all (maxDischargeDepth := 12) +contextual [foldl_keeps, foldl_keeps_fst])

@[simp] theorem State.activate_keeps {qq : List Instr} {s : State} (p id : Nat) (h : State.Keeps qq s) :
    State.Keeps qq (State.activate s p id) := by
  unfold State.activate
  try dsimp only
  (repeat' split) <;> try simp_all (maxDischargeDepth := 12) +contextual [foldl_keeps, foldl_keeps_fst]
  all_goals (repeat' split) <;> try simp_all (maxDischargeDepth := 12) +contextual [foldl_keeps, foldl_keeps_fst]
  all_goals (have he := (by assumption : (_ : State × _) = (_, _)); have hk : State.Keeps qq _ := keeps_of_eq he (by simp (maxDischargeDepth := 12) [h]); simp_all (maxDischargeDepth := 12) +contextual [foldl_keeps, foldl_keeps_fst])

@[simp] theorem execKeysetActivate_keeps {qq : List Instr} {s : State} (f : FnId) (slot : SlotId) (h : State.Keeps qq s) :
    OutKeeps qq (execKeysetActivate f slot s) := by
  refine State.runCmd_keeps _ _ _ _ (fun q => ?_) h
  dsimp only [CmdEnd.ok, CmdEnd.fail]
  (repeat' split) <;> try simp_all (maxDischargeDepth := 12) +contextual [foldl_keeps, foldl_keeps_fst]
  all_goals (repeat' split) <;> try simp_all (maxDischargeDepth := 12) +contextual [foldl_keeps, foldl_keeps_fst]
  all_goals (have he := (by assumption : (_ : State × _) = (_, _)); have hk : State.Keeps qq _ := keeps_of_eq he (by simp (maxDischargeDepth := 12) [h]); simp_all (maxDischargeDepth := 12) +contextual [foldl_keeps, foldl_keeps_fst])

@[simp] theorem execKeysetDeactivate_keeps {qq : List Instr} {s : State} (f : FnId) (slot : SlotId) (h : State.Keeps qq s) :
    OutKeeps qq (execKeysetDeactivate f slot s) := by
  refine State.runCmd_keeps _ _ _ _ (fun q => ?_) h
  dsimp only [CmdEnd.ok, CmdEnd.fail]
  (repeat' split) <;> try simp_all (maxDischargeDepth := 12) +contextual [foldl_keeps, foldl_keeps_fst]
  all_goals (repeat' split) <;> try simp_all (maxDischargeDepth := 12) +contextual [foldl_keeps, foldl_keeps_fst]
  all_goals (have he := (by assumption : (_ : State × _) = (_, _)); have hk : State.Keeps qq _ := keeps_of_eq he (by simp (maxDischargeDepth := 12) [h]); simp_all (maxDischargeDepth := 12) +contextual [foldl_keeps, foldl_keeps_fst])

@[simp] theorem execKeysetDeactivationEffect_keeps {qq : List Instr} {s : State} (p : PartId) (keyset : Nat) (h : State.Keeps qq s) :
    OutKeeps qq (execKeysetDeactivationEffect p keyset s) := by
  unfold execKeysetDeactivationEffect
  try dsimp only
  (repeat' split) <;> try simp_all (maxDischargeDepth := 12) +contextual [foldl_keeps, foldl_keeps_fst]
  all_goals (repeat' split) <;> try simp_all (maxDischargeDepth := 12) +contextual [foldl_keeps, foldl_keeps_fst]
  all_goals (have he := (by assumption : (_ : State × _) = (_, _)); have hk : State.Keeps qq _ := keeps_of_eq he (by simp (maxDischargeDepth := 12) [h]); simp_all (maxDischargeDepth := 12) +contextual [foldl_keeps, foldl_keeps_fst])

@[simp] theorem execKeysetRelease_keeps {qq : List Instr} {s : State} (f : FnId) (slot : SlotId) (h : State.Keeps qq s) :
    OutKeeps qq (execKeysetRelease f slot s) := by
  refine State.runCmd_keeps _ _ _ _ (fun q => ?_) h
  dsimp only [CmdEnd.ok, CmdEnd.fail]
  (repeat' split) <;> try simp_all (maxDischargeDepth := 12) +contextual [foldl_keeps, foldl_keeps_fst]
  all_goals (repeat' split) <;> try simp_all (maxDischargeDepth := 12) +contextual [foldl_keeps, foldl_keeps_fst]
  all_goals (have he := (by assumption : (_ : State × _) = (_, _)); have hk : State.Keeps qq _ := keeps_of_eq he (by simp (maxDischargeDepth := 12) [h]); simp_all (maxDischargeDepth := 12) +contextual [foldl_keeps, foldl_keeps_fst])

@[simp] theorem execTwiddleSetRewrite_keeps {qq : List Instr} {s : State} (r : RoomId) (keyset : TwiddleSet) (h : State.Keeps qq s) :
    OutKeeps qq (execTwiddleSetRewrite r keyset s) := by
  unfold execTwiddleSetRewrite
  try dsimp only
  (repeat' split) <;> try simp_all (maxDischargeDepth := 12) +contextual [foldl_keeps, foldl_keeps_fst]
  all_goals (repeat' split) <;> try simp_all (maxDischargeDepth := 12) +contextual [foldl_keeps, foldl_keeps_fst]
  all_goals (have he := (by assumption : (_ : State × _) = (_, _)); have hk : State.Keeps qq _ := keeps_of_eq he (by simp (maxDischargeDepth := 12) [h]); simp_all (maxDischargeDepth := 12) +contextual [foldl_keeps, foldl_keeps_fst])

@[simp] theorem State.headerCopies_keeps {qq : List Instr} {s : State} (p home : Nat) (h : State.Keeps qq s) :
    State.Keeps qq (State.headerCopies s p home).1 := by
  unfold State.headerCopies
  refine foldl_keeps_fst (fun a r ha => ?_) _ _ h
  split
  · exact ha
  · split <;> exact keeps_of_eq (by assumption) (State.cellarRead_keeps _ _ _ ha)

@[simp] theorem readKey_keeps {qq : List Instr} {s : State} (p : Nat) (busy : Bool) (q : Req) (h : State.Keeps qq s) :
    State.Keeps qq (readKey s p busy q).1 := by
  unfold readKey
  try dsimp only
  (repeat' split) <;> try simp_all (maxDischargeDepth := 12) +contextual [foldl_keeps, foldl_keeps_fst]
  all_goals (repeat' split) <;> try simp_all (maxDischargeDepth := 12) +contextual [foldl_keeps, foldl_keeps_fst]
  all_goals (have he := (by assumption : (_ : State × _) = (_, _)); have hk : State.Keeps qq _ := keeps_of_eq he (by simp (maxDischargeDepth := 12) [h]); simp_all (maxDischargeDepth := 12) +contextual [foldl_keeps, foldl_keeps_fst])

@[simp] theorem execKeyRegister_keeps {qq : List Instr} {s : State} (f : FnId) (slot : SlotId) (h : State.Keeps qq s) :
    OutKeeps qq (execKeyRegister f slot s) := by
  refine State.runCmd_keeps _ _ _ _ (fun q => ?_) h
  dsimp only [CmdEnd.ok, CmdEnd.fail]
  (repeat' split) <;> try simp_all (maxDischargeDepth := 12) +contextual [foldl_keeps, foldl_keeps_fst]
  all_goals (repeat' split) <;> try simp_all (maxDischargeDepth := 12) +contextual [foldl_keeps, foldl_keeps_fst]
  all_goals (have he := (by assumption : (_ : State × _) = (_, _)); have hk : State.Keeps qq _ := keeps_of_eq he (by simp (maxDischargeDepth := 12) [h]); simp_all (maxDischargeDepth := 12) +contextual [foldl_keeps, foldl_keeps_fst])

@[simp] theorem readLut_keeps {qq : List Instr} {s : State} (p : Nat) (busy : Bool) (q : Req) (h : State.Keeps qq s) :
    State.Keeps qq (readLut s p busy q).1 := by
  unfold readLut
  try dsimp only
  (repeat' split) <;> try simp_all (maxDischargeDepth := 12) +contextual [foldl_keeps, foldl_keeps_fst]
  all_goals (repeat' split) <;> try simp_all (maxDischargeDepth := 12) +contextual [foldl_keeps, foldl_keeps_fst]
  all_goals (have he := (by assumption : (_ : State × _) = (_, _)); have hk : State.Keeps qq _ := keeps_of_eq he (by simp (maxDischargeDepth := 12) [h]); simp_all (maxDischargeDepth := 12) +contextual [foldl_keeps, foldl_keeps_fst])

@[simp] theorem execLutKeyRegister_keeps {qq : List Instr} {s : State} (f : FnId) (slot : SlotId) (h : State.Keeps qq s) :
    OutKeeps qq (execLutKeyRegister f slot s) := by
  refine State.runCmd_keeps _ _ _ _ (fun q => ?_) h
  dsimp only [CmdEnd.ok, CmdEnd.fail]
  (repeat' split) <;> try simp_all (maxDischargeDepth := 12) +contextual [foldl_keeps, foldl_keeps_fst]
  all_goals (repeat' split) <;> try simp_all (maxDischargeDepth := 12) +contextual [foldl_keeps, foldl_keeps_fst]
  all_goals (have he := (by assumption : (_ : State × _) = (_, _)); have hk : State.Keeps qq _ := keeps_of_eq he (by simp (maxDischargeDepth := 12) [h]); simp_all (maxDischargeDepth := 12) +contextual [foldl_keeps, foldl_keeps_fst])

@[simp] theorem execKeyRemove_keeps {qq : List Instr} {s : State} (f : FnId) (slot : SlotId) (h : State.Keeps qq s) :
    OutKeeps qq (execKeyRemove f slot s) := by
  refine State.runCmd_keeps _ _ _ _ (fun q => ?_) h
  dsimp only [CmdEnd.ok, CmdEnd.fail]
  (repeat' split) <;> try simp_all (maxDischargeDepth := 12) +contextual [foldl_keeps, foldl_keeps_fst]
  all_goals (repeat' split) <;> try simp_all (maxDischargeDepth := 12) +contextual [foldl_keeps, foldl_keeps_fst]
  all_goals (have he := (by assumption : (_ : State × _) = (_, _)); have hk : State.Keeps qq _ := keeps_of_eq he (by simp (maxDischargeDepth := 12) [h]); simp_all (maxDischargeDepth := 12) +contextual [foldl_keeps, foldl_keeps_fst])

@[simp] theorem State.endKeyCmd_keeps {qq : List Instr} {s : State} (f : Nat) (slot : Option Nat) (lut : Bool) (index : Nat) (cur : Option (Nat × Nat)) (h : State.Keeps qq s) :
    State.Keeps qq (State.endKeyCmd s f slot lut index cur) := by
  unfold State.endKeyCmd
  try dsimp only
  (repeat' split) <;> try simp_all (maxDischargeDepth := 12) +contextual [foldl_keeps, foldl_keeps_fst]
  all_goals (repeat' split) <;> try simp_all (maxDischargeDepth := 12) +contextual [foldl_keeps, foldl_keeps_fst]
  all_goals (have he := (by assumption : (_ : State × _) = (_, _)); have hk : State.Keeps qq _ := keeps_of_eq he (by simp (maxDischargeDepth := 12) [h]); simp_all (maxDischargeDepth := 12) +contextual [foldl_keeps, foldl_keeps_fst])

@[simp] theorem execKeyReleaseComplete_keeps {qq : List Instr} {s : State} (p : PartId) (lut : Bool) (index : Nat) (h : State.Keeps qq s) :
    OutKeeps qq (execKeyReleaseComplete p lut index s) := by
  unfold execKeyReleaseComplete
  try dsimp only
  (repeat' split) <;> try simp_all (maxDischargeDepth := 12) +contextual [foldl_keeps, foldl_keeps_fst]
  all_goals (repeat' split) <;> try simp_all (maxDischargeDepth := 12) +contextual [foldl_keeps, foldl_keeps_fst]
  all_goals (have he := (by assumption : (_ : State × _) = (_, _)); have hk : State.Keeps qq _ := keeps_of_eq he (by simp (maxDischargeDepth := 12) [h]); simp_all (maxDischargeDepth := 12) +contextual [foldl_keeps, foldl_keeps_fst])

@[simp] theorem execKeyList_keeps {qq : List Instr} {s : State} (f : FnId) (slot : SlotId) (h : State.Keeps qq s) :
    OutKeeps qq (execKeyList f slot s) := by
  refine State.runCmd_keeps _ _ _ _ (fun q => ?_) h
  dsimp only [CmdEnd.ok, CmdEnd.fail]
  (repeat' split) <;> try simp_all (maxDischargeDepth := 12) +contextual [foldl_keeps, foldl_keeps_fst]
  all_goals (repeat' split) <;> try simp_all (maxDischargeDepth := 12) +contextual [foldl_keeps, foldl_keeps_fst]
  all_goals (have he := (by assumption : (_ : State × _) = (_, _)); have hk : State.Keeps qq _ := keeps_of_eq he (by simp (maxDischargeDepth := 12) [h]); simp_all (maxDischargeDepth := 12) +contextual [foldl_keeps, foldl_keeps_fst])

end Sys2Proof.Machine
end

