-- ==== Sys2Proof/Laws/KeepsCommands.lean ====
section
/-! SUPPORT. What the operations of Commands leave alone: the queue of commands and the canonical form of memory. -/

namespace Sys2Proof.Machine

@[simp] theorem readProgram_keeps {qq : List Instr} {s : State} (p : Nat) (q : Req) (h : State.Keeps qq s) :
    State.Keeps qq (readProgram s p q).1 := by
  unfold readProgram
  dsimp only
  split
  · exact h
  split
  · rename_i t e
    exact keeps_of_eq e (State.fwRead_keeps _ _ _ _ h)
  · rename_i t hd e
    have ht : State.Keeps qq t := keeps_of_eq e (State.fwRead_keeps _ _ _ _ h)
    split
    · exact ht
    split
    · split
      · exact ht
      · split
        · exact ht
        · split
          · rename_i u c e2
            exact keeps_of_eq e2 (State.fwRead_keeps _ _ _ _ ht)
          · rename_i u e2
            exact keeps_of_eq e2 (State.fwRead_keeps _ _ _ _ ht)
    · exact ht

@[simp] theorem execProgramLoad_keeps {qq : List Instr} {s : State} (f : FnId) (slot : SlotId) (h : State.Keeps qq s) :
    OutKeeps qq (execProgramLoad f slot s) := by
  refine State.runCmd_keeps _ _ _ _ (fun q => ?_) h
  dsimp only [CmdEnd.ok, CmdEnd.fail]
  (repeat' split) <;> try simp_all (maxDischargeDepth := 12) +contextual [foldl_keeps, foldl_keeps_fst]
  all_goals (repeat' split) <;> try simp_all (maxDischargeDepth := 12) +contextual [foldl_keeps, foldl_keeps_fst]
  all_goals (have he := (by assumption : (_ : State × _) = (_, _)); have hk : State.Keeps qq _ := keeps_of_eq he (by simp (maxDischargeDepth := 12) [h]); simp_all (maxDischargeDepth := 12) +contextual [foldl_keeps, foldl_keeps_fst])

@[simp] theorem execProgramUnload_keeps {qq : List Instr} {s : State} (f : FnId) (slot : SlotId) (h : State.Keeps qq s) :
    OutKeeps qq (execProgramUnload f slot s) := by
  refine State.runCmd_keeps _ _ _ _ (fun q => ?_) h
  dsimp only [CmdEnd.ok, CmdEnd.fail]
  (repeat' split) <;> try simp_all (maxDischargeDepth := 12) +contextual [foldl_keeps, foldl_keeps_fst]
  all_goals (repeat' split) <;> try simp_all (maxDischargeDepth := 12) +contextual [foldl_keeps, foldl_keeps_fst]
  all_goals (have he := (by assumption : (_ : State × _) = (_, _)); have hk : State.Keeps qq _ := keeps_of_eq he (by simp (maxDischargeDepth := 12) [h]); simp_all (maxDischargeDepth := 12) +contextual [foldl_keeps, foldl_keeps_fst])

@[simp] theorem execJobRingSet_keeps {qq : List Instr} {s : State} (f : FnId) (slot : SlotId) (h : State.Keeps qq s) :
    OutKeeps qq (execJobRingSet f slot s) := by
  unfold execJobRingSet
  rw [outKeeps_next]
  apply State.runCmd_keeps
  · intro q
    simp only [CmdEnd.ok, CmdEnd.fail, State.forward, CmdEnd.keeps_ite, CmdEnd.keeps_ended, keeps_ite, State.emit_keeps, State.setFn_keeps]
    simp [h]
  · exact h

@[simp] theorem execHostbufRegister_keeps {qq : List Instr} {s : State} (f : FnId) (slot : SlotId) (h : State.Keeps qq s) :
    OutKeeps qq (execHostbufRegister f slot s) := by
  refine State.runCmd_keeps _ _ _ _ (fun q => ?_) h
  dsimp only [CmdEnd.ok, CmdEnd.fail]
  (repeat' split) <;> try simp_all (maxDischargeDepth := 12) +contextual [foldl_keeps, foldl_keeps_fst]
  all_goals (repeat' split) <;> try simp_all (maxDischargeDepth := 12) +contextual [foldl_keeps, foldl_keeps_fst]
  all_goals (have he := (by assumption : (_ : State × _) = (_, _)); have hk : State.Keeps qq _ := keeps_of_eq he (by simp (maxDischargeDepth := 12) [h]); simp_all (maxDischargeDepth := 12) +contextual [foldl_keeps, foldl_keeps_fst])

@[simp] theorem execHostbufRelease_keeps {qq : List Instr} {s : State} (f : FnId) (slot : SlotId) (h : State.Keeps qq s) :
    OutKeeps qq (execHostbufRelease f slot s) := by
  refine State.runCmd_keeps _ _ _ _ (fun q => ?_) h
  dsimp only [CmdEnd.ok, CmdEnd.fail]
  (repeat' split) <;> try simp_all (maxDischargeDepth := 12) +contextual [foldl_keeps, foldl_keeps_fst]
  all_goals (repeat' split) <;> try simp_all (maxDischargeDepth := 12) +contextual [foldl_keeps, foldl_keeps_fst]
  all_goals (have he := (by assumption : (_ : State × _) = (_, _)); have hk : State.Keeps qq _ := keeps_of_eq he (by simp (maxDischargeDepth := 12) [h]); simp_all (maxDischargeDepth := 12) +contextual [foldl_keeps, foldl_keeps_fst])

@[simp] theorem copyPiece_keeps {qq : List Instr} {a : CopyRun} (f p r : Nat) (g : Segment) (addr : Nat) (pc : Nat × Nat) (h : State.Keeps qq a.st) :
    State.Keeps qq (copyPiece f p r g addr a pc).st := by
  unfold copyPiece
  try dsimp only
  (repeat' split) <;> try simp_all (maxDischargeDepth := 12) +contextual [foldl_keeps, foldl_keeps_fst]
  all_goals (repeat' split) <;> try simp_all (maxDischargeDepth := 12) +contextual [foldl_keeps, foldl_keeps_fst]
  all_goals (have he := (by assumption : (_ : State × _) = (_, _)); have hk : State.Keeps qq _ := keeps_of_eq he (by simp (maxDischargeDepth := 12) [h]); simp_all (maxDischargeDepth := 12) +contextual [foldl_keeps, foldl_keeps_fst])

@[simp] theorem copySegment_keeps {qq : List Instr} {a : CopyRun} (f p : Nat) (g : Segment) (h : State.Keeps qq a.st) :
    State.Keeps qq (copySegment f p a g).st := by
  unfold copySegment
  dsimp only
  have hb : ∀ r addr, State.Keeps qq ((linePieces g.cellarOff g.bytes).foldl (copyPiece f p r g addr) a).st := fun r addr =>
    foldl_inv (fun a : CopyRun => State.Keeps qq a.st) (fun a g ha => copyPiece_keeps _ _ _ _ _ _ ha) _ _ h
  (repeat' split) <;> simp [h, hb]

@[simp] theorem execHostCopy_keeps {qq : List Instr} {s : State} (f : FnId) (slot : SlotId) (hostIn : List Byte) (h : State.Keeps qq s) :
    OutKeeps qq (execHostCopy f slot hostIn s) := by
  refine State.runCmd_keeps _ _ _ _ (fun q => ?_) h
  dsimp only [CmdEnd.ok, CmdEnd.fail]
  split
  · exact h
  split
  · exact h
  · have hk := fun l => foldl_inv (fun a : CopyRun => State.Keeps qq a.st) (fun a g ha => copySegment_keeps f (f.val - 1) g ha) l
      ({ st := s, rest := hostIn, segs := 0, bytes := 0, failed := false } : CopyRun) h
    refine State.raise_keeps _ (keeps_if ?_ (hk _))
    rw [State.emit_keeps]
    exact hk _

@[simp] theorem execLedgerDrain_keeps {qq : List Instr} {s : State} (f : FnId) (slot : SlotId) (h : State.Keeps qq s) :
    OutKeeps qq (execLedgerDrain f slot s) := by
  refine State.runCmd_keeps _ _ _ _ (fun q => ?_) h
  dsimp only [CmdEnd.ok, CmdEnd.fail]
  (repeat' split) <;> try simp_all (maxDischargeDepth := 12) +contextual [foldl_keeps, foldl_keeps_fst]
  all_goals (repeat' split) <;> try simp_all (maxDischargeDepth := 12) +contextual [foldl_keeps, foldl_keeps_fst]
  all_goals (have he := (by assumption : (_ : State × _) = (_, _)); have hk : State.Keeps qq _ := keeps_of_eq he (by simp (maxDischargeDepth := 12) [h]); simp_all (maxDischargeDepth := 12) +contextual [foldl_keeps, foldl_keeps_fst])

@[simp] theorem execLedgerStats_keeps {qq : List Instr} {s : State} (f : FnId) (slot : SlotId) (h : State.Keeps qq s) :
    OutKeeps qq (execLedgerStats f slot s) := by
  refine State.runCmd_keeps _ _ _ _ (fun q => ?_) h
  dsimp only [CmdEnd.ok, CmdEnd.fail]
  (repeat' split) <;> try simp_all (maxDischargeDepth := 12) +contextual [foldl_keeps, foldl_keeps_fst]
  all_goals (repeat' split) <;> try simp_all (maxDischargeDepth := 12) +contextual [foldl_keeps, foldl_keeps_fst]
  all_goals (have he := (by assumption : (_ : State × _) = (_, _)); have hk : State.Keeps qq _ := keeps_of_eq he (by simp (maxDischargeDepth := 12) [h]); simp_all (maxDischargeDepth := 12) +contextual [foldl_keeps, foldl_keeps_fst])

@[simp] theorem State.writeEntry_keeps {qq : List Instr} {s : State} (e : LedgerEntry) (h : State.Keeps qq s) :
    State.Keeps qq (State.writeEntry s e) := by
  unfold State.writeEntry
  dsimp only
  split
  · refine State.setCause_keeps _ _ ?_
    split
    · exact State.raise_keeps _ h
    · exact h
  · split
    · exact State.raise_keeps _ h
    · exact h

@[simp] theorem execLedgerWrite_keeps {qq : List Instr} {s : State} (h : State.Keeps qq s) :
    OutKeeps qq (execLedgerWrite s) := by
  unfold execLedgerWrite
  try dsimp only
  (repeat' split) <;> try simp_all (maxDischargeDepth := 12) +contextual [foldl_keeps, foldl_keeps_fst]
  all_goals (repeat' split) <;> try simp_all (maxDischargeDepth := 12) +contextual [foldl_keeps, foldl_keeps_fst]
  all_goals (have he := (by assumption : (_ : State × _) = (_, _)); have hk : State.Keeps qq _ := keeps_of_eq he (by simp (maxDischargeDepth := 12) [h]); simp_all (maxDischargeDepth := 12) +contextual [foldl_keeps, foldl_keeps_fst])

end Sys2Proof.Machine
end

