-- ==== Sys2Proof/Laws/KeepsAttic.lean ====
section
/-! SUPPORT. What the operations of Attic leave alone: the queue of commands and the canonical form of memory. -/

namespace Sys2Proof.Machine

@[simp] theorem State.bankDecision_keeps {qq : List Instr} {s : State} (r layer bank spare : Nat) (last : Bool) (h : State.Keeps qq s) :
    State.Keeps qq (State.bankDecision s r layer bank spare last) := by
  unfold State.bankDecision
  try dsimp only
  (repeat' split) <;> try simp_all (maxDischargeDepth := 12) +contextual [foldl_keeps, foldl_keeps_fst]
  all_goals (repeat' split) <;> try simp_all (maxDischargeDepth := 12) +contextual [foldl_keeps, foldl_keeps_fst]
  all_goals (have he := (by assumption : (_ : State × _) = (_, _)); have hk : State.Keeps qq _ := keeps_of_eq he (by simp (maxDischargeDepth := 12) [h]); simp_all (maxDischargeDepth := 12) +contextual [foldl_keeps, foldl_keeps_fst])

@[simp] theorem State.failBank_keeps {qq : List Instr} {s : State} (r layer bank : Nat) (h : State.Keeps qq s) :
    State.Keeps qq (State.failBank s r layer bank) := by
  unfold State.failBank
  try dsimp only
  (repeat' split) <;> try simp_all (maxDischargeDepth := 12) +contextual [foldl_keeps, foldl_keeps_fst]
  all_goals (repeat' split) <;> try simp_all (maxDischargeDepth := 12) +contextual [foldl_keeps, foldl_keeps_fst]
  all_goals (have he := (by assumption : (_ : State × _) = (_, _)); have hk : State.Keeps qq _ := keeps_of_eq he (by simp (maxDischargeDepth := 12) [h]); simp_all (maxDischargeDepth := 12) +contextual [foldl_keeps, foldl_keeps_fst])

@[simp] theorem State.copiedRow_keeps {qq : List Instr} {s : State} (r layer bank row : Nat) (h : State.Keeps qq s) :
    State.Keeps qq (State.copiedRow s r layer bank row) := by
  unfold State.copiedRow
  try dsimp only
  (repeat' split) <;> try simp_all (maxDischargeDepth := 12) +contextual [foldl_keeps, foldl_keeps_fst]
  all_goals (repeat' split) <;> try simp_all (maxDischargeDepth := 12) +contextual [foldl_keeps, foldl_keeps_fst]
  all_goals (have he := (by assumption : (_ : State × _) = (_, _)); have hk : State.Keeps qq _ := keeps_of_eq he (by simp (maxDischargeDepth := 12) [h]); simp_all (maxDischargeDepth := 12) +contextual [foldl_keeps, foldl_keeps_fst])

@[simp] theorem State.remapRow_keeps {qq : List Instr} {s : State} (r layer bank row : Nat) (h : State.Keeps qq s) :
    State.Keeps qq (State.remapRow s r layer bank row) := by
  unfold State.remapRow
  try dsimp only
  (repeat' split) <;> try simp_all (maxDischargeDepth := 12) +contextual [foldl_keeps, foldl_keeps_fst]
  all_goals (repeat' split) <;> try simp_all (maxDischargeDepth := 12) +contextual [foldl_keeps, foldl_keeps_fst]
  all_goals (have he := (by assumption : (_ : State × _) = (_, _)); have hk : State.Keeps qq _ := keeps_of_eq he (by simp (maxDischargeDepth := 12) [h]); simp_all (maxDischargeDepth := 12) +contextual [foldl_keeps, foldl_keeps_fst])

@[simp] theorem execRowRemap_keeps {qq : List Instr} {s : State} (r : RoomId) (layer : Fin 3) (bank row : Nat) (h : State.Keeps qq s) :
    OutKeeps qq (execRowRemap r layer bank row s) := by
  unfold execRowRemap
  try dsimp only
  (repeat' split) <;> try simp_all (maxDischargeDepth := 12) +contextual [foldl_keeps, foldl_keeps_fst]
  all_goals (repeat' split) <;> try simp_all (maxDischargeDepth := 12) +contextual [foldl_keeps, foldl_keeps_fst]
  all_goals (have he := (by assumption : (_ : State × _) = (_, _)); have hk : State.Keeps qq _ := keeps_of_eq he (by simp (maxDischargeDepth := 12) [h]); simp_all (maxDischargeDepth := 12) +contextual [foldl_keeps, foldl_keeps_fst])

@[simp] theorem execBankCopy_keeps {qq : List Instr} {s : State} (r : RoomId) (layer : Fin 3) (bank : Nat) (h : State.Keeps qq s) :
    OutKeeps qq (execBankCopy r layer bank s) := by
  unfold execBankCopy
  try dsimp only
  (repeat' split) <;> try simp_all (maxDischargeDepth := 12) +contextual [foldl_keeps, foldl_keeps_fst]
  all_goals (repeat' split) <;> try simp_all (maxDischargeDepth := 12) +contextual [foldl_keeps, foldl_keeps_fst]
  all_goals (have he := (by assumption : (_ : State × _) = (_, _)); have hk : State.Keeps qq _ := keeps_of_eq he (by simp (maxDischargeDepth := 12) [h]); simp_all (maxDischargeDepth := 12) +contextual [foldl_keeps, foldl_keeps_fst])

@[simp] theorem execBankCopyEnd_keeps {qq : List Instr} {s : State} (r : RoomId) (layer : Fin 3) (h : State.Keeps qq s) :
    OutKeeps qq (execBankCopyEnd r layer s) := by
  unfold execBankCopyEnd
  try dsimp only
  (repeat' split) <;> try simp_all (maxDischargeDepth := 12) +contextual [foldl_keeps, foldl_keeps_fst]
  all_goals (repeat' split) <;> try simp_all (maxDischargeDepth := 12) +contextual [foldl_keeps, foldl_keeps_fst]
  all_goals (have he := (by assumption : (_ : State × _) = (_, _)); have hk : State.Keeps qq _ := keeps_of_eq he (by simp (maxDischargeDepth := 12) [h]); simp_all (maxDischargeDepth := 12) +contextual [foldl_keeps, foldl_keeps_fst])

@[simp] theorem State.markParity_keeps {qq : List Instr} {s : State} (r line : Nat) (h : State.Keeps qq s) :
    State.Keeps qq (State.markParity s r line) := ⟨h.1, h.2.1, h.2.2⟩

@[simp] theorem State.atticSweep_keeps {qq : List Instr} {s : State} (r layer bank : Nat) (bad : Bool) (h : State.Keeps qq s) :
    State.Keeps qq (State.atticSweep s r layer bank bad) := by
  unfold State.atticSweep
  try dsimp only
  (repeat' split) <;> try simp_all (maxDischargeDepth := 12) +contextual [foldl_keeps, foldl_keeps_fst]
  all_goals (repeat' split) <;> try simp_all (maxDischargeDepth := 12) +contextual [foldl_keeps, foldl_keeps_fst]
  all_goals (have he := (by assumption : (_ : State × _) = (_, _)); have hk : State.Keeps qq _ := keeps_of_eq he (by simp (maxDischargeDepth := 12) [h]); simp_all (maxDischargeDepth := 12) +contextual [foldl_keeps, foldl_keeps_fst])

@[simp] theorem execAtticSweepRead_keeps {qq : List Instr} {s : State} (r : RoomId) (layer : Fin 3) (bank : Nat) (bad : Bool) (h : State.Keeps qq s) :
    OutKeeps qq (execAtticSweepRead r layer bank bad s) := by
  unfold execAtticSweepRead
  try dsimp only
  (repeat' split) <;> try simp_all (maxDischargeDepth := 12) +contextual [foldl_keeps, foldl_keeps_fst]
  all_goals (repeat' split) <;> try simp_all (maxDischargeDepth := 12) +contextual [foldl_keeps, foldl_keeps_fst]
  all_goals (have he := (by assumption : (_ : State × _) = (_, _)); have hk : State.Keeps qq _ := keeps_of_eq he (by simp (maxDischargeDepth := 12) [h]); simp_all (maxDischargeDepth := 12) +contextual [foldl_keeps, foldl_keeps_fst])

@[simp] theorem execAtticSweepForced_keeps {qq : List Instr} {s : State} (r : RoomId) (layer : Fin 3) (bank : Nat) (bad : Bool) (h : State.Keeps qq s) :
    OutKeeps qq (execAtticSweepForced r layer bank bad s) := by
  unfold execAtticSweepForced
  try dsimp only
  (repeat' split) <;> try simp_all (maxDischargeDepth := 12) +contextual [foldl_keeps, foldl_keeps_fst]
  all_goals (repeat' split) <;> try simp_all (maxDischargeDepth := 12) +contextual [foldl_keeps, foldl_keeps_fst]
  all_goals (have he := (by assumption : (_ : State × _) = (_, _)); have hk : State.Keeps qq _ := keeps_of_eq he (by simp (maxDischargeDepth := 12) [h]); simp_all (maxDischargeDepth := 12) +contextual [foldl_keeps, foldl_keeps_fst])

@[simp] theorem State.replaceBank_keeps {qq : List Instr} {s : State} (r layer bank : Nat) (h : State.Keeps qq s) :
    State.Keeps qq (State.replaceBank s r layer bank) := by
  unfold State.replaceBank
  try dsimp only
  (repeat' split) <;> try simp_all (maxDischargeDepth := 12) +contextual [foldl_keeps, foldl_keeps_fst]
  all_goals (repeat' split) <;> try simp_all (maxDischargeDepth := 12) +contextual [foldl_keeps, foldl_keeps_fst]
  all_goals (have he := (by assumption : (_ : State × _) = (_, _)); have hk : State.Keeps qq _ := keeps_of_eq he (by simp (maxDischargeDepth := 12) [h]); simp_all (maxDischargeDepth := 12) +contextual [foldl_keeps, foldl_keeps_fst])

@[simp] theorem State.selfTestFinding_keeps {qq : List Instr} {s : State} (r : Nat) (e : Nat × Nat × Nat) (h : State.Keeps qq s) :
    State.Keeps qq (State.selfTestFinding s r e) := by
  unfold State.selfTestFinding
  try dsimp only
  (repeat' split) <;> try simp_all (maxDischargeDepth := 12) +contextual [foldl_keeps, foldl_keeps_fst]
  all_goals (repeat' split) <;> try simp_all (maxDischargeDepth := 12) +contextual [foldl_keeps, foldl_keeps_fst]
  all_goals (have he := (by assumption : (_ : State × _) = (_, _)); have hk : State.Keeps qq _ := keeps_of_eq he (by simp (maxDischargeDepth := 12) [h]); simp_all (maxDischargeDepth := 12) +contextual [foldl_keeps, foldl_keeps_fst])

@[simp] theorem State.zeroAttic_keeps {qq : List Instr} {s : State} (r : Nat) (h : State.Keeps qq s) :
    State.Keeps qq (State.zeroAttic s r) := ⟨h.1, Mem.wf_clear h.2.1 _ _, h.2.2⟩

@[simp] theorem State.atticTest_keeps {qq : List Instr} {s : State} (r : Nat) (failing : List (Nat × Nat × Nat)) (h : State.Keeps qq s) :
    State.Keeps qq (State.atticTest s r failing) := by
  unfold State.atticTest
  try dsimp only
  (repeat' split) <;> try simp_all (maxDischargeDepth := 12) +contextual [foldl_keeps, foldl_keeps_fst]
  all_goals (repeat' split) <;> try simp_all (maxDischargeDepth := 12) +contextual [foldl_keeps, foldl_keeps_fst]
  all_goals (have he := (by assumption : (_ : State × _) = (_, _)); have hk : State.Keeps qq _ := keeps_of_eq he (by simp (maxDischargeDepth := 12) [h]); simp_all (maxDischargeDepth := 12) +contextual [foldl_keeps, foldl_keeps_fst])

@[simp] theorem execAtticSelfTest_keeps {qq : List Instr} {s : State} (r : RoomId) (failing : List (Nat × Nat × Nat)) (h : State.Keeps qq s) :
    OutKeeps qq (execAtticSelfTest r failing s) := by
  unfold execAtticSelfTest
  try dsimp only
  (repeat' split) <;> try simp_all (maxDischargeDepth := 12) +contextual [foldl_keeps, foldl_keeps_fst]
  all_goals (repeat' split) <;> try simp_all (maxDischargeDepth := 12) +contextual [foldl_keeps, foldl_keeps_fst]
  all_goals (have he := (by assumption : (_ : State × _) = (_, _)); have hk : State.Keeps qq _ := keeps_of_eq he (by simp (maxDischargeDepth := 12) [h]); simp_all (maxDischargeDepth := 12) +contextual [foldl_keeps, foldl_keeps_fst])

@[simp] theorem execPartitionDestroy_keeps {qq : List Instr} {s : State} (f : FnId) (slot : TeardownSlot) (h : State.Keeps qq s) :
    OutKeeps qq (execPartitionDestroy f slot s) := by
  refine State.runCmd_keeps _ _ _ _ (fun q => ?_) h
  dsimp only [CmdEnd.ok, CmdEnd.fail]
  (repeat' split) <;> try simp_all (maxDischargeDepth := 12) +contextual [foldl_keeps, foldl_keeps_fst]
  all_goals (repeat' split) <;> try simp_all (maxDischargeDepth := 12) +contextual [foldl_keeps, foldl_keeps_fst]
  all_goals (have he := (by assumption : (_ : State × _) = (_, _)); have hk : State.Keeps qq _ := keeps_of_eq he (by simp (maxDischargeDepth := 12) [h]); simp_all (maxDischargeDepth := 12) +contextual [foldl_keeps, foldl_keeps_fst])

end Sys2Proof.Machine
end

