-- ==== Sys2Proof/Laws/KeepsKeySwitch.lean ====
section
/-! SUPPORT. What the operations of KeySwitch leave alone: the queue of commands and the canonical form of memory. -/

namespace Sys2Proof.Machine

theorem State.pullEntry_keeps {qq : List Instr} {s t : State} (p room : Nat) (h : State.Keeps qq s)
    (e : s.pullEntry p room = some t) : State.Keeps qq t := by
  unfold State.pullEntry at e
  split at e
  · dsimp only at e
    split at e
    · simp at e
    · simp only [Option.some.injEq] at e
      subst e
      rw [State.setRoom_keeps]
      exact foldl_keeps (fun t x ht => State.countRead_keeps _ ht) _ _ h
  · simp at e

@[simp] theorem State.pull_keeps {qq : List Instr} {s : State} (p room n : Nat) (h : State.Keeps qq s) : State.Keeps qq (s.pull p room n) := by
  induction n generalizing s with
  | zero => exact h
  | succ n ih =>
    unfold State.pull
    split
    · rename_i t e
      exact ih (State.pullEntry_keeps p room h e)
    · exact h

@[simp] theorem State.pulled_keeps {qq : List Instr} {s : State} (p : Nat) (n : Nat → Nat) (q : Nat) (h : State.Keeps qq s) :
    State.Keeps qq (State.pulled s p n q) := by
  unfold State.pulled
  refine foldl_keeps (fun t room ht => ?_) _ _ h
  dsimp only
  exact keeps_if ht (State.pull_keeps _ _ _ ht)

@[simp] theorem State.fetchLate_keeps {qq : List Instr} {s : State} (x : Part) (e : KeyEntry) (room : Nat) (h : State.Keeps qq s) :
    State.Keeps qq (State.fetchLate s x e room) := by
  unfold State.fetchLate
  refine foldl_keeps (fun t q ht => ?_) _ _ h
  split
  · simp [ht]
  · exact ht

@[simp] theorem State.consume_keeps {qq : List Instr} {s : State} (p room : Nat) (e : KeyEntry) (rest : List KeyEntry) (runs : Bool) (h : State.Keeps qq s) :
    State.Keeps qq (State.consume s p room e rest runs) := by
  unfold State.consume
  rw [State.setRoom_keeps]
  split
  · exact State.fetchLate_keeps _ _ _ h
  · exact h

@[simp] theorem State.awaitEntries_keeps {qq : List Instr} {s : State} (p : Nat) (n : Nat → Nat) (h : State.Keeps qq s) :
    State.Keeps qq (State.awaitEntries s p n) := by
  unfold State.awaitEntries
  try dsimp only
  refine foldl_keeps (fun t x ht => ?_) _ _ h
  try dsimp only
  (repeat' split) <;> try simp_all (maxDischargeDepth := 12) +contextual [foldl_keeps, foldl_keeps_fst]
  all_goals (repeat' split) <;> try simp_all (maxDischargeDepth := 12) +contextual [foldl_keeps, foldl_keeps_fst]
  all_goals (have he := (by assumption : (_ : State × _) = (_, _)); have hk : State.Keeps qq _ := keeps_of_eq he (by simp (maxDischargeDepth := 12) [ht]); simp_all (maxDischargeDepth := 12) +contextual [foldl_keeps, foldl_keeps_fst])

@[simp] theorem State.switchOp_keeps {qq : List Instr} {s : State} (p : Nat) (dst a : Place) (kind code : Nat) (h : State.Keeps qq s) :
    State.Keeps qq (State.switchOp s p dst a kind code) := by
  unfold State.switchOp
  dsimp only
  refine keeps_if h (keeps_if (State.awaitEntries_keeps _ _ h) (keeps_if h ?_))
  refine foldl_keeps (fun t x ht => ?_) _ _ h
  rw [State.draw_keeps]
  refine State.countOp_keeps _ _ (State.performRoom_keeps _ _ _ _ ?_)
  split
  · exact State.consume_keeps _ _ _ _ _ ht
  · exact ht

@[simp] theorem execRelinearise_keeps {qq : List Instr} {s : State} (p : PartId) (dst a : Place) (h : State.Keeps qq s) :
    OutKeeps qq (execRelinearise p dst a s) := by
  unfold execRelinearise
  try dsimp only
  (repeat' split) <;> try simp_all (maxDischargeDepth := 12) +contextual [foldl_keeps, foldl_keeps_fst]
  all_goals (repeat' split) <;> try simp_all (maxDischargeDepth := 12) +contextual [foldl_keeps, foldl_keeps_fst]
  all_goals (have he := (by assumption : (_ : State × _) = (_, _)); have hk : State.Keeps qq _ := keeps_of_eq he (by simp (maxDischargeDepth := 12) [h]); simp_all (maxDischargeDepth := 12) +contextual [foldl_keeps, foldl_keeps_fst])

@[simp] theorem execRotate_keeps {qq : List Instr} {s : State} (p : PartId) (dst a : Place) (code : Word) (h : State.Keeps qq s) :
    OutKeeps qq (execRotate p dst a code s) := by
  unfold execRotate
  try dsimp only
  (repeat' split) <;> try simp_all (maxDischargeDepth := 12) +contextual [foldl_keeps, foldl_keeps_fst]
  all_goals (repeat' split) <;> try simp_all (maxDischargeDepth := 12) +contextual [foldl_keeps, foldl_keeps_fst]
  all_goals (have he := (by assumption : (_ : State × _) = (_, _)); have hk : State.Keeps qq _ := keeps_of_eq he (by simp (maxDischargeDepth := 12) [h]); simp_all (maxDischargeDepth := 12) +contextual [foldl_keeps, foldl_keeps_fst])

@[simp] theorem execConjugate_keeps {qq : List Instr} {s : State} (p : PartId) (dst a : Place) (h : State.Keeps qq s) :
    OutKeeps qq (execConjugate p dst a s) := by
  unfold execConjugate
  try dsimp only
  (repeat' split) <;> try simp_all (maxDischargeDepth := 12) +contextual [foldl_keeps, foldl_keeps_fst]
  all_goals (repeat' split) <;> try simp_all (maxDischargeDepth := 12) +contextual [foldl_keeps, foldl_keeps_fst]
  all_goals (have he := (by assumption : (_ : State × _) = (_, _)); have hk : State.Keeps qq _ := keeps_of_eq he (by simp (maxDischargeDepth := 12) [h]); simp_all (maxDischargeDepth := 12) +contextual [foldl_keeps, foldl_keeps_fst])

@[simp] theorem execKeySwitch_keeps {qq : List Instr} {s : State} (p : PartId) (dst a : Place) (kind : Nat) (rot : Word) (h : State.Keeps qq s) :
    OutKeeps qq (execKeySwitch p dst a kind rot s) := by
  unfold execKeySwitch
  try dsimp only
  (repeat' split) <;> try simp_all (maxDischargeDepth := 12) +contextual [foldl_keeps, foldl_keeps_fst]
  all_goals (repeat' split) <;> try simp_all (maxDischargeDepth := 12) +contextual [foldl_keeps, foldl_keeps_fst]
  all_goals (have he := (by assumption : (_ : State × _) = (_, _)); have hk : State.Keeps qq _ := keeps_of_eq he (by simp (maxDischargeDepth := 12) [h]); simp_all (maxDischargeDepth := 12) +contextual [foldl_keeps, foldl_keeps_fst])

@[simp] theorem State.hoistedStep_keeps {qq : List Instr} {s : State} (p room : Nat) (a : Place) {t : State}
    (dc : Place × Word × Option KeyEntry × Nat) (h : State.Keeps qq t) : State.Keeps qq (s.hoistedStep p room a t dc) := by
  unfold State.hoistedStep
  dsimp only
  rw [State.draw_keeps]
  refine State.performRoom_keeps _ _ _ _ ?_
  split
  · exact State.consume_keeps _ _ _ _ _ h
  · exact h

@[simp] theorem State.hoistedOp_keeps {qq : List Instr} {s : State} (p : Nat) (dsts : List Place) (a : Place) (codes : List Word) (h : State.Keeps qq s) :
    State.Keeps qq (State.hoistedOp s p dsts a codes) := by
  unfold State.hoistedOp
  refine keeps_if h ?_
  exact foldl_keeps (fun t room ht => State.countOp_keeps _ _ (foldl_keeps (fun a x ha => State.hoistedStep_keeps _ _ _ _ ha) _ _ ht)) _ _ h

@[simp] theorem execHoistedRotate_keeps {qq : List Instr} {s : State} (p : PartId) (dsts : List Place) (a : Place) (codes : List Word) (h : State.Keeps qq s) :
    OutKeeps qq (execHoistedRotate p dsts a codes s) := by
  unfold execHoistedRotate
  dsimp only
  rw [outKeeps_next]
  exact keeps_if h (keeps_if (State.awaitEntries_keeps _ _ h) (State.hoistedOp_keeps _ _ _ _ (State.pulled_keeps _ _ _ h)))

@[simp] theorem State.accumulateOp_keeps {qq : List Instr} {s : State} (p : Nat) (dst a : Place) (codes : List Word) (h : State.Keeps qq s) :
    State.Keeps qq (State.accumulateOp s p dst a codes) := by
  unfold State.accumulateOp
  try dsimp only
  (repeat' split) <;> try simp_all (maxDischargeDepth := 12) +contextual [foldl_keeps, foldl_keeps_fst]
  all_goals (repeat' split) <;> try simp_all (maxDischargeDepth := 12) +contextual [foldl_keeps, foldl_keeps_fst]
  all_goals (have he := (by assumption : (_ : State × _) = (_, _)); have hk : State.Keeps qq _ := keeps_of_eq he (by simp (maxDischargeDepth := 12) [h]); simp_all (maxDischargeDepth := 12) +contextual [foldl_keeps, foldl_keeps_fst])

@[simp] theorem execRotateAccumulate_keeps {qq : List Instr} {s : State} (p : PartId) (dst a : Place) (codes : List Word) (h : State.Keeps qq s) :
    OutKeeps qq (execRotateAccumulate p dst a codes s) := by
  unfold execRotateAccumulate
  try dsimp only
  (repeat' split) <;> try simp_all (maxDischargeDepth := 12) +contextual [foldl_keeps, foldl_keeps_fst]
  all_goals (repeat' split) <;> try simp_all (maxDischargeDepth := 12) +contextual [foldl_keeps, foldl_keeps_fst]
  all_goals (have he := (by assumption : (_ : State × _) = (_, _)); have hk : State.Keeps qq _ := keeps_of_eq he (by simp (maxDischargeDepth := 12) [h]); simp_all (maxDischargeDepth := 12) +contextual [foldl_keeps, foldl_keeps_fst])

@[simp] theorem State.pinRoom_keeps {qq : List Instr} {s : State} (x : Part) (room home off : Nat) (share : Nat → Nat) (h : State.Keeps qq s) :
    State.Keeps qq (State.pinRoom s x room home off share) := by
  unfold State.pinRoom
  try dsimp only
  (repeat' split) <;> try simp_all (maxDischargeDepth := 12) +contextual [foldl_keeps, foldl_keeps_fst]
  all_goals (repeat' split) <;> try simp_all (maxDischargeDepth := 12) +contextual [foldl_keeps, foldl_keeps_fst]
  all_goals (have he := (by assumption : (_ : State × _) = (_, _)); have hk : State.Keeps qq _ := keeps_of_eq he (by simp (maxDischargeDepth := 12) [h]); simp_all (maxDischargeDepth := 12) +contextual [foldl_keeps, foldl_keeps_fst])

@[simp] theorem execPin_keeps {qq : List Instr} {s : State} (p : PartId) (index : Nat) (off : Nat) (h : State.Keeps qq s) :
    OutKeeps qq (execPin p index off s) := by
  unfold execPin
  dsimp only
  rw [outKeeps_next]
  refine keeps_if h ?_
  rw [State.setPart_keeps]
  refine foldl_keeps (fun t room ht => State.countOp_keeps _ _ ?_) _ _ h
  split
  · exact State.pinRoom_keeps _ _ _ _ _ ht
  · exact ht

@[simp] theorem execUnpin_keeps {qq : List Instr} {s : State} (p : PartId) (index : Nat) (h : State.Keeps qq s) :
    OutKeeps qq (execUnpin p index s) := by
  unfold execUnpin
  try dsimp only
  (repeat' split) <;> try simp_all (maxDischargeDepth := 12) +contextual [foldl_keeps, foldl_keeps_fst]
  all_goals (repeat' split) <;> try simp_all (maxDischargeDepth := 12) +contextual [foldl_keeps, foldl_keeps_fst]
  all_goals (have he := (by assumption : (_ : State × _) = (_, _)); have hk : State.Keeps qq _ := keeps_of_eq he (by simp (maxDischargeDepth := 12) [h]); simp_all (maxDischargeDepth := 12) +contextual [foldl_keeps, foldl_keeps_fst])

end Sys2Proof.Machine
end

