-- ==== Sys2Proof/Laws/KeepsStreams.lean ====
section
/-! SUPPORT. What the operations of Streams leave alone: the queue of commands and the canonical form of memory. -/

namespace Sys2Proof.Machine

@[simp] theorem StreamRun.halt_keeps {qq : List Instr} {a : StreamRun} (cause at_ : Nat) (e : Option RoomEvent) (h : State.Keeps qq a.st) :
    State.Keeps qq (StreamRun.halt a cause at_ e).st := by
  unfold StreamRun.halt
  try dsimp only
  (repeat' split) <;> try simp_all (maxDischargeDepth := 12) +contextual [foldl_keeps, foldl_keeps_fst]
  all_goals (repeat' split) <;> try simp_all (maxDischargeDepth := 12) +contextual [foldl_keeps, foldl_keeps_fst]
  all_goals (have he := (by assumption : (_ : State × _) = (_, _)); have hk : State.Keeps qq _ := keeps_of_eq he (by simp (maxDischargeDepth := 12) [h]); simp_all (maxDischargeDepth := 12) +contextual [foldl_keeps, foldl_keeps_fst])

@[simp] theorem StreamCtx.readAt_keeps {qq : List Instr} {a : StreamRun} (c : StreamCtx) (cellar : Bool) (rel off n : Nat) (h : State.Keeps qq a.st) :
    State.Keeps qq (StreamCtx.readAt c a cellar rel off n).1.st := by
  unfold StreamCtx.readAt
  try dsimp only
  (repeat' split) <;> try simp_all (maxDischargeDepth := 12) +contextual [foldl_keeps, foldl_keeps_fst]
  all_goals (repeat' split) <;> try simp_all (maxDischargeDepth := 12) +contextual [foldl_keeps, foldl_keeps_fst]
  all_goals (have he := (by assumption : (_ : State × _) = (_, _)); have hk : State.Keeps qq _ := keeps_of_eq he (by simp (maxDischargeDepth := 12) [h]); simp_all (maxDischargeDepth := 12) +contextual [foldl_keeps, foldl_keeps_fst])

@[simp] theorem StreamCtx.readHost_keeps {qq : List Instr} {a : StreamRun} (c : StreamCtx) (off n : Nat) (h : State.Keeps qq a.st) :
    State.Keeps qq (StreamCtx.readHost c a off n).1.st := by
  unfold StreamCtx.readHost
  try dsimp only
  (repeat' split) <;> try simp_all (maxDischargeDepth := 12) +contextual [foldl_keeps, foldl_keeps_fst]
  all_goals (repeat' split) <;> try simp_all (maxDischargeDepth := 12) +contextual [foldl_keeps, foldl_keeps_fst]
  all_goals (have he := (by assumption : (_ : State × _) = (_, _)); have hk : State.Keeps qq _ := keeps_of_eq he (by simp (maxDischargeDepth := 12) [h]); simp_all (maxDischargeDepth := 12) +contextual [foldl_keeps, foldl_keeps_fst])

@[simp] theorem StreamCtx.get_keeps {qq : List Instr} {a : StreamRun} (c : StreamCtx) (space rel off n : Nat) (h : State.Keeps qq a.st) :
    State.Keeps qq (StreamCtx.get c a space rel off n).1.st := by
  unfold StreamCtx.get
  try dsimp only
  (repeat' split) <;> try simp_all (maxDischargeDepth := 12) +contextual [foldl_keeps, foldl_keeps_fst]
  all_goals (repeat' split) <;> try simp_all (maxDischargeDepth := 12) +contextual [foldl_keeps, foldl_keeps_fst]
  all_goals (have he := (by assumption : (_ : State × _) = (_, _)); have hk : State.Keeps qq _ := keeps_of_eq he (by simp (maxDischargeDepth := 12) [h]); simp_all (maxDischargeDepth := 12) +contextual [foldl_keeps, foldl_keeps_fst])

@[simp] theorem StreamCtx.put_keeps {qq : List Instr} {a : StreamRun} (c : StreamCtx) (src : List (Nat × Nat)) (space rel off : Nat) (data0 : List Byte) (h : State.Keeps qq a.st) :
    State.Keeps qq (StreamCtx.put c a src space rel off data0).st := by
  have h1 : ∀ n, State.Keeps qq (if src.isEmpty then a.st else a.st.draw n) := fun n => by split <;> exact h
  unfold StreamCtx.put
  dsimp only
  split
  · exact h
  split
  · split
    · split
      · exact State.digest_keeps _ _ _ _ _ _ h
      · exact h
    · refine State.digest_keeps _ _ _ _ _ _ ?_
      split
      · exact h
      · exact h
  split
  · exact h
  split
  · exact State.digest_keeps _ _ _ _ _ _ (State.countAtticWr_keeps _ _ _ (State.writeAttic_keeps _ _ _ (h1 _)))
  · split
    · exact State.digest_keeps _ _ _ _ _ _ (keeps_of_eq (by assumption) (State.cellarWrite_keeps _ _ _ (h1 _)))
    · exact keeps_of_eq (by assumption) (State.cellarWrite_keeps _ _ _ (h1 _))

@[simp] theorem StreamCtx.putLine_keeps {qq : List Instr} {a : StreamRun} (c : StreamCtx) (b : BlockAt) (src : List (Nat × Nat)) (i k : Nat) (data : List Byte) (h : State.Keeps qq a.st) :
    State.Keeps qq (StreamCtx.putLine c b src a i k data).st := by
  unfold StreamCtx.putLine
  try dsimp only
  (repeat' split) <;> try simp_all (maxDischargeDepth := 12) +contextual [foldl_keeps, foldl_keeps_fst]
  all_goals (repeat' split) <;> try simp_all (maxDischargeDepth := 12) +contextual [foldl_keeps, foldl_keeps_fst]
  all_goals (have he := (by assumption : (_ : State × _) = (_, _)); have hk : State.Keeps qq _ := keeps_of_eq he (by simp (maxDischargeDepth := 12) [h]); simp_all (maxDischargeDepth := 12) +contextual [foldl_keeps, foldl_keeps_fst])

@[simp] theorem StreamCtx.getLine_keeps {qq : List Instr} {a : StreamRun} (c : StreamCtx) (b : BlockAt) (i k : Nat) (h : State.Keeps qq a.st) :
    State.Keeps qq (StreamCtx.getLine c b a i k).1.st := by
  unfold StreamCtx.getLine
  try dsimp only
  (repeat' split) <;> try simp_all (maxDischargeDepth := 12) +contextual [foldl_keeps, foldl_keeps_fst]
  all_goals (repeat' split) <;> try simp_all (maxDischargeDepth := 12) +contextual [foldl_keeps, foldl_keeps_fst]
  all_goals (have he := (by assumption : (_ : State × _) = (_, _)); have hk : State.Keeps qq _ := keeps_of_eq he (by simp (maxDischargeDepth := 12) [h]); simp_all (maxDischargeDepth := 12) +contextual [foldl_keeps, foldl_keeps_fst])

@[simp] theorem StreamCtx.moveLine_keeps {qq : List Instr} {a : StreamRun} (c : StreamCtx) (b : BlockAt) (src : List (Nat × Nat)) (i : Nat) (k : Nat) (h : State.Keeps qq a.st) :
    State.Keeps qq (StreamCtx.moveLine c b src i a k).st := by
  unfold StreamCtx.moveLine
  try dsimp only
  (repeat' split) <;> try simp_all (maxDischargeDepth := 12) +contextual [foldl_keeps, foldl_keeps_fst]
  all_goals (repeat' split) <;> try simp_all (maxDischargeDepth := 12) +contextual [foldl_keeps, foldl_keeps_fst]
  all_goals (have he := (by assumption : (_ : State × _) = (_, _)); have hk : State.Keeps qq _ := keeps_of_eq he (by simp (maxDischargeDepth := 12) [h]); simp_all (maxDischargeDepth := 12) +contextual [foldl_keeps, foldl_keeps_fst])

@[simp] theorem StreamRun.countGeneral_keeps {qq : List Instr} {a : StreamRun} (d : Desc) (room pitch : Nat) (yes : Bool) (h : State.Keeps qq a.st) :
    State.Keeps qq (StreamRun.countGeneral a d room pitch yes).st := by
  unfold StreamRun.countGeneral
  try dsimp only
  (repeat' split) <;> try simp_all (maxDischargeDepth := 12) +contextual [foldl_keeps, foldl_keeps_fst]
  all_goals (repeat' split) <;> try simp_all (maxDischargeDepth := 12) +contextual [foldl_keeps, foldl_keeps_fst]
  all_goals (have he := (by assumption : (_ : State × _) = (_, _)); have hk : State.Keeps qq _ := keeps_of_eq he (by simp (maxDischargeDepth := 12) [h]); simp_all (maxDischargeDepth := 12) +contextual [foldl_keeps, foldl_keeps_fst])

@[simp] theorem StreamCtx.moveTile_keeps {qq : List Instr} {a : StreamRun} (c : StreamCtx) (b : BlockAt) (src : List (Nat × Nat)) (t : Nat) (h : State.Keeps qq a.st) :
    State.Keeps qq (StreamCtx.moveTile c b src a t).st := by
  unfold StreamCtx.moveTile
  dsimp only
  refine StreamRun.countGeneral_keeps _ _ _ _ ?_
  refine foldl_inv (fun a : StreamRun => State.Keeps qq a.st) (fun q j hq =>
    foldl_inv (fun a : StreamRun => State.Keeps qq a.st) (fun w k hw => StreamCtx.putLine_keeps _ _ _ _ _ _ hw) _ _ hq) _ _ ?_
  refine StreamRun.countGeneral_keeps _ _ _ _ ?_
  refine foldl_inv (fun a : StreamRun × List (List (List Byte)) => State.Keeps qq a.1.st) (fun q m hq => ?_) _ _ h
  exact foldl_inv (fun a : StreamRun × List (List Byte) => State.Keeps qq a.1.st) (fun w k hw => StreamCtx.getLine_keeps _ _ _ _ hw) _ (q.1, []) hq

@[simp] theorem StreamCtx.moveBlock_keeps {qq : List Instr} {a0 : StreamRun} (c0 : StreamCtx) (b : BlockAt) (h : State.Keeps qq a0.st) :
    State.Keeps qq (StreamCtx.moveBlock c0 a0 b).st := by
  unfold StreamCtx.moveBlock
  dsimp only
  split
  · exact foldl_inv (fun a : StreamRun => State.Keeps qq a.st) (fun q j hq => StreamCtx.moveTile_keeps _ _ _ _ hq) _ _ h
  · exact foldl_inv (fun a : StreamRun => State.Keeps qq a.st) (fun q j hq =>
      foldl_inv (fun a : StreamRun => State.Keeps qq a.st) (fun q j hq => StreamCtx.moveLine_keeps _ _ _ _ _ hq) _ _ hq) _ _ h

@[simp] theorem StreamCtx.indexLine_keeps {qq : List Instr} {a : StreamRun} (c : StreamCtx) (l : Nat) (h : State.Keeps qq a.st) :
    State.Keeps qq (StreamCtx.indexLine c a l).st := by
  unfold StreamCtx.indexLine
  try dsimp only
  (repeat' split) <;> try simp_all (maxDischargeDepth := 12) +contextual [foldl_keeps, foldl_keeps_fst]
  all_goals (repeat' split) <;> try simp_all (maxDischargeDepth := 12) +contextual [foldl_keeps, foldl_keeps_fst]
  all_goals (have he := (by assumption : (_ : State × _) = (_, _)); have hk : State.Keeps qq _ := keeps_of_eq he (by simp (maxDischargeDepth := 12) [h]); simp_all (maxDischargeDepth := 12) +contextual [foldl_keeps, foldl_keeps_fst])

@[simp] theorem StreamCtx.entry_keeps {qq : List Instr} {a : StreamRun} (c : StreamCtx) (k : Nat) (h : State.Keeps qq a.st) :
    State.Keeps qq (StreamCtx.entry c a k).1.st := by
  unfold StreamCtx.entry
  try dsimp only
  (repeat' split) <;> try simp_all (maxDischargeDepth := 12) +contextual [foldl_keeps, foldl_keeps_fst]
  all_goals (repeat' split) <;> try simp_all (maxDischargeDepth := 12) +contextual [foldl_keeps, foldl_keeps_fst]
  all_goals (have he := (by assumption : (_ : State × _) = (_, _)); have hk : State.Keeps qq _ := keeps_of_eq he (by simp (maxDischargeDepth := 12) [h]); simp_all (maxDischargeDepth := 12) +contextual [foldl_keeps, foldl_keeps_fst])

@[simp] theorem StreamCtx.pantryRead_keeps {qq : List Instr} {a : StreamRun} (c : StreamCtx) (rel off n : Nat) (h : State.Keeps qq a.st) :
    State.Keeps qq (StreamCtx.pantryRead c a rel off n).1.st := by
  unfold StreamCtx.pantryRead
  try dsimp only
  (repeat' split) <;> try simp_all (maxDischargeDepth := 12) +contextual [foldl_keeps, foldl_keeps_fst]
  all_goals (repeat' split) <;> try simp_all (maxDischargeDepth := 12) +contextual [foldl_keeps, foldl_keeps_fst]
  all_goals (have he := (by assumption : (_ : State × _) = (_, _)); have hk : State.Keeps qq _ := keeps_of_eq he (by simp (maxDischargeDepth := 12) [h]); simp_all (maxDischargeDepth := 12) +contextual [foldl_keeps, foldl_keeps_fst])

@[simp] theorem State.countPantry_keeps {qq : List Instr} {s : State} (room off : Nat) (part : Bool) (h : State.Keeps qq s) :
    State.Keeps qq (State.countPantry s room off part) := by
  unfold State.countPantry
  try dsimp only
  (repeat' split) <;> try simp_all (maxDischargeDepth := 12) +contextual [foldl_keeps, foldl_keeps_fst]
  all_goals (repeat' split) <;> try simp_all (maxDischargeDepth := 12) +contextual [foldl_keeps, foldl_keeps_fst]
  all_goals (have he := (by assumption : (_ : State × _) = (_, _)); have hk : State.Keeps qq _ := keeps_of_eq he (by simp (maxDischargeDepth := 12) [h]); simp_all (maxDischargeDepth := 12) +contextual [foldl_keeps, foldl_keeps_fst])

theorem ecc_keeps {qq : List Instr} {v : State} (e : Tab Nat) (h : State.Keeps qq v) :
    State.Keeps qq { v with mem := { v.mem with ecc := e } } := ⟨h.1, h.2.1, h.2.2⟩

@[simp] theorem State.storePantry_keeps {qq : List Instr} {s : State} (room off : Nat) (data : List Byte) (h : State.Keeps qq s) :
    State.Keeps qq (State.storePantry s room off data) := ecc_keeps _ (State.writeCellar_keeps _ _ _ h)

@[simp] theorem StreamCtx.pantryWrite_keeps {qq : List Instr} {a : StreamRun} (c : StreamCtx) (rel off : Nat) (data : List Byte) (h : State.Keeps qq a.st) :
    State.Keeps qq (StreamCtx.pantryWrite c a rel off data).st := by
  unfold StreamCtx.pantryWrite
  try dsimp only
  (repeat' split) <;> try simp_all (maxDischargeDepth := 12) +contextual [foldl_keeps, foldl_keeps_fst]
  all_goals (repeat' split) <;> try simp_all (maxDischargeDepth := 12) +contextual [foldl_keeps, foldl_keeps_fst]
  all_goals (have he := (by assumption : (_ : State × _) = (_, _)); have hk : State.Keeps qq _ := keeps_of_eq he (by simp (maxDischargeDepth := 12) [h]); simp_all (maxDischargeDepth := 12) +contextual [foldl_keeps, foldl_keeps_fst])

@[simp] theorem StreamCtx.pantryStep_keeps {qq : List Instr} {a : StreamRun} (c : StreamCtx) (k : Nat) (h : State.Keeps qq a.st) :
    State.Keeps qq (StreamCtx.pantryStep c a k).st := by
  unfold StreamCtx.pantryStep
  try dsimp only
  (repeat' split) <;> try simp_all (maxDischargeDepth := 12) +contextual [foldl_keeps, foldl_keeps_fst]
  all_goals (repeat' split) <;> try simp_all (maxDischargeDepth := 12) +contextual [foldl_keeps, foldl_keeps_fst]
  all_goals (have he := (by assumption : (_ : State × _) = (_, _)); have hk : State.Keeps qq _ := keeps_of_eq he (by simp (maxDischargeDepth := 12) [h]); simp_all (maxDischargeDepth := 12) +contextual [foldl_keeps, foldl_keeps_fst])

@[simp] theorem StreamCtx.keyEntry_keeps {qq : List Instr} {a : StreamRun} (c : StreamCtx) (k : Nat) (h : State.Keeps qq a.st) :
    State.Keeps qq (StreamCtx.keyEntry c a k).st := by
  unfold StreamCtx.keyEntry
  try dsimp only
  (repeat' split) <;> try simp_all (maxDischargeDepth := 12) +contextual [foldl_keeps, foldl_keeps_fst]
  all_goals (repeat' split) <;> try simp_all (maxDischargeDepth := 12) +contextual [foldl_keeps, foldl_keeps_fst]
  all_goals (have he := (by assumption : (_ : State × _) = (_, _)); have hk : State.Keeps qq _ := keeps_of_eq he (by simp (maxDischargeDepth := 12) [h]); simp_all (maxDischargeDepth := 12) +contextual [foldl_keeps, foldl_keeps_fst])

@[simp] theorem StreamCtx.keyTile_keeps {qq : List Instr} {a : StreamRun} (c : StreamCtx) (i : Nat) (h : State.Keeps qq a.st) :
    State.Keeps qq (StreamCtx.keyTile c a i).st := by
  unfold StreamCtx.keyTile
  dsimp only
  split
  · rename_i id rest en hf he
    have hb : ∀ (l : List (Span × Nat)) (rel base : Nat) (y : Room), State.Keeps qq (l.foldl (fun (q : StreamRun) e =>
        c.put (c.readAt q true rel e.1.off 16384).1 [] 0 rel (base + 16384 * e.2) (c.readAt q true rel e.1.off 16384).2)
        { a with st := a.st.setRoom c.room y }).st := fun l rel base y =>
      foldl_inv (fun a : StreamRun => State.Keeps qq a.st) (fun q e hq => StreamCtx.put_keeps _ _ _ _ _ _ (StreamCtx.readAt_keeps _ _ _ _ _ hq)) l _ h
    rw [apply_ite StreamRun.st]
    refine keeps_if (hb _ _ _ _) ?_
    rw [State.setRoom_keeps]
    exact hb _ _ _ _
  · exact h

@[simp] theorem StreamCtx.keyRun_keeps {qq : List Instr} (c : StreamCtx) (n : Nat) {a : StreamRun} (k : Nat) (h : State.Keeps qq a.st) :
    State.Keeps qq (c.keyRun n a k).1.st := by
  induction n generalizing a k with
  | zero => exact h
  | succ n ih =>
    unfold StreamCtx.keyRun
    dsimp only
    split
    · exact h
    split
    · split
      · exact h
      · exact ih _ (StreamCtx.keyTile_keeps _ _ h)
    · split
      · exact ih _ (StreamCtx.keyEntry_keeps _ _ h)
      · exact h

@[simp] theorem StreamCtx.run_keeps {qq : List Instr} {a : StreamRun} (c0 : StreamCtx) (h : State.Keeps qq a.st) :
    State.Keeps qq (StreamCtx.run c0 a).1.st := by
  have one : ∀ (f : StreamRun → Nat → StreamRun), (∀ a k, State.Keeps qq a.st → State.Keeps qq (f a k).st) → ∀ l : List Nat,
      State.Keeps qq (l.foldl f a).st := fun f hf l => foldl_inv (fun a : StreamRun => State.Keeps qq a.st) hf l a h
  unfold StreamCtx.run
  dsimp only
  split
  · exact one _ (fun q k hq => StreamCtx.moveBlock_keeps _ _ (StreamCtx.entry_keeps _ _ hq)) _
  · exact one _ (fun q k hq => StreamCtx.moveBlock_keeps _ _ (StreamCtx.entry_keeps _ _ hq)) _
  · exact StreamCtx.keyRun_keeps _ _ _ h
  · exact one _ (fun q k hq => StreamCtx.pantryStep_keeps _ _ hq) _
  · exact one _ (fun q k hq => StreamCtx.pantryStep_keeps _ _ hq) _
  · exact StreamCtx.moveBlock_keeps _ _ h

@[simp] theorem State.haltChannel_keeps {qq : List Instr} {s : State} (room chan : Nat) (st : StreamStop) (h : State.Keeps qq s) :
    State.Keeps qq (State.haltChannel s room chan st) := by
  unfold State.haltChannel
  try dsimp only
  (repeat' split) <;> try simp_all (maxDischargeDepth := 12) +contextual [foldl_keeps, foldl_keeps_fst]
  all_goals (repeat' split) <;> try simp_all (maxDischargeDepth := 12) +contextual [foldl_keeps, foldl_keeps_fst]
  all_goals (have he := (by assumption : (_ : State × _) = (_, _)); have hk : State.Keeps qq _ := keeps_of_eq he (by simp (maxDischargeDepth := 12) [h]); simp_all (maxDischargeDepth := 12) +contextual [foldl_keeps, foldl_keeps_fst])

@[simp] theorem State.sendWithin_keeps {qq : List Instr} (p room chan no : Nat) (l : List (Ctx × List (List Byte))) (avail : Nat) {s : State}
    (h : State.Keeps qq s) : State.Keeps qq (State.sendWithin p room chan no l avail s).1 := by
  induction l generalizing avail s with
  | nil => exact h
  | cons c t ih =>
    unfold State.sendWithin
    dsimp only
    split
    · exact h
    · exact ih _ (State.sendContext_keeps _ _ _ _ _ _ h)

@[simp] theorem State.sendRemote_keeps {qq : List Instr} {s : State} (p room chan no : Nat) (d : Desc) (ls : List RemoteLine) (h : State.Keeps qq s) :
    State.Keeps qq (State.sendRemote s p room chan no d ls).1 := by
  unfold State.sendRemote
  dsimp only
  split
  · exact h
  · exact State.sendWithin_keeps _ _ _ _ _ _ h

@[simp] theorem State.sendUnsent_keeps {qq : List Instr} {s : State} (p room chan : Nat) (h : State.Keeps qq s) :
    State.Keeps qq (State.sendUnsent s p room chan) := by
  unfold State.sendUnsent
  split
  · exact h
  · dsimp only
    rw [State.setRoom_keeps]
    exact State.sendWithin_keeps _ _ _ _ _ _ h

@[simp] theorem State.releaseHeld_keeps {qq : List Instr} {s : State} (p room chan : Nat) (h : State.Keeps qq s) :
    State.Keeps qq (State.releaseHeld s p room chan) := by
  unfold State.releaseHeld
  try dsimp only
  refine foldl_keeps (fun t x ht => ?_) _ _ h
  try dsimp only
  (repeat' split) <;> try simp_all (maxDischargeDepth := 12) +contextual [foldl_keeps, foldl_keeps_fst]
  all_goals (repeat' split) <;> try simp_all (maxDischargeDepth := 12) +contextual [foldl_keeps, foldl_keeps_fst]
  all_goals (have he := (by assumption : (_ : State × _) = (_, _)); have hk : State.Keeps qq _ := keeps_of_eq he (by simp (maxDischargeDepth := 12) [ht]); simp_all (maxDischargeDepth := 12) +contextual [foldl_keeps, foldl_keeps_fst])

@[simp] theorem State.afterRun_keeps {qq : List Instr} {s : State} (room : Nat) (third : Bool) (a : StreamRun) (h : State.Keeps qq s) :
    State.Keeps qq (s.afterRun room third a) := h

@[simp] theorem State.runDesc_keeps {qq : List Instr} {s : State} (p room chan : Nat) (d : Desc) (hostIn : List Byte) (first : Bool) (h : State.Keeps qq s) :
    State.Keeps qq (State.runDesc s p room chan d hostIn first) := by
  unfold State.runDesc
  try dsimp only
  (repeat' split) <;> try simp_all (maxDischargeDepth := 12) +contextual [foldl_keeps, foldl_keeps_fst]
  all_goals (repeat' split) <;> try simp_all (maxDischargeDepth := 12) +contextual [foldl_keeps, foldl_keeps_fst]
  all_goals (have he := (by assumption : (_ : State × _) = (_, _)); have hk : State.Keeps qq _ := keeps_of_eq he (by simp (maxDischargeDepth := 12) [h]); simp_all (maxDischargeDepth := 12) +contextual [foldl_keeps, foldl_keeps_fst])

@[simp] theorem State.resumeKey_keeps {qq : List Instr} {s : State} (p room chan : Nat) (h : State.Keeps qq s) :
    State.Keeps qq (State.resumeKey s p room chan) := by
  unfold State.resumeKey
  split
  · exact h
  split
  · exact h
  rename_i i _ _
  dsimp only
  have hk := fun c : StreamCtx => fun n k => StreamCtx.keyRun_keeps (qq := qq) c n (a := { st := s, host := [], idx := i.idx }) k h
  split
  · exact State.haltChannel_keeps _ _ _ (State.afterRun_keeps _ _ _ (hk _ _ _))
  · rw [State.setRoom_keeps]
    exact State.afterRun_keeps _ _ _ (hk _ _ _)

@[simp] theorem State.startQueued_keeps {qq : List Instr} (p room chan : Nat) (n : Nat) {s : State} (h : State.Keeps qq s) :
    State.Keeps qq (State.startQueued p room chan n s) := by
  induction n generalizing s with
  | zero => exact h
  | succ n ih =>
    unfold State.startQueued
    dsimp only
    split
    · exact h
    split
    · exact h
    · exact ih (State.runDesc_keeps _ _ _ _ _ _ (s := s.setRoom _ _) h)

theorem State.issueHead_keeps {qq : List Instr} {s t : State} (p room q : Nat) (h : State.Keeps qq s)
    (e : s.issueHead p room q = some t) : State.Keeps qq t := by
  unfold State.issueHead at e
  dsimp only at e
  split at e
  · simp at e
  split at e
  · split at e
    · simp only [Option.some.injEq] at e; subst e; exact h
    · simp at e
  · split at e
    · simp at e
    split at e
    · split at e
      · simp only [Option.some.injEq] at e; subst e; exact h
      · simp at e
    · simp only [Option.some.injEq] at e; subst e
      exact State.runDesc_keeps _ _ _ _ _ _ (s := s.setRoom _ _) h
  · simp only [Option.some.injEq] at e; subst e; exact h
  · simp only [Option.some.injEq] at e; subst e; exact h

@[simp] theorem State.issueAll_keeps {qq : List Instr} (p room n : Nat) {s : State} (h : State.Keeps qq s) :
    State.Keeps qq (State.issueAll p room n s) := by
  induction n generalizing s with
  | zero => exact h
  | succ n ih =>
    unfold State.issueAll
    split
    · rename_i t e
      obtain ⟨q, -, hq⟩ := List.exists_of_findSome?_eq_some e
      split at hq
      · exact ih (State.issueHead_keeps _ _ _ h hq)
      · simp at hq
    · exact h

@[simp] theorem State.issueQueues_keeps {qq : List Instr} {s : State} (room : Nat) (h : State.Keeps qq s) :
    State.Keeps qq (State.issueQueues s room) := by
  unfold State.issueQueues
  split
  · dsimp only
    refine keeps_if ?_ (State.issueAll_keeps _ _ _ h)
    rw [State.setRoom_keeps]
    exact State.issueAll_keeps _ _ _ h
  · exact h

@[simp] theorem State.goOn_keeps {qq : List Instr} {s : State} (room : Nat) (h : State.Keeps qq s) :
    State.Keeps qq (State.goOn s room) := by
  unfold State.goOn
  split
  · exact State.issueQueues_keeps _ (foldl_keeps (fun t c ht =>
      State.startQueued_keeps _ _ _ _ (State.resumeKey_keeps _ _ _ (State.sendUnsent_keeps _ _ _ ht))) _ _ h)
  · exact h

@[simp] theorem State.issue_keeps {qq : List Instr} {s : State} (room chan : Nat) (d : Desc) (hostIn : List Byte) (h : State.Keeps qq s) :
    State.Keeps qq (State.issue s room chan d hostIn) := by
  unfold State.issue
  try dsimp only
  (repeat' split) <;> try simp_all (maxDischargeDepth := 12) +contextual [foldl_keeps, foldl_keeps_fst]
  all_goals (repeat' split) <;> try simp_all (maxDischargeDepth := 12) +contextual [foldl_keeps, foldl_keeps_fst]
  all_goals (have he := (by assumption : (_ : State × _) = (_, _)); have hk : State.Keeps qq _ := keeps_of_eq he (by simp (maxDischargeDepth := 12) [h]); simp_all (maxDischargeDepth := 12) +contextual [foldl_keeps, foldl_keeps_fst])

@[simp] theorem State.issueOp_keeps {qq : List Instr} {s : State} (r : RoomId) (ch : ChanId) (d : Desc) (hostIn : List Byte) (ok : Bool) (h : State.Keeps qq s) :
    State.Keeps qq (State.issueOp s r ch d hostIn ok) := by
  unfold State.issueOp
  try dsimp only
  (repeat' split) <;> try simp_all (maxDischargeDepth := 12) +contextual [foldl_keeps, foldl_keeps_fst]
  all_goals (repeat' split) <;> try simp_all (maxDischargeDepth := 12) +contextual [foldl_keeps, foldl_keeps_fst]
  all_goals (have he := (by assumption : (_ : State × _) = (_, _)); have hk : State.Keeps qq _ := keeps_of_eq he (by simp (maxDischargeDepth := 12) [h]); simp_all (maxDischargeDepth := 12) +contextual [foldl_keeps, foldl_keeps_fst])

@[simp] theorem execCopy_keeps {qq : List Instr} {s : State} (r : RoomId) (ch : ChanId) (d : Desc) (hostIn : List Byte) (h : State.Keeps qq s) :
    OutKeeps qq (execCopy r ch d hostIn s) := by
  unfold execCopy
  try dsimp only
  (repeat' split) <;> try simp_all (maxDischargeDepth := 12) +contextual [foldl_keeps, foldl_keeps_fst]
  all_goals (repeat' split) <;> try simp_all (maxDischargeDepth := 12) +contextual [foldl_keeps, foldl_keeps_fst]
  all_goals (have he := (by assumption : (_ : State × _) = (_, _)); have hk : State.Keeps qq _ := keeps_of_eq he (by simp (maxDischargeDepth := 12) [h]); simp_all (maxDischargeDepth := 12) +contextual [foldl_keeps, foldl_keeps_fst])

@[simp] theorem execGather_keeps {qq : List Instr} {s : State} (r : RoomId) (ch : ChanId) (d : Desc) (hostIn : List Byte) (h : State.Keeps qq s) :
    OutKeeps qq (execGather r ch d hostIn s) := by
  unfold execGather
  try dsimp only
  (repeat' split) <;> try simp_all (maxDischargeDepth := 12) +contextual [foldl_keeps, foldl_keeps_fst]
  all_goals (repeat' split) <;> try simp_all (maxDischargeDepth := 12) +contextual [foldl_keeps, foldl_keeps_fst]
  all_goals (have he := (by assumption : (_ : State × _) = (_, _)); have hk : State.Keeps qq _ := keeps_of_eq he (by simp (maxDischargeDepth := 12) [h]); simp_all (maxDischargeDepth := 12) +contextual [foldl_keeps, foldl_keeps_fst])

@[simp] theorem execScatter_keeps {qq : List Instr} {s : State} (r : RoomId) (ch : ChanId) (d : Desc) (hostIn : List Byte) (h : State.Keeps qq s) :
    OutKeeps qq (execScatter r ch d hostIn s) := by
  unfold execScatter
  try dsimp only
  (repeat' split) <;> try simp_all (maxDischargeDepth := 12) +contextual [foldl_keeps, foldl_keeps_fst]
  all_goals (repeat' split) <;> try simp_all (maxDischargeDepth := 12) +contextual [foldl_keeps, foldl_keeps_fst]
  all_goals (have he := (by assumption : (_ : State × _) = (_, _)); have hk : State.Keeps qq _ := keeps_of_eq he (by simp (maxDischargeDepth := 12) [h]); simp_all (maxDischargeDepth := 12) +contextual [foldl_keeps, foldl_keeps_fst])

@[simp] theorem execKeyStream_keeps {qq : List Instr} {s : State} (r : RoomId) (ch : ChanId) (d : Desc) (h : State.Keeps qq s) :
    OutKeeps qq (execKeyStream r ch d s) := by
  unfold execKeyStream
  try dsimp only
  (repeat' split) <;> try simp_all (maxDischargeDepth := 12) +contextual [foldl_keeps, foldl_keeps_fst]
  all_goals (repeat' split) <;> try simp_all (maxDischargeDepth := 12) +contextual [foldl_keeps, foldl_keeps_fst]
  all_goals (have he := (by assumption : (_ : State × _) = (_, _)); have hk : State.Keeps qq _ := keeps_of_eq he (by simp (maxDischargeDepth := 12) [h]); simp_all (maxDischargeDepth := 12) +contextual [foldl_keeps, foldl_keeps_fst])

@[simp] theorem execPantryGather_keeps {qq : List Instr} {s : State} (r : RoomId) (ch : ChanId) (d : Desc) (h : State.Keeps qq s) :
    OutKeeps qq (execPantryGather r ch d s) := by
  unfold execPantryGather
  try dsimp only
  (repeat' split) <;> try simp_all (maxDischargeDepth := 12) +contextual [foldl_keeps, foldl_keeps_fst]
  all_goals (repeat' split) <;> try simp_all (maxDischargeDepth := 12) +contextual [foldl_keeps, foldl_keeps_fst]
  all_goals (have he := (by assumption : (_ : State × _) = (_, _)); have hk : State.Keeps qq _ := keeps_of_eq he (by simp (maxDischargeDepth := 12) [h]); simp_all (maxDischargeDepth := 12) +contextual [foldl_keeps, foldl_keeps_fst])

@[simp] theorem execPantryScatter_keeps {qq : List Instr} {s : State} (r : RoomId) (ch : ChanId) (d : Desc) (h : State.Keeps qq s) :
    OutKeeps qq (execPantryScatter r ch d s) := by
  unfold execPantryScatter
  try dsimp only
  (repeat' split) <;> try simp_all (maxDischargeDepth := 12) +contextual [foldl_keeps, foldl_keeps_fst]
  all_goals (repeat' split) <;> try simp_all (maxDischargeDepth := 12) +contextual [foldl_keeps, foldl_keeps_fst]
  all_goals (have he := (by assumption : (_ : State × _) = (_, _)); have hk : State.Keeps qq _ := keeps_of_eq he (by simp (maxDischargeDepth := 12) [h]); simp_all (maxDischargeDepth := 12) +contextual [foldl_keeps, foldl_keeps_fst])

@[simp] theorem execFill_keeps {qq : List Instr} {s : State} (r : RoomId) (ch : ChanId) (d : Desc) (h : State.Keeps qq s) :
    OutKeeps qq (execFill r ch d s) := by
  unfold execFill
  try dsimp only
  (repeat' split) <;> try simp_all (maxDischargeDepth := 12) +contextual [foldl_keeps, foldl_keeps_fst]
  all_goals (repeat' split) <;> try simp_all (maxDischargeDepth := 12) +contextual [foldl_keeps, foldl_keeps_fst]
  all_goals (have he := (by assumption : (_ : State × _) = (_, _)); have hk : State.Keeps qq _ := keeps_of_eq he (by simp (maxDischargeDepth := 12) [h]); simp_all (maxDischargeDepth := 12) +contextual [foldl_keeps, foldl_keeps_fst])

@[simp] theorem execRePitch_keeps {qq : List Instr} {s : State} (r : RoomId) (ch : ChanId) (d : Desc) (h : State.Keeps qq s) :
    OutKeeps qq (execRePitch r ch d s) := by
  unfold execRePitch
  try dsimp only
  (repeat' split) <;> try simp_all (maxDischargeDepth := 12) +contextual [foldl_keeps, foldl_keeps_fst]
  all_goals (repeat' split) <;> try simp_all (maxDischargeDepth := 12) +contextual [foldl_keeps, foldl_keeps_fst]
  all_goals (have he := (by assumption : (_ : State × _) = (_, _)); have hk : State.Keeps qq _ := keeps_of_eq he (by simp (maxDischargeDepth := 12) [h]); simp_all (maxDischargeDepth := 12) +contextual [foldl_keeps, foldl_keeps_fst])

@[simp] theorem execTranspose_keeps {qq : List Instr} {s : State} (r : RoomId) (ch : ChanId) (d : Desc) (h : State.Keeps qq s) :
    OutKeeps qq (execTranspose r ch d s) := by
  unfold execTranspose
  try dsimp only
  (repeat' split) <;> try simp_all (maxDischargeDepth := 12) +contextual [foldl_keeps, foldl_keeps_fst]
  all_goals (repeat' split) <;> try simp_all (maxDischargeDepth := 12) +contextual [foldl_keeps, foldl_keeps_fst]
  all_goals (have he := (by assumption : (_ : State × _) = (_, _)); have hk : State.Keeps qq _ := keeps_of_eq he (by simp (maxDischargeDepth := 12) [h]); simp_all (maxDischargeDepth := 12) +contextual [foldl_keeps, foldl_keeps_fst])

@[simp] theorem execAlign_keeps {qq : List Instr} {s : State} (r : RoomId) (ch : ChanId) (d : Desc) (h : State.Keeps qq s) :
    OutKeeps qq (execAlign r ch d s) := by
  unfold execAlign
  try dsimp only
  (repeat' split) <;> try simp_all (maxDischargeDepth := 12) +contextual [foldl_keeps, foldl_keeps_fst]
  all_goals (repeat' split) <;> try simp_all (maxDischargeDepth := 12) +contextual [foldl_keeps, foldl_keeps_fst]
  all_goals (have he := (by assumption : (_ : State × _) = (_, _)); have hk : State.Keeps qq _ := keeps_of_eq he (by simp (maxDischargeDepth := 12) [h]); simp_all (maxDischargeDepth := 12) +contextual [foldl_keeps, foldl_keeps_fst])

@[simp] theorem execDescriptorByAddress_keeps {qq : List Instr} {s : State} (r : RoomId) (ch : ChanId) (off : Nat) (hostIn : List Byte) (h : State.Keeps qq s) :
    OutKeeps qq (execDescriptorByAddress r ch off hostIn s) := by
  unfold execDescriptorByAddress
  try dsimp only
  (repeat' split) <;> try simp_all (maxDischargeDepth := 12) +contextual [foldl_keeps, foldl_keeps_fst]
  all_goals (repeat' split) <;> try simp_all (maxDischargeDepth := 12) +contextual [foldl_keeps, foldl_keeps_fst]
  all_goals (have he := (by assumption : (_ : State × _) = (_, _)); have hk : State.Keeps qq _ := keeps_of_eq he (by simp (maxDischargeDepth := 12) [h]); simp_all (maxDischargeDepth := 12) +contextual [foldl_keeps, foldl_keeps_fst])

@[simp] theorem execDescriptorComplete_keeps {qq : List Instr} {s : State} (r : RoomId) (ch : ChanId) (h : State.Keeps qq s) :
    OutKeeps qq (execDescriptorComplete r ch s) := by
  unfold execDescriptorComplete
  try dsimp only
  (repeat' split) <;> try simp_all (maxDischargeDepth := 12) +contextual [foldl_keeps, foldl_keeps_fst]
  all_goals (repeat' split) <;> try simp_all (maxDischargeDepth := 12) +contextual [foldl_keeps, foldl_keeps_fst]
  all_goals (have he := (by assumption : (_ : State × _) = (_, _)); have hk : State.Keeps qq _ := keeps_of_eq he (by simp (maxDischargeDepth := 12) [h]); simp_all (maxDischargeDepth := 12) +contextual [foldl_keeps, foldl_keeps_fst])

@[simp] theorem execChannelHalt_keeps {qq : List Instr} {s : State} (r : RoomId) (ch : ChanId) (cause : Fin 7) (failAt : Nat) (h : State.Keeps qq s) :
    OutKeeps qq (execChannelHalt r ch cause failAt s) := by
  unfold execChannelHalt
  try dsimp only
  (repeat' split) <;> try simp_all (maxDischargeDepth := 12) +contextual [foldl_keeps, foldl_keeps_fst]
  all_goals (repeat' split) <;> try simp_all (maxDischargeDepth := 12) +contextual [foldl_keeps, foldl_keeps_fst]
  all_goals (have he := (by assumption : (_ : State × _) = (_, _)); have hk : State.Keeps qq _ := keeps_of_eq he (by simp (maxDischargeDepth := 12) [h]); simp_all (maxDischargeDepth := 12) +contextual [foldl_keeps, foldl_keeps_fst])

@[simp] theorem execStaleTagTimeout_keeps {qq : List Instr} {s : State} (r : RoomId) (tag : Nat) (h : State.Keeps qq s) :
    OutKeeps qq (execStaleTagTimeout r tag s) := by
  unfold execStaleTagTimeout
  try dsimp only
  (repeat' split) <;> try simp_all (maxDischargeDepth := 12) +contextual [foldl_keeps, foldl_keeps_fst]
  all_goals (repeat' split) <;> try simp_all (maxDischargeDepth := 12) +contextual [foldl_keeps, foldl_keeps_fst]
  all_goals (have he := (by assumption : (_ : State × _) = (_, _)); have hk : State.Keeps qq _ := keeps_of_eq he (by simp (maxDischargeDepth := 12) [h]); simp_all (maxDischargeDepth := 12) +contextual [foldl_keeps, foldl_keeps_fst])

@[simp] theorem execStaleResponse_keeps {qq : List Instr} {s : State} (r : RoomId) (tag : Nat) (h : State.Keeps qq s) :
    OutKeeps qq (execStaleResponse r tag s) := by
  unfold execStaleResponse
  try dsimp only
  (repeat' split) <;> try simp_all (maxDischargeDepth := 12) +contextual [foldl_keeps, foldl_keeps_fst]
  all_goals (repeat' split) <;> try simp_all (maxDischargeDepth := 12) +contextual [foldl_keeps, foldl_keeps_fst]
  all_goals (have he := (by assumption : (_ : State × _) = (_, _)); have hk : State.Keeps qq _ := keeps_of_eq he (by simp (maxDischargeDepth := 12) [h]); simp_all (maxDischargeDepth := 12) +contextual [foldl_keeps, foldl_keeps_fst])

@[simp] theorem execRemoteAckTimeout_keeps {qq : List Instr} {s : State} (r : RoomId) (ch : ChanId) (h : State.Keeps qq s) :
    OutKeeps qq (execRemoteAckTimeout r ch s) := by
  unfold execRemoteAckTimeout
  try dsimp only
  (repeat' split) <;> try simp_all (maxDischargeDepth := 12) +contextual [foldl_keeps, foldl_keeps_fst]
  all_goals (repeat' split) <;> try simp_all (maxDischargeDepth := 12) +contextual [foldl_keeps, foldl_keeps_fst]
  all_goals (have he := (by assumption : (_ : State × _) = (_, _)); have hk : State.Keeps qq _ := keeps_of_eq he (by simp (maxDischargeDepth := 12) [h]); simp_all (maxDischargeDepth := 12) +contextual [foldl_keeps, foldl_keeps_fst])

@[simp] theorem execKeyTileReturn_keeps {qq : List Instr} {s : State} (r : RoomId) (tile : Nat) (h : State.Keeps qq s) :
    OutKeeps qq (execKeyTileReturn r tile s) := by
  unfold execKeyTileReturn
  try dsimp only
  (repeat' split) <;> try simp_all (maxDischargeDepth := 12) +contextual [foldl_keeps, foldl_keeps_fst]
  all_goals (repeat' split) <;> try simp_all (maxDischargeDepth := 12) +contextual [foldl_keeps, foldl_keeps_fst]
  all_goals (have he := (by assumption : (_ : State × _) = (_, _)); have hk : State.Keeps qq _ := keeps_of_eq he (by simp (maxDischargeDepth := 12) [h]); simp_all (maxDischargeDepth := 12) +contextual [foldl_keeps, foldl_keeps_fst])

@[simp] theorem execRegulatorSlot_keeps {qq : List Instr} {s : State} (stack : RoomId) (waiting pantry : List Traffic) (h : State.Keeps qq s) :
    OutKeeps qq (execRegulatorSlot stack waiting pantry s) := by
  unfold execRegulatorSlot
  try dsimp only
  (repeat' split) <;> try simp_all (maxDischargeDepth := 12) +contextual [foldl_keeps, foldl_keeps_fst]
  all_goals (repeat' split) <;> try simp_all (maxDischargeDepth := 12) +contextual [foldl_keeps, foldl_keeps_fst]
  all_goals (have he := (by assumption : (_ : State × _) = (_, _)); have hk : State.Keeps qq _ := keeps_of_eq he (by simp (maxDischargeDepth := 12) [h]); simp_all (maxDischargeDepth := 12) +contextual [foldl_keeps, foldl_keeps_fst])

end Sys2Proof.Machine
end

