-- ==== Sys2Proof/Laws/KeepsSecurity.lean ====
section
/-! SUPPORT. What the operations of Security leave alone: the queue of commands and the canonical form of memory. -/

namespace Sys2Proof.Machine

@[simp] theorem State.setEntry_keeps {qq : List Instr} {s : State} (p i : Nat) (e : Option CupEntry) (h : State.Keeps qq s) :
    State.Keeps qq (State.setEntry s p i e) := by
  unfold State.setEntry
  try dsimp only
  (repeat' split) <;> try simp_all (maxDischargeDepth := 12) +contextual [foldl_keeps, foldl_keeps_fst]
  all_goals (repeat' split) <;> try simp_all (maxDischargeDepth := 12) +contextual [foldl_keeps, foldl_keeps_fst]
  all_goals (have he := (by assumption : (_ : State × _) = (_, _)); have hk : State.Keeps qq _ := keeps_of_eq he (by simp (maxDischargeDepth := 12) [h]); simp_all (maxDischargeDepth := 12) +contextual [foldl_keeps, foldl_keeps_fst])

@[simp] theorem State.secDone_keeps {qq : List Instr} {s : State} (f : Nat) (q : Req) (sc : Nat) (out : List Byte) (h : State.Keeps qq s) :
    State.Keeps qq (State.secDone s f q sc out) := by
  unfold State.secDone
  try dsimp only
  (repeat' split) <;> try simp_all (maxDischargeDepth := 12) +contextual [foldl_keeps, foldl_keeps_fst]
  all_goals (repeat' split) <;> try simp_all (maxDischargeDepth := 12) +contextual [foldl_keeps, foldl_keeps_fst]
  all_goals (have he := (by assumption : (_ : State × _) = (_, _)); have hk : State.Keeps qq _ := keeps_of_eq he (by simp (maxDischargeDepth := 12) [h]); simp_all (maxDischargeDepth := 12) +contextual [foldl_keeps, foldl_keeps_fst])

@[simp] theorem State.secEvent_keeps {qq : List Instr} {s : State} (code p sc wher : Nat) (h : State.Keeps qq s) :
    State.Keeps qq (State.secEvent s code p sc wher) := by
  unfold State.secEvent
  try dsimp only
  (repeat' split) <;> try simp_all (maxDischargeDepth := 12) +contextual [foldl_keeps, foldl_keeps_fst]
  all_goals (repeat' split) <;> try simp_all (maxDischargeDepth := 12) +contextual [foldl_keeps, foldl_keeps_fst]
  all_goals (have he := (by assumption : (_ : State × _) = (_, _)); have hk : State.Keeps qq _ := keeps_of_eq he (by simp (maxDischargeDepth := 12) [h]); simp_all (maxDischargeDepth := 12) +contextual [foldl_keeps, foldl_keeps_fst])

@[simp] theorem State.tagMismatch_keeps {qq : List Instr} {s : State} (p sc i : Nat) (e : CupEntry) (h : State.Keeps qq s) :
    State.Keeps qq (State.tagMismatch s p sc i e) := by
  unfold State.tagMismatch
  try dsimp only
  (repeat' split) <;> try simp_all (maxDischargeDepth := 12) +contextual [foldl_keeps, foldl_keeps_fst]
  all_goals (repeat' split) <;> try simp_all (maxDischargeDepth := 12) +contextual [foldl_keeps, foldl_keeps_fst]
  all_goals (have he := (by assumption : (_ : State × _) = (_, _)); have hk : State.Keeps qq _ := keeps_of_eq he (by simp (maxDischargeDepth := 12) [h]); simp_all (maxDischargeDepth := 12) +contextual [foldl_keeps, foldl_keeps_fst])

@[simp] theorem State.useWork_keeps {qq : List Instr} {s : State} (h : State.Keeps qq s) :
    State.Keeps qq (State.useWork s) := by
  unfold State.useWork
  try dsimp only
  (repeat' split) <;> try simp_all (maxDischargeDepth := 12) +contextual [foldl_keeps, foldl_keeps_fst]
  all_goals (repeat' split) <;> try simp_all (maxDischargeDepth := 12) +contextual [foldl_keeps, foldl_keeps_fst]
  all_goals (have he := (by assumption : (_ : State × _) = (_, _)); have hk : State.Keeps qq _ := keeps_of_eq he (by simp (maxDischargeDepth := 12) [h]); simp_all (maxDischargeDepth := 12) +contextual [foldl_keeps, foldl_keeps_fst])

@[simp] theorem State.meetUpsets_keeps {qq : List Instr} {s : State} (h : State.Keeps qq s) :
    State.Keeps qq (State.meetUpsets s) := by
  unfold State.meetUpsets
  dsimp only
  exact keeps_if (State.note_keeps _ _ (s := { s with sec := _ }) h) h

@[simp] theorem State.secRun_keeps {qq : List Instr} {s : State} (f : FnId) (slot : SlotId) (op : Nat) (hostIn : List Byte) (body : State → Req → Option CupEntry → List Byte → DrbgRun → SecOut) (h : State.Keeps qq s) :
    State.Keeps qq (State.secRun s f slot op hostIn body) := by
  have hw : State.Keeps qq s.useWork := State.useWork_keeps h
  have ht : ∀ (b : Bool) n, State.Keeps qq ((if b then s.useWork.generate n else s.useWork).draw 1) := fun b n => by
    rw [State.draw_keeps]
    exact keeps_if (State.generate_keeps _ hw) hw
  have hm : ∀ (b : Bool) n, State.Keeps qq ((if b then s.useWork.generate n else s.useWork).draw 1).meetUpsets := fun b n =>
    State.meetUpsets_keeps (ht b n)
  unfold State.secRun
  refine State.runCmd_keeps _ _ _ _ (fun q => ?_) h
  dsimp only [CmdEnd.fail]
  refine CmdEnd.keeps_if h (CmdEnd.keeps_if h (CmdEnd.keeps_if h (CmdEnd.keeps_if (State.wakeDomain_keeps _ h) (CmdEnd.keeps_if h (CmdEnd.keeps_if h ?_)))))
  split
  · exact State.secDone_keeps _ _ _ _ (State.tagMismatch_keeps _ _ _ _ h)
  split
  · exact State.secDone_keeps _ _ _ _ (hm _ _)
  split
  · refine State.secDone_keeps _ _ _ _ ?_
    split
    · exact State.secEvent_keeps _ _ _ _ (hm _ _)
    · exact hm _ _
  · refine State.secDone_keeps _ _ _ _ ?_
    split
    · split
      · exact State.setEntry_keeps _ _ _ (State.setEntry_keeps _ _ _ (hm _ _))
      · exact State.setEntry_keeps _ _ _ (hm _ _)
    · split
      · exact State.setEntry_keeps _ _ _ (hm _ _)
      · exact hm _ _

@[simp] theorem execSecurityRandom_keeps {qq : List Instr} {s : State} (f : FnId) (slot : SlotId) (h : State.Keeps qq s) :
    OutKeeps qq (execSecurityRandom f slot s) := by
  unfold execSecurityRandom
  try dsimp only
  (repeat' split) <;> try simp_all (maxDischargeDepth := 12) +contextual [foldl_keeps, foldl_keeps_fst]
  all_goals (repeat' split) <;> try simp_all (maxDischargeDepth := 12) +contextual [foldl_keeps, foldl_keeps_fst]
  all_goals (have he := (by assumption : (_ : State × _) = (_, _)); have hk : State.Keeps qq _ := keeps_of_eq he (by simp (maxDischargeDepth := 12) [h]); simp_all (maxDischargeDepth := 12) +contextual [foldl_keeps, foldl_keeps_fst])

@[simp] theorem State.chunkedRun_keeps {qq : List Instr} {s : State} (f : FnId) (slot : SlotId) (op : Nat) (hostIn : List Byte) (h : State.Keeps qq s) :
    State.Keeps qq (State.chunkedRun s f slot op hostIn) := by
  refine State.runCmd_keeps _ _ _ _ (fun q => ?_) h
  dsimp only [CmdEnd.ok, CmdEnd.fail]
  (repeat' split) <;> try simp_all (maxDischargeDepth := 12) +contextual [foldl_keeps, foldl_keeps_fst]
  all_goals (repeat' split) <;> try simp_all (maxDischargeDepth := 12) +contextual [foldl_keeps, foldl_keeps_fst]
  all_goals (have he := (by assumption : (_ : State × _) = (_, _)); have hk : State.Keeps qq _ := keeps_of_eq he (by simp (maxDischargeDepth := 12) [h]); simp_all (maxDischargeDepth := 12) +contextual [foldl_keeps, foldl_keeps_fst])

@[simp] theorem execSha256_keeps {qq : List Instr} {s : State} (f : FnId) (slot : SlotId) (hostIn : List Byte) (h : State.Keeps qq s) :
    OutKeeps qq (execSha256 f slot hostIn s) := by
  unfold execSha256
  try dsimp only
  (repeat' split) <;> try simp_all (maxDischargeDepth := 12) +contextual [foldl_keeps, foldl_keeps_fst]
  all_goals (repeat' split) <;> try simp_all (maxDischargeDepth := 12) +contextual [foldl_keeps, foldl_keeps_fst]
  all_goals (have he := (by assumption : (_ : State × _) = (_, _)); have hk : State.Keeps qq _ := keeps_of_eq he (by simp (maxDischargeDepth := 12) [h]); simp_all (maxDischargeDepth := 12) +contextual [foldl_keeps, foldl_keeps_fst])

@[simp] theorem execSha384_keeps {qq : List Instr} {s : State} (f : FnId) (slot : SlotId) (hostIn : List Byte) (h : State.Keeps qq s) :
    OutKeeps qq (execSha384 f slot hostIn s) := by
  unfold execSha384
  try dsimp only
  (repeat' split) <;> try simp_all (maxDischargeDepth := 12) +contextual [foldl_keeps, foldl_keeps_fst]
  all_goals (repeat' split) <;> try simp_all (maxDischargeDepth := 12) +contextual [foldl_keeps, foldl_keeps_fst]
  all_goals (have he := (by assumption : (_ : State × _) = (_, _)); have hk : State.Keeps qq _ := keeps_of_eq he (by simp (maxDischargeDepth := 12) [h]); simp_all (maxDischargeDepth := 12) +contextual [foldl_keeps, foldl_keeps_fst])

@[simp] theorem execSha512_keeps {qq : List Instr} {s : State} (f : FnId) (slot : SlotId) (hostIn : List Byte) (h : State.Keeps qq s) :
    OutKeeps qq (execSha512 f slot hostIn s) := by
  unfold execSha512
  try dsimp only
  (repeat' split) <;> try simp_all (maxDischargeDepth := 12) +contextual [foldl_keeps, foldl_keeps_fst]
  all_goals (repeat' split) <;> try simp_all (maxDischargeDepth := 12) +contextual [foldl_keeps, foldl_keeps_fst]
  all_goals (have he := (by assumption : (_ : State × _) = (_, _)); have hk : State.Keeps qq _ := keeps_of_eq he (by simp (maxDischargeDepth := 12) [h]); simp_all (maxDischargeDepth := 12) +contextual [foldl_keeps, foldl_keeps_fst])

@[simp] theorem execSha3x256_keeps {qq : List Instr} {s : State} (f : FnId) (slot : SlotId) (hostIn : List Byte) (h : State.Keeps qq s) :
    OutKeeps qq (execSha3x256 f slot hostIn s) := by
  unfold execSha3x256
  try dsimp only
  (repeat' split) <;> try simp_all (maxDischargeDepth := 12) +contextual [foldl_keeps, foldl_keeps_fst]
  all_goals (repeat' split) <;> try simp_all (maxDischargeDepth := 12) +contextual [foldl_keeps, foldl_keeps_fst]
  all_goals (have he := (by assumption : (_ : State × _) = (_, _)); have hk : State.Keeps qq _ := keeps_of_eq he (by simp (maxDischargeDepth := 12) [h]); simp_all (maxDischargeDepth := 12) +contextual [foldl_keeps, foldl_keeps_fst])

@[simp] theorem execHmacSha256_keeps {qq : List Instr} {s : State} (f : FnId) (slot : SlotId) (hostIn : List Byte) (h : State.Keeps qq s) :
    OutKeeps qq (execHmacSha256 f slot hostIn s) := by
  unfold execHmacSha256
  try dsimp only
  (repeat' split) <;> try simp_all (maxDischargeDepth := 12) +contextual [foldl_keeps, foldl_keeps_fst]
  all_goals (repeat' split) <;> try simp_all (maxDischargeDepth := 12) +contextual [foldl_keeps, foldl_keeps_fst]
  all_goals (have he := (by assumption : (_ : State × _) = (_, _)); have hk : State.Keeps qq _ := keeps_of_eq he (by simp (maxDischargeDepth := 12) [h]); simp_all (maxDischargeDepth := 12) +contextual [foldl_keeps, foldl_keeps_fst])

@[simp] theorem execHmacSha384_keeps {qq : List Instr} {s : State} (f : FnId) (slot : SlotId) (hostIn : List Byte) (h : State.Keeps qq s) :
    OutKeeps qq (execHmacSha384 f slot hostIn s) := by
  unfold execHmacSha384
  try dsimp only
  (repeat' split) <;> try simp_all (maxDischargeDepth := 12) +contextual [foldl_keeps, foldl_keeps_fst]
  all_goals (repeat' split) <;> try simp_all (maxDischargeDepth := 12) +contextual [foldl_keeps, foldl_keeps_fst]
  all_goals (have he := (by assumption : (_ : State × _) = (_, _)); have hk : State.Keeps qq _ := keeps_of_eq he (by simp (maxDischargeDepth := 12) [h]); simp_all (maxDischargeDepth := 12) +contextual [foldl_keeps, foldl_keeps_fst])

@[simp] theorem execHmacSha512_keeps {qq : List Instr} {s : State} (f : FnId) (slot : SlotId) (hostIn : List Byte) (h : State.Keeps qq s) :
    OutKeeps qq (execHmacSha512 f slot hostIn s) := by
  unfold execHmacSha512
  try dsimp only
  (repeat' split) <;> try simp_all (maxDischargeDepth := 12) +contextual [foldl_keeps, foldl_keeps_fst]
  all_goals (repeat' split) <;> try simp_all (maxDischargeDepth := 12) +contextual [foldl_keeps, foldl_keeps_fst]
  all_goals (have he := (by assumption : (_ : State × _) = (_, _)); have hk : State.Keeps qq _ := keeps_of_eq he (by simp (maxDischargeDepth := 12) [h]); simp_all (maxDischargeDepth := 12) +contextual [foldl_keeps, foldl_keeps_fst])

@[simp] theorem execAes256Ctr_keeps {qq : List Instr} {s : State} (f : FnId) (slot : SlotId) (hostIn : List Byte) (h : State.Keeps qq s) :
    OutKeeps qq (execAes256Ctr f slot hostIn s) := by
  unfold execAes256Ctr
  try dsimp only
  (repeat' split) <;> try simp_all (maxDischargeDepth := 12) +contextual [foldl_keeps, foldl_keeps_fst]
  all_goals (repeat' split) <;> try simp_all (maxDischargeDepth := 12) +contextual [foldl_keeps, foldl_keeps_fst]
  all_goals (have he := (by assumption : (_ : State × _) = (_, _)); have hk : State.Keeps qq _ := keeps_of_eq he (by simp (maxDischargeDepth := 12) [h]); simp_all (maxDischargeDepth := 12) +contextual [foldl_keeps, foldl_keeps_fst])

@[simp] theorem execHashChunkGrant_keeps {qq : List Instr} {s : State} (aes : Bool) (h : State.Keeps qq s) :
    OutKeeps qq (execHashChunkGrant aes s) := by
  unfold execHashChunkGrant
  try dsimp only
  (repeat' split) <;> try simp_all (maxDischargeDepth := 12) +contextual [foldl_keeps, foldl_keeps_fst]
  all_goals (repeat' split) <;> try simp_all (maxDischargeDepth := 12) +contextual [foldl_keeps, foldl_keeps_fst]
  all_goals (have he := (by assumption : (_ : State × _) = (_, _)); have hk : State.Keeps qq _ := keeps_of_eq he (by simp (maxDischargeDepth := 12) [h]); simp_all (maxDischargeDepth := 12) +contextual [foldl_keeps, foldl_keeps_fst])

@[simp] theorem execEcdsaP256Sign_keeps {qq : List Instr} {s : State} (f : FnId) (slot : SlotId) (hostIn : List Byte) (h : State.Keeps qq s) :
    OutKeeps qq (execEcdsaP256Sign f slot hostIn s) := by
  unfold execEcdsaP256Sign
  try dsimp only
  (repeat' split) <;> try simp_all (maxDischargeDepth := 12) +contextual [foldl_keeps, foldl_keeps_fst]
  all_goals (repeat' split) <;> try simp_all (maxDischargeDepth := 12) +contextual [foldl_keeps, foldl_keeps_fst]
  all_goals (have he := (by assumption : (_ : State × _) = (_, _)); have hk : State.Keeps qq _ := keeps_of_eq he (by simp (maxDischargeDepth := 12) [h]); simp_all (maxDischargeDepth := 12) +contextual [foldl_keeps, foldl_keeps_fst])

@[simp] theorem execEcdsaP384Sign_keeps {qq : List Instr} {s : State} (f : FnId) (slot : SlotId) (hostIn : List Byte) (h : State.Keeps qq s) :
    OutKeeps qq (execEcdsaP384Sign f slot hostIn s) := by
  unfold execEcdsaP384Sign
  try dsimp only
  (repeat' split) <;> try simp_all (maxDischargeDepth := 12) +contextual [foldl_keeps, foldl_keeps_fst]
  all_goals (repeat' split) <;> try simp_all (maxDischargeDepth := 12) +contextual [foldl_keeps, foldl_keeps_fst]
  all_goals (have he := (by assumption : (_ : State × _) = (_, _)); have hk : State.Keeps qq _ := keeps_of_eq he (by simp (maxDischargeDepth := 12) [h]); simp_all (maxDischargeDepth := 12) +contextual [foldl_keeps, foldl_keeps_fst])

@[simp] theorem execEcdsaP256Verify_keeps {qq : List Instr} {s : State} (f : FnId) (slot : SlotId) (hostIn : List Byte) (h : State.Keeps qq s) :
    OutKeeps qq (execEcdsaP256Verify f slot hostIn s) := by
  unfold execEcdsaP256Verify
  try dsimp only
  (repeat' split) <;> try simp_all (maxDischargeDepth := 12) +contextual [foldl_keeps, foldl_keeps_fst]
  all_goals (repeat' split) <;> try simp_all (maxDischargeDepth := 12) +contextual [foldl_keeps, foldl_keeps_fst]
  all_goals (have he := (by assumption : (_ : State × _) = (_, _)); have hk : State.Keeps qq _ := keeps_of_eq he (by simp (maxDischargeDepth := 12) [h]); simp_all (maxDischargeDepth := 12) +contextual [foldl_keeps, foldl_keeps_fst])

@[simp] theorem execEcdsaP384Verify_keeps {qq : List Instr} {s : State} (f : FnId) (slot : SlotId) (hostIn : List Byte) (h : State.Keeps qq s) :
    OutKeeps qq (execEcdsaP384Verify f slot hostIn s) := by
  unfold execEcdsaP384Verify
  try dsimp only
  (repeat' split) <;> try simp_all (maxDischargeDepth := 12) +contextual [foldl_keeps, foldl_keeps_fst]
  all_goals (repeat' split) <;> try simp_all (maxDischargeDepth := 12) +contextual [foldl_keeps, foldl_keeps_fst]
  all_goals (have he := (by assumption : (_ : State × _) = (_, _)); have hk : State.Keeps qq _ := keeps_of_eq he (by simp (maxDischargeDepth := 12) [h]); simp_all (maxDischargeDepth := 12) +contextual [foldl_keeps, foldl_keeps_fst])

@[simp] theorem execEd25519Sign_keeps {qq : List Instr} {s : State} (f : FnId) (slot : SlotId) (hostIn : List Byte) (h : State.Keeps qq s) :
    OutKeeps qq (execEd25519Sign f slot hostIn s) := by
  unfold execEd25519Sign
  try dsimp only
  (repeat' split) <;> try simp_all (maxDischargeDepth := 12) +contextual [foldl_keeps, foldl_keeps_fst]
  all_goals (repeat' split) <;> try simp_all (maxDischargeDepth := 12) +contextual [foldl_keeps, foldl_keeps_fst]
  all_goals (have he := (by assumption : (_ : State × _) = (_, _)); have hk : State.Keeps qq _ := keeps_of_eq he (by simp (maxDischargeDepth := 12) [h]); simp_all (maxDischargeDepth := 12) +contextual [foldl_keeps, foldl_keeps_fst])

@[simp] theorem execEd25519Verify_keeps {qq : List Instr} {s : State} (f : FnId) (slot : SlotId) (hostIn : List Byte) (h : State.Keeps qq s) :
    OutKeeps qq (execEd25519Verify f slot hostIn s) := by
  unfold execEd25519Verify
  try dsimp only
  (repeat' split) <;> try simp_all (maxDischargeDepth := 12) +contextual [foldl_keeps, foldl_keeps_fst]
  all_goals (repeat' split) <;> try simp_all (maxDischargeDepth := 12) +contextual [foldl_keeps, foldl_keeps_fst]
  all_goals (have he := (by assumption : (_ : State × _) = (_, _)); have hk : State.Keeps qq _ := keeps_of_eq he (by simp (maxDischargeDepth := 12) [h]); simp_all (maxDischargeDepth := 12) +contextual [foldl_keeps, foldl_keeps_fst])

@[simp] theorem execRsa3072PssSign_keeps {qq : List Instr} {s : State} (f : FnId) (slot : SlotId) (hostIn : List Byte) (h : State.Keeps qq s) :
    OutKeeps qq (execRsa3072PssSign f slot hostIn s) := by
  unfold execRsa3072PssSign
  try dsimp only
  (repeat' split) <;> try simp_all (maxDischargeDepth := 12) +contextual [foldl_keeps, foldl_keeps_fst]
  all_goals (repeat' split) <;> try simp_all (maxDischargeDepth := 12) +contextual [foldl_keeps, foldl_keeps_fst]
  all_goals (have he := (by assumption : (_ : State × _) = (_, _)); have hk : State.Keeps qq _ := keeps_of_eq he (by simp (maxDischargeDepth := 12) [h]); simp_all (maxDischargeDepth := 12) +contextual [foldl_keeps, foldl_keeps_fst])

@[simp] theorem execRsa4096PssSign_keeps {qq : List Instr} {s : State} (f : FnId) (slot : SlotId) (hostIn : List Byte) (h : State.Keeps qq s) :
    OutKeeps qq (execRsa4096PssSign f slot hostIn s) := by
  unfold execRsa4096PssSign
  try dsimp only
  (repeat' split) <;> try simp_all (maxDischargeDepth := 12) +contextual [foldl_keeps, foldl_keeps_fst]
  all_goals (repeat' split) <;> try simp_all (maxDischargeDepth := 12) +contextual [foldl_keeps, foldl_keeps_fst]
  all_goals (have he := (by assumption : (_ : State × _) = (_, _)); have hk : State.Keeps qq _ := keeps_of_eq he (by simp (maxDischargeDepth := 12) [h]); simp_all (maxDischargeDepth := 12) +contextual [foldl_keeps, foldl_keeps_fst])

@[simp] theorem execRsa3072PssVerify_keeps {qq : List Instr} {s : State} (f : FnId) (slot : SlotId) (hostIn : List Byte) (h : State.Keeps qq s) :
    OutKeeps qq (execRsa3072PssVerify f slot hostIn s) := by
  unfold execRsa3072PssVerify
  try dsimp only
  (repeat' split) <;> try simp_all (maxDischargeDepth := 12) +contextual [foldl_keeps, foldl_keeps_fst]
  all_goals (repeat' split) <;> try simp_all (maxDischargeDepth := 12) +contextual [foldl_keeps, foldl_keeps_fst]
  all_goals (have he := (by assumption : (_ : State × _) = (_, _)); have hk : State.Keeps qq _ := keeps_of_eq he (by simp (maxDischargeDepth := 12) [h]); simp_all (maxDischargeDepth := 12) +contextual [foldl_keeps, foldl_keeps_fst])

@[simp] theorem execRsa4096PssVerify_keeps {qq : List Instr} {s : State} (f : FnId) (slot : SlotId) (hostIn : List Byte) (h : State.Keeps qq s) :
    OutKeeps qq (execRsa4096PssVerify f slot hostIn s) := by
  unfold execRsa4096PssVerify
  try dsimp only
  (repeat' split) <;> try simp_all (maxDischargeDepth := 12) +contextual [foldl_keeps, foldl_keeps_fst]
  all_goals (repeat' split) <;> try simp_all (maxDischargeDepth := 12) +contextual [foldl_keeps, foldl_keeps_fst]
  all_goals (have he := (by assumption : (_ : State × _) = (_, _)); have hk : State.Keeps qq _ := keeps_of_eq he (by simp (maxDischargeDepth := 12) [h]); simp_all (maxDischargeDepth := 12) +contextual [foldl_keeps, foldl_keeps_fst])

@[simp] theorem execMldsa87Sign_keeps {qq : List Instr} {s : State} (f : FnId) (slot : SlotId) (hostIn : List Byte) (h : State.Keeps qq s) :
    OutKeeps qq (execMldsa87Sign f slot hostIn s) := by
  unfold execMldsa87Sign
  try dsimp only
  (repeat' split) <;> try simp_all (maxDischargeDepth := 12) +contextual [foldl_keeps, foldl_keeps_fst]
  all_goals (repeat' split) <;> try simp_all (maxDischargeDepth := 12) +contextual [foldl_keeps, foldl_keeps_fst]
  all_goals (have he := (by assumption : (_ : State × _) = (_, _)); have hk : State.Keeps qq _ := keeps_of_eq he (by simp (maxDischargeDepth := 12) [h]); simp_all (maxDischargeDepth := 12) +contextual [foldl_keeps, foldl_keeps_fst])

@[simp] theorem execMldsa87Verify_keeps {qq : List Instr} {s : State} (f : FnId) (slot : SlotId) (hostIn : List Byte) (h : State.Keeps qq s) :
    OutKeeps qq (execMldsa87Verify f slot hostIn s) := by
  unfold execMldsa87Verify
  try dsimp only
  (repeat' split) <;> try simp_all (maxDischargeDepth := 12) +contextual [foldl_keeps, foldl_keeps_fst]
  all_goals (repeat' split) <;> try simp_all (maxDischargeDepth := 12) +contextual [foldl_keeps, foldl_keeps_fst]
  all_goals (have he := (by assumption : (_ : State × _) = (_, _)); have hk : State.Keeps qq _ := keeps_of_eq he (by simp (maxDischargeDepth := 12) [h]); simp_all (maxDischargeDepth := 12) +contextual [foldl_keeps, foldl_keeps_fst])

@[simp] theorem execEcdhP256_keeps {qq : List Instr} {s : State} (f : FnId) (slot : SlotId) (hostIn : List Byte) (h : State.Keeps qq s) :
    OutKeeps qq (execEcdhP256 f slot hostIn s) := by
  unfold execEcdhP256
  try dsimp only
  (repeat' split) <;> try simp_all (maxDischargeDepth := 12) +contextual [foldl_keeps, foldl_keeps_fst]
  all_goals (repeat' split) <;> try simp_all (maxDischargeDepth := 12) +contextual [foldl_keeps, foldl_keeps_fst]
  all_goals (have he := (by assumption : (_ : State × _) = (_, _)); have hk : State.Keeps qq _ := keeps_of_eq he (by simp (maxDischargeDepth := 12) [h]); simp_all (maxDischargeDepth := 12) +contextual [foldl_keeps, foldl_keeps_fst])

@[simp] theorem execEcdhP384_keeps {qq : List Instr} {s : State} (f : FnId) (slot : SlotId) (hostIn : List Byte) (h : State.Keeps qq s) :
    OutKeeps qq (execEcdhP384 f slot hostIn s) := by
  unfold execEcdhP384
  try dsimp only
  (repeat' split) <;> try simp_all (maxDischargeDepth := 12) +contextual [foldl_keeps, foldl_keeps_fst]
  all_goals (repeat' split) <;> try simp_all (maxDischargeDepth := 12) +contextual [foldl_keeps, foldl_keeps_fst]
  all_goals (have he := (by assumption : (_ : State × _) = (_, _)); have hk : State.Keeps qq _ := keeps_of_eq he (by simp (maxDischargeDepth := 12) [h]); simp_all (maxDischargeDepth := 12) +contextual [foldl_keeps, foldl_keeps_fst])

@[simp] theorem execMlkem1024Encaps_keeps {qq : List Instr} {s : State} (f : FnId) (slot : SlotId) (hostIn : List Byte) (h : State.Keeps qq s) :
    OutKeeps qq (execMlkem1024Encaps f slot hostIn s) := by
  unfold execMlkem1024Encaps
  try dsimp only
  (repeat' split) <;> try simp_all (maxDischargeDepth := 12) +contextual [foldl_keeps, foldl_keeps_fst]
  all_goals (repeat' split) <;> try simp_all (maxDischargeDepth := 12) +contextual [foldl_keeps, foldl_keeps_fst]
  all_goals (have he := (by assumption : (_ : State × _) = (_, _)); have hk : State.Keeps qq _ := keeps_of_eq he (by simp (maxDischargeDepth := 12) [h]); simp_all (maxDischargeDepth := 12) +contextual [foldl_keeps, foldl_keeps_fst])

@[simp] theorem execMlkem1024Decaps_keeps {qq : List Instr} {s : State} (f : FnId) (slot : SlotId) (hostIn : List Byte) (h : State.Keeps qq s) :
    OutKeeps qq (execMlkem1024Decaps f slot hostIn s) := by
  unfold execMlkem1024Decaps
  try dsimp only
  (repeat' split) <;> try simp_all (maxDischargeDepth := 12) +contextual [foldl_keeps, foldl_keeps_fst]
  all_goals (repeat' split) <;> try simp_all (maxDischargeDepth := 12) +contextual [foldl_keeps, foldl_keeps_fst]
  all_goals (have he := (by assumption : (_ : State × _) = (_, _)); have hk : State.Keeps qq _ := keeps_of_eq he (by simp (maxDischargeDepth := 12) [h]); simp_all (maxDischargeDepth := 12) +contextual [foldl_keeps, foldl_keeps_fst])

@[simp] theorem execKeygen_keeps {qq : List Instr} {s : State} (f : FnId) (slot : SlotId) (h : State.Keeps qq s) :
    OutKeeps qq (execKeygen f slot s) := by
  unfold execKeygen
  try dsimp only
  (repeat' split) <;> try simp_all (maxDischargeDepth := 12) +contextual [foldl_keeps, foldl_keeps_fst]
  all_goals (repeat' split) <;> try simp_all (maxDischargeDepth := 12) +contextual [foldl_keeps, foldl_keeps_fst]
  all_goals (have he := (by assumption : (_ : State × _) = (_, _)); have hk : State.Keeps qq _ := keeps_of_eq he (by simp (maxDischargeDepth := 12) [h]); simp_all (maxDischargeDepth := 12) +contextual [foldl_keeps, foldl_keeps_fst])

@[simp] theorem execPubkey_keeps {qq : List Instr} {s : State} (f : FnId) (slot : SlotId) (h : State.Keeps qq s) :
    OutKeeps qq (execPubkey f slot s) := by
  unfold execPubkey
  try dsimp only
  (repeat' split) <;> try simp_all (maxDischargeDepth := 12) +contextual [foldl_keeps, foldl_keeps_fst]
  all_goals (repeat' split) <;> try simp_all (maxDischargeDepth := 12) +contextual [foldl_keeps, foldl_keeps_fst]
  all_goals (have he := (by assumption : (_ : State × _) = (_, _)); have hk : State.Keeps qq _ := keeps_of_eq he (by simp (maxDischargeDepth := 12) [h]); simp_all (maxDischargeDepth := 12) +contextual [foldl_keeps, foldl_keeps_fst])

@[simp] theorem execDestroy_keeps {qq : List Instr} {s : State} (f : FnId) (slot : SlotId) (h : State.Keeps qq s) :
    OutKeeps qq (execDestroy f slot s) := by
  unfold execDestroy
  try dsimp only
  (repeat' split) <;> try simp_all (maxDischargeDepth := 12) +contextual [foldl_keeps, foldl_keeps_fst]
  all_goals (repeat' split) <;> try simp_all (maxDischargeDepth := 12) +contextual [foldl_keeps, foldl_keeps_fst]
  all_goals (have he := (by assumption : (_ : State × _) = (_, _)); have hk : State.Keeps qq _ := keeps_of_eq he (by simp (maxDischargeDepth := 12) [h]); simp_all (maxDischargeDepth := 12) +contextual [foldl_keeps, foldl_keeps_fst])

@[simp] theorem execUnwrap_keeps {qq : List Instr} {s : State} (f : FnId) (slot : SlotId) (hostIn : List Byte) (h : State.Keeps qq s) :
    OutKeeps qq (execUnwrap f slot hostIn s) := by
  unfold execUnwrap
  try dsimp only
  (repeat' split) <;> try simp_all (maxDischargeDepth := 12) +contextual [foldl_keeps, foldl_keeps_fst]
  all_goals (repeat' split) <;> try simp_all (maxDischargeDepth := 12) +contextual [foldl_keeps, foldl_keeps_fst]
  all_goals (have he := (by assumption : (_ : State × _) = (_, _)); have hk : State.Keeps qq _ := keeps_of_eq he (by simp (maxDischargeDepth := 12) [h]); simp_all (maxDischargeDepth := 12) +contextual [foldl_keeps, foldl_keeps_fst])

@[simp] theorem execMicrocodeProgram_keeps {qq : List Instr} {s : State} (f : FnId) (slot : SlotId) (hostIn : List Byte) (h : State.Keeps qq s) :
    OutKeeps qq (execMicrocodeProgram f slot hostIn s) := by
  unfold execMicrocodeProgram
  try dsimp only
  (repeat' split) <;> try simp_all (maxDischargeDepth := 12) +contextual [foldl_keeps, foldl_keeps_fst]
  all_goals (repeat' split) <;> try simp_all (maxDischargeDepth := 12) +contextual [foldl_keeps, foldl_keeps_fst]
  all_goals (have he := (by assumption : (_ : State × _) = (_, _)); have hk : State.Keeps qq _ := keeps_of_eq he (by simp (maxDischargeDepth := 12) [h]); simp_all (maxDischargeDepth := 12) +contextual [foldl_keeps, foldl_keeps_fst])

end Sys2Proof.Machine
end

