-- ==== Sys2Proof/Laws/KeepsPorts.lean ====
section
/-! SUPPORT. What the operations of Ports leave alone: the queue of commands and the canonical form of memory. -/

namespace Sys2Proof.Machine

@[simp] theorem State.beginAttempt_keeps {qq : List Instr} {s : State} (n : Nat) (first : Bool) (h : State.Keeps qq s) :
    State.Keeps qq (State.beginAttempt s n first) := by
  unfold State.beginAttempt
  try dsimp only
  (repeat' split) <;> try simp_all (maxDischargeDepth := 12) +contextual [foldl_keeps, foldl_keeps_fst]
  all_goals (repeat' split) <;> try simp_all (maxDischargeDepth := 12) +contextual [foldl_keeps, foldl_keeps_fst]
  all_goals (have he := (by assumption : (_ : State × _) = (_, _)); have hk : State.Keeps qq _ := keeps_of_eq he (by simp (maxDischargeDepth := 12) [h]); simp_all (maxDischargeDepth := 12) +contextual [foldl_keeps, foldl_keeps_fst])

@[simp] theorem State.retrain_keeps {qq : List Instr} {s : State} (n : Nat) (h : State.Keeps qq s) :
    State.Keeps qq (State.retrain s n) := by
  unfold State.retrain
  try dsimp only
  (repeat' split) <;> try simp_all (maxDischargeDepth := 12) +contextual [foldl_keeps, foldl_keeps_fst]
  all_goals (repeat' split) <;> try simp_all (maxDischargeDepth := 12) +contextual [foldl_keeps, foldl_keeps_fst]
  all_goals (have he := (by assumption : (_ : State × _) = (_, _)); have hk : State.Keeps qq _ := keeps_of_eq he (by simp (maxDischargeDepth := 12) [h]); simp_all (maxDischargeDepth := 12) +contextual [foldl_keeps, foldl_keeps_fst])

@[simp] theorem State.failAttempt_keeps {qq : List Instr} {s : State} (n : Nat) (h : State.Keeps qq s) :
    State.Keeps qq (State.failAttempt s n) := by
  unfold State.failAttempt
  try dsimp only
  (repeat' split) <;> try simp_all (maxDischargeDepth := 12) +contextual [foldl_keeps, foldl_keeps_fst]
  all_goals (repeat' split) <;> try simp_all (maxDischargeDepth := 12) +contextual [foldl_keeps, foldl_keeps_fst]
  all_goals (have he := (by assumption : (_ : State × _) = (_, _)); have hk : State.Keeps qq _ := keeps_of_eq he (by simp (maxDischargeDepth := 12) [h]); simp_all (maxDischargeDepth := 12) +contextual [foldl_keeps, foldl_keeps_fst])

@[simp] theorem State.resend_keeps {qq : List Instr} {s : State} (n : Nat) (h : State.Keeps qq s) :
    State.Keeps qq (State.resend s n) := by
  unfold State.resend
  try dsimp only
  (repeat' split) <;> try simp_all (maxDischargeDepth := 12) +contextual [foldl_keeps, foldl_keeps_fst]
  all_goals (repeat' split) <;> try simp_all (maxDischargeDepth := 12) +contextual [foldl_keeps, foldl_keeps_fst]
  all_goals (have he := (by assumption : (_ : State × _) = (_, _)); have hk : State.Keeps qq _ := keeps_of_eq he (by simp (maxDischargeDepth := 12) [h]); simp_all (maxDischargeDepth := 12) +contextual [foldl_keeps, foldl_keeps_fst])

@[simp] theorem State.trained_keeps {qq : List Instr} {s : State} (n : Nat) (map : BitVec 8) (q : PortIdentity) (h : State.Keeps qq s) :
    State.Keeps qq (State.trained s n map q) := by
  unfold State.trained
  try dsimp only
  (repeat' split) <;> try simp_all (maxDischargeDepth := 12) +contextual [foldl_keeps, foldl_keeps_fst]
  all_goals (repeat' split) <;> try simp_all (maxDischargeDepth := 12) +contextual [foldl_keeps, foldl_keeps_fst]
  all_goals (have he := (by assumption : (_ : State × _) = (_, _)); have hk : State.Keeps qq _ := keeps_of_eq he (by simp (maxDischargeDepth := 12) [h]); simp_all (maxDischargeDepth := 12) +contextual [foldl_keeps, foldl_keeps_fst])

@[simp] theorem execTrainingAttempt_keeps {qq : List Instr} {s : State} (port : PortId) (lanes : BitVec 8) (partner : PortIdentity) (h : State.Keeps qq s) :
    OutKeeps qq (execTrainingAttempt port lanes partner s) := by
  unfold execTrainingAttempt
  dsimp only
  rw [outKeeps_next]
  split
  · exact h
  split
  · exact State.failAttempt_keeps _ h
  split
  · split
    · exact State.decided_keeps _ _ _ _ _ _ _ _ _ _ (State.portTo_keeps _ _ h)
    · exact State.trained_keeps _ _ _ h
  · split
    · exact State.decided_keeps _ _ _ _ _ _ _ _ _ _ (State.portTo_keeps _ _ h)
    · exact State.trained_keeps _ _ _ h

@[simp] theorem execTrainingTimeout_keeps {qq : List Instr} {s : State} (port : PortId) (h : State.Keeps qq s) :
    OutKeeps qq (execTrainingTimeout port s) := by
  unfold execTrainingTimeout
  try dsimp only
  (repeat' split) <;> try simp_all (maxDischargeDepth := 12) +contextual [foldl_keeps, foldl_keeps_fst]
  all_goals (repeat' split) <;> try simp_all (maxDischargeDepth := 12) +contextual [foldl_keeps, foldl_keeps_fst]
  all_goals (have he := (by assumption : (_ : State × _) = (_, _)); have hk : State.Keeps qq _ := keeps_of_eq he (by simp (maxDischargeDepth := 12) [h]); simp_all (maxDischargeDepth := 12) +contextual [foldl_keeps, foldl_keeps_fst])

@[simp] theorem execTrainingBackoffExpiry_keeps {qq : List Instr} {s : State} (port : PortId) (h : State.Keeps qq s) :
    OutKeeps qq (execTrainingBackoffExpiry port s) := by
  unfold execTrainingBackoffExpiry
  try dsimp only
  (repeat' split) <;> try simp_all (maxDischargeDepth := 12) +contextual [foldl_keeps, foldl_keeps_fst]
  all_goals (repeat' split) <;> try simp_all (maxDischargeDepth := 12) +contextual [foldl_keeps, foldl_keeps_fst]
  all_goals (have he := (by assumption : (_ : State × _) = (_, _)); have hk : State.Keeps qq _ := keeps_of_eq he (by simp (maxDischargeDepth := 12) [h]); simp_all (maxDischargeDepth := 12) +contextual [foldl_keeps, foldl_keeps_fst])

@[simp] theorem execSignalDetect_keeps {qq : List Instr} {s : State} (port : PortId) (lanes : BitVec 8) (h : State.Keeps qq s) :
    OutKeeps qq (execSignalDetect port lanes s) := by
  unfold execSignalDetect
  try dsimp only
  (repeat' split) <;> try simp_all (maxDischargeDepth := 12) +contextual [foldl_keeps, foldl_keeps_fst]
  all_goals (repeat' split) <;> try simp_all (maxDischargeDepth := 12) +contextual [foldl_keeps, foldl_keeps_fst]
  all_goals (have he := (by assumption : (_ : State × _) = (_, _)); have hk : State.Keeps qq _ := keeps_of_eq he (by simp (maxDischargeDepth := 12) [h]); simp_all (maxDischargeDepth := 12) +contextual [foldl_keeps, foldl_keeps_fst])

@[simp] theorem execLossOfSignal_keeps {qq : List Instr} {s : State} (port : PortId) (h : State.Keeps qq s) :
    OutKeeps qq (execLossOfSignal port s) := by
  unfold execLossOfSignal
  try dsimp only
  (repeat' split) <;> try simp_all (maxDischargeDepth := 12) +contextual [foldl_keeps, foldl_keeps_fst]
  all_goals (repeat' split) <;> try simp_all (maxDischargeDepth := 12) +contextual [foldl_keeps, foldl_keeps_fst]
  all_goals (have he := (by assumption : (_ : State × _) = (_, _)); have hk : State.Keeps qq _ := keeps_of_eq he (by simp (maxDischargeDepth := 12) [h]); simp_all (maxDischargeDepth := 12) +contextual [foldl_keeps, foldl_keeps_fst])

@[simp] theorem State.retransmit_keeps {qq : List Instr} {s : State} (n : Nat) (h : State.Keeps qq s) :
    State.Keeps qq (State.retransmit s n) := by
  unfold State.retransmit
  try dsimp only
  (repeat' split) <;> try simp_all (maxDischargeDepth := 12) +contextual [foldl_keeps, foldl_keeps_fst]
  all_goals (repeat' split) <;> try simp_all (maxDischargeDepth := 12) +contextual [foldl_keeps, foldl_keeps_fst]
  all_goals (have he := (by assumption : (_ : State × _) = (_, _)); have hk : State.Keeps qq _ := keeps_of_eq he (by simp (maxDischargeDepth := 12) [h]); simp_all (maxDischargeDepth := 12) +contextual [foldl_keeps, foldl_keeps_fst])

@[simp] theorem execNakRetransmit_keeps {qq : List Instr} {s : State} (port : PortId) (h : State.Keeps qq s) :
    OutKeeps qq (execNakRetransmit port s) := by
  unfold execNakRetransmit
  try dsimp only
  (repeat' split) <;> try simp_all (maxDischargeDepth := 12) +contextual [foldl_keeps, foldl_keeps_fst]
  all_goals (repeat' split) <;> try simp_all (maxDischargeDepth := 12) +contextual [foldl_keeps, foldl_keeps_fst]
  all_goals (have he := (by assumption : (_ : State × _) = (_, _)); have hk : State.Keeps qq _ := keeps_of_eq he (by simp (maxDischargeDepth := 12) [h]); simp_all (maxDischargeDepth := 12) +contextual [foldl_keeps, foldl_keeps_fst])

@[simp] theorem execAckStallRetransmit_keeps {qq : List Instr} {s : State} (port : PortId) (h : State.Keeps qq s) :
    OutKeeps qq (execAckStallRetransmit port s) := by
  unfold execAckStallRetransmit
  try dsimp only
  (repeat' split) <;> try simp_all (maxDischargeDepth := 12) +contextual [foldl_keeps, foldl_keeps_fst]
  all_goals (repeat' split) <;> try simp_all (maxDischargeDepth := 12) +contextual [foldl_keeps, foldl_keeps_fst]
  all_goals (have he := (by assumption : (_ : State × _) = (_, _)); have hk : State.Keeps qq _ := keeps_of_eq he (by simp (maxDischargeDepth := 12) [h]); simp_all (maxDischargeDepth := 12) +contextual [foldl_keeps, foldl_keeps_fst])

@[simp] theorem State.closeWindow_keeps {qq : List Instr} {s : State} (n : Nat) (h : State.Keeps qq s) :
    State.Keeps qq (State.closeWindow s n) := by
  unfold State.closeWindow
  dsimp only
  refine keeps_if h (foldl_keeps (fun t x ht => ?_) _ _ h)
  split
  · split
    · exact State.note_keeps _ _ ht
    · exact ht
  · split
    · exact State.note_keeps _ _ ht
    · exact ht

@[simp] theorem State.takeAck_keeps {qq : List Instr} {s : State} (n : Nat) (ack : BitVec 12) (h : State.Keeps qq s) :
    State.Keeps qq (State.takeAck s n ack) := by
  unfold State.takeAck
  try dsimp only
  (repeat' split) <;> try simp_all (maxDischargeDepth := 12) +contextual [foldl_keeps, foldl_keeps_fst]
  all_goals (repeat' split) <;> try simp_all (maxDischargeDepth := 12) +contextual [foldl_keeps, foldl_keeps_fst]
  all_goals (have he := (by assumption : (_ : State × _) = (_, _)); have hk : State.Keeps qq _ := keeps_of_eq he (by simp (maxDischargeDepth := 12) [h]); simp_all (maxDischargeDepth := 12) +contextual [foldl_keeps, foldl_keeps_fst])

@[simp] theorem State.takeCodeword_keeps {qq : List Instr} {s : State} (n : Nat) (d : Option (CwHeader × List Flit × List Nat)) (h : State.Keeps qq s) :
    State.Keeps qq (State.takeCodeword s n d) := by
  have hc := State.closeWindow_keeps n h
  unfold State.takeCodeword
  cases d with
  | none =>
    dsimp only
    apply State.note_keeps
    rw [State.setPort_keeps]
    exact hc
  | some x =>
    obtain ⟨hd, fs, bad⟩ := x
    dsimp only
    apply State.pump_keeps
    apply State.takeAck_keeps
    rw [State.setPort_keeps]
    exact hc

@[simp] theorem execCodewordReceive_keeps {qq : List Instr} {s : State} (port : PortId) (cw : List (BitVec 10)) (h : State.Keeps qq s) :
    OutKeeps qq (execCodewordReceive port cw s) := keeps_if h (State.takeCodeword_keeps _ _ h)

@[simp] theorem State.freeBuffer_keeps {qq : List Instr} {s : State} (n vc : Nat) (h : State.Keeps qq s) :
    State.Keeps qq (State.freeBuffer s n vc) := by
  unfold State.freeBuffer
  try dsimp only
  (repeat' split) <;> try simp_all (maxDischargeDepth := 12) +contextual [foldl_keeps, foldl_keeps_fst]
  all_goals (repeat' split) <;> try simp_all (maxDischargeDepth := 12) +contextual [foldl_keeps, foldl_keeps_fst]
  all_goals (have he := (by assumption : (_ : State × _) = (_, _)); have hk : State.Keeps qq _ := keeps_of_eq he (by simp (maxDischargeDepth := 12) [h]); simp_all (maxDischargeDepth := 12) +contextual [foldl_keeps, foldl_keeps_fst])

@[simp] theorem execLaneRetire_keeps {qq : List Instr} {s : State} (port : PortId) (lane : Fin 8) (h : State.Keeps qq s) :
    OutKeeps qq (execLaneRetire port lane s) := by
  unfold execLaneRetire
  try dsimp only
  (repeat' split) <;> try simp_all (maxDischargeDepth := 12) +contextual [foldl_keeps, foldl_keeps_fst]
  all_goals (repeat' split) <;> try simp_all (maxDischargeDepth := 12) +contextual [foldl_keeps, foldl_keeps_fst]
  all_goals (have he := (by assumption : (_ : State × _) = (_, _)); have hk : State.Keeps qq _ := keeps_of_eq he (by simp (maxDischargeDepth := 12) [h]); simp_all (maxDischargeDepth := 12) +contextual [foldl_keeps, foldl_keeps_fst])

@[simp] theorem execLaneMapApply_keeps {qq : List Instr} {s : State} (port : PortId) (h : State.Keeps qq s) :
    OutKeeps qq (execLaneMapApply port s) := by
  unfold execLaneMapApply
  try dsimp only
  (repeat' split) <;> try simp_all (maxDischargeDepth := 12) +contextual [foldl_keeps, foldl_keeps_fst]
  all_goals (repeat' split) <;> try simp_all (maxDischargeDepth := 12) +contextual [foldl_keeps, foldl_keeps_fst]
  all_goals (have he := (by assumption : (_ : State × _) = (_, _)); have hk : State.Keeps qq _ := keeps_of_eq he (by simp (maxDischargeDepth := 12) [h]); simp_all (maxDischargeDepth := 12) +contextual [foldl_keeps, foldl_keeps_fst])

@[simp] theorem execTapChangeApply_keeps {qq : List Instr} {s : State} (port : PortId) (h : State.Keeps qq s) :
    OutKeeps qq (execTapChangeApply port s) := by
  unfold execTapChangeApply
  try dsimp only
  (repeat' split) <;> try simp_all (maxDischargeDepth := 12) +contextual [foldl_keeps, foldl_keeps_fst]
  all_goals (repeat' split) <;> try simp_all (maxDischargeDepth := 12) +contextual [foldl_keeps, foldl_keeps_fst]
  all_goals (have he := (by assumption : (_ : State × _) = (_, _)); have hk : State.Keeps qq _ := keeps_of_eq he (by simp (maxDischargeDepth := 12) [h]); simp_all (maxDischargeDepth := 12) +contextual [foldl_keeps, foldl_keeps_fst])

@[simp] theorem execMarginSweep_keeps {qq : List Instr} {s : State} (port : PortId) (lane : Fin 8) (height : Nat) (width : Nat) (h : State.Keeps qq s) :
    OutKeeps qq (execMarginSweep port lane height width s) := by
  unfold execMarginSweep
  rw [outKeeps_next]
  exact keeps_if h (keeps_if (State.note_keeps _ _ (s := State.setPort _ _ _) h) h)

@[simp] theorem State.setLock_keeps {qq : List Instr} {s : State} (on : Bool) (h : State.Keeps qq s) :
    State.Keeps qq (State.setLock s on) := by
  unfold State.setLock
  try dsimp only
  (repeat' split) <;> try simp_all (maxDischargeDepth := 12) +contextual [foldl_keeps, foldl_keeps_fst]
  all_goals (repeat' split) <;> try simp_all (maxDischargeDepth := 12) +contextual [foldl_keeps, foldl_keeps_fst]
  all_goals (have he := (by assumption : (_ : State × _) = (_, _)); have hk : State.Keeps qq _ := keeps_of_eq he (by simp (maxDischargeDepth := 12) [h]); simp_all (maxDischargeDepth := 12) +contextual [foldl_keeps, foldl_keeps_fst])

@[simp] theorem State.stepTime_keeps {qq : List Instr} {s : State} (off : Int) (h : State.Keeps qq s) :
    State.Keeps qq (State.stepTime s off) := by
  unfold State.stepTime
  try dsimp only
  (repeat' split) <;> try simp_all (maxDischargeDepth := 12) +contextual [foldl_keeps, foldl_keeps_fst]
  all_goals (repeat' split) <;> try simp_all (maxDischargeDepth := 12) +contextual [foldl_keeps, foldl_keeps_fst]
  all_goals (have he := (by assumption : (_ : State × _) = (_, _)); have hk : State.Keeps qq _ := keeps_of_eq he (by simp (maxDischargeDepth := 12) [h]); simp_all (maxDischargeDepth := 12) +contextual [foldl_keeps, foldl_keeps_fst])

@[simp] theorem State.slewTime_keeps {qq : List Instr} {s : State} (off : Int) (h : State.Keeps qq s) :
    State.Keeps qq (State.slewTime s off) := by
  unfold State.slewTime
  try dsimp only
  (repeat' split) <;> try simp_all (maxDischargeDepth := 12) +contextual [foldl_keeps, foldl_keeps_fst]
  all_goals (repeat' split) <;> try simp_all (maxDischargeDepth := 12) +contextual [foldl_keeps, foldl_keeps_fst]
  all_goals (have he := (by assumption : (_ : State × _) = (_, _)); have hk : State.Keeps qq _ := keeps_of_eq he (by simp (maxDischargeDepth := 12) [h]); simp_all (maxDischargeDepth := 12) +contextual [foldl_keeps, foldl_keeps_fst])

@[simp] theorem State.follow_keeps {qq : List Instr} {s : State} (off : Int) (h : State.Keeps qq s) :
    State.Keeps qq (State.follow s off) := by
  unfold State.follow
  try dsimp only
  (repeat' split) <;> try simp_all (maxDischargeDepth := 12) +contextual [foldl_keeps, foldl_keeps_fst]
  all_goals (repeat' split) <;> try simp_all (maxDischargeDepth := 12) +contextual [foldl_keeps, foldl_keeps_fst]
  all_goals (have he := (by assumption : (_ : State × _) = (_, _)); have hk : State.Keeps qq _ := keeps_of_eq he (by simp (maxDischargeDepth := 12) [h]); simp_all (maxDischargeDepth := 12) +contextual [foldl_keeps, foldl_keeps_fst])

@[simp] theorem State.takeStamps_keeps {qq : List Instr} {s : State} (n : Nat) (c : LinkCtl) (h : State.Keeps qq s) :
    State.Keeps qq (State.takeStamps s n c) := by
  unfold State.takeStamps
  try dsimp only
  (repeat' split) <;> try simp_all (maxDischargeDepth := 12) +contextual [foldl_keeps, foldl_keeps_fst]
  all_goals (repeat' split) <;> try simp_all (maxDischargeDepth := 12) +contextual [foldl_keeps, foldl_keeps_fst]
  all_goals (have he := (by assumption : (_ : State × _) = (_, _)); have hk : State.Keeps qq _ := keeps_of_eq he (by simp (maxDischargeDepth := 12) [h]); simp_all (maxDischargeDepth := 12) +contextual [foldl_keeps, foldl_keeps_fst])

@[simp] theorem State.takeLaneMap_keeps {qq : List Instr} {s : State} (n : Nat) (c : LinkCtl) (h : State.Keeps qq s) :
    State.Keeps qq (State.takeLaneMap s n c) := by
  unfold State.takeLaneMap
  try dsimp only
  (repeat' split) <;> try simp_all (maxDischargeDepth := 12) +contextual [foldl_keeps, foldl_keeps_fst]
  all_goals (repeat' split) <;> try simp_all (maxDischargeDepth := 12) +contextual [foldl_keeps, foldl_keeps_fst]
  all_goals (have he := (by assumption : (_ : State × _) = (_, _)); have hk : State.Keeps qq _ := keeps_of_eq he (by simp (maxDischargeDepth := 12) [h]); simp_all (maxDischargeDepth := 12) +contextual [foldl_keeps, foldl_keeps_fst])

@[simp] theorem execLinkControlFlit_keeps {qq : List Instr} {s : State} (port : PortId) (c : LinkCtl) (h : State.Keeps qq s) :
    OutKeeps qq (execLinkControlFlit port c s) := by
  unfold execLinkControlFlit
  try dsimp only
  (repeat' split) <;> try simp_all (maxDischargeDepth := 12) +contextual [foldl_keeps, foldl_keeps_fst]
  all_goals (repeat' split) <;> try simp_all (maxDischargeDepth := 12) +contextual [foldl_keeps, foldl_keeps_fst]
  all_goals (have he := (by assumption : (_ : State × _) = (_, _)); have hk : State.Keeps qq _ := keeps_of_eq he (by simp (maxDischargeDepth := 12) [h]); simp_all (maxDischargeDepth := 12) +contextual [foldl_keeps, foldl_keeps_fst])

@[simp] theorem State.moveCtx_keeps {qq : List Instr} {s : State} (old : Port) (n : Nat) (fs : List Flit) (no : Nat) (h : State.Keeps qq s) :
    State.Keeps qq (State.moveCtx s old n fs no) := by
  unfold State.moveCtx
  try dsimp only
  (repeat' split) <;> try simp_all (maxDischargeDepth := 12) +contextual [foldl_keeps, foldl_keeps_fst]
  all_goals (repeat' split) <;> try simp_all (maxDischargeDepth := 12) +contextual [foldl_keeps, foldl_keeps_fst]
  all_goals (have he := (by assumption : (_ : State × _) = (_, _)); have hk : State.Keeps qq _ := keeps_of_eq he (by simp (maxDischargeDepth := 12) [h]); simp_all (maxDischargeDepth := 12) +contextual [foldl_keeps, foldl_keeps_fst])

@[simp] theorem State.moveAck_keeps {qq : List Instr} {s : State} (f : Flit) (h : State.Keeps qq s) :
    State.Keeps qq (State.moveAck s f) := by
  unfold State.moveAck
  try dsimp only
  (repeat' split) <;> try simp_all (maxDischargeDepth := 12) +contextual [foldl_keeps, foldl_keeps_fst]
  all_goals (repeat' split) <;> try simp_all (maxDischargeDepth := 12) +contextual [foldl_keeps, foldl_keeps_fst]
  all_goals (have he := (by assumption : (_ : State × _) = (_, _)); have hk : State.Keeps qq _ := keeps_of_eq he (by simp (maxDischargeDepth := 12) [h]); simp_all (maxDischargeDepth := 12) +contextual [foldl_keeps, foldl_keeps_fst])

@[simp] theorem State.requeue_keeps {qq : List Instr} {s : State} (old : Port) (n : Nat) (fs : List Flit) (h : State.Keeps qq s) :
    State.Keeps qq (State.requeue s old n fs) := by
  unfold State.requeue
  try dsimp only
  (repeat' split) <;> try simp_all (maxDischargeDepth := 12) +contextual [foldl_keeps, foldl_keeps_fst]
  all_goals (repeat' split) <;> try simp_all (maxDischargeDepth := 12) +contextual [foldl_keeps, foldl_keeps_fst]
  all_goals (have he := (by assumption : (_ : State × _) = (_, _)); have hk : State.Keeps qq _ := keeps_of_eq he (by simp (maxDischargeDepth := 12) [h]); simp_all (maxDischargeDepth := 12) +contextual [foldl_keeps, foldl_keeps_fst])

@[simp] theorem execPortRetire_keeps {qq : List Instr} {s : State} (port : PortId) (h : State.Keeps qq s) :
    OutKeeps qq (execPortRetire port s) := by
  unfold execPortRetire
  try dsimp only
  (repeat' split) <;> try simp_all (maxDischargeDepth := 12) +contextual [foldl_keeps, foldl_keeps_fst]
  all_goals (repeat' split) <;> try simp_all (maxDischargeDepth := 12) +contextual [foldl_keeps, foldl_keeps_fst]
  all_goals (have he := (by assumption : (_ : State × _) = (_, _)); have hk : State.Keeps qq _ := keeps_of_eq he (by simp (maxDischargeDepth := 12) [h]); simp_all (maxDischargeDepth := 12) +contextual [foldl_keeps, foldl_keeps_fst])

end Sys2Proof.Machine
end

