-- ==== Sys2Proof/Laws/KeepsMirror.lean ====
section
/-! SUPPORT. What the operations of Mirror leave alone: the queue of commands and the canonical form of memory. -/

namespace Sys2Proof.Machine

@[simp] theorem State.formPair_keeps {qq : List Instr} {s : State} (q : Req) (slot : Nat) (peerHolds : Bool) (h : State.Keeps qq s) :
    State.Keeps qq (State.formPair s q slot peerHolds) := by
  unfold State.formPair
  try dsimp only
  (repeat' split) <;> try simp_all (maxDischargeDepth := 12) +contextual [foldl_keeps, foldl_keeps_fst]
  all_goals (repeat' split) <;> try simp_all (maxDischargeDepth := 12) +contextual [foldl_keeps, foldl_keeps_fst]
  all_goals (have he := (by assumption : (_ : State × _) = (_, _)); have hk : State.Keeps qq _ := keeps_of_eq he (by simp (maxDischargeDepth := 12) [h]); simp_all (maxDischargeDepth := 12) +contextual [foldl_keeps, foldl_keeps_fst])

@[simp] theorem State.switchMode_keeps {qq : List Instr} {s : State} (p mode : Nat) (h : State.Keeps qq s) :
    State.Keeps qq (State.switchMode s p mode) := by
  unfold State.switchMode
  try dsimp only
  (repeat' split) <;> try simp_all (maxDischargeDepth := 12) +contextual [foldl_keeps, foldl_keeps_fst]
  all_goals (repeat' split) <;> try simp_all (maxDischargeDepth := 12) +contextual [foldl_keeps, foldl_keeps_fst]
  all_goals (have he := (by assumption : (_ : State × _) = (_, _)); have hk : State.Keeps qq _ := keeps_of_eq he (by simp (maxDischargeDepth := 12) [h]); simp_all (maxDischargeDepth := 12) +contextual [foldl_keeps, foldl_keeps_fst])

@[simp] theorem State.tellTwin_keeps {qq : List Instr} {s : State} (p kind : Nat) (payload : List Byte) (h : State.Keeps qq s) :
    State.Keeps qq (State.tellTwin s p kind payload) := by
  unfold State.tellTwin
  try dsimp only
  (repeat' split) <;> try simp_all (maxDischargeDepth := 12) +contextual [foldl_keeps, foldl_keeps_fst]
  all_goals (repeat' split) <;> try simp_all (maxDischargeDepth := 12) +contextual [foldl_keeps, foldl_keeps_fst]
  all_goals (have he := (by assumption : (_ : State × _) = (_, _)); have hk : State.Keeps qq _ := keeps_of_eq he (by simp (maxDischargeDepth := 12) [h]); simp_all (maxDischargeDepth := 12) +contextual [foldl_keeps, foldl_keeps_fst])

@[simp] theorem State.dropWait_keeps {qq : List Instr} {s : State} (p : Nat) (h : State.Keeps qq s) :
    State.Keeps qq (State.dropWait s p) := by
  unfold State.dropWait
  try dsimp only
  (repeat' split) <;> try simp_all (maxDischargeDepth := 12) +contextual [foldl_keeps, foldl_keeps_fst]
  all_goals (repeat' split) <;> try simp_all (maxDischargeDepth := 12) +contextual [foldl_keeps, foldl_keeps_fst]
  all_goals (have he := (by assumption : (_ : State × _) = (_, _)); have hk : State.Keeps qq _ := keeps_of_eq he (by simp (maxDischargeDepth := 12) [h]); simp_all (maxDischargeDepth := 12) +contextual [foldl_keeps, foldl_keeps_fst])

@[simp] theorem State.unsureFlag_keeps {qq : List Instr} {s : State} (room : Nat) (i : Issued) (h : State.Keeps qq s) :
    State.Keeps qq (State.unsureFlag s room i) := by
  unfold State.unsureFlag
  try dsimp only
  (repeat' split) <;> try simp_all (maxDischargeDepth := 12) +contextual [foldl_keeps, foldl_keeps_fst]
  all_goals (repeat' split) <;> try simp_all (maxDischargeDepth := 12) +contextual [foldl_keeps, foldl_keeps_fst]
  all_goals (have he := (by assumption : (_ : State × _) = (_, _)); have hk : State.Keeps qq _ := keeps_of_eq he (by simp (maxDischargeDepth := 12) [h]); simp_all (maxDischargeDepth := 12) +contextual [foldl_keeps, foldl_keeps_fst])

@[simp] theorem State.thawRoom_keeps {qq : List Instr} {s : State} (p : Nat) (room : Nat) (h : State.Keeps qq s) :
    State.Keeps qq (State.thawRoom p s room) := by
  unfold State.thawRoom
  try dsimp only
  (repeat' split) <;> try simp_all (maxDischargeDepth := 12) +contextual [foldl_keeps, foldl_keeps_fst]
  all_goals (repeat' split) <;> try simp_all (maxDischargeDepth := 12) +contextual [foldl_keeps, foldl_keeps_fst]
  all_goals (have he := (by assumption : (_ : State × _) = (_, _)); have hk : State.Keeps qq _ := keeps_of_eq he (by simp (maxDischargeDepth := 12) [h]); simp_all (maxDischargeDepth := 12) +contextual [foldl_keeps, foldl_keeps_fst])

@[simp] theorem State.thaw_keeps {qq : List Instr} {s : State} (p : Nat) (h : State.Keeps qq s) :
    State.Keeps qq (State.thaw s p) := by
  unfold State.thaw
  try dsimp only
  (repeat' split) <;> try simp_all (maxDischargeDepth := 12) +contextual [foldl_keeps, foldl_keeps_fst]
  all_goals (repeat' split) <;> try simp_all (maxDischargeDepth := 12) +contextual [foldl_keeps, foldl_keeps_fst]
  all_goals (have he := (by assumption : (_ : State × _) = (_, _)); have hk : State.Keeps qq _ := keeps_of_eq he (by simp (maxDischargeDepth := 12) [h]); simp_all (maxDischargeDepth := 12) +contextual [foldl_keeps, foldl_keeps_fst])

@[simp] theorem State.endPair_keeps {qq : List Instr} {s : State} (p : Nat) (h : State.Keeps qq s) :
    State.Keeps qq (State.endPair s p) := by
  unfold State.endPair
  try dsimp only
  (repeat' split) <;> try simp_all (maxDischargeDepth := 12) +contextual [foldl_keeps, foldl_keeps_fst]
  all_goals (repeat' split) <;> try simp_all (maxDischargeDepth := 12) +contextual [foldl_keeps, foldl_keeps_fst]
  all_goals (have he := (by assumption : (_ : State × _) = (_, _)); have hk : State.Keeps qq _ := keeps_of_eq he (by simp (maxDischargeDepth := 12) [h]); simp_all (maxDischargeDepth := 12) +contextual [foldl_keeps, foldl_keeps_fst])

@[simp] theorem execMirrorSet_keeps {qq : List Instr} {s : State} (f : FnId) (slot : SlotId) (peer : PeerAnswer) (h : State.Keeps qq s) :
    OutKeeps qq (execMirrorSet f slot peer s) := by
  refine State.runCmd_keeps _ _ _ _ (fun q => ?_) h
  dsimp only [CmdEnd.ok, CmdEnd.fail]
  (repeat' split) <;> try simp_all (maxDischargeDepth := 12) +contextual [foldl_keeps, foldl_keeps_fst]
  all_goals (repeat' split) <;> try simp_all (maxDischargeDepth := 12) +contextual [foldl_keeps, foldl_keeps_fst]
  all_goals (have he := (by assumption : (_ : State × _) = (_, _)); have hk : State.Keeps qq _ := keeps_of_eq he (by simp (maxDischargeDepth := 12) [h]); simp_all (maxDischargeDepth := 12) +contextual [foldl_keeps, foldl_keeps_fst])

@[simp] theorem execMirrorSetTimeout_keeps {qq : List Instr} {s : State} (p : PartId) (h : State.Keeps qq s) :
    OutKeeps qq (execMirrorSetTimeout p s) := by
  unfold execMirrorSetTimeout
  try dsimp only
  (repeat' split) <;> try simp_all (maxDischargeDepth := 12) +contextual [foldl_keeps, foldl_keeps_fst]
  all_goals (repeat' split) <;> try simp_all (maxDischargeDepth := 12) +contextual [foldl_keeps, foldl_keeps_fst]
  all_goals (have he := (by assumption : (_ : State × _) = (_, _)); have hk : State.Keeps qq _ := keeps_of_eq he (by simp (maxDischargeDepth := 12) [h]); simp_all (maxDischargeDepth := 12) +contextual [foldl_keeps, foldl_keeps_fst])

@[simp] theorem State.heard_keeps {qq : List Instr} {s : State} (p : Nat) (h : State.Keeps qq s) :
    State.Keeps qq (State.heard s p) := by
  unfold State.heard
  try dsimp only
  (repeat' split) <;> try simp_all (maxDischargeDepth := 12) +contextual [foldl_keeps, foldl_keeps_fst]
  all_goals (repeat' split) <;> try simp_all (maxDischargeDepth := 12) +contextual [foldl_keeps, foldl_keeps_fst]
  all_goals (have he := (by assumption : (_ : State × _) = (_, _)); have hk : State.Keeps qq _ := keeps_of_eq he (by simp (maxDischargeDepth := 12) [h]); simp_all (maxDischargeDepth := 12) +contextual [foldl_keeps, foldl_keeps_fst])

@[simp] theorem nextOf_keeps {qq : List Instr} {s : State} (o : Host.Outcome State Fault Refusal) (h : State.Keeps qq s) (ho : OutKeeps qq o) :
    State.Keeps qq (nextOf s o) := by
  cases o with
  | next t => exact ho
  | fault r => exact h
  | refused r => exact h

@[simp] theorem State.applyCommand_keeps {qq : List Instr} {s : State} (p : PartId) (op : Nat) (body : List Byte) (h : State.Keeps qq s) :
    State.Keeps qq (State.applyCommand s p op body) := by
  unfold State.applyCommand
  dsimp only
  generalize (Fin.ofNat 8 (((List.range 8).find? (fun k => ((s.fn p.succ).slot k).state != .running)).getD 0) : SlotId) = j
  generalize hw : ({ s with gysis := { s.gysis with detached := ((p.succ).val, j.val,
    ({ op := op, seq := 0, ctrl := 0, len := 480, vector := 0, body := body ++ List.replicate (480 - body.length) 0 } : Req)) :: s.gysis.detached } } : State) = w
  have h2 : State.Keeps qq w := by subst hw; exact h
  split
  · exact nextOf_keeps _ h (execKeysetRegister_keeps _ _ h2)
  · exact nextOf_keeps _ h (execKeysetActivate_keeps _ _ h2)
  · exact nextOf_keeps _ h (execKeysetDeactivate_keeps _ _ h2)
  · exact nextOf_keeps _ h (execKeysetRelease_keeps _ _ h2)
  · exact nextOf_keeps _ h (execKeyRegister_keeps _ _ h2)
  · exact nextOf_keeps _ h (execKeyRemove_keeps _ _ h2)
  · exact nextOf_keeps _ h (execLutKeyRegister_keeps _ _ h2)
  · exact nextOf_keeps _ h (execProgramLoad_keeps _ _ h2)
  · exact nextOf_keeps _ h (execProgramUnload_keeps _ _ h2)
  · exact nextOf_keeps _ h (execJobRingSet_keeps _ _ h2)
  · exact h

@[simp] theorem execCommand_keeps {qq : List Instr} {s : State} (p : PartId) (opcode : Nat) (payload : List Byte) (h : State.Keeps qq s) :
    OutKeeps qq (execCommand p opcode payload s) := by
  unfold execCommand
  try dsimp only
  (repeat' split) <;> try simp_all (maxDischargeDepth := 12) +contextual [foldl_keeps, foldl_keeps_fst]
  all_goals (repeat' split) <;> try simp_all (maxDischargeDepth := 12) +contextual [foldl_keeps, foldl_keeps_fst]
  all_goals (have he := (by assumption : (_ : State × _) = (_, _)); have hk : State.Keeps qq _ := keeps_of_eq he (by simp (maxDischargeDepth := 12) [h]); simp_all (maxDischargeDepth := 12) +contextual [foldl_keeps, foldl_keeps_fst])

@[simp] theorem execInput_keeps {qq : List Instr} {s : State} (p : PartId) (m : InputMsg) (h : State.Keeps qq s) :
    OutKeeps qq (execInput p m s) := by
  unfold execInput
  dsimp only
  rw [outKeeps_next]
  have hh := State.heard_keeps p h
  refine keeps_if h ?_
  cases m with
  | line room cellar off flag data =>
    dsimp only
    refine keeps_if hh (keeps_if h ?_)
    cases flag with
    | none => exact State.writeSpan_keeps _ _ _ _ hh
    | some k => exact State.writeSpan_keeps _ _ _ _ hh
  | doorbell tail =>
    dsimp only
    cases e : (s.heard p).takeTail (p.val + 1) tail with
    | none => exact hh
    | some u => exact State.takeTail_keeps _ _ hh e

@[simp] theorem execHostread_keeps {qq : List Instr} {s : State} (p : PartId) (room : Nat) (ch : ChanId) (data : List Byte) (h : State.Keeps qq s) :
    OutKeeps qq (execHostread p room ch data s) := by
  unfold execHostread
  try dsimp only
  (repeat' split) <;> try simp_all (maxDischargeDepth := 12) +contextual [foldl_keeps, foldl_keeps_fst]
  all_goals (repeat' split) <;> try simp_all (maxDischargeDepth := 12) +contextual [foldl_keeps, foldl_keeps_fst]
  all_goals (have he := (by assumption : (_ : State × _) = (_, _)); have hk : State.Keeps qq _ := keeps_of_eq he (by simp (maxDischargeDepth := 12) [h]); simp_all (maxDischargeDepth := 12) +contextual [foldl_keeps, foldl_keeps_fst])

@[simp] theorem execBlockkey_keeps {qq : List Instr} {s : State} (p : PartId) (wrapped : List Byte) (h : State.Keeps qq s) :
    OutKeeps qq (execBlockkey p wrapped s) := by
  unfold execBlockkey
  try dsimp only
  (repeat' split) <;> try simp_all (maxDischargeDepth := 12) +contextual [foldl_keeps, foldl_keeps_fst]
  all_goals (repeat' split) <;> try simp_all (maxDischargeDepth := 12) +contextual [foldl_keeps, foldl_keeps_fst]
  all_goals (have he := (by assumption : (_ : State × _) = (_, _)); have hk : State.Keeps qq _ := keeps_of_eq he (by simp (maxDischargeDepth := 12) [h]); simp_all (maxDischargeDepth := 12) +contextual [foldl_keeps, foldl_keeps_fst])

@[simp] theorem State.standbyDiverged_keeps {qq : List Instr} {s : State} (p room : Nat) (d : DigestRec) (h : State.Keeps qq s) :
    State.Keeps qq (State.standbyDiverged s p room d) := by
  unfold State.standbyDiverged
  try dsimp only
  (repeat' split) <;> try simp_all (maxDischargeDepth := 12) +contextual [foldl_keeps, foldl_keeps_fst]
  all_goals (repeat' split) <;> try simp_all (maxDischargeDepth := 12) +contextual [foldl_keeps, foldl_keeps_fst]
  all_goals (have he := (by assumption : (_ : State × _) = (_, _)); have hk : State.Keeps qq _ := keeps_of_eq he (by simp (maxDischargeDepth := 12) [h]); simp_all (maxDischargeDepth := 12) +contextual [foldl_keeps, foldl_keeps_fst])

@[simp] theorem execDigest_keeps {qq : List Instr} {s : State} (p : PartId) (room : Nat) (d : DigestRec) (h : State.Keeps qq s) :
    OutKeeps qq (execDigest p room d s) := by
  unfold execDigest
  try dsimp only
  (repeat' split) <;> try simp_all (maxDischargeDepth := 12) +contextual [foldl_keeps, foldl_keeps_fst]
  all_goals (repeat' split) <;> try simp_all (maxDischargeDepth := 12) +contextual [foldl_keeps, foldl_keeps_fst]
  all_goals (have he := (by assumption : (_ : State × _) = (_, _)); have hk : State.Keeps qq _ := keeps_of_eq he (by simp (maxDischargeDepth := 12) [h]); simp_all (maxDischargeDepth := 12) +contextual [foldl_keeps, foldl_keeps_fst])

@[simp] theorem execEcho_keeps {qq : List Instr} {s : State} (p : PartId) (room : Nat) (ch : ChanId) (h : State.Keeps qq s) :
    OutKeeps qq (execEcho p room ch s) := by
  unfold execEcho
  try dsimp only
  (repeat' split) <;> try simp_all (maxDischargeDepth := 12) +contextual [foldl_keeps, foldl_keeps_fst]
  all_goals (repeat' split) <;> try simp_all (maxDischargeDepth := 12) +contextual [foldl_keeps, foldl_keeps_fst]
  all_goals (have he := (by assumption : (_ : State × _) = (_, _)); have hk : State.Keeps qq _ := keeps_of_eq he (by simp (maxDischargeDepth := 12) [h]); simp_all (maxDischargeDepth := 12) +contextual [foldl_keeps, foldl_keeps_fst])

@[simp] theorem State.losePeer_keeps {qq : List Instr} {s : State} (p : Nat) (h : State.Keeps qq s) :
    State.Keeps qq (State.losePeer s p) := by
  unfold State.losePeer
  try dsimp only
  (repeat' split) <;> try simp_all (maxDischargeDepth := 12) +contextual [foldl_keeps, foldl_keeps_fst]
  all_goals (repeat' split) <;> try simp_all (maxDischargeDepth := 12) +contextual [foldl_keeps, foldl_keeps_fst]
  all_goals (have he := (by assumption : (_ : State × _) = (_, _)); have hk : State.Keeps qq _ := keeps_of_eq he (by simp (maxDischargeDepth := 12) [h]); simp_all (maxDischargeDepth := 12) +contextual [foldl_keeps, foldl_keeps_fst])

@[simp] theorem execHeartbeat_keeps {qq : List Instr} {s : State} (p : PartId) (state : Nat) (time : Nat) (h : State.Keeps qq s) :
    OutKeeps qq (execHeartbeat p state time s) := by
  unfold execHeartbeat
  try dsimp only
  (repeat' split) <;> try simp_all (maxDischargeDepth := 12) +contextual [foldl_keeps, foldl_keeps_fst]
  all_goals (repeat' split) <;> try simp_all (maxDischargeDepth := 12) +contextual [foldl_keeps, foldl_keeps_fst]
  all_goals (have he := (by assumption : (_ : State × _) = (_, _)); have hk : State.Keeps qq _ := keeps_of_eq he (by simp (maxDischargeDepth := 12) [h]); simp_all (maxDischargeDepth := 12) +contextual [foldl_keeps, foldl_keeps_fst])

@[simp] theorem execHeartbeatSend_keeps {qq : List Instr} {s : State} (p : PartId) (h : State.Keeps qq s) :
    OutKeeps qq (execHeartbeatSend p s) := by
  unfold execHeartbeatSend
  try dsimp only
  (repeat' split) <;> try simp_all (maxDischargeDepth := 12) +contextual [foldl_keeps, foldl_keeps_fst]
  all_goals (repeat' split) <;> try simp_all (maxDischargeDepth := 12) +contextual [foldl_keeps, foldl_keeps_fst]
  all_goals (have he := (by assumption : (_ : State × _) = (_, _)); have hk : State.Keeps qq _ := keeps_of_eq he (by simp (maxDischargeDepth := 12) [h]); simp_all (maxDischargeDepth := 12) +contextual [foldl_keeps, foldl_keeps_fst])

@[simp] theorem execEnd_keeps {qq : List Instr} {s : State} (p : PartId) (h : State.Keeps qq s) :
    OutKeeps qq (execEnd p s) := by
  unfold execEnd
  try dsimp only
  (repeat' split) <;> try simp_all (maxDischargeDepth := 12) +contextual [foldl_keeps, foldl_keeps_fst]
  all_goals (repeat' split) <;> try simp_all (maxDischargeDepth := 12) +contextual [foldl_keeps, foldl_keeps_fst]
  all_goals (have he := (by assumption : (_ : State × _) = (_, _)); have hk : State.Keeps qq _ := keeps_of_eq he (by simp (maxDischargeDepth := 12) [h]); simp_all (maxDischargeDepth := 12) +contextual [foldl_keeps, foldl_keeps_fst])

@[simp] theorem execPeerLoss_keeps {qq : List Instr} {s : State} (p : PartId) (h : State.Keeps qq s) :
    OutKeeps qq (execPeerLoss p s) := by
  unfold execPeerLoss
  try dsimp only
  (repeat' split) <;> try simp_all (maxDischargeDepth := 12) +contextual [foldl_keeps, foldl_keeps_fst]
  all_goals (repeat' split) <;> try simp_all (maxDischargeDepth := 12) +contextual [foldl_keeps, foldl_keeps_fst]
  all_goals (have he := (by assumption : (_ : State × _) = (_, _)); have hk : State.Keeps qq _ := keeps_of_eq he (by simp (maxDischargeDepth := 12) [h]); simp_all (maxDischargeDepth := 12) +contextual [foldl_keeps, foldl_keeps_fst])

@[simp] theorem State.resyncBlank_keeps {qq : List Instr} {s : State} (p : Nat) (h : State.Keeps qq s) :
    State.Keeps qq (State.resyncBlank s p) := by
  have hm : Kept qq ((s.part p).rooms.foldl (fun m r => { m with
      attic := Mem.clear m.attic (atticKey r 0) atticBytes
      atticBad := m.atticBad.filter (fun c => !(atticKey r 0 ≤ c.1 && c.1 < atticKey r 0 + atticBytes))
      cellar := Mem.clear m.cellar (cellarKey r 0) stackBytes
      ecc := m.ecc.filter (fun c => !(cellarKey r 0 ≤ c.1 * 32 && c.1 * 32 < cellarKey r 0 + stackBytes)) }) s.mem) s.pending :=
    foldl_inv (fun m : Mem => Kept qq m s.pending) (fun m r hm => ⟨hm.1, Mem.wf_clear hm.2.1 _ _, Mem.wf_clear hm.2.2 _ _⟩) _ _ h
  unfold State.resyncBlank
  dsimp only
  rw [State.setFn_keeps, State.setPart_keeps]
  refine foldl_keeps (fun v r hv => by rw [State.setRoom_keeps]; exact hv) _ _ ?_
  rw [keeps_mk]
  exact hm

@[simp] theorem State.resyncRec_keeps {qq : List Instr} {s : State} (p : Nat) (e : ResyncRec) (h : State.Keeps qq s) :
    State.Keeps qq (State.resyncRec p s e) := by
  unfold State.resyncRec
  try dsimp only
  (repeat' split) <;> try simp_all (maxDischargeDepth := 12) +contextual [foldl_keeps, foldl_keeps_fst]
  all_goals (repeat' split) <;> try simp_all (maxDischargeDepth := 12) +contextual [foldl_keeps, foldl_keeps_fst]
  all_goals (have he := (by assumption : (_ : State × _) = (_, _)); have hk : State.Keeps qq _ := keeps_of_eq he (by simp (maxDischargeDepth := 12) [h]); simp_all (maxDischargeDepth := 12) +contextual [foldl_keeps, foldl_keeps_fst])

@[simp] theorem execResyncComplete_keeps {qq : List Instr} {s : State} (p : PartId) (image : List ResyncRec) (h : State.Keeps qq s) :
    OutKeeps qq (execResyncComplete p image s) := by
  unfold execResyncComplete
  try dsimp only
  (repeat' split) <;> try simp_all (maxDischargeDepth := 12) +contextual [foldl_keeps, foldl_keeps_fst]
  all_goals (repeat' split) <;> try simp_all (maxDischargeDepth := 12) +contextual [foldl_keeps, foldl_keeps_fst]
  all_goals (have he := (by assumption : (_ : State × _) = (_, _)); have hk : State.Keeps qq _ := keeps_of_eq he (by simp (maxDischargeDepth := 12) [h]); simp_all (maxDischargeDepth := 12) +contextual [foldl_keeps, foldl_keeps_fst])

end Sys2Proof.Machine
end

