-- ==== Sys2Proof/Laws/KeepsRefresh.lean ====
section
/-! SUPPORT. What the operations of Refresh leave alone: the queue of commands and the canonical form of memory. -/

namespace Sys2Proof.Machine

@[simp] theorem State.takeEntries_keeps {qq : List Instr} {s : State} (p room n : Nat) (runs : Bool) (h : State.Keeps qq s) :
    State.Keeps qq (State.takeEntries s p room n runs) := by
  unfold State.takeEntries
  try dsimp only
  (repeat' split) <;> try simp_all (maxDischargeDepth := 12) +contextual [foldl_keeps, foldl_keeps_fst]
  all_goals (repeat' split) <;> try simp_all (maxDischargeDepth := 12) +contextual [foldl_keeps, foldl_keeps_fst]
  all_goals (have he := (by assumption : (_ : State × _) = (_, _)); have hk : State.Keeps qq _ := keeps_of_eq he (by simp (maxDischargeDepth := 12) [h]); simp_all (maxDischargeDepth := 12) +contextual [foldl_keeps, foldl_keeps_fst])

@[simp] theorem State.planRun_keeps {qq : List Instr} {s : State} (p : Nat) (dst : Place) (pl : Plan) (last : Nat) (ends : Nat → Bool) (at_ : Nat → Progress) (takes : Nat → Nat) (decide_ : Nat → Decision) (ks : Nat → Option KeySet) (labels : Nat → List Span) (first : Nat → List Nat) (reads : Nat → List Span) (start : Nat → Option Nat) (h : State.Keeps qq s) :
    State.Keeps qq (State.planRun s p dst pl last ends at_ takes decide_ ks labels first reads start) := by
  unfold State.planRun
  refine keeps_if h ?_
  rw [State.draw_keeps]
  refine foldl_keeps (fun t room ht => ?_) _ _ h
  dsimp only
  split
  · exact State.countOp_keeps _ _ (State.performRoom_keeps _ _ _ _ (State.takeEntries_keeps _ _ _ _ ht))
  · split
    · rw [State.setRoom_keeps]
      exact State.countOp_keeps _ _ (State.performRoom_keeps _ _ _ _ (State.takeEntries_keeps _ _ _ _ ht))
    · exact ht

@[simp] theorem State.planOp_keeps {qq : List Instr} {s : State} (p : Nat) (dst : Place) (pl : Plan) (last : Nat) (decide_ : Nat → Decision) (ks : Nat → Option KeySet) (labels : Nat → List Span) (first : Nat → List Nat) (reads : Nat → List Span) (start : Nat → Option Nat) (h : State.Keeps qq s) :
    State.Keeps qq (State.planOp s p dst pl last decide_ ks labels first reads start) := by
  unfold State.planOp
  dsimp only
  exact keeps_if h (keeps_if (State.awaitEntries_keeps _ _ h) (State.planRun_keeps _ _ _ _ _ _ _ _ _ _ _ _ _ (State.pulled_keeps _ _ _ h)))

@[simp] theorem State.refreshOp_keeps {qq : List Instr} {s : State} (p : Nat) (dst a : Place) (program plan form : Nat) (h : State.Keeps qq s) :
    State.Keeps qq (State.refreshOp s p dst a program plan form) := by
  unfold State.refreshOp
  try dsimp only
  (repeat' split) <;> try simp_all (maxDischargeDepth := 12) +contextual [foldl_keeps, foldl_keeps_fst]
  all_goals (repeat' split) <;> try simp_all (maxDischargeDepth := 12) +contextual [foldl_keeps, foldl_keeps_fst]
  all_goals (have he := (by assumption : (_ : State × _) = (_, _)); have hk : State.Keeps qq _ := keeps_of_eq he (by simp (maxDischargeDepth := 12) [h]); simp_all (maxDischargeDepth := 12) +contextual [foldl_keeps, foldl_keeps_fst])

@[simp] theorem execApproximateRefresh_keeps {qq : List Instr} {s : State} (p : PartId) (dst a : Place) (program : Nat) (plan : Nat) (h : State.Keeps qq s) :
    OutKeeps qq (execApproximateRefresh p dst a program plan s) := by
  unfold execApproximateRefresh
  try dsimp only
  (repeat' split) <;> try simp_all (maxDischargeDepth := 12) +contextual [foldl_keeps, foldl_keeps_fst]
  all_goals (repeat' split) <;> try simp_all (maxDischargeDepth := 12) +contextual [foldl_keeps, foldl_keeps_fst]
  all_goals (have he := (by assumption : (_ : State × _) = (_, _)); have hk : State.Keeps qq _ := keeps_of_eq he (by simp (maxDischargeDepth := 12) [h]); simp_all (maxDischargeDepth := 12) +contextual [foldl_keeps, foldl_keeps_fst])

@[simp] theorem execExactRefresh_keeps {qq : List Instr} {s : State} (p : PartId) (dst a : Place) (program : Nat) (plan : Nat) (h : State.Keeps qq s) :
    OutKeeps qq (execExactRefresh p dst a program plan s) := by
  unfold execExactRefresh
  try dsimp only
  (repeat' split) <;> try simp_all (maxDischargeDepth := 12) +contextual [foldl_keeps, foldl_keeps_fst]
  all_goals (repeat' split) <;> try simp_all (maxDischargeDepth := 12) +contextual [foldl_keeps, foldl_keeps_fst]
  all_goals (have he := (by assumption : (_ : State × _) = (_, _)); have hk : State.Keeps qq _ := keeps_of_eq he (by simp (maxDischargeDepth := 12) [h]); simp_all (maxDischargeDepth := 12) +contextual [foldl_keeps, foldl_keeps_fst])

@[simp] theorem execExtract_keeps {qq : List Instr} {s : State} (p : PartId) (dst a : Place) (positions : List Nat) (h : State.Keeps qq s) :
    OutKeeps qq (execExtract p dst a positions s) := by
  unfold execExtract
  try dsimp only
  (repeat' split) <;> try simp_all (maxDischargeDepth := 12) +contextual [foldl_keeps, foldl_keeps_fst]
  all_goals (repeat' split) <;> try simp_all (maxDischargeDepth := 12) +contextual [foldl_keeps, foldl_keeps_fst]
  all_goals (have he := (by assumption : (_ : State × _) = (_, _)); have hk : State.Keeps qq _ := keeps_of_eq he (by simp (maxDischargeDepth := 12) [h]); simp_all (maxDischargeDepth := 12) +contextual [foldl_keeps, foldl_keeps_fst])

@[simp] theorem State.lweOp_keeps {qq : List Instr} {s : State} (p : Nat) (dst : Place) (places : List Place) (early : Option KeySet → List Label → Option Nat) (rule : KeySet → Label → List Label → Decision) (make : Modulus → List (List Nat) → List Nat) (gated : Modulus → List (List Nat) → Nat) (h : State.Keeps qq s) :
    State.Keeps qq (State.lweOp s p dst places early rule make gated) := by
  unfold State.lweOp
  try dsimp only
  (repeat' split) <;> try simp_all (maxDischargeDepth := 12) +contextual [foldl_keeps, foldl_keeps_fst]
  all_goals (repeat' split) <;> try simp_all (maxDischargeDepth := 12) +contextual [foldl_keeps, foldl_keeps_fst]
  all_goals (have he := (by assumption : (_ : State × _) = (_, _)); have hk : State.Keeps qq _ := keeps_of_eq he (by simp (maxDischargeDepth := 12) [h]); simp_all (maxDischargeDepth := 12) +contextual [foldl_keeps, foldl_keeps_fst])

@[simp] theorem execLweAdd_keeps {qq : List Instr} {s : State} (p : PartId) (dst a b : Place) (h : State.Keeps qq s) :
    OutKeeps qq (execLweAdd p dst a b s) := by
  unfold execLweAdd
  try dsimp only
  (repeat' split) <;> try simp_all (maxDischargeDepth := 12) +contextual [foldl_keeps, foldl_keeps_fst]
  all_goals (repeat' split) <;> try simp_all (maxDischargeDepth := 12) +contextual [foldl_keeps, foldl_keeps_fst]
  all_goals (have he := (by assumption : (_ : State × _) = (_, _)); have hk : State.Keeps qq _ := keeps_of_eq he (by simp (maxDischargeDepth := 12) [h]); simp_all (maxDischargeDepth := 12) +contextual [foldl_keeps, foldl_keeps_fst])

@[simp] theorem execLweSubtract_keeps {qq : List Instr} {s : State} (p : PartId) (dst a b : Place) (h : State.Keeps qq s) :
    OutKeeps qq (execLweSubtract p dst a b s) := by
  unfold execLweSubtract
  try dsimp only
  (repeat' split) <;> try simp_all (maxDischargeDepth := 12) +contextual [foldl_keeps, foldl_keeps_fst]
  all_goals (repeat' split) <;> try simp_all (maxDischargeDepth := 12) +contextual [foldl_keeps, foldl_keeps_fst]
  all_goals (have he := (by assumption : (_ : State × _) = (_, _)); have hk : State.Keeps qq _ := keeps_of_eq he (by simp (maxDischargeDepth := 12) [h]); simp_all (maxDischargeDepth := 12) +contextual [foldl_keeps, foldl_keeps_fst])

@[simp] theorem execLweMultiplyByInteger_keeps {qq : List Instr} {s : State} (p : PartId) (dst a : Place) (c : Int) (h : State.Keeps qq s) :
    OutKeeps qq (execLweMultiplyByInteger p dst a c s) := by
  unfold execLweMultiplyByInteger
  try dsimp only
  (repeat' split) <;> try simp_all (maxDischargeDepth := 12) +contextual [foldl_keeps, foldl_keeps_fst]
  all_goals (repeat' split) <;> try simp_all (maxDischargeDepth := 12) +contextual [foldl_keeps, foldl_keeps_fst]
  all_goals (have he := (by assumption : (_ : State × _) = (_, _)); have hk : State.Keeps qq _ := keeps_of_eq he (by simp (maxDischargeDepth := 12) [h]); simp_all (maxDischargeDepth := 12) +contextual [foldl_keeps, foldl_keeps_fst])

@[simp] theorem execLookUp_keeps {qq : List Instr} {s : State} (p : PartId) (dsts : List Place) (a : Place) (lut : Nat) (tables : List Place) (h : State.Keeps qq s) :
    OutKeeps qq (execLookUp p dsts a lut tables s) := by
  unfold execLookUp
  rw [outKeeps_next]
  refine keeps_if h ?_
  rw [State.draw_keeps]
  refine foldl_keeps (fun t room ht => ?_) _ _ h
  dsimp only
  split
  · rw [State.setRoom_keeps]
    exact foldl_keeps (fun v e hv => State.performRoom_keeps _ _ _ _ hv) _ _ ht
  · exact foldl_keeps (fun v e hv => State.performRoom_keeps _ _ _ _ hv) _ _ ht

@[simp] theorem execPack_keeps {qq : List Instr} {s : State} (p : PartId) (dst a secret : Place) (program : Nat) (plan : Nat) (h : State.Keeps qq s) :
    OutKeeps qq (execPack p dst a secret program plan s) := by
  unfold execPack
  try dsimp only
  (repeat' split) <;> try simp_all (maxDischargeDepth := 12) +contextual [foldl_keeps, foldl_keeps_fst]
  all_goals (repeat' split) <;> try simp_all (maxDischargeDepth := 12) +contextual [foldl_keeps, foldl_keeps_fst]
  all_goals (have he := (by assumption : (_ : State × _) = (_, _)); have hk : State.Keeps qq _ := keeps_of_eq he (by simp (maxDischargeDepth := 12) [h]); simp_all (maxDischargeDepth := 12) +contextual [foldl_keeps, foldl_keeps_fst])

end Sys2Proof.Machine
end

