-- ==== Sys2Proof/Laws/KeepsVector.lean ====
section
/-! SUPPORT. What the operations of Vector leave alone: the queue of commands and the canonical form of memory. -/

namespace Sys2Proof.Machine

theorem State.vecGuard_keeps {qq : List Instr} {s : State} (room : Nat) (reads writes : List Span) (effect : State → State)
    (he : ∀ t, State.Keeps qq t → State.Keeps qq (effect t)) (h : State.Keeps qq s) : State.Keeps qq (s.vecGuard room reads writes effect) := by
  have hc : State.Keeps qq (reads.foldl State.countRead s) := foldl_keeps (fun a x ha => State.countRead_keeps _ ha) _ _ h
  unfold State.vecGuard
  refine keeps_if h ?_
  dsimp only
  cases reads.find? s.spanBad with
  | none => exact he _ hc
  | some b => exact keeps_if (he _ hc) hc

@[simp] theorem State.seriesOp_keeps {qq : List Instr} {s : State} (room : Nat) (t : Option TensorRef) (h : State.Keeps qq s) :
    State.Keeps qq (State.seriesOp s room t) := by
  unfold State.seriesOp
  try dsimp only
  (repeat' split) <;> try simp_all (maxDischargeDepth := 12) +contextual [foldl_keeps, foldl_keeps_fst]
  all_goals (repeat' split) <;> try simp_all (maxDischargeDepth := 12) +contextual [foldl_keeps, foldl_keeps_fst]
  all_goals (have he := (by assumption : (_ : State × _) = (_, _)); have hk : State.Keeps qq _ := keeps_of_eq he (by simp (maxDischargeDepth := 12) [h]); simp_all (maxDischargeDepth := 12) +contextual [foldl_keeps, foldl_keeps_fst])

@[simp] theorem State.vecRun_keeps {qq : List Instr} {s : State} (room : Nat) (v : VInstr) (h : State.Keeps qq s) :
    State.Keeps qq (State.vecRun s room v) := by
  unfold State.vecRun
  dsimp only
  refine keeps_if h (State.seriesOp_keeps _ _ ?_)
  refine State.vecGuard_keeps _ _ _ _ (fun t ht => ?_) h
  refine keeps_if ht ?_
  rw [State.draw_keeps]
  refine foldl_keeps (fun u w hu => State.putAttic_keeps _ _ _ hu) _ _ ?_
  exact ht

@[simp] theorem State.tensorRun_keeps {qq : List Instr} {s : State} (room : Nat) (t : TensorRef) (elementwise : Bool) (reads : List Span)
    (run : State → State) (hr : ∀ t, State.Keeps qq t → State.Keeps qq (run t)) (h : State.Keeps qq s) :
    State.Keeps qq (s.tensorRun room t elementwise reads run) := by
  unfold State.tensorRun
  split
  · exact h
  dsimp only
  have hl : ∀ l : List Span, State.Keeps qq (run (l.foldl State.countRead s)) := fun l =>
    hr _ (foldl_keeps (fun t x ht => State.countRead_keeps _ ht) _ _ h)
  refine keeps_if h (keeps_if (State.countOp_keeps _ _ (State.performRoom_keeps _ _ _ _ h)) (keeps_if (State.countOp_keeps _ _ (State.performRoom_keeps _ _ _ _ h)) ?_))
  refine keeps_if (hl _) ?_
  rw [State.setRoom_keeps]
  exact State.putLabel_keeps _ _ _ _ (hl _)

@[simp] theorem State.compressLong_keeps {qq : List Instr} {s : State} (room : Nat) (src : VSrc) (mask dst : Fin 32) (len : Nat) (h : State.Keeps qq s) :
    State.Keeps qq (State.compressLong s room src mask dst len) := by
  unfold State.compressLong
  dsimp only
  refine keeps_if h (State.seriesOp_keeps _ _ (State.vecGuard_keeps _ _ _ _ (fun t ht => ?_) h))
  exact ht

@[simp] theorem State.onTensors_keeps {qq : List Instr} {s : State} (r : Nat) (t : Option TensorRef) (elementwise : Bool) (reads : List Span)
    (run : State → State) (hr : ∀ t, State.Keeps qq t → State.Keeps qq (run t)) (h : State.Keeps qq s) :
    State.Keeps qq (s.onTensors r t elementwise reads run) := by
  unfold State.onTensors
  split
  · exact keeps_if (State.tensorRun_keeps _ _ _ _ _ hr h) h
  · exact hr _ h

@[simp] theorem execVectorOperation_keeps {qq : List Instr} {s : State} (r : RoomId) (v : VInstr) (h : State.Keeps qq s) :
    OutKeeps qq (execVectorOperation r v s) := by
  unfold execVectorOperation
  rw [outKeeps_next]
  exact State.onTensors_keeps _ _ _ _ _ (fun t ht => State.vecRun_keeps _ _ ht) h

@[simp] theorem execCompress_keeps {qq : List Instr} {s : State} (r : RoomId) (src : VSrc) (mask : Fin 32) (dst : Fin 32) (len : Nat) (h : State.Keeps qq s) :
    OutKeeps qq (execCompress r src mask dst len s) := by
  unfold execCompress
  rw [outKeeps_next]
  exact State.onTensors_keeps _ _ _ _ _ (fun t ht => keeps_if (State.vecRun_keeps _ _ ht) (State.compressLong_keeps _ _ _ _ _ ht)) h

@[simp] theorem execExpand_keeps {qq : List Instr} {s : State} (r : RoomId) (src : VSrc) (runLen : Nat) (mask : Fin 32) (fill : VSrc) (dst : Fin 32) (len : Nat) (h : State.Keeps qq s) :
    OutKeeps qq (execExpand r src runLen mask fill dst len s) := by
  unfold execExpand
  rw [outKeeps_next]
  exact State.onTensors_keeps _ _ _ _ _ (fun t ht => State.vecRun_keeps _ _ ht) h

@[simp] theorem State.matRun_keeps {qq : List Instr} {s : State} (room : Nat) (m : MatOp) (h : State.Keeps qq s) :
    State.Keeps qq (State.matRun s room m) := by
  unfold State.matRun
  dsimp only
  refine State.seriesOp_keeps _ _ (State.vecGuard_keeps _ _ _ _ (fun t ht => ?_) h)
  exact State.laneTraffic_keeps _ _ _ (State.putAttic_keeps _ _ _ ht)

@[simp] theorem execPlaintextMatrixProduct_keeps {qq : List Instr} {s : State} (r : RoomId) (m : MatOp) (h : State.Keeps qq s) :
    OutKeeps qq (execPlaintextMatrixProduct r m s) := by
  unfold execPlaintextMatrixProduct
  dsimp only
  rw [outKeeps_next]
  refine keeps_if h ?_
  split
  · exact State.tensorRun_keeps _ _ _ _ _ (fun t ht => State.matRun_keeps _ _ ht) h
  · exact State.matRun_keeps _ _ h

end Sys2Proof.Machine
end

