-- ==== Sys2Proof/Laws/KeepsLayout.lean ====
section
/-! SUPPORT. What the operations of Layout leave alone: the queue of commands and the canonical form of memory. -/

namespace Sys2Proof.Machine

@[simp] theorem State.layoutOp_keeps {qq : List Instr} {s : State} (p : Nat) (dst a : Place) (forms : List Nat) (rule : Label → Label) (pairs : Label → List Nat) (h : State.Keeps qq s) :
    State.Keeps qq (State.layoutOp s p dst a forms rule pairs) := by
  unfold State.layoutOp
  try dsimp only
  (repeat' split) <;> try simp_all (maxDischargeDepth := 12) +contextual [foldl_keeps, foldl_keeps_fst]
  all_goals (repeat' split) <;> try simp_all (maxDischargeDepth := 12) +contextual [foldl_keeps, foldl_keeps_fst]
  all_goals (have he := (by assumption : (_ : State × _) = (_, _)); have hk : State.Keeps qq _ := keeps_of_eq he (by simp (maxDischargeDepth := 12) [h]); simp_all (maxDischargeDepth := 12) +contextual [foldl_keeps, foldl_keeps_fst])

@[simp] theorem execCompact_keeps {qq : List Instr} {s : State} (p : PartId) (dst a : Place) (h : State.Keeps qq s) :
    OutKeeps qq (execCompact p dst a s) := by
  unfold execCompact
  try dsimp only
  (repeat' split) <;> try simp_all (maxDischargeDepth := 12) +contextual [foldl_keeps, foldl_keeps_fst]
  all_goals (repeat' split) <;> try simp_all (maxDischargeDepth := 12) +contextual [foldl_keeps, foldl_keeps_fst]
  all_goals (have he := (by assumption : (_ : State × _) = (_, _)); have hk : State.Keeps qq _ := keeps_of_eq he (by simp (maxDischargeDepth := 12) [h]); simp_all (maxDischargeDepth := 12) +contextual [foldl_keeps, foldl_keeps_fst])

@[simp] theorem execReDeal_keeps {qq : List Instr} {s : State} (p : PartId) (dst a : Place) (layout : Fin 3) (home : Nat) (h : State.Keeps qq s) :
    OutKeeps qq (execReDeal p dst a layout home s) := by
  unfold execReDeal
  try dsimp only
  (repeat' split) <;> try simp_all (maxDischargeDepth := 12) +contextual [foldl_keeps, foldl_keeps_fst]
  all_goals (repeat' split) <;> try simp_all (maxDischargeDepth := 12) +contextual [foldl_keeps, foldl_keeps_fst]
  all_goals (have he := (by assumption : (_ : State × _) = (_, _)); have hk : State.Keeps qq _ := keeps_of_eq he (by simp (maxDischargeDepth := 12) [h]); simp_all (maxDischargeDepth := 12) +contextual [foldl_keeps, foldl_keeps_fst])

end Sys2Proof.Machine
end

