-- ==== Sys2Proof/Laws/Slots.lean ====
section
/-! SUPPORT. What writing a slot and ending a command leave in it (R320 to R323). -/

namespace Sys2Proof.Machine

theorem leBytes_length (n v : Nat) : (leBytes n v).length = n := by
  induction n generalizing v with
  | zero => rfl
  | succ n ih => simp [leBytes, ih]

theorem leNat_leBytes (n v : Nat) : leNat (leBytes n v) = v % 256 ^ n := by
  induction n generalizing v with
  | zero => simp [leBytes, leNat, Nat.mod_one]
  | succ n ih =>
    simp only [leBytes, leNat, ih, BitVec.toNat_ofNat]
    rw [show (256 : Nat) ^ (n + 1) = 256 * 256 ^ n from by rw [pow_succ, mul_comm], Nat.mod_mul]

theorem Slot.byte_put (x : Slot) (i : Nat) (b : Byte) (j : Nat) : (x.put i b).byte j = if j = i then b else x.byte j := by
  unfold Slot.put
  by_cases h : x.openFrom ≤ i
  · simp only [h, if_true]
    by_cases hj : j = i
    · subst hj
      by_cases hc : j ∈ x.defined
      · simp [Slot.byte, hc, Tab.get_set]
      · simp [Slot.byte, hc, Tab.get_set]
    · by_cases hc : i ∈ x.defined
      · simp [Slot.byte, hj, hc, Tab.get_set]
      · simp [Slot.byte, hj, hc, Tab.get_set]
  · simp only [h, if_false]
    by_cases hj : j = i
    · subst hj
      simp [Slot.byte, h, Tab.get_set]
    · simp [Slot.byte, hj, Tab.get_set]

@[simp] theorem Slot.put_state (x : Slot) (i : Nat) (b : Byte) : (x.put i b).state = x.state := by unfold Slot.put; split <;> rfl
@[simp] theorem Slot.put_openFrom (x : Slot) (i : Nat) (b : Byte) : (x.put i b).openFrom = x.openFrom := by unfold Slot.put; split <;> rfl

@[simp] theorem Slot.putRun_state (x : Slot) (off : Nat) (l : List Byte) : (x.putRun off l).state = x.state := by
  induction l generalizing x off with
  | nil => rfl
  | cons b t ih => simp only [Slot.putRun, ih]; split <;> simp

@[simp] theorem Slot.putRun_openFrom (x : Slot) (off : Nat) (l : List Byte) : (x.putRun off l).openFrom = x.openFrom := by
  induction l generalizing x off with
  | nil => rfl
  | cons b t ih => simp only [Slot.putRun, ih]; split <;> simp

/-- A byte of a slot after a run is written to it. -/
theorem Slot.byte_putRun (x : Slot) (off : Nat) (l : List Byte) (j : Nat) :
    (x.putRun off l).byte j = if off ≤ j ∧ j < off + l.length ∧ j < 512 then l.getD (j - off) 0 else x.byte j := by
  induction l generalizing x off with
  | nil => simp [Slot.putRun]; omega
  | cons b t ih =>
    simp only [Slot.putRun, ih, List.length_cons]
    by_cases hj : off = j
    · subst hj
      by_cases h5 : off < 512
      · simp [h5, Slot.byte_put]
      · simp [h5]
    · have hj' : ¬ j = off := fun e => hj e.symm
      by_cases h5 : off < 512
      · simp only [h5, if_true, Slot.byte_put, hj', if_false]
        by_cases h6 : off + 1 ≤ j ∧ j < off + 1 + t.length ∧ j < 512
        · rw [if_pos h6, if_pos (by omega)]
          have : j - off = (j - (off + 1)) + 1 := by omega
          rw [this, List.getD_cons_succ]
        · rw [if_neg h6, if_neg (by omega)]
      · simp only [h5, if_false]
        rw [if_neg (by omega), if_neg (by omega)]

/-- A byte of a slot at the end of a command, up to the end of the response. -/
theorem Slot.byte_finish (x : Slot) (base status progress total : Nat) (resp : List Byte) (h : resp.length ≤ 480) (i : Nat)
    (hi : i < 32 + resp.length) :
    (x.finish base status progress total resp).byte i =
      if i = 16 then BitVec.ofNat 8 status else if i = 17 then x.byte 2
      else if 18 ≤ i ∧ i < 20 then (leBytes 2 resp.length).getD (i - 18) 0
      else if 20 ≤ i ∧ i < 24 then (leBytes 4 progress).getD (i - 20) 0
      else if 24 ≤ i ∧ i < 28 then (leBytes 4 total).getD (i - 24) 0
      else if 32 ≤ i then resp.getD (i - 32) 0 else x.byte i := by
  let y := { x with openFrom := 512, defined := [] }
  let w := ((((y.putRun 32 resp).putRun 18 (leBytes 2 resp.length)).putRun 17 [x.byte 2]).putRun 20 (leBytes 4 progress)).putRun 24
    (leBytes 4 total)
  have e1 : (x.finish base status progress total resp).byte i = (w.putRun 16 (leBytes 1 status)).byte i := by
    have ho : (w.putRun 16 (leBytes 1 status)).openFrom = 512 := by simp [w, y]
    have h5 : i < 512 := by omega
    have c1 : ∀ z : Slot, z.openFrom = 512 → z.byte i = Tab.get 0 z.bytes i := fun z hz => by
      unfold Slot.byte
      rw [if_neg (by rw [hz]; simp; omega)]
    have c2 : ∀ z : Slot, ({ z with state := .done, openFrom := 32 + resp.length, openBase := base } : Slot).byte i = Tab.get 0 z.bytes i :=
      fun z => by
        unfold Slot.byte
        rw [if_neg (by simp; omega)]
    rw [c1 _ ho]
    exact c2 _
  have e2 : i < 32 → y.byte i = x.byte i := by
    intro h2
    unfold Slot.byte
    rw [if_neg (by simp; omega), if_neg (by simp; omega)]
  rw [e1]
  simp only [w, Slot.byte_putRun, leBytes_length, List.length_cons, List.length_nil]
  have h5 : i < 512 := by omega
  rcases Nat.lt_or_ge i 32 with h2 | h2
  · rw [e2 h2]
    by_cases a : i = 16
    · subst a; simp [leBytes]
    by_cases b : i = 17
    · subst b; simp
    split_ifs <;> first | rfl | (exfalso; omega)
  · split_ifs <;> first | rfl | (exfalso; omega)

@[simp] theorem Slot.finish_state (x : Slot) (base status progress total : Nat) (resp : List Byte) :
    (x.finish base status progress total resp).state = .done := rfl

end Sys2Proof.Machine
end

