-- ==== Sys2Proof/Tests/Scenes.lean ====
section
/-! SUPPORT. Small states that the tests and the witnesses share: a READY module, and one change at a time to it. -/

namespace Sys2Proof.Tests

open Sys2Proof.Machine

/-- A READY module two seconds after reset, its VFs enabled, its cold image read. -/
def ready : State :=
  { State.reset with
    now := 2000000000
    nvm := { State.reset.nvm with image := fusesFirst }
    boot := { state := .ready, firmwareRunning := true, locked := true, stageDone := true }
    board := { pcieUp := true, vfEnable := true } }

/-- A module in another device state. -/
def inState (d : DevState) (s : State) : State := { s with boot := { s.boot with state := d } }

/-- A request of opcode `op` whose body begins with `body`, in the bytes of a slot. -/
def slotBytes (op : Nat) (body : List Byte) : Tab Byte :=
  (leBytes 2 op ++ [0, 0] ++ leBytes 2 body.length).zipIdx.map (fun (b, i) => (i, b)) ++ body.zipIdx.map (fun (b, i) => (32 + i, b))

/-- Slot `k` of function `f` in a state, with a request. -/
def withSlot (f k : Nat) (st : SlotState) (op : Nat) (body : List Byte) (s : State) : State :=
  s.setSlot f k { state := st, bytes := slotBytes op body }

/-- Slot `k` of function `f` runs a command. -/
def running (f k op : Nat) (body : List Byte) (s : State) : State := withSlot f k .running op body s

/-- A partition of two rooms with every field at its first value. -/
def part2 : Part := { phase := .live, rooms := [0, 1], shares := [8, 8, 4] }

/-- The module with partition 0 on rooms 0 and 1. -/
def tenant : State := ready.setPart 0 part2

/-- Another partition 0. -/
def asPart (x : Part) (s : State) : State := s.setPart 0 x

/-- Another room 0. -/
def asRoom (x : Room) (s : State) : State := s.setRoom 0 x

/-- Another stack 0. -/
def asStack (x : Stack) (s : State) : State := s.setStack 0 x

/-- Another function `f`. -/
def asFn (f : Nat) (x : Fn) (s : State) : State := s.setFn f x

/-- Bytes of the cellar of the stacks of rooms 0 and 1, from an offset. -/
def withCellar (off : Nat) (l : List Byte) (s : State) : State :=
  { s with mem := { s.mem with cellar := Mem.write (Mem.write s.mem.cellar off l) (cellarKey 1 off) l } }

/-- A 128-byte header line: its fields, zeros, and the CRC-32C. -/
def header (l : List Byte) : List Byte :=
  let h := l ++ List.replicate (124 - l.length) 0
  h ++ leBytes 4 (crc32c h)

/-- Moduli of the prime table. -/
def primes (first count : Nat) : List Modulus := (acceptAll (primeTableBytes first count) count).getD []

/-- A key set of three chain primes and two special primes over the ring of 4,096 coefficients. -/
def keys3 : KeySet :=
  { logN := 12, coeffPack := false, lweDim := 512, t := 0, omega := 0, chain := primes 0 3, checkP := none, special := primes 3 2, lweP := (primes 5 1)[0]? }

/-- The descriptor of `keys3`. -/
def keys3Desc : List Byte := header (leBytes 4 0x6E3B29C4 ++ [1, 12, 3, 2, 0, 0] ++ leBytes 2 512) ++ primeTableBytes 0 6

/-- The partition with key set 5 registered. -/
def keyed : Part := { part2 with keysets := [(5, some keys3)] }

/-- The header of a relinearisation key of key set 5 at index 9, with an epoch. -/
def keyHeader (epoch : Nat) : List Byte :=
  header (leBytes 4 0x6B457C21 ++ [1, 0, 12, 0, 3, 1, 3, 2] ++ leBytes 2 5 ++ leBytes 2 9 ++ leBytes 4 0 ++ leBytes 4 epoch ++ List.replicate 32 0 ++
    leBytes 8 (3 * 3 * 16384))

/-- A registered relinearisation key of key set 5 at index 9. -/
def key9 (epoch : Nat) : KeyHdr := keyHdrOf (keyHeader epoch) 0x10000

/-- The header of a look-up key of key set 5 at index 15, with an epoch. -/
def lutHeader (epoch : Nat) : List Byte :=
  header (leBytes 4 0x4C759B03 ++ [1, 15, 10, 1] ++ leBytes 2 512 ++ [1, 8, 1, 8] ++ leBytes 2 5 ++ leBytes 4 epoch ++ leBytes 4 0 ++
    List.replicate 32 0 ++ leBytes 8 (12 * 512 * 1024 + 4 * 1024))

/-- A registered look-up key of key set 5 at index 15. -/
def lut15 (epoch : Nat) : LutHdr := lutHdrOf (lutHeader epoch) 0x20000

/-- A program container for two rooms or more, without plans. -/
def container : List Byte :=
  header (leBytes 4 0x52A70C5E ++ [1, 1] ++ leBytes 2 1 ++ [2, 64] ++ leBytes 2 0 ++ leBytes 4 0x100000 ++ leBytes 4 0x80000 ++ leBytes 4 0x80000 ++
    leBytes 8 0x200 ++ leBytes 8 0 ++ leBytes 8 0x80 ++ leBytes 8 0x80) ++
    (List.range 15).flatMap (fun i => leBytes 4 (2 + i) ++ leBytes 4 0x100000 ++ leBytes 8 0)

/-- A program of no blocks, loaded. -/
def program : Program :=
  { home := 0, minRooms := 2, tokens := 64, plans := [], atticReserve := 0x100000, keyWindowBase := 0x80000, keyWindowBytes := 0x80000, bodyOff := 0x200
    bodyBytes := 0, blocks := 0, res := [], digest := [] }

/-- A host buffer of 1 MiB that the module may read and write. -/
def buffer : HostBuf := { addr := 0x10000, bytes := 0x100000, canWrite := true, canRead := true }

/-- Function 1 with host buffer 1. -/
def withBuffer (s : State) : State := s.setFn 1 { s.fn 1 with hostBufs := [(1, some buffer)] }

/-- A READY module without partitions whose SM_TEST breaks rooms. -/
def testing : State := inState .test tenant

/-- The body of a SECURITY_OP: its operation, entry 3, host buffer 1, the input at 0 and the output at 8,192, and its parameters. -/
def secBody (op inBytes : Nat) (params : List Byte) : List Byte :=
  leBytes 2 op ++ leBytes 2 3 ++ leBytes 4 1 ++ leBytes 8 0 ++ leBytes 8 inBytes ++ leBytes 8 8192 ++ params

/-- Function 1 runs a security operation, its partition holding entry 3. -/
def secScene (op inBytes : Nat) (e : Option CupEntry) (params : List Byte) : State :=
  let s := running 1 0 0x0701 (secBody op inBytes params) (withBuffer (asPart { part2 with quota := 16 } ready))
  { s with sec := { s.sec with entries := [(cupKey 0 3, e)], microcode := [15] }, power := { s.power with domains := [(118, .on)] } }

/-- What `SecReady` asks, field by field. -/
def secChecks (s : State) (f : FnId) (k : SlotId) (op : Nat) (r : SecRow) : List Bool :=
  [f.val != 0, secRow op == some r, ((s.fn f).slot k).state == .running, isSec op (s.cmd f k), !s.sec.retired, !r.own || !s.secBehind f k,
    s.domain 118 == .on, checkSecurity s f k (s.cmd f k) == 0, !r.drbg || s.sec.drbg == .running,
    (s.secEntry (f.val - 1) r (s.cmd f k)).all (fun e => e.tagOk || op == 0x0062), decide (s.sec.upsets < 2)]

/-- Each of several checks that all hold. -/
theorem check_at {l : List Bool} (h : l.all id = true) (i : Nat) : l.getD i true = true := by
  induction l generalizing i with
  | nil => rfl
  | cons a t ih =>
    rw [List.all_cons, Bool.and_eq_true] at h
    cases i with
    | zero => exact h.1
    | succ j => simpa using ih h.2 j

/-- A state that passes them is ready. -/
theorem secReady_of {s : State} {f : FnId} {k : SlotId} {op : Nat} {r : SecRow} (h : (secChecks s f k op r).all id = true) : s.SecReady f k op r where
  vf := by simpa [secChecks] using check_at h 0
  row := by simpa [secChecks] using check_at h 1
  running := by simpa [secChecks] using check_at h 2
  request := check_at h 3
  engine := by simpa [secChecks] using check_at h 4
  first own := by simpa [secChecks, own] using check_at h 5
  domain := by simpa [secChecks] using check_at h 6
  checks := by simpa [secChecks] using check_at h 7
  random drbg := by simpa [secChecks, drbg] using check_at h 8
  tag e he := by simpa [secChecks, he] using check_at h 9
  parity := by simpa [secChecks] using check_at h 10

/-- Bytes of the attics of rooms 0 and 1, from an offset. -/
def withAttic (off : Nat) (l : List Byte) (s : State) : State :=
  { s with mem := { s.mem with attic := Mem.write (Mem.write s.mem.attic off l) (atticKey 1 off) l } }

/-- A statement about two bounded numbers, the bounds said first. -/
theorem two_bounds {P : Nat → Nat → Prop} {n m : Nat} (h : ∀ i, i < n → ∀ j, j < m → P i j) : ∀ i j, i < n → j < m → P i j :=
  fun i j hi hj => h i hi j hj

/-- The label of a ciphertext under key set 5 in two rooms. -/
def cipherLabel : Label :=
  ({ form := 0, logN := 12, check := false, poison := false, repr := true, limbs := 3, level := 2, polys := 2, layout := 0, home := 0, keyset := 5, cause := 0
     scale := 20000, noise := 5000, producer := 0, info := 11 :: List.replicate 15 0, bodyBytes := 0 } : Label).sized 2

/-- A Galois key of key set 5 at index 9. -/
def galoisKey : KeyHdr := { key9 7 with kind := 1, rot := 1 }

/-- The partition with an active key set 5 and the Galois key at index 9. -/
def ciphering : Part := { part2 with keysets := [(5, some { keys3 with active := true })], keys := [(9, { cur := some galoisKey })] }

/-- An index entry of that key. -/
def galoisEntry : KeyEntry := { rot := 1, keyset := 5, kind := 1, level := 2, hoist := true, key := some (9, 7), tiles := 0 }

/-- Two ciphertexts at 0x1000 and 0x2000 of both rooms, an entry of the Galois key in each room. -/
def cipher : State :=
  ((withAttic 0x2000 cipherLabel.bytes (withAttic 0x1000 cipherLabel.bytes (asPart ciphering ready))).setRoom 0 { keyEntries := [galoisEntry] }).setRoom 1
    { keyEntries := [galoisEntry] }

/-- No entry waits for its first tile, as a Bool. -/
theorem tiles_of {s : State} {p : Nat} (h : (s.opRooms p).all (fun r => !(s.room r).keyEntries.any KeyEntry.starved) = true) : s.tilesThere p :=
  fun r hr => by simpa using List.all_eq_true.mp h r hr

/-- A place in the attic. -/
def att (off : Nat) : Place := { cellar := false, off := off }

/-- The fault history holds three events of a channel, now. -/
def knows (c : FaultChan) (kind : Nat) (s : State) : State :=
  { s with gysis := { s.gysis with hist := List.replicate 3 { chan := c, time := s.now, kind := kind } } }

/-- A block in its first execution, at a checkpoint of nothing. -/
def block0 : Block := { checkpoint := {} }

/-- Room 0 with a block in progress. -/
def inBlock (b : Block) (s : State) : State := s.setRoom 0 { s.room 0 with block := some b }

/-- A running job of program 1. -/
def job1 : Job :=
  { entryOff := 0x2000, program := 1, jobId := 77, argBase := 0, ringBase := 0x10000, ringLog2 := 6, irq := true, stop := false, vector := 31, stopBlock := 0
    startBlocks := [], failed := none, cause := 0 }

/-- The reference clocks drive the domains that background work needs, and the attic of room 0 is powered. -/
def clocked (s : State) : State :=
  { s with
    clocks := { s.clocks with doms := [(0, { source := 0 }), (1, { source := 0 }), (2, { source := 0 }), (3, { source := 0 })] }
    power := { s.power with domains := [(5, .on)] } }

/-- Port `n` in a state of its own. -/
def asPort (n : Nat) (x : Port) (s : State) : State := s.setPort n x

/-- The links released and clocked. -/
def linksUp (s : State) : State :=
  { s with links := { s.links with released := true }, clocks := { s.clocks with doms := [(1, { source := 0 })] } }

/-- A routing table of two modules: this one is 0, module 1 lies behind port 3. -/
def pairTable : RouteTable :=
  { module := 0, modules := 2, timeRoot := 0, dateline := 0, portDim := 0, systemId := 0, routes := [(1, some { primary := 8, alternate := 0 })] }

/-- The tenant in that system, port 3 ACTIVE, every port allowed to the partition. -/
def routed : State :=
  let s := asPort 3 { state := .active } (linksUp (asPart { part2 with portMask := 0x3FFFFFFF } ready))
  { s with links := { s.links with route := some pairTable, bootId := some 1 } }

/-- A context of two lines for the cellar of room 1, sent at a time. -/
def ctxAt (t : Nat) : Ctx :=
  { dstModule := 0, dstPart := 0, dstRoom := 1, space := 3, base := 0x100, pitch := 128, blkLines := 1, flagged := false, flag := 0, masked := false, hops := 3
    srcModule := 1, srcRoom := 0, srcChan := 0, ackId := 1, lines := 2, block := 1, bootId := 1, originTime := t, firstMask := 0, lastMask := 0 }

/-- The state in which port 3 receives a context under number 5 on channel 2. -/
def receiving (e : RxCtx) : State := { routed with links := { routed.links with rx := [e] } }

/-- A context just received. -/
def rx0 : RxCtx := { ctx := ctxAt 1999000000, port := 3, ctxNo := 5, vc := 2 }

/-- Answers in two parts that hold a value, put together again. -/
theorem answer_some {α β : Type} (r : α × Option β) {b : β} (h : r.2 = some b) : r = (r.1, some b) := by
  obtain ⟨a, o⟩ := r
  exact congrArg _ h

/-- Answers in three parts that report OK, put together again. -/
theorem answer_ok {α β : Type} (r : α × Nat × Option β) (d : β) (h : r.2.1 = 0) (g : r.2.2.isSome = true) : r = (r.1, 0, some (r.2.2.getD d)) := by
  obtain ⟨a, n, o⟩ := r
  cases o with
  | none => exact absurd g (by simp)
  | some b => simp at h; simp [h]

end Sys2Proof.Tests
end

