-- ==== Sys2Proof/Tests/Slice0.lean ====
section
/-! SUPPORT. The model's own tests: ill-formed commands that Instr.wf refuses, the words of the table, the step, and the worked examples of the spec,
whose expected values stand in the spec. -/

namespace Sys2Proof.Tests

open Sys2Proof.Machine

set_option maxRecDepth 20000
set_option Elab.async false

/-! ## Commands that are not well formed: one for each kind of check, beside its greatest operand that passes -/

/-- A slot holds 512 bytes (R323). -/
theorem test_wf_slot_bytes : (Instr.slotByteWrite 0 0 510 [1, 2]).wf = true ∧ (Instr.slotByteWrite 0 0 511 [1, 2]).wf = false := by decide

/-- A register access is 1, 2, 4 or 8 bytes, aligned, inside the 64 KiB of BAR0 (R12, R15). -/
theorem test_wf_register : (Instr.registerWrite 0 0x7FF8 8 0).wf = true ∧ (Instr.registerWrite 0 0x10 3 0).wf = false ∧
    (Instr.registerWrite 0 0xFFFC 4 0).wf = true ∧
    (Instr.registerWrite 0 0x12 4 0).wf = false ∧ (Instr.registerWrite 0 0x10000 4 0).wf = false := by decide

/-- A read of a low half is 4 bytes, aligned, and one of the whole register 8 (R17). -/
theorem test_wf_low_half : (Instr.lowHalfRead 0 ⟨0xFFFC, 4⟩).wf = true ∧ (Instr.lowHalfRead 0 ⟨0xFFF8, 8⟩).wf = true ∧ (Instr.lowHalfRead 0 ⟨2, 4⟩).wf = false ∧
    (Instr.lowHalfRead 0 ⟨4, 8⟩).wf = false ∧ (Instr.lowHalfRead 0 ⟨0, 3⟩).wf = false ∧ (Instr.lowHalfRead 0 ⟨0x10000, 4⟩).wf = false := by decide

/-- BAR2 is 16 GiB (R540); a write has one enable per byte. -/
theorem test_wf_bar2 : (Instr.bar2Read 0 (2 ^ 34 - 1) 1 false).wf = true ∧ (Instr.bar2Read 0 (2 ^ 34) 1 false).wf = false ∧
    (Instr.bar2Write 0 (2 ^ 34 - 1) [7] [true]).wf = true ∧ (Instr.bar2Write 0 (2 ^ 34) [7] [true]).wf = false ∧
    (Instr.bar2Write 0 0 [7, 8] [true]).wf = false := by decide

/-- The vector table has 512 bytes, the key table 4,096 entries and the look-up key table 16 (R355, R122, R147). -/
theorem test_wf_tables : (Instr.msixTableWrite 0 508 [0, 0, 0, 1]).wf = true ∧ (Instr.msixTableWrite 0 512 [1]).wf = false ∧
    (Instr.keyReleaseComplete 0 false 4095).wf = true ∧ (Instr.keyReleaseComplete 0 false 4096).wf = false ∧
    (Instr.keyReleaseComplete 0 true 15).wf = true ∧ (Instr.keyReleaseComplete 0 true 16).wf = false := by decide

/-- Places have 36-bit offsets; a chain has 60 primes; the destinations of a hoisted rotation match its codes (R298, R61). -/
theorem test_wf_operations : (Instr.levelDrop 0 (att 0) (att (2 ^ 36 - 1)) 59).wf = true ∧ (Instr.levelDrop 0 (att 0) (att (2 ^ 36)) 1).wf = false ∧
    (Instr.levelDrop 0 (att 0) (att 0) 60).wf = false ∧ (Instr.hoistedRotate 0 [att 0] (att 0) [1, 2]).wf = false ∧
    (Instr.keySwitch 0 (att 0) (att 0) 3 0).wf = false ∧ (Instr.pin 0 4112 0).wf = false ∧ (Instr.extract 0 (att 0) (att 0) [2 ^ 17]).wf = false ∧
    (Instr.lookUp 0 [att 0] (att 0) 16 [att 0]).wf = false ∧ (Instr.lookUp 0 [] (att 0) 3 [att 0]).wf = false := by decide

/-- A descriptor that copies. -/
def desc0 : Desc :=
  { op := 0, flags := 0, srcSpace := 1, dstSpace := 1, srcRoom := 0, dstRoom := 0, dstModule := 0, srcBase := 0, dstBase := 0, blkLines := 1, hostBuf := 0
    blkRows := 1, srcPitch := 128, dstPitch := 128, idxBase := 0, idxSpace := 0, idxForm := 0, token := 0, idxCount := 0, rowStride := 0, colStride := 0
    fillWord := 0 }

/-- A descriptor's operation is its row's, and its fields fit (R247). -/
theorem test_wf_descriptor : (Instr.copy 0 0 desc0 []).wf = true ∧ (Instr.gather 0 0 desc0 []).wf = false ∧
    (Instr.copy 0 0 { desc0 with blkLines := 2 ^ 16 } []).wf = false ∧ (Instr.staleResponse 0 8191).wf = true ∧
    (Instr.staleResponse 0 8192).wf = false := by decide

/-- Stacks, attic layers and rails have the parts the spec gives them. -/
theorem test_wf_parts : (Instr.rowRemap 0 2 65 16415).wf = true ∧ (Instr.rowRemap 0 2 66 0).wf = false ∧ (Instr.cellarRefresh 0 63 47 false).wf = true ∧
    (Instr.cellarRefresh 0 64 0 false).wf = false ∧ (Instr.rowRepair 0 63 2 15 16383).wf = true ∧ (Instr.rowRepair 0 0 3 0 0).wf = false ∧
    (Instr.sweepRewrite 0 (2 ^ 29)).wf = false ∧ (Instr.seqFault 12).wf = true ∧ (Instr.seqFault 13).wf = false ∧ (Instr.powerUp [0]).wf = false ∧
    (Instr.fuseRead [(2048, 0, 0, 0)]).wf = false ∧ (Instr.training [16]).wf = false := by decide

/-- A codeword has 448 symbols, a data flit one line, an acknowledgement 1 to 14 entries of its widths (R413, R409, R411). -/
theorem test_wf_flits : (Instr.codewordReceive 0 (List.replicate 447 0)).wf = false ∧ (Instr.dataFlit 0 0 0 255 (List.replicate 128 0)).wf = true ∧
    (Instr.dataFlit 0 0 0 256 (List.replicate 128 0)).wf = false ∧ (Instr.dataFlit 0 0 0 0 [1]).wf = false ∧
    (Instr.ackFlit 0 0 0 511 [{ srcRoom := 15, srcChan := 15, ackId := 65535, lines := 511 }]).wf = true ∧
    (Instr.ackFlit 0 0 0 511 [{ srcRoom := 16, srcChan := 0, ackId := 0, lines := 0 }]).wf = false ∧ (Instr.ackFlit 0 0 0 511 []).wf = false ∧
    (Instr.contextFlit 0 0 0 { ctxAt 0 with dstModule := 512 }).wf = false ∧ (Instr.heartbeat 0 9 0).wf = false := by decide

/-! ## Words and steps -/

/-- No row of the table has bits, so no word spells a command. -/
theorem test_decode_none : Sys2Proof.decodeTableWord 32 0xFFFFFFFF = none ∧ State.withFetchWord ready 32 0xFFFFFFFF = ready := ⟨rfl, rfl⟩

/-- The front command runs with the rest of the queue; an empty queue is a period of REFCLK. -/
theorem test_step : step { ready with pending := [.smbusSelect 7, .telemetryTick] } =
      .next { ready with pending := [.telemetryTick], board := { ready.board with selected := 7 } } ∧
    step ready = .next { ready with now := 2000000010 } := ⟨rfl, rfl⟩

/-- Reset: POWERON, with nothing in memory and no command waiting (R499, R498). -/
theorem test_reset : State.reset.boot.state = .powerOn ∧ State.reset.mem = {} ∧ State.reset.pending = [] ∧ State.reset.power.cap = 2000 := by decide +kernel

/-! ## Worked examples of the spec -/

/-- The ladder prime of 02, "Worked example". -/
def prime0 : Modulus := { p := 998244353, a := 30, b := 26, c := 23, s1 := -1, s2 := -1, root := 2192 }

/-- 02, "Worked example": the reduction of 15, its two steps, and the multiply-add. -/
theorem test_lane_product : ladderStep prime0 15 = 998242568 ∧ ladderStep prime0 998242568 = 212415 ∧ laneMul prime0 3 5 = 212415 ∧
    laneAdd prime0 (laneMul prime0 3 5) 998044353 = 12415 ∧ (modulusOf 0x3B800001 0xF5F5E 2192).isSome = true := by decide +kernel

/-- 05, R123's example of a counter block. -/
theorem test_key_counter :
    keyCounter { key9 7 with index := 0x0123, keyset := 0x0042, logN := 16 } 5 48 2 =
      [0x05, 0x00, 0x00, 0x00, 0x30, 0x02, 0x23, 0x01, 0x07, 0x00, 0x00, 0x00, 0x42, 0x00, 0x10, 0xA5] := by decide +kernel

/-- 03, "Worked example: placing and fitting a ciphertext". -/
def placed : Label :=
  { form := 0, logN := 16, check := true, poison := false, repr := true, limbs := 44, level := 43, polys := 2, layout := 0, home := 0, keyset := 5, cause := 0
    scale := 10240, noise := 5120, producer := 0, info := List.replicate 16 0, bodyBytes := 0 }

/-- Its body and its check limb; after 23 rescales and a compaction. -/
theorem test_placement : placed.body 16 = 1572864 ∧ placed.pairRoom 16 44 = 12 ∧ ({ placed with limbs := 21, level := 20 } : Label).body 16 = 1048576 ∧
    ({ placed with level := 20 } : Label).inUse = List.range 21 ++ [44] ∧ ({ placed with limbs := 21, level := 20 } : Label).pairRoom 16 21 = 5 := by
  decide +kernel

/-- 04, R97's example: the point index of row 1, column 0 and of row 0, column 1 at N = 2^12. -/
theorem test_point_index : brv 6 1 + 64 * brv 6 0 = 32 ∧ brv 6 0 + 64 * brv 6 1 = 2048 := by decide

/-- 04, "Worked example: coefficient automorphism". -/
theorem test_automorphism : galois 3 1 = 5 ∧ autoCoeff 17 3 5 [1, 2, 3, 4, 5, 6, 7, 8] = [1, 11, 14, 8, 5, 2, 10, 13] := by decide +kernel

/-- 09, "Worked example: one line and its neighbours": stack ID 1, pseudo-channel 45, bank 7, row 291, line 2 of the row; the line 8 KiB on is line 3. -/
theorem test_cellar_line : (rowLines { pc := 45, sid := 1, bank := 7, row := 291 }).getD 2 0 = 0x412345680 / 128 ∧
    (rowLines { pc := 45, sid := 1, bank := 7, row := 291 }).getD 3 0 = (0x412345680 + 8192) / 128 := by decide

/-- 14, "Worked example: two sources in one cycle". -/
def twoSources : State :=
  { ready with gysis := { ready.gysis with
    intc := { sources := [(33, { pending := true, enabled := true, targets := 0xC }), (161, { pending := true, enabled := true, targets := 0x6 })] }
    cores := [(1, { running := 240, mie := true }), (2, { running := 130, handling := some 130, mie := true }), (3, { running := 100, mie := true })] } }

/-- Core 3 takes source 33 and core 1 takes source 161. -/
theorem test_two_sources : (match execInterruptDelivery twoSources with
    | .next t => some ((t.core 3).handling, (t.core 1).handling, (t.core 2).handling)
    | _ => none) = some (some 33, some 161, some 130) := by decide +kernel

/-- 20, "Worked example: lowering the cap": sixteen rooms at step 8, 1,900 W measured, 92.5 W in each room, 20 W idle, CAP 1,600 W. -/
def capped : State :=
  let s := asPart { part2 with rooms := List.range 16, grant := 1480000 } ready
  { s with
    clocks := { s.clocks with doms := [(0, { source := 0 })] }
    power := { s.power with cap := 1600, baseGrant := 441000, idlePower := (List.range 16).map (fun r => (r, 20000)) } }

/-- The base grant is 441 W, firmware chooses step 5, and the rooms are granted 1,045 W, each rounded up to a milliwatt. -/
theorem test_cap_loop : (match execCapLoopTick 1900000 (List.replicate 16 92500) capped with
    | .next t => some (t.power.baseGrant, (t.part 0).step, (t.part 0).grant / 1000)
    | _ => none) = some (441000, 5, 1045) := by decide +kernel

/-- 16, "Worked example: a four-room tenant". -/
def fourRooms : State := running 0 0 0x0101 ([2, 0, 10, 6, 4, 0] ++ leBytes 2 0x0F00 ++ leBytes 4 0x7C00 ++ leBytes 2 0x0100)
  { ready with rooms := [8, 9, 10, 11].map (fun r => (r, { clean := true })) }

/-- P2 holds rooms 8 to 11 with its shares and ports. -/
theorem test_four_rooms : (match execPartitionCreate 0 0 fourRooms with
    | .next t => some ((t.part 2).phase, (t.part 2).rooms, (t.part 2).shares, (t.part 2).portMask, (t.part 2).quota)
    | _ => none) = some (.live, [8, 9, 10, 11], [10, 6, 4], 0x7C00, 256) := by decide +kernel

end Sys2Proof.Tests
end

