-- ==== Sys2Proof/Tests/Witnesses01.lean ====
section
/-! SUPPORT. Witnesses: states and operands that meet the hypotheses of the obligations, part 1. -/

namespace Sys2Proof.Tests

open Sys2Proof.Machine

set_option maxRecDepth 20000
set_option Elab.async false

/-- The hypotheses of `Obligations.StepRunsFrontCommand` can be met, clause by clause. -/
theorem witness_StepRunsFrontCommand :
    (∃ (c : Instr) (rest : List Instr) (s : State), s.pending = c :: rest) ∧
    (∃ (s : State), s.pending = [] ∧ ((∀ r, r < 16 → s.blockCounts r = false ∧ (s.stack r).pcCopy = none))) :=
  ⟨⟨.post 0 1, [.release 0 1], { ready with pending := [.post 0 1, .release 0 1] }, by decide +kernel⟩,
    ⟨ready, by decide +kernel⟩⟩

/-- The hypotheses of `Obligations.MemoryStaysCanonical` can be met, clause by clause. -/
theorem witness_MemoryStaysCanonical :
    ∃ (s : State) (t : State), s.memOk = true ∧ step s = .next t :=
  ⟨{ ready with pending := [.slotByteWrite 0 0 32 [7]] }, (ready.setSlot 0 0 { bytes := [(32, 7)] }), by decide +kernel, rfl⟩

/-- The hypotheses of `Obligations.PostPostsFreeSlots` can be met, clause by clause. -/
theorem witness_PostPostsFreeSlots :
    ∃ (s : State) (f : FnId), s.fnPresent f = true :=
  ⟨withSlot 0 7 .free 0x0001 [] ready, 0, by decide +kernel⟩

/-- The hypotheses of `Obligations.ReleaseFreesDoneSlots` can be met, clause by clause. -/
theorem witness_ReleaseFreesDoneSlots :
    ∃ (s : State) (f : FnId), s.fnPresent f = true :=
  ⟨withSlot 16 7 .done 0x0001 [] ready, 16, by decide +kernel⟩

/-- The hypotheses of `Obligations.SlotWriteStoresBytes` can be met, clause by clause. -/
theorem witness_SlotWriteStoresBytes :
    (∃ (s : State) (f : FnId) (k : SlotId) (off : Nat) (data : List Byte), s.fnPresent f = true ∧ ((s.fn f).slot k).state = .free ∧ off + data.length ≤ 512) ∧
    (∃ (s : State) (f : FnId) (k : SlotId), s.fnPresent f = true ∧ ((s.fn f).slot k).state ≠ .free) ∧
    (∃ (s : State) (f : FnId) (k : SlotId), s.fnPresent f = true ∧ ((s.fn f).slot k).state ≠ .done) :=
  ⟨⟨ready, 16, 7, 508, [1, 2, 3, 4], by decide +kernel⟩,
    ⟨withSlot 1 7 .posted 0x0001 [] ready, 1, 7, by decide +kernel⟩,
    ⟨running 1 0 0x0001 [] ready, 1, 0, by decide +kernel⟩⟩

/-- The hypotheses of `Obligations.SlotTakeRunsOrEnds` can be met, clause by clause. -/
theorem witness_SlotTakeRunsOrEnds :
    (∃ (s : State) (f : FnId) (k : SlotId), s.nextFn = some f.val ∧ s.oldestPosted f = some k.val ∧ s.takeWaits f k = false ∧ s.takeStatus f k = stOk) ∧
    (∃ (s : State) (f : FnId) (k : SlotId), s.nextFn = some f.val ∧ s.oldestPosted f = some k.val ∧ s.takeWaits f k = false ∧ s.takeStatus f k ≠ stOk) ∧
    (∃ (s : State) (f : FnId) (k : SlotId), s.takeWaits f k = true) :=
  ⟨⟨withSlot 16 3 .posted 0x0001 [] ready, 16, 3, by decide +kernel⟩,
    ⟨withSlot 16 3 .posted 0x0FFF [] ready, 16, 3, by decide +kernel⟩,
    ⟨withSlot 1 3 .posted 0x0301 [] (asStack { level := 4 } tenant), 1, 3, by decide +kernel⟩⟩

/-- The hypotheses of `Obligations.EndOfCommandWritesTheSlot` can be met, clause by clause. -/
theorem witness_EndOfCommandWritesTheSlot :
    ∃ (f : Nat) (k : Nat) (resp : List Byte) (i : _) (j : _) (g : _), resp.length ≤ 480 ∧ i < 16 ∧ j ≠ k ∧ g ≠ f :=
  ⟨3, 7, List.replicate 480 5, 15, 6, 2, by decide +kernel⟩

/-- The hypotheses of `Obligations.EventVectorIsRaisedOnNewCauses` can be met, clause by clause. -/
theorem witness_EventVectorIsRaisedOnNewCauses :
    (∃ (s : State) (f : Nat) (k : Nat), k < 3 ∧ (s.fn f).intStatus.getLsbD k = true) ∧
    (∃ (s : State) (f : Nat) (k : Nat), k < 3 ∧ (s.fn f).intStatus.getLsbD k = false) ∧
    (∃ (s : State) (f : FnId), s.fnPresent f = true) :=
  ⟨⟨asFn 4 { intStatus := 4 } ready, 4, 2, by decide +kernel⟩,
    ⟨asFn 4 { intStatus := 3, intMask := 0 } ready, 4, 2, by decide +kernel⟩,
    ⟨asFn 4 { intStatus := 5 } ready, 4, by decide +kernel⟩⟩

/-- The hypotheses of `Obligations.UndefinedEncodingsKeepTheField` can be met, clause by clause. -/
theorem witness_UndefinedEncodingsKeepTheField :
    (∃ (s : State) (f : FnId) (v : BitVec 64), f ≠ 0 ∧ s.fnPresent f = true ∧ 188 < bitsOf v.toNat 15 8 ∧ v.toNat < 2 ^ 32) ∧
    (∃ (v : BitVec 64), v.toNat < 2 ^ 32 ∧ v.toNat % 4 = 3) :=
  ⟨⟨ready, 16, 0xBD00, by decide +kernel⟩,
    ⟨0xFFFFFFFF, by decide +kernel⟩⟩

/-- The hypotheses of `Obligations.RegisterWritesTakeEffect` can be met, clause by clause. -/
theorem witness_RegisterWritesTakeEffect :
    (∃ (s : State) (f : FnId) (v : BitVec 64), s.fnPresent f = true ∧ v.toNat < 2 ^ 32) ∧
    (∃ (s : State) (f : FnId) (v : BitVec 64), f ≠ 0 ∧ s.fnPresent f = true ∧ bitsOf v.toNat 15 8 ≤ 188 ∧ v.toNat < 2 ^ 32) ∧
    (∃ (s : State) (v : BitVec 64), v.toNat < 2 ^ 32 ∧ v.toNat % 4 ≠ 3 ∧ s.boot.locked = false) ∧
    (∃ (s : State) (v : BitVec 64), v.toNat < 2 ^ 32 ∧ s.boot.locked = true) ∧
    (∃ (s : State) (f : FnId), f ≠ 0 ∧ s.fnPresent f = true) :=
  ⟨⟨asFn 9 { intStatus := 7 } ready, 9, 0xFFFFFFFF, by decide +kernel⟩,
    ⟨ready, 16, 0x8000BC0F, by decide +kernel⟩,
    ⟨inState .selfTest State.reset, 2, by decide +kernel⟩,
    ⟨ready, 2, by decide +kernel⟩,
    ⟨ready, 16, by decide +kernel⟩⟩

/-- The hypotheses of `Obligations.LowHalfReadLatchesTheHighHalf` can be met, clause by clause. -/
theorem witness_LowHalfReadLatchesTheHighHalf :
    (∃ (s : State) (f : FnId) (off : Nat) (g : RegAt), s.fnPresent f = true ∧ off % 4 = 0 ∧ ((off < 0x1000 ∨ 0x2000 ≤ off)) ∧ ((off < 0x3800 ∨ 0x3A04 ≤ off)) ∧ s.regAt f off = some g ∧ regRight f g.who = true ∧ g.bytes = 8 ∧ off = g.base) ∧
    (∃ (s : State) (f : FnId) (off : Nat) (g : RegAt) (h : _), s.fnPresent f = true ∧ off % 4 = 0 ∧ ((off < 0x1000 ∨ 0x2000 ≤ off)) ∧ ((off < 0x3800 ∨ 0x3A04 ≤ off)) ∧ s.regAt f off = some g ∧ regRight f g.who = true ∧ g.bytes = 8 ∧ off ≠ g.base ∧ Tab.get none (s.fn f).latch g.base = some h) ∧
    (∃ (s : State) (f : FnId) (off : Nat) (g : RegAt), s.fnPresent f = true ∧ off % 4 = 0 ∧ ((off < 0x1000 ∨ 0x2000 ≤ off)) ∧ ((off < 0x3800 ∨ 0x3A04 ≤ off)) ∧ s.regAt f off = some g ∧ regRight f g.who = true ∧ g.bytes = 8 ∧ off ≠ g.base ∧ Tab.get none (s.fn f).latch g.base = none) ∧
    (∃ (s : State) (f : FnId) (off : Nat) (g : RegAt), s.fnPresent f = true ∧ off % 4 = 0 ∧ ((off < 0x1000 ∨ 0x2000 ≤ off)) ∧ ((off < 0x3800 ∨ 0x3A04 ≤ off)) ∧ s.regAt f off = some g ∧ regRight f g.who = false) ∧
    (∃ (s : State) (f : FnId) (off : Nat) (g : RegAt), s.fnPresent f = true ∧ off % 8 = 0 ∧ ((off < 0x1000 ∨ 0x2000 ≤ off)) ∧ s.regAt f off = some g ∧ g.bytes = 8 ∧ regRight f g.who = true) ∧
    (∃ (s : State) (f : FnId) (off : Nat) (g : RegAt), s.fnPresent f = true ∧ off % 8 = 0 ∧ ((off < 0x1000 ∨ 0x2000 ≤ off)) ∧ s.regAt f off = some g ∧ g.bytes = 8 ∧ regRight f g.who = false) :=
  ⟨⟨ready, 0, 0x4040, (ready.regAt 0 0x4040).getD ⟨0, 0, 0, 0⟩, by decide +kernel⟩,
    ⟨asFn 0 { latch := [(0x4040, some 5)] } ready, 0, 0x4044, (ready.regAt 0 0x4040).getD ⟨0, 0, 0, 0⟩, (5 : Word), by decide +kernel⟩,
    ⟨ready, 0, 0x4044, (ready.regAt 0 0x4040).getD ⟨0, 0, 0, 0⟩, by decide +kernel⟩,
    ⟨ready, 0, 0x8C, { base := 0x8C, bytes := 4, who := 2, value := 0 }, by decide +kernel⟩,
    ⟨ready, 0, 0x4040, (ready.regAt 0 0x4040).getD ⟨0, 0, 0, 0⟩, by decide +kernel⟩,
    ⟨ready, 16, 0x60, (ready.regAt 16 0x60).getD ⟨0, 0, 0, 0⟩, by decide +kernel⟩⟩

/-- The hypotheses of `Obligations.VectorRequestsFollowTheDeliverySteps` can be met, clause by clause. -/
theorem witness_VectorRequestsFollowTheDeliverySteps :
    (∃ (s : State) (f : FnId) (v : Fin 32), v.val ∈ (s.fn f).raised) ∧
    (∃ (s : State) (f : FnId) (v : Fin 32), (s.fn f).waiting.getLsbD v = true ∧ s.heldOff f v = false ∧ (s.fn f).msixOn = true ∧ (s.fn f).vecMasked v = false) :=
  ⟨⟨asFn 16 { raised := [31] } ready, 16, 31, by decide +kernel⟩,
    ⟨asFn 16 { waiting := 0x80000000, msixEnable := true, busMaster := true, holdoff := 1, lastSent := [(31, some 1999999000)], msix := [(31, { ctrl := 0 })] } ready, 16, 31, by decide +kernel⟩⟩

/-- The hypotheses of `Obligations.MsixTableWritesStoreEntries` can be met, clause by clause. -/
theorem witness_MsixTableWritesStoreEntries :
    (∃ (s : State) (f : FnId), s.fnPresent f = true ∧ (s.fn f).pba = 0) ∧
    (∃ (s : State) (f : FnId) (v : Fin 32), s.fnPresent f = true ∧ (s.fn f).pba = BitVec.ofNat 32 (2 ^ v.val) ∧ (s.fn f).funcMask = false ∧ (s.fn f).msixOn = true ∧ (s.fn f).waiting.getLsbD v = false ∧ s.heldOff f v = false) ∧
    (∃ (off : Nat) (data : List Byte), (¬(data.length = 4 ∧ off % 4 = 0)) ∧ (¬(data.length = 8 ∧ off % 8 = 0))) :=
  ⟨⟨ready, 16, by decide +kernel⟩,
    ⟨asFn 16 { pba := 0x80000000, msixEnable := true, busMaster := true } ready, 16, 31, by decide +kernel⟩,
    ⟨2, [1, 2, 3, 4], by decide +kernel⟩⟩

/-- The hypotheses of `Obligations.Bar2AccessesReachTheOwnStack` can be met, clause by clause. -/
theorem witness_Bar2AccessesReachTheOwnStack :
    (∃ (s : State) (f : FnId) (addr : Nat) (r : Nat) (so : Nat), s.fnPresent f = true ∧ f ≠ 0 ∧ s.boot.state = .ready ∧ s.bar2Map f addr false = some (r, so) ∧ (s.stack r).level < 4) ∧
    (∃ (s : State) (f : FnId) (addr : Nat) (r : Nat) (so : Nat), s.fnPresent f = true ∧ f ≠ 0 ∧ s.boot.state = .ready ∧ s.bar2Map f addr false = some (r, so) ∧ 4 ≤ (s.stack r).level) ∧
    (∃ (s : State) (f : FnId) (addr : Nat), s.fnPresent f = true ∧ f ≠ 0 ∧ s.boot.state = .ready ∧ s.bar2Map f addr false = none) ∧
    (∃ (s : State) (f : FnId) (addr : Nat), s.fnPresent f = true ∧ f ≠ 0 ∧ s.boot.state = .ready ∧ s.bar2Map f addr true = none) ∧
    (∃ (s : State) (f : FnId) (addr : Nat) (r : Nat) (so : Nat) (data : List Byte) (be : List Bool), s.fnPresent f = true ∧ f ≠ 0 ∧ s.boot.state = .ready ∧ s.bar2Map f addr true = some (r, so) ∧ be.length = data.length ∧ 4 ≤ (s.stack r).level) ∧
    (∃ (s : State) (f : FnId) (addr : Nat) (r : Nat) (so : Nat) (data : List Byte) (be : List Bool), s.fnPresent f = true ∧ f ≠ 0 ∧ s.boot.state = .ready ∧ s.bar2Map f addr true = some (r, so) ∧ be.length = data.length ∧ (s.stack r).level < 4) :=
  ⟨⟨asFn 1 { apertures := [(3, { room := 1, base := 0xBC, enable := true })] } tenant, 1, 3 * 2 ^ 32 + 0x0FFFFFE0, 1, 0xBCFFFFFE0, by decide +kernel⟩,
    ⟨(asFn 1 { apertures := [(3, { room := 1, base := 0xBC, enable := true })] } tenant).setStack 1 { level := 4 }, 1, 3 * 2 ^ 32 + 0x0FFFFFE0, 1, 0xBCFFFFFE0, by decide +kernel⟩,
    ⟨tenant, 1, 0, by decide +kernel⟩,
    ⟨{ asFn 1 { apertures := [(0, { enable := true })] } tenant with boot := { tenant.boot with bar2Mode := 1 } }, 1, 0, by decide +kernel⟩,
    ⟨(asFn 1 { apertures := [(0, { room := 1, enable := true })] } tenant).setStack 1 { level := 4 }, 1, 0x100, 1, 0x100, [1, 2, 3, 4], [true, false, true, true], by decide +kernel⟩,
    ⟨asFn 1 { apertures := [(0, { room := 1, enable := true })] } tenant, 1, 0x100, 1, 0x100, [1, 2, 3, 4], [true, false, true, true], by decide +kernel⟩⟩

end Sys2Proof.Tests
end

