-- ==== Sys2Proof/Tests/Witnesses02.lean ====
section
/-! SUPPORT. Witnesses: states and operands that meet the hypotheses of the obligations, part 2. -/

namespace Sys2Proof.Tests

open Sys2Proof.Machine

set_option maxRecDepth 20000
set_option Elab.async false

/-- Function 1 registers the key set of `keys3Desc`. -/
def registerSet : State := running 1 0 0x0201 (leBytes 8 5 ++ leBytes 8 0x1000) (withCellar 0x1000 keys3Desc tenant)

/-- Function 1 registers a key with epoch 7 at an index whose last epoch was 6. -/
def registerKey : State :=
  running 1 0 0x0211 (leBytes 8 0x10000) (withCellar 0x10000 (keyHeader 7) (asPart { keyed with keys := [(9, { lastEpoch := some 6 })] } ready))

/-- Function 1 registers a look-up key with epoch 7 at an index whose last epoch was 6. -/
def registerLut : State :=
  running 1 0 0x0213 (leBytes 8 0x20000) (withCellar 0x20000 (lutHeader 7) (asPart { keyed with luts := [(15, { lastEpoch := some 6 })] } ready))

/-- Function 1 loads a program. -/
def loadProgram : State := running 1 0 0x0301 (leBytes 8 0x4000) (withCellar 0x4000 container tenant)

/-- A ledger entry. -/
def entry1 : LedgerEntry := { time := 0, code := 1, cls := 1, part := 255, room := 255, unit := 0, count := 1, where_ := 0, block := 0, cause := 0 }

/-- The hypotheses of `Obligations.JobDoorbellMovesTheTail` can be met, clause by clause. -/
theorem witness_JobDoorbellMovesTheTail :
    (∃ (s : State) (f : FnId) (tail : BitVec 16), s.fnPresent f = true ∧ s.boot.state = .ready ∧ f ≠ 0 ∧ (s.part (f - 1)).isLive = true ∧ (s.part (f - 1)).isFollower = false ∧ (s.part (f - 1)).isLeader = false ∧ (s.fn f).ringSet = true ∧ tail ≠ (s.fn f).jobTail ∧ (tail - (s.fn f).jobHead).toNat ≤ 64 ∧ ((s.fn f).jobTail - (s.fn f).jobHead).toNat ≤ (tail - (s.fn f).jobHead).toNat) ∧
    (∃ (s : State) (f : FnId) (tail : BitVec 16), s.fnPresent f = true ∧ s.boot.state = .ready ∧ f ≠ 0 ∧ (s.part (f - 1)).isLive = true ∧ (s.part (f - 1)).isFollower = false ∧ (s.part (f - 1)).isLeader = false ∧ (s.fn f).ringSet = true ∧ tail ≠ (s.fn f).jobTail ∧ (64 < (tail - (s.fn f).jobHead).toNat ∨ (tail - (s.fn f).jobHead).toNat < ((s.fn f).jobTail - (s.fn f).jobHead).toNat)) :=
  ⟨⟨asFn 1 { ringSet := true, jobHead := 0xFFFF, jobTail := 0xFFFF } tenant, 1, 63, by decide +kernel⟩,
    ⟨asFn 1 { ringSet := true, jobHead := 0xFFFF, jobTail := 0xFFFF } tenant, 1, 64, by decide +kernel⟩⟩

/-- The hypotheses of `Obligations.FunctionResetsClearTheFunction` can be met, clause by clause. -/
theorem witness_FunctionResetsClearTheFunction :
    ∃ (s : State) (f : FnId), f ≠ 0 ∧ s.fnPresent f = true :=
  ⟨ready, 16, by decide +kernel⟩

/-- The hypotheses of `Obligations.PartitionCreateMakesTheTenant` can be met, clause by clause. -/
theorem witness_PartitionCreateMakesTheTenant :
    ∃ (s : State) (k : SlotId), s.runs 0 k 0x0101 ∧ checkPartitionCreate s false (s.cmd 0 k) = 0 :=
  ⟨running 0 0 0x0101 ([15, 1, 1, 1, 18, 0] ++ leBytes 2 1 ++ leBytes 4 0x3FFFFFFF ++ leBytes 2 4032) (asRoom { clean := true } ready), 0, ⟨by decide +kernel, by decide +kernel⟩, by decide +kernel⟩

/-- The hypotheses of `Obligations.PartitionDestroyLeavesNothing` can be met, clause by clause. -/
theorem witness_PartitionDestroyLeavesNothing :
    (∃ (s : State) (k : SlotId), s.runs 0 k 0x0102 ∧ (s.cmd 0 k).field 0 1 < s.maxParts ∧ (s.part ((s.cmd 0 k).field 0 1)).present = true ∧ ((s.part ((s.cmd 0 k).field 0 1)).rooms.any s.blockCounts = true ∨ s.hotStack ((s.cmd 0 k).field 0 1) = true ∨ s.shortLeft ((s.cmd 0 k).field 0 1 + 1) = true)) ∧
    (∃ (s : State) (k : SlotId), s.runs 0 k 0x0102 ∧ (s.cmd 0 k).field 0 1 < s.maxParts ∧ (s.part ((s.cmd 0 k).field 0 1)).present = true ∧ (s.part ((s.cmd 0 k).field 0 1)).rooms.any s.blockCounts = false ∧ s.hotStack ((s.cmd 0 k).field 0 1) = false ∧ s.shortLeft ((s.cmd 0 k).field 0 1 + 1) = false) :=
  ⟨⟨running 0 7 0x0102 [0] (asRoom { block := some { checkpoint := {} } } { tenant with sec := { tenant.sec with drbg := .running } }), 7, ⟨by decide +kernel, by decide +kernel⟩, by decide +kernel, by decide +kernel, by decide +kernel⟩,
    ⟨running 0 7 0x0102 [0] tenant, 7, ⟨by decide +kernel, by decide +kernel⟩, by decide +kernel, by decide +kernel, by decide +kernel, (by decide +kernel), by decide +kernel⟩⟩

/-- The hypotheses of `Obligations.KeySetsAreRegisteredAndReleased` can be met, clause by clause. -/
theorem witness_KeySetsAreRegisteredAndReleased :
    (∃ (s : State) (t : State) (f : FnId) (k : SlotId) (ks : KeySet), s.runs f k 0x0201 ∧ s.hotStack (f.val - 1) = false ∧ readKeyset s (f.val - 1) false (s.cmd f k) = (t, 0, some ks)) ∧
    (∃ (s : State) (f : FnId) (k : SlotId) (ks : KeySet), s.runs f k 0x0202 ∧ (s.part (f.val - 1)).keyset ((s.cmd f k).field 0 2) = some ks ∧ ((ks.active = true ∨ (s.part (f.val - 1)).activeTwiddles + ks.twiddles ≤ 2 ^ 20))) ∧
    (∃ (s : State) (f : FnId) (k : SlotId) (ks : KeySet), s.runs f k 0x0204 ∧ (s.part (f.val - 1)).keyset ((s.cmd f k).field 0 2) = some ks ∧ ks.active = false ∧ (s.part (f.val - 1)).keysOfSet ((s.cmd f k).field 0 2) = false) :=
  ⟨⟨registerSet, (readKeyset registerSet ((1 : FnId).val - 1) false (registerSet.cmd (1 : FnId) (0 : SlotId))).1, 1, 0, ((readKeyset registerSet ((1 : FnId).val - 1) false (registerSet.cmd (1 : FnId) (0 : SlotId))).2.2).getD keys3, ⟨by decide +kernel, by decide +kernel⟩, by decide +kernel, answer_ok _ _ (by decide +kernel) (by decide +kernel)⟩,
    ⟨running 1 0 0x0202 [5, 0] (asPart keyed ready), 1, 0, keys3, ⟨by decide +kernel, by decide +kernel⟩, rfl, .inr (by decide)⟩,
    ⟨running 1 0 0x0204 [5, 0] (asPart keyed ready), 1, 0, keys3, ⟨by decide +kernel, by decide +kernel⟩, rfl, rfl, by decide +kernel⟩⟩

/-- The hypotheses of `Obligations.DeactivationWaitsForBlocks` can be met, clause by clause. -/
theorem witness_DeactivationWaitsForBlocks :
    (∃ (s : State) (f : FnId) (k : SlotId) (ks : KeySet), s.runs f k 0x0203 ∧ (s.part (f.val - 1)).keyset ((s.cmd f k).field 0 2) = some ks ∧ ks.active = true ∧ ks.deactivate = none) ∧
    (∃ (s : State) (f : FnId) (k : SlotId) (ks : KeySet), s.runs f k 0x0203 ∧ (s.part (f.val - 1)).keyset ((s.cmd f k).field 0 2) = some ks ∧ ks.active = false ∧ ks.deactivate = none) ∧
    (∃ (s : State) (f : FnId) (k : SlotId) (ks : KeySet), s.runs f k 0x0203 ∧ (s.part (f.val - 1)).keyset ((s.cmd f k).field 0 2) = some ks ∧ ks.deactivate.isSome = true) ∧
    (∃ (s : State) (p : PartId) (id : Nat) (k : SlotId) (ks : KeySet), (s.part p).keyset id = some ks ∧ ks.deactivate = some k.val ∧ (s.part p).rooms.any (fun r => (s.room r).blockUses id) = true) ∧
    (∃ (s : State) (p : PartId) (id : Nat) (k : SlotId) (ks : KeySet), (s.part p).keyset id = some ks ∧ ks.deactivate = some k.val ∧ (s.part p).rooms.any (fun r => (s.room r).blockUses id) = false ∧ s.runs (p.val + 1) k 0x0203 ∧ (s.cmd (p.val + 1) k).field 0 2 = id) ∧
    (∃ (s : State) (r : RoomId) (id : Nat) (prime : Nat), (id, prime) ∈ (s.room r).badTwiddle) :=
  ⟨⟨running 1 0 0x0203 [5, 0] (asPart { keyed with keysets := [(5, some { keys3 with active := true })] } ready), 1, 0, { keys3 with active := true }, ⟨by decide +kernel, by decide +kernel⟩, rfl, rfl, rfl⟩,
    ⟨running 1 0 0x0203 [5, 0] (asPart keyed ready), 1, 0, keys3, ⟨by decide +kernel, by decide +kernel⟩, rfl, rfl, rfl⟩,
    ⟨running 1 0 0x0203 [5, 0] (asPart { keyed with keysets := [(5, some { keys3 with active := true, deactivate := some 0 })] } ready), 1, 0, { keys3 with active := true, deactivate := some 0 }, ⟨by decide +kernel, by decide +kernel⟩, rfl, rfl⟩,
    ⟨asRoom { block := some { uses := [5], checkpoint := {} } } (asPart { keyed with keysets := [(5, some { keys3 with active := true, deactivate := some 7 })] } ready), 0, 5, 7, { keys3 with active := true, deactivate := some 7 }, rfl, rfl, by decide +kernel⟩,
    ⟨running 1 7 0x0203 [5, 0] (asPart { keyed with keysets := [(5, some { keys3 with active := true, deactivate := some 7 })] } ready), 0, 5, 7, { keys3 with active := true, deactivate := some 7 }, rfl, rfl, by decide +kernel, ⟨by decide +kernel, by decide +kernel⟩, by decide +kernel⟩,
    ⟨asRoom { badTwiddle := [(5, 128)] } tenant, 0, 5, 128, by decide +kernel⟩⟩

/-- The hypotheses of `Obligations.KeysFollowTheEpochRule` can be met, clause by clause. -/
theorem witness_KeysFollowTheEpochRule :
    (∃ (s : State) (t : State) (p : Nat) (busy : Bool) (q : Req) (h : KeyHdr) (l : BitVec 32), readKey s p busy q = (t, 0, some h) ∧ ((s.part p).keyAt h.index).lastEpoch = some l) ∧
    (∃ (s : State) (t : State) (p : Nat) (busy : Bool) (q : Req) (h : LutHdr) (l : BitVec 32), readLut s p busy q = (t, 0, some h) ∧ ((s.part p).lutAt h.index).lastEpoch = some l) ∧
    (∃ (s : State) (t : State) (f : FnId) (k : SlotId) (h : KeyHdr), s.runs f k 0x0211 ∧ (s.part (f.val - 1)).keyPending k ((s.cmd f k).field 0 8) = false ∧ s.hotStack (f.val - 1) = false ∧ readKey s (f.val - 1) false (s.cmd f k) = (t, 0, some h)) ∧
    (∃ (s : State) (t : State) (f : FnId) (k : SlotId) (h : LutHdr), s.runs f k 0x0213 ∧ (s.part (f.val - 1)).lutPending k ((s.cmd f k).field 0 8) = false ∧ s.hotStack (f.val - 1) = false ∧ readLut s (f.val - 1) false (s.cmd f k) = (t, 0, some h)) :=
  ⟨⟨registerKey, (readKey registerKey 0 false (registerKey.cmd 1 0)).1, 0, false, registerKey.cmd 1 0, ((readKey registerKey 0 false (registerKey.cmd 1 0)).2.2).getD (key9 7), 6, answer_ok _ _ (by decide +kernel) (by decide +kernel), by decide +kernel⟩,
    ⟨registerLut, (readLut registerLut 0 false (registerLut.cmd 1 0)).1, 0, false, registerLut.cmd 1 0, ((readLut registerLut 0 false (registerLut.cmd 1 0)).2.2).getD (lut15 7), 6, answer_ok _ _ (by decide +kernel) (by decide +kernel), by decide +kernel⟩,
    ⟨registerKey, (readKey registerKey ((1 : FnId).val - 1) false (registerKey.cmd (1 : FnId) (0 : SlotId))).1, 1, 0, ((readKey registerKey ((1 : FnId).val - 1) false (registerKey.cmd (1 : FnId) (0 : SlotId))).2.2).getD (key9 7), ⟨by decide +kernel, by decide +kernel⟩, by decide +kernel, by decide +kernel, answer_ok _ _ (by decide +kernel) (by decide +kernel)⟩,
    ⟨registerLut, (readLut registerLut ((1 : FnId).val - 1) false (registerLut.cmd (1 : FnId) (0 : SlotId))).1, 1, 0, ((readLut registerLut ((1 : FnId).val - 1) false (registerLut.cmd (1 : FnId) (0 : SlotId))).2.2).getD (lut15 7), ⟨by decide +kernel, by decide +kernel⟩, by decide +kernel, by decide +kernel, answer_ok _ _ (by decide +kernel) (by decide +kernel)⟩⟩

/-- The hypotheses of `Obligations.KeyRemovalCompletesWhenUnused` can be met, clause by clause. -/
theorem witness_KeyRemovalCompletesWhenUnused :
    (∃ (s : State) (f : FnId) (k : SlotId) (h : KeyHdr), s.runs f k 0x0212 ∧ bitOf ((s.cmd f k).field 2 1) 0 = false ∧ ((s.part (f.val - 1)).keyAt ((s.cmd f k).field 0 2)).cur = some h) ∧
    (∃ (s : State) (f : FnId) (k : SlotId) (h : LutHdr), s.runs f k 0x0212 ∧ bitOf ((s.cmd f k).field 2 1) 0 = true ∧ ((s.part (f.val - 1)).lutAt ((s.cmd f k).field 0 2)).cur = some h) ∧
    (∃ (s : State) (p : PartId) (i : Nat) (k : SlotId) (old : KeyHdr), ((s.part p).keyAt i).prev = some old ∧ ((s.part p).keyAt i).slot = some k.val ∧ s.prevKeyUsed p i = true) ∧
    (∃ (s : State) (p : PartId) (i : Nat) (k : SlotId) (old : KeyHdr), ((s.part p).keyAt i).prev = some old ∧ ((s.part p).keyAt i).slot = some k.val ∧ s.prevKeyUsed p i = false ∧ s.runs (p.val + 1) k 0x0212 ∧ ((s.part p).keyAt i).cur = none ∧ (s.cmd (p.val + 1) k).field 0 2 = i ∧ bitOf ((s.cmd (p.val + 1) k).field 2 1) 0 = false) ∧
    (∃ (s : State) (p : PartId) (i : Nat) (k : SlotId) (old : KeyHdr) (new : _), ((s.part p).keyAt i).prev = some old ∧ ((s.part p).keyAt i).slot = some k.val ∧ s.prevKeyUsed p i = false ∧ s.runs (p.val + 1) k 0x0211 ∧ ((s.part p).keyAt i).cur = some new ∧ new.home = (s.cmd (p.val + 1) k).field 0 8) ∧
    (∃ (s : State) (p : PartId) (i : Nat) (k : SlotId) (old : LutHdr), ((s.part p).lutAt i).prev = some old ∧ ((s.part p).lutAt i).slot = some k.val ∧ s.prevLutUsed p i = false ∧ s.runs (p.val + 1) k 0x0212 ∧ ((s.part p).lutAt i).cur = none ∧ (s.cmd (p.val + 1) k).field 0 2 = i ∧ bitOf ((s.cmd (p.val + 1) k).field 2 1) 0 = true) :=
  ⟨⟨running 1 3 0x0212 [9, 0, 0] (asPart { keyed with keys := [(9, { cur := some (key9 7) })] } ready), 1, 3, key9 7, ⟨by decide +kernel, by decide +kernel⟩, by decide +kernel, rfl⟩,
    ⟨running 1 3 0x0212 [15, 0, 1] (asPart { keyed with luts := [(15, { cur := some (lut15 7) })] } ready), 1, 3, lut15 7, ⟨by decide +kernel, by decide +kernel⟩, by decide +kernel, rfl⟩,
    ⟨(asPart { keyed with keys := [(9, { prev := some (key9 6), slot := some 3, waitRooms := [1] })] } ready).setRoom 1 { keyEntries := [{ galoisEntry with kind := 0, rot := 0, key := some (9, 6) }] }, 0, 9, 3, key9 6, rfl, rfl, by decide +kernel⟩,
    ⟨running 1 3 0x0212 [9, 0, 0] (asPart { keyed with keys := [(9, { prev := some (key9 6), slot := some 3 })] } ready), 0, 9, 3, key9 6, rfl, rfl, by decide +kernel, ⟨by decide +kernel, by decide +kernel⟩, rfl, by decide +kernel, by decide +kernel⟩,
    ⟨running 1 3 0x0211 (leBytes 8 (key9 7).home) (asPart { keyed with keys := [(9, { cur := some (key9 7), prev := some (key9 6), slot := some 3 })] } ready), 0, 9, 3, key9 6, key9 7, rfl, rfl, by decide +kernel, ⟨by decide +kernel, by decide +kernel⟩, rfl, by decide +kernel⟩,
    ⟨running 1 3 0x0212 [15, 0, 1] (asPart { keyed with luts := [(15, { prev := some (lut15 6), slot := some 3 })] } ready), 0, 15, 3, lut15 6, rfl, rfl, by decide +kernel, ⟨by decide +kernel, by decide +kernel⟩, rfl, by decide +kernel, by decide +kernel⟩⟩

/-- The hypotheses of `Obligations.ProgramsAndBuffersAreKeptByHandle` can be met, clause by clause. -/
theorem witness_ProgramsAndBuffersAreKeptByHandle :
    (∃ (s : State) (t : State) (f : FnId) (k : SlotId) (g : Program), s.runs f k 0x0301 ∧ s.hotStack (f.val - 1) = false ∧ readProgram s (f.val - 1) (s.cmd f k) = (t, 0, some g)) ∧
    (∃ (s : State) (f : FnId) (k : SlotId), s.runs f k 0x0302 ∧ checkUnload s (f.val - 1) false (s.cmd f k) = 0) ∧
    (∃ (s : State) (f : FnId) (k : SlotId), s.runs f k 0x0401 ∧ checkHostBuf s f (s.cmd f k) = 0) ∧
    (∃ (s : State) (f : FnId) (k : SlotId), s.runs f k 0x0402 ∧ checkBufRelease s f false (s.cmd f k) = 0) ∧
    (∃ (s : State) (f : FnId) (k : SlotId), s.runs f k 0x0303 ∧ (s.cmd f k).field 0 8 + 4096 ≤ stackBytes ∧ (s.fn f).jobHead = (s.fn f).jobTail ∧ (s.fn f).jobRunning = false) :=
  ⟨⟨loadProgram, (readProgram loadProgram ((1 : FnId).val - 1) (loadProgram.cmd (1 : FnId) (0 : SlotId))).1, 1, 0, ((readProgram loadProgram ((1 : FnId).val - 1) (loadProgram.cmd (1 : FnId) (0 : SlotId))).2.2).getD program, ⟨by decide +kernel, by decide +kernel⟩, by decide +kernel, answer_ok _ _ (by decide +kernel) (by decide +kernel)⟩,
    ⟨running 1 0 0x0302 [1, 0, 0, 0] (asPart { part2 with programs := [(1, some program)] } ready), 1, 0, ⟨by decide +kernel, by decide +kernel⟩, by decide +kernel⟩,
    ⟨running 1 0 0x0401 (leBytes 8 (2 ^ 64 - 2 ^ 40) ++ leBytes 8 (2 ^ 40) ++ [3]) tenant, 1, 0, ⟨by decide +kernel, by decide +kernel⟩, by decide +kernel⟩,
    ⟨running 1 0 0x0402 [1, 0] (withBuffer tenant), 1, 0, ⟨by decide +kernel, by decide +kernel⟩, by decide +kernel⟩,
    ⟨running 1 0 0x0303 (leBytes 8 (stackBytes - 4096)) tenant, 1, 0, ⟨by decide +kernel, by decide +kernel⟩, by decide +kernel, by decide +kernel, by decide +kernel⟩⟩

/-- The hypotheses of `Obligations.LedgerKeepsOrderAndLoss` can be met, clause by clause. -/
theorem witness_LedgerKeepsOrderAndLoss :
    (∃ (s : State) (e : LedgerEntry) (rest : List LedgerEntry), s.gysis.ledger.todo = e :: rest) ∧
    (∃ (s : State) (k : SlotId), s.runs 0 k 0x0510 ∧ 1 ≤ (s.cmd 0 k).field 8 1 ∧ (s.cmd 0 k).field 8 1 ≤ 14 ∧ bitOf ((s.cmd 0 k).field 9 1) 0 = false) ∧
    (∃ (s : State) (k : SlotId), s.runs 0 k 0x0510 ∧ 1 ≤ (s.cmd 0 k).field 8 1 ∧ (s.cmd 0 k).field 8 1 ≤ 14 ∧ bitOf ((s.cmd 0 k).field 9 1) 0 = true) ∧
    (∃ (s : State) (k : SlotId), s.runs 0 k 0x0511) :=
  ⟨⟨{ ready with gysis := { ready.gysis with ledger := { todo := [entry1] } } }, entry1, [], by decide +kernel⟩,
    ⟨running 0 0 0x0510 (leBytes 8 0 ++ [14, 0]) ready, 0, ⟨by decide +kernel, by decide +kernel⟩, by decide +kernel, by decide +kernel, by decide +kernel⟩,
    ⟨running 0 0 0x0510 (leBytes 8 0 ++ [1, 1]) ready, 0, ⟨by decide +kernel, by decide +kernel⟩, by decide +kernel, by decide +kernel, by decide +kernel⟩,
    ⟨running 0 0 0x0511 [] ready, 0, ⟨by decide +kernel, by decide +kernel⟩⟩⟩

/-- The hypotheses of `Obligations.BreaksStopAndReleaseRooms` can be met, clause by clause. -/
theorem witness_BreaksStopAndReleaseRooms :
    (∃ (s : State) (k : SlotId), s.runs 0 k 0x0801 ∧ checkBreakSet s (s.cmd 0 k) = 0 ∧ (s.cmd 0 k).field 1 1 = 0) ∧
    (∃ (s : State) (k : SlotId), s.runs 0 k 0x0801 ∧ checkBreakSet s (s.cmd 0 k) = 0 ∧ (s.cmd 0 k).field 1 1 = 1) ∧
    (∃ (s : State) (k : SlotId), s.runs 0 k 0x0802 ∧ s.debugRoom ((s.cmd 0 k).field 0 1) = true) ∧
    (∃ (s : State) (r : RoomId), s.boot.state = .test ∧ (s.ownerOf r).isSome = true ∧ (s.room r).brk.stopped = false ∧ (s.room r).brk.onCount = some (s.room r).blockCounter) ∧
    (∃ (s : State) (k : SlotId), s.runs 0 k 0x0803 ∧ s.debugRoom ((s.cmd 0 k).field 0 1) = true ∧ (s.room ((s.cmd 0 k).field 0 1)).brk.stopped = true ∧ (s.room ((s.cmd 0 k).field 0 1)).brk.replayDeferred = false) ∧
    (∃ (s : State) (k : SlotId), s.runs 0 k 0x0804 ∧ s.debugRoom ((s.cmd 0 k).field 0 1) = true ∧ (s.room ((s.cmd 0 k).field 0 1)).brk.stopped = true) :=
  ⟨⟨running 0 0 0x0801 [15, 0, 3, 0] testing, 0, ⟨by decide +kernel, by decide +kernel⟩, by decide +kernel, by decide +kernel⟩,
    ⟨running 0 0 0x0801 [0, 1, 3, 0] testing, 0, ⟨by decide +kernel, by decide +kernel⟩, by decide +kernel, by decide +kernel⟩,
    ⟨running 0 0 0x0802 [0] testing, 0, ⟨by decide +kernel, by decide +kernel⟩, by decide +kernel⟩,
    ⟨asRoom { blockCounter := 9, brk := { onCount := some 9 } } testing, 0, by decide +kernel⟩,
    ⟨running 0 0 0x0803 [0] (asRoom { brk := { stopped := true } } testing), 0, ⟨by decide +kernel, by decide +kernel⟩, by decide +kernel, by decide +kernel, by decide +kernel⟩,
    ⟨running 0 0 0x0804 [0] (asRoom { brk := { stopped := true } } testing), 0, ⟨by decide +kernel, by decide +kernel⟩, by decide +kernel, by decide +kernel⟩⟩

end Sys2Proof.Tests
end

