-- ==== Sys2Proof/Tests/Witnesses03.lean ====
section
/-! SUPPORT. Witnesses: states and operands that meet the hypotheses of the obligations, part 3. -/

namespace Sys2Proof.Tests

open Sys2Proof.Machine

set_option maxRecDepth 20000
set_option Elab.async false

/-- Function 0 runs ATTEST into host buffer 1. -/
def attesting : State :=
  let s := running 0 0 0x0702 (List.replicate 32 5 ++ leBytes 8 1 ++ leBytes 8 0) (ready.setFn 0 { ready.fn 0 with hostBufs := [(1, some buffer)] })
  { s with
    sec := { s.sec with entries := [(cupKey 16 3, some { type_ := 0x11, usage := 1, material := List.replicate 48 1 })] }
    power := { s.power with domains := [(118, .on)] } }

/-- The same command with a handle that names no buffer. -/
def attestingNowhere : State :=
  running 0 0 0x0702 (List.replicate 32 5 ++ leBytes 8 2 ++ leBytes 8 0) (ready.setFn 0 { ready.fn 0 with hostBufs := [(1, some buffer)] })

/-- A slice has the length that was asked for. -/
theorem sliceZ_length (l : List Byte) (off n : Nat) : (sliceZ l off n).length = n := by
  simp [sliceZ]

/-- A report of function 0 takes at most 2,528 bytes. -/
theorem report_length (s : State) (nonce : List Byte) : (s.report 0 nonce).length ≤ 2528 := by
  have h1 (d k : Nat) (l : List Byte) : (curveP384.sign d k l).length = 96 := by
    unfold Curve.sign
    split
    · simp [beBytes, leBytes_length, curveP384]
    · simp [curveP384]
  have h3 : (s.reportBody 0 nonce).length = 384 := by
    simp [State.reportBody, romDigestBytes, beBytes, leBytes_length, sliceZ_length]
  simp only [State.report, List.length_append, h1, h3, List.length_take]
  omega

/-- The hypotheses of the first clause of `Obligations.AttestationAndStaging` can be met. -/
theorem witness_attest :
    ∃ (s : State) (f : FnId) (k : SlotId) (a : Nat) (e : CupEntry), s.runs f k 0x0702 ∧ s.sec.retired = false ∧ s.boot.identityLost = false ∧
      s.fwEntry 3 = some e ∧ s.domain 118 = .on ∧ (s.cmd f k).field 32 2 ≠ 0 ∧
      s.hostRange f ((s.cmd f k).field 32 2) ((s.cmd f k).field 40 8) (s.report f ((s.cmd f k).body.take 32)).length true = some a := by
  refine ⟨attesting, 0, 0, 0x10000, { type_ := 0x11, usage := 1, material := List.replicate 48 1 }, ⟨by decide +kernel, by decide +kernel⟩, rfl, rfl,
    by decide +kernel, by decide +kernel, by decide +kernel, ?_⟩
  have h1 : (attesting.cmd 0 0).field 32 2 = 1 := by decide +kernel
  have h2 : (attesting.cmd 0 0).field 40 8 = 0 := by decide +kernel
  have h3 : attesting.hostBuf 0 1 = some buffer := by decide +kernel
  have h4 := report_length attesting ((attesting.cmd 0 0).body.take 32)
  show attesting.hostRange 0 ((attesting.cmd 0 0).field 32 2) ((attesting.cmd 0 0).field 40 8) (attesting.report 0 ((attesting.cmd 0 0).body.take 32)).length true = _
  rw [h1, h2]
  unfold State.hostRange
  rw [h3]
  have h5 : 0 + (attesting.report 0 ((attesting.cmd 0 0).body.take 32)).length ≤ buffer.bytes := by simp only [buffer]; omega
  simp only [h5, decide_true, Bool.true_and, if_true]
  rfl

/-- A routing table of a module alone: module 0 of 1, no route. -/
def routeBytes : List Byte :=
  header (leBytes 4 0x4F72D316 ++ [1, 0] ++ leBytes 2 0 ++ leBytes 2 1 ++ leBytes 2 0) ++ List.replicate 4096 0

/-- Zero bytes spell zero. -/
theorem leNat_zeros (n : Nat) : leNat (List.replicate n 0) = 0 := by
  induction n with
  | zero => rfl
  | succ n ih => rw [List.replicate_succ, leNat, ih]; rfl

/-- A field behind a list's head that is all zeros is zero. -/
theorem fieldOf_zeros (h : List Byte) (n off k : Nat) (hl : h.length ≤ off) : fieldOf (h ++ List.replicate n 0) off k = 0 := by
  unfold fieldOf
  rw [List.drop_append, List.drop_eq_nil_of_le hl, List.nil_append, List.drop_replicate, List.take_replicate]
  exact leNat_zeros _

/-- A routing table entry of zeros is sound. -/
theorem routeBytes_entries (d : Nat) : routeEntryOk routeBytes d = true := by
  have h : fieldOf routeBytes (128 + 8 * d) 8 = 0 := fieldOf_zeros _ _ _ _ (by
    have : (header (leBytes 4 0x4F72D316 ++ [1, 0] ++ leBytes 2 0 ++ leBytes 2 1 ++ leBytes 2 0)).length = 128 := by decide +kernel
    omega)
  unfold routeEntryOk
  rw [h]
  simp [bitOf, bitsOf]

/-- The routing table of a module alone. -/
def aloneTable : RouteTable := { module := 0, modules := 1, timeRoot := 0, dateline := 0, portDim := 0, systemId := 0, routes := [] }

/-- Function 1 copies 256 bytes at the top of the stack of its room 1. -/
def copying (dir : Byte) : State :=
  running 1 0 0x0403 ([1, 0, 0, 0, 0, 0, 0, 0, 1, 0, 1, dir, 0, 0, 0, 0] ++ leBytes 8 0x100 ++ leBytes 8 (stackBytes - 256) ++ leBytes 8 256) (withBuffer tenant)

/-- FIRMWARE_STAGE runs, with signer slots counted as revoked. -/
def staging (suspect : BitVec 4) (tail : List Byte) : State :=
  let s := running 0 0 0x0604 (leBytes 8 1 ++ leBytes 8 0 ++ tail) (ready.setFn 0 { ready.fn 0 with hostBufs := [(1, some buffer)] })
  { s with sec := { s.sec with signerSuspect := suspect ||| (if suspect = 0 then 0 else 15) }, power := { s.power with domains := [(118, .on)] } }

/-- With all four signer slots revoked no image is accepted. -/
theorem revoked_refuses (b : List Byte) : (staging 0x03 (leBytes 4 4096 ++ [0])).imageOk (imageOf b) = false := by
  have h : ∀ n : Fin 4, (staging 0x03 (leBytes 4 4096 ++ [0])).signerRevoked n = true := by decide +kernel
  unfold State.imageOk
  rw [h (imageOf b).signer]
  simp

/-- A hash of 128 bytes in `n` chunks, `d` done. -/
def hashOf (d n : Nat) : HashCtx := { fn := 1, slot := 0, aes := false, op := 0x10, data := List.replicate 128 0, key := [], iv := 0, chunks := n, done := d }

/-- Function 1 has that hash at the unit. -/
def hashing (d n : Nat) : State :=
  let s := running 1 0 0x0701 (leBytes 2 0x10 ++ [0, 0, 0, 0, 0, 0] ++ leBytes 8 0 ++ leBytes 8 128) tenant
  { s with sec := { s.sec with hash := [(0, some (hashOf d n))] }, power := { s.power with domains := [(118, .on)] } }

/-- The same after it was started over once. -/
def rehashing (d n : Nat) : State :=
  { hashing d n with sec := { (hashing d n).sec with hash := [(0, some { hashOf d n with reran := true, mark := 3 })] } }

/-- The engine's memories hold parity errors. -/
def upset (n : Nat) (s : State) : State := { s with sec := { s.sec with upsets := n } }

/-- A result of three words behind its label. -/
def result1 : RoomResult := { lab := Label.zero, runs := [(128, [1, 2, 3])], fresh := false, reads := [], mism := none }

/-- The hypotheses of `Obligations.ShortMailboxCommands` can be met, clause by clause. -/
theorem witness_ShortMailboxCommands :
    (∃ (s : State) (f : FnId) (k : SlotId), s.runs f k 0x0001) ∧
    (∃ (s : State) (f : FnId) (k : SlotId), s.runs f k 0x0002 ∧ 1 ≤ (s.cmd f k).field 1 1 ∧ (s.cmd f k).field 1 1 ≤ 30 ∧ (s.cmd f k).field 0 1 + (s.cmd f k).field 1 1 ≤ 128) ∧
    (∃ (s : State) (k : SlotId), s.runs 0 k 0x0103 ∧ (s.part ((s.cmd 0 k).field 0 1)).present = true ∧ (s.cmd 0 k).field 0 1 < s.maxParts) ∧
    (∃ (s : State) (f : FnId) (k : SlotId), f.val ≠ 0 ∧ s.runs f k 0x0103 ∧ (s.part (f.val - 1)).present = true ∧ f.val - 1 < s.maxParts) ∧
    (∃ (s : State) (f : FnId) (k : SlotId), s.runs f k 0x0214) ∧
    (∃ (s : State) (k : SlotId), s.runs 0 k 0x0601 ∧ (s.cmd 0 k).field 0 1 = 0) ∧
    (∃ (s : State) (k : SlotId), s.runs 0 k 0x0601 ∧ (s.cmd 0 k).field 0 1 = 1) ∧
    (∃ (s : State) (k : SlotId), s.runs 0 k 0x0601 ∧ (s.cmd 0 k).field 0 1 = 2) ∧
    (∃ (s : State) (f : FnId) (k : SlotId) (ids : List Nat), s.runs f k 0x0501 ∧ checkTelemetry (s.cmd f k) = 0 ∧ ids = (List.range ((s.cmd f k).field 0 1)).map (fun i => (s.cmd f k).field (4 + 4 * i) 4)) ∧
    (∃ (s : State) (f : Nat) (id : Nat), s.mayRead f id = false) ∧
    (∃ (s : State) (k : SlotId), s.runs 0 k 0x0602 ∧ (s.cmd 0 k).field 0 4 = 0) ∧
    (∃ (s : State) (k : SlotId), s.runs 0 k 0x0602 ∧ 1000 ≤ (s.cmd 0 k).field 0 4 ∧ (s.cmd 0 k).field 0 4 ≤ 2000) ∧
    (∃ (s : State) (k : SlotId), s.runs 0 k 0x0605 ∧ (s.cmd 0 k).field 0 1 ≤ 1) ∧
    (∃ (s : State) (k : SlotId) (hostIn : List Byte), s.runs 0 k 0x0603 ∧ hostIn.length = 4224 ∧ checkRoute s 0 (s.cmd 0 k) = 0 ∧ routeHeaderOk hostIn = true ∧ ((∀ d, d < 512 → routeEntryOk hostIn d = true)) ∧ s.pairBars (routeTableOf hostIn) = false) ∧
    (∃ (s : State) (t : RouteTable), s.links.nextRoute = some t) :=
  ⟨⟨running 16 0 0x0001 [] ready, 16, 0, ⟨by decide +kernel, by decide +kernel⟩⟩,
    ⟨running 16 0 0x0002 [98, 30] ready, 16, 0, ⟨by decide +kernel, by decide +kernel⟩, by decide +kernel, by decide +kernel, by decide +kernel⟩,
    ⟨running 0 0 0x0103 [0] tenant, 0, ⟨by decide +kernel, by decide +kernel⟩, by decide +kernel, by decide +kernel⟩,
    ⟨running 1 0 0x0103 [0] tenant, 1, 0, by decide +kernel, ⟨by decide +kernel, by decide +kernel⟩, by decide +kernel, by decide +kernel⟩,
    ⟨running 1 0 0x0214 [0, 0, 0] tenant, 1, 0, ⟨by decide +kernel, by decide +kernel⟩⟩,
    ⟨running 0 0 0x0601 [0] ready, 0, ⟨by decide +kernel, by decide +kernel⟩, by decide +kernel⟩,
    ⟨running 0 0 0x0601 [1] ready, 0, ⟨by decide +kernel, by decide +kernel⟩, by decide +kernel⟩,
    ⟨running 0 0 0x0601 [2] ready, 0, ⟨by decide +kernel, by decide +kernel⟩, by decide +kernel⟩,
    ⟨running 1 0 0x0501 ([29, 0, 0, 0] ++ (List.range 29).flatMap (fun i => leBytes 4 (0x01000000 + i))) tenant, 1, 0, (List.range 29).map (fun i => 0x01000000 + i), ⟨by decide +kernel, by decide +kernel⟩, by decide +kernel, by decide +kernel⟩,
    ⟨tenant, 1, 0x02000000, by decide +kernel⟩,
    ⟨running 0 0 0x0602 (leBytes 4 0) ready, 0, ⟨by decide +kernel, by decide +kernel⟩, by decide +kernel⟩,
    ⟨running 0 0 0x0602 (leBytes 4 2000) ready, 0, ⟨by decide +kernel, by decide +kernel⟩, by decide +kernel, by decide +kernel⟩,
    ⟨running 0 0 0x0605 [1] ready, 0, ⟨by decide +kernel, by decide +kernel⟩, by decide +kernel⟩,
    ⟨running 0 0 0x0603 (leBytes 8 1 ++ leBytes 8 0 ++ leBytes 4 4224) (ready.setFn 0 { ready.fn 0 with hostBufs := [(1, some buffer)] }), 0, routeBytes, ⟨by decide +kernel, by decide +kernel⟩, by decide +kernel, by decide +kernel, by decide +kernel, fun d _ => routeBytes_entries d, by decide +kernel⟩,
    ⟨{ ready with links := { ready.links with nextRoute := some aloneTable } }, aloneTable, by decide +kernel⟩⟩

/-- The hypotheses of `Obligations.HostCopyMovesTheSegment` can be met, clause by clause. -/
theorem witness_HostCopyMovesTheSegment :
    (∃ (s : State) (f : FnId) (k : SlotId), s.runs f k 0x0403 ∧ checkHostCopy s f false (s.cmd f k) = 0 ∧ (s.hotStack (f.val - 1) = true ∨ s.copyBehind f k = true)) ∧
    (∃ (s : State) (f : FnId) (k : SlotId), s.runs f k 0x0403 ∧ checkHostCopy s f false (s.cmd f k) = 0 ∧ s.hotStack (f.val - 1) = false ∧ s.copyBehind f k = false) ∧
    (∃ (s : State) (f : FnId) (k : SlotId) (g : Segment), s.runs f k 0x0403 ∧ checkHostCopy s f false (s.cmd f k) = 0 ∧ s.hotStack (f.val - 1) = false ∧ s.copyBehind f k = false ∧ segments (s.cmd f k) = [g] ∧ g.dir = 0 ∧ ((∀ l, l ∈ linesOf g.cellarOff g.bytes → s.lineLost ((s.part (f.val - 1)).rooms.getD g.room 0) (l * 128) = false ∧ ∀ b, b ∈ burstsOf l → s.burstBad ((s.part (f.val - 1)).rooms.getD g.room 0) b = false))) ∧
    (∃ (s : State) (f : FnId) (k : SlotId) (g : Segment) (addr : Nat), s.runs f k 0x0403 ∧ checkHostCopy s f false (s.cmd f k) = 0 ∧ s.hotStack (f.val - 1) = false ∧ s.copyBehind f k = false ∧ segments (s.cmd f k) = [g] ∧ g.dir = 1 ∧ s.hostRange f g.handle g.hostOff g.bytes true = some addr ∧ ((∀ l, l ∈ linesOf g.cellarOff g.bytes → s.lineLost ((s.part (f.val - 1)).rooms.getD g.room 0) (l * 128) = false ∧ ∀ b, b ∈ burstsOf l → s.burstBad ((s.part (f.val - 1)).rooms.getD g.room 0) b = false))) :=
  ⟨⟨(copying 0).setStack 1 { level := 4 }, 1, 0, ⟨by decide +kernel, by decide +kernel⟩, by decide +kernel, by decide +kernel⟩,
    ⟨copying 1, 1, 0, ⟨by decide +kernel, by decide +kernel⟩, by decide +kernel, by decide +kernel, by decide +kernel⟩,
    ⟨copying 0, 1, 0, { handle := 1, room := 1, dir := 0, hostOff := 0x100, cellarOff := stackBytes - 256, bytes := 256 }, ⟨by decide +kernel, by decide +kernel⟩, by decide +kernel, by decide +kernel, by decide +kernel, (by decide +kernel), by decide +kernel, by decide +kernel⟩,
    ⟨copying 1, 1, 0, { handle := 1, room := 1, dir := 1, hostOff := 0x100, cellarOff := stackBytes - 256, bytes := 256 }, 0x10100, ⟨by decide +kernel, by decide +kernel⟩, by decide +kernel, by decide +kernel, by decide +kernel, (by decide +kernel), by decide +kernel, by decide +kernel, by decide +kernel⟩⟩

/-- The hypotheses of `Obligations.AttestationAndStaging` can be met, clause by clause. -/
theorem witness_AttestationAndStaging :
    (∃ (s : State) (f : FnId) (k : SlotId), s.runs f k 0x0702 ∧ (s.sec.retired = true ∨ s.boot.identityLost = true ∨ s.fwEntry 3 = none)) ∧
    (∃ (s : State) (f : FnId) (k : SlotId) (e : _), s.runs f k 0x0702 ∧ s.sec.retired = false ∧ s.boot.identityLost = false ∧ s.fwEntry 3 = some e ∧ s.domain 118 = .on ∧ s.hostRange f ((s.cmd f k).field 32 2) ((s.cmd f k).field 40 8) (s.report f ((s.cmd f k).body.take 32)).length true = none) ∧
    (∃ (s : State) (k : SlotId), s.runs 0 k 0x0604 ∧ s.sec.retired = true) ∧
    (∃ (s : State) (k : SlotId) (hostIn : List Byte), s.runs 0 k 0x0604 ∧ s.sec.retired = false ∧ s.domain 118 = .on ∧ checkStage s 0 (s.cmd 0 k) = 0 ∧ hostIn.length = (s.cmd 0 k).field 16 4 ∧ s.imageOk (imageOf hostIn) = false) ∧
    (∃ (s : State) (k : SlotId) (hostIn : List Byte), s.runs 0 k 0x0604 ∧ s.sec.retired = false ∧ s.domain 118 = .on ∧ checkStage s 0 (s.cmd 0 k) = 0 ∧ hostIn.length = (s.cmd 0 k).field 16 4 ∧ (s.cmd 0 k).field 20 1 = 0) ∧
    (∃ (s : State) (k : SlotId) (hostIn : List Byte), s.runs 0 k 0x0604 ∧ s.sec.retired = false ∧ s.domain 118 = .on ∧ checkStage s 0 (s.cmd 0 k) = 0 ∧ hostIn.length = (s.cmd 0 k).field 16 4 ∧ (s.cmd 0 k).field 20 1 = 1) :=
  ⟨⟨{ attesting with sec := { attesting.sec with retired := true } }, 0, 0, ⟨by decide +kernel, by decide +kernel⟩, .inl rfl⟩,
    ⟨{ attesting with fns := attestingNowhere.fns }, 0, 0, { type_ := 0x11, usage := 1, material := List.replicate 48 1 }, ⟨by decide +kernel, by decide +kernel⟩, by decide +kernel, by decide +kernel, by decide +kernel, (by decide +kernel), by decide +kernel⟩,
    ⟨{ staging 0 (leBytes 4 4096 ++ [0]) with sec := { (staging 0 (leBytes 4 4096 ++ [0])).sec with retired := true } }, 0, ⟨by decide +kernel, by decide +kernel⟩, by decide +kernel⟩,
    ⟨staging 0x03 (leBytes 4 4096 ++ [0]), 0, List.replicate 4096 0, ⟨by decide +kernel, by decide +kernel⟩, by decide +kernel, by decide +kernel, by decide +kernel, (by decide +kernel), (revoked_refuses _)⟩,
    ⟨staging 0 (leBytes 4 0x100000 ++ [0]), 0, List.replicate 0x100000 0, ⟨by decide +kernel, by decide +kernel⟩, by decide +kernel, by decide +kernel, by decide +kernel, by rw [List.length_replicate]; decide +kernel, by decide +kernel⟩,
    ⟨staging 0 (leBytes 4 0x10000 ++ [1]), 0, List.replicate 0x10000 0, ⟨by decide +kernel, by decide +kernel⟩, by decide +kernel, by decide +kernel, by decide +kernel, by rw [List.length_replicate]; decide +kernel, by decide +kernel⟩⟩

/-- The hypotheses of `Obligations.SignaturesAreCheckedBeforeRelease` can be met, clause by clause. -/
theorem witness_SignaturesAreCheckedBeforeRelease :
    (∃ (s : State) (f : FnId) (k : SlotId) (r : SecRow), s.SecReady f k 0x30 r) ∧
    (∃ (s : State) (f : FnId) (k : SlotId) (r : SecRow), s.SecReady f k 0x31 r) ∧
    (∃ (s : State) (f : FnId) (k : SlotId) (r : SecRow), s.SecReady f k 0x32 r) ∧
    (∃ (s : State) (f : FnId) (k : SlotId) (r : SecRow), s.SecReady f k 0x33 r) ∧
    (∃ (s : State) (f : FnId) (k : SlotId) (r : SecRow), s.SecReady f k 0x34 r) ∧
    (∃ (s : State) (f : FnId) (k : SlotId) (r : SecRow), s.SecReady f k 0x35 r) ∧
    (∃ (s : State) (f : FnId) (k : SlotId) (r : SecRow), s.SecReady f k 0x36 r) ∧
    (∃ (s : State) (f : FnId) (k : SlotId) (r : SecRow), s.SecReady f k 0x37 r) ∧
    (∃ (s : State) (f : FnId) (k : SlotId) (h : List Byte) (r : SecRow) (e : Nat), s.SecReady f k 0x38 r ∧ e = beNat ((((s.cmd f k).input h).drop 384).take 4)) ∧
    (∃ (s : State) (f : FnId) (k : SlotId) (h : List Byte) (r : SecRow) (e : Nat), s.SecReady f k 0x39 r ∧ e = beNat ((((s.cmd f k).input h).drop 512).take 4)) ∧
    (∃ (s : State) (f : FnId) (k : SlotId) (r : SecRow), s.SecReady f k 0x40 r) ∧
    (∃ (s : State) (f : FnId) (k : SlotId) (r : SecRow), s.SecReady f k 0x41 r) :=
  ⟨⟨secScene 48 32 (some { type_ := 0x10, usage := 1, material := List.replicate 32 1 }) [], 1, 0, (secRow 48).getD { op := 0, types := [] }, secReady_of (by decide +kernel)⟩,
    ⟨secScene 49 48 (some { type_ := 0x11, usage := 1, material := List.replicate 48 1 }) [], 1, 0, (secRow 49).getD { op := 0, types := [] }, secReady_of (by decide +kernel)⟩,
    ⟨secScene 50 161 none [], 1, 0, (secRow 50).getD { op := 0, types := [] }, secReady_of (by decide +kernel)⟩,
    ⟨secScene 51 241 none [], 1, 0, (secRow 51).getD { op := 0, types := [] }, secReady_of (by decide +kernel)⟩,
    ⟨secScene 52 4096 (some { type_ := 0x12, usage := 1, material := List.replicate 32 1 }) [], 1, 0, (secRow 52).getD { op := 0, types := [] }, secReady_of (by decide +kernel)⟩,
    ⟨secScene 53 96 none [], 1, 0, (secRow 53).getD { op := 0, types := [] }, secReady_of (by decide +kernel)⟩,
    ⟨secScene 54 48 (some { type_ := 0x20, usage := 1, material := List.replicate 964 1 }) [], 1, 0, (secRow 54).getD { op := 0, types := [] }, secReady_of (by decide +kernel)⟩,
    ⟨secScene 55 48 (some { type_ := 0x21, usage := 1, material := List.replicate 1284 1 }) [], 1, 0, (secRow 55).getD { op := 0, types := [] }, secReady_of (by decide +kernel)⟩,
    ⟨secScene 56 820 none [], 1, 0, [], (secRow 56).getD { op := 0, types := [] }, beNat (((((secScene 56 820 none []).cmd (1 : FnId) (0 : SlotId)).input []).drop 384).take 4), secReady_of (by decide +kernel), rfl⟩,
    ⟨secScene 57 1076 none [], 1, 0, [], (secRow 57).getD { op := 0, types := [] }, beNat (((((secScene 57 1076 none []).cmd (1 : FnId) (0 : SlotId)).input []).drop 512).take 4), secReady_of (by decide +kernel), rfl⟩,
    ⟨secScene 0x40 100 (some { type_ := 0x31, usage := 1, material := List.replicate 32 1 }) [31], 1, 0, (secRow 64).getD { op := 0, types := [] }, secReady_of (by decide +kernel)⟩,
    ⟨secScene 0x41 7219 none [31], 1, 0, (secRow 65).getD { op := 0, types := [] }, secReady_of (by decide +kernel)⟩⟩

/-- The hypotheses of `Obligations.KeyOperationsFillOnlyDest` can be met, clause by clause. -/
theorem witness_KeyOperationsFillOnlyDest :
    (∃ (w : Nat) (u : Nat), u % 65536 ≠ w % 65536) ∧
    (∃ (s : State) (f : FnId) (k : SlotId) (r : SecRow), s.SecReady f k 0x01 r) ∧
    (∃ (s : State) (f : FnId) (k : SlotId) (r : SecRow), State.SecReady { s with sec := { s.sec with upsets := 0 } } f k 0x01 r ∧ 2 ≤ s.sec.upsets) ∧
    (∃ (s : State) (f : FnId) (k : SlotId) (h : List Byte) (r : SecRow), s.SecReady f k 0x50 r ∧ curveP256.decode ((s.cmd f k).input h) = none) ∧
    (∃ (s : State) (f : FnId) (k : SlotId) (h : List Byte) (r : SecRow) (pt : _) (a : _) (b : _), s.SecReady f k 0x50 r ∧ curveP256.decode ((s.cmd f k).input h) = some pt ∧ curveP256.mul (beNat (s.secKey f k r)) (some pt) = some (a, b) ∧ curveP256.on a b = true) ∧
    (∃ (s : State) (f : FnId) (k : SlotId) (h : List Byte) (r : SecRow), s.SecReady f k 0x51 r ∧ curveP384.decode ((s.cmd f k).input h) = none) ∧
    (∃ (s : State) (f : FnId) (k : SlotId) (h : List Byte) (r : SecRow) (pt : _) (a : _) (b : _), s.SecReady f k 0x51 r ∧ curveP384.decode ((s.cmd f k).input h) = some pt ∧ curveP384.mul (beNat (s.secKey f k r)) (some pt) = some (a, b) ∧ curveP384.on a b = true) ∧
    (∃ (s : State) (f : FnId) (k : SlotId) (r : SecRow), s.SecReady f k 0x52 r) ∧
    (∃ (s : State) (f : FnId) (k : SlotId) (r : SecRow), s.SecReady f k 0x53 r) ∧
    (∃ (s : State) (f : FnId) (k : SlotId) (r : SecRow) (m : List Byte), s.SecReady f k 0x60 r ∧ m = freshMaterial (s.cmd f k).destType.1 (s.cmd f k).destType.2 s.rnd) ∧
    (∃ (s : State) (f : FnId) (k : SlotId) (r : SecRow) (e : CupEntry), s.SecReady f k 0x61 r ∧ s.secEntry (f.val - 1) r (s.cmd f k) = some e) ∧
    (∃ (s : State) (f : FnId) (k : SlotId) (r : SecRow), s.SecReady f k 0x62 r) ∧
    (∃ (s : State) (f : FnId) (k : SlotId) (r : SecRow), s.SecReady f k 0x63 r) ∧
    (∃ (s : State) (f : FnId) (k : SlotId) (r : SecRow) (n : Nat), n ≤ 15 ∧ s.SecReady f k (0x0100 + n) r) :=
  ⟨⟨3, 65538, by decide +kernel⟩,
    ⟨secScene 0x01 0 none (leBytes 4 (2 ^ 19)), 1, 0, (secRow 1).getD { op := 0, types := [] }, secReady_of (by decide +kernel)⟩,
    ⟨upset 2 (secScene 0x01 0 none (leBytes 4 64)), 1, 0, (secRow 1).getD { op := 0, types := [] }, secReady_of (by decide +kernel), by decide +kernel⟩,
    ⟨secScene 80 65 (some { type_ := 0x10, usage := 2, material := List.replicate 31 0 ++ [1] }) [4, 0, 0, 4], 1, 0, [], (secRow 80).getD { op := 0, types := [] }, secReady_of (by decide +kernel), by decide +kernel⟩,
    ⟨secScene 80 65 (some { type_ := 0x10, usage := 2, material := List.replicate 31 0 ++ [1] }) [4, 0, 0, 4], 1, 0, curveP256.encode curveP256.g, (secRow 80).getD { op := 0, types := [] }, (curveP256.gx, curveP256.gy), curveP256.gx, curveP256.gy, secReady_of (by decide +kernel), by decide +kernel, by decide +kernel, by decide +kernel⟩,
    ⟨secScene 81 97 (some { type_ := 0x11, usage := 2, material := List.replicate 47 0 ++ [1] }) [4, 0, 0, 16], 1, 0, [], (secRow 81).getD { op := 0, types := [] }, secReady_of (by decide +kernel), by decide +kernel⟩,
    ⟨secScene 81 97 (some { type_ := 0x11, usage := 2, material := List.replicate 47 0 ++ [1] }) [4, 0, 0, 16], 1, 0, curveP384.encode curveP384.g, (secRow 81).getD { op := 0, types := [] }, (curveP384.gx, curveP384.gy), curveP384.gx, curveP384.gy, secReady_of (by decide +kernel), by decide +kernel, by decide +kernel, by decide +kernel⟩,
    ⟨secScene 0x52 1568 none [4, 0, 0, 4], 1, 0, (secRow 82).getD { op := 0, types := [] }, secReady_of (by decide +kernel)⟩,
    ⟨secScene 0x53 1568 (some { type_ := 0x30, usage := 2, material := List.replicate 64 1 }) [4, 0, 0, 4], 1, 0, (secRow 83).getD { op := 0, types := [] }, secReady_of (by decide +kernel)⟩,
    ⟨secScene 0x60 0 none [4, 0, 0x10, 3], 1, 0, (secRow 96).getD { op := 0, types := [] }, freshMaterial ((secScene 0x60 0 none [4, 0, 0x10, 3]).cmd (1 : FnId) (0 : SlotId)).destType.1 ((secScene 0x60 0 none [4, 0, 0x10, 3]).cmd (1 : FnId) (0 : SlotId)).destType.2 (secScene 0x60 0 none [4, 0, 0x10, 3]).rnd, secReady_of (by decide +kernel), rfl⟩,
    ⟨secScene 0x61 0 (some { type_ := 0x10, usage := 0, material := List.replicate 32 1 }) [], 1, 0, (secRow 97).getD { op := 0, types := [] }, { type_ := 0x10, usage := 0, material := List.replicate 32 1 }, secReady_of (by decide +kernel), by decide +kernel⟩,
    ⟨secScene 0x62 0 (some { type_ := 0x01, usage := 4, material := List.replicate 32 1 }) [], 1, 0, (secRow 98).getD { op := 0, types := [] }, secReady_of (by decide +kernel)⟩,
    ⟨secScene 0x63 0 (some { type_ := 0x01, usage := 8, material := List.replicate 32 1 }) [4, 0, 0x02, 16], 1, 0, (secRow 99).getD { op := 0, types := [] }, secReady_of (by decide +kernel)⟩,
    ⟨secScene 0x10F 0 none [], 1, 0, (secRow 271).getD { op := 0, types := [] }, 15, by decide +kernel, secReady_of (by decide +kernel)⟩⟩

/-- The hypotheses of `Obligations.HashesRunInChunks` can be met, clause by clause. -/
theorem witness_HashesRunInChunks :
    (∃ (s : State) (f : FnId) (k : SlotId) (h : List Byte) (op : Nat) (r : SecRow) (c : Instr), s.SecReady f k op r ∧ Tab.get none s.sec.hash (f.val - 1) = none ∧ (((op = 0x10 ∧ c = .sha256 f k h) ∨ (op = 0x11 ∧ c = .sha384 f k h) ∨ (op = 0x12 ∧ c = .sha512 f k h) ∨ (op = 0x13 ∧ c = .sha3x256 f k h) ∨ (op = 0x18 ∧ c = .hmacSha256 f k h) ∨ (op = 0x19 ∧ c = .hmacSha384 f k h) ∨ (op = 0x1A ∧ c = .hmacSha512 f k h) ∨ (op = 0x20 ∧ c = .aes256Ctr f k h)))) ∧
    (∃ (s : State) (f : FnId) (k : SlotId) (h : List Byte) (op : Nat) (r : SecRow) (c : Instr), s.SecReady f k op r ∧ Tab.get none s.sec.hash (f.val - 1) = none ∧ (((op = 0x10 ∧ c = .sha256 f k h) ∨ (op = 0x11 ∧ c = .sha384 f k h) ∨ (op = 0x12 ∧ c = .sha512 f k h) ∨ (op = 0x13 ∧ c = .sha3x256 f k h) ∨ (op = 0x18 ∧ c = .hmacSha256 f k h) ∨ (op = 0x19 ∧ c = .hmacSha384 f k h) ∨ (op = 0x1A ∧ c = .hmacSha512 f k h) ∨ (op = 0x20 ∧ c = .aes256Ctr f k h)))) ∧
    (∃ (s : State) (aes : Bool) (ch : Nat) (c : HashCtx), s.sec.nextChannel aes = some ch ∧ Tab.get none s.sec.hash ch = some c ∧ s.sec.upsets = 0 ∧ c.done + 1 < c.chunks) ∧
    (∃ (s : State) (aes : Bool) (ch : Nat) (c : HashCtx) (q : Req), s.sec.nextChannel aes = some ch ∧ Tab.get none s.sec.hash ch = some c ∧ s.sec.upsets = 0 ∧ c.chunks ≤ c.done + 1 ∧ q = ((s.fn c.fn).slot c.slot).req ∧ s.runs c.fn c.slot 0x0701 ∧ q.handle = 0) ∧
    (∃ (s : State) (aes : Bool) (ch : Nat) (c : HashCtx), s.sec.nextChannel aes = some ch ∧ Tab.get none s.sec.hash ch = some c ∧ s.sec.upsets ≠ 0 ∧ c.reran = false) ∧
    (∃ (s : State) (aes : Bool) (ch : Nat) (c : HashCtx), s.sec.nextChannel aes = some ch ∧ Tab.get none s.sec.hash ch = some c ∧ s.sec.upsets ≠ 0 ∧ c.reran = true ∧ s.runs c.fn c.slot 0x0701) :=
  ⟨⟨secScene 16 8192 none [], 1, 0, [], 16, (secRow 16).getD { op := 0, types := [] }, .sha256 1 0 [], secReady_of (by decide +kernel), by decide +kernel, .inl ⟨rfl, rfl⟩⟩,
    ⟨secScene 32 8192 (some { type_ := 0x01, usage := 4, material := List.replicate 32 1 }) [], 1, 0, [], 32, (secRow 32).getD { op := 0, types := [] }, .aes256Ctr 1 0 [], secReady_of (by decide +kernel), by decide +kernel, .inr (.inr (.inr (.inr (.inr (.inr (.inr ⟨rfl, rfl⟩))))))⟩,
    ⟨hashing 1 3, false, 0, hashOf 1 3, by decide +kernel⟩,
    ⟨hashing 2 3, false, 0, hashOf 2 3, ((hashing 2 3).fn 1).slot 0 |>.req, by decide +kernel, by decide +kernel, by decide +kernel, (by decide +kernel), rfl, ⟨by decide +kernel, by decide +kernel⟩, by decide +kernel⟩,
    ⟨upset 1 (hashing 2 3), false, 0, hashOf 2 3, by decide +kernel⟩,
    ⟨upset 1 (rehashing 2 3), false, 0, { hashOf 2 3 with reran := true, mark := 3 }, by decide +kernel, by decide +kernel, by decide +kernel, (by decide +kernel), ⟨by decide +kernel, by decide +kernel⟩⟩⟩

/-- The hypotheses of `Obligations.RoomOperationsWriteLabelAndRuns` can be met, clause by clause. -/
theorem witness_RoomOperationsWriteLabelAndRuns :
    (∃ (s : State) (room : Nat) (dst : Place) (r : RoomResult) (i : _) (e : _) (b : _), dst.cellar = false ∧ dst.off + 128 ≤ atticBytes ∧ ((∀ e, e ∈ r.reads → s.readBad r.pieces e = false ∧ e.outside = false)) ∧ r.mism = none ∧ (s.room room).readsTaint r.reads = false ∧ r.silent = false ∧ r.inner = false ∧ ((∀ e, e ∈ r.runs → 128 ≤ e.1 ∧ dst.off + e.1 + 4 * e.2.length ≤ atticBytes)) ∧ (r.runs.Pairwise (fun a b => a.1 + 4 * a.2.length ≤ b.1 ∨ b.1 + 4 * b.2.length ≤ a.1)) ∧ i < 64 ∧ e ∈ r.runs ∧ i < 4 * e.2.length ∧ (s.room room).block = some b) ∧
    (∃ (s : State) (room : Nat) (dst : Place) (r : RoomResult) (a : _), dst.cellar = false ∧ dst.off + 128 ≤ atticBytes ∧ ((∀ e, e ∈ r.reads → s.readBad r.pieces e = false ∧ e.outside = false)) ∧ r.mism = none ∧ (s.room room).readsTaint r.reads = false ∧ r.silent = false ∧ r.inner = false ∧ ((∀ e, e ∈ r.runs → 128 ≤ e.1 ∧ dst.off + e.1 + 4 * e.2.length ≤ atticBytes)) ∧ (r.runs.Pairwise (fun a b => a.1 + 4 * a.2.length ≤ b.1 ∨ b.1 + 4 * b.2.length ≤ a.1)) ∧ ((∀ i, i < 64 → a ≠ atticKey room (dst.off + i))) ∧ ((∀ e i, e ∈ r.runs → i < 4 * e.2.length → a ≠ atticKey room (dst.off + e.1 + i)))) ∧
    (∃ (s : State) (room : Nat) (dst : Place) (r : RoomResult), ((∀ e, e ∈ r.reads → s.readBad r.pieces e = false ∧ e.outside = false)) ∧ r.mism = none ∧ (s.room room).readsTaint r.reads = false ∧ (dst.labelSpan room).outside = false ∧ r.runs = [] ∧ r.silent = true) ∧
    (∃ (s : State) (room : Nat) (b : Block) (q : _), (s.room room).block = some b ∧ q ≠ room) :=
  ⟨⟨asRoom { block := some { checkpoint := {} } } tenant, 0, { cellar := false, off := atticBytes - 256 }, result1, 11, (128, [1, 2, 3]), { checkpoint := {} }, by decide +kernel⟩,
    ⟨tenant, 0, { cellar := false, off := 0 }, result1, 2 ^ 32, by decide +kernel, by decide +kernel, by decide +kernel, (by decide +kernel), by decide +kernel, by decide +kernel, by decide +kernel, (by decide +kernel), by decide +kernel, by decide +kernel, by intro e i he hi; rw [List.mem_singleton.mp he] at hi ⊢; simp [atticKey] at hi ⊢; omega⟩,
    ⟨tenant, 0, { cellar := false, off := 0 }, { result1 with runs := [], silent := true }, by decide +kernel⟩,
    ⟨asRoom { block := some { checkpoint := {} } } tenant, 0, { checkpoint := {} }, 1, by decide +kernel⟩⟩

end Sys2Proof.Tests
end

