-- ==== Sys2Proof/Tests/Witnesses04.lean ====
section
/-! SUPPORT. Witnesses: states and operands that meet the hypotheses of the obligations, part 4. -/

namespace Sys2Proof.Tests

open Sys2Proof.Machine

set_option maxRecDepth 20000
set_option Elab.async false

/-- A result that reads 64 bytes of the room's attic and writes three words. -/
def openResult : RoomResult :=
  { lab := Label.zero, runs := [(128, [1, 2, 3])], fresh := false, reads := [{ room := 0, cellar := false, off := 0, len := 64 }], mism := none }

/-- Room 0 in its second execution, a byte of its attic with wrong parity. -/
def hit : State :=
  let s := asRoom { block := some { execs := 2, checkpoint := {} } } tenant
  { s with mem := { s.mem with atticBad := [(63, true)] } }

/-- A key of one chain limb, one digit and one special limb. -/
def smallKey : KeyHdr := { key9 7 with keyLimbs := 1, digits := 1, special := 1, bodyBytes := 16384 }

/-- A plan of the approximate refresh. -/
def plan0 : Plan :=
  { kind := 0, logN := 12, logSlots := 11, top := 2, inDepth := 1, midDepth := 1, outDepth := 0, keyset := 5, lweDim := 0, outScale := 30000, outNoise := 5000
    constHome := 0, rotCount := 1 }

/-- The ciphertexts with a program of that plan loaded as program 1. -/
def planned : State := cipher.setPart 0 { ciphering with programs := [(1, some { program with plans := [plan0] })] }

/-- A refresh of that plan whose last stage is left. -/
def progress2 : Progress := { dst := att 0x3000, part := 2, lab := cipherLabel, words := [1] }

/-- The planned partition in the middle of that refresh. -/
def resumed : State := (planned.setRoom 0 { progress := some progress2 }).setRoom 1 { progress := some progress2 }

/-- A label of one coefficient and one limb. -/
def tinyLabel : Label := { cipherLabel with logN := 0, level := 0, limbs := 1 }

/-- The label of a tensor of one dimension. -/
def tensorLabel (dim : Nat) : Label :=
  ({ form := 3, logN := 0, check := false, poison := false, repr := false, limbs := 0, level := 0, polys := 0, layout := 1, home := 0, keyset := 0, cause := 0
     scale := 0, noise := 0, producer := 0, info := [0, 1, 0, 0, dim, 0, 0, 1, 0, 0, 1, 0, 0, 1, 0, 0], bodyBytes := 0 } : Label).sized 2

/-- Tensors of unlike shapes. -/
def tensors : TensorRef := { dst := att 0x3000, ins := [att 0x1000, att 0x2000], last := true }

/-- One of them. -/
def oneTensor : TensorRef := { dst := att 0x3000, ins := [att 0x1000], last := true }

/-- They lie in the attic of both rooms. -/
def tensored : State := withAttic 0x2000 (tensorLabel 16).bytes (withAttic 0x1000 (tensorLabel 8).bytes tenant)

/-- An integer addition of 2,048 elements of the attic and of a register. -/
def vadd : VInstr :=
  { len := 2048, fromVcount := false, a := .attic 0, b := .none, c := .reg 31, convert := .bypass, mul := .bypass, add := .int false, compare := .bypass
    approx := .bypass, pack := .bypass, dst := 31, dstAttic := none, tensor := none }

/-- Both rooms hold a noise key. -/
def noisy : State := (cipher.setRoom 0 { noiseKey := some 1 }).setRoom 1 { noiseKey := some 1 }

/-- Two rows of eight uniform integers. -/
def rand16 : RandOp := { seed := 1, stream := 2, dist := 0, param := 16, base := 2 ^ 64 - 1, form := 3, rank := 2, dims := [8, 2], layout := 1, home := 1 }

/-- Two sound operands for the statements that speak of `LimbRule`. -/
theorem witness_sound : cipher.Sound 0 0 [att 0x1000, att 0x2000] [cipherLabel, cipherLabel] { keys3 with active := true } :=
  ⟨by decide +kernel, by decide +kernel, by decide +kernel⟩

/-- The hypotheses of `Obligations.OperationsTouchOnlyDispatchingRooms` can be met, clause by clause. -/
theorem witness_OperationsTouchOnlyDispatchingRooms :
    (∃ (s : State) (p : Nat) (q : Nat) (r : _), r ∉ s.opRooms p q) ∧
    (∃ (s : State) (p : Nat) (q : Nat) (r : _) (o : _), r ∉ s.opRooms p q ∧ o < 2 ^ 32) ∧
    (∃ (s : State) (p : Nat) (q : Nat) (r : _) (o : _), r ∉ s.opRooms p q ∧ o < 2 ^ 36) ∧
    (∃ (s : State) (room : Nat) (dst : Place) (r : RoomResult) (b : Block) (e : Span), (s.room room).block = some b ∧ b.execs < 3 ∧ e ∈ r.reads ∧ s.readBad r.pieces e = true ∧ ((∀ x, x ∈ r.reads → x.outside = false)) ∧ ((∀ x, x ∈ r.writes room dst → x.outside = false))) :=
  ⟨⟨tenant, 0, 0, 2, by decide +kernel⟩,
    ⟨tenant, 0, 1, 15, 2 ^ 32 - 1, by decide +kernel⟩,
    ⟨tenant, 0, 3, 15, 2 ^ 36 - 1, by decide +kernel⟩,
    ⟨hit, 0, att 0x1000, openResult, { execs := 2, checkpoint := {} }, { room := 0, cellar := false, off := 0, len := 64 }, by decide +kernel⟩⟩

/-- The hypotheses of `Obligations.LevelAndRepresentationRules` can be met, clause by clause. -/
theorem witness_LevelAndRepresentationRules :
    ∃ (dst : Place) (a : Place), dst ≠ a :=
  ⟨att 0x3000, att 0x1000, by decide +kernel⟩

/-- The hypotheses of `Obligations.ConversionsAndCopies` can be met, clause by clause. -/
theorem witness_ConversionsAndCopies :
    (∃ (s : State) (p : PartId) (o : Place) (copies : List (List Byte)), copies = (s.part p).rooms.map (fun r => s.spanBytes (o.labelSpan r))) ∧
    (∃ (s : State) (p : PartId) (home : Nat), home < (s.part p).rooms.length) :=
  ⟨⟨cipher, 0, att 0x1000, (cipher.part 0).rooms.map (fun r => cipher.spanBytes ((att 0x1000).labelSpan r)), rfl⟩,
    ⟨cipher, 0, 1, by decide +kernel⟩⟩

/-- The hypotheses of `Obligations.KeySwitchesFollowTheFivePhases` can be met, clause by clause. -/
theorem witness_KeySwitchesFollowTheFivePhases :
    (∃ (s : State) (p : PartId) (dst : Place) (a : Place) (kind : Nat) (w : Word) (c : Instr), (((c = .relinearise p dst a ∧ kind = 0 ∧ w = 0) ∨ (c = .rotate p dst a w ∧ kind = 1) ∨ (c = .conjugate p dst a ∧ kind = 1 ∧ w = 0x80000000) ∨ (c = .keySwitch p dst a kind w ∧ kind ≤ 2))) ∧ s.opHot p [dst, a] = false ∧ s.setsValid p (fun room => switchNeed (s.labelAt (s.part p) room a).lab (s.switchPlan p room a kind w.toNat (if consumes kind (s.labelAt (s.part p) room a).ring w.toNat then (s.room room).keyEntries.head? else none) (s.groupAt p a kind w.toNat 0))) = true ∧ s.entriesThere p (fun room => if consumes kind (s.labelAt (s.part p) room a).ring w.toNat then 1 else 0) = true ∧ s.tilesThere p) ∧
    (∃ (s : State) (p : PartId) (dst : Place) (a : Place) (w : Word) (c : Instr), ((c = .rotate p dst a w ∨ c = .keySwitch p dst a 1 w)) ∧ s.entriesThere p (fun room => if consumes 1 (s.labelAt (s.part p) room a).ring w.toNat then 1 else 0) = false) ∧
    (∃ (x : Room) (e : KeyEntry) (b : _) (i : _), x.block = some b ∧ e.key = some i) :=
  ⟨⟨cipher, 0, att 0x3000, att 0x1000, 1, 1, .rotate 0 (att 0x3000) (att 0x1000) 1, .inr (.inl ⟨rfl, rfl⟩), by decide +kernel, by decide +kernel, by decide +kernel, tiles_of (by decide +kernel)⟩,
    ⟨asRoom {} cipher, 0, att 0x3000, att 0x1000, 1, .keySwitch 0 (att 0x3000) (att 0x1000) 1 1, .inr rfl, by decide +kernel⟩,
    ⟨{ cipher.room 0 with block := some block0 }, { galoisEntry with ids := [2] }, block0, (9, 7), by decide +kernel⟩⟩

/-- The hypotheses of `Obligations.RotationGroupsAndPins` can be met, clause by clause. -/
theorem witness_RotationGroupsAndPins :
    (∃ (s : State) (u : State) (p : PartId) (dsts : List Place) (a : Place) (codes : List Word), 1 ≤ codes.length ∧ codes.length ≤ 64 ∧ dsts.length = codes.length ∧ s.opHot p (a :: dsts) = false ∧ u = s.pulled p (s.groupEntries p a codes) ∧ u.entriesThere p (s.groupEntries p a codes) = true ∧ u.tilesThere p ∧ u.setsValid p (u.hoistedNeed p a codes) = true) ∧
    (∃ (s : State) (p : Nat) (n : Nat → Nat), s.entriesThere p n = true) ∧
    (∃ (s : State) (p : Nat) (room : Nat) (a : Place) (w : Word) (e : KeyEntry) (l : Label) (k : KeySet) (u : KeyUse), s.Sound p room [a] [l] k ∧ s.Served p l 1 w.toNat e u ∧ consumes 1 (s.labelAt (s.part p) room a).ring w.toNat = true ∧ l.form ≤ 1 ∧ ((l.form = 1 → l.t = k.t)) ∧ l.polys = 2 ∧ k.active = true ∧ budgetCause k (switchLabel l k (s.part p).rooms.length) = none) ∧
    (∃ (s : State) (u : State) (p : PartId) (dst : Place) (a : Place) (codes : List Word), 1 ≤ codes.length ∧ codes.length ≤ 64 ∧ s.opHot p [dst, a] = false ∧ u = s.pulled p (s.groupEntries p a codes) ∧ u.entriesThere p (s.groupEntries p a codes) = true ∧ u.tilesThere p ∧ u.setsValid p (u.accumulateNeed p a codes) = true) ∧
    (∃ (s : State) (p : PartId) (i : Nat) (off : Nat) (home : Nat) (ep : BitVec 32) (share : Nat → Nat), ((∀ room, room ∈ s.opRooms p → (s.part p).pinned room i = some (ep, home, share))) ∧ s.opRooms p ≠ [] ∧ (s.opRooms p).Nodup ∧ s.hotStack p = false ∧ ((∀ room n, room ∈ s.opRooms p → n = share (((s.part p).rooms.findIdx? (· == room)).getD 0) → off + n ≤ atticBytes ∧ home + 128 + n ≤ stackBytes ∧ s.spanBad { room := room, cellar := true, off := home + 128, len := n } = false))) ∧
    (∃ (s : State) (p : PartId) (room : Nat) (i : Nat) (h : KeyHdr), i < 4096 ∧ ((s.part p).keyAt i).inRoom room = some h) ∧
    (∃ (s : State) (p : PartId), s.opRooms p ≠ [] ∧ s.busyRooms p = []) ∧
    (∃ (s : State) (p : PartId), s.opRooms p ≠ [] ∧ s.busyRooms p ≠ []) :=
  ⟨⟨cipher, cipher.pulled 0 (cipher.groupEntries 0 (att 0x1000) (1 :: List.replicate 63 0)), 0, List.replicate 64 (att 0x3000), att 0x1000, 1 :: List.replicate 63 0, by decide +kernel, by decide +kernel, by decide +kernel, (by decide +kernel), rfl, by decide +kernel, tiles_of (by decide +kernel), by decide +kernel⟩,
    ⟨cipher, 0, fun _ => 1, by decide +kernel⟩,
    ⟨cipher, 0, 0, att 0x1000, 1, galoisEntry, cipherLabel, { keys3 with active := true }, { hdr := galoisKey, pinned := false }, ⟨by decide +kernel, by decide +kernel, by decide +kernel⟩, ⟨rfl, by decide +kernel, by decide +kernel⟩, by decide +kernel, by decide +kernel, by decide +kernel, (by decide +kernel), by decide +kernel, by decide +kernel⟩,
    ⟨cipher, cipher.pulled 0 (cipher.groupEntries 0 (att 0x1000) (1 :: List.replicate 63 0)), 0, att 0x3000, att 0x1000, 1 :: List.replicate 63 0, by decide +kernel, by decide +kernel, by decide +kernel, rfl, by decide +kernel, tiles_of (by decide +kernel), by decide +kernel⟩,
    ⟨asPart { part2 with keys := [(4095, { cur := some smallKey })] } ready, 0, 4095, atticBytes - 16384, smallKey.home, smallKey.epoch, smallKey.shareBytes 2, fun _ _ => rfl, by decide +kernel, by decide +kernel, by decide +kernel, by intro room n hr hn; subst hn; revert room; decide +kernel⟩,
    ⟨cipher, 0, 0, 9, galoisKey, by decide +kernel⟩,
    ⟨cipher, 0, by decide +kernel⟩,
    ⟨asRoom { block := some { checkpoint := {} } } cipher, 0, by decide +kernel⟩⟩

/-- The hypotheses of `Obligations.RefreshesGiveThePlansLabel` can be met, clause by clause. -/
theorem witness_RefreshesGiveThePlansLabel :
    (∃ (s : State) (p : PartId) (dst : Place) (a : Place) (prog : Nat) (plan : Nat) (c : Instr) (form : Nat) (gp : Plan), (s.part p).plan prog plan = some gp ∧ (((c = .approximateRefresh p dst a prog plan ∧ form = 0) ∨ (c = .exactRefresh p dst a prog plan ∧ form = 1))) ∧ s.hotStack p = false ∧ (∀ special, s.setsValid p (fun _ => switchSets gp.keyset gp.top special true) = true) ∧ s.entriesThere p (fun _ => gp.rotCount) = true ∧ s.tilesThere p ∧ ((∀ room, room ∈ s.opRooms p → (s.room room).goesOn dst = none))) ∧
    (∃ (s : State) (p : PartId) (dst : Place) (prog : Nat) (plan : Nat) (gp : Plan), (s.part p).plan prog plan = some gp ∧ s.hotStack p = false ∧ (∀ special, s.setsValid p (fun _ => switchSets gp.keyset gp.top special true) = true) ∧ s.entriesThere p (fun _ => gp.rotCount) = true ∧ s.tilesThere p ∧ ((∀ room, room ∈ s.opRooms p → (s.room room).goesOn dst = none))) ∧
    (∃ (s : State) (p : PartId) (dst : Place) (a : Place) (src : Place) (prog : Nat) (plan : Nat) (last : Nat) (c : Instr) (gp : Plan) (pl : Plan), (s.part p).plan prog plan = some gp ∧ ((((c = .approximateRefresh p dst a prog plan ∨ c = .exactRefresh p dst a prog plan) ∧ src = a ∧ last = 2 ∧ pl = gp) ∨ (c = .pack p dst a src prog plan ∧ last = 1 ∧ pl = { gp with outDepth := 0 }))) ∧ s.hotStack p = false ∧ (∀ special, s.setsValid p (fun _ => switchSets gp.keyset gp.top special true) = true) ∧ s.tilesThere p ∧ ((∀ room, room ∈ s.opRooms p → ∃ g, (s.room room).goesOn dst = some g ∧ ((s.part p).ksOf (s.labelAt (s.part p) room src).lab).isSome = true ∧ gp.rotCount - g.words.headD 0 ≤ (s.room room).keyEntries.length))) ∧
    (∃ (tag : Nat) (inputs : List (List Nat)) (k : KeySet) (l : Label) (e : Nat × Nat × List Nat) (w : Nat), e ∈ stageLimbs tag inputs k l ∧ e.1 ≠ l.limbs ∧ 0 < (k.modAt l e.1).p ∧ w ∈ e.2.2) ∧
    (∃ (s : State) (p : PartId) (dst : Place) (a : Place) (positions : List Nat), positions ≠ [] ∧ s.opHot p [dst, a] = false ∧ s.setsValid p (fun room => extractNeed (s.part p) (s.labelAt (s.part p) room a).lab (s.extractPlan p room a positions (s.entriesAt p (fun _ => some 0)))) = true ∧ s.entriesThere p (fun _ => 1) = true ∧ s.tilesThere p) ∧
    (∃ (s : State) (p : PartId) (dsts : List Place) (tables : List Place), 1 ≤ tables.length ∧ tables.length ≤ 4 ∧ dsts.length = tables.length ∧ s.hotStack p = false) :=
  ⟨⟨planned, 0, att 0x3000, att 0x1000, 1, 0, .approximateRefresh 0 (att 0x3000) (att 0x1000) 1 0, 0, plan0, by decide +kernel, .inl ⟨rfl, rfl⟩, by decide +kernel, (fun _ => rfl), by decide +kernel, tiles_of (by decide +kernel), by decide +kernel⟩,
    ⟨planned, 0, att 0x3000, 1, 0, plan0, by decide +kernel, by decide +kernel, (fun _ => rfl), by decide +kernel, tiles_of (by decide +kernel), by decide +kernel⟩,
    ⟨resumed, 0, att 0x3000, att 0x1000, att 0x1000, 1, 0, 2, .approximateRefresh 0 (att 0x3000) (att 0x1000) 1 0, plan0, plan0, by decide +kernel, .inl ⟨.inl rfl, rfl, rfl, rfl⟩, by decide +kernel, (fun _ => rfl), tiles_of (by decide +kernel), by intro room h; refine ⟨progress2, ?_⟩; revert room; decide +kernel⟩,
    ⟨0, [], keys3, tinyLabel, (0, 0, [(Config.stageWord 0 [] ((0 * 64 + 0) * tinyLabel.n + 0)).toNat % (keys3.modAt tinyLabel 0).p]), (Config.stageWord 0 [] ((0 * 64 + 0) * tinyLabel.n + 0)).toNat % (keys3.modAt tinyLabel 0).p, .head _, by decide +kernel, by decide +kernel, .head _⟩,
    ⟨cipher, 0, att 0x3000, att 0x1000, [4095], by decide +kernel, by decide +kernel, by decide +kernel, (by decide +kernel), tiles_of (by decide +kernel)⟩,
    ⟨cipher, 0, List.replicate 4 (att 0x3000), List.replicate 4 (att 0x4000), by decide +kernel⟩⟩

/-- The hypotheses of `Obligations.SampleArithmetic` can be met, clause by clause. -/
theorem witness_SampleArithmetic :
    ∃ (p : PartId) (dst : Place) (a : Place) (b : Place) (c : Instr) (op : Modulus → Nat → Nat → Nat), (((c = .lweAdd p dst a b ∧ op = laneAdd) ∨ (c = .lweSubtract p dst a b ∧ op = laneSub))) :=
  ⟨0, att 0x3000, att 0x1000, att 0x2000, .lweSubtract 0 (att 0x3000) (att 0x1000) (att 0x2000), laneSub, .inr ⟨rfl, rfl⟩⟩

/-- The hypotheses of `Obligations.VectorChainWritesItsDestination` can be met, clause by clause. -/
theorem witness_VectorChainWritesItsDestination :
    (∃ (s : State) (r : RoomId) (v : VInstr) (n : Nat), s.vecRuns r = true ∧ v.tensor = none ∧ n = s.vecLen r v ∧ 1 ≤ n ∧ n ≤ 2048 ∧ ((∀ e, e ∈ v.reads r n → e.outside = false ∧ s.spanBad e = false)) ∧ (∀ c f, v.compare ≠ .mask c f) ∧ (∀ m, v.pack ≠ .compress m) ∧ (∀ o b, v.pack ≠ .block4 o b) ∧ ((∀ o, v.dstAttic = some o → o + 4 * n ≤ atticBytes))) ∧
    (∃ (s : State) (r : RoomId) (v : VInstr) (n : Nat) (o : Nat) (b : Bool), s.vecRuns r = true ∧ v.tensor = none ∧ n = s.vecLen r v ∧ 1 ≤ n ∧ n ≤ 2048 ∧ v.pack = .block4 o b ∧ ((∀ e, e ∈ v.reads r n → e.outside = false ∧ s.spanBad e = false)) ∧ (∀ c f, v.compare ≠ .mask c f) ∧ v.dstAttic = none ∧ o + (s.vecResult r v n).2.1.length ≤ atticBytes) ∧
    (∃ (s : State) (r : RoomId) (v : VInstr) (n : Nat) (cmp : Fin 3) (fp : Bool), s.vecRuns r = true ∧ v.tensor = none ∧ n = s.vecLen r v ∧ 1 ≤ n ∧ n ≤ 2048 ∧ v.compare = .mask cmp fp ∧ ((∀ e, e ∈ v.reads r n → e.outside = false ∧ s.spanBad e = false)) ∧ v.pack = .bypass ∧ ((∀ o, v.dstAttic = some o → o + 4 * ceilDiv n 32 ≤ atticBytes))) ∧
    (∃ (s : State) (r : RoomId) (src : VSrc) (n : Nat), s.vecRuns r = true ∧ src.tensors = none ∧ 1 ≤ n ∧ n ≤ 2048 ∧ ((∀ e, e ∈ src.spans r n → e.outside = false ∧ s.spanBad e = false))) ∧
    (∃ (s : State) (r : RoomId) (src : VSrc) (m : Fin 32) (n : Nat), s.vecRuns r = true ∧ src.tensors = none ∧ 2048 < n ∧ (s.keptWords r src m n).length ≤ 65536 ∧ ((∀ e, e ∈ (List.range (ceilDiv n 2048)).flatMap (fun k => (src.piece k).spans r (min 2048 (n - 2048 * k))) → e.outside = false ∧ s.spanBad e = false))) ∧
    (∃ (s : State) (r : RoomId) (src : VSrc) (fill : VSrc) (runLen : Nat) (n : Nat), s.vecRuns r = true ∧ src.tensors = none ∧ 1 ≤ n ∧ n ≤ 2048 ∧ ((∀ e, e ∈ src.spans r runLen ++ fill.spans r n → e.outside = false ∧ s.spanBad e = false))) ∧
    (∃ (s : State) (r : RoomId) (v : VInstr), s.vecRuns r = true ∧ v.tensor = none ∧ v.fromVcount = true ∧ (s.room r).vcount = 0 ∧ ((∀ e, e ∈ v.reads r 0 → e.outside = false ∧ s.spanBad e = false)) ∧ v.dstAttic = none ∧ v.pack = .bypass) ∧
    (∃ (s : State) (r : RoomId) (t : TensorRef) (p : Nat) (c : Instr) (all : Bool), ((∃ v, c = .vectorOperation r v ∧ v.tensor = some t ∧ all = true) ∨ (∃ src m dst n, c = .compress r src m dst n ∧ src.tensors = some t ∧ all = false) ∨ (∃ src len m fill dst n, c = .expand r src len m fill dst n ∧ src.tensors = some t ∧ all = false)) ∧ s.vecRuns r = true ∧ s.ownerOf r = some p ∧ s.opHot p (t.dst :: t.ins) = false ∧ (tensorDecision (t.ins.map (s.labelAt (s.part p) r)) all).ends = true) ∧
    (∃ (s : State) (u : State) (r : RoomId) (v : VInstr) (t : TensorRef) (p : Nat) (d : Decision), s.vecRuns r = true ∧ s.ownerOf r = some p ∧ v.tensor = some t ∧ s.opHot p (t.dst :: t.ins) = false ∧ d = tensorDecision (t.ins.map (s.labelAt (s.part p) r)) true ∧ d.ends = false ∧ t.last = true ∧ ((∀ e, e ∈ t.ins.map (·.labelSpan r) ++ v.reads r (s.vecLen r v) → s.spanBad e = false)) ∧ (s.room r).readsTaint (t.ins.map (·.labelSpan r) ++ v.reads r (s.vecLen r v)) = false ∧ u = ((t.ins.map (·.labelSpan r)).foldl State.countRead s).vecRun r v ∧ (u.room r).block.any (fun b => b.error.isSome || b.failed) = false) ∧
    (∃ (ins : List LabelIn), inputCause ins = none ∧ ((∀ l, l ∈ ins → l.lab.form = 3)) ∧ shapesAgree (ins.map (·.lab)) = false) :=
  ⟨⟨tenant, 0, { vadd with dstAttic := some (atticBytes - 8192) }, 2048, by decide +kernel, rfl, by decide +kernel, by decide +kernel, by decide +kernel, (by decide +kernel), nofun, nofun, nofun, by intro o h; cases h; decide +kernel⟩,
    ⟨tenant, 0, { vadd with len := 4, pack := .block4 (atticBytes - 1) true }, 4, atticBytes - 1, true, by decide +kernel, rfl, by decide +kernel, by decide +kernel, by decide +kernel, rfl, by decide +kernel, nofun, by decide +kernel, by decide +kernel⟩,
    ⟨tenant, 0, { vadd with compare := .mask 2 false }, 2048, 2, false, by decide +kernel, rfl, by decide +kernel, by decide +kernel, by decide +kernel, rfl, by decide +kernel, rfl, nofun⟩,
    ⟨tenant, 1, .attic (atticBytes - 8192), 2048, by decide +kernel⟩,
    ⟨tenant, 1, .attic (atticBytes - 8196), 31, 2049, by decide +kernel⟩,
    ⟨tenant, 1, .attic (atticBytes - 64), .attic (atticBytes - 8192), 16, 2048, by decide +kernel⟩,
    ⟨tenant, 0, { vadd with fromVcount := true }, by decide +kernel, rfl, by decide +kernel, by decide +kernel, by decide +kernel, rfl, rfl⟩,
    ⟨tensored, 0, tensors, 0, .vectorOperation 0 { vadd with tensor := some tensors }, true, .inl ⟨_, rfl, rfl, rfl⟩, by decide +kernel, by decide +kernel, by decide +kernel, (by decide +kernel)⟩,
    ⟨tensored, (([att 0x1000].map (·.labelSpan 0)).foldl State.countRead tensored).vecRun 0 { vadd with tensor := some oneTensor }, 0, { vadd with tensor := some oneTensor }, oneTensor, 0, tensorDecision ([att 0x1000].map (tensored.labelAt (tensored.part 0) 0)) true, by decide +kernel, by decide +kernel, rfl, by decide +kernel, rfl, by decide +kernel, rfl, by decide +kernel, by decide +kernel, rfl, by decide +kernel⟩,
    ⟨[{ lab := tensorLabel 8, one := true, ok := true }, { lab := tensorLabel 16, one := true, ok := true }], by decide +kernel⟩⟩

/-- The hypotheses of `Obligations.MatrixProductsAccumulate` can be met, clause by clause. -/
theorem witness_MatrixProductsAccumulate :
    ∃ (s : State) (r : RoomId) (m : MatOp), s.roomRuns r = true ∧ (s.room r).queueClear 0 = true ∧ m.tensor = none ∧ 1 ≤ m.segs ∧ m.words % m.segs = 0 ∧ ((∀ e, e ∈ [({ room := r, cellar := false, off := m.wOff, len := m.rows * m.words * (if m.bf16 then 2 else 4) } : Span), { room := r, cellar := false, off := m.xOff, len := m.words * (if m.bf16 then 2 else 4) }] → e.outside = false ∧ s.spanBad e = false)) ∧ m.yOff + 4 * m.rows * m.segs ≤ atticBytes :=
  ⟨tenant, 1, { rows := 2, words := 4, segs := 2, bf16 := false, signedW := true, signedX := false, wOff := 0, xOff := atticBytes - 16, yOff := atticBytes - 16, wide := true, tensor := none }, by decide +kernel⟩

/-- The hypotheses of `Obligations.EncodeNoiseAndSampling` can be met, clause by clause. -/
theorem witness_EncodeNoiseAndSampling :
    (∃ (s : State) (p : PartId) (d : FloodOp), d.okOp = true ∧ ((∀ room, room ∈ s.opRooms p → (s.room room).noiseKey.isSome = true))) ∧
    (∃ (s : State) (p : PartId), (s.opRooms p).Nodup ∧ ((∀ room, room ∈ s.opRooms p → (s.room room).noiseKey.isSome = true))) ∧
    (∃ (s : State) (p : PartId) (g : RandOp), ((g.form.val = 3 → g.okOp (s.part p).rooms.length = true))) ∧
    (∃ (g : RandOp) (r : Nat) (c : Nat), g.dist = 0 ∧ c < g.dims.headD 1 ∧ r < ((List.range (g.rank - 1)).map (fun i => g.dims.getD (i + 1) 1)).foldl (· * ·) 1) :=
  ⟨⟨noisy, 0, .uniform 62, by decide +kernel⟩,
    ⟨noisy, 0, by decide +kernel⟩,
    ⟨tenant, 0, rand16, by decide +kernel⟩,
    ⟨rand16, 1, 7, by decide +kernel⟩⟩

end Sys2Proof.Tests
end

