-- ==== Sys2Proof/Tests/Witnesses05.lean ====
section
/-! SUPPORT. Witnesses: states and operands that meet the hypotheses of the obligations, part 5. -/

namespace Sys2Proof.Tests

open Sys2Proof.Machine

set_option maxRecDepth 20000
set_option Elab.async false

/-- A descriptor with every field at its largest. -/
def topDesc : Desc :=
  { op := 255, flags := 255, srcSpace := 255, dstSpace := 255, srcRoom := 255, dstRoom := 255, dstModule := 65535, srcBase := 2 ^ 64 - 1, dstBase := 2 ^ 64 - 1
    blkLines := 65535, hostBuf := 65535, blkRows := 2 ^ 32 - 1, srcPitch := 2 ^ 32 - 1, dstPitch := 2 ^ 32 - 1, idxBase := 2 ^ 64 - 1, idxSpace := 255
    idxForm := 255, token := 65535, idxCount := 2 ^ 32 - 1, rowStride := 2 ^ 64 - 1, colStride := 2 ^ 32 - 1, fillWord := 0xFFFFFFFF }

/-- A FILL of two rows of two lines in the attic of room 1. -/
def fillDesc : Desc :=
  { op := 6, flags := 0, srcSpace := 0, dstSpace := 0, srcRoom := 0, dstRoom := 1, dstModule := 0, srcBase := 0, dstBase := 0x100, blkLines := 2, hostBuf := 0
    blkRows := 2, srcPitch := 0, dstPitch := 0x200, idxBase := 0, idxSpace := 0, idxForm := 0, token := 63, idxCount := 0, rowStride := 0, colStride := 0
    fillWord := 7 }

/-- Channel 0 of room 0 has four descriptors in its queue. -/
def crowded : State := asRoom { channels := [(0, { queue := List.replicate 4 (fillDesc, []) })] } tenant

/-- A COPY of two rows of a line from the cellar to the attic. -/
def moveDesc : Desc := { fillDesc with op := 0, srcSpace := 1, blkLines := 1, srcPitch := 128, dstPitch := 128 }

/-- A pantry gather of one entry, whose index stands at 0x8000 of the room's attic. -/
def gatherDesc : Desc := { fillDesc with op := 4, srcSpace := 1, idxBase := 0x8000, idxForm := 2, idxCount := 1 }

/-- That index entry: 32 bytes at 0x100 of the stack of the partition's room 1. -/
def indexed : State := withAttic 0x8000 (leBytes 8 (2 ^ 41 + 31 * 2 ^ 36 + 0x100)) tenant

/-- A run of channel 0 of room 0. -/
def moving (d : Desc) : StreamCtx := { s0 := indexed, p := 0, room := 0, chan := 0, d := d, third := false }

/-- The hypotheses of `Obligations.DescriptorBytesRoundTrip` can be met, clause by clause. -/
theorem witness_DescriptorBytesRoundTrip :
    (∃ (d : Desc), d.op < 2 ^ 8 ∧ d.srcSpace < 2 ^ 8 ∧ d.dstSpace < 2 ^ 8 ∧ d.srcRoom < 2 ^ 8 ∧ d.dstRoom < 2 ^ 8 ∧ d.dstModule < 2 ^ 16 ∧ d.srcBase < 2 ^ 64 ∧ d.dstBase < 2 ^ 64 ∧ d.blkLines < 2 ^ 16 ∧ d.hostBuf < 2 ^ 16 ∧ d.blkRows < 2 ^ 32 ∧ d.srcPitch < 2 ^ 32 ∧ d.dstPitch < 2 ^ 32 ∧ d.idxBase < 2 ^ 64 ∧ d.idxSpace < 2 ^ 8 ∧ d.idxForm < 2 ^ 8 ∧ d.token < 2 ^ 16 ∧ d.idxCount < 2 ^ 32 ∧ d.rowStride < 2 ^ 64 ∧ d.colStride < 2 ^ 32) ∧
    (∃ (d : Desc) (e : Desc), d.fits = true ∧ e.fits = true ∧ d.bytes = e.bytes) ∧
    (∃ (b : List Byte), b.length = 128) :=
  ⟨⟨topDesc, by decide +kernel⟩,
    ⟨topDesc, topDesc, by decide +kernel⟩,
    ⟨List.replicate 128 0xFF, by decide +kernel⟩⟩

/-- The hypotheses of `Obligations.DescriptorsAreIssuedAndRun` can be met, clause by clause. -/
theorem witness_DescriptorsAreIssuedAndRun :
    (∃ (s : State) (u : State) (p : Nat) (r : RoomId) (ch : ChanId) (d : Desc) (h : List Byte) (c : Instr), Issues s r ch d h u c ∧ u.MayIssue p r ch d) ∧
    (∃ (s : State) (u : State) (p : Nat) (r : RoomId) (ch : ChanId) (d : Desc) (h : List Byte) (c : Instr), Issues s r ch d h u c ∧ u.MayIssue p r ch d) ∧
    (∃ (s : State) (u : State) (p : Nat) (r : RoomId) (ch : ChanId) (d : Desc) (h : List Byte) (c : Instr), Issues s r ch d h u c ∧ u.MayIssue p r ch d) ∧
    (∃ (s : State) (u : State) (p : Nat) (r : RoomId) (ch : ChanId) (d : Desc) (h : List Byte) (c : Instr), Issues s r ch d h u c ∧ u.ownerOf r = some p ∧ d.fits = true ∧ u.roomRuns r = true ∧ ((u.room r).chan ch).hasRoom = true ∧ u.streamWaits p r ch d = true ∧ (u.room r).queueClear 3 = true) ∧
    (∃ (s : State) (u : State) (p : Nat) (r : RoomId) (ch : ChanId) (d : Desc) (h : List Byte) (c : Instr), Issues s r ch d h u c ∧ u.ownerOf r = some p ∧ d.fits = true ∧ u.roomRuns r = true ∧ ((u.room r).chan ch).state ≠ .halted ∧ ((u.room r).queueClear 3 = false ∨ (u.streamWaits p r ch d = true ∧ ((u.room r).chan ch).hasRoom = false))) ∧
    (∃ (s : State) (u : State) (p : Nat) (r : RoomId) (ch : ChanId) (d : Desc) (h : List Byte) (c : Instr), Issues s r ch d h u c ∧ u.ownerOf r = some p ∧ d.fits = true ∧ u.roomRuns r = true ∧ ((u.room r).chan ch).state ≠ .halted ∧ ((u.room r).queueClear 3 = false ∨ (u.streamWaits p r ch d = true ∧ ((u.room r).chan ch).hasRoom = false))) ∧
    (∃ (s : State) (u : State) (p : Nat) (r : RoomId) (ch : ChanId) (d : Desc) (h : List Byte) (c : Instr), Issues s r ch d h u c ∧ u.ownerOf r = some p ∧ d.fits = true ∧ (u.roomRuns r = false ∨ ((u.room r).chan ch).state = .halted)) ∧
    (∃ (s : State) (u : State) (p : Nat) (r : RoomId) (ch : ChanId) (d : Desc) (h : List Byte) (c : Instr), Issues s r ch d h u c ∧ u.ownerOf r = some p ∧ d.fits = true ∧ u.streamWaits p r ch d = false ∧ (u.room r).queueClear 3 = true ∧ d.bad = true) ∧
    (∃ (s : State) (u : State) (p : Nat) (r : RoomId) (ch : ChanId) (d : Desc) (h : List Byte) (c : Instr), Issues s r ch d h u c ∧ u.ownerOf r = some p ∧ d.fits = true ∧ u.streamWaits p r ch d = false ∧ (u.room r).queueClear 3 = true ∧ d.bad = false ∧ d.empty = true) ∧
    (∃ (tok : Nat), tok ≤ 63) :=
  ⟨⟨tenant, tenant, 0, 0, 15, fillDesc, [], .fill 0 15 fillDesc, .fill rfl rfl, ⟨by decide +kernel, by decide +kernel, by decide +kernel, (by decide +kernel), by decide +kernel, by decide +kernel⟩⟩,
    ⟨tenant, tenant, 0, 1, 0, moveDesc, [], .copy 1 0 moveDesc [], .copy (.inl rfl), ⟨by decide +kernel, by decide +kernel, by decide +kernel, (by decide +kernel), by decide +kernel, by decide +kernel⟩⟩,
    ⟨withAttic 0x4000 fillDesc.bytes tenant, (withAttic 0x4000 fillDesc.bytes tenant).countRead { room := 1, cellar := false, off := 0x4000, len := 128 }, 0, 1, 0, fillDesc, [], .descriptorByAddress 1 0 0x4000 [], .byAddress 0x4000 (by decide +kernel) (by decide +kernel) (by decide +kernel) (by decide +kernel) (by decide +kernel), ⟨by decide +kernel, by decide +kernel, by decide +kernel, (by decide +kernel), by decide +kernel, by decide +kernel⟩⟩,
    ⟨asRoom { channels := [(0, { queue := [(fillDesc, [])] })] } tenant, asRoom { channels := [(0, { queue := [(fillDesc, [])] })] } tenant, 0, 0, 0, fillDesc, [], .fill 0 0 fillDesc, .fill rfl rfl, by decide +kernel, by decide +kernel, by decide +kernel, (by decide +kernel), by decide +kernel, by decide +kernel⟩,
    ⟨crowded, crowded, 0, 0, 0, fillDesc, [], .fill 0 0 fillDesc, .fill rfl rfl, by decide +kernel, by decide +kernel, by decide +kernel, (by decide +kernel), .inr (by decide +kernel)⟩,
    ⟨asRoom { queues := [(3, [{ tag := 0, waitTok := some (5, 1) }])] } tenant, asRoom { queues := [(3, [{ tag := 0, waitTok := some (5, 1) }])] } tenant, 0, 0, 0, fillDesc, [], .fill 0 0 fillDesc, .fill rfl rfl, by decide +kernel, by decide +kernel, by decide +kernel, (by decide +kernel), .inl (by decide +kernel)⟩,
    ⟨asRoom { brk := { stopped := true } } tenant, asRoom { brk := { stopped := true } } tenant, 0, 0, 0, fillDesc, [], .fill 0 0 fillDesc, .fill rfl rfl, by decide +kernel, by decide +kernel, .inl (by decide +kernel)⟩,
    ⟨tenant, tenant, 0, 0, 0, { fillDesc with dstSpace := 5 }, [], .fill 0 0 { fillDesc with dstSpace := 5 }, .fill rfl rfl, by decide +kernel, by decide +kernel, by decide +kernel, (by decide +kernel), by decide +kernel⟩,
    ⟨tenant, tenant, 0, 0, 0, { fillDesc with blkRows := 0 }, [], .fill 0 0 { fillDesc with blkRows := 0 }, .fill rfl rfl, by decide +kernel, by decide +kernel, by decide +kernel, (by decide +kernel), by decide +kernel, by decide +kernel⟩,
    ⟨63, by decide +kernel⟩⟩

/-- The hypotheses of `Obligations.BlocksMoveLineByLine` can be met, clause by clause. -/
theorem witness_BlocksMoveLineByLine :
    (∃ (c : StreamCtx) (a : StreamRun) (b : BlockAt) (i : _) (m : _), a.stop = none ∧ c.d.transposed = false ∧ c.d.dstSpace = 0 ∧ ((c.d.op = 6 ∨ c.d.srcSpace ≤ 1)) ∧ b.dstRel < (a.st.part c.p).rooms.length ∧ b.srcRel < (a.st.part c.p).rooms.length ∧ c.overlaps b = [] ∧ ((c.d.blkRows ≤ 1 ∨ 128 * c.d.blkLines ≤ c.d.dstPitch)) ∧ b.dst + c.d.blkRows * c.d.dstPitch + 128 * c.d.blkLines ≤ atticBytes ∧ ((c.d.op ≠ 6 → b.src + c.d.blkRows * c.d.srcPitch + 128 * c.d.blkLines ≤ (if c.d.srcSpace = 1 then stackBytes else atticBytes) ∧ ∀ i k, i < c.d.blkRows → k < c.d.blkLines → a.st.spanBad { room := (a.st.part c.p).roomAt b.srcRel, cellar := c.d.srcSpace = 1, off := b.src + i * c.d.srcPitch + k * 128, len := 128 } = false)) ∧ i < c.d.blkRows ∧ m < 128 * c.d.blkLines) ∧
    (∃ (c : StreamCtx) (a : StreamRun) (b : BlockAt) (x : _), a.stop = none ∧ c.d.transposed = false ∧ c.d.dstSpace = 0 ∧ ((c.d.op = 6 ∨ c.d.srcSpace ≤ 1)) ∧ b.dstRel < (a.st.part c.p).rooms.length ∧ b.srcRel < (a.st.part c.p).rooms.length ∧ c.overlaps b = [] ∧ ((c.d.blkRows ≤ 1 ∨ 128 * c.d.blkLines ≤ c.d.dstPitch)) ∧ b.dst + c.d.blkRows * c.d.dstPitch + 128 * c.d.blkLines ≤ atticBytes ∧ ((c.d.op ≠ 6 → b.src + c.d.blkRows * c.d.srcPitch + 128 * c.d.blkLines ≤ (if c.d.srcSpace = 1 then stackBytes else atticBytes) ∧ ∀ i k, i < c.d.blkRows → k < c.d.blkLines → a.st.spanBad { room := (a.st.part c.p).roomAt b.srcRel, cellar := c.d.srcSpace = 1, off := b.src + i * c.d.srcPitch + k * 128, len := 128 } = false)) ∧ ((∀ i m, i < c.d.blkRows → m < 128 * c.d.blkLines → x ≠ atticKey ((a.st.part c.p).roomAt b.dstRel) (b.dst + i * c.d.dstPitch + m)))) ∧
    (∃ (c : StreamCtx) (a : StreamRun) (b : BlockAt) (i : _) (m : _), a.stop = none ∧ c.d.transposed = false ∧ c.d.dstSpace = 1 ∧ ((c.d.op = 6 ∨ c.d.srcSpace ≤ 1)) ∧ b.dstRel < (a.st.part c.p).rooms.length ∧ b.srcRel < (a.st.part c.p).rooms.length ∧ c.overlaps b = [] ∧ ((c.d.blkRows ≤ 1 ∨ 128 * c.d.blkLines ≤ c.d.dstPitch)) ∧ b.dst % 128 = 0 ∧ c.d.dstPitch % 128 = 0 ∧ b.dst + c.d.blkRows * c.d.dstPitch + 128 * c.d.blkLines ≤ stackBytes ∧ ((c.d.op ≠ 6 → b.src + c.d.blkRows * c.d.srcPitch + 128 * c.d.blkLines ≤ (if c.d.srcSpace = 1 then stackBytes else atticBytes) ∧ ∀ i k, i < c.d.blkRows → k < c.d.blkLines → a.st.spanBad { room := (a.st.part c.p).roomAt b.srcRel, cellar := c.d.srcSpace = 1, off := b.src + i * c.d.srcPitch + k * 128, len := 128 } = false)) ∧ i < c.d.blkRows ∧ m < 128 * c.d.blkLines) ∧
    (∃ (c : StreamCtx) (a : StreamRun) (b : BlockAt) (x : _), a.stop = none ∧ c.d.transposed = false ∧ c.d.dstSpace = 1 ∧ ((c.d.op = 6 ∨ c.d.srcSpace ≤ 1)) ∧ b.dstRel < (a.st.part c.p).rooms.length ∧ b.srcRel < (a.st.part c.p).rooms.length ∧ c.overlaps b = [] ∧ ((c.d.blkRows ≤ 1 ∨ 128 * c.d.blkLines ≤ c.d.dstPitch)) ∧ b.dst % 128 = 0 ∧ c.d.dstPitch % 128 = 0 ∧ b.dst + c.d.blkRows * c.d.dstPitch + 128 * c.d.blkLines ≤ stackBytes ∧ ((c.d.op ≠ 6 → b.src + c.d.blkRows * c.d.srcPitch + 128 * c.d.blkLines ≤ (if c.d.srcSpace = 1 then stackBytes else atticBytes) ∧ ∀ i k, i < c.d.blkRows → k < c.d.blkLines → a.st.spanBad { room := (a.st.part c.p).roomAt b.srcRel, cellar := c.d.srcSpace = 1, off := b.src + i * c.d.srcPitch + k * 128, len := 128 } = false)) ∧ ((∀ i m, i < c.d.blkRows → m < 128 * c.d.blkLines → x ≠ cellarKey ((a.st.part c.p).roomAt b.dstRel) (b.dst + i * c.d.dstPitch + m)))) ∧
    (∃ (c : StreamCtx) (a : StreamRun) (b : BlockAt) (t : Nat) (n : Nat) (j : _) (m : _) (i : _), a.stop = none ∧ c.d.op ≠ 6 ∧ c.d.dstSpace = 0 ∧ c.d.srcSpace = 0 ∧ c.d.blkLines = 1 ∧ n = min 32 (c.d.blkRows - 32 * t) ∧ b.dstRel < c.part.rooms.length ∧ b.srcRel < c.part.rooms.length ∧ 128 ≤ c.d.dstPitch ∧ b.dst + (32 * t + n) * c.d.dstPitch + 128 ≤ atticBytes ∧ b.src + (32 * t + n) * c.d.srcPitch + 128 ≤ atticBytes ∧ ((∀ m, m < n → c.s0.spanBad { room := c.part.roomAt b.srcRel, cellar := false, off := b.src + (32 * t + m) * c.d.srcPitch, len := 128 } = false)) ∧ j < n ∧ m < 32 ∧ i < 4) ∧
    (∃ (c : StreamCtx) (a : StreamRun) (k : Nat) (e : Nat) (n : Nat), c.d.op = 4 ∧ (c.entry a k).1.stop = none ∧ e = (c.entry a k).2 ∧ n = min (bitsOf e 40 36 + 1) (32 - bitsOf e 35 0 % 32) ∧ bitsOf e 44 41 < ((c.entry a k).1.st.part c.p).rooms.length ∧ c.d.dstRoom < ((c.entry a k).1.st.part c.p).rooms.length ∧ bitsOf e 35 0 + n ≤ stackBytes ∧ (c.entry a k).1.st.burstBad (((c.entry a k).1.st.part c.p).roomAt (bitsOf e 44 41)) (bitsOf e 35 0) = false ∧ (c.entry a k).1.st.lineLost (((c.entry a k).1.st.part c.p).roomAt (bitsOf e 44 41)) (bitsOf e 35 0) = false ∧ c.d.dstBase + 32 * k + 32 ≤ atticBytes) ∧
    (∃ (c : StreamCtx) (a : StreamRun) (k : Nat) (e : Nat) (n : Nat) (i : _), c.d.op = 5 ∧ (c.entry a k).1.stop = none ∧ e = (c.entry a k).2 ∧ n = min (bitsOf e 40 36 + 1) (32 - bitsOf e 35 0 % 32) ∧ bitsOf e 44 41 < ((c.entry a k).1.st.part c.p).rooms.length ∧ c.d.srcRoom < ((c.entry a k).1.st.part c.p).rooms.length ∧ bitsOf e 35 0 + n ≤ stackBytes ∧ c.d.srcBase + 32 * k + n ≤ atticBytes ∧ (c.entry a k).1.st.spanBad { room := ((c.entry a k).1.st.part c.p).roomAt c.d.srcRoom, cellar := false, off := c.d.srcBase + 32 * k, len := n } = false ∧ (c.entry a k).1.st.lineLost (((c.entry a k).1.st.part c.p).roomAt (bitsOf e 44 41)) (bitsOf e 35 0) = false ∧ (c.entry a k).1.st.burstBad (((c.entry a k).1.st.part c.p).roomAt (bitsOf e 44 41)) (bitsOf e 35 0) = false ∧ i < n) ∧
    (∃ (c : StreamCtx) (a : StreamRun) (k : Nat) (e : Nat) (n : Nat) (x : _), c.d.op = 5 ∧ (c.entry a k).1.stop = none ∧ e = (c.entry a k).2 ∧ n = min (bitsOf e 40 36 + 1) (32 - bitsOf e 35 0 % 32) ∧ bitsOf e 44 41 < ((c.entry a k).1.st.part c.p).rooms.length ∧ c.d.srcRoom < ((c.entry a k).1.st.part c.p).rooms.length ∧ bitsOf e 35 0 + n ≤ stackBytes ∧ c.d.srcBase + 32 * k + n ≤ atticBytes ∧ (c.entry a k).1.st.spanBad { room := ((c.entry a k).1.st.part c.p).roomAt c.d.srcRoom, cellar := false, off := c.d.srcBase + 32 * k, len := n } = false ∧ (c.entry a k).1.st.lineLost (((c.entry a k).1.st.part c.p).roomAt (bitsOf e 44 41)) (bitsOf e 35 0) = false ∧ (c.entry a k).1.st.burstBad (((c.entry a k).1.st.part c.p).roomAt (bitsOf e 44 41)) (bitsOf e 35 0) = false ∧ ((∀ i, i < n → x ≠ cellarKey (((c.entry a k).1.st.part c.p).roomAt (bitsOf e 44 41)) (bitsOf e 35 0 + i)))) :=
  ⟨⟨moving moveDesc, { st := tenant, host := [] }, { no := 0, srcRel := 0, src := stackBytes - 384, dstRel := 1, dst := atticBytes - 384 }, 1, 127, by decide +kernel, by decide +kernel, by decide +kernel, .inr (by decide), by decide +kernel, by decide +kernel, by decide +kernel, .inr (by decide), by decide +kernel, (fun _ => ⟨by decide +kernel, two_bounds (by decide +kernel)⟩), by decide +kernel, by decide +kernel⟩,
    ⟨moving moveDesc, { st := tenant, host := [] }, { no := 0, srcRel := 0, src := 0, dstRel := 1, dst := 0 }, atticKey 1 256, by decide +kernel, by decide +kernel, by decide +kernel, .inr (by decide), by decide +kernel, by decide +kernel, by decide +kernel, .inr (by decide), by decide +kernel, (fun _ => ⟨by decide +kernel, two_bounds (by decide +kernel)⟩), two_bounds (by decide +kernel)⟩,
    ⟨moving { moveDesc with srcSpace := 0, dstSpace := 1 }, { st := tenant, host := [] }, { no := 0, srcRel := 0, src := atticBytes - 384, dstRel := 1, dst := stackBytes - 384 }, 1, 127, by decide +kernel, by decide +kernel, by decide +kernel, .inr (by decide), by decide +kernel, by decide +kernel, by decide +kernel, .inr (by decide), by decide +kernel, by decide +kernel, by decide +kernel, (fun _ => ⟨by decide +kernel, two_bounds (by decide +kernel)⟩), by decide +kernel, by decide +kernel⟩,
    ⟨moving { moveDesc with srcSpace := 0, dstSpace := 1 }, { st := tenant, host := [] }, { no := 0, srcRel := 0, src := 0, dstRel := 1, dst := 0 }, cellarKey 1 256, by decide +kernel, by decide +kernel, by decide +kernel, .inr (by decide), by decide +kernel, by decide +kernel, by decide +kernel, .inr (by decide), by decide +kernel, by decide +kernel, by decide +kernel, (fun _ => ⟨by decide +kernel, two_bounds (by decide +kernel)⟩), two_bounds (by decide +kernel)⟩,
    ⟨moving { moveDesc with srcSpace := 0, flags := 1, blkRows := 33 }, { st := tenant, host := [] }, { no := 0, srcRel := 0, src := 0, dstRel := 1, dst := 0 }, 1, 1, 0, 31, 3, by decide +kernel⟩,
    ⟨moving gatherDesc, { st := indexed, host := [] }, 0, 2 ^ 41 + 31 * 2 ^ 36 + 0x100, 32, by decide +kernel⟩,
    ⟨moving { gatherDesc with op := 5, srcSpace := 0, dstSpace := 1 }, { st := indexed, host := [] }, 0, 2 ^ 41 + 31 * 2 ^ 36 + 0x100, 32, 31, by decide +kernel⟩,
    ⟨moving { gatherDesc with op := 5, srcSpace := 0, dstSpace := 1 }, { st := indexed, host := [] }, 0, 2 ^ 41 + 31 * 2 ^ 36 + 0x100, 32, cellarKey 1 0x120, by decide +kernel⟩⟩

end Sys2Proof.Tests
end

