-- ==== Sys2Proof/Tests/Witnesses06.lean ====
section
/-! SUPPORT. Witnesses: states and operands that meet the hypotheses of the obligations, part 6. -/

namespace Sys2Proof.Tests

open Sys2Proof.Machine

set_option maxRecDepth 20000
set_option Elab.async false

/-- A descriptor that has been performed. -/
def issued1 : Issued :=
  { no := 0, tags := 2
    desc := { op := 6, flags := 0, srcSpace := 0, dstSpace := 0, srcRoom := 0, dstRoom := 0, dstModule := 0, srcBase := 0, dstBase := 0, blkLines := 1, hostBuf := 0
              blkRows := 1, srcPitch := 0, dstPitch := 128, idxBase := 0, idxSpace := 0, idxForm := 0, token := 63, idxCount := 0, rowStride := 0
              colStride := 0, fillWord := 0 } }

/-- A context of room 0, channel 0, whose lines have waited for 2 ms. -/
def sent1 : TxCtx := { room := 0, chan := 0, no := 0, ackId := 1, left := 1, sentAt := 1998000000, dstModule := 1, flag := none }

/-- A job ring entry that names a program handle. -/
def jobEntry (h : Nat) : List Byte :=
  leBytes 4 h ++ leBytes 4 77 ++ leBytes 8 0 ++ leBytes 8 0x10000 ++ [6, 0, 0, 0, 0, 0, 0, 0] ++ List.replicate 32 0

/-- Program 1 is loaded, and the ring holds a job of a program. -/
def ringed (h : Nat) : State :=
  withCellar 0x2000 (jobEntry h)
    (asFn 1 { ringSet := true, ringOff := 0x2000, jobTail := 1 } (asPart { part2 with programs := [(1, some program)] } ready))

/-- A block at its watchdog's limit. -/
def late0 : Block := { block0 with aclk := 2 ^ 23 }

/-- The last row of a bank. -/
def row1 : CellRow := { pc := 63, sid := 2, bank := 15, row := 16383 }

/-- The hypotheses of `Obligations.ChannelsCompleteHaltAndFreeTags` can be met, clause by clause. -/
theorem witness_ChannelsCompleteHaltAndFreeTags :
    (∃ (s : State) (r : RoomId) (ch : ChanId) (i : Issued), ((s.room r).chan ch).issued.find? Issued.performed = some i) ∧
    (∃ (s : State) (r : RoomId) (ch : ChanId) (cause : Fin 7), cause ≠ 0 ∧ ((s.room r).chan ch).issued ≠ []) ∧
    (∃ (s : State) (r : RoomId) (ch : ChanId) (e : TxCtx), e ∈ s.links.tx ∧ e.room = r.val ∧ e.chan = ch.val ∧ e.sentAt + 2000000 ≤ s.now) ∧
    (∃ (s : State) (r : RoomId) (k : Nat) (at_ : Nat), (s.room r).stale[k]? = some at_ ∧ at_ + 2000000 ≤ s.now) ∧
    (∃ (s : State) (r : RoomId) (k : Nat) (at_ : Nat), (s.room r).stale[k]? = some at_ ∧ s.now < at_ + 2000000) ∧
    (∃ (s : State) (r : RoomId), ((∀ c, c < 16 → ((s.room r).chan c).queue = [] ∧ ∀ i, i ∈ ((s.room r).chan c).issued → i.keyAt = none ∧ i.unsent = [])) ∧ ((∀ e, e ∈ (s.room r).queues → e.2 = [])) ∧ (s.room r).fenceWait = false) ∧
    (∃ (s : State) (r : RoomId) (ch : ChanId) (at_ : Nat) (i : Issued) (is : List Issued), ((s.room r).chan ch).issued = i :: is ∧ (s.haltSpan r i.desc false at_).outside = false ∧ s.roomOk (s.haltSpan r i.desc false at_).room = true) ∧
    (∃ (s : State) (r : RoomId) (ch : ChanId) (at_ : Nat) (i : Issued) (is : List Issued), ((s.room r).chan ch).issued = i :: is ∧ (s.haltSpan r i.desc true at_).outside = false ∧ s.roomOk (s.haltSpan r i.desc true at_).room = true) ∧
    (∃ (s : State) (r : RoomId) (k : Nat) (at_ : Nat), (s.room r).stale[k]? = some at_) ∧
    (∃ (s : State) (r : RoomId) (k : Nat), k ∈ (s.room r).window.read) ∧
    (∃ (s : State) (r : RoomId) (k : Nat), k ∉ (s.room r).window.read) ∧
    (∃ (s : State) (k : RoomId) (p : Nat), s.ownerOf k = some p ∧ (s.stack k).level < 4) :=
  ⟨⟨asRoom { channels := [(15, { issued := [issued1] })] } tenant, 0, 15, issued1, by decide +kernel⟩,
    ⟨asRoom { channels := [(0, { issued := [issued1] })] } tenant, 0, 0, 6, by decide +kernel⟩,
    ⟨{ tenant with links := { tenant.links with tx := [sent1] } }, 0, 0, sent1, by decide +kernel⟩,
    ⟨asRoom { stale := [0, 1998000000], tagsInFlight := 2 } tenant, 0, 1, 1998000000, by decide +kernel⟩,
    ⟨asRoom { stale := [1998000001], tagsInFlight := 1 } tenant, 0, 0, 1998000001, by decide +kernel⟩,
    ⟨tenant, 0, by decide +kernel⟩,
    ⟨asRoom { channels := [(0, { issued := [issued1] })] } tenant, 0, 0, atticBytes - 1, issued1, [], by decide +kernel⟩,
    ⟨asRoom { channels := [(0, { issued := [issued1] })] } tenant, 0, 0, stackBytes - 1, issued1, [], by decide +kernel⟩,
    ⟨asRoom { stale := [1998000001], tagsInFlight := 1 } tenant, 0, 0, 1998000001, by decide +kernel⟩,
    ⟨asRoom { window := { free := [0, 1, 2], held := [3], read := [3] } } tenant, 0, 3, by decide +kernel⟩,
    ⟨asRoom { window := { free := [0, 1, 2], held := [3] } } tenant, 0, 3, by decide +kernel⟩,
    ⟨asStack { level := 3 } tenant, 0, 0, by decide +kernel⟩⟩

/-- The hypotheses of `Obligations.BlocksTokensAndJobs` can be met, clause by clause. -/
theorem witness_BlocksTokensAndJobs :
    (∃ (s : State) (r : RoomId) (p : Nat), s.ownerOf r = some p ∧ s.mayStart p r = true) ∧
    (∃ (s : State) (r : RoomId) (p : Nat) (b : Block), (s.room r).block = some b ∧ s.ownerOf r = some p ∧ (s.part p).comparesAt = false ∧ (s.room r).blockDone = false ∧ b.exchange = false ∧ (s.room r).brk.stopped = false ∧ (s.room r).streamsDone = true ∧ ((b.failed = true ∨ b.error = none ∧ (s.room r).keyHeld = false ∧ (s.room r).fenceWait = false ∧ (s.room r).allDone = true)) ∧ s.recordWaits p r = false) ∧
    (∃ (s : State) (p : PartId), (s.part p).rooms ≠ [] ∧ (s.part p).rooms.Nodup ∧ ((∃ r, r ∈ (s.part p).rooms ∧ (s.room r).mayEnd = true)) ∧ ((∀ r, r ∈ (s.part p).rooms → ((s.room r).mayEnd = true ∧ s.recordWaits p r = false) ∨ s.standsStill p r = true))) ∧
    (∃ (s : State) (r : RoomId) (q : Fin 4) (tok : TokenId) (c : BitVec 16), s.roomRuns r = true ∧ (s.room r).block.isSome = true ∧ Tab.get [] (s.room r).queues q = [] ∧ (Tab.get 0 (s.room r).tokens tok - c).toNat < 2 ^ 15) ∧
    (∃ (s : State) (r : RoomId) (q : Fin 4) (tok : TokenId) (c : BitVec 16), s.roomRuns r = true ∧ (s.room r).block.isSome = true ∧ Tab.get [] (s.room r).queues q = [] ∧ 2 ^ 15 ≤ (Tab.get 0 (s.room r).tokens tok - c).toNat) ∧
    (∃ (s : State) (r : RoomId) (q : Fin 4), s.roomRuns r = true ∧ (s.room r).block.isSome = true ∧ Tab.get [] (s.room r).queues q ≠ []) ∧
    (∃ (s : State) (r : RoomId) (q : Nat) (e : QEntry) (rest : List QEntry) (tok : _) (c : _), Tab.get [] (s.room r).queues q = e :: rest ∧ e.waitTok = some (tok, c)) ∧
    (∃ (s : State) (r : RoomId) (q : Nat) (e : QEntry) (rest : List QEntry) (tok : _), Tab.get [] (s.room r).queues q = e :: rest ∧ e.waitTok = none ∧ e.desc = none ∧ e.sigTok = some tok) ∧
    (∃ (s : State) (r : RoomId) (p : Nat), s.ownerOf r = some p ∧ ((∀ q, q < 4 → s.issueHead p r q = none)) ∧ ((s.room r).fenceWait = false ∨ (s.room r).allDone = false)) ∧
    (∃ (s : State) (r : RoomId) (p : Nat), s.ownerOf r = some p ∧ ((∀ q, q < 4 → s.issueHead p r q = none)) ∧ (s.room r).fenceWait = true ∧ (s.room r).allDone = true) ∧
    (∃ (s : State) (r : RoomId) (b : Block), (s.room r).block = some b ∧ (s.room r).brk.stopped = false ∧ b.error = none ∧ (s.room r).allDone = true) ∧
    (∃ (s : State) (r : RoomId) (b : Block), (s.room r).block = some b ∧ (s.room r).brk.stopped = false ∧ (s.room r).allDone = false) ∧
    (∃ (s : State) (r : RoomId) (p : Nat), (s.room r).block = none ∧ s.ownerOf r = some p) ∧
    (∃ (s : State) (t : State) (p : PartId) (e : List Byte) (g : _), s.programsRun = true ∧ (s.part p).phase = .live ∧ (s.part p).job = none ∧ (s.fn (p.val + 1)).ringSet = true ∧ (s.fn (p.val + 1)).jobHead ≠ (s.fn (p.val + 1)).jobTail ∧ (s.part p).rooms ≠ [] ∧ (s.part p).pair.state ≠ .frozen ∧ (s.part p).pair.state ≠ .syncing ∧ (s.part p).pair.switchTo = none ∧ s.hotStack p = false ∧ ((∀ r, r ∈ (s.part p).rooms → (s.room r).block = none ∧ (s.room r).streamsDone = true)) ∧ s.cellarRead ((s.part p).roomAt 0) ((s.fn (p.val + 1)).ringOff + 64 * ((s.fn (p.val + 1)).jobHead.toNat % 64)) 64 = (t, some e) ∧ s.entryStatus p e = 0 ∧ Tab.get none (s.part p).programs (fieldOf e 0 4) = some g) ∧
    (∃ (s : State) (t : State) (p : PartId) (e : List Byte), s.programsRun = true ∧ (s.part p).phase = .live ∧ (s.part p).job = none ∧ (s.fn (p.val + 1)).ringSet = true ∧ (s.fn (p.val + 1)).jobHead ≠ (s.fn (p.val + 1)).jobTail ∧ (s.part p).rooms ≠ [] ∧ (s.part p).pair.state ≠ .frozen ∧ (s.part p).pair.state ≠ .syncing ∧ (s.part p).pair.switchTo = none ∧ s.hotStack p = false ∧ ((∀ r, r ∈ (s.part p).rooms → (s.room r).block = none ∧ (s.room r).streamsDone = true)) ∧ s.cellarRead ((s.part p).roomAt 0) ((s.fn (p.val + 1)).ringOff + 64 * ((s.fn (p.val + 1)).jobHead.toNat % 64)) 64 = (t, some e) ∧ s.entryStatus p e ≠ 0) ∧
    (∃ (s : State) (p : PartId), s.programsRun = true ∧ (s.part p).phase = .live ∧ (s.part p).job = none ∧ (s.fn (p.val + 1)).ringSet = true ∧ (s.fn (p.val + 1)).jobHead ≠ (s.fn (p.val + 1)).jobTail ∧ (s.part p).rooms = [] ∧ (s.part p).pair.state ≠ .frozen ∧ (s.part p).pair.state ≠ .syncing ∧ (s.part p).pair.switchTo = none) ∧
    (∃ (s : State) (p : PartId) (j : Job), (s.part p).job = some j ∧ (s.part p).phase ≠ .tearing ∧ s.hotStack p = false ∧ ((∀ r, r ∈ (s.part p).rooms → (s.room r).block = none ∧ (s.room r).streamsDone = true ∧ (s.room r).flagOver = true))) ∧
    (∃ (s : State) (r : RoomId) (p : Nat) (b : Block), (s.room r).block = some b ∧ s.ownerOf r = some p ∧ (s.part p).comparesAt = false ∧ (s.room r).blockDone = false ∧ b.exchange = false ∧ (s.room r).brk.stopped = false ∧ (s.room r).streamsDone = true ∧ ((b.failed = true ∨ b.error = none ∧ (s.room r).keyHeld = false ∧ (s.room r).fenceWait = false ∧ (s.room r).allDone = true)) ∧ s.recordWaits p r = true) :=
  ⟨⟨asPart { part2 with job := some job1, programs := [(1, some program)] } ready, 0, 0, by decide +kernel⟩,
    ⟨inBlock block0 tenant, 0, 0, block0, by decide +kernel, by decide +kernel, by decide +kernel, (by decide +kernel), by decide +kernel, by decide +kernel, by decide +kernel, .inr ⟨rfl, rfl, by decide +kernel, by decide +kernel⟩, by decide +kernel⟩,
    ⟨(tenant.setRoom 0 { block := some { block0 with agreed := true }, blockDone := true }).setRoom 1 { block := some { block0 with agreed := true }, blockDone := true }, 0, by decide +kernel, by decide +kernel, ⟨0, by decide +kernel, by decide +kernel⟩, by decide +kernel⟩,
    ⟨asRoom { block := some block0, tokens := [(63, 0x7FFF)] } tenant, 0, 3, 63, 0, by decide +kernel⟩,
    ⟨asRoom { block := some block0, tokens := [(63, 0x8000)] } tenant, 0, 3, 63, 0, by decide +kernel⟩,
    ⟨asRoom { block := some block0, queues := [(3, [{ tag := 1 }])] } tenant, 0, 3, by decide +kernel⟩,
    ⟨asRoom { queues := [(3, [{ tag := 0, waitTok := some (63, 1) }])] } tenant, 0, 3, { tag := 0, waitTok := some (63, 1) }, [], 63, 1, by decide +kernel⟩,
    ⟨asRoom { queues := [(3, [{ tag := 0, sigTok := some 63 }])] } tenant, 0, 3, { tag := 0, sigTok := some 63 }, [], 63, by decide +kernel⟩,
    ⟨tenant, 0, 0, by decide +kernel, by decide +kernel, .inl rfl⟩,
    ⟨asRoom { fenceWait := true } tenant, 0, 0, by decide +kernel⟩,
    ⟨inBlock block0 tenant, 0, block0, by decide +kernel⟩,
    ⟨asRoom { block := some block0, queues := [(3, [{ tag := 1 }])] } tenant, 0, block0, by decide +kernel⟩,
    ⟨tenant, 0, 0, by decide +kernel⟩,
    ⟨ringed 1, ((ringed 1).cellarRead (((ringed 1).part (0 : PartId)).roomAt 0) (((ringed 1).fn ((0 : PartId).val + 1)).ringOff + 64 * (((ringed 1).fn ((0 : PartId).val + 1)).jobHead.toNat % 64)) 64).1, 0, jobEntry 1, program, by decide +kernel, by decide +kernel, by decide +kernel, (by decide +kernel), by decide +kernel, by decide +kernel, by decide +kernel, (by decide +kernel), by decide +kernel, by decide +kernel, by decide +kernel, answer_some _ (by decide +kernel), by decide +kernel, by decide +kernel⟩,
    ⟨ringed 2, ((ringed 2).cellarRead (((ringed 2).part (0 : PartId)).roomAt 0) (((ringed 2).fn ((0 : PartId).val + 1)).ringOff + 64 * (((ringed 2).fn ((0 : PartId).val + 1)).jobHead.toNat % 64)) 64).1, 0, jobEntry 2, by decide +kernel, by decide +kernel, by decide +kernel, (by decide +kernel), by decide +kernel, by decide +kernel, by decide +kernel, (by decide +kernel), by decide +kernel, by decide +kernel, by decide +kernel, answer_some _ (by decide +kernel), by decide +kernel⟩,
    ⟨asPart { part2 with rooms := [] } (asFn 1 { ringSet := true, ringOff := 0x2000, jobTail := 1 } ready), 0, by decide +kernel⟩,
    ⟨asPart { part2 with job := some job1 } ready, 0, job1, by decide +kernel⟩,
    ⟨asStack { level := 4, level4Since := some 2000000000 } (inBlock block0 (asPart { part2 with job := some job1 } ready)), 0, 0, block0, by decide +kernel, by decide +kernel, by decide +kernel, (by decide +kernel), by decide +kernel, by decide +kernel, by decide +kernel, .inr ⟨rfl, rfl, by decide +kernel, by decide +kernel⟩, by decide +kernel⟩⟩

/-- The hypotheses of `Obligations.ErrorsReplayAndRetire` can be met, clause by clause. -/
theorem witness_ErrorsReplayAndRetire :
    (∃ (s : State) (r : RoomId) (p : Nat) (b : Block), s.ownerOf r = some p ∧ (s.room r).block = some b ∧ b.exchange = false ∧ s.replayHeld r = false ∧ s.watchdogDue r = true ∧ s.torn r = true) ∧
    (∃ (s : State) (r : RoomId) (p : Nat) (b : Block), s.ownerOf r = some p ∧ (s.room r).block = some b ∧ b.exchange = false ∧ s.replayHeld r = false ∧ s.watchdogDue r = false) ∧
    (∃ (s : State) (r : RoomId) (p : Nat) (b : Block), s.ownerOf r = some p ∧ (s.room r).block = some b ∧ b.exchange = false ∧ s.replayHeld r = false ∧ s.watchdogDue r = true ∧ s.torn r = false ∧ b.execs < 3) ∧
    (∃ (s : State) (r : RoomId) (p : Nat) (b : Block), s.ownerOf r = some p ∧ (s.room r).block = some b ∧ b.exchange = false ∧ s.replayHeld r = false ∧ s.watchdogDue r = true ∧ s.torn r = false ∧ 3 ≤ b.execs) ∧
    (∃ (s : State) (r : RoomId) (p : Nat) (b : Block) (e : RoomEvent), s.ownerOf r = some p ∧ (s.room r).block = some b ∧ b.exchange = false ∧ b.error = none ∧ b.failed = false ∧ (s.room r).brk.stopped = false ∧ s.replayHeld r = false ∧ s.torn r = false ∧ e ≠ .watchdog ∧ e ≠ .forcedMove ∧ e.isProgram = true) ∧
    (∃ (s : State) (r : RoomId) (p : Nat) (b : Block) (e : RoomEvent), s.ownerOf r = some p ∧ (s.room r).block = some b ∧ b.exchange = false ∧ b.error = none ∧ b.failed = false ∧ (s.room r).brk.stopped = false ∧ s.replayHeld r = false ∧ s.torn r = false ∧ e ≠ .watchdog ∧ e ≠ .forcedMove ∧ e.isProgram = false ∧ b.execs < 3) ∧
    (∃ (s : State) (r : RoomId) (p : Nat) (b : Block) (e : RoomEvent), s.ownerOf r = some p ∧ (s.room r).block = some b ∧ b.exchange = false ∧ b.error = none ∧ b.failed = false ∧ (s.room r).brk.stopped = false ∧ s.replayHeld r = false ∧ s.torn r = false ∧ e ≠ .watchdog ∧ e ≠ .forcedMove ∧ e.isProgram = false ∧ 3 ≤ b.execs ∧ e.isData = false) ∧
    (∃ (s : State) (r : RoomId) (p : Nat) (b : Block) (e : RoomEvent), s.ownerOf r = some p ∧ (s.room r).block = some b ∧ b.exchange = false ∧ b.error = none ∧ b.failed = false ∧ (s.room r).brk.stopped = false ∧ s.replayHeld r = false ∧ s.torn r = false ∧ e ≠ .watchdog ∧ e ≠ .forcedMove ∧ 3 ≤ b.execs ∧ e.isData = true) ∧
    (∃ (s : State) (r : RoomId), (s.room r).refetch = 0) ∧
    (∃ (s : State) (r : RoomId) (p : _) (b : _), (s.room r).refetch ≠ 0 ∧ s.ownerOf r = some p ∧ (s.room r).block = some b ∧ b.exchange = false ∧ b.error = none ∧ b.failed = false ∧ (s.room r).brk.stopped = false ∧ s.replayHeld r = false ∧ s.torn r = false ∧ b.execs < 3) ∧
    (∃ (s : State) (r : RoomId) (k : Fin 4), (s.room r).kat = true ∧ (s.room r).pauRetired.getLsbD k = false ∧ s.roomOk r = true ∧ (s.room r).atBoundary = true) ∧
    (∃ (s : State) (r : RoomId), ((s.room r).kat = false ∨ (s.room r).atBoundary = false)) ∧
    (∃ (s : State) (r : RoomId), s.roomOk r = true ∧ s.permanent (.room r) = true ∧ ((∀ p, s.ownerOf r = some p → ∀ k, k ∈ (s.part p).rooms → (s.room k).stopped = true ∧ (k = r.val ∨ (s.stack k).level < 4)))) ∧
    (∃ (s : State) (r : RoomId), ((s.roomOk r = false ∨ s.permanent (.room r) = false))) ∧
    (∃ (s : State), s.sec.retired = false ∧ s.permanent .security = true) ∧
    (∃ (s : State), s.permanent .security = false) ∧
    (∃ (s : State) (c : CoreId), (s.core c).retired = false ∧ s.permanent (.core c) = true ∧ s.boot.state ≠ .halted ∧ c.val = 0) ∧
    (∃ (s : State) (c : CoreId), (s.core c).retired = false ∧ s.permanent (.core c) = true ∧ s.boot.state ≠ .halted ∧ c.val ≠ 0) ∧
    (∃ (s : State) (c : CoreId), s.permanent (.core c) = false) ∧
    (∃ (s : State) (e : RoomEvent) (q : _) (l : _) (b : _) (w : _) (m : _), e = .atticParity q l b w ∧ s.lineOf q l b w = some m ∧ m < atticBytes / 128) ∧
    (∃ (e : RoomEvent) (k : _) (m : _), e = .cellarUncorr k m ∧ 128 * m + 128 ≤ stackBytes) :=
  ⟨⟨(inBlock late0 tenant).setPart 0 { tenant.part 0 with phase := .tearing }, 0, 0, late0, by decide +kernel⟩,
    ⟨inBlock { block0 with aclk := 2 ^ 23 - 1 } tenant, 0, 0, { block0 with aclk := 2 ^ 23 - 1 }, by decide +kernel⟩,
    ⟨inBlock { late0 with execs := 2 } tenant, 0, 0, { late0 with execs := 2 }, by decide +kernel⟩,
    ⟨inBlock { late0 with execs := 3 } tenant, 0, 0, { late0 with execs := 3 }, by decide +kernel⟩,
    ⟨inBlock block0 tenant, 0, 0, block0, .bounds, by decide +kernel⟩,
    ⟨inBlock { block0 with execs := 2 } tenant, 0, 0, { block0 with execs := 2 }, .laneParity, by decide +kernel⟩,
    ⟨inBlock { block0 with execs := 3 } tenant, 0, 0, { block0 with execs := 3 }, .laneParity, by decide +kernel⟩,
    ⟨inBlock { block0 with execs := 3 } tenant, 0, 0, { block0 with execs := 3 }, .checkMismatch 3 4095 1, by decide +kernel⟩,
    ⟨tenant, 0, by decide +kernel⟩,
    ⟨asRoom { refetch := 1, block := some block0 } tenant, 0, 0, block0, by decide +kernel⟩,
    ⟨asRoom { kat := true } tenant, 0, 3, by decide +kernel⟩,
    ⟨tenant, 0, by decide +kernel⟩,
    ⟨knows (.room 0) 2 tenant, 0, by decide +kernel, by decide +kernel, by intro p h; revert p; decide +kernel⟩,
    ⟨tenant, 0, .inr (by decide +kernel)⟩,
    ⟨knows .security 0 tenant, by decide +kernel⟩,
    ⟨tenant, by decide +kernel⟩,
    ⟨knows (.core 0) 0 tenant, 0, by decide +kernel⟩,
    ⟨knows (.core 3) 0 tenant, 3, by decide +kernel⟩,
    ⟨tenant, 3, by decide +kernel⟩,
    ⟨tenant, .atticParity 0 2 63 16383, 0, 2, 63, 16383, ((tenant.lineOf 0 2 63 16383).getD 0), rfl, by decide +kernel, by decide +kernel⟩,
    ⟨.cellarUncorr 0 (stackBytes / 128 - 1), 0, stackBytes / 128 - 1, by decide +kernel⟩⟩

/-- The hypotheses of `Obligations.AtticMaintenanceKeepsTheData` can be met, clause by clause. -/
theorem witness_AtticMaintenanceKeepsTheData :
    (∃ (s : State) (r : RoomId) (layer : Fin 3) (bank : Nat) (row : Nat), s.roomOk r = true ∧ s.atticOn r = true ∧ (s.room r).atBoundary = true ∧ bank < 66 ∧ row < atticRows ∧ ((s.room r).layer layer).bankRetired bank = false ∧ ((s.permanent (.atticRow r layer bank row) = true ∨ (bank, some row) ∈ ((s.room r).layer layer).pending)) ∧ row ∉ Tab.get [] ((s.room r).layer layer).rowRemaps bank ∧ (Tab.get [] ((s.room r).layer layer).rowRemaps bank).length < 32) ∧
    (∃ (s : State) (r : RoomId) (layer : Fin 3) (bank : Nat) (row : Nat), s.roomOk r = true ∧ s.atticOn r = true ∧ (s.room r).atBoundary = true ∧ bank < 66 ∧ row < atticRows ∧ ((s.room r).layer layer).bankRetired bank = false ∧ ((s.permanent (.atticRow r layer bank row) = true ∨ (bank, some row) ∈ ((s.room r).layer layer).pending)) ∧ row ∉ Tab.get [] ((s.room r).layer layer).rowRemaps bank ∧ 32 ≤ (Tab.get [] ((s.room r).layer layer).rowRemaps bank).length) ∧
    (∃ (s : State) (r : RoomId) (layer : Fin 3) (bank : Nat) (k : _), s.roomOk r = true ∧ s.atticOn r = true ∧ (s.room r).atBoundary = true ∧ bank < 66 ∧ ((s.room r).layer layer).bankRetired bank = false ∧ ((s.room r).layer layer).copy = none ∧ ((s.permanent (.atticBank r layer bank) = true ∨ (bank, none) ∈ ((s.room r).layer layer).pending)) ∧ ((s.room r).layer layer).freeSpare = some k) ∧
    (∃ (s : State) (r : RoomId) (layer : Fin 3) (bank : Nat), s.roomOk r = true ∧ s.atticOn r = true ∧ (s.room r).atBoundary = true ∧ bank < 66 ∧ ((s.room r).layer layer).bankRetired bank = false ∧ ((s.room r).layer layer).copy = none ∧ ((s.permanent (.atticBank r layer bank) = true ∨ (bank, none) ∈ ((s.room r).layer layer).pending)) ∧ ((s.room r).layer layer).freeSpare = none) ∧
    (∃ (s : State) (r : RoomId) (layer : Fin 3) (bank : Nat) (spare : Nat) (start : Nat), ((s.room r).layer layer).copy = some (bank, spare, start) ∧ s.now < start + s.bankCopyNs r) ∧
    (∃ (s : State) (r : RoomId) (layer : Fin 3) (bank : Nat) (spare : Nat) (start : Nat), ((s.room r).layer layer).copy = some (bank, spare, start) ∧ s.atticOn r = false) ∧
    (∃ (s : State) (r : RoomId) (layer : Fin 3) (bank : Nat) (row : Nat), row = nextSweepRow (Tab.get [] ((s.room r).layer layer).rowRemaps bank) 33 (Tab.get 0 ((s.room r).layer layer).sweepRow bank) ∧ s.sweepRuns r layer bank = false) ∧
    (∃ (s : State) (r : RoomId) (layer : Fin 3) (bank : Nat) (row : Nat), row = nextSweepRow (Tab.get [] ((s.room r).layer layer).rowRemaps bank) 33 (Tab.get 0 ((s.room r).layer layer).sweepRow bank) ∧ s.sweepRuns r layer bank = true) ∧
    (∃ (s : State) (r : RoomId), s.roomOk r = true ∧ ((s.boot.state = .selfTest ∨ s.boot.state = .test))) ∧
    (∃ (s : State) (r : RoomId) (layer : Fin 3) (bank : Nat) (spare : Nat) (start : Nat), ((s.room r).layer layer).copy = some (bank, spare, start) ∧ start + s.bankCopyNs r ≤ s.now ∧ s.atticOn r = true) :=
  ⟨⟨clocked (knows (.atticRow 0 2 65 (atticRows - 1)) 1 (asRoom { layers := [(2, { rowRemaps := [(65, List.range 31)] })] } tenant)), 0, 2, 65, atticRows - 1, by decide +kernel, by decide +kernel, by decide +kernel, (by decide +kernel), by decide +kernel, by decide +kernel, .inl (by decide +kernel), by decide +kernel, by decide +kernel⟩,
    ⟨clocked (knows (.atticRow 0 2 65 (atticRows - 1)) 1 (asRoom { layers := [(2, { rowRemaps := [(65, List.range 32)] })] } tenant)), 0, 2, 65, atticRows - 1, by decide +kernel, by decide +kernel, by decide +kernel, (by decide +kernel), by decide +kernel, by decide +kernel, .inl (by decide +kernel), by decide +kernel, by decide +kernel⟩,
    ⟨clocked (asRoom { layers := [(2, { pending := [(65, none)] })] } tenant), 0, 2, 65, 64, by decide +kernel, by decide +kernel, by decide +kernel, (by decide +kernel), by decide +kernel, by decide +kernel, .inr (by decide +kernel), by decide +kernel⟩,
    ⟨clocked (asRoom { layers := [(2, { pending := [(0, none)], bankRemaps := [(1, 64), (2, 65)] })] } tenant), 0, 2, 0, by decide +kernel, by decide +kernel, by decide +kernel, (by decide +kernel), by decide +kernel, by decide +kernel, .inr (by decide +kernel), by decide +kernel⟩,
    ⟨asRoom { layers := [(2, { copy := some (0, 64, 2000000000) })] } tenant, 0, 2, 0, 64, 2000000000, by decide +kernel⟩,
    ⟨asRoom { layers := [(2, { copy := some (0, 64, 0) })] } tenant, 0, 2, 0, 64, 0, by decide +kernel⟩,
    ⟨tenant, 0, 2, 65, 0, by decide +kernel⟩,
    ⟨clocked (asRoom { layers := [(2, { sweepRow := [(65, 7)], rowRemaps := [(65, [7])] })] } tenant), 0, 2, 65, 8, by decide +kernel⟩,
    ⟨inState .selfTest ready, 15, by decide +kernel, .inl rfl⟩,
    ⟨clocked (asRoom { layers := [(2, { copy := some (0, 64, 0) })] } tenant), 0, 2, 0, 64, 0, by decide +kernel⟩⟩

/-- The hypotheses of `Obligations.CellarMaintenanceKeepsTheData` can be met, clause by clause. -/
theorem witness_CellarMaintenanceKeepsTheData :
    (∃ (s : State) (k : RoomId) (pc : Nat) (bank : Nat), s.bankFree k pc bank = true ∧ 8 ≤ Tab.get 0 (s.stack k).postponed (pc * 48 + bank)) ∧
    (∃ (s : State) (k : RoomId) (pc : Nat) (bank : Nat), s.bankFree k pc bank = true ∧ Tab.get 0 (s.stack k).refNext pc ≠ bank) ∧
    (∃ (s : State) (k : RoomId) (pc : Nat) (bank : Nat), s.bankFree k pc bank = true ∧ Tab.get 0 (s.stack k).refNext pc = bank) ∧
    (∃ (s : State) (k : RoomId) (o : Option Int) (c : Int), s.stackOk k = true ∧ c = o.getD 95) ∧
    (∃ (s : State) (k : RoomId) (since : Nat), s.stackOk k = true ∧ (s.stack k).level4Since = some since ∧ since + 1000000000 ≤ s.now) ∧
    (∃ (s : State) (k : RoomId) (pc : Nat) (line : Nat), s.cellarSweepRuns k pc = true ∧ line = s.logicalLine k (64 * Tab.get 0 (s.stack k).sweepAt pc + pc)) ∧
    (∃ (s : State) (k : RoomId) (line : Nat), line ∉ (s.stack k).rewrites) ∧
    (∃ (s : State) (k : RoomId) (line : Nat), s.stackBackground k = true ∧ line ∈ (s.stack k).rewrites) ∧
    (∃ (s : State) (k : RoomId) (ch : Nat) (x : Calib), s.stackOk k = true ∧ (s.stack k).level < 4 ∧ x = Tab.get {} (s.stack k).calib ch ∧ ch < 32 ∧ x.retryAt = none ∧ ((x.last + 64000000 ≤ s.now ∨ 5 ≤ ((s.stack k).temp - x.temp).natAbs))) ∧
    (∃ (s : State) (k : RoomId) (ch : Nat) (x : Calib), s.stackOk k = true ∧ (s.stack k).level < 4 ∧ x = Tab.get {} (s.stack k).calib ch ∧ x.retryAt.isSome = true) ∧
    (∃ (s : State) (k : RoomId) (ch : Nat) (x : Calib) (a : _), s.stackOk k = true ∧ (s.stack k).level < 4 ∧ x = Tab.get {} (s.stack k).calib ch ∧ x.retryAt = some a ∧ a ≤ s.now) ∧
    (∃ (s : State) (k : RoomId) (ch : Nat) (x : Calib) (a : _), s.stackOk k = true ∧ (s.stack k).level < 4 ∧ x = Tab.get {} (s.stack k).calib ch ∧ x.retryAt = some a ∧ s.now < a) ∧
    (∃ (s : State) (k : RoomId) (c : CellRow), s.stackBackground k = true ∧ (s.room k).atBoundary = true ∧ c.ok = true ∧ ((s.permanent (.cellarRow k c.pc c.sid c.bank c.row) = true ∨ c ∈ (s.stack k).pendingRows)) ∧ (s.stack k).pcRetired ≠ some c.pc ∧ (∀ st, (s.stack k).pcCopy ≠ some (c.pc, st))) ∧
    (∃ (s : State) (k : RoomId) (pc : Nat), s.stackBackground k = true ∧ pc < 64 ∧ (s.room k).atBoundary = true ∧ s.permanent (.pseudo k pc) = true ∧ (s.stack k).pcRetired = none ∧ (s.stack k).pcCopy = none) ∧
    (∃ (s : State) (k : RoomId) (pc : Nat) (q : _), s.stackBackground k = true ∧ pc < 64 ∧ (s.room k).atBoundary = true ∧ s.permanent (.pseudo k pc) = true ∧ q ≠ pc ∧ (((s.stack k).pcRetired = some q ∨ ∃ st, (s.stack k).pcCopy = some (q, st))) ∧ (s.stack k).pcRetired ≠ some pc ∧ (∀ st, (s.stack k).pcCopy ≠ some (pc, st))) ∧
    (∃ (s : State) (k : RoomId) (pc : Nat) (start : Nat), (s.stack k).pcCopy = some (pc, start) ∧ ((s.now < start + s.pcCopyNs ∨ s.stackBackground k = false))) ∧
    (∃ (s : State) (k : RoomId) (pc : Nat) (start : Nat), (s.stack k).pcCopy = some (pc, start) ∧ start + s.pcCopyNs ≤ s.now ∧ s.stackBackground k = true) ∧
    (∃ (s : State) (k : SlotId) (r : Nat) (c : CellRow), s.runs 0 k 0x0601 ∧ r = (s.cmd 0 k).field 1 1 ∧ c = (s.cmd 0 k).cellRow ∧ r < 16 ∧ s.roomOk r = true ∧ c.ok = true ∧ (s.cmd 0 k).field 0 1 = 3 ∧ s.boot.state = .ready) ∧
    (∃ (s : State) (k : SlotId) (r : Nat) (c : CellRow), s.runs 0 k 0x0601 ∧ r = (s.cmd 0 k).field 1 1 ∧ c = (s.cmd 0 k).cellRow ∧ r < 16 ∧ s.roomOk r = true ∧ c.ok = true ∧ (s.cmd 0 k).field 0 1 = 4 ∧ s.boot.state = .test) ∧
    (∃ (s : State) (f : FnId) (k : SlotId) (r : Nat) (off : Nat) (n : Nat) (a : Nat), s.runs f k 0x0805 ∧ checkDebugRead s f false (s.cmd f k) = 0 ∧ r = (s.cmd f k).field 0 1 ∧ off = (s.cmd f k).field 8 8 ∧ n = (s.cmd f k).field 16 4 ∧ s.hostRange f ((s.cmd f k).field 2 2) ((s.cmd f k).field 24 8) n true = some a ∧ (s.cmd f k).field 1 1 = 1) ∧
    (∃ (s : State) (f : FnId) (k : SlotId) (r : Nat) (off : Nat) (n : Nat) (a : Nat), s.runs f k 0x0805 ∧ checkDebugRead s f false (s.cmd f k) = 0 ∧ r = (s.cmd f k).field 0 1 ∧ off = (s.cmd f k).field 8 8 ∧ n = (s.cmd f k).field 16 4 ∧ s.hostRange f ((s.cmd f k).field 2 2) ((s.cmd f k).field 24 8) n true = some a ∧ (s.cmd f k).field 1 1 = 3 ∧ (s.stack r).level < 4 ∧ ((∀ i, i < n → s.spanBad { room := r, cellar := true, off := off + i, len := 1 } = false))) ∧
    (∃ (s : State) (f : FnId) (k : SlotId) (r : Nat) (off : Nat) (n : Nat) (a : Nat), s.runs f k 0x0805 ∧ checkDebugRead s f false (s.cmd f k) = 0 ∧ r = (s.cmd f k).field 0 1 ∧ off = (s.cmd f k).field 8 8 ∧ n = (s.cmd f k).field 16 4 ∧ s.hostRange f ((s.cmd f k).field 2 2) ((s.cmd f k).field 24 8) n true = some a ∧ (s.cmd f k).field 1 1 = 3 ∧ 4 ≤ (s.stack r).level) ∧
    (∃ (s : State) (k : RoomId) (pc : Nat) (start : Nat), (s.stack k).pcCopy = some (pc, start) ∧ s.stackBackground k = false) ∧
    (∃ (s : State) (k : RoomId) (pc : Nat) (start : Nat), (s.stack k).pcCopy = some (pc, start) ∧ s.stackBackground k = true) ∧
    (∃ (s : State) (k : RoomId) (was : Nat), ((was < 4 ∨ 4 ≤ (s.stack k).level ∨ s.ownerOf k = none))) ∧
    (∃ (s : State) (k : RoomId) (was : Nat) (p : _), s.ownerOf k = some p ∧ 4 ≤ was ∧ (s.stack k).level < 4) ∧
    (∃ (s : State) (k : RoomId) (c : CellRow), s.stackBackground k = true ∧ (s.room k).atBoundary = true ∧ c.ok = true ∧ ((s.permanent (.cellarRow k c.pc c.sid c.bank c.row) = true ∨ c ∈ (s.stack k).pendingRows)) ∧ ((s.stack k).pcRetired = some c.pc ∨ (∃ st, (s.stack k).pcCopy = some (c.pc, st)))) :=
  ⟨⟨asStack { trained := true, postponed := [(63 * 48 + 47, 8)] } tenant, 0, 63, 47, by decide +kernel⟩,
    ⟨asStack { trained := true } tenant, 0, 63, 47, by decide +kernel⟩,
    ⟨asStack { trained := true } tenant, 0, 63, 0, by decide +kernel⟩,
    ⟨asStack { trained := true } tenant, 0, none, 95, by decide +kernel⟩,
    ⟨asStack { trained := true, level := 4, level4Since := some 1000000000 } tenant, 0, 1000000000, by decide +kernel⟩,
    ⟨clocked (asStack { trained := true, level := 3 } tenant), 0, 63, 63, by decide +kernel⟩,
    ⟨tenant, 0, 7, by decide +kernel⟩,
    ⟨clocked (asStack { trained := true, rewrites := [7] } tenant), 0, 7, by decide +kernel⟩,
    ⟨asStack { trained := true } tenant, 0, 31, {}, by decide +kernel, by decide +kernel, by decide +kernel, (by decide +kernel), by decide +kernel, .inl (by decide +kernel)⟩,
    ⟨asStack { trained := true, calib := [(31, { retryAt := some 0 })] } tenant, 0, 31, { retryAt := some 0 }, by decide +kernel⟩,
    ⟨asStack { trained := true, calib := [(31, { failed := 2, retryAt := some 2000000000 })] } tenant, 0, 31, { failed := 2, retryAt := some 2000000000 }, 2000000000, by decide +kernel⟩,
    ⟨asStack { trained := true, calib := [(31, { retryAt := some 2000000001 })] } tenant, 0, 31, { retryAt := some 2000000001 }, 2000000001, by decide +kernel⟩,
    ⟨clocked (asStack { trained := true, pendingRows := [row1] } tenant), 0, row1, by decide +kernel, by decide +kernel, by decide +kernel, .inr (by decide +kernel), by decide +kernel, (fun _ => by intro h; cases h)⟩,
    ⟨clocked (knows (.pseudo 0 63) 3 (asStack { trained := true } tenant)), 0, 63, by decide +kernel⟩,
    ⟨clocked (knows (.pseudo 0 63) 3 (asStack { trained := true, pcRetired := some 0 } tenant)), 0, 63, 0, by decide +kernel, by decide +kernel, by decide +kernel, (by decide +kernel), by decide +kernel, .inl (by decide +kernel), by decide +kernel, (fun _ => by intro h; cases h)⟩,
    ⟨asStack { pcCopy := some (63, 2000000000) } tenant, 0, 63, 2000000000, by decide +kernel, .inr (by decide +kernel)⟩,
    ⟨clocked (asStack { trained := true, pcCopy := some (63, 0) } tenant), 0, 63, 0, by decide +kernel⟩,
    ⟨running 0 0 0x0601 [3, 0, 63, 0xF2, 0xFF, 0x3F, 0, 0] tenant, 0, 0, row1, ⟨by decide +kernel, by decide +kernel⟩, by decide +kernel, by decide +kernel, by decide +kernel, (by decide +kernel), by decide +kernel, by decide +kernel, by decide +kernel⟩,
    ⟨running 0 0 0x0601 [4, 15, 63, 0xF2, 0xFF, 0x3F, 0, 0] testing, 0, 15, row1, ⟨by decide +kernel, by decide +kernel⟩, by decide +kernel, by decide +kernel, by decide +kernel, (by decide +kernel), by decide +kernel, by decide +kernel, by decide +kernel⟩,
    ⟨running 1 0 0x0805 ([0, 1, 1, 0, 0, 0, 0, 0] ++ leBytes 8 640 ++ leBytes 8 8 ++ leBytes 8 0x100) (withBuffer (asRoom { brk := { stopped := true } } testing)), 1, 0, 0, 640, 8, 0x10100, ⟨by decide +kernel, by decide +kernel⟩, by decide +kernel, by decide +kernel, by decide +kernel, (by decide +kernel), by decide +kernel, by decide +kernel⟩,
    ⟨running 1 0 0x0805 ([0, 3, 1, 0, 0, 0, 0, 0] ++ leBytes 8 (stackBytes - 64) ++ leBytes 8 64 ++ leBytes 8 0x100) (withBuffer (asRoom { brk := { stopped := true } } testing)), 1, 0, 0, stackBytes - 64, 64, 0x10100, ⟨by decide +kernel, by decide +kernel⟩, by decide +kernel, by decide +kernel, by decide +kernel, (by decide +kernel), by decide +kernel, by decide +kernel, by decide +kernel, (by decide +kernel)⟩,
    ⟨running 1 0 0x0805 ([0, 3, 1, 0, 0, 0, 0, 0] ++ leBytes 8 (stackBytes - 64) ++ leBytes 8 64 ++ leBytes 8 0x100) (withBuffer (asStack { level := 4 } <| asRoom { brk := { stopped := true } } testing)), 1, 0, 0, stackBytes - 64, 64, 0x10100, ⟨by decide +kernel, by decide +kernel⟩, by decide +kernel, by decide +kernel, by decide +kernel, (by decide +kernel), by decide +kernel, by decide +kernel, by decide +kernel⟩,
    ⟨asStack { level := 4, trained := true, pcCopy := some (63, 2000000000) } tenant, 0, 63, 2000000000, by decide +kernel⟩,
    ⟨clocked (asStack { trained := true, pcCopy := some (63, 2000000000) } tenant), 0, 63, 2000000000, by decide +kernel⟩,
    ⟨tenant, 0, 3, .inl (by decide)⟩,
    ⟨asStack { level := 3 } tenant, 0, 4, 0, by decide +kernel⟩,
    ⟨clocked (asStack { trained := true, pendingRows := [row1], pcRetired := some 63 } tenant), 0, row1, by decide +kernel, by decide +kernel, by decide +kernel, .inr (by decide +kernel), .inl (by decide +kernel)⟩⟩

end Sys2Proof.Tests
end

