-- ==== Sys2Proof/Tests/Witnesses07.lean ====
section
/-! SUPPORT. Witnesses: states and operands that meet the hypotheses of the obligations, part 7. -/

namespace Sys2Proof.Tests

open Sys2Proof.Machine

set_option maxRecDepth 20000
set_option Elab.async false

/-- Source 255 pends, enabled for core 0, which takes interrupts. -/
def interrupted : State :=
  { ready with gysis := { ready.gysis with
    intc := { sources := [(255, { pending := true, enabled := true, targets := 1, handler := 0x1000 })] }
    cores := [(0, { mie := true })] } }

/-- No other source pends. -/
theorem interrupted_only (m : Nat) (h : m ≠ 255) : (interrupted.source m).pending = false := by
  simp [State.source, interrupted, Tab.get, Ne.symm h]

/-- A block that core 1 holds modified. -/
def owned : CacheBlock := { l1 := [(1, .modified)], owner := some 1 }

/-- A block of room 0 that asks for its key. -/
def asking : State := { inBlock block0 tenant with power := { tenant.power with domains := [(118, .on)] } }

/-- Block 1 is held so. -/
def cached : State := { ready with gysis := { ready.gysis with blocks := [(1, owned)] } }

/-- No other core holds it. -/
theorem owned_only (o : Nat) (h : owned.owner = some o) (d : Nat) (hd : d ≠ o) : owned.mesi d = .invalid := by
  have h1 : 1 = o := by simpa [owned] using h
  subst h1
  simp [CacheBlock.mesi, owned, Tab.get, Ne.symm hd]

/-- Zero times an element. -/
theorem gfMul_zero (b : Nat) : gfMul 0 b = 0 := by
  have h (l : List Nat) : l.foldl (fun (r : Nat × Nat) i => (if bitOf b i then r.1 ^^^ r.2 else r.1, gfTwice r.2)) (0, 0) = (0, 0) := by
    induction l with
    | nil => rfl
    | cons a t ih => simpa [gfTwice] using ih
  simp [gfMul, h]

/-- Leading zeros do not change the syndromes. -/
theorem syndromes_zeros (n : Nat) (l : List Nat) : syndromes (List.replicate n 0 ++ l) = syndromes l := by
  have h (x : Nat) : (List.replicate n 0).foldl (fun r c => gfMul r x ^^^ c) 0 = 0 := by
    induction n with
    | zero => rfl
    | succ n ih => simp [List.replicate_succ, gfMul_zero, ih]
  simp [syndromes, List.foldl_append, h]

/-- The CRC-20 of a message of zeros. -/
theorem crc20_zeros : crc20 4240 0 = 118471 := by decide +kernel

/-- What stands above the message does not enter its CRC-20. -/
theorem crc20_above (n c : Nat) : crc20 n (c * 2 ^ n) = crc20 n 0 := by
  have h (m a : Nat) (hm : m ≤ n) :
      (List.range m).foldl (fun r i => crc20Step r ((c * 2 ^ n).testBit i)) a = (List.range m).foldl (fun r i => crc20Step r (Nat.testBit 0 i)) a := by
    induction m with
    | zero => rfl
    | succ m ih =>
      have : (c * 2 ^ n).testBit m = Nat.testBit 0 m := by
        rw [Nat.testBit_mul_two_pow, Nat.zero_testBit]
        simp; omega
      simp [List.range_succ, List.foldl_append, ih (by omega), this]
  unfold crc20
  rw [h n _ (Nat.le_refl n)]

/-- A codeword after its decoder. -/
theorem codewordOf_eq (cw : List (BitVec 10)) (fixed bad : List Nat) (h : rsDecode (cw.map (·.toNat)) = some (fixed, bad)) :
    codewordOf cw = if symbolsNat (fixed.take 426) / 2 ^ 4240 = crc20 4240 (symbolsNat (fixed.take 426)) then
      some (headerOf (symbolsNat (fixed.take 426)), (List.range 4).map (fun s => slotOf (symbolsNat (fixed.take 426) / 2 ^ (48 + 1048 * s) % 2 ^ 1048)), bad)
    else none := by
  unfold codewordOf
  rw [h]

/-- A codeword of zeros has a wrong CRC-20. -/
theorem zeros_refused : codewordOf (List.replicate 448 0) = none := by
  have h : rsDecode (List.replicate 448 0) = some (List.replicate 448 0, []) := by
    have h1 : syndromes (List.replicate 448 0) = syndromes [] := by simpa using syndromes_zeros 448 []
    unfold rsDecode
    rw [h1]
    rfl
  have h2 : (List.replicate 448 (0 : BitVec 10)).map (·.toNat) = List.replicate 448 0 := by simp
  have h3 : ¬ symbolsNat ((List.replicate 448 0).take 426) / 2 ^ 4240 = crc20 4240 (symbolsNat ((List.replicate 448 0).take 426)) := by
    have h4 : symbolsNat ((List.replicate 448 0).take 426) = 0 := by decide +kernel
    rw [h4, crc20_zeros]
    decide +kernel
  rw [codewordOf_eq _ (List.replicate 448 0) [] (by rw [h2, h]), if_neg h3]

/-- The last symbols of the codeword whose message is all zeros: its CRC-20 and its check symbols. -/
def okTail : List Nat :=
  [711, 115, 151, 432, 961, 94, 949, 800, 181, 791, 737, 650, 821, 432, 503, 819, 458, 989, 667, 823, 923, 998, 528, 711]

/-- That codeword. -/
def okWord : List (BitVec 10) := List.replicate 424 0 ++ okTail.map (BitVec.ofNat 10)

/-- It is taken. -/
theorem okWord_some : ∃ x : CwHeader × List Flit × List Nat, codewordOf okWord = some (x.1, x.2.1, x.2.2) := by
  have h : rsDecode (List.replicate 424 0 ++ okTail) = some (List.replicate 424 0 ++ okTail, []) := by
    have h1 : (syndromes okTail).all (· == 0) = true := by decide +kernel
    unfold rsDecode
    rw [syndromes_zeros]
    exact if_pos h1
  have h2 : okWord.map (·.toNat) = List.replicate 424 0 ++ okTail := by
    have h5 : (okTail.map (BitVec.ofNat 10)).map (·.toNat) = okTail := by decide +kernel
    unfold okWord
    rw [List.map_append, List.map_replicate, h5]
    rfl
  have h3 : symbolsNat ((List.replicate 424 0 ++ okTail).take 426) / 2 ^ 4240 = crc20 4240 (symbolsNat ((List.replicate 424 0 ++ okTail).take 426)) := by
    have h4 : symbolsNat ((List.replicate 424 0 ++ okTail).take 426) = 118471 * 2 ^ 4240 := by decide +kernel
    rw [h4, crc20_above, crc20_zeros]
    exact Nat.mul_div_cancel _ (Nat.two_pow_pos _)
  rw [codewordOf_eq _ (List.replicate 424 0 ++ okTail) [] (by rw [h2, h]), if_pos h3]
  exact ⟨(_, _, _), rfl⟩

/-- An idle flit. -/
def flit0 : Flit := { kind := 0, vc := 0, ctx := 0, line := 0, data := [] }

/-- The identity of a partner. -/
def partner0 : PortIdentity := { systemId := 0, module := 1, numbered := true, port := 0, dim := 0, freeBufs := List.replicate 8 16 }

/-- An acknowledgement for module 1 that waits. -/
def ack0 (t : Nat) : PendingAck := { module := 1, entry := { srcRoom := 0, srcChan := 0, ackId := 1, lines := 1 }, since := t, origin := 0 }

/-- A context sent by room 0, channel 0, two of whose lines wait. -/
def lineCtx (at_ : Nat) : TxCtx := { room := 0, chan := 0, no := 0, ackId := 1, left := 2, sentAt := at_, dstModule := 1, flag := none }

/-- The module on the routed links whose context waits for its acknowledgements. -/
def awaiting (at_ : Nat) : State := { routed with links := { routed.links with tx := [lineCtx at_] } }

/-- The hypotheses of `Obligations.InterruptsCachesAndEntropy` can be met, clause by clause. -/
theorem witness_InterruptsCachesAndEntropy :
    (∃ (s : State) (n : Nat) (c : Nat), s.gysis.intc.globalEnable = true ∧ (s.source n).pending = true ∧ (s.source n).enabled = true ∧ ((∀ m, m ≠ n → (s.source m).pending = false)) ∧ s.heldBack (n / 32) = false ∧ c < 4 ∧ (s.source n).targets.getLsbD c = true ∧ (s.core c).retired = false ∧ (s.core c).handling = none ∧ (s.core c).mie = true ∧ n < (s.core c).running ∧ ((∀ d, d < 4 → (s.source n).targets.getLsbD d = true → (s.core d).retired = false → (s.core d).handling = none → (s.core d).mie = true → n < (s.core d).running → (s.core d).running < (s.core c).running ∨ (s.core d).running = (s.core c).running ∧ c ≤ d))) ∧
    (∃ (s : State) (c : CoreId), (s.core c).handling.isSome = true) ∧
    (∃ (s : State) (c : CoreId), (s.core c).handling = none) ∧
    (∃ (s : State) (g : Fin 8) (a : Nat), Tab.get none s.gysis.intc.heldUntil g = some a) ∧
    (∃ (s : State) (addr : Nat) (x : CacheBlock) (p : CacheParity), x = s.cache (addr / 64) ∧ ((∀ o, x.owner = some o → ∀ d, d ≠ o → x.mesi d = .invalid)) ∧ (p = .dirty ∨ p = .directory)) ∧
    (∃ (s : State) (addr : Nat) (x : CacheBlock), x = s.cache (addr / 64) ∧ ((∀ o, x.owner = some o → ∀ d, d ≠ o → x.mesi d = .invalid))) ∧
    (∃ (s : State) (c : CoreId) (addr : Nat) (x : CacheBlock), x = s.cache (addr / 64) ∧ x.owner = some c.val ∧ x.mesi c = .modified) ∧
    (∃ (s : State) (c : CoreId) (addr : Nat) (x : CacheBlock), x = s.cache (addr / 64) ∧ x.owner ≠ some c.val) ∧
    (∃ (s : State), s.sec.drbg = .halted ∧ s.now < s.sec.drbgFailedAt + 10000000) ∧
    (∃ (s : State), s.sec.drbg = .halted ∧ s.sec.drbgFailedAt + 10000000 ≤ s.now) ∧
    (∃ (s : State), s.sec.drbg = .running) ∧
    (∃ (s : State) (p : PartId) (r : Nat) (rest : List Nat) (k : _), s.keyAsks p = r :: rest ∧ s.sec.retired = false ∧ s.keyDonor p r = some k) ∧
    (∃ (s : State) (p : PartId) (r : Nat) (rest : List Nat), s.keyAsks p = r :: rest ∧ s.sec.retired = false ∧ s.keyDonor p r = none ∧ s.domain 118 = .on ∧ (s.sec.drbg ≠ .running ∨ (s.part p).isFollower = true)) ∧
    (∃ (s : State) (p : PartId) (r : Nat) (rest : List Nat), s.keyAsks p = r :: rest ∧ s.sec.retired = false ∧ s.keyDonor p r = none ∧ s.domain 118 = .on ∧ s.sec.drbg = .running ∧ (s.part p).isFollower = false) ∧
    (∃ (s : State) (g : Drbg), s.sec.drbgWork = some g ∧ s.reseedDue = false) ∧
    (∃ (s : State), s.reseedDue = true) ∧
    (∃ (s : State), s.domain 118 = .on ∧ s.domainNeeded 118 = false) :=
  ⟨⟨interrupted, 255, 0, by decide +kernel, by decide +kernel, by decide +kernel, interrupted_only, by decide +kernel, by decide +kernel, by decide +kernel, (by decide +kernel), by decide +kernel, by decide +kernel, by decide +kernel, by intro d hd; rcases d with _ | _ | _ | _ | d; all_goals first | decide +kernel | omega⟩,
    ⟨{ ready with gysis := { ready.gysis with cores := [(3, { handling := some 7 })] } }, 3, by decide +kernel⟩,
    ⟨ready, 3, by decide +kernel⟩,
    ⟨{ ready with gysis := { ready.gysis with intc := { heldUntil := [(7, some 2000000000)] } } }, 7, 2000000000, by decide +kernel⟩,
    ⟨cached, 127, owned, .dirty, by decide +kernel, owned_only, .inl rfl⟩,
    ⟨cached, 64, owned, by decide +kernel, owned_only⟩,
    ⟨cached, 1, 127, owned, by decide +kernel⟩,
    ⟨cached, 0, 127, owned, by decide +kernel⟩,
    ⟨{ ready with sec := { ready.sec with drbg := .halted, drbgFailedAt := 1990000001 } }, by decide +kernel⟩,
    ⟨{ ready with sec := { ready.sec with drbg := .halted, drbgFailedAt := 1990000000 } }, by decide +kernel⟩,
    ⟨ready, by decide +kernel⟩,
    ⟨asking.setPart 0 { asking.part 0 with blockKeys := [(0, 7)] }, 0, 0, [], 7, by decide +kernel⟩,
    ⟨{ asking with sec := { asking.sec with drbg := .halted } }, 0, 0, [], by decide +kernel, by decide +kernel, by decide +kernel, (by decide +kernel), .inl (by decide +kernel)⟩,
    ⟨asking, 0, 0, [], by decide +kernel⟩,
    ⟨{ ready with sec := { ready.sec with drbgWork := some { key := 3, v := 5 }, drbgSeeded := 2000000000, drbgRequests := 2 ^ 20 - 1 } }, { key := 3, v := 5 }, by decide +kernel⟩,
    ⟨{ ready with sec := { ready.sec with drbgWork := some { key := 3, v := 5 }, drbgSeeded := 2000000000, drbgRequests := 2 ^ 20 } }, by decide +kernel⟩,
    ⟨{ ready with power := { ready.power with domains := [(118, .on)] } }, by decide +kernel⟩⟩

/-- The hypotheses of `Obligations.PortsTrainReplayAndRetire` can be met, clause by clause. -/
theorem witness_PortsTrainReplayAndRetire :
    (∃ (s : State) (n : PortId) (cw : List (BitVec 10)), (s.port n).state = .active ∧ cw.length = 448 ∧ codewordOf cw = none) ∧
    (∃ (s : State) (n : PortId) (cw : List (BitVec 10)) (h : _) (fs : _) (bad : _), (s.port n).state = .active ∧ cw.length = 448 ∧ codewordOf cw = some (h, fs, bad)) ∧
    (∃ (x : Port) (seq : BitVec 12), seq = x.rxAck + 1) ∧
    (∃ (x : Port) (seq : BitVec 12), seq ≠ x.rxAck + 1 ∧ seq ≠ x.rxAck ∧ (seq - x.rxAck).toNat < 2048) ∧
    (∃ (x : Port) (seq : BitVec 12), (seq = x.rxAck ∨ 2048 ≤ (seq - x.rxAck).toNat)) ∧
    (∃ (s : State) (n : PortId), (s.port n).state = .active ∧ (s.port n).unacked ≠ [] ∧ (s.port n).nakSeen = true ∧ (s.port n).nakIgnoredUntil ≤ s.now) ∧
    (∃ (s : State) (n : PortId), (s.port n).state = .active ∧ (s.port n).unacked ≠ [] ∧ (s.port n).ackAt + 2000 ≤ s.now) ∧
    (∃ (s : State) (n : PortId), (s.port n).state = .active ∧ (s.port n).unacked ≠ [] ∧ s.now < (s.port n).ackAt + 2000) ∧
    (∃ (s : State) (n : PortId) (lanes : BitVec 8), (s.port n).state = .training ∧ (s.port n).trainStep = 2 ∧ s.linksRun = true ∧ s.now < (s.port n).trainStart + 20000000 ∧ (s.port n).chooseMap (lanes &&& ~~~(s.port n).laneRetired) = none) ∧
    (∃ (s : State) (n : PortId) (lanes : BitVec 8) (map : _), (s.port n).state = .training ∧ (s.port n).trainStep = 2 ∧ s.linksRun = true ∧ s.now < (s.port n).trainStart + 20000000 ∧ (s.port n).chooseMap (lanes &&& ~~~(s.port n).laneRetired) = some map) ∧
    (∃ (m : BitVec 8), (lanesIn m).length < 4) ∧
    (∃ (m : BitVec 8), 7 ≤ (lanesIn m).length) ∧
    (∃ (m : BitVec 8), 4 ≤ (lanesIn m).length ∧ (lanesIn m).length < 7) ∧
    (∃ (s : State) (n : PortId), (s.port n).state = .training ∧ (s.port n).trainStep = 2 ∧ (s.port n).trainStart + 20000000 ≤ s.now) ∧
    (∃ (s : State) (n : PortId), s.linksRun = true ∧ (((s.port n).state = .training ∨ (s.port n).state = .down)) ∧ (s.port n).trainStep = 0 ∧ (s.port n).backoffUntil ≤ s.now) ∧
    (∃ (s : State) (n : PortId) (lanes : _), s.linksRun = true ∧ (s.port n).state = .down ∧ 4 ≤ (lanesIn lanes).length) ∧
    (∃ (s : State) (n : PortId), s.linksRun = true ∧ ((s.port n).linked = true ∨ (s.port n).state = .held)) ∧
    (∃ (s : State) (n : PortId) (l : Fin 8), (s.port n).state = .active ∧ (s.port n).laneRetired.getLsbD l = false ∧ s.permanent (.lane n l) = true) ∧
    (∃ (s : State) (n : PortId) (m : BitVec 8), (s.port n).newMap = some m ∧ (s.port n).state = .active ∧ (s.port n).newMapConfirmed = false) ∧
    (∃ (s : State) (n : PortId) (m : BitVec 8), (s.port n).newMap = some m ∧ (s.port n).state = .active ∧ (s.port n).newMapConfirmed = true) ∧
    (∃ (s : State) (n : PortId), (s.port n).tapPending = true ∧ (s.port n).linked = true) ∧
    (∃ (s : State) (n : PortId), (s.port n).tapPending = false) ∧
    (∃ (s : State) (n : PortId), (s.port n).state ≠ .retired ∧ s.retireCause n = none) ∧
    (∃ (s : State) (n : PortId) (c : _), (s.port n).state ≠ .retired ∧ s.retireCause n = some c) ∧
    (∃ (s : State) (n : PortId), (s.port n).linked = true) :=
  ⟨⟨asPort 29 { state := .active } ready, 29, List.replicate 448 0, by decide +kernel, List.length_replicate, zeros_refused⟩,
    ⟨asPort 29 { state := .active } ready, 29, okWord, (okWord_some.choose).1, okWord_some.choose.2.1, okWord_some.choose.2.2, by decide +kernel, by decide +kernel, okWord_some.choose_spec⟩,
    ⟨{}, 0, by decide +kernel⟩,
    ⟨{}, 2046, by decide +kernel⟩,
    ⟨{}, 2047, .inr (by decide)⟩,
    ⟨asPort 29 { state := .active, unacked := [(5, 0, flit0)], nakSeen := true, retries := 7, nakIgnoredUntil := 2000000000 } ready, 29, by decide +kernel⟩,
    ⟨asPort 29 { state := .active, unacked := [(5, 0, flit0)], ackAt := 1999998000 } ready, 29, by decide +kernel⟩,
    ⟨asPort 29 { state := .active, unacked := [(5, 0, flit0)], ackAt := 1999998001 } ready, 29, by decide +kernel⟩,
    ⟨asPort 29 { state := .training, trainStep := 2, trainStart := 1980000001 } (linksUp ready), 29, 7, by decide +kernel⟩,
    ⟨asPort 29 { state := .training, trainStep := 2, trainStart := 1980000001 } (linksUp ready), 29, 0x7F, 0x7F, by decide +kernel⟩,
    ⟨7, by decide +kernel⟩,
    ⟨0x7F, by decide +kernel⟩,
    ⟨0x3F, by decide +kernel⟩,
    ⟨asPort 29 { state := .training, trainStep := 2, trainStart := 1980000000, attempt := 11 } ready, 29, by decide +kernel⟩,
    ⟨asPort 29 { state := .training, backoffUntil := 2000000000 } (linksUp ready), 29, by decide +kernel, .inl (by decide +kernel), by decide +kernel, by decide +kernel⟩,
    ⟨linksUp ready, 29, 0x0F, by decide +kernel⟩,
    ⟨asPort 29 { state := .held } (linksUp ready), 29, by decide +kernel, .inr (by decide +kernel)⟩,
    ⟨knows (.lane 29 7) 0 (asPort 29 { state := .active } ready), 29, 7, by decide +kernel⟩,
    ⟨asPort 29 { state := .active, newMap := some 0x0F } ready, 29, 0x0F, by decide +kernel⟩,
    ⟨asPort 29 { state := .active, newMap := some 0x0F, newMapConfirmed := true } ready, 29, 0x0F, by decide +kernel⟩,
    ⟨asPort 29 { state := .active, tapPending := true } ready, 29, by decide +kernel⟩,
    ⟨ready, 29, by decide +kernel⟩,
    ⟨ready, 29, by decide +kernel⟩,
    ⟨asPort 29 { laneRetired := 0x1F } ready, 29, 0, by decide +kernel⟩,
    ⟨asPort 29 { state := .training, trainStep := 7 } ready, 29, by decide +kernel⟩⟩

/-- The hypotheses of `Obligations.FlitsAreRoutedPerformedAndAcknowledged` can be met, clause by clause. -/
theorem witness_FlitsAreRoutedPerformedAndAcknowledged :
    (∃ (s : State) (n : PortId), (s.port n).state = .active ∧ s.links.locked = false) ∧
    (∃ (s : State) (n : PortId) (c : Ctx), (s.port n).state = .active ∧ s.links.locked = true ∧ s.ownModule = some c.dstModule ∧ c.originTime + 1000000 < s.timestamp) ∧
    (∃ (s : State) (n : PortId) (c : Ctx), (s.port n).state = .active ∧ s.links.locked = true ∧ s.ownModule ≠ some c.dstModule ∧ (c.hops = 0 ∨ c.originTime + 1000000 < s.timestamp)) ∧
    (∃ (s : State) (n : PortId) (c : Ctx), (s.port n).state = .active ∧ s.links.locked = true ∧ s.ownModule = some c.dstModule ∧ s.timestamp ≤ c.originTime + 1000000) ∧
    (∃ (s : State) (n : PortId) (vc : Fin 8) (c : Ctx) (m : _), (s.port n).state = .active ∧ s.links.locked = true ∧ s.ownModule ≠ some c.dstModule ∧ c.hops ≠ 0 ∧ s.timestamp ≤ c.originTime + 1000000 ∧ (s.freeBuffer n vc).choosePort c.dstModule vc none = some m) ∧
    (∃ (s : State) (n : PortId) (vc : Nat), 0 < Tab.get 0 (s.port n).occupied vc) ∧
    (∃ (s : State) (n : PortId) (vc : Nat), Tab.get 0 (s.port n).occupied vc = 0) ∧
    (∃ (s : State) (n : PortId) (k : Fin 64), (s.port n).state = .active ∧ s.lineWaits n k = true) ∧
    (∃ (s : State) (n : PortId) (k : Fin 64), (s.port n).state = .active ∧ s.rxAt n k = none) ∧
    (∃ (s : State) (n : PortId) (vc : Fin 8) (k : Fin 64) (line : Nat) (e : _), (s.port n).state = .active ∧ s.rxAt n k = some e ∧ (e.dropped = true ∨ e.vc ≠ vc.val ∨ e.ctx.lines ≤ line) ∧ s.lineWaits n k = false) ∧
    (∃ (s : State) (n : PortId) (vc : Fin 8) (k : Fin 64) (line : Nat) (data : List Byte) (e : _) (room : _), (s.port n).state = .active ∧ s.rxAt n k = some e ∧ e.dropped = false ∧ e.vc = vc.val ∧ line < e.ctx.lines ∧ s.timestamp ≤ e.ctx.originTime + 1000000 ∧ e.fwd = none ∧ e.ctx.space = 4 ∧ s.remoteOk (some n.val) e.ctx (e.ctx.lineAt line) = true ∧ data.length = 128 ∧ room = (s.part e.ctx.dstPart).rooms.getD e.ctx.dstRoom 0) ∧
    (∃ (s : State) (n : PortId) (vc : Fin 8) (k : Fin 64) (line : Nat) (e : _), (s.port n).state = .active ∧ s.rxAt n k = some e ∧ e.dropped = false ∧ e.vc = vc.val ∧ line < e.ctx.lines ∧ s.timestamp ≤ e.ctx.originTime + 1000000 ∧ e.fwd = none ∧ (e.ctx.space = 3 ∨ e.ctx.space = 4) ∧ s.lineWaits n k = false ∧ s.remoteOk (some n.val) e.ctx (e.ctx.lineAt line) = false) ∧
    (∃ (s : State) (n : PortId) (vc : Fin 8) (k : Fin 64) (line : Nat) (e : _) (m : _) (q : _) (v : _), (s.port n).state = .active ∧ s.rxAt n k = some e ∧ e.dropped = false ∧ e.vc = vc.val ∧ line < e.ctx.lines ∧ s.timestamp ≤ e.ctx.originTime + 1000000 ∧ e.fwd = some (m, q, v) ∧ m ≠ n.val ∧ (s.port m).state ≠ .retired ∧ (s.port m).state ≠ .active) ∧
    (∃ (s : State) (n : PortId) (vc : Fin 8) (k : Fin 64) (e : RxCtx), s.rxAt n k = some e ∧ e.vc = vc.val ∧ e.fwd = none ∧ 0 < e.unacked ∧ s.now < e.oldest + 1000) ∧
    (∃ (s : State) (n : PortId) (vc : Fin 8) (k : Fin 64) (e : RxCtx), s.rxAt n k = some e ∧ e.vc = vc.val ∧ e.fwd = none ∧ 0 < e.unacked ∧ e.oldest + 1000 ≤ s.now) ∧
    (∃ (s : State) (m : Nat), ((∀ a, a ∈ s.links.acks → a.module = m → s.now < a.since + 1000))) ∧
    (∃ (s : State) (m : Nat) (a : _), a ∈ s.links.acks ∧ a.module = m ∧ a.since + 1000 ≤ s.now) ∧
    (∃ (s : State) (n : PortId) (m : Nat) (e : AckEntry), (s.port n).state = .active ∧ s.ownModule = some m ∧ s.links.tx.find? (fun x => x.room == e.srcRoom && x.chan == e.srcChan && x.ackId == e.ackId) = none) ∧
    (∃ (s : State) (n : PortId) (m : Nat) (e : AckEntry) (x : _), (s.port n).state = .active ∧ s.ownModule = some m ∧ s.links.tx.find? (fun x => x.room == e.srcRoom && x.chan == e.srcChan && x.ackId == e.ackId) = some x ∧ x.sentAt + 1000000 < s.now) ∧
    (∃ (s : State) (n : PortId) (m : Nat) (e : AckEntry) (x : _), (s.port n).state = .active ∧ s.ownModule = some m ∧ s.links.tx.find? (fun x => x.room == e.srcRoom && x.chan == e.srcChan && x.ackId == e.ackId) = some x ∧ s.now ≤ x.sentAt + 1000000) ∧
    (∃ (s : State) (n : PortId) (l : Fin 8), (s.port n).state = .active ∧ (s.port n).laneMap.getLsbD l = true) ∧
    (∃ (s : State) (r : RouteTable), s.links.route = some r ∧ s.now < s.links.lastSummary + 10000000) ∧
    (∃ (s : State) (r : RouteTable), s.links.route = some r ∧ s.maySendCtx = true ∧ s.links.lastSummary + 10000000 ≤ s.now) :=
  ⟨⟨{ routed with links := { routed.links with locked := false } }, 3, by decide +kernel⟩,
    ⟨routed, 3, ctxAt 1998999999, by decide +kernel⟩,
    ⟨routed, 3, { ctxAt 1999000000 with dstModule := 1, hops := 0 }, by decide +kernel, by decide +kernel, by decide +kernel, .inl rfl⟩,
    ⟨routed, 3, ctxAt 1999000000, by decide +kernel⟩,
    ⟨routed, 3, 7, { ctxAt 1999000000 with dstModule := 1 }, 3, by decide +kernel⟩,
    ⟨asPort 3 { occupied := [(7, 1)] } ready, 3, 7, by decide +kernel⟩,
    ⟨ready, 3, 7, by decide +kernel⟩,
    ⟨(receiving rx0).setStack 1 { level := 4 }, 3, 5, by decide +kernel⟩,
    ⟨routed, 3, 5, by decide +kernel⟩,
    ⟨receiving rx0, 3, 2, 5, 2, rx0, by decide +kernel, by decide +kernel, .inr (.inr (by decide)), by decide +kernel⟩,
    ⟨receiving { rx0 with ctx := { rx0.ctx with space := 4 } }, 3, 2, 5, 1, List.replicate 128 7, { rx0 with ctx := { rx0.ctx with space := 4 } }, 1, by decide +kernel⟩,
    ⟨receiving { rx0 with ctx := { rx0.ctx with dstRoom := 2 } }, 3, 2, 5, 1, { rx0 with ctx := { rx0.ctx with dstRoom := 2 } }, by decide +kernel, by decide +kernel, by decide +kernel, (by decide +kernel), by decide +kernel, by decide +kernel, by decide +kernel, .inl (by decide), by decide +kernel, by decide +kernel⟩,
    ⟨receiving { rx0 with fwd := some (4, 9, 2) }, 3, 2, 5, 1, { rx0 with fwd := some (4, 9, 2) }, 4, 9, 2, by decide +kernel⟩,
    ⟨receiving { rx0 with unacked := 1, oldest := 1999999001 }, 3, 2, 5, { rx0 with unacked := 1, oldest := 1999999001 }, by decide +kernel⟩,
    ⟨receiving { rx0 with unacked := 1, oldest := 1999999000 }, 3, 2, 5, { rx0 with unacked := 1, oldest := 1999999000 }, by decide +kernel⟩,
    ⟨{ routed with links := { routed.links with acks := [ack0 1999999001] } }, 1, by decide +kernel⟩,
    ⟨{ routed with links := { routed.links with acks := [ack0 1999999000] } }, 1, ack0 1999999000, by decide +kernel⟩,
    ⟨routed, 3, 0, { srcRoom := 0, srcChan := 0, ackId := 1, lines := 1 }, by decide +kernel⟩,
    ⟨awaiting 1998999999, 3, 0, { srcRoom := 0, srcChan := 0, ackId := 1, lines := 1 }, lineCtx 1998999999, by decide +kernel⟩,
    ⟨awaiting 1999000000, 3, 0, { srcRoom := 0, srcChan := 0, ackId := 1, lines := 1 }, lineCtx 1999000000, by decide +kernel⟩,
    ⟨routed, 3, 7, by decide +kernel⟩,
    ⟨{ routed with links := { routed.links with lastSummary := 1990000001 } }, pairTable, by decide +kernel⟩,
    ⟨{ routed with links := { routed.links with lastSummary := 1990000000 } }, pairTable, by decide +kernel⟩⟩

end Sys2Proof.Tests
end

