-- ==== Sys2Proof/Tests/Witnesses08.lean ====
section
/-! SUPPORT. Witnesses: states and operands that meet the hypotheses of the obligations, part 8. -/

namespace Sys2Proof.Tests

open Sys2Proof.Machine

set_option maxRecDepth 20000
set_option Elab.async false

/-- MIRROR_SET of a mode for partition 0, its counterpart partition 15 of module 1. -/
def mirrored (mode : Nat) (s : State) : State := running 0 0 0x0104 [0, BitVec.ofNat 8 mode, 1, 0, 15] s

/-- The tenant in a pair. -/
def twin (st : PairState) (leader : Bool) : State :=
  asPart { part2 with portMask := 0x3FFFFFFF, pair := { state := st, leader := leader, mode := 1, peerModule := 1, peerPart := 15, key := some 7 } } routed

/-- A digest record of block 7. -/
def record7 : DigestRec := { mblock := 7, replay := false, err := false, d1 := 1, d2 := 2, cause := 0 }

/-- A stream that waits for its ECHO. -/
def echoing : Issued :=
  { no := 4
    desc := { op := 0, flags := 0, srcSpace := 0, dstSpace := 1, srcRoom := 0, dstRoom := 0, dstModule := 0, srcBase := 0, dstBase := 0, blkLines := 1, hostBuf := 0
              blkRows := 1, srcPitch := 128, dstPitch := 128, idxBase := 0, idxSpace := 0, idxForm := 0, token := 0, idxCount := 0, rowStride := 0, colStride := 0
              fillWord := 0 }
    tags := 1, echo := true }

/-- A finished block 7 of a pair in dual, whose own record waits. -/
def compared : State :=
  asRoom { block := some block0, blockDone := true }
    (asPart { part2 with pair := { state := .dual, leader := true, mode := 1, peerModule := 1, peerPart := 15, mblock := [(0, 7)], own := [(0, [{ record7 with replay := true }])] } }
      routed)

/-- Both PLLs locked. -/
def locked (s : State) : State :=
  { s with clocks := { s.clocks with root := { running := true, locked := true, beatOk := true }, alt := { running := true, locked := true, beatOk := true } } }

/-- Domain 2 on the root PLL, which is as given. -/
def onRoot (p : Pll) (s : State) : State := { s with clocks := { s.clocks with doms := [(2, { source := 0 })], root := p } }

/-- Power domain 95 waking, others waiting. -/
def waking (l : List Nat) : State := { ready with power := { ready.power with domains := [(95, .waking)], wakeQueue := l } }

/-- An image region that verifies. -/
def image1 : Image := { present := true, signer := 0, keysMatch := true, sigsOk := true, svn := 1, fuseSvn := false, version := 1, digest := [] }

/-- A configuration with the highest limits. -/
def board1 : BoardConfig := { outletLimit := 55, currentLimit := [2400, 400, 300] }

/-- The module under that configuration. -/
def boarded : State := { ready with nvm := { ready.nvm with config := board1 } }

/-- What the flash holds. -/
structure Flash where
  fwA : Image := { image1 with present := false }
  fwB : Image := { image1 with present := false }
  conf : Option BoardConfig := none

/-- A module that has read its fuses and boots from that flash; no fuse sets an SVN or revokes a signer. -/
def flashed (x : Flash) : State :=
  let s := inState .fuses ready
  { s with nvm := { s.nvm with fuses := [], image := [], fwA := x.fwA, fwB := x.fwB, confA := x.conf, confB := none } }

/-- The hypotheses of `Obligations.PairsFormCompareAndPart` can be met, clause by clause. -/
theorem witness_PairsFormCompareAndPart :
    (∃ (s : State) (f : FnId) (k : SlotId) (p : Nat) (m : Nat), s.runs f k 0x0104 ∧ p = (s.cmd f k).field 0 1 ∧ m = (s.cmd f k).field 1 1 ∧ checkMirror s false (s.cmd f k) = 0 ∧ (s.part p).pair.wait = none ∧ m = 0 ∧ (s.part p).paired = false ∧ (s.part p).pair.state ≠ .frozen) ∧
    (∃ (s : State) (f : FnId) (k : SlotId) (p : Nat) (m : Nat), s.runs f k 0x0104 ∧ p = (s.cmd f k).field 0 1 ∧ m = (s.cmd f k).field 1 1 ∧ checkMirror s false (s.cmd f k) = 0 ∧ (s.part p).pair.wait = none ∧ m = 0 ∧ (s.part p).paired = true) ∧
    (∃ (s : State) (f : FnId) (k : SlotId) (a : PeerAnswer) (p : Nat) (m : Nat), s.runs f k 0x0104 ∧ p = (s.cmd f k).field 0 1 ∧ m = (s.cmd f k).field 1 1 ∧ checkMirror s false (s.cmd f k) = 0 ∧ (s.part p).pair.wait = none ∧ m ≠ 0 ∧ (s.part p).paired = false ∧ a = .silent) ∧
    (∃ (s : State) (f : FnId) (k : SlotId) (a : PeerAnswer) (p : Nat) (m : Nat), s.runs f k 0x0104 ∧ p = (s.cmd f k).field 0 1 ∧ m = (s.cmd f k).field 1 1 ∧ checkMirror s false (s.cmd f k) = 0 ∧ (s.part p).pair.wait = none ∧ m ≠ 0 ∧ (s.part p).paired = false ∧ ((a = .mismatch ∨ a = .matching true ∧ (s.part p).holdsState = true))) ∧
    (∃ (s : State) (f : FnId) (k : SlotId) (a : PeerAnswer) (p : Nat) (m : Nat) (h : _), s.runs f k 0x0104 ∧ p = (s.cmd f k).field 0 1 ∧ m = (s.cmd f k).field 1 1 ∧ checkMirror s false (s.cmd f k) = 0 ∧ (s.part p).pair.wait = none ∧ m ≠ 0 ∧ (s.part p).paired = false ∧ a = .matching h ∧ ((s.part p).holdsState && h) = false ∧ s.sec.drbg ≠ .running) ∧
    (∃ (s : State) (f : FnId) (k : SlotId) (a : PeerAnswer) (p : Nat) (m : Nat) (h : _), s.runs f k 0x0104 ∧ p = (s.cmd f k).field 0 1 ∧ m = (s.cmd f k).field 1 1 ∧ checkMirror s false (s.cmd f k) = 0 ∧ (s.part p).pair.wait = none ∧ m ≠ 0 ∧ (s.part p).paired = false ∧ a = .matching h ∧ ((s.part p).holdsState && h) = false ∧ s.sec.drbg = .running) ∧
    (∃ (s : State) (p : PartId) (k : Nat) (at_ : Nat), (s.part p).pair.wait = some (k, at_) ∧ (s.part p).paired = false ∧ s.now < at_ + 10000000000) ∧
    (∃ (s : State) (p : PartId) (k : Nat) (at_ : Nat), (s.part p).pair.wait = some (k, at_) ∧ (s.part p).paired = false ∧ at_ + 10000000000 ≤ s.now) ∧
    (∃ (s : State) (p : PartId), (s.part p).paired = false) ∧
    (∃ (s : State) (p : PartId), (s.part p).paired = false) ∧
    (∃ (s : State) (p : PartId) (k : SlotId), (s.part p).isFollower = true ∧ k = s.idleSlot (p.val + 1)) ∧
    (∃ (s : State) (p : PartId) (b : List Byte) (m : Nat), (s.part p).paired = true ∧ m = fieldOf b 0 1 ∧ (m = 1 ∨ m = 2) ∧ (s.part p).pair.state ≠ .syncing) ∧
    (∃ (s : State) (p : PartId) (room : Nat) (off : Nat) (data : List Byte), (s.part p).isFollower = true ∧ room < (s.part p).rooms.length ∧ off + data.length ≤ atticBytes) ∧
    (∃ (s : State) (p : PartId) (room : Nat) (off : Nat) (data : List Byte), (s.part p).isFollower = true ∧ room < (s.part p).rooms.length ∧ off + data.length ≤ stackBytes ∧ 4 ≤ (s.stack ((s.part p).roomAt room)).level) ∧
    (∃ (s : State) (p : PartId), (s.part p).isFollower = true) ∧
    (∃ (s : State) (p : PartId) (room : Nat) (ch : ChanId), (s.part p).isFollower = true ∧ room < (s.part p).rooms.length ∧ ((s.room ((s.part p).roomAt room)).chan ch).issued.any (·.echo) = false) ∧
    (∃ (s : State) (p : PartId) (room : Nat) (ch : ChanId) (i : _), (s.part p).isFollower = true ∧ room < (s.part p).rooms.length ∧ ((s.room ((s.part p).roomAt room)).chan ch).issued.find? (·.echo) = some i) ∧
    (∃ (s : State) (p : PartId) (pk : BitVec 256), (s.part p).isFollower = true ∧ (s.part p).pair.key = some pk) ∧
    (∃ (s : State) (p : PartId) (room : Nat), (s.part p).paired = true ∧ room < (s.part p).rooms.length ∧ (s.room ((s.part p).roomAt room)).blockDone = false ∧ (¬((s.part p).pair.state = .standby ∧ (s.part p).pair.leader = true))) ∧
    (∃ (s : State) (p : PartId) (room : Nat) (d : DigestRec) (b : _) (c : _), (s.part p).paired = true ∧ room < (s.part p).rooms.length ∧ (s.part p).pair.state = .dual ∧ (s.room ((s.part p).roomAt room)).block = some b ∧ (s.room ((s.part p).roomAt room)).blockDone = true ∧ (s.room ((s.part p).roomAt room)).streamsDone = true ∧ b.agreed = false ∧ b.exchange = false ∧ b.seen = 0 ∧ s.recordWaits p ((s.part p).roomAt room) = false ∧ recordsOf (s.part p).pair.own room ((s.part p).pair.at_ room) = [c] ∧ d.mblock = (s.part p).pair.at_ room ∧ c.mblock = d.mblock ∧ c.d1 = d.d1 ∧ c.d2 = d.d2 ∧ c.cause = d.cause) ∧
    (∃ (s : State) (p : PartId) (st : _), (s.part p).paired = true ∧ st ≠ 5) ∧
    (∃ (s : State) (p : PartId), (s.part p).paired = true ∧ (s.part p).pair.lastMsg + 10000000 ≤ s.now) ∧
    (∃ (s : State) (p : PartId), (s.part p).paired = true ∧ (s.part p).pair.lastBeat + 100000 ≤ s.now) ∧
    (∃ (s : State) (p : PartId), (s.part p).paired = true ∧ s.now < (s.part p).pair.lastBeat + 100000) ∧
    (∃ (s : State) (p : PartId), (s.part p).pair.state = .syncing ∧ ((s.part p).pair.mode = 1 ∨ (s.part p).pair.mode = 2)) :=
  ⟨⟨mirrored 0 routed, 0, 0, 0, 0, ⟨by decide +kernel, by decide +kernel⟩, by decide +kernel, by decide +kernel, by decide +kernel, (by decide +kernel), by decide +kernel, by decide +kernel, by decide +kernel⟩,
    ⟨mirrored 0 (twin .dual true), 0, 0, 0, 0, ⟨by decide +kernel, by decide +kernel⟩, by decide +kernel, by decide +kernel, by decide +kernel, (by decide +kernel), by decide +kernel, by decide +kernel⟩,
    ⟨mirrored 2 routed, 0, 0, .silent, 0, 2, ⟨by decide +kernel, by decide +kernel⟩, by decide +kernel, by decide +kernel, by decide +kernel, (by decide +kernel), by decide +kernel, by decide +kernel, by decide +kernel⟩,
    ⟨mirrored 1 (asPart { keyed with portMask := 0x3FFFFFFF } routed), 0, 0, .matching true, 0, 1, ⟨by decide +kernel, by decide +kernel⟩, by decide +kernel, by decide +kernel, by decide +kernel, (by decide +kernel), by decide +kernel, by decide +kernel, .inr (by decide +kernel)⟩,
    ⟨mirrored 1 { routed with sec := { routed.sec with drbg := .halted } }, 0, 0, .matching false, 0, 1, false, ⟨by decide +kernel, by decide +kernel⟩, by decide +kernel, by decide +kernel, by decide +kernel, (by decide +kernel), by decide +kernel, by decide +kernel, by decide +kernel, (by decide +kernel), by decide +kernel⟩,
    ⟨mirrored 1 routed, 0, 0, .matching false, 0, 1, false, ⟨by decide +kernel, by decide +kernel⟩, by decide +kernel, by decide +kernel, by decide +kernel, (by decide +kernel), by decide +kernel, by decide +kernel, by decide +kernel, (by decide +kernel), by decide +kernel⟩,
    ⟨asPart { part2 with pair := { wait := some (3, 1000000) } } { ready with now := 10000999999 }, 0, 3, 1000000, by decide +kernel⟩,
    ⟨asPart { part2 with pair := { wait := some (3, 1000000) } } { ready with now := 10001000000 }, 0, 3, 1000000, by decide +kernel⟩,
    ⟨tenant, 0, by decide +kernel⟩,
    ⟨tenant, 0, by decide +kernel⟩,
    ⟨twin .dual false, 0, 0, by decide +kernel⟩,
    ⟨twin .dual false, 0, [2], 2, by decide +kernel, by decide +kernel, .inr (by decide), by decide +kernel⟩,
    ⟨twin .dual false, 0, 1, atticBytes - 128, List.replicate 128 9, by decide +kernel⟩,
    ⟨(twin .standby false).setStack 1 { level := 4 }, 0, 1, stackBytes - 128, List.replicate 128 9, by decide +kernel⟩,
    ⟨twin .standby false, 0, by decide +kernel⟩,
    ⟨twin .dual false, 0, 1, 15, by decide +kernel⟩,
    ⟨asRoom { channels := [(15, { issued := [echoing] })] } (twin .dual false), 0, 0, 15, echoing, by decide +kernel⟩,
    ⟨twin .dual false, 0, 7, by decide +kernel⟩,
    ⟨twin .standby false, 0, 1, by decide +kernel⟩,
    ⟨compared, 0, 0, record7, block0, { record7 with replay := true }, by decide +kernel⟩,
    ⟨twin .dual true, 0, 7, by decide +kernel⟩,
    ⟨twin .dual true, 0, by decide +kernel⟩,
    ⟨twin .dual true, 0, by decide +kernel⟩,
    ⟨{ twin .dual true with now := 99999 }, 0, by decide +kernel⟩,
    ⟨twin .syncing false, 0, by decide +kernel, .inl (by decide +kernel)⟩⟩

/-- The hypotheses of `Obligations.ClocksSwitchAndReturn` can be met, clause by clause. -/
theorem witness_ClocksSwitchAndReturn :
    (∃ (s : State) (d : ClkId) (src : Fin 3), s.romServes = false ∧ (s.clk d).source = src) ∧
    (∃ (s : State) (d : ClkId) (src : Fin 3), s.romServes = false ∧ (s.clk d).source ≠ src ∧ s.sourceStopped (s.clk d).source = false ∧ s.sourceReady src = false) ∧
    (∃ (s : State) (d : ClkId) (src : Fin 3), s.romServes = false ∧ (s.clk d).source ≠ src ∧ s.sourceStopped (s.clk d).source = false ∧ s.sourceReady src = true ∧ d.val ≠ 1 ∧ d.val ≠ 4 ∧ d.val ≠ 5 ∧ s.blocksInFlight = true) ∧
    (∃ (s : State) (d : ClkId) (src : Fin 3), s.romServes = false ∧ (s.clk d).source ≠ src ∧ s.sourceStopped (s.clk d).source = false ∧ s.sourceReady src = true ∧ ((d.val = 1 ∨ d.val = 4 ∨ d.val = 5 ∨ s.blocksInFlight = false))) ∧
    (∃ (s : State) (d : ClkId) (i : Instr), (s.clk d).source ≠ 2 ∧ ((i = .clockStopped d ∨ s.romServes = false ∧ s.sourceStopped (s.clk d).source = true ∧ ∃ src, src ≠ (s.clk d).source ∧ i = .clockSwitch d src))) ∧
    (∃ (s : State) (d : ClkId), (s.clk d).source = 2) ∧
    (∃ (s : State) (alt : Bool) (src : Nat), src = (if alt then 1 else 0) ∧ (s.pll src).locked = false) ∧
    (∃ (s : State) (alt : Bool) (src : Nat), src = (if alt then 1 else 0) ∧ (s.pll src).locked = true ∧ s.romServes = false ∧ s.clocks.refPresent = true) ∧
    (∃ (s : State) (alt : Bool) (src : Nat), src = (if alt then 1 else 0) ∧ s.romServes = false ∧ s.sourceReady src = true ∧ (s.pll src).readyAt + 10000000 ≤ s.now) ∧
    (∃ (s : State) (alt : Bool) (src : Nat), src = (if alt then 1 else 0) ∧ s.now < (s.pll src).readyAt + 10000000) :=
  ⟨⟨ready, 5, 2, by decide +kernel⟩,
    ⟨ready, 5, 0, by decide +kernel⟩,
    ⟨inBlock block0 (locked ready), 3, 1, by decide +kernel⟩,
    ⟨inBlock block0 (locked ready), 4, 1, by decide +kernel, by decide +kernel, by decide +kernel, (by decide +kernel), .inr (.inl (by decide))⟩,
    ⟨onRoot { running := true, locked := true, stopped := true } ready, 2, .clockSwitch 2 1, by decide +kernel, .inr (by decide +kernel)⟩,
    ⟨ready, 5, by decide +kernel⟩,
    ⟨ready, true, 1, by decide +kernel⟩,
    ⟨locked ready, false, 0, by decide +kernel⟩,
    ⟨onRoot { running := true, locked := true, beatOk := true, readySince := 1990000000 } ready, false, 0, by decide +kernel⟩,
    ⟨onRoot { running := true, locked := true, beatOk := true, readySince := 1990000001 } ready, false, 0, by decide +kernel⟩⟩

/-- The hypotheses of `Obligations.PowerClampsAndReadings` can be met, clause by clause. -/
theorem witness_PowerClampsAndReadings :
    (∃ (s : State) (d : DomId), s.domain d ≠ .waking) ∧
    (∃ (s : State) (d : DomId), s.domain d = .waking ∧ s.power.wakeQueue = []) ∧
    (∃ (s : State) (d : DomId) (e : _) (l : _), s.domain d = .waking ∧ s.power.wakeQueue = e :: l ∧ e ≠ d.val ∧ s.domain e = .off ∧ (s.setDomain d .on).wakingCount < 4) ∧
    (∃ (s : State) (d : DomId), s.domainNeeded d = true) ∧
    (∃ (s : State) (d : DomId), s.domain d ≠ .heldOff ∧ s.domainNeeded d = false ∧ s.bundleBusy d = false) ∧
    (∃ (s : State) (w : Nat) (need : Nat) (l : List Nat), need = ((w - l.sum) * 105 + 99) / 100 ∧ s.romServes = false ∧ s.boot.state ≠ .halted) ∧
    (∃ (s : State) (a : Nat), s.power.withinSince = some a ∧ s.power.capUnmet = true) ∧
    (∃ (s : State) (k : Nat) (lim : Nat), 1 ≤ k ∧ k ≤ 3 ∧ lim = s.nvm.config.currentLimit.getD (k - 1) 0 * 1000) ∧
    (∃ (s : State) (a : Nat), s.power.currentBelow = some a ∧ s.power.currentClamp = true) ∧
    (∃ (s : State) (lim : Int), lim = s.nvm.config.outletLimit * 1000) ∧
    (∃ (s : State) (c : Fin 3), s.boot.state ≠ .halted ∧ (c.val ≠ 1 ∨ s.power.currentClamp = true ∧ s.power.currentSince + 100000000 ≤ s.now)) ∧
    (∃ (s : State) (c : Fin 3), s.boot.state ≠ .halted ∧ c.val = 1 ∧ s.power.currentClamp = false) ∧
    (∃ (s : State) (id : Nat) (a : _), Tab.get none s.power.stale id = some a) ∧
    (∃ (s : State) (id : Nat), Tab.get none s.power.stale id = none) ∧
    (∃ (s : State), s.boot.state ≠ .powerOn ∧ 1 ≤ s.board.selected.toNat / 2 ^ 24 ∧ s.board.selected.toNat / 2 ^ 24 ≤ 5) ∧
    (∃ (s : State), s.boot.state ≠ .powerOn ∧ (s.board.selected.toNat / 2 ^ 24 = 0 ∨ 6 ≤ s.board.selected.toNat / 2 ^ 24)) ∧
    (∃ (s : State), s.boot.state ≠ .powerOn ∧ s.smbAlert = true) ∧
    (∃ (s : State), s.boot.state ≠ .powerOn ∧ s.smbAlert = false) :=
  ⟨⟨ready, 5, by decide +kernel⟩,
    ⟨waking [], 95, by decide +kernel⟩,
    ⟨waking [118, 3], 95, 118, [3], by decide +kernel⟩,
    ⟨tenant, 5, by decide +kernel⟩,
    ⟨{ ready with power := { ready.power with domains := [(95, .on)] } }, 95, by decide +kernel⟩,
    ⟨ready, 100000, 84000, [10000, 10000], by decide +kernel⟩,
    ⟨{ ready with power := { ready.power with capUnmet := true, withinSince := some 1990000000 } }, 1990000000, by decide +kernel⟩,
    ⟨boarded, 1, 2400000, by decide +kernel⟩,
    ⟨{ ready with power := { ready.power with currentClamp := true, currentBelow := some 1999900000 } }, 1999900000, by decide +kernel⟩,
    ⟨boarded, 55000, by decide +kernel⟩,
    ⟨{ ready with power := { ready.power with currentClamp := true, currentSince := 1900000000 } }, 1, by decide +kernel, .inr (by decide +kernel)⟩,
    ⟨ready, 1, by decide +kernel⟩,
    ⟨{ ready with power := { ready.power with stale := [(0x01000002, some 5)] } }, 0x01000002, 5, by decide +kernel⟩,
    ⟨ready, 0x01000002, by decide +kernel⟩,
    ⟨{ ready with board := { ready.board with selected := 0x05000000 } }, by decide +kernel⟩,
    ⟨{ ready with board := { ready.board with selected := 0x06000000 } }, by decide +kernel, .inr (by decide +kernel)⟩,
    ⟨{ ready with power := { ready.power with capUnmet := true }, board := { ready.board with alertAcked := 3 } }, by decide +kernel⟩,
    ⟨{ ready with power := { ready.power with coolantClamp := false } }, by decide +kernel⟩⟩

/-- The hypotheses of `Obligations.ResetsAndTheBoot` can be met, clause by clause. -/
theorem witness_ResetsAndTheBoot :
    (∃ (s : State) (src : ResetSource), s.coldSource src = false) ∧
    (∃ (s : State) (src : ResetSource), s.coldSource src = true) ∧
    (∃ (s : State) (n : Nat), s.coldSource (.rstN n) = true) ∧
    (∃ (n : Nat), 10000 ≤ n) ∧
    (∃ (s : State) (src : ResetSource), s.held = false ∧ s.clocks.refHold = false ∧ ((src = .hotReset ∨ src = .moduleReset ∧ s.resetDue 0 = true))) ∧
    (∃ (s : State), s.held = false ∧ s.refStable = true ∧ ((s.boot.state = .powerOn ∨ s.boot.state = .fuses ∧ s.boot.stageDone = false))) ∧
    (∃ (n : Nat) (k : _), n < 2048 ∧ k ≠ n) ∧
    (∃ (n : Nat), n < 2048) ∧
    (∃ (s : State) (ok : Bool), s.boot.state = .fuses ∧ s.boot.stageDone = true ∧ ok = false) ∧
    (∃ (s : State) (ok : Bool), s.boot.state = .fuses ∧ s.boot.stageDone = true ∧ ok = true ∧ s.boot.recoveryStrap = true) ∧
    (∃ (s : State) (ok : Bool), s.boot.state = .fuses ∧ s.boot.stageDone = true ∧ ok = true ∧ s.boot.recoveryStrap = false ∧ s.pickImage s.nvm.fwA s.nvm.fwB = none) ∧
    (∃ (s : State) (ok : Bool) (b : _), s.boot.state = .fuses ∧ s.boot.stageDone = true ∧ ok = true ∧ s.boot.recoveryStrap = false ∧ s.pickImage s.nvm.fwA s.nvm.fwB = some b ∧ s.pickConfig = none) ∧
    (∃ (s : State) (ok : Bool) (b : _) (c : _), s.boot.state = .fuses ∧ s.boot.stageDone = true ∧ ok = true ∧ s.boot.recoveryStrap = false ∧ s.pickImage s.nvm.fwA s.nvm.fwB = some b ∧ s.pickConfig = some c) ∧
    (∃ (s : State), s.boot.state = .loading ∧ s.boot.stageDone = true) ∧
    (∃ (s : State), s.boot.state = .selfTest ∧ s.boot.stageDone = true) ∧
    (∃ (s : State), s.boot.state = .training ∧ s.boot.stageDone = true) ∧
    (∃ (s : State), s.boot.firmwareRunning = true ∧ (s.boot.state = .ready ∨ s.boot.state = .test)) ∧
    (∃ (s : State) (k : Nat), k ∈ allRails ∧ s.rail k = 0 ∧ k ≠ 4 ∧ s.power.seqFault = false ∧ s.railEarly k = false) ∧
    (∃ (s : State) (k : Nat), k ∈ allRails ∧ s.rail k = 0 ∧ k ≠ 4 ∧ s.power.seqFault = false ∧ s.railEarly k = true) ∧
    (∃ (s : State) (a : Nat), s.power.regulatedSince = some a ∧ s.boot.resetHold = true ∧ s.power.seqFault = false ∧ a + 1000000 ≤ s.now) ∧
    (∃ (s : State) (f : FnId), s.fnPresent f = true ∧ s.configReady = false) ∧
    (∃ (s : State) (f : FnId), s.fnPresent f = true ∧ s.configReady = true) ∧
    (∃ (s : State) (i : TapInstr), s.boot.testStrap = false ∧ i.always = false) ∧
    (∃ (i : TapInstr), i = .idcode) ∧
    (∃ (i : TapInstr), i = .samplePreload) ∧
    (∃ (s : State) (i : TapInstr) (r : _), s.boot.testStrap = true ∧ i = .userAtticTest r ∧ s.boot.state = .test ∧ s.roomOk r = true) :=
  ⟨⟨ready, .rstN 999, by decide +kernel⟩,
    ⟨ready, .rstN 10000, by decide +kernel⟩,
    ⟨{ ready with clocks := { ready.clocks with refSince := 0 } }, 10000, by decide +kernel⟩,
    ⟨10000, by decide +kernel⟩,
    ⟨{ ready with boot := { ready.boot with resetAt := some (0, 2000000000) } }, .moduleReset, by decide +kernel, by decide +kernel, .inr (by decide +kernel)⟩,
    ⟨inState .powerOn ready, by decide +kernel, by decide +kernel, .inl (by decide +kernel)⟩,
    ⟨2047, 3, by decide +kernel⟩,
    ⟨2047, by decide +kernel⟩,
    ⟨inState .fuses ready, false, by decide +kernel⟩,
    ⟨{ inState .fuses ready with boot := { (inState .fuses ready).boot with recoveryStrap := true } }, true, by decide +kernel⟩,
    ⟨flashed {}, true, by decide +kernel⟩,
    ⟨flashed { fwB := image1 }, true, true, by decide +kernel⟩,
    ⟨flashed { fwA := image1, conf := some board1 }, true, false, board1, by decide +kernel⟩,
    ⟨inState .loading ready, by decide +kernel⟩,
    ⟨inState .selfTest ready, by decide +kernel⟩,
    ⟨inState .training ready, by decide +kernel⟩,
    ⟨tenant, by decide +kernel, .inl (by decide +kernel)⟩,
    ⟨{ ready with power := { ready.power with rails := [(4, 3), (11, 3)] } }, 12, by decide +kernel⟩,
    ⟨{ ready with power := { ready.power with rails := [(4, 3)] } }, 6, by decide +kernel⟩,
    ⟨{ ready with power := { ready.power with regulatedSince := some 1999000000 }, boot := { ready.boot with resetHold := true } }, 1999000000, by decide +kernel⟩,
    ⟨{ ready with boot := { ready.boot with releasedAt := 1900000001 } }, 16, by decide +kernel⟩,
    ⟨{ ready with boot := { ready.boot with releasedAt := 1900000000 } }, 16, by decide +kernel⟩,
    ⟨ready, .userAtticTest 3, by decide +kernel⟩,
    ⟨.idcode, by decide +kernel⟩,
    ⟨.samplePreload, by decide +kernel⟩,
    ⟨{ testing with boot := { testing.boot with testStrap := true } }, .userAtticTest 15, 15, by decide +kernel⟩⟩

end Sys2Proof.Tests
end

section
/-! PROOFS. The host's accesses to slots and to the register window (R12 to R18, R320 to R323, R528 to R539): one lemma for each operation they rest on, then the
statements about them. -/

namespace Sys2Proof.Machine

/-! ## Writes of slot bytes -/

theorem exec_slotByteWrite {s : State} {f : FnId} (hf : s.fnPresent f = true) (k : SlotId) (off : Nat) (data : List Byte) :
    exec (.slotByteWrite f k off data) s = .next (s.writeSlot f k off data) := by
  change execSlotByteWrite f k off data s = _
  simp [execSlotByteWrite, hf]

theorem State.writeSlot_of_free {s : State} {f k : Nat} (h : ((s.fn f).slot k).state = .free) (off : Nat) (data : List Byte) :
    s.writeSlot f k off data = s.setSlot f k (((s.fn f).slot k).putRun off (((s.fn f).slot k).runIn off data)) := by
  simp [State.writeSlot, h]

theorem State.writeSlot_of_not_free {s : State} {f k : Nat} (h : ((s.fn f).slot k).state ≠ .free) (off : Nat) (data : List Byte) :
    s.writeSlot f k off data = s.violate f := by
  simp [State.writeSlot, h]

@[simp] theorem Slot.runIn_length (x : Slot) (off : Nat) (l : List Byte) : (x.runIn off l).length = l.length := by
  induction l generalizing off with
  | nil => rfl
  | cons b t ih => simp [Slot.runIn, ih]

theorem Slot.runIn_getD (x : Slot) (off i : Nat) (l : List Byte) (h : i < l.length) :
    (x.runIn off l).getD i 0 = slotByteIn (x.byte (off + i)) (off + i) (l.getD i 0) := by
  induction l generalizing off i with
  | nil => simp at h
  | cons b t ih =>
    cases i with
    | zero => rfl
    | succ i =>
      have hi : i < t.length := by simpa using h
      simpa [Slot.runIn, Nat.add_assoc, Nat.add_comm 1 i] using ih (off + 1) i hi

/-- A byte of a slot after the host has written a run within it. -/
theorem Slot.byte_putRun_runIn (x : Slot) (off : Nat) (l : List Byte) (h : off + l.length ≤ 512) (i : Nat) :
    (x.putRun off (x.runIn off l)).byte i =
      if off ≤ i ∧ i < off + l.length then slotByteIn (x.byte i) i (l.getD (i - off) 0) else x.byte i := by
  rw [Slot.byte_putRun, Slot.runIn_length]
  by_cases hi : off ≤ i ∧ i < off + l.length
  · obtain ⟨hlo, hhi⟩ := hi
    rw [if_pos ⟨hlo, hhi, by omega⟩, if_pos ⟨hlo, hhi⟩, Slot.runIn_getD x off (i - off) l (by omega), Nat.add_sub_cancel' hlo]
  · rw [if_neg (fun hc => hi ⟨hc.1, hc.2.1⟩), if_neg hi]

/-! ## POST and RELEASE of a single slot -/

theorem exec_post {s : State} {f : FnId} (hf : s.fnPresent f = true) (bits : BitVec 8) :
    exec (.post f bits) s = .next (s.postWrite f bits) := by
  change execPost f bits s = _
  simp [execPost, hf]

theorem exec_release {s : State} {f : FnId} (hf : s.fnPresent f = true) (bits : BitVec 8) :
    exec (.release f bits) s = .next (s.releaseBits f bits) := by
  change execRelease f bits s = _
  simp [execRelease, hf]

/-- The doorbell mask of one slot has that slot's bit alone. -/
theorem getLsbD_slotMask (k : SlotId) (j : Nat) : (BitVec.ofNat 8 (2 ^ k.val)).getLsbD j = decide (j = k.val) := by
  rw [BitVec.getLsbD_ofNat, Nat.testBit_two_pow]
  have hk := k.isLt
  by_cases hj : j = k.val
  · simp [hj, hk]
  · simp [hj, Ne.symm hj]

/-- A fold over the numbers below `n` that acts at one of them alone acts once. -/
theorem foldl_range_at {σ : Type} (g : σ → Nat → σ) (k n : Nat) (s : σ) :
    (List.range n).foldl (fun t j => if j = k then g t j else t) s = if k < n then g s k else s := by
  induction n with
  | zero => rfl
  | succ n ih =>
    rw [List.range_succ, List.foldl_append, ih]
    simp only [List.foldl_cons, List.foldl_nil]
    rcases Nat.lt_trichotomy k n with h | h | h
    · rw [if_neg (by omega), if_pos h, if_pos (by omega)]
    · subst h; simp
    · rw [if_neg (by omega), if_neg (by omega), if_neg (by omega)]

theorem State.postBits_slotMask (s : State) (f : Nat) (k : SlotId) :
    s.postBits f (BitVec.ofNat 8 (2 ^ k.val)) = s.postSlot f k := by
  simp only [State.postBits, getLsbD_slotMask, decide_eq_true_eq]
  rw [foldl_range_at (fun t j => State.postSlot t f j), if_pos k.isLt]

theorem State.releaseBits_slotMask (s : State) (f : Nat) (k : SlotId) :
    s.releaseBits f (BitVec.ofNat 8 (2 ^ k.val)) = s.releaseSlot f k := by
  simp only [State.releaseBits, getLsbD_slotMask, decide_eq_true_eq]
  rw [foldl_range_at (fun t j => State.releaseSlot t f j), if_pos k.isLt]

theorem State.postsSome_slotMask (s : State) (f : Nat) (k : SlotId) :
    s.postsSome f (BitVec.ofNat 8 (2 ^ k.val)) = (((s.fn f).slot k).state == .free) := by
  simp only [State.postsSome, getLsbD_slotMask]
  rw [Bool.eq_iff_iff]
  simp

/-- A POST bit for a slot that is not FREE raises no doorbell and is counted (R18, R323). -/
theorem State.postWrite_slotMask_of_not_free {s : State} {f : Nat} {k : SlotId} (h : ((s.fn f).slot k).state ≠ .free) :
    s.postWrite f (BitVec.ofNat 8 (2 ^ k.val)) = s.violate f := by
  have hsome : s.postsSome f (BitVec.ofNat 8 (2 ^ k.val)) = false := by
    rw [State.postsSome_slotMask]
    simpa using h
  rw [State.postWrite, hsome, if_neg Bool.false_ne_true, State.postBits_slotMask, State.postSlot, if_pos h]

theorem State.releaseSlot_of_not_done {s : State} {f k : Nat} (h : ((s.fn f).slot k).state ≠ .done) :
    s.releaseSlot f k = s.violate f := by
  simp [State.releaseSlot, h]

theorem State.violate_viol (s : State) (f : Nat) :
    Tab.get 0 (s.violate f).gysis.ledger.viol f = satInc (Tab.get 0 s.gysis.ledger.viol f) :=
  Tab.get_set_same ..

/-- Settles O7: a run written to a FREE slot stores what `slotByteIn` makes of each byte; every other access counts. -/
theorem slotWriteStoresBytes : Obligations.SlotWriteStoresBytes := by
  refine ⟨fun s f k off data hf hfree hlen => ?_, fun s f k off data hf hbusy => ⟨?_, ?_⟩, fun s f k hf hopen => ?_, State.violate_viol⟩
  · refine ⟨_, by rw [exec_slotByteWrite hf, State.writeSlot_of_free hfree], by simpa using hfree, fun i => ?_⟩
    simp [Slot.byte_putRun_runIn _ _ _ hlen, slotByteIn]
  · rw [exec_slotByteWrite hf, State.writeSlot_of_not_free hbusy]
  · rw [exec_post hf, State.postWrite_slotMask_of_not_free hbusy]
  · rw [exec_release hf, State.releaseBits_slotMask, State.releaseSlot_of_not_done hopen]

/-! ## Reads of registers -/

theorem exec_lowHalfRead {s : State} {f : FnId} (hf : s.fnPresent f = true) (off width : Nat) :
    exec (.lowHalfRead f ⟨off, width⟩) s =
      .next ((s.readBar0 f off width).1.emit (.readDone f off (BitVec.ofNat 64 (s.readBar0 f off width).2))) := by
  change execLowHalfRead f ⟨off, width⟩ s = _
  simp [execLowHalfRead, hf]

/-- An aligned 32-bit read outside the mailbox slots (R529). -/
theorem State.readBar0_word (s : State) (f : Nat) {off : Nat} (hal : off % 4 = 0) (hslot : off < 0x1000 ∨ 0x2000 ≤ off) :
    s.readBar0 f off 4 = s.read32 f off := by
  have hout : ¬(0x1000 ≤ off ∧ off < 0x2000) := by omega
  simp [State.readBar0, hout, hal]

/-- An aligned 64-bit read of a 64-bit register (R17, R18). -/
theorem State.readBar0_reg64 {s : State} {f off : Nat} {g : RegAt} (hal : off % 8 = 0) (hslot : off < 0x1000 ∨ 0x2000 ≤ off)
    (hreg : s.regAt f off = some g) (h8 : g.bytes = 8) :
    s.readBar0 f off 8 = if regRight f g.who then (s, g.value) else (s.violate f, 0) := by
  have hout : ¬(0x1000 ≤ off ∧ off < 0x2000) := by omega
  simp [State.readBar0, hout, hal, hreg, h8]

/-- A 32-bit offset outside the mailbox slots, the MSI-X table and its pending bits. -/
theorem not_windows {off : Nat} (hslot : off < 0x1000 ∨ 0x2000 ≤ off) (hmsix : off < 0x3800 ∨ 0x3A04 ≤ off) :
    ¬(0x1000 ≤ off ∧ off < 0x2000) ∧ ¬(0x3800 ≤ off ∧ off < 0x3A00) ∧ off ≠ 0x3A00 := by omega

section Word
variable {s : State} {f off : Nat} {g : RegAt} (hslot : off < 0x1000 ∨ 0x2000 ≤ off) (hmsix : off < 0x3800 ∨ 0x3A04 ≤ off)
  (hreg : s.regAt f off = some g)
include hslot hmsix hreg

theorem State.read32_of_no_right (hr : regRight f g.who = false) : s.read32 f off = (s.violate f, 0) := by
  simp [State.read32, not_windows hslot hmsix, hreg, hr]

variable (hr : regRight f g.who = true) (h8 : g.bytes = 8)
include hr h8

theorem State.read32_low (hlow : off = g.base) :
    s.read32 f off = (s.setFn f { s.fn f with latch := Tab.set none (s.fn f).latch g.base (some (BitVec.ofNat 32 (g.value / 2 ^ 32))) },
      g.value % 2 ^ 32) := by
  subst hlow
  simp [State.read32, not_windows hslot hmsix, hreg, hr, h8]

theorem State.read32_high_latched (hhigh : off ≠ g.base) {h : Word} (hlatch : Tab.get none (s.fn f).latch g.base = some h) :
    s.read32 f off = (s.setFn f { s.fn f with latch := Tab.set none (s.fn f).latch g.base none }, h.toNat) := by
  simp [State.read32, not_windows hslot hmsix, hreg, hr, h8, hhigh, hlatch]

theorem State.read32_high_live (hhigh : off ≠ g.base) (hlatch : Tab.get none (s.fn f).latch g.base = none) :
    s.read32 f off = (s, g.value / 2 ^ 32) := by
  simp [State.read32, not_windows hslot hmsix, hreg, hr, h8, hhigh, hlatch]

end Word

/-- Settles O13: the three cases of a half, then a register outside the rights, then the whole register. -/
theorem lowHalfReadLatchesTheHighHalf : Obligations.LowHalfReadLatchesTheHighHalf := by
  refine ⟨fun s f off g hf hal hslot hmsix hreg hr h8 => ?_, fun s f off g hf hal hslot hmsix hreg hr => ?_,
    fun s f off g hf hal hslot hreg h8 => ⟨fun hr => ?_, fun hr => ?_⟩⟩
  · rw [exec_lowHalfRead hf, State.readBar0_word s f hal hslot]
    refine ⟨fun hlow => ?_, fun h hhigh hlatch => ?_, fun hhigh hlatch => ?_⟩
    · rw [State.read32_low hslot hmsix hreg hr h8 hlow]
    · rw [State.read32_high_latched hslot hmsix hreg hr h8 hhigh hlatch]
    · rw [State.read32_high_live hslot hmsix hreg hr h8 hhigh hlatch]
  · rw [exec_lowHalfRead hf, State.readBar0_word s f hal hslot, State.read32_of_no_right hslot hmsix hreg hr]
    rfl
  · rw [exec_lowHalfRead hf, State.readBar0_reg64 hal hslot hreg h8, if_pos hr]
  · rw [exec_lowHalfRead hf, State.readBar0_reg64 hal hslot hreg h8, hr]
    rfl

/-! ## Writes of registers -/

/-- An aligned 32-bit write outside the mailbox slots (R529). -/
theorem exec_registerWrite_word {s : State} {f : FnId} {off : Nat} (hf : s.fnPresent f = true) (hal : off % 4 = 0)
    (hslot : off < 0x1000 ∨ 0x2000 ≤ off) (v : BitVec 64) :
    exec (.registerWrite f off 4 v) s = .next (s.write32 f off (v.toNat % 2 ^ 32)) := by
  have hout : ¬(0x1000 ≤ off ∧ off < 0x2000) := by omega
  change execRegisterWrite f off 4 v s = _
  simp [execRegisterWrite, hf, State.writeBar0, hout, hal]

theorem State.fnPresent_zero (s : State) : s.fnPresent 0 = true := rfl

theorem State.regAt_policy (s : State) (f : Nat) :
    s.regAt f 0x68 = some { base := 0x68, bytes := 4, who := 1, value := s.boot.bar2Mode.toNat + (if s.boot.locked then 2 ^ 31 else 0) } :=
  rfl

theorem State.regAt_aperture (s : State) (f : Nat) (a : Fin 4) :
    s.regAt f (0x80 + 4 * a.val) =
      some { base := 0x80 + 4 * a.val, bytes := 4, who := 2, value := (Tab.get {} (s.fn f).apertures a.val).word } := by
  fin_cases a <;> rfl

theorem State.write32_intStatus (s : State) (f v : Nat) :
    s.write32 f 0x3000 v = s.setFn f { s.fn f with intStatus := (s.fn f).intStatus &&& ~~~(BitVec.ofNat 3 v) } := rfl

theorem State.write32_intCtrl (s : State) (f v : Nat) :
    s.write32 f 0x3008 v = s.setFn f { s.fn f with eventVector := BitVec.ofNat 5 v, holdoff := BitVec.ofNat 16 (v / 2 ^ 16) } := rfl

/-- HIF_HOST_POLICY is PF0's (R532). -/
theorem State.write32_policy (s : State) (f v : Nat) :
    s.write32 f 0x68 v = if f = 0 then s.writePolicy v else s.violate f := by
  by_cases hf : f = 0
  · simp [State.write32, State.regAt_policy, regRight, hf]
  · simp [State.write32, State.regAt_policy, regRight, hf]

/-- The apertures are a VF's (R539). -/
theorem State.write32_aperture (s : State) (f v : Nat) (a : Fin 4) :
    s.write32 f (0x80 + 4 * a.val) v = if f = 0 then s.violate f else
      s.setFn f { s.fn f with apertures := Tab.set {} (s.fn f).apertures a ((Tab.get {} (s.fn f).apertures a).write v) } := by
  have ha := a.isLt
  have hreg := s.regAt_aperture f a
  have hidx : (0x80 + 4 * a.val - 0x80) / 4 = a.val := by omega
  generalize hoff : 0x80 + 4 * a.val = off at hreg hidx ⊢
  have hlo : 0x80 ≤ off := by omega
  have hhi : off < 0x90 := by omega
  have hmsix : ¬ 0x3800 ≤ off := by omega
  have hne : off ≠ 0x2000 ∧ off ≠ 0x2008 ∧ off ≠ 0x2010 ∧ off ≠ 0x3000 ∧ off ≠ 0x3004 ∧ off ≠ 0x3008 ∧ off ≠ 0x68 := by omega
  by_cases hf : f = 0
  · subst hf
    simp [State.write32, hne, hmsix, hreg, regRight]
  · simp [State.write32, hne, hmsix, hreg, regRight, hf, hlo, hhi, hidx]

theorem Aperture.write_of_base_le (a : Aperture) {v : Nat} (h : bitsOf v 15 8 ≤ 188) :
    a.write v = { room := BitVec.ofNat 4 v, base := BitVec.ofNat 8 (bitsOf v 15 8), enable := bitOf v 31 } := by
  simp [Aperture.write, h]

theorem Aperture.write_of_base_gt (a : Aperture) {v : Nat} (h : 188 < bitsOf v 15 8) :
    a.write v = { room := BitVec.ofNat 4 v, base := a.base, enable := bitOf v 31 } := by
  simp [Aperture.write, Nat.not_le.mpr h]

theorem State.writePolicy_undefined (s : State) {v : Nat} (h : v % 4 = 3) : s.writePolicy v = s := by
  simp [State.writePolicy, h]

theorem State.writePolicy_locked {s : State} (h : s.boot.locked = true) (v : Nat) : s.writePolicy v = s := by
  simp [State.writePolicy, h]

theorem State.writePolicy_unlocked {s : State} {v : Nat} (h : s.boot.locked = false) (hv : v % 4 ≠ 3) :
    s.writePolicy v = { s with boot := { s.boot with bar2Mode := BitVec.ofNat 2 v } } := by
  simp [State.writePolicy, h, hv]

theorem exec_registerWrite_policy {s : State} {f : FnId} (hf : s.fnPresent f = true) (v : BitVec 64) :
    exec (.registerWrite f 0x68 4 v) s = .next (if f = 0 then s.writePolicy (v.toNat % 2 ^ 32) else s.violate f) := by
  rw [exec_registerWrite_word hf (by decide) (by decide), State.write32_policy]
  simp only [Fin.val_eq_zero_iff]

theorem exec_registerWrite_aperture {s : State} {f : FnId} (hf : s.fnPresent f = true) (a : Fin 4) (v : BitVec 64) :
    exec (.registerWrite f (0x80 + 4 * a.val) 4 v) s = .next (if f = 0 then s.violate f else
      s.setFn f { s.fn f with
        apertures := Tab.set {} (s.fn f).apertures a ((Tab.get {} (s.fn f).apertures a).write (v.toNat % 2 ^ 32)) }) := by
  rw [exec_registerWrite_word hf (by omega) (by omega), State.write32_aperture]
  simp only [Fin.val_eq_zero_iff]

/-- Settles O11: `Aperture.write` keeps a BASE above 188, `State.writePolicy` keeps the mode at encoding 3. -/
theorem undefinedEncodingsKeepTheField : Obligations.UndefinedEncodingsKeepTheField := by
  refine ⟨fun s f a v hf0 hf hbase hv => ?_, fun s v hv h3 => ?_⟩
  · rw [exec_registerWrite_aperture hf, if_neg hf0, Nat.mod_eq_of_lt hv, Aperture.write_of_base_gt _ hbase]
  · rw [exec_registerWrite_policy s.fnPresent_zero, if_pos rfl, Nat.mod_eq_of_lt hv, State.writePolicy_undefined s h3]

/-- Settles O12: each register's own write, and the rights of PF0 and of a VF. -/
theorem registerWritesTakeEffect : Obligations.RegisterWritesTakeEffect := by
  refine ⟨fun s f v hf hv => ⟨?_, ?_⟩, fun s f a v hf0 hf hbase hv => ?_, fun s v hv h3 hlock => ?_, fun s v hv hlock => ?_,
    fun s f v hf0 hf => ?_, fun s a v => ?_⟩
  · rw [exec_registerWrite_word hf (by decide) (by decide), Nat.mod_eq_of_lt hv, State.write32_intStatus]
  · rw [exec_registerWrite_word hf (by decide) (by decide), Nat.mod_eq_of_lt hv, State.write32_intCtrl]
  · rw [exec_registerWrite_aperture hf, if_neg hf0, Nat.mod_eq_of_lt hv, Aperture.write_of_base_le _ hbase]
  · rw [exec_registerWrite_policy s.fnPresent_zero, if_pos rfl, Nat.mod_eq_of_lt hv, State.writePolicy_unlocked hlock h3]
  · rw [exec_registerWrite_policy s.fnPresent_zero, if_pos rfl, State.writePolicy_locked hlock]
  · rw [exec_registerWrite_policy hf, if_neg hf0]
  · rw [exec_registerWrite_aperture s.fnPresent_zero, if_pos rfl]
    rfl

end Sys2Proof.Machine
end

section
/-! PROOFS. The products on the lanes (R43, R44, R177 to R180): what an operation of one room leaves unchanged beyond its own attic, the words that a matrix
product writes, and the statement about them. -/

namespace Sys2Proof.Machine

/-! ## What an operation of one room leaves unchanged -/

/-- From `s` to `t` nothing changed beyond the room `r` and its attic: the stacks' bytes, the other rooms, the partitions and the functions are as before. -/
structure State.SameOutside (s t : State) (r : Nat) : Prop where
  cellar : t.mem.cellar = s.mem.cellar
  rooms : ∀ q, q ≠ r → t.room q = s.room q
  parts : t.parts = s.parts
  fns : t.fns = s.fns

theorem State.SameOutside.refl (s : State) (r : Nat) : s.SameOutside s r := ⟨rfl, fun _ _ => rfl, rfl, rfl⟩

theorem State.SameOutside.trans {s t u : State} {r : Nat} (h : s.SameOutside t r) (h' : t.SameOutside u r) : s.SameOutside u r :=
  ⟨h'.cellar.trans h.cellar, fun q hq => (h'.rooms q hq).trans (h.rooms q hq), h'.parts.trans h.parts, h'.fns.trans h.fns⟩

theorem State.sameOutside_setRoom (s : State) (r : Nat) (x : Room) : s.SameOutside (s.setRoom r x) r :=
  ⟨rfl, fun q hq => by rw [State.room_setRoom, if_neg hq], rfl, rfl⟩

theorem State.sameOutside_writeAttic (s : State) (r off : Nat) (data : List Byte) : s.SameOutside (s.writeAttic r off data) r :=
  ⟨rfl, fun _ _ => rfl, rfl, rfl⟩

theorem State.sameOutside_countRead {s : State} {x : Span} (h : x.cellar = false) : s.SameOutside (s.countRead x) x.room := by
  simp only [State.countRead, h]
  exact s.sameOutside_setRoom _ _

theorem State.countRead_mem {s : State} {x : Span} (h : x.cellar = false) : (s.countRead x).mem = s.mem := by
  simp only [State.countRead, h]
  rfl

/-- Reads of a room's own attic change counters of the room alone. -/
theorem State.foldl_countRead {r : Nat} {l : List Span} (h : ∀ e, e ∈ l → e.cellar = false ∧ e.room = r) (s : State) :
    s.SameOutside (l.foldl State.countRead s) r ∧ (l.foldl State.countRead s).mem = s.mem := by
  induction l generalizing s with
  | nil => exact ⟨.refl s r, rfl⟩
  | cons e t ih =>
    obtain ⟨⟨hcellar, rfl⟩, ht⟩ := List.forall_mem_cons.mp h
    obtain ⟨hout, hmem⟩ := ih ht (s.countRead e)
    exact ⟨(State.sameOutside_countRead hcellar).trans hout, hmem.trans (State.countRead_mem hcellar)⟩

/-- The digest sums stand in the room's own block. -/
theorem State.digest_cases (s : State) (p room space rel off : Nat) (data : List Byte) :
    s.digest p room space rel off data = s ∨ ∃ x, s.digest p room space rel off data = s.setRoom room x := by
  unfold State.digest
  split
  · split
    · exact .inr ⟨_, rfl⟩
    · exact .inl rfl
  · exact .inl rfl

theorem State.sameOutside_digest (s : State) (p room space rel off : Nat) (data : List Byte) :
    s.SameOutside (s.digest p room space rel off data) room := by
  obtain h | ⟨x, h⟩ := s.digest_cases p room space rel off data
  · rw [h]
    exact .refl s room
  · rw [h]
    exact s.sameOutside_setRoom room x

@[simp] theorem State.digest_mem (s : State) (p room space rel off : Nat) (data : List Byte) :
    (s.digest p room space rel off data).mem = s.mem := by
  obtain h | ⟨x, h⟩ := s.digest_cases p room space rel off data
  · rw [h]
  · rw [h, State.setRoom_mem]

/-- A write to a room's own attic is the write of its bytes, its count and, in a room with an owner, its digest. -/
theorem State.putAttic_cases (s : State) (room off : Nat) (data : List Byte) :
    s.putAttic room off data = (s.writeAttic room off data).countAtticWr room off data.length ∨
      ∃ p rel, s.putAttic room off data = ((s.writeAttic room off data).countAtticWr room off data.length).digest p room 0 rel off data := by
  unfold State.putAttic
  split
  next p _ => exact .inr ⟨p, (s.part p).relOf room, rfl⟩
  next => exact .inl rfl

theorem State.sameOutside_putAttic (s : State) (room off : Nat) (data : List Byte) : s.SameOutside (s.putAttic room off data) room := by
  have hw : s.SameOutside ((s.writeAttic room off data).countAtticWr room off data.length) room :=
    (s.sameOutside_writeAttic room off data).trans (State.sameOutside_setRoom _ _ _)
  obtain h | ⟨p, rel, h⟩ := s.putAttic_cases room off data
  · rwa [h]
  · rw [h]
    exact hw.trans (State.sameOutside_digest _ _ _ _ _ _ _)

theorem State.putAttic_attic (s : State) (room off : Nat) (data : List Byte) :
    (s.putAttic room off data).mem.attic = Mem.write s.mem.attic (atticKey room off) data := by
  obtain h | ⟨p, rel, h⟩ := s.putAttic_cases room off data
  · rw [h]
    rfl
  · rw [h, State.digest_mem]
    rfl

theorem State.sameOutside_laneTraffic (s : State) (room : Nat) (r : RoomResult) (quiet : Bool) : s.SameOutside (s.laneTraffic room r quiet) room :=
  (s.sameOutside_setRoom room _).trans ⟨rfl, fun _ _ => rfl, rfl, rfl⟩

@[simp] theorem State.laneTraffic_mem (s : State) (room : Nat) (r : RoomResult) (quiet : Bool) : (s.laneTraffic room r quiet).mem = s.mem := rfl

/-- An operation without base conversions leaves every PAU of its room in its own mode (R180). -/
theorem State.laneTraffic_wideShallow (s : State) (room : Nat) {r : RoomResult} (quiet : Bool) {w : Bool} (hconv : r.conv = []) (hafter : r.after = [])
    (hwide : r.wide = some w) : ((s.laneTraffic room r quiet).room room).wideShallow = if w then 15 else 0 := by
  simp [State.laneTraffic, hconv, hafter, hwide, Room.convDescs, Room.loadDescs]

theorem Room.countOp_wideShallow (x : Room) : x.countOp.wideShallow = x.wideShallow := by
  unfold Room.countOp
  split
  · split <;> rfl
  · rfl

theorem State.countOp_wideShallow (s : State) (room q : Nat) : ((s.countOp room q).room room).wideShallow = (s.room room).wideShallow := by
  simp [State.countOp, Room.takeTag, Room.countOp_wideShallow]

/-- Reads and writes inside their spaces, without an error: the guard lets the effect happen. -/
theorem State.vecGuard_of_clean {s : State} {room : Nat} {reads writes : List Span} (hr : ∀ e, e ∈ reads → e.outside = false ∧ s.spanBad e = false)
    (hw : ∀ e, e ∈ writes → e.outside = false) (effect : State → State) :
    s.vecGuard room reads writes effect = effect (reads.foldl State.countRead s) := by
  have hout : (reads ++ writes).any Span.outside = false := by
    simp only [List.any_append, Bool.or_eq_false_iff, List.any_eq_false, Bool.not_eq_true]
    exact ⟨fun e he => (hr e he).1, hw⟩
  have hbad : reads.find? s.spanBad = none := List.find?_eq_none.mpr fun e he => by simp [(hr e he).2]
  simp [State.vecGuard, hout, hbad]

/-! ## The accumulators of a matrix product -/

/-- An element of concatenated lists of one length. -/
theorem getElem?_flatMap_of_length {α β : Type} {f : α → List β} {n : Nat} (hf : ∀ x, (f x).length = n) (l : List α) (k : Nat) {i : Nat} (hi : i < n) :
    (l.flatMap f)[k * n + i]? = l[k]?.bind (fun x => (f x)[i]?) := by
  induction l generalizing k with
  | nil => simp
  | cons x t ih =>
    rw [List.flatMap_cons]
    cases k with
    | zero => rw [Nat.zero_mul, Nat.zero_add, List.getElem?_append_left (by rw [hf]; exact hi)]; rfl
    | succ k =>
      have hle : (f x).length ≤ (k + 1) * n + i := by rw [hf, Nat.succ_mul]; omega
      have hsub : (k + 1) * n + i - n = k * n + i := by rw [Nat.succ_mul]; omega
      rw [List.getElem?_append_right hle, hf, hsub, ih]
      rfl

theorem bytesOfWords_length (l : List Nat) : (bytesOfWords l).length = 4 * l.length := by
  simp [bytesOfWords, List.length_flatMap, leBytes_length, Nat.mul_comm]

/-- The bytes of a word of a list. -/
theorem bytesOfWords_getD {l : List Nat} {k v : Nat} (hk : l[k]? = some v) {i : Nat} (hi : i < 4) :
    (bytesOfWords l).getD (4 * k + i) 0 = (leBytes 4 v).getD i 0 := by
  rw [List.getD_eq_getElem?_getD, List.getD_eq_getElem?_getD, bytesOfWords, Nat.mul_comm 4 k,
    getElem?_flatMap_of_length (leBytes_length 4) l k hi, hk]
  rfl

/-- The words that a matrix product writes: row after row of each segment (R179). -/
def State.matWords (s : State) (room : Nat) (m : MatOp) : List Nat :=
  (List.range m.segs).flatMap (fun g => (List.range m.rows).map (fun row => s.rowDot room m row g))

theorem State.matWords_length (s : State) (room : Nat) (m : MatOp) : (s.matWords room m).length = m.segs * m.rows := by
  simp [State.matWords, List.length_flatMap]

theorem State.matWords_getElem? (s : State) (room : Nat) {m : MatOp} {g row : Nat} (hg : g < m.segs) (hrow : row < m.rows) :
    (s.matWords room m)[g * m.rows + row]? = some (s.rowDot room m row g) := by
  rw [State.matWords, getElem?_flatMap_of_length (fun x => by simp) _ g hrow]
  simp [hg, hrow]

/-- The spans that a matrix product reads: its matrix and its vector. -/
def MatOp.reads (m : MatOp) (room : Nat) : List Span :=
  [{ room := room, cellar := false, off := m.wOff, len := m.rows * m.words * (if m.bf16 then 2 else 4) },
   { room := room, cellar := false, off := m.xOff, len := m.words * (if m.bf16 then 2 else 4) }]

theorem exec_plaintextMatrixProduct {s : State} {r : RoomId} {m : MatOp} (hrun : s.roomRuns r = true) (hclear : (s.room r).queueClear 0 = true)
    (hten : m.tensor = none) (hsegs : 1 ≤ m.segs) (hdiv : m.words % m.segs = 0) :
    exec (.plaintextMatrixProduct r m) s = .next (s.matRun r m) := by
  change execPlaintextMatrixProduct r m s = _
  simp [execPlaintextMatrixProduct, hrun, hclear, hten, Nat.ne_of_gt hsegs, hdiv]

/-- A matrix product of clean spans reads, writes its words, works its lanes in its mode, and counts as an operation. -/
theorem State.matRun_of_clean {s : State} {r : Nat} {m : MatOp} (hten : m.tensor = none)
    (hr : ∀ e, e ∈ m.reads r → e.outside = false ∧ s.spanBad e = false) (hw : m.yOff + 4 * m.rows * m.segs ≤ atticBytes) :
    ∃ w quiet, (w.conv = [] ∧ w.after = [] ∧ w.wide = some m.wide) ∧
      s.matRun r m = ((((m.reads r).foldl State.countRead s).putAttic r m.yOff (bytesOfWords (s.matWords r m))).laneTraffic r w quiet).countOp r 2 := by
  have hwrites : ∀ e, e ∈ [({ room := r, cellar := false, off := m.yOff, len := 4 * m.rows * m.segs } : Span)] → e.outside = false := fun e he => by
    rw [List.mem_singleton.mp he]
    simpa [Span.outside] using hw
  refine ⟨{ RoomResult.ofStop (.go Label.zero) [] with gate := some (s.matGated r m), tensor := true, wide := some m.wide },
    (s.room r).conflictFree [{ room := r, cellar := false, off := m.wOff, len := 128 }], ⟨rfl, rfl, rfl⟩, ?_⟩
  unfold State.matRun
  rw [hten]
  exact congrArg (fun t : State => t.countOp r 2) (State.vecGuard_of_clean hr hwrites _)

/-- An int8 step adds the four products of the words' bytes (R43). -/
theorem mac8_unsigned (acc w x : Nat) :
    mac8 false false acc w x = (acc + (w % 256) * (x % 256) + (w / 2 ^ 8 % 256) * (x / 2 ^ 8 % 256) +
      (w / 2 ^ 16 % 256) * (x / 2 ^ 16 % 256) + (w / 2 ^ 24 % 256) * (x / 2 ^ 24 % 256)) % 2 ^ 32 := by
  simp only [mac8, word32, List.range, List.range.loop, List.map, List.sum_cons, List.sum_nil, Bool.false_eq_true, if_false]
  norm_cast
  simp only [Nat.mul_zero, Nat.pow_zero, Nat.div_one, Nat.mul_one, Nat.add_zero, Nat.add_assoc]

/-- Settles O44: the write of the product's words into the room's attic, within what an operation of one room leaves unchanged. -/
theorem matrixProductsAccumulate : Obligations.MatrixProductsAccumulate := by
  refine ⟨fun s r m hrun hclear hten hsegs hdiv hr hw => ?_, mac8_unsigned⟩
  obtain ⟨w, quiet, ⟨hconv, hafter, hwide⟩, hmat⟩ := State.matRun_of_clean hten hr hw
  obtain ⟨hread, hmem⟩ := State.foldl_countRead (r := r) (l := m.reads r) (by simp [MatOp.reads]) s
  have hattic : (s.matRun r m).mem.attic = Mem.write s.mem.attic (atticKey r m.yOff) (bytesOfWords (s.matWords r m)) := by
    rw [hmat, State.countOp, State.setRoom_mem, State.laneTraffic_mem, State.putAttic_attic, hmem]
  have hlen : (bytesOfWords (s.matWords r m)).length = 4 * m.rows * m.segs := by
    rw [bytesOfWords_length, State.matWords_length, Nat.mul_assoc, Nat.mul_comm m.segs]
  have hout : s.SameOutside (s.matRun r m) r := by
    rw [hmat]
    exact ((hread.trans (State.sameOutside_putAttic _ _ _ _)).trans (State.sameOutside_laneTraffic _ _ _ _)).trans (State.sameOutside_setRoom _ _ _)
  refine ⟨s.matRun r m, exec_plaintextMatrixProduct hrun hclear hten hsegs hdiv, ?_, fun g row i hg hrow hi => ?_, fun a ha => ?_,
    hout.cellar, hout.rooms, hout.parts, hout.fns⟩
  · rw [hmat, State.countOp_wideShallow, State.laneTraffic_wideShallow _ _ _ hconv hafter hwide]
  · have hword := s.matWords_getElem? r hg hrow
    obtain ⟨hlt, -⟩ := List.getElem?_eq_some_iff.mp hword
    have hoff : atticKey r (m.yOff + 4 * (g * m.rows + row) + i) - atticKey r m.yOff = 4 * (g * m.rows + row) + i := by
      simp only [atticKey]; omega
    rw [hattic, Mem.byte_write, if_pos (by rw [bytesOfWords_length]; simp only [atticKey]; omega), hoff, bytesOfWords_getD hword hi]
  · rw [hattic, Mem.byte_write, hlen, if_neg]
    rintro ⟨hlo, hhi⟩
    refine ha (a - atticKey r m.yOff) (by omega) ?_
    simp only [atticKey] at hlo hhi ⊢
    omega

end Sys2Proof.Machine
end

section
/-! PROOFS. Conversions, checks and copies of whole objects (R31, R53, R69, R70, R79, R87, R268): what each sequencer decides on a sound operand, and the statement
about them. -/

namespace Sys2Proof.Machine

/-! ## Sound operands -/

/-- A single sound operand: its label as the room reads it, that it is not poisoned, and its key set. -/
theorem State.Sound.single {s : State} {p room : Nat} {o : Place} {u : Label} {k : KeySet} (h : s.Sound p room [o] [u] k) :
    s.labelAt (s.part p) room o = { lab := u, one := true, ok := true } ∧ u.poison = false ∧ (s.part p).ksOf u = some k :=
  ⟨List.head_eq_of_cons_eq h.labels, (h.clean u List.mem_cons_self).1, h.keyset⟩

/-- A single operand that is valid and not poisoned gives no cause (R77). -/
theorem inputCause_of_clean {u : Label} (h : u.poison = false) : inputCause [{ lab := u, one := true, ok := true }] = none := by
  simp [inputCause, LabelIn.poisoned, h]

/-- The key set that an object names and that covers it is the registered one. -/
theorem Part.keyset_of_ksOf {x : Part} {u : Label} {k : KeySet} (h : x.ksOf u = some k) : x.keyset u.keyset = some k := by
  unfold Part.ksOf at h
  split at h
  next k' hk =>
    obtain ⟨-, hkk⟩ := Option.ite_none_right_eq_some.mp h
    exact hk.trans hkk
  next => cases h

theorem Part.wrongT_iff {x : Part} {u : Label} {k : KeySet} (h : x.ksOf u = some k) : x.wrongT u = true ↔ u.form = 1 ∧ u.t ≠ k.t := by
  simp [Part.wrongT, Part.keyset_of_ksOf h]

theorem Part.wrongT_eq_false_iff {x : Part} {u : Label} {k : KeySet} (h : x.ksOf u = some k) : x.wrongT u = false ↔ (u.form = 1 → u.t = k.t) := by
  rw [Bool.eq_false_iff, Ne, Part.wrongT_iff h, not_and, not_not]

/-- A clean operand of a form that the operation takes goes to the operation's rule under its key set. -/
theorem dispatchOn_of_clean {x : Part} {u : Label} {k : KeySet} {base : Label} {forms : List Nat} {rule : KeySet → List Label → Decision}
    {early : Option KeySet → List Label → Option Nat} (hks : x.ksOf u = some k) (hpoison : u.poison = false) (hform : u.form ∈ forms)
    (hearly : early (some k) [u] = none) :
    dispatchOn x [{ lab := u, one := true, ok := true }] base forms rule early = rule k [u] := by
  simp [dispatchOn, inputCause_of_clean hpoison, Part.keyset_of_ksOf hks, hform, hearly, hks]

@[simp] theorem Label.sized_poison (l : Label) (n : Nat) : (l.sized n).poison = l.poison := by
  unfold Label.sized
  split <;> rfl

/-- BODY_BYTES takes no part in the budget tests (R73). -/
theorem budgetCause_sized (k : KeySet) (l : Label) (n : Nat) : budgetCause k (l.sized n) = budgetCause k l := by
  unfold Label.sized
  split <;> rfl

/-- A valid object of form 0 or 1 that is not poisoned has a limb (R65). -/
theorem State.limbs_pos_of_labelAt {s : State} {x : Part} {room : Nat} {o : Place} {u : Label}
    (h : s.labelAt x room o = { lab := u, one := true, ok := true }) (hpoison : u.poison = false) (hform : u.form ≤ 1) : 1 ≤ u.limbs := by
  simp only [State.labelAt, labelIn, LabelIn.mk.injEq] at h
  obtain ⟨hlab, hone, hok⟩ := h
  have htwo : stageTwo (s.spanBytes (o.labelSpan room)) x.rooms.length = true := by simpa [hone, hlab, hpoison] using hok
  simp only [stageTwo, hlab, hform, if_true, Bool.and_eq_true, decide_eq_true_eq] at htwo
  omega

/-! ## IMPORT and EXPORT -/

/-- IMPORT and EXPORT of a sound object in coefficient representation within its budget run, and keep the label but for BODY_BYTES (R70, R561). -/
theorem importDecision_of_sound {x : Part} {u : Label} {k : KeySet} (hks : x.ksOf u = some k) (hpoison : u.poison = false) (hform : u.form ≤ 1)
    (hcheck : checkCause (some k) [u] = none) (hrepr : u.repr = false) (ht : u.form = 1 → u.t = k.t) (hbudget : budgetCause k u = none) :
    importDecision x { lab := u, one := true, ok := true } = .go (u.sized x.rooms.length) := by
  have hwrong : ¬(u.form = 1 ∧ u.t ≠ k.t) := fun h => h.2 (ht h.1)
  have hne : u.form ≠ 3 := by omega
  have hrule : convertRule k (u.sized x.rooms.length) u = .go (u.sized x.rooms.length) := by
    simp [convertRule, hrepr, Decision.budget, budgetCause_sized, hbudget, hwrong]
  have hforms : u.form ∈ [0, 1, 2] := by simp; omega
  simpa [importDecision, LabelIn.source, hne, dispatchOn_of_clean hks hpoison hforms hcheck] using hrule

theorem Label.poisonWith_of_clean {l : Label} (h : l.poison = false) (c : Nat) : l.poisonWith c = { l with poison := true, cause := c } := by
  simp [Label.poisonWith, h]

/-! ## Relabel and changes of layout -/

@[simp] theorem Label.resized_limbs (l : Label) (n : Nat) : (l.resized n).limbs = l.limbs := rfl
@[simp] theorem Label.resized_level (l : Label) (n : Nat) : (l.resized n).level = l.level := rfl
@[simp] theorem Label.resized_check (l : Label) (n : Nat) : (l.resized n).check = l.check := rfl

/-- The runs of an object of form 0 or 1 copied into another arrangement are the limbs of the pairs that the room holds. -/
theorem State.mem_copyRuns {s : State} {x : Part} {src res : Label} {a : Place} {room : Nat} {pairs : List Nat} (hform : res.form ≤ 1) (e : Nat × List Nat) :
    e ∈ (s.copyRuns x src res a room pairs).1 ↔ ∃ j q, j ∈ pairs ∧ q < res.polys ∧ ownsPair x res room j = true ∧
      e = (res.limbOff x.rooms.length j q, s.limb x src a (sourcePair src res j) q) := by
  simp only [State.copyRuns, hform, if_true, List.mem_map, List.mem_flatMap, List.mem_filter, List.mem_range]
  constructor
  · rintro ⟨_, ⟨j, ⟨hj, hown⟩, q, hq, rfl⟩, rfl⟩
    exact ⟨j, q, hj, hq, hown, rfl⟩
  · rintro ⟨j, q, hj, hq, hown, rfl⟩
    exact ⟨(j, q), ⟨j, ⟨hj, hown⟩, q, hq, rfl⟩, rfl⟩

/-- What a copy into another arrangement does in a room whose operand is clean: of a form that it takes, the label of its rule with the copied runs; of another,
FORM_MISMATCH (R76, R268). -/
theorem State.layoutOp_of_clean (s : State) (p : Nat) (dst a : Place) (forms : List Nat) (rule : Label → Label) (pairs : Label → List Nat) :
    ∃ f : Nat → RoomResult, s.layoutOp p dst a forms rule pairs = s.runOp p dst f 3 ∧
      ∀ room u, s.labelAt (s.part p) room a = { lab := u, one := true, ok := true } → u.poison = false → (s.part p).wrongT u = false →
        (u.form ∈ forms → (f room).lab = rule u ∧ (f room).fresh = false ∧ (f room).mism = none ∧ (f room).silent = false ∧
          (f room).runs = (s.copyRuns (s.part p) u (rule u) a room (pairs u)).1) ∧
        (u.form ∉ forms → (f room).runs = [] ∧ (f room).fresh = true ∧ (f room).lab = (rule u).ended cForm) := by
  refine ⟨_, rfl, fun room u hlab hpoison hwrong => ⟨fun hform => ?_, fun hform => ?_⟩⟩
  · simp [hlab, LabelIn.source, inputCause_of_clean hpoison, hwrong, hform]
  · simp [hlab, LabelIn.source, inputCause_of_clean hpoison, hform, RoomResult.ofStop, Decision.stop]

/-- The forms that a re-deal takes are those that permit the layout (R64). -/
theorem mem_layoutForms {form : Nat} (h : form ≤ 3) (layout : Nat) :
    form ∈ (List.range 4).filter (fun f => layoutFits f layout) ↔ layoutFits form layout = true := by
  have hlt : form < 4 := by omega
  simp [hlt]

/-- The label that a compacting copy gives an object (R70): LIMBS becomes LEVEL + 1. -/
def Label.compacted (l : Label) (rooms : Nat) : Label :=
  ({ l with limbs := if l.limbs = 0 then 0 else l.level + 1, poison := false, cause := 0 } : Label).resized rooms

theorem Label.compacted_of_clean {l : Label} (hpoison : l.poison = false) (hlimbs : l.limbs ≠ 0) (rooms : Nat) :
    l.compacted rooms = ({ l with limbs := l.level + 1, cause := 0 } : Label).resized rooms := by
  simp only [Label.compacted, if_neg hlimbs, hpoison]

theorem exec_compact (s : State) (p : PartId) (dst a : Place) :
    exec (.compact p dst a) s = .next (s.layoutOp p dst a [0, 1] (fun l => l.compacted (s.part p).rooms.length)
      (fun l => List.range (l.level + 1) ++ (if l.check then [l.level + 1] else []))) := rfl

/-- The label that a re-deal gives an object (R268): the named layout, and HOME 0 where it has no home room. -/
def Label.reDealt (l : Label) (layout home rooms : Nat) : Label :=
  ({ l with layout := layout, home := if layout = 1 then home else 0, poison := false, cause := 0 } : Label).resized rooms

theorem Label.reDealt_of_clean {l : Label} (hpoison : l.poison = false) (layout home rooms : Nat) :
    l.reDealt layout home rooms = ({ l with layout := layout, home := if layout = 1 then home else 0, cause := 0 } : Label).resized rooms := by
  simp only [Label.reDealt, hpoison]

theorem exec_reDeal {s : State} {p : PartId} {home : Nat} (h : home < (s.part p).rooms.length) (dst a : Place) (layout : Fin 3) :
    exec (.reDeal p dst a layout home) s = .next (s.layoutOp p dst a ((List.range 4).filter (fun f => layoutFits f layout))
      (fun l => l.reDealt layout home (s.part p).rooms.length) (fun l => List.range l.limbs ++ (if l.check then [l.limbs] else []))) :=
  congrArg Host.Outcome.next (if_neg (Nat.not_le.mpr h))

/-! ## The statement -/

/-- Settles O38: each room's result with what the sequencer decides on a sound operand. -/
theorem conversionsAndCopies : Obligations.ConversionsAndCopies := by
  refine ⟨fun s p o => ?_, fun s p o => ?_, fun s p o copies hcopies => ?_, fun s p o noise => ?_, fun s p dst a => ?_,
    fun s p dst a layout home hhome => ?_⟩
  · -- IMPORT (R31)
    refine ⟨_, rfl, fun room u k h hcheck hform hrepr ht hbudget => ?_⟩
    obtain ⟨hlab, hpoison, hks⟩ := h.single
    simp only [hlab, importDecision_of_sound hks hpoison hform hcheck hrepr ht hbudget, hks]
    exact ⟨rfl, rfl, by rw [← Label.poisonWith_of_clean ((u.sized_poison _).trans hpoison)]; rfl⟩
  · -- EXPORT (R79)
    refine ⟨_, rfl, fun room u k h hcheck hform hrepr ht hbudget => ?_, fun room u k hlab hpoison hexp hks => ?_⟩
    · obtain ⟨hlab, hpoison, hks⟩ := h.single
      have hdec := importDecision_of_sound hks hpoison hform hcheck hrepr ht hbudget
      simp [hlab, LabelIn.poisoned, hdec, hks, hpoison, Decision.go, hform]
    · simp [hlab, LabelIn.poisoned, hpoison, hexp, hks]
  · -- CHECK (R87)
    refine ⟨_, rfl, fun room hagree => ?_, fun room k hagree hok hpoison hrepr hks hcheck ht => ?_, fun room k hagree hok hpoison hks hform ht => ?_⟩
    · simp [← hcopies, hagree, cBadLabel]
    · have hwrong := (Part.wrongT_eq_false_iff hks).mpr ht
      simp [-List.headD_eq_head?_getD, ← hcopies, hagree, hok, hpoison, hrepr, hks, Part.keyset_of_ksOf hks, hcheck, hwrong]
    · have hwrong := (Part.wrongT_iff hks).mpr ⟨hform, ht⟩
      simp [-List.headD_eq_head?_getD, ← hcopies, hagree, hok, hpoison, hwrong, RoomResult.ofStop, Decision.stop, Label.ended, cForm]
  · -- RELABEL (R69)
    refine ⟨_, rfl, fun room u hlab hpoison hwrong => ?_⟩
    simp [hlab, inputCause_of_clean hpoison, hwrong, RoomResult.ofStop, Decision.go]
  · -- COMPACT (R70)
    obtain ⟨f, hf, hroom⟩ := s.layoutOp_of_clean p dst a [0, 1] (fun l => l.compacted (s.part p).rooms.length)
      (fun l => List.range (l.level + 1) ++ (if l.check then [l.level + 1] else []))
    refine ⟨f, (exec_compact s p dst a).trans (congrArg _ hf), fun room u lab hlab hpoison hform hwrong hres => ?_⟩
    have hlimbs : u.limbs ≠ 0 := Nat.ne_of_gt (State.limbs_pos_of_labelAt hlab hpoison hform)
    obtain ⟨hrule, hfresh, hmism, hloud, hruns⟩ := (hroom room u hlab hpoison hwrong).1 (by simp; omega)
    rw [Label.compacted_of_clean hpoison hlimbs, ← hres] at hrule hruns
    refine ⟨hfresh, hmism, hrule, hloud, fun e => ?_⟩
    rw [hruns, State.mem_copyRuns (by rw [hres]; exact hform)]
    simp [hres, sourcePair, Label.inUse]
  · -- RE_DEAL (R268)
    obtain ⟨f, hf, hroom⟩ := s.layoutOp_of_clean p dst a ((List.range 4).filter (fun f => layoutFits f layout))
      (fun l => l.reDealt layout home (s.part p).rooms.length) (fun l => List.range l.limbs ++ (if l.check then [l.limbs] else []))
    refine ⟨f, (exec_reDeal hhome dst a layout).trans (congrArg _ hf), fun room u lab hlab hpoison hform hwrong hres => ?_⟩
    obtain ⟨htakes, hstops⟩ := hroom room u hlab hpoison hwrong
    rw [mem_layoutForms hform, Label.reDealt_of_clean hpoison, ← hres] at htakes hstops
    refine ⟨fun hfit => ?_, fun hfit => hstops (Bool.eq_false_iff.mp hfit)⟩
    obtain ⟨hrule, hfresh, hmism, -, hruns⟩ := htakes hfit
    exact ⟨hrule, hfresh, hmism, hruns⟩

end Sys2Proof.Machine
end

section
/-! PROOFS. Operations on limbs (R70 to R74, R85, R92, R93, R98, R105, R561, R562): what the sequencer decides on sound operands, the label and the words of each
rule, and the statements about them. -/

namespace Sys2Proof.Machine

/-! ## Decisions on sound operands -/

@[simp] theorem State.draw_zero (s : State) : s.draw 0 = s := rfl

theorem Decision.budget_of_none {k : KeySet} {l : Label} (h : budgetCause k l = none) : Decision.budget k l = .go l := by
  simp [Decision.budget, h]

theorem Decision.active_of_active {k : KeySet} (h : k.active = true) (base : Label) (d : Decision) : d.active k base = d := by
  simp [Decision.active, h]

theorem Decision.active_of_imp {b : Bool} {k : KeySet} {base : Label} {d : Decision} (h : b = true → k.active = true) :
    (if b = true then d.active k base else d) = d := by
  split
  next hb => exact Decision.active_of_active (h hb) base d
  next => rfl

/-- Inputs that are valid and not poisoned give no cause (R77). -/
theorem inputCause_map_clean {labs : List Label} (h : ∀ l, l ∈ labs → l.poison = false) :
    inputCause (labs.map (fun l => { lab := l, one := true, ok := true })) = none := by
  induction labs with
  | nil => rfl
  | cons l t ih =>
    obtain ⟨hl, ht⟩ := List.forall_mem_cons.mp h
    simpa [inputCause, LabelIn.poisoned, hl] using ih ht

/-- The labels of operands taken as valid inputs. -/
theorem map_lab_valid (labs : List Label) : (labs.map (fun l => ({ lab := l, one := true, ok := true } : LabelIn))).map (·.lab) = labs := by
  rw [List.map_map]
  exact List.map_id labs

/-- Clean operands under a key set: one of a form that the operation does not take ends it with FORM_MISMATCH, then what `early` finds ends it, and else the
operation's rule decides (R71, R76). -/
theorem dispatchOn_map_clean {x : Part} {labs : List Label} {k : KeySet} {base : Label} {forms : List Nat} {rule : KeySet → List Label → Decision}
    {early : Option KeySet → List Label → Option Nat} (hclean : ∀ l, l ∈ labs → l.poison = false) (hks : x.ksOf (labs.headD Label.zero) = some k) :
    dispatchOn x (labs.map (fun l => { lab := l, one := true, ok := true })) base forms rule early =
      if ∀ l, l ∈ labs → l.form ∈ forms then (early (some k) labs).elim (rule k labs) (fun c => .stop base c true) else .stop base cForm true := by
  have hany : labs.any (fun l => !forms.contains l.form) = true ↔ ¬ ∀ l, l ∈ labs → l.form ∈ forms := by simp
  simp only [dispatchOn, inputCause_map_clean hclean, map_lab_valid, hany, Part.keyset_of_ksOf hks, hks, ite_not]
  cases early (some k) labs <;> rfl

/-! ## Operations on limbs -/

/-- What an operation on limbs decides in a partition on operands with the labels `labs`, all valid: State.localOp without its reading of the labels. -/
def Part.limbDecision (x : Part) (polys : Option Nat) (forms : List Nat) (rule : KeySet → Label → List Label → Decision)
    (shape : Option KeySet → List Label → Option Nat) (labs : List Label) : Decision :=
  dispatchOn x (labs.map (fun l => { lab := l, one := true, ok := true })) (resultBase labs polys x.rooms.length) forms
    (fun k ls => rule k (resultBase labs polys x.rooms.length) ls) (fun k ls => (shape k ls).orElse (fun _ => checkCause k ls))

/-- Limb (j, q) of operand `i` as an operation on limbs reads it for a result `res`: an absent polynomial counts as zero (R561). -/
def State.operandLimb (s : State) (p : Nat) (dst : Place) (places : List Place) (labs : List Label) (res : Label) (j i q : Nat) : List Nat :=
  let l := labs.getD i Label.zero
  if q < l.polys then s.limb (s.part p) l (places.getD i dst) (srcPair l res j) q else List.replicate l.n 0

/-- The runs that an operation on limbs writes in a room are its words of the pairs in use that the room holds (R85, R86). -/
theorem mem_ownRuns {x : Part} {res : Label} {room : Nat} (make : Nat → Nat → List Nat) (e : Nat × List Nat) :
    e ∈ ownRuns x res room ((res.inUse.filter (ownsPair x res room)).flatMap (fun j => (List.range res.polys).map (fun q => (j, q, make j q)))) ↔
      ∃ j q, j ∈ res.inUse ∧ q < res.polys ∧ ownsPair x res room j = true ∧ e = (res.limbOff x.rooms.length j q, make j q) := by
  simp only [ownRuns, List.mem_map, List.mem_filter, List.mem_flatMap, List.mem_range]
  constructor
  · rintro ⟨_, ⟨⟨j, ⟨hj, hown⟩, q, hq, rfl⟩, -⟩, rfl⟩
    exact ⟨j, q, hj, hq, hown, rfl⟩
  · rintro ⟨j, q, hj, hq, hown, rfl⟩
    exact ⟨(j, q, make j q), ⟨⟨j, ⟨hj, hown⟩, q, hq, rfl⟩, hown⟩, rfl⟩

/-- `t` is `s` after an operation on limbs in the rooms of a partition: in each room whose operands are sound, where the operation goes on, the label decided and
the words `make` of the pairs in use, and where it ends, the poisoned label alone. -/
def State.RunsOnLimbs (s t : State) (p : Nat) (dst : Place) (places : List Place) (polys : Option Nat) (forms : List Nat)
    (rule : KeySet → Label → List Label → Decision) (shape : Option KeySet → List Label → Option Nat)
    (make : KeySet → List Label → Label → (Nat → Nat → List Nat) → Nat → Nat → List Nat)
    (sets : List Label → Nat → List Nat → List Nat) (q : Nat) : Prop :=
  ∃ f : Nat → RoomResult, t = s.runOp p dst f q ∧ ∀ room labs k, s.Sound p room places labs k →
    (∀ lab, (s.part p).limbDecision polys forms rule shape labs = .go lab →
      (f room).Is (s.part p) room lab (fun j q => make k labs lab (s.operandLimb p dst places labs lab j) j q) ∧
      (f room).fresh = false ∧ (f room).mism = none ∧
      (f room).sets = (sets labs room (lab.inUse.filter (ownsPair (s.part p) lab room))).map
        (fun j => (lab.keyset, if lab.check && j = lab.limbs then 128 else j))) ∧
    (∀ l c, (s.part p).limbDecision polys forms rule shape labs = .stop l c true →
      (f room).runs = [] ∧ (f room).fresh = true ∧ (f room).lab = l.ended c)

theorem State.runsOnLimbs_localOp (s : State) (p : Nat) (dst : Place) (places : List Place) (polys : Option Nat) (forms : List Nat)
    (rule : KeySet → Label → List Label → Decision) (make : KeySet → List Label → Label → (Nat → Nat → List Nat) → Nat → Nat → List Nat)
    (extra : List Label → List Span) (shape : Option KeySet → List Label → Option Nat)
    (gated : KeySet → List Label → Label → (Nat → Nat → List Nat) → Nat → Nat → Nat) (more : KeySet → List Label → Nat → Nat)
    (passes : Nat → Option (Nat × Nat)) (sets : List Label → Nat → List Nat → List Nat) (lanes : Bool) (q : Nat) :
    s.RunsOnLimbs (s.localOp p dst places polys forms rule make extra shape gated more passes sets lanes q) p dst places polys forms rule shape make sets q := by
  refine ⟨_, rfl, fun room labs k h => ?_⟩
  have hks : (s.part p).ksFor labs = some k := h.keyset
  simp only [h.labels, map_lab_valid, hks]
  refine ⟨fun lab hgo => ?_, fun l c hstop => ?_⟩
  · unfold Part.limbDecision resultBase at hgo
    simp only [hgo]
    exact ⟨⟨rfl, rfl, mem_ownRuns _⟩, rfl, rfl, rfl⟩
  · unfold Part.limbDecision resultBase at hstop
    simp only [hstop]
    exact ⟨rfl, rfl, rfl⟩

theorem RoomResult.Is.congr {r : RoomResult} {x : Part} {room : Nat} {lab : Label} {limb limb' : Nat → Nat → List Nat} (h : r.Is x room lab limb)
    (heq : ∀ j q, q < lab.polys → limb j q = limb' j q) : r.Is x room lab limb' := by
  refine ⟨h.label, h.loud, fun e => (h.runs e).trans ?_⟩
  constructor <;>
  · rintro ⟨j, q, hj, hq, hown, rfl⟩
    exact ⟨j, q, hj, hq, hown, by rw [heq j q hq]⟩

/-- The decision of an operation on limbs whose operands are sound: FORM_MISMATCH, then what the test of their shape finds, then the check limbs, then its rule. -/
theorem State.Sound.limbDecision {s : State} {p room : Nat} {places : List Place} {labs : List Label} {k : KeySet} (h : s.Sound p room places labs k)
    (hcheck : checkCause (some k) labs = none) (polys : Option Nat) (forms : List Nat) (rule : KeySet → Label → List Label → Decision)
    (shape : Option KeySet → List Label → Option Nat) :
    (s.part p).limbDecision polys forms rule shape labs =
      if ∀ l, l ∈ labs → l.form ∈ forms then
        (shape (some k) labs).elim (rule k (resultBase labs polys (s.part p).rooms.length) labs)
          (fun c => .stop (resultBase labs polys (s.part p).rooms.length) c true)
      else .stop (resultBase labs polys (s.part p).rooms.length) cForm true := by
  rw [Part.limbDecision, dispatchOn_map_clean (fun l hl => (h.clean l hl).1) h.keyset]
  cases shape (some k) labs <;> simp [hcheck]

/-- A command that runs on limbs, and whose rule decides on the label `lab` for what `good` admits, keeps State.LimbRule. -/
theorem State.RunsOnLimbs.limbRule {s t u : State} {c : Instr} {p : Nat} {dst : Place} {places : List Place} {polys : Option Nat} {forms : List Nat}
    {rule : KeySet → Label → List Label → Decision} {shape : Option KeySet → List Label → Option Nat}
    {make : KeySet → List Label → Label → (Nat → Nat → List Nat) → Nat → Nat → List Nat} {sets : List Label → Nat → List Nat → List Nat} {q n : Nat}
    {good : KeySet → List Label → Label → Prop} {words : KeySet → List Label → Label → Nat → Nat → List Nat} {need : List Label → Label → Nat → List Nat}
    (hexec : exec c s = .next u) (hu : t.draw n = u) (hruns : s.RunsOnLimbs t p dst places polys forms rule shape make sets q)
    (hgo : ∀ k labs lab, good k labs lab → (∀ l, l ∈ labs → l.form ∈ forms) ∧ shape (some k) labs = none ∧
      rule k (resultBase labs polys (s.part p).rooms.length) labs = .go lab)
    (hwords : ∀ k labs lab j q, good k labs lab → q < lab.polys →
      make k labs lab (s.operandLimb p dst places labs lab j) j q = words k labs lab j q)
    (hsets : ∀ labs lab room, sets labs room (lab.inUse.filter (ownsPair (s.part p) lab room)) = need labs lab room) :
    s.LimbRule c p dst places good words need q := by
  obtain ⟨f, rfl, hroom⟩ := hruns
  refine ⟨f, ⟨n, hexec.trans (congrArg _ hu.symm)⟩, fun room labs k lab hsound hcheck hgood => ?_⟩
  obtain ⟨hforms, hshape, hrule⟩ := hgo k labs lab hgood
  have hdec : (s.part p).limbDecision polys forms rule shape labs = .go lab := by
    rw [hsound.limbDecision hcheck, if_pos hforms, hshape]
    exact hrule
  obtain ⟨his, hfresh, hmism, hneed⟩ := (hroom room labs k hsound).1 lab hdec
  exact ⟨his.congr (fun j q hq => hwords k labs lab j q hgood hq), hfresh, hmism, by rw [hneed, hsets]⟩

/-! ## The polynomials of a result -/

@[simp] theorem Label.sized_polys (l : Label) (n : Nat) : (l.sized n).polys = l.polys := by
  unfold Label.sized
  split <;> rfl

@[simp] theorem resultBase_polys_some (labs : List Label) (m n : Nat) : (resultBase labs (some m) n).polys = m := Label.sized_polys _ _

@[simp] theorem resultBase_polys_single (u : Label) (n : Nat) : (resultBase [u] none n).polys = u.polys := Label.sized_polys _ _

theorem resultBase_polys_pair {u v : Label} (h : v.polys ≤ u.polys) (n : Nat) : (resultBase [u, v] none n).polys = u.polys := by
  rw [resultBase, baseLabel, Label.sized_polys]
  simp [leadOf, LabelIn.source, Nat.not_lt.mpr h]

/-! ## Pairs of operands (R71) -/

/-- Two operands of the right shape are both of form 0 or both of form 1, with the polynomials that their product takes. -/
theorem pairShape_none {k : Option KeySet} {product : Nat} {u v : Label} (h : pairShape k product u v = none) :
    u.form ≤ 1 ∧ v.form = u.form ∧ (product = 1 → v.polys = 1 ∧ 2 ≤ u.polys) ∧ (product = 2 → u.polys = 2 ∧ v.polys = 2) := by
  simp only [pairShape] at h
  split at h
  next => cases h
  next hshape =>
    simp only [Bool.or_eq_true, Bool.and_eq_true, decide_eq_true_eq, not_or, not_and] at hshape
    obtain ⟨⟨⟨⟨hform, hle⟩, -⟩, htwo⟩, hone⟩ := hshape
    omega

theorem pairShape_of_pairCause {k : KeySet} {product : Nat} {u v : Label} (h : pairCause k product u v = none) : pairShape (some k) product u v = none := by
  unfold pairCause at h
  split at h
  next => cases h
  next hshape => exact hshape

/-- Two operands that meet the conditions of R71 are each of form 0 or 1. -/
theorem pairCause_forms {k : KeySet} {product : Nat} {u v : Label} (h : pairCause k product u v = none) : ∀ l, l ∈ [u, v] → l.form ∈ [0, 1] := by
  obtain ⟨hle, hform, -, -⟩ := pairShape_none (pairShape_of_pairCause h)
  simp
  omega

/-! ## The rules of the operations (R70, R72, R98, R105) -/

theorem addRule_of_agree {k : KeySet} {u v base lab : Label} (hpair : pairCause k 0 u v = none) (hcovers : k.covers v = true)
    (hbudget : budgetCause k lab = none)
    (hlab : lab = { base with level := min u.level v.level, scale := u.scale, noise := satNoise (max u.noise v.noise + 256), repr := u.repr }) :
    addRule k base [u, v] = .go lab := by
  simp [-Nat.cast_max, addRule, hpair, hcovers, ← hlab, Decision.budget_of_none hbudget]

theorem mulPlainRule_of_agree {k : KeySet} {u v base lab : Label} (hpair : pairCause k 1 u v = none) (hcovers : k.covers v = true)
    (hbudget : budgetCause k lab = none)
    (hzero : u.form = 0 → lab = { base with
      level := min u.level v.level, scale := u.scale + v.scale, noise := satNoise (u.noise + v.scale + u.g), repr := true })
    (hone : u.form = 1 → lab = { base with level := u.level, scale := 0, noise := satNoise (u.noise + k.tau + u.g), repr := true }) :
    mulPlainRule k base [u, v] = .go lab := by
  obtain ⟨hle, -, -, -⟩ := pairShape_none (pairShape_of_pairCause hpair)
  obtain hform | hform : u.form = 0 ∨ u.form = 1 := by omega
  · simp [mulPlainRule, hpair, hcovers, hform, ← hzero hform, Decision.budget_of_none hbudget]
  · simp [mulPlainRule, hpair, hcovers, hform, ← hone hform, Decision.budget_of_none hbudget]

theorem tensorRule_of_agree {k : KeySet} {u v base lab : Label} (hpair : pairCause k 2 u v = none) (hcovers : k.covers v = true)
    (hbudget : budgetCause k lab = none)
    (hzero : u.form = 0 → lab = { base with
      level := min u.level v.level, scale := u.scale + v.scale
      noise := satNoise (max (u.noise + v.scale) (v.noise + u.scale) + u.g + 256), repr := true })
    (hone : u.form = 1 → lab = { base with
      level := u.level, scale := 0, noise := satNoise (max u.noise v.noise + k.tau + u.g + 256), repr := true }) :
    tensorRule k base [u, v] = .go lab := by
  obtain ⟨hle, -, -, -⟩ := pairShape_none (pairShape_of_pairCause hpair)
  obtain hform | hform : u.form = 0 ∨ u.form = 1 := by omega
  · simp [tensorRule, hpair, hcovers, hform, ← hzero hform, Decision.budget_of_none hbudget]
  · simp [-Nat.cast_max, tensorRule, hpair, hcovers, hform, ← hone hform, Decision.budget_of_none hbudget]

/-- A single operand of a form and a number of polynomials that the operation takes, and in form 1 of its key set's T, passes (R68). -/
theorem formOk_of {k : KeySet} {forms polys : List Nat} {u : Label} (hform : u.form ∈ forms) (hpolys : u.polys ∈ polys) (ht : u.form = 1 → u.t = k.t) :
    formOk k forms polys u = true := by
  simp only [formOk, Bool.and_eq_true, Bool.or_eq_true, bne_iff_ne, ne_eq, beq_iff_eq, List.contains_iff_mem]
  exact ⟨⟨hform, hpolys⟩, imp_iff_not_or.mp ht⟩

theorem mem_one_to_three {n : Nat} (h : 1 ≤ n) (h' : n ≤ 3) : n ∈ [1, 2, 3] := by
  simp
  omega

theorem formOk_of_zero {k : KeySet} {u : Label} (hform : u.form = 0) (hmin : 1 ≤ u.polys) (hmax : u.polys ≤ 3) : formOk k [0] [1, 2, 3] u = true :=
  formOk_of (by simp [hform]) (mem_one_to_three hmin hmax) (by omega)

theorem mem_zero_one {n : Nat} (h : n ≤ 1) : n ∈ [0, 1] := by
  simp
  omega

theorem mulIntRule_of_fits {c : Int} {k : KeySet} {u base lab : Label} (hform : formOk k [0, 1] [1, 2, 3] u = true) (hbudget : budgetCause k lab = none)
    (hlab : lab = { base with
      level := u.level, scale := u.scale, repr := u.repr
      noise := if c = 0 then (Config.zeroNoise u.noise).toNat else satNoise (u.noise + ceil256 c.natAbs) }) :
    mulIntRule c k base [u] = .go lab := by
  simp [mulIntRule, hform, ← hlab, Decision.budget_of_none hbudget]

/-! ## Sums and products -/

/-- ADD of two operands that do not meet a condition of R71 ends with its cause (R76). -/
theorem State.Sound.limbDecision_addRule {s : State} {p room : Nat} {places : List Place} {u v : Label} {k : KeySet} {c : Nat}
    (h : s.Sound p room places [u, v] k) (hcheck : checkCause (some k) [u, v] = none) (hpair : pairCause k 0 u v = some c) :
    (s.part p).limbDecision none [0, 1] addRule (shapeOf 0) [u, v] = .stop (resultBase [u, v] none (s.part p).rooms.length) c true := by
  rw [h.limbDecision hcheck]
  by_cases hforms : ∀ l, l ∈ [u, v] → l.form ∈ [0, 1]
  · rw [if_pos hforms]
    cases hshape : pairShape (some k) 0 u v with
    | none => simp [shapeOf, hshape, addRule, hpair]
    | some d =>
      have hd : d = c := by simpa [pairCause, hshape] using hpair
      simp [shapeOf, hshape, hd]
  · have hshape : pairShape (some k) 0 u v = some cForm := by
      have hne : u.form ≠ v.form ∨ 1 < u.form := by
        simp at hforms
        omega
      obtain h | h := hne <;> simp [pairShape, h]
    have hc : cForm = c := by simpa [pairCause, hshape] using hpair
    rw [if_neg hforms, hc]

/-- Settles O36: each sum and product as an operation on limbs, with the label that its rule decides and the words that the lanes make. -/
theorem arithmeticGivesLabelAndWords : Obligations.ArithmeticGivesLabelAndWords := by
  refine ⟨fun s p dst a b => ?_, fun s p dst a b => ?_, fun s p dst a c => ?_, fun s p dst a b => ?_, fun s p dst a b => ?_, fun s p dst a b => ?_⟩
  · -- ADD
    refine State.RunsOnLimbs.limbRule rfl (State.draw_zero _) (s.runsOnLimbs_localOp ..) ?_ (fun _ _ _ _ _ _ _ => rfl) (fun _ _ _ => rfl)
    rintro k _ lab ⟨u, v, rfl, hpair, hcovers, hbudget, hlab⟩
    exact ⟨pairCause_forms hpair, pairShape_of_pairCause hpair, addRule_of_agree hpair hcovers hbudget hlab⟩
  · -- SUBTRACT
    refine State.RunsOnLimbs.limbRule rfl (State.draw_zero _) (s.runsOnLimbs_localOp ..) ?_ (fun _ _ _ _ _ _ _ => rfl) (fun _ _ _ => rfl)
    rintro k _ lab ⟨u, v, rfl, hpair, hcovers, hbudget, hlab⟩
    exact ⟨pairCause_forms hpair, pairShape_of_pairCause hpair, addRule_of_agree hpair hcovers hbudget hlab⟩
  · -- MULTIPLY_BY_INTEGER
    refine State.RunsOnLimbs.limbRule rfl (State.draw_zero _) (s.runsOnLimbs_localOp ..) ?_ ?_ (fun _ _ _ => rfl)
    · rintro k _ lab ⟨u, rfl, hform, hmin, hmax, ht, hbudget, hlab⟩
      exact ⟨by simpa using mem_zero_one hform, rfl,
        mulIntRule_of_fits (formOk_of (mem_zero_one hform) (mem_one_to_three hmin hmax) ht) hbudget hlab⟩
    · rintro k _ lab j q ⟨u, rfl, -, -, -, -, -, hlab⟩ hq
      have hq' : q < u.polys := by rw [hlab] at hq; simpa using hq
      simp [State.operandLimb, hq']
  · -- MULTIPLY_BY_PLAINTEXT
    refine State.RunsOnLimbs.limbRule rfl (State.draw_zero _) (s.runsOnLimbs_localOp ..) ?_ ?_ (fun _ _ _ => rfl)
    · rintro k _ lab ⟨u, v, rfl, hpair, hcovers, hbudget, hzero, hone⟩
      exact ⟨pairCause_forms hpair, pairShape_of_pairCause hpair, mulPlainRule_of_agree hpair hcovers hbudget hzero hone⟩
    · rintro k _ lab j q ⟨u, v, rfl, hpair, -, -, hzero, hone⟩ hq
      obtain ⟨hle, -, hplain, -⟩ := pairShape_none (pairShape_of_pairCause hpair)
      obtain ⟨hv, hu⟩ := hplain rfl
      have hpolys : lab.polys = u.polys := by
        obtain hform | hform : u.form = 0 ∨ u.form = 1 := by omega
        · rw [hzero hform]
          exact resultBase_polys_pair (by omega) _
        · rw [hone hform]
          exact resultBase_polys_pair (by omega) _
      have hq' : q < u.polys := hpolys ▸ hq
      simp [State.operandLimb, hq', hv, zipLane]
  · -- TENSOR_PRODUCT
    refine State.RunsOnLimbs.limbRule rfl (State.draw_zero _) (s.runsOnLimbs_localOp ..) ?_ ?_ (fun _ _ _ => rfl)
    · rintro k _ lab ⟨u, v, rfl, hpair, hcovers, hbudget, hzero, hone⟩
      exact ⟨pairCause_forms hpair, pairShape_of_pairCause hpair, tensorRule_of_agree hpair hcovers hbudget hzero hone⟩
    · rintro k _ lab j q ⟨u, v, rfl, hpair, -, -, -, -⟩ -
      obtain ⟨-, -, -, htwo⟩ := pairShape_none (pairShape_of_pairCause hpair)
      obtain ⟨hu, hv⟩ := htwo rfl
      simp [State.operandLimb, hu, hv, zipLane]
  · -- operands that do not meet a condition of R71
    obtain ⟨f, hf, hroom⟩ := s.runsOnLimbs_localOp p dst [a, b] none [0, 1] addRule _ _ (shapeOf 0) _ _ _ _ _ _
    refine ⟨f, congrArg _ hf, fun room u v k c h hcheck hpair => ?_⟩
    exact (hroom room [u, v] k h).2 _ c (h.limbDecision_addRule hcheck hpair)

/-! ## Levels and representations -/

theorem rescaleRule_of_fits {form : Nat} {k : KeySet} {u base lab : Label} (hform : formOk k [form] [1, 2, 3] u = true) (hlevel : 1 ≤ u.level)
    (hactive : u.repr = true → k.active = true) (hbudget : budgetCause k lab = none)
    (hlab : lab = { base with
      level := u.level - 1, scale := if form = 0 then u.scale - k.lam1 u.level else 0, repr := u.repr
      noise := satNoise (max ((u.noise : Int) - k.lam1 u.level) (u.g + 256) + 256) }) :
    rescaleRule form k base [u] = .go lab := by
  have hne : u.level ≠ 0 := by omega
  simp [rescaleRule, hform, hne, Decision.active_of_imp hactive, ← hlab, Decision.budget_of_none hbudget]

theorem rescaleRule_of_level_zero {form : Nat} {k : KeySet} {u base : Label} (hform : formOk k [form] [1, 2, 3] u = true) (hlevel : u.level = 0) :
    rescaleRule form k base [u] = .stop base cExhausted true := by
  simp [rescaleRule, hform, hlevel]

theorem levelDropRule_of_fits {n : Nat} {k : KeySet} {u base lab : Label} (hform : formOk k [0] [1, 2, 3] u = true) (hlevel : n ≤ u.level)
    (hbudget : budgetCause k lab = none)
    (hlab : lab = { base with level := u.level - n, scale := u.scale, noise := u.noise, repr := u.repr }) :
    levelDropRule n k base [u] = .go lab := by
  simp [levelDropRule, hform, Nat.not_lt.mpr hlevel, ← hlab, Decision.budget_of_none hbudget]

theorem levelDropRule_of_below {n : Nat} {k : KeySet} {u base : Label} (hform : formOk k [0] [1, 2, 3] u = true) (hlevel : u.level < n) :
    levelDropRule n k base [u] = .stop base cExhausted true := by
  simp [levelDropRule, hform, hlevel]

theorem transformRule_of_fits {up : Bool} {k : KeySet} {u base lab : Label} (hform : formOk k [0, 1] [1, 2, 3] u = true) (hrepr : u.repr ≠ up)
    (hactive : k.active = true) (hbudget : budgetCause k lab = none)
    (hlab : lab = { base with level := u.level, scale := u.scale, noise := u.noise, repr := up }) :
    transformRule up k base [u] = .go lab := by
  simp [transformRule, hform, hrepr, Decision.active_of_active hactive, ← hlab, Decision.budget_of_none hbudget]

theorem autoRule_of_fits {k : KeySet} {u base lab : Label} (hform : formOk k [0, 1] [1] u = true) (hactive : k.active = true)
    (hbudget : budgetCause k lab = none)
    (hlab : lab = { base with level := u.level, scale := u.scale, noise := u.noise, repr := u.repr }) :
    autoRule k base [u] = .go lab := by
  simp [autoRule, hform, Decision.active_of_active hactive, ← hlab, Decision.budget_of_none hbudget]

/-- What an operation of one operand that runs on its limbs reads of them: each polynomial is there (R561). -/
theorem State.operandLimb_single {s : State} {p : Nat} {dst a : Place} {u lab : Label} {q : Nat} (hq : q < u.polys) (j : Nat) :
    s.operandLimb p dst [a] [u] lab j 0 q = s.limb (s.part p) u a (srcPair u lab j) q := if_pos hq

/-- RESCALE and MODULUS_SWITCH as an operation on limbs (R562). -/
theorem State.runsOnLimbs_rescaleOp (s : State) (p : Nat) (dst a : Place) (form : Nat) :
    s.RunsOnLimbs (s.rescaleOp p dst a form) p dst [a] none [form] (rescaleRule form) (fun _ _ => none)
      (fun k labs res src j q => rescaleLimb (k.modAt res j) (k.modAt (labs.headD Label.zero) (labs.headD Label.zero).level)
        (labs.headD Label.zero).logN (labs.headD Label.zero).repr (src 0 q)
        (s.limb (s.part p) (labs.headD Label.zero) a (labs.headD Label.zero).level q))
      (fun labs room mine => if (labs.headD Label.zero).repr then
          mine ++ (if ownsPair (s.part p) (labs.headD Label.zero) room (labs.headD Label.zero).level then [(labs.headD Label.zero).level] else [])
        else []) 0 := by
  unfold State.rescaleOp
  exact s.runsOnLimbs_localOp ..

/-- A level drop in place in a room whose operand is sound: the label of its rule alone, or the poisoned label (R70). -/
theorem State.dropInPlace_of_sound (s : State) (p : Nat) (a : Place) (n : Nat) :
    ∃ f : Nat → RoomResult, s.dropInPlace p a n = s.runOp p a f ∧
      ∀ room u k, s.Sound p room [a] [u] k → checkCause (some k) [u] = none → u.form = 0 →
        f room = RoomResult.ofStop (levelDropRule n k (resultBase [u] none (s.part p).rooms.length) [u]) [a.labelSpan room] := by
  refine ⟨_, rfl, fun room u k h hcheck hform => ?_⟩
  obtain ⟨hlab, hpoison, hks⟩ := h.single
  have hmem : u.form ∈ [0] := by simp [hform]
  simp only [hlab, dispatchOn_of_clean hks hpoison hmem hcheck]
  rfl

theorem exec_levelDrop_same (s : State) (p : PartId) (a : Place) (n : Nat) : exec (.levelDrop p a a n) s = .next (s.dropInPlace p a n) :=
  congrArg Host.Outcome.next (if_pos rfl)

theorem exec_levelDrop_other (s : State) (p : PartId) {dst a : Place} (h : dst ≠ a) (n : Nat) :
    exec (.levelDrop p dst a n) s =
      .next (s.localOp p dst [a] none [0] (levelDropRule n) (fun _ _ _ src _ q => src 0 q) (lanes := false)) :=
  congrArg Host.Outcome.next (if_neg h)

/-- Settles O37: each rule's label on a single operand that fits, with the words of the limbs that the operation reads; below level 0 the rules stop. -/
theorem levelAndRepresentationRules : Obligations.LevelAndRepresentationRules := by
  refine ⟨fun s p dst a => ?_, fun s p dst a => ?_, fun s p a n => ?_, fun s p dst a n hne => ?_, fun s p dst a up => ?_, fun s p dst a code => ?_,
    fun s p dst a n => ?_, fun s p dst a => ?_⟩
  · -- RESCALE
    refine State.RunsOnLimbs.limbRule rfl (State.draw_zero _) (s.runsOnLimbs_rescaleOp p dst a 0) ?_ ?_ (fun _ _ _ => rfl)
    · rintro k _ lab ⟨u, rfl, hform, hmin, hmax, hlevel, hactive, hbudget, hlab⟩
      exact ⟨by simp [hform], rfl,
        rescaleRule_of_fits (formOk_of_zero hform hmin hmax) hlevel hactive hbudget hlab⟩
    · rintro k _ lab j q ⟨u, rfl, -, -, -, -, -, -, rfl⟩ hq
      simp only [State.operandLimb_single ((resultBase_polys_single u _) ▸ hq)]
      rfl
  · -- MODULUS_SWITCH
    refine State.RunsOnLimbs.limbRule rfl (State.draw_zero _) (s.runsOnLimbs_rescaleOp p dst a 1) ?_ ?_ (fun _ _ _ => rfl)
    · rintro k _ lab ⟨u, rfl, hform, ht, hmin, hmax, hlevel, hactive, hbudget, hlab⟩
      exact ⟨by simp [hform], rfl,
        rescaleRule_of_fits (formOk_of (by simp [hform]) (mem_one_to_three hmin hmax) (fun _ => ht)) hlevel hactive hbudget hlab⟩
    · rintro k _ lab j q ⟨u, rfl, -, -, -, -, -, -, -, rfl⟩ hq
      simp only [State.operandLimb_single ((resultBase_polys_single u _) ▸ hq)]
      rfl
  · -- LEVEL_DROP in place
    obtain ⟨f, hf, hroom⟩ := s.dropInPlace_of_sound p a n
    refine ⟨f, (exec_levelDrop_same s p a n).trans (congrArg _ hf), fun room u k lab h hcheck hform hmin hmax hlevel hlab hbudget => ?_⟩
    rw [hroom room u k h hcheck hform,
      levelDropRule_of_fits (formOk_of_zero hform hmin hmax) hlevel hbudget hlab]
    exact ⟨rfl, rfl, rfl, rfl⟩
  · -- LEVEL_DROP to another place
    refine State.RunsOnLimbs.limbRule (exec_levelDrop_other s p hne n) (State.draw_zero _) (s.runsOnLimbs_localOp ..) ?_ ?_ (fun _ _ _ => rfl)
    · rintro k _ lab ⟨u, rfl, hform, hmin, hmax, hlevel, hbudget, hlab⟩
      exact ⟨by simp [hform], rfl,
        levelDropRule_of_fits (formOk_of_zero hform hmin hmax) hlevel hbudget hlab⟩
    · rintro k _ lab j q ⟨u, rfl, -, -, -, -, -, rfl⟩ hq
      exact State.operandLimb_single ((resultBase_polys_single u _) ▸ hq) j
  · -- TRANSFORM
    refine State.RunsOnLimbs.limbRule rfl (State.draw_zero _) (s.runsOnLimbs_localOp ..) ?_ ?_ (fun _ _ _ => rfl)
    · rintro k _ lab ⟨u, rfl, hform, ht, hmin, hmax, hrepr, hactive, hbudget, hlab⟩
      exact ⟨by simpa using mem_zero_one hform, rfl,
        transformRule_of_fits (formOk_of (mem_zero_one hform) (mem_one_to_three hmin hmax) ht) hrepr hactive hbudget hlab⟩
    · rintro k _ lab j q ⟨u, rfl, -, -, -, -, -, -, -, rfl⟩ hq
      simp only [State.operandLimb_single ((resultBase_polys_single u _) ▸ hq)]
      cases up <;> rfl
  · -- AUTOMORPHISM
    refine State.RunsOnLimbs.limbRule rfl rfl (s.runsOnLimbs_localOp ..) ?_ ?_ (fun _ _ _ => rfl)
    · rintro k _ lab ⟨u, rfl, hform, ht, hpolys, hactive, -, hbudget, hlab⟩
      exact ⟨by simpa using mem_zero_one hform, rfl,
        autoRule_of_fits (formOk_of (mem_zero_one hform) (by simp [hpolys]) ht) hactive hbudget hlab⟩
    · rintro k _ lab j q ⟨u, rfl, -, -, -, -, hapart, -, rfl⟩ hq
      simp only [State.operandLimb_single ((resultBase_polys_single u _) ▸ hq)]
      exact if_neg (Bool.eq_false_iff.mp hapart)
  · -- a level drop below level 0
    by_cases hsame : dst = a
    · subst hsame
      obtain ⟨f, hf, hroom⟩ := s.dropInPlace_of_sound p dst n
      refine ⟨f, (exec_levelDrop_same s p dst n).trans (congrArg _ hf), fun room u k h hcheck hform hmin hmax hlevel => ?_⟩
      rw [hroom room u k h hcheck hform, levelDropRule_of_below (formOk_of_zero hform hmin hmax) hlevel]
      exact ⟨rfl, rfl, rfl⟩
    · obtain ⟨f, hf, hroom⟩ := s.runsOnLimbs_localOp p dst [a] none [0] (levelDropRule n) _ _ _ _ _ _ _ _ _
      refine ⟨f, (exec_levelDrop_other s p hsame n).trans (congrArg _ hf), fun room u k h hcheck hform hmin hmax hlevel => ?_⟩
      refine (hroom room [u] k h).2 _ cExhausted ?_
      rw [h.limbDecision hcheck, if_pos (by simp [hform])]
      exact levelDropRule_of_below (formOk_of_zero hform hmin hmax) hlevel
  · -- a rescale at level 0
    obtain ⟨f, hf, hroom⟩ := s.runsOnLimbs_rescaleOp p dst a 0
    refine ⟨f, congrArg _ hf, fun room u k h hcheck hform hmin hmax hlevel => ?_⟩
    refine (hroom room [u] k h).2 _ cExhausted ?_
    rw [h.limbDecision hcheck, if_pos (by simp [hform])]
    exact rescaleRule_of_level_zero (formOk_of_zero hform hmin hmax) hlevel

end Sys2Proof.Machine
end

section
/-! PROOFS. Operations on batches of samples (R71, R145, R149, R150): what the sequencer decides on sound batches, the words of each sample, and the statement
about them. -/

namespace Sys2Proof.Machine

/-- What an operation on samples starts its result's label from, on valid operands with the labels `labs`. -/
def sampleResultBase (labs : List Label) : Label := sampleBase (labs.map (fun l => { lab := l, one := true, ok := true }))

/-- An operation on samples in a room whose batches are sound: where its rule goes on, the label decided and the words of the samples that the room holds; where
the test of their shape finds a cause, the poisoned label alone. -/
theorem State.lweOp_of_sound (s : State) (p : Nat) (dst : Place) (places : List Place) (early : Option KeySet → List Label → Option Nat)
    (rule : KeySet → Label → List Label → Decision) (make : Modulus → List (List Nat) → List Nat) (gated : Modulus → List (List Nat) → Nat) :
    ∃ f : Nat → RoomResult, s.lweOp p dst places early rule make gated = s.runOp p dst f ∧
      ∀ room labs k, s.Sound p room places labs k → (∀ l, l ∈ labs → l.form = 2) →
        (∀ m lab, k.lweP = some m → early (some k) labs = none → rule k (sampleResultBase labs) labs = .go lab →
          (f room).lab = lab ∧ (f room).fresh = false ∧ (f room).mism = none ∧
          (f room).runs = ((List.range lab.count).filter (fun i => (s.part p).roomAt (lab.sampleRoom (s.part p).rooms.length i) == room)).map
            (fun i => (lab.sampleOff (s.part p).rooms.length i, make m ((List.zip labs places).map (fun e => s.sample (s.part p) e.1 e.2 i))))) ∧
        (∀ c, early (some k) labs = some c → (f room).runs = [] ∧ (f room).fresh = true ∧ (f room).lab = (sampleResultBase labs).ended c) := by
  refine ⟨_, rfl, fun room labs k h hform => ?_⟩
  have hforms : ∀ l, l ∈ labs → l.form ∈ [2] := fun l hl => List.mem_singleton.mpr (hform l hl)
  have hks : (s.part p).ksFor labs = some k := h.keyset
  simp only [h.labels, map_lab_valid, hks, dispatchOn_map_clean (fun l hl => (h.clean l hl).1) h.keyset, if_pos hforms]
  refine ⟨fun m lab hm hearly hgo => ?_, fun c hearly => ?_⟩
  · have hgo' : rule k (sampleBase (labs.map (fun l => { lab := l, one := true, ok := true }))) labs = .go lab := hgo
    simp only [hearly, Option.elim_none, hgo', Option.bind_some, hm]
    exact ⟨rfl, rfl, rfl, rfl⟩
  · simp only [hearly, Option.elim_some]
    exact ⟨rfl, rfl, rfl⟩

theorem sampleResultBase_single {u : Label} (hform : u.form = 2) : sampleResultBase [u] = { u with polys := 1, poison := false, cause := 0 } := by
  simp [sampleResultBase, sampleBase, leadOf, LabelIn.source, ← hform]

theorem sampleResultBase_pair {u v : Label} (hform : u.form = 2) (hpolys : u.polys = v.polys) :
    sampleResultBase [u, v] = { u with polys := 1, poison := false, cause := 0 } := by
  simp [sampleResultBase, sampleBase, leadOf, LabelIn.source, hpolys, ← hform]

theorem lweAddRule_of_agree {k : KeySet} {u v base lab : Label} (hkeyset : u.keyset = v.keyset) (hscale : u.scale = v.scale)
    (hbudget : budgetCause k lab = none) (hlab : lab = { base with noise := satNoise (max u.noise v.noise + 256) }) :
    lweAddRule k base [u, v] = .go lab := by
  simp [-Nat.cast_max, lweAddRule, hkeyset, hscale, ← hlab, Decision.budget_of_none hbudget]

/-- LWE_ADD and LWE_SUBTRACT in a room whose batches are sound: of batches that agree the words that `op` makes of each pair of samples; of batches of different COUNT
FORM_MISMATCH (R71, R145, log 28). -/
theorem State.lwePairOp_of_sound (s : State) (p : Nat) (dst a b : Place) (op : Modulus → Nat → Nat → Nat) :
    ∃ f : Nat → RoomResult, s.lweOp p dst [a, b] lwePair lweAddRule (fun m ws => List.zipWith (op m) (ws.getD 0 []) (ws.getD 1 []))
        (fun _ ws => flyCount (ws.getD 0 []) (ws.getD 1 [])) = s.runOp p dst f ∧
      (∀ room u v k q lab, s.Sound p room [a, b] [u, v] k → k.lweP = some q → u.form = 2 → v.form = 2 → u.count = v.count → u.dim = v.dim →
        u.keyset = v.keyset → u.scale = v.scale → u.polys = v.polys →
        lab = { u with polys := 1, poison := false, cause := 0, noise := satNoise (max u.noise v.noise + 256) } → budgetCause k lab = none →
        (f room).lab = lab ∧ (f room).fresh = false ∧ (f room).mism = none ∧
        (f room).runs = ((List.range lab.count).filter (fun i => (s.part p).roomAt (lab.sampleRoom (s.part p).rooms.length i) == room)).map
          (fun i => (lab.sampleOff (s.part p).rooms.length i, List.zipWith (op q) (s.sample (s.part p) u a i) (s.sample (s.part p) v b i)))) ∧
      (∀ room u v k, s.Sound p room [a, b] [u, v] k → u.form = 2 → v.form = 2 → u.count ≠ v.count →
        (f room).runs = [] ∧ (f room).fresh = true ∧ (f room).lab.poison = true ∧ (f room).lab.cause = 0x05) := by
  obtain ⟨f, hf, hroom⟩ := s.lweOp_of_sound p dst [a, b] lwePair lweAddRule (fun m ws => List.zipWith (op m) (ws.getD 0 []) (ws.getD 1 []))
    (fun _ ws => flyCount (ws.getD 0 []) (ws.getD 1 []))
  refine ⟨f, hf, fun room u v k q lab h hq hu hv hcount hdim hkeyset hscale hpolys hlab hbudget => ?_, fun room u v k h hu hv hcount => ?_⟩
  · have hrule : lweAddRule k (sampleResultBase [u, v]) [u, v] = .go lab :=
      lweAddRule_of_agree hkeyset hscale hbudget (by rw [hlab, sampleResultBase_pair hu hpolys])
    exact (hroom room [u, v] k h (by simp [hu, hv])).1 q lab hq (by simp [lwePair, hcount, hdim]) hrule
  · obtain ⟨hruns, hfresh, hlab⟩ := (hroom room [u, v] k h (by simp [hu, hv])).2 cForm (by simp [lwePair, hcount])
    rw [hlab]
    exact ⟨hruns, hfresh, rfl, rfl⟩

/-- Settles O42: a sum of batches by its own lemma, with the lane sum or difference; a product with an integer by the rule of R145. -/
theorem sampleArithmetic : Obligations.SampleArithmetic := by
  refine ⟨fun s p dst a b c op hc => ?_, fun s p dst a n => ?_⟩
  · obtain ⟨f, hf, hroom⟩ := s.lwePairOp_of_sound p dst a b op
    refine ⟨f, ?_, hroom⟩
    obtain ⟨rfl, rfl⟩ | ⟨rfl, rfl⟩ := hc
    · exact congrArg _ hf
    · exact congrArg _ hf
  · obtain ⟨f, hf, hroom⟩ := s.lweOp_of_sound p dst [a] (fun _ _ => none) (lweMulRule n) (fun m ws => (ws.getD 0 []).map (laneMul m (laneConst m n)))
      (fun m ws => ((ws.getD 0 []).filter (fun w => macGated (laneConst m n) w 0)).length)
    refine ⟨f, congrArg _ hf, fun room u k q lab h hq hu hlab hbudget => ?_⟩
    have hrule : lweMulRule n k (sampleResultBase [u]) [u] = .go lab := by
      rw [← Decision.budget_of_none hbudget, hlab, sampleResultBase_single hu]
      rfl
    exact (hroom room [u] k h (by simp [hu])).1 q lab hq rfl hrule

end Sys2Proof.Machine
end

section
/-! PROOFS. How an operation runs in the rooms of its partition (R76, R87, R190, R230, R458, R459): what its counts, its writes and its errors change, and the
statement about what they leave unchanged. -/

namespace Sys2Proof.Machine

/-! ## Steps that count only, and steps within some rooms -/

/-- What no operation of a room changes: the state without memory, rooms, stacks, free values and the messages that wait to be sent. -/
def State.frame (s : State) : State := { s with mem := {}, rooms := [], hbm := [], free := 0, links := { s.links with tx := [] } }

/-- A block with its exchange mark set. -/
def Block.marked (b : Block) : Block := { b with exchange := true }

/-- From `s` to `t` an operation of room `r` has counted and halted: memory is as before, and so are the other rooms and, but for the exchange mark, the room's block. -/
structure State.Counts (s t : State) (r : Nat) : Prop where
  frame : t.frame = s.frame
  mem : t.mem = s.mem
  rooms : ∀ q, q ≠ r → t.room q = s.room q
  block : (t.room r).block.map Block.marked = (s.room r).block.map Block.marked

/-- From `s` to `t` operations have run in the rooms `l`: every other room is as before, and so are its attic and its stack. -/
structure State.OnlyIn (s t : State) (l : List Nat) : Prop where
  frame : t.frame = s.frame
  rooms : ∀ q, q ∉ l → t.room q = s.room q
  attic : ∀ q o, q ∉ l → o < 2 ^ 32 → Mem.byte t.mem.attic (atticKey q o) = Mem.byte s.mem.attic (atticKey q o)
  cellar : ∀ q o, q ∉ l → o < 2 ^ 36 → Mem.byte t.mem.cellar (cellarKey q o) = Mem.byte s.mem.cellar (cellarKey q o)

theorem State.Counts.refl (s : State) (r : Nat) : s.Counts s r := ⟨rfl, rfl, fun _ _ => rfl, rfl⟩

theorem State.Counts.trans {s t u : State} {r : Nat} (h : s.Counts t r) (h' : t.Counts u r) : s.Counts u r :=
  ⟨h'.frame.trans h.frame, h'.mem.trans h.mem, fun q hq => (h'.rooms q hq).trans (h.rooms q hq), h'.block.trans h.block⟩

theorem State.OnlyIn.refl (s : State) (l : List Nat) : s.OnlyIn s l := ⟨rfl, fun _ _ => rfl, fun _ _ _ _ => rfl, fun _ _ _ _ => rfl⟩

theorem State.OnlyIn.trans {s t u : State} {l : List Nat} (h : s.OnlyIn t l) (h' : t.OnlyIn u l) : s.OnlyIn u l :=
  ⟨h'.frame.trans h.frame, fun q hq => (h'.rooms q hq).trans (h.rooms q hq), fun q o hq ho => (h'.attic q o hq ho).trans (h.attic q o hq ho),
    fun q o hq ho => (h'.cellar q o hq ho).trans (h.cellar q o hq ho)⟩

theorem State.OnlyIn.mono {s t : State} {l l' : List Nat} (h : s.OnlyIn t l) (hl : l ⊆ l') : s.OnlyIn t l' :=
  ⟨h.frame, fun q hq => h.rooms q (fun hm => hq (hl hm)), fun q o hq => h.attic q o (fun hm => hq (hl hm)), fun q o hq => h.cellar q o (fun hm => hq (hl hm))⟩

theorem State.Counts.onlyIn {s t : State} {r : Nat} (h : s.Counts t r) : s.OnlyIn t [r] :=
  ⟨h.frame, fun q hq => h.rooms q (fun e => hq (List.mem_singleton.mpr e)), fun _ _ _ _ => by rw [h.mem], fun _ _ _ _ => by rw [h.mem]⟩

theorem State.Counts.foldl {α : Type} {f : State → α → State} {l : List α} {r : Nat} (hf : ∀ (t : State) x, x ∈ l → t.Counts (f t x) r) (s : State) :
    s.Counts (l.foldl f s) r :=
  List.foldlRecOn (motive := fun t => s.Counts t r) l f (.refl s r) (fun t ht x hx => ht.trans (hf t x hx))

theorem State.OnlyIn.foldl {α : Type} {f : State → α → State} {l : List α} {rooms : List Nat} (hf : ∀ (t : State) x, x ∈ l → t.OnlyIn (f t x) rooms)
    (s : State) : s.OnlyIn (l.foldl f s) rooms :=
  List.foldlRecOn (motive := fun t => s.OnlyIn t rooms) l f (.refl s rooms) (fun t ht x hx => ht.trans (hf t x hx))

theorem State.counts_setRoom {s : State} {r : Nat} {x : Room} (h : x.block.map Block.marked = (s.room r).block.map Block.marked) :
    s.Counts (s.setRoom r x) r :=
  ⟨rfl, rfl, fun q hq => by rw [State.room_setRoom, if_neg hq], by rw [State.room_setRoom_same, h]⟩

theorem State.onlyIn_setRoom (s : State) (r : Nat) (x : Room) : s.OnlyIn (s.setRoom r x) [r] :=
  ⟨rfl, fun q hq => by rw [State.room_setRoom, if_neg (fun e => hq (List.mem_singleton.mpr e))], fun _ _ _ _ => rfl, fun _ _ _ _ => rfl⟩

theorem State.counts_setStack (s : State) (q : Nat) (x : Stack) (r : Nat) : s.Counts (s.setStack q x) r := ⟨rfl, rfl, fun _ _ => rfl, rfl⟩

theorem State.counts_draw (s : State) (n r : Nat) : s.Counts (s.draw n) r := ⟨rfl, rfl, fun _ _ => rfl, rfl⟩

/-! ## Counts -/

theorem State.counts_countEcc (s : State) (q : Nat) (bursts : List Nat) (r : Nat) : s.Counts (s.countEcc q bursts) r := s.counts_setStack q _ r

theorem State.counts_countPieces (s : State) (x : Span) (r : Nat) : s.Counts (s.countPieces x) r :=
  (s.counts_setStack _ _ r).trans (State.counts_countEcc _ _ _ r)

theorem State.counts_countRead (s : State) (x : Span) : s.Counts (s.countRead x) x.room := by
  unfold State.countRead
  split
  · exact (s.counts_setStack _ _ _).trans (State.counts_countEcc _ _ _ _)
  · exact State.counts_setRoom rfl

theorem State.counts_countReads (s : State) (room : Nat) (r : RoomResult) : s.Counts (s.countReads room r) room := by
  refine (State.Counts.foldl (fun t x hx => ?_) s).trans (State.Counts.foldl (fun t x _ => t.counts_countPieces x room) _)
  obtain ⟨hroom, -⟩ := Bool.and_eq_true_iff.mp (List.mem_filter.mp hx).2
  exact eq_of_beq hroom ▸ t.counts_countRead x

theorem State.counts_exchanges (s : State) (p room : Nat) (r : RoomResult) : s.Counts (s.exchanges p room r) room := by
  unfold State.exchanges
  split
  · exact State.counts_setRoom (Option.map_map _ _ _)
  · exact .refl s room

theorem State.counts_countStream (s : State) (room : Nat) (r : RoomResult) (dst : Place) : s.Counts (s.countStream room r dst) room := by
  unfold State.countStream
  split
  · exact .refl s room
  · exact State.counts_setRoom rfl

theorem Room.convDescs_block (x : Room) (ms : List Modulus) (word : Nat → Word) : (x.convDescs ms word).block = x.block := by
  unfold Room.convDescs
  split <;> rfl

theorem Room.loadDescs_block (x : Room) (wide : Option Bool) (ms : List Modulus) (pick : Nat → Nat) (word : Nat → Word) :
    (x.loadDescs wide ms pick word).block = x.block := by
  cases wide <;> rfl

theorem Room.foldl_convDescs_block (l : List (List Modulus)) (word : Nat → Word) (x : Room) :
    (l.foldl (fun y ms => y.convDescs ms word) x).block = x.block := by
  induction l generalizing x with
  | nil => rfl
  | cons ms l ih => exact (ih _).trans (x.convDescs_block ms word)

theorem State.counts_laneTraffic (s : State) (room : Nat) (r : RoomResult) (quiet : Bool) : s.Counts (s.laneTraffic room r quiet) room := by
  refine (State.counts_setRoom ?_).trans (State.counts_draw _ _ _)
  simp only [Room.convDescs_block, Room.loadDescs_block, Room.foldl_convDescs_block]

theorem State.counts_stopChannel (s : State) (r c cause at_ : Nat) : s.Counts (s.stopChannel r c cause at_) r :=
  (State.counts_setRoom (s := s) (by rfl)).trans ⟨rfl, rfl, fun _ _ => rfl, rfl⟩

theorem State.counts_haltWindow (s : State) (room : Nat) (x : Span) : s.Counts (s.haltWindow room x) room := by
  unfold State.haltWindow
  dsimp only
  split
  · exact .refl s room
  · refine State.Counts.foldl (fun t c _ => ?_) s
    split
    · exact t.counts_stopChannel ..
    · exact .refl t room

theorem State.counts_mergeRead (s : State) (q : Nat) (bursts : List Nat) (r : Nat) : s.Counts (s.mergeRead q bursts) r := by
  unfold State.mergeRead
  split
  · exact .refl s r
  · exact (s.counts_setStack _ _ r).trans (State.counts_countEcc _ _ _ r)

theorem State.counts_failedMerge (s : State) (x : Span) (line r : Nat) : s.Counts (s.failedMerge x line) r := by
  unfold State.failedMerge
  split
  · exact .refl s r
  · exact s.counts_mergeRead _ _ r

/-- What an operation of a room has counted before it meets an error or writes. -/
def State.opCounts (s : State) (p room : Nat) (dst : Place) (r : RoomResult) : State :=
  (((s.exchanges p room r).countReads room r).countStream room r dst).laneTraffic room r ((s.room room).conflictFree (r.reads ++ r.writes room dst))

theorem State.counts_opCounts (s : State) (p room : Nat) (dst : Place) (r : RoomResult) : s.Counts (s.opCounts p room dst r) room :=
  (((s.counts_exchanges p room r).trans (State.counts_countReads _ room r)).trans (State.counts_countStream _ room r dst)).trans
    (State.counts_laneTraffic _ room r _)

/-! ## Writes -/

theorem Mem.fillRun_length (base n : Nat) (m : List Host.Cell) : (Mem.fillRun base n m).length = n := by
  induction n generalizing base m with
  | zero => rfl
  | succ n ih =>
    cases m with
    | nil => simp [Mem.fillRun, ih]
    | cons c t =>
      unfold Mem.fillRun
      split <;> simp [ih]

theorem Mem.read_length (m : List Host.Cell) (base n : Nat) : (Mem.read m base n).length = n := Mem.fillRun_length _ _ _

theorem State.onlyIn_writeAttic {s : State} {r off : Nat} {data : List Byte} (h : off + data.length ≤ 2 ^ 32) : s.OnlyIn (s.writeAttic r off data) [r] := by
  refine ⟨rfl, fun _ _ => rfl, fun q o hq ho => ?_, fun _ _ _ _ => rfl⟩
  have hne : q ≠ r := fun e => hq (List.mem_singleton.mpr e)
  refine (Mem.byte_write _ _ _ _).trans (if_neg ?_)
  simp only [atticKey]
  omega

theorem State.onlyIn_writeCellar {s : State} {r off : Nat} {data : List Byte} (h : off + data.length ≤ 2 ^ 36) : s.OnlyIn (s.writeCellar r off data) [r] := by
  refine ⟨rfl, fun _ _ => rfl, fun _ _ _ _ => rfl, fun q o hq ho => ?_⟩
  have hne : q ≠ r := fun e => hq (List.mem_singleton.mpr e)
  refine (Mem.byte_write _ _ _ _).trans (if_neg ?_)
  simp only [cellarKey]
  omega

theorem State.onlyIn_mergeWrite {s : State} {r line : Nat} {bytes : List Byte} (hlen : bytes.length ≤ 128) (h : line * 128 + 128 ≤ 2 ^ 36) :
    s.OnlyIn (s.mergeWrite r line bytes) [r] :=
  (s.counts_setStack _ _ r).onlyIn.trans (State.onlyIn_writeCellar (by omega))

theorem mem_linesOf {off n l : Nat} : l ∈ linesOf off n ↔ off < 128 * l + 128 ∧ 128 * l < off + n ∧ n ≠ 0 := by
  unfold linesOf
  split
  next h => simp [h]
  next h =>
    simp only [List.mem_map, List.mem_range]
    constructor
    · rintro ⟨i, hi, rfl⟩
      omega
    · rintro ⟨hlo, hhi, -⟩
      exact ⟨l - off / 128, by omega, by omega⟩

/-- A line that a merge makes is a line long. -/
theorem spliced_length_le {old part : List Byte} {at_ : Nat} (hold : old.length = 128) (h : part.length ≤ 128 - at_) :
    (spliced old at_ part).length ≤ 128 := by
  simp only [spliced, List.length_append, List.length_take, List.length_drop, hold]
  omega

/-- A write to a stack changes that stack alone, whichever of its lines are written whole, merged or not written (R230). -/
theorem State.onlyIn_cellarWrite (s : State) (r off : Nat) (data : List Byte) (h : off + data.length ≤ stackBytes) :
    s.OnlyIn (s.cellarWrite r off data).1 [r] := by
  refine List.foldlRecOn (motive := fun a : State × Bool => s.OnlyIn a.1 [r]) _ _ (.refl s [r]) (fun a ha l hl => ?_)
  obtain ⟨hlo, hhi, -⟩ := mem_linesOf.mp hl
  have hspace : off + data.length ≤ 0xBD0000000 := h
  have hpart : ((data.drop (max off (l * 128) - off)).take (min (off + data.length) (l * 128 + 128) - max off (l * 128))).length =
      min (off + data.length) (l * 128 + 128) - max off (l * 128) := by
    rw [List.length_take, List.length_drop]
    omega
  dsimp only
  split
  · exact ha
  split
  next hwhole =>
    refine (ha.trans (State.counts_setStack _ _ _ r).onlyIn).trans (State.onlyIn_writeCellar ?_)
    rw [hpart]
    omega
  split
  · exact ha
  split
  · exact ha.trans (State.counts_mergeRead _ _ _ r).onlyIn
  · refine (ha.trans (State.counts_mergeRead _ _ _ r).onlyIn).trans (State.onlyIn_mergeWrite (spliced_length_le (Mem.read_length _ _ _) ?_) ?_)
    · rw [hpart]
      omega
    · omega

/-- A span that lies in its space ends within it. -/
theorem Span.le_of_inside {x : Span} (h : x.outside = false) : x.off + x.len ≤ if x.cellar then stackBytes else atticBytes :=
  Nat.not_lt.mp (of_decide_eq_false h)

theorem State.onlyIn_writeSpan (s : State) {room : Nat} {cellar : Bool} {off : Nat} {data : List Byte}
    (h : off + data.length ≤ if cellar then stackBytes else atticBytes) : s.OnlyIn (s.writeSpan room cellar off data) [room] := by
  cases cellar with
  | true => exact s.onlyIn_cellarWrite room off data h
  | false =>
    have hattic : off + data.length ≤ 0x18000000 := h
    exact State.onlyIn_writeAttic (by omega)

theorem State.counts_countAtticWr (s : State) (room off n : Nat) : s.Counts (s.countAtticWr room off n) room := State.counts_setRoom rfl

theorem State.onlyIn_digest (s : State) (p room space rel off : Nat) (data : List Byte) : s.OnlyIn (s.digest p room space rel off data) [room] := by
  obtain h | ⟨x, h⟩ := s.digest_cases p room space rel off data
  · rw [h]
    exact .refl s [room]
  · rw [h]
    exact s.onlyIn_setRoom room x

/-- The parts of a run of `n` bytes in its first `k` lines, one after another. -/
theorem sum_within_lines (off n k : Nat) :
    ((List.range k).map (fun i => min (off + n) ((off / 128 + i) * 128 + 128) - max off ((off / 128 + i) * 128))).sum =
      min (off + n) ((off / 128 + k) * 128) - off := by
  induction k with
  | zero => simp; omega
  | succ k ih =>
    rw [List.range_succ, List.map_append, List.sum_append, ih]
    simp only [List.map_cons, List.map_nil, List.sum_cons, List.sum_nil]
    omega

/-- The bytes of a span are as many as it is long, lost lines or not. -/
theorem State.spanBytes_length (s : State) (x : Span) : (s.spanBytes x).length = x.len := by
  unfold State.spanBytes
  split
  · exact Mem.read_length _ _ _
  split
  · exact Mem.read_length _ _ _
  have hline (l : Nat) : (if s.lineLost x.room (max x.off (l * 128)) = true then List.replicate (min (x.off + x.len) (l * 128 + 128) - max x.off (l * 128)) 0
      else s.readCellar x.room (max x.off (l * 128)) (min (x.off + x.len) (l * 128 + 128) - max x.off (l * 128))).length =
      min (x.off + x.len) (l * 128 + 128) - max x.off (l * 128) := by
    split
    · exact List.length_replicate
    · exact Mem.read_length _ _ _
  simp only [List.length_flatMap, hline]
  unfold linesOf
  split
  next h => simp [h]
  next h =>
    rw [List.map_map]
    refine (sum_within_lines x.off x.len _).trans ?_
    omega

theorem sliceZ_length (l : List Byte) (off len : Nat) : (sliceZ l off len).length = len := by
  simp [sliceZ]

theorem Label.bytes_length (l : Label) : l.bytes.length = 64 := by
  simp [Label.bytes, Label.head, leBytes_length, sliceZ_length]

/-- A counted write of a room, in its digest. -/
theorem State.onlyIn_putRun (s : State) (p : Nat) {room : Nat} {cellar : Bool} {off : Nat} {data : List Byte}
    (h : off + data.length ≤ if cellar then stackBytes else atticBytes) :
    s.OnlyIn (s.putRun p room cellar off data) [room] := by
  refine State.OnlyIn.trans ?_ (State.onlyIn_digest _ _ _ _ _ _ _)
  have hwrite := s.onlyIn_writeSpan (room := room) h
  split
  · exact hwrite
  · exact hwrite.trans (State.counts_countAtticWr _ _ _ _).onlyIn

theorem State.onlyIn_putLabel (s : State) (p : Nat) {room : Nat} {dst : Place} (lab : Label) (h : ({ dst.labelSpan room with len := 128 } : Span).outside = false) :
    s.OnlyIn (s.putLabel p room dst lab) [room] := by
  have hlen : (lab.bytes ++ s.spanBytes ⟨room, dst.cellar, dst.off + 64, 64⟩).length = 128 := by
    rw [List.length_append, Label.bytes_length, State.spanBytes_length]
    rfl
  refine State.OnlyIn.trans ?_ (State.onlyIn_digest _ _ _ _ _ _ _)
  have hwrite := s.onlyIn_writeSpan (room := room) (hlen.symm ▸ Span.le_of_inside h)
  split
  · exact hwrite
  · exact hwrite.trans (State.counts_countAtticWr _ _ _ _).onlyIn

/-! ## A room of an operation -/

/-- The spans that a room writes: the label line, unless a further part follows, and the runs. -/
theorem RoomResult.mem_writes {r : RoomResult} {room : Nat} {dst : Place} {e : Span} :
    e ∈ r.writes room dst ↔ (r.inner = false ∧ e = { dst.labelSpan room with len := 128 }) ∨
      ∃ w, w ∈ r.runs ∧ e = { room := room, cellar := dst.cellar, off := dst.off + w.1, len := 4 * w.2.length } := by
  cases h : r.inner <;> simp [RoomResult.writes, h, eq_comm]

/-- The runs of a result, written one after another. -/
def State.putRuns (s : State) (p room : Nat) (dst : Place) (r : RoomResult) : State :=
  r.runs.foldl (fun t w => t.putRun p room dst.cellar (dst.off + w.1) (bytesOfWords w.2)) s

theorem State.onlyIn_putRuns {s : State} {p room : Nat} {dst : Place} {r : RoomResult} (h : ∀ e, e ∈ r.writes room dst → e.outside = false) :
    s.OnlyIn (s.putRuns p room dst r) [room] := by
  refine State.OnlyIn.foldl (fun t w hw => t.onlyIn_putRun p ?_) s
  rw [bytesOfWords_length]
  exact Span.le_of_inside (h _ (RoomResult.mem_writes.mpr (.inr ⟨w, hw, rfl⟩)))

/-- A comparison that failed is recorded in a PAU of the room that formed it (R55). -/
def State.recordMism (s : State) (room : Nat) (r : RoomResult) : State :=
  match r.mism with
  | some (k, true) => (s.setRoom room ((s.room room).recordCheck ((s.room room).anyPau (Config.openWord s.free).toNat) k r.limbs)).draw 1
  | _ => s

theorem State.onlyIn_recordMism (s : State) (room : Nat) (r : RoomResult) : s.OnlyIn (s.recordMism room r) [room] := by
  unfold State.recordMism
  split
  · exact (s.onlyIn_setRoom _ _).trans (State.counts_draw _ _ _).onlyIn
  · exact .refl s [room]

/-- Whatever a room's result: the room performs it within itself, its attic and its stack. -/
theorem State.onlyIn_performRoom (s : State) (p room : Nat) (dst : Place) (r : RoomResult) : s.OnlyIn (s.performRoom p room dst r) [room] := by
  unfold State.performRoom
  dsimp only
  split
  · exact s.onlyIn_setRoom _ _
  next hinside =>
    have hwrites : ∀ e, e ∈ r.writes room dst → e.outside = false := fun e he =>
      Bool.eq_false_iff.mpr fun hout => hinside (List.any_eq_true.mpr ⟨e, List.mem_append_right _ he, hout⟩)
    have hcounts : s.OnlyIn (s.opCounts p room dst r) [room] := (s.counts_opCounts p room dst r).onlyIn
    split
    · exact (hcounts.trans (State.counts_haltWindow _ _ _).onlyIn).trans (State.onlyIn_setRoom _ _ _)
    · exact (hcounts.trans (State.counts_failedMerge _ _ _ _).onlyIn).trans (State.onlyIn_setRoom _ _ _)
    · split
      · exact (hcounts.trans (State.onlyIn_setRoom _ _ _)).trans (State.counts_draw _ _ _).onlyIn
      · exact hcounts
    · have hruns : s.OnlyIn _ [room] := (hcounts.trans (State.onlyIn_recordMism _ room r)).trans (State.onlyIn_putRuns (p := p) hwrites)
      split
      · exact hruns.trans (State.onlyIn_setRoom _ _ _)
      next hinner =>
        split
        · exact hruns
        · have hlabel := hwrites _ (RoomResult.mem_writes.mpr (.inl ⟨Bool.eq_false_iff.mpr hinner, rfl⟩))
          exact (hruns.trans (State.onlyIn_putLabel _ p _ hlabel)).trans (State.onlyIn_setRoom _ _ _)

theorem State.onlyIn_countOp (s : State) (room q : Nat) : s.OnlyIn (s.countOp room q) [room] := s.onlyIn_setRoom _ _

/-- An operation changes nothing outside the rooms that dispatch it (R76, R190). -/
theorem State.onlyIn_runOp (s : State) (p q : Nat) (dst : Place) (f : Nat → RoomResult) : s.OnlyIn (s.runOp p dst f q) (s.opRooms p q) := by
  unfold State.runOp
  split
  · exact .refl _ _
  split
  · exact .refl _ _
  · refine State.OnlyIn.foldl (fun t room hroom => ?_) s
    exact ((t.onlyIn_performRoom p room dst _).trans (State.onlyIn_countOp _ room q)).mono (List.cons_subset.mpr ⟨hroom, List.nil_subset _⟩)

/-! ## A read that meets an error -/

theorem Room.takesErrors_of_block {x : Room} {b : Block} (h : x.block = some b) : x.takesErrors = decide (3 ≤ b.execs) := by
  simp [Room.takesErrors, h]

theorem not_any_outside {reads writes : List Span} (hreads : ∀ x, x ∈ reads → x.outside = false) (hwrites : ∀ x, x ∈ writes → x.outside = false) :
    ¬ (reads ++ writes).any Span.outside = true := by
  simpa using ⟨hreads, hwrites⟩

/-- A room's operation inside its space that reads a faulty byte before the third execution counts, writes nothing, and leaves its block to wait (R458, R459). -/
theorem State.performRoom_of_bad {s : State} {p room : Nat} {dst : Place} {r : RoomResult} {e : Span}
    (hreads : ∀ x, x ∈ r.reads → x.outside = false) (hwrites : ∀ x, x ∈ r.writes room dst → x.outside = false) (he : e ∈ r.reads)
    (hbad : s.readBad r.pieces e = true) (hthird : (s.room room).takesErrors = false) :
    ∃ (t : State) (v : RoomEvent), s.Counts t room ∧ s.performRoom p room dst r = t.setRoom room ((t.room room).fail v) := by
  obtain ⟨b, l, hfilter⟩ := List.exists_cons_of_ne_nil (List.ne_nil_of_mem (List.mem_filter.mpr ⟨he, hbad⟩))
  refine ⟨(s.opCounts p room dst r).haltWindow room b, s.readEvent r.pieces b, (s.counts_opCounts p room dst r).trans (State.counts_haltWindow _ _ _), ?_⟩
  unfold State.performRoom
  dsimp only
  rw [if_neg (not_any_outside hreads hwrites), hfilter, hthird]
  rfl

/-- The block that waits with an error, or not, has the same operation index through counts. -/
theorem State.Counts.block_of {s t : State} {r : Nat} {b : Block} (h : s.Counts t r) (hb : (s.room r).block = some b) :
    ∃ c, (t.room r).block = some c ∧ c.marked = b.marked := by
  have hmarked : (t.room r).block.map Block.marked = some b.marked := by rw [h.block, hb]; rfl
  exact Option.map_eq_some_iff.mp hmarked

/-- Settles O35: an operation runs within the rooms that dispatch it, and a read in error before the third execution only counts and fails the block. -/
theorem operationsTouchOnlyDispatchingRooms : Obligations.OperationsTouchOnlyDispatchingRooms := by
  refine ⟨fun s p q dst f => ?_, fun s p room dst r b e hblock hexecs he hbad hreads hwrites => ?_⟩
  · obtain ⟨hframe, hrooms, hattic, hcellar⟩ := s.onlyIn_runOp p q dst f
    exact ⟨(congrArg State.fns hframe :), (congrArg State.parts hframe :), (congrArg (fun t => t.links.ports) hframe :), (congrArg (fun t => t.links.route) hframe :),
      (congrArg State.sec hframe :), (congrArg State.gysis hframe :), hrooms, hattic, hcellar⟩
  · have hthird : (s.room room).takesErrors = false := by
      rw [Room.takesErrors_of_block hblock, decide_eq_false_iff_not]
      omega
    obtain ⟨t, v, hcounts, hperform⟩ := State.performRoom_of_bad (p := p) hreads hwrites he hbad hthird
    obtain ⟨c, hc, hmarked⟩ := hcounts.block_of hblock
    rw [hperform]
    refine ⟨hcounts.mem, { c with error := some (c.error.getD v), errSeen := true }, ?_, rfl, (congrArg Block.op hmarked :)⟩
    rw [State.room_setRoom_same, Room.fail, hc]

end Sys2Proof.Machine
end

section
/-! PROOFS. What an operation writes in a room of its partition (R67, R76, R188, R298): its runs and its label line in a memory in canonical form, and why the
statement about them, which admits every memory, fails. -/

namespace Sys2Proof.Machine

/-! ## Reading and writing runs of the attic -/

/-- A run read from cells in rising order holds each byte as it is read alone. -/
theorem Mem.fillRun_getD {m : List Host.Cell} {base n i : Nat} (hrise : m.Pairwise (fun a b => a.1 < b.1)) (hlow : ∀ c, c ∈ m → base ≤ c.1) (hi : i < n) :
    (Mem.fillRun base n m).getD i 0 = Mem.byte m (base + i) := by
  induction n generalizing m base i with
  | zero => omega
  | succ n ih =>
    cases m with
    | nil =>
      cases i with
      | zero => rfl
      | succ i =>
        have hnext := ih (m := []) (base := base + 1) (i := i) .nil (fun _ h => nomatch h) (by omega)
        exact hnext
    | cons c t =>
      obtain ⟨k, v⟩ := c
      obtain ⟨hk, ht⟩ := List.pairwise_cons.mp hrise
      have hle : base ≤ k := hlow _ List.mem_cons_self
      by_cases hkb : k = base
      · subst hkb
        cases i with
        | zero => simp [Mem.fillRun, Mem.byte, Tab.get]
        | succ i =>
          have hnext := ih (base := k + 1) (i := i) ht (fun c hc => hk c hc) (by omega)
          have hne : k ≠ k + (i + 1) := by omega
          simpa [Mem.fillRun, Mem.byte, Tab.get, hne, Nat.add_assoc, Nat.add_comm 1 i] using hnext
      · cases i with
        | zero =>
          have habsent : ((k, v) :: t).any (fun c => c.1 == base) = false := by
            refine List.any_eq_false.mpr fun c hc => ?_
            have hgt : base < c.1 := by
              obtain rfl | hc := List.mem_cons.mp hc
              · exact Nat.lt_of_le_of_ne hle (Ne.symm hkb)
              · exact Nat.lt_of_le_of_lt hle (hk c hc)
            simpa using Nat.ne_of_gt hgt
          simpa [Mem.fillRun, hkb] using (Mem.any_key_eq _ base habsent).symm
        | succ i =>
          have hnext := ih (base := base + 1) (i := i) hrise (fun c hc => by
            obtain rfl | hc := List.mem_cons.mp hc
            · show base + 1 ≤ k
              omega
            · have := hk c hc
              omega) (by omega)
          simpa [Mem.fillRun, hkb, Nat.add_assoc, Nat.add_comm 1 i] using hnext

theorem Mem.read_getD {m : List Host.Cell} (h : Mem.wf m = true) (base : Nat) {n i : Nat} (hi : i < n) :
    (Mem.read m base n).getD i 0 = Mem.byte m (base + i) := by
  obtain ⟨hrise, -⟩ := (Tab.wf_iff 0 m).mp h
  have hin : (decide (base ≤ base + i) && decide (base + i < base + n)) = true := by simp [hi]
  rw [Mem.read, Mem.fillRun_getD (hrise.filter _) (fun c hc => by simpa using (Bool.and_eq_true_iff.mp (List.mem_filter.mp hc).2).1) hi,
    Mem.byte_filter m (fun k => decide (base ≤ k) && decide (k < base + n)), if_pos hin]

theorem State.putRun_mem_attic (s : State) (p room off : Nat) (data : List Byte) :
    (s.putRun p room false off data).mem.attic = Mem.write s.mem.attic (atticKey room off) data := by
  simp only [State.putRun, State.digest_mem]
  rfl

theorem State.putRun_mem_cellar (s : State) (p room off : Nat) (data : List Byte) : (s.putRun p room false off data).mem.cellar = s.mem.cellar := by
  simp only [State.putRun, State.digest_mem]
  rfl

theorem State.putLabel_mem_attic (s : State) (p room : Nat) {dst : Place} (h : dst.cellar = false) (lab : Label) :
    (s.putLabel p room dst lab).mem.attic =
      Mem.write s.mem.attic (atticKey room dst.off) (lab.bytes ++ Mem.read s.mem.attic (atticKey room (dst.off + 64)) 64) := by
  simp only [State.putLabel, State.digest_mem, h]
  rfl

theorem State.putLabel_mem_cellar (s : State) (p room : Nat) {dst : Place} (h : dst.cellar = false) (lab : Label) :
    (s.putLabel p room dst lab).mem.cellar = s.mem.cellar := by
  simp only [State.putLabel, State.digest_mem, h]
  rfl

/-- A byte of no run is as before the runs are written. -/
theorem byte_foldl_putRun_other {runs : List (Nat × List Nat)} {p room off a : Nat} (s : State)
    (h : ∀ e i, e ∈ runs → i < 4 * e.2.length → a ≠ atticKey room (off + e.1 + i)) :
    Mem.byte (runs.foldl (fun t w => t.putRun p room false (off + w.1) (bytesOfWords w.2)) s).mem.attic a = Mem.byte s.mem.attic a := by
  induction runs generalizing s with
  | nil => rfl
  | cons w l ih =>
    rw [List.foldl_cons, ih _ (fun e i he => h e i (List.mem_cons_of_mem w he)), State.putRun_mem_attic, Mem.byte_write, if_neg]
    rintro ⟨hlo, hhi⟩
    rw [bytesOfWords_length] at hhi
    refine h w (a - atticKey room (off + w.1)) List.mem_cons_self (by omega) ?_
    simp only [atticKey] at hlo hhi ⊢
    omega

/-- A byte of a run holds the run's words, where the runs lie apart. -/
theorem byte_foldl_putRun_run {runs : List (Nat × List Nat)} {p room off : Nat} (s : State)
    (hapart : runs.Pairwise (fun a b => a.1 + 4 * a.2.length ≤ b.1 ∨ b.1 + 4 * b.2.length ≤ a.1)) {e : Nat × List Nat} (he : e ∈ runs) {i : Nat}
    (hi : i < 4 * e.2.length) :
    Mem.byte (runs.foldl (fun t w => t.putRun p room false (off + w.1) (bytesOfWords w.2)) s).mem.attic (atticKey room (off + e.1 + i)) =
      (bytesOfWords e.2).getD i 0 := by
  induction runs generalizing s with
  | nil => cases he
  | cons w l ih =>
    obtain ⟨hw, hl⟩ := List.pairwise_cons.mp hapart
    rw [List.foldl_cons]
    obtain rfl | he := List.mem_cons.mp he
    · have hkey : atticKey room (off + e.1 + i) - atticKey room (off + e.1) = i := by
        simp only [atticKey]
        omega
      rw [byte_foldl_putRun_other _ (fun d j hd hj => ?_), State.putRun_mem_attic, Mem.byte_write, if_pos, hkey]
      · rw [bytesOfWords_length]
        simp only [atticKey]
        omega
      · have := hw d hd
        simp only [atticKey]
        omega
    · exact ih _ hl he

theorem State.putRuns_mem_cellar (s : State) (p room : Nat) {dst : Place} (h : dst.cellar = false) (r : RoomResult) :
    (s.putRuns p room dst r).mem.cellar = s.mem.cellar := by
  unfold State.putRuns
  rw [h]
  exact List.foldlRecOn (motive := fun t : State => t.mem.cellar = s.mem.cellar) _ _ rfl
    (fun t ht w _ => (t.putRun_mem_cellar p room _ _).trans ht)

theorem Room.readsTaint_of_marked {x y : Room} (h : x.block.map Block.marked = y.block.map Block.marked) (reads : List Span) :
    x.readsTaint reads = y.readsTaint reads := by
  unfold Room.readsTaint
  cases hx : x.block with
  | none =>
    rw [hx, Option.map_none, eq_comm, Option.map_eq_none_iff] at h
    rw [h]
  | some b =>
    rw [hx, Option.map_some, eq_comm, Option.map_eq_some_iff] at h
    obtain ⟨c, hy, hc⟩ := h
    have htaint : c.tainted = b.tainted := (congrArg Block.tainted hc :)
    have hfull : c.taintFull = b.taintFull := (congrArg Block.taintFull hc :)
    have hstreamed : c.streamed = b.streamed := (congrArg Block.streamed hc :)
    simp only [hy, htaint, hfull, hstreamed]

/-- A room's operation that reads no error, compares soundly and stays in its space writes its runs, then its label line, and records it (R76, R188); one without
an output and without runs writes nothing (R87). -/
theorem State.performRoom_of_clean {s : State} {p room : Nat} {dst : Place} {r : RoomResult}
    (hreads : ∀ e, e ∈ r.reads → s.readBad r.pieces e = false ∧ e.outside = false) (hmism : r.mism = none)
    (htaint : (s.room room).readsTaint r.reads = false) (hwrites : ∀ e, e ∈ r.writes room dst → e.outside = false ∧ s.mergeFails e = none)
    (hinner : r.inner = false) :
    s.performRoom p room dst r =
      if r.silent then (s.opCounts p room dst r).putRuns p room dst r
      else
        let t := ((s.opCounts p room dst r).putRuns p room dst r).putLabel p room dst { r.lab with producer := s.producer p room }
        t.setRoom room ((t.room room).noteOp (if r.lab.poison then some r.lab.cause else none) r.fresh dst) := by
  have hbad : r.reads.filter (s.readBad r.pieces) = [] := List.filter_eq_nil_iff.mpr fun e he => by simp [(hreads e he).1]
  have hmerge : (r.writes room dst).findSome? (fun w => (s.mergeFails w).map (fun l => (w, l))) = none :=
    List.findSome?_eq_none_iff.mpr fun e he => by simp [(hwrites e he).2]
  have htaint' : ((s.opCounts p room dst r).room room).readsTaint r.reads = false :=
    (Room.readsTaint_of_marked (s.counts_opCounts p room dst r).block _).trans htaint
  unfold State.opCounts at htaint'
  unfold State.performRoom
  dsimp only
  rw [if_neg (not_any_outside (fun e he => (hreads e he).2) (fun e he => (hwrites e he).1)), hbad, hmism, hmerge]
  simp [htaint', hinner, State.opCounts, State.putRuns]

theorem State.putRuns_wf {s : State} (h : s.memOk = true) (p room : Nat) (dst : Place) (r : RoomResult) :
    Mem.wf (s.putRuns p room dst r).mem.attic = true := by
  obtain ⟨hattic, hcellar⟩ := Bool.and_eq_true_iff.mp h
  have hkeeps : State.Keeps s.pending s := ⟨rfl, hattic, hcellar⟩
  obtain ⟨-, hwf, -⟩ := foldl_keeps (fun t w ht => t.putRun_keeps p room dst.cellar (dst.off + w.1) (bytesOfWords w.2) ht) r.runs s hkeeps
  exact hwf

/-- A label line written to the attic: the label, and the line's other half as before where the memory is in canonical form. -/
theorem State.byte_putLabel {s : State} (h : Mem.wf s.mem.attic = true) (p room : Nat) {dst : Place} (hdst : dst.cellar = false) (lab : Label) (a : Nat) :
    Mem.byte (s.putLabel p room dst lab).mem.attic a =
      if atticKey room dst.off ≤ a ∧ a < atticKey room dst.off + 64 then lab.bytes.getD (a - atticKey room dst.off) 0 else Mem.byte s.mem.attic a := by
  rw [State.putLabel_mem_attic s p room hdst, Mem.byte_write, List.length_append, Label.bytes_length, Mem.read_length]
  by_cases hlab : atticKey room dst.off ≤ a ∧ a < atticKey room dst.off + 64
  · rw [if_pos (by omega), if_pos hlab, List.getD_append _ _ _ _ (by rw [Label.bytes_length]; omega)]
  · rw [if_neg hlab]
    by_cases hline : atticKey room dst.off ≤ a ∧ a < atticKey room dst.off + (64 + 64)
    · have hkey : atticKey room (dst.off + 64) + (a - atticKey room dst.off - 64) = a := by
        simp only [atticKey] at hline hlab ⊢
        omega
      rw [if_pos hline, List.getD_append_right _ _ _ _ (by rw [Label.bytes_length]; omega), Label.bytes_length, Mem.read_getD h _ (by omega), hkey]
    · rw [if_neg hline]

/-! ## The operation index -/

theorem State.Counts.op {s t : State} {r : Nat} (h : s.Counts t r) : (t.room r).block.map Block.op = (s.room r).block.map Block.op := by
  have hmarked := congrArg (Option.map Block.op) h.block
  rwa [Option.map_map, Option.map_map] at hmarked

theorem Block.foldl_term_op {α : Type} (l : List α) (t : α → List Byte) (b : Block) : (l.foldl (fun c q => c.term (t q)) b).op = b.op :=
  List.foldlRecOn (motive := fun c : Block => c.op = b.op) l _ rfl (fun _ hc _ _ => hc)

theorem State.digest_op (s : State) (p room space rel off : Nat) (data : List Byte) :
    ((s.digest p room space rel off data).room room).block.map Block.op = (s.room room).block.map Block.op := by
  unfold State.digest
  split
  next b hb =>
    split
    · simp [hb, Block.foldl_term_op]
    · rfl
  next => rfl

theorem State.countAtticWr_op (s : State) (room off n : Nat) :
    ((s.countAtticWr room off n).room room).block.map Block.op = (s.room room).block.map Block.op := (s.counts_countAtticWr room off n).op

theorem State.putRun_op (s : State) (p room off : Nat) (data : List Byte) :
    ((s.putRun p room false off data).room room).block.map Block.op = (s.room room).block.map Block.op :=
  (State.digest_op _ _ _ _ _ _ _).trans (State.countAtticWr_op _ _ _ _)

theorem State.putRuns_op (s : State) (p room : Nat) {dst : Place} (h : dst.cellar = false) (r : RoomResult) :
    ((s.putRuns p room dst r).room room).block.map Block.op = (s.room room).block.map Block.op := by
  unfold State.putRuns
  rw [h]
  exact List.foldlRecOn (motive := fun t : State => (t.room room).block.map Block.op = (s.room room).block.map Block.op) _ _ rfl
    (fun t ht w _ => (t.putRun_op p room _ _).trans ht)

theorem State.putLabel_op (s : State) (p room : Nat) {dst : Place} (h : dst.cellar = false) (lab : Label) :
    ((s.putLabel p room dst lab).room room).block.map Block.op = (s.room room).block.map Block.op := by
  unfold State.putLabel
  rw [h]
  exact (State.digest_op _ _ _ _ _ _ _).trans (State.countAtticWr_op _ _ _ _)

theorem Room.noteOp_op (x : Room) (poisoned : Option Nat) (fresh : Bool) (pl : Place) :
    (x.noteOp poisoned fresh pl).block.map Block.op = x.block.map Block.op := by
  cases poisoned with
  | none => cases hx : x.block <;> simp [Room.noteOp, hx]
  | some c => cases fresh <;> cases hx : x.block <;> simp [Room.noteOp, hx]

/-- The first clause of O34 in a module whose memory is in canonical form, which every step keeps (State.memOk): the label line and the runs are written,
and every other byte is as before. -/
theorem State.performRoom_writes_of_memOk {s : State} {p room : Nat} {dst : Place} {r : RoomResult} (hmem : s.memOk = true) (hdst : dst.cellar = false)
    (hline : dst.off + 128 ≤ atticBytes) (hreads : ∀ e, e ∈ r.reads → s.readBad r.pieces e = false ∧ e.outside = false) (hmism : r.mism = none)
    (htaint : (s.room room).readsTaint r.reads = false) (hloud : r.silent = false) (hinner : r.inner = false)
    (hruns : ∀ e, e ∈ r.runs → 128 ≤ e.1 ∧ dst.off + e.1 + 4 * e.2.length ≤ atticBytes)
    (hapart : r.runs.Pairwise (fun a b => a.1 + 4 * a.2.length ≤ b.1 ∨ b.1 + 4 * b.2.length ≤ a.1)) :
    (∀ i, i < 64 → Mem.byte (s.performRoom p room dst r).mem.attic (atticKey room (dst.off + i)) =
      ({ r.lab with producer := s.producer p room } : Label).bytes.getD i 0) ∧
    (∀ e i, e ∈ r.runs → i < 4 * e.2.length → Mem.byte (s.performRoom p room dst r).mem.attic (atticKey room (dst.off + e.1 + i)) =
      (bytesOfWords e.2).getD i 0) ∧
    (∀ a, (∀ i, i < 64 → a ≠ atticKey room (dst.off + i)) → (∀ e i, e ∈ r.runs → i < 4 * e.2.length → a ≠ atticKey room (dst.off + e.1 + i)) →
      Mem.byte (s.performRoom p room dst r).mem.attic a = Mem.byte s.mem.attic a) ∧
    (s.performRoom p room dst r).mem.cellar = s.mem.cellar ∧
    ((s.performRoom p room dst r).room room).block.map Block.op = (s.room room).block.map Block.op := by
  have hwrites : ∀ e, e ∈ r.writes room dst → e.outside = false ∧ s.mergeFails e = none := by
    intro e he
    obtain ⟨-, rfl⟩ | ⟨w, hw, rfl⟩ := RoomResult.mem_writes.mp he
    · simp [Span.outside, State.mergeFails, Place.labelSpan, hdst, hline]
    · simp [Span.outside, State.mergeFails, hdst, (hruns w hw).2]
  have hcounts := s.counts_opCounts p room dst r
  have hwf : Mem.wf ((s.opCounts p room dst r).putRuns p room dst r).mem.attic = true := by
    refine State.putRuns_wf ?_ p room dst r
    rw [State.memOk, hcounts.mem]
    exact hmem
  have hbyte (a : Nat) := State.byte_putLabel hwf p room hdst { r.lab with producer := s.producer p room } a
  rw [State.performRoom_of_clean (p := p) hreads hmism htaint hwrites hinner, hloud, if_neg Bool.false_ne_true]
  dsimp only [State.setRoom_mem]
  refine ⟨fun i hi => ?_, fun e i he hi => ?_, fun a hlab ha => ?_, ?_, ?_⟩
  · have hkey : atticKey room (dst.off + i) - atticKey room dst.off = i := by
      simp only [atticKey]
      omega
    rw [hbyte, if_pos (by simp only [atticKey]; omega), hkey]
  · have hafter := (hruns e he).1
    rw [hbyte, if_neg (by simp only [atticKey]; omega), State.putRuns, hdst]
    exact byte_foldl_putRun_run _ hapart he hi
  · have hout : ¬ (atticKey room dst.off ≤ a ∧ a < atticKey room dst.off + 64) := by
      rintro ⟨hlo, hhi⟩
      refine hlab (a - atticKey room dst.off) (by omega) ?_
      simp only [atticKey] at hlo hhi ⊢
      omega
    rw [hbyte, if_neg hout, State.putRuns, hdst, byte_foldl_putRun_other _ ha, hcounts.mem]
  · rw [State.putLabel_mem_cellar _ p room hdst, State.putRuns_mem_cellar _ p room hdst, hcounts.mem]
  · rw [State.room_setRoom_same, Room.noteOp_op, State.putLabel_op _ p room hdst, State.putRuns_op _ p room hdst, hcounts.op]

/-! ## A memory out of canonical form -/

/-- A module whose attic cells are listed in falling order: what a run reads back of them is not what they hold one by one. -/
def fallingAttic : State := { State.reset with mem := { attic := [(70, 1), (65, 2)] } }

/-- A result that reads nothing and writes its label alone. -/
def labelOnly : RoomResult := { lab := Label.zero, runs := [], fresh := false, reads := [], mism := none }

/-- Refutes O34: its first clause admits a memory out of canonical form. The label line's second half is read back and written again with the label
(State.putLabel), and of `fallingAttic` that read misses byte 65, so that the write clears a byte that is neither the label's nor a run's. -/
theorem not_roomOperationsWriteLabelAndRuns : ¬ Obligations.RoomOperationsWriteLabelAndRuns := by
  rintro ⟨hwrites, -, -⟩
  obtain ⟨-, -, hkeeps, -, -⟩ := hwrites fallingAttic 0 0 { cellar := false, off := 0 } labelOnly rfl (by decide) nofun rfl rfl rfl rfl nofun .nil
  have hlost : Mem.byte (fallingAttic.performRoom 0 0 { cellar := false, off := 0 } labelOnly).mem.attic 65 ≠ Mem.byte fallingAttic.mem.attic 65 := by
    decide +kernel
  exact hlost (hkeeps 65 (fun i hi => by simp only [atticKey]; omega) nofun)

end Sys2Proof.Machine
end

section
/-! PROOFS. Key sets that are deactivated and twiddle sets that are rewritten (R90, R91, R93): how a command in a RUNNING slot ends or goes on waiting, and the
statement about them. -/

namespace Sys2Proof.Machine

/-! ## Commands in a RUNNING slot -/

section Runs
variable {s t : State} {f k op : Nat} (h : s.runs f k op)
include h

/-- A slot that runs a command is the one that a row of the command acts on (R322). -/
theorem State.running_isOp_of_runs : ((s.fn f).slot k).state = .running ∧ isOp op (s.cmd f k) = true := by
  obtain ⟨hrun, hop⟩ := h
  exact ⟨hrun, beq_iff_eq.mpr hop⟩

theorem State.runCmd_of_waits {body : Req → CmdEnd} (hbody : body (s.cmd f k) = .waits t) : s.runCmd f k (isOp op) body = t := by
  obtain ⟨hrun, hop⟩ := State.running_isOp_of_runs h
  unfold State.cmd at hbody hop
  simp [State.runCmd, hrun, hop, hbody]

theorem State.runCmd_of_ok {body : Req → CmdEnd} {resp : List Byte} (hbody : body (s.cmd f k) = .ok t resp) :
    s.runCmd f k (isOp op) body = t.endCmd f k 0 0 0 resp := by
  obtain ⟨hrun, hop⟩ := State.running_isOp_of_runs h
  unfold State.cmd at hbody hop
  simp [State.runCmd, hrun, hop, hbody, CmdEnd.ok, stOk]

end Runs

/-- A command that waited ends in the slot that still runs it (R322). -/
theorem State.endWaiting_of_running {s : State} {f k : Nat} {want : Req → Bool} (hrun : ((s.fn f).slot k).state = .running) (hwant : want (s.cmd f k) = true)
    (status progress total : Nat) (resp : List Byte) :
    s.endWaiting f k want status progress total resp = s.endCmd f k status progress total resp := by
  unfold State.cmd at hwant
  simp [State.endWaiting, hrun, hwant]

/-! ## KEYSET_DEACTIVATE -/

section Deactivate
variable {s : State} {f : FnId} {k : SlotId} {ks : KeySet} (hruns : s.runs f k 0x0203)
  (hks : (s.part (f.val - 1)).keyset ((s.cmd f k).field 0 2) = some ks)
include hruns hks

theorem exec_keysetDeactivate_waiting (hwait : ks.deactivate.isSome = true) : exec (.keysetDeactivate f k) s = .next s :=
  congrArg _ (State.runCmd_of_waits hruns (by simp [hks, hwait]))

theorem exec_keysetDeactivate_inactive (hidle : ks.deactivate = none) (hact : ks.active = false) :
    exec (.keysetDeactivate f k) s = .next ((s.forward (f.val - 1) 0x0203 (s.cmd f k).body).endCmd f k 0 0 0 []) :=
  congrArg _ (State.runCmd_of_ok hruns (by simp [hks, hidle, hact]))

theorem exec_keysetDeactivate_active (hidle : ks.deactivate = none) (hact : ks.active = true) :
    exec (.keysetDeactivate f k) s = .next ((s.setPart (f.val - 1) ((s.part (f.val - 1)).setKeyset ((s.cmd f k).field 0 2)
      (some { ks with deactivate := some k.val }))).forward (f.val - 1) 0x0203 (s.cmd f k).body) :=
  congrArg _ (State.runCmd_of_waits hruns (by simp [hks, hidle, hact]))

end Deactivate

/-! ## KEYSET_DEACTIVATION_EFFECT -/

section Effect
variable {s : State} {p : PartId} {id : Nat} {k : SlotId} {ks : KeySet} (hks : (s.part p).keyset id = some ks) (hwait : ks.deactivate = some k.val)
include hks hwait

theorem exec_keysetDeactivationEffect_used (hused : (s.part p).rooms.any (fun r => (s.room r).blockUses id) = true) :
    exec (.keysetDeactivationEffect p id) s = .next s := by
  change execKeysetDeactivationEffect p id s = _
  simp only [execKeysetDeactivationEffect, hks, hwait, hused, if_true]

theorem exec_keysetDeactivationEffect_unused (hfree : (s.part p).rooms.any (fun r => (s.room r).blockUses id) = false)
    (hruns : s.runs (p.val + 1) k 0x0203) (hid : (s.cmd (p.val + 1) k).field 0 2 = id) :
    exec (.keysetDeactivationEffect p id) s =
      .next ((s.setPart p ((s.part p).setKeyset id (some { ks with active := false, deactivate := none }))).endCmd (p.val + 1) k 0 0 0 []) := by
  obtain ⟨hrun, hop⟩ := State.running_isOp_of_runs hruns
  change execKeysetDeactivationEffect p id s = _
  simp only [execKeysetDeactivationEffect, hks, hwait, hfree, Bool.false_eq_true, if_false]
  have hwant : (isOp 0x0203 (s.cmd (p.val + 1) k) && (s.cmd (p.val + 1) k).field 0 2 == id) = true := by
    rw [hop, hid, beq_self_eq_true, Bool.and_self]
  exact congrArg _ (State.endWaiting_of_running (s := s.setPart p _) (want := fun q => isOp 0x0203 q && q.field 0 2 == id) hrun hwant ..)

end Effect

/-! ## TWIDDLE_SET_REWRITE -/

section Twiddle
variable {s : State} {r : RoomId} {id prime : Nat} (hbad : (id, prime) ∈ (s.room r).badTwiddle)
include hbad

theorem exec_twiddleSetRewrite :
    exec (.twiddleSetRewrite r ⟨id, prime⟩) s =
      .next (s.setRoom r { s.room r with badTwiddle := (s.room r).badTwiddle.filter (· != (id, prime)) }) := by
  change execTwiddleSetRewrite r ⟨id, prime⟩ s = _
  simp [execTwiddleSetRewrite, hbad]

/-- An invalid set holds nothing (R93). -/
theorem State.twiddleStore_of_bad (p : Nat) : s.twiddleStore p r id prime = none := by
  unfold State.twiddleStore
  cases (s.part p).keyset id with
  | none => rfl
  | some ks => simp [hbad]

end Twiddle

/-- A valid set of an active key set holds the words of its prime (R90). -/
theorem State.twiddleStore_of_valid {s : State} {p room id prime : Nat} {ks : KeySet} {m : Modulus} (hks : (s.part p).keyset id = some ks)
    (hact : ks.active = true) (hprime : ks.setPrime prime = some m) (hgood : (id, prime) ∉ (s.room room).badTwiddle) :
    s.twiddleStore p room id prime = some (twiddleSet m ks.logN) := by
  simp [State.twiddleStore, hks, hact, hprime, hgood]

/-- Settles O22: the request by what the key set's entry holds, its effect by whether a block in flight uses the set, and the rewritten set by the list of the
invalid ones. -/
theorem deactivationWaitsForBlocks : Obligations.DeactivationWaitsForBlocks := by
  refine ⟨fun s f k ks hruns hks => ⟨fun hact hidle => ?_, fun hact hidle => ?_, fun hwait => ?_⟩, fun s p id k ks hks hwait => ⟨fun hused => ?_, ?_⟩,
    fun s r id prime hbad => ⟨_, exec_twiddleSetRewrite hbad, rfl, fun p ks m hks hact hprime => ⟨?_, ?_⟩⟩⟩
  · exact exec_keysetDeactivate_active hruns hks hidle hact
  · exact exec_keysetDeactivate_inactive hruns hks hidle hact
  · exact exec_keysetDeactivate_waiting hruns hks hwait
  · exact exec_keysetDeactivationEffect_used hks hwait hused
  · exact exec_keysetDeactivationEffect_unused hks hwait
  · exact State.twiddleStore_of_bad hbad p
  · refine State.twiddleStore_of_valid hks hact hprime ?_
    rw [State.room_setRoom_same]
    simp

end Sys2Proof.Machine
end

section
/-! PROOFS. A requester's write to a stack (R230, R231, R262), line by line: what it changes of the memory, and that it depends on the memory and the stacks alone. -/

namespace Sys2Proof.Machine

/-! ## One line -/

/-- A write with its `data` at `off` of a stack after one more of its lines (R230): a line wholly covered is written, another is merged, and one that is lost or
reads an uncorrectable burst fails. -/
def State.lineWrite (r off : Nat) (data : List Byte) (a : State × Bool) (l : Nat) : State × Bool :=
  let lo := max off (l * 128)
  let hi := min (off + data.length) (l * 128 + 128)
  let part := (data.drop (lo - off)).take (hi - lo)
  let x := a.1.stack r
  if !a.2 then a
  else if lo = l * 128 && hi = l * 128 + 128 then
    ((a.1.setStack r { x with
        lost := x.lost.filter (· != l)
        counters := { x.counters with linesWr := x.counters.linesWr + 1 } }).writeCellar r lo part, a.2)
  else if a.1.lineLost r lo then (a.1, false)
  else
    let bs := mergeBursts lo (hi - lo) l
    let s1 := a.1.mergeRead r bs
    if bs.any (a.1.burstBad r) then (s1, false)
    else (s1.mergeWrite r l (spliced (s1.readCellar r (l * 128) 128) (lo - l * 128) part), a.2)

theorem State.cellarWrite_eq_foldl (s : State) (r off : Nat) (data : List Byte) :
    s.cellarWrite r off data = (linesOf off data.length).foldl (State.lineWrite r off data) (s, true) := rfl

/-- The part of a write's data that falls in a line. -/
def linePart (off : Nat) (data : List Byte) (l : Nat) : List Byte :=
  (data.drop (max off (l * 128) - off)).take (min (off + data.length) (l * 128 + 128) - max off (l * 128))

theorem linePart_length {off l : Nat} {data : List Byte} :
    (linePart off data l).length = min (off + data.length) (l * 128 + 128) - max off (l * 128) := by
  rw [linePart, List.length_take, List.length_drop]
  omega

theorem linePart_getD {off l : Nat} (data : List Byte) {o : Nat} (hoff : off ≤ o) (hline : l * 128 ≤ o) (hend : o < l * 128 + 128) :
    (linePart off data l).getD (o - max off (l * 128)) 0 = data.getD (o - off) 0 := by
  by_cases hin : o < off + data.length
  · have hat : max off (l * 128) - off + (o - max off (l * 128)) = o - off := by omega
    rw [linePart, List.getD_eq_getElem?_getD, List.getElem?_take_of_lt (by omega), List.getElem?_drop, hat, List.getD_eq_getElem?_getD]
  · rw [List.getD_eq_default _ _ (by rw [linePart_length]; omega), List.getD_eq_default _ _ (by omega)]

theorem spliced_length {old part : List Byte} {at_ : Nat} (h : at_ + part.length ≤ old.length) : (spliced old at_ part).length = old.length := by
  simp only [spliced, List.length_append, List.length_take, List.length_drop]
  omega

theorem spliced_getD {old part : List Byte} {at_ : Nat} (h : at_ ≤ old.length) (i : Nat) :
    (spliced old at_ part).getD i 0 = if at_ ≤ i ∧ i < at_ + part.length then part.getD (i - at_) 0 else old.getD i 0 := by
  have hlen : (old.take at_).length = at_ := by rw [List.length_take, Nat.min_eq_left h]
  rw [spliced, List.append_assoc]
  by_cases hlo : i < at_
  · rw [List.getD_append _ _ _ _ (by omega), if_neg (by omega), List.getD_eq_getElem?_getD, List.getElem?_take_of_lt hlo, List.getD_eq_getElem?_getD]
  · rw [List.getD_append_right _ _ _ _ (by omega), hlen]
    by_cases hhi : i < at_ + part.length
    · rw [List.getD_append _ _ _ _ (by omega), if_pos (by omega)]
    · have hat : at_ + part.length + (i - at_ - part.length) = i := by omega
      rw [List.getD_append_right _ _ _ _ (by omega), if_neg (by omega), List.getD_eq_getElem?_getD, List.getElem?_drop, hat, List.getD_eq_getElem?_getD]

/-- A write that has failed writes nothing more (R262). -/
theorem State.foldl_lineWrite_failed (r off : Nat) (data : List Byte) (s : State) (ls : List Nat) :
    ls.foldl (State.lineWrite r off data) (s, false) = (s, false) := by
  induction ls with
  | nil => rfl
  | cons l ls ih => exact ih

/-- What a line's write does to the cellar: nothing where it fails; else the line's part of the data is written, into the line as it was read where it is merged. -/
theorem State.lineWrite_cellar (r off : Nat) (data : List Byte) (s : State) (l : Nat) :
    (State.lineWrite r off data (s, true) l).1.mem.cellar =
      if (State.lineWrite r off data (s, true) l).2 = false then s.mem.cellar
      else if max off (l * 128) = l * 128 ∧ min (off + data.length) (l * 128 + 128) = l * 128 + 128 then
        Mem.write s.mem.cellar (cellarKey r (max off (l * 128))) (linePart off data l)
      else Mem.write s.mem.cellar (cellarKey r (l * 128))
        (spliced (Mem.read s.mem.cellar (cellarKey r (l * 128)) 128) (max off (l * 128) - l * 128) (linePart off data l)) := by
  have hmem (bs : List Nat) : (s.mergeRead r bs).mem = s.mem := (s.counts_mergeRead r bs r).mem
  unfold State.lineWrite
  dsimp only
  rw [if_neg (by decide)]
  by_cases hwhole : max off (l * 128) = l * 128 ∧ min (off + data.length) (l * 128 + 128) = l * 128 + 128
  · rw [if_pos (by simpa using hwhole), if_pos hwhole]
    rfl
  · rw [if_neg (by simpa using hwhole), if_neg hwhole]
    split
    · rfl
    split
    · rw [hmem]
      rfl
    · rw [if_neg Bool.true_eq_false.mp]
      show Mem.write (s.mergeRead r _).mem.cellar _ (spliced (Mem.read (s.mergeRead r _).mem.cellar _ _) _ _) = _
      rw [hmem]
      rfl

theorem State.lineWrite_wf {r off : Nat} {data : List Byte} {s : State} (h : Mem.wf s.mem.cellar = true) (l : Nat) :
    Mem.wf (State.lineWrite r off data (s, true) l).1.mem.cellar = true := by
  rw [State.lineWrite_cellar]
  split_ifs
  · exact h
  · exact Mem.wf_write h _ _
  · exact Mem.wf_write h _ _

theorem cellarKey_add (r o n : Nat) : cellarKey r o + n = cellarKey r (o + n) := Nat.add_assoc ..

/-- A byte of a line that is written, in a memory in canonical form: the data within the write, and as before without. -/
theorem State.byte_lineWrite {r off : Nat} {data : List Byte} {s : State} (h : Mem.wf s.mem.cellar = true) {l : Nat} (hl : l ∈ linesOf off data.length)
    (hok : (State.lineWrite r off data (s, true) l).2 = true) (x : Nat) :
    Mem.byte (State.lineWrite r off data (s, true) l).1.mem.cellar x =
      if cellarKey r (max off (l * 128)) ≤ x ∧ x < cellarKey r (min (off + data.length) (l * 128 + 128)) then data.getD (x - cellarKey r off) 0
      else Mem.byte s.mem.cellar x := by
  obtain ⟨hlo, hhi, -⟩ := mem_linesOf.mp hl
  have hlen := linePart_length (off := off) (l := l) (data := data)
  have hdata (o : Nat) (hoff : off ≤ o) (hline : l * 128 ≤ o) (hend : o < l * 128 + 128) := linePart_getD data hoff hline hend
  rw [State.lineWrite_cellar, if_neg (by simp [hok])]
  split
  next hwhole =>
    obtain ⟨hfirst, hlast⟩ := hwhole
    rw [hfirst] at hlen hdata ⊢
    rw [hlast, Nat.add_sub_cancel_left] at hlen
    rw [hlast, Mem.byte_write, hlen, cellarKey_add]
    by_cases hin : cellarKey r (l * 128) ≤ x ∧ x < cellarKey r (l * 128 + 128)
    · obtain ⟨o, rfl⟩ : ∃ o, x = cellarKey r o := ⟨x - r * 2 ^ 36, by simp only [cellarKey] at hin ⊢; omega⟩
      rw [if_pos hin, if_pos hin]
      simp only [cellarKey, Nat.add_sub_add_left] at hin ⊢
      exact hdata o (by omega) (by omega) (by omega)
    · rw [if_neg hin, if_neg hin]
  next hpart =>
    have hread := Mem.read_length s.mem.cellar (cellarKey r (l * 128)) 128
    rw [Mem.byte_write, spliced_length (by rw [hread, hlen]; omega), hread]
    by_cases hin : cellarKey r (l * 128) ≤ x ∧ x < cellarKey r (l * 128) + 128
    · obtain ⟨o, rfl⟩ : ∃ o, x = cellarKey r o := ⟨x - r * 2 ^ 36, by simp only [cellarKey] at hin ⊢; omega⟩
      rw [if_pos hin, spliced_getD (by rw [hread]; omega), hlen]
      simp only [cellarKey, Nat.add_sub_add_left] at hin ⊢
      by_cases hdat : max off (l * 128) ≤ o ∧ o < min (off + data.length) (l * 128 + 128)
      · have hat : o - l * 128 - (max off (l * 128) - l * 128) = o - max off (l * 128) := by omega
        rw [if_pos (by omega), if_pos (by omega), hat, hdata o (by omega) (by omega) (by omega)]
      · have hat : r * 2 ^ 36 + l * 128 + (o - l * 128) = r * 2 ^ 36 + o := by omega
        rw [if_neg (by omega), if_neg (by omega), Mem.read_getD h _ (by omega), hat]
    · rw [if_neg hin, if_neg (by simp only [cellarKey] at hin ⊢; omega)]

/-! ## The whole write -/

/-- A write of lines one after another, in a memory in canonical form: no byte without the write changes, and once it has written every line, each byte of it
that lies in one of them holds the data. -/
theorem State.foldl_lineWrite_bytes {r off : Nat} {data : List Byte} {ls : List Nat} (hls : ls ⊆ linesOf off data.length) {s : State}
    (h : Mem.wf s.mem.cellar = true) :
    (∀ x, ¬ (cellarKey r off ≤ x ∧ x < cellarKey r (off + data.length)) →
      Mem.byte (ls.foldl (State.lineWrite r off data) (s, true)).1.mem.cellar x = Mem.byte s.mem.cellar x) ∧
    ((ls.foldl (State.lineWrite r off data) (s, true)).2 = true → ∀ x,
      Mem.byte (ls.foldl (State.lineWrite r off data) (s, true)).1.mem.cellar x =
        if cellarKey r off ≤ x ∧ x < cellarKey r (off + data.length) ∧ ∃ l, l ∈ ls ∧ cellarKey r (l * 128) ≤ x ∧ x < cellarKey r (l * 128 + 128) then
          data.getD (x - cellarKey r off) 0
        else Mem.byte s.mem.cellar x) := by
  induction ls generalizing s with
  | nil => simp
  | cons l ls ih =>
    obtain ⟨hl, hls⟩ := List.cons_subset.mp hls
    rw [List.foldl_cons]
    have hwf := State.lineWrite_wf (r := r) (off := off) (data := data) h l
    have hfail := State.lineWrite_cellar r off data s l
    have hbyte := State.byte_lineWrite (r := r) h hl
    generalize State.lineWrite r off data (s, true) l = a at hwf hfail hbyte
    obtain ⟨t, ok⟩ := a
    cases ok with
    | false =>
      rw [State.foldl_lineWrite_failed]
      exact ⟨fun x _ => congrArg (Mem.byte · x) hfail, fun h => nomatch h⟩
    | true =>
      obtain ⟨hother, hdata⟩ := ih hls hwf
      refine ⟨fun x hx => ?_, fun hok x => ?_⟩
      · rw [hother x hx, hbyte rfl, if_neg (by simp only [cellarKey] at hx ⊢; omega)]
      · have hfirst : (cellarKey r (max off (l * 128)) ≤ x ∧ x < cellarKey r (min (off + data.length) (l * 128 + 128))) ↔
            cellarKey r off ≤ x ∧ x < cellarKey r (off + data.length) ∧ cellarKey r (l * 128) ≤ x ∧ x < cellarKey r (l * 128 + 128) := by
          simp only [cellarKey]
          omega
        simp only [hdata hok, hbyte rfl, hfirst, List.mem_cons, or_and_right, exists_or, exists_eq_left, and_or_left]
        by_cases hl : cellarKey r off ≤ x ∧ x < cellarKey r (off + data.length) ∧ cellarKey r (l * 128) ≤ x ∧ x < cellarKey r (l * 128 + 128)
        · simp only [hl, true_or, if_true, ite_self, and_self]
        · simp only [hl, false_or, if_false]

theorem State.cellarWrite_byte_other {r off : Nat} {data : List Byte} {s : State} (h : Mem.wf s.mem.cellar = true) {x : Nat}
    (hx : ¬ (cellarKey r off ≤ x ∧ x < cellarKey r (off + data.length))) :
    Mem.byte (s.cellarWrite r off data).1.mem.cellar x = Mem.byte s.mem.cellar x :=
  (State.foldl_lineWrite_bytes (List.Subset.refl _) h).1 x hx

theorem State.cellarWrite_byte {r off : Nat} {data : List Byte} {s : State} (h : Mem.wf s.mem.cellar = true) (hok : (s.cellarWrite r off data).2 = true) {i : Nat}
    (hi : i < data.length) : Mem.byte (s.cellarWrite r off data).1.mem.cellar (cellarKey r (off + i)) = data.getD i 0 := by
  have hkey : cellarKey r (off + i) - cellarKey r off = i := by
    simp only [cellarKey]
    omega
  have hline : (off + i) / 128 ∈ linesOf off data.length := mem_linesOf.mpr (by omega)
  rw [State.cellarWrite_eq_foldl, (State.foldl_lineWrite_bytes (List.Subset.refl _) h).2 hok, if_pos, hkey]
  refine ⟨?_, ?_, _, hline, ?_⟩ <;> simp only [cellarKey] <;> omega

theorem State.cellarWrite_mem_attic (s : State) (r off : Nat) (data : List Byte) : (s.cellarWrite r off data).1.mem.attic = s.mem.attic := by
  have hmerge (t : State) (bs : List Nat) : (t.mergeRead r bs).mem = t.mem := (t.counts_mergeRead r bs r).mem
  refine List.foldlRecOn (motive := fun a : State × Bool => a.1.mem.attic = s.mem.attic) _ (State.lineWrite r off data) rfl (fun a ha l _ => ?_)
  unfold State.lineWrite
  dsimp only
  split_ifs
  · exact ha
  · exact ha
  · exact ha
  · rw [hmerge]
    exact ha
  · exact (congrArg Mem.attic (hmerge a.1 _)).trans ha

/-! ## What it depends on -/

/-- The state `s` with the memory and the stacks of `t`. -/
def State.withMemory (s t : State) : State := { s with mem := t.mem, hbm := t.hbm }

@[simp] theorem State.withMemory_mem (s t : State) : (s.withMemory t).mem = t.mem := rfl
@[simp] theorem State.withMemory_rooms (s t : State) : (s.withMemory t).rooms = s.rooms := rfl
@[simp] theorem State.withMemory_part (s t : State) (q : Nat) : (s.withMemory t).part q = s.part q := rfl

theorem State.mergeRead_withMemory (s t : State) (r : Nat) (bursts : List Nat) : (s.withMemory t).mergeRead r bursts = s.withMemory (t.mergeRead r bursts) := by
  unfold State.mergeRead
  split <;> rfl

/-- A line's write changes the memory and the stacks, and depends on nothing else. -/
theorem State.lineWrite_withMemory (r off : Nat) (data : List Byte) (s t : State) (ok : Bool) (l : Nat) :
    State.lineWrite r off data (s.withMemory t, ok) l =
      (s.withMemory (State.lineWrite r off data (t, ok) l).1, (State.lineWrite r off data (t, ok) l).2) := by
  have hlost (o : Nat) : (s.withMemory t).lineLost r o = t.lineLost r o := rfl
  have hbad : (s.withMemory t).burstBad r = t.burstBad r := rfl
  unfold State.lineWrite
  simp only [hlost, hbad, State.mergeRead_withMemory]
  split_ifs <;> rfl

theorem State.cellarWrite_withMemory (r off : Nat) (data : List Byte) (s t : State) :
    (s.withMemory t).cellarWrite r off data = (s.withMemory (t.cellarWrite r off data).1, (t.cellarWrite r off data).2) := by
  simp only [State.cellarWrite_eq_foldl]
  generalize true = ok
  induction linesOf off data.length generalizing t ok with
  | nil => rfl
  | cons l ls ih =>
    rw [List.foldl_cons, State.lineWrite_withMemory, ih]
    rfl

/-- A write answers the same and leaves the same memory in every state with that memory and those stacks. -/
theorem State.cellarWrite_congr {s t : State} (hmem : t.mem = s.mem) (hhbm : t.hbm = s.hbm) (r off : Nat) (data : List Byte) :
    t.cellarWrite r off data = (t.withMemory (s.cellarWrite r off data).1, (s.cellarWrite r off data).2) := by
  have h : t = t.withMemory s := by rw [State.withMemory, ← hmem, ← hhbm]
  conv_lhs => rw [h]
  exact State.cellarWrite_withMemory r off data t s

/-- A write changes the memory and the stacks alone. -/
theorem State.cellarWrite_rest (s : State) (r off : Nat) (data : List Byte) : s.withMemory (s.cellarWrite r off data).1 = (s.cellarWrite r off data).1 :=
  (congrArg Prod.fst (State.cellarWrite_congr rfl rfl r off data)).symm

end Sys2Proof.Machine
end

section
/-! PROOFS. The end of a command block (R26, R296, R298, R306, R443): what its completion record changes in a memory in canonical form, and why the statement about
blocks, tokens and jobs, which admits every memory, fails. -/

namespace Sys2Proof.Machine

/-! ## What the end of a block passes through -/

theorem State.makeSwitch_rest (s : State) {d : Nat} (h : d ≠ 1) (src : Nat) (c : Clocks) : { s.makeSwitch d src with clocks := c } = { s with clocks := c } := by
  unfold State.makeSwitch State.setSourceOf
  simp only [decide_eq_false h, Bool.false_and, Bool.false_eq_true, if_false]
  split <;> rfl

/-- The switches that wait for a boundary change the clocks alone (R479). -/
theorem State.settleClocks_rest (s : State) : s.settleClocks = { s with clocks := s.settleClocks.clocks } := by
  suffices h : { s.settleClocks with clocks := s.clocks } = s from congrArg (fun t : State => { t with clocks := s.settleClocks.clocks }) h
  unfold State.settleClocks
  split
  · rfl
  · refine List.foldlRecOn (motive := fun t : State => { t with clocks := s.clocks } = s) _ _ rfl (fun t ht d hd => ?_)
    have hlink : d ≠ 1 := by
      rintro rfl
      exact absurd hd (by decide)
    split
    · exact (t.makeSwitch_rest hlink _ s.clocks).trans ht
    · exact ht

theorem State.note_rest (s : State) (c : FaultChan) (kind : Nat) (g : Gysis) : { s.note c kind with gysis := g } = { s with gysis := g } := by
  unfold State.note State.raise
  cases c
  case room => dsimp only; split <;> rfl
  all_goals rfl

/-- Watchdog expiries held back are noted at the end of their block, and nothing else of it changes (R460). -/
theorem State.flushExpiries_rest {s : State} {r : Nat} {b : Block} (h : (s.room r).block = some b) :
    s.flushExpiries r = { s.setRoom r { s.room r with block := some { b with expiries := [] } } with gysis := (s.flushExpiries r).gysis } := by
  suffices hrest : { s.flushExpiries r with gysis := s.gysis } = s.setRoom r { s.room r with block := some { b with expiries := [] } } from
    congrArg (fun t : State => { t with gysis := (s.flushExpiries r).gysis }) hrest
  simp only [State.flushExpiries, h]
  exact List.foldlRecOn (motive := fun t : State => { t with gysis := s.gysis } = s.setRoom r { s.room r with block := some { b with expiries := [] } }) _ _ rfl
    (fun t ht _ _ => (t.note_rest _ 0 s.gysis).trans ht)

@[simp] theorem Part.passed_job (x : Part) (room : Nat) : (x.passed room).job = x.job := by
  unfold Part.passed
  split
  · dsimp only
    split <;> rfl
  · rfl

/-! ## The record of a block -/

/-- The state in which a block's record stands, and its job counts the block (R298, R306). -/
def State.withRecord (s : State) (p room : Nat) (b : Block) : State :=
  match (s.part p).job with
  | some j =>
    (s.cellarWrite room (j.recordAt room (s.room room).blockCounter)
      (completionRecord (s.room room).blockCounter room b.status b j.jobId)).1.setPart p { s.part p with job := some (j.after b) }
  | none => s

/-- A room whose block `b` has ended (R296). -/
def Room.ended (y : Room) (b : Block) (kat : Bool) : Room :=
  { y.freshChannels with
    block := none, blockDone := false, atBarrier := false, fenceWait := false, queues := [], noiseKey := none, keyHeld := false, refetch := 0
    blockCounter := y.blockCounter + BitVec.ofNat 48 b.counted, kat := kat }

/-- A block's end in order: held expiries, record, ledger, partition, room, source and boundary (R296, R298). -/
theorem State.finishBlock_eq {s : State} {p room : Nat} {b : Block} (h : (s.room room).block = some b) :
    ∃ (s2 : State) (keys : _) (pair : Pairing) (kat : Bool),
      s2 = { (s.flushExpiries room).withRecord p room b with gysis := s2.gysis } ∧
      s.finishBlock p room = (((s2.setPart p { s2.part p with blockKeys := keys, pair := pair }).setRoom room ((s2.room room).ended b kat)).raise
        (48 + room)).boundary p room := by
  unfold State.finishBlock
  simp only [h]
  refine ⟨if b.failed then State.record _ (State.failedEntry ((s.flushExpiries room).withRecord p room b) room b)
    else (s.flushExpiries room).withRecord p room b, _, _, _, ?_, rfl⟩
  split <;> rfl

theorem State.withRecord_of_none {s : State} {p : Nat} (h : (s.part p).job = none) (room : Nat) (b : Block) : s.withRecord p room b = s := by
  simp only [State.withRecord, h]

theorem State.withRecord_of_some {s : State} {p : Nat} {j : Job} (h : (s.part p).job = some j) (room : Nat) (b : Block) :
    s.withRecord p room b = (s.withMemory (s.cellarWrite room (j.recordAt room (s.room room).blockCounter)
      (completionRecord (s.room room).blockCounter room b.status b j.jobId)).1).setPart p { s.part p with job := some (j.after b) } := by
  simp only [State.withRecord, h]
  rw [State.cellarWrite_rest]

theorem State.withRecord_mem_of_some {s : State} {p : Nat} {j : Job} (h : (s.part p).job = some j) (room : Nat) (b : Block) :
    (s.withRecord p room b).mem = (s.cellarWrite room (j.recordAt room (s.room room).blockCounter)
      (completionRecord (s.room room).blockCounter room b.status b j.jobId)).1.mem := by
  rw [State.withRecord_of_some h, State.setPart_mem, State.withMemory_mem]

/-- A record changes the memory, its stack and its job (R298, R306). -/
theorem State.withRecord_rest (s : State) (p room : Nat) (b : Block) :
    (s.withRecord p room b).rooms = s.rooms ∧ ((s.withRecord p room b).part p).job = (s.part p).job.map (·.after b) ∧
      ∀ q, q ≠ p → (s.withRecord p room b).part q = s.part q := by
  cases h : (s.part p).job with
  | none => simp [State.withRecord_of_none h, h]
  | some j =>
    rw [State.withRecord_of_some h]
    refine ⟨?_, ?_, fun q hq => ?_⟩
    · rw [State.setPart_rooms, State.withMemory_rooms]
    · rw [State.part_setPart_same, Option.map_some]
    · rw [State.part_setPart, if_neg hq, State.withMemory_part]

/-- The memory after a record is the same in every state with that memory, those stacks, that job and that block counter, and for every block with those bytes. -/
theorem State.withRecord_mem_congr {s t : State} {p room : Nat} {b c : Block} (hmem : t.mem = s.mem) (hhbm : t.hbm = s.hbm)
    (hjob : (t.part p).job = (s.part p).job) (hcounter : (t.room room).blockCounter = (s.room room).blockCounter)
    (hbytes : ∀ n id, completionRecord n room c.status c id = completionRecord n room b.status b id) :
    (t.withRecord p room c).mem = (s.withRecord p room b).mem := by
  cases h : (s.part p).job with
  | none => rw [State.withRecord_of_none h, State.withRecord_of_none (hjob.trans h), hmem]
  | some j =>
    rw [State.withRecord_mem_of_some h, State.withRecord_mem_of_some (hjob.trans h), hcounter, hbytes, State.cellarWrite_congr hmem hhbm, State.withMemory_mem]

/-! ## The end of a block -/

/-- From `s` to `t` room `room` of partition `p` has ended its block `b` (R296, R298). -/
structure State.BlockEnds (s t : State) (p room : Nat) (b : Block) : Prop where
  at_ : ∃ kat, t.room room = (s.room room).ended b kat
  rooms : ∀ q, q ≠ room → t.room q = s.room q
  parts : ∀ q, q ≠ p → t.part q = s.part q
  job : (t.part p).job = (s.part p).job.map (·.after b)
  mem : t.mem = (s.withRecord p room b).mem
  source : sourceAssigned (48 + room) = true → (t.source (48 + room)).pending = true

theorem State.boundary_rest (s : State) (p room : Nat) :
    s.boundary p room = { s.setPart p ((s.part p).passed room) with clocks := (s.boundary p room).clocks } :=
  State.settleClocks_rest _

theorem State.raise_rest (s : State) (n : Nat) : s.raise n = { s with gysis := (s.raise n).gysis } := by
  unfold State.raise
  split <;> rfl

theorem State.source_raise_pending {n : Nat} (h : sourceAssigned n = true) (s : State) : ((s.raise n).source n).pending = true := by
  simp only [State.raise, h, if_true, State.source, State.setSource, Tab.get_set_same]

theorem State.finishBlock_ends {s : State} {p room : Nat} {b : Block} (h : (s.room room).block = some b) : s.BlockEnds (s.finishBlock p room) p room b := by
  obtain ⟨s2, keys, pair, kat, hrest, heq⟩ := State.finishBlock_eq (p := p) h
  have hflush := State.flushExpiries_rest h
  have hroom (q : Nat) : (s.flushExpiries room).room q = if q = room then { s.room room with block := some { b with expiries := [] } } else s.room q := by
    rw [hflush]
    exact s.room_setRoom room q _
  have hmem : (s.flushExpiries room).mem = s.mem := by rw [hflush]; rfl
  have hhbm : (s.flushExpiries room).hbm = s.hbm := by rw [hflush]; rfl
  have hpart (q : Nat) : (s.flushExpiries room).part q = s.part q := by rw [hflush]; rfl
  obtain ⟨hrooms, hjob, hparts⟩ := (s.flushExpiries room).withRecord_rest p room b
  have hroom2 (q : Nat) : s2.room q = (s.flushExpiries room).room q := by
    rw [hrest]
    exact congrArg (Tab.get {} · q) hrooms
  have hpart2 (q : Nat) : s2.part q = ((s.flushExpiries room).withRecord p room b).part q := by
    rw [hrest]
    rfl
  rw [heq, State.boundary_rest, State.raise_rest]
  refine ⟨⟨kat, ?_⟩, fun q hq => ?_, fun q hq => ?_, ?_, ?_, fun hassigned => ?_⟩
  · refine (State.room_setRoom_same ..).trans ?_
    rw [hroom2, hroom, if_pos rfl]
    rfl
  · refine (State.room_setRoom ..).trans ?_
    rw [if_neg hq]
    exact (hroom2 q).trans ((hroom q).trans (if_neg hq))
  · refine (State.part_setPart ..).trans ((if_neg hq).trans ((State.part_setPart s2 p q _).trans ((if_neg hq).trans ?_)))
    rw [hpart2, hparts q hq, hpart]
  · refine (congrArg Part.job (State.part_setPart_same ..)).trans ((Part.passed_job _ _).trans ((congrArg Part.job (State.part_setPart_same s2 p _)).trans ?_))
    rw [hpart2, hjob, hpart]
  · refine (congrArg State.mem hrest).trans (State.withRecord_mem_congr hmem hhbm (congrArg Part.job (hpart p)) ?_ (fun _ _ => rfl))
    rw [hroom, if_pos rfl]
  · exact State.source_raise_pending hassigned _

/-! ## BLOCK_COMPLETE -/

/-- The state in which a room has done its block (R296, R443): its checkpoint has entered the digest, and agreement is asked of a twin that compares. -/
def State.doneBlock (s : State) (p room : Nat) : State :=
  let t := s.digest p room 7 ((s.part p).relOf room) 0 (s.room room).checkBytes
  t.setRoom room { t.room room with
    blockDone := true, block := (t.room room).block.map (fun c => { c with agreed := !(s.part p).comparesAt }) }

theorem Block.foldl_term_rest {α : Type} (l : List α) (f : α → List Byte) (b : Block) :
    ∃ d1 d2, l.foldl (fun c q => c.term (f q)) b = { b with d1 := d1, d2 := d2 } :=
  List.foldlRecOn (motive := fun c : Block => ∃ d1 d2, c = { b with d1 := d1, d2 := d2 }) l _ ⟨_, _, rfl⟩ (fun _ ⟨_, _, hc⟩ _ _ => hc ▸ ⟨_, _, rfl⟩)

/-- A digest changes the sums of the room's block alone (R441). -/
theorem State.digest_block {s : State} {room : Nat} {b : Block} (h : (s.room room).block = some b) (p space rel off : Nat) (data : List Byte) :
    s.digest p room space rel off data = s ∨
      ∃ d1 d2, s.digest p room space rel off data = s.setRoom room { s.room room with block := some { b with d1 := d1, d2 := d2 } } := by
  simp only [State.digest, h]
  split
  · obtain ⟨d1, d2, hfold⟩ := Block.foldl_term_rest (linePieces off data.length)
      (fun q => digestTerm space rel ((off + q.1) / 128) ((off + q.1) % 128) ((data.drop q.1).take q.2)) b
    exact .inr ⟨d1, d2, by rw [hfold]⟩
  · exact .inl rfl

/-- A record that goes to the other twin changes the pairing of its partition and what has left the module (R443). -/
theorem State.sendRecord_rest (s : State) (p room : Nat) :
    s.sendRecord p room = s ∨ ∃ (g : Pairing) (e : OutEvent), s.sendRecord p room = (s.setPart p { s.part p with pair := g }).emit e := by
  unfold State.sendRecord
  split
  · dsimp only
    split
    · exact .inr ⟨_, _, rfl⟩
    · exact .inl rfl
  · exact .inl rfl

theorem State.doneBlock_rest {s : State} {room : Nat} {b : Block} (h : (s.room room).block = some b) (p : Nat) :
    ∃ d1 d2, (∀ q, (s.doneBlock p room).room q = if q = room then { s.room room with
      blockDone := true, block := some { b with d1 := d1, d2 := d2, agreed := !(s.part p).comparesAt } } else s.room q) ∧
      { s.doneBlock p room with rooms := s.rooms } = s := by
  unfold State.doneBlock
  obtain hdig | ⟨d1, d2, hdig⟩ := State.digest_block h p 7 ((s.part p).relOf room) 0 (s.room room).checkBytes
  · refine ⟨b.d1, b.d2, fun q => ?_, by rw [hdig]; rfl⟩
    simp only [hdig, h, State.room_setRoom, Option.map_some]
  · refine ⟨d1, d2, fun q => ?_, by rw [hdig]; rfl⟩
    simp only [hdig, State.room_setRoom, if_true, Option.map_some]
    split <;> rfl

/-- From `s` to `t` room `room` of partition `p` has done its block `b`, and its record has gone to the other twin (R443). -/
structure State.BlockPosted (s t : State) (p room : Nat) (b : Block) : Prop where
  at_ : ∃ d1 d2, t.room room = { s.room room with blockDone := true, block := some { b with d1 := d1, d2 := d2, agreed := !(s.part p).comparesAt } }
  rooms : ∀ q, q ≠ room → t.room q = s.room q
  part : ∃ g : Pairing, t.part p = { s.part p with pair := g }
  parts : ∀ q, q ≠ p → t.part q = s.part q
  mem : t.mem = s.mem
  hbm : t.hbm = s.hbm

theorem State.sendRecord_posted {s : State} {room : Nat} {b : Block} (h : (s.room room).block = some b) (p : Nat) :
    s.BlockPosted ((s.doneBlock p room).sendRecord p room) p room b := by
  obtain ⟨d1, d2, hroom, hrest⟩ := State.doneBlock_rest h p
  have hpart (q : Nat) : (s.doneBlock p room).part q = s.part q := (congrArg (State.part · q) hrest :)
  have hmem : (s.doneBlock p room).mem = s.mem := (congrArg State.mem hrest :)
  have hhbm : (s.doneBlock p room).hbm = s.hbm := (congrArg State.hbm hrest :)
  obtain hsend | ⟨g, e, hsend⟩ := (s.doneBlock p room).sendRecord_rest p room
  · rw [hsend]
    exact ⟨⟨d1, d2, (hroom room).trans (if_pos rfl)⟩, fun q hq => (hroom q).trans (if_neg hq), ⟨_, hpart p⟩, fun q _ => hpart q, hmem, hhbm⟩
  · rw [hsend]
    refine ⟨⟨d1, d2, (hroom room).trans (if_pos rfl)⟩, fun q hq => (hroom q).trans (if_neg hq), ⟨g, ?_⟩, fun q hq => ?_, hmem, hhbm⟩
    · rw [State.part_emit, State.part_setPart_same, hpart]
    · rw [State.part_emit, State.part_setPart, if_neg hq, hpart]

/-- A room without a descriptor left waits for none (R444). -/
theorem Room.waitsOnlyFinal_of_streamsDone {x : Room} (h : x.streamsDone = true) (dual : Bool) : x.waitsOnlyFinal dual = true := by
  refine List.all_eq_true.mpr fun c hc => ?_
  obtain ⟨hissued, hqueue⟩ := Bool.and_eq_true_iff.mp (List.all_eq_true.mp h c hc)
  rw [hqueue, List.isEmpty_iff.mp hissued]
  rfl

theorem Room.queues_of_allDone {x : Room} (h : x.allDone = true) : x.queues.any (fun e => !e.2.isEmpty) = false := by
  obtain ⟨-, hqueues⟩ := Bool.and_eq_true_iff.mp h
  refine List.any_eq_false.mpr fun e he => ?_
  simp [List.all_eq_true.mp hqueues e he]

section Complete
variable {s : State} {r : RoomId} {p : Nat} {b : Block} (hblock : (s.room r).block = some b) (howner : s.ownerOf r = some p)
  (halone : (s.part p).comparesAt = false) (hopen : (s.room r).blockDone = false) (hrun : (s.room r).brk.stopped = false)
  (hstreams : (s.room r).streamsDone = true)
  (hdone : b.failed = true ∨ b.error = none ∧ (s.room r).keyHeld = false ∧ (s.room r).fenceWait = false ∧ (s.room r).allDone = true)
include hblock howner halone hopen hrun hstreams hdone

/-- A block whose commands are complete, or that has failed, and that has no twin to wait for, posts its end and ends as soon as it may (R296, R459). -/
theorem exec_blockComplete_of_done : exec (.blockComplete r) s = .next (((s.doneBlock p r).sendRecord p r).tryFinish p r) := by
  have hleft : (!b.failed && ((s.room r).keyHeld || b.error.isSome || (s.room r).fenceWait || (s.room r).queues.any (fun e => !e.2.isEmpty))) = false := by
    obtain hfailed | ⟨herror, hkey, hfence, hall⟩ := hdone
    · simp [hfailed]
    · simp [herror, hkey, hfence, Room.queues_of_allDone hall]
  change execBlockComplete r s = _
  simp only [execBlockComplete, hblock, howner, hopen, hrun, halone, hleft, Room.waitsOnlyFinal_of_streamsDone hstreams, Bool.false_eq_true, if_false,
    Bool.not_true, Bool.or_self]
  rw [State.doneBlock, halone]

end Complete

/-- A block that may end does, unless it is an exchange block or its record waits (R233, R296, R563). -/
theorem State.tryFinish_eq {s : State} {p room : Nat} (hend : (s.room room).mayEnd = true) (hex : (s.room room).inExchange = false) :
    s.tryFinish p room = if s.recordWaits p room then s else s.finishBlock p room := by
  cases h : s.recordWaits p room <;> simp [State.tryFinish, hend, hex, h]

theorem completionRecord_length (counter : BitVec 48) (room status : Nat) (b : Block) (jobId : BitVec 32) :
    (completionRecord counter room status b jobId).length = 32 := by
  simp only [completionRecord, List.length_append, leBytes_length]

theorem State.withRecord_mem_attic (s : State) (p room : Nat) (b : Block) : (s.withRecord p room b).mem.attic = s.mem.attic := by
  cases h : (s.part p).job with
  | none => rw [State.withRecord_of_none h]
  | some j => rw [State.withRecord_mem_of_some h, State.cellarWrite_mem_attic]

theorem sourceAssigned_room : ∀ r : RoomId, sourceAssigned (48 + r) = true := by decide

theorem Job.after_failed (j : Job) {b : Block} (h : b.failed = true) : (j.after b).failed = some (j.failed.getD 6) := by
  cases hj : j.failed <;> simp [Job.after, h, hj, stFailed]

section Ends
variable {s : State} {r : RoomId} {p : Nat} {b : Block} (hblock : (s.room r).block = some b) (howner : s.ownerOf r = some p)
  (halone : (s.part p).comparesAt = false) (hopen : (s.room r).blockDone = false) (hsingle : b.exchange = false) (hrun : (s.room r).brk.stopped = false)
  (hstreams : (s.room r).streamsDone = true)
  (hdone : b.failed = true ∨ b.error = none ∧ (s.room r).keyHeld = false ∧ (s.room r).fenceWait = false ∧ (s.room r).allDone = true)
include hblock howner halone hopen hsingle hrun hstreams hdone

/-- A block of a single room that is done ends at once, unless its record waits (R233, R296). -/
theorem exec_blockComplete_single :
    ∃ t : State, s.BlockPosted t p r b ∧ exec (.blockComplete r) s = .next (if s.recordWaits p r then t else t.finishBlock p r) := by
  have hpost := State.sendRecord_posted hblock p
  refine ⟨_, hpost, ?_⟩
  rw [exec_blockComplete_of_done hblock howner halone hopen hrun hstreams hdone]
  obtain ⟨⟨d1, d2, hat⟩, -, ⟨g, hpart⟩, -, -, hhbm⟩ := hpost
  generalize (s.doneBlock p r).sendRecord p r = t at hat hpart hhbm
  have hstack : t.stack r = s.stack r := congrArg (Tab.get ({} : Stack) · r) hhbm
  have hwaits : t.recordWaits p r = s.recordWaits p r := by rw [State.recordWaits, hpart, hstack]; rfl
  rw [State.tryFinish_eq, hwaits]
  · rw [hat, halone]
    simpa [Room.mayEnd, Room.streamsDone] using hstreams
  · rw [hat]
    exact hsingle

theorem exec_blockComplete_waits (hwaits : s.recordWaits p r = true) :
    ∃ t : State, exec (.blockComplete r) s = .next t ∧ (t.room r).block.isSome = true ∧ (t.room r).blockDone = true ∧ t.mem = s.mem := by
  obtain ⟨t, ⟨⟨d1, d2, hat⟩, -, -, -, hmem, -⟩, hexec⟩ := exec_blockComplete_single hblock howner halone hopen hsingle hrun hstreams hdone
  rw [if_pos hwaits] at hexec
  exact ⟨t, hexec, by rw [hat]; rfl, by rw [hat], hmem⟩

/-- The second clause of O50 where no record waits, in a module whose memory is in canonical form, which every step keeps (State.memOk). -/
theorem exec_blockComplete_ends_of_memOk (hmemOk : s.memOk = true) (hgoes : s.recordWaits p r = false) :
    ∃ t : State, exec (.blockComplete r) s = .next t ∧ (t.room r).block = none ∧
      (t.room r).blockCounter = (s.room r).blockCounter + (if b.failed then 0 else 1) ∧ (t.room r).noiseKey = none ∧ (t.room r).queues = [] ∧
      (t.room r).tokens = (s.room r).tokens ∧ (t.source (48 + r)).pending = true ∧ (∀ q, q ≠ r.val → t.room q = s.room q) ∧
      (∀ q, q ≠ p → t.part q = s.part q) ∧ t.mem.attic = s.mem.attic ∧ ((s.part p).job = none → t.mem = s.mem) ∧
      ∀ j, (s.part p).job = some j →
        (∀ x, (∀ i, i < 32 → x ≠ cellarKey r (j.recordAt r (s.room r).blockCounter + i)) → Mem.byte t.mem.cellar x = Mem.byte s.mem.cellar x) ∧
        ((s.cellarWrite r (j.recordAt r (s.room r).blockCounter) (completionRecord (s.room r).blockCounter r b.status b j.jobId)).2 = true →
          ∀ i, i < 32 → Mem.byte t.mem.cellar (cellarKey r (j.recordAt r (s.room r).blockCounter + i)) =
            (completionRecord (s.room r).blockCounter r b.status b j.jobId).getD i 0) ∧
        (b.failed = true → ∃ k, (t.part p).job = some k ∧ k.failed = some (j.failed.getD 6)) := by
  obtain ⟨u, hpost, hexec⟩ := exec_blockComplete_single hblock howner halone hopen hsingle hrun hstreams hdone
  obtain ⟨⟨d1, d2, hat⟩, hrooms, ⟨g, hpart⟩, hparts, hmem, hhbm⟩ := hpost
  rw [hgoes, if_neg Bool.false_ne_true] at hexec
  obtain ⟨⟨kat, hend⟩, hrooms', hparts', hjob, hmem', hsource⟩ := State.finishBlock_ends (p := p) (congrArg Room.block hat)
  have hcounter : (u.room r).blockCounter = (s.room r).blockCounter := by rw [hat]
  have hkept : (u.part p).job = (s.part p).job := by rw [hpart]
  replace hmem' := hmem'.trans (State.withRecord_mem_congr (b := b) hmem hhbm hkept hcounter (fun _ _ => rfl))
  rw [hat] at hend
  obtain ⟨-, hcellar⟩ := Bool.and_eq_true_iff.mp hmemOk
  refine ⟨_, hexec, by rw [hend]; rfl, ?_, by rw [hend]; rfl, by rw [hend]; rfl, by rw [hend]; rfl, hsource (sourceAssigned_room r),
    fun q hq => (hrooms' q hq).trans (hrooms q hq), fun q hq => (hparts' q hq).trans (hparts q hq), ?_, fun hnone => ?_,
    fun j hj => ⟨fun x hx => ?_, fun hok i hi => ?_, fun hfailed => ?_⟩⟩
  · rw [hend]
    show (s.room r).blockCounter + BitVec.ofNat 48 (if b.failed then 0 else 1) = _
    cases b.failed <;> rfl
  · rw [hmem', State.withRecord_mem_attic]
  · rw [hmem', State.withRecord_of_none hnone]
  · rw [hmem', State.withRecord_mem_of_some hj]
    refine State.cellarWrite_byte_other hcellar (fun hin => hx (x - cellarKey r (j.recordAt r (s.room r).blockCounter)) ?_ ?_)
    · rw [completionRecord_length, ← cellarKey_add] at hin
      omega
    · rw [← cellarKey_add]
      omega
  · rw [hmem', State.withRecord_mem_of_some hj]
    exact State.cellarWrite_byte hcellar hok (hi.trans_eq (completionRecord_length ..).symm)
  · rw [hkept] at hjob
    exact ⟨_, hjob.trans (congrArg (Option.map _) hj), j.after_failed hfailed⟩

end Ends

/-! ## A memory out of canonical form -/

/-- A block that has failed. -/
def failedBlock : Block := { checkpoint := {}, failed := true }

/-- A job whose records stand at the start of each stack. -/
def recordingJob : Job :=
  { entryOff := 0x2000, program := 1, jobId := 77, argBase := 0, ringBase := 0, ringLog2 := 6, irq := false, stop := false, vector := 0, stopBlock := 0
    startBlocks := [], failed := none, cause := 0 }

/-- A module whose cellar cells are listed in falling order: what a run reads back of them is not what they hold one by one. -/
def fallingCellar : State :=
  { (State.reset.setPart 0 { phase := .live, rooms := [0], job := some recordingJob }).setRoom 0 { block := some failedBlock } with
    mem := { cellar := [(70, 1), (65, 2)] } }

/-- Refutes O50: its second clause admits a memory out of canonical form. A completion record is merged into its line, which is read back and written again
(State.mergeWrite), and of `fallingCellar` that read misses byte 65, so that the write clears a byte that is not the record's. -/
theorem not_blocksTokensAndJobs : ¬ Obligations.BlocksTokensAndJobs := by
  rintro ⟨-, hcomplete, -⟩
  have hblock : (fallingCellar.room (0 : RoomId)).block = some failedBlock := by decide +kernel
  have howner : fallingCellar.ownerOf (0 : RoomId) = some 0 := by decide +kernel
  have halone : (fallingCellar.part 0).comparesAt = false := by decide +kernel
  have hroom : (fallingCellar.room (0 : RoomId)).blockDone = false ∧ (fallingCellar.room (0 : RoomId)).brk.stopped = false ∧
      (fallingCellar.room (0 : RoomId)).streamsDone = true := by decide +kernel
  obtain ⟨hopen, hrun, hstreams⟩ := hroom
  obtain ⟨-, hends⟩ := hcomplete fallingCellar 0 0 failedBlock hblock howner halone hopen rfl hrun hstreams (.inl rfl)
  obtain ⟨t, hexec, -, -, -, -, -, -, -, -, -, -, hrecord⟩ := hends (by decide +kernel)
  obtain rfl := Host.Outcome.next.inj ((exec_blockComplete_of_done hblock howner halone hopen hrun hstreams (.inl rfl)).symm.trans hexec)
  have hlost : Mem.byte (((fallingCellar.doneBlock 0 (0 : RoomId)).sendRecord 0 (0 : RoomId)).tryFinish 0 (0 : RoomId)).mem.cellar 65 ≠
      Mem.byte fallingCellar.mem.cellar 65 := by decide +kernel
  obtain ⟨hkeeps, -⟩ := hrecord recordingJob (by decide +kernel)
  have hat : recordingJob.recordAt (0 : RoomId) (fallingCellar.room (0 : RoomId)).blockCounter = 0 := by decide +kernel
  refine hlost (hkeeps 65 fun i hi => ?_)
  rw [hat]
  simp only [cellarKey]
  omega

end Sys2Proof.Machine
end

section
/-! PROOFS. Keys and look-up keys that are registered, replaced and removed (R115, R121, R122, R133, R154): what a registration reads, what it leaves in its table,
how the commands end or go on waiting, and the statements about them. -/

namespace Sys2Proof.Machine

/-! ## What a registration reads -/

/-- Header copies are read from the stacks, whose counters alone change (R121, R241). -/
theorem State.headerCopies_rest (s : State) (p home : Nat) : ∃ b, (s.headerCopies p home).1 = { s with hbm := b } := by
  unfold State.headerCopies
  refine List.foldlRecOn (motive := fun a : State × Option (List (List Byte)) => ∃ b, a.1 = { s with hbm := b }) _ _ ⟨s.hbm, rfl⟩ (fun a ha r _ => ?_)
  obtain ⟨t, l⟩ := a
  obtain ⟨b, rfl⟩ := ha
  have hread (u : State) : ∃ c, (u.cellarRead r home 128).1 = { u with hbm := c } := by
    unfold State.cellarRead
    dsimp only
    split <;> exact ⟨_, rfl⟩
  obtain ⟨c, hc⟩ := hread { s with hbm := b }
  cases l with
  | none => exact ⟨b, rfl⟩
  | some l =>
    refine ⟨c, ?_⟩
    dsimp only
    split
    next u x hu => rw [← hc, hu]
    next u hu => rw [← hc, hu]

/-- A key that KEY_REGISTER accepts keeps the epoch rule, and its header is read without any change but to the stacks' counters (R121, R122). -/
theorem readKey_accepts {s t : State} {p : Nat} {busy : Bool} {q : Req} {h : KeyHdr} (hread : readKey s p busy q = (t, 0, some h)) :
    (∃ b, t = { s with hbm := b }) ∧ epochOk ((s.part p).keyAt h.index).lastEpoch h.epoch = true := by
  obtain ⟨b, hb⟩ := s.headerCopies_rest p (q.field 0 8)
  unfold readKey at hread
  dsimp only at hread
  split at hread
  · cases hread
  split at hread
  next => cases hread
  next u cs hcopies =>
    have hu : u = { s with hbm := b } := by rw [← hb, hcopies]
    split at hread
    · cases hread
    split at hread
    · cases hread
    split at hread
    · cases hread
    next hpass =>
      split at hread
      · cases hread
      split at hread
      · cases hread
      · simp only [Prod.mk.injEq, Option.some.injEq] at hread
        obtain ⟨rfl, -, rfl⟩ := hread
        simp only [Bool.or_eq_true, not_or, Bool.not_eq_true', Bool.not_eq_false] at hpass
        exact ⟨⟨b, hu⟩, hpass.2⟩

/-- A look-up key that LUT_KEY_REGISTER accepts keeps the epoch rule, and its header is read as a key's is (R154, R122). -/
theorem readLut_accepts {s t : State} {p : Nat} {busy : Bool} {q : Req} {h : LutHdr} (hread : readLut s p busy q = (t, 0, some h)) :
    (∃ b, t = { s with hbm := b }) ∧ epochOk ((s.part p).lutAt h.index).lastEpoch h.epoch = true := by
  obtain ⟨b, hb⟩ := s.headerCopies_rest p (q.field 0 8)
  unfold readLut at hread
  dsimp only at hread
  split at hread
  · cases hread
  split at hread
  next => cases hread
  next u cs hcopies =>
    have hu : u = { s with hbm := b } := by rw [← hb, hcopies]
    split at hread
    · cases hread
    split at hread
    · cases hread
    split at hread
    · cases hread
    next hpass =>
      split at hread
      · cases hread
      · simp only [Prod.mk.injEq, Option.some.injEq] at hread
        obtain ⟨rfl, -, rfl⟩ := hread
        simp only [Bool.or_eq_true, not_or, Bool.not_eq_true', Bool.not_eq_false] at hpass
        exact ⟨⟨b, hu⟩, hpass.2⟩

theorem epochOk_some {l e : BitVec 32} : epochOk (some l) e = true ↔ l.toNat < e.toNat := decide_eq_true_iff

/-! ## The tables -/

theorem Part.keyAt_setKey (x : Part) (i j : Nat) (k : KeySlot) : (x.setKey i k).keyAt j = if j = i then k else x.keyAt j := Tab.get_set _ _ _ _ _
theorem Part.lutAt_setLut (x : Part) (i j : Nat) (k : LutSlot) : (x.setLut i k).lutAt j = if j = i then k else x.lutAt j := Tab.get_set _ _ _ _ _

/-- What a leader sends its twin leaves the module; nothing in it changes (R438). -/
theorem State.forward_rest (s : State) (p op : Nat) (body : List Byte) : s.forward p op body = { s with out := (s.forward p op body).out } := by
  unfold State.forward
  dsimp only
  split <;> rfl

/-! ## Registration -/

/-- The entry of a key that is registered at its index: current, with the key that it replaces as the previous one, for whose end the slot waits (R122). -/
def KeySlot.registered (e : KeySlot) (h : KeyHdr) (busy : List Nat) (k : Nat) : KeySlot :=
  { cur := some h, prev := e.cur, waitRooms := if e.cur.isSome then busy else [], slot := if e.cur.isSome then some k else none, lastEpoch := some h.epoch }

/-- The entry of a look-up key that is registered at its index (R154, R122). -/
def LutSlot.registered (e : LutSlot) (h : LutHdr) (busy : List Nat) (k : Nat) : LutSlot :=
  { cur := some h, prev := e.cur, waitRooms := if e.cur.isSome then busy else [], slot := if e.cur.isSome then some k else none, lastEpoch := some h.epoch }

/-- The state in which a key stands registered, and a leader's twin has been told. -/
def State.withKey (s : State) (f k : Nat) (h : KeyHdr) : State :=
  (s.setPart (f - 1) ((s.part (f - 1)).setKey h.index (((s.part (f - 1)).keyAt h.index).registered h (s.busyRooms (f - 1)) k))).forward (f - 1) 0x0211
    (s.cmd f k).body

/-- The state in which a look-up key stands registered, and a leader's twin has been told. -/
def State.withLut (s : State) (f k : Nat) (h : LutHdr) : State :=
  (s.setPart (f - 1) ((s.part (f - 1)).setLut h.index (((s.part (f - 1)).lutAt h.index).registered h (s.busyRooms (f - 1)) k))).forward (f - 1) 0x0213
    (s.cmd f k).body

/-- A registration changes the key's entry, and no other of either table. -/
theorem State.withKey_spec (s : State) (f k : Nat) (h : KeyHdr) :
    (s.withKey f k h).mem = s.mem ∧ (s.withKey f k h).rooms = s.rooms ∧ (s.withKey f k h).fns = s.fns ∧
      ((s.withKey f k h).part (f - 1)).luts = (s.part (f - 1)).luts ∧
      ∀ i, ((s.withKey f k h).part (f - 1)).keyAt i =
        if i = h.index then ((s.part (f - 1)).keyAt h.index).registered h (s.busyRooms (f - 1)) k else (s.part (f - 1)).keyAt i := by
  have hpart : (s.withKey f k h).part (f - 1) =
      (s.part (f - 1)).setKey h.index (((s.part (f - 1)).keyAt h.index).registered h (s.busyRooms (f - 1)) k) := by
    rw [State.withKey, State.forward_rest]
    exact State.part_setPart_same _ _ _
  rw [hpart]
  refine ⟨?_, ?_, ?_, rfl, fun i => Part.keyAt_setKey ..⟩ <;>
  · rw [State.withKey, State.forward_rest]
    rfl

/-- A registration changes the look-up key's entry, and no other of either table. -/
theorem State.withLut_spec (s : State) (f k : Nat) (h : LutHdr) :
    (s.withLut f k h).mem = s.mem ∧ (s.withLut f k h).rooms = s.rooms ∧ (s.withLut f k h).fns = s.fns ∧
      ((s.withLut f k h).part (f - 1)).keys = (s.part (f - 1)).keys ∧
      ∀ i, ((s.withLut f k h).part (f - 1)).lutAt i =
        if i = h.index then ((s.part (f - 1)).lutAt h.index).registered h (s.busyRooms (f - 1)) k else (s.part (f - 1)).lutAt i := by
  have hpart : (s.withLut f k h).part (f - 1) =
      (s.part (f - 1)).setLut h.index (((s.part (f - 1)).lutAt h.index).registered h (s.busyRooms (f - 1)) k) := by
    rw [State.withLut, State.forward_rest]
    exact State.part_setPart_same _ _ _
  rw [hpart]
  refine ⟨?_, ?_, ?_, rfl, fun i => Part.lutAt_setLut ..⟩ <;>
  · rw [State.withLut, State.forward_rest]
    rfl

/-- KEY_REGISTER of an accepted header ends at a free index, and waits at an index in use (R122). -/
theorem exec_keyRegister_of_read {s t : State} {f : FnId} {k : SlotId} {h : KeyHdr} (hruns : s.runs f k 0x0211)
    (hpending : (s.part (f.val - 1)).keyPending k ((s.cmd f k).field 0 8) = false) (hhot : s.hotStack (f.val - 1) = false)
    (hread : readKey s (f.val - 1) false (s.cmd f k) = (t, 0, some h)) :
    exec (.keyRegister f k) s = .next (if ((s.part (f.val - 1)).keyAt h.index).cur.isSome then t.withKey f k h
      else (t.withKey f k h).endCmd f k 0 0 0 (leBytes 4 h.index ++ leBytes 4 h.epoch.toNat)) := by
  obtain ⟨⟨b, rfl⟩, -⟩ := readKey_accepts hread
  split
  next hsome =>
    refine congrArg _ (State.runCmd_of_waits hruns ?_)
    simp only [hpending, hhot, hread, Bool.or_false, Bool.false_eq_true, if_false]
    exact if_pos hsome
  next hnone =>
    refine congrArg _ (State.runCmd_of_ok hruns ?_)
    simp only [hpending, hhot, hread, Bool.or_false, Bool.false_eq_true, if_false]
    exact if_neg hnone

/-- LUT_KEY_REGISTER of an accepted header ends at a free index, and waits at an index in use (R154, R122). -/
theorem exec_lutKeyRegister_of_read {s t : State} {f : FnId} {k : SlotId} {h : LutHdr} (hruns : s.runs f k 0x0213)
    (hpending : (s.part (f.val - 1)).lutPending k ((s.cmd f k).field 0 8) = false) (hhot : s.hotStack (f.val - 1) = false)
    (hread : readLut s (f.val - 1) false (s.cmd f k) = (t, 0, some h)) :
    exec (.lutKeyRegister f k) s = .next (if ((s.part (f.val - 1)).lutAt h.index).cur.isSome then t.withLut f k h
      else (t.withLut f k h).endCmd f k 0 0 0 (leBytes 4 h.index ++ leBytes 4 h.epoch.toNat)) := by
  obtain ⟨⟨b, rfl⟩, -⟩ := readLut_accepts hread
  split
  next hsome =>
    refine congrArg _ (State.runCmd_of_waits hruns ?_)
    simp only [hpending, hhot, hread, Bool.or_false, Bool.false_eq_true, if_false]
    exact if_pos hsome
  next hnone =>
    refine congrArg _ (State.runCmd_of_ok hruns ?_)
    simp only [hpending, hhot, hread, Bool.or_false, Bool.false_eq_true, if_false]
    exact if_neg hnone

/-- Settles O23: a header that is read keeps the epoch rule; the registered key's entry by whether its index held a key. -/
theorem keysFollowTheEpochRule : Obligations.KeysFollowTheEpochRule := by
  refine ⟨fun s t p busy q h l hread hlast => ?_, fun s t p busy q h l hread hlast => ?_, fun s t f k h hruns hpending hhot hread => ?_,
    fun s t f k h hruns hpending hhot hread => ?_⟩
  · exact epochOk_some.mp (hlast ▸ (readKey_accepts hread).2)
  · exact epochOk_some.mp (hlast ▸ (readLut_accepts hread).2)
  · have hexec := exec_keyRegister_of_read hruns hpending hhot hread
    obtain ⟨⟨b, rfl⟩, -⟩ := readKey_accepts hread
    obtain ⟨hmem, hrooms, hfns, hluts, hkeys⟩ := State.withKey_spec { s with hbm := b } f k h
    have hkey := (hkeys h.index).trans (if_pos rfl)
    refine ⟨_, hmem, hrooms, hfns, congrArg KeySlot.cur hkey, congrArg KeySlot.lastEpoch hkey, hluts, fun i hi => (hkeys i).trans (if_neg hi),
      fun hfree => ?_, fun old hold => ⟨?_, (congrArg KeySlot.prev hkey).trans hold, (congrArg KeySlot.slot hkey).trans (if_pos ?_)⟩⟩
    · rw [hexec, hfree]
      rfl
    · rw [hexec, hold]
      rfl
    · exact congrArg Option.isSome hold
  · have hexec := exec_lutKeyRegister_of_read hruns hpending hhot hread
    obtain ⟨⟨b, rfl⟩, -⟩ := readLut_accepts hread
    obtain ⟨hmem, hrooms, hfns, hkeys, hluts⟩ := State.withLut_spec { s with hbm := b } f k h
    have hlut := (hluts h.index).trans (if_pos rfl)
    refine ⟨_, hmem, hrooms, hfns, congrArg LutSlot.cur hlut, congrArg LutSlot.lastEpoch hlut, hkeys, fun i hi => (hluts i).trans (if_neg hi),
      fun hfree => ?_, fun old hold => ⟨?_, (congrArg LutSlot.prev hlut).trans hold, (congrArg LutSlot.slot hlut).trans (if_pos ?_)⟩⟩
    · rw [hexec, hfree]
      rfl
    · rw [hexec, hold]
      rfl
    · exact congrArg Option.isSome hold

/-! ## Removal -/

theorem exec_keyRemove_key {s : State} {f : FnId} {k : SlotId} {h : KeyHdr} (hruns : s.runs f k 0x0212) (hkey : bitOf ((s.cmd f k).field 2 1) 0 = false)
    (hcur : ((s.part (f.val - 1)).keyAt ((s.cmd f k).field 0 2)).cur = some h) :
    exec (.keyRemove f k) s = .next ((s.setPart (f.val - 1) ((s.part (f.val - 1)).setKey ((s.cmd f k).field 0 2)
      { (s.part (f.val - 1)).keyAt ((s.cmd f k).field 0 2) with
        cur := none, prev := some h, waitRooms := s.busyRooms (f.val - 1), slot := some k.val })).forward (f.val - 1) 0x0212 (s.cmd f k).body) :=
  congrArg _ (State.runCmd_of_waits hruns (by simp [Part.removing, checkKeyRemove, hkey, hcur, stOk]))

theorem exec_keyRemove_lut {s : State} {f : FnId} {k : SlotId} {h : LutHdr} (hruns : s.runs f k 0x0212) (hlut : bitOf ((s.cmd f k).field 2 1) 0 = true)
    (hcur : ((s.part (f.val - 1)).lutAt ((s.cmd f k).field 0 2)).cur = some h) :
    exec (.keyRemove f k) s = .next ((s.setPart (f.val - 1) ((s.part (f.val - 1)).setLut ((s.cmd f k).field 0 2)
      { (s.part (f.val - 1)).lutAt ((s.cmd f k).field 0 2) with
        cur := none, prev := some h, waitRooms := s.busyRooms (f.val - 1), slot := some k.val })).forward (f.val - 1) 0x0212 (s.cmd f k).body) :=
  congrArg _ (State.runCmd_of_waits hruns (by simp [Part.removing, checkKeyRemove, hlut, hcur, stOk]))

/-! ## The end of the command that waits -/

/-- A removal that waits ends in the slot that still runs it (R122). -/
theorem State.endKeyCmd_removal {s : State} {f k i : Nat} {lut : Bool} (hruns : s.runs f k 0x0212) (hindex : (s.cmd f k).field 0 2 = i)
    (hlut : bitOf ((s.cmd f k).field 2 1) 0 = lut) : s.endKeyCmd f (some k) lut i none = s.endCmd f k 0 0 0 [] := by
  obtain ⟨hrun, hop⟩ := State.running_isOp_of_runs hruns
  unfold State.endKeyCmd
  refine State.endWaiting_of_running hrun ?_ ..
  simp [hop, hindex, hlut]

/-- A registration that waits ends with its response in the slot that still runs it (R122, R331). -/
theorem State.endKeyCmd_registration {s : State} {f k i home epoch : Nat} (hruns : s.runs f k 0x0211) (hhome : home = (s.cmd f k).field 0 8) :
    s.endKeyCmd f (some k) false i (some (home, epoch)) = s.endCmd f k 0 0 0 (leBytes 4 i ++ leBytes 4 epoch) := by
  obtain ⟨hrun, hop⟩ := State.running_isOp_of_runs hruns
  unfold State.endKeyCmd
  refine State.endWaiting_of_running hrun ?_ ..
  simpa [hhome] using hop

section Release
variable {s : State} {p : PartId} {i : Nat}

theorem exec_keyReleaseComplete_used (hused : s.prevKeyUsed p i = true) : exec (.keyReleaseComplete p false i) s = .next s := by
  change execKeyReleaseComplete p false i s = _
  simp [execKeyReleaseComplete, hused]

theorem exec_keyReleaseComplete_key {old : KeyHdr} (hprev : ((s.part p).keyAt i).prev = some old) (hunused : s.prevKeyUsed p i = false) :
    exec (.keyReleaseComplete p false i) s =
      .next ((s.setPart p ((s.part p).setKey i { (s.part p).keyAt i with prev := none, slot := none })).endKeyCmd (p.val + 1) ((s.part p).keyAt i).slot false i
        (((s.part p).keyAt i).cur.map (fun h => (h.home, h.epoch.toNat)))) := by
  change execKeyReleaseComplete p false i s = _
  simp [execKeyReleaseComplete, hprev, hunused]

theorem exec_keyReleaseComplete_lut {old : LutHdr} (hprev : ((s.part p).lutAt i).prev = some old) (hunused : s.prevLutUsed p i = false) :
    exec (.keyReleaseComplete p true i) s =
      .next ((s.setPart p ((s.part p).setLut i { (s.part p).lutAt i with prev := none, slot := none })).endKeyCmd (p.val + 1) ((s.part p).lutAt i).slot true i
        (((s.part p).lutAt i).cur.map (fun h => (h.home, h.epoch.toNat)))) := by
  change execKeyReleaseComplete p true i s = _
  simp [execKeyReleaseComplete, hprev, hunused]

end Release

/-- Settles O24: the removal of a key of either table, and the end of the command that waits by whether a room uses the previous key and what the slot runs. -/
theorem keyRemovalCompletesWhenUnused : Obligations.KeyRemovalCompletesWhenUnused := by
  refine ⟨fun s f k h hruns hkey hcur => exec_keyRemove_key hruns hkey hcur, fun s f k h hruns hlut hcur => exec_keyRemove_lut hruns hlut hcur,
    fun s p i k old hprev hslot => ⟨exec_keyReleaseComplete_used, fun hunused hruns hcur hindex hkey => ?_, fun new hunused hruns hcur hhome => ?_⟩,
    fun s p i k old hprev hslot hunused hruns hcur hindex hlut => ?_⟩
  · rw [exec_keyReleaseComplete_key hprev hunused, hslot, hcur]
    exact congrArg _ (State.endKeyCmd_removal hruns hindex hkey)
  · rw [exec_keyReleaseComplete_key hprev hunused, hslot, hcur]
    exact congrArg _ (State.endKeyCmd_registration hruns hhome)
  · rw [exec_keyReleaseComplete_lut hprev hunused, hslot, hcur]
    exact congrArg _ (State.endKeyCmd_removal hruns hindex hlut)

end Sys2Proof.Machine
end

section
/-! PROOFS. Key switches (R70, R74, R80, R101, R127, R128, R130, R139): the label of a key switch's result, what the sequencer decides on a sound operand whose entry's
key serves it, the words of the five phases, how the operation takes its entries, and the statement about them. -/

namespace Sys2Proof.Machine

/-! ## The label of the result -/

theorem Label.sized_eq (l : Label) (n : Nat) : ∃ b, l.sized n = { l with bodyBytes := b } := by
  unfold Label.sized
  split <;> exact ⟨_, rfl⟩

/-- The label that a result of two polynomials starts from is its operand's, but for POLYS, POISON, CAUSE and BODY_BYTES (R561). -/
theorem resultBase_single (l : Label) (n : Nat) : ∃ b, resultBase [l] (some 2) n = { l with polys := 2, poison := false, cause := 0, bodyBytes := b } := by
  obtain ⟨b, hb⟩ := Label.sized_eq ({ l with polys := 2, poison := false, cause := 0 } : Label) n
  refine ⟨b, Eq.trans ?_ hb⟩
  simp [resultBase, baseLabel, leadOf, LabelIn.source]

/-- A key switch's result has its operand's ring, limbs and level, two polynomials, and a check limb where its operand has one and the key set a check prime (R70, R74). -/
theorem switchLabel_shape (l : Label) (k : KeySet) (n : Nat) :
    (switchLabel l k n).logN = l.logN ∧ (switchLabel l k n).limbs = l.limbs ∧ (switchLabel l k n).level = l.level ∧ (switchLabel l k n).polys = 2 ∧
      (switchLabel l k n).check = (l.check && k.checkP.isSome) := by
  obtain ⟨b, hb⟩ := resultBase_single l n
  obtain ⟨c, hc⟩ := Label.sized_eq ({ resultBase [l] (some 2) n with check := l.check && k.checkP.isSome } : Label) n
  unfold switchLabel
  rw [hc, hb]
  exact ⟨rfl, rfl, rfl, rfl, rfl⟩

/-- The base of a key switch's label: its CHECK follows from the key set as well (R74). -/
theorem Part.checked_resultBase {x : Part} {l : Label} {k : KeySet} (hks : x.ksOf l = some k) (n : Nat) :
    x.checked (resultBase [l] (some 2) n) = ({ resultBase [l] (some 2) n with check := l.check && k.checkP.isSome } : Label).sized x.rooms.length := by
  obtain ⟨b, hb⟩ := resultBase_single l n
  simp only [Part.checked, hb, Part.keyset_of_ksOf hks, Option.any_some]

theorem switchRule_of_fits {kind : Nat} {k : KeySet} {l base : Label} (hform : l.form ≤ 1) (ht : l.form = 1 → l.t = k.t)
    (hpolys : l.polys = if kind = 0 then 3 else 2) (hactive : k.active = true)
    (hbudget : budgetCause k { base with level := l.level, scale := l.scale, noise := satNoise (max l.noise (l.g + 512) + 256), repr := true } = none) :
    switchRule kind k base [l] =
      .go { base with level := l.level, scale := l.scale, noise := satNoise (max l.noise (l.g + 512) + 256), repr := true } := by
  have hok : formOk k [0, 1] [if kind = 0 then 3 else 2] l = true := formOk_of (mem_zero_one hform) (by simp [hpolys]) ht
  simp only [switchRule, hok, Bool.not_true, Bool.false_eq_true, if_false]
  rw [Decision.active_of_active hactive, Decision.budget_of_none hbudget]

theorem copyRule_of_fits {k : KeySet} {l base : Label} (hform : l.form ≤ 1) (ht : l.form = 1 → l.t = k.t) (hpolys : l.polys = 2) :
    copyRule k base [l] = .go l := by
  have hok : formOk k [0, 1] [2] l = true := formOk_of (mem_zero_one hform) (by simp [hpolys]) ht
  simp [copyRule, hok]

/-! ## What the sequencer decides -/

section Plan
variable {s : State} {p room : Nat} {a : Place} {l : Label} {k : KeySet} (hsound : s.Sound p room [a] [l] k) (hform : l.form ≤ 1) (ht : l.form = 1 → l.t = k.t)
include hsound hform ht

/-- A sound operand whose entry's key serves it is switched, under the label of R70 (R130). -/
theorem State.switchPlan_of_served {kind code : Nat} {e : KeyEntry} {u : KeyUse} (hserved : s.Served p l kind code e u)
    (hconsumes : consumes kind (s.labelAt (s.part p) room a).ring code = true) (hpolys : l.polys = if kind = 0 then 3 else 2) (hactive : k.active = true)
    (hbudget : budgetCause k (switchLabel l k (s.part p).rooms.length) = none) (ents : List (Nat × KeyEntry)) :
    s.switchPlan p room a kind code (some e) ents = (.go (switchLabel l k (s.part p).rooms.length), some { u with ents := ents }) := by
  obtain ⟨hlab, hpoison, hks⟩ := hsound.single
  have hrule := switchRule_of_fits (base := (s.part p).checked (resultBase [l] (some 2) (s.part p).rooms.length)) hform ht hpolys hactive
    (by rw [Part.checked_resultBase hks]; exact hbudget)
  have hdec : dispatchOn (s.part p) [{ lab := l, one := true, ok := true }] ((s.part p).checked (resultBase [l] (some 2) (s.part p).rooms.length)) [0, 1]
      (fun k labs => switchRule kind k ((s.part p).checked (resultBase [l] (some 2) (s.part p).rooms.length)) labs) =
      .go (switchLabel l k (s.part p).rooms.length) := by
    rw [dispatchOn_of_clean hks hpoison (mem_zero_one hform) rfl, hrule, Part.checked_resultBase hks]
    rfl
  rw [hlab] at hconsumes
  unfold resultBase at hdec
  simp only [List.map_cons, List.map_nil] at hdec
  simp [State.switchPlan, hlab, hconsumes, hdec, Decision.go, hserved.key, hserved.matched]

/-- A rotation by g = 1 of a sound operand is a copy with its label (R101). -/
theorem State.switchPlan_of_copy {code : Nat} (hconsumes : consumes 1 (s.labelAt (s.part p) room a).ring code = false) (hpolys : l.polys = 2)
    (entry : Option KeyEntry) (ents : List (Nat × KeyEntry)) : s.switchPlan p room a 1 code entry ents = (.go l, none) := by
  obtain ⟨hlab, hpoison, hks⟩ := hsound.single
  rw [hlab] at hconsumes
  simp only [State.switchPlan, hlab, hconsumes, Bool.not_false, if_true]
  rw [dispatchOn_of_clean hks hpoison (mem_zero_one hform) rfl, copyRule_of_fits hform ht hpolys]

end Plan

/-! ## The words of the result -/

/-- A valid object of form 0 or 1 that is not poisoned has the limb of its level (R65). -/
theorem State.level_lt_limbs_of_labelAt {s : State} {x : Part} {room : Nat} {o : Place} {u : Label}
    (h : s.labelAt x room o = { lab := u, one := true, ok := true }) (hpoison : u.poison = false) (hform : u.form ≤ 1) : u.level < u.limbs := by
  simp only [State.labelAt, labelIn, LabelIn.mk.injEq] at h
  obtain ⟨hlab, hone, hok⟩ := h
  have htwo : stageTwo (s.spanBytes (o.labelSpan room)) x.rooms.length = true := by simpa [hone, hlab, hpoison] using hok
  simp only [stageTwo, hlab, hform, if_true, Bool.and_eq_true, decide_eq_true_eq] at htwo
  omega

/-- The pairs in use with their numbers. -/
theorem Label.mem_inUse_zipIdx {l : Label} (h : l.level < l.limbs) {j i : Nat} : (j, i) ∈ l.inUse.zipIdx ↔ j ∈ l.inUse ∧ i = l.useIndex j := by
  rw [List.mem_zipIdx_iff_getElem?]
  simp only [Label.inUse, Label.useIndex, List.getElem?_append, List.length_range, List.mem_append, List.mem_range]
  by_cases hi : i < l.level + 1
  · rw [if_pos hi, List.getElem?_range hi, Option.some.injEq]
    constructor
    · rintro rfl
      exact ⟨.inl hi, by rw [if_pos (by omega)]⟩
    · rintro ⟨-, hj⟩
      split at hj <;> omega
  · rw [if_neg hi]
    cases hc : l.check with
    | false =>
      simp only [Bool.false_eq_true, if_false, List.getElem?_nil, List.not_mem_nil, or_false]
      constructor
      · intro hnone
        cases hnone
      · rintro ⟨hj, rfl⟩
        rw [if_pos (by omega)] at hi
        omega
    | true =>
      simp only [if_true, List.mem_singleton, List.getElem?_singleton]
      split
      next h0 =>
        rw [Option.some.injEq]
        constructor
        · rintro rfl
          exact ⟨.inr rfl, by rw [if_neg (by omega)]; omega⟩
        · rintro ⟨hj, hij⟩
          split at hij <;> omega
      next h0 =>
        constructor
        · intro hnone
          cases hnone
        · rintro ⟨hj, hij⟩
          split at hij <;> omega

/-- The words of pair `j` and polynomial `q` of a key switch's result (R127): the accumulator of the raised digits, switched down, with what phase 5 adds. -/
def State.switchedWords (s : State) (x : Part) (k : KeySet) (u : KeyUse) (res : Label) (digits : List (List PosLimb)) (extra : Nat → Nat → List Nat) (j q : Nat) :
    List Nat :=
  List.zipWith (laneAdd (k.modAt res j))
    ((modDown u.hdr res.logN res.level res.check (if q = 0 then (s.keyProduct x u digits).1 else (s.keyProduct x u digits).2)).getD (res.useIndex j) []) (extra q j)

/-- Under a key of the object's ring the switched polynomials are those of the five phases (R127). -/
theorem State.mem_switchPolys {s : State} {x : Part} {k : KeySet} {u : KeyUse} {res : Label} (digits : List (List PosLimb)) (extra : Nat → Nat → List Nat)
    (hring : u.hdr.logN = res.logN) (hlimbs : res.level < res.limbs) (j q : Nat) (w : List Nat) :
    (j, q, w) ∈ (s.switchPolys x k u res digits (extra 0) (extra 1)).1 ↔ j ∈ res.inUse ∧ q < 2 ∧ w = s.switchedWords x k u res digits extra j q := by
  have hne : ¬ (u.hdr.logN ≠ res.logN) := not_not.mpr hring
  simp only [State.switchPolys, if_neg hne, List.map_map, List.mem_append, List.mem_map, Prod.exists, Function.comp_apply, Prod.mk.injEq, Label.mem_inUse_zipIdx hlimbs]
  constructor
  · rintro (⟨j', i, ⟨hj, rfl⟩, rfl, rfl, rfl⟩ | ⟨j', i, ⟨hj, rfl⟩, rfl, rfl, rfl⟩)
    · exact ⟨hj, by omega, rfl⟩
    · exact ⟨hj, by omega, rfl⟩
  · rintro ⟨hj, hq, rfl⟩
    obtain rfl | rfl : q = 0 ∨ q = 1 := by omega
    · exact .inl ⟨j, _, ⟨hj, rfl⟩, rfl, rfl, rfl⟩
    · exact .inr ⟨j, _, ⟨hj, rfl⟩, rfl, rfl, rfl⟩

/-- The runs of a room are the limbs of the pairs that it holds. -/
theorem mem_ownRuns_iff {x : Part} {l : Label} {room : Nat} {limbs : List (Nat × Nat × List Nat)} {e : Nat × List Nat} :
    e ∈ ownRuns x l room limbs ↔ ∃ j q w, (j, q, w) ∈ limbs ∧ ownsPair x l room j = true ∧ e = (l.limbOff x.rooms.length j q, w) := by
  simp only [ownRuns, List.mem_map, List.mem_filter, Prod.exists]
  constructor
  · rintro ⟨j, q, w, ⟨hmem, hown⟩, rfl⟩
    exact ⟨j, q, w, hmem, hown, rfl⟩
  · rintro ⟨j, q, w, hmem, hown, rfl⟩
    exact ⟨j, q, w, ⟨hmem, hown⟩, rfl⟩

/-- The raised digits of a key switch: of a hoisted rotation raised before the automorphism, else of the polynomial that is switched (R127, R137). -/
def State.switchDigits (s : State) (x : Part) (k : KeySet) (h : KeyHdr) (l : Label) (a : Place) (kind g : Nat) (hoisted check : Bool) : List (List PosLimb) :=
  if hoisted then autoDigits l.logN g (raiseDigits k h l.logN l.level check (s.coeffLimb x k l a 1))
  else raiseDigits k h l.logN l.level check (s.switchInput x k l a kind g)

/-- What phase 5 adds to polynomial `q` (R127). -/
def State.switchAddend (s : State) (x : Part) (k : KeySet) (l : Label) (a : Place) (kind g q j : Nat) : List Nat :=
  if q = 0 then s.addend0 x k l a kind g j else s.addend1 x k l a kind j

/-- A room's result of a key switch that runs under a key of the object's ring: the label decided and the words of the five phases. -/
theorem State.switchRoom_is {s : State} {p room : Nat} {a : Place} {l res : Label} {k : KeySet} {u : KeyUse} (kind code : Nat) (hoisted : Bool)
    (hlab : s.labelAt (s.part p) room a = { lab := l, one := true, ok := true }) (hring : u.hdr.logN = res.logN) (hlimbs : res.level < res.limbs)
    (hpolys : res.polys = 2) :
    (s.switchRoom p room a kind code hoisted (.go res) u k).Is (s.part p) room res
      (s.switchedWords (s.part p) k u res (s.switchDigits (s.part p) k u.hdr l a kind (galois l.logN code) hoisted res.check)
        (s.switchAddend (s.part p) k l a kind (galois l.logN code))) := by
  refine ⟨rfl, rfl, fun e => ?_⟩
  have hl : (s.labelAt (s.part p) room a).lab = l := by rw [hlab]
  unfold State.switchRoom
  dsimp only
  rw [hl, mem_ownRuns_iff]
  have hmem := State.mem_switchPolys (s := s) (x := s.part p) (k := k) (s.switchDigits (s.part p) k u.hdr l a kind (galois l.logN code) hoisted res.check)
    (s.switchAddend (s.part p) k l a kind (galois l.logN code)) hring hlimbs
  constructor
  · rintro ⟨j, q, w, hm, hown, rfl⟩
    obtain ⟨hj, hq, rfl⟩ := (hmem j q w).mp hm
    exact ⟨j, q, hj, hpolys ▸ hq, hown, rfl⟩
  · rintro ⟨j, q, hj, hq, hown, rfl⟩
    exact ⟨j, q, _, (hmem j q _).mpr ⟨hj, hpolys ▸ hq, rfl⟩, hown, rfl⟩

/-- A room's copy for a rotation by g = 1: the words of the object under its label (R101). -/
theorem State.copyRoom_is (s : State) (p room : Nat) (a : Place) (l : Label) :
    (s.copyRoom p room a (.go l)).Is (s.part p) room l (fun j q => s.limb (s.part p) l a j q) :=
  ⟨rfl, rfl, mem_ownRuns _⟩

/-! ## How the operation runs -/

theorem State.starvedAt_of_tilesThere {s : State} {p : Nat} (h : s.tilesThere p) (n : Nat → Nat) : s.starvedAt p n = false := by
  refine List.any_eq_false.mpr fun room hroom => ?_
  have hnone := h room hroom
  cases hentries : (s.room room).keyEntries with
  | nil => simp
  | cons e rest =>
    rw [hentries, List.any_cons, Bool.or_eq_false_iff] at hnone
    simp [hnone.1]

/-- The entry that a key switch takes in a room, if it takes one (R130). -/
def State.switchEntry (s : State) (p : Nat) (a : Place) (kind code room : Nat) : Option KeyEntry :=
  if consumes kind (s.labelAt (s.part p) room a).ring code then (s.room room).keyEntries.head? else none

/-- What a room decides for a key switch with its own entry. -/
def State.switchDecision (s : State) (p : Nat) (a : Place) (kind code room : Nat) : Decision × Option KeyUse :=
  s.switchPlan p room a kind code (s.switchEntry p a kind code room) (s.groupAt p a kind code 0)

/-- A room's result of a key switch. -/
def State.switchResult (s : State) (p : Nat) (a : Place) (kind code room : Nat) : RoomResult :=
  let pl := s.switchDecision p a kind code room
  match pl.1.ends, pl.2, (s.part p).ksOf (s.labelAt (s.part p) room a).lab with
  | true, _, _ => RoomResult.ofStop pl.1 [a.labelSpan room]
  | false, some u, some k => s.switchRoom p room a kind code false pl.1 u k
  | false, _, _ => s.copyRoom p room a pl.1

/-- A room takes the entry of a key switch. -/
def State.switchTakes (s : State) (p : Nat) (a : Place) (kind code room : Nat) (t : State) : State :=
  match s.switchEntry p a kind code room with
  | some e => t.consume p room e (s.room room).keyEntries.tail (s.switchDecision p a kind code room).2.isSome
  | none => t

/-- A key switch that nothing keeps waiting runs in the dispatching rooms in turn (R130, R139). -/
theorem State.switchOp_runs {s : State} {p : Nat} {dst a : Place} {kind code : Nat} (hhot : s.opHot p [dst, a] = false)
    (hsets : s.setsValid p (fun room => switchNeed (s.labelAt (s.part p) room a).lab (s.switchDecision p a kind code room)) = true)
    (hthere : s.entriesThere p (fun room => if consumes kind (s.labelAt (s.part p) room a).ring code then 1 else 0) = true) (htiles : s.tilesThere p) :
    s.switchOp p dst a kind code = s.runTaking p dst (s.switchResult p a kind code) (s.switchTakes p a kind code) (2 ^ 25) 0 := by
  have hwaits : ¬ (s.starvedAt p (fun room => if (s.switchDecision p a kind code room).2.isSome then
      if consumes kind (s.labelAt (s.part p) room a).ring code then 1 else 0 else 0) ||
      !s.setsValid p (fun room => switchNeed (s.labelAt (s.part p) room a).lab (s.switchDecision p a kind code room))) = true := by
    rw [State.starvedAt_of_tilesThere htiles, hsets]
    decide
  have hmissing : ¬ (!s.entriesThere p (fun room => if consumes kind (s.labelAt (s.part p) room a).ring code then 1 else 0)) = true := by
    rw [hthere]
    decide
  exact ((if_neg (Bool.eq_false_iff.mp hhot)).trans (if_neg hmissing)).trans (if_neg hwaits)

/-- Rooms that wait for an entry keep what they have (R460). -/
theorem State.awaitEntries_rest (s : State) (p : Nat) (n : Nat → Nat) :
    (s.awaitEntries p n).mem = s.mem ∧ ∀ r, ((s.awaitEntries p n).room r).keyEntries = (s.room r).keyEntries := by
  refine List.foldlRecOn (motive := fun t : State => t.mem = s.mem ∧ ∀ r, (t.room r).keyEntries = (s.room r).keyEntries) _ _ ⟨rfl, fun _ => rfl⟩
    (fun t ⟨hmem, hentries⟩ room _ => ?_)
  dsimp only
  split
  · split
    · exact ⟨hmem, hentries⟩
    · refine ⟨hmem, fun r => ?_⟩
      rw [← hentries, State.room_setRoom]
      split
      next h => rw [h]
      next => rfl
  · exact ⟨hmem, hentries⟩

/-- A key switch whose entry has not been read changes no memory and takes no entry (R130). -/
theorem State.switchOp_waits {s : State} {p : Nat} {dst a : Place} {kind code : Nat}
    (hmissing : s.entriesThere p (fun room => if consumes kind (s.labelAt (s.part p) room a).ring code then 1 else 0) = false) :
    (s.switchOp p dst a kind code).mem = s.mem ∧ ∀ r, ((s.switchOp p dst a kind code).room r).keyEntries = (s.room r).keyEntries := by
  have hcases : s.switchOp p dst a kind code = s ∨
      s.switchOp p dst a kind code = s.awaitEntries p (fun room => if consumes kind (s.labelAt (s.part p) room a).ring code then 1 else 0) := by
    cases hhot : s.opHot p [dst, a] with
    | true => exact .inl (if_pos hhot)
    | false => exact .inr ((if_neg (Bool.eq_false_iff.mp hhot)).trans (if_pos (by rw [hmissing]; rfl)))
  obtain h | h := hcases <;> rw [h]
  · exact ⟨rfl, fun _ => rfl⟩
  · exact s.awaitEntries_rest p _

/-- A room takes an entry for a product that runs: it leaves the list, its tiles' lane reads are done, and the block notes its key (R122, R130, R139). -/
theorem Room.takeEntry_runs (x : Room) (e : KeyEntry) (rest : List KeyEntry) :
    (x.takeEntry e rest true).keyEntries = rest ∧ (x.takeEntry e rest true).window = { x.window with read := x.window.read ++ e.ids } ∧
    ∀ b i, x.block = some b → e.key = some i → ∃ c, (x.takeEntry e rest true).block = some c ∧ c.taken = b.taken + 1 ∧ c.keysUsed = b.keysUsed ++ [i] := by
  cases hb : x.block with
  | none => simp [Room.takeEntry, hb]
  | some b => cases hi : e.key <;> simp [Room.takeEntry, hb, hi]

/-- Settles O39: the rooms' results by what each decides on its operand, and the words of the phases under the key that serves it. -/
theorem keySwitchesFollowTheFivePhases : Obligations.KeySwitchesFollowTheFivePhases := by
  refine ⟨fun s p dst a kind w c hc hhot hsets hthere htiles => ?_, fun s p dst a w c hc hmissing => ?_, Room.takeEntry_runs⟩
  · have hexec : exec c s = .next (s.switchOp p dst a kind w.toNat) := by
      obtain ⟨rfl, rfl, rfl⟩ | ⟨rfl, rfl⟩ | ⟨rfl, rfl, rfl⟩ | ⟨rfl, -⟩ := hc <;> rfl
    refine ⟨_, _, hexec.trans (congrArg _ (State.switchOp_runs hhot hsets hthere htiles)), ?_, ?_⟩
    · intro room l k e rest u hsound hentries hserved hconsumes hform ht hpolys hactive hbudget
      obtain ⟨hlab, hpoison, hks⟩ := hsound.single
      obtain ⟨hlogN, hlimbs, hlevel, htwo, -⟩ := switchLabel_shape l k (s.part p).rooms.length
      have hentry : s.switchEntry p a kind w.toNat room = some e := by simp [State.switchEntry, hconsumes, hentries]
      have hdec : s.switchDecision p a kind w.toNat room =
          (.go (switchLabel l k (s.part p).rooms.length), some { u with ents := s.groupAt p a kind w.toNat 0 }) := by
        rw [State.switchDecision, hentry]
        exact State.switchPlan_of_served hsound hform ht hserved hconsumes hpolys hactive hbudget _
      have hresult : s.switchResult p a kind w.toNat room =
          s.switchRoom p room a kind w.toNat false (.go (switchLabel l k (s.part p).rooms.length)) { u with ents := s.groupAt p a kind w.toNat 0 } k := by
        simp [State.switchResult, hdec, hlab, hks, Decision.go]
      refine ⟨fun t => ?_, ?_, ?_⟩
      · simp [State.switchTakes, hentry, hdec, hentries]
      · rw [hresult]
        rfl
      · rw [hresult]
        exact State.switchRoom_is kind w.toNat false hlab (hserved.ring.trans hlogN.symm)
          (by rw [hlevel, hlimbs]; exact State.level_lt_limbs_of_labelAt hlab hpoison hform) htwo
    · rintro room l k hsound rfl hconsumes hform ht hpolys
      have hentry : s.switchEntry p a 1 w.toNat room = none := by simp [State.switchEntry, hconsumes]
      have hdec : s.switchDecision p a 1 w.toNat room = (.go l, none) := State.switchPlan_of_copy hsound hform ht hconsumes hpolys _ _
      have hresult : s.switchResult p a 1 w.toNat room = s.copyRoom p room a (.go l) := by
        simp [State.switchResult, hdec, Decision.go]
      refine ⟨fun t => by simp [State.switchTakes, hentry], ?_, ?_, ?_⟩ <;> rw [hresult]
      · rfl
      · rfl
      · exact s.copyRoom_is p room a l
  · have hexec : exec c s = .next (s.switchOp p dst a 1 w.toNat) := by
      obtain rfl | rfl := hc <;> rfl
    exact ⟨_, hexec, State.switchOp_waits hmissing⟩

end Sys2Proof.Machine
end

section
/-! PROOFS. Groups of rotation codes and pinned keys (R101, R122, R133, R137, R138, R161, R233): the entries and the results of a hoisted group and of a
rotate-accumulate, the bytes and the list entry of a pin, and the statement about them. -/

namespace Sys2Proof.Machine

/-! ## Groups of rotation codes -/

/-- Where every entry has been read, no KEY stream reads further ones (R131). -/
theorem State.pulled_of_entriesThere {s : State} {p : Nat} {n : Nat → Nat} (h : s.entriesThere p n = true) : s.pulled p n = s := by
  refine List.foldlRecOn (motive := fun t : State => t = s) _ _ rfl (fun t ht room hroom => ?_)
  subst ht
  have hle : n room ≤ (t.room room).keyEntries.length := of_decide_eq_true (List.all_eq_true.mp h room hroom)
  dsimp only
  split
  · rfl
  · rw [Nat.sub_eq_zero_of_le hle]
    rfl

section Group
variable {s u : State} {p : PartId} {a : Place} {codes : List Word} (hmin : 1 ≤ codes.length) (hmax : codes.length ≤ 64)
  (hu : u = s.pulled p (s.groupEntries p a codes)) (hthere : u.entriesThere p (s.groupEntries p a codes) = true) (htiles : u.tilesThere p)
include hmin hmax hu hthere htiles

/-- A hoisted group that nothing keeps waiting gives its results room after room, code after code (R137). -/
theorem exec_hoistedRotate_runs {dsts : List Place} (hlen : dsts.length = codes.length) (hhot : s.opHot p (a :: dsts) = false)
    (hsets : u.setsValid p (u.hoistedNeed p a codes) = true) :
    exec (.hoistedRotate p dsts a codes) s = .next ((u.opRooms p).foldl (fun t room =>
      ((List.zip dsts (u.groupCodes p room a codes)).foldl (u.hoistedStep p room a) t).countOp room) u) := by
  have hexec : exec (.hoistedRotate p dsts a codes) s = .next (u.hoistedOp p dsts a codes) := by
    subst hu
    change execHoistedRotate p dsts a codes s = _
    have hne : codes ≠ [] := List.ne_nil_of_length_pos hmin
    simp [execHoistedRotate, hne, Nat.not_lt.mpr hmax, hlen, hhot, hthere]
  rw [hexec, State.hoistedOp, State.starvedAt_of_tilesThere htiles, hsets]
  rfl

/-- A room's result of a rotate-accumulate. -/
def State.accumulateResult (s : State) (p : Nat) (a : Place) (codes : List Word) (room : Nat) : RoomResult :=
  match (s.accumulatePlan p room a codes).1.ends, (s.part p).ksOf (s.labelAt (s.part p) room a).lab with
  | false, some k => s.accumulateRoom p room a (s.accumulatePlan p room a codes).2 (s.accumulatePlan p room a codes).1.lab k
  | _, _ => RoomResult.ofStop (s.accumulatePlan p room a codes).1 [a.labelSpan room]

/-- A room takes the entries of a rotate-accumulate. -/
def State.accumulateTakes (s : State) (p : Nat) (a : Place) (codes : List Word) (room : Nat) (t : State) : State :=
  ((s.room room).keyEntries.take (s.groupEntries p a codes room)).foldl (fun v e => v.consume p room e
    ((s.room room).keyEntries.drop (s.groupEntries p a codes room)) (!(s.accumulatePlan p room a codes).1.ends)) t

/-- A rotate-accumulate that nothing keeps waiting takes the entries of its codes and gives one result in each room (R138). -/
theorem exec_rotateAccumulate_runs {dst : Place} (hhot : s.opHot p [dst, a] = false) (hsets : u.setsValid p (u.accumulateNeed p a codes) = true) :
    exec (.rotateAccumulate p dst a codes) s =
      .next (u.runTaking p dst (u.accumulateResult p a codes) (u.accumulateTakes p a codes) (2 ^ 25) 0) := by
  have hexec : exec (.rotateAccumulate p dst a codes) s = .next (u.accumulateOp p dst a codes) := by
    subst hu
    change execRotateAccumulate p dst a codes s = _
    have hne : codes ≠ [] := List.ne_nil_of_length_pos hmin
    simp [execRotateAccumulate, hne, Nat.not_lt.mpr hmax, hhot, hthere]
  rw [hexec, State.accumulateOp, State.starvedAt_of_tilesThere htiles, hsets]
  rfl

end Group

/-- One code of a hoisted group on a sound operand whose entry's key serves it: its entry is taken and the room performs a key switch whose digits were raised
before the automorphism (R137). -/
theorem State.hoistedStep_of_served {s t : State} {p room i : Nat} {a dst : Place} {w : Word} {e : KeyEntry} {l : Label} {k : KeySet} {u : KeyUse}
    (hsound : s.Sound p room [a] [l] k) (hserved : s.Served p l 1 w.toNat e u) (hconsumes : consumes 1 (s.labelAt (s.part p) room a).ring w.toNat = true)
    (hform : l.form ≤ 1) (ht : l.form = 1 → l.t = k.t) (hpolys : l.polys = 2) (hactive : k.active = true)
    (hbudget : budgetCause k (switchLabel l k (s.part p).rooms.length) = none) :
    s.hoistedStep p room a t (dst, w, some e, i) =
      ((t.consume p room e ((s.room room).keyEntries.drop (i + 1)) true).performRoom p room dst
        (s.switchRoom p room a 1 w.toNat true (.go (switchLabel l k (s.part p).rooms.length)) { u with ents := s.entriesAt p (fun _ => some i) } k)).draw
          (2 ^ 25) := by
  obtain ⟨hlab, -, hks⟩ := hsound.single
  have hplan : s.hoistedPlan p room a (w, some e, i) =
      (.go (switchLabel l k (s.part p).rooms.length), some { u with ents := s.entriesAt p (fun _ => some i) }) :=
    State.switchPlan_of_served hsound hform ht hserved hconsumes hpolys hactive hbudget _
  simp [State.hoistedStep, hplan, hlab, hks, Decision.go]

/-! ## The label of a rotate-accumulate -/

theorem Decision.budget_of_runs {k : KeySet} {l : Label} (h : (Decision.budget k l).ends = false) : Decision.budget k l = .go l := by
  cases hcause : budgetCause k l with
  | none => exact Decision.budget_of_none hcause
  | some c => simp [Decision.budget, hcause, Decision.stop] at h

theorem Decision.active_of_runs {k : KeySet} {base : Label} {d : Decision} (h : (d.active k base).ends = false) : d.active k base = d := by
  unfold Decision.active at h ⊢
  split
  · rfl
  next hends =>
    rw [if_neg hends] at h
    cases h

/-- A key switch that its rule lets run has the label of R70. -/
theorem switchRule_of_runs {kind : Nat} {k : KeySet} {l base : Label} (h : (switchRule kind k base [l]).ends = false) :
    switchRule kind k base [l] =
      .go { base with level := l.level, scale := l.scale, noise := satNoise (max l.noise (l.g + 512) + 256), repr := true } := by
  unfold switchRule at h ⊢
  dsimp only at h ⊢
  by_cases hform : (!formOk k [0, 1] [if kind = 0 then 3 else 2] l) = true
  · rw [if_pos hform] at h
    cases h
  · rw [if_neg hform] at h ⊢
    have hbudget := Decision.active_of_runs h
    rw [hbudget] at h ⊢
    exact Decision.budget_of_runs h

/-- A rotate-accumulate that runs on a sound operand raises the NOISE of a rotation by that of the sum (R70, R138). -/
theorem State.accumulatePlan_of_runs {s : State} {p room : Nat} {a : Place} {codes : List Word} {l : Label} {k : KeySet} (hsound : s.Sound p room [a] [l] k)
    (hruns : (s.accumulatePlan p room a codes).1.ends = false) :
    (s.accumulatePlan p room a codes).1.lab = { switchLabel l k (s.part p).rooms.length with
      noise := satNoise ((switchLabel l k (s.part p).rooms.length).noise + 256 * clog2 codes.length) } := by
  obtain ⟨hlab, hpoison, hks⟩ := hsound.single
  have hdec : ∀ d, d = dispatchOn (s.part p) [{ lab := l, one := true, ok := true }] ((s.part p).checked (resultBase [l] (some 2) (s.part p).rooms.length)) [0, 1]
      (fun k labs => switchRule 1 k ((s.part p).checked (resultBase [l] (some 2) (s.part p).rooms.length)) labs) → d.ends = false →
      d.lab = switchLabel l k (s.part p).rooms.length := by
    rintro _ rfl hends
    by_cases hform : l.form ∈ [0, 1]
    · rw [dispatchOn_of_clean hks hpoison hform rfl] at hends ⊢
      rw [switchRule_of_runs hends, Part.checked_resultBase hks]
      rfl
    · have hstop : ¬ l.form = 0 ∧ ¬ l.form = 1 := by simpa using hform
      simp [dispatchOn, inputCause_of_clean hpoison, hstop, Decision.stop] at hends
  have hd := hdec _ rfl
  unfold resultBase at hd
  simp only [List.map_cons, List.map_nil] at hd
  unfold State.accumulatePlan at hruns ⊢
  simp only [hlab] at hruns ⊢
  split
  next hends =>
    rw [if_pos hends, hends] at hruns
    cases hruns
  next hends =>
    rw [if_neg hends] at hruns
    split
    next hbad =>
      rw [if_pos hbad] at hruns
      cases hruns
    next hbad =>
      rw [if_neg hbad] at hruns
      simp only [hks, hd (Bool.eq_false_iff.mpr hends)] at hruns ⊢
      rw [Decision.budget_of_runs hruns]
      rfl

/-! ## Writes of one run to several rooms -/

/-- A byte that no room's run covers is as before the runs are written. -/
theorem byte_foldl_write_other {rooms : List Nat} {off a : Nat} {data : Nat → List Byte} (m : List Host.Cell)
    (h : ∀ room i, room ∈ rooms → i < (data room).length → a ≠ atticKey room (off + i)) :
    Mem.byte (rooms.foldl (fun m room => Mem.write m (atticKey room off) (data room)) m) a = Mem.byte m a := by
  induction rooms generalizing m with
  | nil => rfl
  | cons room l ih =>
    rw [List.foldl_cons, ih _ (fun r i hr => h r i (List.mem_cons_of_mem room hr)), Mem.byte_write, if_neg]
    rintro ⟨hlo, hhi⟩
    refine h room (a - atticKey room off) List.mem_cons_self (by omega) ?_
    simp only [atticKey] at hlo hhi ⊢
    omega

/-- A byte of a room's run holds it, where the runs of the rooms stay within their attics. -/
theorem byte_foldl_write_run {rooms : List Nat} {off : Nat} {data : Nat → List Byte} (m : List Host.Cell) (hrooms : rooms.Nodup)
    (hfits : ∀ room, room ∈ rooms → off + (data room).length ≤ 2 ^ 32) {room i : Nat} (hroom : room ∈ rooms) (hi : i < (data room).length) :
    Mem.byte (rooms.foldl (fun m room => Mem.write m (atticKey room off) (data room)) m) (atticKey room (off + i)) = (data room).getD i 0 := by
  induction rooms generalizing m with
  | nil => cases hroom
  | cons r l ih =>
    obtain ⟨hr, hl⟩ := List.nodup_cons.mp hrooms
    rw [List.foldl_cons]
    obtain rfl | hroom := List.mem_cons.mp hroom
    · have hkey : atticKey room (off + i) - atticKey room off = i := by
        simp only [atticKey]
        omega
      rw [byte_foldl_write_other _ (fun q j hq hj => ?_), Mem.byte_write, if_pos, hkey]
      · simp only [atticKey]
        omega
      · have hne : q ≠ room := fun h => hr (h ▸ hq)
        have hq' := hfits q (List.mem_cons_of_mem room hq)
        have hroom' := hfits room List.mem_cons_self
        simp only [atticKey]
        omega
    · exact ih _ hl (fun q hq => hfits q (List.mem_cons_of_mem r hq)) hroom

/-! ## Pins -/

/-- From `s` to `t` what the stacks hold is as before, and so are the partitions and the functions. -/
structure State.SameStacks (s t : State) : Prop where
  cellar : t.mem.cellar = s.mem.cellar
  ecc : t.mem.ecc = s.mem.ecc
  lost : ∀ r, (t.stack r).lost = (s.stack r).lost
  parts : t.parts = s.parts
  fns : t.fns = s.fns

theorem State.SameStacks.refl (s : State) : s.SameStacks s := ⟨rfl, rfl, fun _ => rfl, rfl, rfl⟩

theorem State.SameStacks.trans {s t u : State} (h : s.SameStacks t) (h' : t.SameStacks u) : s.SameStacks u :=
  ⟨h'.cellar.trans h.cellar, h'.ecc.trans h.ecc, fun r => (h'.lost r).trans (h.lost r), h'.parts.trans h.parts, h'.fns.trans h.fns⟩

theorem State.sameStacks_setRoom (s : State) (r : Nat) (x : Room) : s.SameStacks (s.setRoom r x) := ⟨rfl, rfl, fun _ => rfl, rfl, rfl⟩

theorem State.sameStacks_setStack {s : State} {r : Nat} {x : Stack} (h : x.lost = (s.stack r).lost) : s.SameStacks (s.setStack r x) := by
  refine ⟨rfl, rfl, fun q => ?_, rfl, rfl⟩
  rw [State.stack_setStack]
  split
  next hq => rw [h, hq]
  next => rfl

/-- A read of a stack counts, and changes nothing that the stack holds (R241). -/
theorem State.sameStacks_countRead {s : State} {x : Span} (h : x.cellar = true) : s.SameStacks (s.countRead x) ∧ (s.countRead x).mem = s.mem := by
  simp only [State.countRead, h, if_true, State.countEcc]
  refine ⟨(State.sameStacks_setStack ?_).trans (State.sameStacks_setStack ?_), rfl⟩ <;> rfl

theorem State.sameStacks_putAttic (s : State) (room off : Nat) (data : List Byte) : s.SameStacks (s.putAttic room off data) := by
  have hwrite : s.SameStacks ((s.writeAttic room off data).countAtticWr room off data.length) := ⟨rfl, rfl, fun _ => rfl, rfl, rfl⟩
  obtain h | ⟨p, rel, h⟩ := s.putAttic_cases room off data
  · rwa [h]
  · rw [h]
    obtain h | ⟨x, h⟩ := State.digest_cases ((s.writeAttic room off data).countAtticWr room off data.length) p room 0 rel off data
    · rwa [h]
    · rw [h]
      exact hwrite.trans (State.sameStacks_setRoom _ _ _)

theorem State.SameStacks.spanBytes {s t : State} (h : s.SameStacks t) {x : Span} (hx : x.cellar = true) : t.spanBytes x = s.spanBytes x := by
  have hlost (r : Nat) : t.lineLost r = s.lineLost r := by
    unfold State.lineLost
    rw [h.lost]
  have hread (r : Nat) : t.readCellar r = s.readCellar r := by
    unfold State.readCellar
    rw [h.cellar]
  simp only [State.spanBytes, hx, h.lost, hlost, hread, Bool.not_true, Bool.false_eq_true, if_false]

theorem State.SameStacks.spanBad {s t : State} (h : s.SameStacks t) {x : Span} (hx : x.cellar = true) : t.spanBad x = s.spanBad x := by
  have hburst (r : Nat) : t.burstBad r = s.burstBad r := by
    unfold State.burstBad
    rw [h.ecc]
  simp only [State.spanBad, hx, State.lineLost, hburst, h.lost, if_true]

/-- A room's share of a key that it can copy: its span lies in the stack and is free of errors, and the copy lies in the attic (R133, R188). -/
structure State.CanPin (s : State) (x : Part) (room home off : Nat) (share : Nat → Nat) : Prop where
  source : (x.pinSpan room home share).outside = false
  copy : ({ x.pinSpan room home share with cellar := false, off := off } : Span).outside = false
  good : s.spanBad (x.pinSpan room home share) = false

/-- A room copies its share of a key: the bytes as the stack holds them. -/
theorem State.pinRoom_copies {s : State} {x : Part} {room home off : Nat} {share : Nat → Nat} (h : s.CanPin x room home off share) :
    s.SameStacks (s.pinRoom x room home off share) ∧ (s.pinRoom x room home off share).mem.attic =
      Mem.write s.mem.attic (atticKey room off) (s.spanBytes (x.pinSpan room home share)) := by
  obtain ⟨hcount, hmem⟩ := State.sameStacks_countRead (s := s) (x := x.pinSpan room home share) rfl
  simp only [State.pinRoom, h.source, h.copy, h.good, Bool.or_self, Bool.false_and, Bool.false_eq_true, if_false]
  refine ⟨(hcount.trans (State.sameStacks_putAttic _ _ _ _)).trans (State.sameStacks_setRoom _ _ _), ?_⟩
  rw [State.setRoom_mem, State.putAttic_attic, hmem]

/-- Rooms copy their shares of a key, one after another. -/
def State.pinRooms (s : State) (x : Part) (rooms : List Nat) (home off : Nat) (share : Nat → Nat) : State :=
  rooms.foldl (fun t room => (t.pinRoom x room home off share).countOp room) s

theorem State.pinRooms_copies {s t : State} {x : Part} {rooms : List Nat} {home off : Nat} {share : Nat → Nat} (hst : s.SameStacks t)
    (h : ∀ room, room ∈ rooms → s.CanPin x room home off share) :
    s.SameStacks (t.pinRooms x rooms home off share) ∧ (t.pinRooms x rooms home off share).mem.attic =
      rooms.foldl (fun m room => Mem.write m (atticKey room off) (s.spanBytes (x.pinSpan room home share))) t.mem.attic := by
  induction rooms generalizing t with
  | nil => exact ⟨hst, rfl⟩
  | cons room l ih =>
    obtain ⟨hroom, hl⟩ := List.forall_mem_cons.mp h
    have hcan : t.CanPin x room home off share := ⟨hroom.source, hroom.copy, (hst.spanBad rfl).trans hroom.good⟩
    obtain ⟨hsame, hattic⟩ := State.pinRoom_copies hcan
    obtain ⟨hrest, hbytes⟩ := ih ((hst.trans hsame).trans (State.sameStacks_setRoom _ room _)) hl
    refine ⟨hrest, hbytes.trans ?_⟩
    rw [List.foldl_cons, ← hst.spanBytes rfl, ← hattic]
    rfl

/-- Rooms that copy a key under one epoch make one pin. -/
theorem newPins_of_epoch (index off : Nat) (ep : BitVec 32) {rooms : List Nat} (h : rooms ≠ []) :
    newPins index off (rooms.map (fun r => (r, ep))) =
      [{ key := if index < 4096 then index else index - 4096, epoch := ep, off := off, lut := decide (4096 ≤ index), unpin := false, rooms := rooms }] := by
  have hone : (List.replicate rooms.length ep).eraseDups = [ep] := by
    obtain ⟨r, l, rfl⟩ := List.exists_cons_of_ne_nil h
    simp [List.replicate_succ, List.eraseDups_cons]
  simp [newPins, hone, List.filter_map, Function.comp_def]

/-- PIN in rooms in which the index holds one key: every room copies its share, and the pin is listed (R133). -/
theorem exec_pin_runs {s : State} {p : PartId} {i off home : Nat} {ep : BitVec 32} {share : Nat → Nat}
    (hpinned : ∀ room, room ∈ s.opRooms p → (s.part p).pinned room i = some (ep, home, share)) (hrooms : s.opRooms p ≠ []) (hhot : s.hotStack p = false) :
    exec (.pin p i off) s = .next
      (let t := s.pinRooms (s.part p) (s.opRooms p) home off share
      t.setPart p { t.part p with pins := dropPins (t.part p).pins i (s.opRooms p) ++
        [{ key := if i < 4096 then i else i - 4096, epoch := ep, off := off, lut := decide (4096 ≤ i), unpin := false, rooms := s.opRooms p }] }) := by
  have hcopies : (s.opRooms p).filterMap (fun r => ((s.part p).pinned r i).map (fun k => (r, k))) = (s.opRooms p).map (fun r => (r, ep, home, share)) := by
    rw [← List.filterMap_eq_map]
    exact List.filterMap_congr fun r hr => by simp [hpinned r hr]
  have hfold (g : State → Nat → State) (hg : ∀ t room, room ∈ s.opRooms p → g t room = (t.pinRoom (s.part p) room home off share).countOp room) :
      (s.opRooms p).foldl g s = s.pinRooms (s.part p) (s.opRooms p) home off share := List.foldl_ext _ _ _ hg
  have hgoes : ¬ (((s.opRooms p).map (fun r => (r, ep, home, share))).isEmpty || s.hotStack p) = true := by simp [hrooms, hhot]
  change execPin p i off s = _
  simp only [execPin, hcopies]
  rw [if_neg hgoes, hfold _ (fun t room hroom => by rw [hpinned room hroom])]
  simp only [List.map_map, Function.comp_def, List.map_id', newPins_of_epoch i off ep hrooms]

/-- Settles O40: a group's results by the plan of each code, a pin by what each room copies. -/
theorem rotationGroupsAndPins : Obligations.RotationGroupsAndPins := by
  refine ⟨fun s u p dsts a codes hmin hmax hlen hhot hu hthere htiles hsets => ?_, fun s p n h => State.pulled_of_entriesThere h,
    fun s t p room i a dst w e l k u hsound hserved hconsumes hform ht hpolys hactive hbudget => ?_,
    fun s u p dst a codes hmin hmax hhot hu hthere htiles hsets => ?_, fun s p i off home ep share hpinned hrooms hnodup hhot hfits => ?_,
    fun s p room i h hi hkey => ?_, fun s p i hrooms => ⟨fun hbusy => ?_, fun hbusy => ?_⟩⟩
  · exact exec_hoistedRotate_runs hmin hmax hu hthere htiles hlen hhot hsets
  · obtain ⟨hlab, hpoison, -⟩ := hsound.single
    obtain ⟨hlogN, hlimbs, hlevel, htwo, -⟩ := switchLabel_shape l k (s.part p).rooms.length
    refine ⟨_, State.hoistedStep_of_served hsound hserved hconsumes hform ht hpolys hactive hbudget, rfl, ?_⟩
    exact State.switchRoom_is 1 w.toNat true hlab (hserved.ring.trans hlogN.symm)
      (by rw [hlevel, hlimbs]; exact State.level_lt_limbs_of_labelAt hlab hpoison hform) htwo
  · refine ⟨_, _, exec_rotateAccumulate_runs hmin hmax hu hthere htiles hhot hsets, fun room l k hsound hruns => ?_, fun room t => rfl⟩
    obtain ⟨hlab, -, hks⟩ := hsound.single
    have hresult : u.accumulateResult p a codes room =
        u.accumulateRoom p room a (u.accumulatePlan p room a codes).2 (u.accumulatePlan p room a codes).1.lab k := by
      simp [State.accumulateResult, hruns, hlab, hks]
    rw [hresult]
    exact ⟨State.accumulatePlan_of_runs hsound hruns, rfl⟩
  · have hcan (room : Nat) (hroom : room ∈ s.opRooms p) : s.CanPin (s.part p) room home off share := by
      obtain ⟨hcopy, hsource, hgood⟩ := hfits room _ hroom rfl
      exact ⟨decide_eq_false (Nat.not_lt.mpr hsource), decide_eq_false (Nat.not_lt.mpr hcopy), hgood⟩
    obtain ⟨hsame, hattic⟩ := State.pinRooms_copies (.refl s) hcan
    have hpart (q : Nat) : (s.pinRooms (s.part p) (s.opRooms p) home off share).part q = s.part q := by rw [State.part, hsame.parts]; rfl
    have hlen (room : Nat) := s.spanBytes_length ((s.part p).pinSpan room home share)
    have hspace (room : Nat) (hroom : room ∈ s.opRooms p) : off + (s.spanBytes ((s.part p).pinSpan room home share)).length ≤ 2 ^ 32 := by
      obtain ⟨hcopy, -, -⟩ := hfits room _ hroom rfl
      rw [hlen]
      exact hcopy.trans (by decide)
    refine ⟨_, exec_pin_runs hpinned hrooms hhot, ?_, hsame.cellar, hsame.fns, fun q hq => ?_, fun room n j hroom hn hj => ?_, fun r o hr ho => ?_⟩
    · rw [State.part_setPart_same, hpart]
    · rw [State.part_setPart, if_neg hq, hpart]
    · subst hn
      rw [State.setPart_mem, hattic]
      exact byte_foldl_write_run _ hnodup hspace hroom ((hlen room).symm ▸ hj)
    · rw [State.setPart_mem, hattic]
      refine byte_foldl_write_other _ fun room k hroom hk => ?_
      have hroomSpace := hspace room hroom
      have hne : r ≠ room := fun h => hr (h ▸ hroom)
      simp only [atticKey]
      omega
  · simp [Part.pinned, hi, hkey]
  · change execUnpin p i s = _
    simp [execUnpin, hrooms, hbusy]
  · change execUnpin p i s = _
    simp [execUnpin, hrooms, hbusy]

end Sys2Proof.Machine
end

section
/-! PROOFS. Stream channels and the regulator (R131, R199, R200, R230, R246, R254 to R263, R301, R444): the completion of a descriptor, what a channel that holds nothing back
leaves as it is, halts and the errors that they report, stale tags and tiles, the offered line slot, and the statement about them. -/

namespace Sys2Proof.Machine

/-! ## Channels that hold nothing back -/

section Idle
variable {s : State} {room chan : Nat}

theorem State.sendUnsent_of_sent (p : Nat) (h : ∀ i, i ∈ ((s.room room).chan chan).issued → i.unsent = []) : s.sendUnsent p room chan = s := by
  have hnone : ((s.room room).chan chan).issued.find? (fun i => !i.unsent.isEmpty) = none := List.find?_eq_none.mpr fun i hi => by simp [h i hi]
  simp [State.sendUnsent, hnone]

theorem State.resumeKey_of_fetched (p : Nat) (h : ∀ i, i ∈ ((s.room room).chan chan).issued → i.keyAt = none) : s.resumeKey p room chan = s := by
  have hnone : ((s.room room).chan chan).issued.find? (fun i => i.keyAt.isSome) = none := List.find?_eq_none.mpr fun i hi => by simp [h i hi]
  simp [State.resumeKey, hnone]

theorem State.startQueued_of_empty (p n : Nat) (h : ((s.room room).chan chan).queue = []) : State.startQueued p room chan n s = s := by
  cases n with
  | zero => rfl
  | succ n => simp [State.startQueued, h]

/-- Empty engine queues issue nothing, and without a fence that waits the room stays as it is (R299, R310). -/
theorem State.issueQueues_of_empty (hqueues : ∀ e, e ∈ (s.room room).queues → e.2 = []) (hfence : (s.room room).fenceWait = false) :
    s.issueQueues room = s := by
  have hsum : ((s.room room).queues.map (fun e => e.2.length)).sum = 0 := List.sum_eq_zero fun n hn => by
    obtain ⟨e, he, rfl⟩ := List.mem_map.mp hn
    rw [hqueues e he, List.length_nil]
  unfold State.issueQueues
  rw [hsum]
  cases s.ownerOf room <;> simp [State.issueAll, hfence]

/-- A room whose channels and queues hold nothing back goes on as it is. -/
theorem State.goOn_of_idle (hchans : ∀ c, c < 16 → ((s.room room).chan c).queue = [] ∧ ∀ i, i ∈ ((s.room room).chan c).issued → i.keyAt = none ∧ i.unsent = [])
    (hqueues : ∀ e, e ∈ (s.room room).queues → e.2 = []) (hfence : (s.room room).fenceWait = false) : s.goOn room = s := by
  unfold State.goOn
  split
  next p _ =>
    have hfold : (List.range 16).foldl (fun t c => State.startQueued p room c 4 ((t.sendUnsent p room c).resumeKey p room c)) s = s := by
      refine List.foldlRecOn (motive := fun t : State => t = s) _ _ rfl (fun t ht c hc => ?_)
      subst ht
      obtain ⟨hqueue, hissued⟩ := hchans c (List.mem_range.mp hc)
      rw [State.sendUnsent_of_sent p fun i hi => (hissued i hi).2, State.resumeKey_of_fetched p fun i hi => (hissued i hi).1,
        State.startQueued_of_empty p 4 hqueue]
    rw [hfold, State.issueQueues_of_empty hqueues hfence]
  next => rfl

end Idle

/-! ## Completion (R254) -/

/-- A room after a channel's descriptor has completed: it has left the channel, its tags are free and its token has counted. -/
def Room.completed (x : Room) (ch : Nat) (i : Issued) : Room :=
  let rest := (x.chan ch).issued.filter (fun q => q.no != i.no)
  ({ x.setChan ch { x.chan ch with issued := rest, state := if rest.isEmpty then .idle else .performing } with
    tagsInFlight := x.tagsInFlight - i.tags } : Room).signal i.desc.token

@[simp] theorem Room.signal_channels (x : Room) (tok : Nat) : (x.signal tok).channels = x.channels := by
  unfold Room.signal
  split <;> rfl

@[simp] theorem Room.signal_tagsInFlight (x : Room) (tok : Nat) : (x.signal tok).tagsInFlight = x.tagsInFlight := by
  unfold Room.signal
  split <;> rfl

theorem Room.signal_tokens_congr {x y : Room} (h : x.tokens = y.tokens) (tok : Nat) : (x.signal tok).tokens = (y.signal tok).tokens := by
  unfold Room.signal
  split <;> simp [h]

/-- A leader tells its follower of a completed write to a host or to another module (R444); nothing else of the module changes. -/
def State.echoCompleted (s : State) (r : RoomId) (ch : ChanId) (d : Desc) : State :=
  match s.ownerOf r with
  | some p =>
    let q := s.part p
    if q.isLeader && (d.isRemote || (d.isBlock && d.dstSpace == 2)) then
      s.emit (.mirror 5 q.pair.peerModule q.pair.peerPart (leBytes 1 (q.relOf r) ++ leBytes 1 ch))
    else s
  | none => s

theorem State.echoCompleted_rest (s : State) (r : RoomId) (ch : ChanId) (d : Desc) :
    s.echoCompleted r ch d = { s with out := (s.echoCompleted r ch d).out } := by
  unfold State.echoCompleted
  split
  · dsimp only
    split <;> rfl
  · rfl

theorem exec_descriptorComplete {s : State} {r : RoomId} {ch : ChanId} {i : Issued} (h : ((s.room r).chan ch).issued.find? Issued.performed = some i) :
    exec (.descriptorComplete r ch) s = .next (((s.setRoom r ((s.room r).completed ch i)).echoCompleted r ch i.desc).goOn r) := by
  change execDescriptorComplete r ch s = _
  simp only [execDescriptorComplete, h]
  rfl

/-- The state before the channels go on: the room has its descriptor completed, and nothing else but what leaves the module is new. -/
theorem State.completed_spec (s : State) (r : RoomId) (ch : ChanId) (i : Issued) :
    let t := (s.setRoom r ((s.room r).completed ch i)).echoCompleted r ch i.desc
    t.room r = (s.room r).completed ch i ∧ (∀ q, q ≠ r.val → t.room q = s.room q) ∧ t.mem = s.mem ∧ t.parts = s.parts ∧ t.fns = s.fns := by
  dsimp only
  rw [State.echoCompleted_rest]
  exact ⟨State.room_setRoom_same .., fun q hq => (State.room_setRoom ..).trans (if_neg hq), rfl, rfl, rfl⟩

/-! ## Halts (R262) -/

/-- A channel that has stopped with a cause and an address: it holds no descriptor (R262). -/
def Channel.stopped (h : Channel) (cause at_ : Nat) : Channel :=
  { h with state := .halted, issued := [], queue := [], cause := cause, failAt := at_, programFault := cause = 3 || cause = 4 }

theorem Room.fail_rest (x : Room) (e : RoomEvent) : x.fail e = { x with block := (x.fail e).block } := by
  unfold Room.fail
  split <;> rfl

theorem Room.programFault_rest (x : Room) : x.programFault = { x with block := x.programFault.block } := by
  unfold Room.programFault
  split <;> rfl

/-- What a halt changes: the channel, its room's block and counts, and the contexts that wait for acknowledgements. -/
structure State.ChannelHalts (s t : State) (r c cause at_ : Nat) : Prop where
  channels : ∀ q, (t.room r).chan q = if q = c then ((s.room r).chan c).stopped cause at_ else (s.room r).chan q
  others : ∀ q, q ≠ r → t.room q = s.room q
  parity : ∀ q, (t.room q).counters.parityErr = (s.room q).counters.parityErr
  mem : t.mem = s.mem
  hbm : t.hbm = s.hbm

/-- A room whose channel stops: its tags are stale from now on, and the halt counts (R246, R262). -/
def Room.stopChan (x : Room) (c cause at_ now : Nat) : Room :=
  let tags := ((x.chan c).issued.map (·.tags)).sum
  { x with
    channels := Tab.set {} x.channels c ((x.chan c).stopped cause at_)
    tagsInFlight := x.tagsInFlight - tags
    stale := x.stale ++ (List.range tags).map (fun _ => now)
    counters := { x.counters with halts := Tab.set 0 x.counters.halts cause (satInc (Tab.get 0 x.counters.halts cause)) } }

theorem State.room_stopChannel (s : State) (r c cause at_ q : Nat) :
    (s.stopChannel r c cause at_).room q = if q = r then (s.room r).stopChan c cause at_ s.now else s.room q := s.room_setRoom ..

theorem State.stopChannel_halts (s : State) (r c cause at_ : Nat) : s.ChannelHalts (s.stopChannel r c cause at_) r c cause at_ where
  channels q := by
    rw [State.room_stopChannel, if_pos rfl]
    exact Tab.get_set {} (s.room r).channels c q (((s.room r).chan c).stopped cause at_)
  others q hq := (s.room_stopChannel ..).trans (if_neg hq)
  parity q := by
    rw [State.room_stopChannel]
    split
    next h => subst h; rfl
    next => rfl
  mem := rfl
  hbm := rfl

/-- What the block of the halted room then learns is no part of the halt of the channel. -/
theorem State.ChannelHalts.withBlock {s t : State} {r c cause at_ : Nat} (h : s.ChannelHalts t r c cause at_) (b : Option Block) :
    s.ChannelHalts (t.setRoom r { t.room r with block := b }) r c cause at_ where
  channels q := by
    rw [State.room_setRoom_same]
    exact h.channels q
  others q hq := ((t.room_setRoom ..).trans (if_neg hq)).trans (h.others q hq)
  parity q := by
    rw [← h.parity q, State.room_setRoom]
    split
    next hq => subst hq; rfl
    next => rfl
  mem := h.mem
  hbm := h.hbm

theorem State.haltChannel_halts (s : State) (r c : Nat) (st : StreamStop) : s.ChannelHalts (s.haltChannel r c st) r c st.cause st.at_ := by
  unfold State.haltChannel
  dsimp only
  split
  · rw [Room.programFault_rest]
    exact (s.stopChannel_halts ..).withBlock _
  · rw [Room.fail_rest]
    exact (s.stopChannel_halts ..).withBlock _

theorem State.ChannelHalts.halted {s t : State} {r c cause at_ : Nat} (h : s.ChannelHalts t r c cause at_) :
    (t.room r).chan c = ((s.room r).chan c).stopped cause at_ := (h.channels c).trans (if_pos rfl)

theorem State.ChannelHalts.stack {s t : State} {r c cause at_ : Nat} (h : s.ChannelHalts t r c cause at_) (q : Nat) : t.stack q = s.stack q := by
  simp [State.stack, h.hbm]

/-! ## The error that a halt reports (R199, R230) -/

theorem Tab.mem_of_get_ne {α : Type} {d : α} {t : Tab α} {k : Nat} (h : Tab.get d t k ≠ d) : (k, Tab.get d t k) ∈ t := by
  induction t with
  | nil => exact absurd rfl h
  | cons e t ih =>
    obtain ⟨j, v⟩ := e
    simp only [Tab.get] at h ⊢
    split at h
    next hj => simp [hj]
    next hj =>
      rw [if_neg hj]
      exact List.mem_cons_of_mem _ (ih h)

/-- Errors of a span are those of memory and of the lists of lost lines. -/
theorem State.spanBad_congr {s t : State} {x : Span} (hmem : t.mem = s.mem) (hlost : (t.stack x.room).lost = (s.stack x.room).lost) :
    t.spanBad x = s.spanBad x := by
  unfold State.spanBad State.lineLost
  rw [hmem, hlost]
  rw [show t.burstBad = s.burstBad from funext fun q => funext fun off => by unfold State.burstBad; rw [hmem]]

theorem linesOf_line (l : Nat) : linesOf (l * 128) 128 = [l] := by
  have hone : (l * 128 + 128 - 1) / 128 + 1 - l * 128 / 128 = 1 := by omega
  unfold linesOf
  rw [if_neg (by decide), hone]
  simp

/-- The state in which the error that a line reports is stored (R199, R230, log 82). -/
def State.storeError (s : State) (x : Span) : State :=
  let w := (Config.openWord s.free).toNat
  if s.spanBad x then s
  else if x.cellar then { s with mem := { s.mem with ecc := Tab.set 0 s.mem.ecc (cellarKey x.room x.off / 32 + w % 4) 2 } }.draw 1
  else { s with mem := { s.mem with atticBad := Tab.set false s.mem.atticBad (atticKey x.room x.off + w % 128) true } }.draw 1

theorem State.meetError_attic (s : State) {x : Span} (h : x.cellar = false) :
    s.meetError x = (s.storeError x).setRoom x.room { (s.storeError x).room x.room with
      counters := { ((s.storeError x).room x.room).counters with parityErr := satInc ((s.storeError x).room x.room).counters.parityErr } } := by
  unfold State.meetError
  dsimp only
  rw [if_neg (by simp [h])]
  rfl

theorem State.meetError_cellar (s : State) {x : Span} (h : x.cellar = true) :
    s.meetError x = (s.storeError x).setStack x.room { (s.storeError x).stack x.room with
      counters := { ((s.storeError x).stack x.room).counters with eccUncorr := satInc ((s.storeError x).stack x.room).counters.eccUncorr } } := by
  unfold State.meetError
  dsimp only
  rw [if_pos h]
  rfl

/-- Storing an error changes no room, no stack and no byte of memory. -/
theorem State.storeError_rest (s : State) (x : Span) :
    (s.storeError x).rooms = s.rooms ∧ (s.storeError x).hbm = s.hbm ∧ (s.storeError x).mem.attic = s.mem.attic ∧ (s.storeError x).mem.cellar = s.mem.cellar := by
  unfold State.storeError
  dsimp only
  split
  · exact ⟨rfl, rfl, rfl, rfl⟩
  · split <;> exact ⟨rfl, rfl, rfl, rfl⟩

theorem State.storeError_room (s : State) (x : Span) (q : Nat) : (s.storeError x).room q = s.room q := by
  simp [State.room, (s.storeError_rest x).1]

theorem State.storeError_stack (s : State) (x : Span) (q : Nat) : (s.storeError x).stack q = s.stack q := by
  simp [State.stack, (s.storeError_rest x).2.1]

/-- The stored error lies in the line. -/
theorem State.storeError_bad (s : State) {x : Span} {l : Nat} (hoff : x.off = l * 128) (hlen : x.len = 128) : (s.storeError x).spanBad x = true := by
  unfold State.storeError
  dsimp only
  generalize (Config.openWord s.free).toNat = w
  split
  next h => exact h
  next =>
    split
    next hc =>
      have hburst : l * 128 + 32 * (w % 4) ∈ burstsOf l := by
        simp only [burstsOf, List.mem_cons]
        omega
      have hkey : cellarKey x.room (l * 128 + 32 * (w % 4)) / 32 = cellarKey x.room (l * 128) / 32 + w % 4 := by
        unfold cellarKey
        omega
      simp only [State.spanBad, hc, if_true, hoff, hlen, linesOf_line, List.any_cons, List.any_nil, Bool.or_false, Bool.or_eq_true]
      refine Or.inr (List.any_eq_true.mpr ⟨_, hburst, ?_⟩)
      simp [State.burstBad, hkey, State.draw]
    next hc =>
      have hset := Tab.get_set_same false s.mem.atticBad (atticKey x.room x.off + w % 128) true
      have hmem := Tab.mem_of_get_ne (hset.trans_ne Bool.false_ne_true.symm)
      rw [hset] at hmem
      simp only [State.spanBad, hc, Bool.false_eq_true, if_false]
      refine List.any_eq_true.mpr ⟨_, hmem, ?_⟩
      have hlt : w % 128 < 128 := Nat.mod_lt _ (by decide)
      simp [hlen, hlt]

theorem State.meetError_bytes (s : State) (x : Span) : (s.meetError x).mem.attic = s.mem.attic ∧ (s.meetError x).mem.cellar = s.mem.cellar := by
  obtain ⟨-, -, hattic, hcellar⟩ := s.storeError_rest x
  cases hc : x.cellar with
  | false => rw [s.meetError_attic hc]; exact ⟨hattic, hcellar⟩
  | true => rw [s.meetError_cellar hc]; exact ⟨hattic, hcellar⟩

theorem State.meetError_chan (s : State) (x : Span) (q c : Nat) : ((s.meetError x).room q).chan c = (s.room q).chan c := by
  cases hc : x.cellar with
  | false =>
    rw [s.meetError_attic hc, State.room_setRoom, State.storeError_room, State.storeError_room]
    split
    next hq => subst hq; rfl
    next => rfl
  | true => rw [s.meetError_cellar hc, State.room_setStack, State.storeError_room]

theorem State.meetError_bad (s : State) {x : Span} {l : Nat} (hoff : x.off = l * 128) (hlen : x.len = 128) : (s.meetError x).spanBad x = true := by
  rw [← s.storeError_bad hoff hlen]
  cases hc : x.cellar with
  | false => rw [s.meetError_attic hc]; exact State.spanBad_congr rfl rfl
  | true => rw [s.meetError_cellar hc]; exact State.spanBad_congr rfl (by rw [State.stack_setStack_same])

theorem State.meetError_parity (s : State) {x : Span} (h : x.cellar = false) :
    ((s.meetError x).room x.room).counters.parityErr = satInc (s.room x.room).counters.parityErr := by
  rw [s.meetError_attic h, State.room_setRoom_same, State.storeError_room]

theorem State.meetError_eccUncorr (s : State) {x : Span} (h : x.cellar = true) :
    ((s.meetError x).stack x.room).counters.eccUncorr = satInc (s.stack x.room).counters.eccUncorr := by
  rw [s.meetError_cellar h, State.stack_setStack_same, State.storeError_stack]

/-! ## CHANNEL_HALT and REMOTE_ACK_TIMEOUT (R262, R263) -/

/-- The halt names a line of memory in use: a parity error or an uncorrectable burst at an offset of the module. -/
def State.haltsAtLine (s : State) (r : RoomId) (d : Desc) (cause : Fin 7) (at_ : Nat) : Bool :=
  let x := s.haltSpan r d (cause.val == 2) at_
  (cause.val = 1 || cause.val = 2) && !x.outside && s.roomOk x.room

/-- The state that the channel then halts from: an error that is reported for a line is stored there and counted. -/
def State.reported (s : State) (r : RoomId) (d : Desc) (cause : Fin 7) (at_ : Nat) : State :=
  if s.haltsAtLine r d cause at_ then s.meetError (s.haltSpan r d (cause.val == 2) at_) else s

section Halt
variable {s : State} {r : RoomId} {ch : ChanId} {i : Issued} {is : List Issued}

theorem exec_channelHalt {cause : Fin 7} (at_ : Nat) (hi : ((s.room r).chan ch).issued = i :: is) (h0 : cause ≠ 0) :
    ∃ e, exec (.channelHalt r ch cause at_) s = .next ((s.reported r i.desc cause at_).haltChannel r ch ⟨cause, at_, some e⟩) := by
  have hv : cause.val ≠ 0 := fun e => h0 (Fin.ext e)
  change ∃ e, execChannelHalt r ch cause at_ s = _
  simp only [execChannelHalt, hi, hv, if_false]
  unfold State.reported State.haltsAtLine
  by_cases hline : ((cause.val = 1 || cause.val = 2) && !(s.haltSpan r i.desc (cause.val == 2) at_).outside &&
      s.roomOk (s.haltSpan r i.desc (cause.val == 2) at_).room) = true
  · exact ⟨_, by rw [if_pos hline, if_pos hline]⟩
  · exact ⟨_, by rw [if_neg hline, if_neg hline]⟩

theorem State.reported_bytes (d : Desc) (cause : Fin 7) (at_ : Nat) :
    (s.reported r d cause at_).mem.attic = s.mem.attic ∧ (s.reported r d cause at_).mem.cellar = s.mem.cellar := by
  unfold State.reported
  split
  · exact s.meetError_bytes _
  · exact ⟨rfl, rfl⟩

theorem State.reported_chan (d : Desc) (cause : Fin 7) (at_ q c : Nat) : ((s.reported r d cause at_).room q).chan c = (s.room q).chan c := by
  unfold State.reported
  split
  · exact s.meetError_chan ..
  · rfl

theorem State.reported_of_line {d : Desc} {cause : Fin 7} {at_ : Nat} (h : cause = 1 ∨ cause = 2)
    (hin : (s.haltSpan r d (cause.val == 2) at_).outside = false) (hroom : s.roomOk (s.haltSpan r d (cause.val == 2) at_).room = true) :
    s.reported r d cause at_ = s.meetError (s.haltSpan r d (cause.val == 2) at_) := by
  have hv : cause.val = 1 ∨ cause.val = 2 := h.imp (congrArg Fin.val) (congrArg Fin.val)
  exact if_pos (by simpa [State.haltsAtLine, hin, hroom] using hv)

theorem State.reported_of_other {d : Desc} {cause : Fin 7} {at_ : Nat} (h1 : cause ≠ 1) (h2 : cause ≠ 2) : s.reported r d cause at_ = s := by
  have hv1 : cause.val ≠ 1 := fun e => h1 (Fin.ext e)
  have hv2 : cause.val ≠ 2 := fun e => h2 (Fin.ext e)
  exact if_neg (by simp [State.haltsAtLine, hv1, hv2])

/-- A channel with a descriptor in progress halts with the cause and the address (R262, R263); bytes of memory stay. -/
theorem channelHalt_halts {cause : Fin 7} (at_ : Nat) (h0 : cause ≠ 0) (hissued : ((s.room r).chan ch).issued ≠ []) :
    ∃ t : State, exec (.channelHalt r ch cause at_) s = .next t ∧ ((t.room r).chan ch).state = .halted ∧ ((t.room r).chan ch).issued = [] ∧
      ((t.room r).chan ch).cause = cause.val ∧ ((t.room r).chan ch).failAt = at_ ∧ (∀ q, q ≠ ch.val → (t.room r).chan q = (s.room r).chan q) ∧
      t.mem.attic = s.mem.attic ∧ t.mem.cellar = s.mem.cellar ∧ (cause ≠ 1 → cause ≠ 2 → t.mem = s.mem ∧ ∀ q, q ≠ r.val → t.room q = s.room q) := by
  obtain ⟨i, is, hi⟩ := List.exists_cons_of_ne_nil hissued
  obtain ⟨e, he⟩ := exec_channelHalt at_ hi h0
  have hh := (s.reported r i.desc cause at_).haltChannel_halts r ch ⟨cause, at_, some e⟩
  obtain ⟨hattic, hcellar⟩ := s.reported_bytes (r := r) i.desc cause at_
  refine ⟨_, he, by rw [hh.halted]; rfl, by rw [hh.halted]; rfl, by rw [hh.halted]; rfl, by rw [hh.halted]; rfl, fun q hq => ?_,
    by rw [hh.mem, hattic], by rw [hh.mem, hcellar], fun h1 h2 => ?_⟩
  · rw [hh.channels, if_neg hq, State.reported_chan]
  · rw [State.reported_of_other h1 h2] at hh ⊢
    exact ⟨hh.mem, hh.others⟩

/-- The error that a halt reports for a line stands in the line, and counts where the line lies (R199, R230, log 82). -/
theorem channelHalt_stores {cause : Fin 7} {at_ : Nat} (h : cause = 1 ∨ cause = 2) (hi : ((s.room r).chan ch).issued = i :: is)
    (hin : (s.haltSpan r i.desc (cause.val == 2) at_).outside = false) (hroom : s.roomOk (s.haltSpan r i.desc (cause.val == 2) at_).room = true) :
    ∃ t : State, exec (.channelHalt r ch cause at_) s = .next t ∧ t.spanBad (s.haltSpan r i.desc (cause.val == 2) at_) = true ∧
      (cause = 1 → (t.room (s.haltSpan r i.desc (cause.val == 2) at_).room).counters.parityErr =
        satInc (s.room (s.haltSpan r i.desc (cause.val == 2) at_).room).counters.parityErr) ∧
      (cause = 2 → (t.stack (s.haltSpan r i.desc (cause.val == 2) at_).room).counters.eccUncorr =
        satInc (s.stack (s.haltSpan r i.desc (cause.val == 2) at_).room).counters.eccUncorr) := by
  have h0 : cause ≠ 0 := by rcases h with rfl | rfl <;> decide
  obtain ⟨e, he⟩ := exec_channelHalt at_ hi h0
  rw [State.reported_of_line h hin hroom] at he
  have hh := (s.meetError (s.haltSpan r i.desc (cause.val == 2) at_)).haltChannel_halts r ch ⟨cause, at_, some e⟩
  refine ⟨_, he, ?_, fun hc => ?_, fun hc => ?_⟩
  · rw [State.spanBad_congr hh.mem (congrArg Stack.lost (hh.stack _))]
    exact s.meetError_bad (l := at_ / 128) rfl rfl
  · rw [hh.parity]
    exact s.meetError_parity (by subst hc; rfl)
  · rw [hh.stack]
    exact s.meetError_eccUncorr (by subst hc; rfl)

/-- A context that has waited 2 ms for its acknowledgement halts its channel with cause 5 (R263). -/
theorem remoteAckTimeout_halts {e : TxCtx} (he : e ∈ s.links.tx) (hr : e.room = r.val) (hc : e.chan = ch.val) (hold : e.sentAt + 2000000 ≤ s.now) :
    ∃ t : State, exec (.remoteAckTimeout r ch) s = .next t ∧ ((t.room r).chan ch).state = .halted ∧ ((t.room r).chan ch).cause = 5 ∧ t.mem = s.mem := by
  have hsome : (s.links.tx.find? (fun e => e.room == r.val && e.chan == ch.val && decide (e.sentAt + 2000000 ≤ s.now))).isSome = true :=
    List.find?_isSome.mpr ⟨e, he, by simp [hr, hc, hold]⟩
  obtain ⟨q, hq⟩ := Option.isSome_iff_exists.mp hsome
  have hh := s.haltChannel_halts r ch ⟨5, q.base, some .remote⟩
  refine ⟨_, ?_, by rw [hh.halted]; rfl, by rw [hh.halted]; rfl, hh.mem⟩
  change execRemoteAckTimeout r ch s = _
  simp only [execRemoteAckTimeout, hq]

end Halt

/-! ## Stale tags and tiles (R131, R246) -/

section Tags
variable {s : State} {r : RoomId} {k at_ : Nat}

theorem exec_staleTagTimeout (h : (s.room r).stale[k]? = some at_) : exec (.staleTagTimeout r k) s = .next
    (if at_ + 2000000 ≤ s.now then (s.setRoom r { s.room r with stale := (s.room r).stale.eraseIdx k }).goOn r else s) := by
  change execStaleTagTimeout r k s = _
  simp only [execStaleTagTimeout, h]
  rfl

theorem exec_staleResponse (h : (s.room r).stale[k]? = some at_) :
    exec (.staleResponse r k) s = .next ((s.setRoom r { s.room r with stale := (s.room r).stale.eraseIdx k }).goOn r) := by
  obtain ⟨hlt, -⟩ := List.getElem?_eq_some_iff.mp h
  change execStaleResponse r k s = _
  simp only [execStaleResponse, if_pos hlt]
  rfl

theorem exec_keyTileReturn : exec (.keyTileReturn r k) s = .next
    (if k ∈ (s.room r).window.read then (s.setRoom r { s.room r with window := (s.room r).window.tileBack k }).goOn r else s) := by
  change execKeyTileReturn r k s = _
  simp [execKeyTileReturn]

end Tags

/-! ## The regulator (R256 to R259) -/

theorem Traffic.cls_stream (k r : RoomId) (b pantry : Bool) :
    (Traffic.stream r b pantry).cls k = some (if r = k then (if b then 1 else 0) else 2) := by
  by_cases h : r = k <;> simp [Traffic.cls, h]

theorem Traffic.cost_stream (r : RoomId) (b pantry : Bool) : (Traffic.stream r b pantry).cost = if pantry then 60 else 240 := by
  cases pantry <;> rfl

/-- The units of each class after one offered slot (R258). -/
theorem get_refill (shares : List Nat) (u : Tab Nat) {j : Nat} (hj : j < 3) :
    Tab.get 0 (refill shares u) j = min 3840 (Tab.get 0 u j + 12 * shares.getD j 0) := by
  have hfold : refill shares u = Tab.set 0 (Tab.set 0 (Tab.set 0 u 0 (min 3840 (Tab.get 0 u 0 + 12 * shares.getD 0 0)))
      1 (min 3840 (Tab.get 0 u 1 + 12 * shares.getD 1 0))) 2 (min 3840 (Tab.get 0 u 2 + 12 * shares.getD 2 0)) := by
    simp [refill, List.range_succ, Tab.get_set_other]
  rw [hfold]
  match j, hj with
  | 0, _ => simp [Tab.get_set]
  | 1, _ => simp [Tab.get_set]
  | 2, _ => simp

/-- The class that the pointer's order gives passes the test and is one of the three. -/
theorem roundRobin_some {from_ k : Nat} {ok : Nat → Bool} (h : roundRobin from_ ok = some k) : ok k = true ∧ k < 3 := by
  obtain ⟨i, -, rfl⟩ := List.mem_map.mp (List.mem_of_find?_eq_some h)
  exact ⟨List.find?_some h, Nat.mod_lt _ (by decide)⟩

/-- What an offered slot does at a stack of a partition, as one regulator record and one count of slack. -/
structure SlotResult where
  reg : Regulator
  slack : BitVec 48

/-- The class of the request that takes the slot, within its units or from the slack, the units it leaves, and the pointer (R257 to R259). -/
def State.slotResult (s : State) (p : Nat) (k : RoomId) (waiting : List Traffic) : SlotResult :=
  let y := s.stack k
  let u := Machine.refill (s.part p).shares y.reg.units
  let cost (j : Nat) : Nat := ((headOf k waiting j).map Traffic.cost).getD 240
  let waits (j : Nat) : Bool := (headOf k waiting j).isSome
  match roundRobin y.reg.next (fun j => waits j && decide (cost j ≤ Tab.get 0 u j)) with
  | some j => ⟨{ units := Tab.set 0 u j (Tab.get 0 u j - cost j), next := Fin.ofNat 3 (j + 1), granted := some j }, y.counters.regSlack⟩
  | none =>
    match (if (s.part p).shareMode = 0 then roundRobin y.reg.next waits else none) with
    | some j => ⟨{ units := u, next := Fin.ofNat 3 (j + 1), granted := some j }, y.counters.regSlack + 1⟩
    | none => ⟨{ y.reg with units := u, granted := none }, y.counters.regSlack⟩

theorem exec_regulatorSlot {s : State} {k : RoomId} {p : Nat} (w z : List Traffic) (hp : s.ownerOf k = some p) (hcool : (s.stack k).level < 4) :
    exec (.regulatorSlot k w z) s = .next (s.setStack k { s.stack k with
      reg := (s.slotResult p k (w ++ z)).reg, counters := { (s.stack k).counters with regSlack := (s.slotResult p k (w ++ z)).slack } }) := by
  change execRegulatorSlot k w z s = _
  unfold execRegulatorSlot State.slotResult
  simp only [hp, if_neg (Nat.not_le.mpr hcool)]
  split
  next hunits => simp only [hunits]
  next hunits =>
    split
    next hslack => simp only [hunits, hslack]
    next hslack => simp only [hunits, hslack]

/-- The three outcomes of an offered slot: a request within its class's units, one of a waiting class from the slack in share mode 0, or none. -/
theorem State.slotResult_cases (s : State) (p : Nat) (k : RoomId) (waiting : List Traffic) :
    let u := Machine.refill (s.part p).shares (s.stack k).reg.units
    let cost (j : Nat) : Nat := ((headOf k waiting j).map Traffic.cost).getD 240
    (∃ j, j < 3 ∧ (headOf k waiting j).isSome = true ∧ cost j ≤ Tab.get 0 u j ∧
      s.slotResult p k waiting = ⟨{ units := Tab.set 0 u j (Tab.get 0 u j - cost j), next := Fin.ofNat 3 (j + 1), granted := some j }, (s.stack k).counters.regSlack⟩) ∨
    (∃ j, (s.part p).shareMode = 0 ∧ (headOf k waiting j).isSome = true ∧
      s.slotResult p k waiting = ⟨{ units := u, next := Fin.ofNat 3 (j + 1), granted := some j }, (s.stack k).counters.regSlack + 1⟩) ∨
    s.slotResult p k waiting = ⟨{ (s.stack k).reg with units := u, granted := none }, (s.stack k).counters.regSlack⟩ := by
  dsimp only
  unfold State.slotResult
  dsimp only
  split
  next j hj =>
    obtain ⟨hok, hlt⟩ := roundRobin_some hj
    obtain ⟨hwaits, hcost⟩ := Bool.and_eq_true_iff.mp hok
    exact .inl ⟨j, hlt, hwaits, of_decide_eq_true hcost, rfl⟩
  next =>
    split
    next j hj =>
      split at hj
      next hmode => exact .inr (.inl ⟨j, hmode, (roundRobin_some hj).1, rfl⟩)
      next => cases hj
    next => exact .inr (.inr rfl)

/-- Units after the slot, what a grant requires and where the pointer stands (R257 to R259). -/
theorem State.slotResult_spec (s : State) (p : Nat) (k : RoomId) (waiting : List Traffic) :
    let x := (s.slotResult p k waiting).reg
    let n := (s.slotResult p k waiting).slack
    let filled (j : Nat) : Nat := min 3840 (Tab.get 0 (s.stack k).reg.units j + 12 * (s.part p).shares.getD j 0)
    let cost (j : Nat) : Nat := ((headOf k waiting j).map Traffic.cost).getD 240
    (∀ j, j < 3 → Tab.get 0 x.units j = if x.granted = some j ∧ n = (s.stack k).counters.regSlack then filled j - cost j else filled j) ∧
      (∀ j, x.granted = some j → (headOf k waiting j).isSome = true ∧ x.next.val = (j + 1) % 3 ∧ (n = (s.stack k).counters.regSlack → cost j ≤ filled j)) ∧
      ((s.part p).shareMode ≠ 0 → n = (s.stack k).counters.regSlack) ∧ (x.granted = none → x.next = (s.stack k).reg.next) := by
  have hslack : (s.stack k).counters.regSlack + 1 ≠ (s.stack k).counters.regSlack := by simp
  dsimp only
  obtain ⟨j, hlt, hwaits, hcost, h⟩ | ⟨j, hmode, hwaits, h⟩ | h := s.slotResult_cases p k waiting
  · rw [get_refill _ _ hlt] at hcost h
    rw [h]
    refine ⟨fun q hq => ?_, fun q hq => ?_, fun _ => rfl, nofun⟩
    · rcases eq_or_ne j q with rfl | hne
      · simp
      · simp [hne, Tab.get_set_other 0 _ _ hne.symm, get_refill _ _ hq]
    · cases hq
      exact ⟨hwaits, rfl, fun _ => hcost⟩
  · rw [h]
    refine ⟨fun q hq => ?_, fun q hq => ?_, fun hm => absurd hmode hm, nofun⟩
    · simp [get_refill _ _ hq]
    · cases hq
      exact ⟨hwaits, rfl, fun hn => absurd hn hslack⟩
  · rw [h]
    exact ⟨fun q hq => by simp [get_refill _ _ hq], nofun, fun _ => rfl, fun _ => rfl⟩

/-- Settles O49, from the equations of the events: a completed descriptor, a channel that stops with its error stored, stale tags and tiles, and the three outcomes of an offered slot. -/
theorem channelsCompleteHaltAndFreeTags : Obligations.ChannelsCompleteHaltAndFreeTags := by
  unfold Obligations.ChannelsCompleteHaltAndFreeTags
  refine ⟨fun s r ch i hi => ?_, fun s r hchans hqueues hfence => ⟨State.goOn_of_idle hchans hqueues hfence, State.issueQueues_of_empty hqueues hfence⟩,
    fun s r ch cause at_ h0 hissued => channelHalt_halts at_ h0 hissued, fun s r ch at_ i is hi => ⟨fun hin hroom => ?_, fun hin hroom => ?_⟩,
    fun s r ch e he hr hc hold => remoteAckTimeout_halts he hr hc hold, fun s r k at_ h => ⟨fun hold => ?_, fun hnew => ?_, exec_staleResponse h⟩,
    fun s r k => ⟨fun hk => exec_keyTileReturn.trans (by rw [if_pos hk]; rfl), fun hk => exec_keyTileReturn.trans (by rw [if_neg hk])⟩,
    fun k r b pantry => ⟨Traffic.cls_stream k r b pantry, rfl, rfl, rfl, rfl, Traffic.cost_stream r b pantry, rfl, rfl, rfl⟩,
    fun s k w z p hp hcool => ⟨_, _, exec_regulatorSlot w z hp hcool, s.slotResult_spec p k (w ++ z)⟩⟩
  · obtain ⟨hroom, hrest⟩ := s.completed_spec r ch i
    refine ⟨_, exec_descriptorComplete hi, ?_, ?_, ?_, hrest⟩
    · rw [hroom, Room.completed, Room.chan, Room.signal_channels]
      exact congrArg Channel.issued (Room.chan_setChan_same ..)
    · rw [hroom, Room.completed, Room.signal_tagsInFlight]
    · rw [hroom, Room.completed]
      refine Room.signal_tokens_congr ?_ _
      rfl
  · obtain ⟨t, ht, hbad, hparity, -⟩ := channelHalt_stores (cause := 1) (.inl rfl) hi hin hroom
    exact ⟨t, ht, hbad, hparity rfl⟩
  · obtain ⟨t, ht, hbad, -, hecc⟩ := channelHalt_stores (cause := 2) (.inr rfl) hi hin hroom
    exact ⟨t, ht, hbad, hecc rfl⟩
  · rw [exec_staleTagTimeout h, if_pos hold]
  · rw [exec_staleTagTimeout h, if_neg (Nat.not_le.mpr hnew)]

end Sys2Proof.Machine
end

section
/-! PROOFS. Refresh, pack, extraction and look-up (R76, R93, R130, R139, R143 to R146, R148, R152, R156 to R160, R162, R163): how an operation of a plan runs part by
part, the labels that the rules give, what extraction and look-up give in a room, and the statement about them. -/

namespace Sys2Proof.Machine

/-! ## Labels that a rule lets run -/

/-- A rule goes on past a test that would end its operation only where the test finds nothing. -/
theorem Decision.ite_stop_eq_go {b : Prop} [Decidable b] {base lab : Label} {cause : Nat} {fresh : Bool} {d : Decision} :
    (if b then Decision.stop base cause fresh else d) = .go lab ↔ ¬ b ∧ d = .go lab := by
  split
  next hb =>
    refine ⟨fun h => ?_, fun h => absurd hb h.1⟩
    have hends : true = false := congrArg Decision.ends h
    cases hends
  next hb => exact ⟨fun h => ⟨hb, h⟩, And.right⟩

/-- A rule that ends with the tests of the budget and of the key set's state and lets its operation run gives the label that it tested (R73, R92). -/
theorem Decision.lab_of_budget_active {k : KeySet} {base l lab : Label} (h : (Decision.budget k l).active k base = .go lab) : lab = l := by
  have hactive : (Decision.budget k l).active k base = Decision.budget k l := Decision.active_of_runs (by rw [h]; rfl)
  have hbudget : Decision.budget k l = .go l := Decision.budget_of_runs (by rw [← hactive, h]; rfl)
  exact congrArg Decision.lab (h.symm.trans (hactive.trans hbudget))

/-- The label that a plan's result starts from has the named form and POLYS of its base (R145, R561). -/
theorem Part.planBase_shape (x : Part) (form : Nat) (g : Plan) (chk : Bool) (base : Label) :
    (x.planBase form g chk base).form = form ∧ (x.planBase form g chk base).polys = base.polys := by
  unfold Part.planBase Part.checked
  dsimp only
  obtain ⟨b, hb⟩ := Label.sized_eq _ x.rooms.length
  rw [hb]
  exact ⟨rfl, rfl⟩

/-- The label of a plan's result on a base of two polynomials (R145). -/
theorem planLabel_shape (x : Part) (form : Nat) (g : Plan) (chk : Bool) {base : Label} (hpolys : base.polys = 2) :
    (planLabel (x.planBase form g chk base) g).polys = 2 ∧
      (planLabel (x.planBase form g chk base) g).scale = if form = 0 then g.outScale else 0 := by
  obtain ⟨hform, hbase⟩ := x.planBase_shape form g chk base
  exact ⟨hbase.trans hpolys, by rw [planLabel, hform]⟩

theorem refreshRule_of_fits {form : Nat} {g : Plan} {k : KeySet} {l base : Label} (hform : l.form = form) (hpolys : l.polys = 2)
    (hone : l.form = 1 → l.t = k.t ∧ l.level = 0) (hkind : g.kind = form) (hlogN : l.logN = g.logN) (hkeyset : l.keyset = g.keyset)
    (hactive : k.active = true) (hbudget : budgetCause k (planLabel base g) = none) :
    refreshRule form g k base [l] = .go (planLabel base g) := by
  have hok : formOk k [form] [2] l = true := formOk_of (by simp [hform]) (by simp [hpolys]) (fun h => (hone h).1)
  have hlevel : form = 1 → l.level = 0 := fun h => (hone (hform.trans h)).2
  simp only [refreshRule, hok, hkind, hlogN, hkeyset, Decision.active_of_active hactive, Decision.budget_of_none hbudget]
  simpa using fun h hne => absurd (hlevel h) hne

/-- A pack that its rule lets run has samples and a secret operand of form 0, and the label of its plan (R145, R162). -/
theorem packRule_of_runs {g : Plan} {k : KeySet} {base l m lab : Label} (h : packRule g k base [l, m] = .go lab) :
    l.form = 2 ∧ m.form = 0 ∧ lab = planLabel base g := by
  simp only [packRule, Decision.ite_stop_eq_go, Bool.or_eq_true, decide_eq_true_eq, not_or, not_not] at h
  obtain ⟨⟨⟨⟨⟨hl, hm⟩, -⟩, -⟩, -⟩, -, -, -, hgo⟩ := h
  exact ⟨hl, hm, Decision.lab_of_budget_active hgo⟩

/-! ## One part of a plan -/

section Part
variable {s : State} {p room last : Nat} {pl : Plan} {k : KeySet} {g : Progress} {first : List Nat} {reads : List Span} {start : Option Nat}
  {r : RoomResult × Option Progress} (hr : s.stageRoom p room pl k last g first reads start = r)
include hr

/-- A part whose entries all name usable keys keeps the label decided at dispatch, and the last part writes the limbs of its stage (R143). -/
theorem State.stageRoom_of_usable (hcause : g.cause = none)
    (husable : ((s.room room).keyEntries.take (pl.partEntries g last)).any (entryUnusable (s.part p) pl.keyset) = false) :
    r.1.lab = g.lab ∧ r.1.fresh = false ∧ r.1.inner = decide (g.part ≠ last) ∧
    r.1.runs = if g.part = last then ownRuns (s.part p) g.lab room (stageLimbs (4 * pl.kind + g.part) (s.stageInputs room pl k g first
        (s.stageKeys (s.part p) k g.lab.check ((s.room room).keyEntries.take (pl.partEntries g last)) room)) k g.lab)
      else [] := by
  have hnone : g.cause.orElse (fun _ => if ((s.room room).keyEntries.take (pl.partEntries g last)).any (entryUnusable (s.part p) pl.keyset) then some cMissing
      else none) = none := by
    rw [hcause, husable]
    rfl
  subst hr
  unfold State.stageRoom
  dsimp only
  rw [hnone, if_neg nofun]
  exact ⟨rfl, rfl, rfl, rfl⟩

/-- A part that meets an entry without a usable key makes the result MISSING_KEY, with its label alone (R76, R130, R163). -/
theorem State.stageRoom_of_unusable (hcause : g.cause = none)
    (hunusable : ((s.room room).keyEntries.take (pl.partEntries g last)).any (entryUnusable (s.part p) pl.keyset) = true) :
    r.1.runs = [] ∧ r.1.fresh = true ∧ r.1.lab = g.lab.ended cMissing ∧ r.1.inner = decide (g.part ≠ last) := by
  have hmissing : g.cause.orElse (fun _ => if ((s.room room).keyEntries.take (pl.partEntries g last)).any (entryUnusable (s.part p) pl.keyset) then some cMissing
      else none) = some cMissing := by
    rw [hcause, hunusable]
    rfl
  subst hr
  unfold State.stageRoom
  dsimp only
  rw [hmissing, if_pos rfl]
  exact ⟨rfl, rfl, rfl, rfl⟩

/-- A part that another one follows writes nothing, whatever its entries name (R143). -/
theorem State.stageRoom_inner (hcause : g.cause = none) (hpart : g.part ≠ last) : r.1.inner = true ∧ r.1.runs = [] := by
  cases hentries : ((s.room room).keyEntries.take (pl.partEntries g last)).any (entryUnusable (s.part p) pl.keyset) with
  | true =>
    obtain ⟨hruns, -, -, hinner⟩ := State.stageRoom_of_unusable hr hcause hentries
    exact ⟨hinner.trans (decide_eq_true hpart), hruns⟩
  | false =>
    obtain ⟨-, -, hinner, hruns⟩ := State.stageRoom_of_usable hr hcause hentries
    exact ⟨hinner.trans (decide_eq_true hpart), hruns.trans (if_neg hpart)⟩

/-- Nothing follows the last part. -/
theorem State.stageRoom_ends (hlast : g.part = last) : r.2 = none := hr ▸ if_pos hlast

/-- After any other part the room goes on with the next one, under the same label. -/
theorem State.stageRoom_goesOn (hpart : g.part ≠ last) : ∃ h, r.2 = some h ∧ h.dst = g.dst ∧ h.part = g.part + 1 ∧ h.lab = g.lab := by
  subst hr
  exact ⟨_, if_neg hpart, rfl, rfl, rfl⟩

end Part

/-- What a room goes on with is the operation that it names. -/
theorem Room.goesOn_dst {x : Room} {dst : Place} {g : Progress} (h : x.goesOn dst = some g) : g.dst = dst :=
  beq_iff_eq.mp (Option.filter_eq_some_iff.mp h).2

/-- A part of a plan takes at most the entries that are left. -/
theorem Plan.partEntries_le (pl : Plan) (g : Progress) (last : Nat) : pl.partEntries g last ≤ pl.rotCount - g.words.headD 0 := by
  unfold Plan.partEntries Plan.stageEntries
  split
  · exact le_rfl
  · exact Nat.le_of_lt_succ (Nat.mod_lt _ (Nat.succ_pos _))

/-- The last part takes them all (R143). -/
theorem Plan.partEntries_last (pl : Plan) {g : Progress} {last : Nat} (h : g.part = last) : pl.partEntries g last = pl.rotCount - g.words.headD 0 := if_pos h

/-- The last part of a plan, which is not its first, reads what the part before it left, whatever the first part read. -/
theorem State.stageInputs_of_later (s : State) (room : Nat) (pl : Plan) (k : KeySet) {g : Progress} (h : g.part ≠ 0) (first : List Nat) (keys : List Span) :
    s.stageInputs room pl k g first keys = s.stageInputs room pl k g [] keys := by
  simp only [State.stageInputs, if_neg h]

/-- A key switch at a higher level with a check limb needs the twiddle sets of one at a lower level (R93). -/
theorem switchSets_subset {n m : Nat} (h : n ≤ m) (keyset special : Nat) (chk : Bool) : switchSets keyset n special chk ⊆ switchSets keyset m special true := by
  refine List.map_subset _ fun i hi => ?_
  simp only [List.mem_append, List.mem_range] at hi ⊢
  obtain (hi | hi) | hi := hi
  · exact .inl (.inl (by omega))
  · exact .inl (.inr hi)
  · split at hi
    · exact .inr hi
    · cases hi

/-- The twiddle sets that a part of a plan needs are among those of a key switch at the plan's top level (R93). -/
theorem State.stageNeed_subset (s : State) (p room : Nat) (pl : Plan) (last : Nat) (g : Progress) :
    ∃ special, s.stageNeed p room pl last g ⊆ switchSets pl.keyset pl.top special true := by
  have hlevel : (if g.part = 0 then pl.top else pl.levelAfter (g.part - 1)) ≤ pl.top := by
    split
    · exact le_rfl
    · exact ((Nat.sub_le _ _).trans (Nat.sub_le _ _)).trans (Nat.sub_le _ _)
  exact ⟨_, switchSets_subset hlevel _ _ _⟩

/-- Where the twiddle sets of a plan's top level are valid, no part of it waits for one (R93). -/
theorem State.setsValid_stageNeed {s : State} {p : Nat} {pl : Plan} (h : ∀ special, s.setsValid p (fun _ => switchSets pl.keyset pl.top special true) = true)
    (last : Nat) (ends : Nat → Bool) (at_ : Nat → Progress) :
    s.setsValid p (fun room => if ends room then [] else s.stageNeed p room pl last (at_ room)) = true := by
  refine List.all_eq_true.mpr fun room hroom => ?_
  obtain ⟨special, hsub⟩ := s.stageNeed_subset p room pl last (at_ room)
  have hvalid := List.all_eq_true.mp (h special) room hroom
  rw [Bool.or_eq_true] at hvalid ⊢
  refine hvalid.imp id fun hsets => List.all_eq_true.mpr fun e he => List.all_eq_true.mp hsets e ?_
  dsimp only at he
  split at he
  · cases he
  · exact hsub he

/-! ## Operations of a plan -/

/-- What a refresh or pack of a plan is made of: its plan and last part, and in each room what is decided, the key set, the labels read, the words that the first
part reads with their spans, and its comparison before the raise (R143). -/
structure PlanRun where
  pl : Plan
  last : Nat
  decide_ : Nat → Decision
  ks : Nat → Option KeySet
  labels : Nat → List Span
  first : Nat → List Nat
  reads : Nat → List Span
  start : Nat → Option Nat

namespace PlanRun
variable (c : PlanRun) (s : State) (p : Nat) (dst : Place) (room : Nat)

/-- The operation on a state. -/
def op : State := s.planOp p dst c.pl c.last c.decide_ c.ks c.labels c.first c.reads c.start

/-- Where the operation stands in a room. -/
def at_ : Progress := ((s.room room).goesOn dst).getD { dst := dst, part := 0, lab := (c.decide_ room).lab }

/-- The operation ends at dispatch in a room (R76). -/
def ends : Bool := ((s.room room).goesOn dst).isNone && ((c.decide_ room).ends || (c.ks room).isNone)

/-- The entries that the room's next part takes: all of the plan's when it ends at dispatch (R163). -/
def takes : Nat := if c.ends s dst room then c.pl.rotCount else c.pl.partEntries (c.at_ s dst room) c.last

/-- The room's next part under a key set. -/
def part (k : KeySet) : RoomResult × Option Progress :=
  s.stageRoom p room c.pl k c.last (c.at_ s dst room) (c.first room) (c.labels room ++ c.reads room) (c.start room)

/-- What the room's next part leaves. -/
def result : RoomResult :=
  match c.ends s dst room, c.ks room with
  | false, some k => (c.part s p dst room k).1
  | _, _ => RoomResult.ofStop (c.decide_ room) (c.labels room)

/-- How the room goes on, unless the operation has ended at dispatch. -/
def next : Option (Option Progress) := if c.ends s dst room then none else (c.ks room).map (fun k => (c.part s p dst room k).2)

/-- The operation waits while a stack is at level 4 or an entry is missing; else its next part runs (R130, R233). -/
theorem op_eq :
    c.op s p dst =
      if s.hotStack p then s
      else if !(s.pulled p (c.takes s dst)).entriesThere p (c.takes s dst) then s.awaitEntries p (c.takes s dst)
      else (s.pulled p (c.takes s dst)).planRun p dst c.pl c.last (c.ends s dst) (c.at_ s dst) (c.takes s dst) c.decide_ c.ks c.labels c.first c.reads c.start :=
  rfl

variable {c s p dst room}

/-- A refresh or pack that nothing keeps waiting runs its next part in the dispatching rooms in turn (R143). -/
theorem op_runs (hhot : s.hotStack p = false) (hthere : ∀ room, room ∈ s.opRooms p → c.takes s dst room ≤ (s.room room).keyEntries.length)
    (htiles : s.tilesThere p) (hsets : ∀ special, s.setsValid p (fun _ => switchSets c.pl.keyset c.pl.top special true) = true)
    (hks : ∀ room, room ∈ s.opRooms p → c.ends s dst room = false → (c.ks room).isSome = true) :
    c.op s p dst = s.runParts p dst (c.result s p dst) (c.takes s dst) (c.next s p dst) := by
  have hentries : s.entriesThere p (c.takes s dst) = true := List.all_eq_true.mpr fun room hroom => decide_eq_true (hthere room hroom)
  have hwaits : ¬ (s.starvedAt p (fun room => if c.ends s dst room then 0 else c.takes s dst room) ||
      !s.setsValid p (fun room => if c.ends s dst room then [] else s.stageNeed p room c.pl c.last (c.at_ s dst room))) = true := by
    rw [State.starvedAt_of_tilesThere htiles, State.setsValid_stageNeed hsets]
    decide
  rw [op_eq, State.pulled_of_entriesThere hentries, hhot, hentries]
  refine (if_neg hwaits).trans (congrArg (fun t : State => t.draw (2 ^ 25)) (List.foldl_ext _ _ _ fun t room hroom => ?_))
  cases hends : c.ends s dst room with
  | true => simp [next, result, hends]
  | false =>
    obtain ⟨k, hk⟩ := Option.isSome_iff_exists.mp (hks room hroom hends)
    simp [next, result, part, hends, hk]

/-- A room in which the operation has not ended at dispatch does the part at which it stands. -/
theorem part_runs {g : Progress} {k : KeySet} (hat : c.at_ s dst room = g) (hends : c.ends s dst room = false) (hks : c.ks room = some k) :
    s.stageRoom p room c.pl k c.last g (c.first room) (c.labels room ++ c.reads room) (c.start room) = c.part s p dst room k ∧
      c.result s p dst room = (c.part s p dst room k).1 ∧ c.next s p dst room = some (c.part s p dst room k).2 ∧
      c.takes s dst room = c.pl.partEntries g c.last := by
  subst hat
  simp [result, next, takes, part, hends, hks]

/-- A room that goes on with the operation stands where its last part left it. -/
theorem of_goesOn {g : Progress} (h : (s.room room).goesOn dst = some g) : c.ends s dst room = false ∧ c.at_ s dst room = g := by
  simp [ends, at_, h]

/-- A room that begins the operation stands at its first part, unless it ends at dispatch. -/
theorem of_begins (h : (s.room room).goesOn dst = none) :
    c.ends s dst room = ((c.decide_ room).ends || (c.ks room).isNone) ∧ c.at_ s dst room = { dst := dst, part := 0, lab := (c.decide_ room).lab } := by
  simp [ends, at_, h]

theorem takes_le : c.takes s dst room ≤ c.pl.rotCount := by
  unfold takes
  split
  · exact le_rfl
  · exact (c.pl.partEntries_le _ _).trans (Nat.sub_le _ _)

/-- An operation that all its rooms begin, with the plan's entries there, runs its first part in them (R143). -/
theorem op_begins (hhot : s.hotStack p = false) (hsets : ∀ special, s.setsValid p (fun _ => switchSets c.pl.keyset c.pl.top special true) = true)
    (hthere : s.entriesThere p (fun _ => c.pl.rotCount) = true) (htiles : s.tilesThere p)
    (hbegins : ∀ room, room ∈ s.opRooms p → (s.room room).goesOn dst = none) :
    c.op s p dst = s.runParts p dst (c.result s p dst) (c.takes s dst) (c.next s p dst) := by
  refine op_runs hhot (fun room hroom => takes_le.trans (of_decide_eq_true (List.all_eq_true.mp hthere room hroom))) htiles hsets fun room hroom hends => ?_
  rw [(of_begins (hbegins room hroom)).1, Bool.or_eq_false_iff] at hends
  rw [← Option.not_isNone, hends.2]
  rfl

/-- The first part of an operation that its rule lets run, and whose entries all name usable keys, fixes the result's label and ends its block (R143). -/
theorem first_part {k : KeySet} {lab : Label} (hbegins : (s.room room).goesOn dst = none) (hdec : c.decide_ room = .go lab) (hks : c.ks room = some k)
    (hlast : c.last ≠ 0) (husable : ((s.room room).keyEntries.take c.pl.rotCount).any (entryUnusable (s.part p) c.pl.keyset) = false) :
    (c.result s p dst room).lab = lab ∧ (c.result s p dst room).inner = true ∧ (c.result s p dst room).runs = [] ∧ (c.result s p dst room).fresh = false ∧
      ∃ g, c.next s p dst room = some (some g) ∧ g.dst = dst ∧ g.part = 1 ∧ g.lab = lab := by
  obtain ⟨hends, hat⟩ := of_begins (c := c) hbegins
  rw [hdec, hks] at hends
  obtain ⟨hr, hresult, hnext, -⟩ := part_runs (p := p) hat hends hks
  have hfew : ((s.room room).keyEntries.take (c.pl.partEntries { dst := dst, part := 0, lab := (c.decide_ room).lab } c.last)).any
      (entryUnusable (s.part p) c.pl.keyset) = false := by
    rw [List.any_eq_false] at husable ⊢
    exact fun e he => husable e (List.take_subset_take_left _ ((c.pl.partEntries_le _ _).trans (Nat.sub_le _ _)) he)
  obtain ⟨hlab, hfresh, -, -⟩ := State.stageRoom_of_usable hr rfl hfew
  obtain ⟨hinner, hruns⟩ := State.stageRoom_inner hr rfl hlast.symm
  obtain ⟨g, hg, hdst, hpart, hglab⟩ := State.stageRoom_goesOn hr hlast.symm
  have hgo : (c.decide_ room).lab = lab := by rw [hdec]; rfl
  rw [hresult, hnext]
  exact ⟨hlab.trans hgo, hinner, hruns, hfresh, g, congrArg some hg, hdst, hpart, hglab.trans hgo⟩

end PlanRun

/-! ## Refresh and pack -/

/-- A refresh of a form in the rooms of its partition (R144, R148): stages 0 to 2. -/
def State.refreshRun (s : State) (p : Nat) (a : Place) (g : Plan) (form : Nat) : PlanRun :=
  let x := s.part p
  let lab (room : Nat) : Label := (s.labelAt x room a).lab
  let decide_ (room : Nat) : Decision :=
    let l := s.labelAt x room a
    let base := x.planBase form g l.source.check (baseLabel [l] (some 2) x.rooms.length)
    dispatchOn x [l] base [form] (fun k labs => refreshRule form g k base labs)
  { pl := g, last := 2, decide_ := decide_, ks := fun room => x.ksOf (lab room), labels := fun room => [a.labelSpan room]
    first := fun room => match x.ksOf (lab room) with | some k => s.raisedWords x k (lab room) a g.top (decide_ room).lab.check | none => []
    reads := fun room => objSpans x { lab room with level := 0 } a
    start := fun room => match x.ksOf (lab room) with
      | some k => if (decide_ room).lab.check then s.raiseCompare x k (lab room) a else none
      | none => none }

/-- A pack in the rooms of its partition (R162): stages 0 and 1 of its plan without an output stage. -/
def State.packRun (s : State) (p : Nat) (a secret : Place) (g : Plan) : PlanRun :=
  let x := s.part p
  let ins (room : Nat) : List LabelIn := [a, secret].map (s.labelAt x room)
  let smp (room : Nat) : Label := (s.labelAt x room a).lab
  let sec (room : Nat) : Label := { (s.labelAt x room secret).lab with level := g.top }
  { pl := g, last := 1
    decide_ := fun room =>
      let base := x.planBase 0 g true (baseLabel (ins room) (some 2) x.rooms.length)
      dispatchOn x (ins room) base [0, 2] (fun k labs => packRule g k base labs)
    ks := fun room => x.ksOf (s.labelAt x room secret).lab, labels := fun room => [a.labelSpan room, secret.labelSpan room]
    first := fun room => (List.range (smp room).count).flatMap (s.sample x (smp room) a) ++
      (sec room).inUse.flatMap (fun j => (List.range 2).flatMap (s.limb x (sec room) secret j))
    reads := fun room => (List.range (smp room).count).map (sampleSpan x (smp room) a) ++ objSpans x (sec room) secret, start := fun _ => none }

section Plan
variable {s : State} {p : PartId} {prog plan : Nat} {gp : Plan} (hplan : (s.part p).plan prog plan = some gp)
include hplan

theorem exec_refresh {c : Instr} {dst a : Place} {form : Nat}
    (hc : (c = .approximateRefresh p dst a prog plan ∧ form = 0) ∨ (c = .exactRefresh p dst a prog plan ∧ form = 1)) :
    exec c s = .next ((s.refreshRun p a gp form).op s p dst) := by
  have hop : s.refreshOp p dst a prog plan form = (s.refreshRun p a gp form).op s p dst := by
    simp only [State.refreshOp, hplan]
    rfl
  obtain ⟨rfl, rfl⟩ | ⟨rfl, rfl⟩ := hc <;> exact congrArg _ hop

theorem exec_pack (dst a secret : Place) : exec (.pack p dst a secret prog plan) s = .next ((s.packRun p a secret { gp with outDepth := 0 }).op s p dst) := by
  change execPack p dst a secret prog plan s = _
  simp only [execPack, hplan]
  rfl

/-- A refresh or pack whose last part is `last` and whose key set is that of `src`, as an operation of a plan. -/
theorem exec_planRun {c : Instr} {dst a src : Place} {last : Nat} {pl : Plan}
    (hc : ((c = .approximateRefresh p dst a prog plan ∨ c = .exactRefresh p dst a prog plan) ∧ src = a ∧ last = 2 ∧ pl = gp) ∨
      (c = .pack p dst a src prog plan ∧ last = 1 ∧ pl = { gp with outDepth := 0 })) :
    ∃ r : PlanRun, exec c s = .next (r.op s p dst) ∧ r.pl = pl ∧ r.last = last ∧ r.ks = fun room => (s.part p).ksOf (s.labelAt (s.part p) room src).lab := by
  obtain ⟨rfl | rfl, rfl, rfl, rfl⟩ | ⟨rfl, rfl, rfl⟩ := hc
  · exact ⟨_, exec_refresh hplan (.inl ⟨rfl, rfl⟩), rfl, rfl, rfl⟩
  · exact ⟨_, exec_refresh hplan (.inr ⟨rfl, rfl⟩), rfl, rfl, rfl⟩
  · exact ⟨_, exec_pack hplan dst a src, rfl, rfl, rfl⟩

end Plan

/-- A refresh of a sound operand that fits its plan runs under the plan's label (R145). -/
theorem State.refreshRun_of_fits {s : State} {p room : Nat} {a : Place} {g : Plan} {form : Nat} {l lab : Label} {k : KeySet} (hsound : s.Sound p room [a] [l] k)
    (hform : l.form = form) (hpolys : l.polys = 2) (hone : l.form = 1 → l.t = k.t ∧ l.level = 0) (hkind : g.kind = form) (hlogN : l.logN = g.logN)
    (hkeyset : l.keyset = g.keyset) (hactive : k.active = true)
    (hlab : lab = planLabel ((s.part p).planBase form g l.check (resultBase [l] (some 2) (s.part p).rooms.length)) g) (hbudget : budgetCause k lab = none) :
    (s.refreshRun p a g form).decide_ room = .go lab ∧ (s.refreshRun p a g form).ks room = some k := by
  obtain ⟨hlabel, hpoison, hks⟩ := hsound.single
  subst hlab
  simp only [State.refreshRun, hlabel]
  exact ⟨(dispatchOn_of_clean hks hpoison (List.mem_singleton.mpr hform) rfl).trans
    (refreshRule_of_fits hform hpolys hone hkind hlogN hkeyset hactive hbudget), hks⟩

/-- A pack of sound operands that its rule admits runs under the label of the rule (R145, R162). -/
theorem State.packRun_of_admitted {s : State} {p room : Nat} {a secret : Place} {g : Plan} {l m lab : Label} {k k2 : KeySet}
    (hsound : s.Sound p room [a, secret] [l, m] k) (hsecret : (s.part p).ksOf m = some k2)
    (hgo : packRule g k ((s.part p).planBase 0 g true (resultBase [l, m] (some 2) (s.part p).rooms.length)) [l, m] = .go lab) :
    (s.packRun p a secret g).decide_ room = .go lab ∧ (s.packRun p a secret g).ks room = some k2 := by
  obtain ⟨hl, hm, -⟩ := packRule_of_runs hgo
  have hforms : ∀ u, u ∈ [l, m] → u.form ∈ [0, 2] := by simp [hl, hm]
  have hlabel : (s.labelAt (s.part p) room secret).lab = m := by
    have hlabels := hsound.labels
    simp only [List.map_cons, List.cons.injEq] at hlabels
    rw [hlabels.2.1]
  refine ⟨?_, by simp only [State.packRun, hlabel, hsecret]⟩
  simp only [State.packRun, hsound.labels]
  rw [dispatchOn_map_clean (fun u hu => (hsound.clean u hu).1) hsound.keyset, if_pos hforms]
  exact hgo

/-! ## The words of a stage -/

/-- The chain limbs of a stage's polynomial are residues modulo the primes of the chain (R144). -/
theorem stageChain_residues {tag : Nat} {inputs : List (List Nat)} {k : KeySet} {logN level poly i : Nat} {m : Modulus} {ws : List Nat}
    (h : (stageChain tag inputs k logN level poly)[i]? = some (m, ws)) : k.chain[i]? = some m ∧ (0 < m.p → ∀ w, w ∈ ws → w < m.p) := by
  simp only [stageChain, List.getElem?_map, List.getElem?_zipIdx, Option.map_map, Option.map_eq_some_iff, Function.comp_apply, Prod.mk.injEq] at h
  obtain ⟨m, hm, rfl, rfl⟩ := h
  rw [List.getElem?_take] at hm
  refine ⟨(Option.ite_none_right_eq_some.mp hm).2, fun hp w hw => ?_⟩
  obtain ⟨i, -, rfl⟩ := List.mem_map.mp hw
  exact Nat.mod_lt _ hp

/-- The words of the last stage's chain limbs are residues modulo their limbs' primes. -/
theorem stageLimbs_lt {tag : Nat} {inputs : List (List Nat)} {k : KeySet} {l : Label} {e : Nat × Nat × List Nat} {w : Nat} (he : e ∈ stageLimbs tag inputs k l)
    (hchain : e.1 ≠ l.limbs) (hp : 0 < (k.modAt l e.1).p) (hw : w ∈ e.2.2) : w < (k.modAt l e.1).p := by
  obtain ⟨q, -, he⟩ := List.mem_flatMap.mp he
  obtain he | he := List.mem_append.mp he
  · obtain ⟨⟨⟨m, ws⟩, i⟩, hmem, rfl⟩ := List.mem_map.mp he
    obtain ⟨hm, hlt⟩ := stageChain_residues (List.mem_zipIdx_iff_getElem?.mp hmem)
    have hmod : k.modAt l i = m := by simp [KeySet.modAt, show i ≠ l.limbs from hchain, hm]
    rw [hmod] at hp ⊢
    exact hlt hp w hw
  · split at he
    · rw [List.mem_singleton.mp he] at hchain
      exact absurd rfl hchain
    · cases he

/-! ## Extraction -/

/-- The label of an extraction that its rule lets run is that of its base but for LEVEL, SCALE and NOISE (R145, R152). -/
theorem extractRule_of_runs {k : KeySet} {base l lab : Label} (h : extractRule k base [l] = .go lab) :
    lab.form = base.form ∧ lab.info = base.info := by
  unfold extractRule at h
  split at h
  · simp only [Decision.ite_stop_eq_go] at h
    obtain ⟨-, -, -, hgo⟩ := h
    rw [Decision.lab_of_budget_active hgo]
    exact ⟨rfl, rfl⟩
  · exact absurd (congrArg Decision.ends h) Bool.noConfusion

/-- A batch's label gives its DIM and COUNT back (R63, R152). -/
theorem Label.batch_fields {l : Label} {dim count : Nat} (h : l.info = leBytes 2 dim ++ leBytes 2 0 ++ leBytes 4 count ++ List.replicate 8 0) :
    l.count = count % 2 ^ 32 ∧ l.dim = dim % 2 ^ 16 := by
  have hcount : (l.info.drop 4).take 4 = leBytes 4 count := by simp [h, leBytes]
  have hdim : (l.info.drop 0).take 2 = leBytes 2 dim := by simp [h, leBytes]
  exact ⟨by rw [Label.count, fieldOf, hcount, leNat_leBytes]; rfl, by rw [Label.dim, fieldOf, hdim, leNat_leBytes]; rfl⟩

/-- What a room decides for an extraction with its own entry. -/
def State.extractDecision (s : State) (p : Nat) (a : Place) (positions : List Nat) (room : Nat) : Decision × Option KeyUse :=
  s.extractPlan p room a positions (s.entriesAt p (fun _ => some 0))

/-- A room's result of an extraction. -/
def State.extractResult (s : State) (p : Nat) (a : Place) (positions : List Nat) (room : Nat) : RoomResult :=
  let pl := s.extractDecision p a positions room
  let k := (s.part p).ksOf (s.labelAt (s.part p) room a).lab
  match pl.2, k, k.bind (·.lweP) with
  | some u, some k, some m => s.extractRoom p room a positions pl.1 u k m
  | _, _, _ => RoomResult.ofStop pl.1 [a.labelSpan room]

/-- An extraction that nothing keeps waiting takes its entry and gives its result in the dispatching rooms in turn (R130, R139, R152). -/
theorem exec_extract_runs {s : State} {p : PartId} {dst a : Place} {positions : List Nat} (hne : positions ≠ []) (hhot : s.opHot p [dst, a] = false)
    (hsets : s.setsValid p (fun room => extractNeed (s.part p) (s.labelAt (s.part p) room a).lab (s.extractDecision p a positions room)) = true)
    (hthere : s.entriesThere p (fun _ => 1) = true) (htiles : s.tilesThere p) :
    exec (.extract p dst a positions) s = .next (s.runTaking p dst (s.extractResult p a positions)
      (fun room t => t.takeEntries p room 1 (s.extractDecision p a positions room).2.isSome) 0 (2 ^ 25)) := by
  have hgoes : ¬ (s.opHot p [dst, a] || positions.isEmpty) = true := by simp [hhot, hne]
  have hread : ¬ (!s.entriesThere p (fun _ => 1)) = true := by simp [hthere]
  have hwaits : ¬ (s.starvedAt p (fun room => if (s.extractDecision p a positions room).2.isSome then 1 else 0) ||
      !s.setsValid p (fun room => extractNeed (s.part p) (s.labelAt (s.part p) room a).lab (s.extractDecision p a positions room))) = true := by
    rw [State.starvedAt_of_tilesThere htiles, hsets]
    decide
  exact congrArg _ (((if_neg hgoes).trans (if_neg hread)).trans (if_neg hwaits))

/-- An extraction from a sound operand that its rule admits, whose entry's key serves it, runs under the label of the rule (R130, R145). -/
theorem State.extractDecision_of_served {s : State} {p room : Nat} {a : Place} {positions : List Nat} {l lab : Label} {k : KeySet} {e : KeyEntry}
    {rest : List KeyEntry} {u : KeyUse} (hsound : s.Sound p room [a] [l] k) (hentries : (s.room room).keyEntries = e :: rest)
    (hserved : s.Served p { l with level := 0 } 2 1 e u) (hform : l.form ≤ 1)
    (hgo : extractRule k (extractBase [{ lab := l, one := true, ok := true }] k.lweDim positions.length (s.part p).rooms.length) [l] = .go lab) :
    s.extractDecision p a positions room = (.go lab, some { u with ents := s.entriesAt p (fun _ => some 0) }) := by
  obtain ⟨hlabel, hpoison, hks⟩ := hsound.single
  have hdec : dispatchOn (s.part p) [{ lab := l, one := true, ok := true }]
      (extractBase [{ lab := l, one := true, ok := true }] k.lweDim positions.length (s.part p).rooms.length) [0, 1]
      (fun k' labs => extractRule k' (extractBase [{ lab := l, one := true, ok := true }] k.lweDim positions.length (s.part p).rooms.length) labs) = .go lab :=
    (dispatchOn_of_clean hks hpoison (mem_zero_one hform) rfl).trans hgo
  simp [State.extractDecision, State.extractPlan, hlabel, LabelIn.source, Part.keyset_of_ksOf hks, hdec, Decision.go, hentries, hserved.key, hserved.matched]

/-- A room writes its own samples at their places (R85, R152). -/
theorem State.extractRoom_offsets (s : State) (p room : Nat) (a : Place) (positions : List Nat) (d : Decision) (u : KeyUse) (k : KeySet) (m : Modulus) :
    (s.extractRoom p room a positions d u k m).runs.map (·.1) =
      ((List.range positions.length).filter (fun i => (s.part p).roomAt (d.lab.sampleRoom (s.part p).rooms.length i) == room)).map
        (d.lab.sampleOff (s.part p).rooms.length) := by
  have hrange : List.range positions.length = positions.zipIdx.map (·.2) := by rw [List.zipIdx_map_snd, List.range_eq_range']
  rw [hrange, List.filter_map, List.map_map]
  exact List.map_map

/-! ## Look-up -/

section LookUp
variable (s : State) (p : Nat) (dsts : List Place) (a : Place) (lut : Nat) (tables : List Place)

/-- No batch of a look-up follows the next one. -/
def State.lookUpLast : Bool :=
  (s.opRooms p).all (fun room => decide ((s.lookUpLeft p room a (s.lookUpAt p room dsts a lut tables)).length ≤ s.lookUpBatch room))

/-- The next batch of a look-up in a room: its results, and where the room then stands. -/
def State.lookUpBatchRun (room : Nat) : List RoomResult × Progress :=
  s.lookUpRoom p room a tables (s.lookUpAt p room dsts a lut tables) (s.lookUpLast p dsts a lut tables)

/-- A room ends a batch of a look-up (R160): its block notes the key that served it (R163), and ends. -/
def State.lookUpEnd (room : Nat) (t : State) : State :=
  let y := t.room room
  let z := match y.block, (s.lookUpAt p room dsts a lut tables).lut with
    | some b, some h => { y with block := some { b with keysUsed := b.keysUsed ++ [(65536 + lut, h.epoch)] } }
    | _, _ => y
  t.setRoom room (z.endPart (if s.lookUpLast p dsts a lut tables then none else some (s.lookUpBatchRun p dsts a lut tables room).2))

end LookUp

/-- A look-up that nothing keeps waiting runs a batch in the dispatching rooms in turn (R160). -/
theorem exec_lookUp_runs {s : State} {p : PartId} {dsts : List Place} {tables : List Place} (hmin : 1 ≤ tables.length) (hmax : tables.length ≤ 4)
    (hlen : dsts.length = tables.length) (hhot : s.hotStack p = false) (a : Place) (lut : Nat) :
    exec (.lookUp p dsts a lut tables) s = .next (((s.opRooms p).foldl (fun t room =>
      s.lookUpEnd p dsts a lut tables room (((dsts.zip (s.lookUpBatchRun p dsts a lut tables room).1).foldl
        (fun v e => v.performRoom p room e.1 e.2) t).countOp room)) s).draw (2 ^ 20)) := by
  have hne : tables ≠ [] := List.ne_nil_of_length_pos hmin
  have hgoes : ¬ (tables.length = 0 || 4 < tables.length || dsts.length ≠ tables.length || s.hotStack p) = true := by
    simp [hne, Nat.not_lt.mpr hmax, hlen, hhot]
  exact congrArg _ (if_neg hgoes)

/-- A look-up that its rule lets run gives the table's SCALE (R145). -/
theorem lookUpRule_of_runs {h : LutHdr} {ts : List LutTable} {t : LutTable} {k : KeySet} {base l lab : Label}
    (hgo : lookUpRule (some h) ts t k base [l] = .go lab) : lab.scale = t.outScale := by
  simp only [lookUpRule, Decision.ite_stop_eq_go] at hgo
  rw [Decision.lab_of_budget_active hgo.2]

section Begins
variable {s : State} {p room : Nat} {dsts : List Place} {a : Place} {lut : Nat} {tables : List Place} {l : Label} {k : KeySet} {h : LutHdr} {ts : List LutTable}
  (hsound : s.Sound p room [a] [l] k) (hform : l.form = 2) (hbegins : (s.room room).goesOn (dsts.headD a) = none)
  (hlut : ((s.part p).lutAt lut).inRoom room = some h) (hts : ts = tables.map (fun e => lutTableOf (s.tableBytes room e)))
  (hshape : lookUpShape (some h) ts [l] = none)
include hsound hform hbegins hlut hts hshape

/-- A room that begins a look-up resolves its key and fetches its tables (R160, R163), and decides for each table by the rule of R145. -/
theorem State.lookUpAt_begins :
    (s.lookUpAt p room dsts a lut tables).lut = some h ∧ (s.lookUpAt p room dsts a lut tables).cause = none ∧
      (s.lookUpAt p room dsts a lut tables).tables.map lutTableOf = ts ∧
      s.lookUpDecisions p room a (s.lookUpAt p room dsts a lut tables) =
        ts.map (fun t => lookUpRule (some h) ts t k { l with polys := 1, poison := false, cause := 0 } [l]) := by
  obtain ⟨hlabel, hpoison, hks⟩ := hsound.single
  have htables : (tables.map (s.tableBytes room)).map lutTableOf = ts := List.map_map.trans hts.symm
  have hbase : sampleBase [{ lab := l, one := true, ok := true }] = { l with polys := 1, poison := false, cause := 0 } := sampleResultBase_single hform
  simp only [State.lookUpAt, hbegins, Option.getD_none, State.lookUpDecisions, hlut, htables, hlabel, hbase, true_and]
  exact List.map_congr_left fun t _ => dispatchOn_of_clean hks hpoison (List.mem_singleton.mpr hform) hshape

end Begins

/-- Before the third execution a part takes no error as data (R459). -/
theorem State.partCause_of_retry {s : State} {room : Nat} (h : (s.room room).takesErrors = false) (r : RoomResult) : s.partCause room r = none := by
  rw [State.partCause, h]
  rfl

/-- A batch's result for one of the tables in a room that takes no error as data: the label of the table's rule, poisoned where the table gives a cause, and the samples of
R156 of the batch (R156 to R158, R160). -/
theorem State.lookUpRoom_getElem? {s : State} {p room i : Nat} {a : Place} {tables : List Place} {g : Progress} {l lab : Label} {k : KeySet} {h : LutHdr}
    {ts : List LutTable} {t : LutTable} {q : Modulus} {rule : LutTable → Decision}
    (hsound : s.Sound p room [a] [l] k) (hq : k.lweP = some q) (herr : (s.room room).takesErrors = false) (hlut : g.lut = some h) (hcause : g.cause = none)
    (hts : g.tables.map lutTableOf = ts) (hdec : s.lookUpDecisions p room a g = ts.map rule) (ht : ts[i]? = some t) (hgo : rule t = .go lab) (last : Bool) :
    ∃ r, (s.lookUpRoom p room a tables g last).1[i]? = some r ∧ r.fresh = (lookUpCause q h l t).isSome ∧
      r.lab = (match lookUpCause q h l t with | some c => lab.poisonWith c | none => lab) ∧
      r.runs = ((s.lookUpLeft p room a g).take (s.lookUpBatch room)).map (fun n =>
        (lab.sampleOff (s.part p).rooms.length n, (lookUpSamples q h (roundKeys (leBytes 32 h.seed.toNat))
          (fun o m => wordsOf (s.spanBytes { lutSpan (s.part p) room h with off := (lutSpan (s.part p) room h).off + 4 * o, len := 4 * m }))
          (ts.map (testPoly q (2 ^ h.logNbr) (lwePrecision q l.scale))) (s.sample (s.part p) l a n)).getD i [])) := by
  obtain ⟨hlabel, -, hks⟩ := hsound.single
  have hone : ((ts.map rule).zip ts).zipIdx[i]? = some ((.go lab, t), i) := by
    have hzip : ((ts.map rule).zip ts)[i]? = some (.go lab, t) := List.getElem?_zip_eq_some.mpr ⟨by simp [ht, hgo], ht⟩
    simp [List.getElem?_zipIdx, hzip]
  have hcauses : (lookUpCause q h l t).orElse (fun _ => none) = lookUpCause q h l t := by cases lookUpCause q h l t <;> rfl
  unfold State.lookUpRoom
  simp only [hlabel, hts, hdec, hlut, hcause, Option.orElse_none, State.partCause_of_retry herr, List.getElem?_map, hone, Option.map_some, hks, Option.bind_some,
    hq, Decision.go, hcauses]
  exact ⟨_, rfl, rfl, rfl, rfl⟩

/-- Settles O41: a refresh or pack as an operation of a plan, by what each of its parts leaves; an extraction and a look-up by what each room decides on its operand. -/
theorem refreshesGiveThePlansLabel : Obligations.RefreshesGiveThePlansLabel := by
  refine ⟨fun s p dst a prog plan c form gp hplan hc hhot hsets hthere htiles hbegins => ?_,
    fun s p dst a sec prog plan gp hplan hhot hsets hthere htiles hbegins => ?_,
    fun s p dst a src prog plan last c gp pl hplan hc hhot hsets htiles hgoes => ?_,
    fun tag inputs k l e w he hchain hp hw => stageLimbs_lt he hchain hp hw,
    fun s p dst a positions hne hhot hsets hthere htiles => ?_, fun s p dsts a lut tables hmin hmax hlen hhot => ?_⟩
  · -- the first part of a refresh
    refine ⟨_, _, _, (exec_refresh hplan hc).trans (congrArg _ (PlanRun.op_begins hhot hsets hthere htiles hbegins)), ?_⟩
    intro room l k lab hroom hsound hform hpolys hone hkind hlogN hkeyset hactive husable hlab hbudget
    obtain ⟨hdec, hks⟩ := State.refreshRun_of_fits hsound hform hpolys hone hkind hlogN hkeyset hactive hlab hbudget
    obtain ⟨htwo, hscale⟩ := planLabel_shape (s.part p) form gp l.check (resultBase_polys_some [l] 2 (s.part p).rooms.length)
    rw [← hlab] at htwo hscale
    obtain ⟨hl, hinner, hruns, hfresh, hnext⟩ := PlanRun.first_part (hbegins room hroom) hdec hks (Nat.succ_ne_zero _) husable
    exact ⟨by rw [hlab]; rfl, by rw [hlab]; rfl, htwo, by rw [hlab]; rfl, hscale, hl, hinner, hruns, hfresh, hnext⟩
  · -- the first part of a pack
    refine ⟨_, _, _, (exec_pack hplan dst a sec).trans (congrArg _ (PlanRun.op_begins hhot hsets hthere htiles hbegins)), ?_⟩
    intro room l m k k2 lab hroom hsound hsecret hgo husable
    obtain ⟨hdec, hks⟩ := State.packRun_of_admitted hsound hsecret hgo
    obtain ⟨-, -, hlab⟩ := packRule_of_runs hgo
    obtain ⟨htwo, hscale⟩ := planLabel_shape (s.part p) 0 { gp with outDepth := 0 } true (resultBase_polys_some [l, m] 2 (s.part p).rooms.length)
    rw [← hlab] at htwo hscale
    exact ⟨htwo, by rw [hlab]; rfl, by rw [hlab]; rfl, hscale, PlanRun.first_part (hbegins room hroom) hdec hks (Nat.succ_ne_zero _) husable⟩
  · -- a later part
    have hfirst : last ≠ 0 := by obtain ⟨-, -, rfl, -⟩ | ⟨-, rfl, -⟩ := hc <;> decide
    obtain ⟨hkeyset, htop, hrot, hkind⟩ : pl.keyset = gp.keyset ∧ pl.top = gp.top ∧ pl.rotCount = gp.rotCount ∧ pl.kind = gp.kind := by
      obtain ⟨-, -, -, rfl⟩ | ⟨-, -, rfl⟩ := hc <;> exact ⟨rfl, rfl, rfl, rfl⟩
    obtain ⟨r, hexec, rfl, rfl, hks⟩ := exec_planRun hplan hc
    have hthere (room : Nat) (hroom : room ∈ s.opRooms p) : (r.ks room).isSome = true ∧ r.takes s dst room ≤ (s.room room).keyEntries.length := by
      obtain ⟨g, hg, hsome, hleft⟩ := hgoes room hroom
      rw [← congrFun hks room] at hsome
      obtain ⟨k, hk⟩ := Option.isSome_iff_exists.mp hsome
      obtain ⟨hends, hat⟩ := PlanRun.of_goesOn (c := r) hg
      obtain ⟨-, -, -, htakes⟩ := PlanRun.part_runs (p := p) hat hends hk
      rw [← hrot] at hleft
      exact ⟨hsome, htakes ▸ (r.pl.partEntries_le g r.last).trans hleft⟩
    refine ⟨_, _, _, hexec.trans (congrArg _ (PlanRun.op_runs hhot (fun room hroom => (hthere room hroom).2) htiles (by rwa [hkeyset, htop])
      (fun room hroom _ => (hthere room hroom).1))), ?_⟩
    intro room g k hroom hg hk hcause
    obtain ⟨hends, hat⟩ := PlanRun.of_goesOn (c := r) hg
    obtain ⟨hr, hresult, hnext, htakes⟩ := PlanRun.part_runs (p := p) hat hends ((congrFun hks room).trans hk)
    rw [hresult, hnext, htakes, ← hkeyset, ← hrot, ← hkind]
    refine ⟨rfl, fun hunusable => State.stageRoom_of_unusable hr hcause hunusable, fun husable => ?_, fun hpart => ?_⟩
    · obtain ⟨hlab, hfresh, hinner, hruns⟩ := State.stageRoom_of_usable hr hcause husable
      refine ⟨hlab, hfresh, fun hpart => ⟨congrArg some (State.stageRoom_ends hr hpart), hinner.trans (decide_eq_false (not_not.mpr hpart)),
        r.pl.partEntries_last hpart, ?_⟩⟩
      rw [hruns, if_pos hpart, s.stageInputs_of_later room r.pl k (hpart.trans_ne hfirst), hpart]
    · obtain ⟨hinner, hruns⟩ := State.stageRoom_inner hr hcause hpart.ne
      obtain ⟨h, hh, hdst, hsucc, hlab⟩ := State.stageRoom_goesOn hr hpart.ne
      exact ⟨hinner, hruns, h, congrArg some hh, hdst.trans (Room.goesOn_dst hg), hsucc, hlab⟩
  · -- an extraction
    refine ⟨_, _, exec_extract_runs hne hhot hsets hthere htiles, ?_⟩
    intro room l k q e rest u lab hsound hq hkeyset hentries hserved hform hgo
    obtain ⟨hlabel, -, hks⟩ := hsound.single
    have hdec := State.extractDecision_of_served hsound hentries hserved hform hgo
    have hresult : s.extractResult p a positions room =
        s.extractRoom p room a positions (.go lab) { u with ents := s.entriesAt p (fun _ => some 0) } k q := by
      simp [State.extractResult, hdec, hlabel, hks, hq]
    obtain ⟨hlform, hinfo⟩ := extractRule_of_runs hgo
    obtain ⟨hcount, hdim⟩ := Label.batch_fields hinfo
    rw [hresult]
    exact ⟨fun t => by rw [hdec]; rfl, rfl, rfl, hlform, hcount, hdim, s.extractRoom_offsets p room a positions _ _ k q⟩
  · -- a look-up
    refine ⟨_, _, exec_lookUp_runs hmin hmax hlen hhot a lut, fun room t => ⟨rfl, fun r hr => (State.room_setRoom ..).trans (if_neg hr)⟩, ?_⟩
    intro room l k h i tb lab q ts hsound hform hq hbegins herr hlut htb hts hshape hgo
    obtain ⟨hkey, hcause, htables, hdec⟩ := State.lookUpAt_begins hsound hform hbegins hlut hts hshape
    have ht : ts[i]? = some (lutTableOf (s.tableBytes room tb)) := by simp [hts, htb]
    obtain ⟨r, hr, hfresh, hlab, hruns⟩ := State.lookUpRoom_getElem? hsound hq herr hkey hcause htables hdec ht hgo (s.lookUpLast p dsts a lut tables)
    refine ⟨r, hr, fun hnone => ?_, fun c hsome => ?_, hruns⟩
    · rw [hnone] at hfresh hlab
      exact ⟨hlab, hfresh, lookUpRule_of_runs hgo⟩
    · rw [hsome] at hfresh hlab
      exact ⟨hfresh, hlab⟩

end Sys2Proof.Machine
end

section
/-! PROOFS. The vector engine (R165 to R174, R184, R188): what an instruction leaves in its room's registers and attic, and the statement about it. -/

namespace Sys2Proof.Machine

/-! ## Vector registers -/

/-- The entries that a run of words sets, one after another. -/
theorem Tab.get_foldl_set_words (b : Nat) (ws : List Nat) (k : Nat) (t : Tab Word) (h : k + ws.length ≤ 2048) (j : Nat) :
    Tab.get 0 ((ws.zipIdx k).foldl (fun t e => if e.2 < 2048 then Tab.set 0 t (b + e.2) (BitVec.ofNat 32 e.1) else t) t) j =
      if b + k ≤ j ∧ j < b + k + ws.length then BitVec.ofNat 32 (ws.getD (j - (b + k)) 0) else Tab.get 0 t j := by
  induction ws generalizing k t with
  | nil => rw [if_neg (by simp)]; rfl
  | cons w ws ih =>
    rw [List.length_cons] at h
    rw [List.zipIdx_cons, List.foldl_cons, ih (k + 1) _ (by omega), if_pos (by omega : k < 2048), Tab.get_set, List.length_cons]
    rcases Nat.lt_trichotomy j (b + k) with hj | rfl | hj
    · rw [if_neg (by omega), if_neg (by omega), if_neg (by omega)]
    · rw [if_neg (by omega), if_pos rfl, if_pos (by omega), Nat.sub_self]
      rfl
    · have hsub : j - (b + k) = (j - (b + (k + 1))) + 1 := by omega
      rw [if_neg (by omega : ¬ j = b + k), hsub, List.getD_cons_succ]
      exact if_congr (by omega) rfl rfl

/-- What a register file holds after a register is written from word 0. -/
theorem Room.putReg_get (x : Room) (d : Nat) {ws : List Nat} (h : ws.length ≤ 2048) (j : Nat) :
    Tab.get 0 (x.putReg d ws).vregs j =
      if d * 2048 ≤ j ∧ j < d * 2048 + ws.length then BitVec.ofNat 32 (ws.getD (j - d * 2048) 0) else Tab.get 0 x.vregs j := by
  simpa [Room.putReg] using Tab.get_foldl_set_words (d * 2048) ws 0 x.vregs (by omega) j

theorem Room.putReg_get_word (x : Room) (d : Nat) {ws : List Nat} (h : ws.length ≤ 2048) {i : Nat} (hi : i < ws.length) :
    Tab.get 0 (x.putReg d ws).vregs (d * 2048 + i) = BitVec.ofNat 32 (ws.getD i 0) := by
  rw [x.putReg_get d h, if_pos (by omega), Nat.add_sub_cancel_left]

theorem Room.putReg_get_other (x : Room) (d : Nat) {ws : List Nat} (h : ws.length ≤ 2048) {j : Nat} (hj : j < d * 2048 ∨ d * 2048 + ws.length ≤ j) :
    Tab.get 0 (x.putReg d ws).vregs j = Tab.get 0 x.vregs j := by
  rw [x.putReg_get d h, if_neg (by omega)]

/-- Whole registers written one after another from register `d` on: each holds its words (log 84). -/
theorem Room.putRegs_get (x : Room) (d : Fin 32) {ws : Nat → List Nat} {m : Nat} (hm : m ≤ 32) (hws : ∀ k, k < m → (ws k).length = 2048) {k i : Nat} (hk : k < m)
    (hi : i < 2048) :
    Tab.get 0 ((List.range m).foldl (fun y k => y.putReg (d + Fin.ofNat 32 k : Fin 32) (ws k)) x).vregs ((d + Fin.ofNat 32 k : Fin 32).val * 2048 + i) =
      BitVec.ofNat 32 ((ws k).getD i 0) := by
  induction m with
  | zero => omega
  | succ m ih =>
    have hlast := hws m (Nat.lt_succ_self m)
    rw [List.range_succ, List.foldl_append, List.foldl_cons, List.foldl_nil]
    obtain hlt | rfl := Nat.lt_succ_iff_lt_or_eq.mp hk
    · rw [Room.putReg_get_other _ _ hlast.le, ih (by omega) (fun j hj => hws j (by omega)) hlt]
      have hne : (d + Fin.ofNat 32 k : Fin 32).val ≠ (d + Fin.ofNat 32 m : Fin 32).val := by
        simp only [Fin.val_add, Fin.ofNat]
        omega
      omega
    · exact Room.putReg_get_word _ _ hlast.le (by omega)

/-! ## Mask bits -/

theorem testBit_foldl_or_two_pow (l : List Nat) (m i : Nat) : (l.foldl (fun m i => m ||| 2 ^ i) m).testBit i = (m.testBit i || decide (i ∈ l)) := by
  induction l generalizing m with
  | nil => simp
  | cons k l ih => simp [ih, Nat.testBit_two_pow, Bool.or_assoc, eq_comm]

theorem testBit_maskOf (l : List Nat) (i : Nat) : (maskOf l).testBit i = decide (i ∈ l) := by
  simp [maskOf, testBit_foldl_or_two_pow]

theorem bitOf_eq_testBit (v i : Nat) : bitOf v i = v.testBit i := by
  rw [Nat.testBit_eq_decide_div_mod_eq, bitOf, Bool.eq_iff_iff, beq_iff_eq, decide_eq_true_iff]

/-- Entries set one after another in a table hold what they are set to. -/
theorem Tab.get_foldl_set_range (b : Nat) (w : Nat → Word) (m : Nat) (t : Tab Word) (j : Nat) :
    Tab.get 0 ((List.range m).foldl (fun t j => Tab.set 0 t (b + j) (w j)) t) j = if b ≤ j ∧ j < b + m then w (j - b) else Tab.get 0 t j := by
  induction m with
  | zero => rw [if_neg (by omega)]; rfl
  | succ m ih =>
    rw [List.range_succ, List.foldl_append, List.foldl_cons, List.foldl_nil, Tab.get_set, ih]
    by_cases hj : j = b + m
    · rw [if_pos hj, if_pos (by omega), hj, Nat.add_sub_cancel_left]
    · rw [if_neg hj]
      exact if_congr (by omega) rfl rfl

/-- A mask register after the bits of elements 0 to n − 1 are written (R170). -/
theorem Room.maskBit_putMask (x : Room) (d n : Nat) (bits : Nat → Bool) {i : Nat} (hi : i < 2048) :
    (x.putMask d n bits).maskBit d i = if i < n then bits i else x.maskBit d i := by
  have hb : i % 32 < 32 := Nat.mod_lt _ (by decide)
  have hsplit : 32 * (i / 32) + i % 32 = i := Nat.div_add_mod i 32
  have hold : x.maskBit d i = bitOf (Tab.get 0 x.vregs (d * 2048 + i / 32)).toNat (i % 32) := by
    simp [Room.maskBit, hi, bitOf_eq_testBit, BitVec.testBit_toNat]
  have hword : Tab.get 0 (x.putMask d n bits).vregs (d * 2048 + i / 32) =
      if i / 32 < ceilDiv n 32 then BitVec.ofNat 32 (maskOf ((List.range 32).filter (fun b => if 32 * (i / 32) + b < n then bits (32 * (i / 32) + b)
        else bitOf (Tab.get 0 x.vregs (d * 2048 + i / 32)).toNat b))) else Tab.get 0 x.vregs (d * 2048 + i / 32) := by
    simp only [Room.putMask, Tab.get_foldl_set_range, Nat.add_sub_cancel_left]
    exact if_congr (by omega) rfl rfl
  rw [Room.maskBit, decide_eq_true hi, Bool.true_and, hword]
  by_cases hin : i / 32 < ceilDiv n 32
  · rw [if_pos hin, BitVec.getLsbD_ofNat, decide_eq_true hb, Bool.true_and, testBit_maskOf, hold]
    simp [hb, hsplit]
  · have hlt : ¬ i < n := by
      simp only [ceilDiv] at hin
      omega
    rw [if_neg hin, if_neg hlt, hold, bitOf_eq_testBit, BitVec.testBit_toNat]

/-! ## What an instruction computes -/

@[simp] theorem packWords_length (bits per n : Nat) (l : List Nat) : (packWords bits per n l).length = n := by
  induction n generalizing l with
  | zero => rfl
  | succ n ih => rw [packWords, List.length_cons, ih]

section Result
variable (s : State) (room : Nat) {v : VInstr} (n : Nat)

/-- An instruction that does not compress gives one word for each result, and no count. -/
theorem State.vecResult_of_dense (h : ∀ m, v.pack ≠ .compress m) : (s.vecResult room v n).1.length = n ∧ (s.vecResult room v n).2.2 = none := by
  cases hp : v.pack with
  | bypass => simp [State.vecResult, hp, VInstr.perWord]
  | narrow e fromFp sat => simp [State.vecResult, hp]
  | block4 off fromFp => simp [State.vecResult, hp]
  | compress m => exact absurd hp (h m)

/-- Without packing the result words are the elements. -/
theorem State.vecResult_of_bypass (h : v.pack = .bypass) : (s.vecResult room v n).1 = (List.range n).map (s.vecElem room v) := by
  simp [State.vecResult, h, VInstr.perWord]

/-- The elements that a compress keeps, and their number (R170, R172). -/
theorem State.vecResult_of_compress {m : Fin 32} (h : v.pack = .compress m) (kept : List Nat)
    (hkept : kept = ((List.range n).filter ((s.room room).maskBit m)).map (s.vecElem room v)) :
    s.vecResult room v n = (kept ++ List.replicate (n - kept.length) 0, [], some kept.length) := by
  have hzip : ((List.range n).map (s.vecElem room v)).zipIdx = (List.range n).map (fun i => (s.vecElem room v i, i)) := by
    refine List.ext_getElem (by simp) (fun i hi hi' => by simp)
  simp only [State.vecResult, h, VInstr.perWord, Nat.mul_one, hzip, List.filter_map, List.map_map, hkept]
  rfl

end Result

/-! ## What an instruction leaves -/

/-- From `x` to `y` nothing changed that the vector engine of a room holds. -/
structure Room.SameVector (x y : Room) : Prop where
  vregs : y.vregs = x.vregs
  vcount : y.vcount = x.vcount
  lastCfg : y.lastCfg = x.lastCfg

theorem Room.SameVector.refl (x : Room) : x.SameVector x := ⟨rfl, rfl, rfl⟩

theorem Room.SameVector.trans {x y z : Room} (h : x.SameVector y) (h' : y.SameVector z) : x.SameVector z :=
  ⟨h'.vregs.trans h.vregs, h'.vcount.trans h.vcount, h'.lastCfg.trans h.lastCfg⟩

theorem Room.countOp_rest (x : Room) : ∃ b, x.countOp = { x with block := b } := by
  unfold Room.countOp
  split
  · split
    · exact ⟨_, rfl⟩
    · exact ⟨_, rfl⟩
  · exact ⟨_, rfl⟩

theorem State.sameVector_countOp (s : State) (room q : Nat) : (s.room room).SameVector ((s.countOp room q).room room) := by
  obtain ⟨b, hb⟩ := (s.room room).countOp_rest
  rw [State.countOp, State.room_setRoom_same, hb]
  exact ⟨rfl, rfl, rfl⟩

theorem State.sameVector_countRead {s : State} {x : Span} (h : x.cellar = false) : (s.room x.room).SameVector ((s.countRead x).room x.room) := by
  simp only [State.countRead, h, Bool.false_eq_true, if_false, State.room_setRoom_same]
  exact ⟨rfl, rfl, rfl⟩

theorem State.sameVector_countReads {r : Nat} {l : List Span} (h : ∀ e, e ∈ l → e.cellar = false ∧ e.room = r) (s : State) :
    (s.room r).SameVector ((l.foldl State.countRead s).room r) := by
  refine List.foldlRecOn (motive := fun t : State => (s.room r).SameVector (t.room r)) l _ (.refl _) (fun t ht e he => ?_)
  obtain ⟨hcellar, rfl⟩ := h e he
  exact ht.trans (State.sameVector_countRead hcellar)

theorem State.sameVector_digest (s : State) (p room space rel off : Nat) (data : List Byte) :
    (s.room room).SameVector ((s.digest p room space rel off data).room room) := by
  cases hb : (s.room room).block with
  | none =>
    simp only [State.digest, hb]
    exact .refl _
  | some b =>
    obtain h | ⟨d1, d2, h⟩ := State.digest_block hb p space rel off data
    · rw [h]
      exact .refl _
    · rw [h, State.room_setRoom_same]
      exact ⟨rfl, rfl, rfl⟩

theorem State.sameVector_putAttic (s : State) (room off : Nat) (data : List Byte) : (s.room room).SameVector ((s.putAttic room off data).room room) := by
  have hcount : (s.room room).SameVector (((s.writeAttic room off data).countAtticWr room off data.length).room room) := by
    rw [State.countAtticWr, State.room_setRoom_same]
    exact ⟨rfl, rfl, rfl⟩
  obtain h | ⟨p, rel, h⟩ := s.putAttic_cases room off data
  · rwa [h]
  · rw [h]
    exact hcount.trans (State.sameVector_digest _ _ _ _ _ _ _)

/-- The runs of bytes that an instruction writes into its room's attic: its destination's words, and the scale bytes of a block packing (R167, R175). -/
def State.vecStores (s : State) (room : Nat) (v : VInstr) (n : Nat) : List (Nat × List Byte) :=
  (match v.dstAttic with | some o => [(o, bytesOfWords (s.vecStored room v n))] | none => []) ++
    (match v.pack with | .block4 off _ => [(off, (s.vecResult room v n).2.1.flatMap (leBytes 1))] | _ => [])

/-- Runs of bytes written into a room's attic, one after another. -/
def State.putRunsAttic (s : State) (room : Nat) (l : List (Nat × List Byte)) : State := l.foldl (fun u w => u.putAttic room w.1 w.2) s

/-- What an instruction does in its room, once its reads are counted. -/
def State.vecEffect (s : State) (room : Nat) (v : VInstr) (n : Nat) (t : State) : State :=
  let x := { (t.room room).vecBusy (if n = 0 then 0 else max 1 (v.cycles n)) with lastCfg := some v }
  if n = 0 then t.setRoom room x
  else (State.putRunsAttic (t.setRoom room (s.vecWrite room v n x)) room (s.vecStores room v n)).draw (2 ^ 20)

theorem State.vecRun_of_runs {s : State} {room : Nat} {v : VInstr} {n : Nat} (hruns : s.vecRuns room = true) (hn : n = s.vecLen room v) (hmax : n ≤ 2048) :
    s.vecRun room v = (s.vecGuard room (v.reads room n)
      ((s.vecStores room v n).map (fun w => { room := room, cellar := false, off := w.1, len := w.2.length })) (s.vecEffect room v n)).seriesOp room v.tensor := by
  subst hn
  have hgoes : ¬ (!s.vecRuns room || decide (2048 < s.vecLen room v)) = true := by simpa [hruns] using hmax
  exact if_neg hgoes

/-- What writes of runs into a room's attic leave: the runs in the attic, and nothing else of memory where there are none. -/
theorem State.putRunsAttic_spec (s : State) (room : Nat) (l : List (Nat × List Byte)) :
    s.SameOutside (s.putRunsAttic room l) room ∧ (s.room room).SameVector ((s.putRunsAttic room l).room room) ∧
      (s.putRunsAttic room l).mem.attic = l.foldl (fun m w => Mem.write m (atticKey room w.1) w.2) s.mem.attic := by
  induction l generalizing s with
  | nil => exact ⟨.refl s room, .refl _, rfl⟩
  | cons w l ih =>
    obtain ⟨hout, hvec, hattic⟩ := ih (s.putAttic room w.1 w.2)
    refine ⟨(s.sameOutside_putAttic room w.1 w.2).trans hout, (s.sameVector_putAttic room w.1 w.2).trans hvec, hattic.trans ?_⟩
    rw [State.putAttic_attic, List.foldl_cons]

/-- The spans of a source lie in the room's attic. -/
theorem VSrc.spans_own {v : VSrc} {room words : Nat} {e : Span} (h : e ∈ v.spans room words) : e.cellar = false ∧ e.room = room := by
  cases v with
  | attic off => rw [List.mem_singleton.mp h]; exact ⟨rfl, rfl⟩
  | tensor t off => rw [List.mem_singleton.mp h]; exact ⟨rfl, rfl⟩
  | _ => cases h

theorem VInstr.reads_own {v : VInstr} {room n : Nat} {e : Span} (h : e ∈ v.reads room n) : e.cellar = false ∧ e.room = room := by
  simp only [VInstr.reads, List.mem_append] at h
  obtain ((ha | hb) | hc) | hscale := h
  · exact VSrc.spans_own ha
  · exact VSrc.spans_own hb
  · exact VSrc.spans_own hc
  · split at hscale
    · rw [List.mem_singleton.mp hscale]; exact ⟨rfl, rfl⟩
    · cases hscale

/-- From `s` to `t` room `room` has run an instruction that leaves the vector registers and VCOUNT of `x` and writes the runs `stores` into its attic. -/
structure State.VectorRan (s t : State) (room : Nat) (x : Room) (stores : List (Nat × List Byte)) : Prop where
  outside : s.SameOutside t room
  vregs : (t.room room).vregs = x.vregs
  vcount : (t.room room).vcount = x.vcount
  lastCfg : (t.room room).lastCfg = x.lastCfg
  attic : t.mem.attic = stores.foldl (fun m w => Mem.write m (atticKey room w.1) w.2) s.mem.attic
  mem : stores = [] → t.mem = s.mem

theorem State.VectorRan.countOp {s t : State} {room : Nat} {x : Room} {stores : List (Nat × List Byte)} (h : s.VectorRan t room x stores) (q : Nat) :
    s.VectorRan (t.countOp room q) room x stores :=
  have hvec := t.sameVector_countOp room q
  ⟨h.outside.trans (State.sameOutside_setRoom _ _ _), hvec.vregs.trans h.vregs, hvec.vcount.trans h.vcount, hvec.lastCfg.trans h.lastCfg, h.attic, h.mem⟩

section Write
variable (s : State) (room : Nat) {v : VInstr} (n : Nat) (x : Room)

/-- The mask bits of a comparison: the comparison of each element (R170). -/
def State.cmpBit (s : State) (room : Nat) (v : VInstr) (cmp : Fin 3) (fp : Bool) (i : Nat) : Bool :=
  cmpWords cmp fp (s.vecElem room { v with compare := .bypass, approx := .bypass } i) (s.srcWord room v.cmpSrc i)

theorem State.vecWrite_of_mask {cmp : Fin 3} {fp : Bool} (h : v.compare = .mask cmp fp) :
    s.vecWrite room v n x = x.putMask v.dst n (s.cmpBit room v cmp fp) := by
  simp only [State.vecWrite, h]
  rfl

theorem State.vecWrite_of_count (h : ∀ cmp fp, v.compare ≠ .mask cmp fp) {k : Nat} (hk : (s.vecResult room v n).2.2 = some k) :
    s.vecWrite room v n x =
      { x.putReg v.dst ((s.vecResult room v n).1 ++ List.replicate (2048 - (s.vecResult room v n).1.length) 0) with vcount := k } := by
  unfold State.vecWrite
  dsimp only
  split
  next hc => exact absurd hc (h _ _)
  next hk' _ => cases hk.symm.trans hk'; rfl
  next hk' _ => cases hk.symm.trans hk'

theorem State.vecWrite_of_dense (h : ∀ cmp fp, v.compare ≠ .mask cmp fp) (hk : (s.vecResult room v n).2.2 = none) :
    s.vecWrite room v n x = x.putReg v.dst (s.vecResult room v n).1 := by
  unfold State.vecWrite
  dsimp only
  split
  next hc => exact absurd hc (h _ _)
  next hk' _ => cases hk.symm.trans hk'
  · rfl

/-- What an instruction's write leaves in the vector registers and VCOUNT rests on what they held alone (R167). -/
theorem State.vecWrite_congr (v : VInstr) {x y : Room} (hvregs : x.vregs = y.vregs) (hvcount : x.vcount = y.vcount) :
    (s.vecWrite room v n x).vregs = (s.vecWrite room v n y).vregs ∧ (s.vecWrite room v n x).vcount = (s.vecWrite room v n y).vcount ∧
      (s.vecWrite room v n x).lastCfg = x.lastCfg := by
  by_cases hmask : ∃ cmp fp, v.compare = .mask cmp fp
  · obtain ⟨cmp, fp, hmask⟩ := hmask
    rw [s.vecWrite_of_mask room n x hmask, s.vecWrite_of_mask room n y hmask]
    exact ⟨by simp only [Room.putMask, hvregs], hvcount, rfl⟩
  · have hmask' : ∀ cmp fp, v.compare ≠ .mask cmp fp := fun cmp fp h => hmask ⟨cmp, fp, h⟩
    cases hk : (s.vecResult room v n).2.2 with
    | some k =>
      rw [s.vecWrite_of_count room n x hmask' hk, s.vecWrite_of_count room n y hmask' hk]
      exact ⟨by simp only [Room.putReg, hvregs], rfl, rfl⟩
    | none =>
      rw [s.vecWrite_of_dense room n x hmask' hk, s.vecWrite_of_dense room n y hmask' hk]
      exact ⟨by simp only [Room.putReg, hvregs], hvcount, rfl⟩

/-- The room's registers after an instruction. -/
def State.vecRoom (s : State) (room : Nat) (v : VInstr) (n : Nat) : Room := { s.vecWrite room v n (s.room room) with lastCfg := some v }

@[simp] theorem State.vecRoom_vregs : (s.vecRoom room v n).vregs = (s.vecWrite room v n (s.room room)).vregs := rfl
@[simp] theorem State.vecRoom_vcount : (s.vecRoom room v n).vcount = (s.vecWrite room v n (s.room room)).vcount := rfl
@[simp] theorem State.vecRoom_lastCfg : (s.vecRoom room v n).lastCfg = some v := rfl

end Write

theorem State.sameOutside_draw (s : State) (m r : Nat) : s.SameOutside (s.draw m) r := ⟨rfl, fun _ _ => rfl, rfl, rfl⟩

section Run
variable {s : State} {room : Nat} {v : VInstr} {n : Nat} (hruns : s.vecRuns room = true) (hten : v.tensor = none) (hn : n = s.vecLen room v)
  (hreads : ∀ e, e ∈ v.reads room n → e.outside = false ∧ s.spanBad e = false)
include hruns hten hn hreads

/-- An instruction of clean spans reads, writes its register and its attic runs, and counts as an operation (R167, R168, R188). -/
theorem State.vecRun_ran (hmin : 1 ≤ n) (hmax : n ≤ 2048) (hstores : ∀ w, w ∈ s.vecStores room v n → w.1 + w.2.length ≤ atticBytes) :
    s.VectorRan (s.vecRun room v) room (s.vecRoom room v n) (s.vecStores room v n) := by
  have hwrites : ∀ e, e ∈ (s.vecStores room v n).map (fun w => ({ room := room, cellar := false, off := w.1, len := w.2.length } : Span)) →
      e.outside = false := fun e he => by
    obtain ⟨w, hw, rfl⟩ := List.mem_map.mp he
    simpa [Span.outside] using hstores w hw
  rw [State.vecRun_of_runs hruns hn hmax, State.vecGuard_of_clean hreads hwrites, hten]
  refine State.VectorRan.countOp ?_ 2
  obtain ⟨hout, hmem⟩ := State.foldl_countRead (l := v.reads room n) (fun e => VInstr.reads_own) s
  have hsame := State.sameVector_countReads (l := v.reads room n) (fun e => VInstr.reads_own) s
  generalize (v.reads room n).foldl State.countRead s = t at hout hmem hsame
  obtain ⟨x, heffect, hx, hxcount, hxcfg⟩ : ∃ x : Room,
      s.vecEffect room v n t = (State.putRunsAttic (t.setRoom room (s.vecWrite room v n x)) room (s.vecStores room v n)).draw (2 ^ 20) ∧
        x.vregs = (s.room room).vregs ∧ x.vcount = (s.room room).vcount ∧ x.lastCfg = some v :=
    ⟨_, if_neg (by omega), hsame.vregs, hsame.vcount, rfl⟩
  obtain ⟨hvregs, hvcount, hcfg⟩ := s.vecWrite_congr room n v hx hxcount
  obtain ⟨hputs, hvec, hattic⟩ := State.putRunsAttic_spec (t.setRoom room (s.vecWrite room v n x)) room (s.vecStores room v n)
  rw [State.room_setRoom_same] at hvec
  rw [heffect]
  refine ⟨(hout.trans (State.sameOutside_setRoom _ _ _)).trans (hputs.trans (State.sameOutside_draw _ _ _)), hvec.vregs.trans hvregs, hvec.vcount.trans hvcount,
    hvec.lastCfg.trans (hcfg.trans hxcfg), hattic.trans (by rw [State.setRoom_mem, hmem]), fun hnil => ?_⟩
  rw [hnil]
  exact hmem

/-- An instruction of length 0 writes nothing (R172). -/
theorem State.vecRun_ran_of_zero (hzero : n = 0) (hstores : s.vecStores room v n = []) :
    s.VectorRan (s.vecRun room v) room { s.room room with lastCfg := some v } [] := by
  rw [State.vecRun_of_runs hruns hn (by omega), hstores, List.map_nil, State.vecGuard_of_clean hreads (by simp), hten]
  refine State.VectorRan.countOp ?_ 2
  obtain ⟨hout, hmem⟩ := State.foldl_countRead (l := v.reads room n) (fun e => VInstr.reads_own) s
  have hsame := State.sameVector_countReads (l := v.reads room n) (fun e => VInstr.reads_own) s
  simp only [State.vecEffect, if_pos hzero]
  refine ⟨hout.trans (State.sameOutside_setRoom _ _ _), ?_, ?_, ?_, by rw [State.setRoom_mem, hmem]; rfl, fun _ => hmem⟩
  · rw [State.room_setRoom_same]
    exact hsame.vregs
  · rw [State.room_setRoom_same]
    exact hsame.vcount
  · rw [State.room_setRoom_same]

end Run

/-! ## The runs that an instruction writes -/

section Stores
variable (s : State) (room : Nat) {v : VInstr} (n : Nat)

theorem State.vecStores_of_words (h : ∀ o b, v.pack ≠ .block4 o b) :
    s.vecStores room v n = v.dstAttic.elim [] (fun o => [(o, bytesOfWords (s.vecStored room v n))]) := by
  unfold State.vecStores
  cases hp : v.pack with
  | block4 o b => exact absurd hp (h o b)
  | _ => cases v.dstAttic <;> rfl

/-- The attic destination's words lie in the attic (R188). -/
theorem State.vecStores_fit (h : ∀ o b, v.pack ≠ .block4 o b) (hfits : ∀ o, v.dstAttic = some o → o + 4 * (s.vecStored room v n).length ≤ atticBytes) :
    ∀ w, w ∈ s.vecStores room v n → w.1 + w.2.length ≤ atticBytes := by
  intro w hw
  rw [s.vecStores_of_words room n h] at hw
  cases ho : v.dstAttic with
  | none => rw [ho] at hw; cases hw
  | some o =>
    rw [ho] at hw
    rw [List.mem_singleton.mp hw, bytesOfWords_length]
    exact hfits o ho

theorem State.vecStores_of_block4 {o : Nat} {b : Bool} (h : v.pack = .block4 o b) (hdst : v.dstAttic = none) :
    s.vecStores room v n = [(o, (s.vecResult room v n).2.1.flatMap (leBytes 1))] := by
  simp [State.vecStores, h, hdst]

theorem State.vecStored_of_words (h : ∀ cmp fp, v.compare ≠ .mask cmp fp) : s.vecStored room v n = (s.vecResult room v n).1 := by
  unfold State.vecStored
  split
  next hc => exact absurd hc (h _ _)
  next => rfl

theorem State.vecStored_of_mask {cmp : Fin 3} {fp : Bool} (h : v.compare = .mask cmp fp) :
    s.vecStored room v n =
      (List.range (ceilDiv n 32)).map (fun j => (Tab.get 0 (s.vecWrite room v n (s.room room)).vregs (v.dst * 2048 + j)).toNat) := by
  simp [State.vecStored, h]

end Stores

/-- A byte of the run that an instruction writes into its room's attic. -/
theorem State.VectorRan.byte {s t : State} {room o : Nat} {x : Room} {data : List Byte} (h : s.VectorRan t room x [(o, data)]) {i : Nat} (hi : i < data.length) :
    Mem.byte t.mem.attic (atticKey room (o + i)) = data.getD i 0 := by
  have hoff : atticKey room (o + i) - atticKey room o = i := by
    simp only [atticKey]
    omega
  rw [h.attic, List.foldl_cons, List.foldl_nil, Mem.byte_write, if_pos (by simp only [atticKey]; omega), hoff]

theorem exec_vectorOperation {s : State} {r : RoomId} {v : VInstr} (h : v.tensor = none) : exec (.vectorOperation r v) s = .next (s.vecRun r v) := by
  change execVectorOperation r v s = _
  simp [execVectorOperation, State.onTensors, h]

/-! ## COMPRESS and EXPAND -/

theorem getD_append_zeros (l : List Nat) (k i : Nat) : (l ++ List.replicate k 0).getD i 0 = l.getD i 0 := by
  simp only [List.getD_eq_getElem?_getD, List.getElem?_append, List.getElem?_replicate]
  split
  · rfl
  next h =>
    rw [List.getElem?_eq_none (Nat.not_lt.mp h)]
    split <;> rfl

/-- COMPRESS as an instruction: every stage but the last is bypassed. -/
def compressVec (src : VSrc) (m dst : Fin 32) (n : Nat) : VInstr := { plainVec n src dst with pack := .compress m, tensor := src.tensors }

/-- EXPAND as an instruction: every stage but the first is bypassed. -/
def expandVec (src : VSrc) (runLen : Nat) (m : Fin 32) (fill : VSrc) (dst : Fin 32) (n : Nat) : VInstr :=
  { plainVec n src dst with b := fill, convert := .expand m runLen, tensor := src.tensors }

theorem approxStage_bypass (a : Nat) : approxStage .bypass a = a := rfl

section Plain
variable {s : State} {r : RoomId} {src fill : VSrc} {runLen n : Nat} {m dst : Fin 32}

theorem exec_compress_short (h : src.tensors = none) (hn : n ≤ 2048) : exec (.compress r src m dst n) s = .next (s.vecRun r (compressVec src m dst n)) := by
  change execCompress r src m dst n s = _
  simp [execCompress, State.onTensors, h, hn, compressVec]

theorem exec_compress_long (h : src.tensors = none) (hn : 2048 < n) : exec (.compress r src m dst n) s = .next (s.compressLong r src m dst n) := by
  change execCompress r src m dst n s = _
  simp [execCompress, State.onTensors, h, Nat.not_le.mpr hn]

theorem exec_expand (h : src.tensors = none) : exec (.expand r src runLen m fill dst n) s = .next (s.vecRun r (expandVec src runLen m fill dst n)) := by
  change execExpand r src runLen m fill dst n s = _
  simp [execExpand, State.onTensors, h, expandVec]

theorem compressVec_reads (room : Nat) : (compressVec src m dst n).reads room n = src.spans room n := by
  simp [compressVec, plainVec, VInstr.reads, VInstr.perWord, VSrc.spans]

theorem expandVec_reads (room : Nat) : (expandVec src runLen m fill dst n).reads room n = src.spans room runLen ++ fill.spans room n := by
  simp [expandVec, plainVec, VInstr.reads, VInstr.perWord, VSrc.spans]

theorem State.vecElem_compressVec (room : Nat) : s.vecElem room (compressVec src m dst n) = s.srcWord room src := by
  funext i
  exact approxStage_bypass _

theorem State.vecElem_expandVec (room : Nat) : s.vecElem room (expandVec src runLen m fill dst n) = s.expandWord room src m runLen fill := by
  funext i
  exact approxStage_bypass _

end Plain

/-! ## COMPRESS over more than one register -/

section Long
variable {s : State} {r : Nat} {src : VSrc} {m dst : Fin 32} {n : Nat}

/-- The spans that a compress over more than one register reads. -/
def VSrc.longSpans (src : VSrc) (r n : Nat) : List Span :=
  (List.range (ceilDiv n 2048)).flatMap (fun k => (src.piece k).spans r (min 2048 (n - 2048 * k)))

/-- The registers that a compress over more than one register writes, and VCOUNT (R172, log 84). -/
def State.keptRegs (s : State) (r : Nat) (src : VSrc) (m dst : Fin 32) (n : Nat) (x : Room) : Room :=
  let kept := s.keptWords r src m n
  let pieces := max 1 (ceilDiv kept.length 2048)
  { (List.range pieces).foldl (fun y k => y.putReg (dst + Fin.ofNat 32 k : Fin 32)
      (((kept ++ List.replicate (2048 * pieces - kept.length) 0).drop (2048 * k)).take 2048)) x with vcount := kept.length }

theorem State.compressLong_of_runs (hruns : s.vecRuns r = true) :
    s.compressLong r src m dst n = (s.vecGuard r (src.longSpans r n) [] (fun t =>
      t.setRoom r (s.keptRegs r src m dst n ((t.room r).vecBusy (ceilDiv n (if src.slow then 128 else 256)))))).seriesOp r src.tensors := by
  have hgoes : ¬ (!s.vecRuns r) = true := by simp [hruns]
  exact if_neg hgoes

theorem getD_take_drop (l : List Nat) (a i : Nat) (h : i < 2048) : ((l.drop a).take 2048).getD i 0 = l.getD (a + i) 0 := by
  simp [List.getD_eq_getElem?_getD, h]

/-- The words kept stand in the registers in turn, the last one's rest filled with zeros. -/
theorem State.keptRegs_get (hfits : (s.keptWords r src m n).length ≤ 65536) (x : Room) {k i : Nat}
    (hk : k < max 1 (ceilDiv (s.keptWords r src m n).length 2048)) (hi : i < 2048) :
    Tab.get 0 (s.keptRegs r src m dst n x).vregs ((dst + Fin.ofNat 32 k : Fin 32).val * 2048 + i) =
      BitVec.ofNat 32 ((s.keptWords r src m n).getD (2048 * k + i) 0) := by
  refine (Room.putRegs_get x dst ?_ (fun j hj => ?_) hk hi).trans ?_
  · simp only [ceilDiv]
    omega
  · simp only [ceilDiv] at hj
    simp only [ceilDiv, List.length_take, List.length_drop, List.length_append, List.length_replicate]
    omega
  · rw [getD_take_drop _ _ _ hi, getD_append_zeros]

theorem VSrc.longSpans_own {e : Span} (h : e ∈ src.longSpans r n) : e.cellar = false ∧ e.room = r := by
  obtain ⟨k, -, hk⟩ := List.mem_flatMap.mp h
  exact VSrc.spans_own hk

/-- A compress of any length of clean spans reads, writes the words kept into its registers, and counts as an operation (R172). -/
theorem State.compressLong_ran (hruns : s.vecRuns r = true) (hten : src.tensors = none) (hreads : ∀ e, e ∈ src.longSpans r n → e.outside = false ∧ s.spanBad e = false) :
    ∃ x : Room, s.VectorRan (s.compressLong r src m dst n) r (s.keptRegs r src m dst n x) [] := by
  rw [State.compressLong_of_runs hruns, State.vecGuard_of_clean hreads (by simp), hten]
  obtain ⟨hout, hmem⟩ := State.foldl_countRead (l := src.longSpans r n) (fun e => VSrc.longSpans_own) s
  generalize (src.longSpans r n).foldl State.countRead s = t at hout hmem
  refine ⟨(t.room r).vecBusy (ceilDiv n (if src.slow then 128 else 256)), State.VectorRan.countOp ?_ 2⟩
  refine ⟨hout.trans (State.sameOutside_setRoom _ _ _), ?_, ?_, ?_, congrArg Mem.attic hmem, fun _ => hmem⟩ <;> rw [State.room_setRoom_same]

end Long

/-! ## Instructions on tensors -/

section Tensors
variable {s : State} {r p : Nat} {t : TensorRef} {elementwise : Bool} {reads : List Span} {run : State → State} (howner : s.ownerOf r = some p)
  (hhot : s.opHot p (t.dst :: t.ins) = false)
include howner hhot

/-- Operands that the decision turns down end the operation with the label line alone (R76, R184). -/
theorem State.tensorRun_of_ends (hends : (tensorDecision (t.ins.map (s.labelAt (s.part p) r)) elementwise).ends = true) :
    s.tensorRun r t elementwise reads run =
      (s.performRoom p r t.dst (RoomResult.ofStop (tensorDecision (t.ins.map (s.labelAt (s.part p) r)) elementwise) (t.ins.map (·.labelSpan r)))).countOp r 2 := by
  simp only [State.tensorRun, howner, hhot, hends, Bool.false_eq_true, if_false, if_true]

/-- The last instruction of a series is followed by the result's label (R167, R561). -/
theorem State.tensorRun_of_last {d : Decision} {u : State} (hd : d = tensorDecision (t.ins.map (s.labelAt (s.part p) r)) elementwise) (hgoes : d.ends = false)
    (hlast : t.last = true) (hclean : ∀ e, e ∈ t.ins.map (·.labelSpan r) ++ reads → s.spanBad e = false)
    (htaint : (s.room r).readsTaint (t.ins.map (·.labelSpan r) ++ reads) = false) (hu : u = run ((t.ins.map (·.labelSpan r)).foldl State.countRead s))
    (hblock : (u.room r).block.any (fun b => b.error.isSome || b.failed) = false) :
    s.tensorRun r t elementwise reads run =
      (u.putLabel p r t.dst { d.lab with producer := s.producer p r }).setRoom r
        (((u.putLabel p r t.dst { d.lab with producer := s.producer p r }).room r).noteOp none false t.dst) := by
  subst hd hu
  have hbad : (t.ins.map (·.labelSpan r) ++ reads).any s.spanBad = false := List.any_eq_false.mpr (fun e he => by simp [hclean e he])
  have hlabels : (t.ins.map (·.labelSpan r)).any s.spanBad = false := List.any_eq_false.mpr (fun e he => by simp [hclean e (List.mem_append_left _ he)])
  simp only [State.tensorRun, howner, hhot, hgoes, hlast, hbad, hlabels, htaint, hblock, Bool.false_eq_true, if_false, Bool.and_false, Bool.or_self, Bool.not_true]

end Tensors

/-- A vector command of a room whose queue issues, on tensors (R184). -/
theorem exec_onTensors {s : State} {r : RoomId} {t : TensorRef} {c : Instr} {all : Bool} (hruns : s.vecRuns r = true)
    (hc : (∃ v, c = .vectorOperation r v ∧ v.tensor = some t ∧ all = true) ∨
      (∃ src m dst n, c = .compress r src m dst n ∧ src.tensors = some t ∧ all = false) ∨
      (∃ src len m fill dst n, c = .expand r src len m fill dst n ∧ src.tensors = some t ∧ all = false)) :
    ∃ reads run, exec c s = .next (s.tensorRun r t all reads run) := by
  have hgoes (reads : List Span) (run : State → State) : s.onTensors r (some t) all reads run = s.tensorRun r t all reads run := if_pos hruns
  obtain ⟨v, rfl, ht, rfl⟩ | ⟨src, m, dst, n, rfl, ht, rfl⟩ | ⟨src, len, m, fill, dst, n, rfl, ht, rfl⟩ := hc
  · exact ⟨_, _, congrArg _ ((congrArg (fun o => s.onTensors r o _ _ _) ht).trans (hgoes _ _))⟩
  · exact ⟨_, _, congrArg _ ((congrArg (fun o => s.onTensors r o _ _ _) ht).trans (hgoes _ _))⟩
  · exact ⟨_, _, congrArg _ ((congrArg (fun o => s.onTensors r o _ _ _) ht).trans (hgoes _ _))⟩

/-- Element-wise operands of unlike shapes end with FORM_MISMATCH (R184). -/
theorem tensorDecision_of_unlike {ins : List LabelIn} (hclean : inputCause ins = none) (hshape : shapesAgree (ins.map (·.lab)) = false) :
    tensorDecision ins true = .stop { leadOf ins with form := 3, poison := false, cause := 0 } cForm true := by
  simp [tensorDecision, hclean, hshape]

/-! ## The clauses -/

section Clauses
variable {s : State} {r : RoomId} {v : VInstr} {n : Nat}

/-- The register of an instruction that writes one word for each result. -/
theorem State.VectorRan.denseWords {t : State} {stores : List (Nat × List Byte)} (hmax : n ≤ 2048) (hmask : ∀ c f, v.compare ≠ .mask c f)
    (hpack : ∀ m, v.pack ≠ .compress m) (h : s.VectorRan t r (s.vecRoom r v n) stores) :
    (∀ i, i < n → Tab.get 0 (t.room r).vregs (v.dst * 2048 + i) = BitVec.ofNat 32 ((s.vecResult r v n).1.getD i 0)) ∧
      (∀ j, j < v.dst * 2048 ∨ v.dst * 2048 + n ≤ j → Tab.get 0 (t.room r).vregs j = Tab.get 0 (s.room r).vregs j) ∧
      (t.room r).vcount = (s.room r).vcount := by
  obtain ⟨hlen, hcount⟩ := s.vecResult_of_dense r n hpack
  have hwrite := s.vecWrite_of_dense r n (s.room r) hmask hcount
  have hvregs : (t.room r).vregs = ((s.room r).putReg v.dst (s.vecResult r v n).1).vregs := h.vregs.trans (congrArg Room.vregs hwrite :)
  rw [hvregs]
  refine ⟨fun i hi => Room.putReg_get_word _ _ (by omega) (by omega), fun j hj => Room.putReg_get_other _ _ (by omega) (by omega), ?_⟩
  exact h.vcount.trans (congrArg Room.vcount hwrite :)

/-- The register and the attic run of a compare that writes mask bits (R167, R170). -/
theorem State.VectorRan.maskBits {t : State} {stores : List (Nat × List Byte)} {cmp : Fin 3} {fp : Bool} (hmask : v.compare = .mask cmp fp)
    (h : s.VectorRan t r (s.vecRoom r v n) stores) :
    (∀ i, i < 2048 → (t.room r).maskBit v.dst i = if i < n then s.cmpBit r v cmp fp i else (s.room r).maskBit v.dst i) ∧
      (t.room r).vcount = (s.room r).vcount := by
  have hwrite := s.vecWrite_of_mask r n (s.room r) hmask
  have hbit (i : Nat) : (t.room r).maskBit v.dst i = ((s.room r).putMask v.dst n (s.cmpBit r v cmp fp)).maskBit v.dst i := by
    simp only [Room.maskBit, h.vregs, State.vecRoom_vregs, hwrite]
  exact ⟨fun i hi => (hbit i).trans (Room.maskBit_putMask _ _ _ _ hi), h.vcount.trans (congrArg Room.vcount hwrite :)⟩

/-- A byte of an attic destination that receives the words of a mask register. -/
theorem State.VectorRan.maskByte {t : State} {o : Nat} {cmp : Fin 3} {fp : Bool} (hmask : v.compare = .mask cmp fp)
    (h : s.VectorRan t r (s.vecRoom r v n) [(o, bytesOfWords (s.vecStored r v n))]) {j i : Nat} (hj : j < ceilDiv n 32)
    (hi : i < 4) :
    Mem.byte t.mem.attic (atticKey r (o + 4 * j + i)) = (leBytes 4 (Tab.get 0 (t.room r).vregs (v.dst * 2048 + j)).toNat).getD i 0 := by
  have hlen : (s.vecStored r v n).length = ceilDiv n 32 := by simp [s.vecStored_of_mask r n hmask]
  have hword : (s.vecStored r v n)[j]? = some (Tab.get 0 (t.room r).vregs (v.dst * 2048 + j)).toNat := by
    simp [s.vecStored_of_mask r n hmask, hj, h.vregs]
  rw [Nat.add_assoc, h.byte (by rw [bytesOfWords_length]; omega), bytesOfWords_getD hword hi]

/-- A scale byte of a block packing (R175). -/
theorem flatMap_byte_getD {l : List Nat} {i : Nat} (hi : i < l.length) : ((l.flatMap (leBytes 1)).getD i 0).toNat = l.getD i 0 % 256 := by
  have hbytes : l.flatMap (leBytes 1) = l.map (BitVec.ofNat 8) := List.map_eq_flatMap.symm
  simp [hbytes, List.getD_eq_getElem?_getD, hi]

end Clauses

section Dense
variable {s : State} {r : RoomId} {src fill : VSrc} {m dst : Fin 32} {n runLen : Nat} (hruns : s.vecRuns r = true) (hten : src.tensors = none) (hmin : 1 ≤ n)
  (hmax : n ≤ 2048)
include hruns hten hmin hmax

/-- COMPRESS within one register: the elements kept, then zeros, and their number in VCOUNT (R170, R172). -/
theorem State.vecRun_compressVec (hreads : ∀ e, e ∈ src.spans r n → e.outside = false ∧ s.spanBad e = false) {kept : List Nat}
    (hkept : kept = ((List.range n).filter ((s.room r).maskBit m)).map (s.srcWord r src)) :
    ∃ x : Room, s.VectorRan (s.vecRun r (compressVec src m dst n)) r x [] ∧ x.vcount = kept.length ∧
      ∀ i, i < 2048 → Tab.get 0 x.vregs (dst * 2048 + i) = BitVec.ofNat 32 (kept.getD i 0) := by
  have hstores : s.vecStores r (compressVec src m dst n) n = [] := s.vecStores_of_words r n nofun
  have hran := State.vecRun_ran (v := compressVec src m dst n) (n := n) hruns hten rfl (by rwa [compressVec_reads]) hmin hmax (by simp [hstores])
  have hresult := s.vecResult_of_compress r n (v := compressVec src m dst n) rfl kept (by rw [hkept, State.vecElem_compressVec])
  have hwrite := s.vecWrite_of_count r n (v := compressVec src m dst n) (s.room r) nofun (congrArg (·.2.2) hresult)
  have hlen : kept.length ≤ n := by
    rw [hkept, List.length_map]
    exact (List.length_filter_le _ _).trans_eq List.length_range
  rw [hstores] at hran
  refine ⟨_, hran, (congrArg Room.vcount hwrite :), fun i hi => ?_⟩
  rw [State.vecRoom_vregs, hwrite, hresult]
  refine (Room.putReg_get_word _ _ ?_ ?_).trans ?_
  · simp only [List.length_append, List.length_replicate]
    omega
  · simp only [List.length_append, List.length_replicate]
    omega
  · rw [getD_append_zeros, getD_append_zeros]

/-- EXPAND: at each set mask bit the run's next element, the fill elsewhere (R171). -/
theorem State.vecRun_expandVec (hreads : ∀ e, e ∈ src.spans r runLen ++ fill.spans r n → e.outside = false ∧ s.spanBad e = false) :
    ∃ x : Room, s.VectorRan (s.vecRun r (expandVec src runLen m fill dst n)) r x [] ∧ x.vcount = (s.room r).vcount ∧
      ∀ i, i < n → Tab.get 0 x.vregs (dst * 2048 + i) = BitVec.ofNat 32 (s.expandWord r src m runLen fill i) := by
  have hstores : s.vecStores r (expandVec src runLen m fill dst n) n = [] := s.vecStores_of_words r n nofun
  have hran := State.vecRun_ran (v := expandVec src runLen m fill dst n) (n := n) hruns hten rfl (by rwa [expandVec_reads]) hmin hmax (by simp [hstores])
  have hresult : (s.vecResult r (expandVec src runLen m fill dst n) n).1 = (List.range n).map (s.expandWord r src m runLen fill) := by
    rw [s.vecResult_of_bypass r n rfl, State.vecElem_expandVec]
  have hwrite := s.vecWrite_of_dense r n (v := expandVec src runLen m fill dst n) (s.room r) nofun rfl
  rw [hstores] at hran
  refine ⟨_, hran, (congrArg Room.vcount hwrite :), fun i hi => ?_⟩
  rw [State.vecRoom_vregs, hwrite, hresult]
  refine (Room.putReg_get_word _ _ (by simpa using hmax) (by simpa using hi)).trans ?_
  simp [List.getD_eq_getElem?_getD, hi]

end Dense

/-- Settles O43: what an instruction leaves in its room's registers and attic, for each way in which it writes; on tensors, the decision on their labels. -/
theorem vectorChainWritesItsDestination : Obligations.VectorChainWritesItsDestination := by
  refine ⟨fun s r v n hruns hten hn hmin hmax hreads hmask hpack hblock hfits => ?_,
    fun s r v n o b hruns hten hn hmin hmax hpack hreads hmask hdst hfits => ?_,
    fun s r v n cmp fp hruns hten hn hmin hmax hmask hreads hpack hfits => ?_,
    fun s r src m dst n hruns hten hmin hmax hreads => ?_, fun s r src m dst n hruns hten hlong hfits hreads => ?_,
    fun s r src fill runLen m dst n hruns hten hmin hmax hreads => ?_, fun s r v hruns hten hfrom hzero hreads hdst hpack => ?_,
    fun s r t p c all hc hruns howner hhot hends => ?_, fun s u r v t p d hruns howner hten hhot hd hgoes hlast hclean htaint hu hblock => ?_,
    fun ins hclean hform hshape => ?_⟩
  · -- result words
    obtain ⟨hlen, -⟩ := s.vecResult_of_dense r n hpack
    have hstores := s.vecStores_of_words r n hblock
    rw [s.vecStored_of_words r n hmask] at hstores
    have hran := State.vecRun_ran hruns hten hn hreads hmin hmax (s.vecStores_fit r n hblock (by rwa [s.vecStored_of_words r n hmask, hlen]))
    obtain ⟨hwords, hother, hcount⟩ := hran.denseWords hmax hmask hpack
    rw [hstores] at hran
    refine ⟨_, exec_vectorOperation hten, hwords, hother, hcount, hran.lastCfg, fun o i ho hi => ?_, fun ho => hran.mem (by rw [ho]; rfl),
      hran.outside.cellar, hran.outside.rooms, hran.outside.parts, hran.outside.fns⟩
    rw [ho] at hran
    exact hran.byte (by rwa [bytesOfWords_length, hlen])
  · -- a block packing and its scale bytes
    have hstores := s.vecStores_of_block4 r n hpack hdst
    have hlen : ((s.vecResult r v n).2.1.flatMap (leBytes 1)).length = (s.vecResult r v n).2.1.length := by simp [leBytes_length]
    have hran := State.vecRun_ran hruns hten hn hreads hmin hmax (fun w hw => by
      obtain rfl : w = _ := by simpa [hstores] using hw
      rwa [hlen])
    obtain ⟨hwords, -, -⟩ := hran.denseWords hmax hmask (by rw [hpack]; nofun)
    rw [hstores] at hran
    refine ⟨_, exec_vectorOperation hten, hwords, fun i hi => ?_⟩
    rw [hran.byte (hi.trans_eq hlen.symm), flatMap_byte_getD hi]
  · -- mask bits
    have hblock : ∀ o b, v.pack ≠ .block4 o b := by rw [hpack]; nofun
    have hstores := s.vecStores_of_words r n hblock
    have hran := State.vecRun_ran hruns hten hn hreads hmin hmax (s.vecStores_fit r n hblock (by simpa [s.vecStored_of_mask r n hmask] using hfits))
    obtain ⟨hbits, hcount⟩ := hran.maskBits hmask
    rw [hstores] at hran
    refine ⟨_, exec_vectorOperation hten, fun i hi => (hbits i (by omega)).trans (if_pos hi), fun i hi hreg => (hbits i hreg).trans (if_neg (by omega)), hcount,
      fun ho => hran.mem (by rw [ho]; rfl), hran.outside.cellar, fun o j i ho hj hi => ?_, hran.outside.rooms⟩
    rw [ho] at hran
    exact hran.maskByte hmask hj hi
  · -- COMPRESS
    obtain ⟨x, hran, hcount, hwords⟩ := State.vecRun_compressVec (m := m) (dst := dst) hruns hten hmin hmax hreads rfl
    refine ⟨_, exec_compress_short hten hmax, hran.vcount.trans (hcount.trans (List.length_map _)), fun i hi => ?_, hran.mem rfl, hran.outside.rooms⟩
    rw [hran.vregs, hwords i hi]
  · -- COMPRESS over more than one register
    obtain ⟨x, hran⟩ := State.compressLong_ran (m := m) (dst := dst) hruns hten hreads
    refine ⟨_, exec_compress_long hten hlong, hran.vcount, fun k i hk hi => ?_, hran.mem rfl, hran.outside.rooms⟩
    rw [hran.vregs, State.keptRegs_get hfits x hk hi]
  · -- EXPAND
    obtain ⟨x, hran, hcount, hwords⟩ := State.vecRun_expandVec (m := m) (dst := dst) hruns hten hmin hmax hreads
    refine ⟨_, exec_expand hten, hran.vcount.trans hcount, fun i hi => ?_, hran.mem rfl, hran.outside.rooms⟩
    rw [hran.vregs, hwords i hi]
    rfl
  · -- a VCOUNT length of 0
    have hlen : 0 = s.vecLen r v := by simp [State.vecLen, hfrom, hzero]
    have hstores : s.vecStores r v 0 = [] := by rw [s.vecStores_of_words r 0 (by rw [hpack]; nofun), hdst]; rfl
    have hran := State.vecRun_ran_of_zero hruns hten hlen hreads rfl hstores
    exact ⟨_, exec_vectorOperation hten, hran.mem rfl, hran.vregs, hran.vcount.trans hzero⟩
  · -- tensors that the decision turns down
    obtain ⟨reads, run, hexec⟩ := exec_onTensors hruns hc
    rw [hexec, State.tensorRun_of_ends howner hhot hends]
  · -- the last instruction of a series
    refine ⟨_, rfl, ?_⟩
    rw [← State.tensorRun_of_last howner hhot hd hgoes hlast hclean htaint (run := fun w => w.vecRun r v) hu hblock]
    change Host.Outcome.next (s.onTensors r v.tensor true (v.reads r (s.vecLen r v)) fun w => w.vecRun r v) = _
    rw [hten]
    exact congrArg _ (if_pos hruns)
  · rw [tensorDecision_of_unlike hclean hshape]
    exact ⟨rfl, rfl, rfl⟩

end Sys2Proof.Machine
end

section
/-! PROOFS. Encode, noise and sampling (R92, R182, R274 to R285): what the sequencer decides in a room, the words that the room writes, and the statement about
them. -/

namespace Sys2Proof.Machine

/-! ## ENCODE and FLOOD -/

/-- The runs that an operation on polynomial 0 alone writes in a room: its words of the pairs in use that the room holds (R85, R86). -/
theorem mem_ownRuns_first {x : Part} {res : Label} {room : Nat} (make : Nat → List Nat) (e : Nat × List Nat) :
    e ∈ ownRuns x res room ((res.inUse.filter (ownsPair x res room)).map (fun j => (j, 0, make j))) ↔
      ∃ j, j ∈ res.inUse ∧ ownsPair x res room j = true ∧ e = (res.limbOff x.rooms.length j 0, make j) := by
  simp only [ownRuns, List.mem_map, List.mem_filter]
  constructor
  · rintro ⟨_, ⟨⟨j, ⟨hj, hown⟩, rfl⟩, -⟩, rfl⟩
    exact ⟨j, hj, hown, rfl⟩
  · rintro ⟨j, hj, hown, rfl⟩
    exact ⟨(j, 0, make j), ⟨⟨j, ⟨hj, hown⟩, rfl⟩, hown⟩, rfl⟩

@[simp] theorem encodeLabel_polys (k : KeySet) (form1 : Bool) (keyset level : Nat) (scale : Int) (chk : Bool) (free rooms : Nat) :
    (encodeLabel k form1 keyset level scale chk free rooms).polys = 1 := Label.sized_polys _ _

/-- The values of the coefficients that an encode rounds (R182). -/
def encodeValues (k : KeySet) (form1 : Bool) (scale : Int) (free : Nat) (xs : List Flt) : List (Option Int) :=
  xs.zipIdx.map (fun e => if form1 then some (encodeCoeff1 (free + 1 + e.2) k.t e.1) else encodeCoeff0 (free + 1 + e.2) scale e.1)

/-- An encode of a sound tensor of as many elements as the ring has coefficients, none of which overflows, within its budget (R92, R182). -/
theorem State.encodeRoom_of_fits {s : State} {p room ks level : Nat} {a : Place} {form1 chk : Bool} {scale : Int} {u lab : Label} {k : KeySet}
    (hlabel : s.labelAt (s.part p) room a = { lab := u, one := true, ok := true }) (hpoison : u.poison = false) (hform : u.form = 3)
    (hks : (s.part p).keyset ks = some k) (hactive : k.active = true) (helems : u.elements = 2 ^ k.logN)
    (hlab : lab = encodeLabel k form1 ks level scale chk s.free (s.part p).rooms.length) (hcovers : k.covers lab = true) (hbudget : budgetCause k lab = none)
    {vals : List (Option Int)} (hvals : vals = encodeValues k form1 scale s.free (s.tensor (s.part p) u a)) (hsome : ∀ e, e ∈ vals → e.isSome = true)
    {res : RoomResult} (hres : res = s.encodeRoom p room a form1 ks level scale chk) :
    res.fresh = false ∧ res.mism = none ∧
      res.sets = (lab.inUse.filter (ownsPair (s.part p) lab room)).map (fun j => (ks, if lab.check && j = lab.limbs then 128 else j)) ∧
      res.Is (s.part p) room lab (fun j _ => nttForward (k.modAt lab j) k.logN (vals.map (fun x => laneConst (k.modAt lab j) (x.getD 0)))) := by
  have hd : (Decision.budget k lab).active k lab = .go lab := by rw [Decision.active_of_active hactive, Decision.budget_of_none hbudget]
  have hnone : vals.any (·.isNone) = false := List.any_eq_false.mpr (fun e he => by simpa using Option.isSome_iff_ne_none.mp (hsome e he))
  have hpolys : lab.polys = 1 := hlab ▸ encodeLabel_polys ..
  subst hvals hres
  unfold encodeValues at hnone ⊢
  unfold State.encodeRoom
  simp only [hlabel, hks, inputCause_of_clean hpoison, ← hlab, hform, helems, hcovers, hd, hnone, Decision.go, ne_eq, not_true, decide_false, Bool.or_self,
    Bool.not_true, Bool.false_eq_true, if_false]
  refine ⟨trivial, trivial, trivial, rfl, rfl, fun e => (mem_ownRuns_first _ e).trans ?_⟩
  constructor
  · rintro ⟨j, hj, hown, rfl⟩
    exact ⟨j, 0, hj, by omega, hown, rfl⟩
  · rintro ⟨j, q, hj, hq, hown, rfl⟩
    obtain rfl : q = 0 := by omega
    exact ⟨j, hj, hown, rfl⟩

theorem exec_flood {s : State} {p : PartId} {o : Place} {d : FloodOp} (hok : d.okOp = true)
    (hkeys : ∀ room, room ∈ s.opRooms p → (s.room room).noiseKey.isSome = true) :
    exec (.flood p o d) s = .next (s.runOp p o (fun room => s.floodRoom p room o d ((s.room room).noiseKey.getD 0))) := by
  have hany : (s.opRooms p).any (fun room => (s.room room).noiseKey.isNone) = false :=
    List.any_eq_false.mpr (fun room hroom => by simpa using Option.isSome_iff_ne_none.mp (hkeys room hroom))
  change execFlood p o d s = _
  simp [execFlood, hok, hany]

theorem floodRule_of_fits {b : Nat} {k : KeySet} {u base lab : Label} (hform : formOk k [0, 1] [2] u = true) (hrepr : u.repr = false)
    (hlab : lab = { u with noise := satNoise (max u.noise (if u.form = 0 then b else b + k.tau) + 256) }) (hbudget : budgetCause k lab = none) :
    floodRule b k base [u] = .go lab := by
  rw [← Decision.budget_of_none hbudget, hlab]
  exact (if_neg (by simp [hform])).trans (if_neg (by simp [hrepr]))

/-- The noise that a flood adds to coefficient `i` (R274, R275): `val` of the coefficient's block, times t in form 1. -/
def floodNoise (k : KeySet) (u : Label) (key : BitVec 256) (op : Nat) (val : Nat → Int) (i : Nat) : Int :=
  if u.form = 1 then val (noiseBlock (roundKeys (leBytes 32 key.toNat)) i op) * k.t else val (noiseBlock (roundKeys (leBytes 32 key.toNat)) i op)

/-- What a flood's distribution is, in a room (R275, R276): its width in NOISE units and the value of a block. -/
def State.FloodDist (s : State) (room : Nat) (d : FloodOp) (b : Nat) (val : Nat → Int) : Prop :=
  (∃ w, d = .uniform w ∧ b = 256 * w ∧ val = uniformCoeff w) ∨
    (∃ off tab, d = .gauss off ∧ s.gaussTable room off = some tab ∧ b = ceil256 tab.length ∧ val = gaussCoeff tab)

/-- A flood of a sound ciphertext in coefficient representation whose result is within its budget (R275, R277). -/
theorem State.floodRoom_of_fits {s : State} {p room : Nat} {o : Place} {d : FloodOp} {key : BitVec 256} {u lab : Label} {k : KeySet} {b : Nat} {val : Nat → Int}
    (hsound : s.Sound p room [o] [u] k) (hcheck : checkCause (some k) [u] = none) (hform : u.form ≤ 1) (ht : u.form = 1 → u.t = k.t) (hpolys : u.polys = 2)
    (hrepr : u.repr = false) (hdist : s.FloodDist room d b val)
    (hlab : lab = { u with noise := satNoise (max u.noise (if u.form = 0 then b else b + k.tau) + 256) }) (hbudget : budgetCause k lab = none)
    {res : RoomResult} (hres : res = s.floodRoom p room o d key) :
    res.lab = lab ∧ res.fresh = false ∧ res.mism = none ∧
      ∀ e, e ∈ res.runs ↔ ∃ j, j ∈ u.inUse ∧ ownsPair (s.part p) u room j = true ∧ e = (u.limbOff (s.part p).rooms.length j 0,
        List.zipWith (fun w v => laneAdd (k.modAt u j) w (laneConst (k.modAt u j) v)) (s.limb (s.part p) u o j 0)
          ((List.range u.n).map (floodNoise k u key (s.room room).opIndex val))) := by
  obtain ⟨hlabel, hpoison, hks⟩ := hsound.single
  have hmem : u.form ∈ [0, 1] := mem_zero_one hform
  have hrule (base : Label) : floodRule b k base [u] = .go lab :=
    floodRule_of_fits (formOk_of hmem (by simp [hpolys]) ht) hrepr hlab hbudget
  subst hres
  unfold State.floodRoom
  obtain ⟨w, rfl, rfl, rfl⟩ | ⟨off, tab, rfl, htab, rfl, rfl⟩ := hdist
  · simp only [hlabel, inputCause_of_clean hpoison, dispatchOn_of_clean hks hpoison hmem hcheck, hrule, hks, Option.isNone_some, Option.isNone_none,
      Bool.and_false, Bool.false_eq_true, if_false, Decision.go]
    exact ⟨trivial, trivial, trivial, mem_ownRuns_first _⟩
  · simp only [hlabel, inputCause_of_clean hpoison, dispatchOn_of_clean hks hpoison hmem hcheck, htab, Option.getD_some, hrule, hks, Option.isNone_some,
      Option.isNone_none, Bool.and_false, Bool.false_eq_true, if_false, Decision.go]
    exact ⟨trivial, trivial, trivial, mem_ownRuns_first _⟩

/-! ## DRAW_SEED -/

/-- Rooms that each change in turn by what they are themselves. -/
def State.mapRooms (s : State) (l : List Nat) (g : Room → Room) : State := l.foldl (fun t room => t.setRoom room (g (t.room room))) s

theorem State.mapRooms_rest (s : State) (l : List Nat) (g : Room → Room) :
    (s.mapRooms l g).mem = s.mem ∧ (s.mapRooms l g).fns = s.fns ∧ (s.mapRooms l g).parts = s.parts :=
  List.foldlRecOn (motive := fun t : State => t.mem = s.mem ∧ t.fns = s.fns ∧ t.parts = s.parts) l _ ⟨rfl, rfl, rfl⟩ (fun _ ht _ _ => ht)

theorem State.mapRooms_room (s : State) {l : List Nat} (g : Room → Room) (hl : l.Nodup) (q : Nat) :
    (s.mapRooms l g).room q = if q ∈ l then g (s.room q) else s.room q := by
  induction l generalizing s with
  | nil => rfl
  | cons r l ih =>
    obtain ⟨hr, hl⟩ := List.nodup_cons.mp hl
    refine (ih (s.setRoom r (g (s.room r))) hl).trans ?_
    rw [State.room_setRoom]
    by_cases hq : q = r
    · subst hq
      simp [hr]
    · simp [hq]

/-- A room draws its seed into a register (R279, log 31). -/
def Room.drawSeed (reg : Nat) (x : Room) : Room :=
  ({ x with scalars := Tab.set 0 x.scalars reg (seedBits (x.noiseKey.getD 0) x.opIndex) } : Room).countOp

theorem Room.drawSeed_scalars (reg : Nat) (x : Room) :
    (x.drawSeed reg).scalars = Tab.set 0 x.scalars reg (seedBits (x.noiseKey.getD 0) x.opIndex) := by
  obtain ⟨b, hb⟩ := Room.countOp_rest { x with scalars := Tab.set 0 x.scalars reg (seedBits (x.noiseKey.getD 0) x.opIndex) }
  rw [Room.drawSeed, hb]

theorem exec_drawSeed {s : State} {p : PartId} {reg : TokenId} (hkeys : ∀ room, room ∈ s.opRooms p → (s.room room).noiseKey.isSome = true) :
    exec (.drawSeed p reg) s = .next (s.mapRooms (s.opRooms p) (Room.drawSeed reg)) := by
  have hany : ¬ (s.opRooms p).any (fun room => (s.room room).noiseKey.isNone) = true := by
    simpa using fun room hroom => Option.isSome_iff_ne_none.mp (hkeys room hroom)
  exact congrArg _ (if_neg hany)

/-! ## RANDOM and SAMPLE_TOKEN -/

/-- The result of a random operation in a room (R281, R284). -/
def State.randomRoom (s : State) (p : Nat) (g : RandOp) (room : Nat) : RoomResult :=
  let x := s.part p
  if g.form.val ≠ 3 then
    RoomResult.ofStop (.stop { Label.zero with form := g.form, layout := g.layout, home := if g.layout = 1 then g.home else 0 } cForm true) []
  else
    let l := g.label x.rooms.length
    let runs := tensorRuns x l room g.rows
    { lab := l, runs := runs, fresh := false, reads := [], mism := none, tensor := true, work := some (0, 0), gate := some 0
      vec := ceilDiv (runs.map (fun e => e.2.length)).sum (if g.dist.val = 3 then 128 else 256) }

theorem exec_random {s : State} {p : PartId} {dst : Place} {g : RandOp} (hok : g.form.val = 3 → g.okOp (s.part p).rooms.length = true) :
    exec (.random p dst g) s = .next (s.runOp p dst (s.randomRoom p g) 2) := by
  have hgoes : ¬ (decide (g.form.val = 3) && !g.okOp (s.part p).rooms.length) = true := by simpa using hok
  exact congrArg _ (if_neg hgoes)

theorem getD_map_range {α : Type} {f : Nat → α} {n i : Nat} {d : α} (h : i < n) : ((List.range n).map f).getD i d = f i := by
  rw [List.getD_eq_getElem?_getD, List.getElem?_map, List.getElem?_range h]
  rfl

/-- An element of DIST 0 is the fast generator's word of its number (R281, R282). -/
theorem RandOp.rows_getD {g : RandOp} {r c : Nat} (hdist : g.dist = 0) (hc : c < g.dims.headD 1)
    (hr : r < ((List.range (g.rank - 1)).map (fun i => g.dims.getD (i + 1) 1)).foldl (· * ·) 1) :
    (g.rows.getD r []).getD c 0 = fastWord g.seed g.stream 0 ((g.base.toNat + (r * g.dims.headD 1 + c)) % 2 ^ 64) := by
  have hval : g.dist.val = 0 := congrArg Fin.val hdist
  simp only [RandOp.rows, hval, getD_map_range hr]
  exact getD_map_range hc

section Sample
variable {s : State} {p room : Nat} {a : Place} {g : SampleOp} {u : Label}
  (hlabel : s.labelAt (s.part p) room a = { lab := u, one := true, ok := true }) (hpoison : u.poison = false)
include hlabel hpoison

/-- A TEMP that is negative, infinite or no number ends a sample-token with FORM_MISMATCH (R285). -/
theorem State.sampleRoom_of_bad_temp (htemp : tempOk (dec32 g.temp.toNat) = false) :
    s.sampleRoom p room a g = RoomResult.ofStop (.stop (tensorLabel 6 1 [u.tdim 1] u.layout u.home (s.part p).rooms.length) cForm true) [a.labelSpan room] := by
  simp [State.sampleRoom, hlabel, inputCause_of_clean hpoison, LabelIn.source, htemp]

/-- The token of a row of scores: the index of the largest (R285). -/
def SampleOp.token (g : SampleOp) (xs : Array Flt) (v r : Nat) : Nat :=
  word32 (bestToken ((List.range v).map (fun i =>
    tokenScore (dec32 g.temp.toNat) (xs.getD (r * v + i) .nan) (dec32 (fastValue g.seed g.stream 4 0 0 (r * v + i))))))

/-- A sample-token of a matrix of bf16 or fp32 scores gives each row's token (R285). -/
theorem State.sampleRoom_of_scores (hform : u.form = 3) (hrank : u.rank = 2) (helem : u.elem = 0 ∨ u.elem = 5) (htemp : tempOk (dec32 g.temp.toNat) = true)
    {out : Label} (hout : out = tensorLabel 6 1 [u.tdim 1] u.layout u.home (s.part p).rooms.length) :
    (s.sampleRoom p room a g).lab = out ∧ (s.sampleRoom p room a g).fresh = false ∧ (s.sampleRoom p room a g).mism = none ∧
      (s.sampleRoom p room a g).runs =
        tensorRuns (s.part p) out room [(List.range (u.tdim 1)).map (g.token (s.tensor (s.part p) u a).toArray (u.tdim 0))] := by
  have hgoes : ¬ (decide (u.form ≠ 3) || decide (u.rank ≠ 2) || (decide (u.elem ≠ 0) && decide (u.elem ≠ 5)) || !tempOk (dec32 g.temp.toNat)) = true := by
    simp [hform, hrank, htemp]
    omega
  subst hout
  unfold State.sampleRoom
  simp only [hlabel, inputCause_of_clean hpoison, LabelIn.source, if_true]
  rw [if_neg hgoes]
  exact ⟨rfl, rfl, rfl, rfl⟩

end Sample

/-- Settles O45: each operation's result in a room by its own lemma; DRAW_SEED as a change of each dispatching room by itself. -/
theorem encodeNoiseAndSampling : Obligations.EncodeNoiseAndSampling := by
  refine ⟨fun s p dst a form1 ks level scale chk => ⟨_, rfl, ?_⟩, fun s p o d hok hkeys => ⟨_, exec_flood hok hkeys, ?_⟩,
    fun s p reg hnodup hkeys => ⟨_, exec_drawSeed hkeys, ?_⟩, fun s p dst g hok => ⟨_, exec_random hok, fun room => ⟨fun hform => ?_, fun hform => ?_⟩⟩,
    fun g r c => RandOp.rows_getD, fun s p dst a g => ⟨_, rfl, ?_⟩⟩
  · intro room u k lab vals hlabel hpoison hform hks hactive helems hlab hcovers hbudget hvals hsome
    exact State.encodeRoom_of_fits hlabel hpoison hform hks hactive helems hlab hcovers hbudget hvals hsome rfl
  · intro room u k key lab b val hsound hcheck hkey hform ht hpolys hrepr hdist hlab hbudget
    exact State.floodRoom_of_fits hsound hcheck hform ht hpolys hrepr hdist hlab hbudget (by rw [hkey]; rfl)
  · obtain ⟨hmem, hfns, hparts⟩ := s.mapRooms_rest (s.opRooms p) (Room.drawSeed reg)
    refine ⟨hmem, hfns, hparts, fun room key hroom hkey => ?_, fun room hroom => ?_⟩
    · rw [s.mapRooms_room _ hnodup, if_pos hroom, Room.drawSeed_scalars, hkey]
      rfl
    · rw [s.mapRooms_room _ hnodup, if_neg hroom]
  · have hres : s.randomRoom p g room = _ := if_neg (not_not.mpr hform)
    rw [hres]
    exact ⟨rfl, rfl, rfl, rfl⟩
  · have hres : s.randomRoom p g room = _ := if_pos hform
    rw [hres]
    exact ⟨rfl, rfl, rfl⟩
  · intro room u out hlabel hpoison hform hrank helem hout
    refine ⟨fun htemp => ?_, fun htemp => State.sampleRoom_of_scores hlabel hpoison hform hrank helem htemp hout⟩
    rw [State.sampleRoom_of_bad_temp hlabel hpoison htemp]
    exact ⟨rfl, rfl, rfl⟩

end Sys2Proof.Machine
end

section
/-! PROOFS. The queue and the canonical form of memory under every step (R188, R217, R499), from what each meaning keeps (Sys2Proof/Laws). -/

namespace Sys2Proof.Machine

/-- Every command's meaning keeps the queue and the canonical form: each constructor's arm of `exec` is a meaning with a law of its own. -/
theorem exec_keeps {q : List Instr} {s : State} (h : s.Keeps q) (i : Instr) : OutKeeps q (exec i s) := by
  cases i <;> simp [exec, h]

theorem State.memOk_iff (s : State) : s.memOk = true ↔ Mem.wf s.mem.attic = true ∧ Mem.wf s.mem.cellar = true := Bool.and_eq_true_iff

theorem step_keeps {s : State} (h : s.memOk = true) : OutKeeps s.pending.tail (step s) := by
  have hwf := s.memOk_iff.mp h
  cases hqueue : s.pending with
  | nil =>
    simp only [step, hqueue]
    exact State.tick_keeps ⟨hqueue, hwf⟩
  | cons c rest =>
    simp only [step, hqueue]
    exact exec_keeps (s := { s with pending := rest }) ⟨rfl, hwf⟩ c

/-- Settles O2: a step keeps the canonical form and takes the front command alone off the queue, by what every meaning and the tick keep. -/
theorem memoryStaysCanonical : Obligations.MemoryStaysCanonical := by
  unfold Obligations.MemoryStaysCanonical
  intro s t hmem hstep
  have hkeeps := step_keeps hmem
  rw [hstep] at hkeeps
  obtain ⟨hqueue, hwf⟩ := hkeeps
  exact ⟨t.memOk_iff.mpr hwf, hqueue⟩

end Sys2Proof.Machine
end

section
/-! PROOFS. Attic maintenance (R201 to R209, R462): what finding an error and a decision leave alone, what remaps, bank copies, the sweep and the self-test then
change, and the statement about them. -/

namespace Sys2Proof.Machine

/-! ## What a decision leaves alone (R465, R467) -/

/-- From `s` to `t` flags, histories and ledger of Gysis and the causes of the functions may have changed, and nothing else. -/
def State.Flagged (s t : State) : Prop := ∃ (fns : Tab Fn) (g : Gysis), t = { s with fns := fns, gysis := g }

theorem State.Flagged.refl (s : State) : s.Flagged s := ⟨_, _, rfl⟩

theorem State.Flagged.trans {s t u : State} : s.Flagged t → t.Flagged u → s.Flagged u := by
  rintro ⟨_, _, rfl⟩ ⟨fns, g, rfl⟩
  exact ⟨fns, g, rfl⟩

theorem State.setCause_flagged (s : State) (f k : Nat) : s.Flagged (s.setCause f k) := by
  unfold State.setCause
  dsimp only
  split
  · exact .refl s
  · split <;> exact ⟨_, _, rfl⟩

theorem State.stateChanged_flagged (s : State) : s.Flagged s.stateChanged :=
  List.foldlRecOn _ _ (.refl s) (fun t ht f _ => ht.trans (t.setCause_flagged f 0))

theorem State.setDegraded_flagged (s : State) : s.Flagged s.setDegraded := by
  unfold State.setDegraded
  split
  · exact .refl s
  · exact .trans ⟨_, _, rfl⟩ (State.stateChanged_flagged _)

theorem State.setReplace_flagged (s : State) : s.Flagged s.setReplace := by
  unfold State.setReplace
  split
  · exact .refl s
  · exact .trans ⟨_, _, rfl⟩ (State.stateChanged_flagged _)

theorem State.decided_flagged (s : State) (code level kind : Nat) (irq deg rep : Bool) (room unit wher count : Nat) :
    s.Flagged (s.decided code level kind irq deg rep room unit wher count) := by
  have hdeg : s.Flagged (if deg then s.setDegraded else s) := by
    split
    · exact s.setDegraded_flagged
    · exact .refl s
  have hrep (t : State) : t.Flagged (if rep then t.setReplace else t) := by
    split
    · exact t.setReplace_flagged
    · exact .refl t
  exact (hdeg.trans (hrep _)).trans ⟨_, _, rfl⟩

theorem State.mem_persist (s : State) (c : FaultChan) : c ∈ (s.persist c).nvm.record := by
  unfold State.persist
  dsimp only
  split
  next h => exact List.contains_iff_mem.mp h
  next => exact List.mem_append_right _ (List.mem_singleton_self c)

/-! ## What finding an error leaves alone (R212, R456) -/

/-- From `s` to `t` an error may have been found: the histories of Gysis and the lists of errors counted may have changed, and nothing else. -/
def State.Noted (s t : State) : Prop :=
  ∃ (counted rewritten : List (Nat × Nat × Nat)) (g : Gysis), t = { s with mem := { s.mem with counted := counted, rewritten := rewritten }, gysis := g }

theorem State.Noted.refl (s : State) : s.Noted s := ⟨_, _, _, rfl⟩

theorem State.Noted.trans {s t u : State} : s.Noted t → t.Noted u → s.Noted u := by
  rintro ⟨_, _, _, rfl⟩ ⟨counted, rewritten, g, rfl⟩
  exact ⟨counted, rewritten, g, rfl⟩

theorem State.Noted.room {s t : State} (h : s.Noted t) (q : Nat) : t.room q = s.room q := by
  obtain ⟨_, _, _, rfl⟩ := h
  rfl

theorem State.Noted.fns {s t : State} (h : s.Noted t) : t.fns = s.fns := by
  obtain ⟨_, _, _, rfl⟩ := h
  rfl

theorem State.note_eq (s : State) (c : FaultChan) (kind : Nat) : s.note c kind = { s with gysis := (s.note c kind).gysis } :=
  congrArg (fun t : State => { t with gysis := (s.note c kind).gysis }) (s.note_rest c kind s.gysis)

theorem State.detect_noted (s : State) (key : Nat × Nat × Nat) (c : FaultChan) (kind : Nat) : s.Noted (s.detect key c kind) := by
  unfold State.detect
  split
  · exact .refl s
  · dsimp only
    rw [State.note_eq]
    exact ⟨_, _, _, rfl⟩

theorem State.mem_counted_detect (s : State) (key : Nat × Nat × Nat) (c : FaultChan) (kind : Nat) : key ∈ (s.detect key c kind).mem.counted := by
  unfold State.detect
  split
  next h => exact List.contains_iff_mem.mp h
  next =>
    dsimp only
    rw [State.note_eq]
    exact List.mem_cons_self

theorem State.copiedRow_noted (s : State) (r layer bank row : Nat) : s.Noted (s.copiedRow r layer bank row) := by
  unfold State.copiedRow
  split
  · split
    · exact s.detect_noted ..
    · exact .refl s
  · exact .refl s

theorem State.copiedRow_of_clean {s : State} {r layer bank row : Nat}
    (h : ∀ l, s.lineOf r layer bank row = some l → s.spanBad { room := r, cellar := false, off := l * 128, len := 128 } = false) :
    s.copiedRow r layer bank row = s := by
  unfold State.copiedRow
  split
  next l hl => rw [h l hl]; rfl
  next => rfl

theorem State.noteOnce_rest (s : State) (c : FaultChan) (kind : Nat) :
    (s.noteOnce c kind).rooms = s.rooms ∧ (s.noteOnce c kind).mem = s.mem ∧ (s.noteOnce c kind).parts = s.parts := by
  unfold State.noteOnce
  split
  · rw [State.note_eq]
    exact ⟨rfl, rfl, rfl⟩
  · exact ⟨rfl, rfl, rfl⟩

theorem State.hist_note (s : State) (c : FaultChan) (kind : Nat) :
    (s.note c kind).gysis.hist = { chan := c, time := s.now, kind := kind } :: s.gysis.hist := by
  unfold State.note State.raise
  cases c
  case room => dsimp only; split <;> rfl
  all_goals rfl

theorem State.events_isEmpty_eq_false_iff (s : State) (c : FaultChan) (ks : List Nat) :
    (s.events c ks).isEmpty = false ↔ ∃ h, h ∈ s.gysis.hist ∧ h.chan = c ∧ h.kind ∈ ks := by
  simp [State.events]

/-- What is passed upward once stands in the history afterwards (R25). -/
theorem State.events_noteOnce {kind : Nat} {ks : List Nat} (hk : kind ∈ ks) (s : State) (c : FaultChan) :
    ((s.noteOnce c kind).events c ks).isEmpty = false := by
  rw [State.events_isEmpty_eq_false_iff]
  unfold State.noteOnce
  split
  · exact ⟨_, by rw [State.hist_note]; exact List.mem_cons_self, rfl, hk⟩
  next h =>
    obtain ⟨e, hmem, hchan, hkind⟩ := (s.events_isEmpty_eq_false_iff c [kind]).mp (Bool.eq_false_iff.mpr h)
    exact ⟨e, hmem, hchan, List.mem_singleton.mp hkind ▸ hk⟩

theorem State.permanent_bank_noteOnce (s : State) (r layer bank : Nat) :
    (s.noteOnce (.atticBank r layer bank) 2).permanent (.atticBank r layer bank) = true := by
  simp [State.permanent, State.events_noteOnce]

theorem State.permanent_room_noteOnce (s : State) (r : Nat) : (s.noteOnce (.room r) 3).permanent (.room r) = true := by
  simp [State.permanent, State.events_noteOnce]

/-! ## ROW_REMAP (R204, R205) -/

/-- A layer with a row of a bank served by the next spare row, and no longer waiting for that. -/
def Layer.remapped (y : Layer) (bank row : Nat) : Layer :=
  { y with
    rowRemaps := Tab.set [] y.rowRemaps bank (Tab.get [] y.rowRemaps bank ++ [row]), pending := y.pending.filter (fun e => e != (bank, some row)) }

section Rows
variable {s : State} {r layer bank row : Nat}

/-- A remap to a spare row reads the old row, then changes the layer and the repair record. -/
theorem State.remapRow_of_spare (hnew : row ∉ Tab.get [] ((s.room r).layer layer).rowRemaps bank)
    (hspare : (Tab.get [] ((s.room r).layer layer).rowRemaps bank).length < 32) :
    ∃ g, s.remapRow r layer bank row = { ((s.copiedRow r layer bank row).setRoom r
      ((s.room r).setLayer layer (((s.room r).layer layer).remapped bank row))).persist (.atticRow r layer bank row) with gysis := g } := by
  have hold : (Tab.get [] ((s.room r).layer layer).rowRemaps bank).contains row = false := by simpa using hnew
  unfold State.remapRow
  dsimp only
  rw [hold, if_neg Bool.false_ne_true, if_pos hspare, (s.copiedRow_noted r layer bank row).room]
  exact ⟨_, rfl⟩

theorem State.remapRow_of_full (hnew : row ∉ Tab.get [] ((s.room r).layer layer).rowRemaps bank)
    (hfull : 32 ≤ (Tab.get [] ((s.room r).layer layer).rowRemaps bank).length) : s.remapRow r layer bank row = s.failBank r layer bank := by
  have hold : (Tab.get [] ((s.room r).layer layer).rowRemaps bank).contains row = false := by simpa using hnew
  unfold State.remapRow
  dsimp only
  rw [hold, if_neg Bool.false_ne_true, if_neg (Nat.not_lt.mpr hfull)]

end Rows

theorem exec_rowRemap {s : State} {r : RoomId} {layer : Fin 3} {bank row : Nat} (hok : s.roomOk r = true) (hon : s.atticOn r = true)
    (hbound : (s.room r).atBoundary = true) (hbank : bank < 66) (hrow : row < atticRows) (huse : ((s.room r).layer layer).bankRetired bank = false)
    (hfaulty : s.permanent (.atticRow r layer bank row) = true ∨ (bank, some row) ∈ ((s.room r).layer layer).pending) :
    exec (.rowRemap r layer bank row) s = .next (s.remapRow r layer bank row) := by
  have hdue : (s.permanent (.atticRow r layer bank row) || ((s.room r).layer layer).pending.contains (bank, some row)) = true := by simpa using hfaulty
  exact congrArg _ (if_neg (by simp only [hok, hon, hbound, huse, hdue, Nat.not_le.mpr hbank, Nat.not_le.mpr hrow]; decide))

/-! ## BANK_COPY and BANK_COPY_END (R205, R206) -/

/-- The decision to retire a bank enters the repair record, and changes no room, no partition and no memory. -/
theorem State.bankDecision_flagged (s : State) (r layer bank spare : Nat) (last : Bool) :
    (s.persist (.atticBank r layer bank)).Flagged (s.bankDecision r layer bank spare last) := State.decided_flagged ..

section Banks
variable {s : State} {r : RoomId} {layer : Fin 3} {bank : Nat}

/-- The copy of a bank to the free spare bank starts, or the room is to be retired. -/
def State.copyBank (s : State) (r layer bank : Nat) : State :=
  match ((s.room r).layer layer).freeSpare with
  | some k =>
    (s.setRoom r ((s.room r).setLayer layer { (s.room r).layer layer with copy := some (bank, k, s.now) })).bankDecision r layer bank k
      ({ (s.room r).layer layer with copy := some (bank, k, s.now) } : Layer).noSpare
  | none => s.noteOnce (.room r) 3

theorem exec_bankCopy (hok : s.roomOk r = true) (hon : s.atticOn r = true) (hbound : (s.room r).atBoundary = true) (hbank : bank < 66)
    (huse : ((s.room r).layer layer).bankRetired bank = false) (hidle : ((s.room r).layer layer).copy = none)
    (hfaulty : s.permanent (.atticBank r layer bank) = true ∨ (bank, none) ∈ ((s.room r).layer layer).pending) :
    exec (.bankCopy r layer bank) s = .next (s.copyBank r layer bank) := by
  have hdue : (s.permanent (.atticBank r layer bank) || ((s.room r).layer layer).pending.contains (bank, none)) = true := by simpa using hfaulty
  exact congrArg _ (if_neg (by simp only [hok, hon, hbound, huse, hidle, hdue, Nat.not_le.mpr hbank]; decide))

/-- The parity errors that a copy finds are counted against the rows of the old bank (R212). -/
def State.foundInCopy (s : State) (r layer bank : Nat) : State :=
  (s.badLinesIn r layer bank).foldl (fun t l => t.detect (0, r, l) (.atticRow r layer bank (((s.room r).layer layer).physRow bank (atticPos (l * 128)).2.2)) 0) s

theorem State.foundInCopy_noted (s : State) (r layer bank : Nat) : s.Noted (s.foundInCopy r layer bank) :=
  List.foldlRecOn _ _ (.refl s) (fun t ht _ _ => ht.trans (t.detect_noted ..))

theorem State.foundInCopy_of_clean {s : State} {r layer bank : Nat} (h : s.badLinesIn r layer bank = []) : s.foundInCopy r layer bank = s := by
  rw [State.foundInCopy, h, List.foldl_nil]

section Copy
variable {spare start : Nat} (hcopy : ((s.room r).layer layer).copy = some (bank, spare, start))
include hcopy

theorem exec_bankCopyEnd_of_waits (h : s.now < start + s.bankCopyNs r ∨ s.atticOn r = false) : exec (.bankCopyEnd r layer) s = .next s := by
  have hwaits : (decide (s.now < start + s.bankCopyNs r) || !s.atticOn r) = true := by simpa using h
  simp [exec, execBankCopyEnd, hcopy, hwaits]

theorem exec_bankCopyEnd_of_ends (htime : start + s.bankCopyNs r ≤ s.now) (hon : s.atticOn r = true) :
    exec (.bankCopyEnd r layer) s = .next ((s.foundInCopy r layer bank).setRoom r
      (((s.foundInCopy r layer bank).room r).setLayer layer (((s.room r).layer layer).useSpare bank spare))) := by
  simp [exec, execBankCopyEnd, hcopy, Nat.not_lt.mpr htime, hon, State.foundInCopy]

end Copy
end Banks

/-! ## The sweep (R207 to R209) -/

/-- A stored error of the line that a row holds. -/
def State.rowBad (s : State) (r layer bank row : Nat) : Bool :=
  match s.lineOf r layer bank row with
  | some l => s.spanBad { room := r, cellar := false, off := l * 128, len := 128 }
  | none => false

theorem State.rowBad_eq_false {s : State} {r layer bank row : Nat}
    (h : ∀ l, s.lineOf r layer bank row = some l → s.spanBad { room := r, cellar := false, off := l * 128, len := 128 } = false) :
    s.rowBad r layer bank row = false := by
  unfold State.rowBad
  split
  next l hl => exact h l hl
  next => rfl

/-- A room whose sweep of a bank has gone past `row`. -/
def Room.swept (x : Room) (layer bank row : Nat) : Room :=
  x.setLayer layer { x.layer layer with sweepRow := Tab.set 0 (x.layer layer).sweepRow bank ((row + 1) % atticRows) }

/-- A room whose sweep has found an error (R209). -/
def Room.sweepError (x : Room) : Room := { x with counters := { x.counters with sweepErr := satInc x.counters.sweepErr } }

/-- The state after a sweep read that finds an error: the position has moved on, and the error is a stored one of the row's line from then on (log 4). -/
def State.sweepFound (s : State) (r layer bank row : Nat) : State :=
  let t := s.setRoom r ((s.room r).swept layer bank row)
  match s.lineOf r layer bank row with
  | some l => if s.rowBad r layer bank row then t else t.markParity r l
  | none => t

theorem State.sweepFound_rest (s : State) (r layer bank row : Nat) : ∃ (bad : Tab Bool) (free : Nat),
    s.sweepFound r layer bank row = { s.setRoom r ((s.room r).swept layer bank row) with mem := { s.mem with atticBad := bad }, free := free } := by
  unfold State.sweepFound
  dsimp only
  split
  · split <;> exact ⟨_, _, rfl⟩
  · exact ⟨_, _, rfl⟩

theorem State.sweepFound_room (s : State) (r layer bank row : Nat) : (s.sweepFound r layer bank row).room r = (s.room r).swept layer bank row := by
  obtain ⟨_, _, hfound⟩ := s.sweepFound_rest r layer bank row
  rw [hfound]
  exact s.room_setRoom_same r _

section Sweep
variable {s : State} {r layer bank row : Nat}
  (hrow : row = nextSweepRow (Tab.get [] ((s.room r).layer layer).rowRemaps bank) 33 (Tab.get 0 ((s.room r).layer layer).sweepRow bank))
include hrow

theorem State.atticSweep_of_clean (h : s.rowBad r layer bank row = false) :
    s.atticSweep r layer bank false = s.setRoom r ((s.room r).swept layer bank row) := by
  subst hrow
  exact if_neg (by rw [Bool.false_or]; exact ne_true_of_eq_false h)

/-- An error that the sweep finds is stored, counted and reported (R207, R209). -/
theorem State.atticSweep_of_error {bad : Bool} (h : (bad || s.rowBad r layer bank row) = true) :
    s.atticSweep r layer bank bad = ((s.sweepFound r layer bank row).setRoom r ((s.room r).swept layer bank row).sweepError).detect
      (0, r, s.lineKey r layer bank row) (.atticRow r layer bank row) 0 := by
  rw [← State.sweepFound_room]
  subst hrow
  exact if_pos h

end Sweep

/-- From `s` to `t` a sweep has read `row` (R207, R209): its position has moved on, and no byte, no other room, no partition and no function changed. -/
structure State.Swept (s t : State) (r layer bank row : Nat) : Prop where
  attic : t.mem.attic = s.mem.attic
  rest : s.SameOutside t r
  layers : (t.room r).layers = ((s.room r).swept layer bank row).layers

theorem State.swept_setRoom {s t : State} {r layer bank row : Nat} {x : Room} (hattic : t.mem.attic = s.mem.attic) (hrest : s.SameOutside t r)
    (hlayers : x.layers = ((s.room r).swept layer bank row).layers) : s.Swept (t.setRoom r x) r layer bank row where
  attic := hattic
  rest := hrest.trans (t.sameOutside_setRoom r x)
  layers := (congrArg Room.layers (t.room_setRoom_same r x)).trans hlayers

theorem State.Swept.noted {s t u : State} {r layer bank row : Nat} (h : s.Swept t r layer bank row) : t.Noted u → s.Swept u r layer bank row := by
  rintro ⟨_, _, _, rfl⟩
  exact ⟨h.attic, ⟨h.rest.cellar, h.rest.rooms, h.rest.parts, h.rest.fns⟩, h.layers⟩

theorem State.atticSweep_swept {s : State} {r layer bank row : Nat}
    (hrow : row = nextSweepRow (Tab.get [] ((s.room r).layer layer).rowRemaps bank) 33 (Tab.get 0 ((s.room r).layer layer).sweepRow bank)) (bad : Bool) :
    s.Swept (s.atticSweep r layer bank bad) r layer bank row := by
  cases hbad : bad || s.rowBad r layer bank row with
  | false =>
    obtain ⟨rfl, hclean⟩ := Bool.or_eq_false_iff.mp hbad
    rw [State.atticSweep_of_clean hrow hclean]
    exact State.swept_setRoom rfl (.refl s r) rfl
  | true =>
    rw [State.atticSweep_of_error hrow hbad]
    obtain ⟨_, _, hfound⟩ := s.sweepFound_rest r layer bank row
    refine State.Swept.noted ?_ (State.detect_noted ..)
    rw [hfound]
    exact State.swept_setRoom rfl (.trans (s.sameOutside_setRoom r _) ⟨rfl, fun _ _ => rfl, rfl, rfl⟩) rfl

theorem State.atticSweep_counts {s : State} {r layer bank row : Nat}
    (hrow : row = nextSweepRow (Tab.get [] ((s.room r).layer layer).rowRemaps bank) 33 (Tab.get 0 ((s.room r).layer layer).sweepRow bank)) :
    ((s.atticSweep r layer bank true).room r).counters = (s.room r).sweepError.counters ∧
      (0, r, s.lineKey r layer bank row) ∈ (s.atticSweep r layer bank true).mem.counted := by
  rw [State.atticSweep_of_error hrow (Bool.true_or _)]
  refine ⟨?_, State.mem_counted_detect ..⟩
  rw [(State.detect_noted ..).room, State.room_setRoom_same]
  rfl

/-! ## The self-test (R201 to R203) -/

/-- From `s` to `t` no byte and no stored error of attic or cellar changed, no room but `r` and no partition. -/
structure State.SameData (s t : State) (r : Nat) : Prop where
  attic : t.mem.attic = s.mem.attic
  atticBad : t.mem.atticBad = s.mem.atticBad
  cellar : t.mem.cellar = s.mem.cellar
  rooms : ∀ q, q ≠ r → t.room q = s.room q
  parts : t.parts = s.parts

theorem State.SameData.refl (s : State) (r : Nat) : s.SameData s r := ⟨rfl, rfl, rfl, fun _ _ => rfl, rfl⟩

theorem State.SameData.trans {s t u : State} {r : Nat} (h : s.SameData t r) (h' : t.SameData u r) : s.SameData u r :=
  ⟨h'.attic.trans h.attic, h'.atticBad.trans h.atticBad, h'.cellar.trans h.cellar, fun q hq => (h'.rooms q hq).trans (h.rooms q hq),
    h'.parts.trans h.parts⟩

theorem State.Noted.sameData {s t : State} (h : s.Noted t) (r : Nat) : s.SameData t r := by
  obtain ⟨_, _, _, rfl⟩ := h
  exact ⟨rfl, rfl, rfl, fun _ _ => rfl, rfl⟩

theorem State.Flagged.sameData {s t : State} (h : s.Flagged t) (r : Nat) : s.SameData t r := by
  obtain ⟨_, _, rfl⟩ := h
  exact ⟨rfl, rfl, rfl, fun _ _ => rfl, rfl⟩

theorem State.sameData_setRoom (s : State) (r : Nat) (x : Room) : s.SameData (s.setRoom r x) r :=
  ⟨rfl, rfl, rfl, fun q hq => by rw [State.room_setRoom, if_neg hq], rfl⟩

theorem State.sameData_persist (s : State) (c : FaultChan) (r : Nat) : s.SameData (s.persist c) r := ⟨rfl, rfl, rfl, fun _ _ => rfl, rfl⟩

theorem State.sameData_noteOnce (s : State) (c : FaultChan) (kind r : Nat) : s.SameData (s.noteOnce c kind) r := by
  obtain ⟨hrooms, hmem, hparts⟩ := s.noteOnce_rest c kind
  exact ⟨congrArg Mem.attic hmem, congrArg Mem.atticBad hmem, congrArg Mem.cellar hmem, fun q _ => congrArg (Tab.get ({} : Room) · q) hrooms, hparts⟩

theorem State.sameData_remapRow (s : State) (r layer bank row : Nat) : s.SameData (s.remapRow r layer bank row) r := by
  by_cases hold : row ∈ Tab.get [] ((s.room r).layer layer).rowRemaps bank
  · have hsame : s.remapRow r layer bank row = s := if_pos (List.contains_iff_mem.mpr hold)
    rw [hsame]
    exact .refl s r
  · rcases Nat.lt_or_ge (Tab.get [] ((s.room r).layer layer).rowRemaps bank).length 32 with hspare | hfull
    · obtain ⟨_, hremap⟩ := State.remapRow_of_spare hold hspare
      rw [hremap]
      exact (((s.copiedRow_noted r layer bank row).sameData r).trans (State.sameData_setRoom ..)).trans ⟨rfl, rfl, rfl, fun _ _ => rfl, rfl⟩
    · rw [State.remapRow_of_full hold hfull]
      exact s.sameData_noteOnce _ 2 r

theorem State.sameData_replaceBank (s : State) (r layer bank : Nat) : s.SameData (s.replaceBank r layer bank) r := by
  unfold State.replaceBank
  dsimp only
  split
  · exact .refl s r
  · split
    · exact ((s.sameData_setRoom r _).trans (State.sameData_persist ..)).trans ((State.bankDecision_flagged ..).sameData r)
    · exact s.sameData_noteOnce _ 3 r

/-- What a finding of the self-test changes is which spare row or bank serves, in the room that it tests (R202, R203). -/
theorem State.sameData_selfTestFinding (s : State) (r : Nat) (e : Nat × Nat × Nat) : s.SameData (s.selfTestFinding r e) r := by
  unfold State.selfTestFinding
  split
  · exact .refl s r
  · split
    · exact s.sameData_replaceBank ..
    · exact s.sameData_remapRow ..

theorem State.atticTest_sameData (s : State) (r : Nat) (failing : List (Nat × Nat × Nat)) : (s.zeroAttic r).SameData (s.atticTest r failing) r :=
  List.foldlRecOn (motive := fun t : State => (s.zeroAttic r).SameData t r) _ _ (.refl _ r) (fun t ht e _ => ht.trans (t.sameData_selfTestFinding r e))

theorem State.zeroAttic_byte (s : State) (r x : Nat) :
    Mem.byte (s.zeroAttic r).mem.attic x = if atticKey r 0 ≤ x ∧ x < atticKey r 0 + 2 ^ 32 then 0 else Mem.byte s.mem.attic x := Mem.byte_clear ..

theorem State.zeroAttic_bad (s : State) {r x : Nat} (h : atticKey r 0 ≤ x ∧ x < atticKey r 0 + 2 ^ 32) :
    Tab.get false (s.zeroAttic r).mem.atticBad x = false := by
  have hfilter := Tab.get_filter false s.mem.atticBad (fun k => !(decide (atticKey r 0 ≤ k) && decide (k < atticKey r 0 + 2 ^ 32))) x
  rw [if_neg (by rw [decide_eq_true h.1, decide_eq_true h.2]; decide)] at hfilter
  exact hfilter

theorem atticKey_range (r x : Nat) : (atticKey r 0 ≤ x ∧ x < atticKey r 0 + 2 ^ 32) ↔ ∃ off, off < 2 ^ 32 ∧ x = atticKey r off := by
  simp only [atticKey]
  constructor
  · rintro ⟨hlow, hhigh⟩
    exact ⟨x - r * 2 ^ 32, by omega, by omega⟩
  · rintro ⟨off, hoff, rfl⟩
    omega

/-! ## The statement -/

/-- Settles O52, by what each command of the maintenance changes: the layer of a remap or a copy, the position and counters of a sweep, the tested room's attic. -/
theorem atticMaintenanceKeepsTheData : Obligations.AtticMaintenanceKeepsTheData := by
  unfold Obligations.AtticMaintenanceKeepsTheData
  refine ⟨?remap, ?copy, ?copyEnd, ?sweep, ?selfTest⟩
  case remap =>
    intro s r layer bank row hok hon hbound hbank hrow huse hfaulty hnew
    rw [exec_rowRemap hok hon hbound hbank hrow huse hfaulty]
    refine ⟨fun hspare => ?_, fun hfull => ?_⟩
    · obtain ⟨g, hremap⟩ := State.remapRow_of_spare hnew hspare
      have hdata := s.sameData_remapRow r layer bank row
      refine ⟨_, rfl, ?_, ?_, hdata.rooms, hdata.attic, hdata.atticBad, fun hclean => ?_, hdata.parts, ?_⟩
      · rw [hremap]
        exact State.room_setRoom_same ..
      · rw [hremap]
        exact State.mem_persist ..
      · rw [hremap, State.copiedRow_of_clean hclean]
        rfl
      · rw [hremap]
        exact (s.copiedRow_noted r layer bank row).fns
    · rw [State.remapRow_of_full hnew hfull]
      obtain ⟨hrooms, hmem, -⟩ := s.noteOnce_rest (.atticBank r layer bank) 2
      exact ⟨_, rfl, s.permanent_bank_noteOnce .., hrooms, hmem⟩
  case copy =>
    intro s r layer bank hok hon hbound hbank huse hidle hfaulty
    rw [exec_bankCopy hok hon hbound hbank huse hidle hfaulty]
    refine ⟨fun k hspare => ?_, fun hnone => ?_⟩
    · simp only [State.copyBank, hspare]
      obtain ⟨_, _, hdecision⟩ := State.bankDecision_flagged (s.setRoom r ((s.room r).setLayer layer { (s.room r).layer layer with copy := some (bank, k, s.now) }))
        r layer bank k ({ (s.room r).layer layer with copy := some (bank, k, s.now) } : Layer).noSpare
      rw [hdecision]
      exact ⟨_, rfl, State.room_setRoom_same .., State.mem_persist .., fun q hq => (State.room_setRoom ..).trans (if_neg hq), rfl, rfl⟩
    · simp only [State.copyBank, hnone]
      obtain ⟨hrooms, hmem, -⟩ := s.noteOnce_rest (.room r) 3
      exact ⟨_, rfl, s.permanent_room_noteOnce r, hrooms, hmem⟩
  case copyEnd =>
    intro s r layer bank spare start hcopy
    refine ⟨fun h => exec_bankCopyEnd_of_waits hcopy (.inl h), fun h => exec_bankCopyEnd_of_waits hcopy (.inr h), fun htime hon => ?_⟩
    have hfound := s.foundInCopy_noted r layer bank
    have hdata := hfound.sameData r
    exact ⟨_, State.foundInCopy_of_clean, hdata.attic, hdata.atticBad, hdata.cellar, hfound.room, hdata.parts, hfound.fns,
      exec_bankCopyEnd_of_ends hcopy htime hon⟩
  case sweep =>
    intro s r layer bank row bad hrow
    refine ⟨fun hoff => by simp [exec, execAtticSweepRead, execAtticSweepForced, hoff], fun hruns => ?_⟩
    have hswept := State.atticSweep_swept hrow bad
    refine ⟨s.atticSweep r layer bank bad, by simp [exec, execAtticSweepRead, hruns], by simp [exec, execAtticSweepForced, hruns], hswept.attic,
      hswept.rest.cellar, hswept.rest.rooms, hswept.rest.parts, hswept.rest.fns, hswept.layers, fun hgood hclean => ?_, fun hbad => ?_⟩
    · rw [hgood, State.atticSweep_of_clean hrow (State.rowBad_eq_false hclean), State.room_setRoom_same]
      exact ⟨rfl, rfl⟩
    · rw [hbad]
      exact State.atticSweep_counts hrow
  case selfTest =>
    intro s r failing hok hstate
    have hdata := s.atticTest_sameData r failing
    have hexec : exec (.atticSelfTest r failing) s = .next (s.atticTest r failing) := by simp [exec, execAtticSelfTest, hok, hstate]
    refine ⟨_, hexec, fun off hoff => ?_, fun x hx => ?_, hdata.cellar, hdata.rooms, hdata.parts⟩
    · have hrange := (atticKey_range r _).mpr ⟨off, hoff, rfl⟩
      rw [hdata.attic, hdata.atticBad, State.zeroAttic_byte, if_pos hrange]
      exact ⟨rfl, s.zeroAttic_bad hrange⟩
    · rw [hdata.attic, State.zeroAttic_byte, if_neg]
      intro hrange
      obtain ⟨off, hoff, hat⟩ := (atticKey_range r x).mp hrange
      exact hx off hoff hat

end Sys2Proof.Machine
end

section
/-! PROOFS. Cellar maintenance (R316, with R222 to R239): what a DEBUG_READ of a stack sends to the host, in every memory and in one in canonical form, and why the
statement about cellar maintenance fails without that form. -/

namespace Sys2Proof.Machine

/-! ## The end of a command -/

section Runs
variable {s t : State} {f k op : Nat} (h : s.runs f k op)
include h

theorem State.runCmd_of_ended {body : Req → CmdEnd} {resp : List Byte} {progress total : Nat} (hbody : body (s.cmd f k) = .ended t 0 resp progress total) :
    s.runCmd f k (isOp op) body = t.endCmd f k 0 progress total resp := by
  obtain ⟨hrun, hop⟩ := State.running_isOp_of_runs h
  unfold State.cmd at hbody hop
  simp [State.runCmd, hrun, hop, hbody, stOk]

end Runs

theorem State.endCmd_out (s : State) (f k status progress total : Nat) (resp : List Byte) : (s.endCmd f k status progress total resp).out = s.out := by
  unfold State.endCmd
  dsimp only
  split <;> rfl

/-! ## Pieces of a run of a stack (R230, R231, R241) -/

/-- From `s` to `t` reads of stacks have counted, and nothing else changed (R241). -/
def State.CountedReads (s t : State) : Prop := ∃ hbm, t = { s with hbm := hbm } ∧ s.SameStacks t

theorem State.CountedReads.refl (s : State) : s.CountedReads s := ⟨_, rfl, .refl s⟩

theorem State.CountedReads.trans {s t u : State} : s.CountedReads t → t.CountedReads u → s.CountedReads u := by
  rintro ⟨_, rfl, h⟩ ⟨hbm, rfl, h'⟩
  exact ⟨hbm, rfl, h.trans h'⟩

theorem State.countRead_counted (s : State) {x : Span} (h : x.cellar = true) : s.CountedReads (s.countRead x) := by
  obtain ⟨hsame, -⟩ := State.sameStacks_countRead (s := s) h
  refine ⟨(s.countRead x).hbm, ?_, hsame⟩
  simp only [State.countRead, h, if_true]
  rfl

theorem linesOf_of_within {off n l : Nat} (hlo : l * 128 ≤ off) (hhi : off + n ≤ l * 128 + 128) (hn : 0 < n) : linesOf off n = [l] := by
  have hfirst : off / 128 = l := by omega
  have hone : (off + n - 1) / 128 + 1 - off / 128 = 1 := by omega
  unfold linesOf
  rw [if_neg (Nat.ne_of_gt hn), hone, hfirst]
  rfl

/-- A span of a stack within a line that is not lost reads as the stack's bytes (R231). -/
theorem State.spanBytes_of_within {s : State} {r off n l : Nat} (hlo : l * 128 ≤ off) (hhi : off + n ≤ l * 128 + 128) (hn : 0 < n)
    (hgood : s.lineLost r (l * 128) = false) : s.spanBytes ⟨r, true, off, n⟩ = s.readCellar r off n := by
  have hline : s.lineLost r off = false := by
    have hat : off / 128 = l * 128 / 128 := by omega
    simpa only [State.lineLost, hat] using hgood
  have hmax : max off (l * 128) = off := Nat.max_eq_left hlo
  have hmin : min (off + n) (l * 128 + 128) - off = n := by omega
  simp [State.spanBytes, linesOf_of_within hlo hhi hn, hmax, hmin, hline]

theorem State.spanBad_of_within {s : State} {r off n l : Nat} (hlo : l * 128 ≤ off) (hhi : off + n ≤ l * 128 + 128) (hn : 0 < n) :
    s.spanBad ⟨r, true, off, n⟩ = (s.lineLost r (l * 128) || (burstsOf l).any (s.burstBad r)) := by
  simp [State.spanBad, linesOf_of_within hlo hhi hn]

/-- The part of a run of a stack that lies in a line. -/
def linePiece (r off n l : Nat) : Span := ⟨r, true, max off (l * 128), min (off + n) (l * 128 + 128) - max off (l * 128)⟩

theorem linePiece_within {off n l : Nat} (hl : l ∈ linesOf off n) : l * 128 ≤ max off (l * 128) ∧
    max off (l * 128) + (min (off + n) (l * 128 + 128) - max off (l * 128)) ≤ l * 128 + 128 ∧
      0 < min (off + n) (l * 128 + 128) - max off (l * 128) := by
  obtain ⟨hlo, hhi, hn⟩ := mem_linesOf.mp hl
  omega

/-- A line of a stack is not lost, and no burst of it is uncorrectable (R230, R231). -/
def State.LineGood (s : State) (r l : Nat) : Prop := (s.lineLost r (l * 128) || (burstsOf l).any (s.burstBad r)) = false

/-- The lines of a run are good when each of its bytes reads without error. -/
theorem State.lineGood_of_bytes {s : State} {r off n : Nat} (h : ∀ i, i < n → s.spanBad ⟨r, true, off + i, 1⟩ = false) {l : Nat} (hl : l ∈ linesOf off n) :
    s.LineGood r l := by
  obtain ⟨hlo, hhi, hn⟩ := mem_linesOf.mp hl
  have hfirst : max off (l * 128) - off < n ∧ l * 128 ≤ off + (max off (l * 128) - off) ∧ off + (max off (l * 128) - off) + 1 ≤ l * 128 + 128 := by omega
  obtain ⟨hin, hstart, hend⟩ := hfirst
  exact (State.spanBad_of_within hstart hend Nat.one_pos).symm.trans (h _ hin)

section Piece
variable {s : State} {r off n l : Nat} (hl : l ∈ linesOf off n) (hgood : s.LineGood r l)
include hl hgood

theorem State.spanBad_linePiece : s.spanBad (linePiece r off n l) = false := by
  obtain ⟨hstart, hend, hlen⟩ := linePiece_within hl
  exact (State.spanBad_of_within hstart hend hlen).trans hgood

theorem State.spanBytes_linePiece :
    s.spanBytes (linePiece r off n l) = s.readCellar r (max off (l * 128)) (min (off + n) (l * 128 + 128) - max off (l * 128)) := by
  obtain ⟨hstart, hend, hlen⟩ := linePiece_within hl
  obtain ⟨hlost, -⟩ := Bool.or_eq_false_iff.mp hgood
  exact State.spanBytes_of_within hstart hend hlen hlost

end Piece

/-- One piece of a debug read of a stack: nothing is read after the first error (R316). -/
def readPiece (r off n : Nat) (a : State × List Byte × Bool) (l : Nat) : State × List Byte × Bool :=
  if !a.2.2 then a
  else if a.1.spanBad (linePiece r off n l) then (a.1.countRead (linePiece r off n l), a.2.1, false)
  else (a.1.countRead (linePiece r off n l), a.2.1 ++ a.1.spanBytes (linePiece r off n l), true)

theorem State.debugBytes_cellar (s : State) (r off n : Nat) : s.debugBytes r 3 off n = (linesOf off n).foldl (readPiece r off n) (s, [], true) := by
  have hoff (l : Nat) : off + (max off (l * 128) - off) = max off (l * 128) := Nat.add_sub_of_le (Nat.le_max_left ..)
  unfold State.debugBytes linePieces
  rw [if_neg (by decide), if_neg (by decide), List.foldl_map]
  simp only [hoff]
  rfl

/-- Good lines are read one after another. -/
theorem State.foldl_readPiece {s : State} {r off n : Nat} {ls : List Nat} (h : ∀ l, l ∈ ls → l ∈ linesOf off n ∧ s.LineGood r l) {u : State}
    (hu : s.CountedReads u) (bytes : List Byte) :
    ∃ t, ls.foldl (readPiece r off n) (u, bytes, true) = (t, bytes ++ ls.flatMap (fun l => s.spanBytes (linePiece r off n l)), true) ∧ s.CountedReads t := by
  induction ls generalizing u bytes with
  | nil => exact ⟨u, by simp, hu⟩
  | cons l ls ih =>
    obtain ⟨hl, hgood⟩ := h l List.mem_cons_self
    obtain ⟨_, rfl, hsame⟩ := id hu
    have hclean := (hsame.spanBad (x := linePiece r off n l) rfl).trans (State.spanBad_linePiece hl hgood)
    have hbytes := hsame.spanBytes (x := linePiece r off n l) rfl
    obtain ⟨t, ht, hcounted⟩ := ih (fun m hm => h m (List.mem_cons_of_mem l hm)) (hu.trans (State.countRead_counted _ (x := linePiece r off n l) rfl))
      (bytes ++ s.spanBytes (linePiece r off n l))
    refine ⟨t, ?_, hcounted⟩
    rw [List.foldl_cons, List.flatMap_cons, ← List.append_assoc, ← ht]
    simp [readPiece, hclean, hbytes]

/-- A debug read of good lines reads every piece, and counts its reads. -/
theorem State.debugBytes_of_good {s : State} {r off n : Nat} (h : ∀ l, l ∈ linesOf off n → s.LineGood r l) :
    ∃ t, s.debugBytes r 3 off n = (t, (linesOf off n).flatMap (fun l => s.spanBytes (linePiece r off n l)), true) ∧ s.CountedReads t := by
  rw [State.debugBytes_cellar]
  exact State.foldl_readPiece (fun l hl => ⟨hl, h l hl⟩) (.refl s) []

/-! ## A run of a memory in canonical form -/

theorem Mem.read_eq_map {m : List Host.Cell} (h : Mem.wf m = true) (base n : Nat) : Mem.read m base n = (List.range n).map (fun i => Mem.byte m (base + i)) := by
  refine List.ext_getElem (by simp [Mem.read_length]) (fun i hi _ => ?_)
  have hread := Mem.read_getD h base (n := n) (by rwa [Mem.read_length] at hi)
  rw [List.getElem_map, List.getElem_range, ← hread, List.getD_eq_getElem _ _ hi]

/-- The parts of a run of `n` bytes in its first `k` lines, one after another, in a memory in canonical form. -/
theorem flatMap_read_lines {m : List Host.Cell} (h : Mem.wf m = true) (r off n k : Nat) :
    (List.range k).flatMap (fun i => Mem.read m (cellarKey r (max off ((off / 128 + i) * 128)))
      (min (off + n) ((off / 128 + i) * 128 + 128) - max off ((off / 128 + i) * 128))) =
      (List.range (min (off + n) ((off / 128 + k) * 128) - off)).map (fun i => Mem.byte m (cellarKey r (off + i))) := by
  induction k with
  | zero =>
    have hnone : min (off + n) ((off / 128 + 0) * 128) - off = 0 := by omega
    rw [hnone]
    rfl
  | succ k ih =>
    have hnext : min (off + n) ((off / 128 + (k + 1)) * 128) - off = min (off + n) ((off / 128 + k) * 128) - off +
        (min (off + n) ((off / 128 + k) * 128 + 128) - max off ((off / 128 + k) * 128)) := by omega
    rw [List.range_succ, List.flatMap_append, ih, List.flatMap_singleton, Mem.read_eq_map h, hnext, List.range_add, List.map_append, List.map_map]
    refine congrArg _ (List.map_congr_left fun i hi => ?_)
    have hat := List.mem_range.mp hi
    rw [Function.comp_apply, cellarKey_add]
    congr 2
    omega

/-- In a memory in canonical form the pieces of a run of good lines hold its bytes. -/
theorem State.flatMap_linePieces {s : State} (h : Mem.wf s.mem.cellar = true) {r off n : Nat} (hgood : ∀ l, l ∈ linesOf off n → s.LineGood r l) :
    (linesOf off n).flatMap (fun l => s.spanBytes (linePiece r off n l)) = (List.range n).map (fun i => Mem.byte s.mem.cellar (cellarKey r (off + i))) := by
  have hread : (linesOf off n).flatMap (fun l => s.spanBytes (linePiece r off n l)) =
      (linesOf off n).flatMap (fun l => Mem.read s.mem.cellar (cellarKey r (max off (l * 128))) (min (off + n) (l * 128 + 128) - max off (l * 128))) :=
    List.flatMap_congr fun l hl => State.spanBytes_linePiece hl (hgood l hl)
  rw [hread]
  unfold linesOf
  split
  next hn =>
    subst hn
    rfl
  next hn =>
    have hall : min (off + n) ((off / 128 + ((off + n - 1) / 128 + 1 - off / 128)) * 128) - off = n := by omega
    have hlines := flatMap_read_lines h r off n ((off + n - 1) / 128 + 1 - off / 128)
    rw [hall] at hlines
    rw [List.flatMap_map]
    exact hlines

/-! ## DEBUG_READ -/

section DebugRead
variable {s : State} {f : FnId} {k : SlotId} {r off n a : Nat} (hruns : s.runs f k 0x0805) (hcheck : checkDebugRead s f false (s.cmd f k) = 0)
  (hr : r = (s.cmd f k).field 0 1) (hoff : off = (s.cmd f k).field 8 8) (hn : n = (s.cmd f k).field 16 4)
  (hbuf : s.hostRange f ((s.cmd f k).field 2 2) ((s.cmd f k).field 24 8) n true = some a) (hspace : (s.cmd f k).field 1 1 = 3)
  (hcool : (s.stack r).level < 4) (hgood : ∀ i, i < n → s.spanBad ⟨r, true, off + i, 1⟩ = false)
include hruns hcheck hr hoff hn hbuf hspace hcool hgood

/-- A DEBUG_READ of good lines of a stack below level 4 sends the host their pieces and ends (R316). -/
theorem exec_debugRead_cellar : ∃ t bytes, bytes = (linesOf off n).flatMap (fun l => s.spanBytes (linePiece r off n l)) ∧ s.CountedReads t ∧
    exec (.debugRead f k) s = .next ((t.emit (.hostWrite f a bytes)).endCmd f k 0 (progressPosition (ceilDiv n 4096)) (ceilDiv n 4096)
      (leBytes 4 bytes.length)) := by
  obtain ⟨t, hread, hcounted⟩ := State.debugBytes_of_good fun l hl => State.lineGood_of_bytes hgood hl
  refine ⟨t, _, rfl, hcounted, congrArg Host.Outcome.next (State.runCmd_of_ended hruns ?_)⟩
  simp [← hr, ← hoff, ← hn, hcheck, hspace, Nat.not_le.mpr hcool, hbuf, hread, stOk]

/-- What O53 says of a DEBUG_READ of a stack, in a module whose memory is in canonical form, which every step keeps (State.memOk). -/
theorem exec_debugRead_cellar_of_memOk (hmemOk : s.memOk = true) :
    ∃ u : State, exec (.debugRead f k) s = .next (u.endCmd f k 0 (progressPosition (ceilDiv n 4096)) (ceilDiv n 4096) (leBytes 4 n)) ∧
      u.out = .hostWrite f a ((List.range n).map (fun i => Mem.byte s.mem.cellar (cellarKey r (off + i)))) :: s.out ∧
      u.mem.attic = s.mem.attic ∧ u.mem.cellar = s.mem.cellar ∧ u.rooms = s.rooms ∧ u.parts = s.parts := by
  obtain ⟨_, bytes, hbytes, ⟨_, rfl, -⟩, hexec⟩ := exec_debugRead_cellar hruns hcheck hr hoff hn hbuf hspace hcool hgood
  obtain ⟨-, hwf⟩ := s.memOk_iff.mp hmemOk
  rw [State.flatMap_linePieces hwf fun l hl => State.lineGood_of_bytes hgood hl] at hbytes
  subst hbytes
  rw [List.length_map, List.length_range] at hexec
  exact ⟨_, hexec, rfl, rfl, rfl, rfl, rfl⟩

end DebugRead

/-! ## A memory out of canonical form -/

/-- A module that debugs: function 1 runs a DEBUG_READ of the first two bytes of the stack of room 0, which is stopped, and the cells of the stack are listed in
falling order. -/
def fallingStack : State :=
  { (State.reset.setRoom 0 { brk := { stopped := true } }).setFn 1
      { hostBufs := [(1, some { addr := 0, bytes := 4096, canWrite := true, canRead := true })]
        slots := [(0, { state := .running, bytes := [(0, 0x05), (1, 0x08), (4, 32), (33, 3), (34, 1), (48, 2)] })] } with
    nvm := { State.reset.nvm with image := fusesFirst }, mem := { cellar := [(1, 1), (0, 2)] } }

/-- Refutes O53: its last clause admits a memory out of canonical form. A DEBUG_READ sends what a run of the stack reads as (Mem.read), and of `fallingStack` that
read misses byte 0. With State.memOk added the clause holds (exec_debugRead_cellar_of_memOk). -/
theorem not_cellarMaintenanceKeepsTheData : ¬ Obligations.CellarMaintenanceKeepsTheData := by
  rintro ⟨-, -, -, -, -, -, -, -, -, -, -, -, -, hdebug⟩
  have hruns : fallingStack.runs (1 : FnId) (0 : SlotId) 0x0805 := ⟨by decide +kernel, by decide +kernel⟩
  have hcheck : checkDebugRead fallingStack (1 : FnId) false (fallingStack.cmd (1 : FnId) (0 : SlotId)) = 0 := by decide +kernel
  have hfields : 0 = (fallingStack.cmd (1 : FnId) (0 : SlotId)).field 0 1 ∧ 0 = (fallingStack.cmd (1 : FnId) (0 : SlotId)).field 8 8 ∧
      2 = (fallingStack.cmd (1 : FnId) (0 : SlotId)).field 16 4 ∧ (fallingStack.cmd (1 : FnId) (0 : SlotId)).field 1 1 = 3 := by decide +kernel
  have hbuf : fallingStack.hostRange (1 : FnId) ((fallingStack.cmd (1 : FnId) (0 : SlotId)).field 2 2)
    ((fallingStack.cmd (1 : FnId) (0 : SlotId)).field 24 8) 2 true = some 0 := by decide +kernel
  have hcool : (fallingStack.stack 0).level < 4 := by decide +kernel
  have hgood : ∀ i, i < 2 → fallingStack.spanBad ⟨0, true, 0 + i, 1⟩ = false := by decide +kernel
  obtain ⟨hroom, hoff, hlen, hspace⟩ := hfields
  obtain ⟨-, -, hstack⟩ := hdebug fallingStack 1 0 0 0 2 0 hruns hcheck hroom hoff hlen hbuf
  obtain ⟨u, hexec, hout, -⟩ := hstack hspace hcool hgood
  obtain ⟨t, bytes, hbytes, ⟨_, rfl, -⟩, hsent⟩ := exec_debugRead_cellar hruns hcheck hroom hoff hlen hbuf hspace hcool hgood
  have hsame := congrArg State.out (Host.Outcome.next.inj (hsent.symm.trans hexec))
  rw [State.endCmd_out, State.endCmd_out, hout] at hsame
  have hmissed : (linesOf 0 2).flatMap (fun l => fallingStack.spanBytes (linePiece 0 0 2 l)) ≠
      (List.range 2).map (fun i => Mem.byte fallingStack.mem.cellar (cellarKey 0 (0 + i))) := by decide +kernel
  obtain ⟨hevent, -⟩ := List.cons.inj hsame
  obtain ⟨-, -, hdata⟩ := OutEvent.hostWrite.inj hevent
  exact hmissed (hbytes.symm.trans hdata)

end Sys2Proof.Machine
end

section
/-! PROOFS. Descriptors as bytes (R247, R248): the fields of a record of numbered bytes, and the statement about descriptors. -/

namespace Sys2Proof.Machine

/-! ## Fields of records -/

theorem fieldOf_skip {n v off len : Nat} {t : List Byte} (h : n ≤ off) : fieldOf (leBytes n v ++ t) off len = fieldOf t (off - n) len := by
  have hbefore : (leBytes n v).drop off = [] := List.drop_eq_nil_of_le (by rw [leBytes_length]; exact h)
  rw [fieldOf, List.drop_append, hbefore, List.nil_append, leBytes_length, fieldOf]

theorem fieldOf_first (n v : Nat) (t : List Byte) : fieldOf (leBytes n v ++ t) 0 n = v % 256 ^ n := by
  rw [fieldOf, List.drop_zero, List.take_left' (leBytes_length n v), leNat_leBytes]

theorem leNat_lt (l : List Byte) : leNat l < 256 ^ l.length := by
  induction l with
  | nil => simp [leNat]
  | cons b t ih =>
    have hb := b.isLt
    rw [leNat, List.length_cons, pow_succ]
    omega

theorem fieldOf_lt (l : List Byte) (off len : Nat) : fieldOf l off len < 256 ^ len :=
  (leNat_lt _).trans_le (Nat.pow_le_pow_right (n := 256) (by decide) (List.length_take_le _ _))

/-! ## Descriptors -/

theorem Desc.bytes_length (d : Desc) : d.bytes.length = 128 := by
  unfold Desc.bytes
  simp only [List.length_append, leBytes_length, List.length_replicate]

/-- Every number of a descriptor lies in the width of its field (R247). -/
structure Desc.InWidths (d : Desc) : Prop where
  op : d.op < 2 ^ 8
  srcSpace : d.srcSpace < 2 ^ 8
  dstSpace : d.dstSpace < 2 ^ 8
  srcRoom : d.srcRoom < 2 ^ 8
  dstRoom : d.dstRoom < 2 ^ 8
  dstModule : d.dstModule < 2 ^ 16
  srcBase : d.srcBase < 2 ^ 64
  dstBase : d.dstBase < 2 ^ 64
  blkLines : d.blkLines < 2 ^ 16
  hostBuf : d.hostBuf < 2 ^ 16
  blkRows : d.blkRows < 2 ^ 32
  srcPitch : d.srcPitch < 2 ^ 32
  dstPitch : d.dstPitch < 2 ^ 32
  idxBase : d.idxBase < 2 ^ 64
  idxSpace : d.idxSpace < 2 ^ 8
  idxForm : d.idxForm < 2 ^ 8
  token : d.token < 2 ^ 16
  idxCount : d.idxCount < 2 ^ 32
  rowStride : d.rowStride < 2 ^ 64
  colStride : d.colStride < 2 ^ 32

/-- The fields read from the bytes of a descriptor are its own, each cut to its width. -/
theorem streamDescOf_bytes (d : Desc) : streamDescOf d.bytes =
    { op := d.op % 2 ^ 8, flags := d.flags, srcSpace := d.srcSpace % 2 ^ 8, dstSpace := d.dstSpace % 2 ^ 8, srcRoom := d.srcRoom % 2 ^ 8
      dstRoom := d.dstRoom % 2 ^ 8, dstModule := d.dstModule % 2 ^ 16, srcBase := d.srcBase % 2 ^ 64, dstBase := d.dstBase % 2 ^ 64
      blkLines := d.blkLines % 2 ^ 16, hostBuf := d.hostBuf % 2 ^ 16, blkRows := d.blkRows % 2 ^ 32, srcPitch := d.srcPitch % 2 ^ 32
      dstPitch := d.dstPitch % 2 ^ 32, idxBase := d.idxBase % 2 ^ 64, idxSpace := d.idxSpace % 2 ^ 8, idxForm := d.idxForm % 2 ^ 8
      token := d.token % 2 ^ 16, idxCount := d.idxCount % 2 ^ 32, rowStride := d.rowStride % 2 ^ 64, colStride := d.colStride % 2 ^ 32
      fillWord := d.fillWord } := by
  have hflags : BitVec.ofNat 8 (d.flags.toNat % 256) = d.flags := BitVec.eq_of_toNat_eq (by rw [BitVec.toNat_ofNat]; omega)
  have hfill : BitVec.ofNat 32 (d.fillWord.toNat % 4294967296) = d.fillWord := BitVec.eq_of_toNat_eq (by rw [BitVec.toNat_ofNat]; omega)
  unfold Desc.bytes
  simp only [streamDescOf, List.append_assoc, fieldOf_skip, fieldOf_first, Nat.reduceLeDiff, Nat.reduceSub, Nat.reducePow, hflags, hfill]

theorem Desc.InWidths.read_bytes {d : Desc} (h : d.InWidths) : streamDescOf d.bytes = d := by
  rw [streamDescOf_bytes, Nat.mod_eq_of_lt h.op, Nat.mod_eq_of_lt h.srcSpace, Nat.mod_eq_of_lt h.dstSpace, Nat.mod_eq_of_lt h.srcRoom,
    Nat.mod_eq_of_lt h.dstRoom, Nat.mod_eq_of_lt h.dstModule, Nat.mod_eq_of_lt h.srcBase, Nat.mod_eq_of_lt h.dstBase, Nat.mod_eq_of_lt h.blkLines,
    Nat.mod_eq_of_lt h.hostBuf, Nat.mod_eq_of_lt h.blkRows, Nat.mod_eq_of_lt h.srcPitch, Nat.mod_eq_of_lt h.dstPitch, Nat.mod_eq_of_lt h.idxBase,
    Nat.mod_eq_of_lt h.idxSpace, Nat.mod_eq_of_lt h.idxForm, Nat.mod_eq_of_lt h.token, Nat.mod_eq_of_lt h.idxCount, Nat.mod_eq_of_lt h.rowStride,
    Nat.mod_eq_of_lt h.colStride]

/-- The fields of any bytes lie in their widths. -/
theorem streamDescOf_inWidths (b : List Byte) : (streamDescOf b).InWidths where
  op := fieldOf_lt b 0 1
  srcSpace := fieldOf_lt b 2 1
  dstSpace := fieldOf_lt b 3 1
  srcRoom := fieldOf_lt b 4 1
  dstRoom := fieldOf_lt b 5 1
  dstModule := fieldOf_lt b 6 2
  srcBase := fieldOf_lt b 8 8
  dstBase := fieldOf_lt b 16 8
  blkLines := fieldOf_lt b 24 2
  hostBuf := fieldOf_lt b 26 2
  blkRows := fieldOf_lt b 28 4
  srcPitch := fieldOf_lt b 32 4
  dstPitch := fieldOf_lt b 36 4
  idxBase := fieldOf_lt b 40 8
  idxSpace := fieldOf_lt b 48 1
  idxForm := fieldOf_lt b 49 1
  token := fieldOf_lt b 50 2
  idxCount := fieldOf_lt b 52 4
  rowStride := fieldOf_lt b 56 8
  colStride := fieldOf_lt b 64 4

theorem streamDescOf_fits (b : List Byte) : (streamDescOf b).fits = true :=
  beq_iff_eq.mpr (streamDescOf_inWidths b).read_bytes

/-- Settles O46, from what each field reads in the bytes of a descriptor: its own number, cut to its width. -/
theorem descriptorBytesRoundTrip : Obligations.DescriptorBytesRoundTrip := by
  unfold Obligations.DescriptorBytesRoundTrip
  refine ⟨fun d => ?_, fun d e hd he hbytes => ?_, fun b _ => streamDescOf_fits b⟩
  · intro h1 h2 h3 h4 h5 h6 h7 h8 h9 h10 h11 h12 h13 h14 h15 h16 h17 h18 h19 h20
    exact ⟨d.bytes_length, Desc.InWidths.read_bytes ⟨h1, h2, h3, h4, h5, h6, h7, h8, h9, h10, h11, h12, h13, h14, h15, h16, h17, h18, h19, h20⟩⟩
  · calc d = streamDescOf d.bytes := (beq_iff_eq.mp hd).symm
      _ = streamDescOf e.bytes := by rw [hbytes]
      _ = e := beq_iff_eq.mp he

end Sys2Proof.Machine
end

section
/-! PROOFS. The issue of descriptors (R243, R248, R255, R262, R308, R390): what a descriptor that runs leaves in memory and in its channel, and why the statement about
it, which admits lines for the module's own number, fails. -/

namespace Sys2Proof.Machine

/-! ## From a command to its run -/

/-- A command of the table dispatches its descriptor in the state of `Issues`. -/
theorem Issues.exec_eq {s u : State} {r : RoomId} {ch : ChanId} {d : Desc} {h : List Byte} {c : Instr} (hc : Issues s r ch d h u c) :
    exec c s = .next (u.issue r ch d h) := by
  have hop (ok : Bool) (hok : ok = true) : s.issueOp r ch d h ok = s.issue r ch d h := if_pos hok
  cases hc with
  | copy h0 => exact congrArg _ (hop _ (by simpa using h0))
  | gather h0 => exact congrArg _ (hop _ (by simpa using h0))
  | scatter h0 => exact congrArg _ (hop _ (by simpa using h0))
  | keyStream h0 hh => subst hh; exact congrArg _ (hop _ (by simpa using h0))
  | pantryGather h0 hh => subst hh; exact congrArg _ (hop _ (by simpa using h0))
  | pantryScatter h0 hh => subst hh; exact congrArg _ (hop _ (by simpa using h0))
  | fill h0 hh => subst hh; exact congrArg _ (hop _ (by simpa using h0))
  | rePitch h0 h1 hh => subst hh; exact congrArg _ (hop _ (by simp [h0, h1]))
  | transpose h0 h1 hh => subst hh; exact congrArg _ (hop _ (by simp [h0, h1]))
  | align h0 h1 h2 hh => subst hh; exact congrArg _ (hop _ (by simp [h0, h1, h2]))
  | byAddress off hruns hgoes hin hgood hdesc =>
    have howner : (s.ownerOf r).isNone = false := by
      unfold State.roomRuns at hruns
      cases ho : s.ownerOf r with
      | none => rw [ho] at hruns; cases hruns
      | some p => rfl
    have hgoes' : (((s.room r).chan ch).state == .halted) = false := beq_eq_false_iff_ne.mpr hgoes
    change execDescriptorByAddress r ch off h s = _
    simp only [execDescriptorByAddress, hruns, hgoes', howner, hin, hgood, hdesc, Bool.not_true, Bool.or_self, Bool.false_and, Bool.false_eq_true, if_false]

/-- A descriptor that nothing keeps waiting runs at once. -/
theorem State.MayIssue.issue_eq {u : State} {p : Nat} {r : RoomId} {ch : ChanId} {d : Desc} (hm : u.MayIssue p r ch d) (h : List Byte) :
    u.issue r ch d h = u.runDesc p r ch d h true := by
  have hready := hm.ready
  simp only [State.streamWaits, Bool.or_eq_false_iff, Bool.not_eq_false'] at hready
  obtain ⟨⟨⟨hdispatch, hgoes⟩, hqueue⟩, hheld⟩ := hready
  have hruns : u.partRuns p = true := by
    simp only [State.streamHeld, Bool.or_eq_false_iff, Bool.not_eq_false'] at hheld
    obtain ⟨⟨⟨⟨⟨hruns, -⟩, -⟩, -⟩, -⟩, -⟩ := hheld
    exact hruns
  simp [State.issue, hm.owner, hm.fits, hdispatch, hruns, hgoes, hm.clear, hm.ready, hm.moves]

/-! ## What a run leaves -/

theorem Room.noteStream_channels (x : Room) (third taint cross : Bool) (keys : List Nat) : (x.noteStream third taint cross keys).channels = x.channels := by
  unfold Room.noteStream
  split <;> rfl

theorem State.afterRun_chan (s : State) (room : Nat) (third : Bool) (a : StreamRun) (c : Nat) :
    ((s.afterRun room third a).room room).chan c = (s.room room).chan c := by
  rw [State.afterRun, State.room_setRoom_same]
  exact congrArg (Tab.get {} · c) (Room.noteStream_channels ..)

theorem Room.countOp_channels (x : Room) : x.countOp.channels = x.channels := by
  unfold Room.countOp
  split
  · split <;> rfl
  · rfl

theorem Room.dispatched_chan (x : Room) (first : Bool) (c : Nat) : (if first then x.countOp.takeTag 3 else x).chan c = x.chan c := by
  cases first with
  | false => rfl
  | true => exact congrArg (Tab.get {} · c) x.countOp_channels

theorem Room.addIssued_chan (x : Room) (c : Nat) (i : Issued) :
    (x.addIssued c i).chan c = { x.chan c with state := .performing, issued := (x.chan c).issued ++ [i], nextNo := (x.chan c).nextNo + 1 } :=
  x.chan_setChan_same c { x.chan c with state := .performing, issued := (x.chan c).issued ++ [i], nextNo := (x.chan c).nextNo + 1 }

/-- A run without lines for another module sends nothing. -/
theorem State.sendRemote_nil (s : State) (p room chan no : Nat) (d : Desc) : s.sendRemote p room chan no d [] = (s, 0, none, []) := by
  have hnone : (if d.isFinal = true then (none : Option (Ctx × List Byte)) else none) = none := ite_self _
  have hbody : (if d.isFinal = true then ([] : List RemoteLine) else []) = [] := ite_self _
  unfold State.sendRemote
  simp only [List.dropLast_nil, List.getLast?_nil, Option.map_none, hnone, hbody]
  split <;> rfl

theorem State.releaseHeld_of_none {s : State} {room chan : Nat} (p : Nat) (h : ∀ i, i ∈ ((s.room room).chan chan).issued → i.held = none) :
    s.releaseHeld p room chan = s := by
  unfold State.releaseHeld
  refine List.foldlRecOn (motive := fun t : State => t = s) _ _ rfl (fun t ht i hi => ?_)
  rw [h i hi]
  exact ht

/-- A channel that has just taken a descriptor without a held line, as none before it has, releases none. -/
theorem State.releaseHeld_of_addIssued {s : State} {x : Room} {room chan : Nat} {i : Issued} (p : Nat) (hroom : s.room room = x.addIssued chan i)
    (hheld : ∀ q, q ∈ (x.chan chan).issued → q.held = none) (hi : i.held = none) : s.releaseHeld p room chan = s := by
  refine State.releaseHeld_of_none p fun q hq => ?_
  rw [hroom, Room.addIssued_chan] at hq
  obtain hq | hq := List.mem_append.mp hq
  · exact hheld q hq
  · rw [List.mem_singleton.mp hq]
    exact hi

/-- A room `x` of the state has taken descriptor `i` on a channel; a zero-length read follows its lines in host memory (R253), and an ECHO that came early is used up
(R444). -/
def State.taken (s : State) (p room chan : Nat) (x : Room) (i : Issued) (fence early : Bool) (ek : Nat) : State :=
  let u0 := s.setRoom room (x.addIssued chan i)
  let u := if fence then u0.emit (.hostFence (p + 1) room chan) else u0
  let v := if early then
    let w := u.part p
    u.setPart p { w with pair := { w.pair with echoes := Tab.set 0 w.pair.echoes ek (Tab.get 0 w.pair.echoes ek - 1) } }
  else u
  v.releaseHeld p room chan

theorem State.taken_spec {s : State} {p room chan : Nat} {x : Room} {i : Issued} {fence early : Bool} {ek : Nat} {c : Channel} (hx : x.chan chan = c)
    (hheld : ∀ q, q ∈ c.issued → q.held = none) (hi : i.held = none) :
    (s.taken p room chan x i fence early ek).mem = s.mem ∧
      ((s.taken p room chan x i fence early ek).room room).chan chan = { c with state := .performing, issued := c.issued ++ [i], nextNo := c.nextNo + 1 } := by
  subst hx
  have hroom : (s.setRoom room (x.addIssued chan i)).room room = x.addIssued chan i := State.room_setRoom_same ..
  have hafter (v : State) (hmem : v.mem = s.mem) (hv : v.room room = x.addIssued chan i) : (v.releaseHeld p room chan).mem = s.mem ∧
      ((v.releaseHeld p room chan).room room).chan chan =
        { x.chan chan with state := .performing, issued := (x.chan chan).issued ++ [i], nextNo := (x.chan chan).nextNo + 1 } := by
    rw [State.releaseHeld_of_addIssued p hv hheld hi, hv]
    exact ⟨hmem, x.addIssued_chan chan i⟩
  cases fence <;> cases early <;> exact hafter _ rfl hroom

section Run
variable {s : State} {p room chan : Nat} {d : Desc} {h : List Byte} {first : Bool}

/-- A run that halts halts its channel, and without lines for another module leaves the memory of the run (R262). -/
theorem State.runDesc_of_stop (hgood : d.bad = false) (hmoves : d.empty = false) {st : StreamStop} (hstop : (s.runOf p room chan d h).stop = some st) :
    ((((s.runDesc p room chan d h first).room room).chan chan).state = .halted ∧ (((s.runDesc p room chan d h first).room room).chan chan).issued = [] ∧
      (((s.runDesc p room chan d h first).room room).chan chan).cause = st.cause) ∧
      ((s.runOf p room chan d h).remote = [] → (s.runDesc p room chan d h first).mem = (s.runOf p room chan d h).st.mem) := by
  simp only [State.runOf] at hstop ⊢
  simp only [State.runDesc, hgood, hmoves, Bool.false_eq_true, if_false, hstop]
  generalize StreamCtx.run _ _ = run
  have hhalts (t : State) := t.haltChannel_halts room chan st
  refine ⟨?_, fun hremote => ?_⟩
  · rw [(hhalts _).halted]
    exact ⟨rfl, rfl, rfl⟩
  · rw [(hhalts _).mem, hremote, List.reverse_nil, State.sendRemote_nil]
    rfl

/-- A run that does not halt, without lines for another module or lines held, leaves its memory, and its descriptor stands last in its channel, which performs. -/
theorem State.runDesc_of_done (hgood : d.bad = false) (hmoves : d.empty = false) (hstop : (s.runOf p room chan d h).stop = none)
    (hremote : (s.runOf p room chan d h).remote = []) (hheld : ∀ q, q ∈ (((s.runOf p room chan d h).st.room room).chan chan).issued → q.held = none) :
    (s.runDesc p room chan d h first).mem = (s.runOf p room chan d h).st.mem ∧
      ∃ i : Issued, i.desc = d ∧ i.no = (((s.runOf p room chan d h).st.room room).chan chan).nextNo ∧ i.left = 0 ∧ i.held = none ∧ i.unsent = [] ∧
        ((s.runDesc p room chan d h first).room room).chan chan = { ((s.runOf p room chan d h).st.room room).chan chan with
          state := .performing, issued := (((s.runOf p room chan d h).st.room room).chan chan).issued ++ [i]
          nextNo := (((s.runOf p room chan d h).st.room room).chan chan).nextNo + 1 } := by
  simp only [State.runOf] at hstop hremote hheld ⊢
  simp only [State.runDesc, hgood, hmoves, Bool.false_eq_true, if_false, hstop, hremote, List.reverse_nil, State.sendRemote_nil, State.afterRun_chan]
  generalize StreamCtx.run _ _ = run at hheld
  have hchan := (Room.dispatched_chan _ first chan).trans (run.1.st.afterRun_chan room (s.room room).takesErrors run.1 chan)
  exact ⟨(State.taken_spec hchan hheld rfl).1, _, rfl, rfl, rfl, rfl, rfl, (State.taken_spec hchan hheld rfl).2⟩

end Run

/-- The first clause of O47, with memory said of a run without lines for another module: a command whose descriptor nothing keeps waiting leaves that memory and the
descriptor last in its channel, and halts the channel where the run halts (R243, R248, R262). -/
theorem exec_issues_runs {s u : State} {p : Nat} {r : RoomId} {ch : ChanId} {d : Desc} {h : List Byte} {c : Instr} (hc : Issues s r ch d h u c)
    (hm : u.MayIssue p r ch d) :
    ∃ t : State, exec c s = .next t ∧
      ((u.runOf p r ch d h).stop = none → (u.runOf p r ch d h).remote = [] →
        (∀ q, q ∈ (((u.runOf p r ch d h).st.room r).chan ch).issued → q.held = none) →
        t.mem = (u.runOf p r ch d h).st.mem ∧
        ∃ i, ((t.room r).chan ch).issued = (((u.runOf p r ch d h).st.room r).chan ch).issued ++ [i] ∧ i.desc = d ∧
          i.no = (((u.runOf p r ch d h).st.room r).chan ch).nextNo ∧ i.left = 0 ∧ i.held = none ∧ i.unsent = [] ∧
          ((t.room r).chan ch).nextNo = (((u.runOf p r ch d h).st.room r).chan ch).nextNo + 1 ∧ ((t.room r).chan ch).state = .performing) ∧
      (∀ st, (u.runOf p r ch d h).stop = some st → (((t.room r).chan ch).state = .halted ∧ ((t.room r).chan ch).issued = [] ∧
        ((t.room r).chan ch).cause = st.cause) ∧ ((u.runOf p r ch d h).remote = [] → t.mem = (u.runOf p r ch d h).st.mem)) := by
  refine ⟨_, hc.exec_eq.trans (congrArg _ (hm.issue_eq h)), fun hstop hremote hheld => ?_, fun st hstop => State.runDesc_of_stop hm.good hm.moves hstop⟩
  obtain ⟨hmem, i, hdesc, hno, hleft, hiheld, hunsent, hchan⟩ := State.runDesc_of_done (first := true) hm.good hm.moves hstop hremote hheld
  rw [hchan]
  exact ⟨hmem, i, rfl, hdesc, hno, hleft, hiheld, hunsent, rfl, rfl⟩

/-! ## Lines for the module's own number -/

/-- Module 0 of a system, its time locked, with partition 0 on rooms 0 and 1, whose contexts may take every port. -/
def loopback : State :=
  { State.reset.setPart 0 { phase := .live, rooms := [0, 1], portMask := 0x3FFFFFFF } with
  boot := { State.reset.boot with state := .ready }
  links := { State.reset.links with
    locked := true, bootId := some 1
    route := some { module := 0, modules := 2, timeRoot := 0, dateline := 0, portDim := 0, systemId := 0, routes := [] } } }

/-- A FILL of one line at 0x100 of the attic of room 1 of partition 0 of module 0, as of a remote module. -/
def loopbackFill : Desc :=
  { op := 6, flags := 0, srcSpace := 0, dstSpace := 4, srcRoom := 0, dstRoom := 1, dstModule := 0, srcBase := 0, dstBase := 0x100, blkLines := 1, hostBuf := 0
    blkRows := 1, srcPitch := 0, dstPitch := 0, idxBase := 0, idxSpace := 0, idxForm := 0, token := 63, idxCount := 0, rowStride := 0, colStride := 0, fillWord := 7 }

/-- Refutes O47: its first clause gives every run's memory to the state after the command. A line for the module's own number is performed as its context is sent, after
the run (R308, R390): of `loopbackFill` the run writes nothing, and the command fills the line. Without lines for another module the clause holds (exec_issues_runs). -/
theorem not_descriptorsAreIssuedAndRun : ¬ Obligations.DescriptorsAreIssuedAndRun := by
  rintro ⟨hruns, -⟩
  have hm : loopback.MayIssue 0 (0 : RoomId) (0 : ChanId) loopbackFill :=
    ⟨by decide +kernel, by decide +kernel, by decide +kernel, by decide +kernel, by decide +kernel, by decide +kernel⟩
  have hc : Issues loopback 0 0 loopbackFill [] loopback (.fill 0 0 loopbackFill) := .fill rfl rfl
  obtain ⟨t, hexec, hmem, -⟩ := hruns _ _ _ _ _ _ _ _ hc hm
  have ht : loopback.runDesc 0 0 0 loopbackFill [] true = t := Host.Outcome.next.inj ((hc.exec_eq.trans (congrArg _ (hm.issue_eq []))).symm.trans hexec)
  have hfilled : Mem.byte (loopback.runDesc 0 0 0 loopbackFill [] true).mem.attic (atticKey 1 0x100) = 7 := by decide +kernel
  have hrun : Mem.byte (loopback.runOf 0 0 0 loopbackFill []).st.mem.attic (atticKey 1 0x100) = 0 := by decide +kernel
  have hsame : (7 : Byte) = 0 := by
    rw [← hfilled, ← hrun, ht, hmem]
    rfl
  exact absurd hsame (by decide)

end Sys2Proof.Machine
end

section
/-! PROOFS. What streams move (R194, R228, R230, R248, R251, R252, R266, R268): the reads and writes of a run that meet no error, the blocks, tiles and pieces that they
make in a memory in canonical form, and why the statement about them, which admits every memory, fails. -/

namespace Sys2Proof.Machine

/-! ## The two spaces -/

/-- The cells of the stacks or of the attics. -/
def Mem.side (m : Mem) (cellar : Bool) : List Host.Cell := if cellar then m.cellar else m.attic

/-- The key of a byte of a room's stack or attic. -/
def sideKey (cellar : Bool) (r off : Nat) : Nat := if cellar then cellarKey r off else atticKey r off

/-- The bytes of a room's stack or attic. -/
def sideBytes (cellar : Bool) : Nat := if cellar then stackBytes else atticBytes

theorem sideKey_add (cellar : Bool) (r off n : Nat) : sideKey cellar r off + n = sideKey cellar r (off + n) := by
  cases cellar <;> exact Nat.add_assoc ..

theorem sideKey_le {cellar : Bool} {r o o' : Nat} : sideKey cellar r o ≤ sideKey cellar r o' ↔ o ≤ o' := by
  cases cellar <;> exact Nat.add_le_add_iff_left

theorem Mem.side_wf {s : State} (h : s.memOk = true) (cellar : Bool) : Mem.wf (s.mem.side cellar) = true := by
  obtain ⟨hattic, hcellar⟩ := Bool.and_eq_true_iff.mp h
  cases cellar
  · exact hattic
  · exact hcellar

/-! ## Reads -/

theorem State.spanBytes_lines {s : State} {r off n : Nat} (hlost : (s.stack r).lost.isEmpty = false) (hgood : ∀ l, l ∈ linesOf off n → s.LineGood r l) :
    s.spanBytes ⟨r, true, off, n⟩ = (linesOf off n).flatMap (fun l => s.spanBytes (linePiece r off n l)) := by
  simp only [State.spanBytes, Bool.not_true, Bool.false_eq_true, if_false, hlost]
  refine List.flatMap_congr fun l hl => ?_
  obtain ⟨hlost, -⟩ := Bool.or_eq_false_iff.mp (hgood l hl)
  obtain ⟨hlo, hhi, hn⟩ := mem_linesOf.mp hl
  have hat : max off (l * 128) / 128 = l * 128 / 128 := by omega
  have hline : s.lineLost r (max off (l * 128)) = false := by simpa only [State.lineLost, hat] using hlost
  rw [hline]
  exact (State.spanBytes_linePiece hl (hgood l hl)).symm

/-- A span that meets no error reads as its bytes, in a memory in canonical form (R199, R230, R231). -/
theorem State.spanBytes_of_good {s : State} (h : s.memOk = true) {cellar : Bool} {r off n : Nat} (hgood : s.spanBad ⟨r, cellar, off, n⟩ = false) :
    s.spanBytes ⟨r, cellar, off, n⟩ = (List.range n).map (fun i => Mem.byte (s.mem.side cellar) (sideKey cellar r (off + i))) := by
  have hread := Mem.read_eq_map (Mem.side_wf h cellar) (sideKey cellar r off) n
  simp only [sideKey_add] at hread
  cases cellar with
  | false => exact hread
  | true =>
    cases hlost : (s.stack r).lost.isEmpty with
    | true =>
      rw [← hread]
      simp only [State.spanBytes, Bool.not_true, Bool.false_eq_true, if_false, hlost, if_true]
      rfl
    | false =>
      have hlines (l : Nat) (hl : l ∈ linesOf off n) : s.LineGood r l := Bool.eq_false_iff.mpr (List.any_eq_false.mp hgood l hl)
      rw [State.spanBytes_lines hlost hlines, State.flatMap_linePieces (Mem.side_wf h true) hlines]
      rfl

theorem State.spanBytes_getD {s : State} (h : s.memOk = true) {cellar : Bool} {r off n : Nat} (hgood : s.spanBad ⟨r, cellar, off, n⟩ = false) {i : Nat} (hi : i < n) :
    (s.spanBytes ⟨r, cellar, off, n⟩).getD i 0 = Mem.byte (s.mem.side cellar) (sideKey cellar r (off + i)) := by
  rw [State.spanBytes_of_good h hgood, List.getD_eq_getElem _ _ (by simpa using hi), List.getElem_map, List.getElem_range]

/-- A read of a run that has not halted, inside its space and without error, gives the bytes as they stood when the block began, and changes no memory. -/
theorem StreamCtx.readAt_of_good {c : StreamCtx} {a : StreamRun} {cellar : Bool} {rel off n : Nat} (ha : a.stop = none) (hrel : rel < c.part.rooms.length)
    (hin : off + n ≤ sideBytes cellar) (hgood : c.s0.spanBad ⟨c.part.roomAt rel, cellar, off, n⟩ = false) :
    (c.readAt a cellar rel off n).1.stop = none ∧ (c.readAt a cellar rel off n).1.st.mem = a.st.mem ∧
      (c.readAt a cellar rel off n).2 = c.s0.spanBytes ⟨c.part.roomAt rel, cellar, off, n⟩ := by
  have hinside : (⟨c.part.roomAt rel, cellar, off, n⟩ : Span).outside = false := decide_eq_false (Nat.not_lt.mpr hin)
  simp only [StreamCtx.readAt, ha, hinside, hgood, Option.isSome_none, Nat.not_le.mpr hrel, decide_false, Bool.or_false, Bool.false_and, Bool.false_eq_true, if_false]
  exact ⟨trivial, (State.counts_countRead a.st _).mem, trivial⟩

/-! ## Writes -/

/-- From `a` to `u` a run that has not halted has written `data` at a key of one space and nothing in the other. -/
structure StreamRun.Wrote (a u : StreamRun) (cellar : Bool) (key : Nat) (data : List Byte) : Prop where
  goes : u.stop = none
  bytes : u.st.mem.side cellar = Mem.write (a.st.mem.side cellar) key data
  other : u.st.mem.side (!cellar) = a.st.mem.side (!cellar)

section Wrote
variable {a u : StreamRun} {cellar : Bool} {r off : Nat} {data : List Byte} (h : a.Wrote u cellar (sideKey cellar r off) data)
include h

theorem StreamRun.Wrote.byte_at {i : Nat} (hi : i < data.length) : Mem.byte (u.st.mem.side cellar) (sideKey cellar r (off + i)) = data.getD i 0 := by
  rw [h.bytes, ← sideKey_add, Mem.byte_write, if_pos (by omega), Nat.add_sub_cancel_left]

theorem StreamRun.Wrote.byte_other {x : Nat} (hx : ∀ i, i < data.length → x ≠ sideKey cellar r (off + i)) :
    Mem.byte (u.st.mem.side cellar) x = Mem.byte (a.st.mem.side cellar) x := by
  rw [h.bytes, Mem.byte_write, if_neg]
  rintro ⟨hlo, hhi⟩
  refine hx (x - sideKey cellar r off) (by omega) ?_
  rw [← sideKey_add]
  omega

end Wrote

/-- A write to an attic inside its space, where no source overlaps it. -/
theorem StreamCtx.put_attic {c : StreamCtx} {a : StreamRun} {rel off : Nat} {data : List Byte} (ha : a.stop = none) (hrel : rel < c.part.rooms.length)
    (hin : off + data.length ≤ atticBytes) : a.Wrote (c.put a [] 0 rel off data) false (sideKey false (c.part.roomAt rel) off) data := by
  have hinside : (⟨c.part.roomAt rel, false, off, data.length⟩ : Span).outside = false := decide_eq_false (Nat.not_lt.mpr hin)
  have hdata (free : Nat) : overlaid free [] off data = data := if_pos rfl
  have hput : (c.put a [] 0 rel off data).stop = none ∧ (c.put a [] 0 rel off data).st.mem = (a.st.writeAttic (c.part.roomAt rel) off data).mem := by
    simp [StreamCtx.put, ha, hinside, hdata, Nat.not_le.mpr hrel, (State.counts_countAtticWr (a.st.writeAttic (c.part.roomAt rel) off data) _ _ _).mem]
  obtain ⟨hgoes, hmem⟩ := hput
  exact ⟨hgoes, (congrArg Mem.attic hmem).trans rfl, (congrArg Mem.cellar hmem).trans rfl⟩

/-- A line of a stack that is written whole is written, lost or not (R230, R231). -/
theorem State.cellarWrite_line (s : State) {r off : Nat} {data : List Byte} (hoff : off % 128 = 0) (hlen : data.length = 128) :
    (s.cellarWrite r off data).2 = true ∧ (s.cellarWrite r off data).1.mem.cellar = Mem.write s.mem.cellar (cellarKey r off) data ∧
      (s.cellarWrite r off data).1.mem.attic = s.mem.attic := by
  obtain ⟨l, rfl⟩ : ∃ l, off = l * 128 := ⟨off / 128, by omega⟩
  have hwhole : max (l * 128) (l * 128) = l * 128 ∧ min (l * 128 + data.length) (l * 128 + 128) = l * 128 + 128 := by omega
  have hok : (s.cellarWrite r (l * 128) data).2 = true := by
    simp [State.cellarWrite_eq_foldl, hlen, linesOf_line, State.lineWrite]
  have hpart : linePart (l * 128) data l = data := by simp [linePart, hlen]
  refine ⟨hok, ?_, s.cellarWrite_mem_attic r (l * 128) data⟩
  rw [State.cellarWrite_eq_foldl, hlen, linesOf_line] at hok ⊢
  rw [List.foldl_cons, List.foldl_nil] at hok ⊢
  rw [State.lineWrite_cellar, if_neg (by simp [hok]), if_pos hwhole, hpart, Nat.max_self]

/-- A write of a whole line of a stack. -/
theorem StreamCtx.put_line {c : StreamCtx} {a : StreamRun} {rel off : Nat} {data : List Byte} (ha : a.stop = none) (hrel : rel < c.part.rooms.length)
    (hin : off + data.length ≤ stackBytes) (hoff : off % 128 = 0) (hlen : data.length = 128) :
    a.Wrote (c.put a [] 1 rel off data) true (sideKey true (c.part.roomAt rel) off) data := by
  have hinside : (⟨c.part.roomAt rel, true, off, data.length⟩ : Span).outside = false := decide_eq_false (Nat.not_lt.mpr hin)
  have hdata (free : Nat) : overlaid free [] off data = data := if_pos rfl
  obtain ⟨hok, hcellar, hattic⟩ := a.st.cellarWrite_line (r := c.part.roomAt rel) hoff hlen
  have hput : (c.put a [] 1 rel off data).stop = none ∧ (c.put a [] 1 rel off data).st.mem = (a.st.cellarWrite (c.part.roomAt rel) off data).1.mem := by
    generalize hw : a.st.cellarWrite (c.part.roomAt rel) off data = w at hok
    obtain ⟨t, ok⟩ := w
    subst hok
    simp [StreamCtx.put, ha, hinside, hdata, Nat.not_le.mpr hrel, hw]
  obtain ⟨hgoes, hmem⟩ := hput
  refine ⟨hgoes, ?_, ?_⟩
  · rw [hmem]
    exact hcellar
  · rw [hmem]
    exact hattic

/-- Writes of a run one after another: no other byte changes, and where they lie apart each holds its data. -/
theorem StreamRun.foldl_wrote {α : Type} {f : StreamRun → α → StreamRun} {cellar : Bool} {key : α → Nat} {data : α → List Byte} {l : List α}
    (hstep : ∀ (q : StreamRun) (e : α), e ∈ l → q.stop = none → q.Wrote (f q e) cellar (key e) (data e)) {a : StreamRun} (ha : a.stop = none) :
    (l.foldl f a).stop = none ∧ (l.foldl f a).st.mem.side (!cellar) = a.st.mem.side (!cellar) ∧
      (∀ x, (∀ e, e ∈ l → ∀ j, j < (data e).length → x ≠ key e + j) → Mem.byte ((l.foldl f a).st.mem.side cellar) x = Mem.byte (a.st.mem.side cellar) x) ∧
      (l.Pairwise (fun d e => key d + (data d).length ≤ key e ∨ key e + (data e).length ≤ key d) → ∀ e, e ∈ l → ∀ j, j < (data e).length →
        Mem.byte ((l.foldl f a).st.mem.side cellar) (key e + j) = (data e).getD j 0) := by
  induction l generalizing a with
  | nil => exact ⟨ha, rfl, fun _ _ => rfl, fun _ _ he => nomatch he⟩
  | cons w l ih =>
    obtain ⟨hgoes, hbytes, hother⟩ := hstep a w List.mem_cons_self ha
    obtain ⟨hend, hside, hrest, hdata⟩ := ih (fun q e he => hstep q e (List.mem_cons_of_mem w he)) hgoes
    rw [List.foldl_cons]
    refine ⟨hend, hside.trans hother, fun x hx => ?_, fun hapart e he j hj => ?_⟩
    · rw [hrest x fun e he => hx e (List.mem_cons_of_mem w he), hbytes, Mem.byte_write, if_neg]
      rintro ⟨hlo, hhi⟩
      exact hx w List.mem_cons_self (x - key w) (by omega) (by omega)
    · obtain ⟨hw, hl⟩ := List.pairwise_cons.mp hapart
      obtain rfl | he := List.mem_cons.mp he
      · rw [hrest _ fun d hd i hi heq => by have := hw d hd; omega, hbytes, Mem.byte_write, if_pos (by omega), Nat.add_sub_cancel_left]
      · exact hdata hl e he j hj

/-- A byte of concatenated pieces of one length. -/
theorem getD_flatMap_of_length {α : Type} {f : α → List Byte} {n : Nat} (hf : ∀ x, (f x).length = n) (l : List α) {k i : Nat} (hk : k < l.length) (hi : i < n) :
    (l.flatMap f).getD (k * n + i) 0 = (f l[k]).getD i 0 := by
  rw [List.getD_eq_getElem?_getD, getElem?_flatMap_of_length hf l k hi, List.getElem?_eq_getElem hk, Option.bind_some, List.getD_eq_getElem?_getD]

/-! ## Blocks (R248, R252) -/

/-- The spaces of a block that moves within the module: an attic or whole lines of a stack, with its reads free of error. -/
structure StreamCtx.Moves (c : StreamCtx) (a : StreamRun) (b : BlockAt) (cellar : Bool) : Prop where
  goes : a.stop = none
  direct : c.d.transposed = false
  dst : c.d.dstSpace = if cellar then 1 else 0
  src : c.d.op = 6 ∨ c.d.srcSpace ≤ 1
  dstRel : b.dstRel < (a.st.part c.p).rooms.length
  srcRel : b.srcRel < (a.st.part c.p).rooms.length
  apart : c.overlaps b = []
  rows : c.d.blkRows ≤ 1 ∨ 128 * c.d.blkLines ≤ c.d.dstPitch
  aligned : cellar = true → b.dst % 128 = 0 ∧ c.d.dstPitch % 128 = 0
  inside : b.dst + c.d.blkRows * c.d.dstPitch + 128 * c.d.blkLines ≤ sideBytes cellar
  source : c.d.op ≠ 6 → b.src + c.d.blkRows * c.d.srcPitch + 128 * c.d.blkLines ≤ (if c.d.srcSpace = 1 then stackBytes else atticBytes) ∧
    ∀ i k, i < c.d.blkRows → k < c.d.blkLines →
      a.st.spanBad { room := (a.st.part c.p).roomAt b.srcRel, cellar := c.d.srcSpace = 1, off := b.src + i * c.d.srcPitch + k * 128, len := 128 } = false

/-- The line that a FILL writes. -/
def fillLine (w : Word) : List Byte := (List.range 32).flatMap (fun _ => leBytes 4 w.toNat)

theorem fillLine_length (w : Word) : (fillLine w).length = 128 := by
  simp [fillLine, List.length_flatMap, leBytes_length]

theorem fillLine_getD (w : Word) {j : Nat} (hj : j < 128) : (fillLine w).getD j 0 = (leBytes 4 w.toNat).getD (j % 4) 0 := by
  have hat : j / 4 * 4 + j % 4 = j := Nat.div_add_mod' j 4
  have hget := getD_flatMap_of_length (f := fun _ : Nat => leBytes 4 w.toNat) (fun _ => leBytes_length 4 w.toNat) (List.range 32) (k := j / 4) (i := j % 4)
    (by rw [List.length_range]; omega) (Nat.mod_lt _ (by decide))
  rwa [hat] at hget

/-- The data of row `i`, line `k` of a block: the word of a FILL, else the source's line as it stood when the block began (R248). -/
def StreamCtx.lineData (c : StreamCtx) (b : BlockAt) (i k : Nat) : List Byte :=
  if c.d.op = 6 then fillLine c.d.fillWord
  else c.s0.spanBytes ⟨c.part.roomAt b.srcRel, c.d.srcSpace = 1, b.src + i * c.d.srcPitch + k * 128, 128⟩

theorem StreamCtx.lineData_length (c : StreamCtx) (b : BlockAt) (i k : Nat) : (c.lineData b i k).length = 128 := by
  unfold StreamCtx.lineData
  split
  · exact fillLine_length _
  · exact State.spanBytes_length _ _

/-- A block's source line that lies in its space and meets no error. -/
def StreamCtx.LineGood (c : StreamCtx) (b : BlockAt) (i k : Nat) : Prop :=
  c.d.op ≠ 6 → c.d.srcSpace ≤ 1 ∧ b.srcRel < c.part.rooms.length ∧ b.src + i * c.d.srcPitch + k * 128 + 128 ≤ sideBytes (c.d.srcSpace = 1) ∧
    c.s0.spanBad ⟨c.part.roomAt b.srcRel, c.d.srcSpace = 1, b.src + i * c.d.srcPitch + k * 128, 128⟩ = false

theorem StreamCtx.getLine_of_good {c : StreamCtx} {b : BlockAt} {i k : Nat} (hgood : c.LineGood b i k) {a : StreamRun} (ha : a.stop = none) :
    (c.getLine b a i k).1.stop = none ∧ (c.getLine b a i k).1.st.mem = a.st.mem ∧ (c.getLine b a i k).2 = c.lineData b i k := by
  unfold StreamCtx.getLine StreamCtx.lineData
  by_cases hop : c.d.op = 6
  · rw [if_pos hop, if_pos hop]
    exact ⟨ha, rfl, rfl⟩
  · obtain ⟨hspace, hrel, hin, hbad⟩ := hgood hop
    have hhost : c.d.srcSpace ≠ 2 := by omega
    rw [if_neg hop, if_neg hop, StreamCtx.get, if_neg hhost]
    exact StreamCtx.readAt_of_good ha hrel hin hbad

/-- A byte of a line's data, in a memory in canonical form. -/
theorem StreamCtx.lineData_getD {c : StreamCtx} {b : BlockAt} {i k : Nat} (hmem : c.s0.memOk = true) (hgood : c.LineGood b i k) {j : Nat} (hj : j < 128) :
    (c.lineData b i k).getD j 0 = if c.d.op = 6 then (leBytes 4 c.d.fillWord.toNat).getD (j % 4) 0
      else Mem.byte (c.s0.mem.side (c.d.srcSpace = 1)) (sideKey (c.d.srcSpace = 1) (c.part.roomAt b.srcRel) (b.src + i * c.d.srcPitch + k * 128 + j)) := by
  unfold StreamCtx.lineData
  split
  next => exact fillLine_getD _ hj
  next hop =>
    obtain ⟨-, -, -, hbad⟩ := hgood hop
    exact State.spanBytes_getD hmem hbad hj

/-- A line's place in the block's destination. -/
theorem StreamCtx.putLine_wrote {c : StreamCtx} {a : StreamRun} {b : BlockAt} {cellar : Bool} {i k : Nat} {data : List Byte} (ha : a.stop = none)
    (hspace : c.d.dstSpace = if cellar then 1 else 0) (hrel : b.dstRel < c.part.rooms.length) (hlen : data.length = 128)
    (hin : b.dst + i * c.d.dstPitch + k * 128 + 128 ≤ sideBytes cellar) (haligned : cellar = true → (b.dst + i * c.d.dstPitch + k * 128) % 128 = 0) :
    a.Wrote (c.putLine b [] a i k data) cellar (sideKey cellar (c.part.roomAt b.dstRel) (b.dst + i * c.d.dstPitch + k * 128)) data := by
  have hput : c.putLine b [] a i k data = c.put a [] (if cellar then 1 else 0) b.dstRel (b.dst + i * c.d.dstPitch + k * 128) data := by
    cases cellar <;> simp [StreamCtx.putLine, ha, hspace]
  rw [hput]
  cases cellar with
  | false => exact StreamCtx.put_attic ha hrel (by rw [hlen]; exact hin)
  | true => exact StreamCtx.put_line ha hrel (by rw [hlen]; exact hin) (haligned rfl) hlen

theorem StreamCtx.moveLine_wrote {c : StreamCtx} {a : StreamRun} {b : BlockAt} {cellar : Bool} {i k : Nat} (ha : a.stop = none) (hgood : c.LineGood b i k)
    (hspace : c.d.dstSpace = if cellar then 1 else 0) (hrel : b.dstRel < c.part.rooms.length)
    (hin : b.dst + i * c.d.dstPitch + k * 128 + 128 ≤ sideBytes cellar) (haligned : cellar = true → (b.dst + i * c.d.dstPitch + k * 128) % 128 = 0) :
    a.Wrote (c.moveLine b [] i a k) cellar (sideKey cellar (c.part.roomAt b.dstRel) (b.dst + i * c.d.dstPitch + k * 128)) (c.lineData b i k) := by
  obtain ⟨hgoes, hmem, hdata⟩ := StreamCtx.getLine_of_good hgood ha
  obtain ⟨hend, hbytes, hother⟩ := StreamCtx.putLine_wrote hgoes hspace hrel (c.lineData_length b i k) hin haligned
  simp only [StreamCtx.moveLine, hdata]
  exact ⟨hend, by rw [hbytes, hmem], by rw [hother, hmem]⟩

/-- A fold over rows and the lines of each is one over pairs. -/
theorem foldl_rows {β : Type} (f : β → Nat → Nat → β) (rows lines : Nat) (a : β) :
    (List.range rows).foldl (fun q i => (List.range lines).foldl (fun q k => f q i k) q) a =
      (List.range rows ×ˢ List.range lines).foldl (fun q e => f q e.1 e.2) a := by
  simp [SProd.sprod, List.product, List.foldl_flatMap, List.foldl_map]

/-- A run whose sources are read as they stand in `s`. -/
def StreamCtx.reading (c : StreamCtx) (s : State) : StreamCtx := { c with s0 := s }

@[simp] theorem StreamCtx.reading_d (c : StreamCtx) (s : State) : (c.reading s).d = c.d := rfl
@[simp] theorem StreamCtx.reading_part (c : StreamCtx) (s : State) : (c.reading s).part = s.part c.p := rfl

theorem StreamCtx.moveBlock_of_direct {c : StreamCtx} (a : StreamRun) (b : BlockAt) (h : c.d.transposed = false) :
    c.moveBlock a b = (List.range c.d.blkRows).foldl (fun q i =>
      (List.range c.d.blkLines).foldl ((c.reading a.st).moveLine b ((c.reading a.st).overlaps b) i) q) a := by
  simp only [StreamCtx.moveBlock, h, Bool.false_eq_true, if_false]
  rfl

theorem row_end_le {pitch lines i j k : Nat} (hpitch : 128 * lines ≤ pitch) (hij : i < j) (hk : k < lines) : i * pitch + k * 128 + 128 ≤ j * pitch := by
  have hnext : (i + 1) * pitch ≤ j * pitch := Nat.mul_le_mul_right _ hij
  rw [Nat.succ_mul] at hnext
  omega

section Block
variable {c : StreamCtx} {a : StreamRun} {b : BlockAt} {cellar : Bool} (hm : c.Moves a b cellar)
include hm

/-- The block of a run, read as memory stood when it began. -/
theorem StreamCtx.Moves.moveBlock_eq : c.moveBlock a b = (List.range c.d.blkRows ×ˢ List.range c.d.blkLines).foldl
    (fun q e => (c.reading a.st).moveLine b [] e.1 q e.2) a := by
  have hsrc : (c.reading a.st).overlaps b = [] := hm.apart
  rw [StreamCtx.moveBlock_of_direct a b hm.direct, hsrc, ← foldl_rows (fun q i k => (c.reading a.st).moveLine b [] i q k)]

theorem StreamCtx.Moves.lineGood {i k : Nat} (hi : i < c.d.blkRows) (hk : k < c.d.blkLines) : (c.reading a.st).LineGood b i k := by
  intro hop
  obtain ⟨hin, hbad⟩ := hm.source hop
  have hrow : i * c.d.srcPitch ≤ c.d.blkRows * c.d.srcPitch := Nat.mul_le_mul_right _ hi.le
  have hside : sideBytes (c.d.srcSpace = 1) = if c.d.srcSpace = 1 then stackBytes else atticBytes := by simp [sideBytes]
  refine ⟨hm.src.resolve_left hop, hm.srcRel, ?_, hbad i k hi hk⟩
  rw [StreamCtx.reading_d, hside]
  omega

/-- The lines of a block in its destination, each as it is written. -/
theorem StreamCtx.Moves.lines_wrote (q : StreamRun) (e : Nat × Nat) (he : e ∈ List.range c.d.blkRows ×ˢ List.range c.d.blkLines) (hq : q.stop = none) :
    q.Wrote ((c.reading a.st).moveLine b [] e.1 q e.2) cellar
      (sideKey cellar ((a.st.part c.p).roomAt b.dstRel) (b.dst + e.1 * c.d.dstPitch + e.2 * 128)) ((c.reading a.st).lineData b e.1 e.2) := by
  obtain ⟨i, k⟩ := e
  obtain ⟨hi, hk⟩ := List.pair_mem_product.mp he
  rw [List.mem_range] at hi hk
  have hrow : i * c.d.dstPitch ≤ c.d.blkRows * c.d.dstPitch := Nat.mul_le_mul_right _ hi.le
  have hin := hm.inside
  refine StreamCtx.moveLine_wrote hq (hm.lineGood hi hk) hm.dst hm.dstRel ?_ fun hcellar => ?_
  · dsimp only [StreamCtx.reading_d]
    omega
  · obtain ⟨hdst, hpitch⟩ := hm.aligned hcellar
    have hmul : i * c.d.dstPitch % 128 = 0 := by rw [Nat.mul_mod, hpitch, Nat.mul_zero, Nat.zero_mod]
    dsimp only [StreamCtx.reading_d]
    omega

/-- Rows that do not overlap: the lines of a block lie apart. -/
theorem StreamCtx.Moves.lines_apart : (List.range c.d.blkRows ×ˢ List.range c.d.blkLines).Pairwise (fun d e =>
    sideKey cellar ((a.st.part c.p).roomAt b.dstRel) (b.dst + d.1 * c.d.dstPitch + d.2 * 128) + ((c.reading a.st).lineData b d.1 d.2).length ≤
        sideKey cellar ((a.st.part c.p).roomAt b.dstRel) (b.dst + e.1 * c.d.dstPitch + e.2 * 128) ∨
      sideKey cellar ((a.st.part c.p).roomAt b.dstRel) (b.dst + e.1 * c.d.dstPitch + e.2 * 128) + ((c.reading a.st).lineData b e.1 e.2).length ≤
        sideKey cellar ((a.st.part c.p).roomAt b.dstRel) (b.dst + d.1 * c.d.dstPitch + d.2 * 128)) := by
  refine ((List.nodup_range.product List.nodup_range).pairwise_of_forall_ne fun d hd e he hne => ?_)
  obtain ⟨i, k⟩ := d
  obtain ⟨j, l⟩ := e
  obtain ⟨hi, hk⟩ := List.pair_mem_product.mp hd
  obtain ⟨hj, hl⟩ := List.pair_mem_product.mp he
  rw [List.mem_range] at hi hk hj hl
  simp only [StreamCtx.lineData_length, sideKey_add, sideKey_le]
  have hpitch (h : i ≠ j) : 128 * c.d.blkLines ≤ c.d.dstPitch := hm.rows.resolve_left (by omega)
  obtain hlt | rfl | hlt := lt_trichotomy i j
  · have := row_end_le (hpitch hlt.ne) hlt hk
    omega
  · have hkl : k ≠ l := fun h => hne (congrArg _ h)
    omega
  · have := row_end_le (hpitch hlt.ne') hlt hl
    omega

/-- What a moved block holds: at each row and byte the source's byte as it stood when the block began, for a FILL the fill word, in a memory in canonical form; no other
byte of its space changes, and none of the other space (R248, R252, R266). -/
theorem StreamCtx.Moves.moveBlock_bytes (hmem : a.st.memOk = true) :
    (c.moveBlock a b).stop = none ∧ (c.moveBlock a b).st.mem.side (!cellar) = a.st.mem.side (!cellar) ∧
      (∀ i m, i < c.d.blkRows → m < 128 * c.d.blkLines →
        Mem.byte ((c.moveBlock a b).st.mem.side cellar) (sideKey cellar ((a.st.part c.p).roomAt b.dstRel) (b.dst + i * c.d.dstPitch + m)) =
          if c.d.op = 6 then (leBytes 4 c.d.fillWord.toNat).getD (m % 4) 0
          else if c.d.srcSpace = 1 then Mem.byte a.st.mem.cellar (cellarKey ((a.st.part c.p).roomAt b.srcRel) (b.src + i * c.d.srcPitch + m))
          else Mem.byte a.st.mem.attic (atticKey ((a.st.part c.p).roomAt b.srcRel) (b.src + i * c.d.srcPitch + m))) ∧
      (∀ x, (∀ i m, i < c.d.blkRows → m < 128 * c.d.blkLines → x ≠ sideKey cellar ((a.st.part c.p).roomAt b.dstRel) (b.dst + i * c.d.dstPitch + m)) →
        Mem.byte ((c.moveBlock a b).st.mem.side cellar) x = Mem.byte (a.st.mem.side cellar) x) := by
  obtain ⟨hgoes, hother, hrest, hdata⟩ := StreamRun.foldl_wrote hm.lines_wrote hm.goes
  rw [← hm.moveBlock_eq] at hgoes hother hrest hdata
  refine ⟨hgoes, hother, fun i m hi hm' => ?_, fun x hx => hrest x fun e he j hj => ?_⟩
  · have hk : m / 128 < c.d.blkLines := by omega
    have hj : m % 128 < 128 := Nat.mod_lt _ (by decide)
    have hline := hdata hm.lines_apart (i, m / 128) (List.pair_mem_product.mpr ⟨List.mem_range.mpr hi, List.mem_range.mpr hk⟩) (m % 128)
      (by rw [StreamCtx.lineData_length]; exact hj)
    have hat (o : Nat) : o + m / 128 * 128 + m % 128 = o + m := by omega
    have hword : m % 128 % 4 = m % 4 := Nat.mod_mod_of_dvd m (by decide)
    rw [sideKey_add, hat, StreamCtx.lineData_getD hmem (hm.lineGood hi hk) hj, hword] at hline
    rw [hline, StreamCtx.reading_d]
    split
    · rfl
    split
    next hspace => simp only [hspace, decide_true, hat]; rfl
    next hspace => simp only [hspace, decide_false, hat]; rfl
  · obtain ⟨hi, hk⟩ := List.pair_mem_product.mp he
    rw [StreamCtx.lineData_length] at hj
    rw [List.mem_range] at hi hk
    rw [sideKey_add, Nat.add_assoc (b.dst + e.1 * c.d.dstPitch)]
    exact hx e.1 (e.2 * 128 + j) hi (by omega)

end Block

/-! ## Transposed tiles (R194, R252) -/

theorem StreamRun.countGeneral_rest {a : StreamRun} (d : Desc) (room pitch : Nat) (yes : Bool) :
    (a.countGeneral d room pitch yes).stop = a.stop ∧ (a.countGeneral d room pitch yes).st.mem = a.st.mem := by
  unfold StreamRun.countGeneral
  split
  · exact ⟨rfl, rfl⟩
  · exact ⟨rfl, rfl⟩

/-- Lines of a block that meet no error, one of each row, are read in the order of the rows. -/
theorem StreamCtx.foldl_getLine {c : StreamCtx} {b : BlockAt} {first : Nat} {ms : List Nat} (hgood : ∀ m, m ∈ ms → c.LineGood b (first + m) 0) {a : StreamRun}
    (ha : a.stop = none) (rows : List (List (List Byte))) :
    ∃ u : StreamRun, ms.foldl (fun (q : StreamRun × List (List (List Byte))) m =>
        ((c.getLine b q.1 (first + m) 0).1, q.2 ++ [[(c.getLine b q.1 (first + m) 0).2]])) (a, rows) =
        (u, rows ++ ms.map (fun m => [c.lineData b (first + m) 0])) ∧ u.stop = none ∧ u.st.mem = a.st.mem := by
  induction ms generalizing a rows with
  | nil => exact ⟨a, by simp, ha, rfl⟩
  | cons m ms ih =>
    obtain ⟨hgoes, hmem, hdata⟩ := StreamCtx.getLine_of_good (hgood m List.mem_cons_self) ha
    obtain ⟨u, hu, hend, hsame⟩ := ih (fun j hj => hgood j (List.mem_cons_of_mem m hj)) hgoes (rows ++ [[c.lineData b (first + m) 0]])
    refine ⟨u, ?_, hend, hsame.trans hmem⟩
    rw [List.foldl_cons]
    simp only [hdata]
    rw [hu, List.map_cons, List.append_assoc, List.singleton_append]

/-- The output line `j` of a tile of lines: word `j` of each, and zeros where the tile is short (R266). -/
def columnOf (lines : List (List Byte)) (j : Nat) : List Byte := sliceZ (lines.flatMap (fun l => sliceZ l (4 * j) 4)) 0 128

theorem sliceZ_getD (l : List Byte) {off len i : Nat} (hi : i < len) : (sliceZ l off len).getD i 0 = l.getD (off + i) 0 := by
  have hlen : ((l.drop off).take len).length = min len (l.length - off) := by rw [List.length_take, List.length_drop]
  unfold sliceZ
  by_cases hin : off + i < l.length
  · rw [List.getD_append _ _ _ _ (by omega), List.getD_eq_getElem?_getD, List.getElem?_take_of_lt hi, List.getElem?_drop, List.getD_eq_getElem?_getD]
  · rw [List.getD_append_right _ _ _ _ (by omega), List.getD_eq_default _ _ (by omega : l.length ≤ off + i)]
    simp

theorem columnOf_length (lines : List (List Byte)) (j : Nat) : (columnOf lines j).length = 128 := sliceZ_length _ _ _

theorem columnOf_getD (lines : List (List Byte)) {j m i : Nat} (hm : m < 32) (hi : i < 4) :
    (columnOf lines j).getD (4 * m + i) 0 = (lines.getD m []).getD (4 * j + i) 0 := by
  have hword (l : List Byte) : (sliceZ l (4 * j) 4).length = 4 := sliceZ_length _ _ _
  rw [columnOf, sliceZ_getD _ (by omega), Nat.zero_add, Nat.mul_comm 4 m]
  by_cases hin : m < lines.length
  · rw [getD_flatMap_of_length hword lines hin hi, sliceZ_getD _ hi, List.getD_eq_getElem _ _ hin]
  · have hall : (lines.flatMap (fun l => sliceZ l (4 * j) 4)).length = lines.length * 4 := by simp [List.length_flatMap, hword]
    rw [List.getD_eq_default _ _ (by omega), List.getD_eq_default lines _ (by omega), List.getD_nil]

/-- The lines of a tile of `n` rows, one of each row, as they stood when the block began. -/
def StreamCtx.tileLines (c : StreamCtx) (b : BlockAt) (t n : Nat) : List (List Byte) := (List.range n).map (fun m => c.lineData b (32 * t + m) 0)

theorem StreamCtx.tileLines_getD (c : StreamCtx) (b : BlockAt) (t : Nat) {n m : Nat} :
    (c.tileLines b t n).getD m [] = if m < n then c.lineData b (32 * t + m) 0 else [] := by
  unfold StreamCtx.tileLines
  split
  next h => rw [List.getD_eq_getElem _ _ (by simpa using h), List.getElem_map, List.getElem_range]
  next h => exact List.getD_eq_default _ _ (by simpa using h)

/-- The output lines of a tile, written one after another. -/
def StreamCtx.putTile (c : StreamCtx) (b : BlockAt) (t n : Nat) (a : StreamRun) : StreamRun :=
  (List.range n).foldl (fun q j => c.putLine b [] q (32 * t + j) 0 (columnOf (c.tileLines b t n) j)) a

section Tile
variable {c : StreamCtx} {a : StreamRun} {b : BlockAt} {t n : Nat}

/-- A tile of lines that meet no error, one of each row: its output lines are written one after another, between the counts of its column groups. -/
theorem StreamCtx.moveTile_of_good (ha : a.stop = none) (hone : c.d.blkLines = 1) (hn : n = min 32 (c.d.blkRows - 32 * t))
    (hgood : ∀ m, m < n → c.LineGood b (32 * t + m) 0) :
    ∃ u : StreamRun, u.stop = none ∧ u.st.mem = a.st.mem ∧
      c.moveTile b [] a t =
        (c.putTile b t n u).countGeneral c.d (c.part.roomAt b.dstRel) c.d.dstPitch (c.d.dstTransposed && decide (b.dstRel < c.part.rooms.length)) := by
  obtain ⟨v, hv, hgoes, hmem⟩ := StreamCtx.foldl_getLine (ms := List.range n) (fun m hm => hgood m (List.mem_range.mp hm)) ha []
  obtain ⟨hstop, hsame⟩ := v.countGeneral_rest c.d (c.part.roomAt b.srcRel) c.d.srcPitch (c.d.srcTransposed && decide (b.srcRel < c.part.rooms.length))
  refine ⟨_, hstop.trans hgoes, hsame.trans hmem, ?_⟩
  simp only [StreamCtx.moveTile, hone, ← hn, List.range_one, List.foldl_cons, List.foldl_nil, List.nil_append, hv, List.flatMap_map, List.getD_cons_zero, StreamCtx.putTile, StreamCtx.tileLines, columnOf]

/-- Each output line of a tile stands in its row of the destination, where rows do not overlap. -/
theorem StreamCtx.putTile_byte (ha : a.stop = none) (hdst : c.d.dstSpace = 0) (hrel : b.dstRel < c.part.rooms.length) (hpitch : 128 ≤ c.d.dstPitch)
    (hin : b.dst + (32 * t + n) * c.d.dstPitch + 128 ≤ atticBytes) {j k : Nat} (hj : j < n) (hk : k < 128) :
    Mem.byte (c.putTile b t n a).st.mem.attic (atticKey (c.part.roomAt b.dstRel) (b.dst + (32 * t + j) * c.d.dstPitch + k)) =
      (columnOf (c.tileLines b t n) j).getD k 0 := by
  have hwrote (q : StreamRun) (e : Nat) (he : e ∈ List.range n) (hq : q.stop = none) :
      q.Wrote (c.putLine b [] q (32 * t + e) 0 (columnOf (c.tileLines b t n) e)) false
        (sideKey false (c.part.roomAt b.dstRel) (b.dst + (32 * t + e) * c.d.dstPitch + 0 * 128)) (columnOf (c.tileLines b t n) e) := by
    have hrow : (32 * t + e) * c.d.dstPitch ≤ (32 * t + n) * c.d.dstPitch :=
      Nat.mul_le_mul_right _ (Nat.add_le_add_left (List.mem_range.mp he).le _)
    refine StreamCtx.putLine_wrote hq hdst hrel (columnOf_length _ _) ?_ nofun
    show _ ≤ atticBytes
    omega
  obtain ⟨-, -, -, hdata⟩ := StreamRun.foldl_wrote hwrote ha
  have hapart {d e : Nat} (hde : d < e) : b.dst + (32 * t + d) * c.d.dstPitch + 0 * 128 + 128 ≤ b.dst + (32 * t + e) * c.d.dstPitch + 0 * 128 := by
    have hrow := row_end_le (lines := 1) hpitch (Nat.add_lt_add_left hde (32 * t)) Nat.one_pos
    omega
  have hline := hdata (List.pairwise_lt_range.imp fun hde => .inl (by rw [columnOf_length, sideKey_add, sideKey_le]; exact hapart hde)) j (List.mem_range.mpr hj) k
    (by rwa [columnOf_length])
  rwa [Nat.zero_mul, Nat.add_zero, sideKey_add] at hline

/-- Transposed, word `m` of output line `j` of a tile is word `j` of the tile's line `m`, and zero where the tile is short, in a memory in canonical form (R194, R266). -/
theorem StreamCtx.moveTile_bytes (hmem : c.s0.memOk = true) (ha : a.stop = none) (hop : c.d.op ≠ 6) (hdst : c.d.dstSpace = 0) (hsrc : c.d.srcSpace = 0)
    (hone : c.d.blkLines = 1) (hn : n = min 32 (c.d.blkRows - 32 * t)) (hdrel : b.dstRel < c.part.rooms.length) (hsrel : b.srcRel < c.part.rooms.length)
    (hpitch : 128 ≤ c.d.dstPitch) (hdin : b.dst + (32 * t + n) * c.d.dstPitch + 128 ≤ atticBytes) (hsin : b.src + (32 * t + n) * c.d.srcPitch + 128 ≤ atticBytes)
    (hbad : ∀ m, m < n → c.s0.spanBad { room := c.part.roomAt b.srcRel, cellar := false, off := b.src + (32 * t + m) * c.d.srcPitch, len := 128 } = false)
    {j m i : Nat} (hj : j < n) (hm : m < 32) (hi : i < 4) :
    Mem.byte (c.moveTile b [] a t).st.mem.attic (atticKey (c.part.roomAt b.dstRel) (b.dst + (32 * t + j) * c.d.dstPitch + 4 * m + i)) =
      if m < n then Mem.byte c.s0.mem.attic (atticKey (c.part.roomAt b.srcRel) (b.src + (32 * t + m) * c.d.srcPitch + 4 * j + i)) else 0 := by
  have hspace : decide (c.d.srcSpace = 1) = false := by rw [hsrc]; rfl
  have hgood (q : Nat) (hq : q < n) : c.LineGood b (32 * t + q) 0 := by
    have hrow : (32 * t + q) * c.d.srcPitch ≤ (32 * t + n) * c.d.srcPitch := Nat.mul_le_mul_right _ (by omega)
    refine fun _ => ⟨by omega, hsrel, ?_, ?_⟩
    · rw [hspace]
      show _ ≤ atticBytes
      omega
    · rw [hspace]
      exact hbad q hq
  obtain ⟨u, hgoes, -, hmove⟩ := StreamCtx.moveTile_of_good ha hone hn hgood
  have hcount := (c.putTile b t n u).countGeneral_rest c.d (c.part.roomAt b.dstRel) c.d.dstPitch (c.d.dstTransposed && decide (b.dstRel < c.part.rooms.length))
  rw [hmove, hcount.2, Nat.add_assoc _ (4 * m), StreamCtx.putTile_byte hgoes hdst hdrel hpitch hdin hj (by omega), columnOf_getD _ hm hi, StreamCtx.tileLines_getD]
  split
  next hmn =>
    rw [StreamCtx.lineData_getD hmem (hgood m hmn) (by omega), if_neg hop, hspace, Nat.zero_mul, Nat.add_zero, Nat.add_assoc _ (4 * j)]
    rfl
  next => exact List.getD_nil

end Tile

/-! ## Pieces (R228, R230, R251) -/

theorem StreamCtx.readAt_mem (c : StreamCtx) (a : StreamRun) (cellar : Bool) (rel off n : Nat) : (c.readAt a cellar rel off n).1.st.mem = a.st.mem := by
  have hcount (x : Span) : (a.st.countRead x).mem = a.st.mem := (State.counts_countRead a.st x).mem
  unfold StreamCtx.readAt
  split
  · rfl
  dsimp only
  split
  · rfl
  split
  · exact hcount _
  · exact hcount _

/-- A read of an attic changes no stack. -/
theorem StreamCtx.readAt_hbm (c : StreamCtx) (a : StreamRun) (rel off n : Nat) : (c.readAt a false rel off n).1.st.hbm = a.st.hbm := by
  unfold StreamCtx.readAt
  dsimp only
  split_ifs <;> rfl

theorem StreamCtx.indexLine_mem (c : StreamCtx) (a : StreamRun) (l : Nat) : (c.indexLine a l).st.mem = a.st.mem := StreamCtx.readAt_mem ..

theorem StreamCtx.entry_mem (c : StreamCtx) (a : StreamRun) (k : Nat) : (c.entry a k).1.st.mem = a.st.mem := by
  unfold StreamCtx.entry
  dsimp only
  split_ifs <;> simp only [StreamCtx.indexLine_mem]

/-- A pantry read without error gives the bytes of its piece (R228). -/
theorem StreamCtx.pantryRead_of_good {c : StreamCtx} {a : StreamRun} {rel off n : Nat} (ha : a.stop = none) (hrel : rel < c.part.rooms.length)
    (hin : off + n ≤ stackBytes) (hbad : c.s0.burstBad (c.part.roomAt rel) off = false) (hlost : c.s0.lineLost (c.part.roomAt rel) off = false) :
    (c.pantryRead a rel off n).1.stop = none ∧ (c.pantryRead a rel off n).1.st.mem = a.st.mem ∧
      (c.pantryRead a rel off n).2 = c.s0.readCellar (c.part.roomAt rel) off n := by
  have hcount : (a.st.countEcc (c.part.roomAt rel) [off]).mem = a.st.mem := (State.counts_countEcc a.st _ _ (c.part.roomAt rel)).mem
  simp [StreamCtx.pantryRead, ha, hbad, hlost, Nat.not_le.mpr hrel, Nat.not_lt.mpr hin, hcount]

theorem State.countPantry_mem (s : State) (room off : Nat) (part : Bool) : (s.countPantry room off part).mem = s.mem := by
  cases part with
  | false => rfl
  | true => exact (State.counts_countEcc s room [off] room).mem

/-- A pantry write into a burst without error, of a line that is not lost (R228, R230, R231). -/
theorem StreamCtx.pantryWrite_of_good {c : StreamCtx} {a : StreamRun} {rel off : Nat} {data : List Byte} (ha : a.stop = none) (hrel : rel < c.part.rooms.length)
    (hin : off + data.length ≤ stackBytes) (hbad : a.st.burstBad (c.part.roomAt rel) off = false) (hlost : a.st.lineLost (c.part.roomAt rel) off = false) :
    a.Wrote (c.pantryWrite a rel off data) true (sideKey true (c.part.roomAt rel) off) data := by
  have hcount := a.st.countPantry_mem (c.part.roomAt rel) off (decide (data.length < 32))
  have hput : (c.pantryWrite a rel off data).stop = none ∧
      (c.pantryWrite a rel off data).st.mem = ((a.st.countPantry (c.part.roomAt rel) off (decide (data.length < 32))).storePantry (c.part.roomAt rel) off data).mem := by
    simp [StreamCtx.pantryWrite, ha, hbad, hlost, Nat.not_le.mpr hrel, Nat.not_lt.mpr hin]
  obtain ⟨hgoes, hmem⟩ := hput
  refine ⟨hgoes, ?_, ?_⟩
  · rw [hmem, ← hcount]
    rfl
  · rw [hmem, ← hcount]
    rfl

/-- An entry that is read leaves memory in canonical form. -/
theorem StreamCtx.entry_memOk {c : StreamCtx} {a : StreamRun} (h : a.st.memOk = true) (k : Nat) : (c.entry a k).1.st.memOk = true := by
  rw [State.memOk, c.entry_mem a k]
  exact h

section Pantry
variable {c : StreamCtx} {a : StreamRun} {k e n : Nat}

theorem StreamCtx.pantryStep_gather (hop : c.d.op = 4) (he : e = (c.entry a k).2) (hn : n = min (bitsOf e 40 36 + 1) (32 - bitsOf e 35 0 % 32)) :
    c.pantryStep a k = (c.reading (c.entry a k).1.st).put ((c.reading (c.entry a k).1.st).pantryRead (c.entry a k).1 (bitsOf e 44 41) (bitsOf e 35 0) n).1 [] 0
      c.d.dstRoom (c.d.dstBase + 32 * k) (sliceZ ((c.reading (c.entry a k).1.st).pantryRead (c.entry a k).1 (bitsOf e 44 41) (bitsOf e 35 0) n).2 0 32) := by
  subst hn he
  simp only [StreamCtx.pantryStep, hop, if_true]
  rfl

theorem StreamCtx.pantryStep_scatter (hop : c.d.op = 5) (he : e = (c.entry a k).2) (hn : n = min (bitsOf e 40 36 + 1) (32 - bitsOf e 35 0 % 32)) :
    c.pantryStep a k = (c.reading (c.entry a k).1.st).pantryWrite
      ((c.reading (c.entry a k).1.st).readAt (c.entry a k).1 false c.d.srcRoom (c.d.srcBase + 32 * k) n).1 (bitsOf e 44 41) (bitsOf e 35 0)
      ((c.reading (c.entry a k).1.st).readAt (c.entry a k).1 false c.d.srcRoom (c.d.srcBase + 32 * k) n).2 := by
  have hgather : c.d.op ≠ 4 := by omega
  subst hn he
  simp only [StreamCtx.pantryStep, hgather, if_false]
  rfl

/-- A pantry gather puts its piece, completed with zeros, into the slot, in a memory in canonical form (R228, R251). -/
theorem StreamCtx.pantryStep_gather_bytes (hmem : a.st.memOk = true) (hop : c.d.op = 4) (hgoes : (c.entry a k).1.stop = none) (he : e = (c.entry a k).2)
    (hn : n = min (bitsOf e 40 36 + 1) (32 - bitsOf e 35 0 % 32)) (hrel : bitsOf e 44 41 < ((c.entry a k).1.st.part c.p).rooms.length)
    (hdrel : c.d.dstRoom < ((c.entry a k).1.st.part c.p).rooms.length) (hin : bitsOf e 35 0 + n ≤ stackBytes)
    (hbad : (c.entry a k).1.st.burstBad (((c.entry a k).1.st.part c.p).roomAt (bitsOf e 44 41)) (bitsOf e 35 0) = false)
    (hlost : (c.entry a k).1.st.lineLost (((c.entry a k).1.st.part c.p).roomAt (bitsOf e 44 41)) (bitsOf e 35 0) = false)
    (hdin : c.d.dstBase + 32 * k + 32 ≤ atticBytes) :
    (c.pantryStep a k).stop = none ∧ ∀ i, i < 32 →
      Mem.byte (c.pantryStep a k).st.mem.attic (atticKey (((c.entry a k).1.st.part c.p).roomAt c.d.dstRoom) (c.d.dstBase + 32 * k + i)) =
        if i < n then Mem.byte (c.entry a k).1.st.mem.cellar (cellarKey (((c.entry a k).1.st.part c.p).roomAt (bitsOf e 44 41)) (bitsOf e 35 0 + i)) else 0 := by
  have hwf := Mem.side_wf (StreamCtx.entry_memOk (c := c) hmem k) true
  rw [StreamCtx.pantryStep_gather hop he hn]
  generalize c.entry a k = f at *
  obtain ⟨hread, -, hpiece⟩ := StreamCtx.pantryRead_of_good (c := c.reading f.1.st) hgoes hrel hin hbad hlost
  have hput := StreamCtx.put_attic (c := c.reading f.1.st) (rel := c.d.dstRoom) (off := c.d.dstBase + 32 * k)
    (data := sliceZ ((c.reading f.1.st).pantryRead f.1 (bitsOf e 44 41) (bitsOf e 35 0) n).2 0 32) hread hdrel (by rw [sliceZ_length]; exact hdin)
  refine ⟨hput.goes, fun i hi => (hput.byte_at (by rwa [sliceZ_length])).trans ?_⟩
  rw [sliceZ_getD _ hi, Nat.zero_add, hpiece, State.readCellar]
  split
  next hin => exact (Mem.read_getD hwf _ hin).trans (congrArg (Mem.byte _) (cellarKey_add ..))
  next hout => exact List.getD_eq_default _ _ (by rw [Mem.read_length]; omega)

/-- A pantry scatter writes its piece's bytes, each as it stood when the piece was read, and no other of a stack, in a memory in canonical form (R228, R230, R251). -/
theorem StreamCtx.pantryStep_scatter_bytes (hmem : a.st.memOk = true) (hop : c.d.op = 5) (hgoes : (c.entry a k).1.stop = none) (he : e = (c.entry a k).2)
    (hn : n = min (bitsOf e 40 36 + 1) (32 - bitsOf e 35 0 % 32)) (hrel : bitsOf e 44 41 < ((c.entry a k).1.st.part c.p).rooms.length)
    (hsrel : c.d.srcRoom < ((c.entry a k).1.st.part c.p).rooms.length) (hin : bitsOf e 35 0 + n ≤ stackBytes) (hsin : c.d.srcBase + 32 * k + n ≤ atticBytes)
    (hgood : (c.entry a k).1.st.spanBad { room := ((c.entry a k).1.st.part c.p).roomAt c.d.srcRoom, cellar := false, off := c.d.srcBase + 32 * k, len := n } = false)
    (hlost : (c.entry a k).1.st.lineLost (((c.entry a k).1.st.part c.p).roomAt (bitsOf e 44 41)) (bitsOf e 35 0) = false)
    (hbad : (c.entry a k).1.st.burstBad (((c.entry a k).1.st.part c.p).roomAt (bitsOf e 44 41)) (bitsOf e 35 0) = false) :
    (c.pantryStep a k).stop = none ∧ (∀ i, i < n →
      Mem.byte (c.pantryStep a k).st.mem.cellar (cellarKey (((c.entry a k).1.st.part c.p).roomAt (bitsOf e 44 41)) (bitsOf e 35 0 + i)) =
        Mem.byte (c.entry a k).1.st.mem.attic (atticKey (((c.entry a k).1.st.part c.p).roomAt c.d.srcRoom) (c.d.srcBase + 32 * k + i))) ∧
    (∀ x, (∀ i, i < n → x ≠ cellarKey (((c.entry a k).1.st.part c.p).roomAt (bitsOf e 44 41)) (bitsOf e 35 0 + i)) →
      Mem.byte (c.pantryStep a k).st.mem.cellar x = Mem.byte a.st.mem.cellar x) := by
  have hok := StreamCtx.entry_memOk (c := c) hmem k
  have hsame := c.entry_mem a k
  rw [StreamCtx.pantryStep_scatter hop he hn]
  generalize c.entry a k = f at *
  obtain ⟨hread, hrmem, hpiece⟩ := StreamCtx.readAt_of_good (c := c.reading f.1.st) (cellar := false) hgoes hsrel hsin hgood
  have hstacks := StreamCtx.readAt_hbm (c.reading f.1.st) f.1 c.d.srcRoom (c.d.srcBase + 32 * k) n
  generalize (c.reading f.1.st).readAt f.1 false c.d.srcRoom (c.d.srcBase + 32 * k) n = g at *
  have hlen : g.2.length = n := by rw [hpiece, State.spanBytes_length]
  have hwrite := StreamCtx.pantryWrite_of_good (c := c.reading f.1.st) (a := g.1) (rel := bitsOf e 44 41) (off := bitsOf e 35 0) (data := g.2) hread hrel
    (by rwa [hlen]) (by simpa only [State.burstBad, hrmem, StreamCtx.reading_part] using hbad) (by simpa only [State.lineLost, State.stack, hstacks, StreamCtx.reading_part] using hlost)
  refine ⟨hwrite.goes, fun i hi => (hwrite.byte_at (by rwa [hlen])).trans ?_, fun x hx => (hwrite.byte_other (by rwa [hlen])).trans ?_⟩
  · rw [hpiece]
    exact State.spanBytes_getD hok hgood hi
  · rw [hrmem, hsame]
    rfl

end Pantry

/-! ## A memory out of canonical form -/

/-- A COPY of the line at 0 of the attic of a partition's room 0 to 0x100 of the same attic. -/
def lineCopy : Desc :=
  { op := 0, flags := 0, srcSpace := 0, dstSpace := 0, srcRoom := 0, dstRoom := 0, dstModule := 0, srcBase := 0, dstBase := 0x100, blkLines := 1, hostBuf := 0
    blkRows := 1, srcPitch := 0, dstPitch := 0, idxBase := 0, idxSpace := 0, idxForm := 0, token := 63, idxCount := 0, rowStride := 0, colStride := 0, fillWord := 0 }

/-- A run in `fallingAttic` with partition 0 on room 0. -/
def fallingRun : StreamRun := { st := fallingAttic.setPart 0 { phase := .live, rooms := [0] }, host := [] }

/-- The copy of that run. -/
def fallingCopy : StreamCtx := { s0 := fallingRun.st, p := 0, room := 0, chan := 0, d := lineCopy, third := false }

/-- Refutes O48: its first clause admits a memory out of canonical form, and of `fallingAttic` a read of the first line (Mem.read) misses byte 65, so that the copy holds
zero there. With State.memOk, which every step keeps, the clauses hold (StreamCtx.Moves.moveBlock_bytes for the blocks, StreamCtx.moveTile_bytes,
StreamCtx.pantryStep_gather_bytes and StreamCtx.pantryStep_scatter_bytes). -/
theorem not_blocksMoveLineByLine : ¬ Obligations.BlocksMoveLineByLine := by
  rintro ⟨hattic, -⟩
  have hbad : ∀ i, i < 1 → ∀ k, k < 1 → fallingRun.st.spanBad
      { room := (fallingRun.st.part 0).roomAt 0, cellar := fallingCopy.d.srcSpace = 1, off := 0 + i * fallingCopy.d.srcPitch + k * 128, len := 128 } = false := by
    decide +kernel
  obtain ⟨-, -, hcopied, -⟩ := hattic fallingCopy fallingRun ⟨0, 0, 0, 0, 0x100⟩ rfl rfl rfl (.inr (by decide)) (by decide +kernel) (by decide +kernel) rfl
    (.inl (by decide)) (by decide) (fun _ => ⟨by decide, fun i k hi hk => hbad i hi k hk⟩)
  exact absurd (hcopied 0 65 (by decide) (by decide)) (by decide +kernel)

end Sys2Proof.Machine
end

section
/-! PROOFS. Interrupts, caches and entropy (R271 to R273, R287, R343 to R348, R359 to R361, R485): what a delivery, a request to the directory, a writeback, a
request to the DRBG and the delivery of a block key change, and the statement about them. -/

namespace Sys2Proof.Machine

/-! ## Delivery of interrupts (R343 to R348) -/

theorem State.core_setCore (s : State) (c d : Nat) (x : Core) : (s.setCore c x).core d = if d = c then x else s.core d := Tab.get_set _ _ _ _ _

/-- Delivery changes Gysis and draws one free value. -/
theorem State.deliver_rest (s : State) (n c : Nat) : s.deliver n c = { s with gysis := (s.deliver n c).gysis, free := s.free + 1 } := by
  unfold State.deliver
  dsimp only
  split <;> rfl

theorem State.core_deliver (s : State) (n c d : Nat) :
    (s.deliver n c).core d = if d = c then (s.core c).enter n (s.source n).handler (Config.openBit s.free) else s.core d := by
  refine Eq.trans ?_ (s.core_setCore c d _)
  unfold State.deliver
  dsimp only
  split <;> rfl

theorem State.source_deliver (s : State) (n c m : Nat) :
    (s.deliver n c).source m = if m = n then { s.source n with pending := false } else s.source m := by
  refine Eq.trans ?_ ((s.setCore c ((s.core c).enter n (s.source n).handler (Config.openBit s.free))).source_setSource n m _)
  unfold State.deliver
  dsimp only
  split <;> rfl

theorem State.heldUntil_deliver {s : State} {n c : Nat} (hgroup : n / 32 ≠ 0) (htime : Tab.get 0 s.gysis.intc.holdoff (n / 32) ≠ 0) :
    Tab.get none (s.deliver n c).gysis.intc.heldUntil (n / 32) =
      some (s.now + (Tab.get 0 s.gysis.intc.holdoff (n / 32)).toNat * 1000) := by
  have hnat : (Tab.get 0 s.gysis.intc.holdoff (n / 32)).toNat ≠ 0 := fun h => htime (BitVec.eq_of_toNat_eq h)
  have hstarts : (decide (n / 32 = 0) || decide ((Tab.get 0 s.gysis.intc.holdoff (n / 32)).toNat = 0)) = false := by
    rw [decide_eq_false hgroup, decide_eq_false hnat]
    rfl
  unfold State.deliver
  dsimp only
  split
  next h => exact absurd (hstarts.symm.trans h) (by decide)
  next =>
    simp only [State.setIntc, State.draw, Tab.get_set_same]
    rfl

theorem State.mem_takers (s : State) (n c : Nat) : c ∈ s.takers n ↔ c < 4 ∧ (s.source n).targets.getLsbD c = true ∧ (s.core c).retired = false ∧
    (s.core c).handling = none ∧ (s.core c).mie = true ∧ n < (s.core c).running := by
  simp [State.takers, and_assoc]

/-- A search through rising numbers for the greatest value, which keeps what it has on ties, ends at the number of the greatest value, the lowest on ties. -/
theorem foldl_greatest {f : Nat → Nat} {c : Nat} {l : List Nat} {b : Nat} (hmem : c ∈ b :: l) (hsorted : (b :: l).Pairwise (· < ·))
    (hbest : ∀ d, d ∈ b :: l → f d < f c ∨ f d = f c ∧ c ≤ d) : l.foldl (fun best k => if f best < f k then k else best) b = c := by
  induction l generalizing b with
  | nil => exact (List.mem_singleton.mp hmem).symm
  | cons k l ih =>
    obtain ⟨hfirst, hrest⟩ := List.pairwise_cons.mp hsorted
    have hsub : (b :: l).Sublist (b :: k :: l) := (List.sublist_cons_self k l).cons_cons b
    have hkeep (hc : c ∈ b :: l) : l.foldl (fun best k => if f best < f k then k else best) b = c :=
      ih hc (hsorted.sublist hsub) (fun d hd => hbest d (hsub.subset hd))
    rw [List.foldl_cons]
    rcases List.mem_cons.mp hmem with rfl | hlater
    · have hk := hbest k (List.mem_cons_of_mem _ List.mem_cons_self)
      rw [if_neg (by omega)]
      exact hkeep List.mem_cons_self
    · have hless : f b < f c := by
        have hb := hbest b List.mem_cons_self
        have hlt := hfirst c hlater
        omega
      split
      next => exact ih hlater hrest (fun d hd => hbest d (List.mem_cons_of_mem _ hd))
      next hk =>
        have hck : c ≠ k := fun h => hk (h ▸ hless)
        exact hkeep (List.mem_cons_of_mem _ ((List.mem_cons.mp hlater).resolve_left hck))

/-- The core that takes a source is the one of the greatest running priority, the lowest number on ties (R345). -/
theorem State.taker_eq {s : State} {n c : Nat} (hmem : c ∈ s.takers n)
    (hbest : ∀ d, d ∈ s.takers n → (s.core d).running < (s.core c).running ∨ (s.core d).running = (s.core c).running ∧ c ≤ d) : s.taker n = some c := by
  have hsorted : (s.takers n).Pairwise (· < ·) := List.pairwise_lt_range.filter _
  unfold State.taker
  cases htakers : s.takers n with
  | nil => exact absurd (htakers ▸ hmem) List.not_mem_nil
  | cons b l =>
    rw [htakers] at hmem hbest hsorted
    exact congrArg some (foldl_greatest (f := fun d => (s.core d).running) hmem hsorted hbest)

theorem State.taker_mem {s : State} {n c : Nat} (h : s.taker n = some c) : c ∈ s.takers n := by
  unfold State.taker at h
  cases htakers : s.takers n with
  | nil => rw [htakers] at h; cases h
  | cons b l =>
    rw [htakers] at h
    obtain rfl := Option.some.inj h
    refine List.foldlRecOn (motive := (· ∈ b :: l)) _ _ List.mem_cons_self (fun best hb k hk => ?_)
    split
    · exact List.mem_cons_of_mem _ hk
    · exact hb

/-- A source is offered to the cores (R345). -/
def State.offer (s : State) (n : Nat) : State :=
  if (s.source n).pending && (s.source n).enabled && !s.heldBack (n / 32) then
    match s.taker n with
    | some c => s.deliver n c
    | none => s
  else s

theorem exec_interruptDelivery (s : State) : exec .interruptDelivery s =
    .next (if s.gysis.intc.globalEnable then (s.gysis.intc.sources.map (·.1)).foldl State.offer s else s) := by
  change execInterruptDelivery s = _
  unfold execInterruptDelivery
  cases s.gysis.intc.globalEnable <;> rfl

theorem State.offer_of_not_pending {s : State} {n : Nat} (h : (s.source n).pending = false) : s.offer n = s := by simp [State.offer, h]

/-- An offer changes nothing, or a core that may take the source takes it. -/
theorem State.offer_cases (s : State) (n : Nat) : s.offer n = s ∨ ∃ c, c ∈ s.takers n ∧ s.offer n = s.deliver n c := by
  unfold State.offer
  split
  · split
    next c h => exact .inr ⟨c, State.taker_mem h, rfl⟩
    next => exact .inl rfl
  · exact .inl rfl

/-- When one source alone is pending, a round of offers is the offer of that one. -/
theorem State.foldl_offer_of_lone {s : State} {n c : Nat} (hlone : ∀ m, m ≠ n → (s.source m).pending = false) (htaken : s.offer n = s.deliver n c)
    {l : List Nat} (hmem : n ∈ l) : l.foldl State.offer s = s.deliver n c := by
  have hidle (m : Nat) : ((s.deliver n c).source m).pending = false := by
    rw [State.source_deliver]
    split
    · rfl
    next h => exact hlone m h
  induction l with
  | nil => cases hmem
  | cons m l ih =>
    rw [List.foldl_cons]
    by_cases hm : m = n
    · rw [hm, htaken]
      exact List.foldlRecOn (motive := (· = s.deliver n c)) _ _ rfl (fun t ht k _ => by rw [ht, State.offer_of_not_pending (hidle k)])
    · rw [State.offer_of_not_pending (hlone m hm)]
      exact ih ((List.mem_cons.mp hmem).resolve_left (Ne.symm hm))

/-- A source that alone is pending, is enabled and is not held back goes to the core that takes it (R345). -/
theorem exec_interruptDelivery_lone {s : State} {n c : Nat} (hglobal : s.gysis.intc.globalEnable = true) (hpending : (s.source n).pending = true)
    (henabled : (s.source n).enabled = true) (hlone : ∀ m, m ≠ n → (s.source m).pending = false) (hheld : s.heldBack (n / 32) = false)
    (htaker : s.taker n = some c) : exec .interruptDelivery s = .next (s.deliver n c) := by
  have htaken : s.offer n = s.deliver n c := by simp [State.offer, hpending, henabled, hheld, htaker]
  have hne : s.source n ≠ {} := fun h => by rw [h] at hpending; cases hpending
  rw [exec_interruptDelivery, hglobal, if_pos rfl, State.foldl_offer_of_lone hlone htaken (List.mem_map_of_mem (Tab.mem_of_get_ne hne))]

/-- From `s` to `t` sources may have been delivered to cores that handled none. -/
structure State.Offered (s t : State) : Prop where
  rest : ∃ g n, t = { s with gysis := g, free := n }
  cores : ∀ c, (s.core c).handling.isSome = true → t.core c = s.core c
  sources : ∀ n, (t.source n).pending = true → (s.source n).pending = true

theorem State.Offered.refl (s : State) : s.Offered s := ⟨⟨_, _, rfl⟩, fun _ _ => rfl, fun _ => id⟩

theorem State.Offered.trans {s t u : State} (h : s.Offered t) (h' : t.Offered u) : s.Offered u where
  rest := by
    obtain ⟨_, _, rfl⟩ := h.rest
    obtain ⟨_, _, rfl⟩ := h'.rest
    exact ⟨_, _, rfl⟩
  cores c hc := (h'.cores c (by rwa [h.cores c hc])).trans (h.cores c hc)
  sources n hn := h.sources n (h'.sources n hn)

theorem State.offered_deliver {s : State} {n c : Nat} (hc : (s.core c).handling = none) : s.Offered (s.deliver n c) where
  rest := ⟨_, _, s.deliver_rest n c⟩
  cores d hd := by rw [State.core_deliver, if_neg (by rintro rfl; simp [hc] at hd)]
  sources m := by
    rw [State.source_deliver]
    split
    · exact fun h => by cases h
    · exact id

theorem State.offered_offer (s : State) (n : Nat) : s.Offered (s.offer n) := by
  rcases s.offer_cases n with h | ⟨c, hc, h⟩
  · rw [h]
    exact .refl s
  · obtain ⟨-, -, -, hfree, -⟩ := (s.mem_takers n c).mp hc
    rw [h]
    exact State.offered_deliver hfree

theorem State.offered_round (s : State) :
    s.Offered (if s.gysis.intc.globalEnable then (s.gysis.intc.sources.map (·.1)).foldl State.offer s else s) := by
  split
  · exact List.foldlRecOn _ _ (.refl s) (fun t ht n _ => ht.trans (t.offered_offer n))
  · exact .refl s

theorem exec_mret (s : State) (c : CoreId) : exec (.mret c) s = .next (if (s.core c).handling.isSome then
    s.setCore c { s.core c with handling := none, pc := (s.core c).mepc, accessFault := false } else s) := rfl

theorem exec_holdoffExpiry {s : State} {g : Fin 8} {a : Nat} (h : Tab.get none s.gysis.intc.heldUntil g = some a) : exec (.holdoffExpiry g) s =
    .next (if a ≤ s.now then s.setIntc { s.gysis.intc with heldUntil := Tab.set none s.gysis.intc.heldUntil g none } else s) := by
  change execHoldoffExpiry g s = _
  simp [execHoldoffExpiry, h]

/-! ## Caches and the directory (R357 to R361) -/

theorem State.cache_setCache (s : State) (b a : Nat) (x : CacheBlock) : (s.setCache b x).cache a = if a = b then x else s.cache a := Tab.get_set _ _ _ _ _

@[simp] theorem State.cache_setCache_same (s : State) (b : Nat) (x : CacheBlock) : (s.setCache b x).cache b = x := by simp [State.cache_setCache]

theorem State.cache_setCache_other {s : State} {a b : Nat} (x : CacheBlock) (h : a ≠ b) : (s.setCache b x).cache a = s.cache a := by
  simp [State.cache_setCache, h]

/-- A block without an owner has the value that lies below the cores' copies. -/
theorem CacheBlock.value_of_unowned {x : CacheBlock} (h : x.owner = none) : x.value = x.below := by simp [CacheBlock.value, h]

theorem CacheBlock.mesi_give (x : CacheBlock) (c : Nat) (m : Mesi) (d : Nat) : (x.give c m).mesi d = if d = c then m else x.mesi d := Tab.get_set _ _ _ _ _

theorem CacheBlock.value_give_modified (x : CacheBlock) (c : Nat) : (x.give c .modified).value = x.value := by
  simp [CacheBlock.value, CacheBlock.give, CacheBlock.mesi]

/-- A copy that is not modified, given of a block without an owner, keeps the value. -/
theorem CacheBlock.value_give_clean {x : CacheBlock} (hown : x.owner = none) (c : Nat) {m : Mesi} (hm : m ≠ .modified) : (x.give c m).value = x.value := by
  rw [CacheBlock.value_of_unowned hown]
  cases m
  case modified => exact absurd rfl hm
  all_goals simp [CacheBlock.value, CacheBlock.give, CacheBlock.mesi, CacheBlock.below, hown]

theorem CacheBlock.owner_share (x : CacheBlock) : x.share.owner = none := by
  unfold CacheBlock.share
  split
  · rfl
  next h => exact h

theorem CacheBlock.value_share (x : CacheBlock) : x.share.value = x.value := by
  rw [CacheBlock.value_of_unowned x.owner_share]
  unfold CacheBlock.share
  split
  · rfl
  next h => exact (CacheBlock.value_of_unowned h).symm

/-- A read leaves the block's value, and the reader with a copy. -/
theorem CacheBlock.fetch_spec (x : CacheBlock) (c : Nat) : (x.fetch c).value = x.value ∧ (x.fetch c).mesi c ≠ .invalid := by
  unfold CacheBlock.fetch
  split
  next h => exact ⟨rfl, bne_iff_ne.mp h⟩
  split
  next h =>
    obtain ⟨hnone, -⟩ := Bool.and_eq_true_iff.mp h
    have hown := Option.isNone_iff_eq_none.mp hnone
    refine ⟨(CacheBlock.value_give_clean (x := { x with l2 := some x.below }) hown c (by decide)).trans ?_, by simp [CacheBlock.mesi_give]⟩
    rw [CacheBlock.value_of_unowned hown]
    exact CacheBlock.value_of_unowned (x := { x with l2 := some x.below }) hown
  next => exact ⟨(CacheBlock.value_give_clean x.owner_share c (by decide)).trans x.value_share, by simp [CacheBlock.mesi_give]⟩

theorem CacheBlock.serve_read (x : CacheBlock) (c : CoreId) (lr : Bool) : (x.serve c (.read lr)).value = x.value ∧ (x.serve c (.read lr)).mesi c ≠ .invalid ∧
    (lr = true → (x.serve c (.read lr)).reserved.getLsbD c = true) := by
  obtain ⟨hvalue, hcopy⟩ := x.fetch_spec c
  cases lr with
  | false => exact ⟨hvalue, hcopy, nofun⟩
  | true =>
    refine ⟨hvalue, hcopy, fun _ => ?_⟩
    have hc := c.isLt
    simp only [CacheBlock.serve, CacheBlock.reserve, if_true, BitVec.getLsbD_or, BitVec.getLsbD_ofNat, Nat.testBit_two_pow_self, hc, decide_true, Bool.and_true, Bool.or_true]

/-- The block as a core that writes it gets it (R359): the others' copies are gone. -/
theorem CacheBlock.given_alone {x : CacheBlock} (hown : ∀ o, x.owner = some o → ∀ d, d ≠ o → x.mesi d = .invalid) (c : Nat) :
    ∃ y : CacheBlock, (if x.owner = some c then x.give c .modified else x.invalidate.give c .modified) = y ∧ y.value = x.value ∧ y.owner = some c ∧
      y.mesi c = .modified ∧ ∀ d, d ≠ c → y.mesi d = .invalid := by
  by_cases h : x.owner = some c
  · refine ⟨_, if_pos h, x.value_give_modified c, rfl, by simp [CacheBlock.mesi_give], fun d hd => ?_⟩
    rw [CacheBlock.mesi_give, if_neg hd]
    exact hown c h d hd
  · refine ⟨_, if_neg h, x.invalidate.value_give_modified c, rfl, by simp [CacheBlock.mesi_give], fun d hd => ?_⟩
    rw [CacheBlock.mesi_give, if_neg hd]
    rfl

/-- A store of the core that has the block modified leaves the block with the value stored. -/
theorem CacheBlock.value_perform {y : CacheBlock} {c : Nat} (hown : y.owner = some c) (hm : y.mesi c = .modified) (w : Option (BitVec 512)) :
    (y.perform c w).value = w.getD y.value := by
  cases w with
  | none => rfl
  | some v =>
    have hm' : Tab.get .invalid y.l1 c = .modified := hm
    simp [CacheBlock.perform, CacheBlock.value, CacheBlock.mesi, hown, hm']

theorem CacheBlock.perform_rest (y : CacheBlock) (c : Nat) (w : Option (BitVec 512)) : (y.perform c w).owner = y.owner ∧ (y.perform c w).mesi = y.mesi := by
  cases w <;> exact ⟨rfl, rfl⟩

theorem CacheBlock.serve_own {x : CacheBlock} (hown : ∀ o, x.owner = some o → ∀ d, d ≠ o → x.mesi d = .invalid) (c : Nat) (w : Option (BitVec 512)) :
    (x.serve c (.own w)).value = w.getD x.value ∧ (x.serve c (.own w)).owner = some c ∧ (x.serve c (.own w)).mesi c = .modified ∧
      ∀ d, d ≠ c → (x.serve c (.own w)).mesi d = .invalid := by
  obtain ⟨y, hy, hvalue, howner, hmod, hothers⟩ := CacheBlock.given_alone hown c
  have hserve : x.serve c (.own w) = y.perform c w := by rw [← hy]; rfl
  obtain ⟨hrestOwner, hrestMesi⟩ := y.perform_rest c w
  rw [hserve, CacheBlock.value_perform howner hmod, hrestOwner, hrestMesi, hvalue]
  exact ⟨rfl, howner, hmod, hothers⟩

/-- The state in which a request has met a parity error that is not invisible (R361), before the source of the core is raised. -/
def State.denied (s : State) (c : Nat) (x : CacheBlock) (k : CohKind) : State :=
  let bad := { s with gysis := { s.gysis with
    cacheParity := satInc s.gysis.cacheParity, hist := { chan := .core (x.faulty c), time := s.now, kind := 0 } :: s.gysis.hist } }
  match k with
  | .read _ | .own _ => bad.setCore c { bad.core c with accessFault := true }
  | .agentRead | .agentWrite _ => { bad with gysis := { bad.gysis with agentError := true } }

theorem exec_directoryRequest_ok (s : State) (c : CoreId) (addr : Nat) (k : CohKind) :
    exec (.directoryRequest c addr k .ok) s = .next (s.setCache (addr / 64) ((s.cache (addr / 64)).serve c k)) := rfl

theorem exec_directoryRequest_clean (s : State) (c : CoreId) (addr : Nat) (k : CohKind) : exec (.directoryRequest c addr k .clean) s =
    .next (({ s with gysis := { s.gysis with cacheParity := satInc s.gysis.cacheParity } } : State).setCache (addr / 64)
      (((s.cache (addr / 64)).dropClean c).serve c k)) := rfl

theorem exec_directoryRequest_denied (s : State) (c : CoreId) (addr : Nat) (k : CohKind) {p : CacheParity} (h : p = .dirty ∨ p = .directory) :
    exec (.directoryRequest c addr k p) s = .next ((s.denied c (s.cache (addr / 64)) k).raise (10 + (s.cache (addr / 64)).faulty c)) := by
  rcases h with rfl | rfl <;> cases k <;> rfl

/-- An event of a source changes the interrupt controller alone. -/
theorem State.raise_gysis (s : State) (n : Nat) : (s.raise n).gysis = { s.gysis with intc := (s.raise n).gysis.intc } := by
  unfold State.raise
  split <;> rfl

theorem State.core_raise (s : State) (n c : Nat) : (s.raise n).core c = s.core c := by
  unfold State.raise
  split <;> rfl

/-- What a request that meets such an error changes (R361). -/
theorem State.denied_spec (s : State) (c : Nat) (x : CacheBlock) (k : CohKind) {t : State} (ht : (s.denied c x k).raise (10 + x.faulty c) = t) :
    t.gysis.blocks = s.gysis.blocks ∧ t.gysis.cacheParity = satInc s.gysis.cacheParity ∧
    (sourceAssigned (10 + x.faulty c) = true → (t.source (10 + x.faulty c)).pending = true) ∧
    ((∃ lr, k = .read lr) ∨ (∃ w, k = .own w) → (t.core c).accessFault = true) ∧
    (k = .agentRead ∨ (∃ v, k = .agentWrite v) → t.gysis.agentError = true) ∧ t.mem = s.mem := by
  subst ht
  refine ⟨?_, ?_, fun h => State.source_raise_pending h _, ?_, ?_, ?_⟩
  · rw [State.raise_gysis]
    cases k <;> rfl
  · rw [State.raise_gysis]
    cases k <;> rfl
  · rw [State.core_raise]
    cases k <;> simp [State.denied, State.core_setCore]
  · rw [State.raise_gysis]
    cases k <;> simp [State.denied]
  · rw [State.raise_rest]
    cases k <;> rfl

theorem exec_evictionWriteback (s : State) (c : CoreId) (addr : Nat) : exec (.evictionWriteback c addr) s =
    .next (if (s.cache (addr / 64)).owner = some c.val && (s.cache (addr / 64)).mesi c = .modified then
      s.setCache (addr / 64) ((s.cache (addr / 64)).writeBack c) else s) := rfl

/-- A writeback of the owner's modified copy keeps the block's value (R360). -/
theorem CacheBlock.value_writeBack {x : CacheBlock} {c : Nat} (hown : x.owner = some c) (hm : x.mesi c = .modified) : (x.writeBack c).value = x.value := by
  simp [CacheBlock.value, CacheBlock.writeBack, CacheBlock.below, hown, hm]

theorem CacheBlock.mesi_writeBack (x : CacheBlock) (c : Nat) : (x.writeBack c).mesi c = .invalid := by
  simp [CacheBlock.mesi, CacheBlock.writeBack]

/-! ## The DRBG (R271, R272) -/

theorem State.reseedDue_iff (s : State) : s.reseedDue = true ↔ 2 ^ 20 ≤ s.sec.drbgRequests ∨ s.sec.drbgSeeded + 1000000000 ≤ s.now := by
  rw [State.reseedDue, Bool.or_eq_true, decide_eq_true_iff, decide_eq_true_iff]
  rfl

/-- A DRBG that has just been reseeded is not to be reseeded. -/
theorem State.reseedDue_reseed (s : State) : s.reseed.reseedDue = false := by
  rw [Bool.eq_false_iff, ne_eq, State.reseedDue_iff]
  simp [State.reseed]

theorem State.drbgReady_reseed (s : State) : s.reseed.drbgReady = s.reseed := by
  rw [State.drbgReady, State.reseedDue_reseed]
  rfl

theorem State.drbgReady_of_due {s : State} (h : s.reseedDue = true) : s.drbgReady = s.reseed := by simp [State.drbgReady, h]

theorem State.drbgReady_of_seeded {s : State} {g : Drbg} (hwork : s.sec.drbgWork = some g) (hdue : s.reseedDue = false) : s.drbgReady = s := by
  simp [State.drbgReady, hwork, hdue]

/-- A request that finds a reseed due is one of the reseeded DRBG. -/
theorem State.rnd_of_due {s : State} (h : s.reseedDue = true) : s.rnd = s.reseed.rnd := by
  rw [State.rnd, State.rnd, State.drbgReady_of_due h, State.drbgReady_reseed]

theorem State.generate_of_due {s : State} (h : s.reseedDue = true) (n : Nat) : s.generate n = s.reseed.generate n := by
  unfold State.generate
  rw [State.rnd_of_due h, State.drbgReady_of_due h, State.drbgReady_reseed]
  rfl

theorem State.rnd_of_seeded {s : State} {g : Drbg} (hwork : s.sec.drbgWork = some g) (hdue : s.reseedDue = false) :
    s.rnd = { work := g, left := 2 ^ 20 - s.sec.drbgRequests, seed := s.sec.drbgNext } := by
  rw [State.rnd, State.drbgReady_of_seeded hwork hdue, hwork]
  rfl

/-- A request of at most 4,096 bytes with requests left before a reseed gives the working state's output and steps it once. -/
theorem DrbgRun.run_one {g : DrbgRun} (hleft : g.left ≠ 0) {n : Nat} (hn : n ≤ 4096) :
    g.run 1 n = (g.work.bytes n, { g with work := g.work.next n, left := g.left - 1 }) := by
  simp [DrbgRun.run, DrbgRun.ready, hleft, Nat.min_eq_left hn]

theorem drbgRequestsOf_of_le {n : Nat} (hn : n ≤ 4096) : drbgRequestsOf n = 1 := by
  unfold drbgRequestsOf ceilDiv
  omega

/-- A request of at most 4,096 bytes to an instantiated DRBG for which no reseed is due (R271). -/
theorem State.generate_of_seeded {s : State} {g : Drbg} (hwork : s.sec.drbgWork = some g) (hdue : s.reseedDue = false) {n : Nat} (hn : n ≤ 4096) :
    drbgBytes s.rnd n = g.bytes n ∧
      s.generate n = { s with sec := { s.sec with drbgWork := some (g.next n), drbgRequests := s.sec.drbgRequests + 1 } } := by
  have hrequests : s.sec.drbgRequests < 2 ^ 20 := by
    have := mt s.reseedDue_iff.mpr (Bool.eq_false_iff.mp hdue)
    omega
  have hrun : s.rnd.run (drbgRequestsOf n) n = (g.bytes n, { work := g.next n, left := 2 ^ 20 - s.sec.drbgRequests - 1, seed := s.sec.drbgNext }) := by
    rw [State.rnd_of_seeded hwork hdue, drbgRequestsOf_of_le hn, DrbgRun.run_one (by dsimp only; omega) hn]
  have hcount : 2 ^ 20 - (2 ^ 20 - s.sec.drbgRequests - 1) = s.sec.drbgRequests + 1 := by omega
  unfold State.generate drbgBytes DrbgRun.after
  rw [State.drbgReady_of_seeded hwork hdue, hrun]
  simp only [hcount, if_true, and_self]

theorem exec_drbgReseed {s : State} (h : s.sec.drbg = .running) : exec .drbgReseed s = .next (if s.reseedDue then s.reseed else s) := by
  change execDrbgReseed s = _
  simp [execDrbgReseed, h]

theorem exec_drbgHealthFail {s : State} (h : s.sec.drbg = .running) : exec .drbgHealthFail s = .next
    (({ s with sec := { s.sec with drbg := .halted, drbgFailedAt := s.now, drbgRequests := 0, drbgFails := 0, drbgWork := none } } : State).raise 14) := by
  change execDrbgHealthFail s = _
  simp [execDrbgHealthFail, h]

/-! ## Block keys (R273, R287) -/

/-- A fold whose step changes one room, in a way that a second time adds nothing, changes the rooms of its list. -/
theorem State.room_foldl {step : State → Nat → State} {f : Nat → Room → Room}
    (hstep : ∀ t r q, (step t r).room q = if q = r then f r (t.room r) else t.room q) (htwice : ∀ r x, f r (f r x) = f r x) (l : List Nat) (s : State) (q : Nat) :
    (l.foldl step s).room q = if q ∈ l then f q (s.room q) else s.room q := by
  induction l generalizing s with
  | nil => simp
  | cons r l ih =>
    rw [List.foldl_cons, ih, hstep]
    by_cases hr : q = r
    · subst hr
      simp [htwice]
    · simp [hr]

/-- A room with the key of its block (R273): one that is in the block and holds none gets it. -/
def Room.keyed (x : Room) (here : Bool) (k : BitVec 256) : Room := if x.noiseKey.isNone && here then { x with noiseKey := some k, keyHeld := false } else x

theorem Room.keyed_twice (x : Room) (here : Bool) (k : BitVec 256) : (x.keyed here k).keyed here k = x.keyed here k := by
  by_cases h : (x.noiseKey.isNone && here) = true
  · simp [Room.keyed, h]
  · simp only [Room.keyed, if_neg h]

/-- A room of the partition `p` gets the key of block `n`, as `s` numbers the blocks, where it is to have it. -/
def State.keyRoom (s : State) (p n : Nat) (k : BitVec 256) (t : State) (r : Nat) : State :=
  if (t.room r).noiseKey.isNone && s.blockNo p r == n then t.setRoom r { t.room r with noiseKey := some k, keyHeld := false } else t

theorem State.deliverKey_eq (s : State) (p n : Nat) (k : BitVec 256) : s.deliverKey p n k = ((s.part p).rooms.foldl (s.keyRoom p n k) s).setPart p
    { s.part p with blockKeys := if (s.part p).blockKeys.any (fun e => e.1 == n) then (s.part p).blockKeys else (s.part p).blockKeys ++ [(n, k)] } := rfl

theorem State.room_keyRoom (s : State) (p n : Nat) (k : BitVec 256) (t : State) (r q : Nat) :
    (s.keyRoom p n k t r).room q = if q = r then (t.room r).keyed (s.blockNo p r == n) k else t.room q := by
  unfold State.keyRoom Room.keyed
  split
  · exact t.room_setRoom ..
  · split
    next h => rw [h]
    next => rfl

theorem State.room_deliverKey (s : State) (p n : Nat) (k : BitVec 256) (q : Nat) :
    (s.deliverKey p n k).room q = if q ∈ (s.part p).rooms then (s.room q).keyed (s.blockNo p q == n) k else s.room q :=
  State.room_foldl (f := fun r x => x.keyed (s.blockNo p r == n) k) (s.room_keyRoom p n k) (fun _ x => x.keyed_twice _ _) _ s q

/-- A delivery does not see the security engine. -/
theorem State.deliverKey_sec (s : State) (x : Security) (p n : Nat) (k : BitVec 256) :
    ({ s with sec := x } : State).deliverKey p n k = { s.deliverKey p n k with sec := x } := by
  have hroom (t : State) (r : Nat) : ({ s with sec := x } : State).keyRoom p n k { t with sec := x } r = { s.keyRoom p n k t r with sec := x } := by
    change State.keyRoom s p n k { t with sec := x } r = _
    by_cases h : ((t.room r).noiseKey.isNone && s.blockNo p r == n) = true
    · rw [State.keyRoom, State.keyRoom, if_pos h]
      exact if_pos h
    · rw [State.keyRoom, State.keyRoom, if_neg h]
      exact if_neg h
  rw [State.deliverKey_eq, State.deliverKey_eq]
  exact congrArg (fun t : State => t.setPart p _) (List.foldl_hom (fun t : State => { t with sec := x }) hroom)

/-- A delivery changes rooms and partitions. -/
theorem State.deliverKey_rest (s : State) (p n : Nat) (k : BitVec 256) : ∃ rooms parts, s.deliverKey p n k = { s with rooms := rooms, parts := parts } := by
  have hrooms : ∃ rooms, (s.part p).rooms.foldl (s.keyRoom p n k) s = { s with rooms := rooms } := by
    refine List.foldlRecOn (motive := fun t : State => ∃ rooms, t = { s with rooms := rooms }) _ _ ⟨_, rfl⟩ (fun t ht r _ => ?_)
    obtain ⟨rooms, rfl⟩ := ht
    unfold State.keyRoom
    split <;> exact ⟨_, rfl⟩
  obtain ⟨rooms, hrooms⟩ := hrooms
  rw [State.deliverKey_eq, hrooms]
  exact ⟨_, _, rfl⟩

theorem State.blockKeys_deliverKey {s : State} {p n : Nat} (h : ∀ e, e ∈ (s.part p).blockKeys → e.1 ≠ n) (k : BitVec 256) :
    ((s.deliverKey p n k).part p).blockKeys = (s.part p).blockKeys ++ [(n, k)] := by
  have hnone : (s.part p).blockKeys.any (fun e => e.1 == n) = false := by simpa using h
  unfold State.deliverKey
  dsimp only
  rw [State.part_setPart_same, hnone]
  rfl

/-- Requests that are held change rooms and the security engine. -/
theorem State.holdKeys_rest (s : State) (p : Nat) : ∃ rooms sec, s.holdKeys p = { s with rooms := rooms, sec := sec } := by
  obtain ⟨rooms, hrooms⟩ : ∃ rooms, (s.keyAsks p).foldl (fun t r => t.setRoom r { t.room r with keyHeld := true }) s = { s with rooms := rooms } := by
    refine List.foldlRecOn (motive := fun t : State => ∃ rooms, t = { s with rooms := rooms }) _ _ ⟨_, rfl⟩ (fun t ht r _ => ?_)
    obtain ⟨rooms, rfl⟩ := ht
    exact ⟨_, rfl⟩
  rw [State.holdKeys, hrooms]
  exact ⟨_, _, rfl⟩

theorem State.room_holdKeys (s : State) (p q : Nat) :
    (s.holdKeys p).room q = if q ∈ s.keyAsks p then { s.room q with keyHeld := true } else s.room q :=
  State.room_foldl (f := fun _ x => { x with keyHeld := true }) (fun t r q => t.room_setRoom r q _) (fun _ _ => rfl) (s.keyAsks p) s q

theorem State.mem_keyQueue_holdKeys (s : State) (p : Nat) : p ∈ (s.holdKeys p).sec.keyQueue := by
  unfold State.holdKeys
  dsimp only
  split
  next h => exact List.contains_iff_mem.mp h
  next => exact List.mem_append_right _ (List.mem_singleton_self p)

/-- A room that is in the block and holds no key gets it (R273). -/
theorem State.room_deliverKey_of_in {s : State} {p n q : Nat} (hroom : q ∈ (s.part p).rooms) (hnone : (s.room q).noiseKey = none) (hblock : s.blockNo p q = n)
    (k : BitVec 256) : (s.deliverKey p n k).room q = { s.room q with noiseKey := some k, keyHeld := false } := by
  rw [State.room_deliverKey, if_pos hroom, Room.keyed, if_pos (by simp [hnone, hblock])]

theorem State.room_deliverKey_of_out {s : State} {p n q : Nat} (h : q ∉ (s.part p).rooms ∨ (s.room q).noiseKey.isSome = true ∨ s.blockNo p q ≠ n)
    (k : BitVec 256) : (s.deliverKey p n k).room q = s.room q := by
  rw [State.room_deliverKey]
  split
  next hroom =>
    refine if_neg ?_
    rcases h with h | h | h
    · exact absurd hroom h
    · simp [Option.isSome_iff_ne_none.mp h]
    · simp [h]
  next => rfl

section Request
variable {s : State} {p : PartId} {r : Nat} {rest : List Nat} (hasks : s.keyAsks p = r :: rest) (hlive : s.sec.retired = false)
include hasks hlive

theorem exec_blockKeyRequest_of_donor {k : BitVec 256} (hdonor : s.keyDonor p r = some k) :
    exec (.blockKeyRequest p) s = .next (s.deliverKey p (s.blockNo p r) k) := by
  change execBlockKeyRequest p s = _
  simp [execBlockKeyRequest, hasks, hlive, hdonor]

theorem exec_blockKeyRequest_of_on (hnone : s.keyDonor p r = none) (hon : s.domain 118 = .on) : exec (.blockKeyRequest p) s =
    .next (if s.sec.drbg ≠ .running || (s.part p).isFollower then s.holdKeys p else s.giveKey p r) := by
  change execBlockKeyRequest p s = _
  simp [execBlockKeyRequest, hasks, hlive, hnone, hon]

end Request

/-! ## Requests that waited (R272, R287, R410) -/

/-- From `s` to `t` the DRBG has answered requests, and block keys may have been given. -/
structure State.Answered (s t : State) : Prop where
  mem : t.mem = s.mem
  links : t.links = s.links
  power : t.power = s.power
  boot : t.boot = s.boot
  now : t.now = s.now
  keyQueue : t.sec.keyQueue = s.sec.keyQueue
  drbg : t.sec.drbg = s.sec.drbg
  fails : t.sec.drbgFails = s.sec.drbgFails
  seeded : s.sec.drbgSeeded = s.now → t.sec.drbgSeeded = s.now

theorem State.Answered.refl (s : State) : s.Answered s := ⟨rfl, rfl, rfl, rfl, rfl, rfl, rfl, rfl, id⟩

theorem State.Answered.trans {s t u : State} (h : s.Answered t) (h' : t.Answered u) : s.Answered u where
  mem := h'.mem.trans h.mem
  links := h'.links.trans h.links
  power := h'.power.trans h.power
  boot := h'.boot.trans h.boot
  now := h'.now.trans h.now
  keyQueue := h'.keyQueue.trans h.keyQueue
  drbg := h'.drbg.trans h.drbg
  fails := h'.fails.trans h.fails
  seeded hs := (h'.seeded ((h.seeded hs).trans h.now.symm)).trans h.now

theorem State.answered_reseed (s : State) : s.Answered s.reseed := ⟨rfl, rfl, rfl, rfl, rfl, rfl, rfl, rfl, fun _ => rfl⟩

theorem State.answered_drbgReady (s : State) : s.Answered s.drbgReady := by
  unfold State.drbgReady
  split
  · exact s.answered_reseed
  · exact .refl s

theorem State.answered_generate (s : State) (n : Nat) : s.Answered (s.generate n) := by
  refine s.answered_drbgReady.trans ⟨rfl, rfl, rfl, rfl, rfl, rfl, rfl, rfl, fun h => ?_⟩
  unfold State.generate
  dsimp only
  split
  · exact h
  · exact s.answered_drbgReady.now.symm

theorem State.generate_rest (s : State) (n : Nat) : s.generate n = { s with sec := (s.generate n).sec } := by
  unfold State.generate State.drbgReady
  dsimp only
  split <;> rfl

theorem State.answered_deliverKey (s : State) (p n : Nat) (k : BitVec 256) : s.Answered (s.deliverKey p n k) := by
  obtain ⟨rooms, parts, h⟩ := s.deliverKey_rest p n k
  rw [h]
  exact ⟨rfl, rfl, rfl, rfl, rfl, rfl, rfl, rfl, id⟩

/-- A new key is delivered as the next output of the DRBG (R273); what goes to a twin leaves the module, and nothing else changes. -/
theorem State.giveKey_rest (s : State) (p r : Nat) : ∃ out, s.giveKey p r = { s.deliverKey p (s.blockNo p r) s.nextKey with
    sec := { (s.generate 32).sec with idleSince := s.now }, out := out } := by
  have hdeliver : (s.generate 32).deliverKey p (s.blockNo p r) s.nextKey =
      { s.deliverKey p (s.blockNo p r) s.nextKey with sec := (s.generate 32).sec } := by
    rw [State.generate_rest]
    exact s.deliverKey_sec ..
  unfold State.giveKey
  dsimp only
  rw [hdeliver]
  split <;> exact ⟨_, rfl⟩

theorem State.giveKey_spec (s : State) (p r : Nat) {t : State} (ht : s.giveKey p r = t) : t.sec.drbgNext = (s.generate 32).sec.drbgNext ∧
    t.sec.drbgWork = (s.generate 32).sec.drbgWork ∧ t.sec.drbgRequests = (s.generate 32).sec.drbgRequests ∧
    t.rooms = (s.deliverKey p (s.blockNo p r) s.nextKey).rooms ∧ t.parts = (s.deliverKey p (s.blockNo p r) s.nextKey).parts ∧ t.mem = s.mem ∧ t.fns = s.fns := by
  obtain ⟨out, hgive⟩ := s.giveKey_rest p r
  obtain ⟨rooms, parts, hdeliver⟩ := s.deliverKey_rest p (s.blockNo p r) s.nextKey
  rw [← ht, hgive]
  generalize s.generate 32 = g
  refine ⟨rfl, rfl, rfl, rfl, rfl, ?_, ?_⟩ <;> rw [hdeliver]

theorem State.answered_giveKey (s : State) (p r : Nat) : s.Answered (s.giveKey p r) := by
  obtain ⟨out, h⟩ := s.giveKey_rest p r
  have hgenerate := s.answered_generate 32
  obtain ⟨rooms, parts, hdeliver⟩ := s.deliverKey_rest p (s.blockNo p r) s.nextKey
  rw [h, hdeliver]
  exact ⟨rfl, rfl, rfl, rfl, rfl, hgenerate.keyQueue, hgenerate.drbg, hgenerate.fails, hgenerate.seeded⟩

theorem State.answered_serveKey (p : Nat) (s : State) (r : Nat) : s.Answered (s.serveKey p r) := by
  unfold State.serveKey
  split
  · exact .refl s
  · split
    · exact s.answered_deliverKey ..
    · exact s.answered_giveKey p r

/-- The requests that wait are served: the queue alone may change beside what the DRBG answers (R287). -/
theorem State.serveKeys_answered (s : State) : ∃ t : State, s.Answered t ∧ s.serveKeys = { t with sec := { t.sec with keyQueue := s.serveKeys.sec.keyQueue } } ∧
    (s.sec.keyQueue = [] → t = s) := by
  unfold State.serveKeys
  split
  · exact ⟨s, .refl s, rfl, fun _ => rfl⟩
  · refine ⟨_, ?_, rfl, fun h => by rw [h]; rfl⟩
    exact List.foldlRecOn _ _ (.refl s) (fun t ht p _ => ht.trans (List.foldlRecOn _ _ (.refl t) (fun u hu r _ => hu.trans (u.answered_serveKey p r))))

theorem State.domain_setDomain (s : State) (d e : Nat) (x : DomState) : (s.setDomain d x).domain e = if e = d then x else s.domain e := Tab.get_set _ _ _ _ _

theorem State.domain_congr {s t : State} (h : t.power = s.power) (d : Nat) : t.domain d = s.domain d := by rw [State.domain, State.domain, h]

theorem State.keyQueue_serveKeys {s : State} (h : s.domain 118 = .on) : s.serveKeys.sec.keyQueue = [] := by simp [State.serveKeys, h]

/-- An identifier drawn is a request answered; the links alone change beside. -/
theorem State.drawBootId_rest (s : State) : ∃ t : State, s.Answered t ∧ t.rooms = s.rooms ∧ ∃ links, s.drawBootId = { t with links := links } := by
  unfold State.drawBootId
  split
  · exact ⟨s, .refl s, rfl, _, rfl⟩
  · refine ⟨_, s.answered_generate 4, ?_, _, rfl⟩
    rw [State.generate_rest]

theorem State.bootId_drawBootId {s : State} (hdrbg : s.sec.drbg = .running) (hruns : s.programsRun = true) : s.drawBootId.links.bootId.isSome = true := by
  unfold State.drawBootId
  split
  next h => simpa [hdrbg, hruns] using h
  next => rfl

theorem State.stateChanged_gysis (s : State) : s.stateChanged.gysis = s.gysis := by
  refine List.foldlRecOn (motive := fun t : State => t.gysis = s.gysis) _ _ rfl (fun t ht f _ => ?_)
  rw [← ht]
  unfold State.setCause
  dsimp only
  split
  · rfl
  · split <;> rfl

theorem State.setDegraded_gysis (s : State) : s.setDegraded.gysis = { s.gysis with degraded := true } := by
  unfold State.setDegraded
  split
  next h => rw [← h]
  next => rw [State.stateChanged_gysis]

theorem State.setReplace_gysis (s : State) : s.setReplace.gysis = { s.gysis with replaceRequested := true } := by
  unfold State.setReplace
  split
  next h => rw [← h]
  next => rw [State.stateChanged_gysis]

/-- A decision that sets both flags leaves them set, and its entry waits to be written (R465, R467). -/
theorem State.decided_flags (s : State) (code level kind : Nat) (irq : Bool) (room unit wher count : Nat) {t : State}
    (h : s.decided code level kind irq true true room unit wher count = t) :
    t.gysis.degraded = true ∧ t.gysis.replaceRequested = true ∧ ∃ e, e ∈ t.gysis.ledger.todo ∧ e.code = code := by
  have hgysis : s.setDegraded.setReplace.gysis = { s.gysis with degraded := true, replaceRequested := true } := by
    rw [State.setReplace_gysis, State.setDegraded_gysis]
  subst h
  exact ⟨congrArg Gysis.degraded hgysis, congrArg Gysis.replaceRequested hgysis, _, List.mem_append_right _ (List.mem_singleton_self _), rfl⟩

/-- The state in which the DRBG has been instantiated again (R272). -/
def State.reinstantiated (s : State) : State := ({ s with sec := { s.sec with drbg := .running, drbgFails := 0 } } : State).reseed.drawBootId

/-- The state after the third failure in a row (R272). -/
def State.drbgLost (s : State) : State :=
  (({ s with sec := { s.sec with drbg := .failed, drbgFails := 3 } } : State).note .drbg 0).decided 0x0034 3 3 true true true 255 255 3 3

theorem exec_drbgReinstantiate_early {s : State} {ok : Bool} (h : s.now < s.sec.drbgFailedAt + 10000000) : exec (.drbgReinstantiate ok) s = .next s := by
  change execDrbgReinstantiate ok s = _
  simp [execDrbgReinstantiate, h]

section Reinstantiate
variable {s : State} (hhalted : s.sec.drbg = .halted) (h : s.sec.drbgFailedAt + 10000000 ≤ s.now)
include hhalted h

theorem exec_drbgReinstantiate_ok : exec (.drbgReinstantiate true) s = .next s.reinstantiated.serveKeys := by
  change execDrbgReinstantiate true s = _
  simp [execDrbgReinstantiate, State.reinstantiated, hhalted, Nat.not_lt.mpr h]

theorem exec_drbgReinstantiate_again (hfew : s.sec.drbgFails < 2) : exec (.drbgReinstantiate false) s =
    .next { s with sec := { s.sec with drbgFails := s.sec.drbgFails + 1, drbgFailedAt := s.now } } := by
  change execDrbgReinstantiate false s = _
  simp [execDrbgReinstantiate, hhalted, Nat.not_lt.mpr h, Nat.succ_lt_succ hfew]

theorem exec_drbgReinstantiate_lost (hthird : 2 ≤ s.sec.drbgFails) : exec (.drbgReinstantiate false) s = .next s.drbgLost := by
  change execDrbgReinstantiate false s = _
  simp [execDrbgReinstantiate, State.drbgLost, hhalted, Nat.not_lt.mpr h, Nat.not_lt.mpr (Nat.succ_le_succ hthird)]

end Reinstantiate

/-- The DRBG that is instantiated again runs, newly seeded; the module has its boot identifier where it may draw one, and the rooms are as they were. -/
theorem State.reinstantiated_spec (s : State) : s.reinstantiated.mem = s.mem ∧ s.reinstantiated.rooms = s.rooms ∧ s.reinstantiated.power = s.power ∧
    s.reinstantiated.now = s.now ∧ s.reinstantiated.sec.keyQueue = s.sec.keyQueue ∧ s.reinstantiated.sec.drbg = .running ∧
    s.reinstantiated.sec.drbgFails = 0 ∧ s.reinstantiated.sec.drbgSeeded = s.now ∧ (s.programsRun = true → s.reinstantiated.links.bootId.isSome = true) := by
  obtain ⟨t, hanswered, hrooms, links, hdraw⟩ := ({ s with sec := { s.sec with drbg := .running, drbgFails := 0 } } : State).reseed.drawBootId_rest
  have hbootId : s.programsRun = true → s.reinstantiated.links.bootId.isSome = true := fun h => State.bootId_drawBootId rfl h
  refine ⟨?_, ?_, ?_, ?_, ?_, ?_, ?_, ?_, hbootId⟩ <;> rw [State.reinstantiated, hdraw]
  exacts [hanswered.mem, hrooms, hanswered.power, hanswered.now, hanswered.keyQueue, hanswered.drbg, hanswered.fails, hanswered.seeded rfl]

theorem State.drbgLost_spec (s : State) : s.drbgLost.mem = s.mem ∧ s.drbgLost.rooms = s.rooms ∧ s.drbgLost.sec.drbg = .failed := by
  obtain ⟨fns, g, h⟩ := State.decided_flagged (({ s with sec := { s.sec with drbg := .failed, drbgFails := 3 } } : State).note .drbg 0)
    0x0034 3 3 true true true 255 255 3 3
  rw [State.drbgLost, h]
  exact ⟨rfl, rfl, rfl⟩

/-- The requests that waited are served by the DRBG that has been instantiated again (R287). -/
theorem State.serveKeys_reinstantiated (s : State) {t : State} (ht : s.reinstantiated.serveKeys = t) : t.mem = s.mem ∧
    (s.sec.keyQueue = [] → t.rooms = s.rooms) ∧ (s.domain 118 = .on → t.sec.keyQueue = []) ∧
    t.sec.drbg = .running ∧ t.sec.drbgFails = 0 ∧ t.sec.drbgSeeded = s.now ∧ (s.programsRun = true → t.links.bootId.isSome = true) := by
  obtain ⟨hmem, hrooms, hpower, hnow, hqueue, hdrbg, hfails, hseeded, hbootId⟩ := s.reinstantiated_spec
  obtain ⟨u, hanswered, hserve, hsame⟩ := s.reinstantiated.serveKeys_answered
  have hserved (hon : s.domain 118 = .on) : t.sec.keyQueue = [] := ht ▸ State.keyQueue_serveKeys ((State.domain_congr hpower 118).trans hon)
  have hlinks (h : s.programsRun = true) : u.links.bootId.isSome = true := by
    rw [hanswered.links]
    exact hbootId h
  refine ⟨?_, fun hempty => ?_, hserved, ?_⟩ <;> rw [← ht, hserve]
  · exact hanswered.mem.trans hmem
  · exact (congrArg State.rooms (hsame (hqueue.trans hempty))).trans hrooms
  · exact ⟨hanswered.drbg.trans hdrbg, hanswered.fails.trans hfails, (hanswered.seeded (hseeded.trans hnow.symm)).trans hnow, hlinks⟩

/-! ## The engine's domain (R485) -/

theorem exec_securityDomainIdleOff {s : State} (hon : s.domain 118 = .on) (hidle : s.domainNeeded 118 = false) :
    exec .securityDomainIdleOff s = .next (({ s with sec := { s.sec with hash := [] } } : State).setDomain 118 .off) := by
  change execSecurityDomainIdleOff s = _
  simp [execSecurityDomainIdleOff, hon, hidle, State.domainDiscard]

/-! ## The statement -/

/-- Settles O54: each command's next state, by the rules above for delivery, the directory, the DRBG and the block keys. -/
theorem interruptsCachesAndEntropy : Obligations.InterruptsCachesAndEntropy := by
  unfold Obligations.InterruptsCachesAndEntropy
  refine ⟨?taken, ?round, ?mret, ?holdoff, ?directory, ?writeback, ?drbg, ?reinstantiate, ?blockKey, ?deliver, ?hold, ?generate, ?reseeded, ?idle⟩
  case taken =>
    intro s n c hglobal hpending henabled hlone hheld hc htarget hlive hfree hmie hrunning hbest
    have hmem : c ∈ s.takers n := (s.mem_takers n c).mpr ⟨hc, htarget, hlive, hfree, hmie, hrunning⟩
    have htaker : s.taker n = some c := State.taker_eq hmem (fun d hd => by
      obtain ⟨hd4, hdTarget, hdLive, hdFree, hdMie, hdRunning⟩ := (s.mem_takers n d).mp hd
      exact hbest d hd4 hdTarget hdLive hdFree hdMie hdRunning)
    have hexec := exec_interruptDelivery_lone hglobal hpending henabled hlone hheld htaker
    have hcore := (s.core_deliver n c c).trans (if_pos rfl)
    have hsource := (s.source_deliver n c n).trans (if_pos rfl)
    refine ⟨_, hexec, congrArg Core.handling hcore, congrArg Core.mepc hcore, congrArg Core.mcause hcore, congrArg Core.pc hcore,
      congrArg Source.pending hsource, (congrArg Source.enabled hsource).trans henabled, State.heldUntil_deliver,
      fun d hd => (s.core_deliver n c d).trans (if_neg hd), ?_⟩
    rw [State.deliver_rest]
    exact ⟨rfl, rfl, rfl⟩
  case round =>
    intro s
    have hoffered := s.offered_round
    obtain ⟨g, n, hrest⟩ := hoffered.rest
    refine ⟨_, exec_interruptDelivery s, hoffered.cores, hoffered.sources, ?_⟩
    rw [hrest]
    exact ⟨rfl, rfl, rfl, rfl⟩
  case mret =>
    intro s c
    rw [exec_mret]
    exact ⟨fun h => by rw [if_pos h], fun h => by rw [h]; rfl⟩
  case holdoff => exact fun s g a h => exec_holdoffExpiry h
  case directory =>
    intro s c addr x hx hown
    subst hx
    have hother (k : CohKind) (b : Nat) (hb : b ≠ addr / 64) := State.cache_setCache_other (s := s) ((s.cache (addr / 64)).serve c k) hb
    refine ⟨fun lr => ?_, fun w => ?_, ?_, fun v => ?_, fun k p hp => ?_, fun k => ?_⟩
    · obtain ⟨hvalue, hcopy, hreserved⟩ := (s.cache (addr / 64)).serve_read c lr
      refine ⟨_, exec_directoryRequest_ok .., ?_⟩
      rw [State.cache_setCache_same]
      exact ⟨hvalue, hcopy, hreserved, hother _, rfl⟩
    · obtain ⟨hvalue, howner, hmod, hothers⟩ := CacheBlock.serve_own hown c w
      refine ⟨_, exec_directoryRequest_ok .., ?_⟩
      rw [State.cache_setCache_same]
      exact ⟨hvalue, howner, hmod, hothers, hother _⟩
    · refine ⟨_, exec_directoryRequest_ok .., ?_⟩
      rw [State.cache_setCache_same]
      exact ⟨CacheBlock.value_share _, hother _⟩
    · refine ⟨_, exec_directoryRequest_ok .., ?_⟩
      rw [State.cache_setCache_same]
      exact ⟨rfl, fun _ => rfl, rfl, hother _⟩
    · exact ⟨_, exec_directoryRequest_denied s c addr k hp, s.denied_spec c (s.cache (addr / 64)) k rfl⟩
    · exact ⟨_, exec_directoryRequest_clean .., rfl, rfl, fun b hb => State.cache_setCache_other _ hb⟩
  case writeback =>
    intro s c addr x hx
    subst hx
    rw [exec_evictionWriteback]
    refine ⟨fun hown hmod => ?_, fun hown => by simp [hown]⟩
    rw [if_pos (by simp [hown, hmod])]
    refine ⟨_, rfl, ?_⟩
    rw [State.cache_setCache_same]
    exact ⟨rfl, rfl, rfl, CacheBlock.mesi_writeBack _ _, CacheBlock.value_writeBack hown hmod, fun b hb => State.cache_setCache_other _ hb⟩
  case drbg =>
    intro s hrun
    rw [exec_drbgReseed hrun, exec_drbgHealthFail hrun]
    refine ⟨congrArg _ (if_congr s.reseedDue_iff rfl rfl), _, rfl, ?_, State.source_raise_pending (by decide) _, ?_⟩
    · rw [State.raise_rest]
    · rw [State.raise_rest]
      exact ⟨rfl, rfl, rfl, rfl⟩
  case reinstantiate =>
    intro s ok hhalted
    refine ⟨exec_drbgReinstantiate_early, fun htime => ?_⟩
    cases ok with
    | true =>
      obtain ⟨hmem, hrooms, hserved, hruns⟩ := s.serveKeys_reinstantiated rfl
      exact ⟨_, exec_drbgReinstantiate_ok hhalted htime, hmem, fun h => hrooms (h.resolve_left (by decide)), fun _ => hserved, fun _ => hruns, nofun, nofun⟩
    | false =>
      by_cases hfew : s.sec.drbgFails < 2
      · exact ⟨_, exec_drbgReinstantiate_again hhalted htime hfew, rfl, fun _ => rfl, nofun, nofun, fun _ _ => rfl, fun _ h => absurd hfew (Nat.not_lt.mpr h)⟩
      · obtain ⟨hmem, hrooms, hfailed⟩ := s.drbgLost_spec
        exact ⟨_, exec_drbgReinstantiate_lost hhalted htime (Nat.not_lt.mp hfew), hmem, fun _ => hrooms, nofun, nofun, fun _ h => absurd h hfew,
          fun _ _ => ⟨hfailed, State.decided_flags _ _ _ _ _ _ _ _ _ rfl⟩⟩
  case blockKey =>
    intro s p r rest hasks hlive
    refine ⟨fun k hk => exec_blockKeyRequest_of_donor hasks hlive hk, fun hnone hon hwaits => ?_, fun hnone hon hrun hleads => ⟨_, ?_, s.giveKey_spec p r rfl⟩⟩
    · rw [exec_blockKeyRequest_of_on hasks hlive hnone hon, if_pos (by simpa using hwaits)]
    · rw [exec_blockKeyRequest_of_on hasks hlive hnone hon, if_neg (by simp [hrun, hleads])]
  case deliver =>
    exact fun s p n k => ⟨_, rfl, fun q hq hnone hblock => State.room_deliverKey_of_in hq hnone hblock k, fun q h => State.room_deliverKey_of_out h k,
      fun h => State.blockKeys_deliverKey h k⟩
  case hold =>
    intro s p
    obtain ⟨rooms, sec, hrest⟩ := s.holdKeys_rest p
    refine ⟨_, rfl, s.mem_keyQueue_holdKeys p, fun q hq => (s.room_holdKeys p q).trans (if_pos hq), fun q hq => (s.room_holdKeys p q).trans (if_neg hq), ?_⟩
    rw [hrest]
    exact ⟨rfl, rfl⟩
  case generate =>
    intro s g hwork hdue
    obtain ⟨hbytes, hnext⟩ := State.generate_of_seeded hwork hdue (n := 32) (by decide)
    exact ⟨by rw [State.nextKey, hbytes], hnext⟩
  case reseeded =>
    intro s hdue
    exact ⟨State.generate_of_due hdue 32, by rw [State.nextKey, State.nextKey, State.rnd_of_due hdue]⟩
  case idle =>
    intro s hon hidle
    exact ⟨_, exec_securityDomainIdleOff hon hidle, (State.domain_setDomain ..).trans (if_pos rfl),
      fun d hd => (State.domain_setDomain ..).trans (if_neg hd), rfl, rfl, rfl⟩

end Sys2Proof.Machine
end

section
/-! PROOFS. Mailbox slots and vectors (R320 to R325, R352 to R355, R534): a doorbell write that posts or releases several slots, the end of a command, the event vector,
the requests of a vector, the MSI-X table and the job doorbell. -/

namespace Sys2Proof.Machine

/-! ## Doorbell writes of several slots (R321 to R323) -/

/-- From `s` to `t` slots of function `f` and what Gysis keeps may have changed, but no interrupt source, no other function and nothing else of the module. -/
def State.TouchesSlots (s t : State) (f : Nat) : Prop :=
  (∃ fns g, t = { s with fns := fns, gysis := g }) ∧ t.gysis.intc = s.gysis.intc ∧ ∀ g, g ≠ f → t.fn g = s.fn g

theorem State.TouchesSlots.refl (s : State) (f : Nat) : s.TouchesSlots s f := ⟨⟨_, _, rfl⟩, rfl, fun _ _ => rfl⟩

theorem State.TouchesSlots.trans {s t u : State} {f : Nat} : s.TouchesSlots t f → t.TouchesSlots u f → s.TouchesSlots u f := by
  rintro ⟨⟨_, _, rfl⟩, hintc, hfns⟩ ⟨⟨fns, g, rfl⟩, hintc', hfns'⟩
  exact ⟨⟨fns, g, rfl⟩, hintc'.trans hintc, fun h hne => (hfns' h hne).trans (hfns h hne)⟩

theorem State.touchesSlots_setSlot (s : State) (f k : Nat) (x : Slot) : s.TouchesSlots (s.setSlot f k x) f :=
  ⟨⟨_, _, rfl⟩, rfl, fun _ hne => (State.fn_setFn ..).trans (if_neg hne)⟩

theorem State.touchesSlots_violate (s : State) (f : Nat) : s.TouchesSlots (s.violate f) f := ⟨⟨_, _, rfl⟩, rfl, fun _ _ => rfl⟩

theorem State.slot_setSlot (s : State) (f k j : Nat) (x : Slot) : ((s.setSlot f k x).fn f).slot j = if j = k then x else (s.fn f).slot j := by
  simp [State.setSlot, Fn.slot_setSlot]

/-- What a doorbell does with one slot of function `f`: a slot in state `st` changes as `R` says, any other slot stays. -/
structure State.SlotStep (f : Nat) (st : SlotState) (R : Slot → Slot → Prop) (step : State → Nat → State) : Prop where
  touches : ∀ (t : State) (k : Nat), t.TouchesSlots (step t k) f
  others : ∀ t k j, j ≠ k → ((step t k).fn f).slot j = (t.fn f).slot j
  hit : ∀ t k, ((t.fn f).slot k).state = st → R ((t.fn f).slot k) (((step t k).fn f).slot k)
  miss : ∀ t k, ((t.fn f).slot k).state ≠ st → ((step t k).fn f).slot k = (t.fn f).slot k

/-- A doorbell write treats each slot whose bit is 1 by itself. -/
theorem State.SlotStep.fold {f : Nat} {st : SlotState} {R : Slot → Slot → Prop} {step : State → Nat → State} (h : State.SlotStep f st R step)
    (bits : BitVec 8) (s t : State) (n : Nat) (ht : (List.range n).foldl (fun u k => if bits.getLsbD k then step u k else u) s = t) :
    s.TouchesSlots t f ∧ (∀ k, k < n → bits.getLsbD k = true → ((s.fn f).slot k).state = st → R ((s.fn f).slot k) ((t.fn f).slot k)) ∧
      ∀ k, n ≤ k ∨ bits.getLsbD k = false ∨ ((s.fn f).slot k).state ≠ st → (t.fn f).slot k = (s.fn f).slot k := by
  induction n generalizing t with
  | zero =>
    subst ht
    exact ⟨.refl s f, nofun, fun _ _ => rfl⟩
  | succ n ih =>
    rw [List.range_succ, List.foldl_append, List.foldl_cons, List.foldl_nil] at ht
    generalize hu : (List.range n).foldl (fun u k => if bits.getLsbD k then step u k else u) s = u at ht
    obtain ⟨htouch, hhit, hkept⟩ := ih u hu
    by_cases hbit : bits.getLsbD n = true
    · rw [if_pos (by simpa using hbit)] at ht
      subst ht
      have hn : (u.fn f).slot n = (s.fn f).slot n := hkept n (.inl le_rfl)
      refine ⟨htouch.trans (h.touches u n), fun k hk hkbit hst => ?_, fun k hk => ?_⟩
      · rcases Nat.lt_succ_iff_lt_or_eq.mp hk with hlt | rfl
        · rw [h.others u n k (Nat.ne_of_lt hlt)]
          exact hhit k hlt hkbit hst
        · rw [← hn] at hst ⊢
          exact h.hit u k hst
      · by_cases hkn : k = n
        · subst hkn
          have hst : ((u.fn f).slot k).state ≠ st := by
            rw [hn]
            rcases hk with hk | hk | hk
            · omega
            · exact absurd hbit (by simp [hk])
            · exact hk
          rw [h.miss u k hst, hn]
        · rw [h.others u n k hkn]
          exact hkept k (hk.imp_left (by omega))
    · rw [if_neg (by simpa using hbit)] at ht
      subst ht
      refine ⟨htouch, fun k hk hkbit hst => ?_, fun k hk => ?_⟩
      · exact hhit k (lt_of_le_of_ne (Nat.lt_succ_iff.mp hk) (fun e => hbit (e ▸ hkbit))) hkbit hst
      · by_cases hkn : k = n
        · exact hkept k (.inl (le_of_eq hkn.symm))
        · exact hkept k (hk.imp_left (by omega))

/-- What posting leaves in a FREE slot (step 2 of R322): POSTED, IN_PROGRESS, and the other response fields zero. -/
structure Slot.PostedFrom (x y : Slot) : Prop where
  state : y.state = .posted
  status : y.byte 16 = 7
  cleared : ∀ i, 17 ≤ i → i < 28 → y.byte i = 0
  kept : ∀ i, i < 16 ∨ 28 ≤ i → y.byte i = x.byte i

theorem Slot.byte_posted (x : Slot) (state : SlotState) (order : Nat) (clash : Bool) (i : Nat) :
    Slot.byte { x with state := state, order := order, seqClash := clash } i = x.byte i := rfl

theorem Slot.postedFrom (x : Slot) (order : Nat) (clash : Bool) :
    x.PostedFrom { (x.putRun 17 (List.replicate 11 0)).putRun 16 [7] with state := .posted, order := order, seqClash := clash } := by
  refine ⟨rfl, ?_, fun i hlo hhi => ?_, fun i hi => ?_⟩
  · rw [Slot.byte_posted, Slot.byte_putRun, if_pos (by decide)]
    rfl
  · rw [Slot.byte_posted, Slot.byte_putRun, if_neg (by simp; omega), Slot.byte_putRun, if_pos (by simp; omega)]
    exact List.getD_replicate _ (by omega)
  · rw [Slot.byte_posted, Slot.byte_putRun, if_neg (by simp; omega), Slot.byte_putRun, if_neg (by simp; omega)]

theorem State.slotStep_postSlot (f : Nat) : State.SlotStep f .free Slot.PostedFrom (fun t k => t.postSlot f k) where
  touches t k := by
    unfold State.postSlot
    dsimp only
    split
    · exact t.touchesSlots_violate f
    · exact (t.touchesSlots_setSlot f k _).trans ⟨⟨_, _, rfl⟩, rfl, fun _ _ => rfl⟩
  others t k j hj := by
    unfold State.postSlot
    dsimp only
    split
    · rfl
    · exact (t.slot_setSlot f k j _).trans (if_neg hj)
  hit t k hst := by
    unfold State.postSlot
    dsimp only
    rw [if_neg (not_not_intro hst)]
    exact (t.slot_setSlot f k k _).trans (if_pos rfl) ▸ Slot.postedFrom ..
  miss t k hst := by
    unfold State.postSlot
    dsimp only
    rw [if_pos hst]
    rfl

theorem State.slotStep_releaseSlot (f : Nat) :
    State.SlotStep f .done (fun x y => y = { x with state := .free }) (fun t k => t.releaseSlot f k) where
  touches t k := by
    unfold State.releaseSlot
    dsimp only
    split
    · exact t.touchesSlots_violate f
    · exact t.touchesSlots_setSlot f k _
  others t k j hj := by
    unfold State.releaseSlot
    dsimp only
    split
    · rfl
    · exact (t.slot_setSlot f k j _).trans (if_neg hj)
  hit t k hst := by
    unfold State.releaseSlot
    dsimp only
    rw [if_neg (not_not_intro hst)]
    exact (t.slot_setSlot f k k _).trans (if_pos rfl)
  miss t k hst := by
    rw [State.releaseSlot_of_not_done hst]
    rfl

theorem State.source_raise (s : State) (n : Nat) : ((s.raise n).source n).pending = (sourceAssigned n || (s.source n).pending) := by
  unfold State.raise
  split <;> rename_i h
  · simp [h]
  · simp [h]

theorem State.source_congr {s t : State} (h : t.gysis.intc = s.gysis.intc) (n : Nat) : t.source n = s.source n := by
  unfold State.source
  rw [h]

/-- Settles O5: a doorbell write posts slot by slot, and a slot that it posts raises the function's source. -/
theorem postPostsFreeSlots : Obligations.PostPostsFreeSlots := by
  unfold Obligations.PostPostsFreeSlots
  intro s f bits hf
  obtain ⟨⟨⟨fns, g, hrest⟩, hintc, hfns⟩, hhit, hkept⟩ := (State.slotStep_postSlot f).fold bits s (s.postBits f bits) 8 rfl
  have hwrite : s.postWrite f bits = { s.postBits f bits with gysis := (s.postWrite f bits).gysis } := by
    unfold State.postWrite
    split
    · exact State.raise_rest ..
    · rfl
  have hfn (k : Nat) : (s.postWrite f bits).fn k = (s.postBits f bits).fn k := by rw [hwrite]; rfl
  refine ⟨_, exec_post hf bits, fun k hk hbit hfree => ?_, fun k _ hk => ?_, ?_, ?_, ?_, ?_, fun k hk => ?_⟩
  · obtain ⟨hstate, hstatus, hcleared, hsame⟩ := hhit k hk hbit hfree
    rw [hfn]
    exact ⟨hstate, hstatus, hcleared, hsame⟩
  · rw [hfn]
    exact hkept k (.inr hk)
  · rw [← State.source_congr hintc]
    unfold State.postWrite
    split <;> rename_i hsome
    · rw [State.source_raise, hsome, Bool.true_and]
    · simp [hsome]
  · rw [hwrite, hrest]
  · rw [hwrite, hrest]
  · rw [hwrite, hrest]
  · rw [hfn]
    exact hfns k hk

/-- Settles O6: a doorbell write releases slot by slot. -/
theorem releaseFreesDoneSlots : Obligations.ReleaseFreesDoneSlots := by
  unfold Obligations.ReleaseFreesDoneSlots
  intro s f bits hf
  obtain ⟨⟨⟨fns, g, hrest⟩, -, hfns⟩, hhit, hkept⟩ := (State.slotStep_releaseSlot f).fold bits s (s.releaseBits f bits) 8 rfl
  refine ⟨_, exec_release hf bits, hhit, fun k _ hk => hkept k (.inr hk), ?_, ?_, ?_, hfns⟩ <;> rw [hrest]

/-! ## The end of a command (step 4 of R322) -/

theorem leBytes_getD_eq_field {x : Slot} {off n v : Nat} (h : ∀ i, i < n → x.byte (off + i) = (leBytes n v).getD i 0) :
    x.field off n = v % 256 ^ n := by
  rw [← leNat_leBytes, Slot.field]
  congr 1
  refine List.ext_getElem (by simp [leBytes_length]) fun i hi hi' => ?_
  rw [List.getElem_map, List.getElem_range, h i (by simpa using hi), List.getD_eq_getElem _ _ hi']

/-- What the host finds in a slot whose command has ended. -/
theorem Slot.finish_ended (x : Slot) (base status progress total : Nat) {resp : List Byte} (hlen : resp.length ≤ 480) :
    Ended x (x.finish base status progress total resp) status resp ∧
      (x.finish base status progress total resp).field 20 4 = progress % 2 ^ 32 ∧ (x.finish base status progress total resp).field 24 4 = total % 2 ^ 32 ∧
      ∀ i, i < 16 → (x.finish base status progress total resp).byte i = x.byte i := by
  have hbyte := x.byte_finish base status progress total resp hlen
  refine ⟨⟨rfl, ?_, ?_, ?_, fun i b hi => ?_⟩, ?_, ?_, fun i hi => ?_⟩
  · rw [hbyte 16 (by omega), if_pos rfl]
  · rw [hbyte 17 (by omega), if_neg (by decide), if_pos rfl]
  · rw [leBytes_getD_eq_field (v := resp.length) (fun i hi => ?_), Nat.mod_eq_of_lt (by omega)]
    rw [hbyte _ (by omega), if_neg (by omega), if_neg (by omega), if_pos (by omega), Nat.add_sub_cancel_left]
  · have hlt := (List.getElem?_eq_some_iff.mp hi).1
    rw [hbyte _ (by omega), if_neg (by omega), if_neg (by omega), if_neg (by omega), if_neg (by omega), if_neg (by omega), if_pos (by omega),
      Nat.add_sub_cancel_left, List.getD_eq_getElem?_getD, hi, Option.getD_some]
  · refine leBytes_getD_eq_field (fun i hi => ?_)
    rw [hbyte _ (by omega), if_neg (by omega), if_neg (by omega), if_neg (by omega), if_pos (by omega), Nat.add_sub_cancel_left]
  · refine leBytes_getD_eq_field (fun i hi => ?_)
    rw [hbyte _ (by omega), if_neg (by omega), if_neg (by omega), if_neg (by omega), if_neg (by omega), if_pos (by omega), Nat.add_sub_cancel_left]
  · rw [hbyte _ (by omega), if_neg (by omega), if_neg (by omega), if_neg (by omega), if_neg (by omega), if_neg (by omega), if_neg (by omega)]

/-- The vectors that the end of a command with a request for one raises (R320). -/
def Slot.notifies (x : Slot) : List Nat := if (x.byte 3).getLsbD 0 && decide ((x.byte 6).toNat ≤ 31) then [(x.byte 6).toNat] else []

theorem State.fn_raiseVector (s : State) (f v g : Nat) :
    (s.raiseVector f v).fn g = if g = f then { s.fn f with raised := (s.fn f).raised ++ [v] } else s.fn g := State.fn_setFn ..

theorem State.slot_raiseVector (s : State) (f v j : Nat) : ((s.raiseVector f v).fn f).slot j = (s.fn f).slot j := by
  rw [State.fn_raiseVector, if_pos rfl]
  rfl

/-- The end of a command changes its function alone: one slot and the vectors raised. -/
theorem State.endCmd_spec (s : State) (f k status progress total : Nat) (resp : List Byte) :
    ∃ fns, s.endCmd f k status progress total resp = State.draw { s with fns := fns } 512 ∧
      (∀ j, ((s.endCmd f k status progress total resp).fn f).slot j =
        if j = k then ((s.fn f).slot k).finish s.free status progress total resp else (s.fn f).slot j) ∧
      ((s.endCmd f k status progress total resp).fn f).raised = (s.fn f).raised ++ ((s.fn f).slot k).notifies ∧
      ∀ g, g ≠ f → (s.endCmd f k status progress total resp).fn g = s.fn g := by
  have hslot (j : Nat) := s.slot_setSlot f k j (((s.fn f).slot k).finish s.free status progress total resp)
  have hfn (g : Nat) (hg : g ≠ f) : (s.setSlot f k (((s.fn f).slot k).finish s.free status progress total resp)).fn g = s.fn g :=
    (State.fn_setFn ..).trans (if_neg hg)
  unfold State.endCmd Slot.notifies
  dsimp only
  split
  · refine ⟨_, rfl, fun j => ?_, ?_, fun g hg => ?_⟩
    · exact (State.slot_raiseVector ..).trans (hslot j)
    · simp [State.fn_raiseVector, State.setSlot, Fn.setSlot]
    · exact (State.fn_raiseVector ..).trans ((if_neg hg).trans (hfn g hg))
  · exact ⟨_, rfl, hslot, by simp [State.setSlot, Fn.setSlot], hfn⟩

/-- Settles O9: what the end of a command writes in its slot, and what else it changes. -/
theorem endOfCommandWritesTheSlot : Obligations.EndOfCommandWritesTheSlot := by
  unfold Obligations.EndOfCommandWritesTheSlot
  intro s f k status progress total resp hlen
  obtain ⟨fns, hrest, hslot, hraised, hfns⟩ := s.endCmd_spec f k status progress total resp
  obtain ⟨hended, hprogress, htotal, hkept⟩ := ((s.fn f).slot k).finish_ended s.free status progress total hlen
  rw [hslot k, if_pos rfl]
  refine ⟨hended, hprogress, htotal, hkept, fun j hj => (hslot j).trans (if_neg hj), hfns, hraised, ?_, ?_, ?_⟩ <;> rw [hrest] <;> rfl

/-! ## Changes of one function -/

theorem State.onlyFn_setFn (s : State) (f : Nat) (x : Fn) : s.OnlyFn (s.setFn f x) f x where
  rest := rfl
  at_ := s.fn_setFn_same f x
  others _ hg := (s.fn_setFn ..).trans (if_neg hg)

theorem State.OnlyFn.trans {s t u : State} {f : Nat} {x y : Fn} (hst : s.OnlyFn t f x) (htu : t.OnlyFn u f y) : s.OnlyFn u f y where
  rest := by rw [htu.rest, hst.rest]
  at_ := htu.at_
  others g hg := (htu.others g hg).trans (hst.others g hg)

/-- A second write of the same function counts alone. -/
theorem State.onlyFn_setFn_setFn (s : State) (f : Nat) (x y : Fn) : s.OnlyFn ((s.setFn f x).setFn f y) f y :=
  (s.onlyFn_setFn f x).trans (State.onlyFn_setFn _ f y)

/-! ## The event vector (R353) -/

theorem State.setCause_of_set {s : State} {f k : Nat} (h : (s.fn f).intStatus.getLsbD k = true) : s.setCause f k = s := by
  simp [State.setCause, h]

theorem State.setCause_of_clear {s : State} {f k : Nat} (h : (s.fn f).intStatus.getLsbD k = false) :
    s.OnlyFn (s.setCause f k) f { s.fn f with
      intStatus := (s.fn f).intStatus ||| BitVec.ofNat 3 (2 ^ k)
      raised := (s.fn f).raised ++ (if (s.fn f).intMask.getLsbD k then [] else [(s.fn f).eventVector.toNat]) } := by
  unfold State.setCause
  simp only [h, Bool.false_eq_true, if_false]
  split
  · simpa using s.onlyFn_setFn f { s.fn f with intStatus := (s.fn f).intStatus ||| BitVec.ofNat 3 (2 ^ k) }
  · simpa [State.raiseVector] using s.onlyFn_setFn_setFn f { s.fn f with intStatus := (s.fn f).intStatus ||| BitVec.ofNat 3 (2 ^ k) } _

theorem State.setCause_intStatus (s : State) (f : Nat) {k : Nat} (hk : k < 3) : ((s.setCause f k).fn f).intStatus.getLsbD k = true := by
  by_cases h : (s.fn f).intStatus.getLsbD k = true
  · rw [State.setCause_of_set h, h]
  · rw [(State.setCause_of_clear (Bool.eq_false_iff.mpr h)).at_]
    rw [BitVec.getLsbD_or, BitVec.getLsbD_ofNat, Nat.testBit_two_pow_self]
    simp [hk]

/-- Whether a new mask lets a cause through that the old one held back. -/
theorem unmasks_iff (mask status : BitVec 3) (v : BitVec 32) :
    mask &&& ~~~BitVec.ofNat 3 v.toNat &&& status = 0 ↔
      ∀ k, k < 3 → mask.getLsbD k = true → v.getLsbD k = false → status.getLsbD k = false := by
  have hbit (k : Nat) (hk : k < 3) : (mask &&& ~~~BitVec.ofNat 3 v.toNat &&& status).getLsbD k =
      (mask.getLsbD k && !v.getLsbD k && status.getLsbD k) := by
    simp [hk]
  refine ⟨fun h k hk hm hvk => ?_, fun h => BitVec.eq_of_getLsbD_eq fun k hk => ?_⟩
  · have := hbit k hk
    rw [h, hm, hvk] at this
    simpa using this.symm
  · rw [hbit k hk]
    have := h k hk
    cases hm : mask.getLsbD k <;> cases hvk : v.getLsbD k <;> simp_all

theorem exec_intMaskWrite {s : State} {f : FnId} (hf : s.fnPresent f = true) (v : BitVec 32) : exec (.intMaskWrite f v) s = .next (s.writeMask f v) := by
  change execIntMaskWrite f v s = _
  simp [execIntMaskWrite, hf]

/-- Settles O10: a cause that was set stays as it is, one that was clear is set, and a mask write raises the vector when it unmasks a cause. -/
theorem eventVectorIsRaisedOnNewCauses : Obligations.EventVectorIsRaisedOnNewCauses := by
  refine ⟨fun s f k _ h => State.setCause_of_set h, fun s f k hk h => ⟨State.setCause_of_clear h, s.setCause_intStatus f hk⟩, fun s f v hf => ?_⟩
  refine ⟨_, exec_intMaskWrite hf v, fun ⟨k, hk, hm, hv, hs⟩ => ?_, fun h => ?_⟩
  · have hun : ¬(s.fn f).intMask &&& ~~~BitVec.ofNat 3 v.toNat &&& (s.fn f).intStatus = 0 := fun h0 =>
      absurd ((unmasks_iff ..).mp h0 k hk hm hv) (by simp [hs])
    unfold State.writeMask
    dsimp only
    rw [if_neg hun]
    simpa [State.raiseVector] using s.onlyFn_setFn_setFn f { s.fn f with intMask := BitVec.ofNat 3 v.toNat } _
  · unfold State.writeMask
    dsimp only
    rw [if_pos ((unmasks_iff ..).mpr h)]
    exact s.onlyFn_setFn f _

/-! ## Requests of a vector (R355) -/

theorem exec_vectorRequest {s : State} {f : FnId} {v : Fin 32} (h : v.val ∈ (s.fn f).raised) :
    exec (.vectorRequest f v) s = .next ((s.setFn f { s.fn f with raised := (s.fn f).raised.erase v.val }).requestVector f v) := by
  change execVectorRequest f v s = _
  simp [execVectorRequest, h]

/-- A message leaves with the entry's address and data (step 5). -/
theorem State.sendVector_of_open {s : State} {f v : Nat} (hon : (s.fn f).msixOn = true) (hopen : (s.fn f).vecMasked v = false) :
    s.sendVector f v = (s.setFn f { s.fn f with
      pba := (s.fn f).pba &&& ~~~(BitVec.ofNat 32 (2 ^ v)), waiting := (s.fn f).waiting &&& ~~~(BitVec.ofNat 32 (2 ^ v))
      lastSent := Tab.set none (s.fn f).lastSent v (some s.now) }).emit (.msix f v (Tab.get {} (s.fn f).msix v).addr (Tab.get {} (s.fn f).msix v).data) := by
  simp [State.sendVector, hon, hopen]

theorem State.advanceVector_of_masked {s : State} {f v : Nat} (h : (s.fn f).vecMasked v = true) :
    s.advanceVector f v = s.setFn f { s.fn f with pba := (s.fn f).pba ||| BitVec.ofNat 32 (2 ^ v) } := by
  simp [State.advanceVector, h]

theorem State.advanceVector_of_held {s : State} {f v : Nat} (hopen : (s.fn f).vecMasked v = false) (hwait : (s.fn f).waiting.getLsbD v = false)
    (hheld : s.heldOff f v = true) : s.advanceVector f v = s.setFn f { s.fn f with waiting := (s.fn f).waiting ||| BitVec.ofNat 32 (2 ^ v) } := by
  simp [State.advanceVector, hopen, hwait, hheld]

theorem State.advanceVector_of_free {s : State} {f v : Nat} (hopen : (s.fn f).vecMasked v = false) (hwait : (s.fn f).waiting.getLsbD v = false)
    (hheld : s.heldOff f v = false) : s.advanceVector f v = s.sendVector f v := by
  simp [State.advanceVector, hopen, hwait, hheld]

theorem State.OnlyFn.emit {s t : State} {f : Nat} {x : Fn} (h : s.OnlyFn t f x) (e : OutEvent) : (s.emit e).OnlyFn (t.emit e) f x where
  rest := by rw [h.rest]; rfl
  at_ := h.at_
  others := h.others

/-- Settles O14: the request is taken off, and steps 2 to 5 of R355 decide what comes of it. -/
theorem vectorRequestsFollowTheDeliverySteps : Obligations.VectorRequestsFollowTheDeliverySteps := by
  refine ⟨fun s f v hraised => ⟨_, exec_vectorRequest hraised, ?_⟩, fun s f v hwait hheld hon hopen => ?_⟩
  · have hfn := s.fn_setFn_same f { s.fn f with raised := (s.fn f).raised.erase v.val }
    have hheldEq : (s.setFn f { s.fn f with raised := (s.fn f).raised.erase v.val }).heldOff f v = s.heldOff f v := by simp [State.heldOff]
    have hmsix (h : (s.fn f).msixOn = true) : ((s.setFn f { s.fn f with raised := (s.fn f).raised.erase v.val }).fn f).msixOn = true := by rwa [hfn]
    have hmask (b : Bool) (h : (s.fn f).vecMasked v = b) : ((s.setFn f { s.fn f with raised := (s.fn f).raised.erase v.val }).fn f).vecMasked v = b := by rwa [hfn]
    have hwaits (h : (s.fn f).waiting.getLsbD v = false) :
        ((s.setFn f { s.fn f with raised := (s.fn f).raised.erase v.val }).fn f).waiting.getLsbD v = false := by rwa [hfn]
    refine ⟨fun hoff => ?_, fun hon hmasked => ?_, fun hon hopen hwait hheld => ?_, fun hon hopen hwait hheld => ?_⟩
    · rw [State.requestVector, if_neg (by rw [hfn]; exact Bool.eq_false_iff.mp hoff)]
      exact s.onlyFn_setFn f _
    · rw [State.requestVector, if_pos (hmsix hon), State.advanceVector_of_masked (hmask _ hmasked), hfn]
      exact s.onlyFn_setFn_setFn f _ _
    · rw [State.requestVector, if_pos (hmsix hon), State.advanceVector_of_held (hmask _ hopen) (hwaits hwait) (hheldEq.trans hheld), hfn]
      exact s.onlyFn_setFn_setFn f _ _
    · rw [State.requestVector, if_pos (hmsix hon), State.advanceVector_of_free (hmask _ hopen) (hwaits hwait) (hheldEq.trans hheld),
        State.sendVector_of_open (hmsix hon) (hmask _ hopen), hfn]
      exact (s.onlyFn_setFn_setFn f _ _).emit _
  · change execMsixHoldoffExpiry f v s = _
    rw [execMsixHoldoffExpiry, if_pos (by simp only [hwait, hheld, Bool.not_false, Bool.and_self]), State.sendVector_of_open hon hopen]

/-! ## The MSI-X table (R354) -/

/-- A fold whose every step would leave the state that it starts from leaves it. -/
theorem foldl_of_fixed {σ α : Type} {g : σ → α → σ} {l : List α} {s : σ} (h : ∀ a ∈ l, g s a = s) : l.foldl g s = s := by
  induction l with
  | nil => rfl
  | cons a l ih => rw [List.foldl_cons, h a List.mem_cons_self, ih fun b hb => h b (List.mem_cons_of_mem a hb)]

/-- What the release of pending vectors does with one of them. -/
def State.releaseVector (f : Nat) (s : State) (v : Nat) : State := if (s.fn f).pba.getLsbD v && !(s.fn f).vecMasked v then s.advanceVector f v else s

theorem State.releaseVector_of_not_pending {s : State} {f v : Nat} (h : (s.fn f).pba.getLsbD v = false) : s.releaseVector f v = s := by
  simp [State.releaseVector, h]

theorem State.unmasked_of_none {s : State} {f : Nat} (h : (s.fn f).pba = 0) : s.unmasked f = s :=
  foldl_of_fixed fun v _ => State.releaseVector_of_not_pending (by rw [h]; exact BitVec.getLsbD_zero)

/-- With one vector pending that may be sent, an unmask sends it alone. -/
theorem State.unmasked_of_one {s : State} {f : Nat} {v : Fin 32} (hpba : (s.fn f).pba = BitVec.ofNat 32 (2 ^ v.val)) (hon : (s.fn f).msixOn = true)
    (hopen : (s.fn f).vecMasked v = false) (hwait : (s.fn f).waiting.getLsbD v = false) (hheld : s.heldOff f v = false) :
    s.unmasked f = s.sendVector f v ∧ ((s.unmasked f).fn f).pba = 0 := by
  have hbit (u : Nat) : (s.fn f).pba.getLsbD u = decide (u = v.val) := by
    rw [hpba, BitVec.getLsbD_ofNat, Nat.testBit_two_pow]
    have := v.isLt
    by_cases hu : u = v.val
    · simp [hu]
    · simp [hu, Ne.symm hu]
  have hsent : ((s.sendVector f v).fn f).pba = 0 := by
    rw [State.sendVector_of_open hon hopen, State.fn_emit, State.fn_setFn_same, hpba]
    exact BitVec.eq_of_getLsbD_eq fun i hi => by simp [hi]
  have hat : s.releaseVector f v = s.sendVector f v := by
    rw [State.releaseVector, hbit, hopen, if_pos (by simp), State.advanceVector_of_free hopen hwait hheld]
  obtain ⟨before, after, hsplit, hv⟩ := List.eq_append_cons_of_mem (List.mem_range.mpr v.isLt)
  have hall : s.unmasked f = s.sendVector f v := by
    change (List.range 32).foldl (State.releaseVector f) s = _
    have hskip : before.foldl (State.releaseVector f) s = s :=
      foldl_of_fixed fun u hu => State.releaseVector_of_not_pending (by rw [hbit]; exact decide_eq_false fun e => hv (e ▸ hu))
    rw [hsplit, List.foldl_append, hskip, List.foldl_cons, hat]
    exact foldl_of_fixed fun u _ => State.releaseVector_of_not_pending (by rw [hsent]; exact BitVec.getLsbD_zero)
  exact ⟨hall, hall ▸ hsent⟩

theorem exec_msixTableWrite {s : State} {f : FnId} (hf : s.fnPresent f = true) {off : Nat} (hoff : off + 4 ≤ 512) (hal : off % 4 = 0) (w : BitVec 32) :
    exec (.msixTableWrite f off (leBytes 4 w.toNat)) s = .next ((s.writeMsix32 f off w.toNat).unmasked f) := by
  change execMsixTableWrite f off (leBytes 4 w.toNat) s = _
  have hw : leNat (leBytes 4 w.toNat) = w.toNat := (leNat_leBytes ..).trans (Nat.mod_eq_of_lt w.isLt)
  simp [execMsixTableWrite, State.writeMsix, hf, hal, leBytes_length, hoff, hw]

/-- A 32-bit write of part `k` of entry `v` of the table. -/
theorem State.writeMsix32_entry (s : State) (f : Nat) (v k w : Nat) (hk : k < 4) :
    s.writeMsix32 f (16 * v + 4 * k) w =
      s.setFn f { s.fn f with msix := Tab.set {} (s.fn f).msix v ((Tab.get {} (s.fn f).msix v).put k w) } := by
  have hv : (16 * v + 4 * k) / 16 = v := by omega
  have hpart : (16 * v + 4 * k) % 16 / 4 = k := by omega
  rw [State.writeMsix32, hv, hpart]

/-- With no vector pending a write of part `k` of entry `v` stores it and does nothing else. -/
theorem exec_msixTableWrite_entry {s : State} {f : FnId} (hf : s.fnPresent f = true) (hpba : (s.fn f).pba = 0) (v : Fin 32) {k : Nat} (hk : k < 4) (w : BitVec 32) :
    exec (.msixTableWrite f (16 * v.val + 4 * k) (leBytes 4 w.toNat)) s =
      .next (s.setFn f { s.fn f with msix := Tab.set {} (s.fn f).msix v.val ((Tab.get {} (s.fn f).msix v.val).put k w.toNat) }) := by
  rw [exec_msixTableWrite hf (by omega) (by omega), State.writeMsix32_entry s f v k w.toNat hk, State.unmasked_of_none]
  rw [State.fn_setFn_same]
  exact hpba

/-- Settles O15: each part of an entry is written by itself, an unmask sends what waits for it, and any other access is ignored. -/
theorem msixTableWritesStoreEntries : Obligations.MsixTableWritesStoreEntries := by
  refine ⟨fun s f v w hf hpba => ?_, fun s f v hf hpba hfunc hon hwait hheld => ?_, fun s f off data h4 h8 => ?_⟩
  · have hstored (k : Nat) (hk : k < 4) (t : State) (ht : t = s.setFn f { s.fn f with
        msix := Tab.set {} (s.fn f).msix v.val ((Tab.get {} (s.fn f).msix v.val).put k w.toNat) }) :
        (s.OnlyFn t f { s.fn f with msix := (t.fn f).msix } ∧ ∀ u, u ≠ v.val → Tab.get {} (t.fn f).msix u = Tab.get {} (s.fn f).msix u) ∧
          Tab.get {} (t.fn f).msix v = (Tab.get {} (s.fn f).msix v).put k w.toNat := by
      subst ht
      rw [State.fn_setFn_same]
      exact ⟨⟨s.onlyFn_setFn f _, fun u hu => Tab.get_set_other _ _ _ hu⟩, Tab.get_set_same ..⟩
    refine ⟨_, _, _, _, exec_msixTableWrite_entry hf hpba v (k := 0) (by decide) w, exec_msixTableWrite_entry hf hpba v (k := 1) (by decide) w,
      exec_msixTableWrite_entry hf hpba v (k := 2) (by decide) w, exec_msixTableWrite_entry hf hpba v (k := 3) (by decide) w, ?_, ?_, ?_, ?_, ?_⟩
    · rintro t (ht | ht | ht | ht)
      · exact (hstored 0 (by decide) t ht).1
      · exact (hstored 1 (by decide) t ht).1
      · exact (hstored 2 (by decide) t ht).1
      · exact (hstored 3 (by decide) t ht).1
    · exact (hstored 0 (by decide) _ rfl).2
    · exact (hstored 1 (by decide) _ rfl).2
    · rw [(hstored 2 (by decide) _ rfl).2, MsixEntry.put, BitVec.ofNat_toNat, BitVec.setWidth_eq]
    · exact (hstored 3 (by decide) _ rfl).2
  · have hexec := exec_msixTableWrite hf (off := 16 * v.val + 12) (by omega) (by omega) 0
    rw [s.writeMsix32_entry f v 3 _ (by decide)] at hexec
    have hfn := s.fn_setFn_same f { s.fn f with msix := Tab.set {} (s.fn f).msix v.val ((Tab.get {} (s.fn f).msix v.val).put 3 0) }
    obtain ⟨hsend, hpba'⟩ := State.unmasked_of_one
      (s := s.setFn f { s.fn f with msix := Tab.set {} (s.fn f).msix v.val ((Tab.get {} (s.fn f).msix v.val).put 3 0) }) (f := f) (v := v)
      (by rw [hfn]; exact hpba) (by rw [hfn]; exact hon) (by rw [hfn]; simp [Fn.vecMasked, hfunc, MsixEntry.put]) (by rw [hfn]; exact hwait)
      (by simpa [State.heldOff] using hheld)
    refine ⟨_, hexec, hpba', ?_⟩
    rw [show (0 : BitVec 32).toNat = 0 from rfl, hsend, State.sendVector_of_open (by rw [hfn]; exact hon) (by rw [hfn]; simp [Fn.vecMasked, hfunc, MsixEntry.put]), hfn]
    simp [State.emit, MsixEntry.put]
  · change execMsixTableWrite f off data s = _
    have h4' : (decide (data.length = 4) && decide (off % 4 = 0)) = false := by simpa using h4
    have h8' : (decide (data.length = 8) && decide (off % 8 = 0)) = false := by simpa using h8
    rw [execMsixTableWrite, State.writeMsix, h4', h8']
    simp

/-! ## The job doorbell (R534) -/

/-- The job doorbell of a VF in READY that no pair relays moves the tail or counts. -/
theorem exec_jobqDoorbell {s : State} {f : FnId} (hf : s.fnPresent f = true) (tail : BitVec 16) (hlead : (s.part (f.val - 1)).isLeader = false) :
    exec (.jobqDoorbell f tail) s = .next (s.jobTail f tail) := by
  change execJobqDoorbell f tail s = _
  simp [execJobqDoorbell, hf, hlead]

theorem State.jobTail_of_live {s : State} {f : Nat} (tail : BitVec 16) (hf : f ≠ 0) (hready : s.boot.state = .ready) (hlive : (s.part (f - 1)).isLive = true)
    (hfollow : (s.part (f - 1)).isFollower = false) (hring : (s.fn f).ringSet = true) : s.jobTail f tail = (s.takeTail f tail).getD (s.violate f) := by
  have hstate : ¬(s.boot.state ≠ .ready ∧ s.boot.state ≠ .test) := fun h => h.1 hready
  have hrights : (!(s.part (f - 1)).isLive || (s.part (f - 1)).isFollower || !(s.fn f).ringSet) = false := by simp [hlive, hfollow, hring]
  rw [State.jobTail, if_neg hf, if_neg hstate, hrights]
  cases s.takeTail f tail <;> rfl

/-- Settles O17: a tail in range moves the index and raises the source, any other counts, and PF0 has no ring. -/
theorem jobDoorbellMovesTheTail : Obligations.JobDoorbellMovesTheTail := by
  refine ⟨fun s f tail hf hready hne hlive hfollow hlead hring hnew => ⟨fun hin hnot => ?_, fun hout => ?_⟩, fun s tail => ?_⟩
  · rw [exec_jobqDoorbell hf tail hlead, State.jobTail_of_live tail (Fin.val_ne_zero_iff.mpr hne) hready hlive hfollow hring, State.takeTail, if_neg hnew,
      if_neg (by simpa using ⟨hin, hnot⟩), Option.getD_some]
  · rw [exec_jobqDoorbell hf tail hlead, State.jobTail_of_live tail (Fin.val_ne_zero_iff.mpr hne) hready hlive hfollow hring, State.takeTail, if_neg hnew,
      if_pos (by simpa using hout), Option.getD_none]
  · change execJobqDoorbell 0 tail s = _
    simp [execJobqDoorbell, State.jobTail, State.fnPresent_zero]

end Sys2Proof.Machine
end

section
/-! PROOFS. One step and one period of REFCLK (R222, R297, R324, R475, R552), and what stands after a cold reset (R499, R530). -/

namespace Sys2Proof.Machine

/-! ## Copies in the stacks (R222, R231) -/

/-- From `s` to `t` stacks, cellar and what Gysis keeps may have changed, but no level of a stack, no attic byte and nothing else of the module. -/
def State.StacksOnly (s t : State) : Prop :=
  (∃ mem hbm g, t = { s with mem := mem, hbm := hbm, gysis := g }) ∧ t.mem.attic = s.mem.attic ∧ ∀ r, (t.stack r).level = (s.stack r).level

theorem State.StacksOnly.refl (s : State) : s.StacksOnly s := ⟨⟨_, _, _, rfl⟩, rfl, fun _ => rfl⟩

theorem State.StacksOnly.trans {s t u : State} : s.StacksOnly t → t.StacksOnly u → s.StacksOnly u := by
  rintro ⟨⟨_, _, _, rfl⟩, hattic, hlevel⟩ ⟨⟨mem, hbm, g, rfl⟩, hattic', hlevel'⟩
  exact ⟨⟨mem, hbm, g, rfl⟩, hattic'.trans hattic, fun r => (hlevel' r).trans (hlevel r)⟩

theorem State.stacksOnly_setStack (s : State) {r : Nat} {x : Stack} (h : x.level = (s.stack r).level) : s.StacksOnly (s.setStack r x) := by
  refine ⟨⟨_, _, _, rfl⟩, rfl, fun q => ?_⟩
  rw [State.stack_setStack]
  split
  next hq => rw [h, hq]
  next => rfl

theorem State.stacksOnly_gysis {s t : State} (h : t = { s with gysis := t.gysis }) : s.StacksOnly t := by
  rw [h]
  exact ⟨⟨_, _, _, rfl⟩, rfl, fun _ => rfl⟩

/-- A decision that sets no flag is only entered. -/
theorem State.stacksOnly_decided (s : State) (code level kind : Nat) (irq : Bool) (room unit wher count : Nat) :
    s.StacksOnly (s.decided code level kind irq false false room unit wher count) := State.stacksOnly_gysis rfl

theorem State.stacksOnly_lostFull (s : State) (r : Nat) : s.StacksOnly (s.lostFull r) := by
  unfold State.lostFull
  extract_lets x c
  split
  · exact (State.stacksOnly_gysis (State.raise_rest s _)).trans (State.stacksOnly_gysis (State.note_eq _ _ _))
  · exact .refl s

theorem State.stacksOnly_loseLine (s : State) (r line : Nat) : s.StacksOnly (s.loseLine r line) := by
  unfold State.loseLine
  extract_lets x
  split
  · exact .refl s
  split
  · exact (s.stacksOnly_setStack (r := r) (x := { x with lost := x.lost ++ [line] }) rfl).trans (State.stacksOnly_decided ..)
  · exact s.stacksOnly_lostFull r

theorem State.stacksOnly_writeBack (s : State) (r line : Nat) : s.StacksOnly (s.writeBack r line) := by
  unfold State.writeBack
  extract_lets bad x counters s1 t
  have hs1 : s.StacksOnly s1 := s.stacksOnly_setStack rfl
  have ht : s1.StacksOnly t := by
    unfold t
    split
    · exact s1.stacksOnly_loseLine r line
    · exact .refl s1
  exact (hs1.trans ht).trans ⟨⟨_, _, _, rfl⟩, rfl, fun _ => rfl⟩

theorem State.stacksOnly_copyLines (s : State) (r : Nat) : s.StacksOnly (s.copyLines r) := by
  unfold State.copyLines
  extract_lets x
  split
  · exact .refl s
  split
  · exact s.stacksOnly_setStack rfl
  · extract_lets lo hi
    exact (foldl_inv (fun t => s.StacksOnly t) (fun t l ht => ht.trans (t.stacksOnly_writeBack r l)) _ s (.refl s)).trans (State.stacksOnly_setStack _ rfl)

theorem State.copyLines_of_none {s : State} {r : Nat} (h : (s.stack r).pcCopy = none) : s.copyLines r = s := by
  simp [State.copyLines, h]

/-! ## Watchdogs (R297) -/

theorem State.ownerOf_congr {s t : State} (h : t.parts = s.parts) (r : Nat) : t.ownerOf r = s.ownerOf r := by
  unfold State.ownerOf State.part
  rw [h]

theorem State.countAclk_of_idle {s : State} {r : Nat} (h : s.blockCounts r = false) : s.countAclk r = s := by
  simp [State.countAclk, h]

theorem State.room_countAclk (s : State) (r q : Nat) : (s.countAclk r).room q =
    if q = r ∧ s.blockCounts r = true then { s.room r with block := (s.room r).block.map (fun b => { b with aclk := b.aclk + s.aclkPerTick r }) }
    else s.room q := by
  unfold State.countAclk
  dsimp only
  split
  next h => simp [State.room_setRoom, h]
  next h => simp [h]

/-- What a room's watchdog depends on besides its room: partitions, clocks, clamps, the DRBG and the levels of the stacks. -/
structure State.SameClocking (s t : State) : Prop where
  parts : t.parts = s.parts
  clocks : t.clocks = s.clocks
  power : t.power = s.power
  sec : t.sec = s.sec
  level : ∀ r, (t.stack r).level = (s.stack r).level

theorem State.SameClocking.blockCounts {s t : State} (h : s.SameClocking t) {r : Nat} (hr : t.room r = s.room r) : t.blockCounts r = s.blockCounts r := by
  have hpart (p : Nat) : t.part p = s.part p := by unfold State.part; rw [h.parts]
  unfold State.blockCounts State.hotRoom State.hotStack
  simp only [hr, h.sec, State.ownerOf_congr h.parts, hpart, h.level]

theorem State.SameClocking.aclkPerTick {s t : State} (h : s.SameClocking t) {r : Nat} (hr : t.room r = s.room r) : t.aclkPerTick r = s.aclkPerTick r := by
  have hpart (p : Nat) : t.part p = s.part p := by unfold State.part; rw [h.parts]
  unfold State.aclkPerTick State.edgesOf8 State.clamped State.clk
  simp only [hr, h.power, h.clocks, State.ownerOf_congr h.parts, hpart]

/-- What one period leaves in a room (R297): a watchdog that counts has advanced. -/
def State.ticked (s : State) (r : Nat) : Room :=
  if s.blockCounts r then { s.room r with block := (s.room r).block.map (fun b => { b with aclk := b.aclk + s.aclkPerTick r }) } else s.room r

/-- From `s` to `t` the period has passed in the rooms below `n`. -/
structure State.TickedBelow (s t : State) (n : Nat) : Prop where
  rest : ∃ mem hbm g rooms, t = { s with mem := mem, hbm := hbm, gysis := g, rooms := rooms }
  attic : t.mem.attic = s.mem.attic
  level : ∀ r, (t.stack r).level = (s.stack r).level
  room : ∀ r, t.room r = if r < n then s.ticked r else s.room r

theorem State.TickedBelow.sameClocking {s t : State} {n : Nat} (h : s.TickedBelow t n) : s.SameClocking t := by
  obtain ⟨⟨_, _, _, _, rfl⟩, _, hlevel, _⟩ := h
  exact ⟨rfl, rfl, rfl, rfl, hlevel⟩

theorem State.TickedBelow.next {s t : State} {n : Nat} (h : s.TickedBelow t n) : s.TickedBelow ((t.copyLines n).countAclk n) (n + 1) := by
  obtain ⟨hcopy, hattic, hlevel⟩ := t.stacksOnly_copyLines n
  have hroom (r : Nat) : (t.copyLines n).room r = t.room r := by
    obtain ⟨_, _, _, hu⟩ := hcopy
    rw [hu]
    rfl
  have hn : t.room n = s.room n := by rw [h.room, if_neg (lt_irrefl n)]
  have hclock : s.SameClocking (t.copyLines n) := by
    obtain ⟨hparts, hclocks, hpower, hsec, hlev⟩ := h.sameClocking
    obtain ⟨_, _, _, hu⟩ := hcopy
    refine ⟨?_, ?_, ?_, ?_, fun r => (hlevel r).trans (hlev r)⟩ <;> rw [hu] <;> assumption
  have hcounts := hclock.blockCounts ((hroom n).trans hn)
  have htick := hclock.aclkPerTick ((hroom n).trans hn)
  have hcount : ∃ rooms, (t.copyLines n).countAclk n = { t.copyLines n with rooms := rooms } := by
    unfold State.countAclk
    dsimp only
    split <;> exact ⟨_, rfl⟩
  obtain ⟨rooms, hv⟩ := hcount
  refine ⟨?_, ?_, fun r => ?_, fun r => ?_⟩
  · obtain ⟨⟨_, _, _, _, ht⟩, -⟩ := h
    obtain ⟨mem, hbm, g, hu⟩ := hcopy
    refine ⟨mem, hbm, g, rooms, ?_⟩
    rw [hv, hu, ht]
  · rw [hv]
    exact hattic.trans h.attic
  · rw [hv]
    exact (hlevel r).trans (h.level r)
  · rw [State.room_countAclk, hcounts, htick, hroom, hroom, hn, h.room]
    by_cases hr : r = n
    · subst hr
      simp [State.ticked]
    · rw [if_neg (fun hc => hr hc.1)]
      exact if_congr (by omega) rfl rfl

theorem State.tick_tickedBelow (s : State) : ∃ t, s.TickedBelow t 16 ∧ s.tick = { t with now := t.now + 10 } := by
  refine ⟨_, ?_, rfl⟩
  suffices h : ∀ n, s.TickedBelow ((List.range n).foldl (fun u r => (u.copyLines r).countAclk r) s) n from h 16
  intro n
  induction n with
  | zero => exact ⟨⟨_, _, _, _, rfl⟩, rfl, fun _ => rfl, fun r => (if_neg (Nat.not_lt_zero r)).symm⟩
  | succ n ih =>
    rw [List.range_succ, List.foldl_append]
    exact ih.next

/-- Settles O1: the front command runs, and on an empty queue a period of REFCLK passes room by room. -/
theorem stepRunsFrontCommand : Obligations.StepRunsFrontCommand := by
  refine ⟨fun c rest s h => ?_, fun s hnone hidle => ?_, fun s hnone => ?_⟩
  · simp only [step, h]
  · have hfixed : (List.range 16).foldl (fun u r => (u.copyLines r).countAclk r) s = s := foldl_of_fixed fun r hr => by
      obtain ⟨hcount, hcopy⟩ := hidle r (List.mem_range.mp hr)
      rw [State.copyLines_of_none hcopy, State.countAclk_of_idle hcount]
    simp only [step, hnone, State.tick, State.passTick, hfixed]
  · obtain ⟨t, ht, htick⟩ := s.tick_tickedBelow
    obtain ⟨⟨mem, hbm, g, rooms, hrest⟩, hattic, -, hroom⟩ := ht
    refine ⟨_, by simp only [step, hnone]; rfl, ?_, ?_, ?_, ?_, fun r hr hcount => ?_, fun r b hr hcount hblock => ?_⟩
    · rw [htick, hrest]
    · rw [htick, hrest]
      exact hnone
    · rw [htick, hrest]
    · rw [htick]
      exact hattic
    · rw [htick]
      exact (hroom r).trans (by simp [hr, State.ticked, hcount])
    · have h : s.tick.room r = s.ticked r := by
        rw [htick]
        exact (hroom r).trans (if_pos hr)
      simp [h, State.ticked, hcount, hblock]

/-! ## Reset (R499, R530) -/

/-- Settles O3: no address is listed at reset. -/
theorem resetMemoryIsCanonical : Obligations.ResetMemoryIsCanonical := ⟨rfl, rfl, fun _ _ => ⟨rfl, rfl⟩⟩

theorem State.reset_fn (f : Nat) : State.reset.fn f = {} := rfl

/-- Settles O4: every table of the reset state is empty, so that each entry has its reset value. -/
theorem resetLeavesSpecValues : Obligations.ResetLeavesSpecValues := by
  refine ⟨rfl, rfl, rfl, fun _ => rfl, fun f k => ⟨rfl, fun i hi => ?_⟩, fun _ => ⟨rfl, rfl, rfl, fun _ => rfl, fun _ => rfl⟩, fun _ => rfl⟩
  rw [State.reset_fn]
  have hopen : ¬512 ≤ i := Nat.not_le.mpr hi
  simp [Fn.slot, Slot.byte, Tab.get, hopen]

end Sys2Proof.Machine
end

section
/-! PROOFS. Short mailbox commands (R37, R235, R291, R304, R316, R331, R335, R337, R338, R422, R423, R435, R467, R486, R499, R527, R533): programs, host buffers and rings,
the ledger, breaks, queries and settings. -/

namespace Sys2Proof.Machine

/-! ## Commands that end with OK -/

/-- A command whose check passes and whose effect is `t` ends with OK. -/
theorem State.runCmd_of_check {s t : State} {f k op : Nat} (h : s.runs f k op) {check : Req → Nat} {eff : Req → State} {resp : Req → List Byte} {r : List Byte}
    (hcheck : check (s.cmd f k) = 0) (heff : eff (s.cmd f k) = t) (hresp : resp (s.cmd f k) = r) :
    s.runCmd f k (isOp op) (fun q => if check q ≠ stOk then .fail s (check q) else .ok (eff q) (resp q)) = t.endCmd f k 0 0 0 r := by
  refine State.runCmd_of_ok h ?_
  rw [if_neg (fun hne => hne hcheck), heff, hresp]

/-! ## Programs, host buffers and rings (R291, R304, R331) -/

/-- Reading whole lines of a stack changes counters of the stack alone (R230, R241). -/
theorem State.cellarRead_hbm (s : State) (r off n : Nat) : ∃ b, (s.cellarRead r off n).1 = { s with hbm := b } := by
  unfold State.cellarRead
  dsimp only
  split <;> exact ⟨_, rfl⟩

theorem State.fwRead_hbm {s t : State} {p room off n : Nat} {d : Option (List Byte)} (h : s.fwRead p room off n = (t, d)) : ∃ b, t = { s with hbm := b } := by
  obtain ⟨b, hb⟩ := s.cellarRead_hbm ((s.part p).rooms.getD room 0) off n
  exact ⟨b, by rw [← hb]; exact (congrArg Prod.fst h).symm⟩

/-- A container that is accepted has been read without any change but to the stacks' counters (R291). -/
theorem readProgram_accepts {s t : State} {p : Nat} {q : Req} {g : Program} (h : readProgram s p q = (t, 0, some g)) : ∃ b, t = { s with hbm := b } := by
  unfold readProgram at h
  extract_lets x home at h
  split at h
  · cases h
  split at h
  · cases h
  next u hd hread =>
    obtain ⟨b, rfl⟩ := State.fwRead_hbm hread
    extract_lets minRooms plans n at h
    split at h
    · cases h
    split at h
    · extract_lets ls res now at h
      split at h
      · cases h
      split at h
      · cases h
      split at h
      next v c hbody =>
        obtain ⟨c, rfl⟩ := State.fwRead_hbm hbody
        simp only [Prod.mk.injEq] at h
        exact ⟨c, h.1.symm⟩
      · cases h
    · cases h

/-- The partition with a program under the lowest free handle (R291). -/
def Part.withProgram (x : Part) (g : Program) : Part := { x with programs := Tab.set none x.programs (lowestFree x.programs 1 64) (some g) }

theorem exec_programLoad_of_read {s t : State} {f : FnId} {k : SlotId} {g : Program} {x : Part} (hruns : s.runs f k 0x0301)
    (hcool : s.hotStack (f.val - 1) = false) (hread : readProgram s (f.val - 1) (s.cmd f k) = (t, 0, some g)) (hx : t.part (f.val - 1) = x) :
    exec (.programLoad f k) s = .next (((t.setPart (f.val - 1) (x.withProgram g)).forward (f.val - 1) 0x0301 (s.cmd f k).body).endCmd f k 0
      (2 ^ 31 + ceilDiv g.bodyBytes 1024) (ceilDiv g.bodyBytes 1024) (leBytes 4 (lowestFree x.programs 1 64))) := by
  subst hx
  refine congrArg _ (State.runCmd_of_ended hruns ?_)
  dsimp only
  rw [if_neg (by rw [hcool]; decide), hread]
  rfl

/-- Settles O25: what each of the five commands leaves, by the check that passes. -/
theorem programsAndBuffersAreKeptByHandle : Obligations.ProgramsAndBuffersAreKeptByHandle := by
  refine ⟨fun s t f k g hruns hcool hread => ?_, fun s f k hruns hcheck => ?_, fun s f k hruns hcheck => ?_, fun s f k hruns hcheck => ?_,
    fun s f k hruns hring hidle hstill => ?_⟩
  · obtain ⟨b, ht⟩ := readProgram_accepts hread
    refine ⟨_, exec_programLoad_of_read hruns hcool hread (x := s.part (f.val - 1)) (by rw [ht]; rfl), ?_⟩
    have hpart (y : Part) : ((t.setPart (f.val - 1) y).forward (f.val - 1) 0x0301 (s.cmd f k).body).part (f.val - 1) = y := by
      rw [State.forward_rest]
      exact State.part_setPart_same ..
    refine ⟨?_, fun h hh => ?_, ?_, ?_, ?_⟩
    · rw [hpart, Part.withProgram, Tab.get_set_same]
    · rw [hpart, Part.withProgram, Tab.get_set_other _ _ _ hh]
    all_goals rw [State.forward_rest, ht]; rfl
  · exact congrArg _ (State.runCmd_of_check (check := fun q => checkUnload s (f.val - 1) false q) hruns hcheck rfl rfl)
  · exact congrArg _ (State.runCmd_of_check (check := fun q => checkHostBuf s f q) hruns hcheck rfl rfl)
  · exact congrArg _ (State.runCmd_of_check (check := fun q => checkBufRelease s f false q) hruns hcheck rfl rfl)
  · have hcheck : checkRingSet s f false (s.cmd f k) = 0 := by simp [checkRingSet, inStack, hring, hidle, hstill, stOk]
    exact congrArg _ (State.runCmd_of_check (check := fun q => checkRingSet s f false q) hruns hcheck rfl rfl)

/-! ## The ledger (R337, R338, R467) -/

/-- What follows the writing of an entry touches functions and interrupt sources alone (R352, R470). -/
theorem State.writeEntry_spec (s : State) (e : LedgerEntry) :
    (s.writeEntry e).gysis.ledger = { s.gysis.ledger with
      w := s.gysis.ledger.w + 1
      lost := if 16384 ≤ s.gysis.ledger.w && s.gysis.ledger.d ≤ s.gysis.ledger.w - 16384 then satInc s.gysis.ledger.lost else s.gysis.ledger.lost
      entries := Tab.set none s.gysis.ledger.entries (s.gysis.ledger.w % 16384) (some e) } ∧
    (s.writeEntry e).mem = s.mem ∧ (s.writeEntry e).rooms = s.rooms ∧ (s.writeEntry e).parts = s.parts := by
  have hcause (u : State) (c : Bool) : ∃ fns, (if c then u.setCause 0 2 else u) = { u with fns := fns } := by
    unfold State.setCause
    dsimp only
    split
    · split
      · exact ⟨_, rfl⟩
      · split <;> exact ⟨_, rfl⟩
    · exact ⟨_, rfl⟩
  unfold State.writeEntry
  extract_lets l lost gysis t u
  obtain ⟨fns, hu⟩ := hcause u (e.cls.getLsbD 4)
  have ht : u.gysis.ledger = t.gysis.ledger ∧ u.mem = t.mem ∧ u.rooms = t.rooms ∧ u.parts = t.parts := by
    unfold u
    split
    · rw [State.raise_rest, State.raise_gysis]
      exact ⟨rfl, rfl, rfl, rfl⟩
    · exact ⟨rfl, rfl, rfl, rfl⟩
  rw [hu]
  exact ht

/-- Settles O26: the entry that is written, the cursor that a drain moves, and the counts. -/
theorem ledgerKeepsOrderAndLoss : Obligations.LedgerKeepsOrderAndLoss := by
  refine ⟨fun s e rest htodo => ?_, fun s k hruns hlo hhi => ?_, fun s k hruns => congrArg _ (State.runCmd_of_ok hruns rfl)⟩
  · have hexec : exec .ledgerWrite s = .next (State.writeEntry { s with gysis := { s.gysis with ledger := { s.gysis.ledger with todo := rest } } } e) := by
      change execLedgerWrite s = _
      rw [execLedgerWrite, htodo]
    obtain ⟨hledger, hmem, hrooms, hparts⟩ := State.writeEntry_spec { s with gysis := { s.gysis with ledger := { s.gysis.ledger with todo := rest } } } e
    refine ⟨_, hexec, ?_⟩
    rw [hledger]
    dsimp only
    exact ⟨rfl, rfl, Tab.get_set_same .., fun i hi => Tab.get_set_other none _ _ hi, rfl, by simp, hmem, hrooms, hparts⟩
  · have hcheck : checkDrain (s.cmd 0 k) = 0 := by simp [checkDrain, hlo, hhi, stOk]
    refine ⟨fun hack => ?_, fun hack => ?_⟩
    · exact congrArg _ (State.runCmd_of_check (check := checkDrain) hruns hcheck (if_neg (by rw [hack]; decide)) rfl)
    · exact congrArg _ (State.runCmd_of_check (check := checkDrain) hruns hcheck (if_pos hack) rfl)

/-! ## Breaks (R316, R527) -/

/-- Settles O27: the break that is armed, cleared or hit, and how a stopped room goes on. -/
theorem breaksStopAndReleaseRooms : Obligations.BreaksStopAndReleaseRooms := by
  refine ⟨fun s k hruns hcheck => ⟨fun hcount => ?_, fun htag => ?_⟩, fun s k hruns hroom => ?_, fun s r htest howner hgoing hmeets => ?_,
    fun s k hruns hroom hstopped hfresh => ?_, fun s k hruns hroom hstopped => ?_⟩
  · exact congrArg _ (State.runCmd_of_check (check := checkBreakSet s) hruns hcheck (by rw [Breaks.with_, if_pos hcount]) rfl)
  · exact congrArg _ (State.runCmd_of_check (check := checkBreakSet s) hruns hcheck (by rw [Breaks.with_, if_neg (by rw [htag]; decide)]) rfl)
  · exact congrArg _ (State.runCmd_of_check (check := checkBreakRoom s) hruns (if_pos hroom) rfl rfl)
  · change execBreakHit r s = _
    simp [execBreakHit, htest, Option.isNone_eq_false_iff.mpr howner, hgoing, hmeets]
  · have hcheck : checkStopped s (s.cmd 0 k) = 0 := by simp [checkStopped, hroom, hstopped, stOk]
    exact congrArg _ (State.runCmd_of_check (check := checkStopped s) hruns hcheck (if_neg (by rw [hfresh]; decide)) rfl)
  · have hcheck : checkStopped s (s.cmd 0 k) = 0 := by simp [checkStopped, hroom, hstopped, stOk]
    exact congrArg _ (State.runCmd_of_check (check := checkStopped s) hruns hcheck rfl rfl)

/-! ## Key sets (R91, R331, R332) -/

/-- A key set that is accepted has been read without any change but to the stacks' counters (R332). -/
theorem readKeyset_accepts {s t : State} {p : Nat} {busy : Bool} {q : Req} {ks : KeySet} (h : readKeyset s p busy q = (t, 0, some ks)) :
    ∃ b, t = { s with hbm := b } := by
  unfold readKeyset at h
  extract_lets x id room off at h
  split at h
  · cases h
  split at h
  · cases h
  next u hd hread =>
    obtain ⟨b, rfl⟩ := State.fwRead_hbm hread
    extract_lets n at h
    split at h
    · cases h
    split at h
    · cases h
    next v d hbody =>
      obtain ⟨c, rfl⟩ := State.fwRead_hbm hbody
      split at h
      · cases h
      split at h
      · cases h
      split at h
      · cases h
      split at h
      · cases h
      · simp only [Prod.mk.injEq] at h
        exact ⟨c, h.1.symm⟩

/-- Rooms that change by what they are themselves: nothing else of the module does. -/
theorem State.mapRooms_only (s : State) (l : List Nat) (g : Room → Room) : ∃ rooms, s.mapRooms l g = { s with rooms := rooms } :=
  foldl_inv (fun t : State => ∃ rooms, t = { s with rooms := rooms }) (fun t r ht => by obtain ⟨rooms, rfl⟩ := ht; exact ⟨_, rfl⟩) l s ⟨_, rfl⟩

/-- Rooms that each change in a way that a second time adds nothing. -/
theorem State.mapRooms_room_of_twice (s : State) (l : List Nat) {g : Room → Room} (hg : ∀ x, g (g x) = g x) (q : Nat) :
    (s.mapRooms l g).room q = if q ∈ l then g (s.room q) else s.room q :=
  State.room_foldl (step := fun t room => t.setRoom room (g (t.room room))) (f := fun _ => g) (fun t r q => t.room_setRoom r q (g (t.room r))) (fun _ => hg) l s q

/-- A room in which the twiddle sets of a key set have been written anew (R91). -/
def Room.rewritten (id : Nat) (x : Room) : Room := { x with badTwiddle := x.badTwiddle.filter (·.1 != id) }

theorem Room.rewritten_twice (id : Nat) (x : Room) : (x.rewritten id).rewritten id = x.rewritten id := by
  simp [Room.rewritten]

theorem State.activate_eq {s : State} {p id : Nat} {ks : KeySet} (h : (s.part p).keyset id = some ks) :
    s.activate p id = (s.setPart p ((s.part p).setKeyset id (some { ks with active := true }))).mapRooms (s.part p).rooms (Room.rewritten id) := by
  simp only [State.activate, h]
  rfl

theorem State.room_forward (s : State) (p op : Nat) (body : List Byte) (q : Nat) : (s.forward p op body).room q = s.room q := by
  rw [State.forward_rest]
  rfl

theorem State.part_forward (s : State) (p op : Nat) (body : List Byte) (q : Nat) : (s.forward p op body).part q = s.part q := by
  rw [State.forward_rest]
  rfl

/-- Settles O21: a registration reads and stores, an activation makes the twiddle sets valid, and a release forgets the key set. -/
theorem keySetsAreRegisteredAndReleased : Obligations.KeySetsAreRegisteredAndReleased := by
  refine ⟨fun s t f k ks hruns hcool hread => ?_, fun s f k ks hruns hks hspace => ?_, fun s f k ks hruns hks hidle hempty => ?_⟩
  · obtain ⟨b, ht⟩ := readKeyset_accepts hread
    have hpart (p : Nat) : t.part p = s.part p := by rw [ht]; rfl
    refine ⟨(t.setPart (f.val - 1) ((s.part (f.val - 1)).setKeyset ((s.cmd f k).field 0 2) (some ks))).forward (f.val - 1) 0x0201 (s.cmd f k).body,
      congrArg _ (State.runCmd_of_ok hruns ?_), ?_, ?_, ?_, ?_, fun p hp => ?_⟩
    · rw [if_neg (by rw [hcool]; decide), hread, ← hpart]
      rfl
    · rw [State.forward_rest, ht]; rfl
    · rw [State.forward_rest, ht]; rfl
    · rw [State.forward_rest, ht]; rfl
    · rw [State.part_forward, State.part_setPart_same]
    · rw [State.part_forward, State.part_setPart, if_neg hp, hpart]
  · have hcheck : checkActivate s (f.val - 1) false (s.cmd f k) = 0 := by
      have hroom : (!ks.active && decide (2 ^ 20 < (s.part (f.val - 1)).activeTwiddles + ks.twiddles)) = false := by
        rcases hspace with hact | hfits
        · simp [hact]
        · rw [decide_eq_false (Nat.not_lt.mpr hfits), Bool.and_false]
      simp only [checkActivate, hks, hroom, Bool.false_eq_true, if_false]
      rfl
    refine ⟨_, congrArg _ (State.runCmd_of_check (check := fun q => checkActivate s (f.val - 1) false q) hruns hcheck rfl rfl), ?_⟩
    dsimp only
    rw [State.activate_eq hks]
    generalize hu : s.setPart (f.val - 1) _ = u
    obtain ⟨rooms, hrooms⟩ := u.mapRooms_only (s.part (f.val - 1)).rooms (Room.rewritten ((s.cmd f k).field 0 2))
    have hroom (q : Nat) := u.mapRooms_room_of_twice (s.part (f.val - 1)).rooms (Room.rewritten_twice ((s.cmd f k).field 0 2)) q
    have hpart (q : Nat) : (u.mapRooms (s.part (f.val - 1)).rooms (Room.rewritten ((s.cmd f k).field 0 2))).part q = u.part q := by rw [hrooms]; rfl
    refine ⟨?_, ?_, ?_, fun p hp => ?_, fun r hr => ?_, fun r hr => ?_⟩
    · rw [State.forward_rest, hrooms, ← hu]; rfl
    · rw [State.forward_rest, hrooms, ← hu]; rfl
    · rw [State.part_forward, hpart, ← hu, State.part_setPart_same]
    · rw [State.part_forward, hpart, ← hu, State.part_setPart, if_neg hp]
    · rw [State.room_forward, hroom, if_pos hr, ← hu]
      rfl
    · rw [State.room_forward, hroom, if_neg hr, ← hu]
      rfl
  · have hcheck : checkRelease s (f.val - 1) false (s.cmd f k) = 0 := by simp [checkRelease, hks, hidle, hempty, stOk]
    exact congrArg _ (State.runCmd_of_check (check := fun q => checkRelease s (f.val - 1) false q) hruns hcheck rfl rfl)

/-! ## Ports that change their state (R421, R428) -/

/-- A port as it is stored with a new state: one that leaves ACTIVE is dated. -/
def Port.after (x y : Port) (now : Nat) : Port := if x.state = .active && y.state != .active then { y with activeUntil := now } else y

/-- The replacement of a port changes that port, the hold-over of the module's time and what Gysis keeps. -/
theorem State.portTo_spec (s : State) (n : Nat) (y : Port) :
    ∃ h g, s.portTo n y = { s.setPort n ((s.port n).after y s.now) with
      links := { (s.setPort n ((s.port n).after y s.now)).links with holdover := h }, gysis := g } := by
  have hparent (t : State) : ∃ h, t.noteParent = { t with links := { t.links with holdover := h } } := by
    unfold State.noteParent
    split <;> exact ⟨_, rfl⟩
  unfold State.portTo
  extract_lets z t
  obtain ⟨h, ht⟩ := hparent (s.setPort n z)
  change t = _ at ht
  split
  · exact ⟨h, _, ht⟩
  · refine ⟨h, (t.raise (96 + n)).gysis, ?_⟩
    rw [State.raise_rest, ht]
    rfl

/-- From `s` to `t` ports may have changed, the hold-over of the module's time and what Gysis keeps. -/
def State.PortsOnly (s t : State) : Prop := ∃ ports h g, t = { s with links := { s.links with ports := ports, holdover := h }, gysis := g }

theorem State.PortsOnly.refl (s : State) : s.PortsOnly s := ⟨_, _, _, rfl⟩

theorem State.PortsOnly.trans {s t u : State} : s.PortsOnly t → t.PortsOnly u → s.PortsOnly u := by
  rintro ⟨_, _, _, rfl⟩ ⟨ports, h, g, rfl⟩
  exact ⟨ports, h, g, rfl⟩

theorem State.portsOnly_portTo (s : State) (n : Nat) (y : Port) : s.PortsOnly (s.portTo n y) := by
  obtain ⟨h, g, ht⟩ := s.portTo_spec n y
  exact ⟨_, h, g, ht⟩

theorem State.port_portTo (s : State) (n : Nat) (y : Port) (m : Nat) : (s.portTo n y).port m = if m = n then (s.port n).after y s.now else s.port m := by
  obtain ⟨h, g, ht⟩ := s.portTo_spec n y
  rw [ht]
  exact s.port_setPort n m _

theorem State.portsOnly_retrain (s : State) (n : Nat) : s.PortsOnly (s.retrain n) := by
  unfold State.retrain
  split
  · exact .refl s
  split
  · exact s.portsOnly_portTo n _
  · exact s.portsOnly_portTo n _

theorem State.port_retrain_other (s : State) {n m : Nat} (h : m ≠ n) : (s.retrain n).port m = s.port m := by
  unfold State.retrain State.beginAttempt
  split
  · rfl
  split
  · rw [State.port_portTo, if_neg h]
  · rw [State.port_portTo, if_neg h]

/-- What a retrain makes of a port rests on the port, the time and whether the links run. -/
theorem State.port_retrain_congr {s t : State} {n : Nat} (hport : t.port n = s.port n) (hrun : t.linksRun = s.linksRun) (hnow : t.now = s.now) :
    (t.retrain n).port n = (s.retrain n).port n := by
  unfold State.retrain State.beginAttempt
  rw [hport, hrun, hnow]
  split
  · exact hport
  split
  · simp only [State.port_portTo, hport, hnow]
  · simp only [State.port_portTo, hport, hnow]

theorem State.PortsOnly.linksRun {s t : State} (h : s.PortsOnly t) : t.linksRun = s.linksRun ∧ t.now = s.now := by
  obtain ⟨_, _, _, rfl⟩ := h
  exact ⟨rfl, rfl⟩

/-- The ports below `n` that retrain one after another: each does what it would do alone (R423). -/
theorem State.foldl_retrain (s : State) (n : Nat) : s.PortsOnly ((List.range n).foldl State.retrain s) ∧
    ∀ m, ((List.range n).foldl State.retrain s).port m = if m < n then (s.retrain m).port m else s.port m := by
  induction n with
  | zero => exact ⟨.refl s, fun m => rfl⟩
  | succ n ih =>
    obtain ⟨honly, hport⟩ := ih
    rw [List.range_succ, List.foldl_append, List.foldl_cons, List.foldl_nil]
    refine ⟨honly.trans (State.portsOnly_retrain _ n), fun m => ?_⟩
    by_cases hm : m = n
    · subst hm
      rw [State.port_retrain_congr ((hport m).trans (if_neg (lt_irrefl m))) honly.linksRun.1 honly.linksRun.2, if_pos (Nat.lt_succ_self m)]
    · rw [State.port_retrain_other _ hm, hport]
      exact if_congr (by omega) rfl rfl

/-! ## Queries and settings -/

/-- A command of CELLAR_REPAIR that changes nothing of the module ends with its response. -/
theorem State.runCmd_of_repair {s t : State} {f k sub : Nat} (h : s.runs f k 0x0601) (hsub : (s.cmd f k).field 0 1 = sub) {body : Req → CmdEnd}
    {resp : List Byte} (hbody : body (s.cmd f k) = .ok t resp) : s.runCmd f k (isRepair sub) body = t.endCmd f k 0 0 0 resp := by
  obtain ⟨hrun, hop⟩ := State.running_isOp_of_runs h
  have hwant : isRepair sub (s.cmd f k) = true := by
    simp only [isOp, beq_iff_eq] at hop
    simp [isRepair, hop, hsub]
  unfold State.cmd at hbody hwant
  simp [State.runCmd, hrun, hwant, hbody, CmdEnd.ok, stOk]

theorem State.record16_of_no_right {s : State} {f id : Nat} (h : s.mayRead f id = false) : s.record16 f id = leBytes 4 id ++ leBytes 12 0 := by
  simp [State.record16, h]

/-- The state with a loaded table in force (R423). -/
def State.withRoute (s : State) (t : RouteTable) : State := { s with links := { s.links with route := some t, nextRoute := none } }

/-- A loaded table that comes into force (R423): the ports retrain when it renumbers the module, and a module that is the root of time free-runs. -/
theorem exec_routeTableEffect {s : State} {t : RouteTable} (h : s.links.nextRoute = some t) :
    ∃ v u, exec .routeTableEffect s = .next u ∧
      v = (if s.renumbers t then (List.range 30).foldl State.retrain (s.withRoute t) else (s.withRoute t).noteParent) ∧
      u.links.route = v.links.route ∧ u.links.nextRoute = v.links.nextRoute ∧ u.links.ports = v.links.ports ∧ u.mem = v.mem ∧ u.rooms = v.rooms ∧
      u.parts = v.parts ∧ u.fns = v.fns := by
  have hlock (w : State) : (w.setLock true).links.route = w.links.route ∧ (w.setLock true).links.nextRoute = w.links.nextRoute ∧
      (w.setLock true).links.ports = w.links.ports ∧ (w.setLock true).mem = w.mem ∧ (w.setLock true).rooms = w.rooms ∧
      (w.setLock true).parts = w.parts ∧ (w.setLock true).fns = w.fns := by
    unfold State.setLock
    split
    · exact ⟨rfl, rfl, rfl, rfl, rfl, rfl, rfl⟩
    · rw [State.raise_rest]
      exact ⟨rfl, rfl, rfl, rfl, rfl, rfl, rfl⟩
  refine ⟨_, _, rfl, rfl, ?_⟩
  rw [h]
  dsimp only [State.withRoute]
  split
  · exact hlock _
  · exact ⟨rfl, rfl, rfl, rfl, rfl, rfl, rfl⟩

theorem State.port_congr {s t : State} (h : t.links.ports = s.links.ports) (n : Nat) : t.port n = s.port n := by
  unfold State.port
  rw [h]

/-- Settles O28: each query answers from the state, and each setting changes the field that it names. -/
theorem shortMailboxCommands : Obligations.ShortMailboxCommands := by
  refine ⟨?query, ?primes, ?partPf0, ?partVf, ?keys, ?repairs, ?telemetry, fun s f id h => State.record16_of_no_right h, ?cap, ?reset, ?route, ?effect⟩
  case query => exact fun s f k hruns => congrArg _ (State.runCmd_of_ok hruns rfl)
  case primes =>
    intro s f k hruns hlo hhi hsum
    have hcheck : checkPrimeTable (s.cmd f k) = 0 := by
      simp [checkPrimeTable, hlo, hhi, hsum, stOk]
      omega
    exact congrArg _ (State.runCmd_of_check (check := checkPrimeTable) hruns hcheck rfl rfl)
  case partPf0 =>
    intro s k hruns hpresent hmax
    have hcheck : checkPartitionQuery s 0 (s.cmd 0 k) = 0 := by simp [checkPartitionQuery, queryPart, hpresent, hmax, stOk]
    exact congrArg _ (State.runCmd_of_check (check := checkPartitionQuery s 0) hruns hcheck rfl rfl)
  case partVf =>
    intro s f k hf hruns hpresent hmax
    have hcheck : checkPartitionQuery s f (s.cmd f k) = 0 := by simp [checkPartitionQuery, queryPart, hf, hpresent, hmax, stOk]
    exact congrArg _ (State.runCmd_of_check (check := checkPartitionQuery s f) hruns hcheck rfl (by rw [queryPart, if_neg hf]))
  case keys => exact fun s f k hruns => congrArg _ (State.runCmd_of_ok hruns rfl)
  case repairs =>
    exact fun s k hruns => ⟨fun hsub => congrArg _ (State.runCmd_of_repair hruns hsub rfl), fun hsub => congrArg _ (State.runCmd_of_repair hruns hsub rfl),
      fun hsub => congrArg _ (State.runCmd_of_repair hruns hsub rfl)⟩
  case telemetry =>
    intro s f k ids hruns hcheck hids
    subst hids
    exact congrArg _ (State.runCmd_of_check (check := checkTelemetry) hruns hcheck rfl rfl)
  case cap =>
    refine fun s k hruns => ⟨fun hzero => ?_, fun hlo hhi => ?_⟩
    · exact congrArg _ (State.runCmd_of_check (check := checkPowerCap) hruns (by simp [checkPowerCap, hzero, stOk]) (by rw [if_pos hzero]) rfl)
    · exact congrArg _ (State.runCmd_of_check (check := checkPowerCap) hruns (by simp [checkPowerCap, hlo, hhi, stOk]) (by rw [if_neg (by omega)]) rfl)
  case reset =>
    intro s k hruns hkind
    exact congrArg _ (State.runCmd_of_check (check := checkModuleReset) hruns (by simp [checkModuleReset, hkind, stOk]) rfl rfl)
  case route =>
    intro s k hostIn hruns hlen hcheck hheader hentries hpair
    have hslice : sliceZ hostIn 0 4224 = hostIn := by simp [sliceZ, ← hlen]
    have hall : (List.range 512).any (fun d => !routeEntryOk hostIn d) = false := by
      simpa using fun d hd => hentries d hd
    refine congrArg _ (State.runCmd_of_ok hruns ?_)
    dsimp only
    rw [hslice, if_neg (fun hne => hne hcheck), hheader, hall, hpair]
    rfl
  case effect =>
    intro s t hnext
    obtain ⟨v, u, hexec, hv, hroute, hnone, hports, hmem, hrooms, hparts, hfns⟩ := exec_routeTableEffect hnext
    have hframe : (s.withRoute t).PortsOnly v := by
      rw [hv]
      split
      · exact (State.foldl_retrain _ 30).1
      · unfold State.noteParent
        split
        · exact ⟨_, _, _, rfl⟩
        · exact .refl _
    obtain ⟨ports, h, g, hvv⟩ := hframe
    refine ⟨u, hexec, ?_, ?_, ?_, ?_, ?_, ?_, fun hsame => ?_, fun hnew n hn => ?_⟩
    · rw [hroute, hvv]; rfl
    · rw [hnone, hvv]; rfl
    · rw [hmem, hvv]; rfl
    · rw [hrooms, hvv]; rfl
    · rw [hparts, hvv]; rfl
    · rw [hfns, hvv]; rfl
    · rw [hports, hv, hsame, if_neg Bool.false_ne_true]
      unfold State.noteParent
      split <;> rfl
    · rw [State.port_congr hports, hv, if_pos hnew, (State.foldl_retrain _ 30).2, if_pos hn]
      exact State.port_retrain_congr rfl rfl rfl

end Sys2Proof.Machine
end

section
/-! PROOFS. Slots taken, functions reset, partitions made and unmade (R211, R242, R322 to R328, R339, R356, R372, R385 to R398, R539 to R542). -/

namespace Sys2Proof.Machine

/-! ## Commands that end together (R341) -/

/-- From `s` to `t` commands of function `f` have ended: its slots and vectors, the commands without a slot, hash contexts and the free values have changed. -/
def State.EndedCommands (s t : State) (f : Nat) : Prop :=
  (∃ fns d h free, t = { s with fns := fns, gysis := { s.gysis with detached := d }, sec := { s.sec with hash := h }, free := free }) ∧ ∀ g, g ≠ f → t.fn g = s.fn g

theorem State.EndedCommands.refl (s : State) (f : Nat) : s.EndedCommands s f := ⟨⟨_, _, _, _, rfl⟩, fun _ _ => rfl⟩

theorem State.EndedCommands.trans {s t u : State} {f : Nat} : s.EndedCommands t f → t.EndedCommands u f → s.EndedCommands u f := by
  rintro ⟨⟨_, _, _, _, rfl⟩, hfn⟩ ⟨⟨fns, d, h, free, rfl⟩, hfn'⟩
  exact ⟨⟨fns, d, h, free, rfl⟩, fun g hg => (hfn' g hg).trans (hfn g hg)⟩

theorem State.endedCommands_endCmd (s : State) (f k status progress total : Nat) (resp : List Byte) :
    s.EndedCommands (s.endCmd f k status progress total resp) f := by
  obtain ⟨fns, hrest, -, -, hfn⟩ := s.endCmd_spec f k status progress total resp
  exact ⟨⟨fns, _, _, _, hrest⟩, hfn⟩

theorem State.endedCommands_dropHash (s : State) (f k : Nat) : s.EndedCommands (s.dropHash f k) f := by
  unfold State.dropHash
  split
  · split
    · exact ⟨⟨_, _, _, _, rfl⟩, fun _ _ => rfl⟩
    · exact .refl s f
  · exact .refl s f

theorem State.endedCommands_endCommands (s : State) (f : Nat) (keep : Req → Bool) (posted : Bool) : s.EndedCommands (s.endCommands f keep posted) f := by
  unfold State.endCommands
  refine foldl_inv (fun t : State => s.EndedCommands t f) (fun t k ht => ht.trans ?_) _ _ ⟨⟨_, _, _, _, rfl⟩, fun _ _ => rfl⟩
  dsimp only
  split
  · exact .refl t f
  split
  · exact t.endedCommands_endCmd ..
  split
  · exact (t.endedCommands_dropHash f k).trans (State.endedCommands_endCmd ..)
  · exact .refl t f

/-- The first step of a teardown (R393): a live partition is marked, and its VF's commands end. -/
theorem State.beginTeardown_spec (s : State) (p : Nat) :
    ∃ u, (u = s ∧ (s.part p).phase ≠ .live ∨ u = s.setPart p { s.part p with phase := .tearing } ∧ (s.part p).phase = .live) ∧ u.EndedCommands (s.beginTeardown p) (p + 1) := by
  unfold State.beginTeardown
  dsimp only
  split
  next hlive => exact ⟨_, .inr ⟨rfl, hlive⟩, State.endedCommands_endCommands ..⟩
  next hlive => exact ⟨s, .inl ⟨rfl, hlive⟩, .refl s _⟩

theorem State.wakeDomain_rest (s : State) (d : Nat) : ∃ power, s.wakeDomain d = { s with power := power } := by
  unfold State.wakeDomain
  split
  · exact ⟨_, rfl⟩
  split
  · exact ⟨_, rfl⟩
  · exact ⟨_, rfl⟩

/-! ## A slot is taken (R322, R324, R333) -/

theorem Slot.byte_withProgress (x : Slot) (e : Option (Nat × Nat)) {i : Nat} (h : i < 20 ∨ 28 ≤ i) : (x.withProgress e).byte i = x.byte i := by
  cases e with
  | none => rfl
  | some e =>
    rw [Slot.withProgress, Slot.byte_putRun, leBytes_length, if_neg (by omega), Slot.byte_putRun, leBytes_length, if_neg (by omega)]

theorem Slot.field_withProgress (x : Slot) (a b : Nat) :
    (x.withProgress (some (a, b))).field 20 4 = a % 2 ^ 32 ∧ (x.withProgress (some (a, b))).field 24 4 = b % 2 ^ 32 := by
  constructor <;> refine leBytes_getD_eq_field fun i hi => ?_
  · rw [Slot.withProgress, Slot.byte_putRun, leBytes_length, if_neg (by omega), Slot.byte_putRun, leBytes_length, if_pos (by omega), Nat.add_sub_cancel_left]
  · rw [Slot.withProgress, Slot.byte_putRun, leBytes_length, if_pos (by omega), Nat.add_sub_cancel_left]

/-- The slot that a command runs in (R322, R333). -/
def Slot.taking (x : Slot) (e : Option (Nat × Nat)) (n : Nat) : Slot := { x.withProgress e with state := .running, taken := n }

theorem Slot.byte_taking (x : Slot) (e : Option (Nat × Nat)) (n i : Nat) : (x.taking e n).byte i = (x.withProgress e).byte i := rfl

theorem Slot.field_taking (x : Slot) (e : Option (Nat × Nat)) (n off len : Nat) : (x.taking e n).field off len = (x.withProgress e).field off len := rfl

/-- The state in which a command has been taken and nothing else has happened. -/
def State.tookSlot (s : State) (f k : Nat) : State :=
  { s.setSlot f k (((s.fn f).slot k).taking (s.progressAtStart f (s.cmd f k)) s.gysis.nextTaken) with
    gysis := { s.gysis with nextTaken := s.gysis.nextTaken + 1 } }

theorem State.takeSlot_eq (s : State) (f k : Nat) :
    s.takeSlot f k =
      if (s.cmd f k).op = 0x0102 then (s.tookSlot f k).beginTeardown ((s.cmd f k).field 0 1)
      else if (s.cmd f k).op = 0x0701 || (s.cmd f k).op = 0x0702 || (s.cmd f k).op = 0x0604 then (s.tookSlot f k).wakeDomain 118
      else s.tookSlot f k := rfl

/-- Only PF0 destroys a partition (R331). -/
theorem State.takeStatus_destroy {s : State} {f k : Nat} (hok : s.takeStatus f k = stOk) (hop : (s.cmd f k).op = 0x0102) : f = 0 := by
  unfold State.cmd at hop
  unfold State.takeStatus at hok
  dsimp only at hok
  split at hok
  · cases hok
  rw [hop, show cmdRow 0x0102 = some ⟨0x0102, .pf0, [.ready], true, false, [(0, 1, 255)]⟩ from rfl] at hok
  dsimp only at hok
  split at hok
  · cases hok
  next hwho => simpa [CmdWho.allows] using hwho

/-- What the taking of a command leaves of its module: the slot as it runs, and a partition marked when it is to be destroyed. -/
theorem State.takeSlot_spec {s : State} {f k : Nat} (hdestroy : (s.cmd f k).op = 0x0102 → f = 0) :
    ((s.takeSlot f k).fn f).slot k = ((s.fn f).slot k).taking (s.progressAtStart f (s.cmd f k)) s.gysis.nextTaken ∧
      (s.takeSlot f k).gysis.lastFn = s.gysis.lastFn ∧ (s.takeSlot f k).gysis.nextTaken = s.gysis.nextTaken + 1 ∧
      (s.takeSlot f k).mem = s.mem ∧ (s.takeSlot f k).rooms = s.rooms ∧ ((s.cmd f k).op ≠ 0x0102 → (s.takeSlot f k).parts = s.parts) ∧
      ((s.cmd f k).op = 0x0102 → (s.part ((s.cmd f k).field 0 1)).phase = .live → ((s.takeSlot f k).part ((s.cmd f k).field 0 1)).phase = .tearing) := by
  have hslot : ((s.tookSlot f k).fn f).slot k = ((s.fn f).slot k).taking (s.progressAtStart f (s.cmd f k)) s.gysis.nextTaken :=
    (s.slot_setSlot f k k _).trans (if_pos rfl)
  rw [State.takeSlot_eq]
  by_cases hop : (s.cmd f k).op = 0x0102
  · obtain rfl := hdestroy hop
    rw [if_pos hop]
    obtain ⟨u, hu, ⟨fns, d, h, free, ht⟩, hfn⟩ := (s.tookSlot 0 k).beginTeardown_spec ((s.cmd 0 k).field 0 1)
    have hframe : u.fn 0 = (s.tookSlot 0 k).fn 0 ∧ u.gysis = (s.tookSlot 0 k).gysis ∧ u.mem = s.mem ∧ u.rooms = s.rooms ∧
        ((s.part ((s.cmd 0 k).field 0 1)).phase = .live → (u.part ((s.cmd 0 k).field 0 1)).phase = .tearing) := by
      rcases hu with ⟨rfl, hlive⟩ | ⟨rfl, -⟩
      · exact ⟨rfl, rfl, rfl, rfl, fun h => absurd h hlive⟩
      · exact ⟨rfl, rfl, rfl, rfl, fun _ => by rw [State.part_setPart_same]⟩
    obtain ⟨hfn0, hgysis, hmem, hrooms, hphase⟩ := hframe
    refine ⟨?_, ?_, ?_, ?_, ?_, fun hne => absurd hop hne, fun _ hlive => ?_⟩
    · rw [hfn 0 (Nat.succ_ne_zero _).symm, hfn0, hslot]
    · rw [ht, hgysis]; rfl
    · rw [ht, hgysis]; rfl
    · rw [ht]; exact hmem
    · rw [ht]; exact hrooms
    · rw [ht]; exact hphase hlive
  · rw [if_neg hop]
    split
    · obtain ⟨power, ht⟩ := (s.tookSlot f k).wakeDomain_rest 118
      rw [ht]
      exact ⟨hslot, rfl, rfl, rfl, rfl, fun _ => rfl, fun h => absurd h hop⟩
    · exact ⟨hslot, rfl, rfl, rfl, rfl, fun _ => rfl, fun h => absurd h hop⟩

/-- The state in which function `f` was served last (R324). -/
def State.served (s : State) (f : Nat) : State := { s with gysis := { s.gysis with lastFn := f } }

theorem exec_slotTake {s : State} {f : FnId} {k : SlotId} (hnext : s.nextFn = some f.val) (hold : s.oldestPosted f = some k.val) (hcool : s.takeWaits f k = false) :
    exec (.slotTake f k) s =
      .next (if s.takeStatus f k = stOk then (s.served f).takeSlot f k else (s.served f).endCmd f k (s.takeStatus f k) 0 0 []) := by
  change execSlotTake f k s = _
  simp [execSlotTake, hnext, hold, hcool, State.served]

/-- Settles O8: the slot that is next runs, ends with the first failing check, or waits for its stack. -/
theorem slotTakeRunsOrEnds : Obligations.SlotTakeRunsOrEnds := by
  refine ⟨fun s f k hnext hold hcool hok => ?_, fun s f k hnext hold hcool hbad => ?_, fun s f k hwait => ?_⟩
  · obtain ⟨hslot, hlast, htaken, hmem, hrooms, hparts, htear⟩ :=
      State.takeSlot_spec (s := s.served f) (f := f) (k := k) (fun hop => State.takeStatus_destroy hok hop)
    have hslot : (((s.served f).takeSlot f k).fn f).slot k = ((s.fn f).slot k).taking (s.progressAtStart f (s.cmd f k)) s.gysis.nextTaken := hslot
    refine ⟨_, (exec_slotTake hnext hold hcool).trans (by rw [if_pos hok]), ?_, fun i hi => ?_, fun a b hab => ?_, fun hnone i => ?_,
      hlast, htaken, hmem, hrooms, hparts, htear⟩
    · rw [hslot]; rfl
    · rw [hslot, Slot.byte_taking, Slot.byte_withProgress _ _ hi]
    · rw [hslot, hab, Slot.field_taking, Slot.field_taking]
      exact Slot.field_withProgress _ a b
    · rw [hslot, hnone, Slot.byte_taking, Slot.withProgress]
  · rw [exec_slotTake hnext hold hcool, if_neg hbad]
    rfl
  · change execSlotTake f k s = _
    simp [execSlotTake, hwait]

/-! ## Function Level Resets (R356, R397, R398) -/

/-- From `s` to `t` rooms and what leaves the links may have changed, and nothing else. -/
def State.RoomsOnly (s t : State) : Prop := ∃ rooms links, t = { s with rooms := rooms, links := links }

theorem State.RoomsOnly.refl (s : State) : s.RoomsOnly s := ⟨_, _, rfl⟩

theorem State.RoomsOnly.trans {s t u : State} : s.RoomsOnly t → t.RoomsOnly u → s.RoomsOnly u := by
  rintro ⟨_, _, rfl⟩ ⟨rooms, links, rfl⟩
  exact ⟨rooms, links, rfl⟩

theorem State.roomsOnly_cancelHostChannels (s : State) (p : Nat) : s.RoomsOnly (s.cancelHostChannels p) := by
  unfold State.cancelHostChannels
  refine foldl_inv (fun t : State => s.RoomsOnly t) (fun t r ht => ?_) _ _ (.refl s)
  refine foldl_inv (fun u : State => s.RoomsOnly u) (fun u c hu => ?_) _ _ ht
  split
  · exact hu.trans ⟨_, _, rfl⟩
  · exact hu

/-- A function whose registers are at their reset values: its ring alone is kept (R356, R397). -/
def Fn.resetTo (x : Fn) : Fn := { ringSet := x.ringSet, ringOff := x.ringOff, telSeq := 0 }

/-- A VF that the host sees no longer: its ring, its jobs and its host buffers are kept (R398). -/
def Fn.hidden (x : Fn) : Fn :=
  { ringSet := x.ringSet, ringOff := x.ringOff, jobHead := x.jobHead, jobTail := x.jobTail, jobRunning := x.jobRunning, hostBufs := x.hostBufs }

theorem State.fn_resetFn (s : State) (f g : Nat) : (s.resetFn f).fn g = if g = f then (s.fn f).resetTo else s.fn g := State.fn_setFn ..

/-- What a Function Level Reset of a VF leaves (R397). -/
theorem State.flrVf_spec (s : State) (f : Nat) :
    (s.flrVf f).fn f = (s.fn f).resetTo ∧ (∀ g, g ≠ f → (s.flrVf f).fn g = s.fn g) ∧ (s.flrVf f).mem = s.mem ∧
      (∀ p, ((s.flrVf f).part p).present = (s.part p).present ∧ ((s.flrVf f).part p).rooms = (s.part p).rooms) ∧ ((s.flrVf f).source 177).pending = true := by
  unfold State.flrVf
  extract_lets p t job t1 sec
  obtain ⟨rooms, links, ht⟩ : (s.detach f).RoomsOnly t := State.roomsOnly_cancelHostChannels _ _
  have ht1 : t1.fns = s.fns ∧ t1.mem = s.mem ∧ ∀ q, (t1.part q).present = (s.part q).present ∧ (t1.part q).rooms = (s.part q).rooms := by
    have hpart (q : Nat) : t.part q = s.part q := by rw [ht]; rfl
    dsimp only [t1]
    split
    · refine ⟨by rw [ht]; rfl, by rw [ht]; rfl, fun q => ?_⟩
      rw [State.part_setPart]
      split
      next hq =>
        subst hq
        change (t.part p).present = _ ∧ (t.part p).rooms = _
        rw [hpart]
        exact ⟨rfl, rfl⟩
      · exact ⟨congrArg Part.present (hpart q), congrArg Part.rooms (hpart q)⟩
    · exact ⟨by rw [ht]; rfl, by rw [ht]; rfl, fun q => by rw [hpart]; exact ⟨rfl, rfl⟩⟩
  obtain ⟨hfns, hmem, hparts⟩ := ht1
  generalize hu : ({ t1 with sec := { t1.sec with hash := Tab.set none t1.sec.hash p none } } : State) = u
  have hfn (g : Nat) : ((u.resetFn f).raise 177).fn g = if g = f then (s.fn f).resetTo else s.fn g := by
    have hsame (g : Nat) : u.fn g = s.fn g := by
      rw [← hu]
      exact congrArg (fun l => Tab.get _ l g) hfns
    rw [State.raise_rest, ← hsame, ← hsame]
    exact u.fn_resetFn f g
  refine ⟨(hfn f).trans (if_pos rfl), fun g hg => (hfn g).trans (if_neg hg), ?_, fun q => ?_, State.source_raise_pending rfl _⟩
  · rw [State.raise_rest, ← hu]
    exact hmem
  · rw [State.raise_rest, ← hu]
    exact hparts q

/-- What the clearing of VF Enable leaves (R398). -/
theorem State.hideVfs_spec (s : State) :
    (∃ fns d h, s.hideVfs = { s with
      fns := fns, gysis := { s.gysis with detached := d }, sec := { s.sec with hash := h }, board := { s.board with vfEnable := false } }) ∧
    ∀ g, s.hideVfs.fn g = if 1 ≤ g ∧ g ≤ 16 ∧ s.fnPresent g = true then (s.fn g).hidden else s.fn g := by
  have key (n : Nat) : ∀ t, t = (List.range n).foldl (fun u n => if s.fnPresent (n + 1) then u.hideVf (n + 1) else u) s →
      (∃ fns d h, t = { s with fns := fns, gysis := { s.gysis with detached := d }, sec := { s.sec with hash := h } }) ∧
      ∀ g, t.fn g = if 1 ≤ g ∧ g ≤ n ∧ s.fnPresent g = true then (s.fn g).hidden else s.fn g := by
    induction n with
    | zero =>
      rintro _ rfl
      exact ⟨⟨_, _, _, rfl⟩, fun g => (if_neg (by omega)).symm⟩
    | succ n ih =>
      intro t ht
      rw [List.range_succ, List.foldl_append, List.foldl_cons, List.foldl_nil] at ht
      obtain ⟨hrest, hfn⟩ := ih _ rfl
      generalize (List.range n).foldl _ s = u at ht hrest hfn
      by_cases hp : s.fnPresent (n + 1) = true
      · rw [if_pos hp] at ht
        refine ⟨?_, fun g => ?_⟩
        · obtain ⟨_, _, _, rfl⟩ := hrest
          exact ⟨_, _, _, ht⟩
        · have hset : t.fn g = if g = n + 1 then (u.fn (n + 1)).hidden else u.fn g := by
            rw [ht]
            exact State.fn_setFn ..
          rw [hset, hfn, hfn, if_neg (show ¬ (1 ≤ n + 1 ∧ n + 1 ≤ n ∧ _) from fun h => by omega)]
          by_cases hg : g = n + 1
          · subst hg
            rw [if_pos rfl, if_pos ⟨by omega, le_rfl, hp⟩]
          · rw [if_neg hg]
            exact if_congr (and_congr_right fun _ => and_congr_left fun _ => by omega) rfl rfl
      · rw [if_neg hp] at ht
        subst ht
        refine ⟨hrest, fun g => (hfn g).trans (if_congr ⟨fun h => ⟨h.1, by omega, h.2.2⟩, fun h => ⟨h.1, ?_, h.2.2⟩⟩ rfl rfl)⟩
        have hne : g ≠ n + 1 := fun e => hp (e ▸ h.2.2)
        omega
  obtain ⟨⟨fns, d, h, ht⟩, hfn⟩ := key 16 _ rfl
  refine ⟨⟨fns, d, h, ?_⟩, hfn⟩
  unfold State.hideVfs
  dsimp only
  rw [ht]

/-- Settles O18: what a Function Level Reset of a VF, and the clearing of VF Enable, leave. -/
theorem functionResetsClearTheFunction : Obligations.FunctionResetsClearTheFunction := by
  refine ⟨fun s f hf hpresent => ⟨s.flrVf f, ?_, ?_⟩, fun s flr => ?_⟩
  · change execFunctionLevelReset f s = _
    have hne : f.val ≠ 0 := fun h => hf (Fin.ext h)
    rw [execFunctionLevelReset, if_neg hne, if_pos hpresent]
  · obtain ⟨hfn, hothers, hmem, hparts, hsource⟩ := s.flrVf_spec f
    rw [hfn]
    exact ⟨fun _ => rfl, rfl, rfl, rfl, rfl, rfl, rfl, rfl, rfl, rfl, rfl, hothers, hmem, hparts, hsource⟩
  · cases flr with
    | false =>
      obtain ⟨⟨fns, d, h, ht⟩, hfn⟩ := s.hideVfs_spec
      refine ⟨s.hideVfs, rfl, ?_, ?_, ?_, ?_, fun n hlo hhi hp => ?_, nofun⟩
      · rw [ht]
      · rw [ht]
      · rw [ht]
      · rw [ht]
      · rw [hfn, if_pos ⟨hlo, hhi, hp⟩]
        exact ⟨rfl, rfl⟩
    | true =>
      obtain ⟨⟨fns, d, h, ht⟩, hfn⟩ := ((s.detach 0).resetFn 0).hideVfs_spec
      have hraise (g : Nat) : s.flrPf0.fn g = ((s.detach 0).resetFn 0).hideVfs.fn g := by
        rw [State.flrPf0, State.raise_rest]
        rfl
      have hexec : exec (.vfEnableClear true) s = .next s.flrPf0 := by
        change execVfEnableClear true s = _
        rw [execVfEnableClear, if_pos rfl]
      refine ⟨s.flrPf0, hexec, ?_, ?_, ?_, ?_, fun n hlo hhi hp => ?_, fun _ => ?_⟩
      · rw [State.flrPf0, State.raise_rest, ht]
      · rw [State.flrPf0, State.raise_rest, ht]; rfl
      · rw [State.flrPf0, State.raise_rest, ht]; rfl
      · rw [State.flrPf0, State.raise_rest, ht]; rfl
      · rw [hraise, hfn, if_pos ⟨hlo, hhi, hp⟩]
        exact ⟨rfl, rfl⟩
      · have hfn0 : s.flrPf0.fn 0 = ((s.detach 0).fn 0).resetTo := by
          rw [hraise, hfn, if_neg (fun h => absurd h.1 (by decide)), State.fn_resetFn, if_pos rfl]
        rw [hfn0]
        exact ⟨rfl, rfl⟩

/-! ## Partitions made (R385, R387, R542) -/

/-- A change of one function's flags leaves every register that the two functions have in common. -/
theorem State.setCause_fn (s : State) (f k : Nat) :
    (∃ fns, s.setCause f k = { s with fns := fns }) ∧
      ∀ g, ∃ status raised, (s.setCause f k).fn g = { s.fn g with intStatus := status, raised := raised } ∧ (s.fn g).intStatus ||| status = status := by
  by_cases h : (s.fn f).intStatus.getLsbD k = true
  · rw [State.setCause_of_set h]
    exact ⟨⟨_, rfl⟩, fun g => ⟨_, _, rfl, BitVec.or_self⟩⟩
  · obtain ⟨hrest, hat, hothers⟩ := State.setCause_of_clear (Bool.eq_false_iff.mpr h)
    refine ⟨⟨_, hrest⟩, fun g => ?_⟩
    by_cases hg : g = f
    · subst hg
      refine ⟨_, _, hat, ?_⟩
      rw [← BitVec.or_assoc, BitVec.or_self]
    · exact ⟨_, _, hothers g hg, BitVec.or_self⟩

/-- The partition that a PARTITION_CREATE makes (R387). -/
theorem State.partChanged_spec (s : State) (p : Nat) :
    (∃ fns, s.partChanged p = { s with fns := fns }) ∧
      (∀ g, ∃ status raised, (s.partChanged p).fn g = { s.fn g with intStatus := status, raised := raised }) ∧
      ((s.partChanged p).fn 0).intStatus.getLsbD 1 = true ∧ ((s.partChanged p).fn (p + 1)).intStatus.getLsbD 1 = true := by
  obtain ⟨⟨_, h0⟩, hfn0⟩ := s.setCause_fn 0 1
  obtain ⟨⟨fns, h1⟩, hfn1⟩ := (s.setCause 0 1).setCause_fn (p + 1) 1
  refine ⟨⟨fns, ?_⟩, fun g => ?_, ?_, State.setCause_intStatus _ _ (by decide)⟩
  · rw [State.partChanged, h1, h0]
  · obtain ⟨a, b, hab, -⟩ := hfn0 g
    obtain ⟨c, d, hcd, -⟩ := hfn1 g
    exact ⟨c, d, by rw [State.partChanged, hcd, hab]⟩
  · obtain ⟨c, d, hcd, hor⟩ := hfn1 0
    have hbit := congrArg (BitVec.getLsbD · 1) hor
    simp only [BitVec.getLsbD_or, s.setCause_intStatus 0 (show 1 < 3 by decide), Bool.true_or] at hbit
    rw [State.partChanged, hcd]
    exact hbit.symm

/-- An aperture that is written anew at several indices is shut at each of them. -/
theorem State.closeApertures_fn (s : State) (f g : Nat) :
    (∃ fns, s.closeApertures f = { s with fns := fns }) ∧
      (∃ a, (s.closeApertures f).fn g = { s.fn g with apertures := a }) ∧ ∀ a, a < 4 → (Tab.get {} ((s.closeApertures f).fn f).apertures a).enable = false := by
  refine ⟨⟨_, rfl⟩, ?_, fun a ha => ?_⟩
  · unfold State.closeApertures
    dsimp only
    rw [State.fn_setFn]
    split
    next h => subst h; exact ⟨_, rfl⟩
    · exact ⟨_, rfl⟩
  · unfold State.closeApertures
    dsimp only
    rw [State.fn_setFn_same]
    simp only [List.range, List.range.loop, List.foldl_cons, List.foldl_nil, Tab.get_set]
    obtain rfl | rfl | rfl | rfl : a = 0 ∨ a = 1 ∨ a = 2 ∨ a = 3 := by omega
    all_goals simp

theorem State.clearVfObjects_fn (s : State) (f : Nat) :
    (s.clearVfObjects f).fn f = { s.fn f with jobHead := 0, jobTail := 0, ringSet := false, ringOff := 0, jobRunning := false, hostBufs := [] } :=
  s.fn_setFn_same ..

/-- What the change of a partition leaves of its VF (R387, R393, R542): no ring, no host buffer, no open aperture, and the flag of the change. -/
theorem State.vfOfPart_spec (s : State) (p : Nat) {t : State} (ht : t = ((s.clearVfObjects (p + 1)).closeApertures (p + 1)).partChanged p) :
    (∃ fns, t = { s with fns := fns }) ∧ (t.fn 0).intStatus.getLsbD 1 = true ∧ (t.fn (p + 1)).intStatus.getLsbD 1 = true ∧
      (t.fn (p + 1)).ringSet = false ∧ (t.fn (p + 1)).hostBufs = [] ∧ ∀ a, a < 4 → (Tab.get {} (t.fn (p + 1)).apertures a).enable = false := by
  obtain ⟨⟨_, hclose⟩, ⟨a, ha⟩, hshut⟩ := (s.clearVfObjects (p + 1)).closeApertures_fn (p + 1) (p + 1)
  obtain ⟨⟨fns, hrest⟩, hfn, h0, h1⟩ := ((s.clearVfObjects (p + 1)).closeApertures (p + 1)).partChanged_spec p
  obtain ⟨status, raised, hvf⟩ := hfn (p + 1)
  rw [← ht] at hrest h0 h1 hvf
  refine ⟨⟨fns, ?_⟩, h0, h1, ?_, ?_, fun i hi => ?_⟩
  · rw [hrest, hclose]
    rfl
  · rw [hvf, ha, State.clearVfObjects_fn]
  · rw [hvf, ha, State.clearVfObjects_fn]
  · rw [hvf]
    exact hshut i hi

/-- A room that a new partition takes is no longer clean, and its flags are zero (R387). -/
def Room.taken (x : Room) : Room := { x with clean := false, flags := [] }

/-- The partition that a PARTITION_CREATE asks for (R387). -/
def State.asked (s : State) (q : Req) : Part :=
  { phase := .live, shareMode := q.field 1 1, shares := [q.field 2 1, q.field 3 1, q.field 4 1], rooms := maskList 16 (q.field 6 2),
    portMask := BitVec.ofNat 30 (q.field 8 4), quota := q.field 12 2, test := s.boot.state == .test,
    grant := ((maskList 16 (q.field 6 2)).map (fun r => Tab.get 0 s.power.idlePower r)).sum }

theorem State.createPart_spec (s : State) (q : Req) :
    ∃ u : State, s.createPart q = ((u.clearVfObjects (q.field 0 1 + 1)).closeApertures (q.field 0 1 + 1)).partChanged (q.field 0 1) ∧ u.mem = s.mem ∧
      (∀ p, u.part p = if p = q.field 0 1 then s.asked q else s.part p) ∧
      ∀ r, u.room r = if r ∈ maskList 16 (q.field 6 2) then (s.room r).taken else s.room r := by
  generalize ht : (s.powerOn ((maskList 16 (q.field 6 2)).flatMap roomDomains)).setPart (q.field 0 1) (s.asked q) = t
  have hroom (r : Nat) : t.room r = s.room r := by rw [← ht]; rfl
  obtain ⟨rooms, hrooms⟩ := t.mapRooms_only (maskList 16 (q.field 6 2)) Room.taken
  refine ⟨t.mapRooms (maskList 16 (q.field 6 2)) Room.taken, ?_, ?_, fun p => ?_, fun r => ?_⟩
  · rw [← ht]
    rfl
  · rw [hrooms, ← ht]
    rfl
  · have hpart : (t.mapRooms (maskList 16 (q.field 6 2)) Room.taken).part p = t.part p := by rw [hrooms]; rfl
    rw [hpart, ← ht]
    exact State.part_setPart ..
  · rw [State.mapRooms_room_of_twice t _ (g := Room.taken) (fun _ => rfl), hroom]

/-- Settles O19: a partition as its request says. -/
theorem partitionCreateMakesTheTenant : Obligations.PartitionCreateMakesTheTenant := by
  intro s k hruns hcheck
  refine ⟨_, congrArg _ (State.runCmd_of_check (check := checkPartitionCreate s false) (eff := s.createPart) hruns hcheck rfl rfl), ?_⟩
  generalize s.cmd 0 k = q
  obtain ⟨u, hcreate, hmem, hpart, hroom⟩ := s.createPart_spec q
  obtain ⟨⟨fns, hrest⟩, h0, hvf, hring, hbufs, hshut⟩ := u.vfOfPart_spec (q.field 0 1) hcreate
  have hparts (p : Nat) : (s.createPart q).part p = if p = q.field 0 1 then s.asked q else s.part p := by rw [hrest]; exact hpart p
  have hrooms (r : Nat) : (s.createPart q).room r = if r ∈ maskList 16 (q.field 6 2) then (s.room r).taken else s.room r := by rw [hrest]; exact hroom r
  rw [hparts, if_pos rfl]
  exact ⟨rfl, rfl, rfl, rfl, rfl, rfl, rfl, rfl, rfl, rfl, fun p hp => (hparts p).trans (if_neg hp), fun r hr => (hrooms r).trans (if_pos hr),
    fun r hr => (hrooms r).trans (if_neg hr), by rw [hrest]; exact hmem, h0, hvf, hring, hbufs, hshut⟩

/-! ## Partitions unmade (R393) -/

/-- The state that a command answers, for a run of the model that is evaluated. -/
def State.after (s : State) (i : Instr) : State :=
  match exec i s with
  | .next t => t
  | _ => s

theorem State.after_of_next {s t : State} {i : Instr} (h : exec i s = .next t) : s.after i = t := by
  rw [State.after, h]

theorem State.endCmd_mem (s : State) (f k status progress total : Nat) (resp : List Byte) : (s.endCmd f k status progress total resp).mem = s.mem := by
  obtain ⟨fns, hrest, -⟩ := s.endCmd_spec f k status progress total resp
  rw [hrest]
  rfl

/-- A job whose entry lies where the keys of the next room's stack begin. -/
def strayJob : Job where
  entryOff := 2 ^ 36 - 48
  program := 0
  jobId := 0
  argBase := 0
  ringBase := 0
  ringLog2 := 0
  irq := false
  stop := false
  vector := 0
  stopBlock := 0
  startBlocks := []
  failed := none
  cause := 0

/-- A module whose partition 0, of room 0 alone, is torn down while it runs that job. -/
def strayEntry : State :=
  (State.reset.setPart 0 { phase := .tearing, rooms := [0], job := some strayJob }).setFn 0
    { slots := [(0, { state := .running, bytes := [(0, 0x02), (1, 0x01)] })] }

/-- Refutes O20: nothing in it keeps the entry of the running job inside the stack. The end of the job in `strayEntry` writes the entry's STATUS, FAILED, to a
byte of the stack of room 1, which is no room of the partition. -/
theorem not_partitionDestroyLeavesNothing : ¬ Obligations.PartitionDestroyLeavesNothing := by
  intro h
  have hruns : strayEntry.runs 0 (0 : SlotId) 0x0102 := ⟨by decide +kernel, by decide +kernel⟩
  have hlow : (strayEntry.cmd 0 (0 : SlotId)).field 0 1 < strayEntry.maxParts := by decide +kernel
  have hpresent : (strayEntry.part ((strayEntry.cmd 0 (0 : SlotId)).field 0 1)).present = true := by decide +kernel
  have hcounts : (strayEntry.part ((strayEntry.cmd 0 (0 : SlotId)).field 0 1)).rooms.any strayEntry.blockCounts = false := by decide +kernel
  have hcool : strayEntry.hotStack ((strayEntry.cmd 0 (0 : SlotId)).field 0 1) = false := by decide +kernel
  have hshort : strayEntry.shortLeft ((strayEntry.cmd 0 (0 : SlotId)).field 0 1 + 1) = false := by decide +kernel
  obtain ⟨u, hexec, -, -, -, -, -, hother, -⟩ := (h strayEntry 0 [] hruns hlow hpresent).2 hcounts hcool hshort
  have hroom : 1 ∉ (strayEntry.part ((strayEntry.cmd 0 (0 : SlotId)).field 0 1)).rooms := by decide +kernel
  have hbyte := hother 1 6 hroom (by decide)
  rw [← State.endCmd_mem, ← State.after_of_next hexec] at hbyte
  exact absurd hbyte (by decide +kernel)

/-! ## BAR2 (R540, R541) -/

/-- A module whose partition 0, of room 0 alone, opens an aperture on its stack, and the cells of the stack are listed in falling order. -/
def fallingAperture : State :=
  { ((State.reset.setPart 0 { phase := .live, rooms := [0] }).setFn 1 { apertures := [(0, { enable := true })] }) with
    nvm := { State.reset.nvm with image := fusesFirst }
    boot := { State.reset.boot with state := .ready }
    board := { State.reset.board with vfEnable := true }
    mem := { cellar := [(1, 1), (0, 2)] } }

/-- Refutes O16: it admits a memory out of canonical form. A write of one byte of a line rewrites the line as it reads (R230, Mem.read), and of `fallingAperture` that
read misses byte 0. -/
theorem not_bar2AccessesReachTheOwnStack : ¬ Obligations.Bar2AccessesReachTheOwnStack := by
  rintro ⟨-, -, hwrite⟩
  have hpresent : fallingAperture.fnPresent (1 : FnId) = true := by decide +kernel
  have hready : fallingAperture.boot.state = .ready := by decide +kernel
  have hmap : fallingAperture.bar2Map (1 : FnId) 64 true = some (0, 64) := by decide +kernel
  have hcool : (fallingAperture.stack 0).level < 4 := by decide +kernel
  obtain ⟨t, hexec, -, -, -, -, hkept, -⟩ := (hwrite fallingAperture 1 64 0 64 [7] [true] hpresent (by decide) hready hmap rfl).2 hcool
  have hbyte := hkept 0 (.inl (by decide))
  rw [← State.after_of_next hexec] at hbyte
  exact absurd hbyte (by decide +kernel)

/-! ## Host copies (R230, R333) -/

/-- A module whose VF 1 runs a HOST_COPY of one byte to offset 64 of the stack of room 0, and the cells of the stack are listed in falling order. -/
def fallingHostCopy : State :=
  { ((State.reset.setPart 0 { phase := .live, rooms := [0] }).setFn 1
      { hostBufs := [(1, some { addr := 0, bytes := 4096, canWrite := true, canRead := true })]
        slots := [(0, { state := .running, bytes := [(0, 0x03), (1, 0x04), (4, 40), (32, 1), (40, 1), (56, 64), (64, 1)] })] }) with
    mem := { cellar := [(1, 1), (0, 2)] } }

/-- Refutes O29: it admits a memory out of canonical form. The copy of one byte into a line rewrites the line as it reads (R230, Mem.read), and of `fallingHostCopy` that read
misses byte 0. -/
theorem not_hostCopyMovesTheSegment : ¬ Obligations.HostCopyMovesTheSegment := by
  rintro ⟨-, hcopy, -⟩
  have hruns : fallingHostCopy.runs (1 : FnId) (0 : SlotId) 0x0403 := ⟨by decide +kernel, by decide +kernel⟩
  have hcheck : checkHostCopy fallingHostCopy (1 : FnId) false (fallingHostCopy.cmd (1 : FnId) (0 : SlotId)) = 0 := by decide +kernel
  have hcool : fallingHostCopy.hotStack ((1 : FnId).val - 1) = false := by decide +kernel
  have hfirst : fallingHostCopy.copyBehind (1 : FnId) (0 : SlotId) = false := by decide +kernel
  have hseg : segments (fallingHostCopy.cmd (1 : FnId) (0 : SlotId)) = [⟨1, 0, 0, 0, 64, 1⟩] := by decide +kernel
  have hgood : ∀ l, l ∈ linesOf 64 1 → fallingHostCopy.lineLost ((fallingHostCopy.part ((1 : FnId).val - 1)).rooms.getD 0 0) (l * 128) = false ∧
      ∀ b, b ∈ burstsOf l → fallingHostCopy.burstBad ((fallingHostCopy.part ((1 : FnId).val - 1)).rooms.getD 0 0) b = false := by decide +kernel
  obtain ⟨u, hexec, -, hkept, -⟩ := hcopy fallingHostCopy 1 0 [7] ⟨1, 0, 0, 0, 64, 1⟩ hruns hcheck hcool hfirst hseg rfl hgood
  have hout : ∀ i, i < 1 → 0 ≠ cellarKey ((fallingHostCopy.part ((1 : FnId).val - 1)).rooms.getD 0 0) (64 + i) := by decide +kernel
  have hbyte := hkept 0 hout
  rw [← State.endCmd_mem, ← State.after_of_next hexec] at hbyte
  exact absurd hbyte (by decide +kernel)

end Sys2Proof.Machine
end

section
/-! PROOFS. The security engine (R24, R364 to R384): the shared course of a security operation, signatures, keys, hashes in chunks, attestation and staging. -/

namespace Sys2Proof.Machine

/-! ## What the engine leaves alone -/

/-- From `s` to `t` the engine has worked: its registers other than the cupboard and working memory, what Gysis keeps and the free values may have changed. -/
structure State.EngineRan (s t : State) : Prop where
  rest : ∃ sec g free, t = { s with sec := sec, gysis := g, free := free }
  entries : t.sec.entries = s.sec.entries
  work : t.sec.work = s.sec.work

theorem State.EngineRan.refl (s : State) : s.EngineRan s := ⟨⟨_, _, _, rfl⟩, rfl, rfl⟩

theorem State.EngineRan.trans {s t u : State} (h : s.EngineRan t) (h' : t.EngineRan u) : s.EngineRan u where
  rest := by
    obtain ⟨_, _, _, rfl⟩ := h.rest
    obtain ⟨sec, g, free, rfl⟩ := h'.rest
    exact ⟨sec, g, free, rfl⟩
  entries := h'.entries.trans h.entries
  work := h'.work.trans h.work

theorem State.engineRan_draw (s : State) (n : Nat) : s.EngineRan (s.draw n) := ⟨⟨_, _, _, rfl⟩, rfl, rfl⟩

theorem State.drbgReady_sec (s : State) :
    s.drbgReady.sec.entries = s.sec.entries ∧ s.drbgReady.sec.work = s.sec.work ∧ s.drbgReady.sec.upsets = s.sec.upsets := by
  unfold State.drbgReady
  split <;> exact ⟨rfl, rfl, rfl⟩

theorem State.generate_upsets (s : State) (n : Nat) : (s.generate n).sec.upsets = s.sec.upsets := s.drbgReady_sec.2.2

theorem State.engineRan_generate (s : State) (n : Nat) : s.EngineRan (s.generate n) :=
  ⟨⟨_, _, _, s.generate_rest n⟩, s.drbgReady_sec.1, s.drbgReady_sec.2.1⟩

theorem State.engineRan_raise (s : State) (n : Nat) : s.EngineRan (s.raise n) := by
  have h := s.raise_rest n
  exact ⟨⟨_, _, _, h⟩, by rw [h], by rw [h]⟩

theorem State.engineRan_note (s : State) (c : FaultChan) (kind : Nat) : s.EngineRan (s.note c kind) := by
  have h := s.note_eq c kind
  exact ⟨⟨_, _, _, h⟩, by rw [h], by rw [h]⟩

theorem State.engineRan_secEvent (s : State) (code p sc wher : Nat) : s.EngineRan (s.secEvent code p sc wher) := by
  have hcount : s.EngineRan { s with sec := { s.sec with errors := satInc s.sec.errors } } := ⟨⟨_, _, _, rfl⟩, rfl, rfl⟩
  exact (hcount.trans (State.engineRan_note _ .security code)).trans ⟨⟨_, _, _, rfl⟩, rfl, rfl⟩

theorem State.engineRan_meetUpsets (s : State) : s.EngineRan s.meetUpsets := by
  unfold State.meetUpsets
  extract_lets hits sec t
  have ht : s.EngineRan t := ⟨⟨_, _, _, rfl⟩, rfl, rfl⟩
  split
  · exact ht.trans (t.engineRan_note ..)
  · exact ht

/-! ## The end of a security operation (R366) -/

/-- What the end of a security operation sends out: its bytes to the host buffer that it names, when there are any (R366). -/
theorem State.secDone_spec (s : State) (f : Nat) (q : Req) (sc : Nat) (out : List Byte) :
    (∃ o, s.secDone f q sc out = { s with
      sec := { s.sec with idleSince := s.now }, gysis := (State.raise { s with sec := { s.sec with idleSince := s.now } } (128 + sc)).gysis, out := o }) ∧
      (q.handle = 0 ∨ out = [] → (s.secDone f q sc out).out = s.out) ∧
      ∀ a, q.handle ≠ 0 → out ≠ [] → s.hostRange f q.handle q.outOff out.length true = some a → (s.secDone f q sc out).out = .hostWrite f a out :: s.out := by
  have hraise := State.raise_rest { s with sec := { s.sec with idleSince := s.now } } (128 + sc)
  have hout : (State.raise { s with sec := { s.sec with idleSince := s.now } } (128 + sc)).out = s.out := by rw [hraise]
  unfold State.secDone
  dsimp only
  refine ⟨?_, fun h => ?_, fun a hh ho ha => ?_⟩
  · split
    · exact ⟨_, hraise⟩
    split
    · exact ⟨_, congrArg (fun t : State => t.emit _) hraise⟩
    · exact ⟨_, hraise⟩
  · rw [if_pos (by simpa using h), hout]
  · rw [if_neg (by simpa using ⟨hh, ho⟩), ha]
    exact congrArg _ hout

/-! ## The course of an operation (R364 to R372) -/

/-- The state in which an operation of a row has run and met its parity errors. -/
def State.secWorked (s : State) (op : Nat) (r : SecRow) (q : Req) : State :=
  ((if r.drbg then s.useWork.generate (secDrawn op q s) else s.useWork).draw 1).meetUpsets

theorem State.engineRan_secWorked (s : State) (op : Nat) (r : SecRow) (q : Req) : s.useWork.EngineRan (s.secWorked op r q) := by
  have hdrawn : s.useWork.EngineRan (if r.drbg then s.useWork.generate (secDrawn op q s) else s.useWork) := by
    split
    · exact State.engineRan_generate ..
    · exact .refl _
  exact (hdrawn.trans (State.engineRan_draw ..)).trans (State.engineRan_meetUpsets _)

/-- An operation has ended without an output. -/
def State.secStopped (t : State) (f : FnId) (op : Nat) (q : Req) (status : Nat) : CmdEnd :=
  .ended (t.secDone f q (secChannel f op) []) status (secResponse q []) (progressPosition q.progTotal) q.progTotal

/-- The cupboard with what an operation stores and clears. -/
def State.stored (s : State) (p : Nat) (q : Req) (o : SecOut) : State :=
  let t := if o.clears then s.setEntry p q.entryIx none else s
  match o.dest with
  | some d => t.setEntry p (q.param 0 2) (some d)
  | none => t

/-- The end of an operation that has run to the result `o`. -/
def State.secEnds (s m : State) (f : FnId) (op : Nat) (q : Req) (o : SecOut) : CmdEnd :=
  if 2 ≤ s.sec.upsets then m.secStopped f op q stFailed
  else if o.status ≠ stOk then
    (if o.event ≠ 0 then m.secEvent o.event (f.val - 1) (secChannel f op) o.wher else m).secStopped f op q o.status
  else
    .ended ((m.stored (f.val - 1) q o).secDone f q (secChannel f op) o.out) stOk (secResponse q o.out) (progressPosition q.progTotal) q.progTotal

/-- A command whose effect ends it, with progress that shows a position. -/
theorem State.runCmd_of_position {s t : State} {f k status progress total : Nat} {want : Req → Bool} {body : Req → CmdEnd} {resp : List Byte}
    (hrun : ((s.fn f).slot k).state = .running) (hwant : want (s.cmd f k) = true)
    (hbody : body (s.cmd f k) = .ended t status resp (progressPosition progress) total) :
    s.runCmd f k want body = t.endCmd f k status (progressPosition progress) total resp := by
  have hne : progressPosition progress ≠ 0 := by unfold progressPosition; omega
  unfold State.cmd at hwant hbody
  simp [State.runCmd, hrun, hwant, hbody, hne]

theorem State.secBehind_congr {s t : State} (h : t.fns = s.fns) (f k : Nat) : t.secBehind f k = s.secBehind f k := by
  unfold State.secBehind State.fn
  rw [h]

theorem State.entryInUse_congr {s t : State} (h : t.fns = s.fns) (f i k : Nat) : t.entryInUse f i k = s.entryInUse f i k := by
  unfold State.entryInUse State.fn
  rw [h]

/-- The state without the parity errors held. -/
def State.withoutUpsets (s : State) : State := { s with sec := { s.sec with upsets := 0 } }

/-- The checks of an operation do not see the parity errors held (R384). -/
theorem State.checkSecurity_withoutUpsets (s : State) (f k : Nat) (q : Req) : checkSecurity s.withoutUpsets f k q = checkSecurity s f k q := by
  have huse (i : Nat) : s.withoutUpsets.entryInUse f i k = s.entryInUse f i k := State.entryInUse_congr (s := s) (t := s.withoutUpsets) rfl ..
  have hmicro (p : Nat) : s.withoutUpsets.microFits f p q = s.microFits f p q := rfl
  have hdest (p : Nat) : s.withoutUpsets.destOk p q = s.destOk p q := rfl
  have hbuf (out : Nat) : s.withoutUpsets.buffersOk f q out = s.buffersOk f q out := rfl
  have htype (p : Nat) : s.withoutUpsets.keyTypeOf p q = s.keyTypeOf p q := rfl
  have hentry (p i : Nat) : s.withoutUpsets.entryAt p i = s.entryAt p i := rfl
  have hpart (p : Nat) : s.withoutUpsets.part p = s.part p := rfl
  have hcode : s.withoutUpsets.sec.microcode = s.sec.microcode := rfl
  unfold checkSecurity
  simp only [huse, hmicro, hdest, hbuf, htype, hentry, hpart, hcode]

theorem State.SecReady.withoutUpsets {s : State} {f : FnId} {k : SlotId} {op : Nat} {r : SecRow} (h : s.SecReady f k op r) : s.withoutUpsets.SecReady f k op r where
  vf := h.vf
  row := h.row
  running := h.running
  request := h.request
  engine := h.engine
  first ho := (State.secBehind_congr (s := s) (t := s.withoutUpsets) rfl ..).trans (h.first ho)
  domain := h.domain
  checks := (s.checkSecurity_withoutUpsets ..).trans h.checks
  random := h.random
  tag := h.tag
  parity := Nat.two_pos

/-- An operation that is ready, apart from its parity errors, runs its course to the end. -/
theorem State.secRun_ends {s t : State} {f : FnId} {k : SlotId} {op : Nat} {r : SecRow} (h : s.withoutUpsets.SecReady f k op r)
    {hostIn : List Byte} {body : State → Req → Option CupEntry → List Byte → DrbgRun → SecOut} {status progress total : Nat} {resp : List Byte}
    (hend : s.secEnds (s.secWorked op r (s.cmd f k)) f op (s.cmd f k)
      (body s (s.cmd f k) (s.secEntry (f.val - 1) r (s.cmd f k)) ((s.cmd f k).input hostIn) s.rnd) = .ended t status resp (progressPosition progress) total) :
    s.secRun f k op hostIn body = t.endCmd f k status (progressPosition progress) total resp := by
  have hengine : s.sec.retired = false := h.engine
  have hdomain : s.domain 118 = .on := h.domain
  have hchecks : checkSecurity s f k (s.cmd f k) = stOk := (s.checkSecurity_withoutUpsets ..).symm.trans h.checks
  have hbehind : (r.own && s.secBehind f k) = false := Bool.and_eq_false_imp.mpr fun ho =>
    (State.secBehind_congr (s := s) (t := s.withoutUpsets) rfl ..).symm.trans (h.first ho)
  have hrandom : (r.drbg && decide (s.sec.drbg ≠ .running)) = false :=
    Bool.and_eq_false_imp.mpr fun hr => decide_eq_false (not_not_intro (h.random hr))
  have htag (e : CupEntry) (he : s.secEntry (f.val - 1) r (s.cmd f k) = some e) : (!e.tagOk && op != 0x0062) = false := by
    rcases h.tag e he with hok | hop
    · simp [hok]
    · simp [hop]
  refine State.runCmd_of_position h.running h.request ?_
  dsimp only
  rw [h.row, Option.getD_some, if_neg h.vf, hengine, if_neg Bool.false_ne_true, hbehind, if_neg Bool.false_ne_true, if_neg (not_not_intro hdomain), if_neg (not_not_intro hchecks),
    hrandom, if_neg Bool.false_ne_true, ← hend]
  cases he : s.secEntry (f.val - 1) r (s.cmd f k) with
  | none => rfl
  | some e =>
    dsimp only
    rw [htag e he]
    rfl

/-! ## The answer of an operation -/

theorem State.hostRange_congr {s t : State} (h : t.fns = s.fns) (f a off n : Nat) (w : Bool) : t.hostRange f a off n w = s.hostRange f a off n w := by
  unfold State.hostRange State.hostBuf State.fn
  rw [h]

/-- The cupboard after an operation stores what it makes and clears what it names. -/
theorem State.stored_spec (s : State) (p : Nat) (q : Req) (o : SecOut) :
    (∃ e, s.stored p q o = { s with sec := { s.sec with entries := e } }) ∧
      ∀ i, Tab.get none (s.stored p q o).sec.entries i =
        if o.dest.isSome = true ∧ i = cupKey p (q.param 0 2) then o.dest
        else if o.clears = true ∧ i = cupKey p q.entryIx then none else Tab.get none s.sec.entries i := by
  have hcleared : ∃ t, t = (if o.clears then s.setEntry p q.entryIx none else s) ∧ (∃ e, t = { s with sec := { s.sec with entries := e } }) ∧
      ∀ i, Tab.get none t.sec.entries i = if o.clears = true ∧ i = cupKey p q.entryIx then none else Tab.get none s.sec.entries i := by
    refine ⟨_, rfl, ?_, fun i => ?_⟩
    · split <;> exact ⟨_, rfl⟩
    · cases o.clears with
      | false => simp
      | true => simp [State.setEntry, Tab.get_set]
  obtain ⟨t, ht, ⟨e, hrest⟩, hentries⟩ := hcleared
  unfold State.stored
  dsimp only
  rw [← ht]
  cases o.dest with
  | none => exact ⟨⟨e, hrest⟩, by simpa using hentries⟩
  | some d =>
    refine ⟨⟨Tab.set none e (cupKey p (q.param 0 2)) (some d), by rw [hrest]; rfl⟩, fun i => ?_⟩
    simp only [State.setEntry, Tab.get_set, hentries, Option.isSome_some, true_and]

section Answers
variable {s m : State} {f : FnId} {k : SlotId} {o : SecOut} (hm : s.useWork.EngineRan m)
include hm

/-- An operation that ends without an output answers its status and changes nothing that the engine does not keep for itself. -/
theorem State.secAnswers_of_stopped (ho : o.status ≠ 0) (sc : Nat) :
    s.SecAnswers f k (.next ((m.secDone f (s.cmd f k) sc []).endCmd f k o.status (progressPosition (s.cmd f k).progTotal) (s.cmd f k).progTotal
      (secResponse (s.cmd f k) []))) o := by
  obtain ⟨⟨out, hdone⟩, hquiet, -⟩ := m.secDone_spec f (s.cmd f k) sc []
  obtain ⟨sec, g, free, hrest⟩ := hm.rest
  refine ⟨m.secDone f (s.cmd f k) sc [], by rw [if_neg ho], ?_, ?_, ?_, ?_, fun _ => ?_, fun _ _ _ h0 => absurd h0 ho, ?_, fun i => ?_⟩
  · rw [hdone, hrest]; rfl
  · rw [hdone, hrest]; rfl
  · rw [hdone, hrest]; rfl
  · rw [hdone, hrest]; rfl
  · rw [hquiet (.inr rfl), hrest]; rfl
  · rw [hdone]; exact hm.work
  · rw [if_neg (fun h => ho h.1), if_neg (fun h => ho h.1), hdone]
    exact congrArg (fun e => Tab.get none e i) hm.entries

/-- An operation that ends with OK answers its output and stores its entry. -/
theorem State.secAnswers_of_stored (ho : o.status = 0) (sc : Nat) :
    s.SecAnswers f k (.next (((m.stored (f.val - 1) (s.cmd f k) o).secDone f (s.cmd f k) sc o.out).endCmd f k 0 (progressPosition (s.cmd f k).progTotal)
      (s.cmd f k).progTotal (secResponse (s.cmd f k) o.out))) o := by
  obtain ⟨⟨e, hstored⟩, hentries⟩ := m.stored_spec (f.val - 1) (s.cmd f k) o
  generalize m.stored (f.val - 1) (s.cmd f k) o = n at hstored hentries
  obtain ⟨⟨out, hdone⟩, hquiet, hsent⟩ := n.secDone_spec f (s.cmd f k) sc o.out
  obtain ⟨sec, g, free, hrest⟩ := hm.rest
  have hfns : n.fns = s.fns := by rw [hstored, hrest]; rfl
  have hout : n.out = s.out := by rw [hstored, hrest]; rfl
  refine ⟨n.secDone f (s.cmd f k) sc o.out, by rw [if_pos ho], ?_, ?_, ?_, ?_, fun h => ?_, fun a hh hne _ ha => ?_, ?_, fun i => ?_⟩
  · rw [hdone, hstored, hrest]; rfl
  · rw [hdone, hstored, hrest]; rfl
  · rw [hdone, hstored, hrest]; rfl
  · rw [hdone]; exact hfns
  · rw [hquiet (h.imp_right fun h => h.resolve_right (not_not_intro ho)), hout]
  · rw [hsent a hh hne ((State.hostRange_congr hfns ..).trans ha), hout]
  · rw [hdone, hstored]; exact hm.work
  · rw [hdone]
    refine (hentries i).trans ?_
    simp only [ho, true_and, hm.entries]
    rfl

end Answers

/-- An operation that is ready answers the result that it computes (R366). -/
theorem State.secRun_answers {s : State} {f : FnId} {k : SlotId} {op : Nat} {r : SecRow} (h : s.SecReady f k op r) {hostIn : List Byte}
    {body : State → Req → Option CupEntry → List Byte → DrbgRun → SecOut} {o : SecOut}
    (ho : body s (s.cmd f k) (s.secEntry (f.val - 1) r (s.cmd f k)) ((s.cmd f k).input hostIn) s.rnd = o) :
    s.SecAnswers f k (.next (s.secRun f k op hostIn body)) o := by
  have hm := s.engineRan_secWorked op r (s.cmd f k)
  have hfew : ¬ 2 ≤ s.sec.upsets := Nat.not_le.mpr h.parity
  by_cases hok : o.status = stOk
  · rw [State.secRun_ends h.withoutUpsets (by rw [ho, State.secEnds, if_neg hfew, if_neg (not_not_intro hok)])]
    exact State.secAnswers_of_stored hm hok _
  · rw [State.secRun_ends h.withoutUpsets (by rw [ho, State.secEnds, if_neg hfew, if_pos hok]; rfl)]
    refine State.secAnswers_of_stopped ?_ hok _
    split
    · exact hm.trans (State.engineRan_secEvent ..)
    · exact hm

/-! ## Signatures (R368, R376) -/

/-- An RSA verify refuses an exponent that is even or below 3, and otherwise answers RESULT (R368). -/
theorem rsaVerdict_eq (bytes : Nat) (x : List Byte) : rsaVerdict bytes x =
    if beNat ((x.drop bytes).take 4) % 2 = 0 ∨ beNat ((x.drop bytes).take 4) < 3 then { status := 4 }
    else { out := [if rsaVerify (beNat (x.take bytes)) (beNat ((x.drop bytes).take 4)) bytes ((x.drop (bytes + 4)).take 48) (x.drop (bytes + 52)) then 1 else 0] } := by
  simp only [rsaVerdict, Bool.or_eq_true, decide_eq_true_eq]
  rfl

/-- Settles O31: each operation answers what its table row computes from the entry, the input and the DRBG. -/
theorem signaturesAreCheckedBeforeRelease : Obligations.SignaturesAreCheckedBeforeRelease := by
  refine ⟨?p256Sign, ?p384Sign, ?p256Verify, ?p384Verify, ?edSign, ?edVerify, ?rsa3072Sign, ?rsa4096Sign, ?rsa3072Verify, ?rsa4096Verify, ?dsaSign, ?dsaVerify⟩
  case p256Sign => exact fun s f k h r hr => State.secRun_answers hr rfl
  case p384Sign => exact fun s f k h r hr => State.secRun_answers hr rfl
  case p256Verify => exact fun s f k h r hr => State.secRun_answers hr rfl
  case p384Verify => exact fun s f k h r hr => State.secRun_answers hr rfl
  case edSign => exact fun s f k h r hr => State.secRun_answers hr rfl
  case edVerify => exact fun s f k h r hr => State.secRun_answers hr rfl
  case rsa3072Sign => exact fun s f k h r hr => State.secRun_answers hr rfl
  case rsa4096Sign => exact fun s f k h r hr => State.secRun_answers hr rfl
  case rsa3072Verify =>
    intro s f k h r e hr he
    rw [he]
    exact State.secRun_answers hr (rsaVerdict_eq 384 _)
  case rsa4096Verify =>
    intro s f k h r e hr he
    rw [he]
    exact State.secRun_answers hr (rsaVerdict_eq 512 _)
  case dsaSign =>
    intro s f k h r hr
    refine State.secRun_answers hr ?_
    unfold State.secKey
    generalize dsaSign _ _ _ _ = sig
    cases sig with
    | none => rfl
    | some sig => rfl
  case dsaVerify => exact fun s f k h r hr => State.secRun_answers hr rfl

/-! ## Two parity errors of working memory (R384) -/

theorem State.meetUpsets_twice {s : State} (h : 2 ≤ s.sec.upsets) :
    { chan := .security, time := s.now, kind := 0 } ∈ s.meetUpsets.gysis.hist ∧ s.meetUpsets.sec.upsets = s.sec.upsets - 2 := by
  unfold State.meetUpsets
  rw [Nat.min_eq_left h]
  dsimp only
  rw [if_pos rfl]
  exact ⟨List.mem_cons_self, rfl⟩

theorem State.secWorked_upsets (s : State) (op : Nat) (r : SecRow) (q : Req) (h : 2 ≤ s.sec.upsets) :
    { chan := .security, time := s.now, kind := 0 } ∈ (s.secWorked op r q).gysis.hist ∧ (s.secWorked op r q).sec.upsets = s.sec.upsets - 2 := by
  have hdrawn (t : State) (ht : t = if r.drbg then s.useWork.generate (secDrawn op q s) else s.useWork) : t.now = s.now ∧ t.sec.upsets = s.sec.upsets := by
    rw [ht]
    split
    · refine ⟨?_, State.generate_upsets ..⟩
      rw [State.generate_rest]
      rfl
    · exact ⟨rfl, rfl⟩
  unfold State.secWorked
  obtain ⟨hnow, hups⟩ := hdrawn _ rfl
  generalize (if r.drbg then s.useWork.generate (secDrawn op q s) else s.useWork) = t at hnow hups ⊢
  have hmet := State.meetUpsets_twice (s := t.draw 1) (h.trans_eq hups.symm)
  rw [← hnow, ← hups]
  exact hmet

theorem State.endCmd_kept (s : State) (f k status progress total : Nat) (resp : List Byte) :
    (s.endCmd f k status progress total resp).gysis = s.gysis ∧ (s.endCmd f k status progress total resp).sec = s.sec := by
  obtain ⟨fns, hrest, -⟩ := s.endCmd_spec f k status progress total resp
  rw [hrest]
  exact ⟨rfl, rfl⟩

/-- An operation that meets two parity errors ends FAILED, and they enter the engine's history (R384, R456). -/
theorem State.secRun_upset {s : State} {f : FnId} {k : SlotId} {op : Nat} {r : SecRow} (h : s.withoutUpsets.SecReady f k op r) (hups : 2 ≤ s.sec.upsets) {hostIn : List Byte}
    {body : State → Req → Option CupEntry → List Byte → DrbgRun → SecOut} :
    s.SecAnswers f k (.next (s.secRun f k op hostIn body)) { status := 6 } ∧
      { chan := .security, time := s.now, kind := 0 } ∈ (s.secRun f k op hostIn body).gysis.hist ∧ (s.secRun f k op hostIn body).sec.upsets = s.sec.upsets - 2 := by
  obtain ⟨hhist, hleft⟩ := s.secWorked_upsets op r (s.cmd f k) hups
  have hm := s.engineRan_secWorked op r (s.cmd f k)
  rw [State.secRun_ends h (by rw [State.secEnds, if_pos hups]; rfl), (State.endCmd_kept ..).1, (State.endCmd_kept ..).2]
  refine ⟨State.secAnswers_of_stopped hm (o := { status := 6 }) (by decide) _, ?_, ?_⟩
  all_goals
    obtain ⟨⟨out, hdone⟩, -, -⟩ := (s.secWorked op r (s.cmd f k)).secDone_spec f (s.cmd f k) (secChannel f op) []
    rw [hdone]
  · dsimp only
    rw [State.raise_gysis]
    exact hhist
  · exact hleft

/-! ## Keys (R368, R370, R372, R376, R383) -/

/-- A word of working memory reads as zero before the operation has written it, and as written after (R377). -/
theorem WorkMem.read_spec (x : WorkMem) (w u : Nat) (v : Word) :
    x.begin.read w = 0 ∧ (x.write w v).read w = v ∧ (u % 65536 ≠ w % 65536 → (x.write w v).read u = x.read u) := by
  refine ⟨rfl, ?_, fun hne => ?_⟩
  · by_cases hw : w % 65536 ∈ x.written <;> simp [WorkMem.read, WorkMem.write, hw]
  · by_cases hw : w % 65536 ∈ x.written <;> simp [WorkMem.read, WorkMem.write, hw, hne, Tab.get_set]

section Ecdh
variable {c : Curve} {q : Req} {op : Nat} {e : Option CupEntry} {x : List Byte}

theorem ecdhShare_of_off (h : c.decode x = none) : ecdhShare c q op e x = { status := 4 } := by
  rw [ecdhShare, h]
  rfl

theorem ecdhShare_of_on {pt : Nat × Nat} {a b : Nat} (h : c.decode x = some pt) (hmul : c.mul (beNat (materialOf e)) (some pt) = some (a, b)) (hon : c.on a b = true) :
    ecdhShare c q op e x = { dest := some { type_ := 0x03, usage := BitVec.ofNat 5 (q.param 3 1), material := beBytes c.bytes a } } := by
  simp [ecdhShare, h, hmul, hon, SecOut.check, sharedEntry]

end Ecdh

/-- The OP of a microcode request (R383). -/
theorem State.microOp_of_request {s : State} {f k n : Nat} (hn : n ≤ 15) (h : isSec (0x0100 + n) (s.cmd f k) = true) : s.microOp f k = 0x0100 + n := by
  have hop : ((s.fn f).slot k).req.secOp = 0x0100 + n := by
    have := (Bool.and_eq_true_iff.mp h).2
    simpa [State.cmd] using this
  unfold State.microOp
  rw [hop]
  simp
  omega

/-- What a microcode program answers: as much of its free output as fits (R366, R383). -/
def microAnswer (f : FnId) (op : Nat) (u : State) (q : Req) (x : List Byte) : SecOut :=
  let e := if q.entryIx < (u.part (f.val - 1)).quota then u.entryAt (f.val - 1) q.entryIx else none
  let o := Config.microcode (op - 0x0100) u.free ((q.body.drop 32).take 32) (materialOf e) x
  let room := if q.handle = 0 then 448 else match u.hostBuf f q.handle with | some b => if b.canWrite then b.bytes - q.outOff else 0 | none => 0
  { out := o.take room }

theorem exec_microcodeProgram {s : State} {f : FnId} {k : SlotId} {n : Nat} (hn : n ≤ 15) (hrun : ((s.fn f).slot k).state = .running)
    (hsec : isSec (0x0100 + n) (s.cmd f k) = true) (h : List Byte) :
    exec (.microcodeProgram f k h) s = .next ((s.secRun f k (0x0100 + n) h (fun u q _ x _ => microAnswer f (0x0100 + n) u q x)).draw 1) := by
  rw [← State.microOp_of_request hn hsec]
  change execMicrocodeProgram f k h s = _
  unfold execMicrocodeProgram
  rw [hrun]
  rfl

/-- Settles O32: what each operation puts at DEST, clears and answers. -/
theorem keyOperationsFillOnlyDest : Obligations.KeyOperationsFillOnlyDest := by
  refine ⟨WorkMem.read_spec, ?random, ?upset, ?ecdhP256, ?ecdhP384, ?encaps, ?decaps, ?keygen, ?pubkey, ?destroy, ?unwrap, ?micro⟩
  case random => exact fun s f k r hr => State.secRun_answers hr rfl
  case upset =>
    intro s f k r hr hups
    obtain ⟨hanswers, hhist, hleft⟩ := State.secRun_upset hr hups
    exact ⟨hanswers, _, rfl, hhist, hleft⟩
  case ecdhP256 =>
    exact fun s f k h r hr => ⟨fun hoff => State.secRun_answers hr (ecdhShare_of_off hoff),
      fun pt a b hpt hmul hon => State.secRun_answers hr (ecdhShare_of_on hpt hmul hon)⟩
  case ecdhP384 =>
    exact fun s f k h r hr => ⟨fun hoff => State.secRun_answers hr (ecdhShare_of_off hoff),
      fun pt a b hpt hmul hon => State.secRun_answers hr (ecdhShare_of_on hpt hmul hon)⟩
  case encaps =>
    intro s f k h r hr
    refine State.secRun_answers hr ?_
    cases kemKeyOk ((s.cmd f k).input h) with
    | false => rfl
    | true => rfl
  case decaps => exact fun s f k h r hr => State.secRun_answers hr rfl
  case keygen =>
    intro s f k r m hr hm
    rw [hm]
    exact State.secRun_answers hr rfl
  case pubkey =>
    intro s f k r e hr he
    exact State.secRun_answers hr (by rw [he])
  case destroy => exact fun s f k r hr => State.secRun_answers hr rfl
  case unwrap =>
    intro s f k h r hr
    refine State.secRun_answers hr ?_
    unfold State.secKey
    generalize kwpUnwrap _ _ = m
    cases m with
    | none => rfl
    | some m =>
      dsimp only
      cases storedOk ((s.cmd f k).param 2 1) m.length with
      | false => rfl
      | true => rfl
  case micro =>
    intro s f k h r n hn hr
    refine ⟨_, exec_microcodeProgram hn hr.running hr.request h, State.secRun_answers hr ?_⟩
    rw [microAnswer, Nat.add_sub_cancel_left] <;> rfl

/-! ## Hashes in chunks (R24, R375, R378, R379) -/

/-- A command whose effect leaves its slot RUNNING. -/
theorem State.runCmd_waiting {s t : State} {f k : Nat} {want : Req → Bool} {body : Req → CmdEnd} (hrun : ((s.fn f).slot k).state = .running)
    (hwant : want (s.cmd f k) = true) (hbody : body (s.cmd f k) = .waits t) : s.runCmd f k want body = t := by
  unfold State.cmd at hwant hbody
  simp [State.runCmd, hrun, hwant, hbody]

/-- The operations that run in chunks are of the table, on the partition's own channel. -/
theorem secRow_chunked {op : Nat} {r : SecRow} (h : secRow op = some r) (hop : op ∈ [0x10, 0x11, 0x12, 0x13, 0x18, 0x19, 0x1A, 0x20]) : r.own = true ∧ op ≠ 0x0062 := by
  have hall : ∀ op ∈ [0x10, 0x11, 0x12, 0x13, 0x18, 0x19, 0x1A, 0x20], ((secRow op).all (·.own) && op != 0x0062) = true := by decide
  have := hall op hop
  rw [h] at this
  simpa using this

/-- The context with which an operation joins its unit (R378). -/
def State.joining (s : State) (f : FnId) (k : SlotId) (op : Nat) (r : SecRow) (h : List Byte) : HashCtx where
  fn := f.val
  slot := k.val
  aes := op == 0x0020
  op := op
  data := (s.cmd f k).input h
  key := s.secKey f k r
  iv := beNat (((s.cmd f k).body.drop 32).take 16)
  chunks := if op = 0x0020 then max 1 (ceilDiv (s.cmd f k).inBytes 4096) else hashChunks op (s.cmd f k).inBytes

/-- An operation in chunks joins its unit, and its slot runs on (R378). -/
theorem State.chunkedRun_joins {s : State} {f : FnId} {k : SlotId} {op : Nat} {r : SecRow} (h : s.SecReady f k op r) (hfree : Tab.get none s.sec.hash (f.val - 1) = none)
    (hop : op ∈ [0x10, 0x11, 0x12, 0x13, 0x18, 0x19, 0x1A, 0x20]) (x : List Byte) :
    s.chunkedRun f k op x = { s.useWork.draw 1 with
      sec := { s.useWork.sec with hash := Tab.set none s.sec.hash (f.val - 1) (some (s.joining f k op r x)) } } := by
  obtain ⟨hown, hne⟩ := secRow_chunked h.row hop
  have hbehind : ((Tab.get none s.sec.hash (f.val - 1)).isSome || s.secBehind f k) = false := by rw [hfree, h.first hown]; rfl
  have htag (e : CupEntry) (he : s.secEntry (f.val - 1) r (s.cmd f k) = some e) : (!e.tagOk) = false := by
    rw [(h.tag e he).resolve_right hne]
    rfl
  have hchecks : checkSecurity s f k (s.cmd f k) = stOk := h.checks
  have haes : (if (op == 0x0020) = true then max 1 (ceilDiv (s.cmd f k).inBytes 4096) else hashChunks op (s.cmd f k).inBytes) =
      if op = 0x0020 then max 1 (ceilDiv (s.cmd f k).inBytes 4096) else hashChunks op (s.cmd f k).inBytes := if_congr beq_iff_eq rfl rfl
  refine State.runCmd_waiting h.running h.request ?_
  dsimp only
  rw [h.row, Option.getD_some, if_neg h.vf, h.engine, if_neg Bool.false_ne_true, hbehind, if_neg Bool.false_ne_true, if_neg (not_not_intro h.domain),
    if_neg (not_not_intro hchecks), haes]
  unfold State.joining State.secKey
  cases he : s.secEntry (f.val - 1) r (s.cmd f k) with
  | none => rfl
  | some e =>
    dsimp only
    rw [htag e he]
    rfl

/-- The engine with a grant charged keeps its contexts, its cupboard and its parity errors (R379). -/
theorem Security.charge_rest (x : Security) (aes : Bool) (sc sclk : Nat) : ∃ a b c d, x.charge aes sc sclk = { x with aesSclk := a, aesLast := b, hashSclk := c, hashLast := d } := by
  cases aes with
  | false => exact ⟨_, _, _, _, rfl⟩
  | true => exact ⟨_, _, _, _, rfl⟩

/-- The state in which a grant has been charged and the channel's context is replaced (R378, R379). -/
def State.granted (s : State) (aes : Bool) (ch : Nat) (c : HashCtx) (next : Option HashCtx) (upsets : Nat) (errors : Word) : State :=
  { s with sec := { s.sec.charge aes ch c.sclk with hash := Tab.set none s.sec.hash ch next, upsets := upsets, errors := errors, idleSince := s.now } }

theorem State.granted_spec (s : State) (aes : Bool) (ch : Nat) (c : HashCtx) (next : Option HashCtx) (upsets : Nat) (errors : Word) :
    (s.granted aes ch c next upsets errors).sec.entries = s.sec.entries ∧ Tab.get none (s.granted aes ch c next upsets errors).sec.hash ch = next ∧
      ∀ j, j ≠ ch → Tab.get none (s.granted aes ch c next upsets errors).sec.hash j = Tab.get none s.sec.hash j := by
  obtain ⟨a, b, d, e, hx⟩ := s.sec.charge_rest aes ch c.sclk
  unfold State.granted
  rw [hx]
  exact ⟨rfl, Tab.get_set_same .., fun j hj => Tab.get_set_other _ _ _ hj⟩

theorem State.fns_secDone (s : State) (f : Nat) (q : Req) (sc : Nat) (out : List Byte) : (s.secDone f q sc out).fns = s.fns := by
  obtain ⟨⟨o, hdone⟩, -, -⟩ := s.secDone_spec f q sc out
  rw [hdone]

/-- A command of the engine ends in the slot that still runs it. -/
theorem State.endWaiting_of_fns {s t : State} {f k : Nat} (hruns : s.runs f k 0x0701) (h : t.fns = s.fns) {status progress total : Nat} {resp : List Byte} :
    t.endWaiting f k (isOp 0x0701) status progress total resp = t.endCmd f k status progress total resp := by
  have hfn : t.fn f = s.fn f := by
    unfold State.fn
    rw [h]
  obtain ⟨hrun, hop⟩ := State.running_isOp_of_runs hruns
  refine State.endWaiting_of_running ?_ ?_ ..
  · rw [hfn]; exact hrun
  · rw [State.cmd, hfn]; exact hop

section Grant
variable {s : State} {aes : Bool} {ch : Nat} {c : HashCtx} (hnext : s.sec.nextChannel aes = some ch) (hctx : Tab.get none s.sec.hash ch = some c)
include hnext hctx

theorem exec_hashChunkGrant_more (hups : s.sec.upsets = 0) (hmore : c.done + 1 < c.chunks) :
    ∃ t n total, t = s.granted aes ch c (some { c with done := c.done + 1, mark := max c.mark (c.done + 1) }) s.sec.upsets s.sec.errors ∧
      (exec (.hashChunkGrant aes) s = .next t ∨
        exec (.hashChunkGrant aes) s = .next (t.setSlot c.fn c.slot ((((t.fn c.fn).slot c.slot).putRun 20 (leBytes 4 n)).putRun 24 (leBytes 4 total)))) := by
  obtain ⟨a, b, d, e, hx⟩ := s.sec.charge_rest aes ch c.sclk
  refine ⟨_, progressPosition (min (max c.mark (c.done + 1)) (s.cmd c.fn c.slot).progTotal), (s.cmd c.fn c.slot).progTotal, rfl, ?_⟩
  change execHashChunkGrant aes s = _ ∨ execHashChunkGrant aes s = _
  unfold execHashChunkGrant State.granted
  simp only [hnext, hctx, hx, hups, if_pos hmore, ne_eq, not_true_eq_false, if_false]
  split
  · exact .inr rfl
  · exact .inl rfl

theorem exec_hashChunkGrant_last (hups : s.sec.upsets = 0) (hlast : c.chunks ≤ c.done + 1) (hruns : s.runs c.fn c.slot 0x0701) :
    exec (.hashChunkGrant aes) s = .next (((s.granted aes ch c none s.sec.upsets s.sec.errors).secDone c.fn (s.cmd c.fn c.slot) ch c.output).endCmd c.fn c.slot 0
      (progressPosition (s.cmd c.fn c.slot).progTotal) (s.cmd c.fn c.slot).progTotal (secResponse (s.cmd c.fn c.slot) c.output)) := by
  obtain ⟨a, b, d, e, hx⟩ := s.sec.charge_rest aes ch c.sclk
  have hslot := State.fns_secDone (s.granted aes ch c none s.sec.upsets s.sec.errors) c.fn (s.cmd c.fn c.slot) ch c.output
  rw [← State.endWaiting_of_fns hruns hslot]
  change execHashChunkGrant aes s = _
  unfold execHashChunkGrant State.granted
  simp only [hnext, hctx, hx, hups, if_neg (Nat.not_lt.mpr hlast), ne_eq, not_true_eq_false, if_false]
  rfl

theorem exec_hashChunkGrant_again (hups : s.sec.upsets ≠ 0) (hfirst : c.reran = false) :
    exec (.hashChunkGrant aes) s = .next (s.granted aes ch c (some { c with done := 0, mark := max c.mark (c.done + 1), reran := true }) (s.sec.upsets - 1)
      (satInc s.sec.errors)) := by
  obtain ⟨a, b, d, e, hx⟩ := s.sec.charge_rest aes ch c.sclk
  change execHashChunkGrant aes s = _
  unfold execHashChunkGrant State.granted
  simp only [hnext, hctx, hx, ne_eq, hups, not_false_eq_true, if_true, hfirst, Bool.false_eq_true, if_false]

theorem exec_hashChunkGrant_fails (hups : s.sec.upsets ≠ 0) (hsecond : c.reran = true) (hruns : s.runs c.fn c.slot 0x0701) :
    ∃ n, exec (.hashChunkGrant aes) s = .next ((((s.granted aes ch c none (s.sec.upsets - 1) (satInc s.sec.errors)).note .security 0).secDone c.fn (s.cmd c.fn c.slot) ch []).endCmd
      c.fn c.slot 6 n (s.cmd c.fn c.slot).progTotal (secResponse (s.cmd c.fn c.slot) [])) := by
  obtain ⟨a, b, d, e, hx⟩ := s.sec.charge_rest aes ch c.sclk
  have hslot : ((((s.granted aes ch c none (s.sec.upsets - 1) (satInc s.sec.errors)).note .security 0).secDone c.fn (s.cmd c.fn c.slot) ch [])).fns = s.fns :=
    State.fns_secDone ..
  refine ⟨progressPosition (min (max c.mark (c.done + 1)) (s.cmd c.fn c.slot).progTotal), ?_⟩
  rw [← State.endWaiting_of_fns hruns hslot]
  change execHashChunkGrant aes s = _
  unfold execHashChunkGrant State.granted
  simp only [hnext, hctx, hx, ne_eq, hups, not_false_eq_true, if_true, hsecond]
  rfl

end Grant

/-- Settles O33: a command joins its unit, and each grant takes its channel one chunk further, to its end. -/
theorem hashesRunInChunks : Obligations.HashesRunInChunks := by
  refine ⟨fun s f k h op r c hr hfree hop => ?_, fun s aes ch c hnext hctx hups hmore => ?_, fun s aes ch c q hnext hctx hups hlast hq hruns hinline => ?_,
    fun s aes ch c hnext hctx hups => ⟨fun hfirst => ?_, fun hsecond hruns => ?_⟩⟩
  · rcases hop with ⟨rfl, rfl⟩ | ⟨rfl, rfl⟩ | ⟨rfl, rfl⟩ | ⟨rfl, rfl⟩ | ⟨rfl, rfl⟩ | ⟨rfl, rfl⟩ | ⟨rfl, rfl⟩ | ⟨rfl, rfl⟩
    all_goals exact congrArg _ (State.chunkedRun_joins hr hfree (by decide) h)
  · obtain ⟨t, n, total, ht, hexec⟩ := exec_hashChunkGrant_more hnext hctx hups hmore
    obtain ⟨hentries, hch, hothers⟩ := s.granted_spec aes ch c (some { c with done := c.done + 1, mark := max c.mark (c.done + 1) }) s.sec.upsets s.sec.errors
    have hfn : t.fn c.fn = s.fn c.fn := by rw [ht]; rfl
    have hrest : t.mem = s.mem ∧ t.rooms = s.rooms ∧ t.parts = s.parts := by rw [ht]; exact ⟨rfl, rfl, rfl⟩
    rw [← ht] at hentries hch hothers
    rcases hexec with hexec | hexec
    · exact ⟨t, hexec, hch, hothers, by rw [hfn], fun _ _ => by rw [hfn], hentries, hrest⟩
    · refine ⟨_, hexec, ?_⟩
      rw [State.setSlot_sec, State.setSlot_mem, State.setSlot_rooms, State.setSlot_parts]
      refine ⟨hch, hothers, ?_, fun i hi => ?_, hentries, hrest⟩
      · rw [State.slot_setSlot, if_pos rfl, Slot.putRun_state, Slot.putRun_state, hfn]
      · rw [State.slot_setSlot, if_pos rfl, Slot.byte_putRun, leBytes_length, if_neg (by omega), Slot.byte_putRun, leBytes_length, if_neg (by omega), hfn]
  · subst hq
    obtain ⟨hentries, hch, hothers⟩ := s.granted_spec aes ch c none s.sec.upsets s.sec.errors
    obtain ⟨⟨o, hdone⟩, hquiet, -⟩ := (s.granted aes ch c none s.sec.upsets s.sec.errors).secDone_spec c.fn (s.cmd c.fn c.slot) ch c.output
    refine ⟨_, exec_hashChunkGrant_last hnext hctx hups hlast hruns, ?_, fun j hj => ?_, ?_, ?_, ?_, ?_, ?_, hquiet (.inl hinline)⟩
    · rw [hdone]; exact hch
    · rw [hdone]; exact hothers j hj
    · rw [hdone]; exact hentries
    · rw [hdone]; rfl
    · rw [hdone]; rfl
    · rw [hdone]; rfl
    · rw [hdone]; rfl
  · obtain ⟨-, hch, -⟩ := s.granted_spec aes ch c (some { c with done := 0, mark := max c.mark (c.done + 1), reran := true }) (s.sec.upsets - 1) (satInc s.sec.errors)
    exact ⟨_, exec_hashChunkGrant_again hnext hctx hups hfirst, hch, rfl, rfl, rfl, rfl, rfl, rfl⟩
  · obtain ⟨n, hexec⟩ := exec_hashChunkGrant_fails hnext hctx hups hsecond hruns
    obtain ⟨-, hch, -⟩ := s.granted_spec aes ch c none (s.sec.upsets - 1) (satInc s.sec.errors)
    have hnoted := (s.granted aes ch c none (s.sec.upsets - 1) (satInc s.sec.errors)).note_eq .security 0
    generalize (s.granted aes ch c none (s.sec.upsets - 1) (satInc s.sec.errors)).note .security 0 = t at hexec hnoted
    obtain ⟨⟨o, hdone⟩, hquiet, -⟩ := t.secDone_spec c.fn (s.cmd c.fn c.slot) ch []
    refine ⟨_, n, hexec, ?_, ?_, ?_, ?_, ?_, ?_⟩
    · rw [hdone, hnoted]; exact hch
    · rw [hquiet (.inr rfl), hnoted]; rfl
    · rw [hdone, hnoted]; rfl
    · rw [hdone, hnoted]; rfl
    · rw [hdone, hnoted]; rfl
    · rw [hdone, hnoted]; rfl

/-! ## Attestation and staging (R381 to R383, R462, R503, R504, R507) -/

/-- A command that fails without an effect leaves its progress as it stood (R325, R330). -/
theorem State.runCmd_of_fail {s t : State} {f k op status : Nat} (h : s.runs f k op) {body : Req → CmdEnd} (hbody : body (s.cmd f k) = .fail t status) (hbad : status ≠ 0) :
    s.runCmd f k (isOp op) body = t.endCmd f k status (((s.fn f).slot k).field 20 4) (((s.fn f).slot k).field 24 4) [] := by
  obtain ⟨hrun, hop⟩ := State.running_isOp_of_runs h
  unfold State.cmd at hbody hop
  simp [State.runCmd, hrun, hop, hbody, CmdEnd.fail, stOk, hbad]

section Attest
variable {s : State} {f : FnId} {k : SlotId} (hruns : s.runs f k 0x0702)
include hruns

theorem exec_attest_failed (h : s.sec.retired = true ∨ s.boot.identityLost = true ∨ s.fwEntry 3 = none) :
    exec (.attest f k) s = .next (s.endCmd f k 6 (((s.fn f).slot k).field 20 4) (((s.fn f).slot k).field 24 4) []) := by
  have hlost : (s.sec.retired || s.boot.identityLost || (s.fwEntry 3).isNone) = true := by
    rcases h with h | h | h <;> simp [h]
  exact congrArg _ (State.runCmd_of_fail hruns (if_pos hlost) (by decide))

variable {e : CupEntry} (hengine : s.sec.retired = false) (hidentity : s.boot.identityLost = false) (halias : s.fwEntry 3 = some e) (hon : s.domain 118 = .on)
include hengine hidentity halias hon

theorem exec_attest_unwritable
    (hbuf : s.hostRange f ((s.cmd f k).field 32 2) ((s.cmd f k).field 40 8) (s.report f ((s.cmd f k).body.take 32)).length true = none) :
    exec (.attest f k) s = .next (s.endCmd f k 4 (((s.fn f).slot k).field 20 4) (((s.fn f).slot k).field 24 4) []) := by
  have hcheck : checkAttest s f (s.cmd f k) = stBadArgument := by simp [checkAttest, hbuf]
  refine congrArg _ (State.runCmd_of_fail hruns ?_ (by decide))
  dsimp only
  rw [hengine, hidentity, halias, if_neg (by simp), if_neg (not_not_intro hon), hcheck]
  rfl

theorem exec_attest_sends {a : Nat} (hnamed : (s.cmd f k).field 32 2 ≠ 0)
    (hbuf : s.hostRange f ((s.cmd f k).field 32 2) ((s.cmd f k).field 40 8) (s.report f ((s.cmd f k).body.take 32)).length true = some a) :
    exec (.attest f k) s = .next ((((State.raise { s with sec := { s.sec with idleSince := s.now } } (128 + 24)).draw 56).emit
      (.hostWrite f a (s.report f ((s.cmd f k).body.take 32)))).endCmd f k 0 0 0 (leBytes 4 (s.report f ((s.cmd f k).body.take 32)).length)) := by
  have hcheck : checkAttest s f (s.cmd f k) = stOk := by simp [checkAttest, hnamed, hbuf]
  refine congrArg _ (State.runCmd_of_ok hruns ?_)
  dsimp only
  rw [hengine, hidentity, halias, if_neg (by simp), if_neg (not_not_intro hon), hcheck, if_neg (not_not_intro rfl), hbuf]

end Attest

/-- The image that a FIRMWARE_STAGE names, with the programs of a bundle (R383). -/
def stagedImage (q : Req) (hostIn : List Byte) : Image := { imageOf hostIn with programs := if q.field 20 1 = 1 then bundlePrograms hostIn else [] }

section Stage
variable {s : State} {k : SlotId} {hostIn : List Byte} (hruns : s.runs 0 k 0x0604)
include hruns

theorem exec_firmwareStage_retired (hengine : s.sec.retired = true) : exec (.firmwareStage 0 k hostIn) s =
    .next (s.endCmd 0 k 6 (progressPosition 0) (ceilDiv ((s.cmd 0 k).field 16 4) 4096) (leBytes 4 0)) :=
  congrArg _ (State.runCmd_of_position hruns.1 (State.running_isOp_of_runs hruns).2 (if_pos hengine))

variable (hengine : s.sec.retired = false) (hon : s.domain 118 = .on) (hcheck : checkStage s 0 (s.cmd 0 k) = 0) (hlen : hostIn.length = (s.cmd 0 k).field 16 4)
include hengine hon hcheck hlen

theorem exec_firmwareStage_refused (hbad : s.imageOk (imageOf hostIn) = false) : exec (.firmwareStage 0 k hostIn) s =
    .next (State.endCmd { s with sec := { s.sec with idleSince := s.now } } 0 k 6 (progressPosition 0) (ceilDiv hostIn.length 4096) (leBytes 4 0)) := by
  have hslice : sliceZ hostIn 0 ((s.cmd 0 k).field 16 4) = hostIn := by simp [sliceZ, ← hlen]
  have hbad (programs : List Nat) : s.imageOk { imageOf hostIn with programs := programs } = false := hbad
  have hcheck : checkStage s (0 : FnId) (s.cmd 0 k) = stOk := hcheck
  refine congrArg _ (State.runCmd_of_position hruns.1 (State.running_isOp_of_runs hruns).2 ?_)
  dsimp only
  rw [hslice, hengine, if_neg Bool.false_ne_true, if_neg (not_not_intro hon), if_neg (not_not_intro hcheck), hlen]
  simp only [hbad]
  rfl

theorem exec_firmwareStage_accepted (hok : s.imageOk (imageOf hostIn) = true) : exec (.firmwareStage 0 k hostIn) s =
    .next ((if (s.cmd 0 k).field 20 1 = 0 then State.stageFirmware { s with sec := { s.sec with idleSince := s.now } } (stagedImage (s.cmd 0 k) hostIn)
      else State.stageMicrocode { s with sec := { s.sec with idleSince := s.now } } (stagedImage (s.cmd 0 k) hostIn)).endCmd 0 k 0
        (progressPosition (ceilDiv hostIn.length 4096)) (ceilDiv hostIn.length 4096) (leBytes 4 hostIn.length)) := by
  have hslice : sliceZ hostIn 0 ((s.cmd 0 k).field 16 4) = hostIn := by simp [sliceZ, ← hlen]
  have hok (programs : List Nat) : s.imageOk { imageOf hostIn with programs := programs } = true := hok
  have hcheck : checkStage s (0 : FnId) (s.cmd 0 k) = stOk := hcheck
  refine congrArg _ (State.runCmd_of_position hruns.1 (State.running_isOp_of_runs hruns).2 ?_)
  dsimp only
  rw [hslice, hengine, if_neg Bool.false_ne_true, if_neg (not_not_intro hon), if_neg (not_not_intro hcheck), hlen]
  simp only [hok]
  rfl

end Stage

/-- Settles O30: a report goes to its buffer, and an accepted image to the slot that is not in use. -/
theorem attestationAndStaging : Obligations.AttestationAndStaging := by
  refine ⟨fun s f k a e hruns hengine hidentity halias hon hnamed hbuf => ?_, fun s f k hruns => ⟨exec_attest_failed hruns, fun e hengine hidentity halias hon hbuf => ?_⟩,
    fun s k hostIn hruns hengine => exec_firmwareStage_retired hruns hengine, fun s k hostIn hruns hengine hon hcheck hlen => ?_⟩
  · refine ⟨_, exec_attest_sends hruns hengine hidentity halias hon hnamed hbuf, ?_, ?_, ?_, ?_, ?_, ?_, ?_⟩
    all_goals rw [State.raise_rest]; rfl
  · exact exec_attest_unwritable hruns hengine hidentity halias hon hbuf
  · refine ⟨exec_firmwareStage_refused hruns hengine hon hcheck hlen, fun hok hzero => ?_, fun hok hone => ?_⟩
    · rw [exec_firmwareStage_accepted hruns hengine hon hcheck hlen hok, if_pos hzero, stagedImage, if_neg (by omega)]
      rfl
    · have hexec := exec_firmwareStage_accepted hruns hengine hon hcheck hlen hok
      rw [if_neg (by omega), stagedImage, if_pos hone] at hexec
      refine ⟨_, hexec, rfl, rfl, ?_, ?_, rfl, rfl, rfl, rfl⟩
      all_goals
        unfold State.stageMicrocode
        dsimp only
        split <;> rfl

end Sys2Proof.Machine
end

section
/-! PROOFS. Clocks (20): requested switches, forced moves, the loss and return of a PLL, the frequency gate (R475 to R484). -/

namespace Sys2Proof.Machine

/-! ## What has been reported stays reported (R343, R467) -/

/-- From `s` to `t` a pending source stays so, an entry that waits to be written stays, and DEGRADED and REPLACE_REQUESTED stay set. -/
structure State.Reports (s t : State) : Prop where
  pending : ∀ n, (s.source n).pending = true → (t.source n).pending = true
  todo : s.gysis.ledger.todo ⊆ t.gysis.ledger.todo
  degraded : s.gysis.degraded = true → t.gysis.degraded = true
  replace : s.gysis.replaceRequested = true → t.gysis.replaceRequested = true

/-- What keeps the sources, the ledger and sets no flag back reports. -/
theorem State.Reports.of_same {s t : State} (hsources : t.gysis.intc.sources = s.gysis.intc.sources) (htodo : t.gysis.ledger.todo = s.gysis.ledger.todo)
    (hdeg : s.gysis.degraded = true → t.gysis.degraded = true) (hrep : s.gysis.replaceRequested = true → t.gysis.replaceRequested = true) : s.Reports t :=
  ⟨fun n hn => by simpa only [State.source, hsources] using hn, htodo ▸ fun _ he => he, hdeg, hrep⟩

theorem State.Reports.of_gysis {s t : State} (h : t.gysis = s.gysis) : s.Reports t := .of_same (by rw [h]) (by rw [h]) (by rw [h]; exact id) (by rw [h]; exact id)

theorem State.Reports.trans {s t u : State} (h : s.Reports t) (h' : t.Reports u) : s.Reports u :=
  ⟨fun n hn => h'.pending n (h.pending n hn), fun _ he => h'.todo (h.todo he), h'.degraded ∘ h.degraded, h'.replace ∘ h.replace⟩

theorem State.reports_raise (s : State) (n : Nat) : s.Reports (s.raise n) := by
  unfold State.raise
  split
  · refine ⟨fun m hm => ?_, fun _ he => he, id, id⟩
    rw [State.source_setSource]
    split
    · rfl
    · exact hm
  · exact .of_gysis rfl

theorem State.reports_note (s : State) (c : FaultChan) (kind : Nat) : s.Reports (s.note c kind) := by
  unfold State.note
  extract_lets g t
  have ht : s.Reports t := .of_same rfl rfl id id
  cases c
  case room r => exact ht.trans (t.reports_raise (32 + r))
  all_goals exact ht

theorem State.reports_decided (s : State) (code level kind : Nat) (irq deg rep : Bool) (room unit wher count : Nat) :
    s.Reports (s.decided code level kind irq deg rep room unit wher count) := by
  have hdeg : s.Reports (if deg then s.setDegraded else s) := by
    split
    · exact .of_same (by rw [State.setDegraded_gysis]) (by rw [State.setDegraded_gysis]) (by rw [State.setDegraded_gysis]; exact fun _ => rfl)
        (by rw [State.setDegraded_gysis]; exact id)
    · exact .of_gysis rfl
  have hrep (t : State) : t.Reports (if rep then t.setReplace else t) := by
    split
    · exact .of_same (by rw [State.setReplace_gysis]) (by rw [State.setReplace_gysis]) (by rw [State.setReplace_gysis]; exact id)
        (by rw [State.setReplace_gysis]; exact fun _ => rfl)
    · exact .of_gysis rfl
  exact (hdeg.trans (hrep _)).trans ⟨fun _ hn => hn, fun _ he => List.mem_append_left _ he, id, id⟩

/-- The entry of a decision waits to be written (R467). -/
theorem State.decided_entry (s : State) (code level kind : Nat) (irq deg rep : Bool) (room unit wher count : Nat) :
    ∃ e, e ∈ (s.decided code level kind irq deg rep room unit wher count).gysis.ledger.todo ∧ e.code = code ∧ e.where_ = wher :=
  ⟨_, List.mem_append_right _ (List.mem_singleton_self _), rfl, rfl⟩

theorem State.reports_portTo (s : State) (n : Nat) (x : Port) : s.Reports (s.portTo n x) := by
  have hparent (t : State) : t.Reports t.noteParent := by
    unfold State.noteParent
    split <;> exact .of_gysis rfl
  unfold State.portTo
  extract_lets y t
  have ht : s.Reports t := State.Reports.trans (t := s.setPort n y) (.of_gysis rfl) (hparent _)
  split
  · exact ht
  · exact ht.trans (t.reports_raise _)

/-! ## Ports go down (R432) -/

theorem State.portDown_spec (s : State) (n : Nat) : s.PortsOnly (s.portDown n) ∧ s.Reports (s.portDown n) ∧ (∀ m, m ≠ n → (s.portDown n).port m = s.port m) ∧
    (((s.portDown n).port n).state = .down ∨ ((s.portDown n).port n).state = .retired) := by
  unfold State.portDown
  dsimp only
  split
  next h =>
    refine ⟨.refl s, .of_gysis rfl, fun _ _ => rfl, ?_⟩
    simpa only [Bool.or_eq_true, decide_eq_true_eq, or_comm] using h
  next =>
    refine ⟨s.portsOnly_portTo n _, s.reports_portTo n _, fun m hm => (s.port_portTo n _ m).trans (if_neg hm), .inl ?_⟩
    rw [State.port_portTo, if_pos rfl, Port.after]
    split <;> rfl

theorem State.foldl_portDown (s : State) (n : Nat) : s.PortsOnly ((List.range n).foldl State.portDown s) ∧ s.Reports ((List.range n).foldl State.portDown s) ∧
    ∀ m, m < n → (((List.range n).foldl State.portDown s).port m).state = .down ∨ (((List.range n).foldl State.portDown s).port m).state = .retired := by
  induction n with
  | zero => exact ⟨.refl s, .of_gysis rfl, fun m hm => absurd hm (Nat.not_lt_zero m)⟩
  | succ n ih =>
    obtain ⟨honly, hrep, hdown⟩ := ih
    rw [List.range_succ, List.foldl_append, List.foldl_cons, List.foldl_nil]
    obtain ⟨honly1, hrep1, hother, hthis⟩ := State.portDown_spec ((List.range n).foldl State.portDown s) n
    refine ⟨honly.trans honly1, hrep.trans hrep1, fun m hm => ?_⟩
    by_cases hmn : m = n
    · rw [hmn]; exact hthis
    · rw [hother m hmn]
      exact hdown m (by omega)

theorem State.portsDown_spec (s : State) : s.PortsOnly s.portsDown ∧ s.Reports s.portsDown ∧
    ∀ m, m < 30 → (s.portsDown.port m).state = .down ∨ (s.portsDown.port m).state = .retired :=
  s.foldl_portDown 30

/-! ## One domain moves (R479, R480) -/

/-- From `s` to `t` no more than clock domains, rooms, ports and functions have changed: the PLLs, memory and partitions are as in `s`, and what was reported stays so. -/
structure State.ClocksKept (s t : State) : Prop where
  root : t.clocks.root = s.clocks.root
  alt : t.clocks.alt = s.clocks.alt
  ref : t.clocks.refPresent = s.clocks.refPresent
  now : t.now = s.now
  attic : t.mem.attic = s.mem.attic
  cellar : t.mem.cellar = s.mem.cellar
  parts : t.parts = s.parts
  reports : s.Reports t

/-- From `s` to `t` clock domain `d` has moved, and no other one. -/
structure State.DomainMoves (s t : State) (d : Nat) : Prop extends s.ClocksKept t where
  others : ∀ e, e ≠ d → t.clk e = s.clk e

theorem State.ClocksKept.refl (s : State) : s.ClocksKept s := ⟨rfl, rfl, rfl, rfl, rfl, rfl, rfl, .of_gysis rfl⟩

theorem State.ClocksKept.trans {s t u : State} (h : s.ClocksKept t) (h' : t.ClocksKept u) : s.ClocksKept u where
  root := h'.root.trans h.root
  alt := h'.alt.trans h.alt
  ref := h'.ref.trans h.ref
  now := h'.now.trans h.now
  attic := h'.attic.trans h.attic
  cellar := h'.cellar.trans h.cellar
  parts := h'.parts.trans h.parts
  reports := h.reports.trans h'.reports

theorem State.DomainMoves.trans {s t u : State} {d : Nat} (h : s.DomainMoves t d) (h' : t.DomainMoves u d) : s.DomainMoves u d where
  toClocksKept := h.toClocksKept.trans h'.toClocksKept
  others e he := (h'.others e he).trans (h.others e he)

theorem State.domainMoves_setClk (s : State) (d : Nat) (x : ClkDom) : s.DomainMoves (s.setClk d x) d :=
  ⟨⟨rfl, rfl, rfl, rfl, rfl, rfl, rfl, .of_gysis rfl⟩, fun e he => (s.clk_setClk d e x).trans (if_neg he)⟩

/-- What leaves the clocks, the memory and the partitions alone moves no domain. -/
theorem State.DomainMoves.of_reports {s t : State} (h : s.Reports t) (hclocks : t.clocks = s.clocks) (hnow : t.now = s.now) (hattic : t.mem.attic = s.mem.attic)
    (hcellar : t.mem.cellar = s.mem.cellar) (hparts : t.parts = s.parts) (d : Nat) : s.DomainMoves t d where
  others e _ := by rw [State.clk, hclocks]; rfl
  root := by rw [hclocks]
  alt := by rw [hclocks]
  ref := by rw [hclocks]
  now := hnow
  attic := hattic
  cellar := hcellar
  parts := hparts
  reports := h

theorem State.ClocksKept.pll {s t : State} (h : s.ClocksKept t) (src : Nat) : t.pll src = s.pll src := by
  simp only [State.pll, h.root, h.alt]

theorem State.ClocksKept.sourceReady {s t : State} (h : s.ClocksKept t) (src : Nat) : t.sourceReady src = s.sourceReady src := by
  simp only [State.sourceReady, h.root, h.alt, h.ref, h.now]

/-- A domain's new source (step 5 of R479). -/
theorem State.setSourceOf_spec (s : State) (d src : Nat) : s.DomainMoves (s.setSourceOf d src) d ∧
    (s.setSourceOf d src).clk d = { s.clk d with source := Fin.ofNat 3 src, request := none } ∧ (s.setSourceOf d src).mem = s.mem ∧
    (s.setSourceOf d src).rooms = s.rooms ∧ (d ≠ 1 → (s.setSourceOf d src).links = s.links) ∧
    (d = 1 → src = 2 ∨ (s.clk d).source = 2 → ∀ n, n < 30 → ((s.setSourceOf d src).port n).state = .down ∨ ((s.setSourceOf d src).port n).state = .retired) := by
  have hset : s.DomainMoves (s.setClk d { s.clk d with source := Fin.ofNat 3 src, request := none }) d := s.domainMoves_setClk d _
  unfold State.setSourceOf
  extract_lets x t
  change s.DomainMoves t d at hset
  have hclk : t.clk d = { s.clk d with source := Fin.ofNat 3 src, request := none } := State.clk_setClk_same ..
  split
  next h =>
    obtain ⟨⟨ports, hold, g, hports⟩, hrep, hdown⟩ := t.portsDown_spec
    have hd : d = 1 := by
      simp only [Bool.and_eq_true, decide_eq_true_eq] at h
      exact h.1
    refine ⟨hset.trans (.of_reports hrep ?_ ?_ ?_ ?_ ?_ d), ?_, ?_, ?_, fun h1 => absurd hd h1, fun _ _ => hdown⟩
    all_goals rw [hports]
    · exact hclk
    · rfl
    · rfl
  next h =>
    refine ⟨hset, hclk, rfl, rfl, fun _ => rfl, fun hd hsrc => absurd ?_ h⟩
    simpa [hd, x] using hsrc

/-- A requested switch to a source that is READY (R479). -/
theorem State.makeSwitch_spec {s : State} {src : Nat} (h : s.sourceReady src = true) (d : Nat) : s.DomainMoves (s.makeSwitch d src) d ∧
    (s.makeSwitch d src).clk d = { s.clk d with source := Fin.ofNat 3 src, request := none, switches := satInc (s.clk d).switches } ∧
    (s.makeSwitch d src).mem = s.mem ∧ (s.makeSwitch d src).rooms = s.rooms ∧ (d ≠ 1 → (s.makeSwitch d src).links = s.links) ∧
    (d = 1 → src = 2 ∨ (s.clk d).source = 2 → ∀ n, n < 30 → ((s.makeSwitch d src).port n).state = .down ∨ ((s.makeSwitch d src).port n).state = .retired) := by
  obtain ⟨hmoves, hclk, hmem, hrooms, hlinks, hports⟩ := s.setSourceOf_spec d src
  simp only [State.makeSwitch, h, if_true]
  refine ⟨hmoves.trans (State.domainMoves_setClk _ d _), ?_, hmem, hrooms, hlinks, hports⟩
  rw [State.clk_setClk_same, hclk]

/-! ## Replays (R458, R481) -/

/-- From `s` to `t` rooms, what Gysis keeps and the contexts that wait may have changed, and nothing else; what was reported stays so. -/
def State.RoomsRestart (s t : State) : Prop :=
  s.Reports t ∧ ∃ rooms g tx, t = { s with rooms := rooms, gysis := g, links := { s.links with tx := tx } }

theorem State.RoomsRestart.refl (s : State) : s.RoomsRestart s := ⟨.of_gysis rfl, _, _, _, rfl⟩

theorem State.RoomsRestart.trans {s t u : State} : s.RoomsRestart t → t.RoomsRestart u → s.RoomsRestart u := by
  rintro ⟨hs, _, _, _, rfl⟩ ⟨ht, rooms, g, tx, rfl⟩
  exact ⟨hs.trans ht, rooms, g, tx, rfl⟩

theorem State.roomsRestart_setRoom (s : State) (r : Nat) (x : Room) : s.RoomsRestart (s.setRoom r x) := ⟨.of_gysis rfl, _, _, _, rfl⟩

theorem State.roomsRestart_note (s : State) (c : FaultChan) (kind : Nat) : s.RoomsRestart (s.note c kind) :=
  ⟨s.reports_note c kind, s.rooms, (s.note c kind).gysis, s.links.tx, congrArg (fun t : State => { t with gysis := (s.note c kind).gysis }) (s.note_rest c kind s.gysis)⟩

theorem State.roomsRestart_cancelChannels (s : State) (room : Nat) : s.RoomsRestart (s.cancelChannels room) := by
  refine List.foldlRecOn _ _ (.refl s) (fun t ht c _ => ht.trans ?_)
  dsimp only
  split
  · exact .refl t
  · exact ⟨.of_gysis rfl, _, _, _, rfl⟩

theorem State.roomsRestart_abandon (s : State) (room : Nat) : s.RoomsRestart (s.abandon room) :=
  (s.roomsRestart_cancelChannels room).trans (State.roomsRestart_setRoom ..)

theorem State.roomsRestart_replayOne (s : State) (keep : Bool) (room : Nat) : s.RoomsRestart (s.replayOne keep room) := by
  unfold State.replayOne
  dsimp only
  split
  next =>
    split
    · exact .refl s
    split
    · exact s.roomsRestart_abandon room
    split
    · exact s.roomsRestart_setRoom ..
    · exact (s.roomsRestart_cancelChannels room).trans (State.roomsRestart_setRoom ..)
  next => exact .refl s

theorem State.roomsRestart_flushExpiries (s : State) (room : Nat) : s.RoomsRestart (s.flushExpiries room) := by
  unfold State.flushExpiries
  dsimp only
  split
  · exact List.foldlRecOn _ _ (s.roomsRestart_setRoom ..) (fun t ht _ _ => ht.trans (t.roomsRestart_note _ _))
  · exact .refl s

theorem State.roomsRestart_replayAll (s : State) : s.RoomsRestart s.replayAll :=
  List.foldlRecOn _ _ (.refl s) (fun t ht r _ => ht.trans ((t.roomsRestart_flushExpiries r).trans (State.roomsRestart_replayOne _ true r)))

/-! ## Forced moves (R480, R481) -/

theorem State.RoomsRestart.domainMoves {s t : State} (h : s.RoomsRestart t) (d : Nat) : s.DomainMoves t d ∧ t.clk d = s.clk d := by
  obtain ⟨hrep, rooms, g, tx, rfl⟩ := h
  exact ⟨.of_reports hrep rfl rfl rfl rfl rfl d, rfl⟩

theorem State.Flagged.domainMoves {s t : State} (h : s.Flagged t) (hrep : s.Reports t) (d : Nat) : s.DomainMoves t d ∧ t.clk d = s.clk d ∧ t.rooms = s.rooms := by
  obtain ⟨fns, g, rfl⟩ := h
  exact ⟨.of_reports hrep rfl rfl rfl rfl rfl d, rfl, rfl⟩

theorem State.raise_flagged (s : State) (n : Nat) : s.Flagged (s.raise n) := ⟨_, _, s.raise_rest n⟩

/-- A domain whose source has stopped takes another; its source is raised and entered in the ledger (R480, R481). -/
theorem State.forceMove_spec (s : State) {d : Nat} (hd : d < 6) : s.DomainMoves (s.forceMove d) d ∧
    (s.forceMove d).clk d = { s.clk d with source := Fin.ofNat 3 (s.otherSource (s.clk d).source), request := none, forced := satInc (s.clk d).forced } ∧
    ((s.forceMove d).source d).pending = true ∧ (∃ e, e ∈ (s.forceMove d).gysis.ledger.todo ∧ e.code = 0x60 ∧ e.where_ = d) ∧
    (d = 1 ∨ d = 4 ∨ d = 5 → (s.forceMove d).rooms = s.rooms) := by
  obtain ⟨hmoves, hclk, -, hrooms, -⟩ := s.setSourceOf_spec d (s.otherSource (s.clk d).source)
  unfold State.forceMove
  extract_lets x t c u
  obtain ⟨v, hv⟩ : ∃ v, v = t.setClk d { t.clk d with forced := satInc x.forced } := ⟨_, rfl⟩
  have hset : s.DomainMoves v d := by rw [hv]; exact hmoves.trans (t.domainMoves_setClk d _)
  have hvclk : v.clk d = { s.clk d with source := Fin.ofNat 3 (s.otherSource (s.clk d).source), request := none, forced := satInc (s.clk d).forced } := by
    rw [hv, State.clk_setClk_same, hclk]
  have hvrooms : v.rooms = s.rooms := by rw [hv]; exact hrooms
  have hu : u = (v.raise d).decided 0x0060 3 0 true false false 255 255 d 1 := by rw [hv]
  have hassigned : sourceAssigned d = true := by simp [sourceAssigned]; omega
  have hpend := State.source_raise_pending hassigned v
  obtain ⟨hraise, hrclk, hrrooms⟩ := (v.raise_flagged d).domainMoves (v.reports_raise d) d
  have hdec := (v.raise d).reports_decided 0x0060 3 0 true false false 255 255 d 1
  obtain ⟨hdmoves, hdclk, hdrooms⟩ := ((v.raise d).decided_flagged 0x0060 3 0 true false false 255 255 d 1).domainMoves hdec d
  obtain ⟨e, he, hcode, hwhere⟩ := (v.raise d).decided_entry 0x0060 3 0 true false false 255 255 d 1
  rw [← hu] at hdec hdmoves hdclk hdrooms he
  have hum : s.DomainMoves u d := (hset.trans hraise).trans hdmoves
  have huclk := (hdclk.trans hrclk).trans hvclk
  split
  next hreplay =>
    obtain ⟨hmoves, hclk⟩ := u.roomsRestart_replayAll.domainMoves d
    exact ⟨hum.trans hmoves, hclk.trans huclk, hmoves.reports.pending _ (hdec.pending _ hpend), ⟨e, hmoves.reports.todo he, hcode, hwhere⟩, fun h => by
      simp only [Bool.or_eq_true, decide_eq_true_eq] at hreplay
      omega⟩
  next => exact ⟨hum, huclk, hdec.pending _ hpend, ⟨e, he, hcode, hwhere⟩, fun _ => (hdrooms.trans hrrooms).trans hvrooms⟩

/-! ## Switch requests (R478, R479) -/

theorem State.otherSource_ne (s : State) {k : Nat} (h : k ≤ 1) : s.otherSource k ≠ k := by
  unfold State.otherSource
  split
  next h1 => simp only [Bool.and_eq_true, decide_eq_true_eq] at h1; omega
  split
  next h0 => simp only [Bool.and_eq_true, decide_eq_true_eq] at h0; omega
  next => omega

theorem State.otherSource_of_ready {s : State} {k src : Nat} (hk : k ≤ 1) (hsrc : src ≤ 1) (hne : k ≠ src) (hready : s.sourceReady src = true) : s.otherSource k = src := by
  obtain ⟨rfl, rfl⟩ | ⟨rfl, rfl⟩ : (k = 0 ∧ src = 1) ∨ (k = 1 ∧ src = 0) := by omega
  · simp [State.otherSource, hready]
  · simp [State.otherSource, hready]

theorem State.otherSource_lt (s : State) (k : Nat) : s.otherSource k < 3 := by
  unfold State.otherSource
  split
  · omega
  split <;> omega

theorem State.le_of_sourceStopped {s : State} {k : Nat} (h : s.sourceStopped k = true) : k ≤ 1 := by
  unfold State.sourceStopped at h
  split at h
  next hk => exact hk
  next => exact absurd h (by decide)

/-- A request to a source that is READY is made, or waits, or a stopped source forces the move (R478 to R480). -/
theorem State.requestSwitch_spec {s : State} {d src : Nat} (hd : d < 6) (hsrc : src < 3) (hready : s.sourceReady src = true) :
    s.DomainMoves (s.requestSwitch d src) d ∧ ((s.requestSwitch d src).clk d).left = (s.clk d).left ∧
      (((s.requestSwitch d src).clk d).source.val = src ∨ ((s.requestSwitch d src).clk d).request = some (Fin.ofNat 3 src) ∨
        (s.clk d).source.val ≠ src ∧ (s.clk d).source.val ≤ 1 ∧ ((s.requestSwitch d src).clk d).source.val = s.otherSource (s.clk d).source) := by
  unfold State.requestSwitch
  extract_lets x
  split
  next h => exact ⟨⟨.refl s, fun _ _ => rfl⟩, rfl, .inl h⟩
  next hne =>
    split
    next hstop =>
      obtain ⟨hmoves, hclk, -⟩ := s.forceMove_spec hd
      rw [hclk]
      exact ⟨hmoves, rfl, .inr (.inr ⟨hne, State.le_of_sourceStopped hstop, Nat.mod_eq_of_lt (s.otherSource_lt _)⟩)⟩
    simp only [hready, Bool.not_true, Bool.false_eq_true, if_false]
    split
    · obtain ⟨hmoves, hclk, -⟩ := State.makeSwitch_spec hready d
      rw [hclk]
      exact ⟨hmoves, rfl, .inl (Nat.mod_eq_of_lt hsrc)⟩
    · rw [State.clk_setClk_same]
      exact ⟨s.domainMoves_setClk d _, rfl, .inr (.inl rfl)⟩

/-- What a step for each of the domains in turn leaves, when each changes its own domain alone. -/
theorem State.foldl_domains {s : State} {f : State → Nat → State} {P : Nat → ClkDom → Prop} (n : Nat)
    (step : ∀ u d, d < n → s.ClocksKept u → u.clk d = s.clk d → u.DomainMoves (f u d) d ∧ P d ((f u d).clk d)) :
    s.ClocksKept ((List.range n).foldl f s) ∧ (∀ d, d < n → P d (((List.range n).foldl f s).clk d)) ∧ ∀ d, n ≤ d → ((List.range n).foldl f s).clk d = s.clk d := by
  induction n with
  | zero => exact ⟨.refl s, fun d hd => absurd hd (Nat.not_lt_zero d), fun _ _ => rfl⟩
  | succ n ih =>
    obtain ⟨hkept, hdone, hrest⟩ := ih (fun u d hd => step u d (Nat.lt_succ_of_lt hd))
    rw [List.range_succ, List.foldl_append, List.foldl_cons, List.foldl_nil]
    obtain ⟨hmoves, hthis⟩ := step _ n (Nat.lt_succ_self n) hkept (hrest n le_rfl)
    refine ⟨hkept.trans hmoves.toClocksKept, fun d hd => ?_, fun d hd => ?_⟩
    · by_cases hdn : d = n
      · rw [hdn]; exact hthis
      · rw [hmoves.others d hdn]
        exact hdone d (by omega)
    · rw [hmoves.others d (by omega)]
      exact hrest d (by omega)

/-! ## The loss and return of a PLL (R477) -/

/-- What firmware does with domain `d` when PLL `src` is to be left for `tgt`. -/
def State.leaveFor (src tgt : Nat) (s : State) (d : Nat) : State :=
  if (s.clk d).source.val = src then (s.requestSwitch d tgt).setClk d { (s.requestSwitch d tgt).clk d with left := some (Fin.ofNat 3 src) } else s

/-- Where domain `d`, which stood at `x`, stands once PLL `src` is left. -/
def ClkDom.Left (src : Nat) (x y : ClkDom) : Prop :=
  (x.source.val = src → y.left = some (Fin.ofNat 3 src) ∧ (y.source.val ≠ src ∨ y.request.isSome = true)) ∧ (x.source.val ≠ src → y = x)

theorem State.leaveFor_spec {s : State} {src tgt d : Nat} (hd : d < 6) (hsrc : src ≤ 1) (hlt : tgt < 3) (hne : tgt ≠ src) (hready : s.sourceReady tgt = true) :
    s.DomainMoves (s.leaveFor src tgt d) d ∧ ClkDom.Left src (s.clk d) ((s.leaveFor src tgt d).clk d) := by
  unfold State.leaveFor
  split
  next h =>
    obtain ⟨hmoves, -, hto⟩ := State.requestSwitch_spec hd hlt hready
    rw [State.clk_setClk_same]
    refine ⟨hmoves.trans (State.domainMoves_setClk _ d _), fun _ => ⟨rfl, ?_⟩, fun hn => absurd h hn⟩
    obtain hto | hto | ⟨-, hle, hto⟩ := hto
    · exact .inl (by rw [hto]; exact hne)
    · exact .inr (by rw [hto]; rfl)
    · exact .inl (by rw [hto, h]; exact s.otherSource_ne hsrc)
  next h => exact ⟨⟨.refl s, fun _ _ => rfl⟩, fun hs => absurd hs h, fun _ => rfl⟩

/-- The domains of a PLL that is lost leave it, and no other does (R477). -/
theorem State.leavePll_spec {s : State} {src : Nat} (hsrc : src ≤ 1) (href : s.clocks.refPresent = true) : s.ClocksKept (s.leavePll src) ∧
    ∀ d, d < 6 → ClkDom.Left src (s.clk d) ((s.leavePll src).clk d) := by
  obtain ⟨tgt, htgt⟩ : ∃ tgt, tgt = if s.sourceReady (1 - src) then 1 - src else 2 := ⟨_, rfl⟩
  have hto : s.sourceReady tgt = true ∧ tgt < 3 ∧ tgt ≠ src := by
    rw [htgt]
    split
    next h => exact ⟨h, by omega, by omega⟩
    next => exact ⟨href, by omega, by omega⟩
  obtain ⟨hready, hlt, hne⟩ := hto
  have heq : s.leavePll src = (List.range 6).foldl (State.leaveFor src tgt) s := by rw [htgt]; rfl
  obtain ⟨hkept, hall, -⟩ := State.foldl_domains (s := s) (f := State.leaveFor src tgt) (P := fun d x => ClkDom.Left src (s.clk d) x) 6 (fun u d hd hkept hclk => by
    rw [← hclk]
    exact State.leaveFor_spec hd hsrc hlt hne ((hkept.sourceReady tgt).trans hready))
  rw [heq]
  exact ⟨hkept, hall⟩

/-- What firmware does with domain `d` when PLL `src` has come back. -/
def State.comeBack (src : Nat) (s : State) (d : Nat) : State :=
  if (s.clk d).left = some (Fin.ofNat 3 src) then (s.setClk d { s.clk d with left := none }).requestSwitch d src else s

/-- Where domain `d`, which stood at `x`, stands once PLL `src` has come back. -/
def ClkDom.Back (src : Nat) (x y : ClkDom) : Prop :=
  (x.left = some (Fin.ofNat 3 src) → y.left = none ∧ (y.source.val = src ∨ y.request = some (Fin.ofNat 3 src))) ∧ (x.left ≠ some (Fin.ofNat 3 src) → y = x)

theorem State.comeBack_spec {s : State} {src d : Nat} (hd : d < 6) (hsrc : src ≤ 1) (hready : s.sourceReady src = true) :
    s.DomainMoves (s.comeBack src d) d ∧ ClkDom.Back src (s.clk d) ((s.comeBack src d).clk d) := by
  unfold State.comeBack
  split
  next h =>
    have hset := s.domainMoves_setClk d { s.clk d with left := none }
    obtain ⟨hmoves, hleft, hto⟩ := State.requestSwitch_spec hd (by omega) ((hset.sourceReady src).trans hready)
    rw [State.clk_setClk_same] at hleft hto
    refine ⟨hset.trans hmoves, fun _ => ⟨hleft, ?_⟩, fun hn => absurd h hn⟩
    obtain hto | hto | ⟨hne, hle, hto⟩ := hto
    · exact .inl hto
    · exact .inr hto
    · exact .inl (hto.trans (State.otherSource_of_ready hle hsrc hne ((hset.sourceReady src).trans hready)))
  next h => exact ⟨⟨.refl s, fun _ _ => rfl⟩, fun hs => absurd hs h, fun _ => rfl⟩

/-- The domains that left a PLL come back to it, and no other does (R477). -/
theorem State.foldl_comeBack {s : State} {src : Nat} (hsrc : src ≤ 1) (hready : s.sourceReady src = true) : s.ClocksKept ((List.range 6).foldl (State.comeBack src) s) ∧
    ∀ d, d < 6 → ClkDom.Back src (s.clk d) (((List.range 6).foldl (State.comeBack src) s).clk d) := by
  obtain ⟨hkept, hall, -⟩ := State.foldl_domains (s := s) (f := State.comeBack src) (P := fun d x => ClkDom.Back src (s.clk d) x) 6 (fun u d hd hkept hclk => by
    rw [← hclk]
    exact State.comeBack_spec hd hsrc ((hkept.sourceReady src).trans hready))
  exact ⟨hkept, hall⟩

/-! ## The frequency gate (R484) -/

/-- The counts of a gate are recorded in each domain. -/
theorem State.foldl_edges (s : State) (l : List Nat) (n : Nat) (t : State)
    (h : t = (List.range n).foldl (fun u d => u.setClk d { u.clk d with edges := BitVec.ofNat 20 (l.getD d 0) }) s) :
    t = { s with clocks := { s.clocks with doms := t.clocks.doms } } ∧
      ∀ d, t.clk d = if d < n then { s.clk d with edges := BitVec.ofNat 20 (l.getD d 0) } else s.clk d := by
  induction n generalizing t with
  | zero => exact h ▸ ⟨rfl, fun d => (if_neg (Nat.not_lt_zero d)).symm⟩
  | succ n ih =>
    rw [List.range_succ, List.foldl_append, List.foldl_cons, List.foldl_nil] at h
    obtain ⟨hrest, hclk⟩ := ih _ rfl
    refine ⟨?_, fun d => ?_⟩
    · rw [h, hrest]
      rfl
    · rw [h, State.clk_setClk, hclk, hclk]
      by_cases hd : d = n
      · rw [if_pos hd, if_neg (lt_irrefl n), if_pos (by omega), hd]
      · rw [if_neg hd]
        exact if_congr (by omega) rfl rfl

theorem Pll.gate_spec (p : Pll) (now beat : Nat) (lock : Bool) :
    ((p.gate now beat lock).beatOk = true ↔ p.running = true ∧ 19980 ≤ beat ∧ beat ≤ 20020) ∧ (p.gate now beat lock).locked = (p.running && lock) ∧
      (p.locked = true → (p.gate now beat lock).stopped = p.stopped) := by
  refine ⟨by simp [Pll.gate, and_assoc], rfl, fun h => ?_⟩
  simp [Pll.gate, h]

/-! ## Clocks (R475 to R484) -/

theorem ClkDom.val_source_ne {x : ClkDom} {src : Fin 3} (h : x.source ≠ src) : x.source.val ≠ src.val := fun he => h (Fin.ext he)

theorem exec_clockSwitch {s : State} {d : ClkId} {src : Fin 3} (h : s.romServes = false) : exec (.clockSwitch d src) s = .next (s.requestSwitch d src) := by
  change execClockSwitch d src s = _
  simp only [execClockSwitch, h, Bool.false_eq_true, if_false]

theorem State.otherSource_eq (s : State) {k : Nat} (h : k ≤ 1) : s.otherSource k = if s.sourceReady (1 - k) then 1 - k else 2 := by
  obtain rfl | rfl : k = 0 ∨ k = 1 := by omega
  · simp [State.otherSource]
  · simp [State.otherSource]

/-- A source that is declared stopped, as the detector or firmware finds it: only its own mark changes (R480). -/
theorem State.setPll_stopped (s : State) {src : Nat} (h : src ≤ 1) {t : State} (ht : t = s.setPll src { s.pll src with stopped := true }) :
    t.clocks.doms = s.clocks.doms ∧ t.mem = s.mem ∧ t.parts = s.parts ∧ t.rooms = s.rooms ∧ (t.pll src).stopped = true ∧ t.sourceReady (1 - src) = s.sourceReady (1 - src) := by
  subst ht
  obtain rfl | rfl : src = 0 ∨ src = 1 := by omega
  · exact ⟨rfl, rfl, rfl, rfl, rfl, rfl⟩
  · exact ⟨rfl, rfl, rfl, rfl, rfl, rfl⟩

/-- Both ways to a forced move go through the same meaning (R478, R480). -/
theorem exec_forced {s : State} {d : ClkId} {i : Instr} (hsrc : (s.clk d).source ≠ 2) (hi : i = .clockStopped d ∨ s.romServes = false ∧
    s.sourceStopped (s.clk d).source = true ∧ ∃ src, src ≠ (s.clk d).source ∧ i = .clockSwitch d src) :
    ∃ t : State, exec i s = .next (t.forceMove d) ∧ t.clocks.doms = s.clocks.doms ∧ t.mem = s.mem ∧ t.parts = s.parts ∧ t.rooms = s.rooms ∧
      (t.pll (s.clk d).source).stopped = true ∧ t.sourceReady (1 - (s.clk d).source.val) = s.sourceReady (1 - (s.clk d).source.val) := by
  have hle : (s.clk d).source.val ≤ 1 := by
    have h2 : (s.clk d).source.val ≠ 2 := ClkDom.val_source_ne hsrc
    have := (s.clk d).source.isLt
    omega
  obtain rfl | ⟨hrom, hstop, src, hne, rfl⟩ := hi
  · refine ⟨_, ?_, s.setPll_stopped hle rfl⟩
    change execClockStopped d s = _
    exact congrArg _ (if_neg (ClkDom.val_source_ne hsrc))
  · have hmark : (s.pll (s.clk d).source).stopped = true := by
      simpa only [State.sourceStopped, if_pos hle] using hstop
    refine ⟨s, ?_, rfl, rfl, rfl, rfl, hmark, rfl⟩
    rw [exec_clockSwitch hrom, State.requestSwitch]
    simp only [ClkDom.val_source_ne hne.symm, hstop, if_false, if_true]

/-- Settles O58. -/
theorem clocksSwitchAndReturn : Obligations.ClocksSwitchAndReturn := by
  unfold Obligations.ClocksSwitchAndReturn
  refine ⟨fun s d src hrom => ?_, fun s d i hsrc hi => ?_, fun s d h => ?_, fun s alt src hsrc => ?_, fun s l a b => ?_, fun s => ?_⟩
  · rw [exec_clockSwitch hrom]
    refine ⟨fun h => ?_, fun hne hstop hready => ?_, fun hne hstop hready h1 h4 h5 hblocks => ?_, fun hne hstop hready hnow => ?_⟩
    · simp [State.requestSwitch, h]
    · simp [State.requestSwitch, ClkDom.val_source_ne hne, hstop, hready]
    · simp [State.requestSwitch, ClkDom.val_source_ne hne, hstop, hready, h1, h4, h5, hblocks]
    · have hswitch : s.requestSwitch d src = s.makeSwitch d src := by
        unfold State.requestSwitch
        simp only [ClkDom.val_source_ne hne, hstop, hready, if_false, Bool.false_eq_true, Bool.not_true]
        refine if_pos ?_
        simpa [or_assoc] using hnow
      obtain ⟨hmoves, hclk, hmem, hrooms, hlinks, hports⟩ := State.makeSwitch_spec hready d.val
      rw [hswitch]
      refine ⟨_, rfl, ?_, hmoves.others, hmem, hrooms, hmoves.parts, hlinks, fun hd hby => hports hd ?_⟩
      · rw [hclk, Fin.ofNat_val_eq_self]
      · exact hby.imp (congrArg Fin.val) id
  · obtain ⟨v, hexec, hdoms, hmem, hparts, hrooms, hstop, hready⟩ := exec_forced hsrc hi
    have hclk (e : Nat) : v.clk e = s.clk e := congrArg (fun l : Tab ClkDom => (Tab.get {} l e : ClkDom)) hdoms
    obtain ⟨hmoves, hthis, hpend, hentry, hkeep⟩ := v.forceMove_spec d.isLt
    have hle : (s.clk d).source.val ≤ 1 := by
      have h2 : (s.clk d).source.val ≠ 2 := ClkDom.val_source_ne hsrc
      have := (s.clk d).source.isLt
      omega
    have hto : (Fin.ofNat 3 (v.otherSource (v.clk d).source)).val = if s.sourceReady (1 - (s.clk d).source.val) then 1 - (s.clk d).source.val else 2 := by
      rw [← hready, ← State.otherSource_eq v hle, hclk]
      exact Nat.mod_eq_of_lt (v.otherSource_lt _)
    refine ⟨_, hexec, ?_, ?_, ?_, ?_, hpend, ?_, hentry, fun e he => (hmoves.others e he).trans (hclk e), ?_, ?_, ?_, fun h => (hkeep h).trans hrooms⟩
    · rw [hthis]; exact hto
    · rw [hthis]
    · rw [hthis, hclk]
    · rw [hthis, hclk]
    · rw [hmoves.pll]; exact hstop
    · rw [hmoves.attic, hmem]
    · rw [hmoves.cellar, hmem]
    · rw [hmoves.parts, hparts]
  · change execClockStopped d s = _
    simp [execClockStopped, h]
  · have hle : src ≤ 1 := by rw [hsrc]; split <;> omega
    refine ⟨fun h => ?_, fun hlock hrom href => ?_, fun hrom hready hlong => ?_, fun h => ?_⟩
    · change execPllUnlock alt s = _
      rw [execPllUnlock, ← hsrc]
      simp [h]
    · obtain ⟨u, hu⟩ : ∃ u, u = s.setPll src { s.pll src with locked := false, beatOk := false } := ⟨_, rfl⟩
      obtain ⟨v, hv⟩ : ∃ v, v = (u.raise (6 + src)).decided 0x0060 3 0 true false false 255 255 (6 + src) 1 := ⟨_, rfl⟩
      have hexec : exec (.pllUnlock alt) s = .next (v.leavePll src) := by
        change execPllUnlock alt s = _
        rw [execPllUnlock, ← hsrc, hv, hu]
        simp [hlock, hrom]
      have hdec := (u.raise (6 + src)).reports_decided 0x0060 3 0 true false false 255 255 (6 + src) 1
      obtain ⟨fns, g, hflag⟩ := (u.raise_flagged (6 + src)).trans ((u.raise (6 + src)).decided_flagged 0x0060 3 0 true false false 255 255 (6 + src) 1)
      rw [← hv] at hflag hdec
      have hassigned : sourceAssigned (6 + src) = true := by simp [sourceAssigned]; omega
      have hpend := hdec.pending _ (State.source_raise_pending hassigned u)
      have hclk (e : Nat) : v.clk e = s.clk e := by
        rw [hflag, hu, State.setPll]
        change Tab.get {} (if src = 0 then _ else _ : Clocks).doms e = Tab.get {} s.clocks.doms e
        split <;> rfl
      have hpll : (v.pll src).locked = false := by
        rw [hflag, hu, State.setPll, State.pll]
        split <;> rfl
      have href' : v.clocks.refPresent = true := by
        rw [hflag, hu, State.setPll]
        change (if src = 0 then _ else _ : Clocks).refPresent = true
        split <;> exact href
      have hrest : v.mem = s.mem ∧ v.parts = s.parts := by rw [hflag, hu]; exact ⟨rfl, rfl⟩
      obtain ⟨hkept, hleft⟩ := State.leavePll_spec hle href'
      refine ⟨_, hexec, ?_, hkept.reports.pending _ hpend, fun d hd hs => (hleft d hd).1 (by rw [hclk]; exact hs), fun d hd hs => ?_, ?_, ?_, ?_⟩
      · rw [hkept.pll]; exact hpll
      · rw [(hleft d hd).2 (by rw [hclk]; exact hs), hclk]
      · rw [hkept.attic, hrest.1]
      · rw [hkept.cellar, hrest.1]
      · rw [hkept.parts, hrest.2]
    · have hexec : exec (.pllReturn alt) s = .next ((List.range 6).foldl (State.comeBack src) s) := by
        change execPllReturn alt s = _
        rw [execPllReturn, ← hsrc]
        refine congrArg _ (if_neg ?_)
        simp [hrom, hready, hlong]
      obtain ⟨hkept, hback⟩ := State.foldl_comeBack hle hready
      exact ⟨_, hexec, fun d hd => (hback d hd).1, fun d hd => (hback d hd).2, hkept.attic, hkept.cellar, hkept.parts⟩
    · change execPllReturn alt s = _
      rw [execPllReturn, ← hsrc]
      exact congrArg _ (if_pos (by simp [h]))
  · obtain ⟨t, ht⟩ : ∃ t, t = (List.range 6).foldl (fun u d => u.setClk d { u.clk d with edges := BitVec.ofNat 20 (l.getD d 0) }) s := ⟨_, rfl⟩
    obtain ⟨hrest, hclk⟩ := s.foldl_edges l 6 t ht
    have hexec : exec (.freqGate l a b) s = .next { t with clocks := { t.clocks with
        root := t.clocks.root.gate s.now (l.getD 6 0) a, alt := t.clocks.alt.gate s.now (l.getD 7 0) b } } := by
      rw [ht]; rfl
    have hroot : t.clocks.root = s.clocks.root := by rw [hrest]
    have halt : t.clocks.alt = s.clocks.alt := by rw [hrest]
    obtain ⟨hrbeat, hrlock, hrstop⟩ := s.clocks.root.gate_spec s.now (l.getD 6 0) a
    obtain ⟨habeat, halock, -⟩ := s.clocks.alt.gate_spec s.now (l.getD 7 0) b
    rw [hroot, halt] at hexec
    refine ⟨_, hexec, fun d hd => (hclk d).trans (if_pos hd), hrbeat, habeat, hrlock, halock, hrstop, ?_, ?_, ?_, ?_⟩
    all_goals rw [hrest]
  · exact ⟨⟨_, rfl, rfl, rfl, rfl, rfl, rfl, rfl, rfl, rfl, rfl⟩, rfl⟩

end Sys2Proof.Machine
end

section
/-! PROOFS. Power domains, the cap loop, the clamps, supply faults and the readings that are served (R485 to R495, R336). -/

namespace Sys2Proof.Machine

/-! ## The entry into HALTED (R341, R466) -/

theorem State.stateChanged_rest (s : State) : ∃ fns, s.stateChanged = { s with fns := fns } := by
  obtain ⟨fns, g, h⟩ := s.stateChanged_flagged
  refine ⟨fns, ?_⟩
  have hg := s.stateChanged_gysis
  rw [h] at hg ⊢
  exact congrArg (fun g => ({ s with fns := fns, gysis := g } : State)) hg

/-- A change of the device state, but to READY, changes that state and tells the functions (R531). -/
theorem State.setDev_of_ne {s : State} {d : DevState} (h : s.boot.state ≠ d) (hd : d ≠ .ready) :
    ∃ fns, s.setDev d = { s with boot := { s.boot with state := d }, fns := fns } := by
  obtain ⟨fns, hfns⟩ := State.stateChanged_rest { s with boot := { s.boot with state := d } }
  refine ⟨fns, ?_⟩
  simp only [State.setDev, if_neg h, if_neg hd]
  exact hfns

theorem State.leaveReady_rest (s : State) (d : DevState) :
    ∃ fns x h free, s.leaveReady d = { s with fns := fns, gysis := { s.gysis with detached := x }, sec := { s.sec with hash := h }, free := free } := by
  refine List.foldlRecOn (motive := fun t : State => ∃ fns x h free, t = { s with
    fns := fns, gysis := { s.gysis with detached := x }, sec := { s.sec with hash := h }, free := free }) _ _ ⟨_, _, _, _, rfl⟩ ?_
  rintro _ ⟨_, _, _, _, rfl⟩ f -
  obtain ⟨⟨fns, x, h, free, ht⟩, -⟩ := State.endedCommands_endCommands _ f (allowedIn d) true
  exact ⟨fns, x, h, free, ht⟩

theorem State.portsIdle_spec (s : State) : s.PortsOnly s.portsIdle ∧ s.Reports s.portsIdle := by
  refine List.foldlRecOn (motive := fun t : State => s.PortsOnly t ∧ s.Reports t) _ _ ⟨.refl s, .of_gysis rfl⟩ (fun t ht n _ => ?_)
  dsimp only
  split
  · exact ht
  · exact ⟨ht.1.trans (t.portsOnly_portTo n _), ht.2.trans (t.reports_portTo n _)⟩

theorem State.domainsOff_gysis (s : State) : s.domainsOff.gysis = s.gysis := rfl

/-- The module on its way to HALTED: its commands end, its ports idle and its domains go off (R466). -/
theorem State.wayOut_spec (s : State) : s.Reports ((s.leaveReady .halted).portsIdle).domainsOff ∧
    ∃ fns g x free ports hold doms, ((s.leaveReady .halted).portsIdle).domainsOff = { s with
      fns := fns, gysis := g, sec := { s.sec with hash := x }, free := free, links := { s.links with ports := ports, holdover := hold }
      power := { s.power with domains := doms, wakeQueue := [] } } := by
  obtain ⟨fns, x, hash, free, hleave⟩ := s.leaveReady_rest .halted
  obtain ⟨⟨ports, hold, g, hidle⟩, hrep⟩ := (s.leaveReady .halted).portsIdle_spec
  have hleft : s.Reports (s.leaveReady .halted) := by
    rw [hleave]
    exact .of_same rfl rfl id id
  refine ⟨(hleft.trans hrep).trans (.of_gysis (State.domainsOff_gysis _)), ?_⟩
  rw [hidle, hleave]
  exact ⟨_, _, _, _, _, _, _, rfl⟩

/-- The boot record of a module that enters HALTED with a cause (R516). -/
def Boot.halted (b : Boot) (c : Nat) : Boot :=
  { b with state := .halted, stopState := if b.stopState = 5 then b.stopState else b.state.code, cause := if b.stopState = 5 then b.cause else c }

/-- The module enters HALTED: no memory, room, stack or partition changes, and what was reported stays so (R466). -/
theorem State.halt_spec {s : State} (h : s.boot.state ≠ .halted) (c : Nat) : s.Reports (s.halt c) ∧
    ∃ fns g x free ports hold doms, s.halt c = { s with
      fns := fns, gysis := g, sec := { s.sec with hash := x }, free := free, links := { s.links with ports := ports, holdover := hold }
      power := { s.power with domains := doms, wakeQueue := [] }, boot := s.boot.halted c } := by
  obtain ⟨hrep, hrest⟩ := s.wayOut_spec
  unfold State.halt
  simp only [h, if_false]
  generalize ((s.leaveReady .halted).portsIdle).domainsOff = t at hrep hrest
  have hboot : t.boot = s.boot := by
    obtain ⟨_, _, _, _, _, _, _, ht⟩ := hrest
    rw [ht]
  obtain ⟨u, hu, hustop⟩ : ∃ u : State, (if s.boot.stopState = 5 then t else { t with boot := { t.boot with stopState := s.boot.state.code, cause := c } }) = u ∧
      u = { t with boot := { s.boot.halted c with state := s.boot.state } } := by
    refine ⟨_, rfl, ?_⟩
    unfold Boot.halted
    split
    next => rw [← hboot]
    next => rw [hboot]
  rw [hu]
  have hne : u.boot.state ≠ .halted := by rw [hustop]; exact h
  obtain ⟨fns', hset⟩ := State.setDev_of_ne hne (by decide)
  obtain ⟨_, g, x, free, ports, hold, doms, ht⟩ := hrest
  refine ⟨hrep.trans (.of_gysis ?_), fns', g, x, free, ports, hold, doms, ?_⟩
  · rw [hset, hustop]
  · rw [hset, hustop, ht]
    rfl

/-! ## Tables filled key by key -/

theorem Tab.get_foldl_set {α : Type} [DecidableEq α] (d : α) (g : Nat → α) (n : Nat) (t : Tab α) (k : Nat) :
    Tab.get d ((List.range n).foldl (fun u j => Tab.set d u j (g j)) t) k = if k < n then g k else Tab.get d t k := by
  induction n with
  | zero => simp
  | succ n ih =>
    rw [List.range_succ, List.foldl_append, List.foldl_cons, List.foldl_nil, Tab.get_set]
    by_cases hk : k = n
    · rw [if_pos hk, if_pos (by omega), hk]
    · rw [if_neg hk, ih]
      exact if_congr (by omega) rfl rfl

theorem mem_insertOnce (d : Nat) (l : List Nat) : d ∈ insertOnce d l := by
  induction l with
  | nil => exact List.mem_singleton_self d
  | cons e t ih =>
    unfold insertOnce
    split
    next h => exact h ▸ List.mem_cons_self
    next =>
      split
      · exact List.mem_cons_self
      · exact List.mem_cons_of_mem _ ih

/-! ## Domains (R485) -/

theorem exec_domainWake_next {s : State} {d : DomId} {e : Nat} {l : List Nat} (hd : s.domain d = .waking) (hq : s.power.wakeQueue = e :: l) (hne : e ≠ d.val)
    (hoff : s.domain e = .off) (hfew : (s.setDomain d .on).wakingCount < 4) :
    ∃ u : State, exec (.domainWake d) s = .next (u.setDomain e .waking) ∧ u = { s.setDomain d .on with power := { (s.setDomain d .on).power with wakeQueue := l } } := by
  refine ⟨_, ?_, rfl⟩
  change execDomainWake d s = _
  have hoff' : (s.setDomain d .on).domain e = .off := (State.domain_setDomain ..).trans ((if_neg hne).trans hoff)
  have hqueue : (s.setDomain d .on).power.wakeQueue = e :: l := hq
  have hwake (u : State) (h1 : u.domain e = .off) (h2 : u.wakingCount < 4) : u.wakeDomain e = u.setDomain e .waking := by
    simp only [State.wakeDomain, h1, ne_eq, not_true_eq_false, if_false, h2, if_true]
  simp only [execDomainWake, hd, ne_eq, not_true_eq_false, if_false, hqueue]
  exact congrArg _ (hwake _ hoff' hfew)

theorem State.domainDiscard_rest (s : State) (d : Nat) : ∃ rooms hbm sec, s.domainDiscard d = { s with rooms := rooms, hbm := hbm, sec := sec } := by
  unfold State.domainDiscard
  split
  · exact ⟨_, _, _, rfl⟩
  split
  · exact ⟨_, _, _, rfl⟩
  split
  · exact ⟨_, _, _, rfl⟩
  split
  · exact ⟨_, _, _, rfl⟩
  · refine List.foldlRecOn (motive := fun t : State => ∃ rooms hbm sec, t = { s with rooms := rooms, hbm := hbm, sec := sec }) _ _ ⟨_, _, _, rfl⟩ ?_
    rintro _ ⟨_, _, _, rfl⟩ r -
    exact ⟨_, _, _, rfl⟩

/-- What a domain that goes off discards leaves memory, partitions, functions and the other domains as they are. -/
theorem State.discarded_spec (s : State) (d : Nat) (x : DomState) : ((s.domainDiscard d).setDomain d x).mem = s.mem ∧ ((s.domainDiscard d).setDomain d x).domain d = x ∧
    (∀ q, q ≠ d → ((s.domainDiscard d).setDomain d x).domain q = s.domain q) ∧ ((s.domainDiscard d).setDomain d x).parts = s.parts ∧
    ((s.domainDiscard d).setDomain d x).fns = s.fns := by
  obtain ⟨rooms, hbm, sec, h⟩ := s.domainDiscard_rest d
  rw [h]
  exact ⟨rfl, (State.domain_setDomain ..).trans (if_pos rfl), fun q hq => (State.domain_setDomain ..).trans (if_neg hq), rfl, rfl⟩

theorem exec_domainOff {s : State} {d : DomId} (hheld : s.domain d ≠ .heldOff) (hneed : s.domainNeeded d = false) (hbusy : s.bundleBusy d = false) :
    exec (.domainOff d) s = .next (if s.domainRetired d then (s.domainDiscard d).setDomain d .heldOff
      else if s.domain d = .on then (s.domainDiscard d).setDomain d .off else s) := by
  change execDomainOff d s = _
  simp only [execDomainOff, hheld, hneed, hbusy, decide_false, Bool.or_false, Bool.false_eq_true, if_false]

/-! ## The loop (R487 to R489) -/

/-- From `s` to `t` the loop has changed steps and grants of partitions and whom it serves next, and nothing else. -/
def State.StepsOnly (s t : State) : Prop := ∃ parts p, t = { s with parts := parts, power := { s.power with roundRobin := p } }

theorem State.StepsOnly.refl (s : State) : s.StepsOnly s := ⟨_, _, rfl⟩

theorem State.StepsOnly.trans {s t u : State} : s.StepsOnly t → t.StepsOnly u → s.StepsOnly u := by
  rintro ⟨_, _, rfl⟩ ⟨parts, p, rfl⟩
  exact ⟨parts, p, rfl⟩

theorem State.requestStep_stepsOnly (s : State) (p step : Nat) : s.StepsOnly (s.requestStep p step) := by
  unfold State.requestStep
  dsimp only
  split <;> exact ⟨_, _, rfl⟩

theorem State.lowerSteps_stepsOnly (s : State) (need : Nat) : s.StepsOnly (s.lowerSteps need) := by
  unfold State.lowerSteps
  extract_lets order now plan t
  have ht : s.StepsOnly t := List.foldlRecOn _ _ (.refl s) (fun u hu p _ => hu.trans (by
    split
    · exact u.requestStep_stepsOnly ..
    · exact .refl u))
  split
  · exact ht.trans ⟨_, _, rfl⟩
  · exact ht

theorem State.raiseStep_stepsOnly (s : State) : s.StepsOnly s.raiseStep := by
  unfold State.raiseStep
  extract_lets cost able
  split
  next p _ => exact .trans (s.requestStep_stepsOnly p _) ⟨_, _, rfl⟩
  next => exact .refl s

/-- What step 4 of R489 makes of the module's power record. -/
theorem State.capTest_spec (s : State) (above : Bool) : s.Reports (s.capTest above) ∧
    (∃ g b w u, s.capTest above = { s with gysis := g, board := b, power := { s.power with withinSince := w, capUnmet := u } } ∧
      w = (if above then none else if s.power.withinSince.isNone then some s.now else s.power.withinSince) ∧ (above = false → u = s.power.capUnmet) ∧
      (above = true → (s.clk 0).source = 2 → u = true)) := by
  unfold State.capTest
  extract_lets w lowest t
  split
  next h =>
    simp only [Bool.and_eq_true] at h
    obtain ⟨⟨habove, -⟩, -⟩ := h
    obtain ⟨v, hv⟩ : ∃ v, v = { t.forgetAcked with power := { t.power with capUnmet := true } } := ⟨_, rfl⟩
    have hvg : v.gysis = s.gysis := by rw [hv]; rfl
    refine ⟨(State.Reports.of_gysis hvg).trans (hv ▸ v.reports_decided 0x0060 3 0 true false false 255 255 194 1), _, _, _, _, rfl, rfl, ?_, fun _ _ => rfl⟩
    intro hn
    rw [hn] at habove
    exact absurd habove (by decide)
  next h =>
    refine ⟨.of_gysis rfl, _, _, _, _, rfl, rfl, fun _ => rfl, fun habove hsrc => ?_⟩
    simpa [habove, hsrc, w] using h

/-- The state in which the loop acts: what was measured stands, source 194 is raised, and the base grant has followed its need (R486, step 1 of R489). -/
def State.measuredAt (s : State) (w : Nat) (l : List Nat) (need : Nat) : State :=
  ({ s with power := { s.power with measured := w, roomPower := (List.range 16).foldl (fun t r => Tab.set 0 t r (l.getD r 0)) [] } }.raise 194).setBase need

/-- Steps 2 and 3 of R489, which the bypass leaves out (R482). -/
def State.steer (s : State) (w need cap : Nat) (bypass : Bool) : State :=
  if bypass then s
  else if decide (cap * 1000 < w) || s.power.baseGrant < need then s.lowerSteps need
  else if w < cap * 1000 && !s.decreasePending then s.raiseStep
  else s

theorem State.steer_stepsOnly (s : State) (w need cap : Nat) (bypass : Bool) : s.StepsOnly (s.steer w need cap bypass) := by
  unfold State.steer
  split
  · exact .refl s
  split
  · exact s.lowerSteps_stepsOnly need
  split
  · exact s.raiseStep_stepsOnly
  · exact .refl s

theorem State.measuredAt_spec (s : State) (w : Nat) (l : List Nat) (need : Nat) : ((s.measuredAt w l need).source 194).pending = true ∧
    ∃ g, s.measuredAt w l need = { s with gysis := g, power := { s.power with
      measured := w, roomPower := (List.range 16).foldl (fun t r => Tab.set 0 t r (l.getD r 0)) []
      baseGrant := if need ≤ s.power.baseGrant then need else min need (s.power.baseGrant + s.freePool) } } := by
  unfold State.measuredAt
  obtain ⟨t, ht⟩ : ∃ t, t = { s with power := { s.power with measured := w, roomPower := (List.range 16).foldl (fun t r => Tab.set 0 t r (l.getD r 0)) [] } } := ⟨_, rfl⟩
  rw [← ht]
  refine ⟨State.source_raise_pending (n := 194) rfl t, (t.raise 194).gysis, ?_⟩
  rw [State.raise_rest, ht]
  rfl

/-- The loop's tick of a module that firmware runs (R486 to R489). -/
theorem exec_capLoopTick {s : State} {w need : Nat} {l : List Nat} (hneed : need = ((w - l.sum) * 105 + 99) / 100) (hrom : s.romServes = false)
    (hrun : s.boot.state ≠ .halted) :
    exec (.capLoopTick w l) s = .next (((s.measuredAt w l need).steer w need s.power.cap (decide ((s.clk 0).source = 2))).capTest (decide (s.power.cap * 1000 < w))) := by
  subst hneed
  change execCapLoopTick w l s = _
  refine congrArg _ ((if_neg (by simp [hrom, hrun])).trans ?_)
  unfold State.steer
  simp only [decide_eq_true_eq]
  rfl

/-! ## Clamps (R490) -/

theorem State.countClamp_rest (s : State) (k : Nat) : ∃ b, s.countClamp k = { s with
    board := b, power := { s.power with clampCounts := Tab.set 0 s.power.clampCounts k (satInc (Tab.get 0 s.power.clampCounts k)) } } := ⟨_, rfl⟩

/-- The clamp holds for a core rail above its limit. -/
def State.clamping (s : State) (k : Nat) : State :=
  { s with power := { s.power with
    currentClamp := true, currentSince := if s.power.currentClamp then s.power.currentSince else s.now, currentBelow := none
    currentRails := insertOnce k s.power.currentRails } }

/-- A core rail is below 95% of its limit. -/
def State.railBelow (s : State) (k : Nat) : State :=
  { s with power := { s.power with
    currentRails := s.power.currentRails.filter (· != k)
    currentBelow := if s.power.currentClamp && (s.power.currentRails.filter (· != k)).isEmpty && s.power.currentBelow.isNone then some s.now else s.power.currentBelow } }

/-- A valid reading of a room's die sensor. -/
def State.dieRead (s : State) (r : Nat) (c : Int) (clamp : Bool) : State :=
  State.setRoom { s with power := { s.power with stale := Tab.set none s.power.stale (quantityId 4 r 0) none } } r
    { s.room r with dieTemp := c, thermalClamp := clamp }

theorem State.room_dieRead (s : State) (r : Nat) (c : Int) (clamp : Bool) (q : Nat) :
    (s.dieRead r c clamp).room q = if q = r then { s.room r with dieTemp := c, thermalClamp := clamp } else s.room q := State.room_setRoom ..

/-- A valid reading of the coolant outlet. -/
def State.outletRead (s : State) (c : Int) (clamp : Bool) : State :=
  { s with power := { s.power with coolOut := c, coolOutValid := true, stale := Tab.set none s.power.stale (quantityId 1 0 4) none, coolantClamp := clamp } }

/-! ## Supply faults and readings (R336, R492, R494, R495) -/

/-- A supply fault that is decided takes the module to HALTED (R492). -/
theorem State.halt_decided {s t : State} (h : s.Flagged t) (hrun : s.boot.state ≠ .halted) (c : Nat) : (t.halt c).boot = s.boot.halted c ∧
    (t.halt c).power.pwrFaultN = s.power.pwrFaultN ∧ (t.halt c).mem = s.mem := by
  obtain ⟨fns, g, rfl⟩ := h
  obtain ⟨-, _, _, _, _, _, _, _, ht⟩ := State.halt_spec (s := { s with fns := fns, gysis := g }) hrun c
  rw [ht]
  exact ⟨rfl, rfl, rfl⟩

/-- The mirrors that a rewrite leaves, function by function (R336, R538). -/
theorem State.foldl_mirrors (s : State) (n : Nat) :
    ∃ fns, (List.range n).foldl (fun t f => t.setFn f { t.fn f with telSeq := (t.fn f).telSeq + 2, mirror := s.mirrorOf f }) s = { s with fns := fns } ∧
      ∀ f, ({ s with fns := fns } : State).fn f = if f < n then { s.fn f with telSeq := (s.fn f).telSeq + 2, mirror := s.mirrorOf f } else s.fn f := by
  induction n with
  | zero => exact ⟨s.fns, rfl, fun f => (if_neg (Nat.not_lt_zero f)).symm⟩
  | succ n ih =>
    obtain ⟨fns, ht, hfn⟩ := ih
    rw [List.range_succ, List.foldl_append, List.foldl_cons, List.foldl_nil, ht]
    refine ⟨_, rfl, fun f => (State.fn_setFn { s with fns := fns } n f _).trans ?_⟩
    rw [hfn, hfn]
    by_cases hf : f = n
    · rw [if_pos hf, if_neg (lt_irrefl n), if_pos (by omega), hf]
    · rw [if_neg hf]
      exact if_congr (by omega) rfl rfl

/-- What a tick of the loop does (R486 to R489). -/
theorem exec_capLoopTick_spec (s : State) {w need : Nat} {l : List Nat} (hneed : need = ((w - l.sum) * 105 + 99) / 100) (hrom : s.romServes = false)
    (hrun : s.boot.state ≠ .halted) :
    ∃ t : State, exec (.capLoopTick w l) s = .next t ∧ t.power.measured = w ∧ (∀ r, r < 16 → Tab.get 0 t.power.roomPower r = l.getD r 0) ∧
      (t.source 194).pending = true ∧ t.power.cap = s.power.cap ∧
      t.power.baseGrant = (if need ≤ s.power.baseGrant then need else min need (s.power.baseGrant + s.freePool)) ∧
      (w ≤ s.power.cap * 1000 → t.power.withinSince.isSome = true ∧ t.power.capUnmet = s.power.capUnmet) ∧
      (s.power.cap * 1000 < w → t.power.withinSince = none) ∧
      ((s.clk 0).source = 2 → t.parts = s.parts ∧ (s.power.cap * 1000 < w → t.power.capUnmet = true)) ∧
      t.mem = s.mem ∧ t.rooms = s.rooms ∧ t.fns = s.fns := by
  obtain ⟨hpend, g, hmeas⟩ := s.measuredAt_spec w l need
  rw [exec_capLoopTick hneed hrom hrun]
  obtain ⟨u, hu⟩ : ∃ u, u = (s.measuredAt w l need).steer w need s.power.cap (decide ((s.clk 0).source = 2)) := ⟨_, rfl⟩
  obtain ⟨parts, p, hsteer⟩ := (s.measuredAt w l need).steer_stepsOnly w need s.power.cap (decide ((s.clk 0).source = 2))
  have hbypass : (s.clk 0).source = 2 → u.parts = s.parts := fun h => by
    rw [hu, State.steer, if_pos (decide_eq_true h), hmeas]
  rw [← hu] at hsteer ⊢
  have hpend' : (u.source 194).pending = true := by rw [hsteer]; exact hpend
  rw [hmeas] at hsteer
  obtain ⟨hrep, g', b, since, unmet, ht, hsince, hsame, hset⟩ := u.capTest_spec (decide (s.power.cap * 1000 < w))
  have hclk : u.clk 0 = s.clk 0 := by rw [hsteer]; rfl
  have hold : u.power.capUnmet = s.power.capUnmet := by rw [hsteer]
  refine ⟨_, rfl, ?_, fun r hr => ?_, hrep.pending _ hpend', ?_, ?_, fun hwithin => ?_, fun habove => ?_, fun hsrc => ?_, ?_, ?_, ?_⟩
  · rw [ht, hsteer]
  · rw [ht, hsteer]
    exact (Tab.get_foldl_set ..).trans (if_pos hr)
  · rw [ht, hsteer]
  · rw [ht, hsteer]
  · have hn : decide (s.power.cap * 1000 < w) = false := decide_eq_false (by omega)
    rw [hn] at hsince hsame
    rw [hn] at ht
    rw [hn, ht]
    refine ⟨?_, (hsame rfl).trans hold⟩
    dsimp only
    rw [hsince, if_neg Bool.false_ne_true]
    cases u.power.withinSince <;> rfl
  · rw [ht]
    dsimp only
    rw [hsince, decide_eq_true habove, if_pos rfl]
  · refine ⟨?_, fun habove => ?_⟩
    · rw [ht]
      exact hbypass hsrc
    · rw [ht]
      exact hset (decide_eq_true habove) (hclk ▸ hsrc)
  · rw [ht, hsteer]
  · rw [ht, hsteer]
  · rw [ht, hsteer]

/-- What a reading of a core rail's current does (R490). -/
theorem exec_currentClamp_spec (s : State) {k m lim : Nat} (hk : 1 ≤ k) (hk3 : k ≤ 3) (hlim : lim = s.nvm.config.currentLimit.getD (k - 1) 0 * 1000) :
    ∃ t : State, exec (.currentClamp k m) s = .next t ∧
    (lim < m → t.power.currentClamp = true ∧ t.power.currentBelow = none ∧ k ∈ t.power.currentRails ∧
      (s.power.currentClamp = false → t.power.currentSince = s.now ∧
        Tab.get 0 t.power.clampCounts 0 = satInc (Tab.get 0 s.power.clampCounts 0)) ∧
      (s.power.currentClamp = true → t.power.currentSince = s.power.currentSince ∧ t.power.clampCounts = s.power.clampCounts)) ∧
    (m ≤ lim → t.power.currentClamp = s.power.currentClamp ∧ t.power.clampCounts = s.power.clampCounts) ∧
    (m ≤ lim → m * 100 < lim * 95 → t.power.currentRails = s.power.currentRails.filter (· != k) ∧
      (s.power.currentClamp = true → s.power.currentRails.filter (· != k) = [] → t.power.currentBelow = some (s.power.currentBelow.getD s.now))) ∧
    (m ≤ lim → lim * 95 ≤ m * 100 → s.power.currentClamp = true → t.power.currentBelow = none) ∧ t.mem = s.mem ∧ t.rooms = s.rooms ∧ t.parts = s.parts := by
  have hrail : ¬(decide (k < 1) || decide (3 < k)) = true := by simp; omega
  have hlim' : s.railLimit k = lim := hlim.symm
  obtain hhigh | hlow := lt_or_ge lim m
  · have hexec : exec (.currentClamp k m) s = .next (if s.power.currentClamp then s.clamping k else (s.clamping k).countClamp 0) := by
      change execCurrentClamp k m s = _
      unfold execCurrentClamp
      rw [hlim']
      exact congrArg _ ((if_neg hrail).trans (if_pos hhigh))
    rw [hexec]
    cases hclamp : s.power.currentClamp with
    | true =>
      exact ⟨_, rfl, fun _ => ⟨rfl, rfl, mem_insertOnce .., fun h => by simp at h, fun _ => ⟨congrArg (fun b => if b = true then s.power.currentSince else s.now) hclamp, rfl⟩⟩,
        fun h => by omega, fun h => by omega, fun h => by omega, rfl, rfl, rfl⟩
    | false =>
      exact ⟨_, rfl, fun _ => ⟨rfl, rfl, mem_insertOnce .., fun _ => ⟨congrArg (fun b => if b = true then s.power.currentSince else s.now) hclamp, Tab.get_set_same ..⟩,
        fun h => by simp at h⟩, fun h => by omega, fun h => by omega, fun h => by omega, rfl, rfl, rfl⟩
  · obtain hbelow | hbetween := lt_or_ge (m * 100) (lim * 95)
    · have hexec : exec (.currentClamp k m) s = .next (s.railBelow k) := by
        change execCurrentClamp k m s = _
        unfold execCurrentClamp
        rw [hlim']
        exact congrArg _ ((if_neg hrail).trans ((if_neg (by omega)).trans (if_pos hbelow)))
      refine ⟨_, hexec, fun h => by omega, fun _ => ⟨rfl, rfl⟩, fun _ _ => ⟨rfl, fun hclamp hempty => ?_⟩, fun _ h => by omega, rfl, rfl, rfl⟩
      simp only [State.railBelow, hclamp, hempty, List.isEmpty_nil, Bool.and_true, Bool.true_and]
      cases s.power.currentBelow <;> rfl
    · have hexec : exec (.currentClamp k m) s = .next (if s.power.currentClamp then { s with power := { s.power with
          currentRails := insertOnce k s.power.currentRails, currentBelow := none } } else s) := by
        change execCurrentClamp k m s = _
        unfold execCurrentClamp
        rw [hlim']
        exact congrArg _ ((if_neg hrail).trans ((if_neg (by omega)).trans (if_neg (by omega))))
      rw [hexec]
      cases hclamp : s.power.currentClamp with
      | true => exact ⟨_, rfl, fun h => by omega, fun _ => ⟨hclamp, rfl⟩, fun _ h => by omega, fun _ _ _ => rfl, rfl, rfl, rfl⟩
      | false => exact ⟨_, rfl, fun h => by omega, fun _ => ⟨hclamp, rfl⟩, fun _ h => by omega, fun _ _ h => by simp at h, rfl, rfl, rfl⟩

/-- What a valid reading of a room's die sensor does (R490). -/
theorem exec_thermalClamp_spec (s : State) (r : RoomId) (c : Int) : ∃ t : State, exec (.thermalClamp r c) s = .next t ∧
    t.room r = { s.room r with dieTemp := c, thermalClamp := decide (100000 ≤ c) || decide (95000 ≤ c) && (s.room r).thermalClamp } ∧
    Tab.get 0 t.power.clampCounts 1 = (if 100000 ≤ c ∧ (s.room r).thermalClamp = false then satInc (Tab.get 0 s.power.clampCounts 1) else Tab.get 0 s.power.clampCounts 1) ∧
    (∀ q, q ≠ r.val → t.room q = s.room q) ∧ t.mem = s.mem ∧ t.parts = s.parts := by
  obtain hhot | hcool := le_or_gt 100000 c
  · have hexec : exec (.thermalClamp r c) s = .next (if (s.room r).thermalClamp then s.dieRead r c true else (s.dieRead r c true).countClamp 1) := by
      change execThermalClamp r c s = _
      exact congrArg _ (if_pos hhot)
    rw [hexec]
    cases hold : (s.room r).thermalClamp with
    | true =>
      refine ⟨_, rfl, ?_, ?_, fun q hq => (s.room_dieRead r c true q).trans (if_neg hq), rfl, rfl⟩
      · rw [decide_eq_true hhot, Bool.true_or]
        exact (s.room_dieRead r c true r).trans (if_pos rfl)
      · exact (if_neg (by simp)).symm
    | false =>
      refine ⟨_, rfl, ?_, ?_, fun q hq => (s.room_dieRead r c true q).trans (if_neg hq), rfl, rfl⟩
      · rw [decide_eq_true hhot, Bool.true_or]
        exact (s.room_dieRead r c true r).trans (if_pos rfl)
      · exact (Tab.get_set_same ..).trans (if_pos ⟨hhot, rfl⟩).symm
  · have hn : ¬(100000 ≤ c ∧ (s.room r).thermalClamp = false) := fun h => by omega
    obtain hlow | hmid := lt_or_ge c 95000
    · have hexec : exec (.thermalClamp r c) s = .next (s.dieRead r c false).forgetAcked := by
        change execThermalClamp r c s = _
        exact congrArg _ ((if_neg (by omega)).trans (if_pos hlow))
      refine ⟨_, hexec, ?_, (if_neg hn).symm, fun q hq => (s.room_dieRead r c false q).trans (if_neg hq), rfl, rfl⟩
      rw [decide_eq_false (by omega), decide_eq_false (by omega), Bool.false_and, Bool.or_false]
      exact (s.room_dieRead r c false r).trans (if_pos rfl)
    · have hexec : exec (.thermalClamp r c) s = .next (s.dieRead r c (s.room r).thermalClamp) := by
        change execThermalClamp r c s = _
        exact congrArg _ ((if_neg (by omega)).trans (if_neg (by omega)))
      refine ⟨_, hexec, ?_, (if_neg hn).symm, fun q hq => (s.room_dieRead r c _ q).trans (if_neg hq), rfl, rfl⟩
      rw [decide_eq_false (by omega), decide_eq_true hmid, Bool.true_and, Bool.false_or]
      exact (s.room_dieRead r c _ r).trans (if_pos rfl)

/-- What a valid reading of the coolant outlet does (R490). -/
theorem exec_coolantClamp_spec (s : State) {lim : Int} (hlim : lim = s.nvm.config.outletLimit * 1000) (c : Int) :
    ∃ t : State, exec (.coolantClamp (some c)) s = .next t ∧ t.power.coolOut = c ∧ t.power.coolOutValid = true ∧
      t.power.coolantClamp = (decide (lim < c) || (!decide (c ≤ lim - 2000) && s.power.coolOutValid && s.power.coolantClamp)) ∧
      Tab.get 0 t.power.clampCounts 2 = (if lim < c ∧ s.power.coolantClamp = false then satInc (Tab.get 0 s.power.clampCounts 2) else Tab.get 0 s.power.clampCounts 2) ∧
      t.mem = s.mem ∧ t.rooms = s.rooms ∧ t.parts = s.parts := by
  subst hlim
  obtain hhot | hcool := lt_or_ge (s.nvm.config.outletLimit * 1000 : Int) c
  · have hexec : exec (.coolantClamp (some c)) s = .next (if s.power.coolantClamp then s.outletRead c true else (s.outletRead c true).countClamp 2) := by
      change execCoolantClamp (some c) s = _
      exact congrArg _ (if_pos hhot)
    rw [hexec, decide_eq_true hhot, Bool.true_or]
    cases hold : s.power.coolantClamp with
    | true => exact ⟨_, rfl, rfl, rfl, rfl, (if_neg (by simp)).symm, rfl, rfl, rfl⟩
    | false => exact ⟨_, rfl, rfl, rfl, rfl, (Tab.get_set_same ..).trans (if_pos ⟨hhot, rfl⟩).symm, rfl, rfl, rfl⟩
  · have hn : ¬((s.nvm.config.outletLimit * 1000 : Int) < c ∧ s.power.coolantClamp = false) := fun h => absurd h.1 (by omega)
    rw [decide_eq_false (by omega), Bool.false_or]
    by_cases hrel : (decide (c ≤ (s.nvm.config.outletLimit * 1000 : Int) - 2000) || !s.power.coolOutValid) = true
    · have hexec : exec (.coolantClamp (some c)) s = .next (s.outletRead c false).forgetAcked := by
        change execCoolantClamp (some c) s = _
        exact congrArg _ ((if_neg (by omega)).trans (if_pos hrel))
      refine ⟨_, hexec, rfl, rfl, ?_, (if_neg hn).symm, rfl, rfl, rfl⟩
      simp only [Bool.or_eq_true, Bool.not_eq_true', decide_eq_true_eq] at hrel
      obtain hrel | hrel := hrel
      · rw [decide_eq_true hrel]; rfl
      · rw [hrel, Bool.and_false]; rfl
    · have hexec : exec (.coolantClamp (some c)) s = .next (s.outletRead c s.power.coolantClamp) := by
        change execCoolantClamp (some c) s = _
        exact congrArg _ ((if_neg (by omega)).trans (if_neg hrel))
      refine ⟨_, hexec, rfl, rfl, ?_, (if_neg hn).symm, rfl, rfl, rfl⟩
      simp only [Bool.or_eq_true, Bool.not_eq_true', not_or, Bool.not_eq_false, decide_eq_true_eq] at hrel
      rw [decide_eq_false hrel.1, hrel.2]
      rfl

/-- What a supply fault does (R492). -/
theorem exec_supplyFault_spec {s : State} (c : Fin 3) (hrun : s.boot.state ≠ .halted) :
    (c.val ≠ 1 ∨ s.power.currentClamp = true ∧ s.power.currentSince + 100000000 ≤ s.now → ∃ t : State, exec (.supplyFault c) s = .next t ∧ t.boot.state = .halted ∧
      (s.boot.stopState ≠ 5 → t.boot.cause = 8) ∧ (c.val ≠ 1 → t.power.pwrFaultN = false) ∧ (c.val = 1 → t.power.pwrFaultN = s.power.pwrFaultN) ∧ t.mem = s.mem) ∧
    (c.val = 1 → s.power.currentClamp = false → exec (.supplyFault c) s = .next s) := by
  refine ⟨fun hcause => ?_, fun hc hclamp => ?_⟩
  · by_cases hc : c.val = 1
    · obtain ⟨hclamp, hlong⟩ := hcause.resolve_left (fun h => h hc)
      have hexec : exec (.supplyFault c) s = .next ((s.decided 0x0060 3 3 true false false 255 255 16 1).halt 8) := by
        change execSupplyFault c s = _
        simp [execSupplyFault, hrun, hc, hclamp, hlong]
      obtain ⟨hboot, hfault, hmem⟩ := State.halt_decided (s.decided_flagged 0x0060 3 3 true false false 255 255 16 1) hrun 8
      refine ⟨_, hexec, ?_, fun hstop => ?_, fun h => absurd hc h, fun _ => hfault, hmem⟩
      · rw [hboot]; rfl
      · rw [hboot]; exact if_neg hstop
    · obtain ⟨src, hsrc⟩ : ∃ src, src = if c.val = 0 then 8 else 9 := ⟨_, rfl⟩
      obtain ⟨t, ht⟩ : ∃ t, t = ((s.raise src).decided 0x0060 3 3 true false false 255 255 src 1).halt 8 := ⟨_, rfl⟩
      have hexec : exec (.supplyFault c) s = .next { t with power := { t.power with pwrFaultN := false } } := by
        change execSupplyFault c s = _
        rw [ht, hsrc]
        simp only [execSupplyFault, hrun, hc, decide_false, Bool.false_and, Bool.false_eq_true, if_false]
      obtain ⟨hboot, -, hmem⟩ := State.halt_decided ((s.raise_flagged src).trans (State.decided_flagged _ 0x0060 3 3 true false false 255 255 src 1)) hrun 8
      rw [← ht] at hboot hmem
      refine ⟨_, hexec, ?_, fun hstop => ?_, fun _ => rfl, fun h => absurd h hc, hmem⟩
      · exact congrArg Boot.state hboot
      · exact (congrArg Boot.cause hboot).trans (if_neg hstop)
  · change execSupplyFault c s = _
    simp [execSupplyFault, hrun, hc, hclamp]

/-- Settles O59. -/
theorem powerClampsAndReadings : Obligations.PowerClampsAndReadings := by
  unfold Obligations.PowerClampsAndReadings
  refine ⟨fun s d => ⟨fun h => ?_, fun h hq => ?_, fun e l hd hq hne hoff hfew => ?_⟩, fun s d => ⟨fun h => ?_, fun hheld hneed hbusy => ?_⟩,
    fun s w need l hneed hrom hrun => ?_, fun s a hw hu => ?_, fun s k m lim hk hk3 hlim => ?_, fun s a hb hc => ?_, fun s r c => ?_, fun s lim hlim => ⟨rfl, fun c => ?_⟩,
    fun s c hrun => ?_, fun s hrun hrom => ?_, fun s id => ?_, fun s id hserved => ?_⟩
  · change execDomainWake d s = _
    simp only [execDomainWake, h, ne_eq, not_false_eq_true, if_true]
  · change execDomainWake d s = _
    have hq' : (s.setDomain d .on).power.wakeQueue = [] := hq
    simp only [execDomainWake, h, ne_eq, not_true_eq_false, if_false, hq']
  · obtain ⟨u, hexec, hu⟩ := exec_domainWake_next hd hq hne hoff hfew
    have hdom (q : Nat) : u.domain q = if q = d.val then .on else s.domain q := by
      rw [hu]; exact s.domain_setDomain d q .on
    refine ⟨_, hexec, ?_, ?_, ?_, fun q hqd hqe => ?_, ?_, ?_⟩
    · rw [State.domain_setDomain, if_neg hne.symm, hdom, if_pos rfl]
    · rw [State.domain_setDomain, if_pos rfl]
    · rw [hu]; rfl
    · rw [State.domain_setDomain, if_neg hqe, hdom, if_neg hqd]
    · rw [hu]; rfl
    · rw [hu]; rfl
  · change execDomainOff d s = _
    simp only [execDomainOff, h, Bool.or_true, Bool.true_or, if_true]
  · rw [exec_domainOff hheld hneed hbusy]
    cases hret : s.domainRetired d with
    | true =>
      obtain ⟨hmem, hthis, hother, hparts, hfns⟩ := s.discarded_spec d .heldOff
      exact ⟨_, rfl, hmem, fun _ => hthis, fun h => by simp at h, fun h => by simp at h, hother, hparts, hfns⟩
    | false =>
      by_cases hon : s.domain d = .on
      · obtain ⟨hmem, hthis, hother, hparts, hfns⟩ := s.discarded_spec d .off
        simp only [hon, if_true, Bool.false_eq_true, if_false]
        exact ⟨_, rfl, hmem, fun h => by simp at h, fun _ _ => hthis, fun _ h => absurd rfl h, hother, hparts, hfns⟩
      · simp only [hon, if_false, Bool.false_eq_true]
        exact ⟨_, rfl, rfl, fun h => by simp at h, fun _ h => absurd h (by simp), fun _ _ => rfl, fun _ _ => rfl, rfl, rfl⟩
  · exact exec_capLoopTick_spec s hneed hrom hrun
  · change execCapUnmetClear s = _
    simp only [execCapUnmetClear, hw, hu, Bool.true_and, decide_eq_true_eq]
  · exact exec_currentClamp_spec s hk hk3 hlim
  · change execCurrentClampRelease s = _
    simp only [execCurrentClampRelease, hb, hc, Bool.true_and, decide_eq_true_eq]
  · exact exec_thermalClamp_spec s r c
  · exact exec_coolantClamp_spec s hlim c
  · exact exec_supplyFault_spec c hrun
  · obtain ⟨fns, ht, hfn⟩ := s.foldl_mirrors 17
    have hexec : exec .telemetryTick s = .next (State.raise { s with fns := fns } 192) := by
      rw [← ht]
      change execTelemetryTick s = _
      simp only [execTelemetryTick, hrun, hrom, decide_false, Bool.or_self, Bool.false_eq_true, if_false]
    refine ⟨_, hexec, fun f hf => ?_, State.source_raise_pending rfl _, ?_, ?_, ?_⟩
    all_goals rw [State.raise_rest]
    exact (hfn f).trans (if_pos hf)
  · refine ⟨fun a ha => ?_, fun hnone => ?_⟩
    · change execSensorFail id s = _
      simp [execSensorFail, ha]
    · have hexec : exec (.sensorFail id) s = .next (State.chipEvent { s with power := { s.power with stale := Tab.set none s.power.stale id (some s.now) } } 0x13 id) := by
        change execSensorFail id s = _
        simp [execSensorFail, hnone]
      exact ⟨_, hexec, Tab.get_set_same none s.power.stale id (some s.now), ⟨_, List.mem_append_right _ (List.mem_singleton_self _), rfl, rfl⟩, rfl, rfl⟩
  · have hon : s.smbusServed = true := by simpa [State.smbusServed] using hserved
    refine ⟨?_, fun hlo hhi => ?_, fun hout => ?_, fun halert => ?_, fun halert => ?_⟩
    · change execSmbusSelect id s = _
      simp only [execSmbusSelect, hon, if_true]
    · change execSmbusRead s = _
      simp only [execSmbusRead, hon, if_true, hlo, hhi, decide_true, Bool.and_self]
    · have hno : (decide (1 ≤ s.board.selected.toNat / 2 ^ 24) && decide (s.board.selected.toNat / 2 ^ 24 ≤ 5)) = false := by
        simp only [Bool.and_eq_false_iff, decide_eq_false_iff_not]
        omega
      change execSmbusRead s = _
      simp only [execSmbusRead, hon, if_true, hno, Bool.false_eq_true, if_false]
    · have hexec : exec .alertResponse s = .next (State.emit { s with board := { s.board with alertAcked := s.alertCauses } } (.smbus (leBytes 1 (0x58 + s.boot.addrStrap.toNat)))) := by
        change execAlertResponse s = _
        simp only [execAlertResponse, hon, halert, Bool.and_self, if_true]
      refine ⟨_, hexec, ?_, rfl, rfl, rfl, rfl⟩
      change decide (s.alertCauses &&& ~~~s.alertCauses ≠ 0) = false
      simp
    · change execAlertResponse s = _
      simp [execAlertResponse, halert]

end Sys2Proof.Machine
end

section
/-! PROOFS. Freoft ports (17): codewords and replay, training, lanes and ports out of service, time synchronisation (R404 to R430). -/

namespace Sys2Proof.Machine

/-! ## What a port's operations leave alone -/

theorem State.LinkFrame.refl (s : State) (n : Nat) : s.LinkFrame s n := ⟨fun _ _ => rfl, rfl, rfl, rfl, rfl⟩

theorem State.LinkFrame.trans {s t u : State} {n : Nat} (h : s.LinkFrame t n) (h' : t.LinkFrame u n) : s.LinkFrame u n :=
  ⟨fun m hm => (h'.others m hm).trans (h.others m hm), h'.mem.trans h.mem, h'.rooms.trans h.rooms, h'.hbm.trans h.hbm, h'.parts.trans h.parts⟩

/-- What leaves ports, memory, rooms, stacks and partitions alone frames every port. -/
theorem State.LinkFrame.of_ports {s t : State} (hports : t.links.ports = s.links.ports) (hmem : t.mem = s.mem) (hrooms : t.rooms = s.rooms) (hhbm : t.hbm = s.hbm)
    (hparts : t.parts = s.parts) (n : Nat) : s.LinkFrame t n :=
  ⟨fun m _ => congrArg (fun l : Tab Port => (Tab.get {} l m : Port)) hports, hmem, hrooms, hhbm, hparts⟩

theorem State.linkFrame_setPort (s : State) (n : Nat) (x : Port) : s.LinkFrame (s.setPort n x) n :=
  ⟨fun m hm => (s.port_setPort n m x).trans (if_neg hm), rfl, rfl, rfl, rfl⟩

theorem State.linkFrame_draw (s : State) (k n : Nat) : s.LinkFrame (s.draw k) n := ⟨fun _ _ => rfl, rfl, rfl, rfl, rfl⟩

theorem State.linkFrame_portTo (s : State) (n : Nat) (x : Port) : s.LinkFrame (s.portTo n x) n := by
  obtain ⟨h, g, ht⟩ := s.portTo_spec n x
  refine ⟨fun m hm => (s.port_portTo n x m).trans (if_neg hm), ?_, ?_, ?_, ?_⟩
  all_goals rw [ht]; rfl

theorem State.Flagged.linkFrame {s t : State} (h : s.Flagged t) (n : Nat) : s.LinkFrame t n ∧ ∀ m, t.port m = s.port m := by
  obtain ⟨fns, g, rfl⟩ := h
  exact ⟨⟨fun _ _ => rfl, rfl, rfl, rfl, rfl⟩, fun _ => rfl⟩

theorem State.note_flagged (s : State) (c : FaultChan) (kind : Nat) : s.Flagged (s.note c kind) :=
  ⟨s.fns, (s.note c kind).gysis, congrArg (fun t : State => { t with gysis := (s.note c kind).gysis }) (s.note_rest c kind s.gysis)⟩

theorem State.port_portTo_same (s : State) (n : Nat) (x : Port) : (s.portTo n x).port n = (s.port n).after x s.now := (s.port_portTo n x n).trans (if_pos rfl)

/-- The replacement of a port that changes its state raises the port's source (R421). -/
theorem State.portTo_pending {s : State} {n : Nat} {x : Port} (h : (s.port n).state ≠ x.state) (hn : n < 30) : ((s.portTo n x).source (96 + n)).pending = true := by
  unfold State.portTo
  extract_lets y t
  rw [if_neg h]
  exact State.source_raise_pending (by simp [sourceAssigned]; omega) t

/-- A port that is stored with a new state is that port, but for the date at which it left ACTIVE. -/
theorem Port.after_rest (x y : Port) (now : Nat) : ∃ a, x.after y now = { y with activeUntil := a } := by
  unfold Port.after
  split <;> exact ⟨_, rfl⟩

/-! ## Flits leave (R412, R413, R415) -/

theorem State.emitFlits_rest (s : State) (n : Nat) (l : List (BitVec 12 × Flit)) : s.emitFlits n l = { s with
    out := (l.map (fun e => OutEvent.flit n e.1.toNat e.2.kind.val e.2.vc.val e.2.data)).reverse ++ s.out } := by
  unfold State.emitFlits
  induction l generalizing s with
  | nil => rfl
  | cons e l ih =>
    rw [List.foldl_cons, ih, List.map_cons, List.reverse_cons, List.append_assoc]
    rfl

/-- From `x` to `y` a port has sent flits of its queue: they are unacknowledged now, behind those that were. -/
def Port.Pumped (x y : Port) : Prop :=
  ∃ l seq at_ credits tx vc part q, y = { x with
    unacked := x.unacked ++ l, txSeq := seq, ackAt := at_, credits := credits, flitsTx := tx, lastVc := vc, lastPart := part, queued := q }

theorem Port.Pumped.refl (x : Port) : x.Pumped x := ⟨[], x.txSeq, x.ackAt, x.credits, x.flitsTx, x.lastVc, x.lastPart, x.queued, by rw [List.append_nil]⟩

theorem Port.Pumped.trans {x y z : Port} : x.Pumped y → y.Pumped z → x.Pumped z := by
  rintro ⟨l, _, _, _, _, _, _, _, rfl⟩ ⟨l', seq, at_, credits, tx, vc, part, q, rfl⟩
  exact ⟨l ++ l', seq, at_, credits, tx, vc, part, q, by simp only [List.append_assoc]⟩

theorem Port.pumped_pumpQueue (x : Port) (now n : Nat) (q : List Flit) : x.Pumped (x.pumpQueue now n q).1 := by
  induction n generalizing x q with
  | zero => exact .refl x
  | succ n ih =>
    unfold Port.pumpQueue
    split
    · exact .refl x
    next f _ => exact .trans ⟨[(x.txSeq, f.vc.val, f)], _, _, _, _, _, _, _, rfl⟩ (ih (x.sendOne now f) (q.erase f))

/-- A port once the flits that may go have gone. -/
def Port.drained (x : Port) (now : Nat) : Port :=
  { (x.pumpQueue now x.queued.length x.queued).1 with queued := (x.pumpQueue now x.queued.length x.queued).2.2 }

theorem Port.pumped_drained (x : Port) (now : Nat) : x.Pumped (x.drained now) :=
  (x.pumped_pumpQueue now x.queued.length x.queued).trans ⟨[], _, _, _, _, _, _, _, by rw [List.append_nil]; rfl⟩

theorem State.pump_of_active {s : State} {n : Nat} (h : (s.port n).state = .active) : ∃ out, s.pump n = { s.setPort n ((s.port n).drained s.now) with out := out } := by
  exact ⟨_, (if_pos h).trans (State.emitFlits_rest ..)⟩

/-- A port that is ACTIVE sends what it may, and nothing else of the module changes but what has left it. -/
theorem State.pump_spec (s : State) (n : Nat) : (∃ ports out, s.pump n = { s with links := { s.links with ports := ports }, out := out }) ∧
    (s.port n).Pumped ((s.pump n).port n) ∧ (∀ m, m ≠ n → (s.pump n).port m = s.port m) ∧ ((s.port n).state ≠ .active → s.pump n = s) := by
  by_cases h : (s.port n).state = .active
  · obtain ⟨out, ht⟩ := State.pump_of_active h
    rw [ht]
    refine ⟨⟨_, _, rfl⟩, ?_, fun m hm => (s.port_setPort n m _).trans (if_neg hm), fun hn => absurd h hn⟩
    have hthis : (s.setPort n ((s.port n).drained s.now)).port n = (s.port n).drained s.now := (s.port_setPort n n _).trans (if_pos rfl)
    exact hthis.symm ▸ (s.port n).pumped_drained s.now
  · have ht : s.pump n = s := if_neg h
    rw [ht]
    exact ⟨⟨s.links.ports, s.out, rfl⟩, .refl _, fun _ _ => rfl, fun _ => rfl⟩

theorem State.linkFrame_pump (s : State) (n : Nat) : s.LinkFrame (s.pump n) n := by
  obtain ⟨⟨ports, out, ht⟩, -, hothers, -⟩ := s.pump_spec n
  refine ⟨hothers, ?_, ?_, ?_, ?_⟩
  all_goals rw [ht]

theorem State.resend_rest (s : State) (n : Nat) : s.resend n = { s with
    out := ((s.port n).unacked.map (fun e => OutEvent.flit n e.1.toNat e.2.2.kind.val e.2.2.vc.val e.2.2.data)).reverse ++ s.out } := by
  rw [State.resend, State.emitFlits_rest, List.map_map]
  rfl

/-! ## Attempts (R420, R421) -/

theorem State.failAttempt_spec (s : State) (n : Nat) : s.AttemptFailed (s.failAttempt n) n := by
  obtain ⟨hframe, hports⟩ := (s.note_flagged (.port n) 2).linkFrame n
  have hthis (y : Port) : ∃ a, ((s.note (.port n) 2).portTo n y).port n = { y with activeUntil := a } := by
    rw [State.port_portTo_same]
    exact Port.after_rest ..
  unfold State.failAttempt
  extract_lets x a t
  split
  next h =>
    refine ⟨?_, fun hearly => absurd h (by dsimp only [a, x]; omega), fun _ => ?_, ?_, hframe.trans (State.linkFrame_portTo ..)⟩
    all_goals
      obtain ⟨d, hd⟩ := hthis { x with state := .down, trainStep := 0, attempt := a, backoffUntil := s.now + secondNs, downSince := if a = 12 then s.now else x.downSince }
      rw [hd]
      exact ⟨rfl, rfl⟩
  next h =>
    have hpos : 0 < 2 ^ min a 6 * 1000000 := by positivity
    obtain ⟨d, hd⟩ := hthis { x with trainStep := 0, attempt := a, backoffUntil := s.now + (Config.openWord s.free).toNat % (2 ^ min a 6 * 1000000) }
    refine ⟨?_, fun _ => ?_, fun hlate => absurd h (by dsimp only [a, x]; omega), ?_, (hframe.trans (State.linkFrame_portTo ..)).trans (State.linkFrame_draw _ 1 n)⟩
    · rw [State.port_draw, hd]
      exact ⟨rfl, rfl⟩
    · rw [State.port_draw, hd]
      exact ⟨rfl, Nat.le_add_right _ _, Nat.add_lt_add_left (Nat.mod_lt _ hpos) _⟩
    · rw [State.port_draw, hd]
      exact ⟨rfl, rfl⟩

/-- A port that begins a training attempt. -/
def Port.attempting (x : Port) (now : Nat) (first : Bool) : Port :=
  { x with
    state := .training, trainStep := 2, trainStart := now, attempt := if first then 0 else x.attempt, rxNak := false, nakSeen := false
    retries := 0, newMap := none, newMapConfirmed := false, tapPending := false }

theorem State.beginAttempt_spec (s : State) {n : Nat} (hn : n < 30) (first : Bool) : s.Attempting (s.beginAttempt n first) n first := by
  obtain ⟨d, hd⟩ := Port.after_rest (s.port n) ((s.port n).attempting s.now first) s.now
  have hthis : (s.beginAttempt n first).port n = { (s.port n).attempting s.now first with activeUntil := d } := (s.port_portTo_same n _).trans hd
  refine ⟨?_, ?_, ?_, fun h => State.portTo_pending (x := (s.port n).attempting s.now first) h hn, s.linkFrame_portTo n _⟩
  all_goals rw [hthis]
  · exact ⟨rfl, rfl, rfl⟩
  · rfl
  · exact ⟨rfl, rfl⟩

/-! ## Replay (R415 to R417) -/

/-- A port that retrains leaves ACTIVE and keeps its queue, its replay buffer and its counts. -/
theorem State.retrain_spec {s : State} {n : Nat} (h : (s.port n).state = .active) : s.LinkFrame (s.retrain n) n ∧ (s.retrain n).out = s.out ∧
    ((s.retrain n).port n).state ≠ .active ∧ ((s.retrain n).port n).unacked = (s.port n).unacked ∧ ((s.retrain n).port n).queued = (s.port n).queued ∧
    ((s.retrain n).port n).replays = (s.port n).replays ∧ ((s.retrain n).port n).exhausted = (s.port n).exhausted := by
  have hout : (s.retrain n).out = s.out := by
    obtain ⟨_, _, _, ht⟩ := s.portsOnly_retrain n
    rw [ht]
  refine ⟨?_, hout, ?_⟩
  all_goals
    unfold State.retrain
    rw [if_neg (by rw [h]; decide)]
    split
  · exact s.linkFrame_portTo n _
  · exact s.linkFrame_portTo n _
  · obtain ⟨d, hd⟩ := Port.after_rest (s.port n) ((s.port n).attempting s.now true) s.now
    have hthis : (s.beginAttempt n true).port n = { (s.port n).attempting s.now true with activeUntil := d } := (s.port_portTo_same n _).trans hd
    rw [hthis]
    exact ⟨(by decide : PortState.training ≠ .active), rfl, rfl, rfl, rfl⟩
  · obtain ⟨d, hd⟩ := Port.after_rest (s.port n) { s.port n with state := .down, trainStep := 0, attempt := 0, downSince := s.now } s.now
    rw [State.port_portTo_same, hd]
    exact ⟨(by decide : PortState.down ≠ .active), rfl, rfl, rfl, rfl⟩

/-- A port as a retransmission leaves it: ACK is waited for anew. -/
def Port.retransmitting (x : Port) (now : Nat) : Port :=
  { x with replays := satInc x.replays, retries := x.retries + 1, ackAt := now, nakSeen := false, nakIgnoredUntil := now + 1000 }

theorem State.retransmit_resent {s : State} {n : Nat} (h : (s.port n).state = .active) : s.Resent (s.retransmit n) n := by
  obtain ⟨t, ht⟩ : ∃ t, t = (s.setPort n ((s.port n).retransmitting s.now)).resend n := ⟨_, rfl⟩
  have heq : s.retransmit n = if 8 ≤ (s.port n).retries + 1 then
      ((t.setPort n { (s.port n).retransmitting s.now with exhausted := satInc (s.port n).exhausted }).note (.port n) 0).retrain n else t := by rw [ht]; rfl
  rw [State.resend_rest, State.port_setPort, if_pos rfl] at ht
  have hthis : t.port n = (s.port n).retransmitting s.now := by
    rw [ht]
    exact (s.port_setPort n n _).trans (if_pos rfl)
  have hframe : s.LinkFrame t n := by
    rw [ht]
    exact (s.linkFrame_setPort n _).trans ⟨fun _ _ => rfl, rfl, rfl, rfl, rfl⟩
  have hout : t.out = ((s.port n).unacked.map (fun e => OutEvent.flit n e.1.toNat e.2.2.kind.val e.2.2.vc.val e.2.2.data)).reverse ++ s.out := by rw [ht]; rfl
  rw [heq]
  split
  next hmany =>
    obtain ⟨u, hu⟩ : ∃ u, u = t.setPort n { (s.port n).retransmitting s.now with exhausted := satInc (s.port n).exhausted } := ⟨_, rfl⟩
    rw [← hu]
    have huport : u.port n = { (s.port n).retransmitting s.now with exhausted := satInc (s.port n).exhausted } := by
      rw [hu]
      exact (t.port_setPort n n _).trans (if_pos rfl)
    obtain ⟨hnote, hports⟩ := (u.note_flagged (.port n) 0).linkFrame n
    have hnout : (u.note (.port n) 0).out = t.out := by rw [hu]; rfl
    have hactive : ((u.note (.port n) 0).port n).state = .active := by rw [hports, huport]; exact h
    obtain ⟨hretrain, hrout, hstate, hunacked, hqueued, hreplays, hexhausted⟩ := State.retrain_spec hactive
    rw [hports, huport] at hunacked hqueued hreplays hexhausted
    have huframe : s.LinkFrame u n := by
      rw [hu]
      exact hframe.trans (t.linkFrame_setPort n _)
    exact ⟨hrout.trans (hnout.trans hout), hreplays, ⟨hunacked, hqueued⟩, fun hfew => by omega, fun _ => ⟨hexhausted, hstate⟩, (huframe.trans hnote).trans hretrain⟩
  next hfew =>
    refine ⟨hout, ?_, ?_, fun _ => ?_, fun hmany => by omega, hframe⟩
    all_goals rw [hthis]
    · rfl
    · exact ⟨rfl, rfl⟩
    · exact ⟨h, rfl, rfl, rfl, rfl⟩

/-! ## Codewords (R404, R407, R413, R415) -/

/-- The window of a port's counts is closed where it has elapsed: only what the port counts in it and what Gysis keeps changes (R456). -/
theorem State.closeWindow_spec (s : State) (n : Nat) : s.LinkFrame (s.closeWindow n) n ∧
    ∃ a w e b r, (s.closeWindow n).port n = { s.port n with winStart := a, winWords := w, winErr := e, winBad := b, winRatio := r } := by
  unfold State.closeWindow
  extract_lets x
  split
  · exact ⟨.refl s n, _, _, _, _, _, rfl⟩
  next gap high row y _ =>
    have hy : s.LinkFrame (s.setPort n y) n ∧ (s.setPort n y).port n = y := ⟨s.linkFrame_setPort n y, (s.port_setPort n n y).trans (if_pos rfl)⟩
    obtain ⟨hframe, hport⟩ := List.foldlRecOn (motive := fun t : State => s.LinkFrame t n ∧ t.port n = y) (lanesIn x.laneMap)
      (fun t l => if 3 ≤ row l then t.note (.lane n l) 0 else t) hy (fun t ht l _ => by
        split
        · obtain ⟨hnote, hports⟩ := (t.note_flagged (.lane n l) 0).linkFrame n
          exact ⟨ht.1.trans hnote, (hports n).trans ht.2⟩
        · exact ht)
    exact ⟨hframe, _, _, _, _, _, hport⟩

/-- What a port has received: the last sequence number in order, whether a gap is open, and how many flits. -/
def Port.received (x : Port) : BitVec 12 × Bool × BitVec 48 := (x.rxAck, x.rxNak, x.flitsRx)

theorem Port.takeFlit_rest (x : Port) (seq : BitVec 12) (vc : Nat) :
    ∃ a b c o, x.takeFlit seq vc = { x with rxAck := a, rxNak := b, flitsRx := c, occupied := o } := by
  unfold Port.takeFlit
  split
  · exact ⟨_, _, _, _, rfl⟩
  split
  · exact ⟨_, _, _, _, rfl⟩
  · exact ⟨_, _, _, _, rfl⟩

theorem Port.takeFlit_received {x y : Port} (h : y.received = x.received) (seq : BitVec 12) (vc : Nat) :
    (y.takeFlit seq vc).received = (x.takeFlit seq vc).received := by
  obtain ⟨hack, hrest⟩ := Prod.ext_iff.mp h
  obtain ⟨hnak, hflits⟩ := Prod.ext_iff.mp hrest
  change y.rxAck = x.rxAck at hack
  change y.rxNak = x.rxNak at hnak
  change y.flitsRx = x.flitsRx at hflits
  unfold Port.takeFlit
  rw [hack]
  split
  · simp only [Port.received, hflits]
  split
  · simp only [Port.received, hflits]
  · exact h

theorem Port.takeSlots_received {x y : Port} (h : y.received = x.received) (c : CwHeader) (fs : List Flit) : (y.takeSlots c fs).received = (x.takeSlots c fs).received := by
  unfold Port.takeSlots
  generalize (fs.zipIdx.filter (fun e => c.valid.getLsbD e.2)).zipIdx = l
  induction l generalizing x y with
  | nil => exact h
  | cons e l ih => exact ih (Port.takeFlit_received h _ _)

theorem Port.takeSlots_rest (x : Port) (c : CwHeader) (fs : List Flit) :
    ∃ a b f o, x.takeSlots c fs = { x with rxAck := a, rxNak := b, flitsRx := f, occupied := o } := by
  unfold Port.takeSlots
  generalize (fs.zipIdx.filter (fun e => c.valid.getLsbD e.2)).zipIdx = l
  induction l generalizing x with
  | nil => exact ⟨_, _, _, _, rfl⟩
  | cons e l ih =>
    obtain ⟨_, _, _, _, h⟩ := x.takeFlit_rest (c.seq + BitVec.ofNat 12 e.2) e.1.1.vc.val
    obtain ⟨a, b, f, o, h'⟩ := ih (x.takeFlit (c.seq + BitVec.ofNat 12 e.2) e.1.1.vc.val)
    rw [h] at h'
    exact ⟨a, b, f, o, by rw [List.foldl_cons, h]; exact h'⟩

theorem Port.countSymbols_rest (x : Port) (bad : List Nat) :
    ∃ c m w, x.countSymbols bad = { x with cwCorr := c, symCorr := m, winErr := w } := by
  unfold Port.countSymbols
  extract_lets lanes on y
  have hy : ∃ c m w, y = { x with cwCorr := c, symCorr := m, winErr := w } := by
    dsimp only [y]
    split
    · exact ⟨_, _, _, rfl⟩
    · exact ⟨_, _, _, rfl⟩
  refine List.foldlRecOn (motive := fun z : Port => ∃ c m w, z = { x with cwCorr := c, symCorr := m, winErr := w }) _ _ hy ?_
  rintro _ ⟨_, _, _, rfl⟩ i -
  exact ⟨_, _, _, rfl⟩

/-- A codeword that is taken: what the port has received is what its slots give, and its replay buffer waits for the ACK. -/
theorem Port.goodCodeword_spec (x : Port) (now : Nat) (c : CwHeader) (fs : List Flit) (bad : List Nat) :
    (x.goodCodeword now c fs bad).received = (x.takeSlots c fs).received ∧ (x.goodCodeword now c fs bad).unacked = x.unacked := by
  obtain ⟨_, _, _, hcount⟩ := Port.countSymbols_rest { x with winWords := x.winWords + 1 } bad
  unfold Port.goodCodeword
  refine ⟨Port.takeSlots_received ?_ c fs, ?_⟩
  · rw [hcount]; rfl
  · obtain ⟨_, _, _, _, h⟩ := Port.takeSlots_rest ((({ x with winWords := x.winWords + 1 } : Port).countSymbols bad).takeHeader now c) c fs
    rw [h, hcount]
    rfl

/-- The ACK of a header: what the port has received stays, and an ACK that covers flits takes them out of the replay buffer (R415, R416). -/
theorem State.takeAck_spec (s : State) (n : Nat) (ack : BitVec 12) : s.LinkFrame (s.takeAck n ack) n ∧ ((s.takeAck n ack).port n).received = (s.port n).received ∧
    ∀ i, (s.port n).unacked.findIdx? (fun e => e.1 == ack) = some i →
      ((s.takeAck n ack).port n).unacked = (s.port n).unacked.drop (i + 1) ∧ ((s.takeAck n ack).port n).retries = 0 := by
  have hset (y : Port) : s.LinkFrame (s.setPort n y) n ∧ (s.setPort n y).port n = y := ⟨s.linkFrame_setPort n y, (s.port_setPort n n y).trans (if_pos rfl)⟩
  unfold State.takeAck
  extract_lets x
  split
  next i hi =>
    obtain ⟨hframe, hthis⟩ := hset { x with unacked := x.unacked.drop (i + 1), ackAt := s.now, retries := 0, resumed := false }
    rw [hthis]
    refine ⟨hframe, rfl, fun j hj => ?_⟩
    rw [show i = j from Option.some.inj (hi.symm.trans hj)]
    exact ⟨rfl, rfl⟩
  next hnone =>
    have hno (i : Nat) (hi : (s.port n).unacked.findIdx? (fun e => e.1 == ack) = some i) : False := by
      rw [hnone] at hi
      exact absurd hi (by simp)
    split
    · rw [State.resend_rest]
      obtain ⟨hframe, hthis⟩ := hset { x with
        unacked := renumber (ack + 1) x.unacked, txSeq := ack + 1 + BitVec.ofNat 12 x.unacked.length, ackAt := s.now, resumed := false }
      have hreceived := congrArg Port.received hthis
      exact ⟨hframe.trans ⟨fun _ _ => rfl, rfl, rfl, rfl, rfl⟩, hreceived, fun i hi => (hno i hi).elim⟩
    · obtain ⟨hframe, hthis⟩ := hset { x with resumed := false }
      have hreceived := congrArg Port.received hthis
      exact ⟨hframe, hreceived, fun i hi => (hno i hi).elim⟩

/-! ## Codewords, whole (R404, R416) -/

theorem exec_codewordReceive {s : State} {n : PortId} {cw : List (BitVec 10)} (h : (s.port n).state = .active) (hlen : cw.length = 448) :
    exec (.codewordReceive n cw) s = .next (s.takeCodeword n (codewordOf cw)) := by
  change execCodewordReceive n cw s = _
  simp [execCodewordReceive, h, hlen]

/-- An uncorrectable codeword (R404). -/
theorem State.takeCodeword_none (s : State) (n : Nat) : s.LinkFrame (s.takeCodeword n none) n ∧ ((s.takeCodeword n none).port n).rxNak = true ∧
    ((s.takeCodeword n none).port n).rxAck = (s.port n).rxAck ∧ ((s.takeCodeword n none).port n).cwUncorr = satInc (s.port n).cwUncorr ∧
    ((s.takeCodeword n none).port n).unacked = (s.port n).unacked := by
  obtain ⟨hclose, _, _, _, _, _, hport⟩ := s.closeWindow_spec n
  obtain ⟨u, hu⟩ : ∃ u, u = (s.closeWindow n).setPort n ((s.closeWindow n).port n).badCodeword := ⟨_, rfl⟩
  have huport : u.port n = ((s.closeWindow n).port n).badCodeword := by rw [hu]; exact (State.port_setPort ..).trans (if_pos rfl)
  have hframe : s.LinkFrame u n := by rw [hu]; exact hclose.trans (State.linkFrame_setPort ..)
  obtain ⟨hnote, hports⟩ := (u.note_flagged (.port n) 3).linkFrame n
  have heq : s.takeCodeword n none = u.note (.port n) 3 := by rw [hu]; rfl
  rw [heq, hports, huport, hport]
  exact ⟨hframe.trans hnote, rfl, rfl, rfl, rfl⟩

/-- A codeword that decodes (R407, R413, R415). -/
theorem State.takeCodeword_some (s : State) (n : Nat) (c : CwHeader) (fs : List Flit) (bad : List Nat) :
    s.LinkFrame (s.takeCodeword n (some (c, fs, bad))) n ∧
    ((s.takeCodeword n (some (c, fs, bad))).port n).received = ((s.port n).takeSlots c fs).received ∧
    ∀ i, (s.port n).unacked.findIdx? (fun e => e.1 == c.ack) = some i →
      (∃ l, ((s.takeCodeword n (some (c, fs, bad))).port n).unacked = (s.port n).unacked.drop (i + 1) ++ l) ∧
      ((s.takeCodeword n (some (c, fs, bad))).port n).retries = 0 := by
  obtain ⟨hclose, _, _, _, _, _, hport⟩ := s.closeWindow_spec n
  obtain ⟨t, ht⟩ : ∃ t, t = s.closeWindow n := ⟨_, rfl⟩
  rw [← ht] at hclose hport
  obtain ⟨u, hu⟩ : ∃ u, u = t.setPort n ((t.port n).goodCodeword t.now c fs bad) := ⟨_, rfl⟩
  have huport : u.port n = (t.port n).goodCodeword t.now c fs bad := by rw [hu]; exact (State.port_setPort ..).trans (if_pos rfl)
  have hframe : s.LinkFrame u n := by rw [hu]; exact hclose.trans (State.linkFrame_setPort ..)
  obtain ⟨hrec, hun⟩ := (t.port n).goodCodeword_spec t.now c fs bad
  obtain ⟨hack, hackrec, hackun⟩ := u.takeAck_spec n c.ack
  obtain ⟨-, ⟨l, _, _, _, _, _, _, _, hpump⟩, -⟩ := (u.takeAck n c.ack).pump_spec n
  have heq : s.takeCodeword n (some (c, fs, bad)) = (u.takeAck n c.ack).pump n := by rw [hu, ht]; rfl
  have hold : (t.port n).received = (s.port n).received := by rw [hport]; rfl
  rw [heq, hpump]
  refine ⟨(hframe.trans hack).trans (State.linkFrame_pump ..), ?_, fun i hi => ?_⟩
  · exact (hackrec.trans ((congrArg Port.received huport).trans hrec)).trans (Port.takeSlots_received hold c fs)
  · have hsame : (u.port n).unacked = (s.port n).unacked := by rw [huport, hun, hport]
    obtain ⟨hdrop, hretries⟩ := hackun i (by rw [hsame]; exact hi)
    rw [hsame] at hdrop
    exact ⟨⟨l, congrArg (· ++ l) hdrop⟩, hretries⟩

/-! ## Training succeeds (R420) -/

theorem Port.setCredits_credits (x : Port) (bufs : List Nat) {v : Nat} (h : v < 8) : Tab.get 0 (x.setCredits bufs).credits v = bufs.getD v 0 :=
  (Tab.get_foldl_set ..).trans (if_pos h)

/-- A port that has reached step 7. -/
def Port.ready (x : Port) (now : Nat) (map : BitVec 8) (q : PortIdentity) (numbered : Bool) : Port :=
  { x.setCredits q.freeBufs with
    state := if numbered then .active else .training, trainStep := 7, attempt := 0, laneMap := map, partner := some q, ackAt := now, resumed := true
    winStart := now, winWords := 0, winErr := [] }

theorem State.trained_spec {s : State} {n : Nat} (hn : n < 30) (hstate : (s.port n).state = .training) (map : BitVec 8) (q : PortIdentity) :
    s.LinkFrame (s.trained n map q) n ∧ ∃ d, (q.numbered = true ∧ s.links.route.isSome = true →
      Port.Pumped { (s.port n).ready s.now map q true with activeUntil := d } ((s.trained n map q).port n) ∧ ((s.trained n map q).source (96 + n)).pending = true) ∧
      (q.numbered = false ∨ s.links.route.isSome = false → (s.trained n map q).port n = { (s.port n).ready s.now map q false with activeUntil := d }) := by
  obtain ⟨y, hy⟩ : ∃ y, y = (s.port n).ready s.now map q (q.numbered && s.links.route.isSome) := ⟨_, rfl⟩
  have heq : s.trained n map q = if (q.numbered && s.links.route.isSome) = true then ((s.portTo n y).resend n).pump n else s.portTo n y := by rw [hy]; rfl
  obtain ⟨d, hd⟩ := Port.after_rest (s.port n) y s.now
  have hthis : (s.portTo n y).port n = { y with activeUntil := d } := (s.port_portTo_same n y).trans hd
  rw [heq]
  cases hnum : (q.numbered && s.links.route.isSome) with
  | true =>
    rw [hnum] at hy
    rw [if_pos rfl]
    obtain ⟨⟨_, _, hrest⟩, hpumped, -⟩ := ((s.portTo n y).resend n).pump_spec n
    have hresend := (s.portTo n y).resend_rest n
    have hport : ((s.portTo n y).resend n).port n = { y with activeUntil := d } := by rw [hresend]; exact hthis
    refine ⟨((s.linkFrame_portTo n y).trans ?_).trans (State.linkFrame_pump ..), d, fun _ => ⟨?_, ?_⟩, fun h => ?_⟩
    · rw [hresend]; exact ⟨fun _ _ => rfl, rfl, rfl, rfl, rfl⟩
    · subst hy
      rw [hport] at hpumped
      exact hpumped
    · have hpend : ((s.portTo n y).source (96 + n)).pending = true := State.portTo_pending (by rw [hstate, hy]; exact (by decide : PortState.training ≠ .active)) hn
      rw [hrest, hresend]
      exact hpend
    · simp only [Bool.and_eq_true] at hnum
      simp [hnum] at h
  | false =>
    rw [hnum] at hy
    rw [if_neg Bool.false_ne_true]
    refine ⟨s.linkFrame_portTo n y, d, fun h => ?_, fun _ => by rw [hthis, hy]⟩
    simp [h] at hnum

/-- A port whose partner is of another system is held (R420). -/
def State.heldFor (s : State) (n : Nat) (map : BitVec 8) (q : PortIdentity) : State :=
  (s.portTo n { s.port n with state := .held, trainStep := 6, attempt := 0, laneMap := map, partner := some q }).decided 0x0022 1 0 true false false
    255 n q.systemId.toNat 1

theorem State.heldFor_spec (s : State) (n : Nat) (map : BitVec 8) (q : PortIdentity) : s.LinkFrame (s.heldFor n map q) n ∧
    ∃ d, (s.heldFor n map q).port n = { s.port n with state := .held, trainStep := 6, attempt := 0, laneMap := map, partner := some q, activeUntil := d } := by
  obtain ⟨y, hy⟩ : ∃ y, y = { s.port n with state := .held, trainStep := 6, attempt := 0, laneMap := map, partner := some q } := ⟨_, rfl⟩
  obtain ⟨d, hd⟩ := Port.after_rest (s.port n) y s.now
  obtain ⟨hframe, hports⟩ := ((s.portTo n y).decided_flagged 0x0022 1 0 true false false 255 n q.systemId.toNat 1).linkFrame n
  have heq : s.heldFor n map q = (s.portTo n y).decided 0x0022 1 0 true false false 255 n q.systemId.toNat 1 := by rw [hy]; rfl
  rw [heq, hports]
  exact ⟨(s.linkFrame_portTo n y).trans hframe, d, ((s.port_portTo_same n y).trans hd).trans (by rw [hy])⟩

/-- The partner of a port names another system. -/
def State.otherSystem (s : State) (q : PortIdentity) : Bool :=
  match s.links.route with | some t => q.numbered && t.systemId != q.systemId | none => false

section
variable {s : State} {n : PortId} {lanes : BitVec 8} {q : PortIdentity} (hstate : (s.port n).state = .training) (hstep : (s.port n).trainStep = 2)
  (hrun : s.linksRun = true) (htime : s.now < (s.port n).trainStart + 20000000)
include hstate hstep hrun htime

theorem exec_trainingAttempt_fails (hmap : (s.port n).chooseMap (lanes &&& ~~~(s.port n).laneRetired) = none) :
    exec (.trainingAttempt n lanes q) s = .next (s.failAttempt n) := by
  change execTrainingAttempt n lanes q s = _
  simp [execTrainingAttempt, hstate, hstep, hrun, htime, hmap]

theorem exec_trainingAttempt {map : BitVec 8} (hmap : (s.port n).chooseMap (lanes &&& ~~~(s.port n).laneRetired) = some map) :
    exec (.trainingAttempt n lanes q) s = .next (if s.otherSystem q then s.heldFor n map q else s.trained n map q) := by
  change execTrainingAttempt n lanes q s = _
  unfold execTrainingAttempt
  simp only [hstate, hstep, hrun, hmap, ne_eq, not_true_eq_false, decide_false, Bool.not_true, Bool.or_self, not_le.mpr htime]
  rfl

end

/-! ## The lane map of R418 -/

theorem bestLane_mem {h : Nat → Nat} {l : List Nat} {b : Nat} (hb : bestLane h l = some b) : b ∈ l := by
  induction l generalizing b with
  | nil => exact absurd hb (by simp [bestLane])
  | cons x l ih =>
    unfold bestLane at hb
    split at hb
    next c hc =>
      split at hb
      · exact List.mem_cons_of_mem _ (Option.some.inj hb ▸ ih hc)
      · exact Option.some.inj hb ▸ List.mem_cons_self
    next => exact Option.some.inj hb ▸ List.mem_cons_self

theorem bestLane_isSome {h : Nat → Nat} {l : List Nat} (hl : l ≠ []) : ∃ b, bestLane h l = some b := by
  cases l with
  | nil => exact absurd rfl hl
  | cons x l =>
    unfold bestLane
    split
    · split <;> exact ⟨_, rfl⟩
    · exact ⟨_, rfl⟩

/-- The `k` best of at least `k` different lanes are `k` different ones of them. -/
theorem bestLanes_spec {k : Nat} {h : Nat → Nat} {l : List Nat} (hnodup : l.Nodup) (hk : k ≤ l.length) :
    (bestLanes k h l).length = k ∧ (bestLanes k h l).Nodup ∧ bestLanes k h l ⊆ l := by
  induction k generalizing l with
  | zero => exact ⟨rfl, List.nodup_nil, List.nil_subset _⟩
  | succ k ih =>
    obtain ⟨b, hb⟩ := bestLane_isSome (h := h) (List.ne_nil_of_length_pos (show 0 < l.length by omega))
    have hmem := bestLane_mem hb
    have hrest := ih (hnodup.erase b) (by rw [List.length_erase_of_mem hmem]; omega)
    obtain ⟨hlen, hnd, hsub⟩ := hrest
    have heq : bestLanes (k + 1) h l = b :: bestLanes k h (l.erase b) := by rw [bestLanes, hb]
    rw [heq]
    refine ⟨by rw [List.length_cons, hlen], List.nodup_cons.mpr ⟨fun hin => hnodup.not_mem_erase (hsub hin), hnd⟩, fun x hx => ?_⟩
    rcases List.mem_cons.mp hx with rfl | hx
    · exact hmem
    · exact List.mem_of_mem_erase (hsub hx)

theorem mem_lanesIn {m : BitVec 8} {i : Nat} : i ∈ lanesIn m ↔ m.getLsbD i = true := by
  rw [lanesIn, maskList, List.mem_filter, List.mem_range, bitOf_eq_testBit, BitVec.testBit_toNat]
  exact ⟨And.right, fun h => ⟨BitVec.lt_of_getLsbD h, h⟩⟩

theorem lanesIn_nodup (m : BitVec 8) : (lanesIn m).Nodup := List.nodup_range.filter _

theorem mem_lanesIn_maskOf {l : List Nat} {i : Nat} (h : ∀ x ∈ l, x < 8) : i ∈ lanesIn (BitVec.ofNat 8 (maskOf l)) ↔ i ∈ l := by
  rw [mem_lanesIn, BitVec.getLsbD_ofNat, testBit_maskOf, Bool.and_eq_true, decide_eq_true_eq, decide_eq_true_eq]
  exact ⟨And.right, fun hi => ⟨h i hi, hi⟩⟩

/-- The mask of some different lanes has as many lanes as they are, and is part of any mask that has them all. -/
theorem lanesIn_maskOf_spec {l : List Nat} {m : BitVec 8} (hnodup : l.Nodup) (hsub : l ⊆ lanesIn m) :
    (lanesIn (BitVec.ofNat 8 (maskOf l))).length = l.length ∧ BitVec.ofNat 8 (maskOf l) &&& m = BitVec.ofNat 8 (maskOf l) := by
  have hlt (x : Nat) (hx : x ∈ l) : x < 8 := BitVec.lt_of_getLsbD (mem_lanesIn.mp (hsub hx))
  refine ⟨((List.perm_ext_iff_of_nodup (lanesIn_nodup _) hnodup).mpr fun i => mem_lanesIn_maskOf hlt).length_eq, ?_⟩
  refine BitVec.eq_of_getLsbD_eq fun i _ => ?_
  rw [BitVec.getLsbD_and, Bool.and_eq_left_iff_imp]
  exact fun hi => mem_lanesIn.mp (hsub ((mem_lanesIn_maskOf hlt).mp (mem_lanesIn.mpr hi)))

theorem Port.chooseMap_spec (x : Port) (m : BitVec 8) : ((lanesIn m).length < 4 → x.chooseMap m = none) ∧ (7 ≤ (lanesIn m).length → x.chooseMap m = some m) ∧
    (4 ≤ (lanesIn m).length → (lanesIn m).length < 7 → ∃ k, x.chooseMap m = some k ∧ (lanesIn k).length = 4 ∧ k &&& m = k) := by
  unfold Port.chooseMap
  extract_lets l
  refine ⟨fun h => ?_, fun h => if_pos h, fun h h' => ?_⟩
  · rw [if_neg (show ¬ 7 ≤ l.length from by dsimp only [l]; omega), if_neg (show ¬ 4 ≤ l.length from by dsimp only [l]; omega)]
  · obtain ⟨hlen, hnodup, hsub⟩ := bestLanes_spec (h := Tab.get 0 x.eyeHeight) (lanesIn_nodup m) h
    obtain ⟨hlanes, hand⟩ := lanesIn_maskOf_spec hnodup hsub
    rw [if_neg (show ¬ 7 ≤ l.length from by dsimp only [l]; omega), if_pos h]
    exact ⟨_, rfl, hlanes.trans hlen, hand⟩

/-! ## Flits in order (R415, R416) -/

theorem Port.takeFlit_spec (x : Port) (seq : BitVec 12) (vc : Nat) :
    (seq = x.rxAck + 1 → (x.takeFlit seq vc).rxAck = seq ∧ (x.takeFlit seq vc).rxNak = false ∧ (x.takeFlit seq vc).flitsRx = x.flitsRx + 1 ∧
      Tab.get 0 (x.takeFlit seq vc).occupied vc = Tab.get 0 x.occupied vc + 1) ∧
    (seq ≠ x.rxAck + 1 → seq ≠ x.rxAck → (seq - x.rxAck).toNat < 2048 → x.takeFlit seq vc = { x with rxNak := true }) ∧
    (seq = x.rxAck ∨ 2048 ≤ (seq - x.rxAck).toNat → x.takeFlit seq vc = x) := by
  unfold Port.takeFlit
  refine ⟨fun h => ?_, fun h h' hlt => ?_, fun h => ?_⟩
  · rw [if_pos h]
    exact ⟨rfl, rfl, rfl, by dsimp only; exact Tab.get_set_same ..⟩
  · rw [if_neg h, if_pos (by rw [Bool.and_eq_true, decide_eq_true_eq, decide_eq_true_eq]; exact ⟨hlt, h'⟩)]
  · have hnext : seq ≠ x.rxAck + 1 := by
      rintro rfl
      rcases h with h | h
      · bv_omega
      · bv_omega
    rw [if_neg hnext, if_neg]
    rcases h with rfl | h
    · simp
    · rw [Bool.and_eq_true, decide_eq_true_eq]
      exact fun hlt => absurd h (not_le.mpr hlt.1)

/-! ## Attempts begin (R420, R421, R430, R510) -/

theorem exec_trainingTimeout_spec {s : State} {n : PortId} (hstate : (s.port n).state = .training) (hstep : (s.port n).trainStep = 2) :
    ((s.port n).trainStart + 20000000 ≤ s.now → ∃ t : State, exec (.trainingTimeout n) s = .next t ∧ s.AttemptFailed t n) ∧
    (s.now < (s.port n).trainStart + 20000000 → exec (.trainingTimeout n) s = .next s) := by
  change ((s.port n).trainStart + 20000000 ≤ s.now → ∃ t : State, execTrainingTimeout n s = .next t ∧ s.AttemptFailed t n) ∧
    (s.now < (s.port n).trainStart + 20000000 → execTrainingTimeout n s = .next s)
  refine ⟨fun h => ⟨s.failAttempt n, ?_, s.failAttempt_spec n⟩, fun h => ?_⟩
  · simp [execTrainingTimeout, hstate, hstep, h]
  · simp [execTrainingTimeout, not_le.mpr h]

theorem exec_attempts_spec {s : State} {n : PortId} (hrun : s.linksRun = true) :
    (((s.port n).state = .training ∨ (s.port n).state = .down) → (s.port n).trainStep = 0 → (s.port n).backoffUntil ≤ s.now →
      ∃ t : State, exec (.trainingBackoffExpiry n) s = .next t ∧ s.Attempting t n false) ∧
    (∀ lanes, (s.port n).state = .down → 4 ≤ (lanesIn lanes).length → ∃ t : State, exec (.signalDetect n lanes) s = .next t ∧ s.Attempting t n false) ∧
    ((s.port n).linked = true ∨ (s.port n).state = .held → ∃ t : State, exec (.lossOfSignal n) s = .next t ∧ s.Attempting t n true) := by
  have hbegin (first : Bool) := s.beginAttempt_spec n.isLt first
  refine ⟨fun hstate hstep hdue => ⟨_, ?_, hbegin false⟩, fun lanes hstate hlanes => ⟨_, ?_, hbegin false⟩, fun hstate => ⟨_, ?_, hbegin true⟩⟩
  · change execTrainingBackoffExpiry n s = _
    rcases hstate with h | h
    all_goals simp [execTrainingBackoffExpiry, h, hstep, hdue, hrun]
  · change execSignalDetect n lanes s = _
    simp [execSignalDetect, hstate, hlanes, hrun]
  · have hlive : (s.port n).state ≠ .retired := by
      intro hgone
      simp [Port.linked, hgone] at hstate
    change execLossOfSignal n s = _
    simp [execLossOfSignal, hstate, State.retrain, hlive, hrun]

/-! ## Lanes out of service (R418) -/

theorem exec_laneRetire_spec {s : State} {n : PortId} {l : Fin 8} (hstate : (s.port n).state = .active) (hlane : (s.port n).laneRetired.getLsbD l = false)
    (hperm : s.permanent (.lane n l) = true) :
    ∃ t : State, exec (.laneRetire n l) s = .next t ∧ (t.port n).laneRetired = (s.port n).laneRetired ||| BitVec.ofNat 8 (2 ^ l.val) ∧
      (t.port n).newMap = (s.port n).chooseMap (~~~((s.port n).laneRetired ||| BitVec.ofNat 8 (2 ^ l.val))) ∧ (t.port n).newMapConfirmed = false ∧
      (t.port n).laneMap = (s.port n).laneMap ∧ (t.port n).unacked = (s.port n).unacked ∧ s.LinkFrame t n := by
  obtain ⟨gone, hgone⟩ : ∃ gone, gone = (s.port n).laneRetired ||| BitVec.ofNat 8 (2 ^ l.val) := ⟨_, rfl⟩
  obtain ⟨y, hy⟩ : ∃ y, y = { s.port n with laneRetired := gone, newMap := (s.port n).chooseMap (~~~gone), newMapConfirmed := false } := ⟨_, rfl⟩
  obtain ⟨t, ht⟩ : ∃ t, t = (s.setPort n y).decided 0x0020 0 2 true false false 255 n
        (l.val + Tab.get 0 (s.port n).winRatio l * 256) (s.events (.lane n l) [0]).length := ⟨_, rfl⟩
  obtain ⟨hdec, hports⟩ := ((s.setPort n y).decided_flagged 0x0020 0 2 true false false 255 n
        (l.val + Tab.get 0 (s.port n).winRatio l * 256) (s.events (.lane n l) [0]).length).linkFrame n
  rw [← ht] at hdec hports
  have hport : t.port n = y := (hports n).trans ((s.port_setPort n n y).trans (if_pos rfl))
  have hframe : s.LinkFrame t n := (s.linkFrame_setPort n y).trans hdec
  have hexec : exec (.laneRetire n l) s = .next (match (s.port n).chooseMap (~~~gone) with
      | some m => t.emit (.linkCtl n (some m) false)
      | none => t) := by
    change execLaneRetire n l s = _
    rw [ht, hy, hgone]
    simp only [execLaneRetire, hstate, hlane, hperm, ne_eq, not_true_eq_false, decide_false, Bool.not_true, Bool.or_self]
    rfl
  rw [hexec, ← hgone]
  have hfacts : (t.port n).laneRetired = gone ∧ (t.port n).newMap = (s.port n).chooseMap (~~~gone) ∧ (t.port n).newMapConfirmed = false ∧
      (t.port n).laneMap = (s.port n).laneMap ∧ (t.port n).unacked = (s.port n).unacked := by
    rw [hport, hy]
    exact ⟨rfl, rfl, rfl, rfl, rfl⟩
  obtain ⟨hret, hnew, hconf, hmap, hun⟩ := hfacts
  split
  next m _ => exact ⟨_, rfl, hret, hnew, hconf, hmap, hun, hframe.trans ⟨fun _ _ => rfl, rfl, rfl, rfl, rfl⟩⟩
  · exact ⟨_, rfl, hret, hnew, hconf, hmap, hun, hframe⟩

theorem exec_laneMapApply_spec {s : State} {n : PortId} {m : BitVec 8} (hmap : (s.port n).newMap = some m) (hstate : (s.port n).state = .active) :
    ((s.port n).newMapConfirmed = false → exec (.laneMapApply n) s = .next s) ∧
    ((s.port n).newMapConfirmed = true → ∃ t : State, exec (.laneMapApply n) s = .next t ∧ (t.port n).laneMap = m ∧ (t.port n).newMap = none ∧
      (t.port n).unacked = (s.port n).unacked ∧ s.LinkFrame t n) := by
  change ((s.port n).newMapConfirmed = false → execLaneMapApply n s = .next s) ∧
    ((s.port n).newMapConfirmed = true → ∃ t : State, execLaneMapApply n s = .next t ∧ (t.port n).laneMap = m ∧ (t.port n).newMap = none ∧
      (t.port n).unacked = (s.port n).unacked ∧ s.LinkFrame t n)
  refine ⟨fun h => by simp [execLaneMapApply, hmap, h], fun h => ?_⟩
  obtain ⟨hclose, _, _, _, _, _, hport⟩ := s.closeWindow_spec n
  obtain ⟨y, hy⟩ : ∃ y, y = { (s.closeWindow n).port n with laneMap := m, newMap := none, newMapConfirmed := false } := ⟨_, rfl⟩
  refine ⟨(s.closeWindow n).setPort n y, by simp [execLaneMapApply, hmap, h, hstate, hy], ?_⟩
  rw [State.port_setPort, if_pos rfl, hy]
  exact ⟨rfl, rfl, by rw [hport], hclose.trans (State.linkFrame_setPort ..)⟩

/-! ## Time synchronisation and link-control flits (R418, R428, R430) -/

/-- What keeps the ports, their stamps and everything of memory and partitions: the module's time steps or slews (R428). -/
structure State.TimeMoves (s t : State) : Prop where
  ports : t.links.ports = s.links.ports
  stamps : t.links.stamps = s.links.stamps
  mem : t.mem = s.mem
  rooms : t.rooms = s.rooms
  hbm : t.hbm = s.hbm
  parts : t.parts = s.parts

theorem State.TimeMoves.refl (s : State) : s.TimeMoves s := ⟨rfl, rfl, rfl, rfl, rfl, rfl⟩

theorem State.TimeMoves.trans {s t u : State} (h : s.TimeMoves t) (h' : t.TimeMoves u) : s.TimeMoves u :=
  ⟨h'.ports.trans h.ports, h'.stamps.trans h.stamps, h'.mem.trans h.mem, h'.rooms.trans h.rooms, h'.hbm.trans h.hbm, h'.parts.trans h.parts⟩

theorem State.TimeMoves.port {s t : State} (h : s.TimeMoves t) (n : Nat) : t.port n = s.port n := congrArg (fun l : Tab Port => (Tab.get {} l n : Port)) h.ports

theorem State.TimeMoves.linkFrame {s t : State} (h : s.TimeMoves t) (n : Nat) : s.LinkFrame t n := .of_ports h.ports h.mem h.rooms h.hbm h.parts n

theorem State.timeMoves_setLock (s : State) (on : Bool) : s.TimeMoves (s.setLock on) := by
  unfold State.setLock
  split
  · exact .refl s
  · rw [State.raise_rest]
    exact ⟨rfl, rfl, rfl, rfl, rfl, rfl⟩

theorem State.timeMoves_stepTime (s : State) (off : Int) : s.TimeMoves (s.stepTime off) := ⟨rfl, rfl, rfl, rfl, rfl, rfl⟩

theorem State.timeMoves_slewTime (s : State) (off : Int) : s.TimeMoves (s.slewTime off) := ⟨rfl, rfl, rfl, rfl, rfl, rfl⟩

theorem State.timeMoves_follow (s : State) (off : Int) : s.TimeMoves (s.follow off) := by
  unfold State.follow
  extract_lets l size t
  have ht : s.TimeMoves t := ⟨rfl, rfl, rfl, rfl, rfl, rfl⟩
  have hlost : t.TimeMoves { t with links := { t.links with holdover := false } } := ⟨rfl, rfl, rfl, rfl, rfl, rfl⟩
  generalize (if l.holdover = true then 100000 else 1000) = bound
  split
  · split
    · exact ((ht.trans hlost).trans (State.timeMoves_setLock _ _)).trans (State.timeMoves_stepTime _ _)
    · exact ht.trans (State.timeMoves_slewTime _ _)
  · split
    · exact ht.trans (State.timeMoves_stepTime _ _)
    · exact (ht.trans (State.timeMoves_setLock _ _)).trans (State.timeMoves_slewTime _ _)

/-- The link delay and the offset to the partner that four time stamps give (R428). -/
def Port.stamped (x : Port) (d1 d2 : Int) : Port := { x with delay := (d1 - d2) / 2, offset := (d1 + d2) / 2 }

theorem State.takeStamps_spec (s : State) (n : Nat) (c : LinkCtl) : s.LinkFrame (s.takeStamps n c) n ∧
    Tab.get (0, 0) (s.takeStamps n c).links.stamps n = (c.txTime, s.timestamp) ∧
    (c.rxEcho ≠ 0 → (s.takeStamps n c).port n = (s.port n).stamped ((c.rxAt : Int) - c.rxEcho) ((c.txTime : Int) - s.timestamp)) ∧
    (c.rxEcho = 0 → (s.takeStamps n c).port n = s.port n) := by
  obtain ⟨t, ht⟩ : ∃ t, t = { s with links := { s.links with stamps := Tab.set (0, 0) s.links.stamps n (c.txTime, s.timestamp) } } := ⟨_, rfl⟩
  obtain ⟨u, hu⟩ : ∃ u, u = t.setPort n ((s.port n).stamped ((c.rxAt : Int) - c.rxEcho) ((c.txTime : Int) - s.timestamp)) := ⟨_, rfl⟩
  have heq : s.takeStamps n c = if c.rxEcho = 0 then t else
      if u.parentPort = some n then u.follow ((((c.rxAt : Int) - c.rxEcho) + ((c.txTime : Int) - s.timestamp)) / 2) else u := by
    rw [hu, ht]; rfl
  have htframe : s.LinkFrame t n := by rw [ht]; exact ⟨fun _ _ => rfl, rfl, rfl, rfl, rfl⟩
  have htport : t.port n = s.port n := by rw [ht]; rfl
  have hstamps : Tab.get (0, 0) t.links.stamps n = (c.txTime, s.timestamp) := by rw [ht]; exact Tab.get_set_same ..
  have huframe : s.LinkFrame u n := by rw [hu]; exact htframe.trans (State.linkFrame_setPort ..)
  have huport : u.port n = (s.port n).stamped ((c.rxAt : Int) - c.rxEcho) ((c.txTime : Int) - s.timestamp) := by
    rw [hu]
    exact (State.port_setPort ..).trans (if_pos rfl)
  have hustamps : Tab.get (0, 0) u.links.stamps n = (c.txTime, s.timestamp) := by rw [hu]; exact hstamps
  rw [heq]
  split
  next h => exact ⟨htframe, hstamps, fun h' => absurd h h', fun _ => htport⟩
  next h =>
    split
    · have hmoves := u.timeMoves_follow ((((c.rxAt : Int) - c.rxEcho) + ((c.txTime : Int) - s.timestamp)) / 2)
      exact ⟨huframe.trans (hmoves.linkFrame n), by rw [hmoves.stamps]; exact hustamps, fun _ => (hmoves.port n).trans huport, fun h' => absurd h' h⟩
    · exact ⟨huframe, hustamps, fun _ => huport, fun h' => absurd h' h⟩

/-- A lane map that is proposed or confirmed changes no more of the port than its proposal (R418). -/
theorem State.takeLaneMap_spec (s : State) (n : Nat) (c : LinkCtl) : s.LinkFrame (s.takeLaneMap n c) n ∧ (s.takeLaneMap n c).links.stamps = s.links.stamps ∧
    (∃ m b, (s.takeLaneMap n c).port n = { s.port n with newMap := m, newMapConfirmed := b }) ∧
    (∀ m, c.laneMap = some m → c.laneConfirm = true → (s.port n).newMap = some m → ((s.takeLaneMap n c).port n).newMapConfirmed = true) ∧
    (∀ m, c.laneMap = some m → c.laneConfirm = false → (lanesIn m).length = 8 ∨ (lanesIn m).length = 7 ∨ (lanesIn m).length = 4 →
      ((s.takeLaneMap n c).port n).newMap = some m ∧ ((s.takeLaneMap n c).port n).newMapConfirmed = true) := by
  have hset (y : Port) : s.LinkFrame (s.setPort n y) n ∧ (s.setPort n y).port n = y := ⟨s.linkFrame_setPort n y, (s.port_setPort n n y).trans (if_pos rfl)⟩
  unfold State.takeLaneMap
  extract_lets x
  split
  next m hm =>
    have hsame (k : BitVec 8) (hk : c.laneMap = some k) : m = k := Option.some.inj (hm.symm.trans hk)
    split
    next hconf =>
      split
      next hnew =>
        obtain ⟨hframe, hport⟩ := hset { x with newMapConfirmed := true }
        rw [hport]
        exact ⟨hframe, rfl, ⟨_, _, rfl⟩, fun _ _ _ _ => rfl, fun _ _ hno => absurd (hconf.symm.trans hno) (by decide)⟩
      next hnew =>
        exact ⟨.refl s n, rfl, ⟨_, _, rfl⟩, fun k hk _ hsome => absurd (hsome.trans (congrArg some (hsame k hk).symm)) hnew,
          fun _ _ hno => absurd (hconf.symm.trans hno) (by decide)⟩
    next hconf =>
      split
      next =>
        obtain ⟨hframe, hport⟩ := hset { x with newMap := some m, newMapConfirmed := true }
        have hport' : ((s.setPort n { x with newMap := some m, newMapConfirmed := true }).emit (.linkCtl n (some m) true)).port n =
            { x with newMap := some m, newMapConfirmed := true } := hport
        rw [hport']
        exact ⟨hframe.trans ⟨fun _ _ => rfl, rfl, rfl, rfl, rfl⟩, rfl, ⟨_, _, rfl⟩, fun _ _ _ _ => rfl, fun k hk _ _ => ⟨congrArg some (hsame k hk), rfl⟩⟩
      next hlen =>
        refine ⟨.refl s n, rfl, ⟨_, _, rfl⟩, fun _ _ hyes => absurd hyes hconf, fun k hk _ hk' => absurd ?_ hlen⟩
        rw [hsame k hk]
        simpa [or_assoc] using hk'
  next hnone => exact ⟨.refl s n, rfl, ⟨_, _, rfl⟩, fun m hm => absurd (hnone.symm.trans hm) (by simp), fun m hm => absurd (hnone.symm.trans hm) (by simp)⟩

theorem exec_linkControlFlit_spec {s : State} {n : PortId} (c : LinkCtl) (h : (s.port n).linked = true) :
    ∃ t : State, exec (.linkControlFlit n c) s = .next t ∧ s.LinkFrame t n ∧
    Tab.get (0, 0) t.links.stamps n = (c.txTime, s.timestamp) ∧
    (c.rxEcho ≠ 0 → (t.port n).delay = (((c.rxAt : Int) - c.rxEcho) - ((c.txTime : Int) - s.timestamp)) / 2 ∧
      (t.port n).offset = (((c.rxAt : Int) - c.rxEcho) + ((c.txTime : Int) - s.timestamp)) / 2) ∧
    (c.rxEcho = 0 → (t.port n).delay = (s.port n).delay ∧ (t.port n).offset = (s.port n).offset) ∧
    (c.tapRequest = true → (t.port n).tapPending = true) ∧
    (∀ m, c.laneMap = some m → c.laneConfirm = true → (s.port n).newMap = some m → (t.port n).newMapConfirmed = true) ∧
    (∀ m, c.laneMap = some m → c.laneConfirm = false → (lanesIn m).length = 8 ∨ (lanesIn m).length = 7 ∨ (lanesIn m).length = 4 →
      (t.port n).newMap = some m ∧ (t.port n).newMapConfirmed = true) := by
  obtain ⟨a, ha⟩ : ∃ a, a = s.takeStamps n c := ⟨_, rfl⟩
  obtain ⟨hstamped, hstamps, hecho, hnoecho⟩ := s.takeStamps_spec n c
  rw [← ha] at hstamped hstamps hecho hnoecho
  obtain ⟨b, hb⟩ : ∃ b, b = a.takeLaneMap n c := ⟨_, rfl⟩
  obtain ⟨hmapped, hbstamps, ⟨nm, nb, hbport⟩, hconfirm, hpropose⟩ := a.takeLaneMap_spec n c
  rw [← hb] at hmapped hbstamps hbport hconfirm hpropose
  have hnew : (a.port n).newMap = (s.port n).newMap := by
    by_cases he : c.rxEcho = 0
    · rw [hnoecho he]
    · rw [hecho he]; rfl
  have hexec : exec (.linkControlFlit n c) s = .next (if c.tapRequest then b.setPort n { b.port n with tapPending := true } else b) := by
    change execLinkControlFlit n c s = _
    rw [hb, ha]
    simp only [execLinkControlFlit, h, Bool.not_true, if_neg Bool.false_ne_true]
  obtain ⟨t, ht⟩ : ∃ t, t = if c.tapRequest then b.setPort n { b.port n with tapPending := true } else b := ⟨_, rfl⟩
  have hafter : b.LinkFrame t n ∧ t.links.stamps = b.links.stamps ∧ (c.tapRequest = true → (t.port n).tapPending = true) ∧
      ∃ p, t.port n = { b.port n with tapPending := p } := by
    rw [ht]
    split
    next htap =>
      have hport : (b.setPort n { b.port n with tapPending := true }).port n = { b.port n with tapPending := true } := (b.port_setPort n n _).trans (if_pos rfl)
      rw [hport]
      exact ⟨b.linkFrame_setPort n _, rfl, fun _ => rfl, _, rfl⟩
    next htap => exact ⟨.refl b n, rfl, fun hyes => absurd hyes htap, _, rfl⟩
  obtain ⟨hlast, htstamps, htap, p, htport⟩ := hafter
  rw [hexec, ← ht]
  refine ⟨t, rfl, (hstamped.trans hmapped).trans hlast, by rw [htstamps, hbstamps]; exact hstamps, fun he => ?_, fun he => ?_, htap, fun m hm hc hs => ?_, fun m hm hc hl => ?_⟩
  · rw [htport, hbport, hecho he]
    exact ⟨rfl, rfl⟩
  · rw [htport, hbport, hnoecho he]
    exact ⟨rfl, rfl⟩
  · rw [htport]
    exact hconfirm m hm hc (hnew.trans hs)
  · rw [htport]
    exact hpropose m hm hc hl

/-! ## A port out of service (R419) -/

theorem State.pickPort_mem {s : State} {vc m : Nat} {l : List Nat} (h : s.pickPort vc l = some m) : m ∈ l := by
  cases l with
  | nil => exact absurd h (by simp [State.pickPort])
  | cons n t =>
    unfold State.pickPort at h
    extract_lets depth at h
    rw [← Option.some.inj h]
    refine List.foldlRecOn (motive := fun b : Nat => b ∈ n :: t) t _ List.mem_cons_self fun b hb k hk => ?_
    split
    · exact List.mem_cons_of_mem n hk
    · exact hb

/-- The port chosen for a destination is ACTIVE (R424). -/
theorem State.choosePort_active {s : State} {module vc m : Nat} {mask : Option (BitVec 30)} (h : s.choosePort module vc mask = some m) : (s.port m).state = .active := by
  unfold State.choosePort at h
  extract_lets ok at h
  have hok {l : List Nat} (hm : m ∈ l.filter ok) : (s.port m).state = .active := by
    have hm' := (List.mem_filter.mp hm).2
    rw [Bool.and_eq_true, beq_iff_eq] at hm'
    exact hm'.1
  split at h
  · split at h
    · exact hok (State.pickPort_mem h)
    · exact hok (State.pickPort_mem h)
  · exact absurd h (by simp)

/-- Flits join queues of ACTIVE ports and leave them: no port changes its state, a port that is not ACTIVE keeps its queue and its replay buffer, and memory,
rooms, partitions and what Gysis keeps are as they were. -/
structure State.Queues (s t : State) : Prop where
  state : ∀ m, (t.port m).state = (s.port m).state
  idle : ∀ m, (s.port m).state ≠ .active → (t.port m).unacked = (s.port m).unacked ∧ (t.port m).queued = (s.port m).queued
  mem : t.mem = s.mem
  rooms : t.rooms = s.rooms
  parts : t.parts = s.parts
  gysis : t.gysis = s.gysis

theorem State.Queues.refl (s : State) : s.Queues s := ⟨fun _ => rfl, fun _ _ => ⟨rfl, rfl⟩, rfl, rfl, rfl, rfl⟩

theorem State.Queues.trans {s t u : State} (h : s.Queues t) (h' : t.Queues u) : s.Queues u := by
  refine ⟨fun m => (h'.state m).trans (h.state m), fun m hm => ?_, h'.mem.trans h.mem, h'.rooms.trans h.rooms, h'.parts.trans h.parts, h'.gysis.trans h.gysis⟩
  obtain ⟨hu, hq⟩ := h.idle m hm
  obtain ⟨hu', hq'⟩ := h'.idle m (by rw [h.state m]; exact hm)
  exact ⟨hu'.trans hu, hq'.trans hq⟩

/-- A port that keeps its state, and its queue and replay buffer unless it is ACTIVE, may be stored. -/
theorem State.queues_setPort {s : State} {n : Nat} {x : Port} (hstate : x.state = (s.port n).state)
    (hidle : (s.port n).state ≠ .active → x.unacked = (s.port n).unacked ∧ x.queued = (s.port n).queued) : s.Queues (s.setPort n x) := by
  refine ⟨fun m => ?_, fun m hm => ?_, rfl, rfl, rfl, rfl⟩
  all_goals
    rw [State.port_setPort]
    split
  next h => exact hstate.trans (congrArg (fun k => (s.port k).state) h.symm)
  · rfl
  next h =>
    subst h
    exact hidle hm
  · exact ⟨rfl, rfl⟩

theorem State.queues_pump (s : State) (n : Nat) : s.Queues (s.pump n) := by
  obtain ⟨⟨ports, out, ht⟩, ⟨_, _, _, _, _, _, _, _, hport⟩, hothers, hidle⟩ := s.pump_spec n
  by_cases h : (s.port n).state = .active
  · refine ⟨fun m => ?_, fun m hm => ?_, by rw [ht], by rw [ht], by rw [ht], by rw [ht]⟩
    · by_cases hm : m = n
      · rw [hm, hport]
      · rw [hothers m hm]
    · rw [hothers m (fun hmn => hm (hmn ▸ h))]
      exact ⟨rfl, rfl⟩
  · rw [hidle h]
    exact .refl s

theorem State.queues_enqueue {s : State} {n : Nat} (h : (s.port n).state = .active) (fs : List Flit) : s.Queues (s.enqueue n fs) :=
  (State.queues_setPort (x := { s.port n with queued := (s.port n).queued ++ fs, ctxs := keepCtxs (s.port n).ctxs fs }) rfl fun hn => absurd h hn).trans
    (State.queues_pump ..)

theorem State.queues_countDrop (s : State) (n : Nat) : s.Queues (s.countDrop n) :=
  State.queues_setPort (x := { s.port n with dropped := satInc (s.port n).dropped }) rfl fun _ => ⟨rfl, rfl⟩

theorem State.queues_moveCtx (s : State) (old : Port) (n : Nat) (fs : List Flit) (no : Nat) : s.Queues (s.moveCtx old n fs no) := by
  unfold State.moveCtx
  extract_lets mine vc part data c
  split
  next m hm =>
    extract_lets v k x t moved go
    have ht : s.Queues t := State.queues_setPort (x := { s.port m with nextCtx := (s.port m).nextCtx + 1 }) rfl fun _ => ⟨rfl, rfl⟩
    have hrx (l : List RxCtx) : t.Queues { t with links := { t.links with rx := l } } := ⟨fun _ => rfl, fun _ _ => ⟨rfl, rfl⟩, rfl, rfl, rfl, rfl⟩
    refine State.Queues.trans (ht.trans (hrx (t.links.rx.map go))) (State.queues_enqueue ?_ _)
    exact (ht.state m).trans (State.choosePort_active hm)
  · exact s.queues_countDrop _

theorem State.queues_moveAck (s : State) (f : Flit) : s.Queues (s.moveAck f) := by
  unfold State.moveAck
  extract_lets dst
  split
  next m hm => exact State.queues_enqueue (State.choosePort_active hm) _
  · exact s.queues_countDrop _

theorem State.queues_requeue (s : State) (old : Port) (n : Nat) (fs : List Flit) : s.Queues (s.requeue old n fs) := by
  unfold State.requeue
  extract_lets nos
  refine List.foldlRecOn (motive := s.Queues) _ _ ?_ fun t ht f _ => ht.trans (t.queues_moveAck f)
  exact List.foldlRecOn (motive := s.Queues) _ _ (.refl s) fun t ht k _ => ht.trans (t.queues_moveCtx old n fs k)

/-- A decision that sets the degraded flag leaves it set (R465). -/
theorem State.decided_degraded (s : State) (code level kind : Nat) (irq rep : Bool) (room unit wher count : Nat) :
    (s.decided code level kind irq true rep room unit wher count).gysis.degraded = true := by
  obtain ⟨u, hu⟩ : ∃ u, u = if rep = true then s.setDegraded.setReplace else s.setDegraded := ⟨_, rfl⟩
  have hdeg : u.gysis.degraded = true := by
    rw [hu]
    split
    · rw [State.setReplace_gysis, State.setDegraded_gysis]
    · rw [State.setDegraded_gysis]
  have heq : s.decided code level kind irq true rep room unit wher count =
      u.record { s.entry code (ledgerClass level kind irq true rep) room unit wher with count := min 65535 count } := by rw [hu]; rfl
  rw [heq]
  exact hdeg

/-- A port that is out of service holds nothing. -/
def Port.gone (x : Port) : Port :=
  { x with
    state := .retired, trainStep := 0, unacked := [], queued := [], credits := [], lastCr := [], occupied := [], freed := [], newMap := none
    newMapConfirmed := false, tapPending := false, rxNak := false, nakSeen := false }

theorem exec_portRetire_spec {s : State} {n : PortId} {c : Nat} (hstate : (s.port n).state ≠ .retired) (hcause : s.retireCause n = some c) :
    ∃ t : State, exec (.portRetire n) s = .next t ∧ (t.port n).state = .retired ∧
      (t.port n).unacked = [] ∧ (t.port n).queued = [] ∧ t.gysis.degraded = true ∧ (t.source (96 + n)).pending = true ∧
      (∀ m, m ≠ n.val → (t.port m).state = (s.port m).state) ∧ t.mem = s.mem ∧ t.rooms = s.rooms ∧ t.parts = s.parts := by
  obtain ⟨a, ha⟩ : ∃ a, a = if c = 2 then s.note (.port n) 1 else s := ⟨_, rfl⟩
  have haframe : s.LinkFrame a n ∧ ∀ m, a.port m = s.port m := by
    rw [ha]
    split
    · exact (s.note_flagged (.port n) 1).linkFrame n
    · exact ⟨.refl s n, fun _ => rfl⟩
  obtain ⟨haframe, haports⟩ := haframe
  obtain ⟨b, hb⟩ : ∃ b, b = a.portTo n (s.port n).gone := ⟨_, rfl⟩
  have hbframe : s.LinkFrame b n := by rw [hb]; exact haframe.trans (State.linkFrame_portTo ..)
  have hbport : ∃ d, b.port n = { (s.port n).gone with activeUntil := d } := by
    rw [hb, State.port_portTo_same]
    exact Port.after_rest ..
  obtain ⟨d, hbport⟩ := hbport
  have hbpend : (b.source (96 + n)).pending = true := by
    rw [hb]
    exact State.portTo_pending (by rw [haports]; exact hstate) n.isLt
  obtain ⟨q, hq⟩ : ∃ q, q = b.requeue (s.port n) n ((s.port n).unacked.map (·.2.2) ++ (s.port n).queued) := ⟨_, rfl⟩
  have hqueues : b.Queues q := by rw [hq]; exact State.queues_requeue ..
  obtain ⟨rep, count, hexec⟩ : ∃ rep count, exec (.portRetire n) s = .next (q.decided 0x0021 1 2 true true rep 255 n c count) := by
    apply Exists.intro
    apply Exists.intro
    change execPortRetire n s = _
    rw [hq, hb, ha]
    simp only [execPortRetire, if_neg hstate, hcause]
    rfl
  obtain ⟨t, ht⟩ : ∃ t, t = q.decided 0x0021 1 2 true true rep 255 n c count := ⟨_, rfl⟩
  obtain ⟨hdec, hports⟩ := (q.decided_flagged 0x0021 1 2 true true rep 255 n c count).linkFrame n
  have hreports := q.reports_decided 0x0021 1 2 true true rep 255 n c count
  have hdeg := q.decided_degraded 0x0021 1 2 true rep 255 n c count
  rw [← ht] at hdec hports hreports hdeg
  have hidle : (b.port n).state ≠ .active := by rw [hbport]; exact (by decide : PortState.retired ≠ .active)
  obtain ⟨hun, hqd⟩ := hqueues.idle n hidle
  refine ⟨t, by rw [hexec, ht], ?_, ?_, ?_, hdeg, hreports.pending _ (by rw [State.source, hqueues.gysis]; exact hbpend), fun m hm => ?_, ?_, ?_, ?_⟩
  · rw [hports, hqueues.state, hbport]; rfl
  · rw [hports, hun, hbport]; rfl
  · rw [hports, hqd, hbport]; rfl
  · rw [hports, hqueues.state, hbframe.others m hm]
  · exact (hdec.mem.trans hqueues.mem).trans hbframe.mem
  · exact (hdec.rooms.trans hqueues.rooms).trans hbframe.rooms
  · exact (hdec.parts.trans hqueues.parts).trans hbframe.parts

/-! ## Ports, whole -/

/-- Where a side has no module number, the partner is of no other system. -/
theorem State.otherSystem_of_none (s : State) {q : PortIdentity} (h : s.links.route = none ∨ q.numbered = false) : s.otherSystem q = false := by
  unfold State.otherSystem
  rcases h with h | h
  · rw [h]
  · split
    · rw [h, Bool.false_and]
    · rfl

theorem Port.received_eq {x y : Port} (h : x.received = y.received) : x.rxAck = y.rxAck ∧ x.rxNak = y.rxNak ∧ x.flitsRx = y.flitsRx := by
  obtain ⟨hack, hrest⟩ := Prod.ext_iff.mp h
  obtain ⟨hnak, hflits⟩ := Prod.ext_iff.mp hrest
  exact ⟨hack, hnak, hflits⟩

theorem exec_trainingAttempt_spec {s : State} {n : PortId} {lanes : BitVec 8} {q : PortIdentity} (hstate : (s.port n).state = .training)
    (hstep : (s.port n).trainStep = 2) (hrun : s.linksRun = true) (htime : s.now < (s.port n).trainStart + 20000000) (map : BitVec 8)
    (hmap : (s.port n).chooseMap (lanes &&& ~~~(s.port n).laneRetired) = some map) : ∃ t : State, exec (.trainingAttempt n lanes q) s = .next t ∧
      (t.port n).laneMap = map ∧ (t.port n).partner = some q ∧ (t.port n).attempt = 0 ∧ s.LinkFrame t n ∧
      (∀ r, s.links.route = some r → q.numbered = true → r.systemId ≠ q.systemId → (t.port n).state = .held) ∧
      (∀ r, s.links.route = some r → q.numbered = true → r.systemId = q.systemId → (t.port n).state = .active ∧ (t.port n).trainStep = 7 ∧
        (t.source (96 + n)).pending = true) ∧
      ((s.links.route = none ∨ q.numbered = false) → (t.port n).state = .training ∧ (t.port n).trainStep = 7 ∧
        ∀ v, v < 8 → Tab.get 0 (t.port n).credits v = q.freeBufs.getD v 0) := by
  rw [exec_trainingAttempt hstate hstep hrun htime hmap]
  by_cases hother : s.otherSystem q = true
  · rw [if_pos hother]
    obtain ⟨hframe, d, hport⟩ := s.heldFor_spec n map q
    refine ⟨_, rfl, by rw [hport], by rw [hport], by rw [hport], hframe, fun _ _ _ _ => by rw [hport], fun r hr _ hsys => ?_, fun hnone => ?_⟩
    · simp [State.otherSystem, hr, hsys] at hother
    · exact absurd (hother.symm.trans (s.otherSystem_of_none hnone)) Bool.noConfusion
  · rw [if_neg hother]
    obtain ⟨hframe, d, hyes, hno⟩ := State.trained_spec n.isLt hstate map q
    by_cases hnum : q.numbered = true ∧ s.links.route.isSome = true
    · obtain ⟨⟨_, _, _, _, _, _, _, _, hport⟩, hpend⟩ := hyes hnum
      refine ⟨_, rfl, by rw [hport]; rfl, by rw [hport]; rfl, by rw [hport]; rfl, hframe, fun r hr _ hsys => ?_, fun r _ _ _ => ⟨by rw [hport]; rfl, by rw [hport]; rfl, hpend⟩,
        fun hnone => ?_⟩
      · simp [State.otherSystem, hr, hnum.1, hsys] at hother
      · rcases hnone with hnone | hnone
        · simp [hnone] at hnum
        · simp [hnone] at hnum
    · have hport := hno (by simpa [imp_iff_not_or] using hnum)
      refine ⟨_, rfl, by rw [hport]; rfl, by rw [hport]; rfl, by rw [hport]; rfl, hframe, fun r hr hq _ => ?_, fun r hr hq _ => ?_,
        fun _ => ⟨by rw [hport]; rfl, by rw [hport]; rfl, fun v hv => ?_⟩⟩
      · exact absurd ⟨hq, by rw [hr]; rfl⟩ hnum
      · exact absurd ⟨hq, by rw [hr]; rfl⟩ hnum
      · rw [hport]
        exact (s.port n).setCredits_credits q.freeBufs hv

theorem exec_resends_spec {s : State} {n : PortId} (hstate : (s.port n).state = .active) (hun : (s.port n).unacked ≠ []) :
    ((s.port n).nakSeen = true → (s.port n).nakIgnoredUntil ≤ s.now → ∃ t : State, exec (.nakRetransmit n) s = .next t ∧ s.Resent t n) ∧
    ((s.port n).ackAt + 2000 ≤ s.now → ∃ t : State, exec (.ackStallRetransmit n) s = .next t ∧ s.Resent t n) ∧
    (s.now < (s.port n).ackAt + 2000 → exec (.ackStallRetransmit n) s = .next s) := by
  have hresent := State.retransmit_resent hstate
  refine ⟨fun hnak htime => ⟨_, ?_, hresent⟩, fun htime => ⟨_, ?_, hresent⟩, fun htime => ?_⟩
  · change execNakRetransmit n s = _
    simp [execNakRetransmit, hstate, hun, hnak, htime]
  · change execAckStallRetransmit n s = _
    simp [execAckStallRetransmit, hstate, hun, htime]
  · change execAckStallRetransmit n s = _
    simp [execAckStallRetransmit, not_le.mpr htime]

/-- Settles O55: each port command is split into what it does to its own port; that nothing else changes is `LinkFrame`, composed along it. -/
theorem portsTrainReplayAndRetire : Obligations.PortsTrainReplayAndRetire := by
  refine ⟨fun s n cw hstate hlen => ⟨fun hnone => ?_, fun h fs bad hsome => ?_⟩, Port.takeFlit_spec, fun s n hstate hun => exec_resends_spec hstate hun,
    fun s n lanes q hstate hstep hrun htime => ⟨fun hmap => ⟨_, exec_trainingAttempt_fails hstate hstep hrun htime hmap, s.failAttempt_spec n⟩,
      exec_trainingAttempt_spec hstate hstep hrun htime⟩, Port.chooseMap_spec, fun s n hstate hstep => exec_trainingTimeout_spec hstate hstep,
    fun s n hrun => exec_attempts_spec hrun, fun s n l hstate hlane hperm => exec_laneRetire_spec hstate hlane hperm,
    fun s n m hmap hstate => exec_laneMapApply_spec hmap hstate, fun s n => ⟨fun htap hlinked => ?_, fun htap => ?_⟩,
    fun s n => ⟨fun hlive hcause => ?_, fun c hlive hcause => exec_portRetire_spec hlive hcause⟩, fun s n c hlinked => exec_linkControlFlit_spec c hlinked⟩
  · rw [exec_codewordReceive hstate hlen, hnone]
    obtain ⟨hframe, hnak, hack, hcount, hun⟩ := s.takeCodeword_none n
    exact ⟨_, rfl, hnak, hack, hcount, hun, hframe⟩
  · rw [exec_codewordReceive hstate hlen, hsome]
    obtain ⟨hframe, hreceived, hacked⟩ := s.takeCodeword_some n h fs bad
    obtain ⟨hack, hnak, hflits⟩ := Port.received_eq hreceived
    exact ⟨_, rfl, hack, hnak, hflits, hacked, hframe⟩
  · change execTapChangeApply n s = _
    simp [execTapChangeApply, htap, hlinked]
  · change execTapChangeApply n s = _
    simp [execTapChangeApply, htap]
  · change execPortRetire n s = _
    simp [execPortRetire, hlive, hcause]

end Sys2Proof.Machine
end

section
/-! PROOFS. Contexts, lines and acknowledgements (16, 17): what they leave alone, the book of arriving contexts, a masked line in an attic (R190, R409 to R411). -/

namespace Sys2Proof.Machine

/-! ## What traffic changes -/

/-- Flits join queues and leave: only the ports and what has left the module differ. -/
def State.PortTraffic (s t : State) : Prop := ∃ ports out, t = { s with links := { s.links with ports := ports }, out := out }

/-- The link subsystem's books and what has left the module differ, and nothing else. -/
def State.LinksOnly (s t : State) : Prop := ∃ links out, t = { s with links := links, out := out }

theorem State.PortTraffic.refl (s : State) : s.PortTraffic s := ⟨_, _, rfl⟩

theorem State.PortTraffic.trans {s t u : State} : s.PortTraffic t → t.PortTraffic u → s.PortTraffic u := by
  rintro ⟨_, _, rfl⟩ ⟨_, _, rfl⟩
  exact ⟨_, _, rfl⟩

theorem State.LinksOnly.refl (s : State) : s.LinksOnly s := ⟨_, _, rfl⟩

theorem State.LinksOnly.trans {s t u : State} : s.LinksOnly t → t.LinksOnly u → s.LinksOnly u := by
  rintro ⟨_, _, rfl⟩ ⟨_, _, rfl⟩
  exact ⟨_, _, rfl⟩

theorem State.PortTraffic.linksOnly {s t : State} : s.PortTraffic t → s.LinksOnly t := by
  rintro ⟨_, _, rfl⟩
  exact ⟨_, _, rfl⟩

theorem State.LinksOnly.kept {s t : State} : s.LinksOnly t → t.mem = s.mem ∧ t.rooms = s.rooms ∧ t.parts = s.parts ∧ t.fns = s.fns ∧ t.gysis = s.gysis := by
  rintro ⟨_, _, rfl⟩
  exact ⟨rfl, rfl, rfl, rfl, rfl⟩

/-- What traffic keeps of the link subsystem. -/
theorem State.PortTraffic.links {s t : State} : s.PortTraffic t → t.links.rx = s.links.rx ∧ t.links.acks = s.links.acks ∧ t.links.tx = s.links.tx ∧
    t.links.route = s.links.route ∧ t.timestamp = s.timestamp ∧ t.now = s.now ∧ t.links.lastSummary = s.links.lastSummary ∧ t.links.summaries = s.links.summaries := by
  rintro ⟨_, _, rfl⟩
  exact ⟨rfl, rfl, rfl, rfl, rfl, rfl, rfl, rfl⟩

theorem State.portTraffic_setPort (s : State) (n : Nat) (x : Port) : s.PortTraffic (s.setPort n x) := ⟨_, _, rfl⟩

theorem State.portTraffic_pump (s : State) (n : Nat) : s.PortTraffic (s.pump n) := (s.pump_spec n).1

theorem State.portTraffic_enqueue (s : State) (n : Nat) (fs : List Flit) : s.PortTraffic (s.enqueue n fs) :=
  (s.portTraffic_setPort n _).trans (State.portTraffic_pump ..)

theorem State.portTraffic_countDrop (s : State) (n : Nat) : s.PortTraffic (s.countDrop n) := s.portTraffic_setPort n _

theorem State.portTraffic_sendOn (s : State) (port vc part : Nat) (c : Ctx) (lines : List (List Byte)) : s.PortTraffic (s.sendOn port vc part c lines) :=
  (s.portTraffic_setPort port _).trans (State.portTraffic_enqueue ..)

theorem State.portTraffic_freeBuffer (s : State) (n vc : Nat) : s.PortTraffic (s.freeBuffer n vc) := by
  unfold State.freeBuffer
  extract_lets x
  split
  · exact .refl s
  · exact s.portTraffic_setPort n _

theorem State.linksOnly_putRx (s : State) (e : RxCtx) : s.LinksOnly (s.putRx e) := ⟨_, _, rfl⟩

/-- A freed buffer changes no other port, and of its own only the books of buffers (R413). -/
theorem State.freeBuffer_port (s : State) (n vc : Nat) : (∀ m, m ≠ n → (s.freeBuffer n vc).port m = s.port m) ∧
    ∃ o f, (s.freeBuffer n vc).port n = { s.port n with occupied := o, freed := f } := by
  unfold State.freeBuffer
  extract_lets x
  split
  · exact ⟨fun _ _ => rfl, _, _, rfl⟩
  · exact ⟨fun m hm => (s.port_setPort n m _).trans (if_neg hm), _, _, (s.port_setPort n n _).trans (if_pos rfl)⟩

/-- Every port keeps its state and its context numbers when a buffer is freed. -/
theorem State.freeBuffer_kept (s : State) (n vc m : Nat) : ((s.freeBuffer n vc).port m).state = (s.port m).state ∧
    ((s.freeBuffer n vc).port m).nextCtx = (s.port m).nextCtx := by
  obtain ⟨hothers, _, _, hport⟩ := s.freeBuffer_port n vc
  by_cases h : m = n
  · rw [h, hport]
    exact ⟨rfl, rfl⟩
  · rw [hothers m h]
    exact ⟨rfl, rfl⟩

/-! ## The book of arriving contexts -/

theorem State.rxAt_congr {s t : State} (h : t.links.rx = s.links.rx) (n k : Nat) : t.rxAt n k = s.rxAt n k := by rw [State.rxAt, h]; rfl

/-- A context that takes its number on its port is the one that the number stands for. -/
theorem State.rxAt_putRx (s : State) (e : RxCtx) : (s.putRx e).rxAt e.port e.ctxNo = some e := by
  have hnone : (s.links.rx.filter (fun o => !(o.port == e.port && o.ctxNo == e.ctxNo))).find? (fun o => o.port == e.port && o.ctxNo == e.ctxNo) = none := by
    rw [List.find?_eq_none]
    intro o ho
    simpa [imp_iff_not_or] using (List.mem_filter.mp ho).2
  unfold State.rxAt State.putRx
  rw [List.find?_append, hnone]
  simp

theorem State.rxAt_spec {s : State} {n k : Nat} {e : RxCtx} (h : s.rxAt n k = some e) : e ∈ s.links.rx ∧ e.port = n ∧ e.ctxNo = k := by
  have hp := List.find?_some h
  rw [Bool.and_eq_true, beq_iff_eq, beq_iff_eq] at hp
  exact ⟨List.mem_of_find?_eq_some h, hp.1, hp.2⟩

/-- A change of the contexts that keeps their ports and numbers changes the one that a number stands for. -/
theorem State.rxAt_map {s t : State} {upd : RxCtx → RxCtx} (h : t.links.rx = s.links.rx.map upd) (hupd : ∀ o, (upd o).port = o.port ∧ (upd o).ctxNo = o.ctxNo)
    (n k : Nat) : t.rxAt n k = (s.rxAt n k).map upd := by
  unfold State.rxAt
  rw [h, List.find?_map]
  congr 2
  funext o
  simp only [Function.comp_apply, (hupd o).1, (hupd o).2]

/-! ## Acknowledgement entries (R411) -/

/-- What is not of a kind stays when one of the kind is taken out. -/
theorem filter_erase_of_not {α : Type} [DecidableEq α] {p : α → Bool} {a : α} (h : p a = false) (l : List α) : (l.erase a).filter p = l.filter p := by
  induction l with
  | nil => rfl
  | cons b l ih =>
    by_cases hb : b = a
    · subst hb
      rw [List.erase_cons_head, List.filter_cons_of_neg (by simp [h])]
    · rw [List.erase_cons_tail (by simpa using hb), List.filter_cons, List.filter_cons, ih]

theorem filter_foldl_erase_of_not {α : Type} [DecidableEq α] {p : α → Bool} (d l : List α) (h : ∀ a ∈ d, p a = false) :
    (d.foldl (fun l a => l.erase a) l).filter p = l.filter p := by
  induction d generalizing l with
  | nil => rfl
  | cons a d ih =>
    rw [List.foldl_cons, ih _ fun b hb => h b (List.mem_cons_of_mem a hb), filter_erase_of_not (h a List.mem_cons_self)]

/-- The first `n` of a kind are taken out: as many fewer of the kind are left. -/
theorem length_filter_foldl_erase_take {α : Type} [DecidableEq α] (p : α → Bool) (n : Nat) (l : List α) :
    ((((l.filter p).take n).foldl (fun l a => l.erase a) l).filter p).length = (l.filter p).length - n := by
  have hle : ((((l.filter p).take n : List α)) : Multiset α) ≤ (l : Multiset α) :=
    Multiset.coe_le.mpr ((List.take_sublist ..).trans List.filter_sublist).subperm
  have hall : ((l.filter p).take n).countP p = ((l.filter p).take n).length :=
    List.countP_eq_length.mpr fun a ha => (List.mem_filter.mp (List.mem_of_mem_take ha)).2
  have hsub : (l.diff ((l.filter p).take n)).countP p = l.countP p - ((l.filter p).take n).countP p := by
    simpa only [Multiset.coe_sub, Multiset.coe_countP, Bool.decide_eq_true] using Multiset.countP_sub (p := fun a => p a = true) hle
  rw [← List.countP_eq_length_filter, show ((l.filter p).take n).foldl (fun l a => l.erase a) l = l.diff ((l.filter p).take n) from (List.diff_eq_foldl ..).symm, hsub,
    hall, List.length_take, List.countP_eq_length_filter]
  omega

/-- The entries of a module leave: at most 14 of them, none of another module, and of the books only the entries change (R411). -/
theorem State.sendAcks_spec (s : State) (m : Nat) : (∃ ports out acks, s.sendAcks m = { s with links := { s.links with ports := ports, acks := acks }, out := out }) ∧
    ((s.sendAcks m).links.acks.filter (fun b => b.module == m)).length = (s.links.acks.filter (fun b => b.module == m)).length - 14 ∧
    (s.sendAcks m).links.acks.filter (fun b => b.module != m) = s.links.acks.filter (fun b => b.module != m) := by
  unfold State.sendAcks
  extract_lets mine l t origin
  split
  next h =>
    refine ⟨⟨_, _, _, rfl⟩, ?_, rfl⟩
    have hempty := List.take_eq_nil_iff.mp (List.isEmpty_iff.mp h)
    rcases hempty with hempty | hempty
    · exact absurd hempty (by decide)
    · rw [hempty]
      rfl
  next h =>
    have hlen : (t.links.acks.filter (fun b => b.module == m)).length = (s.links.acks.filter (fun b => b.module == m)).length - 14 :=
      length_filter_foldl_erase_take ..
    have hother : t.links.acks.filter (fun b => b.module != m) = s.links.acks.filter (fun b => b.module != m) := by
      refine filter_foldl_erase_of_not mine s.links.acks fun a ha => ?_
      have hm := (List.mem_filter.mp (List.mem_of_mem_take ha)).2
      simpa using hm
    have hgoal {u : State} : t.PortTraffic u →
        (∃ ports out acks, u = { s with links := { s.links with ports := ports, acks := acks }, out := out }) ∧
        (u.links.acks.filter (fun b => b.module == m)).length = (s.links.acks.filter (fun b => b.module == m)).length - 14 ∧
        u.links.acks.filter (fun b => b.module != m) = s.links.acks.filter (fun b => b.module != m) := by
      rintro ⟨_, _, rfl⟩
      exact ⟨⟨_, _, _, rfl⟩, hlen, hother⟩
    split
    · exact hgoal (State.portTraffic_enqueue ..)
    · exact hgoal (List.foldlRecOn (motive := t.PortTraffic) _ _ (.refl t) fun u hu _ _ => hu.trans (State.portTraffic_countDrop ..))

/-- An entry is issued: the books of arriving contexts stay, and it waits unless its flit is full (R411). -/
theorem State.pushAck_spec (s : State) (a : PendingAck) : s.LinksOnly (s.pushAck a) ∧ (s.pushAck a).links.rx = s.links.rx ∧
    ((s.links.acks.filter (fun b => b.module == a.module)).length < 13 → (s.pushAck a).links.acks = s.links.acks ++ [a]) := by
  unfold State.pushAck
  extract_lets l t
  split
  next h =>
    obtain ⟨⟨_, _, _, ht⟩, -⟩ := t.sendAcks_spec a.module
    rw [ht]
    refine ⟨⟨_, _, rfl⟩, rfl, fun hfew => absurd h ?_⟩
    have hlen : (t.links.acks.filter (fun b => b.module == a.module)).length = (s.links.acks.filter (fun b => b.module == a.module)).length + 1 := by
      change ((s.links.acks ++ [a]).filter (fun b => b.module == a.module)).length = _
      simp
    omega
  next h => exact ⟨⟨_, _, rfl⟩, rfl, fun _ => rfl⟩

theorem State.issueAck_spec (s : State) (e : RxCtx) : s.LinksOnly (s.issueAck e) ∧
    (s.issueAck e).links.rx = s.links.rx.map (fun o => if o.port = e.port && o.ctxNo = e.ctxNo then { o with unacked := 0 } else o) ∧
    ((s.links.acks.filter (fun b => b.module == e.ctx.srcModule)).length < 13 → (s.issueAck e).links.acks = s.links.acks ++
      [⟨e.ctx.srcModule, ⟨e.ctx.srcRoom, e.ctx.srcChan, e.ctx.ackId, e.unacked⟩, s.now, e.ctx.originTime⟩]) := by
  obtain ⟨hlinks, hrx, hacks⟩ := State.pushAck_spec { s with links := { s.links with
    rx := s.links.rx.map (fun o => if o.port = e.port && o.ctxNo = e.ctxNo then { o with unacked := 0 } else o) } }
    { module := e.ctx.srcModule, entry := ⟨e.ctx.srcRoom, e.ctx.srcChan, e.ctx.ackId, e.unacked⟩, since := s.now, origin := e.ctx.originTime }
  exact ⟨State.LinksOnly.trans ⟨_, _, rfl⟩ hlinks, hrx, hacks⟩

theorem State.closeCtx_rest (s : State) (n k : Nat) : ∃ rx, s.closeCtx n k = { s with links := { s.links with rx := rx } } := by
  unfold State.closeCtx
  split
  · split
    · exact ⟨_, rfl⟩
    · exact ⟨s.links.rx, rfl⟩
  · exact ⟨s.links.rx, rfl⟩

theorem State.linksOnly_closeCtx (s : State) (n k : Nat) : s.LinksOnly (s.closeCtx n k) := by
  obtain ⟨_, h⟩ := s.closeCtx_rest n k
  rw [h]
  exact ⟨_, _, rfl⟩

theorem State.linksOnly_ackDue (s : State) (n k : Nat) : s.LinksOnly (s.ackDue n k) := by
  unfold State.ackDue
  split
  next e _ =>
    split
    · exact (s.issueAck_spec e).1.trans (State.linksOnly_closeCtx ..)
    · exact s.linksOnly_closeCtx n k
  · exact .refl s

theorem State.linksOnly_markLine (s : State) (e : RxCtx) (line : Nat) : s.LinksOnly (s.markLine e line) := ⟨_, _, rfl⟩

/-! ## A line under a byte mask (R190) -/

theorem sliceZ_whole {l : List Byte} {n : Nat} (h : l.length = n) : sliceZ l 0 n = l := by
  subst h
  simp [sliceZ]

theorem atticKey_add (room off i : Nat) : atticKey room (off + i) = atticKey room off + i := (Nat.add_assoc ..).symm

/-- The bytes of an attic after the first `n` bytes of a line have been written under a mask. -/
theorem State.maskedBytes_spec (s : State) (room off : Nat) (mask : BitVec 128) (data : List Byte) (n : Nat) :
    ∃ mem, (List.range n).foldl (fun t i => if mask.getLsbD i then t.writeAttic room (off + i) [data.getD i 0] else t) s = { s with mem := mem } ∧
      mem.cellar = s.mem.cellar ∧ ∀ x, Mem.byte mem.attic x =
        if atticKey room off ≤ x ∧ x < atticKey room off + n ∧ mask.getLsbD (x - atticKey room off) = true then data.getD (x - atticKey room off) 0
        else Mem.byte s.mem.attic x := by
  induction n with
  | zero => exact ⟨s.mem, rfl, rfl, fun x => (if_neg (by omega)).symm⟩
  | succ n ih =>
    obtain ⟨mem, hfold, hcellar, hbytes⟩ := ih
    rw [List.range_succ, List.foldl_append, hfold, List.foldl_cons, List.foldl_nil]
    by_cases hn : mask.getLsbD n = true
    · rw [if_pos hn]
      refine ⟨_, rfl, hcellar, fun x => ?_⟩
      refine (Mem.byte_write ..).trans ?_
      rw [atticKey_add, List.length_singleton]
      by_cases hx : x = atticKey room off + n
      · rw [if_pos (by omega), if_pos (by rw [hx, Nat.add_sub_cancel_left]; exact ⟨by omega, by omega, hn⟩), hx]
        simp
      · rw [if_neg (by omega), hbytes x]
        refine if_congr ?_ rfl rfl
        exact and_congr_right fun _ => and_congr_left fun _ => by omega
    · rw [if_neg hn]
      refine ⟨mem, rfl, hcellar, fun x => (hbytes x).trans (if_congr ?_ rfl rfl)⟩
      refine and_congr_right fun hx => ⟨fun h => ⟨by omega, h.2⟩, fun h => ⟨?_, h.2⟩⟩
      have hne : x ≠ atticKey room off + n := by
        rintro rfl
        rw [Nat.add_sub_cancel_left] at h
        exact hn h.2
      omega

/-- A line written to an attic under a byte mask: the enabled bytes and no other, and one access of the room is counted (R190, R198). -/
theorem State.maskWrite_attic_spec (s : State) (room off : Nat) (mask : BitVec 128) {data : List Byte} (hdata : data.length = 128) :
    ∃ mem, s.maskWrite room false off mask data = State.countAtticWr { s with mem := mem } room off 128 ∧ mem.cellar = s.mem.cellar ∧
      ∀ x, Mem.byte mem.attic x =
        if atticKey room off ≤ x ∧ x < atticKey room off + 128 ∧ mask.getLsbD (x - atticKey room off) = true then data.getD (x - atticKey room off) 0
        else Mem.byte s.mem.attic x := by
  unfold State.maskWrite
  rw [if_neg Bool.false_ne_true]
  split
  next h =>
    refine ⟨(s.writeAttic room off data).mem, rfl, rfl, fun x => (Mem.byte_write ..).trans ?_⟩
    rw [hdata, h]
    refine if_congr ⟨fun hx => ⟨hx.1, hx.2, ?_⟩, fun hx => ⟨hx.1, hx.2.1⟩⟩ rfl rfl
    rw [BitVec.getLsbD_allOnes, decide_eq_true_eq]
    omega
  next h =>
    obtain ⟨mem, hfold, hcellar, hbytes⟩ := s.maskedBytes_spec room off mask data 128
    exact ⟨mem, by rw [State.maskAttic, hfold], hcellar, hbytes⟩

/-! ## Contexts arrive (R424 to R426) -/

theorem State.PortTraffic.tooLate {s t : State} (h : s.PortTraffic t) (origin : Nat) : t.tooLate origin = s.tooLate origin := by
  obtain ⟨_, _, rfl⟩ := h
  rfl

theorem State.tooLate_eq_false {s : State} {origin : Nat} (h : s.timestamp ≤ origin + 1000000) : s.tooLate origin = false := by
  rw [State.tooLate, decide_eq_false_iff_not]
  omega

theorem State.laneOut_congr {s t : State} (h : t.links.route = s.links.route) (vc : Nat) (arrival : Option Nat) (port : Nat) :
    t.laneOut vc arrival port = s.laneOut vc arrival port := by rw [State.laneOut, h]; rfl

theorem keepCtxs_of_data {t : Tab (List Byte)} {fs : List Flit} (h : ∀ f ∈ fs, f.kind ≠ 2) : keepCtxs t fs = t := by
  unfold keepCtxs
  refine List.foldlRecOn (motive := fun u => u = t) fs _ rfl fun u hu f hf => ?_
  rw [if_neg (h f hf), hu]

theorem keepCtxs_cons_of_ctx {t : Tab (List Byte)} {f : Flit} {fs : List Flit} (h : f.kind = 2) :
    keepCtxs t (f :: fs) = keepCtxs (Tab.set [] t f.ctx.val f.data) fs := by
  rw [keepCtxs, List.foldl_cons, if_pos h]
  rfl

/-- A port whose output queue some flits join. -/
def Port.queue (x : Port) (fs : List Flit) : Port := { x with queued := x.queued ++ fs, ctxs := keepCtxs x.ctxs fs }

theorem State.enqueue_eq (s : State) (n : Nat) (fs : List Flit) : s.enqueue n fs = (s.setPort n ((s.port n).queue fs)).pump n := rfl

theorem State.enqueue_pumped (s : State) (n : Nat) (fs : List Flit) : ((s.port n).queue fs).Pumped ((s.enqueue n fs).port n) := by
  have hport : (s.setPort n ((s.port n).queue fs)).port n = (s.port n).queue fs := (s.port_setPort n n _).trans (if_pos rfl)
  obtain ⟨-, hpump, -⟩ := (s.setPort n ((s.port n).queue fs)).pump_spec n
  rwa [hport, ← State.enqueue_eq] at hpump

/-- A context flit sent on a port takes the port's next context number and is kept under it. -/
theorem State.sendOn_port (s : State) (m vc part : Nat) (c : Ctx) (lines : List (List Byte)) :
    ((s.sendOn m vc part c lines).port m).nextCtx = (s.port m).nextCtx + 1 ∧
    Tab.get [] ((s.sendOn m vc part c lines).port m).ctxs ((s.port m).nextCtx % 64) = c.bytes := by
  obtain ⟨k, hk⟩ : ∃ k, k = (s.port m).nextCtx % 64 := ⟨_, rfl⟩
  obtain ⟨fs, hfs⟩ : ∃ fs, fs = (lines.zipIdx.map (fun e => flitOf 1 vc k e.2 e.1)).map (fun f => { f with part := part }) := ⟨_, rfl⟩
  obtain ⟨f, hf⟩ : ∃ f, f = { flitOf 2 vc k 0 c.bytes with part := part } := ⟨_, rfl⟩
  obtain ⟨x, hx⟩ : ∃ x, x = { s.port m with nextCtx := (s.port m).nextCtx + 1 } := ⟨_, rfl⟩
  have heq : s.sendOn m vc part c lines = (s.setPort m x).enqueue m (f :: fs) := by
    rw [hx, hf, hfs, hk]
    rfl
  obtain ⟨_, _, _, _, _, _, _, _, hsent⟩ := (s.setPort m x).enqueue_pumped m (f :: fs)
  rw [(s.port_setPort m m x).trans (if_pos rfl)] at hsent
  have hdata : ∀ g ∈ fs, g.kind ≠ 2 := by
    intro g hg
    rw [hfs, List.mem_map] at hg
    obtain ⟨g', hg', rfl⟩ := hg
    obtain ⟨e, -, rfl⟩ := List.mem_map.mp hg'
    exact (by decide : (1 : Fin 4) ≠ 2)
  have hctxs : keepCtxs x.ctxs (f :: fs) = Tab.set [] x.ctxs k c.bytes := by
    have hctx : f.ctx.val = k := by
      rw [hf, hk]
      exact (BitVec.toNat_ofNat ..).trans (Nat.mod_eq_of_lt (Nat.mod_lt _ (by decide)))
    have hflit : f.kind = 2 ∧ f.data = c.bytes := by rw [hf]; exact ⟨rfl, rfl⟩
    rw [keepCtxs_cons_of_ctx hflit.1, keepCtxs_of_data hdata, hctx, hflit.2]
  rw [heq, hsent, ← hk]
  refine ⟨by rw [hx]; rfl, ?_⟩
  exact (congrArg (fun t : Tab (List Byte) => (Tab.get [] t k : List Byte)) hctxs).trans (Tab.get_set_same ..)

section
variable {s : State} {n : PortId} {vc : Fin 8} {k : Fin 64} {c : Ctx} (hstate : (s.port n).state = .active)
include hstate

theorem exec_contextFlit_dropped :
    (s.links.locked = false → exec (.contextFlit n vc k c) s = .next ((s.freeBuffer n vc).putRx { ctx := c, port := n, ctxNo := k, vc := vc, dropped := true })) ∧
    (s.links.locked = true → s.ownModule = some c.dstModule → c.originTime + 1000000 < s.timestamp →
      exec (.contextFlit n vc k c) s = .next (((s.freeBuffer n vc).putRx { ctx := c, port := n, ctxNo := k, vc := vc, dropped := true }).countDrop n)) ∧
    (s.links.locked = true → s.ownModule ≠ some c.dstModule → c.hops = 0 ∨ c.originTime + 1000000 < s.timestamp →
      exec (.contextFlit n vc k c) s = .next (((s.freeBuffer n vc).putRx { ctx := c, port := n, ctxNo := k, vc := vc, dropped := true }).countDrop n)) := by
  have hlate := (s.portTraffic_freeBuffer n vc).tooLate c.originTime
  have hexec : exec (.contextFlit n vc k c) s = execContextFlit n vc k c s := rfl
  rw [hexec]
  refine ⟨fun hlock => ?_, fun hlock hown htime => ?_, fun hlock hown hdrop => ?_⟩
  · simp [execContextFlit, hstate, hlock, State.dropCtx]
  · simp [execContextFlit, hstate, hlock, hown, State.tooLate, htime, State.dropCtx]
  · have hcond : (decide (c.hops = 0) || (s.freeBuffer n vc).tooLate c.originTime) = true := by
      rw [hlate, State.tooLate, Bool.or_eq_true, decide_eq_true_eq, decide_eq_true_eq]
      exact hdrop
    simp only [execContextFlit, hstate, hlock, ne_eq, not_true_eq_false, if_false, Bool.not_true, Bool.false_eq_true, hown, not_false_eq_true, if_true, State.transit, hcond]
    rfl

theorem exec_contextFlit_own (hlock : s.links.locked = true) (hown : s.ownModule = some c.dstModule) (htime : s.timestamp ≤ c.originTime + 1000000) :
    ∃ (t : State) (e : RxCtx),
      exec (.contextFlit n vc k c) s = .next t ∧ e ∈ t.links.rx ∧ t.rxAt n k = some e ∧ e.ctx = c ∧ e.vc = vc ∧ e.dropped = false ∧ e.fwd = none ∧ e.unacked = 0 ∧
      t.mem = s.mem ∧ t.rooms = s.rooms ∧ t.parts = s.parts ∧
      ((∀ o, o ∈ s.links.rx → o.fwd = none → RxCtx.same o.ctx c = false) → e.performed = []) := by
  obtain ⟨a, ha⟩ : ∃ a, a = s.freeBuffer n vc := ⟨_, rfl⟩
  have htraffic : s.PortTraffic a := by rw [ha]; exact s.portTraffic_freeBuffer n vc
  obtain ⟨had, hhad⟩ : ∃ had : List Nat, had = match a.links.rx.find? (fun e => e.fwd.isNone && RxCtx.same e.ctx c) with | some e => e.performed | none => [] := ⟨_, rfl⟩
  obtain ⟨hmem, hrooms, hparts, -, -⟩ := (htraffic.linksOnly.trans (a.linksOnly_putRx { ctx := c, port := n, ctxNo := k, vc := vc, performed := had })).kept
  have hat := a.rxAt_putRx { ctx := c, port := n, ctxNo := k, vc := vc, performed := had }
  refine ⟨a.putRx { ctx := c, port := n, ctxNo := k, vc := vc, performed := had }, { ctx := c, port := n, ctxNo := k, vc := vc, performed := had }, ?_, (State.rxAt_spec hat).1, hat, rfl, rfl, rfl, rfl, rfl,
    hmem, hrooms, hparts, fun hnone => ?_⟩
  · change execContextFlit n vc k c s = _
    simp only [execContextFlit, hstate, hlock, hown, State.tooLate_eq_false htime, ne_eq, not_true_eq_false, if_false, Bool.not_true, Bool.false_eq_true]
    rw [← ha, hhad] <;> rfl
  · have hfind : a.links.rx.find? (fun e => e.fwd.isNone && RxCtx.same e.ctx c) = none := by
      rw [htraffic.links.1, List.find?_eq_none]
      intro o ho hsame
      rw [Bool.and_eq_true, Option.isNone_iff_eq_none] at hsame
      rw [hnone o ho hsame.1] at hsame
      exact Bool.noConfusion hsame.2
    dsimp only
    rw [hhad, hfind]

theorem exec_contextFlit_transit {m : Nat} (hlock : s.links.locked = true) (hown : s.ownModule ≠ some c.dstModule) (hhops : c.hops ≠ 0)
    (htime : s.timestamp ≤ c.originTime + 1000000) (hport : (s.freeBuffer n vc).choosePort c.dstModule vc none = some m) :
    ∃ (t : State) (e : RxCtx), exec (.contextFlit n vc k c) s = .next t ∧ t.rxAt n k = some e ∧
        e.ctx = { c with hops := c.hops - 1 } ∧ e.fwd = some (m, (s.port m).nextCtx % 64, s.laneOut vc (some n.val) m) ∧ e.dropped = false ∧
        (t.port m).nextCtx = (s.port m).nextCtx + 1 ∧ Tab.get [] (t.port m).ctxs ((s.port m).nextCtx % 64) = ({ c with hops := c.hops - 1 } : Ctx).bytes ∧
        t.mem = s.mem ∧ t.rooms = s.rooms ∧ t.parts = s.parts := by
  have hlate := ((s.portTraffic_freeBuffer n vc).tooLate c.originTime).trans (State.tooLate_eq_false htime)
  obtain ⟨a, ha⟩ : ∃ a, a = s.freeBuffer n vc := ⟨_, rfl⟩
  have htraffic : s.PortTraffic a := by rw [ha]; exact s.portTraffic_freeBuffer n vc
  have hnext : (a.port m).nextCtx = (s.port m).nextCtx := by rw [ha]; exact (s.freeBuffer_kept n vc m).2
  have hlane : a.laneOut vc (some n.val) m = s.laneOut vc (some n.val) m := by
    obtain ⟨-, -, -, hroute, -⟩ := htraffic.links
    exact State.laneOut_congr hroute ..
  rw [← ha] at hlate hport
  obtain ⟨d, hd⟩ : ∃ d : Ctx, d = { c with hops := c.hops - 1 } := ⟨_, rfl⟩
  obtain ⟨e, he⟩ : ∃ e : RxCtx, e = { ctx := d, port := n, ctxNo := k, vc := vc, fwd := some (m, (a.port m).nextCtx % 64, a.laneOut vc (some n.val) m) } := ⟨_, rfl⟩
  obtain ⟨b, hb⟩ : ∃ b, b = a.sendOn m (a.laneOut vc (some n.val) m) 16 d [] := ⟨_, rfl⟩
  have hbtraffic : a.PortTraffic b := by rw [hb]; exact a.portTraffic_sendOn ..
  obtain ⟨hmem, hrooms, hparts, -, -⟩ := ((htraffic.trans hbtraffic).linksOnly.trans (b.linksOnly_putRx e)).kept
  have hsent := a.sendOn_port m (a.laneOut vc (some n.val) m) 16 d []
  rw [← hb, hnext] at hsent
  have hat := b.rxAt_putRx e
  have hplace : e.port = n.val ∧ e.ctxNo = k.val := by rw [he]; exact ⟨rfl, rfl⟩
  rw [hplace.1, hplace.2] at hat
  refine ⟨b.putRx e, e, ?_, hat, by rw [he, hd], by rw [he, hnext, hlane], by rw [he], hsent.1, by rw [← hd]; exact hsent.2, hmem, hrooms, hparts⟩
  change execContextFlit n vc k c s = _
  simp only [execContextFlit, hstate, hlock, hown, ne_eq, not_true_eq_false, if_false, Bool.not_true, Bool.false_eq_true, not_false_eq_true, if_true]
  rw [← ha]
  simp only [State.transit, hhops, hlate, hport, decide_false, Bool.or_self, Bool.false_eq_true, if_false]
  rw [he, hb, hd]

end

/-! ## Lines arrive (R390, R409 to R411) -/

theorem State.remoteOk_congr {s t : State} (h : t.parts = s.parts) (arrival : Option Nat) (c : Ctx) (off : Nat) : t.remoteOk arrival c off = s.remoteOk arrival c off := by
  have hpart (p : Nat) : t.part p = s.part p := by rw [State.part, h]; rfl
  unfold State.remoteOk
  rw [hpart]

theorem State.countFlag_mem (s : State) (c : Ctx) : (s.countFlag c).mem = s.mem := by
  unfold State.countFlag
  extract_lets p key id
  split
  · rfl
  · rfl

/-- A line that the partition lets not in is counted and changes nothing else (R390). -/
theorem State.remoteLine_of_refused {s : State} {arrival : Option Nat} {c : Ctx} {line : Nat} (h : s.remoteOk arrival c (c.lineAt line) = false) (data : List Byte) :
    s.remoteLine arrival c line data = s.violate (if (s.part c.dstPart).present then c.dstPart + 1 else 0) := by
  rw [State.remoteLine]
  simp only [h, Bool.not_false, if_true]

/-- A line that is performed in an attic (R190, R390). -/
theorem State.remoteLine_attic_spec {s : State} {arrival : Option Nat} {c : Ctx} {line room : Nat} {data : List Byte} (hspace : c.space = 4)
    (hok : s.remoteOk arrival c (c.lineAt line) = true) (hdata : data.length = 128) (hroom : room = (s.part c.dstPart).rooms.getD c.dstRoom 0) :
    (s.remoteLine arrival c line data).mem.cellar = s.mem.cellar ∧
    (∀ x, Mem.byte (s.remoteLine arrival c line data).mem.attic x =
      if atticKey room (c.lineAt line) ≤ x ∧ x < atticKey room (c.lineAt line) + 128 ∧ (c.mask line).getLsbD (x - atticKey room (c.lineAt line)) = true
      then data.getD (x - atticKey room (c.lineAt line)) 0 else Mem.byte s.mem.attic x) ∧
    (c.flagged = false → (s.remoteLine arrival c line data).parts = s.parts ∧ (s.remoteLine arrival c line data).rooms = (s.countAtticWr room (c.lineAt line) 128).rooms) := by
  obtain ⟨mem, hwrite, hcellar, hbytes⟩ := s.maskWrite_attic_spec room (c.lineAt line) (c.mask line) hdata
  obtain ⟨t, ht⟩ : ∃ t, t = s.maskWrite room false (c.lineAt line) (c.mask line) data := ⟨_, rfl⟩
  have htmem : t.mem = mem := by rw [ht, hwrite]; rfl
  have hkept : t.parts = s.parts ∧ t.rooms = (s.countAtticWr room (c.lineAt line) 128).rooms := by
    rw [ht, hwrite]
    exact ⟨rfl, rfl⟩
  obtain ⟨u, hu⟩ : ∃ u, u = if c.flagged = true then t.countFlag c else t := ⟨_, rfl⟩
  have humem : u.mem = mem := by
    rw [hu]
    split
    · rw [State.countFlag_mem, htmem]
    · exact htmem
  have huflag (h : c.flagged = false) : u = t := by rw [hu, h]; rfl
  obtain ⟨out, heq⟩ : ∃ out, s.remoteLine arrival c line data = { u with out := out } := by
    unfold State.remoteLine
    rw [hspace]
    simp only [hok, Bool.not_true, Bool.false_eq_true, if_false, sliceZ_whole hdata, (by decide : ¬ (4 = 3)), decide_false, ← hroom, ← ht, ← hu]
    split
    · exact ⟨_, rfl⟩
    · exact ⟨u.out, rfl⟩
  rw [heq]
  refine ⟨by rw [humem]; exact hcellar, fun x => by rw [humem]; exact hbytes x, fun h => ?_⟩
  rw [huflag h]
  exact hkept

/-- What follows a line of space 3 or 4 in its context changes the books of the link subsystem only. -/
theorem State.sinkLine_of_write {s : State} {e : RxCtx} (h : e.ctx.space = 3 ∨ e.ctx.space = 4) (line : Nat) (data : List Byte) :
    (s.remoteLine (some e.port) e.ctx line data).LinksOnly (s.sinkLine e line data) := by
  unfold State.sinkLine
  rw [if_pos (by simpa using h)]
  exact (State.linksOnly_markLine ..).trans (State.linksOnly_ackDue ..)

theorem exec_dataFlit_waits {s : State} {n : PortId} {vc : Fin 8} {k : Fin 64} {line : Nat} {data : List Byte} (h : s.lineWaits n k = true) : exec (.dataFlit n vc k line data) s = .next s := by
  change execDataFlit n vc k line data s = _
  simp [execDataFlit, h]

section
variable {s : State} {n : PortId} {vc : Fin 8} {k : Fin 64} {line : Nat} {data : List Byte} (hstate : (s.port n).state = .active)
include hstate

theorem exec_dataFlit_none (h : s.rxAt n k = none) : exec (.dataFlit n vc k line data) s = .next (s.freeBuffer n vc) := by
  have hwait : s.lineWaits n k = false := by rw [State.lineWaits, h]
  have hrx := (State.rxAt_congr (s.portTraffic_freeBuffer n vc).links.1 n k).trans h
  change execDataFlit n vc k line data s = _
  simp [execDataFlit, hstate, hwait, hrx]

theorem exec_dataFlit_stray {e : RxCtx} (h : s.rxAt n k = some e) (hstray : e.dropped = true ∨ e.vc ≠ vc.val ∨ e.ctx.lines ≤ line) (hwait : s.lineWaits n k = false) :
    exec (.dataFlit n vc k line data) s = .next (s.freeBuffer n vc) := by
  have hrx := (State.rxAt_congr (s.portTraffic_freeBuffer n vc).links.1 n k).trans h
  change execDataFlit n vc k line data s = _
  simp only [execDataFlit, hstate, hwait, hrx]
  rw [if_neg (by simp), if_pos (by simpa [or_assoc] using hstray)]

variable {e : RxCtx} (h : s.rxAt n k = some e) (hlive : e.dropped = false) (hvc : e.vc = vc.val) (hline : line < e.ctx.lines)
  (htime : s.timestamp ≤ e.ctx.originTime + 1000000)
include h hlive hvc hline htime

theorem exec_dataFlit_sinks (hfwd : e.fwd = none) (hwait : s.lineWaits n k = false) :
    exec (.dataFlit n vc k line data) s = .next ((s.freeBuffer n vc).sinkLine e line data) := by
  have htraffic := s.portTraffic_freeBuffer n vc
  have hrx := (State.rxAt_congr htraffic.links.1 n k).trans h
  change execDataFlit n vc k line data s = _
  simp [execDataFlit, hstate, hwait, hrx, hlive, hvc, not_le.mpr hline, (htraffic.tooLate _).trans (State.tooLate_eq_false htime), hfwd]

theorem exec_dataFlit_attic {room : Nat} (hfwd : e.fwd = none) (hspace : e.ctx.space = 4) (hok : s.remoteOk (some n.val) e.ctx (e.ctx.lineAt line) = true)
    (hdata : data.length = 128) (hroom : room = (s.part e.ctx.dstPart).rooms.getD e.ctx.dstRoom 0) :
    ∃ t : State, exec (.dataFlit n vc k line data) s = .next t ∧ t.mem.cellar = s.mem.cellar ∧
      (∀ i, i < 128 → Mem.byte t.mem.attic (atticKey room (e.ctx.lineAt line + i)) =
        if (e.ctx.mask line).getLsbD i then data.getD i 0 else Mem.byte s.mem.attic (atticKey room (e.ctx.lineAt line + i))) ∧
      (∀ x, (∀ i, i < 128 → x ≠ atticKey room (e.ctx.lineAt line + i)) → Mem.byte t.mem.attic x = Mem.byte s.mem.attic x) ∧
      (e.ctx.flagged = false → t.parts = s.parts ∧ (∀ q, q ≠ room → t.room q = s.room q) ∧ t.room room = { s.room room with counters :=
        { (s.room room).counters with linesWr := (s.room room).counters.linesWr + BitVec.ofNat 48 (linesOf (e.ctx.lineAt line) 128).length } }) := by
  have hwait : s.lineWaits n k = false := by simp [State.lineWaits, h, hspace]
  obtain ⟨a, ha⟩ : ∃ a, a = s.freeBuffer n vc := ⟨_, rfl⟩
  obtain ⟨hamem, harooms, haparts, -, -⟩ : a.mem = s.mem ∧ a.rooms = s.rooms ∧ a.parts = s.parts ∧ _ ∧ _ := by
    rw [ha]
    exact (s.portTraffic_freeBuffer n vc).linksOnly.kept
  obtain ⟨-, hport, -⟩ := State.rxAt_spec h
  have hapart (p : Nat) : a.part p = s.part p := by rw [State.part, haparts]; rfl
  have haok : a.remoteOk (some e.port) e.ctx (e.ctx.lineAt line) = true := by rw [hport]; exact (State.remoteOk_congr haparts ..).trans hok
  obtain ⟨hcellar, hbytes, hflag⟩ := State.remoteLine_attic_spec hspace haok hdata (hroom.trans (by rw [hapart]))
  obtain ⟨htmem, htrooms, htparts, -, -⟩ := (State.sinkLine_of_write (s := a) (Or.inr hspace) line data).kept
  obtain ⟨b, hb⟩ : ∃ b, b = a.remoteLine (some e.port) e.ctx line data := ⟨_, rfl⟩
  rw [← hb] at hcellar hbytes hflag htmem htrooms htparts
  rw [hamem] at hcellar hbytes
  refine ⟨a.sinkLine e line data, by rw [exec_dataFlit_sinks hstate h hlive hvc hline htime hfwd hwait, ha], by rw [htmem]; exact hcellar, fun i hi => ?_, fun x hx => ?_, fun hno => ?_⟩
  · rw [htmem, hbytes, atticKey_add, Nat.add_sub_cancel_left]
    exact if_congr ⟨fun hin => hin.2.2, fun hin => ⟨by omega, by omega, hin⟩⟩ rfl rfl
  · rw [htmem, hbytes]
    refine if_neg fun hin => hx (x - atticKey room (e.ctx.lineAt line)) (by omega) ?_
    rw [atticKey_add]
    omega
  · obtain ⟨hparts, hrooms⟩ := hflag hno
    have hcount (q : Nat) : (a.sinkLine e line data).room q = if q = room then { s.room room with counters :=
        { (s.room room).counters with linesWr := (s.room room).counters.linesWr + BitVec.ofNat 48 (linesOf (e.ctx.lineAt line) 128).length } } else s.room q := by
      have haroom (r : Nat) : a.room r = s.room r := by rw [State.room, harooms]; rfl
      have hsame : (a.sinkLine e line data).room q = (a.countAtticWr room (e.ctx.lineAt line) 128).room q := by
        rw [State.room, State.room, htrooms, hrooms]
      rw [hsame, State.countAtticWr, State.room_setRoom, haroom, haroom]
    exact ⟨(htparts.trans hparts).trans haparts, fun q hq => (hcount q).trans (if_neg hq), (hcount room).trans (if_pos rfl)⟩

theorem exec_dataFlit_refused (hfwd : e.fwd = none) (hspace : e.ctx.space = 3 ∨ e.ctx.space = 4) (hwait : s.lineWaits n k = false)
    (hok : s.remoteOk (some n.val) e.ctx (e.ctx.lineAt line) = false) :
    ∃ t : State, exec (.dataFlit n vc k line data) s = .next t ∧ t.mem = s.mem ∧ t.rooms = s.rooms ∧ t.parts = s.parts ∧
      Tab.get 0 t.gysis.ledger.viol (if (s.part e.ctx.dstPart).present then e.ctx.dstPart + 1 else 0) =
        satInc (Tab.get 0 s.gysis.ledger.viol (if (s.part e.ctx.dstPart).present then e.ctx.dstPart + 1 else 0)) := by
  obtain ⟨a, ha⟩ : ∃ a, a = s.freeBuffer n vc := ⟨_, rfl⟩
  obtain ⟨hamem, harooms, haparts, -, hagysis⟩ : a.mem = s.mem ∧ a.rooms = s.rooms ∧ a.parts = s.parts ∧ _ ∧ a.gysis = s.gysis := by
    rw [ha]
    exact (s.portTraffic_freeBuffer n vc).linksOnly.kept
  obtain ⟨-, hport, -⟩ := State.rxAt_spec h
  have hapart (p : Nat) : a.part p = s.part p := by rw [State.part, haparts]; rfl
  have haok : a.remoteOk (some e.port) e.ctx (e.ctx.lineAt line) = false := by rw [hport]; exact (State.remoteOk_congr haparts ..).trans hok
  obtain ⟨f, hf⟩ : ∃ f, f = if (s.part e.ctx.dstPart).present then e.ctx.dstPart + 1 else 0 := ⟨_, rfl⟩
  obtain ⟨htmem, htrooms, htparts, -, htgysis⟩ := (State.sinkLine_of_write (s := a) hspace line data).kept
  rw [State.remoteLine_of_refused haok, hapart, ← hf] at htmem htrooms htparts htgysis
  refine ⟨a.sinkLine e line data, by rw [exec_dataFlit_sinks hstate h hlive hvc hline htime hfwd hwait, ha], htmem.trans hamem, htrooms.trans harooms, htparts.trans haparts, ?_⟩
  rw [← hf, htgysis, State.violate_viol, hagysis]

theorem exec_dataFlit_passes {m q v : Nat} (hfwd : e.fwd = some (m, q, v)) (hm : m ≠ n.val) (hretired : (s.port m).state ≠ .retired) (hidle : (s.port m).state ≠ .active) :
    ∃ t : State, exec (.dataFlit n vc k line data) s = .next t ∧
      t.port m = { s.port m with queued := (s.port m).queued ++ [flitOf 1 v q line (sliceZ data 0 128)] } ∧ t.mem = s.mem ∧ t.rooms = s.rooms ∧ t.parts = s.parts := by
  have hwait : s.lineWaits n k = false := by simp [State.lineWaits, h, hfwd]
  have htraffic := s.portTraffic_freeBuffer n vc
  have hrx := (State.rxAt_congr htraffic.links.1 n k).trans h
  have hlate := (htraffic.tooLate _).trans (State.tooLate_eq_false htime)
  have haport := (s.freeBuffer_port n vc).1 m hm
  obtain ⟨a, ha⟩ : ∃ a, a = s.freeBuffer n vc := ⟨_, rfl⟩
  rw [← ha] at hrx hlate haport htraffic
  have hexec : exec (.dataFlit n vc k line data) s = .next (a.passLine e m q v line (sliceZ data 0 128)) := by
    change execDataFlit n vc k line data s = _
    simp only [execDataFlit, hstate, hwait]
    rw [← ha]
    simp [hrx, hlive, hvc, not_le.mpr hline, hlate, hfwd, haport, hretired]
  obtain ⟨x, hx⟩ : ∃ x, x = { s.port m with queued := (s.port m).queued ++ [flitOf 1 v q line (sliceZ data 0 128)] } := ⟨_, rfl⟩
  have hsent : a.enqueue m [flitOf 1 v q line (sliceZ data 0 128)] = a.setPort m x := by
    have hport : (a.setPort m x).port m = x := (a.port_setPort m m x).trans (if_pos rfl)
    have heq : a.enqueue m [flitOf 1 v q line (sliceZ data 0 128)] = (a.setPort m x).pump m := by
      rw [State.enqueue, haport, hx]
      rfl
    rw [heq]
    refine ((a.setPort m x).pump_spec m).2.2.2 ?_
    rw [hport, hx]
    exact hidle
  obtain ⟨b, hb⟩ : ∃ b : State, b = a.setPort m x := ⟨_, rfl⟩
  obtain ⟨rx, hpass⟩ : ∃ rx, a.passLine e m q v line (sliceZ data 0 128) = { b with links := { b.links with rx := rx } } := by
    rw [State.passLine, hsent, ← hb]
    obtain ⟨rx, hclose⟩ := State.closeCtx_rest { b with links := { b.links with
      rx := b.links.rx.map (fun o => if o.port = e.port && o.ctxNo = e.ctxNo then { o with performed := line :: o.performed } else o) } } e.port e.ctxNo
    exact ⟨rx, hclose⟩
  obtain ⟨hmem, hrooms, hparts, -, -⟩ := htraffic.linksOnly.kept
  rw [hexec, hpass]
  refine ⟨_, rfl, ?_, ?_⟩
  · have hport : b.port m = x := by rw [hb]; exact (a.port_setPort m m x).trans (if_pos rfl)
    exact hport.trans hx
  · rw [hb]
    exact ⟨hmem, hrooms, hparts⟩

end

/-! ## Acknowledgements (R411, R426) -/

theorem exec_ackEntryTimeout_spec {s : State} {n : PortId} {vc : Fin 8} {k : Fin 64} {e : RxCtx} (h : s.rxAt n k = some e) (hvc : e.vc = vc.val) (hfwd : e.fwd = none)
    (hun : 0 < e.unacked) : (s.now < e.oldest + 1000 → exec (.ackEntryTimeout n vc k) s = .next s) ∧
    (e.oldest + 1000 ≤ s.now → ∃ t : State, exec (.ackEntryTimeout n vc k) s = .next t ∧ t.rxAt n k = some { e with unacked := 0 } ∧
      t.mem = s.mem ∧ t.rooms = s.rooms ∧ t.parts = s.parts ∧
      ((s.links.acks.filter (fun a => a.module == e.ctx.srcModule)).length < 13 → t.links.acks = s.links.acks ++
        [⟨e.ctx.srcModule, ⟨e.ctx.srcRoom, e.ctx.srcChan, e.ctx.ackId, e.unacked⟩, s.now, e.ctx.originTime⟩])) := by
  have hexec : exec (.ackEntryTimeout n vc k) s = execAckEntryTimeout n vc k s := rfl
  rw [hexec]
  refine ⟨fun htime => by simp [execAckEntryTimeout, h, not_le.mpr htime], fun htime => ?_⟩
  obtain ⟨hlinks, hrx, hacks⟩ := s.issueAck_spec e
  obtain ⟨hmem, hrooms, hparts, -, -⟩ := hlinks.kept
  obtain ⟨-, hport, hno⟩ := State.rxAt_spec h
  refine ⟨s.issueAck e, by simp [execAckEntryTimeout, h, hvc, hfwd, hun, htime], ?_, hmem, hrooms, hparts, hacks⟩
  rw [State.rxAt_map hrx (fun o => by split <;> exact ⟨rfl, rfl⟩), h]
  simp

theorem exec_ackFlitTimeout_spec (s : State) (m : Nat) : ((∀ a, a ∈ s.links.acks → a.module = m → s.now < a.since + 1000) → exec (.ackFlitTimeout m) s = .next s) ∧
    (∀ a, a ∈ s.links.acks → a.module = m → a.since + 1000 ≤ s.now → ∃ t : State, exec (.ackFlitTimeout m) s = .next t ∧
      (t.links.acks.filter (fun b => b.module == m)).length = (s.links.acks.filter (fun b => b.module == m)).length - 14 ∧
      t.links.acks.filter (fun b => b.module != m) = s.links.acks.filter (fun b => b.module != m) ∧ t.mem = s.mem ∧ t.rooms = s.rooms ∧ t.parts = s.parts) := by
  have hexec : exec (.ackFlitTimeout m) s = execAckFlitTimeout m s := rfl
  rw [hexec]
  refine ⟨fun hnone => ?_, fun a ha hm htime => ?_⟩
  · have hany : s.links.acks.any (fun a => a.module == m && decide (a.since + 1000 ≤ s.now)) = false := by
      rw [List.any_eq_false]
      intro a ha hdue
      rw [Bool.and_eq_true, beq_iff_eq, decide_eq_true_eq] at hdue
      exact absurd (hnone a ha hdue.1) (not_lt.mpr hdue.2)
    simp [execAckFlitTimeout, hany]
  · have hany : s.links.acks.any (fun a => a.module == m && decide (a.since + 1000 ≤ s.now)) = true :=
      List.any_eq_true.mpr ⟨a, ha, by simp [hm, htime]⟩
    obtain ⟨⟨_, _, _, hrest⟩, hlen, hother⟩ := s.sendAcks_spec m
    refine ⟨s.sendAcks m, by rw [execAckFlitTimeout, if_pos hany], hlen, hother, ?_⟩
    rw [hrest]
    exact ⟨rfl, rfl, rfl⟩

/-- The context that an acknowledgement entry names. -/
def State.txOf (s : State) (e : AckEntry) : Option TxCtx := s.links.tx.find? (fun x => x.room == e.srcRoom && x.chan == e.srcChan && x.ackId == e.ackId)

/-- The lines of an entry are taken off what their context and its descriptor wait for. -/
def State.credited (s : State) (x : TxCtx) (k : Nat) : State :=
  let u := { s with links := { s.links with tx := (s.links.tx.map (fun o => if o = x then { o with left := o.left - k } else o)).filter (fun o => o.left != 0) } }
  u.setRoom x.room ((u.room x.room).acked x.chan x.no k)

theorem exec_ackFlit_own {s : State} {n : PortId} {vc : Fin 8} {m : Nat} (hstate : (s.port n).state = .active) (hown : s.ownModule = some m) (origin : Nat) (e : AckEntry) :
    exec (.ackFlit n vc origin m [e]) s = .next (State.takeEntry n (s.freeBuffer n vc) e) := by
  change execAckFlit n vc origin m [e] s = _
  simp [execAckFlit, hstate, hown]

theorem State.txOf_congr {s t : State} (h : t.links.tx = s.links.tx) (e : AckEntry) : t.txOf e = s.txOf e := by rw [State.txOf, h]; rfl

theorem State.takeEntry_of_none {s : State} {e : AckEntry} (h : s.txOf e = none) (n : Nat) : State.takeEntry n s e = s := by
  have h' : s.links.tx.find? (fun x => x.room == e.srcRoom && x.chan == e.srcChan && x.ackId == e.ackId) = none := h
  simp only [State.takeEntry, h']

theorem State.takeEntry_of_late {s : State} {e : AckEntry} {x : TxCtx} (h : s.txOf e = some x) (hlate : x.sentAt + 1000000 < s.now) (n : Nat) :
    State.takeEntry n s e = s.countDrop n := by
  have h' : s.links.tx.find? (fun x => x.room == e.srcRoom && x.chan == e.srcChan && x.ackId == e.ackId) = some x := h
  simp only [State.takeEntry, h', hlate, if_true]

theorem State.takeEntry_of_due {s : State} {e : AckEntry} {x : TxCtx} (h : s.txOf e = some x) (hdue : s.now ≤ x.sentAt + 1000000) (n : Nat) :
    State.takeEntry n s e = match s.ownerOf x.room with
      | some p => ((s.credited x (min e.lines x.left)).releaseHeld p x.room x.chan).goOn x.room
      | none => s.credited x (min e.lines x.left) := by
  have h' : s.links.tx.find? (fun x => x.room == e.srcRoom && x.chan == e.srcChan && x.ackId == e.ackId) = some x := h
  simp only [State.takeEntry, h', not_lt.mpr hdue, if_false]
  rfl

theorem State.credited_spec (s : State) (x : TxCtx) (k : Nat) : (s.credited x k).mem = s.mem ∧ (s.credited x k).parts = s.parts ∧ (s.credited x k).fns = s.fns ∧
    (s.credited x k).links.tx = (s.links.tx.map (fun o => if o = x then { o with left := o.left - k } else o)).filter (fun o => o.left != 0) ∧
    ∀ q, (s.credited x k).room q = if q = x.room then (s.room x.room).acked x.chan x.no k else s.room q :=
  ⟨rfl, rfl, rfl, rfl, fun _ => State.room_setRoom ..⟩

theorem exec_ackFlit_entry {s : State} {n : PortId} {vc : Fin 8} {m : Nat} {e : AckEntry} {x : TxCtx} (hstate : (s.port n).state = .active) (hown : s.ownModule = some m)
    (hx : s.txOf e = some x) (origin : Nat) :
    (x.sentAt + 1000000 < s.now → exec (.ackFlit n vc origin m [e]) s = .next ((s.freeBuffer n vc).countDrop n)) ∧
    (s.now ≤ x.sentAt + 1000000 → ∃ t : State, exec (.ackFlit n vc origin m [e]) s = .next (match s.ownerOf x.room with
        | some p => (t.releaseHeld p x.room x.chan).goOn x.room
        | none => t) ∧ t.mem = s.mem ∧ t.parts = s.parts ∧ t.fns = s.fns ∧
      t.links.tx = (s.links.tx.map (fun o => if o = x then { o with left := o.left - min e.lines x.left } else o)).filter (fun o => o.left != 0) ∧
      (∀ q, q ≠ x.room → t.room q = s.room q) ∧
      (∀ c, c ≠ x.chan → (t.room x.room).chan c = (s.room x.room).chan c) ∧
      ((t.room x.room).chan x.chan).issued = ((s.room x.room).chan x.chan).issued.map (fun i =>
        if i.no = x.no then { i with left := i.left - min e.lines x.left, tags := i.tags - min (min e.lines x.left) i.left } else i)) := by
  have htraffic := s.portTraffic_freeBuffer n vc
  obtain ⟨a, ha⟩ : ∃ a, a = s.freeBuffer n vc := ⟨_, rfl⟩
  rw [exec_ackFlit_own hstate hown, ← ha]
  rw [← ha] at htraffic
  obtain ⟨-, -, htx, -, -, hnow, -, -⟩ := htraffic.links
  obtain ⟨hmem, hrooms, hparts, hfns, -⟩ := htraffic.linksOnly.kept
  have hax : a.txOf e = some x := (State.txOf_congr htx e).trans hx
  refine ⟨fun hlate => by rw [State.takeEntry_of_late hax (by rw [hnow]; exact hlate)], fun hdue => ?_⟩
  have haroom (q : Nat) : a.room q = s.room q := by rw [State.room, hrooms]; rfl
  obtain ⟨hcmem, hcparts, hcfns, hctx, hcroom⟩ := a.credited_spec x (min e.lines x.left)
  have hroom := (hcroom x.room).trans (if_pos rfl)
  rw [haroom] at hroom
  refine ⟨a.credited x (min e.lines x.left), ?_, hcmem.trans hmem, hcparts.trans hparts, hcfns.trans hfns, by rw [hctx, htx], fun q hq => ((hcroom q).trans (if_neg hq)).trans (haroom q),
    fun c hc => ?_, ?_⟩
  · rw [State.takeEntry_of_due hax (by rw [hnow]; exact hdue), State.ownerOf_congr hparts]
  · rw [hroom]
    exact (Room.chan_setChan ..).trans (if_neg hc)
  · rw [hroom]
    have hchan : ((s.room x.room).acked x.chan x.no (min e.lines x.left)).chan x.chan = ((s.room x.room).chan x.chan).acked x.no (min e.lines x.left) :=
      (Room.chan_setChan ..).trans (if_pos rfl)
    rw [hchan]
    rfl

/-! ## Eyes and summaries (R429, R496) -/

theorem State.permanent_lane_note (s : State) (n : Nat) (l : Nat) : (s.note (.lane n l) 0).permanent (.lane n l) = true := by
  simp [State.permanent, State.events, State.note]

theorem exec_marginSweep_spec {s : State} {n : PortId} {l : Fin 8} (h w : Nat) (hstate : (s.port n).state = .active) (hlane : (s.port n).laneMap.getLsbD l = true) :
    ∃ t : State, exec (.marginSweep n l h w) s = .next t ∧ t.port n = { s.port n with
        eyeHeight := Tab.set 0 (s.port n).eyeHeight l h
        eyeWidth := Tab.set 0 (s.port n).eyeWidth l w
        lowEye := Tab.set 0 (s.port n).lowEye l (if h < 12000 then Tab.get 0 (s.port n).lowEye l + 1 else 0) } ∧
      (h < 12000 → 1 ≤ Tab.get 0 (s.port n).lowEye l → t.permanent (.lane n l) = true) ∧ s.LinkFrame t n := by
  obtain ⟨low, hlow⟩ : ∃ low, low = if h < 12000 then Tab.get 0 (s.port n).lowEye l + 1 else 0 := ⟨_, rfl⟩
  obtain ⟨x, hx⟩ : ∃ x, x = { s.port n with
        eyeHeight := Tab.set 0 (s.port n).eyeHeight l h
        eyeWidth := Tab.set 0 (s.port n).eyeWidth l w
        lowEye := Tab.set 0 (s.port n).lowEye l low } := ⟨_, rfl⟩
  obtain ⟨t, ht⟩ : ∃ t, t = s.setPort n x := ⟨_, rfl⟩
  have hport : t.port n = x := by rw [ht]; exact (s.port_setPort n n x).trans (if_pos rfl)
  have hframe : s.LinkFrame t n := by rw [ht]; exact s.linkFrame_setPort n x
  have hexec : exec (.marginSweep n l h w) s = .next (if 2 ≤ low then t.note (.lane n l) 0 else t) := by
    change execMarginSweep n l h w s = _
    rw [ht, hx, hlow]
    simp only [execMarginSweep, hstate, hlane, ne_eq, not_true_eq_false, decide_false, Bool.not_true, Bool.or_self, Bool.false_eq_true, if_false]
  rw [hexec, ← hlow, ← hx]
  split
  next =>
    obtain ⟨hnote, hports⟩ := (t.note_flagged (.lane n l) 0).linkFrame n
    exact ⟨_, rfl, (hports n).trans hport, fun _ _ => t.permanent_lane_note n l, hframe.trans hnote⟩
  next hfew => exact ⟨_, rfl, hport, fun hlt hle => absurd (by rw [hlow, if_pos hlt]; omega) hfew, hframe⟩

theorem exec_summarySend_early {s : State} {r : RouteTable} (hroute : s.links.route = some r) (h : s.now < s.links.lastSummary + 10000000) : exec .summarySend s = .next s := by
  change execSummarySend s = _
  simp [execSummarySend, hroute, h]

theorem exec_summarySend_spec {s : State} {r : RouteTable} (hroute : s.links.route = some r) (hmay : s.maySendCtx = true) (htime : s.links.lastSummary + 10000000 ≤ s.now) :
    ∃ t : State, exec .summarySend s = .next t ∧ t.links.lastSummary = s.now ∧
      (r.timeRoot = r.module → Tab.get ([], 0) t.links.summaries r.module =
        ((List.range 8).map (fun i => fieldOf (summaryLine r.module s.summaryVals) (16 * i + 8) 8), s.now)) ∧
      (∀ n, r.timeRoot ≠ r.module → s.choosePort r.timeRoot 6 none = some n → (t.port n).nextCtx = (s.port n).nextCtx + 1) ∧
      t.mem = s.mem ∧ t.rooms = s.rooms ∧ t.parts = s.parts := by
  obtain ⟨u, hu⟩ : ∃ u, u = { s with links := { s.links with lastSummary := s.now } } := ⟨_, rfl⟩
  have hports (n : Nat) : u.port n = s.port n := by rw [hu]; rfl
  have hchoose : u.choosePort r.timeRoot 6 none = s.choosePort r.timeRoot 6 none := by rw [hu]; rfl
  have hkept : u.links.lastSummary = s.now ∧ u.links.route = some r ∧ u.mem = s.mem ∧ u.rooms = s.rooms ∧ u.parts = s.parts ∧ u.now = s.now := by
    rw [hu]
    exact ⟨rfl, hroute, rfl, rfl, rfl, rfl⟩
  obtain ⟨hlast, huroute, hmem, hrooms, hparts, hnow⟩ := hkept
  have hcond : (!s.maySendCtx || decide (s.now < s.links.lastSummary + 10000000)) = false := by simp [hmay, not_lt.mpr htime]
  by_cases hroot : r.timeRoot = r.module
  · refine ⟨u.takeSummary r.module (summaryLine r.module s.summaryVals), ?_, ?_⟩
    · change execSummarySend s = _
      simp only [execSummarySend, hroute, hcond, Bool.false_eq_true, if_false, hroot, if_true, hu]
    · have htake : u.takeSummary r.module (summaryLine r.module s.summaryVals) = { u with links := { u.links with summaries := (Tab.set ([], 0) u.links.summaries r.module
          ((List.range 8).map (fun i => fieldOf (summaryLine r.module s.summaryVals) (16 * i + 8) 8), u.now)) } } := by
        simp only [State.takeSummary, huroute, hroot, if_true]
      rw [htake]
      refine ⟨hlast, fun _ => ?_, fun n hn => absurd hroot hn, hmem, hrooms, hparts⟩
      rw [hnow]
      dsimp only
      exact Tab.get_set_same ..
  · obtain ⟨c, hexec⟩ : ∃ c : Ctx, exec .summarySend s = .next (match u.choosePort r.timeRoot 6 none with
        | some n => u.sendOn n (u.laneOut 6 none n) 16 c [summaryLine r.module s.summaryVals]
        | none => u.countDrop (u.dropPort r.timeRoot)) := by
      apply Exists.intro
      change execSummarySend s = _
      unfold execSummarySend
      split
      next hnone => exact absurd (hnone.symm.trans hroute) (by simp)
      next t ht =>
        obtain rfl : t = r := Option.some.inj (ht.symm.trans hroute)
        rw [if_neg (by rw [hcond]; exact Bool.false_ne_true), hu]
        exact congrArg _ (if_neg hroot)
    rw [hexec]
    have hafter {t : State} (h : u.PortTraffic t) : t.links.lastSummary = s.now ∧ t.mem = s.mem ∧ t.rooms = s.rooms ∧ t.parts = s.parts := by
      obtain ⟨htmem, htrooms, htparts, -, -⟩ := h.linksOnly.kept
      obtain ⟨-, -, -, -, -, -, htlast, -⟩ := h.links
      exact ⟨htlast.trans hlast, htmem.trans hmem, htrooms.trans hrooms, htparts.trans hparts⟩
    cases hchosen : u.choosePort r.timeRoot 6 none with
    | some m =>
      obtain ⟨hlast', hmem', hrooms', hparts'⟩ := hafter (u.portTraffic_sendOn m (u.laneOut 6 none m) 16 c [summaryLine r.module s.summaryVals])
      refine ⟨_, rfl, hlast', fun h => absurd h hroot, fun n _ hn => ?_, hmem', hrooms', hparts'⟩
      have hsame : m = n := Option.some.inj ((hchosen.symm.trans hchoose).trans hn)
      rw [← hsame, (u.sendOn_port m (u.laneOut 6 none m) 16 c [summaryLine r.module s.summaryVals]).1, hports]
    | none =>
      obtain ⟨hlast', hmem', hrooms', hparts'⟩ := hafter (u.portTraffic_countDrop (u.dropPort r.timeRoot))
      exact ⟨_, rfl, hlast', fun h => absurd h hroot, fun n _ hn => absurd ((hchosen.symm.trans hchoose).trans hn) (by simp), hmem', hrooms', hparts'⟩

/-- Settles O56: a context is put in the book of arriving contexts, a line runs through `maskWrite`, and all else that a flit does is traffic (`LinksOnly`). -/
theorem flitsAreRoutedPerformedAndAcknowledged : Obligations.FlitsAreRoutedPerformedAndAcknowledged := by
  refine ⟨fun s n vc k c hstate => ?_, fun s n vc => ⟨fun h => if_neg (by omega), fun h => if_pos h⟩, fun s n vc k line data hstate =>
      ⟨exec_dataFlit_waits, exec_dataFlit_none hstate, fun e h hstray hwait => exec_dataFlit_stray hstate h hstray hwait,
        fun e room h hlive hvc hline htime hfwd hspace hok hdata hroom => exec_dataFlit_attic hstate h hlive hvc hline htime hfwd hspace hok hdata hroom,
        fun e h hlive hvc hline htime hfwd hspace hwait hok => exec_dataFlit_refused hstate h hlive hvc hline htime hfwd hspace hwait hok,
        fun e m q v h hlive hvc hline htime hfwd hm hretired hidle => exec_dataFlit_passes hstate h hlive hvc hline htime hfwd hm hretired hidle⟩,
    fun s n vc k e h hvc hfwd hun => exec_ackEntryTimeout_spec h hvc hfwd hun, exec_ackFlitTimeout_spec, fun s n vc origin m e hstate hown => ⟨fun hnone => ?_, fun x hx => ?_⟩,
    fun s n l h w hstate hlane => exec_marginSweep_spec h w hstate hlane,
    fun s r hroute => ⟨exec_summarySend_early hroute, fun hmay htime => exec_summarySend_spec hroute hmay htime⟩⟩
  · obtain ⟨hunlocked, hlate, hdrop⟩ := exec_contextFlit_dropped (n := n) (vc := vc) (k := k) (c := c) hstate
    exact ⟨hunlocked, hlate, hdrop, exec_contextFlit_own hstate, fun m hlock hown hhops htime hport => exec_contextFlit_transit hstate hlock hown hhops htime hport⟩
  · rw [exec_ackFlit_own hstate hown, State.takeEntry_of_none]
    exact (State.txOf_congr (s.portTraffic_freeBuffer n vc).links.2.2.1 e).trans hnone
  · exact exec_ackFlit_entry hstate hown hx origin

end Sys2Proof.Machine
end

section
/-! PROOFS. Mirrored pairs (18): what the end of a pair passes through, its formation, its messages, the loss of the peer (R433 to R452). -/

namespace Sys2Proof.Machine

/-! ## What a pair's going on alone keeps -/

/-- A partition as its pair sees it: pair state, side, key, the MIRROR_SET that waits, and rooms. -/
def Part.twin (x : Part) : PairState × Bool × Option (BitVec 256) × Option (Nat × Nat) × List Nat :=
  (x.pair.state, x.pair.leader, x.pair.key, x.pair.wait, x.rooms)

/-- No partition's pair state, side, key, waiting command or rooms differ. -/
structure State.Twins (s t : State) : Prop where
  twin : ∀ p, (t.part p).twin = (s.part p).twin

theorem State.Twins.refl (s : State) : s.Twins s := ⟨fun _ => rfl⟩

theorem State.Twins.trans {s t u : State} (h : s.Twins t) (h' : t.Twins u) : s.Twins u := ⟨fun p => (h'.twin p).trans (h.twin p)⟩

theorem State.Twins.of_parts {s t : State} (h : t.parts = s.parts) : s.Twins t := ⟨fun p => congrArg (fun l : Tab Part => (Tab.get {} l p : Part).twin) h⟩

theorem State.twins_setPart {s : State} {p : Nat} {x : Part} (h : x.twin = (s.part p).twin) : s.Twins (s.setPart p x) := by
  refine ⟨fun q => ?_⟩
  rw [State.part_setPart]
  split
  next hq => exact h.trans (congrArg (fun k => (s.part k).twin) hq.symm)
  · rfl

theorem State.cellarWrite_parts (s : State) (r off : Nat) (data : List Byte) : (s.cellarWrite r off data).1.parts = s.parts := by
  rw [← State.cellarWrite_rest]
  rfl

theorem State.mergeLine_parts (s : State) (r off : Nat) (data : List Byte) (be : List Bool) : (s.mergeLine r off data be).parts = s.parts := by
  have hread (bs : List Nat) : (s.mergeRead r bs).parts = s.parts := by
    unfold State.mergeRead
    split
    · rfl
    · rfl
  unfold State.mergeLine
  split
  · rfl
  · extract_lets covered bs t old
    split
    · exact hread bs
    · exact hread bs

theorem State.writeSpan_parts (s : State) (room : Nat) (cellar : Bool) (off : Nat) (data : List Byte) : (s.writeSpan room cellar off data).parts = s.parts := by
  unfold State.writeSpan
  split
  · exact s.cellarWrite_parts room off data
  · rfl

theorem State.maskWrite_parts (s : State) (room : Nat) (cellar : Bool) (off : Nat) (mask : BitVec 128) (data : List Byte) :
    (s.maskWrite room cellar off mask data).parts = s.parts := by
  unfold State.maskWrite
  split
  · split
    · exact s.writeSpan_parts ..
    · exact s.mergeLine_parts ..
  · split
    · rfl
    · obtain ⟨mem, hfold, -⟩ := s.maskedBytes_spec room off mask data 128
      rw [State.maskAttic, hfold]
      rfl

theorem State.twins_countFlag (s : State) (c : Ctx) : s.Twins (s.countFlag c) := by
  unfold State.countFlag
  extract_lets p key id
  split
  · exact .refl s
  next room t x _ =>
    have ht : s.Twins t := State.twins_setPart (p := c.dstPart) (x := { p with flagSeen := Tab.set none p.flagSeen key (some id) }) rfl
    exact ht.trans (.of_parts rfl)

theorem State.twins_remoteLine (s : State) (arrival : Option Nat) (c : Ctx) (line : Nat) (data : List Byte) : s.Twins (s.remoteLine arrival c line data) := by
  unfold State.remoteLine
  extract_lets off p t u room whole
  split
  · exact .of_parts rfl
  · have ht : s.Twins t := .of_parts (s.maskWrite_parts ..)
    have hu : s.Twins u := by
      dsimp only [u]
      split
      · exact ht.trans (t.twins_countFlag c)
      · exact ht
    split
    · exact hu.trans (.of_parts rfl)
    · exact hu

theorem State.twins_sendContext (s : State) (p room chan no : Nat) (c : Ctx) (lines : List (List Byte)) : s.Twins (s.sendContext p room chan no c lines).1 := by
  unfold State.sendContext
  extract_lets mask id c1 l t
  split
  · exact List.foldlRecOn (motive := s.Twins) _ _ (.refl s) fun t ht e _ => ht.trans (t.twins_remoteLine ..)
  · have ht : s.Twins t := .of_parts rfl
    split
    · exact ht.trans (.of_parts (t.portTraffic_sendOn ..).linksOnly.kept.2.2.1)
    · exact ht.trans (.of_parts (t.portTraffic_countDrop ..).linksOnly.kept.2.2.1)

theorem State.twins_setRoom (s : State) (r : Nat) (x : Room) : s.Twins (s.setRoom r x) := .of_parts rfl

theorem State.twins_releaseHeld (s : State) (p room chan : Nat) : s.Twins (s.releaseHeld p room chan) := by
  unfold State.releaseHeld
  refine List.foldlRecOn (motive := s.Twins) _ _ (.refl s) fun t ht i _ => ?_
  split
  · split
    · extract_lets clear r x hh
      exact (ht.trans (t.twins_sendContext ..)).trans (State.twins_setRoom ..)
    · exact ht
  · exact ht

theorem State.twins_sendKept (s : State) (p room : Nat) : s.Twins (s.sendKept p room) := by
  unfold State.sendKept
  refine List.foldlRecOn (motive := s.Twins) _ _ (.refl s) fun t ht c _ => ?_
  refine List.foldlRecOn (motive := s.Twins) _ _ ht fun u hu i _ => ?_
  split
  · extract_lets r y h
    have hr : s.Twins r.1 := List.foldlRecOn (motive := fun a : State × Nat => s.Twins a.1) i.kept _ hu fun a ha k _ => ha.trans (a.1.twins_sendContext ..)
    exact hr.trans (State.twins_setRoom ..)
  · exact hu

@[simp] theorem Part.passed_twin (x : Part) (room : Nat) : (x.passed room).twin = x.twin := by
  unfold Part.passed
  extract_lets pend y
  split
  · split <;> rfl
  · rfl

theorem State.twins_finishBlock (s : State) (p room : Nat) : s.Twins (s.finishBlock p room) := by
  unfold State.finishBlock
  split
  · exact .refl s
  next b hb =>
    extract_lets s0 x q s1 s2 i q2 n pairing s3 y fresh s4
    have h0 : s.Twins s0 := .of_parts (by dsimp only [s0]; rw [State.flushExpiries_rest hb]; rfl)
    have h1 : s0.Twins s1 := by
      dsimp only [s1]
      split
      · refine State.Twins.trans (.of_parts (s0.cellarWrite_parts ..)) (State.twins_setPart ?_)
        exact ((State.Twins.of_parts (s0.cellarWrite_parts ..)).twin p).symm
      · exact .refl s0
    have h2 : s1.Twins s2 := by
      dsimp only [s2]
      split
      · exact .of_parts rfl
      · exact .refl s1
    have h3 : s2.Twins s3 := by
      refine State.twins_setPart ?_
      split
      · rfl
      · rfl
    have h4 : s3.Twins s4 := State.twins_setRoom ..
    have h5 : s4.Twins (s4.raise (48 + room)) := .of_parts (by rw [State.raise_rest])
    refine ((((h0.trans h1).trans h2).trans h3).trans h4).trans (h5.trans ?_)
    rw [State.boundary_rest]
    exact (State.twins_setPart (((s4.raise (48 + room)).part p).passed_twin room)).trans (.of_parts rfl)

theorem State.twins_tryFinish (s : State) (p room : Nat) : s.Twins (s.tryFinish p room) := by
  unfold State.tryFinish
  extract_lets x
  split
  · exact s.twins_finishBlock p room
  · exact .refl s

theorem State.twins_agree (s : State) (p room : Nat) : s.Twins (s.agree p room) := by
  unfold State.agree
  extract_lets x free y t u
  have ht : s.Twins t := State.twins_setRoom ..
  have hu : t.Twins u := by
    dsimp only [u]
    split
    · exact .refl t
    · exact List.foldlRecOn (motive := t.Twins) _ _ (.refl t) fun v hv c _ => hv.trans (v.twins_releaseHeld ..)
  exact (ht.trans hu).trans (State.twins_tryFinish ..)

/-! ## The pair ends (R435, R436, R448) -/

/-- The pair state of a partition changes: nothing else of it but its side and its key, and no memory, room or other partition. -/
theorem State.setPair_spec (s : State) (p : Nat) (st : PairState) (leader : Bool) :
    (∃ fns, s.setPair p st leader = { (s.setPart p ((s.setPair p st leader).part p)) with fns := fns }) ∧
    (s.setPair p st leader).part p = { s.part p with pair := { (s.part p).pair with
      state := st, leader := leader, key := match st with | .syncing => (s.part p).pair.key | .dual => (s.part p).pair.key | .standby => (s.part p).pair.key | _ => none } } := by
  obtain ⟨x, hx⟩ : ∃ x : Part, x = { s.part p with pair := { (s.part p).pair with
      state := st, leader := leader, key := match st with | .syncing => (s.part p).pair.key | .dual => (s.part p).pair.key | .standby => (s.part p).pair.key | _ => none } } := ⟨_, rfl⟩
  obtain ⟨⟨fns, hrest⟩, -⟩ := (s.setPart p x).partChanged_spec p
  have heq : s.setPair p st leader = { s.setPart p x with fns := fns } := by rw [← hrest, hx]; rfl
  have hpart : (s.setPair p st leader).part p = x := by
    rw [heq]
    exact s.part_setPart_same p x
  rw [hpart]
  exact ⟨⟨fns, heq⟩, hx⟩

/-- A twin that goes on alone: it is SOLO and leads, without a key, and the command that waits and its rooms are as they were. -/
theorem State.goSolo_twin (s : State) (p : Nat) : ((s.goSolo p).part p).twin = (.solo, true, none, (s.part p).pair.wait, (s.part p).rooms) := by
  unfold State.goSolo
  extract_lets x t u
  have ht : (t.part p).twin = (.solo, true, none, (s.part p).pair.wait, (s.part p).rooms) := by
    obtain ⟨-, hpart⟩ := s.setPair_spec p .solo true
    exact (congrArg Part.twin hpart).trans rfl
  have hu : t.Twins u := by
    dsimp only [u]
    split
    · exact .refl t
    · exact List.foldlRecOn (motive := t.Twins) _ _ (.refl t) fun v hv r _ => hv.trans (v.twins_sendKept p r)
  refine Eq.trans (State.Twins.twin ?_ p) ((hu.twin p).trans ht)
  have hagree (v : State) (hv : u.Twins v) (r : Nat) (c : Bool) : u.Twins (if c = true then v.agree p r else v) := by
    split
    · exact hv.trans (v.twins_agree p r)
    · exact hv
  exact List.foldlRecOn (motive := u.Twins) _ _ (.refl u) fun v hv r _ => hagree v hv r _

theorem State.endWaiting_kept (s : State) (f k : Nat) (want : Req → Bool) (status progress total : Nat) (resp : List Byte) :
    (s.endWaiting f k want status progress total resp).parts = s.parts ∧ (s.endWaiting f k want status progress total resp).mem = s.mem ∧
    (s.endWaiting f k want status progress total resp).rooms = s.rooms := by
  unfold State.endWaiting
  extract_lets x
  split
  · obtain ⟨_, hrest, -⟩ := s.endCmd_spec f k status progress total resp
    rw [hrest]
    exact ⟨rfl, rfl, rfl⟩
  · split
    · exact ⟨rfl, rfl, rfl⟩
    · exact ⟨rfl, rfl, rfl⟩

/-- A MIRROR_SET that still runs is told that its pair ends: the partition waits for none, and else is as it was. -/
theorem State.dropWait_spec (s : State) (p : Nat) : (s.dropWait p).mem = s.mem ∧ (s.dropWait p).rooms = s.rooms ∧
    (s.dropWait p).part p = { s.part p with pair := { (s.part p).pair with wait := none } } := by
  unfold State.dropWait
  split
  next slot at_ h =>
    extract_lets x
    obtain ⟨hparts, hmem, hrooms⟩ := (s.setPart p { x with pair := { x.pair with wait := none } }).endWaiting_kept 0 slot (isOp 0x0104) stFailed (progressFraction 0) 0 []
    refine ⟨hmem, hrooms, ?_⟩
    rw [State.part, hparts]
    exact s.part_setPart_same p _
  next h => exact ⟨rfl, rfl, by rw [← h]⟩

theorem State.losePeer_lost (s : State) (p : Nat) : s.PeerLost (s.losePeer p) p := by
  obtain ⟨hmem, hrooms, hpart⟩ := s.dropWait_spec p
  unfold State.losePeer
  extract_lets x t
  split
  next hlead =>
    have htwin := t.goSolo_twin p
    have hwait : (t.part p).pair.wait = none ∧ (t.part p).rooms = (s.part p).rooms := by
      dsimp only [t]
      rw [hpart]
      exact ⟨rfl, rfl⟩
    rw [hwait.1, hwait.2] at htwin
    simp only [Part.twin, Prod.mk.injEq] at htwin
    obtain ⟨hstate, hleader, hkey, hnone, hsame⟩ := htwin
    exact ⟨fun _ => ⟨hstate, hleader⟩, fun hno => absurd (hlead.symm.trans hno) (by decide), hkey, hnone, hsame⟩
  next hlead =>
    obtain ⟨⟨_, hrest⟩, hset⟩ := t.setPair_spec p .frozen false
    have htpart : t.part p = { s.part p with pair := { (s.part p).pair with wait := none } } := hpart
    rw [htpart] at hset
    refine ⟨fun hyes => absurd hyes hlead, fun _ => ⟨by rw [hset], ?_, ?_⟩, by rw [hset], by rw [hset], by rw [hset]⟩
    · rw [hrest]; exact hmem
    · rw [hrest]; exact hrooms

/-! ## MIRROR_SET (R433 to R436) -/

theorem Part.wait_none {x : Part} (h : x.pair.wait = none) : ({ x with pair := { x.pair with wait := none } } : Part) = x := by rw [← h]

/-- The partition waits for the counterpart of the MIRROR_SET in slot `k`. -/
def Part.waiting (x : Part) (k now : Nat) : Part := { x with pair := { x.pair with wait := some (k, now) } }

/-- What a MIRROR_SET does while none waits and its checks pass. -/
def State.mirrorEnd (s : State) (k : Nat) (q : Req) (p m : Nat) (peer : PeerAnswer) : CmdEnd :=
  if m = 0 then .ended (s.endPair p) 0 [] (progressFraction 10000) 0
  else match peer with
    | .mismatch => .fail (s.setPart p (s.part p)) 4
    | .silent => .waits (s.setPart p ((s.part p).waiting k s.now))
    | .matching holds =>
      if (s.part p).holdsState && holds then .fail (s.setPart p (s.part p)) 4
      else if s.sec.drbg ≠ .running then .waits (s.setPart p ((s.part p).waiting k s.now))
      else .waits (s.formPair q k holds)

/-- The effect of a command that a slot runs depends on the slot's request alone. -/
theorem State.runCmd_congr {s : State} {f k op : Nat} (h : s.runs f k op) {body body' : Req → CmdEnd} (hbody : body (s.cmd f k) = body' (s.cmd f k)) :
    s.runCmd f k (isOp op) body = s.runCmd f k (isOp op) body' := by
  obtain ⟨hrun, hop⟩ := State.running_isOp_of_runs h
  unfold State.cmd at hbody hop
  simp [State.runCmd, hrun, hop, hbody]

section
variable {s : State} {f : FnId} {k : SlotId} {a : PeerAnswer} {p m : Nat} (hruns : s.runs f k 0x0104) (hp : p = (s.cmd f k).field 0 1)
  (hm : m = (s.cmd f k).field 1 1) (hcheck : checkMirror s false (s.cmd f k) = 0) (hwait : (s.part p).pair.wait = none)
include hruns hp hm hcheck hwait

theorem exec_mirrorSet_eq (hunpaired : m = 0 ∨ (s.part p).paired = false) :
    exec (.mirrorSet f k a) s = .next (s.runCmd f k (isOp 0x0104) (fun _ => s.mirrorEnd k (s.cmd f k) p m a)) := by
  have hnone := Part.wait_none hwait
  refine congrArg _ (State.runCmd_congr hruns ?_)
  dsimp only
  simp only [← hp, ← hm, hwait, hcheck, Bool.false_and, Bool.false_eq_true, if_false, ne_eq, not_true_eq_false, stOk, hnone, State.mirrorEnd]
  rcases hunpaired with h0 | hunpaired
  · simp only [h0, if_true]
  · simp only [hunpaired, Bool.false_eq_true, if_false]
    cases a <;> rfl

theorem exec_mirrorSet_zero (h0 : m = 0) :
    ((s.part p).paired = false → (s.part p).pair.state ≠ .frozen →
      exec (.mirrorSet f k a) s = .next (s.endCmd f k 0 (progressFraction 10000) 0 [])) ∧
    ((s.part p).paired = true → ∃ u : State, exec (.mirrorSet f k a) s = .next (u.endCmd f k 0 (progressFraction 10000) 0 []) ∧
      (u.part p).pair.state = .solo ∧ (u.part p).pair.leader = true ∧ (u.part p).pair.key = none ∧ (u.part p).rooms = (s.part p).rooms) := by
  have hended : exec (.mirrorSet f k a) s = .next ((s.endPair p).endCmd f k 0 (progressFraction 10000) 0 []) := by
    rw [exec_mirrorSet_eq hruns hp hm hcheck hwait (.inl h0)]
    exact congrArg _ (State.runCmd_of_ended hruns (if_pos h0))
  rw [hended]
  refine ⟨fun hunpaired hthawed => ?_, fun hpaired => ⟨s.endPair p, rfl, ?_⟩⟩
  · simp [State.endPair, hunpaired, hthawed]
  · obtain ⟨u, hu⟩ : ∃ u, u = (s.tellTwin p 7 []).dropWait p := ⟨_, rfl⟩
    obtain ⟨-, -, hdrop⟩ := (s.tellTwin p 7 []).dropWait_spec p
    have hrooms : (u.part p).rooms = (s.part p).rooms := by
      rw [hu, hdrop]
      rfl
    have hsolo := u.goSolo_twin p
    have heq : s.endPair p = u.goSolo p := by simp only [State.endPair, hpaired, if_true, hu]
    rw [hrooms] at hsolo
    simp only [Part.twin, Prod.mk.injEq] at hsolo
    obtain ⟨hstate, hleader, hkey, -, hsame⟩ := hsolo
    rw [heq]
    exact ⟨hstate, hleader, hkey, hsame⟩

section
variable (h0 : m ≠ 0) (hunpaired : (s.part p).paired = false)
include h0 hunpaired

theorem exec_mirrorSet_silent (ha : a = .silent) : exec (.mirrorSet f k a) s = .next (s.setPart p ((s.part p).waiting k s.now)) := by
  rw [exec_mirrorSet_eq hruns hp hm hcheck hwait (.inr hunpaired)]
  refine congrArg _ (State.runCmd_of_waits hruns ?_)
  simp only [State.mirrorEnd, h0, if_false, ha]

theorem exec_mirrorSet_unfit (ha : a = .mismatch ∨ a = .matching true ∧ (s.part p).holdsState = true) :
    exec (.mirrorSet f k a) s = .next ((s.setPart p (s.part p)).endCmd f k 4 (((s.fn f).slot k).field 20 4) (((s.fn f).slot k).field 24 4) []) := by
  rw [exec_mirrorSet_eq hruns hp hm hcheck hwait (.inr hunpaired)]
  refine congrArg _ (State.runCmd_of_fail hruns ?_ (by decide))
  rcases ha with ha | ⟨ha, hholds⟩
  · simp only [State.mirrorEnd, h0, if_false, ha]
  · simp only [State.mirrorEnd, h0, if_false, ha, hholds, Bool.and_self, if_true]

variable {h : Bool} (ha : a = .matching h) (hone : ((s.part p).holdsState && h) = false)
include ha hone

theorem exec_mirrorSet_later (hdrbg : s.sec.drbg ≠ .running) : exec (.mirrorSet f k a) s = .next (s.setPart p ((s.part p).waiting k s.now)) := by
  rw [exec_mirrorSet_eq hruns hp hm hcheck hwait (.inr hunpaired)]
  refine congrArg _ (State.runCmd_of_waits hruns ?_)
  simp [State.mirrorEnd, h0, ha, hone, hdrbg]

theorem exec_mirrorSet_forms (hdrbg : s.sec.drbg = .running) : exec (.mirrorSet f k a) s = .next (s.formPair (s.cmd f k) k h) := by
  rw [exec_mirrorSet_eq hruns hp hm hcheck hwait (.inr hunpaired)]
  refine congrArg _ (State.runCmd_of_waits hruns ?_)
  simp [State.mirrorEnd, h0, ha, hone, hdrbg]

end
end

/-- The pairing that a MIRROR_SET makes (R434 to R436). -/
def State.newPair (s : State) (q : Req) (k p : Nat) (h : Bool) : Pairing :=
  { state := .syncing, leader := if (s.part p).holdsState || h then (s.part p).holdsState else decide (s.ownModule.getD 0 < q.field 2 2)
    mode := q.field 1 1, peerModule := q.field 2 2, peerPart := q.field 4 1, wait := some (k, s.now)
    lastMsg := s.now, lastBeat := s.now, key := some (Config.pairKey s.free), diverged := (s.part p).pair.diverged }

theorem State.formPair_spec (s : State) (q : Req) (k p : Nat) (h : Bool) (hp : p = q.field 0 1) :
    (s.formPair q k h).part p = { s.part p with pair := s.newPair q k p h } ∧ (∀ r, r ≠ p → (s.formPair q k h).part r = s.part r) ∧
    (s.formPair q k h).mem = s.mem ∧ (s.formPair q k h).rooms = s.rooms ∧ ∀ f j, ((s.formPair q k h).fn f).slot j = (s.fn f).slot j := by
  obtain ⟨u, hu⟩ : ∃ u, u = ((s.setPart p { s.part p with pair := s.newPair q k p h }).generate (Config.drbgDrawn s.free)).draw 1 := ⟨_, rfl⟩
  have heq : s.formPair q k h = u.partChanged p := by rw [hu, hp]; rfl
  obtain ⟨⟨fns, hrest⟩, hfn, -⟩ := u.partChanged_spec p
  have huparts : u.parts = (s.setPart p { s.part p with pair := s.newPair q k p h }).parts ∧ u.mem = s.mem ∧ u.rooms = s.rooms ∧ u.fns = s.fns := by
    rw [hu, State.generate_rest]
    exact ⟨rfl, rfl, rfl, rfl⟩
  obtain ⟨hparts, hmem, hrooms, hfns⟩ := huparts
  have hpart (r : Nat) : (s.formPair q k h).part r = if r = p then { s.part p with pair := s.newPair q k p h } else s.part r := by
    rw [heq, hrest]
    refine Eq.trans ?_ (s.part_setPart p r _)
    exact congrArg (fun l : Tab Part => (Tab.get {} l r : Part)) hparts
  refine ⟨(hpart p).trans (if_pos rfl), fun r hr => (hpart r).trans (if_neg hr), by rw [heq, hrest]; exact hmem, by rw [heq, hrest]; exact hrooms, fun f j => ?_⟩
  obtain ⟨_, _, hchanged⟩ := hfn f
  rw [heq, hchanged]
  have hsame : u.fn f = s.fn f := by rw [State.fn, hfns]; rfl
  rw [hsame]
  rfl

theorem State.formPair_leads (s : State) (q : Req) (k p : Nat) {h : Bool} (hone : ((s.part p).holdsState && h) = false) :
    (s.newPair q k p h).leader = true ↔ (s.part p).holdsState = true ∨ h = false ∧ s.ownModule.getD 0 < q.field 2 2 := by
  unfold State.newPair
  cases hholds : (s.part p).holdsState
  · cases h <;> simp
  · cases h
    · simp
    · simp [hholds] at hone

theorem exec_mirrorSetTimeout_spec {s : State} {p : PartId} {k at_ : Nat} (hwait : (s.part p).pair.wait = some (k, at_)) (hunpaired : (s.part p).paired = false) :
    (s.now < at_ + 10000000000 → exec (.mirrorSetTimeout p) s = .next s) ∧
    (at_ + 10000000000 ≤ s.now → exec (.mirrorSetTimeout p) s = .next ((s.setPart p { s.part p with pair := { (s.part p).pair with wait := none } }).endWaiting 0 k (isOp 0x0104)
      6 (progressFraction 0) 0 [])) := by
  have hexec : exec (.mirrorSetTimeout p) s = execMirrorSetTimeout p s := rfl
  rw [hexec]
  have hten : 10 * secondNs = 10000000000 := rfl
  refine ⟨fun h => ?_, fun h => ?_⟩
  · simp [execMirrorSetTimeout, hwait, hten, not_le.mpr h]
  · simp [execMirrorSetTimeout, hwait, hten, hunpaired, h, State.dropWait, stFailed]

/-! ## Messages (R435, R438, R444) -/

theorem Part.paired_of_follower {x : Part} (h : x.isFollower = true) : x.paired = true := by
  unfold Part.isFollower at h
  rw [Bool.and_eq_true] at h
  exact h.2

theorem exec_unpaired {s : State} {p : PartId} (h : (s.part p).paired = false) : exec (.end_ p) s = .next s ∧ (∀ op b, exec (.command p op b) s = .next s) ∧
    (∀ st a, exec (.heartbeat p st a) s = .next s) ∧ exec (.peerLoss p) s = .next s := by
  refine ⟨?_, fun op b => ?_, fun st a => ?_, ?_⟩
  · change execEnd p s = _
    simp [execEnd, h]
  · change execCommand p op b s = _
    simp [execCommand, h]
  · change execHeartbeat p st a s = _
    simp [execHeartbeat, h]
  · change execPeerLoss p s = _
    simp [execPeerLoss, h]

theorem State.heard_spec (s : State) (p : Nat) : (s.heard p).mem = s.mem ∧ (s.heard p).rooms = s.rooms ∧ (s.heard p).hbm = s.hbm ∧ (s.heard p).fns = s.fns ∧ (s.heard p).now = s.now ∧
    (s.heard p).part p = { s.part p with pair := { (s.part p).pair with lastMsg := s.now } } ∧ ∀ q, q ≠ p → (s.heard p).part q = s.part q :=
  ⟨rfl, rfl, rfl, rfl, rfl, s.part_setPart_same p _, fun q hq => (s.part_setPart p q _).trans (if_neg hq)⟩

/-- A follower runs its leader's command (R438). -/
theorem exec_command_follower {s : State} {p : PartId} {op : Nat} (h : (s.part p).isFollower = true) (hop : op ≠ 0x0104) (b : List Byte) :
    exec (.command p op b) s = .next ((s.heard p).applyCommand p op b) := by
  change execCommand p op b s = _
  simp [execCommand, h, Part.paired_of_follower h, hop]

/-- The follower's firmware answers what the command's own row answers in the state that holds the request. -/
theorem exec_command_relayed {s : State} {p : PartId} {op : Nat} {b : List Byte} (h : (s.part p).isFollower = true) (hop : op ≠ 0x0104) {o : Host.Outcome State Fault Refusal}
    (happly : (s.heard p).applyCommand p op b = nextOf (s.heard p) o) {t : State} (ho : o = .next t) : exec (.command p op b) s = o := by
  rw [exec_command_follower h hop, happly, ho]
  rfl

theorem exec_commands_spec {s : State} {p : PartId} {b : List Byte} {k : SlotId} (h : (s.part p).isFollower = true) (hk : k = s.idleSlot (p.val + 1)) :
    exec (.command p 0x0201 b) s = exec (.keysetRegister p.succ k) (s.relayed p 0x0201 b) ∧
    exec (.command p 0x0202 b) s = exec (.keysetActivate p.succ k) (s.relayed p 0x0202 b) ∧
    exec (.command p 0x0203 b) s = exec (.keysetDeactivate p.succ k) (s.relayed p 0x0203 b) ∧
    exec (.command p 0x0204 b) s = exec (.keysetRelease p.succ k) (s.relayed p 0x0204 b) ∧
    exec (.command p 0x0211 b) s = exec (.keyRegister p.succ k) (s.relayed p 0x0211 b) ∧
    exec (.command p 0x0212 b) s = exec (.keyRemove p.succ k) (s.relayed p 0x0212 b) ∧
    exec (.command p 0x0213 b) s = exec (.lutKeyRegister p.succ k) (s.relayed p 0x0213 b) ∧
    exec (.command p 0x0301 b) s = exec (.programLoad p.succ k) (s.relayed p 0x0301 b) ∧
    exec (.command p 0x0302 b) s = exec (.programUnload p.succ k) (s.relayed p 0x0302 b) ∧
    exec (.command p 0x0303 b) s = exec (.jobRingSet p.succ k) (s.relayed p 0x0303 b) := by
  subst hk
  refine ⟨?_, ?_, ?_, ?_, ?_, ?_, ?_, ?_, ?_, ?_⟩
  · exact exec_command_relayed h (by decide) (o := execKeysetRegister p.succ (s.idleSlot (p.val + 1)) (s.relayed p 0x0201 b)) (by simp only [State.applyCommand]; rfl) rfl
  · exact exec_command_relayed h (by decide) (o := execKeysetActivate p.succ (s.idleSlot (p.val + 1)) (s.relayed p 0x0202 b)) (by simp only [State.applyCommand]; rfl) rfl
  · exact exec_command_relayed h (by decide) (o := execKeysetDeactivate p.succ (s.idleSlot (p.val + 1)) (s.relayed p 0x0203 b)) (by simp only [State.applyCommand]; rfl) rfl
  · exact exec_command_relayed h (by decide) (o := execKeysetRelease p.succ (s.idleSlot (p.val + 1)) (s.relayed p 0x0204 b)) (by simp only [State.applyCommand]; rfl) rfl
  · exact exec_command_relayed h (by decide) (o := execKeyRegister p.succ (s.idleSlot (p.val + 1)) (s.relayed p 0x0211 b)) (by simp only [State.applyCommand]; rfl) rfl
  · exact exec_command_relayed h (by decide) (o := execKeyRemove p.succ (s.idleSlot (p.val + 1)) (s.relayed p 0x0212 b)) (by simp only [State.applyCommand]; rfl) rfl
  · exact exec_command_relayed h (by decide) (o := execLutKeyRegister p.succ (s.idleSlot (p.val + 1)) (s.relayed p 0x0213 b)) (by simp only [State.applyCommand]; rfl) rfl
  · exact exec_command_relayed h (by decide) (o := execProgramLoad p.succ (s.idleSlot (p.val + 1)) (s.relayed p 0x0301 b)) (by simp only [State.applyCommand]; rfl) rfl
  · exact exec_command_relayed h (by decide) (o := execProgramUnload p.succ (s.idleSlot (p.val + 1)) (s.relayed p 0x0302 b)) (by simp only [State.applyCommand]; rfl) rfl
  · exact exec_command_relayed h (by decide) (o := execJobRingSet p.succ (s.idleSlot (p.val + 1)) (s.relayed p 0x0303 b)) (by simp only [State.applyCommand]; rfl) rfl

/-- A mode switch that the twin asks for (R435). -/
theorem exec_command_mode {s : State} {p : PartId} {b : List Byte} {m : Nat} (h : (s.part p).paired = true) (hm : m = fieldOf b 0 1) (hmode : m = 1 ∨ m = 2)
    (hsync : (s.part p).pair.state ≠ .syncing) :
    ∃ t : State, exec (.command p 0x0104 b) s = .next t ∧ t.mem = s.mem ∧ t.rooms = s.rooms ∧ (t.part p).pair.lastMsg = s.now ∧
      (m ≠ (s.part p).pair.mode → (s.part p).job.isSome = true → (t.part p).pair.switchTo = some m ∧ (t.part p).pair.mode = (s.part p).pair.mode) ∧
      (m ≠ (s.part p).pair.mode → (s.part p).job = none → (t.part p).pair.switchTo = none ∧ (t.part p).pair.mode = m ∧
        (t.part p).pair.state = if m = 1 then .dual else .standby) := by
  obtain ⟨u, hu⟩ : ∃ u, u = s.heard p := ⟨_, rfl⟩
  obtain ⟨hmem, hrooms, -, -, -, hpart, -⟩ := s.heard_spec p
  rw [← hu] at hmem hrooms hpart
  have hexec : exec (.command p 0x0104 b) s = .next (u.switchMode p m) := by
    change execCommand p 0x0104 b s = _
    have hbit : (decide (fieldOf b 0 1 = 1) || decide (fieldOf b 0 1 = 2)) = true := by simpa [← hm] using hmode
    simp only [execCommand, h, Bool.not_true, Bool.false_eq_true, if_false, if_true, hbit, hm, hu]
  have hstate : (u.part p).pair.state ≠ .syncing := by rw [hpart]; exact hsync
  have hlast : (u.part p).pair.lastMsg = s.now := by rw [hpart]
  have hsame : (u.part p).pair.mode = (s.part p).pair.mode ∧ (u.part p).job = (s.part p).job := by rw [hpart]; exact ⟨rfl, rfl⟩
  have hupaired : ((u.part p).pair.state == .dual || (u.part p).pair.state == .standby) = true := by
    have hthree : (u.part p).paired = true := by rw [hpart]; exact h
    unfold Part.paired at hthree
    revert hthree hstate
    cases (u.part p).pair.state <;> simp
  refine ⟨u.switchMode p m, hexec, ?_⟩
  unfold State.switchMode
  extract_lets x y
  rw [if_neg hstate]
  split
  next heq =>
    rw [State.part_setPart_same]
    exact ⟨hmem, hrooms, hlast, fun hne => absurd (heq.trans hsame.1) hne, fun hne => absurd (heq.trans hsame.1) hne⟩
  next v hne =>
    have hvpart : v.part p = { x with pair := { x.pair with switchTo := some m } } := u.part_setPart_same p _
    have hvkept : v.mem = s.mem ∧ v.rooms = s.rooms := ⟨hmem, hrooms⟩
    clear_value v
    split
    next hnone =>
      have hjob : (s.part p).job = none := hsame.2.symm.trans (Option.isNone_iff_eq_none.mp hnone)
      obtain ⟨w, hw⟩ : ∃ w, w = v.setPart p { v.part p with pair := { (v.part p).pair with switchTo := none, mode := m, state := if m = 1 then .dual else .standby } } := ⟨_, rfl⟩
      have hbound : v.jobBoundary p = w.partChanged p := by
        have hvswitch : (v.part p).pair.switchTo = some m ∧ ((v.part p).pair.state == .dual || (v.part p).pair.state == .standby) = true := by
          rw [hvpart]
          exact ⟨rfl, hupaired⟩
        rw [hw]
        simp only [State.jobBoundary, hvswitch.1, hvswitch.2]
      obtain ⟨⟨fns, hrest⟩, -⟩ := w.partChanged_spec p
      have hwpart : w.part p = { v.part p with pair := { (v.part p).pair with switchTo := none, mode := m, state := if m = 1 then .dual else .standby } } := by
        rw [hw]
        exact v.part_setPart_same p _
      have hgoal : (v.jobBoundary p).part p = w.part p ∧ (v.jobBoundary p).mem = s.mem ∧ (v.jobBoundary p).rooms = s.rooms := by
        rw [hbound, hrest, hw]
        exact ⟨rfl, hvkept⟩
      rw [hgoal.1, hgoal.2.1, hgoal.2.2, hwpart]
      refine ⟨rfl, rfl, ?_, fun _ hsome => absurd hsome (by rw [hjob]; decide), fun _ _ => ⟨rfl, rfl, rfl⟩⟩
      rw [hvpart]
      exact hlast
    next hsome =>
      rw [hvpart]
      refine ⟨hvkept.1, hvkept.2, hlast, fun _ _ => ⟨rfl, hsame.1⟩, fun _ hnone => absurd ?_ hsome⟩
      exact Option.isNone_iff_eq_none.mpr (hsame.2.trans hnone)

/-! ## Lines, host reads and echoes (R311, R438, R444) -/

theorem exec_input_line {s : State} {p : PartId} {room off : Nat} (fl : Option (Fin 64)) {data : List Byte} (h : (s.part p).isFollower = true)
    (hroom : room < (s.part p).rooms.length) (hoff : off + data.length ≤ atticBytes) :
    ∃ t : State, exec (.input p (.line room false off fl data)) s = .next t ∧ t.mem.cellar = s.mem.cellar ∧
      (∀ i, i < data.length → Mem.byte t.mem.attic (atticKey ((s.part p).roomAt room) (off + i)) = data.getD i 0) ∧
      (∀ x, (∀ i, i < data.length → x ≠ atticKey ((s.part p).roomAt room) (off + i)) → Mem.byte t.mem.attic x = Mem.byte s.mem.attic x) ∧
      (∀ q, q ≠ (s.part p).roomAt room → t.room q = s.room q) ∧
      (t.room ((s.part p).roomAt room)).flags = (match fl with
        | some j => Tab.set 0 (s.room ((s.part p).roomAt room)).flags j (Tab.get 0 (s.room ((s.part p).roomAt room)).flags j + 1)
        | none => (s.room ((s.part p).roomAt room)).flags) := by
  obtain ⟨r, hr⟩ : ∃ r, r = (s.part p).roomAt room := ⟨_, rfl⟩
  obtain ⟨u, hu⟩ : ∃ u, u = (s.heard p).writeAttic r off data := ⟨_, rfl⟩
  have hexec : exec (.input p (.line room false off fl data)) s = .next (match fl with
      | some k => u.setRoom r { u.room r with flags := Tab.set 0 (u.room r).flags k (Tab.get 0 (u.room r).flags k + 1) }
      | none => u) := by
    change execInput p (.line room false off fl data) s = _
    have hcond : (decide ((s.part p).rooms.length ≤ room) || decide (atticBytes < off + data.length)) = false := by simp [hroom, hoff]
    simp only [execInput, h, Bool.not_true, Bool.false_eq_true, if_false, hcond, Bool.false_and, ← hr]
    rw [hu]
    rfl
  have hroomOf (q : Nat) : u.room q = s.room q := by rw [hu]; rfl
  have hcellar : u.mem.cellar = s.mem.cellar := by rw [hu]; rfl
  have hbytes (x : Nat) : Mem.byte u.mem.attic x =
      if atticKey r off ≤ x ∧ x < atticKey r off + data.length then data.getD (x - atticKey r off) 0 else Mem.byte s.mem.attic x := by
    rw [hu]
    exact Mem.byte_write ..
  have hin (i : Nat) (hi : i < data.length) : Mem.byte u.mem.attic (atticKey r (off + i)) = data.getD i 0 := by
    rw [hbytes, atticKey_add, if_pos (by omega), Nat.add_sub_cancel_left]
  have hout (x : Nat) (hx : ∀ i, i < data.length → x ≠ atticKey r (off + i)) : Mem.byte u.mem.attic x = Mem.byte s.mem.attic x := by
    rw [hbytes]
    refine if_neg fun hlies => hx (x - atticKey r off) (by omega) ?_
    rw [atticKey_add]
    omega
  rw [hexec, ← hr]
  cases fl with
  | none => exact ⟨u, rfl, hcellar, hin, hout, fun q _ => hroomOf q, by rw [hroomOf]⟩
  | some k =>
    refine ⟨_, rfl, hcellar, hin, hout, fun q hq => ?_, ?_⟩
    · rw [State.room_setRoom, if_neg hq, hroomOf]
    · rw [State.room_setRoom_same, hroomOf]

theorem exec_input_waits {s : State} {p : PartId} {room off : Nat} (fl : Option (Fin 64)) {data : List Byte} (h : (s.part p).isFollower = true)
    (hroom : room < (s.part p).rooms.length) (hoff : off + data.length ≤ stackBytes) (hlevel : 4 ≤ (s.stack ((s.part p).roomAt room)).level) :
    exec (.input p (.line room true off fl data)) s = .next s := by
  change execInput p (.line room true off fl data) s = _
  simp [execInput, h, hroom, hoff, hlevel]

theorem exec_input_doorbell {s : State} {p : PartId} (tail : BitVec 16) (h : (s.part p).isFollower = true) :
    exec (.input p (.doorbell tail)) s = .next (((s.heard p).takeTail (p.val + 1) tail).getD (s.heard p)) := by
  change execInput p (.doorbell tail) s = _
  simp only [execInput, h, Bool.not_true, Bool.false_eq_true, if_false]
  cases (s.heard p).takeTail (p.val + 1) tail <;> rfl

theorem exec_hostread_spec {s : State} {p : PartId} {room : Nat} (ch : ChanId) (data : List Byte) (h : (s.part p).isFollower = true) (hroom : room < (s.part p).rooms.length) :
    ∃ t : State, exec (.hostread p room ch data) s = .next t ∧ Tab.get [] (t.part p).pair.hostread (room * 16 + ch) =
      Tab.get [] (s.part p).pair.hostread (room * 16 + ch) ++ data ∧ (t.part p).pair.lastMsg = s.now ∧ t.mem = s.mem ∧ t.rooms = s.rooms := by
  obtain ⟨-, -, -, -, -, hpart, -⟩ := s.heard_spec p
  obtain ⟨u, hu⟩ : ∃ u, u = s.heard p := ⟨_, rfl⟩
  have hkept : u.mem = s.mem ∧ u.rooms = s.rooms := by rw [hu]; exact ⟨rfl, rfl⟩
  rw [← hu] at hpart
  obtain ⟨x, hx⟩ : ∃ x : Part, x = { u.part p with pair := { (u.part p).pair with
      hostread := Tab.set [] (u.part p).pair.hostread (room * 16 + ch.val) (Tab.get [] (u.part p).pair.hostread (room * 16 + ch.val) ++ data) } } := ⟨_, rfl⟩
  refine ⟨u.setPart p x, ?_, ?_, ?_, hkept.1, hkept.2⟩
  · change execHostread p room ch data s = _
    have hcond : (!(s.part p).isFollower || decide ((s.part p).rooms.length ≤ room)) = false := by simp [h, hroom]
    simp only [execHostread, hcond, Bool.false_eq_true, if_false]
    rw [hx, hu]
  · rw [State.part_setPart_same, hx]
    dsimp only
    rw [Tab.get_set_same, hpart]
  · rw [State.part_setPart_same, hx, hpart]

section
variable {s : State} {p : PartId} {room : Nat} {ch : ChanId} (h : (s.part p).isFollower = true) (hroom : room < (s.part p).rooms.length)
include h hroom

theorem exec_echo_early (hnone : ((s.room ((s.part p).roomAt room)).chan ch).issued.any (·.echo) = false) : ∃ t : State, exec (.echo p room ch) s = .next t ∧
    Tab.get 0 (t.part p).pair.echoes (room * 16 + ch) = Tab.get 0 (s.part p).pair.echoes (room * 16 + ch) + 1 ∧ t.mem = s.mem ∧ t.rooms = s.rooms := by
  obtain ⟨-, -, -, -, -, hpart, -⟩ := s.heard_spec p
  obtain ⟨u, hu⟩ : ∃ u, u = s.heard p := ⟨_, rfl⟩
  have hkept : u.mem = s.mem ∧ u.rooms = s.rooms := by rw [hu]; exact ⟨rfl, rfl⟩
  have hroomOf (q : Nat) : u.room q = s.room q := by rw [hu]; rfl
  rw [← hu] at hpart
  obtain ⟨x, hx⟩ : ∃ x : Part, x = { u.part p with pair := { (u.part p).pair with
      echoes := Tab.set 0 (u.part p).pair.echoes (room * 16 + ch.val) (Tab.get 0 (u.part p).pair.echoes (room * 16 + ch.val) + 1) } } := ⟨_, rfl⟩
  refine ⟨u.setPart p x, ?_, ?_, hkept.1, hkept.2⟩
  · change execEcho p room ch s = _
    have hcond : (!(s.part p).isFollower || decide ((s.part p).rooms.length ≤ room)) = false := by simp [h, hroom]
    simp only [execEcho, hcond, Bool.false_eq_true, if_false]
    rw [← hu, hroomOf, hnone, if_neg Bool.false_ne_true, hx]
  · rw [State.part_setPart_same, hx]
    dsimp only
    rw [Tab.get_set_same, hpart]

theorem exec_echo_due {i : Issued} (hi : ((s.room ((s.part p).roomAt room)).chan ch).issued.find? (·.echo) = some i) : ∃ t : State, exec (.echo p room ch) s = .next t ∧
    ((t.room ((s.part p).roomAt room)).chan ch).issued = ((s.room ((s.part p).roomAt room)).chan ch).issued.map
      (fun q => if q.no = i.no then { q with echo := false, kept := [], held := none } else q) ∧ t.mem = s.mem := by
  obtain ⟨r, hr⟩ : ∃ r, r = (s.part p).roomAt room := ⟨_, rfl⟩
  rw [← hr] at hi
  have hany : ((s.room r).chan ch).issued.any (·.echo) = true := List.any_eq_true.mpr ⟨i, List.mem_of_find?_eq_some hi, List.find?_some hi⟩
  refine ⟨(s.heard p).setRoom r ((s.room r).setChan ch ((s.room r).chan ch).echoed), ?_, ?_, rfl⟩
  · change execEcho p room ch s = _
    have hcond : (!(s.part p).isFollower || decide ((s.part p).rooms.length ≤ room)) = false := by simp [h, hroom]
    have hroomOf (q : Nat) : (s.heard p).room q = s.room q := rfl
    simp only [execEcho, hcond, Bool.false_eq_true, if_false, ← hr, hroomOf, hany, if_true]
  · rw [← hr, State.room_setRoom_same, Room.chan_setChan_same, Channel.echoed, hi]

end

theorem exec_blockkey_spec {s : State} {p : PartId} {w : List Byte} {pk : BitVec 256} (h : (s.part p).isFollower = true) (hkey : (s.part p).pair.key = some pk) :
    ∃ t : State, exec (.blockkey p w) s = .next t ∧ t.mem = s.mem ∧ (kwpUnwrap (leBytes 32 pk.toNat) w = none → t = s.heard p) ∧
      (∀ b, kwpUnwrap (leBytes 32 pk.toNat) w = some b → b.length = 32 →
        t = (s.heard p).deliverKey p ((s.heard p).keyBlock p) (BitVec.ofNat 256 (leNat b))) := by
  have hexec : exec (.blockkey p w) s = .next (match kwpUnwrap (leBytes 32 pk.toNat) w with
      | some k => if k.length = 32 then (s.heard p).deliverKey p ((s.heard p).keyBlock p) (BitVec.ofNat 256 (leNat k)) else s.heard p
      | none => s.heard p) := by
    change execBlockkey p w s = _
    simp only [execBlockkey, h, hkey, Bool.not_true, Bool.false_eq_true, if_false] <;> rfl
  rw [hexec]
  cases hunwrap : kwpUnwrap (leBytes 32 pk.toNat) w with
  | none => exact ⟨_, rfl, rfl, fun _ => rfl, fun b hb => absurd hb (by simp)⟩
  | some k =>
    have hsame (b : List Byte) (hb : some k = some b) : b = k := (Option.some.inj hb).symm
    by_cases hlen : k.length = 32
    · obtain ⟨_, _, hdeliver⟩ := (s.heard p).deliverKey_rest p ((s.heard p).keyBlock p) (BitVec.ofNat 256 (leNat k))
      refine ⟨_, rfl, ?_, fun hno => absurd hno (by simp), fun b hb _ => ?_⟩
      · dsimp only
        rw [if_pos hlen, hdeliver]
        rfl
      · rw [hsame b hb]
        exact if_pos hlen
    · refine ⟨_, rfl, ?_, fun hno => absurd hno (by simp), fun b hb hb' => absurd (hsame b hb ▸ hb') hlen⟩
      dsimp only
      rw [if_neg hlen]
      rfl

/-! ## Digest records (R443) -/

/-- A record of the twin's room is kept (R443). -/
def Part.recorded (x : Part) (room now : Nat) (d : DigestRec) : Part :=
  { x with pair := { x.pair with lastMsg := now, peer := Tab.set [] x.pair.peer room ((d :: Tab.get [] x.pair.peer room).take 300) } }

theorem exec_digest_eq {s : State} {p : PartId} {room : Nat} (d : DigestRec) (h : (s.part p).paired = true) (hroom : room < (s.part p).rooms.length)
    (hside : ¬((s.part p).pair.state = .standby ∧ (s.part p).pair.leader = true)) :
    ∃ u : State, exec (.digest p room d) s = .next (u.compareRecords p room) ∧ u.part p = (s.part p).recorded room s.now d ∧
      (∀ q, q ≠ p.val → u.part q = s.part q) ∧ u.mem = s.mem ∧ u.rooms = s.rooms ∧ u.fns = s.fns ∧ u.hbm = s.hbm := by
  obtain ⟨-, -, -, -, -, hpart, hothers⟩ := s.heard_spec p
  obtain ⟨t, ht⟩ : ∃ t, t = s.heard p := ⟨_, rfl⟩
  have hkept : t.mem = s.mem ∧ t.rooms = s.rooms ∧ t.fns = s.fns ∧ t.hbm = s.hbm := by rw [ht]; exact ⟨rfl, rfl, rfl, rfl⟩
  rw [← ht] at hpart hothers
  obtain ⟨x, hx⟩ : ∃ x : Part, x = { t.part p with pair := { (t.part p).pair with peer := Tab.set [] (t.part p).pair.peer room ((d :: Tab.get [] (t.part p).pair.peer room).take 300) } } := ⟨_, rfl⟩
  have hstand : ((t.part p).pair.state == .standby && (t.part p).pair.leader) = false := by
    rw [hpart, Bool.eq_false_iff, ne_eq, Bool.and_eq_true, beq_iff_eq]
    exact hside
  refine ⟨t.setPart p x, ?_, ?_, fun q hq => ?_, hkept⟩
  · change execDigest p room d s = _
    have hcond : (!(s.part p).paired || decide ((s.part p).rooms.length ≤ room)) = false := by simp [h, hroom]
    simp only [execDigest, hcond, Bool.false_eq_true, if_false]
    rw [← ht, hstand, hx]
    rfl
  · rw [State.part_setPart_same, hx, hpart]
    rfl
  · rw [State.part_setPart, if_neg hq, hothers q hq]

theorem State.compareRecords_of_not_done {s : State} {p i : Nat} (h : (s.room ((s.part p).roomAt i)).blockDone = false) : s.compareRecords p i = s := by
  unfold State.compareRecords
  extract_lets x room y
  split
  · rfl
  · exact if_pos (by rw [show y.blockDone = false from h]; rfl)

/-- A twin in dual execution whose record of its block agrees with the only one of the peer (R443). -/
theorem State.compareRecords_of_agreeing {s : State} {p i : Nat} {b : Block} {c d : DigestRec} {rest : List DigestRec} (hdual : (s.part p).pair.state = .dual)
    (hblock : (s.room ((s.part p).roomAt i)).block = some b) (hdone : (s.room ((s.part p).roomAt i)).blockDone = true) (hagreed : b.agreed = false) (hseen : b.seen = 0)
    (hown : recordsOf (s.part p).pair.own i ((s.part p).pair.at_ i) = [c]) (hpeer : recordsOf (s.part p).pair.peer i ((s.part p).pair.at_ i) = d :: rest)
    (hsame : c.agrees d = true) : s.compareRecords p i = s.agree p ((s.part p).roomAt i) := by
  unfold State.compareRecords
  simp [hblock, hdone, hagreed, hseen, hown, hpeer, hdual, hsame, Part.comparesAt]

/-- A room whose twins agree on its block `b`. -/
def Room.agreed (x : Room) (b : Block) : Room :=
  { x with block := some { b with agreed := true }, channels := x.channels.map (fun c => (c.1, { c.2 with issued := c.2.issued.map (fun i => { i with agreed := true }) })) }

theorem Room.issued_of_streamsDone {x : Room} (h : x.streamsDone = true) (c : Nat) : (x.chan c).issued = [] := by
  have hall : ∀ e ∈ x.channels, e.2.issued = [] := by
    intro e he
    have hboth := List.all_eq_true.mp h e he
    rw [Bool.and_eq_true] at hboth
    exact List.isEmpty_iff.mp hboth.1
  unfold Room.chan
  revert hall
  induction x.channels with
  | nil => exact fun _ => rfl
  | cons e l ih =>
    intro hall
    obtain ⟨k, v⟩ := e
    by_cases hk : k = c
    · rw [show Tab.get {} ((k, v) :: l) c = v by simp [Tab.get, hk]]
      exact hall (k, v) List.mem_cons_self
    · rw [show Tab.get {} ((k, v) :: l) c = Tab.get {} l c by simp [Tab.get, hk]]
      exact ih fun e he => hall e (List.mem_cons_of_mem _ he)

theorem Room.streamsDone_agreed {x : Room} (h : x.streamsDone = true) (b : Block) : (x.agreed b).streamsDone = true := by
  unfold Room.streamsDone Room.agreed
  rw [List.all_map]
  refine List.all_eq_true.mpr fun e he => ?_
  have hboth := List.all_eq_true.mp h e he
  rw [Bool.and_eq_true] at hboth
  simp [List.isEmpty_iff.mp hboth.1, hboth.2]

/-- A block whose twins agree ends at once when nothing of it is left to wait for (R443, R296). -/
theorem State.agree_ends {s : State} {p room : Nat} {b : Block} (hblock : (s.room room).block = some b) (hdone : (s.room room).blockDone = true)
    (hstreams : (s.room room).streamsDone = true) (hex : b.exchange = false) (hwaits : s.recordWaits p room = false) :
    s.agree p room = (s.setRoom room ((s.room room).agreed b)).finishBlock p room := by
  obtain ⟨t, ht⟩ : ∃ t, t = s.setRoom room ((s.room room).agreed b) := ⟨_, rfl⟩
  have htroom : t.room room = (s.room room).agreed b := by rw [ht]; exact s.room_setRoom_same room _
  have hheld : (List.range 16).foldl (fun v c => State.releaseHeld v p room c) t = t :=
    foldl_of_fixed fun c _ => State.releaseHeld_of_none p fun i hi => by
      rw [htroom, Room.issued_of_streamsDone (Room.streamsDone_agreed hstreams b)] at hi
      exact absurd hi List.not_mem_nil
  have heq : s.agree p room = t.tryFinish p room := by
    unfold State.agree
    simp only [hblock]
    change State.tryFinish (if (s.part p).isFollower = true then s.setRoom room ((s.room room).agreed b)
      else (List.range 16).foldl (fun v c => State.releaseHeld v p room c) (s.setRoom room ((s.room room).agreed b))) p room = _
    rw [← ht, hheld, ite_self]
  rw [heq, State.tryFinish_eq, ← ht, if_neg]
  · rw [ht]
    exact fun hyes => Bool.noConfusion (hwaits.symm.trans hyes)
  · rw [htroom, Room.mayEnd, Room.streamsDone_agreed hstreams]
    exact Bool.and_eq_true_iff.mpr ⟨Bool.and_eq_true_iff.mpr ⟨hdone, rfl⟩, rfl⟩
  · rw [htroom]
    exact hex

theorem exec_digest_agrees {s : State} {p : PartId} {room : Nat} {d : DigestRec} {b : Block} {c : DigestRec} (h : (s.part p).paired = true) (hroom : room < (s.part p).rooms.length)
    (hdual : (s.part p).pair.state = .dual) (hblock : (s.room ((s.part p).roomAt room)).block = some b) (hdone : (s.room ((s.part p).roomAt room)).blockDone = true)
    (hstreams : (s.room ((s.part p).roomAt room)).streamsDone = true) (hagreed : b.agreed = false) (hex : b.exchange = false) (hseen : b.seen = 0)
    (hwaits : s.recordWaits p ((s.part p).roomAt room) = false) (hown : recordsOf (s.part p).pair.own room ((s.part p).pair.at_ room) = [c])
    (hd : d.mblock = (s.part p).pair.at_ room) (hsame : c.agrees d = true) :
    ∃ t : State, exec (.digest p room d) s = .next t ∧ (t.room ((s.part p).roomAt room)).block = none ∧
      (t.room ((s.part p).roomAt room)).blockCounter = (s.room ((s.part p).roomAt room)).blockCounter + (if b.failed then 0 else 1) ∧ t.mem.attic = s.mem.attic := by
  obtain ⟨u, hexec, hpart, -, hmem, hrooms, -, hhbm⟩ := exec_digest_eq d h hroom (by rw [hdual]; exact fun hno => PairState.noConfusion hno.1)
  obtain ⟨r, hr⟩ : ∃ r, r = (s.part p).roomAt room := ⟨_, rfl⟩
  rw [← hr] at hblock hdone hstreams hwaits
  have hur : (u.part p).roomAt room = r := by rw [hpart, hr]; rfl
  have huroom : u.room r = s.room r := by rw [State.room, hrooms]; rfl
  have hpeer : recordsOf (u.part p).pair.peer room ((u.part p).pair.at_ room) =
      d :: ((Tab.get [] (s.part p).pair.peer room).take 299).filter (fun e => e.mblock == (s.part p).pair.at_ room) := by
    have hat : (u.part p).pair.at_ room = (s.part p).pair.at_ room := by rw [hpart]; rfl
    have hget : Tab.get [] (u.part p).pair.peer room = (d :: Tab.get [] (s.part p).pair.peer room).take 300 := by
      rw [hpart]
      dsimp only [Part.recorded]
      exact Tab.get_set_same ..
    rw [recordsOf, hat, hget, List.take_succ_cons, List.filter_cons_of_pos (by simp [hd])]
  have huown : recordsOf (u.part p).pair.own room ((u.part p).pair.at_ room) = [c] := by rw [hpart]; exact hown
  have hcompare := State.compareRecords_of_agreeing (s := u) (p := p) (i := room) (by rw [hpart]; exact hdual) (by rw [hur, huroom]; exact hblock)
    (by rw [hur, huroom]; exact hdone) hagreed hseen huown hpeer hsame
  have huwaits : u.recordWaits p r = false := by
    have hjob : (u.part p).job = (s.part p).job := by rw [hpart]; rfl
    rw [State.recordWaits, hjob, State.stack, hhbm]
    exact hwaits
  rw [hexec, hcompare, hur, State.agree_ends (by rw [huroom]; exact hblock) (by rw [huroom]; exact hdone) (by rw [huroom]; exact hstreams) hex huwaits, ← hr]
  obtain ⟨v, hv⟩ : ∃ v, v = u.setRoom r ((u.room r).agreed b) := ⟨_, rfl⟩
  have hvroom : v.room r = (s.room r).agreed b := by rw [hv, State.room_setRoom_same, huroom]
  have hvmem : v.mem = s.mem := by rw [hv]; exact hmem
  rw [← hv]
  obtain ⟨⟨kat, hat⟩, -, -, -, hend, -⟩ := State.finishBlock_ends (s := v) (p := p) (room := r) (b := { b with agreed := true }) (by rw [hvroom]; rfl)
  refine ⟨_, rfl, by rw [hat]; rfl, ?_, by rw [hend, State.withRecord_mem_attic, hvmem]⟩
  rw [hat, hvroom]
  have hcounted : BitVec.ofNat 48 ({ b with agreed := true } : Block).counted = if b.failed then 0 else 1 := by
    unfold Block.counted
    cases b.failed <;> rfl
  rw [← hcounted]
  rfl

/-! ## The resync (R452) -/

/-- A partition's pair is as it was, and no partition lost a room. -/
theorem State.resyncRec_pair (p : Nat) (s : State) (e : ResyncRec) : ((State.resyncRec p s e).part p).pair = (s.part p).pair := by
  have hset (y : Part) (hy : y.pair = (s.part p).pair) : ((s.setPart p y).part p).pair = (s.part p).pair := by rw [State.part_setPart_same, hy]
  unfold State.resyncRec
  extract_lets x
  cases e with
  | line room cellar off data =>
    dsimp only
    generalize (if cellar = true then stackBytes else atticBytes) = bound
    split
    · rfl
    · exact congrArg (fun l : Tab Part => (Tab.get {} l p : Part).pair) (s.writeSpan_parts ..)
  | keyset id active desc =>
    dsimp only
    split
    · exact hset _ rfl
    · rfl
  | key home header => exact hset _ rfl
  | lut home header => exact hset _ rfl
  | program handle home container => exact hset _ rfl
  | pin key off epoch lut => exact hset _ rfl
  | ring off head tail => rfl
  | flag room flag count =>
    dsimp only
    split <;> rfl

/-- What a resync overwrites reads zero in every attic of the partition, and its pair stays (R452). -/
theorem State.resyncBlank_spec (s : State) (p : Nat) : ((s.resyncBlank p).part p).pair = (s.part p).pair ∧
    ∀ r, r ∈ (s.part p).rooms → ∀ i, i < atticBytes → Mem.byte (s.resyncBlank p).mem.attic (atticKey r i) = 0 := by
  unfold State.resyncBlank
  extract_lets x t u
  have hrooms : u.mem = t.mem ∧ u.parts = t.parts :=
    List.foldlRecOn (motive := fun v : State => v.mem = t.mem ∧ v.parts = t.parts) _ _ ⟨rfl, rfl⟩ fun v hv r _ => ⟨hv.1, hv.2⟩
  refine ⟨?_, fun r hr i hi => ?_⟩
  · change ((u.setPart p _).part p).pair = _
    rw [State.part_setPart_same]
  refine (congrArg (fun m : Mem => Mem.byte m.attic (atticKey r i)) hrooms.1).trans ?_
  suffices hzero : ∀ (l : List Nat) (m : Mem), (r ∈ l ∨ Mem.byte m.attic (atticKey r i) = 0) → Mem.byte (l.foldl (fun m r => { m with
      attic := Mem.clear m.attic (atticKey r 0) atticBytes
      atticBad := m.atticBad.filter (fun c => !(atticKey r 0 ≤ c.1 && c.1 < atticKey r 0 + atticBytes))
      cellar := Mem.clear m.cellar (cellarKey r 0) stackBytes
      ecc := m.ecc.filter (fun c => !(cellarKey r 0 ≤ c.1 * 32 && c.1 * 32 < cellarKey r 0 + stackBytes)) }) m).attic (atticKey r i) = 0 from
    hzero x.rooms s.mem (Or.inl hr)
  intro l
  induction l with
  | nil => exact fun m hm => hm.resolve_left List.not_mem_nil
  | cons q l ih =>
    intro m hm
    refine ih _ ?_
    by_cases hlies : atticKey q 0 ≤ atticKey r i ∧ atticKey r i < atticKey q 0 + atticBytes
    · exact Or.inr ((Mem.byte_clear ..).trans (if_pos hlies))
    · rcases hm with hm | hm
      · rcases List.mem_cons.mp hm with rfl | hm
        · exact absurd ⟨by unfold atticKey; omega, by unfold atticKey; omega⟩ hlies
        · exact Or.inl hm
      · exact Or.inr (((Mem.byte_clear ..).trans (if_neg hlies)).trans hm)

theorem exec_resyncComplete_spec {s : State} {p : PartId} (image : List ResyncRec) (hstate : (s.part p).pair.state = .syncing) (hmode : (s.part p).pair.mode = 1 ∨ (s.part p).pair.mode = 2) :
    ∃ t : State, exec (.resyncComplete p image) s = .next t ∧ (t.part p).pair.state = (if (s.part p).pair.mode = 2 then .standby else .dual) ∧
      (t.part p).pair.leader = (s.part p).pair.leader ∧ (t.part p).pair.key = (s.part p).pair.key ∧ (t.part p).pair.wait = none ∧
      ((s.part p).pair.leader = true → t.mem = s.mem ∧ t.rooms = s.rooms) ∧
      ((s.part p).pair.leader = false → image = [] → ∀ r, r ∈ (s.part p).rooms → ∀ i, i < atticBytes → Mem.byte t.mem.attic (atticKey r i) = 0) := by
  obtain ⟨t, ht⟩ : ∃ t, t = if (s.part p).pair.leader then s else image.foldl (State.resyncRec p) (s.resyncBlank p) := ⟨_, rfl⟩
  have htpair : (t.part p).pair = (s.part p).pair := by
    rw [ht]
    split
    · rfl
    · exact List.foldlRecOn (motive := fun u : State => (u.part p).pair = (s.part p).pair) image (State.resyncRec p) (s.resyncBlank_spec p).1
        fun u hu e _ => (State.resyncRec_pair p u e).trans hu
  obtain ⟨pair, hpair⟩ : ∃ pair : Pairing, pair = if (s.part p).pair.leader then (t.part p).pair else (t.part p).pair.caughtUp (t.part p).rooms.length := ⟨_, rfl⟩
  have hkey : pair.key = (s.part p).pair.key := by
    rw [hpair, htpair]
    split <;> rfl
  obtain ⟨v, hv⟩ : ∃ v, v = t.setPart p { t.part p with pair := { pair with wait := none } } := ⟨_, rfl⟩
  obtain ⟨u, hu⟩ : ∃ u, u = v.setPair p (if (s.part p).pair.mode = 2 then .standby else .dual) (s.part p).pair.leader := ⟨_, rfl⟩
  have hexec : exec (.resyncComplete p image) s = .next (match (s.part p).pair.wait with
      | some (slot, _) => u.endWaiting 0 slot (isOp 0x0104) stOk (progressFraction 10000) 0 []
      | none => u) := by
    change execResyncComplete p image s = _
    simp only [execResyncComplete, hstate, ne_eq, not_true_eq_false, if_false]
    rw [hu, hv, hpair, ht] <;> rfl
  obtain ⟨⟨_, hrest⟩, hset⟩ := v.setPair_spec p (if (s.part p).pair.mode = 2 then .standby else .dual) (s.part p).pair.leader
  rw [← hu] at hrest hset
  have hvpart : v.part p = { t.part p with pair := { pair with wait := none } } := by rw [hv]; exact t.part_setPart_same p _
  have hukey : (u.part p).pair.key = (s.part p).pair.key := by
    rw [hset, hvpart]
    dsimp only
    rw [hkey]
    rcases hmode with hmode | hmode
    · rw [hmode]; rfl
    · rw [hmode]; rfl
  have hutwin : (u.part p).pair.state = (if (s.part p).pair.mode = 2 then .standby else .dual) ∧ (u.part p).pair.leader = (s.part p).pair.leader ∧
      (u.part p).pair.wait = none := by
    rw [hset, hvpart]
    exact ⟨rfl, rfl, rfl⟩
  have humem : u.mem = t.mem ∧ u.rooms = t.rooms := by
    rw [hrest, hv]
    exact ⟨rfl, rfl⟩
  obtain ⟨w, hw⟩ : ∃ w, w = (match (s.part p).pair.wait with
      | some (slot, _) => u.endWaiting 0 slot (isOp 0x0104) stOk (progressFraction 10000) 0 []
      | none => u) := ⟨_, rfl⟩
  have hafter : w.parts = u.parts ∧ w.mem = u.mem ∧ w.rooms = u.rooms := by
    rw [hw]
    split
    · exact u.endWaiting_kept ..
    · exact ⟨rfl, rfl, rfl⟩
  obtain ⟨hparts, hmem, hrooms⟩ := hafter
  have hwpart : w.part p = u.part p := by rw [State.part, hparts]; rfl
  rw [hexec, ← hw]
  refine ⟨w, rfl, by rw [hwpart]; exact hutwin.1, by rw [hwpart]; exact hutwin.2.1, by rw [hwpart]; exact hukey, by rw [hwpart]; exact hutwin.2.2, fun hlead => ?_, fun hlead himage r hr i hi => ?_⟩
  · rw [hmem, hrooms, humem.1, humem.2, ht, if_pos hlead]
    exact ⟨rfl, rfl⟩
  · rw [hmem, humem.1, ht, if_neg (by rw [hlead]; exact Bool.false_ne_true), himage]
    exact (s.resyncBlank_spec p).2 r hr i hi

/-! ## The pair, whole -/

theorem exec_peer_spec {s : State} {p : PartId} (a : Nat) (h : (s.part p).paired = true) : exec (.heartbeat p 5 a) s = .next (s.heard p) ∧
    (∀ st, st ≠ 5 → ∃ t : State, exec (.heartbeat p st a) s = .next t ∧ s.PeerLost t p) ∧
    (∃ t : State, exec (.end_ p) s = .next t ∧ (t.part p).pair.state = .solo ∧ (t.part p).pair.key = none) ∧
    ((s.part p).pair.lastMsg + 10000000 ≤ s.now → ∃ t : State, exec (.peerLoss p) s = .next t ∧ s.PeerLost t p) ∧
    ((s.part p).pair.lastBeat + 100000 ≤ s.now → exec (.heartbeatSend p) s =
      .next ((s.setPart p { s.part p with pair := { (s.part p).pair with lastBeat := s.now } }).emit
        (.mirror 6 (s.part p).pair.peerModule (s.part p).pair.peerPart (leBytes 8 s.timestamp ++ leBytes 1 s.boot.state.code)))) ∧
    (s.now < (s.part p).pair.lastBeat + 100000 → exec (.heartbeatSend p) s = .next s) := by
  refine ⟨?_, fun st hst => ⟨(s.heard p).losePeer p, ?_, ?_⟩, ⟨(s.dropWait p).goSolo p, ?_, ?_⟩, fun htime => ⟨s.losePeer p, ?_, s.losePeer_lost p⟩, fun htime => ?_, fun htime => ?_⟩
  · change execHeartbeat p 5 a s = _
    simp [execHeartbeat, h]
  · change execHeartbeat p st a s = _
    simp [execHeartbeat, h, hst]
  · obtain ⟨hmem, hrooms, -, -, -, hpart, -⟩ := s.heard_spec p
    obtain ⟨hlead, hfollow, hkey, hwait, hsame⟩ := (s.heard p).losePeer_lost p
    rw [hpart] at hlead hfollow hsame
    exact ⟨hlead, fun hno => ⟨(hfollow hno).1, (hfollow hno).2.1.trans hmem, (hfollow hno).2.2.trans hrooms⟩, hkey, hwait, hsame⟩
  · change execEnd p s = _
    simp [execEnd, h]
  · have htwin := (s.dropWait p).goSolo_twin p
    simp only [Part.twin, Prod.mk.injEq] at htwin
    exact ⟨htwin.1, htwin.2.2.1⟩
  · change execPeerLoss p s = _
    simp [execPeerLoss, h, htime]
  · change execHeartbeatSend p s = _
    simp only [execHeartbeatSend, h, htime, decide_true, Bool.and_self, if_true, State.tellTwin, State.part_setPart_same]
  · change execHeartbeatSend p s = _
    simp [execHeartbeatSend, not_le.mpr htime]

/-- Settles O57: a pair's partition is followed by its `twin` through what going on alone sends and ends; every message is its own row. -/
theorem pairsFormCompareAndPart : Obligations.PairsFormCompareAndPart := by
  refine ⟨fun s f k a p m hruns hp hm hcheck hwait => ?_, fun s p k at_ hwait hunpaired => exec_mirrorSetTimeout_spec hwait hunpaired, fun s p h => exec_unpaired h,
    fun s p b k h hk => exec_commands_spec h hk, fun s p b m h hm hmode hsync => exec_command_mode h hm hmode hsync,
    fun s p room off fl data h hroom hoff => exec_input_line fl h hroom hoff, fun s p room off fl data h hroom hoff hlevel => exec_input_waits fl h hroom hoff hlevel,
    fun s p tail h => exec_input_doorbell tail h,
    fun s p room ch data h hroom => ⟨exec_hostread_spec ch data h hroom, exec_echo_early h hroom, fun i hi => exec_echo_due h hroom hi⟩,
    fun s p w pk h hkey => exec_blockkey_spec h hkey, fun s p room d h hroom => ⟨fun hnotdone hside => ?_, fun b c hdual hblock hdone hstreams hagreed hex hseen hwaits hown hd hm h1 h2 hcause => ?_⟩,
    fun s p a h => exec_peer_spec a h, fun s p image hstate hmode => exec_resyncComplete_spec image hstate hmode⟩
  · refine ⟨fun h0 => (exec_mirrorSet_zero hruns hp hm hcheck hwait h0).1, fun h0 => (exec_mirrorSet_zero hruns hp hm hcheck hwait h0).2,
      fun h0 hun ha => exec_mirrorSet_silent hruns hp hm hcheck hwait h0 hun ha, fun h0 hun ha => exec_mirrorSet_unfit hruns hp hm hcheck hwait h0 hun ha,
      fun h h0 hun ha hone hdrbg => exec_mirrorSet_later hruns hp hm hcheck hwait h0 hun ha hone hdrbg, fun h h0 hun ha hone hdrbg => ?_⟩
    obtain ⟨hpart, hothers, hmem, hrooms, hslots⟩ := s.formPair_spec (s.cmd f k) k p h hp
    refine ⟨_, exec_mirrorSet_forms hruns hp hm hcheck hwait h0 hun ha hone hdrbg, ?_⟩
    rw [hpart]
    exact ⟨rfl, hm.symm, rfl, rfl, rfl, rfl, s.formPair_leads (s.cmd f k) k p hone, hslots f k, hmem, hrooms, hothers⟩
  · obtain ⟨u, hexec, hpart, hothers, hmem, hrooms, hfns, -⟩ := exec_digest_eq d h hroom hside
    have hdone : (u.room ((u.part p).roomAt room)).blockDone = false := by
      have hsame : (u.part p).roomAt room = (s.part p).roomAt room := by rw [hpart]; rfl
      rw [hsame, State.room, hrooms]
      exact hnotdone
    exact ⟨u, by rw [hexec, State.compareRecords_of_not_done hdone], hpart, hothers, hmem, hrooms, hfns⟩
  · exact exec_digest_agrees h hroom hdual hblock hdone hstreams hagreed hex hseen hwaits hown hd (by simp [DigestRec.agrees, hm, h1, h2, hcause])

end Sys2Proof.Machine
end

section
/-! PROOFS. Room errors (19): what counting an error keeps, replays and failed blocks (R297, R303, R458 to R460, R564). -/

namespace Sys2Proof.Machine

/-! ## Channels that halt (R262, R264) -/

/-- The room's channels of the first `n` numbers hold no descriptor: they have halted, and with them only tags and counts of the room changed. -/
structure Room.Halted (x y : Room) (n : Nat) : Prop where
  rest : ∃ channels tags stale counters, y = { x with channels := channels, tagsInFlight := tags, stale := stale, counters := counters }
  idle : ∀ c, c < n → (y.chan c).issued = []

/-- What stops channels of a room changes that room and the contexts that wait for acknowledgements. -/
structure State.StopsIn (s t : State) (r : Nat) : Prop where
  rest : ∃ rooms tx, t = { s with rooms := rooms, links := { s.links with tx := tx } }
  others : ∀ q, q ≠ r → t.room q = s.room q

theorem State.StopsIn.refl (s : State) (r : Nat) : s.StopsIn s r := ⟨⟨_, _, rfl⟩, fun _ _ => rfl⟩

theorem State.StopsIn.trans {s t u : State} {r : Nat} (h : s.StopsIn t r) (h' : t.StopsIn u r) : s.StopsIn u r := by
  obtain ⟨_, _, rfl⟩ := h.rest
  obtain ⟨_, _, rfl⟩ := h'.rest
  exact ⟨⟨_, _, rfl⟩, fun q hq => (h'.others q hq).trans (h.others q hq)⟩

theorem State.stopsIn_setRoom (s : State) (r : Nat) (x : Room) : s.StopsIn (s.setRoom r x) r := ⟨⟨_, _, rfl⟩, fun q hq => (s.room_setRoom r q x).trans (if_neg hq)⟩

/-- Every channel of a room that holds a descriptor halts (R264). -/
theorem State.cancelChannels_spec (s : State) (r : Nat) : s.StopsIn (s.cancelChannels r) r ∧ (s.room r).Halted ((s.cancelChannels r).room r) 16 := by
  unfold State.cancelChannels
  suffices h : ∀ n, s.StopsIn ((List.range n).foldl (fun t c =>
      if ((t.room r).chan c).issued.isEmpty && ((t.room r).chan c).queue.isEmpty then t else t.stopChannel r c 6 0) s) r ∧
      (s.room r).Halted (((List.range n).foldl (fun t c =>
      if ((t.room r).chan c).issued.isEmpty && ((t.room r).chan c).queue.isEmpty then t else t.stopChannel r c 6 0) s).room r) n from h 16
  intro n
  induction n with
  | zero => exact ⟨.refl s r, ⟨⟨_, _, _, _, rfl⟩, fun c hc => absurd hc (Nat.not_lt_zero c)⟩⟩
  | succ n ih =>
    rw [List.range_succ, List.foldl_append, List.foldl_cons, List.foldl_nil]
    generalize (List.range n).foldl _ s = t at ih
    obtain ⟨hstops, hrest, hidle⟩ := ih
    split
    next hempty =>
      rw [Bool.and_eq_true] at hempty
      refine ⟨hstops, hrest, fun c hc => ?_⟩
      rcases Nat.lt_succ_iff_lt_or_eq.mp hc with hc | rfl
      · exact hidle c hc
      · exact List.isEmpty_iff.mp hempty.1
    next =>
      have hhalts := t.stopChannel_halts r n 6 0
      refine ⟨hstops.trans ⟨⟨_, _, rfl⟩, hhalts.others⟩, ?_, fun c hc => ?_⟩
      · rw [State.room_stopChannel, if_pos rfl]
        obtain ⟨_, _, _, _, hroom⟩ := hrest
        rw [hroom]
        exact ⟨_, _, _, _, rfl⟩
      · rw [hhalts.channels c]
        split
        · rfl
        next hne => exact hidle c (by omega)

/-- Channels that are reset keep the descriptors they hold (R262). -/
theorem Room.issued_freshChannels (x : Room) (c : Nat) : (x.freshChannels.chan c).issued = (x.chan c).issued := by
  unfold Room.freshChannels Room.chan
  dsimp only
  induction x.channels with
  | nil => rfl
  | cons e l ih =>
    obtain ⟨k, v⟩ := e
    simp only [List.map_cons, Tab.get]
    split
    · rfl
    · exact ih

/-! ## What counting an error keeps (R454, R455, R460) -/

/-- From `s` to `t` an error of room `r` has been counted: the block is the same execution of the same block, and the channels, brakes and every other room, the bytes of
memory, the partitions and the functions are as they were. -/
structure State.Meets (s t : State) (r : Nat) (b : Block) : Prop where
  block : ∃ c, (t.room r).block = some c ∧ c.execs = b.execs ∧ c.replays = b.replays ∧ c.checkpoint = b.checkpoint ∧ c.failed = b.failed ∧ c.exchange = b.exchange ∧
    (b.errSeen = true → c.errSeen = true) ∧ c.error = b.error
  counter : (t.room r).blockCounter = (s.room r).blockCounter
  brk : (t.room r).brk = (s.room r).brk
  channels : (t.room r).channels = (s.room r).channels
  others : ∀ q, q ≠ r → t.room q = s.room q
  attic : t.mem.attic = s.mem.attic
  cellar : t.mem.cellar = s.mem.cellar
  parts : t.parts = s.parts
  fns : t.fns = s.fns
  boot : t.boot = s.boot

theorem State.Meets.refl {s : State} {r : Nat} {b : Block} (h : (s.room r).block = some b) : s.Meets s r b :=
  ⟨⟨b, h, rfl, rfl, rfl, rfl, rfl, id, rfl⟩, rfl, rfl, rfl, fun _ _ => rfl, rfl, rfl, rfl, rfl, rfl⟩

theorem State.Meets.trans {s t u : State} {r : Nat} {b : Block} (h : s.Meets t r b) (h' : ∀ c, (t.room r).block = some c → t.Meets u r c) : s.Meets u r b := by
  obtain ⟨c, hc, hexecs, hreplays, hcheck, hfailed, hex, hseen, herr⟩ := h.block
  obtain ⟨⟨d, hd, hexecs', hreplays', hcheck', hfailed', hex', hseen', herr'⟩, hcounter, hbrk, hchannels, hothers, hattic, hcellar, hparts, hfns, hboot⟩ := h' c hc
  exact ⟨⟨d, hd, hexecs'.trans hexecs, hreplays'.trans hreplays, hcheck'.trans hcheck, hfailed'.trans hfailed, hex'.trans hex, fun hb => hseen' (hseen hb), herr'.trans herr⟩,
    hcounter.trans h.counter, hbrk.trans h.brk, hchannels.trans h.channels, fun q hq => (hothers q hq).trans (h.others q hq), hattic.trans h.attic, hcellar.trans h.cellar,
    hparts.trans h.parts, hfns.trans h.fns, hboot.trans h.boot⟩

/-- What changes neither a room nor the bytes of memory, the partitions, the functions or the device state only counts. -/
theorem State.Meets.of_rooms {s t : State} {r : Nat} {b : Block} (h : (s.room r).block = some b) (hrooms : t.rooms = s.rooms) (hattic : t.mem.attic = s.mem.attic)
    (hcellar : t.mem.cellar = s.mem.cellar) (hparts : t.parts = s.parts) (hfns : t.fns = s.fns) (hboot : t.boot = s.boot) : s.Meets t r b := by
  have hroom (q : Nat) : t.room q = s.room q := by rw [State.room, hrooms]; rfl
  exact ⟨⟨b, by rw [hroom, h], rfl, rfl, rfl, rfl, rfl, id, rfl⟩, by rw [hroom], by rw [hroom], by rw [hroom], fun q _ => hroom q, hattic, hcellar, hparts, hfns, hboot⟩

/-- A room may be stored whose block is the same execution of the same block. -/
theorem State.Meets.of_setRoom {s : State} {r : Nat} {b c : Block} {x : Room} (hx : x.block = some c) (hc : c.execs = b.execs ∧ c.replays = b.replays ∧ c.checkpoint = b.checkpoint ∧
    c.failed = b.failed ∧ c.exchange = b.exchange ∧ (b.errSeen = true → c.errSeen = true) ∧ c.error = b.error) (hcounter : x.blockCounter = (s.room r).blockCounter)
    (hbrk : x.brk = (s.room r).brk) (hchannels : x.channels = (s.room r).channels) : s.Meets (s.setRoom r x) r b := by
  have hroom := s.room_setRoom_same r x
  exact ⟨⟨c, by rw [hroom, hx], hc⟩, by rw [hroom, hcounter], by rw [hroom, hbrk], by rw [hroom, hchannels], fun q hq => (s.room_setRoom r q x).trans (if_neg hq), rfl, rfl, rfl, rfl, rfl⟩

theorem State.meets_of_gysis {s t : State} {r : Nat} {b : Block} (h : (s.room r).block = some b) (ht : t = { s with gysis := t.gysis }) : s.Meets t r b := by
  rw [ht]
  exact .of_rooms h rfl rfl rfl rfl rfl rfl

theorem State.meets_flushExpiries {s : State} {r : Nat} {b : Block} (h : (s.room r).block = some b) : s.Meets (s.flushExpiries r) r b := by
  have hset : s.Meets (s.setRoom r { s.room r with block := some { b with expiries := [] } }) r b :=
    .of_setRoom (c := { b with expiries := [] }) rfl ⟨rfl, rfl, rfl, rfl, rfl, id, rfl⟩ rfl rfl rfl
  rw [State.flushExpiries_rest h]
  exact hset.trans fun c hc => State.meets_of_gysis hc rfl

theorem State.meets_detect {s : State} {r : Nat} {b : Block} (h : (s.room r).block = some b) (key : Nat × Nat × Nat) (c : FaultChan) (kind : Nat) :
    s.Meets (s.detect key c kind) r b := by
  obtain ⟨_, _, _, hrest⟩ := s.detect_noted key c kind
  rw [hrest]
  exact .of_rooms h rfl rfl rfl rfl rfl rfl

theorem State.lostFull_gysis (s : State) (stack : Nat) : s.lostFull stack = { s with gysis := (s.lostFull stack).gysis } := by
  unfold State.lostFull
  extract_lets x c
  split
  · rw [State.note_eq, State.raise_rest]
  · rfl

theorem State.meets_classify {s : State} {r : Nat} {b : Block} (h : (s.room r).block = some b) (e : RoomEvent) : s.Meets (s.classify r e) r b := by
  have hnote {t : State} (ht : s.Meets t r b) (c : FaultChan) (kind : Nat) : s.Meets (t.note c kind) r b :=
    ht.trans fun d hd => State.meets_of_gysis hd (t.note_eq c kind)
  cases e with
  | atticParity q l k w => exact State.meets_detect h _ _ _
  | ibufParity => exact hnote (.refl h) (.sequencer r) 0
  | laneParity => exact hnote (.refl h) (.pauSet r) 1
  | twiddleParity ks prime =>
    obtain ⟨x, hx⟩ : ∃ x, x = { s.room r with
      badTwiddle := if (s.room r).badTwiddle.contains (ks, prime) then (s.room r).badTwiddle else (s.room r).badTwiddle ++ [(ks, prime)] } := ⟨_, rfl⟩
    have hset : s.Meets (s.setRoom r x) r b := by
      rw [hx]
      exact .of_setRoom (c := b) h ⟨rfl, rfl, rfl, rfl, rfl, id, rfl⟩ rfl rfl rfl
    have heq : s.classify r (.twiddleParity ks prime) = (s.setRoom r x).note (.transform r) 0 := by rw [hx]; rfl
    rw [heq]
    exact hnote hset _ _
  | landingParity => exact hnote (.refl h) (.transform r) 0
  | vectorParity => exact hnote (.refl h) (.vector r) 0
  | checkMismatch pau k limbs =>
    have hset (record : Tab (Option (Nat × BitVec 61))) (kat : Bool) :
        s.Meets (s.setRoom r { s.room r with block := some { b with mismatches := b.mismatches + 1 }, errRecord := record, kat := kat }) r b :=
      .of_setRoom (c := { b with mismatches := b.mismatches + 1 }) rfl ⟨rfl, rfl, rfl, rfl, rfl, id, rfl⟩ rfl rfl rfl
    have heq : ∃ record kat, s.classify r (.checkMismatch pau k limbs) =
        (s.setRoom r { s.room r with block := some { b with mismatches := b.mismatches + 1 }, errRecord := record, kat := kat }).note (.pauSet r) 0 := by
      simp only [State.classify, h]
      exact ⟨_, _, rfl⟩
    obtain ⟨record, kat, heq⟩ := heq
    rw [heq]
    exact hnote (hset record kat) _ _
  | cellarUncorr k line => exact State.meets_detect h _ _ _
  | lostList k => exact State.meets_of_gysis h (s.lostFull_gysis k)
  | remote | watchdog | bounds | badDesc | forcedMove | other => exact .refl h

/-- A room that has taken an error remembers it in its block. -/
theorem State.meets_errTaken {s : State} {r : Nat} {b : Block} (h : (s.room r).block = some b) : s.Meets (s.setRoom r (s.room r).errTaken) r b ∧
    ∃ c, ((s.setRoom r (s.room r).errTaken).room r).block = some c ∧ c.errSeen = true := by
  have hx : (s.room r).errTaken = { s.room r with block := some { b with errSeen := true } } := by simp only [Room.errTaken, h]
  rw [hx]
  refine ⟨.of_setRoom (c := { b with errSeen := true }) rfl ⟨rfl, rfl, rfl, rfl, rfl, fun _ => rfl, rfl⟩ rfl rfl rfl, ?_⟩
  rw [State.room_setRoom_same]
  exact ⟨_, rfl, rfl⟩

/-! ## Blocks that fail or replay (R458, R459, R564) -/

/-- The block of a counted error fails (R459, R564). -/
theorem State.Meets.fails {s t : State} {r : Nat} {b : Block} (h : s.Meets t r b) : s.BlockFails (t.failBlock r) r b := by
  obtain ⟨c, hc, hexecs, hreplays, hcheck, -⟩ := h.block
  obtain ⟨hstops, hhalted⟩ := t.cancelChannels_spec r
  obtain ⟨u, hu⟩ : ∃ u, u = t.cancelChannels r := ⟨_, rfl⟩
  rw [← hu] at hstops hhalted
  have hublock : (u.room r).block = some c := by
    obtain ⟨_, _, _, _, hroom⟩ := hhalted.rest
    rw [hroom]
    exact hc
  have hfault : (u.room r).programFault = { u.room r with block := some { c with failed := true, error := none, errSeen := true } } := by
    simp only [Room.programFault, hublock]
  have heq : t.failBlock r = u.setRoom r { u.room r with block := some { c with failed := true, error := none, errSeen := true } } := by
    rw [← hfault, hu]
    rfl
  have hkept := hstops.trans (u.stopsIn_setRoom r { u.room r with block := some { c with failed := true, error := none, errSeen := true } })
  rw [← heq] at hkept
  have hroom : (t.failBlock r).room r = { u.room r with block := some { c with failed := true, error := none, errSeen := true } } := by
    rw [heq, State.room_setRoom_same]
  obtain ⟨⟨_, _, hrest⟩, hothers⟩ := hkept
  refine ⟨⟨_, congrArg Room.block hroom, rfl, rfl, hexecs, hreplays, hcheck⟩, fun k hk => ?_, fun q hq => (hothers q hq).trans (h.others q hq), ?_, ?_, ?_, ?_⟩
  · rw [hroom]
    exact hhalted.idle k hk
  all_goals rw [hrest]
  · exact h.attic
  · exact h.cellar
  · exact h.parts
  · exact h.fns

/-- A block of a single room that may be started again starts again (R458). -/
theorem State.Meets.replayed {s t : State} {r p : Nat} {b : Block} (h : s.Meets t r b) (howner : s.ownerOf r = some p) (hex : b.exchange = false) (hfailed : b.failed = false)
    (hbrk : (s.room r).brk.stopped = false) (hheld : s.replayHeld r = false) (htorn : s.torn r = false)
    (hseen : ∀ c, (t.room r).block = some c → c.errSeen = true) : s.Replayed (t.replay r true) r b := by
  obtain ⟨c, hc, hexecs, hreplays, hcheck, hcfailed, hcex, -⟩ := h.block
  have howner' : t.ownerOf r = some p := (State.ownerOf_congr h.parts r).trans howner
  have hpart (q : Nat) : t.part q = s.part q := by rw [State.part, h.parts]; rfl
  have hheld' : t.replayHeld r = false := by
    rw [← hheld]
    simp only [State.replayHeld, howner', howner, hpart, h.boot]
  have htorn' : t.torn r = false := by
    rw [← htorn]
    simp only [State.torn, howner', howner, hpart]
  obtain ⟨hstops, hhalted⟩ := t.cancelChannels_spec r
  obtain ⟨u, hu⟩ : ∃ u, u = t.cancelChannels r := ⟨_, rfl⟩
  rw [← hu] at hstops hhalted
  have hublock : (u.room r).block = some c ∧ (u.room r).blockCounter = (t.room r).blockCounter := by
    obtain ⟨_, _, _, _, hroom⟩ := hhalted.rest
    rw [hroom]
    exact ⟨hc, rfl⟩
  have heq : t.replay r true = u.setRoom r ((u.room r).restart true) := by
    simp only [State.replay, howner', hc, hcex.trans hex, Bool.false_eq_true, if_false, State.replayOne, hcfailed.trans hfailed, hheld', Bool.or_self, htorn', h.brk, hbrk]
    rw [hu]
  have hroom : (t.replay r true).room r = (u.room r).restart true := by rw [heq, State.room_setRoom_same]
  obtain ⟨⟨_, _, hrest⟩, hothers⟩ := hstops.trans (u.stopsIn_setRoom r ((u.room r).restart true))
  rw [← heq] at hrest hothers
  have hrestart : (u.room r).restart true = { (u.room r).freshChannels with
      block := some { c.again true with stale := c.stale ++ c.checkpoint.keyEntries.filter (fun e => !(u.room r).keyEntries.contains e) }, tokens := c.checkpoint.tokens
      scalars := c.checkpoint.scalars, vcount := c.checkpoint.vcount, keyEntries := c.checkpoint.keyEntries, window := c.checkpoint.window, progress := c.checkpoint.progress
      blockDone := false, atBarrier := false, fenceWait := false, queues := [], refetch := 0, keyHeld := false
      brk := { (u.room r).brk with stopped := false, replayDeferred := false } } := by
    simp only [Room.restart, hublock.1]
  rw [hrestart, hcheck] at hroom
  refine ⟨⟨_, congrArg Room.block hroom, ?_⟩, by rw [hroom], by rw [hroom], by rw [hroom], by rw [hroom], by rw [hroom], by rw [hroom], fun k hk => ?_, ?_, fun q hq => (hothers q hq).trans (h.others q hq), ?_, ?_, ?_, ?_⟩
  · have herr : (c.again true).errSeen = true := by simp [Block.again, hseen c hc]
    exact ⟨congrArg (fun n => min 3 (n + 1)) hexecs, congrArg (· + 1) hreplays, herr, hcheck, hcfailed.trans hfailed, rfl, rfl, rfl, rfl, rfl⟩
  · rw [hroom]
    exact ((u.room r).issued_freshChannels k).trans (hhalted.idle k hk)
  · rw [hroom]
    exact hublock.2.trans h.counter
  all_goals rw [hrest]
  · exact h.attic
  · exact h.cellar
  · exact h.parts
  · exact h.fns

/-! ## A memory error that is reported is stored and counted (R199, R200, R230) -/

/-- What `s` and `t` hold alike when only a memory error was stored or counted: the bytes, the partitions, the functions, the device state, and of each room all but its counters. -/
structure State.ErrorStored (s t : State) : Prop where
  attic : t.mem.attic = s.mem.attic
  cellar : t.mem.cellar = s.mem.cellar
  parts : t.parts = s.parts
  fns : t.fns = s.fns
  boot : t.boot = s.boot
  room : ∀ q, t.room q = { s.room q with counters := (t.room q).counters }

theorem State.ErrorStored.refl (s : State) : s.ErrorStored s := ⟨rfl, rfl, rfl, rfl, rfl, fun _ => rfl⟩

theorem State.errorStored_counts (s : State) (r : Nat) (counts : Room → Room) (h : ∀ x, counts x = { x with counters := (counts x).counters }) :
    s.ErrorStored (s.setRoom r (counts (s.room r))) := by
  refine ⟨rfl, rfl, rfl, rfl, rfl, fun q => ?_⟩
  rw [State.room_setRoom]
  split
  next hq => rw [hq]; exact h _
  next => rfl

theorem State.storeError_frame (s : State) (x : Span) : (s.storeError x).parts = s.parts ∧ (s.storeError x).fns = s.fns ∧ (s.storeError x).boot = s.boot := by
  unfold State.storeError
  dsimp only
  split
  · exact ⟨rfl, rfl, rfl⟩
  · split <;> exact ⟨rfl, rfl, rfl⟩

theorem State.errorStored_storeError (s : State) (x : Span) : s.ErrorStored (s.storeError x) := by
  obtain ⟨-, -, hattic, hcellar⟩ := s.storeError_rest x
  obtain ⟨hparts, hfns, hboot⟩ := s.storeError_frame x
  refine ⟨hattic, hcellar, hparts, hfns, hboot, fun q => ?_⟩
  rw [s.storeError_room]

theorem State.errorStored_meetError (s : State) (x : Span) : s.ErrorStored (s.meetError x) := by
  obtain ⟨hattic, hcellar, hparts, hfns, hboot, hroom⟩ := s.errorStored_storeError x
  cases hc : x.cellar with
  | false =>
    rw [s.meetError_attic hc]
    refine ⟨hattic, hcellar, hparts, hfns, hboot, fun q => ?_⟩
    rw [State.room_setRoom]
    split
    next hq => rw [hq, s.storeError_room]
    next => exact hroom q
  | true =>
    rw [s.meetError_cellar hc]
    exact ⟨hattic, hcellar, hparts, hfns, hboot, fun q => by rw [State.room_setStack]; exact hroom q⟩

theorem State.errorStored_meetEvent (s : State) (e : RoomEvent) : s.ErrorStored (s.meetEvent e) := by
  cases e with
  | atticParity q l k w =>
    simp only [State.meetEvent]
    split
    · exact s.errorStored_meetError _
    · exact s.errorStored_counts q (fun x => { x with counters := { x.counters with parityErr := satInc x.counters.parityErr } }) fun _ => rfl
  | cellarUncorr k line =>
    simp only [State.meetEvent]
    split
    · exact .refl s
    · exact s.errorStored_meetError _
  | ibufParity | laneParity | twiddleParity | landingParity | vectorParity | checkMismatch | lostList | remote | watchdog | bounds | badDesc | forcedMove | other => exact .refl s

/-- A parity error of the attic is counted in its room, and its line, when its row holds one, reports it again. -/
theorem State.meetEvent_atticParity (s : State) (q : RoomId) (l : Fin 3) (k : Fin 66) (w : Nat) :
    ((s.meetEvent (.atticParity q l k w)).room q).counters.parityErr = satInc (s.room q).counters.parityErr ∧
    ∀ m, s.lineOf q l k w = some m → (s.meetEvent (.atticParity q l k w)).spanBad { room := q, cellar := false, off := m * 128, len := 128 } = true := by
  simp only [State.meetEvent]
  cases hline : s.lineOf q l k w with
  | none => exact ⟨by rw [State.room_setRoom_same], fun m hm => nomatch hm⟩
  | some n =>
    refine ⟨s.meetError_parity rfl, fun m hm => ?_⟩
    obtain rfl := Option.some.inj hm
    exact s.meetError_bad rfl rfl

/-- An uncorrectable burst in a stack's line is counted in the stack, and the line reports it again. -/
theorem State.meetEvent_cellarUncorr (s : State) (k : RoomId) {m : Nat} (h : 128 * m + 128 ≤ stackBytes) :
    ((s.meetEvent (.cellarUncorr k m)).stack k).counters.eccUncorr = satInc (s.stack k).counters.eccUncorr ∧
    (s.meetEvent (.cellarUncorr k m)).spanBad { room := k, cellar := true, off := m * 128, len := 128 } = true := by
  have hin : ({ room := k, cellar := true, off := m * 128, len := 128 } : Span).outside = false := by
    simp only [Span.outside, if_true, decide_eq_false_iff_not]
    omega
  simp only [State.meetEvent, hin, Bool.false_eq_true, if_false]
  exact ⟨s.meetError_eccUncorr rfl, s.meetError_bad rfl rfl⟩

/-! ## An error of a block (R458, R459, R564) -/

section
variable {s : State} {r : Nat} {b : Block} {e : RoomEvent}

theorem State.Meets.note {t : State} (h : s.Meets t r b) (c : FaultChan) (kind : Nat) : s.Meets (t.note c kind) r b :=
  h.trans fun _ hd => State.meets_of_gysis hd (t.note_eq c kind)

/-- A partition and its device state say whether a replay of a room is held, and whether it is abandoned. -/
theorem State.replayHeld_congr {t : State} (hparts : t.parts = s.parts) (hboot : t.boot = s.boot) (r : Nat) : t.replayHeld r = s.replayHeld r := by
  have hpart (q : Nat) : t.part q = s.part q := by rw [State.part, hparts]; rfl
  simp only [State.replayHeld, State.ownerOf_congr hparts r, hpart, hboot]

theorem State.torn_congr {t : State} (hparts : t.parts = s.parts) (r : Nat) : t.torn r = s.torn r := by
  have hpart (q : Nat) : t.part q = s.part q := by rw [State.part, hparts]; rfl
  simp only [State.torn, State.ownerOf_congr hparts r, hpart]

theorem State.meetEvent_block (hb : (s.room r).block = some b) (e : RoomEvent) : ((s.meetEvent e).room r).block = some b := by
  rw [(s.errorStored_meetEvent e).room r]
  exact hb

/-- The counted and classified error, before the room answers it. -/
def State.counted (s : State) (r : Nat) (e : RoomEvent) : State := ((s.meetEvent e).flushExpiries r).classify r e

theorem State.meets_counted (hb : (s.room r).block = some b) (e : RoomEvent) : (s.meetEvent e).Meets (s.counted r e) r b :=
  (State.meets_flushExpiries (State.meetEvent_block hb e)).trans fun _ hc => State.meets_classify hc e

/-- What the room does with an error that no earlier one stands before. -/
theorem State.roomError_eq (hb : (s.room r).block = some b) (herror : b.error = none) (hfailed : b.failed = false) (e : RoomEvent) : s.roomError r e =
    if e.isProgram then (s.meetEvent e).failBlock r
    else if e = .forcedMove then (s.counted r e).replay r true
    else if b.execs < 3 then ((s.counted r e).setRoom r ((s.counted r e).room r).errTaken).replay r true
    else if e.isData then (s.counted r e).setRoom r ((s.counted r e).room r).errTaken
    else ((s.counted r e).note (.room r) 0).failBlock r := by
  have hb' := State.meetEvent_block hb e
  unfold State.counted State.roomError
  simp only [hb, herror, hfailed, hb', Option.isSome_none, Bool.or_self, Bool.false_eq_true, if_false, Option.getD_none, Option.isNone_none, Bool.and_true]

/-- Of a block that takes an error in its first or second execution, what it replays from. -/
theorem State.roomError_replays (hb : (s.room r).block = some b) (herror : b.error = none) (hfailed : b.failed = false) (hprogram : e.isProgram = false)
    (hmove : e ≠ .forcedMove) (hexecs : b.execs < 3) : ∃ t : State, (s.meetEvent e).Meets t r b ∧ (∀ c, (t.room r).block = some c → c.errSeen = true) ∧
      s.roomError r e = t.replay r true := by
  have hmeets := State.meets_counted hb e
  obtain ⟨c, hc, -⟩ := hmeets.block
  refine ⟨_, hmeets.trans fun d hd => (State.meets_errTaken hd).1, fun d hd => ?_, ?_⟩
  · obtain ⟨d', hd', hseen⟩ := (State.meets_errTaken hc).2
    rw [hd] at hd'
    exact Option.some.inj hd' ▸ hseen
  · rw [State.roomError_eq hb herror hfailed, hprogram, if_neg (by decide), if_neg hmove, if_pos hexecs]

/-- In its third execution the block fails, or goes on when the error lies in its data alone. -/
theorem State.roomError_last (hb : (s.room r).block = some b) (herror : b.error = none) (hfailed : b.failed = false) (hprogram : e.isProgram = false)
    (hmove : e ≠ .forcedMove) (hexecs : 3 ≤ b.execs) : ∃ t : State, (s.meetEvent e).Meets t r b ∧
      s.roomError r e = if e.isData then t.setRoom r (t.room r).errTaken else (t.note (.room r) 0).failBlock r := by
  refine ⟨_, State.meets_counted hb e, ?_⟩
  rw [State.roomError_eq hb herror hfailed, hprogram, if_neg (by decide), if_neg hmove, if_neg (by omega)]

end

/-! ## The watchdog (R297, R393, R460) -/

/-- A room whose block is abandoned. -/
def Room.abandoned (x : Room) : Room := { x with block := none, blockDone := false, atBarrier := false, fenceWait := false, queues := [], keyHeld := false }

/-- A block of a partition that is torn down is abandoned: its room holds none, and its channels hold no descriptor. -/
theorem State.abandon_spec (s : State) (r : Nat) : ((s.abandon r).room r).block = none ∧ (∀ c, c < 16 → (((s.abandon r).room r).chan c).issued = []) ∧
    (∀ q, q ≠ r → (s.abandon r).room q = s.room q) ∧ (s.abandon r).mem = s.mem ∧ (s.abandon r).parts = s.parts ∧ (s.abandon r).fns = s.fns := by
  obtain ⟨hstops, hhalted⟩ := s.cancelChannels_spec r
  obtain ⟨u, hu⟩ : ∃ u, u = s.cancelChannels r := ⟨_, rfl⟩
  have heq : s.abandon r = u.setRoom r (u.room r).abandoned := by rw [hu]; rfl
  rw [heq, State.room_setRoom_same]
  rw [← hu] at hstops hhalted
  obtain ⟨⟨_, _, hrest⟩, hothers⟩ := hstops.trans (u.stopsIn_setRoom r (u.room r).abandoned)
  refine ⟨rfl, hhalted.idle, hothers, ?_⟩
  rw [hrest]
  exact ⟨rfl, rfl, rfl⟩

theorem State.counts_of_watchdogDue {s : State} {r : Nat} {b : Block} (hb : (s.room r).block = some b) (h : s.watchdogDue r = true) :
    (s.room r).brk.stopped = false ∧ b.failed = false := by
  simp only [State.watchdogDue, State.blockCounts, hb, Bool.and_eq_true, Bool.not_eq_true'] at h
  obtain ⟨⟨⟨⟨⟨hstopped, -⟩, hfailed⟩, -⟩, -⟩, -⟩ := h
  exact ⟨hstopped, hfailed⟩

/-- An expiry held back counts nothing yet. -/
theorem State.meets_expiries (s : State) (r : Nat) (b : Block) (es : List (Option (Nat × Nat))) :
    s.Meets (s.setRoom r { s.room r with block := some { b with expiries := es, errSeen := true } }) r b :=
  .of_setRoom (c := { b with expiries := es, errSeen := true }) rfl ⟨rfl, rfl, rfl, rfl, rfl, fun _ => rfl, rfl⟩ rfl rfl rfl

/-- An expiry of a block that is not abandoned: it replays before its third execution, and fails in it. -/
theorem State.watchdog_spec {s : State} {r : Nat} {b : Block} (hb : (s.room r).block = some b) (htorn : s.torn r = false) :
    ∃ t : State, s.Meets t r b ∧ (∀ c, (t.room r).block = some c → c.errSeen = true) ∧ s.watchdog r = if b.execs < 3 then t.replay r true else t.failBlock r := by
  have hflush (es : List (Option (Nat × Nat))) (flush : Bool) : ∃ t : State, t = (if flush then
        (s.setRoom r { s.room r with block := some { b with expiries := es, errSeen := true } }).flushExpiries r
        else s.setRoom r { s.room r with block := some { b with expiries := es, errSeen := true } }) ∧
      s.Meets t r b ∧ ∀ c, (t.room r).block = some c → c.errSeen = true := by
    have hheld := s.meets_expiries r b es
    obtain ⟨u, hu⟩ : ∃ u, u = s.setRoom r { s.room r with block := some { b with expiries := es, errSeen := true } } := ⟨_, rfl⟩
    have hublock : (u.room r).block = some { b with expiries := es, errSeen := true } := by rw [hu, State.room_setRoom_same]
    rw [← hu] at hheld ⊢
    refine ⟨_, rfl, ?_⟩
    have hmeets := State.meets_flushExpiries hublock
    cases flush with
    | true =>
      refine ⟨hheld.trans fun c hc => State.meets_flushExpiries hc, fun c hc => ?_⟩
      obtain ⟨d, hd, -, -, -, -, -, hseen, -⟩ := hmeets.block
      rw [if_pos rfl, hd] at hc
      exact Option.some.inj hc ▸ hseen rfl
    | false =>
      refine ⟨hheld, fun c hc => ?_⟩
      rw [if_neg (by decide), hublock] at hc
      exact Option.some.inj hc ▸ rfl
  unfold State.watchdog
  simp only [hb, htorn, Bool.false_eq_true, if_false]
  generalize (s.room r).headWaits b = w
  generalize hes : b.expiries ++ [w] = es
  generalize (w.isSome && es.all fun e => e == w) = same
  split
  · obtain ⟨t, ht, hmeets, hseen⟩ := hflush es (!same)
    refine ⟨t, hmeets, hseen, ?_⟩
    rw [ht]
    cases same <;> rfl
  · split
    · obtain ⟨t, ht, hmeets, hseen⟩ := hflush [] false
      exact ⟨t, hmeets, hseen, by rw [ht]; rfl⟩
    · obtain ⟨t, ht, hmeets, hseen⟩ := hflush es true
      exact ⟨t, hmeets, hseen, by rw [ht]; rfl⟩

/-! ## WATCHDOG_EXPIRY, ROOM_ERROR and INSTRUCTION_PARITY_TRAP -/

section
variable {s : State} {r : RoomId} {p : Nat} {b : Block}

theorem State.watchdogExpiry_abandons (hb : (s.room r).block = some b) (hdue : s.watchdogDue r = true) (htorn : s.torn r = true) :
    exec (.watchdogExpiry r) s = .next (s.abandon r) := by
  change execWatchdogExpiry r s = _
  simp only [execWatchdogExpiry, hdue, if_true, State.watchdog, hb, htorn]

theorem State.watchdogExpiry_early (h : s.watchdogDue r = false) : exec (.watchdogExpiry r) s = .next s := by
  change execWatchdogExpiry r s = _
  simp only [execWatchdogExpiry, h, Bool.false_eq_true, if_false]

theorem State.watchdogExpiry_replays (howner : s.ownerOf r = some p) (hb : (s.room r).block = some b) (hex : b.exchange = false) (hheld : s.replayHeld r = false)
    (hdue : s.watchdogDue r = true) (htorn : s.torn r = false) (hexecs : b.execs < 3) : ∃ t : State, exec (.watchdogExpiry r) s = .next t ∧ s.Replayed t r b := by
  obtain ⟨t, hmeets, hseen, heq⟩ := State.watchdog_spec hb htorn
  obtain ⟨hstopped, hfailed⟩ := State.counts_of_watchdogDue hb hdue
  refine ⟨t.replay r true, ?_, hmeets.replayed howner hex hfailed hstopped hheld htorn hseen⟩
  change execWatchdogExpiry r s = _
  rw [execWatchdogExpiry, if_pos hdue, heq, if_pos hexecs]

theorem State.watchdogExpiry_fails (hb : (s.room r).block = some b) (hdue : s.watchdogDue r = true) (htorn : s.torn r = false) (hexecs : 3 ≤ b.execs) :
    ∃ t : State, exec (.watchdogExpiry r) s = .next t ∧ s.BlockFails t r b := by
  obtain ⟨t, hmeets, -, heq⟩ := State.watchdog_spec hb htorn
  refine ⟨t.failBlock r, ?_, hmeets.fails⟩
  change execWatchdogExpiry r s = _
  rw [execWatchdogExpiry, if_pos hdue, heq, if_neg (by omega)]

theorem State.exec_roomError {e : RoomEvent} (h : e ≠ .watchdog) : exec (.roomError r e) s = .next (s.roomError r e) := by
  change execRoomError r e s = _
  rw [execRoomError, if_neg h]

/-- A replay that no hold, no break and no teardown stops is made in full. -/
theorem State.roomError_replayed {e : RoomEvent} (howner : s.ownerOf r = some p) (hb : (s.room r).block = some b) (hex : b.exchange = false) (herror : b.error = none)
    (hfailed : b.failed = false) (hbrk : (s.room r).brk.stopped = false) (hheld : s.replayHeld r = false) (htorn : s.torn r = false) (hprogram : e.isProgram = false)
    (hmove : e ≠ .forcedMove) (hexecs : b.execs < 3) : (s.meetEvent e).Replayed (s.roomError r e) r b := by
  obtain ⟨t, hmeets, hseen, heq⟩ := State.roomError_replays hb herror hfailed hprogram hmove hexecs
  obtain ⟨-, -, hparts, -, hboot, hroom⟩ := s.errorStored_meetEvent e
  rw [heq]
  refine hmeets.replayed ((State.ownerOf_congr hparts r).trans howner) hex hfailed ?_ ((State.replayHeld_congr hparts hboot r).trans hheld)
    ((State.torn_congr hparts r).trans htorn) hseen
  rw [hroom r]
  exact hbrk

theorem State.roomError_failed {e : RoomEvent} (hb : (s.room r).block = some b) (herror : b.error = none) (hfailed : b.failed = false)
    (h : e.isProgram = true ∨ e.isProgram = false ∧ e ≠ .forcedMove ∧ 3 ≤ b.execs ∧ e.isData = false) : (s.meetEvent e).BlockFails (s.roomError r e) r b := by
  rcases h with hprogram | ⟨hprogram, hmove, hexecs, hdata⟩
  · rw [State.roomError_eq hb herror hfailed, if_pos hprogram]
    exact (State.Meets.refl (State.meetEvent_block hb e)).fails
  · obtain ⟨t, hmeets, heq⟩ := State.roomError_last hb herror hfailed hprogram hmove hexecs
    rw [heq, hdata, if_neg (by decide)]
    exact (hmeets.note _ _).fails

/-- An operand memory error or a mismatch in the third execution lets the block go on with the error remembered (R459). -/
theorem State.roomError_goesOn {e : RoomEvent} (hb : (s.room r).block = some b) (herror : b.error = none) (hfailed : b.failed = false) (hexecs : 3 ≤ b.execs)
    (hdata : e.isData = true) : ∃ c : Block, ((s.roomError r e).room r).block = some c ∧ c.failed = false ∧ c.errSeen = true ∧ c.replays = b.replays ∧
      ((s.roomError r e).room r).channels = (s.room r).channels ∧ (s.roomError r e).mem.attic = s.mem.attic ∧ (s.roomError r e).mem.cellar = s.mem.cellar := by
  have hkind : e.isProgram = false ∧ e ≠ .forcedMove := by cases e <;> simp_all [RoomEvent.isData, RoomEvent.isProgram]
  obtain ⟨t, hmeets, heq⟩ := State.roomError_last hb herror hfailed hkind.1 hkind.2 hexecs
  rw [heq, hdata, if_pos rfl]
  obtain ⟨d, hd, -⟩ := hmeets.block
  obtain ⟨htaken, -⟩ := State.meets_errTaken hd
  obtain ⟨c, hc, hcseen⟩ := (State.meets_errTaken hd).2
  have hall := hmeets.trans fun d hd => (State.meets_errTaken hd).1
  obtain ⟨c', hc', -, hreplays, -, hcfailed, -⟩ := hall.block
  obtain rfl : c = c' := Option.some.inj (hc.symm.trans hc')
  obtain ⟨hattic, hcellar, -, -, -, hroom⟩ := s.errorStored_meetEvent e
  refine ⟨c, hc, hcfailed.trans hfailed, hcseen, hreplays, hall.channels.trans ?_, hall.attic.trans hattic, hall.cellar.trans hcellar⟩
  rw [hroom r]

/-- The second retry that fails is an error of the block, which replays (R303). -/
theorem State.instructionParityTrap_replays (hrefetch : (s.room r).refetch ≠ 0) (howner : s.ownerOf r = some p) (hb : (s.room r).block = some b)
    (hex : b.exchange = false) (herror : b.error = none) (hfailed : b.failed = false) (hbrk : (s.room r).brk.stopped = false) (hheld : s.replayHeld r = false)
    (htorn : s.torn r = false) (hexecs : b.execs < 3) : ∃ t : State, exec (.instructionParityTrap r false) s = .next t ∧ s.Replayed t r b := by
  obtain ⟨x, hx⟩ : ∃ x, x = { s.room r with refetch := 0, counters := { (s.room r).counters with ibuf := satInc (s.room r).counters.ibuf } } := ⟨_, rfl⟩
  have hxblock : x.block = some b ∧ x.blockCounter = (s.room r).blockCounter ∧ x.brk = (s.room r).brk ∧ x.channels = (s.room r).channels := by
    rw [hx]
    exact ⟨hb, rfl, rfl, rfl⟩
  obtain ⟨hxb, hxcounter, hxbrk, hxchannels⟩ := hxblock
  have hset : s.Meets (s.setRoom r x) r b := .of_setRoom hxb ⟨rfl, rfl, rfl, rfl, rfl, id, rfl⟩ hxcounter hxbrk hxchannels
  have htblock : ((s.setRoom r x).room r).block = some b := by rw [State.room_setRoom_same, hxb]
  obtain ⟨t, hmeets, hseen, heq⟩ := State.roomError_replays (e := .ibufParity) htblock herror hfailed rfl (by simp) hexecs
  have hexec : exec (.instructionParityTrap r false) s = .next ((s.setRoom r x).roomError r .ibufParity) := by
    change execInstructionParityTrap r false s = _
    simp only [execInstructionParityTrap, Bool.false_eq_true, if_false, hrefetch, hx]
  refine ⟨t.replay r true, by rw [hexec, heq], Meets.replayed (hset.trans fun c hc => ?_) howner hex hfailed hbrk hheld htorn hseen⟩
  obtain rfl : b = c := Option.some.inj (htblock.symm.trans hc)
  exact hmeets

theorem State.instructionParityTrap_counts (s : State) (r : RoomId) :
    exec (.instructionParityTrap r true) s = .next (s.setRoom r { s.room r with
      refetch := 0, counters := { (s.room r).counters with ibuf := satInc (s.room r).counters.ibuf } }) ∧
    ((s.room r).refetch = 0 → exec (.instructionParityTrap r false) s = .next (s.setRoom r { s.room r with
      refetch := 1, counters := { (s.room r).counters with ibuf := satInc (s.room r).counters.ibuf } })) := by
  refine ⟨rfl, fun hrefetch => ?_⟩
  change execInstructionParityTrap r false s = _
  simp only [execInstructionParityTrap, Bool.false_eq_true, if_false, hrefetch, if_true]

end

/-! ## PAU_RETIRE (R461, R462) -/

/-- A decision that sets DEGRADED leaves all but flags, histories and ledger of Gysis and the functions' causes as they are. -/
theorem State.degraded_decided (s : State) (code level kind : Nat) (irq rep : Bool) (room unit wher count : Nat) :
    ∃ fns g, s.decided code level kind irq true rep room unit wher count = { s with fns := fns, gysis := g } ∧ g.degraded = true := by
  obtain ⟨fns, g, ht⟩ := s.decided_flagged code level kind irq true rep room unit wher count
  have hdeg := s.decided_degraded code level kind irq rep room unit wher count
  rw [ht] at hdeg
  exact ⟨fns, g, ht, hdeg⟩

theorem State.note_degraded (s : State) (c : FaultChan) (kind : Nat) (h : s.gysis.degraded = true) : (s.note c kind).gysis.degraded = true :=
  (s.reports_note c kind).degraded h

theorem exec_pauRetire_spec {s : State} {r : RoomId} {k : Fin 4} (hkat : (s.room r).kat = true) (hnew : (s.room r).pauRetired.getLsbD k = false) (hok : s.roomOk r = true)
    (hboundary : (s.room r).atBoundary = true) : ∃ t : State, exec (.pauRetire r k) s = .next t ∧
      (t.room r).pauRetired = (s.room r).pauRetired ||| BitVec.ofNat 4 (2 ^ k.val) ∧ .pau r k ∈ t.nvm.record ∧ t.gysis.degraded = true ∧
      (∀ q, q ≠ r.val → t.room q = s.room q) ∧ t.mem = s.mem ∧ t.parts = s.parts := by
  obtain ⟨x, hx⟩ : ∃ x, x = { s.room r with pauRetired := (s.room r).pauRetired ||| BitVec.ofNat 4 (2 ^ k.val) } := ⟨_, rfl⟩
  obtain ⟨t, ht⟩ : ∃ t, t = (s.setRoom r x).note (.pau r k) 3 := ⟨_, rfl⟩
  obtain ⟨fns, g, hu, hdeg⟩ := (t.persist (.pau r k)).degraded_decided 0x0010 1 2 true (decide (2 ≤ t.retiredPaus)) r k k 1
  obtain ⟨u, heq⟩ : ∃ u, u = (t.persist (.pau r k)).decided 0x0010 1 2 true true (decide (2 ≤ t.retiredPaus)) r k k 1 := ⟨_, rfl⟩
  rw [← heq] at hu
  have hexec : exec (.pauRetire r k) s = .next (if (u.room r).pausLeft < 3 then u.note (.room r) 3 else u) := by
    change execPauRetire r k s = _
    simp only [execPauRetire, hkat, hnew, hok, hboundary, Bool.not_true, Bool.or_self, Bool.false_eq_true, if_false, heq, ht, hx]
  have hudeg : u.gysis.degraded = true := by rw [hu]; exact hdeg
  have hrecord : .pau r k ∈ u.nvm.record := by rw [hu]; exact t.mem_persist (.pau r k)
  have hrest : u.rooms = (s.setRoom r x).rooms ∧ u.mem = s.mem ∧ u.parts = s.parts := by
    rw [hu, ht, State.note_eq]
    exact ⟨rfl, rfl, rfl⟩
  obtain ⟨v, hv⟩ : ∃ v, v = if (u.room r).pausLeft < 3 then u.note (.room r) 3 else u := ⟨_, rfl⟩
  have hvu : v = { u with gysis := v.gysis } ∧ v.gysis.degraded = true := by
    rw [hv]
    split
    · exact ⟨u.note_eq _ _, u.note_degraded _ _ hudeg⟩
    · exact ⟨rfl, hudeg⟩
  obtain ⟨hvrest, hvdeg⟩ := hvu
  obtain ⟨hrooms, hmem, hparts⟩ := hrest
  have hroom (q : Nat) : v.room q = (s.setRoom r x).room q := by
    rw [hvrest]
    exact congrArg (fun l => Tab.get {} l q) hrooms
  refine ⟨v, by rw [hexec, hv], ?_, ?_, hvdeg, fun q hq => ?_, ?_, ?_⟩
  · rw [hroom, State.room_setRoom_same, hx]
  · rw [hvrest]; exact hrecord
  · rw [hroom, State.room_setRoom, if_neg hq]
  · rw [hvrest]; exact hmem
  · rw [hvrest]; exact hparts

theorem exec_pauRetire_none {s : State} {r : RoomId} {k : Fin 4} (h : (s.room r).kat = false ∨ (s.room r).atBoundary = false) : exec (.pauRetire r k) s = .next s := by
  change execPauRetire r k s = _
  rcases h with h | h <;> simp [execPauRetire, h]

/-! ## What the work of a retirement keeps (R463) -/

/-- From `s` to `t` nothing that was reported is taken back; records, fuses, device state and power stand, no room is retired or comes back, and every partition keeps its rooms. -/
structure State.Remains (s t : State) : Prop where
  reports : s.Reports t
  nvm : t.nvm = s.nvm
  boot : t.boot = s.boot
  power : t.power = s.power
  retired : ∀ q, (t.room q).retired = (s.room q).retired
  rooms : ∀ p, (t.part p).rooms = (s.part p).rooms

theorem State.Remains.refl (s : State) : s.Remains s := ⟨.of_gysis rfl, rfl, rfl, rfl, fun _ => rfl, fun _ => rfl⟩

theorem State.Remains.trans {s t u : State} (h : s.Remains t) (h' : t.Remains u) : s.Remains u :=
  ⟨h.reports.trans h'.reports, h'.nvm.trans h.nvm, h'.boot.trans h.boot, h'.power.trans h.power, fun q => (h'.retired q).trans (h.retired q),
    fun p => (h'.rooms p).trans (h.rooms p)⟩

theorem State.Remains.foldl {α : Type} {f : State → α → State} (hf : ∀ (t : State) a, t.Remains (f t a)) (l : List α) (s : State) : s.Remains (l.foldl f s) :=
  foldl_inv (fun t => s.Remains t) (fun _ a ht => ht.trans (hf _ a)) l s (.refl s)

theorem State.remains_setRoom (s : State) (r : Nat) (x : Room) (h : x.retired = (s.room r).retired) : s.Remains (s.setRoom r x) := by
  refine ⟨.of_gysis rfl, rfl, rfl, rfl, fun q => ?_, fun _ => rfl⟩
  rw [State.room_setRoom]
  split
  next hq => rw [hq]; exact h
  next => rfl

theorem State.remains_setPart (s : State) (p : Nat) (x : Part) (h : x.rooms = (s.part p).rooms) : s.Remains (s.setPart p x) := by
  refine ⟨.of_gysis rfl, rfl, rfl, rfl, fun _ => rfl, fun q => ?_⟩
  rw [State.part_setPart]
  split
  next hq => rw [hq]; exact h
  next => rfl

theorem State.remains_of_gysis {s t : State} (ht : t = { s with gysis := t.gysis }) (h : s.Reports t) : s.Remains t := by
  refine ⟨h, ?_, ?_, ?_, fun q => ?_, fun p => ?_⟩ <;> rw [ht] <;> rfl

theorem State.remains_of_fns {s t : State} (h : ∃ fns, t = { s with fns := fns }) : s.Remains t := by
  obtain ⟨_, rfl⟩ := h
  exact ⟨.of_gysis rfl, rfl, rfl, rfl, fun _ => rfl, fun _ => rfl⟩

theorem State.remains_note (s : State) (c : FaultChan) (kind : Nat) : s.Remains (s.note c kind) := State.remains_of_gysis (s.note_eq c kind) (s.reports_note c kind)

theorem State.remains_record (s : State) (e : LedgerEntry) : s.Remains (s.record e) :=
  State.remains_of_gysis rfl ⟨fun _ hn => hn, fun _ he => List.mem_append_left _ he, id, id⟩

theorem State.remains_writeSpan (s : State) (room : Nat) (cellar : Bool) (off : Nat) (data : List Byte) : s.Remains (s.writeSpan room cellar off data) := by
  unfold State.writeSpan
  split
  · rw [← s.cellarWrite_rest room off data]
    exact ⟨.of_gysis rfl, rfl, rfl, rfl, fun _ => rfl, fun _ => rfl⟩
  · exact ⟨.of_gysis rfl, rfl, rfl, rfl, fun _ => rfl, fun _ => rfl⟩

theorem State.StopsIn.remains {s t : State} {r : Nat} (h : s.StopsIn t r) (hretired : (t.room r).retired = (s.room r).retired) : s.Remains t := by
  obtain ⟨⟨_, _, hrest⟩, hothers⟩ := h
  refine ⟨?_, ?_, ?_, ?_, fun q => ?_, fun p => ?_⟩
  · exact .of_gysis (by rw [hrest])
  · rw [hrest]
  · rw [hrest]
  · rw [hrest]
  · by_cases hq : q = r
    · rw [hq, hretired]
    · rw [hothers q hq]
  · rw [hrest]; rfl

theorem State.stopsIn_stopChannel (s : State) (r c cause at_ : Nat) : s.StopsIn (s.stopChannel r c cause at_) r := ⟨⟨_, _, rfl⟩, (s.stopChannel_halts r c cause at_).others⟩

theorem State.remains_stopChannel (s : State) (r c cause at_ : Nat) : s.Remains (s.stopChannel r c cause at_) :=
  (s.stopsIn_stopChannel r c cause at_).remains (by rw [State.room_stopChannel, if_pos rfl]; rfl)

theorem State.cancelChannels_retired (s : State) (r : Nat) : ((s.cancelChannels r).room r).retired = (s.room r).retired := by
  obtain ⟨-, ⟨_, _, _, _, hroom⟩, -⟩ := s.cancelChannels_spec r
  rw [hroom]

theorem State.remains_cancelChannels (s : State) (r : Nat) : s.Remains (s.cancelChannels r) := (s.cancelChannels_spec r).1.remains (s.cancelChannels_retired r)

theorem Room.programFault_retired (x : Room) : x.programFault.retired = x.retired := by
  unfold Room.programFault
  split <;> rfl

theorem Room.restart_retired (x : Room) (keepErr : Bool) : (x.restart keepErr).retired = x.retired := by
  unfold Room.restart
  split <;> rfl

theorem State.remains_failBlock (s : State) (r : Nat) : s.Remains (s.failBlock r) := by
  have hcancel := s.remains_cancelChannels r
  unfold State.failBlock
  generalize s.cancelChannels r = t at hcancel
  exact hcancel.trans (t.remains_setRoom r _ (Room.programFault_retired _))

theorem State.remains_abandon (s : State) (r : Nat) : s.Remains (s.abandon r) := by
  have hcancel := s.remains_cancelChannels r
  unfold State.abandon
  generalize s.cancelChannels r = t at hcancel
  exact hcancel.trans (t.remains_setRoom r _ rfl)

theorem State.remains_replayOne (s : State) (keepErr : Bool) (r : Nat) : s.Remains (s.replayOne keepErr r) := by
  have hcancel := s.remains_cancelChannels r
  have habandon := s.remains_abandon r
  unfold State.replayOne
  generalize s.cancelChannels r = t at hcancel
  generalize s.abandon r = u at habandon
  extract_lets x
  split
  · split
    · exact .refl s
    · split
      · exact habandon
      · split
        · exact s.remains_setRoom r _ rfl
        · exact hcancel.trans (t.remains_setRoom r _ (Room.restart_retired _ _))
  · exact .refl s

theorem State.remains_flushExpiries (s : State) (r : Nat) : s.Remains (s.flushExpiries r) := by
  unfold State.flushExpiries
  extract_lets x
  split
  next b _ =>
    exact (s.remains_setRoom r { x with block := some { b with expiries := [] } } rfl).trans (State.Remains.foldl (fun t _ => t.remains_note _ _) _ _)
  next => exact .refl s

/-! ## The reflow (step 3 of R463) -/

theorem State.remains_moveAll (s : State) (ms : List Move) : s.Remains (s.moveAll ms) :=
  .foldl (fun t m => by
    split
    · exact .refl t
    · exact t.remains_writeSpan ..) ms s

theorem State.remains_keyLost (s : State) (p index : Nat) : s.Remains (s.keyLost p index) := by
  unfold State.keyLost
  extract_lets x k src e
  obtain ⟨y, hy⟩ : ∃ y, y = { x.setKey index { k with cur := none, prev := none, waitRooms := [] } with pins := x.pins.filter (fun q => q.lut || q.key != index) } := ⟨_, rfl⟩
  have hrooms : y.rooms = (s.part p).rooms := by rw [hy]; rfl
  exact hy ▸ (s.remains_setPart p y hrooms).trans (State.remains_record _ e)

theorem State.remains_reflowHdr (s : State) (p room : Nat) (x y : Part) (index : Nat) (prev : Bool) (h : KeyHdr) : s.Remains (s.reflowHdr p room x y index prev h) := by
  unfold State.reflowHdr
  split
  · split
    · exact s.remains_setPart p _ rfl
    · exact s.remains_keyLost p index
  · exact s.remains_moveAll _

theorem State.remains_reflowKey (s : State) (p room : Nat) (x y : Part) (index : Nat) : s.Remains (s.reflowKey p room x y index) := by
  unfold State.reflowKey
  extract_lets k t
  have ht : s.Remains t := by
    unfold t
    split
    · exact s.remains_reflowHdr ..
    · exact .refl s
  split
  · exact ht.trans (t.remains_reflowHdr ..)
  · exact ht

theorem State.remains_reflowPin (s : State) (p room : Nat) (x y : Part) (q : Pin) : s.Remains (s.reflowPin p room x y q) := by
  unfold State.reflowPin
  split
  · split
    · exact s.remains_setPart p _ rfl
    · exact s.remains_moveAll _
  · exact .refl s

theorem State.remains_jobFails (s : State) (p status : Nat) : s.Remains (s.jobFails p status) := s.remains_setPart p _ rfl

theorem State.remains_reflowObject (s : State) (p room : Nat) (x y : Part) (pl : Place) : s.Remains (s.reflowObject p room x y pl) := by
  unfold State.reflowObject
  extract_lets l m
  split
  · exact .refl s
  · split
    · exact s.remains_jobFails p _
    · exact (s.remains_moveAll _).trans (.foldl (fun t r => t.remains_writeSpan ..) _ _)

theorem State.remains_refill (y : Part) (room : Nat) (s : State) (e : KeyEntry) : s.Remains (State.refill y room s e) := by
  unfold State.refill
  split
  · split
    · exact .refl s
    · refine .foldl (fun t q => ?_) _ s
      split
      · exact t.remains_writeSpan room false _ _
      · exact .refl t
  · exact .refl s

theorem State.remains_redealWindow (y : Part) (s : State) (room : Nat) : s.Remains (State.redealWindow y s room) := by
  unfold State.redealWindow
  extract_lets x kept t deal z
  exact State.Remains.trans (.foldl (State.remains_refill y room) _ s) (t.remains_setRoom room _ rfl)

theorem State.remains_reflow (s : State) (p room : Nat) (x y : Part) (live : List Place) : s.Remains (s.reflow p room x y live) := by
  unfold State.reflow
  extract_lets t u w
  have ht : s.Remains t := .foldl (fun v i => v.remains_reflowKey p room x y i) _ s
  have hpins : t.Remains (x.pins.foldl (fun v q => v.reflowPin p room x y q) t) := .foldl (fun v q => v.remains_reflowPin p room x y q) _ t
  have hu : t.Remains u := hpins.trans (.foldl (State.remains_redealWindow y) _ _)
  have hw : u.Remains w := .foldl (fun v pl => v.remains_reflowObject p room x y pl) _ u
  exact ((ht.trans hu).trans hw).trans (.foldl (fun v r => v.remains_setRoom r ((v.room r).dealBatches (x.rooms.flatMap fun k => (s.room k).batchesDone)) rfl) _ w)

theorem State.remains_busStreams (s : State) (p r : Nat) : s.Remains (s.busStreams p r) := by
  unfold State.busStreams
  extract_lets x
  refine .foldl (fun t room => ?_) _ s
  refine .foldl (fun u c => ?_) _ t
  split
  · exact u.remains_stopChannel ..
  · exact .refl u

/-! ## A room goes (R399, R456, R463, R466) -/

theorem State.remains_partChanged (s : State) (p : Nat) : s.Remains (s.partChanged p) := State.remains_of_fns (s.partChanged_spec p).1

/-- A partition whose twin is frozen as it ends the pair. -/
def Part.frozenTwin (x : Part) : Part := { x with pair := { x.pair with state := .frozen, key := none } }

/-- The freezing of a twin changes its partition's pair and sends two messages (R453). -/
theorem State.freezeTwin_rest (s : State) (p : Nat) : (∃ parts fns out, s.freezeTwin p = { s with parts := parts, fns := fns, out := out }) ∧
    ∀ q, ((s.freezeTwin p).part q).rooms = (s.part q).rooms := by
  by_cases h : (s.part p).paired = true
  · obtain ⟨e, he⟩ : ∃ e, e = OutEvent.mirror 7 (s.part p).pair.peerModule (s.part p).pair.peerPart [] := ⟨_, rfl⟩
    have heq : s.freezeTwin p = ((s.emit e).setPart p (s.part p).frozenTwin).partChanged p := by
      rw [he]
      exact if_pos h
    obtain ⟨fns, hfns⟩ := (((s.emit e).setPart p (s.part p).frozenTwin).partChanged_spec p).1
    rw [heq, hfns]
    exact ⟨⟨_, _, _, rfl⟩, ((s.emit e).remains_setPart p (s.part p).frozenTwin rfl).rooms⟩
  · have heq : s.freezeTwin p = s := if_neg h
    rw [heq]
    exact ⟨⟨_, _, _, rfl⟩, fun _ => rfl⟩

theorem State.remains_freezeTwin (s : State) (p : Nat) : s.Remains (s.freezeTwin p) := by
  obtain ⟨⟨_, _, _, h⟩, hrooms⟩ := s.freezeTwin_rest p
  refine ⟨?_, ?_, ?_, ?_, fun q => ?_, hrooms⟩
  · exact .of_gysis (by rw [h])
  all_goals rw [h]
  rfl

/-- The room that is lost: it holds nothing any more. -/
structure Room.Lost (x : Room) : Prop where
  retired : x.retired = true
  block : x.block = none
  noiseKey : x.noiseKey = none
  queues : x.queues = []

/-- What a lost room is left with (R273, R463). -/
def Room.lost (x : Room) : Room :=
  { x with retired := true, noiseKey := none, keyHeld := false, block := none, blockDone := false, queues := [], channels := [], flagWait := none }

/-- A table that is written at some indices holds the value written there. -/
theorem Tab.get_foldl_const {α : Type} [DecidableEq α] (d v : α) (l : List Nat) (t : Tab α) (k : Nat) :
    Tab.get d (l.foldl (fun u j => Tab.set d u j v) t) k = if k ∈ l then v else Tab.get d t k := by
  induction l generalizing t with
  | nil => simp
  | cons j l ih =>
    rw [List.foldl_cons, ih, Tab.get_set]
    by_cases hk : k ∈ l
    · simp [hk]
    · simp [hk]

/-- The module loses a room: the room holds nothing, its domains stay off, no other room changes, and the partitions and what was reported stand. -/
theorem State.loseRoom_spec (s : State) (r : Nat) : ((s.loseRoom r).room r).Lost ∧ (∀ d, d ∈ roomDomains r → (s.loseRoom r).domain d = .heldOff) ∧
    (∀ q, q ≠ r → (s.loseRoom r).room q = s.room q) ∧ ∃ rooms power links, s.loseRoom r = { s with rooms := rooms, power := power, links := links } := by
  have hroom (q : Nat) : (s.loseRoom r).room q = (s.setRoom r (s.room r).lost).room q := rfl
  refine ⟨?_, fun d hd => ?_, fun q hq => ?_, ⟨_, _, _, rfl⟩⟩
  · rw [hroom, State.room_setRoom_same]
    exact ⟨rfl, rfl, rfl, rfl⟩
  · exact (Tab.get_foldl_const .off .heldOff (roomDomains r) s.power.domains d).trans (if_pos hd)
  · rw [hroom, State.room_setRoom, if_neg hq]

/-- The decision is recorded, and both flags are set (R462, R465). -/
theorem State.decideRoom_spec (s : State) (r : Nat) : .room r ∈ (s.decideRoom r).nvm.record ∧ (s.decideRoom r).gysis.degraded = true ∧
    (s.decideRoom r).gysis.replaceRequested = true ∧ (s.decideRoom r).nvm.image = s.nvm.image ∧ (s.decideRoom r).boot = s.boot ∧ (s.decideRoom r).rooms = s.rooms ∧
    (s.decideRoom r).parts = s.parts := by
  unfold State.decideRoom
  obtain ⟨n, hn⟩ : ∃ n, n = (s.events (.room r) [0, 2, 3]).length := ⟨_, rfl⟩
  rw [← hn]
  obtain ⟨t, ht⟩ : ∃ t, (s.persist (.room r)).decided 0x0011 2 2 true true true r 255 (s.decidingCode r) n = t := ⟨_, rfl⟩
  obtain ⟨hdeg, hrep, -⟩ := State.decided_flags _ _ _ _ _ _ _ _ _ ht
  obtain ⟨fns, g, hrest⟩ := (s.persist (.room r)).decided_flagged 0x0011 2 2 true true true r 255 (s.decidingCode r) n
  rw [ht] at hrest ⊢
  refine ⟨?_, hdeg, hrep, ?_⟩
  · rw [hrest]
    exact s.mem_persist (.room r)
  · rw [hrest]
    exact ⟨rfl, rfl, rfl, rfl⟩

/-! ## ROOM_RETIRE (R399, R456, R463, R466) -/

/-- Room `r` is retired: it and its domains are lost, the decision is recorded with both flags, and no other room is retired. -/
structure State.RoomGone (s t : State) (r : Nat) : Prop where
  lost : (t.room r).Lost
  domains : ∀ d, d ∈ roomDomains r → t.domain d = .heldOff
  record : .room r ∈ t.nvm.record
  image : t.nvm.image = s.nvm.image
  degraded : t.gysis.degraded = true
  replace : t.gysis.replaceRequested = true
  retired : ∀ q, q ≠ r → (t.room q).retired = (s.room q).retired

theorem State.RoomGone.remains {s t u : State} {r : Nat} (h : s.RoomGone t r) (hu : t.Remains u) (hroom : u.room r = t.room r) : s.RoomGone u r where
  lost := hroom ▸ h.lost
  domains d hd := (congrArg (fun w : Power => Tab.get DomState.off w.domains d) hu.power).trans (h.domains d hd)
  record := hu.nvm ▸ h.record
  image := hu.nvm ▸ h.image
  degraded := hu.reports.degraded h.degraded
  replace := hu.reports.replace h.replace
  retired q hq := (hu.retired q).trans (h.retired q hq)

/-- The decision, the work that follows it, and the loss of the room. -/
theorem State.roomGone_loseRoom {s t : State} {r : Nat} (h : (s.decideRoom r).Remains t) : s.RoomGone (t.loseRoom r) r := by
  obtain ⟨hrecord, hdeg, hrep, himage, -, hrooms, -⟩ := s.decideRoom_spec r
  obtain ⟨hlost, hdomains, hothers, _, _, _, hrest⟩ := t.loseRoom_spec r
  have hroom (q : Nat) : (s.decideRoom r).room q = s.room q := congrArg (fun l => (Tab.get {} l q : Room)) hrooms
  refine ⟨hlost, hdomains, ?_, ?_, ?_, ?_, fun q hq => ?_⟩
  · rw [hrest]; exact h.nvm ▸ hrecord
  · rw [hrest]; exact (congrArg Nvm.image h.nvm).trans himage
  · rw [hrest]; exact h.reports.degraded hdeg
  · rw [hrest]; exact h.reports.replace hrep
  · rw [hothers q hq, h.retired q, hroom q]

/-- Without the room its partition is smaller by that room, and nothing else that the retirement left is touched. -/
theorem State.shrink_spec (s : State) (p r : Nat) : ∃ parts, ({ s with parts := parts } : State).Remains (s.shrink p r) ∧ (∀ q, (s.shrink p r).room q = s.room q) ∧
    ((s.shrink p r).part p).rooms = (s.part p).rooms.filter (· != r) := by
  obtain ⟨x, hx⟩ : ∃ x, x = { s.part p with rooms := (s.part p).rooms.filter (· != r), pendingRooms := passRoom r (s.part p).pendingRooms } := ⟨_, rfl⟩
  obtain ⟨t, ht⟩ : ∃ t, t = s.setPart p x := ⟨_, rfl⟩
  have hclose := State.remains_of_fns (t.closeApertures_fn (p + 1) 0).1
  have hcloseRoom (q : Nat) : (t.closeApertures (p + 1)).room q = t.room q := rfl
  have heq : s.shrink p r = ((t.closeApertures (p + 1)).freezeTwin p).partChanged p := by rw [ht, hx]; rfl
  rw [heq]
  generalize t.closeApertures (p + 1) = u at hclose hcloseRoom
  obtain ⟨⟨_, _, _, hfreeze⟩, -⟩ := u.freezeTwin_rest p
  have hkept := (hclose.trans (u.remains_freezeTwin p)).trans (State.remains_partChanged _ p)
  refine ⟨t.parts, ?_, fun q => ?_, ?_⟩
  · have hparts : ({ s with parts := t.parts } : State) = t := by rw [ht]; rfl
    rw [hparts]
    exact hkept
  · obtain ⟨_, hchanged⟩ := ((u.freezeTwin p).partChanged_spec p).1
    rw [hchanged]
    have hfrozen : (u.freezeTwin p).room q = u.room q := by rw [hfreeze]; rfl
    exact hfrozen.trans ((hcloseRoom q).trans (by rw [ht]; rfl))
  · rw [hkept.rooms p, ht, State.part_setPart_same, hx]

/-- A room that replays or fails its block leaves the others alone. -/
theorem State.room_failBlock (s : State) {r q : Nat} (h : q ≠ r) : (s.failBlock r).room q = s.room q := by
  have hcancel := (s.cancelChannels_spec r).1.others q h
  unfold State.failBlock
  generalize s.cancelChannels r = t at hcancel
  rw [← hcancel]
  exact (t.room_setRoom r q _).trans (if_neg h)

theorem State.room_replayOne (s : State) (keepErr : Bool) {r q : Nat} (h : q ≠ r) : (s.replayOne keepErr r).room q = s.room q := by
  have hcancel := (s.cancelChannels_spec r).1.others q h
  obtain ⟨-, -, habandon, -⟩ := s.abandon_spec r
  unfold State.replayOne
  generalize s.cancelChannels r = t at hcancel
  generalize s.abandon r = u at habandon
  extract_lets x
  split
  · split
    · rfl
    · split
      · exact habandon q h
      · split
        · exact (s.room_setRoom r q _).trans (if_neg h)
        · rw [← hcancel]
          exact (t.room_setRoom r q _).trans (if_neg h)
  · rfl

theorem State.room_flushExpiries (s : State) {r q : Nat} (h : q ≠ r) : (s.flushExpiries r).room q = s.room q := by
  cases hb : (s.room r).block with
  | none => simp only [State.flushExpiries, hb]
  | some b =>
    rw [State.flushExpiries_rest hb]
    exact (s.room_setRoom r q _).trans (if_neg h)

/-- The rooms that are left go on (step 4 of R463). -/
theorem State.resumeRooms_spec (s : State) (p r : Nat) (small : Bool) (h : r ∉ (s.part p).rooms) : s.Remains (s.resumeRooms p small) ∧
    (s.resumeRooms p small).room r = s.room r := by
  unfold State.resumeRooms
  refine ⟨.foldl (fun t q => ?_) _ s, ?_⟩
  · split
    · split
      · exact t.remains_failBlock q
      · exact (t.remains_flushExpiries q).trans (State.remains_replayOne _ true q)
    · exact .refl t
  · refine List.foldlRecOn (motive := fun t => State.room t r = s.room r) _ _ rfl fun t ht q hq => ?_
    have hne : r ≠ q := fun heq => h (heq ▸ hq)
    rw [← ht]
    split
    · split
      · exact t.room_failBlock hne
      · exact (State.room_replayOne _ true hne).trans (t.room_flushExpiries hne)
    · rfl

theorem State.retireFrom_spec (s : State) (p r : Nat) (live : List Place) : s.RoomGone (s.retireFrom p r live) r ∧
    ((s.retireFrom p r live).part p).rooms = (s.part p).rooms.filter (· != r) := by
  unfold State.retireFrom
  extract_lets x rest y small t u
  obtain ⟨-, -, -, -, -, -, hparts⟩ := s.decideRoom_spec r
  have hu : (s.decideRoom r).Remains u := by
    refine ((s.decideRoom r).remains_busStreams p r).trans ?_
    unfold u
    split
    · exact t.remains_jobFails p _
    · exact t.remains_reflow ..
  have hrooms : (u.part p).rooms = (s.part p).rooms := (hu.rooms p).trans (congrArg (fun l => (Tab.get {} l p : Part).rooms) hparts)
  have hgone := State.roomGone_loseRoom hu
  obtain ⟨-, -, -, _, _, _, hlose⟩ := u.loseRoom_spec r
  have hlost : ((u.loseRoom r).part p).rooms = (s.part p).rooms := by rw [← hrooms, hlose]; rfl
  clear_value u
  generalize u.loseRoom r = v at hgone hlost
  obtain ⟨parts, hshrink, hroom, hshrunk⟩ := v.shrink_spec p r
  have hgone' : s.RoomGone ({ v with parts := parts } : State) r :=
    ⟨hgone.lost, hgone.domains, hgone.record, hgone.image, hgone.degraded, hgone.replace, hgone.retired⟩
  have hgone'' := hgone'.remains hshrink (hroom r)
  rw [hlost] at hshrunk
  generalize v.shrink p r = w at hgone'' hshrunk
  obtain ⟨hresume, hkept⟩ := w.resumeRooms_spec p r small (by rw [hshrunk]; simp)
  exact ⟨hgone''.remains hresume hkept, (hresume.rooms p).trans hshrunk⟩

/-- With a room retired, the rooms left are the others that were in service. -/
theorem State.RoomGone.liveRooms {s t : State} {r : Nat} (h : s.RoomGone t r) : t.liveRooms.isEmpty = true ↔ ∀ q, q < 16 → q ≠ r → s.roomOk q = false := by
  have hok (q : Nat) : t.roomOk q = (decide (q ≠ r) && s.roomOk q) := by
    unfold State.roomOk State.roomEnable State.fuse
    rw [h.image]
    by_cases hq : q = r
    · rw [hq, h.lost.retired]
      simp
    · rw [h.retired q hq]
      simp [hq]
  simp only [State.liveRooms, List.isEmpty_iff, List.filter_eq_nil_iff, List.mem_range, hok, Bool.and_eq_true, decide_eq_true_eq, not_and, Bool.not_eq_true]

theorem exec_roomRetire_spec {s : State} {r : RoomId} {live : List Place} (hok : s.roomOk r = true) (hperm : s.permanent (.room r) = true)
    (hready : ∀ p, s.ownerOf r = some p → ∀ k, k ∈ (s.part p).rooms → (s.room k).stopped = true ∧ (k = r.val ∨ (s.stack k).level < 4)) :
    ∃ t : State, exec (.roomRetire r live) s = .next t ∧ (t.room r).retired = true ∧ (t.room r).block = none ∧ (t.room r).noiseKey = none ∧ (t.room r).queues = [] ∧
      .room r ∈ t.nvm.record ∧ t.gysis.degraded = true ∧ t.gysis.replaceRequested = true ∧
      (∀ p, s.ownerOf r = some p → (t.part p).rooms = (s.part p).rooms.filter (· != r.val)) ∧
      ((∃ q, q < 16 ∧ q ≠ r.val ∧ s.roomOk q = true) → ∀ d, d ∈ roomDomains r → t.domain d = .heldOff) ∧
      ((∀ q, q < 16 → q ≠ r.val → s.roomOk q = false) → t.boot.state = .halted) := by
  have hexec : ∃ t : State, exec (.roomRetire r live) s = .next (if t.liveRooms.isEmpty then t.halt 0 else t) ∧ s.RoomGone t r ∧
      ∀ p, s.ownerOf r = some p → (t.part p).rooms = (s.part p).rooms.filter (· != r.val) := by
    cases howner : s.ownerOf r with
    | none =>
      refine ⟨(s.decideRoom r).loseRoom r, ?_, State.roomGone_loseRoom (.refl _), fun p hp => nomatch hp⟩
      change execRoomRetire r live s = _
      simp only [execRoomRetire, hok, hperm, howner, Bool.not_true, Bool.or_self, Bool.false_eq_true, if_false]
    | some p =>
      have hall : ((s.part p).rooms.all fun k => (s.room k).stopped && (k == r.val || decide ((s.stack k).level < 4))) = true :=
        List.all_eq_true.mpr fun k hk => by
          obtain ⟨hstopped, hlevel⟩ := hready p howner k hk
          simpa [hstopped] using hlevel
      obtain ⟨hgone, hrooms⟩ := s.retireFrom_spec p r live
      refine ⟨s.retireFrom p r live, ?_, hgone, fun q hq => Option.some.inj hq ▸ hrooms⟩
      change execRoomRetire r live s = _
      simp only [execRoomRetire, hok, hperm, howner, hall, Bool.not_true, Bool.or_self, Bool.false_eq_true, if_false]
  obtain ⟨t, hexec, hgone, hrooms⟩ := hexec
  have hfrom : ∃ u, u = (if t.liveRooms.isEmpty then t.halt 0 else t) ∧ t.Reports u ∧ u.nvm = t.nvm ∧ u.rooms = t.rooms ∧ u.parts = t.parts ∧
      (t.liveRooms.isEmpty = false → u = t) ∧ (t.liveRooms.isEmpty = true → u.boot.state = .halted) := by
    refine ⟨_, rfl, ?_⟩
    cases hlive : t.liveRooms.isEmpty with
    | false => exact ⟨.of_gysis rfl, rfl, rfl, rfl, fun _ => rfl, fun h => Bool.noConfusion h⟩
    | true =>
      by_cases hhalted : t.boot.state = .halted
      · have hhalt : t.halt 0 = t := if_pos hhalted
        rw [if_pos rfl, hhalt]
        exact ⟨.of_gysis rfl, rfl, rfl, rfl, fun h => Bool.noConfusion h, fun _ => hhalted⟩
      · obtain ⟨hreports, _, _, _, _, _, _, _, hrest⟩ := t.halt_spec hhalted 0
        rw [if_pos rfl]
        refine ⟨hreports, ?_⟩
        rw [hrest]
        exact ⟨rfl, rfl, rfl, fun h => Bool.noConfusion h, fun _ => rfl⟩
  obtain ⟨u, hu, hreports, hnvm, hurooms, huparts, hstays, hhalts⟩ := hfrom
  obtain ⟨⟨hretired, hblock, hkey, hqueues⟩, hdomains, hrecord, -, hdeg, hrep, -⟩ := id hgone
  have hroom : u.room r = t.room r := congrArg (fun l => (Tab.get {} l r.val : Room)) hurooms
  refine ⟨u, by rw [hexec, hu], hroom ▸ hretired, hroom ▸ hblock, hroom ▸ hkey, hroom ▸ hqueues, hnvm ▸ hrecord, hreports.degraded hdeg, hreports.replace hrep,
    fun p hp => ?_, fun hleft d hd => ?_, fun hnone => hhalts (hgone.liveRooms.mpr hnone)⟩
  · exact (congrArg (fun l => (Tab.get {} l p : Part).rooms) huparts).trans (hrooms p hp)
  · obtain ⟨q, hq, hne, hqok⟩ := hleft
    have hsome : t.liveRooms.isEmpty = false := Bool.eq_false_iff.mpr fun hempty => by simp [hgone.liveRooms.mp hempty q hq hne] at hqok
    rw [hstays hsome]
    exact hdomains d hd

theorem exec_roomRetire_none {s : State} {r : RoomId} {live : List Place} (h : s.roomOk r = false ∨ s.permanent (.room r) = false) :
    exec (.roomRetire r live) s = .next s := by
  change execRoomRetire r live s = _
  rcases h with h | h <;> simp [execRoomRetire, h]

/-! ## SECURITY_ENGINE_RETIRE (R453, R456, R462) -/

theorem exec_securityEngineRetire_spec {s : State} (hlive : s.sec.retired = false) (hperm : s.permanent .security = true) :
    ∃ t : State, exec .securityEngineRetire s = .next t ∧ t.sec.retired = true ∧ .security ∈ t.nvm.record ∧ t.gysis.degraded = true ∧
      t.gysis.replaceRequested = true ∧ t.mem = s.mem ∧ t.rooms = s.rooms ∧ t.sec.entries = s.sec.entries := by
  refine ⟨s.retireEngine, ?_, ?_⟩
  · change execSecurityEngineRetire s = _
    simp only [execSecurityEngineRetire, hlive, hperm, Bool.not_true, Bool.or_self, Bool.false_eq_true, if_false]
  · unfold State.retireEngine
    generalize (((s.gysis.hist.filter fun h => h.chan == .security).head?).map (·.kind)).getD 0 = last
    generalize (s.events .security [0, 0x32, 0x33]).length = n
    obtain ⟨t, ht⟩ : ∃ t : State, t = { s with sec := { s.sec with retired := true } } := ⟨_, rfl⟩
    rw [← ht]
    dsimp only
    obtain ⟨u, hu⟩ : ∃ u, (t.persist .security).decided 0x0031 3 2 true true true 255 255 last n = u := ⟨_, rfl⟩
    obtain ⟨hdeg, hrep, -⟩ := State.decided_flags _ _ _ _ _ _ _ _ _ hu
    obtain ⟨fns, g, hrest⟩ := (t.persist .security).decided_flagged 0x0031 3 2 true true true 255 255 last n
    rw [hu] at hrest ⊢
    have hfold : ∃ parts fns out, (List.range 16).foldl State.freezeTwin u = { u with parts := parts, fns := fns, out := out } := by
      refine List.foldlRecOn (motive := fun v : State => ∃ parts fns out, v = { u with parts := parts, fns := fns, out := out }) _ _ ⟨_, _, _, rfl⟩ ?_
      rintro v ⟨_, _, _, hv⟩ p -
      obtain ⟨parts, fns, out, hw⟩ := (v.freezeTwin_rest p).1
      exact ⟨parts, fns, out, by rw [hw, hv]⟩
    obtain ⟨parts, fns', out, hfold⟩ := hfold
    rw [hfold]
    have hrecord : .security ∈ u.nvm.record := by rw [hrest]; exact t.mem_persist .security
    have hsec : u.sec = t.sec ∧ u.mem = t.mem ∧ u.rooms = t.rooms := by
      rw [hrest]
      exact ⟨rfl, rfl, rfl⟩
    obtain ⟨hsec, hmem, hrooms⟩ := hsec
    rw [ht] at hsec hmem hrooms
    exact ⟨by rw [hsec], hrecord, hdeg, hrep, hmem, hrooms, by rw [hsec]⟩

theorem exec_securityEngineRetire_none {s : State} (h : s.permanent .security = false) : exec .securityEngineRetire s = .next s := by
  change execSecurityEngineRetire s = _
  simp [execSecurityEngineRetire, h]

/-! ## The commands that a core loses (R319, R325, R341) -/

/-- From `s` to `t` only partitions, functions, hash contexts and draws of free values have changed. -/
def State.Undid (s t : State) : Prop := ∃ parts fns hash free, t = { s with parts := parts, fns := fns, sec := { s.sec with hash := hash }, free := free }

theorem State.Undid.refl (s : State) : s.Undid s := ⟨_, _, _, _, rfl⟩

theorem State.Undid.trans {s t u : State} : s.Undid t → t.Undid u → s.Undid u := by
  rintro ⟨_, _, _, _, rfl⟩ ⟨a, b, c, d, rfl⟩
  exact ⟨a, b, c, d, rfl⟩

theorem State.undoCommand_rest (s : State) (f k : Nat) (q : Req) : ∃ parts, s.undoCommand f k q = { s with parts := parts } := by
  unfold State.undoCommand
  extract_lets p x
  split
  · split
    · exact ⟨_, rfl⟩
    · exact ⟨_, rfl⟩
  · generalize (decide (q.op = 0x0104) && _) = forms
    split
    · exact ⟨_, rfl⟩
    · exact ⟨_, rfl⟩

theorem State.dropHash_rest (s : State) (f k : Nat) : ∃ hash, s.dropHash f k = { s with sec := { s.sec with hash := hash } } := by
  unfold State.dropHash
  split
  · split
    · exact ⟨_, rfl⟩
    · exact ⟨_, rfl⟩
  · exact ⟨_, rfl⟩

/-- The state in which a RUNNING command has ended FAILED without an effect. -/
def State.lostCommand (s : State) (f k : Nat) (x : Slot) : State :=
  ((s.undoCommand f k x.req).dropHash f k).endCmd f k stFailed (x.field 20 4) (x.field 24 4) (stoppedPart x.req.op)

theorem length_stoppedPart (op : Nat) : (stoppedPart op).length ≤ 480 := by
  unfold stoppedPart
  split <;> simp [leBytes]

/-- A slot that holds a command that ended FAILED. -/
def Slot.Failed (x : Slot) : Prop := x.state = .done ∧ x.byte 16 = 6

theorem State.lostCommand_spec (s : State) (f k : Nat) (x : Slot) : s.Undid (s.lostCommand f k x) ∧ (((s.lostCommand f k x).fn f).slot k).Failed ∧
    ∀ g j, ¬(g = f ∧ j = k) → ((s.lostCommand f k x).fn g).slot j = (s.fn g).slot j := by
  obtain ⟨_, hundo⟩ := s.undoCommand_rest f k x.req
  obtain ⟨_, hdrop⟩ := (s.undoCommand f k x.req).dropHash_rest f k
  rw [hundo] at hdrop
  obtain ⟨_, hrest, hslot, -, hothers⟩ := ((s.undoCommand f k x.req).dropHash f k).endCmd_spec f k stFailed (x.field 20 4) (x.field 24 4) (stoppedPart x.req.op)
  have hbefore (g : Nat) : ((s.undoCommand f k x.req).dropHash f k).fn g = s.fn g := by rw [hundo, hdrop]; rfl
  refine ⟨?_, ?_, fun g j hne => ?_⟩
  · unfold State.lostCommand
    rw [hrest, hundo, hdrop]
    exact ⟨_, _, _, _, rfl⟩
  · obtain ⟨hended, -⟩ := Slot.finish_ended (((((s.undoCommand f k x.req).dropHash f k).fn f).slot k)) ((s.undoCommand f k x.req).dropHash f k).free stFailed
      (x.field 20 4) (x.field 24 4) (length_stoppedPart x.req.op)
    unfold State.lostCommand
    rw [hslot k, if_pos rfl]
    obtain ⟨hdone, hstatus, -⟩ := hended
    exact ⟨hdone, hstatus⟩
  · unfold State.lostCommand
    by_cases hg : g = f
    · subst hg
      rw [hslot j, if_neg fun hj => hne ⟨rfl, hj⟩, hbefore]
    · rw [hothers g hg, hbefore]

/-- The slots that the loss of a core reaches, one after another. -/
def State.loseSlots (s : State) (lost : Req → Bool) (l : List (Nat × Nat)) : State :=
  l.foldl (fun t e => if ((s.fn e.1).slot e.2).state == .running && lost ((s.fn e.1).slot e.2).req then t.lostCommand e.1 e.2 ((s.fn e.1).slot e.2) else t) s

/-- Every slot of the list that holds a lost command has failed, every other one is as it was. -/
theorem State.loseSlots_spec (s : State) (lost : Req → Bool) (l : List (Nat × Nat)) : s.Undid (s.loseSlots lost l) ∧
    ∀ f k, (((s.fn f).slot k).state = .running ∧ lost ((s.fn f).slot k).req = true ∧ (((s.loseSlots lost l).fn f).slot k).Failed) ∨
      (((s.loseSlots lost l).fn f).slot k = (s.fn f).slot k ∧ ((f, k) ∈ l → ¬(((s.fn f).slot k).state = .running ∧ lost ((s.fn f).slot k).req = true))) := by
  induction l using List.reverseRecOn with
  | nil => exact ⟨.refl s, fun f k => .inr ⟨rfl, fun h => nomatch h⟩⟩
  | append_singleton l e ih =>
    obtain ⟨f, k⟩ := e
    obtain ⟨hundid, hslots⟩ := ih
    unfold State.loseSlots at hundid hslots ⊢
    rw [List.foldl_append, List.foldl_cons, List.foldl_nil]
    generalize List.foldl _ s l = t at hundid hslots
    split
    next hrun =>
      rw [Bool.and_eq_true, beq_iff_eq] at hrun
      obtain ⟨hlost, hfailed, hothers⟩ := t.lostCommand_spec f k ((s.fn f).slot k)
      refine ⟨hundid.trans hlost, fun g j => ?_⟩
      by_cases heq : g = f ∧ j = k
      · obtain ⟨rfl, rfl⟩ := heq
        exact .inl ⟨hrun.1, hrun.2, hfailed⟩
      · rw [hothers g j heq]
        refine (hslots g j).imp_right fun ⟨hsame, hnot⟩ => ⟨hsame, fun hmem => hnot ?_⟩
        simpa [heq] using hmem
    next hnot =>
      rw [Bool.and_eq_true, beq_iff_eq] at hnot
      refine ⟨hundid, fun g j => (hslots g j).imp_right fun ⟨hsame, hbefore⟩ => ⟨hsame, fun hmem => ?_⟩⟩
      rcases List.mem_append.mp hmem with hmem | hmem
      · exact hbefore hmem
      · obtain ⟨rfl, rfl⟩ := Prod.mk.inj (List.mem_singleton.mp hmem)
        exact hnot

/-- The slots of the host's functions. -/
def allSlots : List (Nat × Nat) := (List.range 17).flatMap (fun f => (List.range 8).map (fun k => (f, k)))

theorem mem_allSlots {f k : Nat} : (f, k) ∈ allSlots ↔ f < 17 ∧ k < 8 := by
  simp [allSlots]

/-- A command belongs to the roles of a core. -/
def State.servedBy (s : State) (c : Nat) (q : Req) : Bool := s.roleCore (cmdRole q.op) == c

theorem State.loseCommands_spec (s : State) (c : Nat) : ∃ parts fns hash free detached,
    s.loseCommands c = { s with parts := parts, fns := fns, sec := { s.sec with hash := hash }, free := free, gysis := { s.gysis with detached := detached } } ∧
    fns = (s.loseSlots (s.servedBy c) allSlots).fns ∧ (s.gysis.detached = [] → s.loseCommands c = s.loseSlots (s.servedBy c) allSlots) := by
  obtain ⟨t, ht⟩ : ∃ t, t = s.loseSlots (s.servedBy c) allSlots := ⟨_, rfl⟩
  have heq : s.loseCommands c = (s.gysis.detached.filter fun e => s.servedBy c e.2.2).foldl (fun t e => (t.undoCommand e.1 e.2.1 e.2.2).dropDetached e) t := by
    unfold State.loseCommands
    rw [ht]
    unfold State.loseSlots allSlots State.lostCommand State.servedBy
    dsimp only
  have hfold (l : List (Nat × Nat × Req)) : ∃ parts detached,
      l.foldl (fun t e => (t.undoCommand e.1 e.2.1 e.2.2).dropDetached e) t = { t with parts := parts, gysis := { t.gysis with detached := detached } } := by
    refine List.foldlRecOn (motive := fun u : State => ∃ parts detached, u = { t with parts := parts, gysis := { t.gysis with detached := detached } }) _ _ ⟨_, _, rfl⟩ ?_
    rintro u ⟨_, _, hu⟩ e -
    obtain ⟨parts, hundo⟩ := u.undoCommand_rest e.1 e.2.1 e.2.2
    rw [hundo, hu]
    exact ⟨_, _, rfl⟩
  obtain ⟨⟨_, _, _, _, hundid⟩, -⟩ := s.loseSlots_spec (s.servedBy c) allSlots
  obtain ⟨parts, detached, hlost⟩ := hfold (s.gysis.detached.filter fun e => s.servedBy c e.2.2)
  rw [← ht] at hundid
  refine ⟨parts, t.fns, t.sec.hash, t.free, detached, ?_, congrArg State.fns ht, fun hnone => ?_⟩
  · rw [heq, hlost, hundid]
  · rw [heq, hnone, ht, List.filter_nil, List.foldl_nil]

/-- Where no command runs, none is lost. -/
theorem State.loseSlots_none {s : State} (lost : Req → Bool) (h : ∀ f k, f < 17 → k < 8 → ((s.fn f).slot k).state ≠ .running) : s.loseSlots lost allSlots = s := by
  unfold State.loseSlots
  refine foldl_of_fixed fun e he => ?_
  obtain ⟨f, k⟩ := e
  obtain ⟨hf, hk⟩ := mem_allSlots.mp he
  exact if_neg (by simp [h f k hf hk])

/-! ## CORE_RETIRE (R319, R341, R351, R456, R466) -/

/-- A table of mapped entries, where the map keeps the default. -/
theorem Tab.get_mapped {α β : Type} (d : α) (d' : β) (g : α → β) (hg : g d = d') (l : Tab α) (n : Nat) :
    Tab.get d' (l.map fun e => (e.1, g e.2)) n = g (Tab.get d l n) := by
  induction l with
  | nil => exact hg.symm
  | cons e l ih =>
    obtain ⟨j, v⟩ := e
    rw [List.map_cons]
    simp only [Tab.get]
    split
    · rfl
    · exact ih

/-- A source once a core has left. -/
def Source.after (x : Source) (c : Nat) : Source := if x.targets.getLsbD c then x.without c else x

theorem getLsbD_mask_without : ∀ (c : CoreId) (m : BitVec 4), (m &&& ~~~BitVec.ofNat 4 (2 ^ c.val)).getLsbD c = false := by decide

theorem getLsbD_core0 : ∀ c : CoreId, c.val ≠ 0 → (1 : BitVec 4).getLsbD c = false := by decide

theorem Source.after_spec (x : Source) (c : CoreId) (h : c.val ≠ 0) : (x.after c).targets.getLsbD c = false ∧ (x.after c).pending = x.pending := by
  unfold Source.after
  split
  · refine ⟨?_, rfl⟩
    simp only [Source.without]
    split
    · exact getLsbD_core0 c h
    · exact getLsbD_mask_without c x.targets
  next hbit => exact ⟨Bool.eq_false_iff.mpr hbit, rfl⟩

/-- From `s` to `fns` the functions keep their slots. -/
def State.KeepsSlots (s : State) (fns : Tab Fn) : Prop := ∀ f, (({ s with fns := fns } : State).fn f).slots = (s.fn f).slots

theorem State.stateChanged_slots (s : State) : ∃ fns, s.stateChanged = { s with fns := fns } ∧ s.KeepsSlots fns := by
  refine List.foldlRecOn (motive := fun u : State => ∃ fns, u = { s with fns := fns } ∧ s.KeepsSlots fns) _ _ ⟨_, rfl, fun _ => rfl⟩ ?_
  rintro u ⟨_, hu, hslot⟩ f -
  obtain ⟨⟨fns, hrest⟩, hfn⟩ := u.setCause_fn f 0
  have heq : u.setCause f 0 = { s with fns := fns } := by rw [hrest, hu]
  refine ⟨fns, heq, fun g => ?_⟩
  obtain ⟨_, _, hg, -⟩ := hfn g
  rw [← heq, hg, ← hslot g, hu]

theorem State.setDegraded_slots (s : State) : ∃ fns, s.setDegraded = { s with fns := fns, gysis := { s.gysis with degraded := true } } ∧ s.KeepsSlots fns ∧
    (s.gysis.degraded = true → fns = s.fns) := by
  unfold State.setDegraded
  split
  next h => exact ⟨s.fns, by rw [← h], fun _ => rfl, fun _ => rfl⟩
  next h =>
    obtain ⟨fns, hrest, hslot⟩ := State.stateChanged_slots { s with gysis := { s.gysis with degraded := true } }
    exact ⟨fns, hrest, hslot, fun hset => absurd hset h⟩

theorem State.setReplace_slots (s : State) : ∃ fns, s.setReplace = { s with fns := fns, gysis := { s.gysis with replaceRequested := true } } ∧ s.KeepsSlots fns ∧
    (s.gysis.replaceRequested = true → fns = s.fns) := by
  unfold State.setReplace
  split
  next h => exact ⟨s.fns, by rw [← h], fun _ => rfl, fun _ => rfl⟩
  next h =>
    obtain ⟨fns, hrest, hslot⟩ := State.stateChanged_slots { s with gysis := { s.gysis with replaceRequested := true } }
    exact ⟨fns, hrest, hslot, fun hset => absurd hset h⟩

/-- A decision with both flags: what it does to Gysis, and that functions keep their slots; with both flags set it changes no function. -/
theorem State.decided_both (s : State) (code level kind : Nat) (irq : Bool) (room unit wher count : Nat) :
    ∃ fns ledger, s.decided code level kind irq true true room unit wher count =
        { s with fns := fns, gysis := { s.gysis with degraded := true, replaceRequested := true, ledger := ledger } } ∧
      s.KeepsSlots fns ∧ (s.gysis.degraded = true → s.gysis.replaceRequested = true → fns = s.fns) := by
  obtain ⟨_, hdeg, hslot, hkeeps⟩ := s.setDegraded_slots
  obtain ⟨fns, hrep, hslot', hkeeps'⟩ := s.setDegraded.setReplace_slots
  have hrecord : ∃ ledger, s.decided code level kind irq true true room unit wher count =
      { s.setDegraded.setReplace with gysis := { s.setDegraded.setReplace.gysis with ledger := ledger } } := ⟨_, rfl⟩
  obtain ⟨ledger, hrecord⟩ := hrecord
  refine ⟨fns, ledger, ?_, fun f => ?_, fun h h' => ?_⟩
  · rw [hrecord, hrep, hdeg]
  · have hsame := hslot' f
    rw [hdeg] at hsame
    exact hsame.trans (hslot f)
  · have hfns := hkeeps' (by rw [hdeg]; exact h')
    rw [hfns, hdeg]
    exact hkeeps h

/-- A core's interrupt that is pending again. -/
def State.handBack (s : State) (h : Option Nat) : State :=
  match h with
  | some n => s.setSource n { s.source n with pending := true }
  | none => s

/-- What the retirement of core `c` does once its commands have ended, before the decision. -/
structure State.CoreLeft (s t : State) (c : CoreId) : Prop where
  rest : ∃ cores sources blocks record, t = { s with
    gysis := { s.gysis with cores := cores, intc := { s.gysis.intc with sources := sources }, blocks := blocks }, nvm := { s.nvm with record := record } }
  core : t.core c = { retired := true }
  cores : ∀ d, d ≠ c.val → t.core d = s.core d
  record : .core c ∈ t.nvm.record
  targets : ∀ n, (t.source n).targets.getLsbD c = false
  pending : ∀ n, (s.core c).handling = some n → (t.source n).pending = true

/-- The sources without a core (R351). -/
def State.sourcesWithout (s : State) (c : Nat) : State :=
  s.setIntc { s.gysis.intc with sources := s.gysis.intc.sources.map (fun e => (e.1, e.2.after c)) }

/-- The copies of a core leave the caches (R362). -/
def State.leaveCaches (s : State) (c : Nat) : State := s.gysis.blocks.foldl (fun (w : State) (e : Nat × CacheBlock) => w.setCache e.1 (e.2.leave c)) s

/-- A core leaves: its interrupt, its sources and its blocks move (R319, R351, R362). -/
def State.leaveCore (s : State) (c : Nat) (h : Option Nat) : State :=
  ((((s.handBack h).sourcesWithout c).leaveCaches c).setCore c { retired := true }).persist (.core c)

theorem State.sourcesWithout_spec (s : State) (c : CoreId) : (∃ sources, s.sourcesWithout c = { s with gysis := { s.gysis with intc := { s.gysis.intc with sources := sources } } }) ∧
    ∀ n, (s.sourcesWithout c).source n = (s.source n).after c :=
  ⟨⟨_, rfl⟩, Tab.get_mapped ({} : Source) ({} : Source) (fun x : Source => x.after c) (by simp [Source.after]) s.gysis.intc.sources⟩

theorem State.leaveCaches_rest (s : State) (c : Nat) : ∃ blocks, s.leaveCaches c = { s with gysis := { s.gysis with blocks := blocks } } := by
  refine List.foldlRecOn (motive := fun v : State => ∃ blocks, v = { s with gysis := { s.gysis with blocks := blocks } }) _ _ ⟨_, rfl⟩ ?_
  rintro v ⟨_, rfl⟩ e -
  exact ⟨_, rfl⟩

theorem State.handBack_rest (s : State) (h : Option Nat) : (∃ sources, s.handBack h = { s with gysis := { s.gysis with intc := { s.gysis.intc with sources := sources } } }) ∧
    ∀ n, h = some n → ((s.handBack h).source n).pending = true := by
  cases h with
  | none => exact ⟨⟨_, rfl⟩, fun _ hn => nomatch hn⟩
  | some m =>
    refine ⟨⟨_, rfl⟩, fun n hn => ?_⟩
    obtain rfl := Option.some.inj hn
    simp only [State.handBack]
    rw [State.source_setSource, if_pos rfl]

theorem State.leaveCore_rest (s : State) (c : Nat) (h : Option Nat) : ∃ cores sources blocks record, s.leaveCore c h = { s with
    gysis := { s.gysis with cores := cores, intc := { s.gysis.intc with sources := sources }, blocks := blocks }, nvm := { s.nvm with record := record } } := by
  obtain ⟨⟨_, hback⟩, -⟩ := s.handBack_rest h
  unfold State.leaveCore
  obtain ⟨_, hcaches⟩ := ((s.handBack h).sourcesWithout c).leaveCaches_rest c
  rw [hcaches, hback]
  exact ⟨_, _, _, _, rfl⟩

theorem State.leaveCore_spec (s : State) (c : CoreId) (hc : c.val ≠ 0) {h : Option Nat} (hhandling : (s.core c).handling = h) : s.CoreLeft (s.leaveCore c h) c := by
  have hrest := s.leaveCore_rest c h
  obtain ⟨⟨_, hback⟩, hpending⟩ := s.handBack_rest h
  unfold State.leaveCore at hrest ⊢
  generalize s.handBack h = t at hback hpending hrest
  obtain ⟨⟨_, hwithout⟩, hsource⟩ := t.sourcesWithout_spec c
  generalize t.sourcesWithout c = u at hwithout hsource hrest
  obtain ⟨_, hcaches⟩ := u.leaveCaches_rest c
  generalize u.leaveCaches c = v at hcaches hrest
  have hcore (d : Nat) : ((v.setCore c { retired := true }).persist (.core c)).core d = if d = c.val then { retired := true } else s.core d := by
    have hv : v.core d = s.core d := by
      rw [hcaches, hwithout, hback]
      rfl
    rw [← hv]
    exact v.core_setCore c d { retired := true }
  have hsources (n : Nat) : ((v.setCore c { retired := true }).persist (.core c)).source n = (t.source n).after c := by
    rw [← hsource n, hcaches]
    rfl
  refine ⟨hrest, ?_, fun d hd => ?_, State.mem_persist _ _, fun n => ?_, fun n hn => ?_⟩
  · rw [hcore, if_pos rfl]
  · rw [hcore, if_neg hd]
  · rw [hsources]
    exact ((t.source n).after_spec c hc).1
  · rw [hsources, ((t.source n).after_spec c hc).2]
    exact hpending n (hhandling ▸ hn)

theorem State.retireCore_eq (s : State) (c : Nat) : s.retireCore c =
    ((s.loseCommands c).leaveCore c (s.core c).handling).decided 0x0030 3 2 true true true 255 c c (s.events (.core c) [0]).length := rfl

/-- The retirement of core 1, 2 or 3: what it leaves alone, what becomes of the core, of its sources and of the commands of its roles. -/
theorem State.retireCore_spec (s : State) (c : CoreId) (hc : c.val ≠ 0) :
    ((s.retireCore c).core c).retired = true ∧ .core c ∈ (s.retireCore c).nvm.record ∧ (∀ n, ((s.retireCore c).source n).targets.getLsbD c = false) ∧
      (∀ n, (s.core c).handling = some n → ((s.retireCore c).source n).pending = true) ∧ (∀ d, d ≠ c.val → (s.retireCore c).core d = s.core d) ∧
      (s.retireCore c).mem = s.mem ∧ (s.retireCore c).rooms = s.rooms ∧
      (∀ f k, ((s.retireCore c).fn f).slot k = ((s.loseSlots (s.servedBy c) allSlots).fn f).slot k) ∧
      (s.loseCommands c = s → (s.retireCore c).parts = s.parts ∧ (s.gysis.degraded = true → s.gysis.replaceRequested = true → (s.retireCore c).fns = s.fns)) := by
  rw [s.retireCore_eq]
  generalize (s.events (.core c) [0]).length = n
  obtain ⟨parts, fns, hash, free, detached, hlost, hfns, -⟩ := s.loseCommands_spec c
  have hslots (f k : Nat) : ((s.loseCommands c).fn f).slot k = ((s.loseSlots (s.servedBy c) allSlots).fn f).slot k := by
    have hfn : (s.loseCommands c).fns = (s.loseSlots (s.servedBy c) allSlots).fns := by rw [← hfns, hlost]
    exact congrArg (fun l => (Tab.get {} l f : Fn).slot k) hfn
  have hsame : (s.loseCommands c).gysis = { s.gysis with detached := detached } ∧ (s.loseCommands c).mem = s.mem ∧ (s.loseCommands c).rooms = s.rooms := by
    rw [hlost]
    exact ⟨rfl, rfl, rfl⟩
  generalize s.loseCommands c = t at hslots hsame
  obtain ⟨hgysis, hmem, hrooms⟩ := hsame
  have hcore (d : Nat) : t.core d = s.core d := by
    rw [State.core, hgysis]
    rfl
  have hleft := t.leaveCore_spec c hc (h := (s.core c).handling) (by rw [hcore])
  generalize t.leaveCore c (s.core c).handling = u at hleft
  obtain ⟨⟨_, _, _, _, hrest⟩, hself, hcores, hrecord, htargets, hpending⟩ := hleft
  obtain ⟨fns', ledger, hdecided, hkeeps, hflagged⟩ := u.decided_both 0x0030 3 2 true 255 c c n
  rw [hdecided]
  refine ⟨(congrArg Core.retired hself : _), hrecord, htargets, fun n hn => hpending n (by rw [hcore]; exact hn), fun d hd => (hcores d hd).trans (hcore d), ?_, ?_,
    fun f k => ?_, fun hnone => ?_⟩
  · rw [hrest]; exact hmem
  · rw [hrest]; exact hrooms
  · refine (congrArg (fun l => (Tab.get {} l k : Slot)) (hkeeps f)).trans (Eq.trans ?_ (hslots f k))
    rw [hrest]
    rfl
  · subst hnone
    refine ⟨by rw [hrest], fun hdeg hrep => (hflagged ?_ ?_).trans (by rw [hrest])⟩
    · rw [hrest]; exact hdeg
    · rw [hrest]; exact hrep

theorem exec_coreRetire_none {s : State} {c : CoreId} (h : s.permanent (.core c) = false) : exec (.coreRetire c) s = .next s := by
  change execCoreRetire c s = _
  simp [execCoreRetire, h]

theorem exec_coreRetire_core0 {s : State} {c : CoreId} (hlive : (s.core c).retired = false) (hperm : s.permanent (.core c) = true) (hrun : s.boot.state ≠ .halted)
    (hc : c.val = 0) : ∃ t : State, exec (.coreRetire c) s = .next t ∧ t.boot.state = .halted ∧ t.mem = s.mem := by
  obtain ⟨hboot, -, hmem⟩ := State.halt_decided (s.decided_flagged 0x0030 3 3 true false false 255 0 0 (s.events (.core 0) [0]).length) hrun 0
  refine ⟨_, ?_, congrArg Boot.state hboot, hmem⟩
  change execCoreRetire c s = _
  rw [execCoreRetire, hlive, hperm, if_neg (by simp [hrun]), if_pos hc]

theorem exec_coreRetire_spec {s : State} {c : CoreId} (hlive : (s.core c).retired = false) (hperm : s.permanent (.core c) = true) (hrun : s.boot.state ≠ .halted)
    (hc : c.val ≠ 0) : ∃ t : State, exec (.coreRetire c) s = .next t ∧ (t.core c).retired = true ∧ .core c ∈ t.nvm.record ∧
      (∀ n, (t.source n).targets.getLsbD c = false) ∧ (∀ n, (s.core c).handling = some n → (t.source n).pending = true) ∧
      (∀ d, d ≠ c.val → t.core d = s.core d) ∧ t.mem = s.mem ∧ t.rooms = s.rooms ∧
      (∀ f k, f < 17 → k < 8 → ((s.fn f).slot k).state = .running → s.roleCore (cmdRole ((s.fn f).slot k).req.op) = c.val →
        ((t.fn f).slot k).state = .done ∧ ((t.fn f).slot k).byte 16 = 6) ∧
      ((∀ f k, f < 17 → k < 8 → ((s.fn f).slot k).state ≠ .running) → s.gysis.detached = [] → t.parts = s.parts ∧ (∀ f k, (t.fn f).slot k = (s.fn f).slot k) ∧
        (s.gysis.degraded = true → s.gysis.replaceRequested = true → t.fns = s.fns)) := by
  obtain ⟨hretired, hrecord, htargets, hpending, hcores, hmem, hrooms, hslots, hnone⟩ := s.retireCore_spec c hc
  obtain ⟨-, hlost⟩ := s.loseSlots_spec (s.servedBy c) allSlots
  refine ⟨s.retireCore c, ?_, hretired, hrecord, htargets, hpending, hcores, hmem, hrooms, fun f k hf hk hstate hrole => ?_, fun hidle hdetached => ?_⟩
  · change execCoreRetire c s = _
    rw [execCoreRetire, hlive, hperm, if_neg (by simp [hrun]), if_neg hc]
  · have hserved : s.servedBy c ((s.fn f).slot k).req = true := beq_iff_eq.mpr hrole
    rw [hslots]
    rcases hlost f k with ⟨-, -, hfailed⟩ | ⟨-, hnot⟩
    · exact hfailed
    · exact absurd ⟨hstate, hserved⟩ (hnot (mem_allSlots.mpr ⟨hf, hk⟩))
  · have hkept := State.loseSlots_none (s.servedBy c) hidle
    obtain ⟨_, _, _, _, _, -, -, hcommands⟩ := s.loseCommands_spec c
    obtain ⟨hparts, hfns⟩ := hnone ((hcommands hdetached).trans hkept)
    exact ⟨hparts, fun f k => by rw [hslots, hkept], hfns⟩

/-- Settles O51: an error is counted and then the block is restarted from its checkpoint or fails, through one account of what counting an error keeps; a retirement is
its decision followed by steps that take nothing reported back. -/
theorem errorsReplayAndRetire : Obligations.ErrorsReplayAndRetire := by
  refine ⟨fun s r p b howner hb hex hheld => ⟨fun hdue htorn => ⟨_, State.watchdogExpiry_abandons hb hdue htorn, s.abandon_spec r⟩, State.watchdogExpiry_early,
      State.watchdogExpiry_replays howner hb hex hheld, State.watchdogExpiry_fails hb⟩,
    fun s r p b e howner hb hex herror hfailed hbrk hheld htorn hwatch hmove => ⟨fun hprogram => ?_, fun hprogram hexecs => ?_, fun hprogram hexecs hdata => ?_, fun hexecs hdata => ?_⟩,
    fun s e => ?_, fun s r => ⟨(State.instructionParityTrap_counts s r).1, (State.instructionParityTrap_counts s r).2, fun p b hrefetch howner hb hex herror hfailed hbrk hheld htorn hexecs =>
      State.instructionParityTrap_replays hrefetch howner hb hex herror hfailed hbrk hheld htorn hexecs⟩,
    fun s r k => ⟨exec_pauRetire_spec, exec_pauRetire_none⟩, fun s r live => exec_roomRetire_spec, fun s r live => exec_roomRetire_none,
    fun s => ⟨exec_securityEngineRetire_spec, exec_securityEngineRetire_none⟩,
    fun s c hlive hperm hrun => ⟨exec_coreRetire_core0 hlive hperm hrun, exec_coreRetire_spec hlive hperm hrun⟩, fun s c => exec_coreRetire_none⟩
  · exact ⟨_, State.exec_roomError hwatch, State.roomError_failed hb herror hfailed (.inl hprogram)⟩
  · exact ⟨_, State.exec_roomError hwatch, State.roomError_replayed howner hb hex herror hfailed hbrk hheld htorn hprogram hmove hexecs⟩
  · exact ⟨_, State.exec_roomError hwatch, State.roomError_failed hb herror hfailed (.inr ⟨hprogram, hmove, hexecs, hdata⟩)⟩
  · obtain ⟨c, hgoesOn⟩ := State.roomError_goesOn hb herror hfailed hexecs hdata
    exact ⟨_, c, State.exec_roomError hwatch, hgoesOn⟩
  · obtain ⟨hattic, hcellar, hparts, hfns, -, hroom⟩ := s.errorStored_meetEvent e
    refine ⟨hattic, hcellar, hparts, hfns, hroom, fun q l k w he => ?_, fun k m he hin => ?_⟩
    · subst he
      obtain ⟨hcount, hbad⟩ := s.meetEvent_atticParity q l k w
      exact ⟨hcount, fun m hm _ => hbad m hm⟩
    · subst he
      exact s.meetEvent_cellarUncorr k hin

end Sys2Proof.Machine
end

section
/-! PROOFS. Resets and the boot (21): what a reset keeps, and what each stage of the boot leaves (R499 to R521, R550). -/

namespace Sys2Proof.Machine

/-! ## Resets (R499, R553) -/

theorem exec_coldReset_none {s : State} {src : ResetSource} {rec tst : Bool} {a : BitVec 2} (h : s.coldSource src = false) :
    exec (.coldReset src rec tst a) s = .next (s.draw 1) := by
  change execColdReset src rec tst a s = _
  simp only [execColdReset, h, Bool.not_false, if_true]

/-- The state that a cold reset leaves, with the straps sampled. -/
def State.coldReset (s : State) (src : ResetSource) (rec tst : Bool) (a : BitVec 2) : State :=
  let t := (s.coldState.strapped rec tst a).draw 1
  if src = .refclk then { t with clocks := { t.clocks with refHold := false } } else t

theorem exec_coldReset_cold {s : State} {src : ResetSource} {rec tst : Bool} {a : BitVec 2} (h : s.coldSource src = true) :
    exec (.coldReset src rec tst a) s = .next (s.coldReset src rec tst a) := by
  change execColdReset src rec tst a s = _
  simp only [execColdReset, h, Bool.not_true, Bool.false_eq_true, if_false]
  rfl

theorem State.coldReset_eq (s : State) (src : ResetSource) (rec tst : Bool) (a : BitVec 2) :
    ∃ clocks, s.coldReset src rec tst a = { (s.coldState.strapped rec tst a).draw 1 with clocks := clocks } := by
  unfold State.coldReset
  extract_lets t
  split
  · exact ⟨_, rfl⟩
  · exact ⟨_, rfl⟩

theorem State.coldReset_spec (s : State) (src : ResetSource) (rec tst : Bool) (a : BitVec 2) {t : State} (ht : t = s.coldReset src rec tst a) :
    t.boot.state = .powerOn ∧ t.mem = {} ∧ t.rooms = [] ∧ t.hbm = [] ∧ t.parts = [] ∧ t.fns = [] ∧ t.gysis = {} ∧ t.power.cap = 2000 ∧ t.boot.recoveryStrap = rec ∧
      t.boot.testStrap = tst ∧ t.boot.addrStrap = a ∧ t.nvm.fuses = s.nvm.fuses ∧ t.nvm.record = s.nvm.record ∧ t.nvm.repairs = s.nvm.repairs ∧ t.now = s.now := by
  obtain ⟨_, hrest⟩ := s.coldReset_eq src rec tst a
  rw [ht, hrest]
  exact ⟨rfl, rfl, rfl, rfl, rfl, rfl, rfl, rfl, rfl, rfl, rfl, rfl, rfl, rfl, rfl⟩

theorem State.coldSource_rstN (s : State) (n : Nat) : (s.coldSource (.rstN n) = true → 1000 ≤ n) ∧ (10000 ≤ n → s.coldSource (.rstN n) = true) := by
  simp only [State.coldSource, Bool.or_eq_true, Bool.and_eq_true, decide_eq_true_eq]
  exact ⟨fun h => by omega, .inl⟩

/-- A warm reset begins at FUSES and keeps the always-on island, the ledger, the cap, the link and PF0's configuration space (R499). -/
theorem exec_warmReset_spec {s : State} {src : ResetSource} {rec tst : Bool} {a : BitVec 2} (hheld : s.held = false) (hhold : s.clocks.refHold = false)
    (hsrc : src = .hotReset ∨ src = .moduleReset ∧ s.resetDue 0 = true) : ∃ t : State, exec (.warmReset src rec tst a) s = .next t ∧ t.boot.state = .fuses ∧
      t.mem = {} ∧ t.rooms = [] ∧ t.parts = [] ∧ t.gysis.ledger = s.gysis.ledger ∧ t.power.cap = s.power.cap ∧ t.board = s.board ∧
      t.boot.addrStrap = s.boot.addrStrap ∧ (∀ f, f ≠ 0 → t.fn f = {}) ∧ (t.fn 0).busMaster = (s.fn 0).busMaster ∧ t.nvm.fuses = s.nvm.fuses := by
  have hfns (f : Nat) : Tab.get ({} : Fn) (Tab.set {} [] 0 (s.fn 0).configSpace) f = if f = 0 then (s.fn 0).configSpace else {} := Tab.get_set _ _ _ _ _
  obtain ⟨t, ht⟩ : ∃ t, t = { s.coldState.strapped rec tst s.boot.addrStrap with
      gysis := { (s.coldState.strapped rec tst s.boot.addrStrap).gysis with ledger := s.gysis.ledger }
      fns := Tab.set {} [] 0 (s.fn 0).configSpace
      power := { (s.coldState.strapped rec tst s.boot.addrStrap).power with cap := s.power.cap }
      boot := { (s.coldState.strapped rec tst s.boot.addrStrap).boot with state := .fuses, lastExpiry := s.boot.lastExpiry }
      board := s.board } := ⟨_, rfl⟩
  have hexec : exec (.warmReset src rec tst a) s = .next t := by
    change execWarmReset src rec tst a s = _
    rcases hsrc with rfl | ⟨rfl, hdue⟩
    · simp only [execWarmReset, hheld, hhold, Bool.not_true, Bool.or_self, Bool.false_eq_true, if_false, ht]
    · simp only [execWarmReset, hdue, hheld, hhold, Bool.not_true, Bool.or_self, Bool.false_eq_true, if_false, ht]
  have hfn (f : Nat) : t.fn f = if f = 0 then (s.fn 0).configSpace else {} := by
    rw [← hfns f, ht]
    rfl
  refine ⟨t, hexec, ?_⟩
  refine ⟨by rw [ht], by rw [ht]; rfl, by rw [ht]; rfl, by rw [ht]; rfl, by rw [ht], by rw [ht], by rw [ht], by rw [ht]; rfl, fun f hf => ?_, ?_, by rw [ht]; rfl⟩
  · rw [hfn, if_neg hf]
  · rw [hfn, if_pos rfl]
    rfl

/-! ## The cold image (R501, R503) -/

/-- A bit of the majority is the one that two of the three reads have. -/
theorem getLsbD_majority (a b c : Word) (i : Nat) : (majority a b c).getLsbD i = decide (2 ≤ ([a, b, c].filter (fun w => w.getLsbD i)).length) := by
  unfold majority
  rw [BitVec.getLsbD_or, BitVec.getLsbD_or, BitVec.getLsbD_and, BitVec.getLsbD_and, BitVec.getLsbD_and]
  cases ha : a.getLsbD i <;> cases hb : b.getLsbD i <;> cases hc : c.getLsbD i <;> simp [List.filter, ha, hb, hc]

theorem coldImage_one (fuses : Tab Word) {n : Nat} (a b c : Word) (h : n < 2048) :
    Tab.get 0 (coldImage fuses [(n, a, b, c)]) n = (if 64 ≤ n ∧ n ≤ 72 then a ||| b ||| c else if n = 73 then majority a b c ||| ((a ||| b ||| c) &&& 0x30000) else majority a b c) ∧
    ∀ k, k ≠ n → Tab.get 0 (coldImage fuses [(n, a, b, c)]) k = Tab.get 0 fuses k := by
  have himage : coldImage fuses [(n, a, b, c)] = Tab.set 0 fuses n (coldWord n a b c) := by
    simp only [coldImage, List.foldl_cons, List.foldl_nil, h, if_true]
  rw [himage]
  refine ⟨(Tab.get_set_same ..).trans ?_, fun k hk => (Tab.get_set _ _ _ _ _).trans (if_neg hk)⟩
  simp only [coldWord, Bool.and_eq_true, decide_eq_true_eq]

/-! ## Supplies (R549, R550, R551) -/

theorem mem_allRails {k : Nat} (h : k ∈ allRails) : allRails.contains k = true := List.contains_iff_mem.mpr h

theorem State.rail_setRails (s : State) (k v j : Nat) : State.rail { s with power := { s.power with rails := Tab.set 0 s.power.rails k v } } j = if j = k then v else s.rail j :=
  Tab.get_set _ _ _ _ _

/-- The time at which every rail came into regulation is noted. -/
def State.noteRegulated (t : State) : State :=
  if t.railsUp && t.power.regulatedSince.isNone then { t with power := { t.power with regulatedSince := some t.now } } else t

/-- What POWER_UP does once the named rails have risen: the hold ends 1 ms after the time of regulation. -/
def State.regulated (t : State) : State :=
  let u := t.noteRegulated
  match u.power.regulatedSince with
  | some at_ => if u.boot.resetHold && !u.power.seqFault && decide (at_ + 1000000 ≤ u.now) then
      { u with boot := { u.boot with resetHold := false, releasedAt := u.now } } else u
  | none => u

theorem exec_powerUp_one {s : State} {k : Nat} (h : k ∈ allRails) (hrail : s.rail k = 0) : exec (.powerUp [k]) s = .next (s.riseRail k).regulated := by
  have hfilter : [k].filter (fun r => allRails.contains r && s.rail r == 0) = [k] := by simp only [List.filter_cons, List.filter_nil, mem_allRails h, hrail]; rfl
  change execPowerUp [k] s = _
  unfold execPowerUp
  rw [hfilter]
  rfl

theorem State.noteRegulated_rest (t : State) : ∃ since, t.noteRegulated = { t with power := { t.power with regulatedSince := since } } := by
  unfold State.noteRegulated
  split
  · exact ⟨_, rfl⟩
  · exact ⟨_, rfl⟩

/-- Regulation changes the time of regulation and the hold alone. -/
theorem State.regulated_rest (t : State) : ∃ since hold released, t.regulated = { t with
    power := { t.power with regulatedSince := since }, boot := { t.boot with resetHold := hold, releasedAt := released } } := by
  obtain ⟨since, hu⟩ := t.noteRegulated_rest
  unfold State.regulated
  dsimp only
  generalize t.noteRegulated = u at hu
  split
  · split
    · exact ⟨since, _, _, by rw [hu]⟩
    · exact ⟨since, _, _, hu⟩
  · exact ⟨since, _, _, hu⟩

/-- A rail in its order rises; SEQ_FAULT of it changes nothing. -/
theorem State.powerUp_inOrder {s : State} {k : Nat} (h : k ∈ allRails) (hrail : s.rail k = 0) (hk : k ≠ 4) (hfault : s.power.seqFault = false) (hearly : s.railEarly k = false) :
    ∃ t : State, exec (.powerUp [k]) s = .next t ∧ t.rail k = 3 ∧ t.power.seqFault = false ∧ t.mem = s.mem ∧
      (∀ j, j ≠ k → t.rail j = s.rail j) ∧ exec (.seqFault k) s = .next s := by
  have hrise : s.riseRail k = { s with power := { s.power with rails := Tab.set 0 s.power.rails k 3 } } := by
    simp only [State.riseRail, hearly, beq_eq_false_iff_ne.mpr hk, Bool.false_and, Bool.or_self, Bool.false_eq_true, if_false]
  have hset := s.rail_setRails k 3
  refine ⟨_, exec_powerUp_one h hrail, ?_⟩
  rw [← hrise] at hset
  obtain ⟨_, _, _, hrest⟩ := (s.riseRail k).regulated_rest
  have hrailsame (j : Nat) : (s.riseRail k).regulated.rail j = (s.riseRail k).rail j := by rw [hrest]; rfl
  have hkept : (s.riseRail k).power.seqFault = false ∧ (s.riseRail k).mem = s.mem := by
    rw [hrise]
    exact ⟨hfault, rfl⟩
  refine ⟨by rw [hrailsame, hset, if_pos rfl], by rw [hrest]; exact hkept.1, by rw [hrest]; exact hkept.2, fun j hj => by rw [hrailsame, hset, if_neg hj], ?_⟩
  change execSeqFault k s = _
  simp [execSeqFault, hearly]

/-- What an early rail leaves: SEQ_FAULT latched, and the module held in POWERON with empty memories. -/
structure State.SeqLatched (s : State) : Prop where
  fault : s.power.seqFault = true
  pwrFaultN : s.power.pwrFaultN = false
  held : s.held = true
  state : s.boot.state = .powerOn
  mem : s.mem = {}

theorem State.latchSeq_latched (s : State) : s.latchSeq.SeqLatched := ⟨rfl, rfl, rfl, rfl, rfl⟩

theorem State.powerUp_early {s : State} {k : Nat} (h : k ∈ allRails) (hrail : s.rail k = 0) (hfault : s.power.seqFault = false) (hearly : s.railEarly k = true) :
    ∃ t u : State, exec (.powerUp [k]) s = .next t ∧ exec (.seqFault k) s = .next u ∧ t.SeqLatched ∧ u.SeqLatched := by
  have hrise : s.riseRail k = State.latchSeq { s with power := { s.power with rails := Tab.set 0 s.power.rails k 3 } } := by
    simp only [State.riseRail, hearly, hfault, Bool.true_or, Bool.not_false, Bool.and_self, if_true]
  have hseq : exec (.seqFault k) s = .next (State.latchSeq { s with power := { s.power with rails := Tab.set 0 s.power.rails k 1 } }) := by
    change execSeqFault k s = _
    simp only [execSeqFault, mem_allRails h, hrail, hearly, hfault, Bool.not_true, ne_eq, not_true_eq_false, decide_false, Bool.or_self, Bool.false_eq_true, if_false]
  refine ⟨_, _, exec_powerUp_one h hrail, hseq, ?_, State.latchSeq_latched _⟩
  obtain ⟨hflt, hpwr, -, hstate, hmem⟩ := State.latchSeq_latched { s with power := { s.power with rails := Tab.set 0 s.power.rails k 3 } }
  rw [← hrise] at hflt hpwr hstate hmem
  obtain ⟨_, _, _, hrest⟩ := (s.riseRail k).regulated_rest
  rw [hrest]
  exact ⟨hflt, hpwr, by rw [State.held, hflt]; rfl, hstate, hmem⟩

/-- 1 ms after the last rail is in regulation the hold ends (R549). -/
theorem exec_powerUp_release {s : State} {a : Nat} (hsince : s.power.regulatedSince = some a) (hhold : s.boot.resetHold = true) (hfault : s.power.seqFault = false)
    (hdue : a + 1000000 ≤ s.now) : exec (.powerUp []) s = .next { s with boot := { s.boot with resetHold := false, releasedAt := s.now } } := by
  change execPowerUp [] s = _
  simp only [execPowerUp, List.filter_nil, List.foldl_nil, hsince, Option.isNone_some, Bool.and_false, Bool.false_eq_true, if_false, hhold, hfault, Bool.not_false, Bool.true_and,
    decide_eq_true hdue, if_true]

theorem exec_powerDown_spec (s : State) (b : Bool) : ∃ t : State, exec (.powerDown b) s = .next t ∧ t.power.rails = [] ∧ t.power.seqFault = false ∧ t.held = true ∧
    t.boot.state = .powerOn ∧ t.mem = {} ∧ t.rooms = [] ∧ t.gysis = {} ∧ t.nvm.fuses = s.nvm.fuses ∧ t.nvm.record = s.nvm.record :=
  ⟨_, rfl, rfl, rfl, rfl, rfl, rfl, rfl, rfl, rfl, rfl⟩

/-! ## The board (R512, R519, R521, R342) -/

theorem exec_pcieLinkEvent_spec (s : State) (up : Bool) : ∃ t : State, exec (.pcieLinkEvent up) s = .next t ∧ t.board = { s.board with pcieUp := up } ∧
    (t.source 179).pending = true ∧ t.mem = s.mem ∧ t.rooms = s.rooms ∧ t.parts = s.parts ∧ t.fns = s.fns := by
  obtain ⟨t, ht⟩ : ∃ t : State, t = { s with board := { s.board with pcieUp := up } } := ⟨_, rfl⟩
  refine ⟨t.raise 179, by rw [ht]; rfl, ?_⟩
  have hpending := State.source_raise_pending (n := 179) (by decide) t
  rw [State.raise_rest] at hpending ⊢
  refine ⟨?_, hpending, ?_⟩
  · rw [ht]
  · rw [ht]
    exact ⟨rfl, rfl, rfl, rfl⟩

theorem exec_pcieConfigRequest_retry {s : State} {f : FnId} {q : CfgReq} (h : s.fnPresent f = true) (hready : s.configReady = false) :
    exec (.pcieConfigRequest f q) s = .next (s.emit (.cfgDone f true none)) := by
  change execPcieConfigRequest f q s = _
  simp only [execPcieConfigRequest, h, hready, Bool.not_true, Bool.false_eq_true, if_false]

theorem exec_pcieConfigRequest_ready {s : State} {f : FnId} {q : CfgReq} (h : s.fnPresent f = true) (hready : s.configReady = true) :
    exec (.pcieConfigRequest f q) s = .next ((s.configWrite f q).emit (.cfgDone f false (if q == .read then some (32, 0) else none))) := by
  change execPcieConfigRequest f q s = _
  simp only [execPcieConfigRequest, h, hready, Bool.not_true, Bool.false_eq_true, if_false, if_true]

/-- From `s` to `t` vectors of function `f` have been sent or wait, and its enable and its mask are as they were. -/
structure State.Vectored (s t : State) (f : Nat) : Prop where
  rest : ∃ fns out, t = { s with fns := fns, out := out }
  enable : (t.fn f).msixEnable = (s.fn f).msixEnable
  mask : (t.fn f).funcMask = (s.fn f).funcMask

theorem State.Vectored.refl (s : State) (f : Nat) : s.Vectored s f := ⟨⟨_, _, rfl⟩, rfl, rfl⟩

theorem State.Vectored.trans {s t u : State} {f : Nat} (h : s.Vectored t f) (h' : t.Vectored u f) : s.Vectored u f := by
  obtain ⟨⟨_, _, rfl⟩, henable, hmask⟩ := h
  obtain ⟨⟨fns, out, rfl⟩, henable', hmask'⟩ := h'
  exact ⟨⟨fns, out, rfl⟩, henable'.trans henable, hmask'.trans hmask⟩

theorem State.vectored_setFn (s : State) {f : Nat} {x : Fn} (henable : x.msixEnable = (s.fn f).msixEnable) (hmask : x.funcMask = (s.fn f).funcMask) :
    s.Vectored (s.setFn f x) f :=
  ⟨⟨_, _, rfl⟩, by rw [State.fn_setFn_same, henable], by rw [State.fn_setFn_same, hmask]⟩

theorem State.vectored_emit (s : State) (f : Nat) (e : OutEvent) : s.Vectored (s.emit e) f := ⟨⟨_, _, rfl⟩, rfl, rfl⟩

theorem State.vectored_sendVector (s : State) (f v : Nat) : s.Vectored (s.sendVector f v) f := by
  unfold State.sendVector
  extract_lets x bit e
  split
  · exact s.vectored_setFn rfl rfl
  · split
    · exact s.vectored_setFn rfl rfl
    · exact State.Vectored.trans (t := s.setFn f { x with
        pba := x.pba &&& ~~~bit, waiting := x.waiting &&& ~~~bit, lastSent := Tab.set none x.lastSent v (some s.now) })
        (s.vectored_setFn rfl rfl) (State.vectored_emit _ f _)

theorem State.vectored_advanceVector (s : State) (f v : Nat) : s.Vectored (s.advanceVector f v) f := by
  unfold State.advanceVector
  extract_lets x bit
  split
  · exact s.vectored_setFn rfl rfl
  · split
    · exact .refl s f
    · split
      · exact s.vectored_setFn rfl rfl
      · exact s.vectored_sendVector f v

theorem State.vectored_unmasked (s : State) (f : Nat) : s.Vectored (s.unmasked f) f := by
  refine List.foldlRecOn (motive := fun t => s.Vectored t f) _ _ (.refl s f) fun t ht v _ => ht.trans ?_
  split
  · exact t.vectored_advanceVector f v
  · exact .refl t f

theorem State.vectored_dropRequests (s : State) (f : Nat) : s.Vectored (s.dropRequests f) f ∧ ((s.dropRequests f).fn f).busMaster = (s.fn f).busMaster := by
  unfold State.dropRequests
  split
  · exact ⟨.refl s f, rfl⟩
  · exact ⟨s.vectored_setFn rfl rfl, by rw [State.fn_setFn_same]⟩

/-- A configuration write changes functions, the board and what goes out; the bits that it writes are as written (R355, R512). -/
theorem State.configWrite_spec (s : State) (f : Nat) (q : CfgReq) : (∃ fns out board, s.configWrite f q = { s with fns := fns, out := out, board := board }) ∧
    (q = .read → s.configWrite f q = s) ∧ (∀ on, q = .busMaster on → ((s.configWrite f q).fn f).busMaster = on) ∧
    ∀ e m, q = .msixControl e m → ((s.configWrite f q).fn f).msixEnable = e ∧ ((s.configWrite f q).fn f).funcMask = m := by
  cases q with
  | read => exact ⟨⟨_, _, _, rfl⟩, fun _ => rfl, fun _ h => (nomatch h), fun _ _ h => (nomatch h)⟩
  | vfEnable =>
    refine ⟨?_, fun h => (nomatch h), fun _ h => (nomatch h), fun _ _ h => (nomatch h)⟩
    simp only [State.configWrite]
    split
    · exact ⟨_, _, _, rfl⟩
    · exact ⟨_, _, _, rfl⟩
  | busMaster on =>
    obtain ⟨⟨⟨fns, out, hrest⟩, -, -⟩, hmaster⟩ := (s.setFn f { s.fn f with busMaster := on }).vectored_dropRequests f
    rw [State.fn_setFn_same] at hmaster
    refine ⟨⟨fns, out, s.board, hrest⟩, fun h => (nomatch h), fun b h => ?_, fun _ _ h => (nomatch h)⟩
    obtain rfl := CfgReq.busMaster.inj h
    exact hmaster
  | msixControl e m =>
    obtain ⟨t, ht⟩ : ∃ t, t = s.setFn f { s.fn f with msixEnable := e, funcMask := m } := ⟨_, rfl⟩
    obtain ⟨⟨fns, out, hrest⟩, henable, hmask⟩ := (t.vectored_dropRequests f).1.trans (State.vectored_unmasked _ f)
    have heq : s.configWrite f (.msixControl e m) = (t.dropRequests f).unmasked f := by rw [ht]; rfl
    rw [heq]
    have hset : t.fn f = { s.fn f with msixEnable := e, funcMask := m } := by rw [ht, State.fn_setFn_same]
    rw [hset] at henable hmask
    refine ⟨⟨fns, out, s.board, by rw [hrest, ht]; rfl⟩, fun h => (nomatch h), fun _ h => (nomatch h), fun e' m' h => ?_⟩
    obtain ⟨rfl, rfl⟩ := CfgReq.msixControl.inj h
    exact ⟨henable, hmask⟩

theorem exec_tapInstruction_eq (s : State) (i : TapInstr) : exec (.tapInstruction i) s =
    .next (((State.tapTest { s with board := { s.board with tapIr := i.acting s.boot.testStrap } } (i.acting s.boot.testStrap)).emit
      (.tap (i.acting s.boot.testStrap).register))) := rfl

/-- Without the test strap an instruction that is not one of the three acts as BYPASS (R521). -/
theorem exec_tapInstruction_bypass {s : State} {i : TapInstr} (hstrap : s.boot.testStrap = false) (h : i.always = false) :
    exec (.tapInstruction i) s = .next (State.emit { s with board := { s.board with tapIr := .bypass } } (.tap 0)) := by
  have hacting : i.acting s.boot.testStrap = .bypass := by simp [TapInstr.acting, hstrap, h]
  rw [exec_tapInstruction_eq, hacting]
  rfl

theorem exec_tapInstruction_atticTest {s : State} {r : RoomId} (hstrap : s.boot.testStrap = true) (hstate : s.boot.state = .test) (hok : s.roomOk r = true) :
    ∃ t : State, exec (.tapInstruction (.userAtticTest r)) s = .next t ∧ t.out = .tap 3 :: s.out ∧ ∀ off, off < 2 ^ 32 → Mem.byte t.mem.attic (atticKey r off) = 0 := by
  have hacting : (TapInstr.userAtticTest r).acting s.boot.testStrap = .userAtticTest r := by simp [TapInstr.acting, hstrap]
  obtain ⟨t, ht⟩ : ∃ t : State, t = { s with board := { s.board with tapIr := .userAtticTest r } } := ⟨_, rfl⟩
  have htest : t.tapTest (.userAtticTest r) = t.zeroAttic r := by
    have hstate' : t.boot.state = .test := by rw [ht]; exact hstate
    have hok' : t.roomOk r = true := by rw [ht]; exact hok
    simp only [State.tapTest, hstate', hok', BEq.rfl, Bool.and_self, if_true]
  refine ⟨(t.zeroAttic r).emit (.tap 3), ?_, ?_, fun off hoff => ?_⟩
  · rw [exec_tapInstruction_eq, hacting, ← ht, htest]
    rfl
  · rw [ht]
    rfl
  · refine (t.zeroAttic_byte r _).trans (if_pos ?_)
    unfold atticKey
    omega

/-! ## What a stage of the boot leaves alone -/

/-- From `s` to `t` the device state, the memory, the fuses, their cold image and the configuration stand. -/
structure State.Booted (s t : State) : Prop where
  boot : t.boot = s.boot
  mem : t.mem = s.mem
  image : t.nvm.image = s.nvm.image
  fuses : t.nvm.fuses = s.nvm.fuses
  config : t.nvm.config = s.nvm.config

theorem State.Booted.refl (s : State) : s.Booted s := ⟨rfl, rfl, rfl, rfl, rfl⟩

theorem State.Booted.trans {s t u : State} (h : s.Booted t) (h' : t.Booted u) : s.Booted u :=
  ⟨h'.boot.trans h.boot, h'.mem.trans h.mem, h'.image.trans h.image, h'.fuses.trans h.fuses, h'.config.trans h.config⟩

theorem State.Booted.foldl {α : Type} {f : State → α → State} (hf : ∀ (t : State) a, t.Booted (f t a)) (l : List α) (s : State) : s.Booted (l.foldl f s) :=
  foldl_inv (fun t => s.Booted t) (fun _ a ht => ht.trans (hf _ a)) l s (.refl s)

theorem State.booted_setRoom (s : State) (r : Nat) (x : Room) : s.Booted (s.setRoom r x) := ⟨rfl, rfl, rfl, rfl, rfl⟩

theorem State.booted_loseRoom (s : State) (r : Nat) : s.Booted (s.loseRoom r) := ⟨rfl, rfl, rfl, rfl, rfl⟩

theorem State.booted_decided (s : State) (code level kind : Nat) (irq deg rep : Bool) (room unit wher count : Nat) :
    s.Booted (s.decided code level kind irq deg rep room unit wher count) := by
  obtain ⟨_, _, h⟩ := s.decided_flagged code level kind irq deg rep room unit wher count
  rw [h]
  exact ⟨rfl, rfl, rfl, rfl, rfl⟩

theorem State.booted_persist (s : State) (c : FaultChan) : s.Booted (s.persist c) := ⟨rfl, rfl, rfl, rfl, rfl⟩

theorem State.booted_bootRetire (s : State) (r code : Nat) : s.Booted (s.bootRetire r code) := by
  unfold State.bootRetire
  split
  · exact .refl s
  · exact ((s.booted_persist _).trans (State.booted_decided ..)).trans (State.booted_loseRoom _ r)

/-! ## Factory and field remaps (R204, R205, R500, R506) -/

theorem State.booted_bootRow (s : State) (r layer bank row : Nat) : s.Booted (s.bootRow r layer bank row) := by
  unfold State.bootRow
  extract_lets x y used
  split
  · exact .refl s
  · split
    · exact s.booted_setRoom ..
    · split
      · exact s.booted_setRoom ..
      · exact .refl s

theorem State.booted_bootBank (s : State) (r layer bank : Nat) : s.Booted (s.bootBank r layer bank) := by
  unfold State.bootBank
  extract_lets x y
  split
  · exact .refl s
  · split
    · exact s.booted_setRoom ..
    · exact .refl s

theorem State.booted_remapWord (s : State) (w : Nat) : s.Booted (s.remapWord w) := by
  unfold State.remapWord
  extract_lets r layer bank
  split
  · exact .refl s
  · split
    · exact s.booted_bootBank ..
    · exact s.booted_bootRow ..

theorem State.booted_factoryRemaps (s : State) (reads : List (Nat × Word × Word × Word)) : s.Booted (s.factoryRemaps reads) := by
  unfold State.factoryRemaps
  extract_lets words
  refine .foldl (fun t n => ?_) _ s
  extract_lets v
  exact ((t.booted_remapWord _).trans (State.booted_remapWord _ _)).trans (State.booted_remapWord _ _)

theorem State.booted_enableDiffers (s : State) (a b c : Word) : s.Booted (s.enableDiffers a b c) := .foldl (fun t r => t.booted_bootRetire r 0) _ s

/-! ## FUSE_READ (R501, R503, R515) -/

theorem State.setDev_rest (s : State) {d : DevState} (h : d ≠ .ready) : ∃ fns, s.setDev d = { s with fns := fns, boot := { s.boot with state := d } } := by
  by_cases hd : s.boot.state = d
  · refine ⟨s.fns, (if_pos hd).trans ?_⟩
    rw [← hd]
  · exact State.setDev_of_ne hd h

/-- The seven domains of a room that the image disables are held off. -/
theorem State.holdOffFused_spec (s : State) : s.Booted s.holdOffFused ∧ ∀ r d, r < 16 → bitOf s.roomEnable r = false → d ∈ roomDomains r → s.holdOffFused.domain d = .heldOff := by
  refine ⟨⟨rfl, rfl, rfl, rfl, rfl⟩, fun r d hr hfused hd => ?_⟩
  have hset (l : List Nat) (t : Tab DomState) (h : r ∈ l ∨ Tab.get .off t d = .heldOff) :
      Tab.get .off (l.foldl (fun t r => (roomDomains r).foldl (fun d k => Tab.set .off d k .heldOff) t) t) d = .heldOff := by
    induction l generalizing t with
    | nil => exact h.resolve_left (List.not_mem_nil)
    | cons q l ih =>
      refine ih _ ?_
      rw [Tab.get_foldl_const]
      rcases h with h | h
      · rcases List.mem_cons.mp h with rfl | h
        · exact .inr (if_pos hd)
        · exact .inl h
      · refine .inr ?_
        split
        · rfl
        · exact h
  exact hset _ _ (.inl (List.mem_filter.mpr ⟨List.mem_range.mpr hr, by rw [hfused]; rfl⟩))

theorem State.deriveDevice_rest (s : State) : ∃ sec, s.deriveDevice = { s with sec := sec } := ⟨_, rfl⟩

/-- FUSES once the image stands: remaps, retirements and the held-off domains (R500, R503, R515). -/
theorem State.readFuses_spec (s : State) (reads : List (Nat × Word × Word × Word)) {t : State} (ht : t = s.readFuses reads) : t.boot.state = .fuses ∧
    t.boot.stageDone = true ∧ t.nvm.image = coldImage s.nvm.fuses reads ∧ t.nvm.fuses = s.nvm.fuses ∧ t.boot.weak = weakWords reads ∧ t.mem = s.mem ∧
    ∀ r d, r < 16 → bitOf t.roomEnable r = false → d ∈ roomDomains r → t.domain d = .heldOff := by
  unfold State.readFuses at ht
  obtain ⟨fns, hdev⟩ := s.setDev_rest (d := .fuses) (by decide)
  rw [hdev] at ht
  extract_lets weak boot a sec boot' nvm u v e w at ht
  have hu : u.boot.state = .fuses ∧ u.boot.stageDone = true ∧ u.nvm.image = coldImage s.nvm.fuses reads ∧ u.nvm.fuses = s.nvm.fuses ∧ u.boot.weak = weakWords reads ∧
      u.mem = s.mem := ⟨rfl, rfl, rfl, rfl, rfl, rfl⟩
  have hkept : u.Booted (v.enableDiffers e.1 e.2.1 e.2.2) := (u.booted_factoryRemaps reads).trans (v.booted_enableDiffers _ _ _)
  obtain ⟨hheld, hdomains⟩ := (v.enableDiffers e.1 e.2.1 e.2.2).holdOffFused_spec
  have hw : u.Booted w := hkept.trans hheld
  have hwdomains : ∀ r d, r < 16 → bitOf w.roomEnable r = false → d ∈ roomDomains r → w.domain d = .heldOff := hdomains
  have htw : ∃ sec, t = { w with sec := sec } := by
    rw [ht]
    split
    · exact ⟨_, rfl⟩
    · exact w.deriveDevice_rest
  clear_value u w
  obtain ⟨_, rfl⟩ := htw
  obtain ⟨hboot, hmem, himage, hfuses, -⟩ := hw
  obtain ⟨hstate, hdone, huimage, hufuses, hweak, humem⟩ := hu
  refine ⟨?_, ?_, himage.trans huimage, hfuses.trans hufuses, ?_, hmem.trans humem, hwdomains⟩
  · rw [hboot]; exact hstate
  · rw [hboot]; exact hdone
  · rw [hboot]; exact hweak

theorem exec_fuseRead_spec {s : State} {reads : List (Nat × Word × Word × Word)} (hheld : s.held = false) (hstable : s.refStable = true)
    (hstate : s.boot.state = .powerOn ∨ s.boot.state = .fuses ∧ s.boot.stageDone = false) : ∃ t : State, exec (.fuseRead reads) s = .next t ∧ t.boot.state = .fuses ∧
      t.boot.stageDone = true ∧ t.nvm.image = coldImage s.nvm.fuses reads ∧ t.nvm.fuses = s.nvm.fuses ∧ t.boot.weak = weakWords reads ∧ t.mem = s.mem ∧
      ∀ r d, r < 16 → bitOf t.roomEnable r = false → d ∈ roomDomains r → t.domain d = .heldOff := by
  obtain ⟨a, ha⟩ : ∃ a, a = if s.clocks.refHold then
      { s with clocks := { s.clocks with refHold := false }, boot := { s.boot with releasedAt := s.clocks.refSince + 1000000 } } else s := ⟨_, rfl⟩
  have hkept : a.nvm = s.nvm ∧ a.mem = s.mem := by
    rw [ha]
    split
    · exact ⟨rfl, rfl⟩
    · exact ⟨rfl, rfl⟩
  have hbegins : (decide (s.boot.state = .powerOn) || (decide (s.boot.state = .fuses) && !s.boot.stageDone)) = true := by
    rcases hstate with h | ⟨h, hdone⟩
    · simp [h]
    · simp [h, hdone]
  refine ⟨a.readFuses reads, ?_, ?_⟩
  · change execFuseRead reads s = _
    simp only [execFuseRead, hheld, hstable, Bool.not_true, Bool.or_self, Bool.false_eq_true, if_false]
    rw [if_pos hbegins, ha]
  · obtain ⟨hnvm, hmem⟩ := hkept
    rw [← hnvm, ← hmem]
    exact a.readFuses_spec reads rfl

/-! ## LOADING (R505, R515, R517) -/

/-- A switch of a clock domain changes clocks, and for the link clock ports; of the rest of the module only Gysis' records. -/
theorem State.makeSwitch_frame (s : State) (d src : Nat) : ∃ clocks ports hold g,
    s.makeSwitch d src = { s with clocks := clocks, links := { s.links with ports := ports, holdover := hold }, gysis := g } := by
  have hset : ∃ clocks ports hold g, s.setSourceOf d src = { s with clocks := clocks, links := { s.links with ports := ports, holdover := hold }, gysis := g } := by
    unfold State.setSourceOf
    extract_lets x t
    split
    · obtain ⟨⟨_, _, _, h⟩, -⟩ := t.portsDown_spec
      rw [h]
      exact ⟨_, _, _, _, rfl⟩
    · exact ⟨_, _, _, _, rfl⟩
  unfold State.makeSwitch
  extract_lets x
  split
  · obtain ⟨_, _, _, _, h⟩ := hset
    rw [h]
    exact ⟨_, _, _, _, rfl⟩
  · exact ⟨_, _, _, _, rfl⟩

/-- The firmware starts: it takes the controller, the cores and the clocks, and nothing else of the module (R477). -/
theorem State.startFirmware_rest (s : State) : ∃ clocks ports hold g free, s.startFirmware = { s with
    clocks := clocks, links := { s.links with ports := ports, holdover := hold }, gysis := g, free := free, boot := { s.boot with firmwareRunning := true } } := by
  unfold State.startFirmware
  extract_lets src core gysis intc t boot u
  have ht : ∃ g, t = { s with gysis := g } := by
    refine List.foldlRecOn (motive := fun v : State => ∃ g, v = { s with gysis := g }) _ _ ⟨_, rfl⟩ ?_
    rintro v ⟨_, rfl⟩ c -
    unfold core
    split
    · exact ⟨_, rfl⟩
    · exact ⟨_, rfl⟩
  obtain ⟨_, ht⟩ := ht
  refine List.foldlRecOn (motive := fun v : State => ∃ clocks ports hold g free, v = { s with
    clocks := clocks, links := { s.links with ports := ports, holdover := hold }, gysis := g, free := free, boot := { s.boot with firmwareRunning := true } }) _ _ ?_ ?_
  · have hboot : boot = s.boot := by rw [show boot = t.boot from rfl, ht]
    unfold u
    rw [ht, hboot]
    exact ⟨_, _, _, _, _, rfl⟩
  · rintro v ⟨_, _, _, _, _, hv⟩ d -
    split
    · obtain ⟨_, _, _, _, hswitch⟩ := v.makeSwitch_frame d 0
      rw [hswitch, hv]
      exact ⟨_, _, _, _, _, rfl⟩
    · exact ⟨_, _, _, _, _, hv⟩

theorem State.booted_applyRecord (s : State) (c : FaultChan) : s.Booted (s.applyRecord c) := by
  cases c with
  | atticRow r l b row => exact s.booted_bootRow r l b row
  | atticBank r l b => exact s.booted_bootBank r l b
  | pau r k => exact s.booted_setRoom r _
  | room r => exact s.booted_loseRoom r
  | core | security => exact ⟨rfl, rfl, rfl, rfl, rfl⟩
  | pauSet | transform | vector | sequencer | cellarRow | pseudo | lane | port | drbg | chip => exact .refl s

theorem State.deriveAlias_rest (s : State) : ∃ sec, s.deriveAlias = { s with sec := sec } := ⟨_, rfl⟩

/-- The firmware runs from its slot with the configuration chosen, and memory and fuses stand. -/
theorem State.load_spec (s : State) (b : Bool) (c : BoardConfig) : (s.load b c).boot.state = s.boot.state ∧ (s.load b c).boot.firmwareRunning = true ∧
    (s.load b c).boot.slotB = b ∧ (s.load b c).nvm.config = c ∧ (s.load b c).mem = s.mem ∧ (s.load b c).nvm.fuses = s.nvm.fuses := by
  unfold State.load
  extract_lets micro m nvm boot gysis sec t gone u v
  have ht : t.boot.state = s.boot.state ∧ t.boot.slotB = b ∧ t.nvm.config = c ∧ t.mem = s.mem ∧ t.nvm.fuses = s.nvm.fuses := ⟨rfl, rfl, rfl, rfl, rfl⟩
  have hu : t.Booted u := by
    unfold u
    split
    · exact .refl t
    · obtain ⟨_, h⟩ := t.deriveAlias_rest
      rw [h]
      exact ⟨rfl, rfl, rfl, rfl, rfl⟩
  have hv : t.Booted v := by
    refine hu.trans ?_
    unfold v
    split
    · exact .foldl State.booted_applyRecord _ u
    · exact .refl u
  obtain ⟨hboot, hmem, -, hfuses, hconfig⟩ := hv
  clear_value v t
  have hplls : v.startPlls.boot = v.boot ∧ v.startPlls.mem = v.mem ∧ v.startPlls.nvm = v.nvm := ⟨rfl, rfl, rfl⟩
  generalize v.startPlls = w at hplls
  obtain ⟨hwboot, hwmem, hwnvm⟩ := hplls
  obtain ⟨_, _, _, _, _, hstart⟩ := w.startFirmware_rest
  obtain ⟨htstate, htslot, htconfig, htmem, htfuses⟩ := ht
  rw [hstart]
  refine ⟨?_, rfl, ?_, ?_, ?_, ?_⟩
  · rw [hwboot, hboot]; exact htstate
  · rw [hwboot, hboot]; exact htslot
  · rw [hwnvm, hconfig]; exact htconfig
  · rw [hwmem, hmem]; exact htmem
  · rw [hwnvm, hfuses]; exact htfuses

/-- RECOVERY with its cause: ports idle, domains off, and nothing else but the boot's own record (R516, R517). -/
theorem State.recover_spec (s : State) (cause : Nat) : (s.recover cause).boot.state = .recovery ∧ (s.recover cause).boot.cause = cause ∧
    (s.recover cause).boot.lastExpiry = s.boot.lastExpiry ∧ (s.recover cause).parts = s.parts := by
  obtain ⟨⟨_, _, _, hidle⟩, -⟩ := s.portsIdle_spec
  unfold State.recover
  generalize s.portsIdle = t at hidle
  extract_lets power boot power' u
  have hu : u.boot.cause = cause ∧ u.boot.lastExpiry = t.boot.lastExpiry ∧ u.parts = t.parts := ⟨rfl, rfl, rfl⟩
  clear_value u
  obtain ⟨fns, hdev⟩ := u.setDev_rest (d := .recovery) (by decide)
  obtain ⟨hcause, hexpiry, hparts⟩ := hu
  rw [hdev]
  exact ⟨rfl, hcause, hexpiry.trans (by rw [hidle]), hparts.trans (by rw [hidle])⟩

/-- LOADING from FUSES: what each outcome leaves. -/
theorem exec_loading_spec {s : State} (hstate : s.boot.state = .fuses) (hdone : s.boot.stageDone = true) (ok : Bool) :
    (ok = false → ∃ t : State, exec (.loading ok) s = .next t ∧ t.boot.state = .halted) ∧
    (ok = true → s.boot.recoveryStrap = true → ∃ t : State, exec (.loading ok) s = .next t ∧ t.boot.state = .recovery ∧ t.boot.cause = 3) ∧
    (ok = true → s.boot.recoveryStrap = false → s.pickImage s.nvm.fwA s.nvm.fwB = none →
      ∃ t : State, exec (.loading ok) s = .next t ∧ t.boot.state = .recovery ∧ t.boot.cause = 1) ∧
    ∀ b, ok = true → s.boot.recoveryStrap = false → s.pickImage s.nvm.fwA s.nvm.fwB = some b →
      (s.pickConfig = none → ∃ t : State, exec (.loading ok) s = .next t ∧ t.boot.state = .recovery ∧ t.boot.cause = 2) ∧
      ∀ c, s.pickConfig = some c → ∃ t : State, exec (.loading ok) s = .next t ∧ t.boot.state = .loading ∧ t.boot.firmwareRunning = true ∧
        t.boot.slotB = b ∧ t.nvm.config = c ∧ t.mem = s.mem ∧ t.nvm.fuses = s.nvm.fuses := by
  obtain ⟨fns, hdev⟩ := s.setDev_rest (d := .loading) (by decide)
  obtain ⟨t, ht⟩ : ∃ t, t = s.setDev .loading := ⟨_, rfl⟩
  have hexec : exec (.loading ok) s = .next (if !ok then t.halt 5 else if t.boot.recoveryStrap then t.recover 3
      else match t.pickImage t.nvm.fwA t.nvm.fwB, t.pickConfig with
        | none, _ => t.recover 1
        | some _, none => t.recover 2
        | some b, some c => t.load b c) := by
    change execLoading ok s = _
    simp only [execLoading, hstate, hdone, ne_eq, not_true_eq_false, decide_false, Bool.not_true, Bool.or_self, Bool.false_eq_true, if_false, ht] <;> rfl
  rw [← ht] at hdev
  have hloading : t.boot.state = .loading := by rw [hdev]
  have hsame : t.boot.recoveryStrap = s.boot.recoveryStrap ∧ t.pickImage t.nvm.fwA t.nvm.fwB = s.pickImage s.nvm.fwA s.nvm.fwB ∧ t.pickConfig = s.pickConfig ∧
      t.mem = s.mem ∧ t.nvm = s.nvm := by
    rw [hdev]
    exact ⟨rfl, rfl, rfl, rfl, rfl⟩
  obtain ⟨hstrap, himage, hconfig, hmem, hnvm⟩ := hsame
  rw [hexec, hstrap, himage, hconfig]
  refine ⟨fun hok => ?_, fun hok hrec => ?_, fun hok hrec hpick => ?_, fun b hok hrec hpick => ⟨fun hconf => ?_, fun c hconf => ?_⟩⟩
  · obtain ⟨-, _, _, _, _, _, _, _, hhalt⟩ := t.halt_spec (by rw [hloading]; decide) 5
    refine ⟨t.halt 5, by rw [hok, Bool.not_false, if_pos rfl], ?_⟩
    rw [hhalt]
    rfl
  · obtain ⟨hrecovery, hcause, -⟩ := t.recover_spec 3
    exact ⟨_, by rw [hok, hrec, Bool.not_true, if_neg Bool.false_ne_true, if_pos rfl], hrecovery, hcause⟩
  · obtain ⟨hrecovery, hcause, -⟩ := t.recover_spec 1
    exact ⟨_, by rw [hok, hrec, hpick, Bool.not_true, if_neg Bool.false_ne_true, if_neg Bool.false_ne_true], hrecovery, hcause⟩
  · obtain ⟨hrecovery, hcause, -⟩ := t.recover_spec 2
    exact ⟨_, by rw [hok, hrec, hpick, hconf, Bool.not_true, if_neg Bool.false_ne_true, if_neg Bool.false_ne_true], hrecovery, hcause⟩
  · obtain ⟨hkept, hruns, hslot, hchosen, hlmem, hlfuses⟩ := t.load_spec b c
    exact ⟨_, by rw [hok, hrec, hpick, hconf, Bool.not_true, if_neg Bool.false_ne_true, if_neg Bool.false_ne_true], hkept.trans hloading, hruns, hslot, hchosen, hlmem.trans hmem, hlfuses.trans (by rw [hnvm])⟩

/-! ## SELFTEST (R502, R503, R508, R514) -/

/-- From `s` to `t` the bytes of memory stand, and the device state with them, unless the module has halted. -/
structure State.Tested (s t : State) : Prop where
  attic : t.mem.attic = s.mem.attic
  cellar : t.mem.cellar = s.mem.cellar
  state : t.boot.state = s.boot.state ∨ t.boot.state = .halted

theorem State.Tested.of_same {s t : State} (hattic : t.mem.attic = s.mem.attic) (hcellar : t.mem.cellar = s.mem.cellar) (hboot : t.boot = s.boot) : s.Tested t :=
  ⟨hattic, hcellar, .inl (congrArg Boot.state hboot)⟩

theorem State.Tested.refl (s : State) : s.Tested s := .of_same rfl rfl rfl

theorem State.Tested.trans {s t u : State} (h : s.Tested t) (h' : t.Tested u) : s.Tested u := by
  refine ⟨h'.attic.trans h.attic, h'.cellar.trans h.cellar, ?_⟩
  rcases h'.state with hstate | hhalted
  · rw [hstate]
    exact h.state
  · exact .inr hhalted

theorem State.Tested.foldl {α : Type} {f : State → α → State} (hf : ∀ (t : State) a, t.Tested (f t a)) (l : List α) (s : State) : s.Tested (l.foldl f s) :=
  foldl_inv (fun t => s.Tested t) (fun _ a ht => ht.trans (hf _ a)) l s (.refl s)

theorem State.Booted.tested {s t : State} (h : s.Booted t) : s.Tested t := .of_same (congrArg Mem.attic h.mem) (congrArg Mem.cellar h.mem) h.boot

theorem State.Noted.tested {s t : State} (h : s.Noted t) : s.Tested t := by
  obtain ⟨_, _, _, rfl⟩ := h
  exact .of_same rfl rfl rfl

theorem State.Flagged.tested {s t : State} (h : s.Flagged t) : s.Tested t := by
  obtain ⟨_, _, rfl⟩ := h
  exact .of_same rfl rfl rfl

theorem State.tested_setRoom (s : State) (r : Nat) (x : Room) : s.Tested (s.setRoom r x) := .of_same rfl rfl rfl

theorem State.tested_note (s : State) (c : FaultChan) (kind : Nat) : s.Tested (s.note c kind) := by
  rw [State.note_eq]
  exact .of_same rfl rfl rfl

theorem State.tested_noteOnce (s : State) (c : FaultChan) (kind : Nat) : s.Tested (s.noteOnce c kind) := by
  unfold State.noteOnce
  split
  · exact s.tested_note c kind
  · exact .refl s

theorem State.tested_halt (s : State) (cause : Nat) : s.Tested (s.halt cause) := by
  by_cases h : s.boot.state = .halted
  · have heq : s.halt cause = s := if_pos h
    rw [heq]
    exact .refl s
  · obtain ⟨-, _, _, _, _, _, _, _, hrest⟩ := s.halt_spec h cause
    rw [hrest]
    exact ⟨rfl, rfl, .inr rfl⟩

theorem State.tested_retireCore (s : State) (c : Nat) : s.Tested (s.retireCore c) := by
  rw [s.retireCore_eq]
  obtain ⟨_, _, _, _, _, hlost, -⟩ := s.loseCommands_spec c
  have hleft : s.Tested ((s.loseCommands c).leaveCore c (s.core c).handling) := by
    obtain ⟨_, _, _, _, hleave⟩ := (s.loseCommands c).leaveCore_rest c (s.core c).handling
    rw [hleave, hlost]
    exact .of_same rfl rfl rfl
  exact hleft.trans (State.decided_flagged _ _ _ _ _ _ _ _ _ _ _).tested

theorem State.tested_retireEngine (s : State) : s.Tested s.retireEngine := by
  unfold State.retireEngine
  extract_lets last sec t u
  have ht : s.Tested t := .of_same rfl rfl rfl
  have hu : t.Tested u := State.Tested.trans (t := t.persist .security) (.of_same rfl rfl rfl) (State.decided_flagged _ _ _ _ _ _ _ _ _ _ _).tested
  refine (ht.trans hu).trans (.foldl (fun v p => ?_) _ u)
  obtain ⟨_, _, _, h⟩ := (v.freezeTwin_rest p).1
  rw [h]
  exact .of_same rfl rfl rfl

theorem State.tested_replaceBank (s : State) (r layer bank : Nat) : s.Tested (s.replaceBank r layer bank) := by
  unfold State.replaceBank
  extract_lets x y
  split
  · exact .refl s
  · split
    · exact ((s.tested_setRoom r _).trans (State.booted_persist _ _).tested).trans (State.bankDecision_flagged ..).tested
    · exact s.tested_noteOnce _ 3

theorem State.tested_remapRow (s : State) (r layer bank row : Nat) : s.Tested (s.remapRow r layer bank row) := by
  unfold State.remapRow
  extract_lets x y used s1 t
  split
  · exact .refl s
  · split
    · have ht : s.Tested t := (s.copiedRow_noted r layer bank row).tested.trans (s1.tested_setRoom r _)
      exact (ht.trans (t.booted_persist _).tested).trans (State.decided_flagged _ _ _ _ _ _ _ _ _ _ _).tested
    · exact s.tested_noteOnce _ 2

theorem State.tested_selfTestFinding (s : State) (r : Nat) (e : Nat × Nat × Nat) : s.Tested (s.selfTestFinding r e) := by
  unfold State.selfTestFinding
  split
  · exact .refl s
  · split
    · exact s.tested_replaceBank ..
    · exact s.tested_remapRow ..

theorem State.tested_unstable (s : State) (n : Nat) (hot : Word) : s.Tested (s.unstable n hot) := by
  unfold State.unstable
  extract_lets cold boot t sec boot' w r layer bank
  have ht : s.Tested t := ⟨rfl, rfl, .inl rfl⟩
  split
  · exact ⟨rfl, rfl, .inl rfl⟩
  · split
    · exact ⟨rfl, rfl, .inl rfl⟩
    · split
      · exact ht.trans (.of_same rfl rfl rfl)
      · split
        · exact ht.trans (.foldl (fun u r => (u.booted_bootRetire r 0).tested) _ t)
        · split
          · exact ht
          · split
            · exact ht
            · split
              · split
                · exact ht
                · exact ht.trans (t.tested_replaceBank ..)
              · exact ht.trans (t.tested_selfTestFinding ..)

theorem State.tested_hotRead (s : State) (hot : List (Nat × Word)) : s.Tested (s.hotRead hot) := .foldl (fun t (e : Nat × Word) => t.tested_unstable e.1 e.2) _ s

theorem State.tested_selfTestFailure (s : State) (c : FaultChan) : s.Tested (s.selfTestFailure c) := by
  have hroom (r : Nat) : s.Tested (if s.roomOk r then s.bootRetire r 0 else s) := by
    split
    · exact (s.booted_bootRetire r 0).tested
    · exact .refl s
  cases c with
  | pau r k =>
    simp only [State.selfTestFailure]
    split
    · exact .refl s
    · generalize hx : ({ s.room r with pauRetired := (s.room r).pauRetired ||| BitVec.ofNat 4 (2 ^ k) } : Room) = x
      obtain ⟨u, hu⟩ : ∃ u, u = ((s.setRoom r x).persist (.pau r k)).decided 0x0010 1 2 true true (decide (2 ≤ (s.setRoom r x).retiredPaus)) r k k 1 := ⟨_, rfl⟩
      have htested : s.Tested u := by
        rw [hu]
        exact ((s.tested_setRoom r x).trans (State.booted_persist _ _).tested).trans (State.decided_flagged _ _ _ _ _ _ _ _ _ _ _).tested
      rw [← hu]
      split
      · exact htested.trans (u.booted_bootRetire r _).tested
      · exact htested
  | transform r => exact hroom r
  | vector r => exact hroom r
  | sequencer r => exact hroom r
  | room r => exact hroom r
  | core k =>
    simp only [State.selfTestFailure]
    split
    · exact s.tested_halt 5
    · split
      · exact s.tested_retireCore k
      · exact .refl s
  | security =>
    simp only [State.selfTestFailure]
    split
    · exact .refl s
    · exact s.tested_retireEngine
  | chip => exact s.tested_halt 5
  | atticRow | atticBank | pauSet | cellarRow | pseudo | lane | port | drbg => exact .refl s

/-- A table written at the members of a list holds at each of them what is written there. -/
theorem Tab.get_foldl_at {α : Type} [DecidableEq α] (d : α) (g : Nat → α) {l : List Nat} {k : Nat} (h : k ∈ l) (t : Tab α) :
    Tab.get d (l.foldl (fun u j => Tab.set d u j (g j)) t) k = g k := by
  induction l using List.reverseRecOn with
  | nil => exact nomatch h
  | append_singleton l j ih =>
    rw [List.foldl_append, List.foldl_cons, List.foldl_nil, Tab.get_set]
    split
    next hj => rw [hj]
    next hj => exact ih ((List.mem_append.mp h).resolve_right fun hk => hj (List.mem_singleton.mp hk))

/-- What SELFTEST notes once its tests have run: each room's idle power, and the time of the DRBG's seed. -/
def State.selftested (u : State) (idle : List Nat) : State :=
  { u with
    power := { u.power with idlePower := u.liveRooms.foldl (fun (m : Tab Nat) r => Tab.set 0 m r (idle.getD r 0)) [] }
    sec := { u.sec with drbgSeeded := u.now } }

/-- How SELFTEST and TRAINING end: without the minimum compute set the module halts (R514). -/
def State.minimumSet (v : State) : State := if v.canCompute then v else v.halt 6

theorem State.minimumSet_spec (v : State) {d : DevState} (hstate : v.boot.state = d) (hd : d ≠ .halted) :
    (v.minimumSet.boot.state = d ∧ v.minimumSet.canCompute = true ∨ v.minimumSet.boot.state = .halted) ∧ (v.minimumSet.boot.state = d ↔ v.canCompute = true) ∧
      v.minimumSet.rooms = v.rooms ∧ v.minimumSet.hbm = v.hbm ∧ v.minimumSet.parts = v.parts ∧ v.minimumSet.mem = v.mem ∧ v.minimumSet.nvm = v.nvm ∧
      v.minimumSet.power.idlePower = v.power.idlePower ∧ v.minimumSet.links.released = v.links.released := by
  unfold State.minimumSet
  cases hcan : v.canCompute with
  | true =>
    rw [if_pos rfl]
    exact ⟨.inl ⟨hstate, hcan⟩, iff_of_true hstate rfl, rfl, rfl, rfl, rfl, rfl, rfl, rfl⟩
  | false =>
    obtain ⟨-, _, _, _, _, _, _, _, hrest⟩ := v.halt_spec (by rw [hstate]; exact hd) 6
    rw [if_neg Bool.false_ne_true, hrest]
    exact ⟨.inr rfl, iff_of_false (fun h => hd h.symm) Bool.false_ne_true, rfl, rfl, rfl, rfl, rfl, rfl, rfl⟩

theorem State.canCompute_congr {s t : State} (hrooms : t.rooms = s.rooms) (himage : t.nvm.image = s.nvm.image) : t.canCompute = s.canCompute ∧ t.liveRooms = s.liveRooms := by
  have hroom (r : Nat) : t.room r = s.room r := congrArg (fun l => (Tab.get {} l r : Room)) hrooms
  have hok (r : Nat) : t.roomOk r = s.roomOk r := by simp only [State.roomOk, State.roomEnable, State.fuse, himage, hroom]
  have hlive : t.liveRooms = s.liveRooms := List.filter_congr fun r _ => hok r
  refine ⟨?_, hlive⟩
  simp only [State.canCompute, hlive, hroom]

theorem exec_selftest_spec {s : State} {hot : List (Nat × Word)} {failed : List FaultChan} {idle : List Nat} (hstate : s.boot.state = .loading) (hdone : s.boot.stageDone = true) :
    ∃ t : State, exec (.selftest hot failed idle) s = .next t ∧ (t.boot.state = .selfTest ∧ t.canCompute = true ∨ t.boot.state = .halted) ∧
      t.mem.attic = s.mem.attic ∧ t.mem.cellar = s.mem.cellar ∧
      (failed = [] → hot = [] → (t.boot.state = .selfTest ↔ s.canCompute = true) ∧ t.rooms = s.rooms ∧ t.parts = s.parts ∧
        ∀ r, r ∈ s.liveRooms → Tab.get 0 t.power.idlePower r = idle.getD r 0) := by
  obtain ⟨_, hdev⟩ := s.setDev_rest (d := .selfTest) (by decide)
  obtain ⟨a, ha⟩ : ∃ a, a = (s.setDev .selfTest).powerOn ((maskList 16 s.roomEnable).flatMap roomDomains) := ⟨_, rfl⟩
  have hkept : a.mem = s.mem ∧ a.rooms = s.rooms ∧ a.parts = s.parts ∧ a.nvm = s.nvm ∧ a.boot.state = .selfTest := by
    rw [ha, hdev]
    exact ⟨rfl, rfl, rfl, rfl, rfl⟩
  obtain ⟨hmem, hrooms, hparts, hnvm, htest⟩ := hkept
  obtain ⟨u, hu⟩ : ∃ u, u = (failed.foldl State.selfTestFailure a).hotRead hot := ⟨_, rfl⟩
  obtain ⟨hattic, hcellar, hends⟩ : a.Tested u := hu ▸ (State.Tested.foldl State.tested_selfTestFailure failed a).trans (State.tested_hotRead _ hot)
  rw [hmem] at hattic hcellar
  have hexec : exec (.selftest hot failed idle) s = .next (if u.boot.state = .halted then u.selftested idle else (u.selftested idle).minimumSet) := by
    change execSelftest hot failed idle s = _
    simp only [execSelftest, hstate, hdone, ne_eq, not_true_eq_false, decide_false, Bool.not_true, Bool.or_self, Bool.false_eq_true, if_false, hu, ha] <;> rfl
  have hnone : failed = [] → hot = [] → u = a := by
    rintro rfl rfl
    exact hu
  by_cases hhalted : u.boot.state = .halted
  · refine ⟨u.selftested idle, by rw [hexec, if_pos hhalted], .inr hhalted, hattic, hcellar, fun hf hh => ?_⟩
    rw [hnone hf hh, htest] at hhalted
    exact nomatch hhalted
  · have hvstate : (u.selftested idle).boot.state = .selfTest := (hends.resolve_right hhalted).trans htest
    obtain ⟨hstates, hiff, hvrooms, -, hvparts, hvmem, -, hvidle, -⟩ := (u.selftested idle).minimumSet_spec hvstate (by decide)
    refine ⟨(u.selftested idle).minimumSet, by rw [hexec, if_neg hhalted], hstates, (congrArg Mem.attic hvmem).trans hattic, (congrArg Mem.cellar hvmem).trans hcellar, fun hf hh => ?_⟩
    have hua := hnone hf hh
    have hsame : u.rooms = s.rooms ∧ u.nvm.image = s.nvm.image ∧ u.parts = s.parts := by
      rw [hua, hnvm]
      exact ⟨hrooms, rfl, hparts⟩
    obtain ⟨hurooms, huimage, huparts⟩ := hsame
    obtain ⟨hcan, hlive⟩ := State.canCompute_congr hurooms huimage
    have hvcan : (u.selftested idle).canCompute = s.canCompute := (State.canCompute_congr (t := u.selftested idle) hurooms huimage).1
    refine ⟨hvcan ▸ hiff, hvrooms.trans hurooms, hvparts.trans huparts, fun r hr => ?_⟩
    rw [hvidle]
    exact Tab.get_foldl_at 0 (fun r => idle.getD r 0) (hlive ▸ hr) []

/-! ## TRAINING (R211, R234, R506, R509, R514) -/

/-- From `s` to `t` the image, the device state, the release of the links, and the units in service of every room stand. -/
structure State.Serves (s t : State) : Prop where
  image : t.nvm.image = s.nvm.image
  state : t.boot.state = s.boot.state
  released : t.links.released = s.links.released
  retired : ∀ q, (t.room q).retired = (s.room q).retired
  paus : ∀ q, (t.room q).pauRetired = (s.room q).pauRetired

theorem State.Serves.of_rooms {s t : State} (himage : t.nvm.image = s.nvm.image) (hstate : t.boot.state = s.boot.state) (hreleased : t.links.released = s.links.released)
    (hrooms : t.rooms = s.rooms) : s.Serves t := by
  have hroom (q : Nat) : t.room q = s.room q := congrArg (fun l => (Tab.get {} l q : Room)) hrooms
  exact ⟨himage, hstate, hreleased, fun q => by rw [hroom], fun q => by rw [hroom]⟩

theorem State.Serves.refl (s : State) : s.Serves s := .of_rooms rfl rfl rfl rfl

theorem State.Serves.trans {s t u : State} (h : s.Serves t) (h' : t.Serves u) : s.Serves u :=
  ⟨h'.image.trans h.image, h'.state.trans h.state, h'.released.trans h.released, fun q => (h'.retired q).trans (h.retired q), fun q => (h'.paus q).trans (h.paus q)⟩

theorem State.Serves.foldl {α : Type} {f : State → α → State} (hf : ∀ (t : State) a, t.Serves (f t a)) (l : List α) (s : State) : s.Serves (l.foldl f s) :=
  foldl_inv (fun t => s.Serves t) (fun _ a ht => ht.trans (hf _ a)) l s (.refl s)

theorem State.Serves.roomOk {s t : State} (h : s.Serves t) (r : Nat) : t.roomOk r = s.roomOk r := by
  simp only [State.roomOk, State.roomEnable, State.fuse, h.image, h.retired]

theorem State.Serves.liveRooms {s t : State} (h : s.Serves t) : t.liveRooms = s.liveRooms := List.filter_congr fun r _ => h.roomOk r

theorem State.Serves.canCompute {s t : State} (h : s.Serves t) : t.canCompute = s.canCompute := by
  have hleft (r : Nat) : (t.room r).pausLeft = (s.room r).pausLeft := by simp only [Room.pausLeft, h.paus]
  simp only [State.canCompute, h.liveRooms, hleft]

theorem State.mem_liveRooms {s : State} {r : Nat} : r ∈ s.liveRooms ↔ r < 16 ∧ s.roomOk r = true := by
  simp [State.liveRooms]

/-- A room is retired at boot: it is out of service from then on, and no other changes. -/
theorem State.bootRetire_spec (s : State) (r code : Nat) : (s.bootRetire r code).nvm.image = s.nvm.image ∧ (s.bootRetire r code).boot = s.boot ∧
    (s.bootRetire r code).links.released = s.links.released ∧ ∀ q, ((s.bootRetire r code).room q).retired = (decide (q = r) || (s.room q).retired) := by
  unfold State.bootRetire
  split
  next h =>
    refine ⟨rfl, rfl, rfl, fun q => ?_⟩
    by_cases hq : q = r
    · rw [hq, h, Bool.or_true]
    · simp [hq]
  next =>
    obtain ⟨_, _, hdecided⟩ := (s.persist (.room r)).decided_flagged 0x0011 2 2 true true true r 255 code 1
    obtain ⟨u, hu⟩ : ∃ u, u = (s.persist (.room r)).decided 0x0011 2 2 true true true r 255 code 1 := ⟨_, rfl⟩
    rw [← hu] at hdecided ⊢
    have hsame : u.nvm.image = s.nvm.image ∧ u.boot = s.boot ∧ u.links = s.links ∧ u.rooms = s.rooms := by
      rw [hdecided]
      exact ⟨rfl, rfl, rfl, rfl⟩
    obtain ⟨himage, hboot, hlinks, hrooms⟩ := hsame
    obtain ⟨hlost, -, hothers, -⟩ := u.loseRoom_spec r
    refine ⟨himage, hboot, (congrArg Links.released hlinks : u.links.released = _), fun q => ?_⟩
    by_cases hq : q = r
    · rw [hq, hlost.retired]
      simp
    · rw [hothers q hq]
      have hroom : u.room q = s.room q := congrArg (fun l => (Tab.get {} l q : Room)) hrooms
      simp [hq, hroom]

/-- The rooms of the stacks that failed are out of service. -/
theorem State.retireFailed_spec (s : State) (l : List Nat) : (l.foldl (fun v r => v.bootRetire r 0) s).nvm.image = s.nvm.image ∧
    (l.foldl (fun v r => v.bootRetire r 0) s).boot = s.boot ∧ (l.foldl (fun v r => v.bootRetire r 0) s).links.released = s.links.released ∧
    ∀ q, ((l.foldl (fun v r => v.bootRetire r 0) s).room q).retired = (decide (q ∈ l) || (s.room q).retired) := by
  induction l using List.reverseRecOn with
  | nil => exact ⟨rfl, rfl, rfl, fun q => by simp⟩
  | append_singleton l r ih =>
    obtain ⟨himage, hboot, hreleased, hretired⟩ := ih
    rw [List.foldl_append, List.foldl_cons, List.foldl_nil]
    generalize List.foldl _ s l = t at himage hboot hreleased hretired
    obtain ⟨himage', hboot', hreleased', hretired'⟩ := t.bootRetire_spec r 0
    refine ⟨himage'.trans himage, hboot'.trans hboot, hreleased'.trans hreleased, fun q => ?_⟩
    rw [hretired', hretired]
    by_cases hq : q = r
    · simp [hq]
    · simp [hq]

theorem State.serves_hardRepairs (s : State) : s.Serves s.hardRepairs := by
  have hfold : s.Serves (s.nvm.repairs.foldl (fun (u : State) (e : Nat × RepairEntry) => u.setStack e.1 ((u.stack e.1).useRepair e.2.row)) s) :=
    .foldl (fun u (e : Nat × RepairEntry) => .of_rooms (t := u.setStack e.1 ((u.stack e.1).useRepair e.2.row)) rfl rfl rfl rfl) _ s
  unfold State.hardRepairs
  extract_lets todo t
  exact hfold.trans (.of_rooms rfl rfl rfl rfl)

theorem State.serves_recordedPcs (s : State) : s.Serves s.recordedPcs := by
  refine .foldl (fun t c => ?_) _ s
  split
  · exact .of_rooms rfl rfl rfl rfl
  · exact .refl t

/-- A room's stack is trained, and the room is cleared. -/
def State.trainRoom (v : State) (r : Nat) : State := (v.setStack r { v.stack r with trained := true }).clearRoom r

/-- What a trained and cleared room shows: its stack serves, and its attic reads zero. -/
structure State.Ready (s : State) (r : Nat) : Prop where
  trained : (s.stack r).trained = true
  zero : ∀ i, i < atticBytes → Mem.byte s.mem.attic (atticKey r i) = 0

theorem State.trainRoom_spec (s : State) (r : Nat) : s.Serves (s.trainRoom r) ∧ (s.trainRoom r).Ready r ∧ ∀ q, s.Ready q → (s.trainRoom r).Ready q := by
  obtain ⟨t, ht⟩ : ∃ t, t = s.setStack r { s.stack r with trained := true } := ⟨_, rfl⟩
  have hroom (q : Nat) : (s.trainRoom r).room q = if q = r then (s.room r).cleared else s.room q := State.room_setRoom ..
  have hstack (q : Nat) : ((s.trainRoom r).stack q).trained = if q = r then true else (s.stack q).trained := by
    have hclear (u : State) (q : Nat) : ((u.clearRoom r).stack q).trained = (u.stack q).trained := by
      unfold State.clearRoom State.clearMemory
      dsimp only
      rw [State.stack_setRoom, State.stack_setStack]
      split
      next hq => rw [hq]; rfl
      next => rfl
    unfold State.trainRoom
    rw [hclear, State.stack_setStack]
    split
    · rfl
    · rfl
  have hbyte (x : Nat) : Mem.byte (s.trainRoom r).mem.attic x = if atticKey r 0 ≤ x ∧ x < atticKey r 0 + 2 ^ 32 then 0 else Mem.byte s.mem.attic x := Mem.byte_clear ..
  refine ⟨⟨rfl, rfl, rfl, fun q => ?_, fun q => ?_⟩, ⟨(hstack r).trans (if_pos rfl), fun i hi => (hbyte _).trans (if_pos ?_)⟩, fun q hq => ⟨?_, fun i hi => ?_⟩⟩
  · rw [hroom]
    split
    next h => rw [h]; rfl
    next => rfl
  · rw [hroom]
    split
    next h => rw [h]; rfl
    next => rfl
  · unfold atticKey atticBytes at *
    omega
  · rw [hstack]
    split
    · rfl
    · exact hq.trained
  · rw [hbyte]
    split
    · rfl
    · exact hq.zero i hi

theorem State.trainRooms_spec (s : State) (l : List Nat) : s.Serves (l.foldl State.trainRoom s) ∧ ∀ r, r ∈ l → (l.foldl State.trainRoom s).Ready r := by
  refine ⟨.foldl (fun t r => (t.trainRoom_spec r).1) l s, ?_⟩
  induction l using List.reverseRecOn with
  | nil => exact fun r h => nomatch h
  | append_singleton l q ih =>
    intro r hr
    rw [List.foldl_append, List.foldl_cons, List.foldl_nil]
    generalize l.foldl State.trainRoom s = t at ih
    obtain ⟨-, hself, hkept⟩ := t.trainRoom_spec q
    rcases List.mem_append.mp hr with hr | hr
    · exact hkept r (ih r hr)
    · rw [List.mem_singleton.mp hr]
      exact hself

theorem State.mem_liveRooms_iff {s : State} {r : Nat} : r ∈ s.liveRooms ↔ r < 16 ∧ bitOf s.roomEnable r = true ∧ (s.room r).retired = false := by
  rw [State.mem_liveRooms, State.roomOk, Bool.and_eq_true, Bool.not_eq_true']

/-- The first step of TRAINING: cellar and bundle domains are ON, and the links are released (R420, R509). -/
def State.enterTraining (s : State) : State :=
  ((s.setDev .training).powerOn (s.liveRooms.map (96 + ·) ++ (List.range 6).map (112 + ·))).releaseLinks

theorem State.releaseLinks_spec (s : State) : s.releaseLinks.rooms = s.rooms ∧ s.releaseLinks.nvm = s.nvm ∧ s.releaseLinks.boot = s.boot ∧
    s.releaseLinks.links.released = true := by
  unfold State.releaseLinks
  obtain ⟨⟨_, _, _, hports⟩, -⟩ := State.foldl_retrain { s with links := { s.links with released := true } } 30
  rw [hports]
  exact ⟨rfl, rfl, rfl, rfl⟩

theorem State.enterTraining_spec (s : State) : s.enterTraining.rooms = s.rooms ∧ s.enterTraining.nvm = s.nvm ∧ s.enterTraining.boot.state = .training ∧
    s.enterTraining.links.released = true := by
  obtain ⟨_, hdev⟩ := s.setDev_rest (d := .training) (by decide)
  unfold State.enterTraining
  generalize s.liveRooms.map _ ++ _ = domains
  obtain ⟨hrooms, hnvm, hboot, hreleased⟩ := ((s.setDev .training).powerOn domains).releaseLinks_spec
  rw [hrooms, hnvm, hboot]
  refine ⟨?_, ?_, ?_, hreleased⟩
  · rw [hdev]; rfl
  · rw [hdev]; rfl
  · rw [hdev]; rfl

theorem exec_training_spec {s : State} {failed : List Nat} (hstate : s.boot.state = .selfTest) (hdone : s.boot.stageDone = true) :
    ∃ t : State, exec (.training failed) s = .next t ∧ t.links.released = true ∧ (t.boot.state = .training ∧ t.canCompute = true ∨ t.boot.state = .halted) ∧
      (∀ r, r ∈ t.liveRooms → (t.stack r).trained = true ∧ r ∉ failed ∧ ∀ i, i < atticBytes → Mem.byte t.mem.attic (atticKey r i) = 0) ∧
      (failed = [] → (t.boot.state = .training ↔ s.canCompute = true)) := by
  obtain ⟨harooms, hanvm, hatrain, hareleased⟩ := s.enterTraining_spec
  obtain ⟨a, ha⟩ : ∃ a, a = s.enterTraining := ⟨_, rfl⟩
  rw [← ha] at harooms hanvm hatrain hareleased
  obtain ⟨u, hu⟩ : ∃ u, u = (failed.filter fun r => a.roomOk r).foldl (fun v r => v.bootRetire r 0) a := ⟨_, rfl⟩
  obtain ⟨huimage, huboot, hureleased, huretired⟩ := a.retireFailed_spec (failed.filter fun r => a.roomOk r)
  rw [← hu] at huimage huboot hureleased huretired
  obtain ⟨w, hw⟩ : ∃ w, w = if u.nvm.recordOk then u.hardRepairs.recordedPcs else u := ⟨_, rfl⟩
  have huw : u.Serves w := by
    rw [hw]
    split
    · exact u.serves_hardRepairs.trans (State.serves_recordedPcs _)
    · exact .refl u
  obtain ⟨hwz, hready⟩ := w.trainRooms_spec w.liveRooms
  obtain ⟨z, hz⟩ : ∃ z, z = w.liveRooms.foldl State.trainRoom w := ⟨_, rfl⟩
  rw [← hz] at hwz hready
  have huz := huw.trans hwz
  have hexec : exec (.training failed) s = .next z.minimumSet := by
    change execTraining failed s = _
    rw [execTraining, if_neg (by simp [hstate, hdone])]
    exact congrArg Host.Outcome.next (by rw [hz, hw, hu, ha]; rfl)
  have hztrain : z.boot.state = .training := by rw [huz.state, huboot, hatrain]
  obtain ⟨hstates, hiff, hrooms, hhbm, -, hmem, hnvm, -, hreleased⟩ := z.minimumSet_spec hztrain (by decide)
  obtain ⟨-, hlive⟩ := State.canCompute_congr hrooms (congrArg Nvm.image hnvm)
  refine ⟨z.minimumSet, hexec, ?_, hstates, fun r hr => ?_, fun hnone => ?_⟩
  · rw [hreleased, huz.released, hureleased, hareleased]
  · rw [hlive] at hr
    obtain ⟨htrained, hzero⟩ := hready r (hwz.liveRooms ▸ hr)
    have hstack : z.minimumSet.stack r = z.stack r := congrArg (fun l => (Tab.get {} l r : Stack)) hhbm
    refine ⟨by rw [hstack, htrained], fun hfailed => ?_, fun i hi => by rw [hmem, hzero i hi]⟩
    obtain ⟨-, hbit, hin⟩ := State.mem_liveRooms_iff.mp hr
    have henable : z.roomEnable = a.roomEnable := by simp only [State.roomEnable, State.fuse, huz.image, huimage]
    rw [huz.retired, huretired, Bool.or_eq_false_iff] at hin
    obtain ⟨hnot, haretired⟩ := hin
    refine of_decide_eq_false hnot (List.mem_filter.mpr ⟨hfailed, ?_⟩)
    rw [State.roomOk, ← henable, hbit, haretired]
    rfl
  · rw [hiff, huz.canCompute]
    have hua : u = a := by rw [hu, hnone]; rfl
    rw [hua, (State.canCompute_congr harooms (congrArg Nvm.image hanvm)).1]

/-! ## READY_ENTRY (R465, R507, R511, R516, R519) -/

/-- Breaks are cleared in the rooms, and nothing else (R316). -/
theorem State.clearBreaks_spec (s : State) : (∃ rooms, s.clearBreaks = { s with rooms := rooms }) ∧ ∀ q, ∃ brk, s.clearBreaks.room q = { s.room q with brk := brk } := by
  refine List.foldlRecOn (motive := fun t : State => (∃ rooms, t = { s with rooms := rooms }) ∧ ∀ q, ∃ brk, t.room q = { s.room q with brk := brk }) _ _
    ⟨⟨_, rfl⟩, fun _ => ⟨_, rfl⟩⟩ ?_
  rintro t ⟨⟨_, hrest⟩, hrooms⟩ r -
  split
  · exact ⟨⟨_, hrest⟩, hrooms⟩
  · refine ⟨⟨_, by rw [hrest]; rfl⟩, fun q => ?_⟩
    obtain ⟨_, hq⟩ := hrooms q
    rw [State.room_setRoom]
    split
    next h =>
      subst h
      rw [hq]
      exact ⟨_, rfl⟩
    next => exact ⟨_, hq⟩

/-- A change of the device state: the functions keep their slots, and at most the breaks of the rooms change (R316, R531). -/
theorem State.setDev_spec (s : State) (d : DevState) : ∃ fns rooms, s.setDev d = { s with fns := fns, rooms := rooms, boot := { s.boot with state := d } } ∧
    s.KeepsSlots fns ∧ ∀ q, ∃ brk, (s.setDev d).room q = { s.room q with brk := brk } := by
  by_cases hd : s.boot.state = d
  · have hsame : s.setDev d = s := if_pos hd
    refine ⟨s.fns, s.rooms, ?_, fun _ => rfl, fun q => ?_⟩
    · rw [hsame, ← hd]
    · rw [hsame]
      exact ⟨_, rfl⟩
  · obtain ⟨fns, hfns, hslots⟩ := State.stateChanged_slots { s with boot := { s.boot with state := d } }
    have heq : s.setDev d = if d = .ready then ({ s with fns := fns, boot := { s.boot with state := d } } : State).clearBreaks else { s with fns := fns, boot := { s.boot with state := d } } := by
      simp only [State.setDev, if_neg hd]
      rw [hfns]
    rw [heq]
    split
    · obtain ⟨⟨rooms, hrest⟩, hrooms⟩ := ({ s with fns := fns, boot := { s.boot with state := d } } : State).clearBreaks_spec
      exact ⟨fns, rooms, hrest, hslots, hrooms⟩
    · exact ⟨fns, s.rooms, rfl, hslots, fun q => ⟨_, rfl⟩⟩

theorem State.persistentFlags_flagged (s : State) : s.Flagged s.persistentFlags := by
  unfold State.persistentFlags
  extract_lets rooms cores paus deg rep t
  have ht : s.Flagged t := by
    unfold t
    split
    · exact s.setDegraded_flagged
    · exact .refl s
  split
  · exact ht.trans t.setReplace_flagged
  · exact ht

theorem State.blowSvn_rest (s : State) : ∃ nvm, s.blowSvn = { s with nvm := nvm } := by
  unfold State.blowSvn
  extract_lets i o word put
  split
  · exact ⟨_, rfl⟩
  · exact ⟨_, rfl⟩

theorem State.drawBootId_frame (s : State) : ∃ sec links, s.drawBootId = { s with sec := sec, links := links } := by
  unfold State.drawBootId
  split
  · exact ⟨_, _, rfl⟩
  · rw [State.generate_rest]
    exact ⟨_, _, rfl⟩

/-- The live rooms are noted as clean. -/
def State.markClean (s : State) (l : List Nat) : State := l.foldl (fun v r => v.setRoom r { v.room r with clean := true }) s

theorem State.markClean_spec (s : State) (l : List Nat) : (∃ rooms, s.markClean l = { s with rooms := rooms }) ∧ ∀ r, r ∈ l → ((s.markClean l).room r).clean = true := by
  unfold State.markClean
  induction l using List.reverseRecOn with
  | nil => exact ⟨⟨_, rfl⟩, fun r h => nomatch h⟩
  | append_singleton l q ih =>
    rw [List.foldl_append, List.foldl_cons, List.foldl_nil]
    generalize List.foldl _ s l = t at ih
    obtain ⟨⟨_, hrest⟩, hclean⟩ := ih
    refine ⟨⟨_, by rw [hrest]; rfl⟩, fun r hr => ?_⟩
    rw [State.room_setRoom]
    split
    · rfl
    next hq => exact hclean r ((List.mem_append.mp hr).resolve_right fun h => hq (List.mem_singleton.mp h))

/-- What HIF_BOOT_STATUS and the lock say from the entry to READY or TEST on (R516). -/
def Boot.entering (b : Boot) (now : Nat) : Boot :=
  { b with
    stopState := if b.testStrap then 4 else 5, cause := if b.testStrap then 7 else 0, locked := !b.testStrap
    bootMs := min 0xFFFF ((now - b.releasedAt) / 1000000) }

theorem exec_readyEntry_spec {s : State} (hstate : s.boot.state = .training) (hdone : s.boot.stageDone = true) : ∃ t : State, exec .readyEntry s = .next t ∧
    t.boot.state = (if s.boot.testStrap then .test else .ready) ∧ t.boot.locked = !s.boot.testStrap ∧
    t.boot.bootMs = min 65535 ((s.now - s.boot.releasedAt) / 1000000) ∧ (∀ r, r ∈ s.liveRooms → (t.room r).clean = true) ∧
    (s.sec.drbg = .running → t.links.bootId.isSome = true) ∧ t.mem = s.mem ∧ t.parts = s.parts := by
  obtain ⟨a, ha⟩ : ∃ a : State, a = { s with boot := s.boot.entering s.now } := ⟨_, rfl⟩
  obtain ⟨d, hd⟩ : ∃ d : DevState, d = if s.boot.testStrap then .test else .ready := ⟨_, rfl⟩
  obtain ⟨b, hb⟩ : ∃ b, b = (a.markClean s.liveRooms).persistentFlags := ⟨_, rfl⟩
  obtain ⟨w, hw⟩ : ∃ w, w = b.setDev d := ⟨_, rfl⟩
  obtain ⟨v, hv⟩ : ∃ v, v = if s.boot.testStrap then w else w.blowSvn := ⟨_, rfl⟩
  have hexec : exec .readyEntry s = .next v.drawBootId := by
    change execReadyEntry s = _
    rw [execReadyEntry, if_neg (by simp [hstate, hdone])]
    exact congrArg Host.Outcome.next (by rw [hv, hw, hb, hd, ha]; rfl)
  obtain ⟨⟨_, hclean⟩, hcleaned⟩ := a.markClean_spec s.liveRooms
  obtain ⟨_, _, hflags⟩ := (a.markClean s.liveRooms).persistentFlags_flagged
  obtain ⟨_, _, hset, -, hrooms⟩ := b.setDev_spec d
  rw [← hb] at hflags
  have hbroom (q : Nat) : b.room q = (a.markClean s.liveRooms).room q := by rw [hflags]; rfl
  have hwfacts : w.boot = { s.boot.entering s.now with state := d } ∧ w.sec.drbg = s.sec.drbg ∧ w.mem = s.mem ∧ w.parts = s.parts := by
    rw [hw, hset, hflags, hclean, ha]
    exact ⟨rfl, rfl, rfl, rfl⟩
  have hvw : ∃ nvm, v = { w with nvm := nvm } := by
    rw [hv]
    split
    · exact ⟨_, rfl⟩
    · exact w.blowSvn_rest
  obtain ⟨_, hvw⟩ := hvw
  have hvfacts : v.boot = w.boot ∧ v.sec.drbg = w.sec.drbg ∧ v.mem = w.mem ∧ v.parts = w.parts ∧ v.rooms = w.rooms := by
    rw [hvw]
    exact ⟨rfl, rfl, rfl, rfl, rfl⟩
  obtain ⟨hwboot, hwdrbg, hwmem, hwparts⟩ := hwfacts
  obtain ⟨hvboot, hvdrbg, hvmem, hvparts, hvrooms⟩ := hvfacts
  have hboot := hvboot.trans hwboot
  have hid (hdrbg : s.sec.drbg = .running) : v.drawBootId.links.bootId.isSome = true := by
    refine State.bootId_drawBootId ((hvdrbg.trans hwdrbg).trans hdrbg) ?_
    rw [State.programsRun, hboot, hd]
    cases s.boot.testStrap <;> rfl
  obtain ⟨_, _, hdraw⟩ := v.drawBootId_frame
  refine ⟨v.drawBootId, hexec, ?_, ?_, ?_, fun r hr => ?_, hid, ?_, ?_⟩
  · rw [hdraw]; exact (congrArg Boot.state hboot).trans hd
  · rw [hdraw]; exact congrArg Boot.locked hboot
  · rw [hdraw]; exact congrArg Boot.bootMs hboot
  · have hroom : v.drawBootId.room r = w.room r := by
      rw [hdraw]
      exact congrArg (fun l => (Tab.get {} l r : Room)) hvrooms
    obtain ⟨_, hbrk⟩ := hrooms r
    rw [hroom, hw, hbrk, hbroom]
    exact hcleaned r hr
  · rw [hdraw]; exact hvmem.trans hwmem
  · rw [hdraw]; exact hvparts.trans hwparts

/-! ## FIRMWARE_WATCHDOG (R211, R393, R518) -/

/-- A partition's teardown by the boot ROM changes its own entry alone of the partitions, and no state of the boot. -/
theorem State.silentTeardown_spec (s : State) (p : Nat) : (s.silentTeardown p).boot = s.boot ∧ ((s.silentTeardown p).part p).present = false ∧
    ∀ q, q ≠ p ∨ (s.part q).present = false → (s.silentTeardown p).part q = s.part q := by
  by_cases h : (s.part p).present = true
  · obtain ⟨t, ht⟩ : ∃ t, t = (((s.part p).rooms.foldl State.clearRoom ((s.part p).rooms.foldl State.cancelChannels s)).clearCupboard p) := ⟨_, rfl⟩
    have heq : s.silentTeardown p = (((t.setPart p {}).clearVfObjects (p + 1)).closeApertures (p + 1)).partChanged p := by
      rw [ht]
      exact if_pos h
    have hcancel (l : List Nat) : (l.foldl State.cancelChannels s).boot = s.boot ∧ (l.foldl State.cancelChannels s).parts = s.parts := by
      refine List.foldlRecOn (motive := fun u : State => u.boot = s.boot ∧ u.parts = s.parts) _ _ ⟨rfl, rfl⟩ fun u hu r _ => ?_
      obtain ⟨⟨_, _, hrest⟩, -⟩ := (u.cancelChannels_spec r).1
      rw [hrest]
      exact hu
    have hclear (l : List Nat) (u : State) : (l.foldl State.clearRoom u).boot = u.boot ∧ (l.foldl State.clearRoom u).parts = u.parts :=
      List.foldlRecOn (motive := fun v : State => v.boot = u.boot ∧ v.parts = u.parts) _ _ ⟨rfl, rfl⟩ fun v hv r _ => hv
    have htkept : t.boot = s.boot ∧ t.parts = s.parts := by
      rw [ht]
      exact ⟨(hclear _ _).1.trans (hcancel _).1, (hclear _ _).2.trans (hcancel _).2⟩
    obtain ⟨hboot, hparts⟩ := htkept
    obtain ⟨⟨_, hvf⟩, -⟩ := (t.setPart p {}).vfOfPart_spec p rfl
    have hpart (q : Nat) : (s.silentTeardown p).part q = if q = p then {} else s.part q := by
      have htpart : t.part q = s.part q := congrArg (fun l => (Tab.get {} l q : Part)) hparts
      rw [← htpart, ← t.part_setPart, heq, hvf]
      rfl
    refine ⟨?_, ?_, fun q hq => ?_⟩
    · rw [heq, hvf]
      exact hboot
    · rw [hpart, if_pos rfl]
      rfl
    · rw [hpart]
      split
      next heq =>
        subst heq
        rcases hq with hne | habsent
        · exact absurd rfl hne
        · rw [h] at habsent
          exact nomatch habsent
      next => rfl
  · have heq : s.silentTeardown p = s := if_neg h
    rw [heq]
    exact ⟨rfl, Bool.eq_false_iff.mpr h, fun _ _ => rfl⟩

/-- Every partition below `n` is torn down, and what was absent stays as it was. -/
theorem State.silentTeardowns_spec (s : State) (n : Nat) : ((List.range n).foldl State.silentTeardown s).boot = s.boot ∧
    (∀ p, p < n → (((List.range n).foldl State.silentTeardown s).part p).present = false) ∧
    ∀ p, (s.part p).present = false → ((List.range n).foldl State.silentTeardown s).part p = s.part p := by
  induction n with
  | zero => exact ⟨rfl, fun p hp => absurd hp (Nat.not_lt_zero p), fun _ _ => rfl⟩
  | succ n ih =>
    obtain ⟨hboot, habsent, hkept⟩ := ih
    rw [List.range_succ, List.foldl_append, List.foldl_cons, List.foldl_nil]
    generalize (List.range n).foldl State.silentTeardown s = t at hboot habsent hkept
    obtain ⟨htboot, htabsent, htkept⟩ := t.silentTeardown_spec n
    refine ⟨htboot.trans hboot, fun p hp => ?_, fun p hp => ?_⟩
    · by_cases hpn : p = n
      · rw [hpn, htabsent]
      · rw [htkept p (.inl hpn)]
        exact habsent p (by omega)
    · rw [htkept p (.inr (by rw [hkept p hp]; exact hp)), hkept p hp]

/-- The slots of the functions below `n` are FREE. -/
theorem State.dropSlots_spec (s : State) (n : Nat) : (∃ fns, (List.range n).foldl State.dropSlots s = { s with fns := fns }) ∧
    ∀ f, f < n → (((List.range n).foldl State.dropSlots s).fn f).slots = [] := by
  induction n with
  | zero => exact ⟨⟨_, rfl⟩, fun f hf => absurd hf (Nat.not_lt_zero f)⟩
  | succ n ih =>
    rw [List.range_succ, List.foldl_append, List.foldl_cons, List.foldl_nil]
    generalize (List.range n).foldl State.dropSlots s = t at ih
    obtain ⟨⟨_, hrest⟩, hslots⟩ := ih
    refine ⟨⟨_, by rw [hrest]; rfl⟩, fun f hf => ?_⟩
    rw [State.dropSlots, State.fn_setFn]
    split
    · rfl
    next hne => exact hslots f (by omega)

/-- From `s` to `t` the partitions, the slots and the time of the last expiry stand. -/
structure State.KeepsTornDown (s t : State) : Prop where
  parts : t.parts = s.parts
  slots : ∀ f, (t.fn f).slots = (s.fn f).slots
  expiry : t.boot.lastExpiry = s.boot.lastExpiry

theorem State.KeepsTornDown.trans {s t u : State} (h : s.KeepsTornDown t) (h' : t.KeepsTornDown u) : s.KeepsTornDown u :=
  ⟨h'.parts.trans h.parts, fun f => (h'.slots f).trans (h.slots f), h'.expiry.trans h.expiry⟩

theorem State.keepsTornDown_setDev (s : State) (d : DevState) : s.KeepsTornDown (s.setDev d) := by
  obtain ⟨_, _, hset, hslots, -⟩ := s.setDev_spec d
  rw [hset]
  exact ⟨rfl, hslots, rfl⟩

theorem State.keepsTornDown_recover (s : State) (cause : Nat) : s.KeepsTornDown (s.recover cause) := by
  obtain ⟨⟨_, _, _, hidle⟩, -⟩ := s.portsIdle_spec
  unfold State.recover
  generalize s.portsIdle = t at hidle
  extract_lets power boot power' u
  have hu : s.KeepsTornDown u := by
    refine ⟨?_, fun f => ?_, ?_⟩
    · exact (show u.parts = t.parts from rfl).trans (by rw [hidle])
    · exact congrArg (fun l => (Tab.get {} l f : Fn).slots) ((show u.fns = t.fns from rfl).trans (by rw [hidle]))
    · exact (show u.boot.lastExpiry = t.boot.lastExpiry from rfl).trans (by rw [hidle])
  exact hu.trans (u.keepsTornDown_setDev .recovery)

/-- The boot ROM restarts the firmware in the device state that the module was in. -/
def State.restartFirmware (u : State) (b : DevState) : State :=
  ((({ u with boot := { u.boot with firmwareRunning := false } }.setDev .recovery).startFirmware).setDev b).setCause 0 1

theorem State.restartFirmware_spec (u : State) (b : DevState) : u.KeepsTornDown (u.restartFirmware b) ∧ (u.restartFirmware b).boot.state = b := by
  unfold State.restartFirmware
  obtain ⟨v, hv⟩ : ∃ v : State, v = { u with boot := { u.boot with firmwareRunning := false } } := ⟨_, rfl⟩
  have huv : u.KeepsTornDown v := by
    rw [hv]
    exact ⟨rfl, fun _ => rfl, rfl⟩
  rw [← hv]
  have hdev := v.keepsTornDown_setDev .recovery
  generalize v.setDev .recovery = w at hdev
  have hstart : w.KeepsTornDown w.startFirmware := by
    obtain ⟨_, _, _, _, _, hrest⟩ := w.startFirmware_rest
    rw [hrest]
    exact ⟨rfl, fun _ => rfl, rfl⟩
  generalize w.startFirmware = x at hstart
  obtain ⟨_, _, hset, -, -⟩ := x.setDev_spec b
  have hstate : (x.setDev b).boot.state = b := by rw [hset]
  have hback := x.keepsTornDown_setDev b
  generalize x.setDev b = y at hback hstate
  obtain ⟨⟨_, hcause⟩, hfn⟩ := y.setCause_fn 0 1
  have hlast : y.KeepsTornDown (y.setCause 0 1) := by
    refine ⟨by rw [hcause], fun f => ?_, by rw [hcause]⟩
    obtain ⟨_, _, hf, -⟩ := hfn f
    rw [hf]
  refine ⟨(((huv.trans hdev).trans hstart).trans hback).trans hlast, ?_⟩
  rw [hcause]
  exact hstate

/-- The expiry is noted, and no command without a slot is left. -/
def State.expired (t : State) (now : Nat) : State := { t with boot := { t.boot with lastExpiry := some now }, gysis := { t.gysis with detached := [] } }

theorem State.expired_spec (t : State) (now : Nat) : (∀ p, (t.expired now).part p = t.part p) ∧ (∀ f, (t.expired now).fn f = t.fn f) ∧
    (t.expired now).boot.lastExpiry = some now := ⟨fun _ => rfl, fun _ => rfl, rfl⟩

/-- What the boot ROM leaves once it has torn everything down (R518). -/
def State.tornDown (s : State) : State := ((List.range 17).foldl State.dropSlots ((List.range 16).foldl State.silentTeardown s)).expired s.now

theorem State.tornDown_spec (s : State) : (∀ p, p < 16 → (s.tornDown.part p).present = false) ∧ (∀ f, f < 17 → (s.tornDown.fn f).slots = []) ∧
    s.tornDown.boot.lastExpiry = some s.now := by
  obtain ⟨-, habsent, -⟩ := s.silentTeardowns_spec 16
  unfold State.tornDown
  generalize (List.range 16).foldl State.silentTeardown s = t at habsent
  obtain ⟨⟨_, hrest⟩, hslots⟩ := t.dropSlots_spec 17
  generalize (List.range 17).foldl State.dropSlots t = u at hrest hslots
  obtain ⟨hpart, hfn, hexpiry⟩ := u.expired_spec s.now
  refine ⟨fun p hp => ?_, fun f hf => ?_, hexpiry⟩
  · rw [hpart, hrest]
    exact habsent p hp
  · rw [hfn]
    exact hslots f hf

theorem exec_firmwareWatchdog_spec {s : State} (hruns : s.boot.firmwareRunning = true) (hstate : s.boot.state = .ready ∨ s.boot.state = .test) :
    ∃ t : State, exec .firmwareWatchdog s = .next t ∧
    (∀ p, p < 16 → (t.part p).present = false ∨ t.part p = s.part p ∧ (s.part p).present = false) ∧ (∀ f, f < 17 → (t.fn f).slots = []) ∧
    t.boot.lastExpiry = some s.now ∧
    (∀ a, s.boot.lastExpiry = some a → s.now ≤ a + 3600000000000 → t.boot.state = .recovery ∧ t.boot.cause = 4) ∧
    (s.boot.lastExpiry = none → t.boot.state = s.boot.state ∨ t.boot.state = .recovery ∧ t.boot.cause = 1) := by
  obtain ⟨habsent, hslots, hexpiry⟩ := s.tornDown_spec
  obtain ⟨again, hagain⟩ : ∃ again : Bool, again = (match s.boot.lastExpiry with | some t => decide (s.now ≤ t + hourNs) | none => false) := ⟨_, rfl⟩
  have hexec : exec .firmwareWatchdog s = .next (if again then s.tornDown.recover 4 else if !s.tornDown.imageOk s.tornDown.runningImage then s.tornDown.recover 1
      else s.tornDown.restartFirmware s.boot.state) := by
    have hlive : (!s.boot.firmwareRunning || decide (s.boot.state = .halted) || decide (s.boot.state = .recovery)) = false ∧
        (decide (s.boot.state ≠ .ready) && decide (s.boot.state ≠ .test)) = false := by
      rcases hstate with h | h
      · simp [hruns, h]
      · simp [hruns, h]
    obtain ⟨hon, hserves⟩ := hlive
    change execFirmwareWatchdog s = _
    unfold execFirmwareWatchdog State.restartFirmware State.tornDown State.expired
    dsimp only
    generalize (List.range 17).foldl State.dropSlots ((List.range 16).foldl State.silentTeardown s) = t
    rw [hon, hserves, Bool.or_false, if_neg Bool.false_ne_true, hagain] <;> rfl
  have hfrom {t : State} (h : s.tornDown.KeepsTornDown t) : (∀ p, p < 16 → (t.part p).present = false ∨ t.part p = s.part p ∧ (s.part p).present = false) ∧
      (∀ f, f < 17 → (t.fn f).slots = []) ∧ t.boot.lastExpiry = some s.now :=
    ⟨fun p hp => .inl ((congrArg (fun l => (Tab.get {} l p : Part).present) h.parts).trans (habsent p hp)), fun f hf => (h.slots f).trans (hslots f hf), h.expiry.trans hexpiry⟩
  cases hag : again with
  | true =>
    obtain ⟨hparts, hfree, hlast⟩ := hfrom (s.tornDown.keepsTornDown_recover 4)
    obtain ⟨hrecovery, hcause, -⟩ := s.tornDown.recover_spec 4
    refine ⟨_, by rw [hexec, hag, if_pos rfl], hparts, hfree, hlast, fun a _ _ => ⟨hrecovery, hcause⟩, fun hnone => ?_⟩
    rw [hag, hnone] at hagain
    exact nomatch hagain
  | false =>
    have hfirst (a : Nat) (ha : s.boot.lastExpiry = some a) : ¬s.now ≤ a + 3600000000000 := by
      rw [hag, ha] at hagain
      exact of_decide_eq_false hagain.symm
    by_cases hok : s.tornDown.imageOk s.tornDown.runningImage = true
    · obtain ⟨hkept, hback⟩ := s.tornDown.restartFirmware_spec s.boot.state
      obtain ⟨hparts, hfree, hlast⟩ := hfrom hkept
      exact ⟨_, by rw [hexec, hag, if_neg Bool.false_ne_true, hok, Bool.not_true, if_neg Bool.false_ne_true], hparts, hfree, hlast,
        fun a ha hin => absurd hin (hfirst a ha), fun _ => .inl hback⟩
    · obtain ⟨hparts, hfree, hlast⟩ := hfrom (s.tornDown.keepsTornDown_recover 1)
      obtain ⟨hrecovery, hcause, -⟩ := s.tornDown.recover_spec 1
      exact ⟨_, by rw [hexec, hag, if_neg Bool.false_ne_true, Bool.eq_false_iff.mpr hok, Bool.not_false, if_pos rfl], hparts, hfree, hlast,
        fun a ha hin => absurd hin (hfirst a ha), fun _ => .inr ⟨hrecovery, hcause⟩⟩

/-- Settles O60: resets, fuse read, loading, self-test, training, entry, watchdog, supplies, configuration requests and TAP, each by the lemma about its own row. -/
theorem resetsAndTheBoot : Obligations.ResetsAndTheBoot := by
  refine ⟨fun s src rec tst a => ⟨exec_coldReset_none, fun h => ⟨_, exec_coldReset_cold h, s.coldReset_spec src rec tst a rfl⟩⟩,
    fun s n => ⟨(s.coldSource_rstN n).1, (s.coldSource_rstN n).2, rfl⟩, fun s src rec tst a => exec_warmReset_spec, fun s reads => exec_fuseRead_spec,
    fun fuses n a b c hn => ⟨(coldImage_one fuses a b c hn).1, (coldImage_one fuses a b c hn).2, getLsbD_majority a b c⟩,
    fun s ok hstate hdone => exec_loading_spec hstate hdone ok, fun s hot failed idle => exec_selftest_spec, fun s failed => exec_training_spec,
    fun s => exec_readyEntry_spec, fun s => exec_firmwareWatchdog_spec, fun s k hk hrail hne hfault => ⟨State.powerUp_inOrder hk hrail hne hfault, fun hearly => ?_⟩,
    fun s a => exec_powerUp_release, exec_powerDown_spec, fun s f q hf => ⟨exec_pcieConfigRequest_retry hf, fun hready => ?_⟩,
    fun s i => ⟨exec_tapInstruction_bypass, ?_, ?_, ?_⟩, exec_pcieLinkEvent_spec⟩
  · obtain ⟨t, u, hup, hseq, ht, hu⟩ := State.powerUp_early hk hrail hfault hearly
    exact ⟨t, u, hup, hseq, ht.fault, hu.fault, ht.pwrFaultN, hu.pwrFaultN, ht.held, hu.held, ht.state, hu.state, hu.mem⟩
  · obtain ⟨⟨_, _, _, hrest⟩, hread, hmaster, hmsix⟩ := s.configWrite_spec f q
    refine ⟨_, exec_pcieConfigRequest_ready hf hready, ?_, ?_, ?_, ?_, hmaster, hmsix⟩
    · cases q <;> rfl
    · rw [hrest]; rfl
    · rw [hrest]; rfl
    · rintro rfl
      rw [hread rfl]
      rfl
  · rintro rfl
    rfl
  · rintro rfl
    rfl
  · rintro r hstrap rfl hstate hok
    exact exec_tapInstruction_atticTest hstrap hstate hok

end Sys2Proof.Machine
end
